-- ==== Sys2Proof/Word.lean ====
section
/-! DEFINITION. The words of the model: bytes, byte strings and the 32-bit words of accumulators and registers. -/

namespace Sys2Proof

/-- One byte (R9). -/
abbrev Byte := BitVec 8

/-- A string of bytes as a frame, a record or a DOMAIN value carries it. -/
abbrev Bytes := List Byte

/-- A 32-bit lane of a tile register, an accumulator element or a scalar register (R152, R185, R193). -/
abbrev Word := BitVec 32

end Sys2Proof
end

