-- ==== Sys2Proof/Syntax.lean ====
section
/-! DEFINITION. The commands of the block, one constructor for each row of spec/opcode_table.json, with their operands.
The table gives no operands; those here are the model's reading of each row's rule (assumption log 6). -/

namespace Sys2Proof

/-- Whose beat a beat command belongs to: the module's fabric timer (R47) or the beat of the route in a slot (R45). -/
inductive Timeline where
  | fabric
  | slot (s : Nat)
  deriving DecidableEq, Repr

/-- A requester of the dictionary (R79, R87): its client, its transport (0 PCIe mailbox, 1 VOA, 2 peer, 3 internal) and,
on transports 1 and 2, its session identifier. -/
structure Who where
  client : Nat
  transport : Nat
  session : Nat
  deriving DecidableEq, Repr

/-- A void notice as marks and up reports carry it (R346). -/
structure VoidNotice where
  step : Nat
  slot : Nat
  attempt : Nat
  device : Nat
  deriving DecidableEq, Repr

/-- One slot table of a switch output: 64 entries of one byte (R101).
`net` is 0 scalar, 1 vector, 2 control; `port` numbers the outputs N E S W L (vector: N0 N1 E0 E1 S0 S1 W0 W1 L0 L1). -/
structure SlotTab where
  array : Nat
  set : Nat
  net : Nat
  port : Nat
  entries : Bytes
  deriving DecidableEq, Repr

/-- A lane at the end of a path: the local port of an array, and the lane that a stream owns there (R99, R102). -/
structure LocalLane where
  array : Nat
  port : Nat
  lane : Nat
  deriving DecidableEq, Repr

/-- One entry of a link route table: for a destination device, the link byte of each side (R344). -/
structure LinkRow where
  set : Nat
  device : Nat
  sides : Bytes
  deriving DecidableEq, Repr

/-- A stream of the route: its number, the producing station and output, the lane and channels it holds, and the consumer.
A stream from another module has `fromPeer` set; a stream to another module has `peer` set to the device (R121, R140).
The spec names these things and gives no record layout for them (assumption log 7). -/
structure StreamRow where
  number : Nat
  source : Nat
  output : Nat
  lane : Nat
  dest : Nat
  queue : Nat
  peer : Option Nat
  fromPeer : Option Nat
  channel : Option Nat
  links : List Nat
  deriving DecidableEq, Repr

/-- A steering or merge unit that the route assigns to a station (R132): `merge` tells which kind; `outputs` are the stream
numbers of a steering unit's outputs or the one output of a merge unit; `inputs` the stream numbers that enter it. -/
structure UnitRow where
  array : Nat
  merge : Bool
  number : Nat
  station : Nat
  inputs : List Nat
  outputs : List Nat
  deriving DecidableEq, Repr

/-- A Glaze program of the route image: the station that runs it, its entry point (the Program field of operation entries) and
its bytes, the 8-byte header and the instruction words (R187, R188). -/
structure ProgramRow where
  station : Nat
  entry : Nat
  bytes : Bytes
  deriving DecidableEq, Repr

/-- The parts of a route image (R39), each in the bytes of its own layout. An absent part is `none`.
The spec lays out the records of every part but not the container that joins the parts, so ROUTE_LOAD takes
the parts side by side (assumption log 7). -/
structure RouteParts where
  /-- 16-byte station map entries (R119). -/
  stationMap : Option Bytes
  /-- The firing-table area: operation entries and queue records at 64-byte offsets (R514, R515). -/
  firing : Option Bytes
  /-- Counter records of each station (16 B each, R130). -/
  counters : List (Nat × Bytes)
  slotTables : Option (List SlotTab)
  linkTables : Option (List LinkRow)
  /-- The 2,048-byte allocation table, `mmoCount` MMO descriptors of 96 B, then GA records of 48 B (R516, R165, R221). -/
  descriptors : Option Bytes
  mmoCount : Nat
  /-- 16-byte manifest entries (R278). -/
  manifest : Option Bytes
  /-- Beat plan header, part directory and parts (R52, R53). -/
  beatPlan : Option Bytes
  /-- Stash stream records (24 B) of each Stash station (R213). -/
  stash : List (Nat × Bytes)
  /-- Update records of 48 B (R242). -/
  updates : Bytes
  /-- Buffer pair records (16 B) of each array (R299). -/
  pairs : List (Nat × Bytes)
  /-- Transfer descriptors of 64 B (R292). -/
  transfers : Bytes
  programs : List ProgramRow
  streams : List StreamRow
  units : List UnitRow
  deriving DecidableEq, Repr

/-- What the release order finds on the module (R483, R486, R113): inputs that the medium, the straps and the self-tests give. -/
structure BootFindings where
  /-- BOOT_SRC[1:0] and CLK_MODE[1:0] as the pins stand (latched at a power-on release only, R482). -/
  bootSrc : Nat
  clkMode : Nat
  /-- Sites that fail the reset self-test (R117). -/
  failedSites : List Nat
  /-- Stacks and packages that fail memory training (R483 step 7). -/
  failedStacks : List Nat
  failedPackages : List Nat
  /-- Links that train (R483 step 8). -/
  linksUp : List Nat
  /-- Step 2 of the release order fails: the rails do not ramp (R483). -/
  railsFail : Bool
  deriving DecidableEq, Repr

/-- What a patrol scrub finds in one saggar page (R268): the owner kinds of R268 are 0 a route's stream, station, descriptor or
spill index, 1 a cargo's page table, 2 a ledger (0 command, 1 step, 2 event), 3 the cargo table. -/
structure ScrubFinding where
  correctable : Bool
  frame : Nat
  owner : Nat
  /-- The route slot, cargo record, ledger, or page of the cargo table concerned. -/
  which : Nat
  /-- The stream of the route concerned, or the page of the ledger. -/
  stream : Nat
  deriving DecidableEq, Repr

/-- A received Ethernet frame of a direct port, its fields taken apart as R355 and R356 name them. -/
structure Datagram where
  fcsOk : Bool
  /-- The frame meets every other line of R355's table. -/
  protoOk : Bool
  /-- The frame's length in bytes. -/
  length : Nat
  vlan : Nat
  srcAddr : Bytes
  dstAddr : Bytes
  srcPort : Nat
  dstPort : Nat
  payload : Bytes
  deriving DecidableEq, Repr

/-- The commands, in the order of spec/opcode_table.json. -/
inductive Instr where
  | beatOpen (tl : Timeline)
  | beatMark (link : Nat) (payload : Bytes)
  | initialMarkTimeout
  | markUpstreamTimeout
  | markMasterTimeout
  | beatMasterRepeat
  | latencyMeasure (link : Nat)
  | latencyProbe (link : Nat)
  | latencyReply (link : Nat)
  | upReport (link : Nat) (notices : List VoidNotice) (request : Option Nat)
  | governedAdditionApply
  | closeWindowOpen (slot : Nat)
  | reportCutoff (slot : Nat)
  | verdictApply (slot : Nat)
  | replayStart (slot : Nat)
  | counterCapture
  | objectRead (who : Who) (index sub length : Nat) (staged : Bool)
  | objectWrite (who : Who) (index sub : Nat) (data : Bytes)
  | domainReadSegment (who : Who) (index sub offset length : Nat) (staged : Bool)
  | domainWriteSegment (who : Who) (index sub offset : Nat) (data : Bytes)
  | domainWriteLastSegment (who : Who) (index sub offset : Nat) (data : Bytes)
  | sessionOpen (conn transport client : Nat) (key : Bytes)
  | sessionProof (conn : Nat) (signature : Bytes)
  | sessionClose (session : Nat)
  | sessionIdleTimeout (session : Nat)
  | expertChallenge (who : Who)
  | expertUnlock (who : Who) (data : Bytes)
  | lockExpert (who : Who) (data : Bytes)
  | restoreDefaultsBasic (who : Who)
  | restoreDefaultsAll (who : Who)
  | stagingOpen (who : Who)
  | stagingClose (who : Who)
  | stagingDiscard (who : Who)
  | epochCommit
  | repairSetCommit
  | slotForward (array net port : Nat) (corrected lost : Bool)
  | arraySiteFail (site : Nat)
  | selftestSlice (site : Nat) (fault : Bool)
  | selftestNow (who : Who) (array : Nat) (data : Bytes)
  | markArrayFailed (who : Who) (array : Nat) (data : Bytes)
  | stageSubstitution (who : Who) (array : Nat)
  | stageReturn (who : Who) (array : Nat)
  | switchFault (array : Nat)
  | tileArrive (slot : Nat) (place : LocalLane) (damage : Bytes)
  | joinRefill (slot station queue : Nat) (tag : Option Word)
  | queueCreditReturn (slot : Nat) (word : Word)
  | mmoIssue (slot station op : Nat) (tag : Word)
  | glazeProgramStart (slot station op : Nat) (tag : Word)
  | moveOperation (slot station op : Nat) (tag : Word)
  | stashPut (slot station op : Nat) (tag : Word)
  | stashGet (slot station op : Nat) (tag : Word)
  | kilnUpdate (slot station op : Nat) (tag : Word)
  | exchangeContribute (slot station op : Nat) (tag : Word)
  | forward (slot station op : Nat) (tag : Word)
  | scalarEmit (slot station op : Nat) (tag : Word)
  | tokenEmit (slot station op : Nat) (tag : Word)
  | operationComplete (slot station op : Nat) (tag : Word)
  | tokenArrive (slot array lane : Nat)
  | steerDataArrive (slot array unit : Nat) (damage : Bytes)
  | mergeDataArrive (slot array unit input : Nat) (damage : Bytes)
  | steerOutput (array unit : Nat)
  | streamRestart (slot stream : Nat)
  | routeStart (slot : Nat)
  | routeStartFrame (link : Nat) (fabricId : Bytes) (slot stepLength : Nat)
  | tileStep (array mmo : Nat)
  | outputDrain (array mmo : Nat)
  | latePoint (array transfer : Nat)
  | gAdd (array thread : Nat)
  | gSub (array thread : Nat)
  | gMul (array thread : Nat)
  | gFma (array thread : Nat)
  | gMin (array thread : Nat)
  | gMax (array thread : Nat)
  | gAbs (array thread : Nat)
  | gNeg (array thread : Nat)
  | gCmplt (array thread : Nat)
  | gCmpeq (array thread : Nat)
  | gSel (array thread : Nat)
  | gAnd (array thread : Nat)
  | gOr (array thread : Nat)
  | gXor (array thread : Nat)
  | gShl (array thread : Nat)
  | gShr (array thread : Nat)
  | gMov (array thread : Nat)
  | gCvti (array thread : Nat)
  | gCvtf (array thread : Nat)
  | gPack (array thread : Nat)
  | gUnpack (array thread : Nat)
  | gExp2 (array thread : Nat)
  | gLog2 (array thread : Nat)
  | gRcp (array thread : Nat)
  | gRsqrt (array thread : Nat)
  | gTanh (array thread : Nat)
  | gErf (array thread : Nat)
  | gRsum (array thread : Nat)
  | gRmax (array thread : Nat)
  | gRmin (array thread : Nat)
  | gRamax (array thread : Nat)
  | gRssq (array thread : Nat)
  | gLd (array thread : Nat)
  | gSt (array thread : Nat)
  | gTout (array thread : Nat)
  | gSli (array thread : Nat)
  | gSadd (array thread : Nat)
  | gSmul (array thread : Nat)
  | gSfrom (array thread : Nat)
  | gSetext (array thread : Nat)
  | gLoop (array thread : Nat)
  | gEnd (array thread : Nat)
  | glazeWordLimit (array thread : Nat)
  | gaAdmit (slot ga source microBatch : Nat)
  | lossItem (slot array stream : Nat)
  | cargoCreate (who : Who) (request : Bytes)
  | cargoFree (who : Who) (request : Bytes)
  | cargoPin (who : Who) (request : Bytes)
  | cargoUnpin (who : Who) (request : Bytes)
  | cargoSetActions (who : Who) (request : Bytes)
  | cargoFlush (who : Who) (request : Bytes)
  | cargoMarkOutOfDate (who : Who) (request : Bytes)
  | cargoCommandDone (client : Nat) (ok : Bool)
  | scrubPass (kind unit : Nat) (findings : List ScrubFinding)
  | writehomeRetry (stack frame : Nat)
  | cargoReadFail (array transfer : Nat)
  | transferIssue (array : Nat)
  | requestIssue (array transfer : Nat)
  | requestLand (array transfer request : Nat) (hostData : Bytes)
  | writeAcknowledge (array transfer request : Nat)
  | droverAccess (array core thread slot : Nat) (store : Bool) (handle offset length : Nat) (data : Bytes) (tag : Word)
  | flashPageRead (page retries : Nat) (uncorrectable : Bool)
  | flashProgram
  | mapCheckpoint
  | garbageCollection
  | staticWearLevelling
  | readDisturbRelocation (set : Nat)
  | blockRetire (set : Nat)
  | bankSample (volts : Word)
  | loadTest
  | loadTestNow (who : Who) (data : Bytes)
  | loadTestDone (drop : Word)
  | storeAdmit (store : Nat)
  | inputLow
  | inputLowClear
  | inputLoss (byPin : Bool)
  | inputHigh (entering : Bool)
  | inputOvervoltage
  | overcurrent
  | holdupQuiesceEnd
  | holdupProgramDone
  | powerLossRecord (energy volts : Word) (inputBack : Bool)
  | laneFail (link lane : Nat)
  | spareLaneTrained (link : Nat)
  | spareLaneJoin (link : Nat)
  | flitSend (link channel : Nat)
  | flitReceive (link : Nat) (header payload : Bytes) (corrected uncorrectable : Nat)
  | retryRequest (link sequence : Nat)
  | linkRetrain (link : Nat)
  | linkUp (link : Nat)
  | identityFrame (link device peerLink : Nat)
  | laneControlFrame (link lane kind : Nat)
  | digestFrame (link : Nat) (digest : Bytes) (beat : Nat)
  | peerAccessFrame (link dest : Nat) (frame : Bytes)
  | sumReport (payload : Bytes)
  | normReport (payload : Bytes)
  | ringPartialArrive (slot record chunk ring : Nat) (values : Bytes)
  | lateFoldDecide (slot record chunk ring : Nat)
  | lateTileLand (slot record chunk ring first : Nat) (step : Nat) (values : Bytes)
  | portModeChipLink (who : Who) (link : Nat)
  | portModeEthernet (who : Who) (link mode : Nat)
  | datagramReceive (link : Nat) (frame : Datagram)
  | retrainLinkNow (who : Who) (link : Nat) (data : Bytes)
  | backgroundCopy (slot tier unit : Nat)
  | buddySend (slot : Nat)
  | buddyReceive (device slot step page : Nat) (contents : Bytes) (header : Option Bytes)
  | buddySlotComplete (slot : Nat)
  | flashCheckpoint (slot : Nat)
  | restoreRequest (who : Who) (data : Bytes)
  | restoreStart (slot : Nat)
  | firmwareHandover (who : Who) (data : Bytes)
  | handoverServiceMove (selfCheckOk : Bool)
  | admissionRequest (who : Who) (client : Nat) (request : Bytes)
  | slotGive (slot : Nat)
  | routeLoad (slot : Nat) (parts : RouteParts)
  | routeResident (slot : Nat)
  | cancelAdmission (who : Who) (client : Nat) (data : Bytes)
  | releaseSlot (who : Who) (client : Nat) (data : Bytes)
  | releaseTakeEffect (slot : Nat)
  | requestPost (client slot offset : Nat) (data : Bytes)
  | coneRelease (slot request : Nat)
  | resultReleaseWrite (client slot : Nat) (value : BitVec 64)
  | refreshCopy (entry : Nat)
  | bankSwap (slot : Nat)
  | clearCounters (who : Who) (data : Bytes)
  | bootDoorbell (value : Word) (segment : Bytes)
  | bar4WindowSet (who : Who) (window : Nat) (record : Bytes)
  | bar4Read (function offset length : Nat) (hostData : Option Bytes)
  | bar4Write (function offset : Nat) (data : Bytes)
  | readRefusedWindows (who : Who)
  | pcieRetrainNow (who : Who) (data : Bytes)
  | vfEnable (k : Nat)
  | vfDisable
  | functionLevelReset (function : Nat)
  | pcieLinkDown
  | powerOnReset
  | perst
  | sysrst
  | watchdogMiss (core : Nat)
  | resetFabric (who : Who)
  | resetWarm (who : Who)
  | resetCold (who : Who)
  | storeDrainDone
  | resetStretchEnd (findings : BootFindings)
  | thermTrip (sensor : Nat)
  | thermTripRecover
  | advanceAntiRollback (who : Who) (data : Bytes)
  | firmwareImageWrite (who : Who) (offset : Nat) (data : Bytes) (last : Bool)
  | imageProgramDone
  | attestationNonce (who : Who) (nonce : Bytes)
  | attestationSigned (client : Nat)
  | cableShort (connector : Nat)
  | mailboxDoorbell (function : Nat) (value : Word) (frame : Bytes)
  | voaRequestFrame (conn : Nat) (frame : Bytes)
  | managementEchoRequest (kind : Nat) (data : Bytes)
  | managementLinkUp
  | managementLinkDown
  | autoNegotiationDone (link : Nat)
  | ethernetPortDown (link : Nat)
  | pcieLinkUp (rate width : Nat)
  | perstRelease
  | msixUnmask (function vector : Nat)
  | selftestDone (array : Nat)
  | coefficientBlockDone (slot : Nat)
  | bankExhausted
  deriving DecidableEq, Repr

end Sys2Proof
end

