-- ==== Sys2Proof/Decode.lean ====
section
/-! DEFINITION. Commands from words. The block has no instruction encodings: no row of spec/opcode_table.json gives bits, so no word spells a
command. -/

namespace Sys2Proof

/-- The command that a word spells by the table's bits: the table gives none. -/
def decodeTableWord (_nbits _w : Nat) : Option Instr := none

end Sys2Proof
end

