-- ==== Sys2Proof/Config.lean ====
section
/-! DEFINITION. What the spec leaves open: values fixed in manufacture, and free values. Nothing can be proved of any of these
constants beyond its type (assumption log 4). -/

namespace Sys2Proof.Config

/-- Serial number, certificate and identity public key of the module, its revisions and boot ROM version (R493, R495). -/
opaque serialNumber : Bytes
opaque certificate : Bytes
opaque identityKey : Bytes
opaque hardwareRevision : Nat
opaque dieRevision : Nat
opaque bootRomVersion : Nat

/-- The FRU records of a part number, a serial number and a hardware revision; the spec names their format and does not state it (R511). -/
opaque fruRecords : Bytes → Bytes → Nat → Bytes

/-- The root key hash in the fuses (R496). -/
opaque rootKeyHash : Bytes

/-- The MAC addresses of the management port and of the direct ports (R359). -/
opaque managementMac : Nat
opaque portMac : Nat → Nat

/-- The firmware image in slots A and B when the model starts (R487). -/
opaque imageA : Bytes

/-- The images in the recovery SPI NOR (R490). -/
opaque recoveryImage : Bytes
opaque manufacturingImage : Bytes

/-- Random strings of the module: a draw and a length (R79, R88, R393). -/
opaque random : Nat → Nat → Bytes

/-- The signature of the identity key over the bytes of a report (R494). -/
opaque sign : Bytes → Nat → Bytes

/-- The allocator's pick among the free frames of a unit (R274). -/
opaque pick : Nat → Nat

/-- Words that the spec does not state, by draw and place: those of blocks released without a drain (R154). -/
opaque freeWord : Nat → Nat → Word

/-- The INT32 absolute value of −2^31, and its negation (R192). -/
opaque absMin : Word
opaque negMin : Word

/-- Which neighbour a value takes that rounds to the code of its format's infinity where codes above it are finite (R204): the upper one. By
magnitude. -/
opaque besideInfinity : Nat → Int → Bool

/-- Cycles for which the two pipes of an array's Glaze unit were ACTIVE in a beat, by beat and array (R209). -/
opaque pipeCycles : Nat → Nat → Nat

/-- The element that stands for a NaN in a block-scaled format without a NaN code (R147). -/
opaque nanElement : Nat → Nat

/-- The scale byte of a Microscaling block that holds a NaN, by draw and block (R155). -/
opaque nanScale : Nat → Nat → Byte

/-- The exactly rounded transcendentals are met within a bound (R196): the distance in units in the last place, offset by the
bound, by operation and operand. -/
opaque exp2Ulp : Word → Fin 3
opaque log2Ulp : Word → Fin 3
opaque rcpUlp : Word → Fin 3
opaque rsqrtUlp : Word → Fin 3
opaque tanhUlp : Word → Fin 5
opaque erfUlp : Word → Fin 5

/-- What host memory holds behind a page that the cache fetches, by draw and bus address (R280). -/
opaque hostByte : Nat → Nat → Byte

/-- Bytes of one record of the FTL journal, which the spec does not state (R320). -/
opaque journalRecord : Nat

/-- Depth of the queue that a stream to another module feeds: this module's image does not name it (R140). -/
opaque peerDepth : Nat → Nat

/-- A result that the spec does not state, by draw. -/
opaque freeNat : Nat → Nat

/-- What the module's sensors read, by stamp and sensor: input voltage, input power, hottest die sensor (R330). -/
opaque measure : Nat → Nat → Word

end Sys2Proof.Config
end

