-- ==== Sys2Proof/Machine/Bytes.lean ====
section
/-! DEFINITION. Byte strings: little-endian fields (R9), bit fields, slices, and the CRC-16 of headers (R121, R338). -/

namespace Sys2Proof.Machine

/-- The `k` bytes of `n`, least significant first; `n` is taken modulo 256 ^ k (R9). -/
def le : Nat → Nat → Bytes
  | 0, _ => []
  | k + 1, n => BitVec.ofNat 8 n :: le k (n / 256)

/-- The number a little-endian byte string holds (R9). -/
def leNat : Bytes → Nat
  | [] => 0
  | b :: bs => b.toNat + 256 * leNat bs

/-- The number a big-endian byte string holds (the octet strings of R79). -/
def beNat (bs : Bytes) : Nat := bs.foldl (fun n b => n * 256 + b.toNat) 0

/-- The `k` bytes of `n`, most significant first (I2OSP, R79). -/
def be (k n : Nat) : Bytes := (le k n).reverse

/-- Bytes `o` to `o + n - 1` of `bs`; bytes beyond the end are left out. -/
def slice (bs : Bytes) (o n : Nat) : Bytes := (bs.drop o).take n

/-- The little-endian field of `n` bytes at offset `o`. -/
def field (bs : Bytes) (o n : Nat) : Nat := leNat (slice bs o n)

/-- Bits [hi:lo] of a number (R9). -/
def bits (n hi lo : Nat) : Nat := (n >>> lo) % 2 ^ (hi + 1 - lo)

/-- One bit of a number as a truth value. -/
def bit (n i : Nat) : Bool := n.testBit i

/-- `n` zero bytes. -/
def zeroBytes (n : Nat) : Bytes := List.replicate n 0

/-- `n` bytes of 0xFF. -/
def onesBytes (n : Nat) : Bytes := List.replicate n 255

/-- The bytes `bs` cut or zero-padded to length `n`. -/
def padTo (n : Nat) (bs : Bytes) : Bytes := bs.take n ++ zeroBytes (n - bs.length)

/-- Every byte of the slice is zero: a reserved field as R16 asks. -/
def zeroAt (bs : Bytes) (o n : Nat) : Bool := (slice bs o n).all (· == 0)

/-- `bs` with `new` written from offset `o` on; `bs` is zero-extended where it is too short. -/
def overwrite (bs : Bytes) (o : Nat) (new : Bytes) : Bytes :=
  padTo o bs ++ new ++ bs.drop (o + new.length)

/-- The byte string cut into records of `n` bytes; a short rest is left out. -/
def chunksOf (n : Nat) : Nat → Bytes → List Bytes
  | 0, _ => []
  | fuel + 1, bs => if n = 0 ∨ bs.length < n then [] else bs.take n :: chunksOf n fuel (bs.drop n)

/-- The records of `n` bytes in a table. -/
def records (n : Nat) (bs : Bytes) : List Bytes := chunksOf n bs.length bs

/-- ceil(a ÷ b). -/
def ceilDiv (a b : Nat) : Nat := (a + b - 1) / b

/-- `a` rounded up to a multiple of `b`. -/
def roundUp (a b : Nat) : Nat := ceilDiv a b * b

/-- A number of `w` bits read as two's complement. -/
def toSigned (w n : Nat) : Int := if n < 2 ^ (w - 1) then (n : Int) else (n : Int) - 2 ^ w

/-- One bit step of the CRC-16 with polynomial 0x1021. -/
def crcShift (c : BitVec 16) : BitVec 16 := if c.msb then (c <<< 1) ^^^ 0x1021#16 else c <<< 1

/-- One byte of the CRC-16, most significant bit first. -/
def crcByte (c : BitVec 16) (b : Byte) : BitVec 16 :=
  crcShift (crcShift (crcShift (crcShift (crcShift (crcShift (crcShift (crcShift
    (c ^^^ (b.setWidth 16 <<< 8)))))))))

/-- CRC-16, polynomial 0x1021, initial value 0xFFFF (R121, R338). -/
def crc16 (bs : Bytes) : BitVec 16 := bs.foldl crcByte 0xFFFF#16

/-- A printable ASCII byte, 20h to 7Eh (R73). -/
def printable (b : Byte) : Bool := 0x20 ≤ b.toNat && b.toNat ≤ 0x7E

/-- The list with element `i` replaced; unchanged where there is no such element. -/
def setNth {α : Type} : List α → Nat → α → List α
  | [], _, _ => []
  | _ :: xs, 0, y => y :: xs
  | x :: xs, i + 1, y => x :: setNth xs i y

/-- The sum of a list of numbers. -/
def sumNat (xs : List Nat) : Nat := xs.foldl (· + ·) 0

/-- No element stands twice. -/
def distinct (xs : List Nat) : Bool :=
  match xs with
  | [] => true
  | x :: r => !r.contains x && distinct r

/-- The elements rise strictly. -/
def ascending (xs : List Nat) : Bool :=
  match xs with
  | [] => true
  | [_] => true
  | x :: y :: r => x < y && ascending (y :: r)

end Sys2Proof.Machine
end

