-- ==== Sys2Proof/Machine/Float.lean ====
section
/-! DEFINITION. Floating-point arithmetic: exact dyadic values, and one rounding into a format. Every operation of the spec is
formed exactly and narrowed once (R146, R195, R252). -/

namespace Sys2Proof.Machine

/-- A floating-point value: (-1)^neg × m × 2^e, an infinity, or NaN. A zero and a NaN keep their sign. -/
inductive FVal where
  | nan (neg : Bool)
  | inf (neg : Bool)
  | fin (neg : Bool) (m : Nat) (e : Int)
  deriving DecidableEq, Repr

/-- A binary format (R12, R202): sign bits, exponent bits, mantissa bits, bias, whether it has subnormals and infinities,
and its NaN code (0 none, 1 exponent all ones with non-zero mantissa, 2 the all-ones magnitude). -/
structure FFmt where
  s : Nat
  e : Nat
  m : Nat
  bias : Int
  subnormals : Bool
  infinity : Bool
  nanCode : Nat
  deriving DecidableEq, Repr

def fp32 : FFmt := ⟨1, 8, 23, 127, true, true, 1⟩
def fp64 : FFmt := ⟨1, 11, 52, 1023, true, true, 1⟩
def bf16 : FFmt := ⟨1, 8, 7, 127, true, true, 1⟩
def fp16 : FFmt := ⟨1, 5, 10, 15, true, true, 1⟩
def e4m3 : FFmt := ⟨1, 4, 3, 7, true, false, 2⟩
def e5m2 : FFmt := ⟨1, 5, 2, 15, true, true, 1⟩
def e3m2 : FFmt := ⟨1, 3, 2, 3, true, false, 0⟩
def e2m3 : FFmt := ⟨1, 2, 3, 1, true, false, 0⟩
def e2m1 : FFmt := ⟨1, 2, 1, 1, true, false, 0⟩

/-- Width of an element in bits (R203). -/
def fmtWidth (f : FFmt) : Nat := f.s + f.e + f.m

/-- A magnitude (exponent and mantissa bits) that one of the format's specials claims (R204). -/
def magnitudeClaimed (f : FFmt) (mag : Nat) : Bool :=
  let e := mag / 2 ^ f.m
  let m := mag % 2 ^ f.m
  let allOnes := f.e ≠ 0 && e = 2 ^ f.e - 1
  (f.infinity && allOnes && m = 0) || (f.nanCode = 1 && allOnes && m ≠ 0) ||
  (f.nanCode = 2 && mag = 2 ^ (f.e + f.m) - 1)

/-- The magnitude bits of the largest finite value: the largest magnitude that no special claims (R204). -/
def maxMagnitude (f : FFmt) : Nat :=
  let top := 2 ^ (f.e + f.m)
  let hi := (2 ^ f.e - 1) * 2 ^ f.m
  ([top - 1, top - 2, hi, hi - 1].find? (fun g => !magnitudeClaimed f g)).getD 0

/-- The value of a magnitude (exponent and mantissa bits) that no special claims (R204). -/
def magnitudeValue (f : FFmt) (neg : Bool) (mag : Nat) : FVal :=
  let e := mag / 2 ^ f.m
  let m := mag % 2 ^ f.m
  if f.e = 0 then .fin neg m (-f.bias)
  else if e = 0 then (if f.subnormals then .fin neg m (1 - f.bias - f.m) else .fin neg 0 0)
  else .fin neg (2 ^ f.m + m) ((e : Int) - f.bias - f.m)

/-- The value an encoding has (R204). -/
def decodeF (f : FFmt) (n : Nat) : FVal :=
  let mag := n % 2 ^ (f.e + f.m)
  let neg := f.s = 1 && bit n (f.e + f.m)
  let e := mag / 2 ^ f.m
  let m := mag % 2 ^ f.m
  let allOnes := f.e ≠ 0 && e = 2 ^ f.e - 1
  if f.infinity && allOnes && m = 0 then .inf neg
  else if f.nanCode = 1 && allOnes && m ≠ 0 then .nan neg
  else if f.nanCode = 2 && mag = 2 ^ (f.e + f.m) - 1 then .nan neg
  else magnitudeValue f neg mag

/-- How a conversion rounds (R156): to nearest even, or by adding bits of the 64-bit random value `z`. -/
inductive Rnd where
  | nearest
  | random (z : Nat)
  deriving DecidableEq, Repr

/-- The dyadic magnitude m × 2^e rounded to a multiple of 2^q: the multiple, as a number of steps of 2^q.
Stochastic rounding adds the low d bits of z to the magnitude and truncates d bits (R156). -/
def roundAt (r : Rnd) (m : Nat) (e q : Int) : Nat :=
  if q ≤ e then m * 2 ^ (e - q).toNat
  else
    let d := (q - e).toNat
    match r with
    | .random z => (m + z % 2 ^ d) / 2 ^ d
    | .nearest =>
      let n := m / 2 ^ d
      let rest := m % 2 ^ d
      if 2 ^ d < 2 * rest || (2 ^ d == 2 * rest && n % 2 == 1) then n + 1 else n

/-- The exponent of the least step of the format at the value m × 2^e: the unit of its last place (R156). -/
def stepAt (f : FFmt) (m : Nat) (e : Int) : Int :=
  if f.e = 0 then -f.bias
  else max ((Nat.log2 m : Int) + e - f.m) (1 - f.bias - f.m)

/-- What a narrowing conversion gives: the bits, and the counts it raises (R157, R204). -/
structure Narrowed where
  bits : Nat
  saturated : Bool
  negClamped : Bool
  nanLost : Bool
  deriving DecidableEq, Repr

/-- The sign bit of a format, in place. -/
def signBits (f : FFmt) (neg : Bool) : Nat := if neg && f.s = 1 then 2 ^ (f.e + f.m) else 0

/-- The bits of a format's infinity. -/
def infBits (f : FFmt) : Nat := (2 ^ f.e - 1) * 2 ^ f.m

/-- The bits of a format's NaN: the quiet NaN with clear sign under code 1, the all-ones magnitude under code 2 (R147, R204). -/
def nanBits (f : FFmt) : Nat := if f.nanCode = 2 then 2 ^ (f.e + f.m) - 1 else infBits f + 2 ^ (f.m - 1)

/-- The magnitude bits of n steps of 2^q, where n × 2^q is a value of the format or beyond its largest. -/
def magnitudeBits (f : FFmt) (n : Nat) (q : Int) : Nat :=
  if n = 0 then 0
  else if f.e = 0 then n
  else
    let top := (Nat.log2 n : Int) + q
    if top < 1 - f.bias then (if f.subnormals then n else 0)
    else
      let lg := Nat.log2 n
      let frac := if lg ≤ f.m then n * 2 ^ (f.m - lg) else n / 2 ^ (lg - f.m)
      (top + f.bias).toNat * 2 ^ f.m + (frac - 2 ^ f.m)

/-- A finite magnitude, or a neighbour of it where it is the code of the infinity: that code is excluded, and R204 does not say which of its
neighbours a value takes that rounds to it. -/
def besideInfinity (f : FFmt) (m : Nat) (e : Int) (mag : Nat) : Nat :=
  if f.infinity && f.e != 0 && mag == infBits f then (if Config.besideInfinity m e then mag + 1 else mag - 1) else mag

/-- One conversion of a value into a format (R156, R157, R204). `toInf` tells whether a magnitude beyond the largest finite
value becomes the infinity where the format has one, or the largest finite value. -/
def narrow (f : FFmt) (r : Rnd) (toInf : Bool) (v : FVal) : Narrowed :=
  match v with
  | .nan neg =>
    if f.nanCode = 0 then ⟨signBits f neg + maxMagnitude f, false, false, true⟩ else ⟨nanBits f, false, false, false⟩
  | .inf neg =>
    if neg && f.s = 0 then ⟨0, false, true, false⟩
    else if toInf && f.infinity then ⟨signBits f neg + infBits f, false, false, false⟩
    else ⟨signBits f neg + maxMagnitude f, true, false, false⟩
  | .fin neg m e =>
    if m = 0 then ⟨signBits f neg, false, false, false⟩
    else if neg && f.s = 0 then ⟨0, false, true, false⟩
    else
      let q := stepAt f m e
      let mag := magnitudeBits f (roundAt r m e q) q
      if mag ≤ maxMagnitude f then ⟨signBits f neg + besideInfinity f m e mag, false, false, false⟩
      else if toInf && f.infinity then ⟨signBits f neg + infBits f, false, false, false⟩
      else ⟨signBits f neg + maxMagnitude f, true, false, false⟩

/-- A value rounded to nearest even in an IEEE 754 format, as a number of bits (R146, R195). -/
def roundTo (f : FFmt) (v : FVal) : Nat := (narrow f .nearest true v).bits

/-- A value rounded to nearest even and read back. -/
def roundF (f : FFmt) (v : FVal) : FVal := decodeF f (roundTo f v)

def fneg : FVal → FVal
  | .nan _ => .nan false
  | .inf s => .inf (!s)
  | .fin s m e => .fin (!s) m e

def fabs : FVal → FVal
  | .nan _ => .nan false
  | .inf _ => .inf false
  | .fin _ m e => .fin false m e

/-- The exact product (IEEE 754: an infinity times zero is NaN, R147). -/
def fmul : FVal → FVal → FVal
  | .nan _, _ => .nan false
  | _, .nan _ => .nan false
  | .inf s, .inf t => .inf (s != t)
  | .inf s, .fin t m _ => if m = 0 then .nan false else .inf (s != t)
  | .fin s m _, .inf t => if m = 0 then .nan false else .inf (s != t)
  | .fin s m e, .fin t n g => .fin (s != t) (m * n) (e + g)

/-- The exact sum; an exact zero of opposite signs is +0, as under round-to-nearest-even. -/
def fadd : FVal → FVal → FVal
  | .nan _, _ => .nan false
  | _, .nan _ => .nan false
  | .inf s, .inf t => if s = t then .inf s else .nan false
  | .inf s, .fin _ _ _ => .inf s
  | .fin _ _ _, .inf t => .inf t
  | .fin s m e, .fin t n g =>
    if m = 0 ∧ n = 0 then .fin (s && t) 0 0
    else
      let q := min e g
      let a : Int := (m : Int) * 2 ^ (e - q).toNat
      let b : Int := (n : Int) * 2 ^ (g - q).toNat
      let c := (if s then -a else a) + (if t then -b else b)
      .fin (c < 0) c.natAbs q

def fsub (a b : FVal) : FVal := fadd a (fneg b)

/-- Integer square root by bits: the largest r with r × r ≤ n and r < 2^k + acc. -/
def isqrtBits : Nat → Nat → Nat → Nat
  | 0, _, acc => acc
  | k + 1, n, acc => if (acc + 2 ^ k) * (acc + 2 ^ k) ≤ n then isqrtBits k n (acc + 2 ^ k) else isqrtBits k n acc

def isqrt (n : Nat) : Nat := isqrtBits (Nat.log2 n / 2 + 1) n 0

/-- The quotient, carried to 130 bits and more with a sticky last bit, so that every rounding of it is the rounding of the
exact quotient. -/
def fdiv : FVal → FVal → FVal
  | .nan _, _ => .nan false
  | _, .nan _ => .nan false
  | .inf _, .inf _ => .nan false
  | .inf s, .fin t _ _ => .inf (s != t)
  | .fin s _ _, .inf t => .fin (s != t) 0 0
  | .fin s m e, .fin t n g =>
    if n = 0 then (if m = 0 then .nan false else .inf (s != t))
    else if m = 0 then .fin (s != t) 0 0
    else
      let k := 130 + Nat.log2 n
      let q := m * 2 ^ k / n
      let rest := if m * 2 ^ k % n = 0 then 0 else 1
      .fin (s != t) (2 * q + rest) (e - g - (k : Int) - 1)

/-- The square root, carried to 130 bits and more with a sticky last bit. -/
def fsqrt : FVal → FVal
  | .nan _ => .nan false
  | .inf s => if s then .nan false else .inf false
  | .fin s m e =>
    if m = 0 then .fin s 0 0
    else if s then .nan false
    else
      let k := 260 + (e % 2).toNat
      let n := m * 2 ^ k
      let r := isqrt n
      let rest := if r * r = n then 0 else 1
      .fin false (2 * r + rest) ((e - (k : Int)) / 2 - 1)

/-- a < b; false where either is NaN. -/
def flt : FVal → FVal → Bool
  | .nan _, _ => false
  | _, .nan _ => false
  | .inf s, .inf t => s && !t
  | .inf s, .fin _ _ _ => s
  | .fin _ _ _, .inf t => !t
  | .fin s m e, .fin t n g =>
    match fadd (.fin s m e) (.fin (!t) n g) with
    | .fin u k _ => u && k != 0
    | _ => false

/-- a = b as numbers; false where either is NaN, true for zeros of either sign. -/
def feq : FVal → FVal → Bool
  | .nan _, _ => false
  | _, .nan _ => false
  | .inf s, .inf t => s = t
  | .inf _, .fin _ _ _ => false
  | .fin _ _ _, .inf _ => false
  | .fin s m e, .fin t n g =>
    match fadd (.fin s m e) (.fin (!t) n g) with
    | .fin _ k _ => k == 0
    | _ => false

def fisNan : FVal → Bool
  | .nan _ => true
  | _ => false

def fisFinite : FVal → Bool
  | .fin _ _ _ => true
  | _ => false

def fisZero : FVal → Bool
  | .fin _ m _ => m == 0
  | _ => false

/-- The sign of a value, with the sign of a zero. -/
def fneg? : FVal → Bool
  | .nan _ => false
  | .inf s => s
  | .fin s _ _ => s

/-- A natural number as a value. -/
def fnat (n : Nat) : FVal := .fin false n 0

/-- An integer as a value. -/
def fint (n : Int) : FVal := .fin (n < 0) n.natAbs 0

/-- floor(log2 |v|) of a finite non-zero value (R155). -/
def flog2 (m : Nat) (e : Int) : Int := (Nat.log2 m : Int) + e

/-- The value a 32-bit word has as FP32. -/
def f32 (w : Word) : FVal := decodeF fp32 w.toNat

/-- A value rounded once to FP32, nearest even; NaN is 0x7FC0_0000 (R146, R147, R195). -/
def toF32 (v : FVal) : Word := BitVec.ofNat 32 (roundTo fp32 v)

def add32 (a b : Word) : Word := toF32 (fadd (f32 a) (f32 b))
def sub32 (a b : Word) : Word := toF32 (fsub (f32 a) (f32 b))
def mul32 (a b : Word) : Word := toF32 (fmul (f32 a) (f32 b))
def fma32 (a b c : Word) : Word := toF32 (fadd (fmul (f32 a) (f32 b)) (f32 c))
def div32 (a b : Word) : Word := toF32 (fdiv (f32 a) (f32 b))
def sqrt32 (a : Word) : Word := toF32 (fsqrt (f32 a))

/-- Binary64 arithmetic on encodings (R229, R249, R351). -/
def f64 (n : Nat) : FVal := decodeF fp64 n
def toF64 (v : FVal) : Nat := roundTo fp64 v
def add64 (a b : Nat) : Nat := toF64 (fadd (f64 a) (f64 b))
def sub64 (a b : Nat) : Nat := toF64 (fsub (f64 a) (f64 b))
def mul64 (a b : Nat) : Nat := toF64 (fmul (f64 a) (f64 b))
def div64 (a b : Nat) : Nat := toF64 (fdiv (f64 a) (f64 b))

/-- An FP32 word as a binary64 encoding, exactly. -/
def widen64 (a : Word) : Nat := toF64 (f32 a)

/-- A binary64 encoding rounded once to FP32. -/
def narrow32 (n : Nat) : Word := toF32 (f64 n)

/-- The word is subnormal as FP32. -/
def subnormal32 (w : Word) : Bool := bits w.toNat 30 23 == 0 && bits w.toNat 22 0 != 0

/-- A subnormal FP32 word flushed to zero of the same sign where the setting asks for it (R147, R195). -/
def flush32 (on : Bool) (w : Word) : Word := if on && subnormal32 w then w &&& 0x80000000#32 else w

/-- The word is NaN as FP32. -/
def isNan32 (w : Word) : Bool := fisNan (f32 w)

/-- A finite value rounded to the nearest integer, ties to even. -/
def nearestInt (neg : Bool) (m : Nat) (e : Int) : Int :=
  let n := roundAt .nearest m e 0
  if neg then -(n : Int) else n

/-- An integer clamped to [lo, hi], and whether it was clamped. -/
def clampInt (lo hi x : Int) : Int × Bool := if x < lo then (lo, true) else if hi < x then (hi, true) else (x, false)

def int32Min : Int := -(2 ^ 31)
def int32Max : Int := 2 ^ 31 - 1

end Sys2Proof.Machine
end

