-- ==== Sys2Proof/Machine/Formats.lean ====
section
/-! DEFINITION. Element formats: the format codes of R12, the user formats of R202 to R204, block scales (R155, R205), stored
rows (R205, R518) and the random bits of stochastic rounding (R156). -/

namespace Sys2Proof.Machine

/-- An element format as the converters use it: its floating-point part, whether it is an integer format, its element width in
bits, the elements that share an E8M0 scale (0 for none), and whether it is a Microscaling format. -/
structure EFmt where
  flt : FFmt
  int : Bool
  width : Nat
  block : Nat
  mx : Bool
  deriving DecidableEq, Repr

/-- The 16-byte entry of user format u in a format table (R202). -/
def userEntry (table : Bytes) (u : Nat) : Bytes := slice (padTo 256 table) (16 * u) 16

/-- User format u is defined (R202). -/
def userDefined (table : Bytes) (u : Nat) : Bool := field (userEntry table u) 0 1 == 1

/-- The floating-point format that an entry describes (R202). -/
def userFmt (e : Bytes) : FFmt :=
  let sp := field e 6 1
  ⟨field e 1 1, field e 2 1, field e 3 1, toSigned 16 (field e 4 2), bit sp 3, bit sp 2, bits sp 1 0⟩

/-- The block of a user format: 0 none, 16 or 32 elements (R202). -/
def userBlock (e : Bytes) : Nat := match bits (field e 7 1) 1 0 with | 1 => 16 | 2 => 32 | _ => 0

/-- The rules of R203 on one entry: a defined entry meets every bound, an undefined one is all zero. -/
def userEntryOk (e : Bytes) : Bool :=
  let f := userFmt e
  let w := fmtWidth f
  match field e 0 1 with
  | 0 => zeroAt e 0 16
  | 1 =>
    f.s ≤ 1 && f.e ≤ 8 && f.m ≤ 23 && 2 ≤ w && w ≤ 16 &&
    bits (field e 6 1) 7 4 == 0 && f.nanCode != 3 &&
    bits (field e 7 1) 7 2 == 0 && bits (field e 7 1) 1 0 != 3 && zeroAt e 8 8 &&
    (!f.infinity || (2 ≤ f.e && (f.nanCode != 1 || 1 ≤ f.m))) &&
    (f.nanCode != 1 || (1 ≤ f.e && 1 ≤ f.m)) &&
    (f.e != 0 || field e 6 1 == 0)
  | _ => false

/-- Every entry of a format table meets R203. -/
def formatTableOk (t : Bytes) : Bool := (records 16 t).all userEntryOk

/-- The code is reserved: 0Ch to 0Fh, or outside 5 bits (R12). -/
def reservedCode (c : Nat) : Bool := (0x0C ≤ c && c ≤ 0x0F) || 0x20 ≤ c

/-- The format a code names under a format table; none for a reserved code or an undefined user format (R12, R202). -/
def formatOf (table : Bytes) (c : Nat) : Option EFmt :=
  match c with
  | 0x00 => some ⟨fp32, false, 32, 0, false⟩
  | 0x01 => some ⟨bf16, false, 16, 0, false⟩
  | 0x02 => some ⟨fp16, false, 16, 0, false⟩
  | 0x03 => some ⟨e4m3, false, 8, 0, false⟩
  | 0x04 => some ⟨e5m2, false, 8, 0, false⟩
  | 0x05 => some ⟨e4m3, false, 8, 32, true⟩
  | 0x06 => some ⟨e5m2, false, 8, 32, true⟩
  | 0x07 => some ⟨e3m2, false, 6, 32, true⟩
  | 0x08 => some ⟨e2m3, false, 6, 32, true⟩
  | 0x09 => some ⟨e2m1, false, 4, 32, true⟩
  | 0x0A => some ⟨fp32, true, 8, 0, false⟩
  | 0x0B => some ⟨fp32, true, 32, 0, false⟩
  | c =>
    if 0x10 ≤ c ∧ c ≤ 0x1F ∧ userDefined table (c - 0x10) then
      let e := userEntry table (c - 0x10)
      some ⟨userFmt e, false, fmtWidth (userFmt e), userBlock e, false⟩
    else none

/-- Thirty-seconds of a byte that an element takes in a footprint (R171): 4 B for FP32 and INT32, 2 B for BF16 and FP16,
1 B for FP8 and INT8, 1, 0.75 or 0.5 B and 1 ÷ 32 for the block scale for the MX formats. -/
def bytes32 (f : EFmt) : Nat := 4 * f.width + (if f.block = 0 then 0 else 32 / f.block)

/-- The bytes of a stored row of n elements: the element bits padded to 4 B, then a scale byte per block (R205, R518). -/
def rowBytes (f : EFmt) (n : Nat) : Nat := ceilDiv (n * f.width) 32 * 4 + (if f.block = 0 then 0 else ceilDiv n f.block)

/-- The bit string of a list of elements of w bits, element 0 in the lowest bits (R205). -/
def packBits (w : Nat) : List Nat → Nat
  | [] => 0
  | x :: xs => x % 2 ^ w + 2 ^ w * packBits w xs

/-- n elements of w bits out of a bit string (R205). -/
def unpackBits (w : Nat) : Nat → Nat → List Nat
  | 0, _ => []
  | n + 1, x => x % 2 ^ w :: unpackBits w n (x / 2 ^ w)

/-- The value of an element's bits: an integer for the integer formats. -/
def elementValue (f : EFmt) (x : Nat) : FVal := if f.int then fint (toSigned f.width x) else decodeF f.flt x

/-- A value times 2 to a power. -/
def scaleBy (k : Int) : FVal → FVal
  | .fin s m e => .fin s m (e + k)
  | v => v

/-- An element's value under its block's E8M0 scale byte; the code 0xFF is NaN (R146, R147). -/
def scaled (f : EFmt) (scale : Nat) (x : Nat) : FVal :=
  if f.block = 0 then elementValue f x
  else if scale = 0xFF then .nan false
  else scaleBy ((scale : Int) - 127) (elementValue f x)

/-- The values of a stored row of n elements (R205). -/
def unpackRow (f : EFmt) (n : Nat) (row : Bytes) : List FVal :=
  let elems := unpackBits f.width n (leNat (row.take (ceilDiv (n * f.width) 32 * 4)))
  let scales := row.drop (ceilDiv (n * f.width) 32 * 4)
  elems.zipIdx.map (fun e => scaled f (scales.getD (e.2 / f.block) 0).toNat e.1)

/-- The greatest of floor(log2 |v|) over the finite non-zero values of a block; an infinity counts as beyond every scale, and a
NaN has no magnitude. -/
def blockLog2 (vs : List FVal) : Option Int :=
  vs.foldl (fun a v =>
    match v with
    | .fin _ m e => if m = 0 then a else some (max (flog2 m e) (a.getD (flog2 m e)))
    | .inf _ => some 1000
    | .nan _ => a) none

/-- emax = floor(log2(vmax)) of an element format (R155). -/
def emaxOf (f : FFmt) : Int :=
  match magnitudeValue f false (maxMagnitude f) with
  | .fin _ m e => flog2 m e
  | _ => 0

/-- The scale byte of a block: floor(log2(amax)) − emax, held within −127 and 127, stored with bias 127; −127 for a block of
zeros (R155, R205). -/
def scaleByte (f : FFmt) (vs : List FVal) : Nat :=
  match blockLog2 vs with
  | none => 0
  | some l => (max (-127) (min 127 (l - emaxOf f)) + 127).toNat

/-- mix64 of R156: the splitmix finaliser on 64-bit words. -/
def mix64 (z : BitVec 64) : BitVec 64 :=
  let z := (z ^^^ (z >>> 30)) * 0xBF58476D1CE4E5B9#64
  let z := (z ^^^ (z >>> 27)) * 0x94D049BB133111EB#64
  z ^^^ (z >>> 31)

/-- The 64-bit random value of the element at (row, col) of the output tensor (R156). -/
def randomBits (base step tag row col : Nat) : Nat :=
  let seed := mix64 (mix64 (BitVec.ofNat 64 base ^^^ BitVec.ofNat 64 step) ^^^ BitVec.ofNat 64 tag)
  (mix64 (seed ^^^ (BitVec.ofNat 64 row <<< 32) ^^^ BitVec.ofNat 64 col)).toNat

/-- What rounding a run of elements needs: the setting, and for stochastic rounding its inputs (R156). -/
structure RndCtx where
  stochastic : Bool
  base : Nat
  step : Nat
  tag : Nat
  deriving DecidableEq, Repr

/-- The rounding of the element at (row, col). -/
def rndAt (c : RndCtx) (row col : Nat) : Rnd :=
  if c.stochastic then .random (randomBits c.base c.step c.tag row col) else .nearest

/-- Counts that a conversion raises: saturations, negative values clamped, NaNs lost, integer clamps. -/
structure Counts where
  sat : Nat
  neg : Nat
  nan : Nat
  int : Nat
  deriving DecidableEq, Repr

def noCounts : Counts := ⟨0, 0, 0, 0⟩

def addCounts (a b : Counts) : Counts := ⟨a.sat + b.sat, a.neg + b.neg, a.nan + b.nan, a.int + b.int⟩

/-- One element converted from an FP32 or INT32 value. FP32 and INT32 move unchanged, INT8 clamps (R199), the others narrow
under the rounding and the overflow setting; the MX element formats always take their largest finite value (R157).
`seed` picks what a NaN becomes in an MX element format that has no NaN code, which the spec does not state. -/
def convertElement (f : EFmt) (seed : Nat) (r : Rnd) (toInf : Bool) (v : FVal) : Nat × Counts :=
  if f.int then
    let x := match v with | .fin s m e => nearestInt s m e | .inf s => (if s then int32Min else int32Max) | .nan _ => 0
    let lim : Int := 2 ^ (f.width - 1)
    let c := clampInt (-lim) (lim - 1) x
    ((c.1 % (2 ^ f.width : Int)).toNat, ⟨0, 0, 0, if c.2 then 1 else 0⟩)
  else if f.width = 32 then (roundTo fp32 v, noCounts)
  else if f.mx && fisNan v && f.flt.nanCode = 0 then (Config.nanElement seed % 2 ^ f.width, noCounts)
  else
    let n := narrow f.flt r (toInf && !f.mx) v
    (n.bits, ⟨if n.saturated then 1 else 0, if n.negClamped then 1 else 0, if n.nanLost then 1 else 0, 0⟩)

/-- The scale byte of a block of a row. The spec states no scale for an MX block that holds a NaN: it is a free value. -/
def blockScale (f : EFmt) (seed b : Nat) (vs : List FVal) : Nat :=
  if f.mx && vs.any fisNan then (Config.nanScale seed b).toNat else scaleByte f.flt vs

/-- A stored row of elements packed into the layout of R205: block scales formed over each block (R155), the elements rounded against the
stored scale and converted as those of the format `e`. `place` gives the position of an element, and `first` the number of the row's first
block among those of its seed. -/
def packWith (f e : EFmt) (seed first : Nat) (c : RndCtx) (toInf : Bool) (place : Nat → Nat × Nat) (vs : List FVal) : Bytes × Counts :=
  let n := vs.length
  let nblocks := if f.block = 0 then 0 else ceilDiv n f.block
  let scales := (List.range nblocks).map (fun b => blockScale f seed (first + b) ((vs.drop (b * f.block)).take f.block))
  let elems := vs.zipIdx.map (fun v =>
    let k : Int := if f.block = 0 then 0 else 127 - ((scales.getD (v.2 / f.block) 127 : Nat) : Int)
    convertElement e seed (rndAt c (place v.2).1 (place v.2).2) toInf (scaleBy k v.1))
  (le (ceilDiv (n * f.width) 32 * 4) (packBits f.width (elems.map (·.1))) ++ scales.map (BitVec.ofNat 8),
   elems.foldl (fun a e => addCounts a e.2) noCounts)

/-- A stored row of elements in a format (R205). -/
def packPlaced (f : EFmt) (seed first : Nat) (c : RndCtx) (toInf : Bool) (place : Nat → Nat × Nat) (vs : List FVal) : Bytes × Counts :=
  packWith f f seed first c toInf place vs

/-- A row of elements packed, `row` and `col` being the position of the first one. -/
def packRow (f : EFmt) (seed : Nat) (c : RndCtx) (toInf : Bool) (row col : Nat) (vs : List FVal) : Bytes × Counts :=
  packPlaced f seed (if f.block = 0 then 0 else col / f.block) c toInf (fun e => (row, col + e)) vs

/-- The key of the free values in a row of a conversion: what R162 and R235 let a result depend on. -/
def seedOf (step tag row : Nat) : Nat := (step * 2 ^ 32 + tag) * 2 ^ 32 + row

end Sys2Proof.Machine
end

