-- ==== Sys2Proof/Machine/Hash.lean ====
section
/-! DEFINITION. The cryptographic functions the spec names: SHA-256, HMAC-SHA-256, MGF1, RSASSA-PSS verification and
RSAES-OAEP encryption with RSA-3072 (R73, R79, R88, R485), as FIPS 180-4, RFC 2104 and PKCS#1 v2.2 (RFC 8017) give them
(assumption log 8). -/

namespace Sys2Proof.Machine

/-- The round constants of SHA-256. -/
def shaK : List Nat :=
  [0x428a2f98, 0x71374491, 0xb5c0fbcf, 0xe9b5dba5, 0x3956c25b, 0x59f111f1, 0x923f82a4, 0xab1c5ed5,
   0xd807aa98, 0x12835b01, 0x243185be, 0x550c7dc3, 0x72be5d74, 0x80deb1fe, 0x9bdc06a7, 0xc19bf174] ++
  [0xe49b69c1, 0xefbe4786, 0x0fc19dc6, 0x240ca1cc, 0x2de92c6f, 0x4a7484aa, 0x5cb0a9dc, 0x76f988da,
   0x983e5152, 0xa831c66d, 0xb00327c8, 0xbf597fc7, 0xc6e00bf3, 0xd5a79147, 0x06ca6351, 0x14292967] ++
  [0x27b70a85, 0x2e1b2138, 0x4d2c6dfc, 0x53380d13, 0x650a7354, 0x766a0abb, 0x81c2c92e, 0x92722c85,
   0xa2bfe8a1, 0xa81a664b, 0xc24b8b70, 0xc76c51a3, 0xd192e819, 0xd6990624, 0xf40e3585, 0x106aa070] ++
  [0x19a4c116, 0x1e376c08, 0x2748774c, 0x34b0bcb5, 0x391c0cb3, 0x4ed8aa4a, 0x5b9cca4f, 0x682e6ff3,
   0x748f82ee, 0x78a5636f, 0x84c87814, 0x8cc70208, 0x90befffa, 0xa4506ceb, 0xbef9a3f7, 0xc67178f2]

/-- The eight chaining words of SHA-256. -/
structure ShaState where
  a : Word
  b : Word
  c : Word
  d : Word
  e : Word
  f : Word
  g : Word
  h : Word
  deriving DecidableEq, Repr

/-- The initial chaining value of SHA-256. -/
def shaInit : ShaState :=
  ⟨0x6a09e667#32, 0xbb67ae85#32, 0x3c6ef372#32, 0xa54ff53a#32, 0x510e527f#32, 0x9b05688c#32, 0x1f83d9ab#32, 0x5be0cd19#32⟩

def rotr32 (x : Word) (n : Nat) : Word := (x >>> n) ||| (x <<< (32 - n))

def shaSmall0 (x : Word) : Word := rotr32 x 7 ^^^ rotr32 x 18 ^^^ (x >>> 3)
def shaSmall1 (x : Word) : Word := rotr32 x 17 ^^^ rotr32 x 19 ^^^ (x >>> 10)
def shaBig0 (x : Word) : Word := rotr32 x 2 ^^^ rotr32 x 13 ^^^ rotr32 x 22
def shaBig1 (x : Word) : Word := rotr32 x 6 ^^^ rotr32 x 11 ^^^ rotr32 x 25

/-- The message schedule, newest word first: `n` more words are formed from the sixteen newest. -/
def shaExtend : Nat → List Word → List Word
  | 0, ws => ws
  | n + 1, ws =>
    shaExtend n ((shaSmall1 (ws.getD 1 0) + ws.getD 6 0 + shaSmall0 (ws.getD 14 0) + ws.getD 15 0) :: ws)

/-- One round of the compression function with the sum of the round constant and the schedule word. -/
def shaRound (s : ShaState) (kw : Word) : ShaState :=
  let t1 := s.h + shaBig1 s.e + ((s.e &&& s.f) ^^^ (~~~s.e &&& s.g)) + kw
  let t2 := shaBig0 s.a + ((s.a &&& s.b) ^^^ (s.a &&& s.c) ^^^ (s.b &&& s.c))
  ⟨t1 + t2, s.a, s.b, s.c, s.d + t1, s.e, s.f, s.g⟩

/-- The compression of one 64-byte block. -/
def shaBlock (s : ShaState) (block : Bytes) : ShaState :=
  let w := (records 4 block).map (fun b => BitVec.ofNat 32 (beNat b))
  let sched := (shaExtend 48 w.reverse).reverse
  let t := (List.zipWith (fun k x => BitVec.ofNat 32 k + x) shaK sched).foldl shaRound s
  ⟨s.a + t.a, s.b + t.b, s.c + t.c, s.d + t.d, s.e + t.e, s.f + t.f, s.g + t.g, s.h + t.h⟩

/-- The padding of SHA-256: a one bit, zeros, and the length in bits. -/
def shaPad (bs : Bytes) : Bytes :=
  bs ++ [0x80] ++ zeroBytes ((119 - bs.length % 64) % 64) ++ be 8 (8 * bs.length)

/-- SHA-256, its 32 bytes in the order the hash emits them (R73). -/
def sha256 (bs : Bytes) : Bytes :=
  let s := (records 64 (shaPad bs)).foldl shaBlock shaInit
  [s.a, s.b, s.c, s.d, s.e, s.f, s.g, s.h].flatMap (fun w => be 4 w.toNat)

def xorBytes (a b : Bytes) : Bytes := List.zipWith (· ^^^ ·) a b

/-- HMAC-SHA-256 (R88). -/
def hmacSha256 (key msg : Bytes) : Bytes :=
  let k := padTo 64 (if 64 < key.length then sha256 key else key)
  sha256 (xorBytes k (List.replicate 64 0x5c) ++ sha256 (xorBytes k (List.replicate 64 0x36) ++ msg))

/-- The tag of a session frame: the first 16 bytes of the HMAC (R88). -/
def sessionTag (key msg : Bytes) : Bytes := (hmacSha256 key msg).take 16

/-- MGF1 with SHA-256: `n` bytes (R79). -/
def mgf1 (seed : Bytes) (n : Nat) : Bytes :=
  ((List.range (ceilDiv n 32)).flatMap (fun i => sha256 (seed ++ be 4 i))).take n

/-- Modular exponentiation by squaring; `fuel` bounds the bits of the exponent. -/
def powMod (m : Nat) : Nat → Nat → Nat → Nat
  | 0, _, _ => 1 % m
  | fuel + 1, b, e =>
    if e = 0 then 1 % m
    else
      let r := powMod m fuel (b * b % m) (e / 2)
      if e % 2 = 1 then b * r % m else r

/-- RSASSA-PSS verification: RSA-3072, SHA-256, MGF1 with SHA-256, 32-byte salt (R79). The key is the 384-byte modulus
followed by the 4-byte exponent. -/
def pssVerify (key msg sig : Bytes) : Bool :=
  let n := beNat (slice key 0 384)
  let e := beNat (slice key 384 4)
  let s := beNat sig
  if key.length ≠ 388 ∨ sig.length ≠ 384 ∨ n ≤ s then false
  else
    let em := be 384 (powMod n 32 s e)
    let masked := em.take 351
    let h := slice em 351 32
    let db := xorBytes masked (mgf1 h 351)
    let db' := (BitVec.ofNat 8 ((db.getD 0 0).toNat % 128)) :: db.drop 1
    (em.getD 383 0 == 0xbc) && decide ((em.getD 0 0).toNat < 128) &&
    (db'.take 318).all (· == 0) && (db'.getD 318 0 == 0x01) &&
    (sha256 (zeroBytes 8 ++ sha256 msg ++ db'.drop 319) == h)

/-- RSAES-OAEP encryption with SHA-256, MGF1 with SHA-256 and an empty label, under a given 32-byte seed (R79). -/
def oaepEncrypt (key msg seed : Bytes) : Bytes :=
  let n := beNat (slice key 0 384)
  let e := beNat (slice key 384 4)
  let db := sha256 [] ++ zeroBytes (384 - msg.length - 66) ++ [0x01] ++ msg
  let maskedDb := xorBytes db (mgf1 seed 351)
  let maskedSeed := xorBytes seed (mgf1 maskedDb 32)
  be 384 (powMod n 32 (beNat ([0] ++ maskedSeed ++ maskedDb)) e)

end Sys2Proof.Machine
end

