-- ==== Sys2Proof/Machine/KMap.lean ====
section
/-! DEFINITION. Sparse tables: lists of (key, value) pairs with strictly rising keys, the one canonical form of every table
of the state that is keyed by a number. -/

namespace Sys2Proof.Machine

/-- A sparse table keyed by a number. -/
abbrev KMap (α : Type) := List (Nat × α)

/-- The value at a key, if the table lists one. -/
def kget {α : Type} : KMap α → Nat → Option α
  | [], _ => none
  | (j, v) :: r, k => if j = k then some v else kget r k

/-- The value at a key, or what an unlisted key reads as. -/
def kgetD {α : Type} (d : α) (m : KMap α) (k : Nat) : α := (kget m k).getD d

/-- The table with a key's value set; the keys stay rising. -/
def kput {α : Type} : KMap α → Nat → α → KMap α
  | [], k, v => [(k, v)]
  | (j, w) :: r, k, v => if j < k then (j, w) :: kput r k v else if j = k then (k, v) :: r else (k, v) :: (j, w) :: r

/-- The table without a key. -/
def kdel {α : Type} : KMap α → Nat → KMap α
  | [], _ => []
  | (j, w) :: r, k => if j = k then kdel r k else (j, w) :: kdel r k

/-- The table with a key's value set, where writing what an unlisted key reads as removes the entry. -/
def kputD {α : Type} [DecidableEq α] (d : α) (m : KMap α) (k : Nat) (v : α) : KMap α :=
  if v = d then kdel m k else kput m k v

/-- Change the value at a listed key. -/
def kmod {α : Type} (m : KMap α) (k : Nat) (f : α → α) : KMap α :=
  match kget m k with
  | none => m
  | some v => kput m k (f v)

/-- Change the value at a key, starting from what an unlisted key reads as. -/
def kmodD {α : Type} [DecidableEq α] (d : α) (m : KMap α) (k : Nat) (f : α → α) : KMap α :=
  kputD d m k (f (kgetD d m k))

/-- The table with every value changed. -/
def kmap {α : Type} (f : Nat → α → α) (m : KMap α) : KMap α := m.map (fun e => (e.1, f e.1 e.2))

/-- The keys rise strictly: the canonical form. -/
def KMap.wf {α : Type} (m : KMap α) : Bool := ascending (m.map (·.1))

/-- Byte storage: (address, byte) pairs with strictly rising addresses and no zero byte, since an unlisted byte reads 0
(assumption log 5). -/
abbrev Memory := List (Nat × Byte)

/-- The canonical form of byte storage: addresses strictly rising, no entry equal to what an unlisted address reads as. -/
def Memory.wf (m : Memory) : Bool := KMap.wf m && m.all (fun e => e.2 != 0)

/-- One byte of storage. -/
def loadByte (m : Memory) (a : Nat) : Byte := kgetD 0 m a

/-- Storage with one byte written. -/
def storeByte (m : Memory) (a : Nat) (b : Byte) : Memory := kputD 0 m a b

/-- `n` bytes of storage from an address on. -/
def loadBytes (m : Memory) (a n : Nat) : Bytes := (List.range n).map (fun i => loadByte m (a + i))

/-- Storage with a byte string written from an address on. -/
def storeBytes (m : Memory) (a : Nat) : Bytes → Memory
  | [] => m
  | b :: bs => storeBytes (storeByte m a b) (a + 1) bs

/-- Storage with `n` bytes from an address on set to zero. -/
def clearBytes (m : Memory) (a n : Nat) : Memory := m.filter (fun e => e.1 < a || a + n ≤ e.1)

end Sys2Proof.Machine
end

