-- ==== Sys2Proof/Machine/ObjTable.lean ====
section
/-! DEFINITION. The object dictionary's tables: every object with its type, access class, level, default and persistence (R15,
R73, R74, R81), the legal values its chapter states, the counter indexes (R450) and the digests (R400). -/

namespace Sys2Proof.Machine

/-- Object types (R73). -/
inductive ObjTy where
  | bool | u8 | u16 | u32 | u64 | i32 | f32 | str | digest | beats | domain
  deriving DecidableEq, Repr

/-- Access classes (R74). -/
inductive Access where
  | ro | rw | wo | rwe | rwf
  deriving DecidableEq, Repr

/-- Defaults of the object tables (R15). `first a b` is `a` for the first instance and `b` for the others. -/
inductive Dflt where
  | none
  | num (n : Nat)
  | first (a b : Nat)
  | fill (b : Byte) (n : Nat)
  | bytes (bs : Bytes)
  deriving DecidableEq, Repr

/-- Legal values beyond the type (R73), as the object tables and their chapters state them. -/
inductive Legal where
  | any
  | range (lo hi : Nat)
  | oneOf (xs : List Nat)
  /-- 0, or a value of the range. -/
  | offOr (lo hi : Nat)
  /-- A period of R44. -/
  | period
  /-- Only the bits of the mask may be set (R16). -/
  | mask (m : Nat)
  /-- A device number 0 to 32,767, or FFFFh. -/
  | deviceOrNone
  /-- A non-negative binary32 between two bounds, given by their bits. -/
  | f32 (lo hi : Nat)
  /-- A DOMAIN of a fixed size (R91). -/
  | fixed (n : Nat)
  /-- A DOMAIN of up to `n` entries of `e` bytes (R91). -/
  | upTo (n e : Nat)
  deriving DecidableEq, Repr

/-- One row of an object table: an index with its run of subindexes. -/
structure ObjRow where
  index : Nat
  first : Nat
  last : Nat
  ty : ObjTy
  access : Access
  expert : Bool
  persist : Bool
  dflt : Dflt
  legal : Legal
  deriving DecidableEq, Repr

/-- Objects 1000.00 to 1206.01, from the object tables of the spec (R15). -/
def objRows0 : List ObjRow :=
  [⟨0x1000, 0, 0, .u8, .ro, false, false, .num 0, .any⟩,
   ⟨0x1001, 0, 0, .str, .ro, false, false, .none, .any⟩,
   ⟨0x1002, 0, 0, .str, .ro, false, false, .none, .any⟩,
   ⟨0x1003, 0, 0, .u8, .ro, false, false, .none, .any⟩,
   ⟨0x1004, 0, 0, .u8, .ro, false, false, .none, .any⟩,
   ⟨0x1005, 0, 0, .u16, .ro, false, false, .none, .any⟩,
   ⟨0x1006, 0, 0, .domain, .ro, false, false, .none, .any⟩,
   ⟨0x1007, 0, 0, .domain, .ro, false, false, .none, .any⟩,
   ⟨0x1008, 0, 0, .digest, .ro, false, false, .none, .any⟩,
   ⟨0x1100, 0, 0, .u8, .ro, false, false, .num 4, .any⟩,
   ⟨0x1101, 0, 0, .u32, .rwe, false, true, .num 4096, .period⟩,
   ⟨0x1102, 0, 0, .beats, .ro, false, false, .none, .any⟩,
   ⟨0x1103, 0, 0, .u8, .ro, false, false, .none, .any⟩,
   ⟨0x1104, 0, 0, .u16, .rwe, false, true, .num 0, .any⟩,
   ⟨0x1105, 0, 0, .u16, .rwe, false, true, .num 1, .any⟩,
   ⟨0x1106, 0, 0, .u32, .ro, false, false, .none, .any⟩,
   ⟨0x1107, 0, 0, .u8, .rw, true, true, .num 3, .any⟩,
   ⟨0x1108, 0, 0, .u32, .rw, true, true, .num 65536, .period⟩,
   ⟨0x1109, 0, 0, .f32, .ro, true, false, .none, .any⟩,
   ⟨0x110A, 0, 3, .beats, .ro, false, false, .none, .any⟩,
   ⟨0x110B, 0, 3, .u32, .ro, false, false, .none, .any⟩,
   ⟨0x110C, 0, 0, .u8, .rwe, true, true, .num 0, .range 0 0x3F⟩,
   ⟨0x110C, 1, 1, .u8, .rwe, true, true, .num 1, .range 0 0x3F⟩,
   ⟨0x110D, 0, 0, .u32, .ro, false, false, .none, .any⟩,
   ⟨0x1200, 0, 0, .u8, .ro, false, false, .num 0, .any⟩,
   ⟨0x1200, 1, 1, .u8, .ro, false, false, .none, .any⟩,
   ⟨0x1200, 2, 2, .u8, .wo, false, false, .none, .range 1 3⟩,
   ⟨0x1200, 3, 3, .u8, .ro, false, false, .none, .any⟩,
   ⟨0x1201, 0, 0, .u16, .rw, true, true, .num 2000, .range 100 60000⟩,
   ⟨0x1202, 0, 2, .u32, .ro, false, false, .none, .any⟩,
   ⟨0x1203, 0, 0, .u8, .rw, false, true, .num 0, .oneOf [0, 2, 3]⟩,
   ⟨0x1203, 1, 1, .u8, .rw, false, true, .num 2, .range 1 3⟩,
   ⟨0x1203, 2, 2, .u8, .rw, false, true, .num 2, .range 2 3⟩,
   ⟨0x1204, 0, 0, .u8, .ro, false, false, .none, .any⟩,
   ⟨0x1206, 0, 0, .u8, .ro, false, false, .none, .any⟩,
   ⟨0x1206, 1, 1, .u8, .ro, false, false, .none, .any⟩]

/-- Objects 1210.00 to 1310.00, from the object tables of the spec (R15). -/
def objRows1 : List ObjRow :=
  [⟨0x1210, 0, 1, .u8, .ro, false, false, .none, .any⟩,
   ⟨0x1211, 0, 0, .u8, .ro, false, true, .none, .any⟩,
   ⟨0x1212, 0, 1, .u32, .ro, false, false, .none, .any⟩,
   ⟨0x1213, 0, 1, .digest, .ro, false, false, .none, .any⟩,
   ⟨0x1214, 0, 0, .u8, .ro, false, false, .none, .any⟩,
   ⟨0x1215, 0, 0, .u8, .wo, true, false, .none, .any⟩,
   ⟨0x1220, 0, 0, .domain, .wo, true, false, .none, .any⟩,
   ⟨0x1230, 0, 0, .digest, .wo, false, false, .none, .any⟩,
   ⟨0x1231, 0, 0, .domain, .ro, false, false, .none, .any⟩,
   ⟨0x1240, 0, 0, .digest, .ro, false, false, .none, .any⟩,
   ⟨0x1280, 0, 0, .u8, .ro, false, false, .none, .any⟩,
   ⟨0x1281, 0, 0, .digest, .ro, false, false, .none, .any⟩,
   ⟨0x1282, 0, 0, .domain, .wo, false, false, .none, .fixed 772⟩,
   ⟨0x1284, 0, 0, .u8, .wo, false, false, .none, .range 1 1⟩,
   ⟨0x1285, 0, 0, .u8, .wo, false, false, .none, .range 1 2⟩,
   ⟨0x1286, 0, 63, .digest, .rwf, false, true, .fill 0 32, .any⟩,
   ⟨0x1287, 0, 63, .bool, .rwf, true, true, .first 1 0, .any⟩,
   ⟨0x1288, 0, 0, .u16, .rw, true, true, .num 600, .range 10 3600⟩,
   ⟨0x1289, 0, 0, .u64, .ro, false, false, .none, .any⟩,
   ⟨0x1300, 0, 0, .u8, .ro, false, false, .num 0, .any⟩,
   ⟨0x1301, 0, 0, .f32, .ro, false, false, .none, .any⟩,
   ⟨0x1302, 0, 0, .f32, .ro, false, false, .none, .any⟩,
   ⟨0x1303, 0, 0, .f32, .ro, false, false, .none, .any⟩,
   ⟨0x1304, 0, 0, .u8, .rw, false, true, .num 95, .range 60 105⟩,
   ⟨0x1305, 0, 0, .u16, .rw, false, true, .num 4800, .range 1000 4800⟩,
   ⟨0x1306, 0, 0, .u16, .rw, true, true, .num 100, .range 10 1000⟩,
   ⟨0x1307, 0, 0, .u8, .ro, false, false, .none, .any⟩,
   ⟨0x1308, 0, 0, .f32, .ro, false, false, .none, .any⟩,
   ⟨0x1309, 0, 0, .f32, .ro, false, false, .none, .any⟩,
   ⟨0x130A, 0, 0, .f32, .ro, false, false, .none, .any⟩,
   ⟨0x130B, 0, 0, .u32, .ro, false, false, .none, .any⟩,
   ⟨0x130C, 0, 0, .u32, .ro, false, false, .none, .any⟩,
   ⟨0x130D, 0, 0, .u8, .wo, true, false, .none, .range 1 1⟩,
   ⟨0x130E, 0, 0, .u32, .rw, true, true, .num 3600, .range 600 86400⟩,
   ⟨0x130F, 0, 0, .u8, .rw, true, true, .num 10, .range 5 50⟩,
   ⟨0x1310, 0, 0, .f32, .rw, true, true, .num 0x3F333333, .f32 0x3F000000 0x3F600000⟩]

/-- Objects 1311.00 to 2046.00, from the object tables of the spec (R15). -/
def objRows2 : List ObjRow :=
  [⟨0x1311, 0, 0, .domain, .ro, false, true, .none, .any⟩,
   ⟨0x1312, 0, 0, .u8, .ro, false, false, .none, .any⟩,
   ⟨0x1400, 0, 0, .u8, .ro, false, false, .num 64, .any⟩,
   ⟨0x1401, 0, 0, .u8, .ro, false, false, .none, .any⟩,
   ⟨0x1401, 1, 1, .u8, .ro, false, false, .none, .any⟩,
   ⟨0x1402, 0, 0, .u8, .rw, false, true, .num 7, .range 5 7⟩,
   ⟨0x1403, 0, 0, .u8, .wo, true, false, .none, .range 1 1⟩,
   ⟨0x1404, 0, 0, .u8, .ro, false, false, .none, .any⟩,
   ⟨0x1410, 0, 63, .domain, .rw, false, false, .bytes (onesBytes 4 ++ zeroBytes 12), .fixed 16⟩,
   ⟨0x1411, 0, 0, .u64, .ro, false, false, .none, .any⟩,
   ⟨0x1420, 0, 0, .bool, .rw, false, false, .num 0, .any⟩,
   ⟨0x1430, 0, 0, .u64, .rw, false, false, .num 0, .any⟩,
   ⟨0x1431, 0, 0, .u32, .rw, false, false, .num 0, .range 0 268435456⟩,
   ⟨0x1500, 0, 0, .u8, .ro, false, false, .num 0, .any⟩,
   ⟨0x1501, 0, 0, .u8, .wo, false, false, .none, .range 1 3⟩,
   ⟨0x1502, 0, 0, .beats, .rw, false, false, .num 0, .any⟩,
   ⟨0x1503, 0, 0, .digest, .rw, false, false, .fill 0 32, .any⟩,
   ⟨0x1504, 0, 0, .digest, .ro, false, false, .none, .any⟩,
   ⟨0x1505, 0, 0, .digest, .ro, false, false, .none, .any⟩,
   ⟨0x1506, 0, 0, .u8, .ro, false, false, .none, .any⟩,
   ⟨0x1507, 0, 0, .beats, .ro, false, false, .none, .any⟩,
   ⟨0x1508, 0, 0, .beats, .ro, false, false, .none, .any⟩,
   ⟨0x1509, 0, 0, .u64, .ro, false, false, .none, .any⟩,
   ⟨0x150A, 0, 0, .u16, .ro, false, false, .none, .any⟩,
   ⟨0x15F0, 16, 191, .bool, .rwe, false, true, .num 0, .any⟩,
   ⟨0x2000, 0, 0, .u16, .ro, false, false, .num 256, .any⟩,
   ⟨0x2001, 0, 255, .u8, .ro, false, false, .none, .any⟩,
   ⟨0x2002, 0, 255, .u16, .ro, false, false, .none, .any⟩,
   ⟨0x2003, 0, 0, .u16, .ro, false, false, .none, .any⟩,
   ⟨0x2003, 1, 1, .u16, .ro, false, false, .none, .any⟩,
   ⟨0x2004, 0, 255, .bool, .rwe, false, false, .num 0, .any⟩,
   ⟨0x2040, 0, 3, .u16, .ro, false, false, .none, .any⟩,
   ⟨0x2041, 0, 255, .u8, .ro, false, false, .none, .any⟩,
   ⟨0x2042, 0, 255, .u8, .ro, false, false, .none, .any⟩,
   ⟨0x2045, 0, 0, .u16, .rwf, false, true, .num 1024, .range 0 14336⟩,
   ⟨0x2046, 0, 15, .u16, .ro, false, false, .none, .any⟩]

/-- Objects 2100.00 to 2501.02, from the object tables of the spec (R15). -/
def objRows3 : List ObjRow :=
  [⟨0x2100, 0, 0, .u16, .ro, false, false, .num 256, .any⟩,
   ⟨0x2101, 0, 255, .u8, .ro, false, false, .none, .any⟩,
   ⟨0x2102, 0, 0, .u8, .rwe, false, true, .num 0, .range 0 1⟩,
   ⟨0x2103, 0, 0, .u8, .rwe, false, true, .num 0, .range 0 1⟩,
   ⟨0x2104, 0, 0, .u64, .rwe, false, true, .num 0, .any⟩,
   ⟨0x2105, 0, 255, .u8, .ro, false, false, .none, .any⟩,
   ⟨0x2140, 0, 255, .u8, .ro, false, false, .none, .any⟩,
   ⟨0x2141, 0, 255, .u64, .ro, false, false, .none, .any⟩,
   ⟨0x2142, 0, 255, .u8, .ro, false, false, .none, .any⟩,
   ⟨0x2200, 0, 0, .u16, .ro, false, false, .num 256, .any⟩,
   ⟨0x2201, 0, 255, .u8, .ro, false, false, .none, .any⟩,
   ⟨0x2202, 0, 255, .u32, .ro, false, false, .none, .any⟩,
   ⟨0x2203, 0, 0, .u16, .ro, false, false, .none, .any⟩,
   ⟨0x2300, 0, 0, .u8, .ro, false, false, .num 4, .any⟩,
   ⟨0x2301, 0, 0, .bool, .rwe, false, true, .num 1, .any⟩,
   ⟨0x2302, 0, 0, .u8, .rwe, false, true, .num 4, .range 1 15⟩,
   ⟨0x2303, 0, 3, .u64, .ro, false, false, .none, .any⟩,
   ⟨0x2304, 0, 3, .u8, .ro, false, false, .none, .any⟩,
   ⟨0x2305, 0, 3, .u64, .ro, false, false, .none, .any⟩,
   ⟨0x2306, 0, 3, .u8, .ro, false, false, .none, .any⟩,
   ⟨0x2307, 0, 0, .u16, .rwf, false, true, .num 1024, .range 0 14336⟩,
   ⟨0x2308, 0, 15, .u16, .ro, false, false, .none, .any⟩,
   ⟨0x2309, 0, 0, .f32, .rwe, false, true, .num 0x41000000, .f32 0x3F800000 0x447A0000⟩,
   ⟨0x230A, 0, 0, .f32, .rwe, false, true, .num 0x41000000, .f32 0x3F800000 0x447A0000⟩,
   ⟨0x230B, 0, 3, .f32, .ro, false, false, .none, .any⟩,
   ⟨0x2400, 0, 0, .u8, .ro, false, false, .num 16, .any⟩,
   ⟨0x2401, 0, 15, .u8, .ro, false, false, .none, .any⟩,
   ⟨0x2402, 0, 255, .u8, .ro, false, false, .none, .any⟩,
   ⟨0x2403, 0, 0, .f32, .rwe, false, true, .num 0x3F800000, .f32 0 0x7F7FFFFF⟩,
   ⟨0x2404, 0, 3, .f32, .ro, false, false, .none, .any⟩,
   ⟨0x2405, 0, 3, .f32, .ro, false, false, .none, .any⟩,
   ⟨0x2406, 0, 0, .u16, .ro, false, false, .none, .any⟩,
   ⟨0x2500, 0, 0, .u8, .ro, false, false, .num 64, .any⟩,
   ⟨0x2501, 0, 0, .u64, .ro, false, false, .none, .any⟩,
   ⟨0x2501, 1, 1, .u64, .ro, false, false, .none, .any⟩,
   ⟨0x2501, 2, 2, .u64, .ro, false, false, .none, .any⟩]

/-- Objects 2501.03 to 2807.00, from the object tables of the spec (R15). -/
def objRows4 : List ObjRow :=
  [⟨0x2501, 3, 3, .u64, .ro, false, false, .none, .any⟩,
   ⟨0x2501, 4, 4, .u64, .ro, false, false, .none, .any⟩,
   ⟨0x2502, 0, 0, .u32, .ro, false, false, .none, .any⟩,
   ⟨0x2503, 0, 0, .u32, .rwf, false, true, .num 65536, .range 0 4194304⟩,
   ⟨0x2504, 0, 0, .u32, .ro, false, false, .none, .any⟩,
   ⟨0x2505, 0, 0, .u32, .ro, false, false, .none, .any⟩,
   ⟨0x2506, 0, 0, .u32, .ro, false, false, .none, .any⟩,
   ⟨0x2507, 0, 0, .u16, .rw, false, true, .num 512, .range 1 16384⟩,
   ⟨0x2510, 0, 0, .domain, .wo, false, false, .none, .fixed 64⟩,
   ⟨0x2511, 0, 0, .u32, .ro, false, false, .none, .any⟩,
   ⟨0x2512, 0, 0, .u8, .ro, false, false, .none, .any⟩,
   ⟨0x2540, 0, 63, .u8, .rw, false, true, .num 0, .any⟩,
   ⟨0x2600, 0, 0, .u16, .ro, false, false, .num 256, .any⟩,
   ⟨0x2601, 0, 255, .u8, .ro, false, false, .none, .any⟩,
   ⟨0x2602, 0, 15, .u16, .ro, false, false, .none, .any⟩,
   ⟨0x2603, 0, 31, .u8, .ro, false, false, .none, .any⟩,
   ⟨0x2604, 0, 0, .u16, .ro, false, false, .none, .any⟩,
   ⟨0x2605, 0, 0, .u16, .ro, false, false, .none, .any⟩,
   ⟨0x2606, 0, 0, .u8, .rwe, false, true, .num 4, .range 1 15⟩,
   ⟨0x2607, 0, 255, .u8, .ro, false, false, .none, .any⟩,
   ⟨0x2700, 0, 0, .u8, .ro, false, false, .num 16, .any⟩,
   ⟨0x2701, 0, 0, .u8, .rw, false, true, .num 0, .range 0 1⟩,
   ⟨0x2702, 0, 0, .u64, .ro, false, false, .num 134217728, .any⟩,
   ⟨0x2703, 0, 0, .f32, .ro, false, false, .none, .any⟩,
   ⟨0x2704, 0, 0, .u32, .ro, false, false, .none, .any⟩,
   ⟨0x2705, 0, 0, .u32, .ro, false, false, .none, .any⟩,
   ⟨0x2706, 0, 15, .u8, .ro, false, false, .none, .any⟩,
   ⟨0x2707, 0, 0, .u8, .ro, false, false, .none, .any⟩,
   ⟨0x2800, 0, 0, .u8, .ro, false, false, .num 64, .any⟩,
   ⟨0x2801, 0, 63, .u8, .ro, false, false, .none, .any⟩,
   ⟨0x2802, 0, 63, .u16, .ro, false, false, .none, .any⟩,
   ⟨0x2803, 0, 63, .u8, .ro, false, false, .none, .any⟩,
   ⟨0x2804, 0, 63, .f32, .ro, false, false, .none, .any⟩,
   ⟨0x2805, 0, 0, .u16, .rwe, false, true, .num 0, .range 0 32767⟩,
   ⟨0x2806, 0, 63, .u8, .ro, false, false, .none, .any⟩,
   ⟨0x2807, 0, 63, .bool, .rw, false, true, .num 1, .any⟩]

/-- Objects 2900.00 to 2A07.00, from the object tables of the spec (R15). -/
def objRows5 : List ObjRow :=
  [⟨0x2900, 0, 0, .u8, .ro, false, false, .num 4, .any⟩,
   ⟨0x2901, 0, 0, .u16, .rwe, false, true, .num 65535, .deviceOrNone⟩,
   ⟨0x2902, 0, 0, .u16, .rwe, false, true, .num 768, .range 0 1536⟩,
   ⟨0x2903, 0, 3, .u16, .rwe, false, true, .num 65535, .deviceOrNone⟩,
   ⟨0x2904, 0, 0, .u64, .rw, false, true, .num 0, .any⟩,
   ⟨0x2905, 0, 0, .u32, .rwe, false, true, .num 10000, .range 1 1000000⟩,
   ⟨0x2906, 0, 3, .u64, .ro, false, false, .none, .any⟩,
   ⟨0x2907, 0, 3, .u8, .ro, false, false, .none, .any⟩,
   ⟨0x2908, 0, 3, .u64, .ro, false, false, .none, .any⟩,
   ⟨0x2909, 0, 0, .u32, .ro, false, false, .none, .any⟩,
   ⟨0x290A, 0, 0, .f32, .ro, false, false, .none, .any⟩,
   ⟨0x290B, 0, 0, .f32, .ro, false, false, .none, .any⟩,
   ⟨0x290C, 0, 0, .u16, .rwe, false, true, .num 16, .range 0 1024⟩,
   ⟨0x290D, 0, 0, .u32, .rw, false, true, .num 4294967295, .any⟩,
   ⟨0x290E, 0, 0, .f32, .rwe, false, true, .num 0x3A83126F, .f32 0x00000000 0x3F800000⟩,
   ⟨0x290F, 0, 0, .domain, .wo, false, false, .none, .fixed 24⟩,
   ⟨0x2910, 0, 3, .domain, .ro, false, false, .none, .any⟩,
   ⟨0x2980, 0, 3, .domain, .ro, false, false, .none, .any⟩,
   ⟨0x2981, 0, 0, .bool, .rwe, false, true, .num 1, .any⟩,
   ⟨0x2982, 0, 3, .u32, .ro, false, false, .none, .any⟩,
   ⟨0x2983, 0, 0, .u8, .rw, false, true, .num 0, .range 0 1⟩,
   ⟨0x2984, 0, 0, .domain, .rwe, false, false, .bytes [], .upTo 64 16⟩,
   ⟨0x2985, 0, 0, .u8, .ro, false, false, .none, .any⟩,
   ⟨0x2986, 0, 0, .u16, .ro, false, false, .none, .any⟩,
   ⟨0x2987, 0, 3, .u8, .ro, false, false, .none, .any⟩,
   ⟨0x29C0, 0, 0, .u8, .wo, false, false, .none, .range 1 1⟩,
   ⟨0x29C1, 0, 0, .u8, .ro, false, false, .none, .any⟩,
   ⟨0x29C2, 0, 0, .u8, .ro, false, false, .none, .any⟩,
   ⟨0x2A00, 0, 0, .u8, .ro, false, false, .num 64, .any⟩,
   ⟨0x2A01, 0, 63, .bool, .rwf, false, true, .first 1 0, .any⟩,
   ⟨0x2A02, 0, 63, .u8, .rw, false, true, .num 4, .range 0 7⟩,
   ⟨0x2A03, 0, 63, .u8, .rw, false, true, .first 4 1, .range 0 4⟩,
   ⟨0x2A04, 0, 3, .u8, .ro, false, false, .none, .any⟩,
   ⟨0x2A05, 0, 3, .u8, .ro, false, false, .none, .any⟩,
   ⟨0x2A06, 0, 0, .u8, .ro, false, false, .none, .any⟩,
   ⟨0x2A07, 0, 255, .u8, .ro, false, false, .none, .any⟩]

/-- Objects 2B00.00 to 2F46.00, from the object tables of the spec (R15). -/
def objRows6 : List ObjRow :=
  [⟨0x2B00, 0, 0, .u8, .ro, false, false, .num 4, .any⟩,
   ⟨0x2B01, 0, 3, .u8, .ro, false, false, .none, .any⟩,
   ⟨0x2B02, 0, 0, .u16, .rw, false, true, .num 34, .range 0 1700⟩,
   ⟨0x2B02, 1, 1, .u16, .rw, false, true, .num 680, .range 0 17000⟩,
   ⟨0x2B02, 2, 2, .u16, .ro, false, false, .num 170, .any⟩,
   ⟨0x2B03, 0, 3, .u16, .ro, false, false, .none, .any⟩,
   ⟨0x2B04, 0, 3, .u16, .ro, false, false, .none, .any⟩,
   ⟨0x2B05, 0, 3, .u8, .ro, false, false, .none, .any⟩,
   ⟨0x2B06, 0, 3, .u64, .ro, false, false, .none, .any⟩,
   ⟨0x2B10, 0, 0, .domain, .rwe, false, false, .bytes [], .upTo 8 32⟩,
   ⟨0x2B11, 0, 0, .u8, .ro, false, false, .none, .any⟩,
   ⟨0x2C00, 0, 0, .u8, .ro, false, false, .num 4, .any⟩,
   ⟨0x2C01, 0, 0, .beats, .ro, false, false, .none, .any⟩,
   ⟨0x2C02, 0, 0, .u8, .wo, false, false, .none, .range 1 1⟩,
   ⟨0x2C03, 0, 0, .u64, .ro, false, false, .none, .any⟩,
   ⟨0x2C04, 0, 0, .u64, .ro, false, false, .none, .any⟩,
   ⟨0x2F00, 0, 0, .u8, .ro, false, false, .num 64, .any⟩,
   ⟨0x2F01, 0, 0, .u64, .ro, false, false, .none, .any⟩,
   ⟨0x2F02, 0, 0, .domain, .rwf, false, true, .bytes (zeroBytes 10 ++ [0xFF, 0xFF, 192, 168, 0, 10]), .fixed 16⟩,
   ⟨0x2F03, 0, 0, .u8, .rwf, false, true, .num 120, .range 0 128⟩,
   ⟨0x2F04, 0, 0, .domain, .rwf, false, true, .fill 0 16, .fixed 16⟩,
   ⟨0x2F05, 0, 0, .u16, .rwf, false, true, .num 4410, .any⟩,
   ⟨0x2F06, 0, 0, .u8, .ro, false, false, .none, .any⟩,
   ⟨0x2F20, 62, 63, .u8, .rw, false, true, .num 0, .range 0 2⟩,
   ⟨0x2F21, 62, 63, .u64, .ro, false, false, .none, .any⟩,
   ⟨0x2F22, 62, 63, .domain, .rwf, false, true, .fill 0 16, .fixed 16⟩,
   ⟨0x2F23, 62, 63, .u8, .rwf, false, true, .num 128, .range 0 128⟩,
   ⟨0x2F24, 62, 63, .u8, .rw, false, true, .num 64, .range 1 255⟩,
   ⟨0x2F25, 62, 63, .u8, .ro, false, false, .none, .any⟩,
   ⟨0x2F40, 0, 63, .u8, .rw, false, true, .num 0, .range 0 2⟩,
   ⟨0x2F41, 0, 63, .u16, .rw, false, true, .num 0, .range 1 65535⟩,
   ⟨0x2F42, 0, 63, .domain, .rw, false, true, .fill 0 16, .fixed 16⟩,
   ⟨0x2F43, 0, 63, .u8, .rw, false, true, .num 0, .range 0 128⟩,
   ⟨0x2F44, 0, 63, .u16, .rw, false, true, .num 0, .any⟩,
   ⟨0x2F45, 0, 63, .u64, .rw, false, true, .num 0, .range 0 0xFFFFFFFFFFFF⟩,
   ⟨0x2F46, 0, 63, .u16, .rw, false, true, .num 0, .range 0 4094⟩]

/-- Objects 2F47.00 to 3702.00, from the object tables of the spec (R15). -/
def objRows7 : List ObjRow :=
  [⟨0x2F47, 0, 63, .u16, .rw, false, true, .num 0, .mask 0xCFFF⟩,
   ⟨0x2F48, 0, 63, .u8, .rw, false, true, .num 0, .range 0 63⟩,
   ⟨0x3000, 0, 0, .u16, .ro, false, false, .num 256, .any⟩,
   ⟨0x3001, 0, 0, .u32, .rw, true, true, .num 65536, .offOr 1024 1048576⟩,
   ⟨0x3002, 0, 255, .u8, .wo, true, false, .none, .range 1 1⟩,
   ⟨0x3003, 0, 255, .u8, .ro, true, false, .none, .any⟩,
   ⟨0x3004, 0, 255, .u8, .wo, true, false, .none, .range 1 1⟩,
   ⟨0x3005, 0, 0, .bool, .rw, true, true, .num 1, .any⟩,
   ⟨0x3040, 0, 0, .u8, .rw, true, true, .num 0, .range 0 1⟩,
   ⟨0x3041, 0, 0, .u8, .rw, true, true, .num 64, .range 1 64⟩,
   ⟨0x3042, 0, 255, .u16, .ro, true, false, .none, .any⟩,
   ⟨0x3100, 0, 0, .u16, .ro, false, false, .num 256, .any⟩,
   ⟨0x3101, 0, 0, .bool, .rwe, true, true, .num 0, .any⟩,
   ⟨0x3102, 0, 255, .f32, .ro, true, false, .none, .any⟩,
   ⟨0x3140, 0, 0, .bool, .rw, true, true, .num 1, .any⟩,
   ⟨0x3141, 0, 0, .bool, .rw, true, true, .num 0, .any⟩,
   ⟨0x3200, 0, 0, .u16, .ro, false, false, .num 256, .any⟩,
   ⟨0x3201, 0, 0, .bool, .rwe, true, true, .num 0, .any⟩,
   ⟨0x3202, 0, 255, .f32, .ro, true, false, .none, .any⟩,
   ⟨0x3300, 0, 0, .u8, .ro, false, false, .num 4, .any⟩,
   ⟨0x3301, 0, 0, .u8, .rwe, true, true, .num 4, .range 2 255⟩,
   ⟨0x3302, 0, 0, .f32, .rwe, true, true, .num 0x3C23D70A, .f32 0x38D1B717 0x3F000000⟩,
   ⟨0x3303, 0, 0, .u32, .rwe, true, true, .num 100, .any⟩,
   ⟨0x3304, 0, 255, .u8, .ro, true, false, .none, .any⟩,
   ⟨0x3400, 0, 0, .u8, .ro, false, false, .num 16, .any⟩,
   ⟨0x3401, 0, 0, .u8, .rw, true, true, .num 100, .range 10 100⟩,
   ⟨0x3500, 0, 0, .u8, .ro, false, false, .num 64, .any⟩,
   ⟨0x3501, 0, 0, .u32, .rw, true, true, .num 16777216, .range 65536 4294967295⟩,
   ⟨0x3502, 0, 0, .u8, .rw, true, true, .num 75, .range 0 95⟩,
   ⟨0x3600, 0, 0, .u16, .ro, false, false, .num 256, .any⟩,
   ⟨0x3601, 0, 0, .u8, .rw, true, true, .num 16, .range 1 48⟩,
   ⟨0x3602, 0, 0, .bool, .rw, true, true, .num 1, .any⟩,
   ⟨0x3603, 0, 0, .u16, .rw, true, true, .num 256, .range 16 256⟩,
   ⟨0x3700, 0, 0, .u8, .ro, false, false, .num 16, .any⟩,
   ⟨0x3701, 0, 0, .u16, .rw, true, true, .num 200, .range 50 1000⟩,
   ⟨0x3702, 0, 0, .u32, .rw, true, true, .num 100000, .range 10000 1000000⟩]

/-- Objects 3703.00 to 6C00.00, from the object tables of the spec (R15). -/
def objRows8 : List ObjRow :=
  [⟨0x3703, 0, 0, .u8, .rw, true, true, .num 20, .range 5 50⟩,
   ⟨0x3704, 0, 0, .u16, .rw, true, true, .num 64, .range 16 1024⟩,
   ⟨0x3705, 0, 0, .u8, .rw, true, true, .num 8, .range 1 15⟩,
   ⟨0x3800, 0, 0, .u8, .ro, false, false, .num 64, .any⟩,
   ⟨0x3801, 0, 0, .u32, .rw, true, true, .num 1000, .range 10 100000⟩,
   ⟨0x3802, 0, 0, .u8, .rw, true, true, .num 8, .range 1 64⟩,
   ⟨0x3803, 0, 0, .bool, .rw, true, true, .num 1, .any⟩,
   ⟨0x3804, 0, 63, .u8, .wo, true, false, .none, .range 1 1⟩,
   ⟨0x3900, 0, 0, .u8, .ro, false, false, .num 4, .any⟩,
   ⟨0x3901, 0, 0, .f32, .rwe, true, true, .num 0x3D4CCCCD, .f32 0x3A83126F 0x42C80000⟩,
   ⟨0x3902, 0, 0, .u16, .rw, true, true, .num 64, .range 16 256⟩,
   ⟨0x3903, 0, 0, .f32, .rwe, true, true, .num 0x3DCCCCCD, .f32 0x3A83126F 0x3F800000⟩,
   ⟨0x3904, 0, 0, .f32, .rwe, true, true, .num 0x49742400, .any⟩,
   ⟨0x3905, 0, 0, .u8, .rw, true, true, .num 25, .range 5 100⟩,
   ⟨0x3906, 0, 0, .u32, .rwe, true, true, .num 4194304, .range 65536 16777216⟩,
   ⟨0x3980, 0, 0, .u8, .rwe, true, true, .num 0, .range 0 15⟩,
   ⟨0x3A00, 0, 0, .u8, .ro, false, false, .num 64, .any⟩,
   ⟨0x3A01, 0, 0, .u16, .rw, true, true, .num 64, .range 1 1024⟩,
   ⟨0x3A02, 0, 0, .u8, .rw, true, true, .num 0, .range 0 1⟩,
   ⟨0x3B00, 0, 0, .u8, .ro, false, false, .num 4, .any⟩,
   ⟨0x3B01, 0, 0, .u8, .rw, true, true, .num 25, .range 5 100⟩,
   ⟨0x3B02, 0, 0, .u8, .rw, true, true, .num 4, .range 1 15⟩,
   ⟨0x3C00, 0, 0, .u8, .ro, false, false, .num 4, .any⟩,
   ⟨0x3C01, 0, 0, .u16, .rw, true, true, .num 1, .range 1 4096⟩,
   ⟨0x5000, 0, 0, .u16, .ro, false, false, .num 256, .any⟩,
   ⟨0x6000, 0, 0, .u16, .ro, false, false, .num 256, .any⟩,
   ⟨0x6140, 0, 255, .domain, .ro, false, false, .none, .any⟩,
   ⟨0x6200, 0, 0, .domain, .rwe, false, true, .fill 0 256, .fixed 256⟩,
   ⟨0x6400, 0, 0, .domain, .rwe, false, true, .fill 0 262144, .fixed 262144⟩,
   ⟨0x6401, 0, 0, .domain, .rwe, false, true, .fill 0 3149824, .fixed 3149824⟩,
   ⟨0x6402, 0, 0, .domain, .ro, false, false, .none, .any⟩,
   ⟨0x6403, 0, 3, .domain, .ro, true, false, .none, .any⟩,
   ⟨0x6500, 0, 0, .domain, .ro, false, false, .none, .any⟩,
   ⟨0x6700, 0, 0, .domain, .ro, false, true, .none, .any⟩,
   ⟨0x6800, 0, 0, .domain, .rwe, false, true, .fill 0xFF 32768, .fixed 32768⟩,
   ⟨0x6C00, 0, 3, .domain, .ro, false, false, .none, .any⟩,
   ⟨0x6C01, 0, 0, .domain, .ro, false, false, .none, .any⟩,
   ⟨0x6C02, 0, 0, .domain, .ro, false, false, .none, .any⟩,
   ⟨0x6C03, 0, 0, .domain, .ro, false, false, .none, .any⟩]

/-- Objects 6F00.00 to 6F02.00, from the object tables of the spec (R15). -/
def objRows9 : List ObjRow :=
  [⟨0x6F00, 0, 0, .domain, .ro, false, false, .none, .any⟩,
   ⟨0x6F01, 0, 0, .domain, .ro, false, false, .none, .any⟩,
   ⟨0x6F02, 0, 0, .domain, .ro, false, false, .none, .any⟩]

/-- The objects of a client block, by their offset from b (R424). -/
def clientRows : List ObjRow :=
  [⟨0x0, 0, 0, .u8, .ro, false, false, .num 64, .any⟩,
   ⟨0x1, 0, 0, .domain, .wo, false, false, .none, .fixed 64⟩,
   ⟨0x2, 0, 0, .u8, .ro, false, false, .none, .any⟩,
   ⟨0x3, 0, 0, .u8, .ro, false, false, .none, .any⟩,
   ⟨0x4, 0, 0, .u8, .ro, false, false, .none, .any⟩,
   ⟨0x5, 0, 0, .u8, .wo, false, false, .none, .range 0 3⟩,
   ⟨0x6, 0, 0, .u8, .wo, false, false, .none, .range 1 1⟩,
   ⟨0x7, 0, 3, .u64, .ro, false, false, .none, .any⟩,
   ⟨0x8, 0, 3, .f32, .ro, false, false, .none, .any⟩,
   ⟨0x9, 0, 0, .u32, .ro, false, false, .none, .any⟩,
   ⟨0x9, 1, 1, .u32, .ro, false, false, .none, .any⟩,
   ⟨0xA, 0, 0, .u8, .ro, false, false, .none, .any⟩]

/-- Every object outside the client blocks, in ascending order. -/
def objRows : List ObjRow := objRows0 ++ objRows1 ++ objRows2 ++ objRows3 ++ objRows4 ++ objRows5 ++ objRows6 ++ objRows7 ++ objRows8 ++ objRows9

/-- The length of a value of a type, where the type fixes it (R73). -/
def ObjTy.size : ObjTy → Option Nat
  | .bool => some 1 | .u8 => some 1 | .u16 => some 2 | .u32 => some 4 | .u64 => some 8 | .i32 => some 4 | .f32 => some 4
  | .str => none | .digest => some 32 | .beats => some 8 | .domain => none

/-- The type codes of the digest records (R400). -/
def ObjTy.code : ObjTy → Nat
  | .bool => 0 | .u8 => 1 | .u16 => 2 | .u32 => 3 | .u64 => 4 | .i32 => 5 | .f32 => 6 | .str => 7 | .digest => 8
  | .beats => 9 | .domain => 10

/-- Set numbers of R83. -/
def isSetNumber (n : Nat) : Bool :=
  (0x10 ≤ n && n ≤ 0x15) || (0x20 ≤ n && n ≤ 0x2C) || n == 0x2F || (0x80 ≤ n && n ≤ 0xBF)

/-- The object set of an index (R83). -/
def objectSet (index : Nat) : Option Nat :=
  if 0x1000 ≤ index ∧ index ≤ 0x15FF then some (index / 256)
  else if 0x2F00 ≤ index ∧ index ≤ 0x2FFF then some 0x2F
  else if 0x2000 ≤ index ∧ index ≤ 0x2CFF then some (index / 256)
  else if 0x3000 ≤ index ∧ index ≤ 0x3CFF then some (index / 256 - 0x10)
  else if 0x4000 ≤ index ∧ index ≤ 0x43FF then some (0x80 + (index - 0x4000) / 16)
  else none

/-- The key of an object in the tables of the state: index × 256 + subindex. -/
def objKey (index sub : Nat) : Nat := index * 256 + sub

/-- One group of counters (R450): the counters `base` to `base + count - 1` with instances `first` to `last`. -/
structure CtrRow where
  base : Nat
  count : Nat
  first : Nat
  last : Nat
  deriving DecidableEq, Repr

/-- The counter indexes (R450); the last row holds link.NO_CREDIT, one index per link. -/
def ctrRows : List CtrRow :=
  [⟨0x5010, 3, 0, 0⟩, ⟨0x5014, 2, 0, 0⟩, ⟨0x5018, 2, 0, 0⟩, ⟨0x5020, 3, 0, 0⟩, ⟨0x5024, 2, 0, 0⟩, ⟨0x5028, 8, 0, 0⟩,
   ⟨0x5100, 6, 0, 3⟩, ⟨0x5108, 7, 0, 3⟩, ⟨0x5110, 2, 0, 3⟩, ⟨0x5118, 5, 0, 3⟩, ⟨0x5120, 11, 0, 3⟩, ⟨0x5130, 15, 0, 3⟩,
   ⟨0x5140, 8, 0, 3⟩, ⟨0x5200, 3, 0, 255⟩, ⟨0x5204, 1, 0, 255⟩, ⟨0x5206, 2, 0, 255⟩, ⟨0x5210, 16, 0, 255⟩,
   ⟨0x5220, 16, 0, 255⟩, ⟨0x5230, 9, 0, 255⟩, ⟨0x5240, 16, 0, 255⟩, ⟨0x5250, 8, 0, 255⟩, ⟨0x5258, 4, 0, 255⟩,
   ⟨0x5260, 6, 0, 255⟩, ⟨0x5270, 20, 0, 255⟩, ⟨0x5288, 2, 0, 255⟩, ⟨0x5400, 13, 0, 15⟩, ⟨0x5410, 13, 0, 255⟩,
   ⟨0x5420, 3, 0, 255⟩, ⟨0x5424, 3, 0, 15⟩, ⟨0x5428, 3, 0, 31⟩, ⟨0x5430, 5, 0, 15⟩, ⟨0x5438, 5, 0, 63⟩,
   ⟨0x5500, 10, 0, 63⟩, ⟨0x5510, 2, 0, 3⟩, ⟨0x5518, 6, 0x3E, 0x3F⟩, ⟨0x5700, 5, 0, 15⟩, ⟨0x5800, 9, 0, 63⟩,
   ⟨0x5600, 64, 0, 63⟩]

/-- The counter row that assigns an index. -/
def ctrRow (index : Nat) : Option CtrRow := ctrRows.find? (fun r => r.base ≤ index && index < r.base + r.count)

/-- A client block's row and its client, for an index of 4000-43FF (R424). -/
def clientRow (index sub : Nat) : Option ObjRow :=
  if 0x4000 ≤ index ∧ index ≤ 0x43FF then
    clientRows.find? (fun r => r.index == index % 16 && r.first ≤ sub && sub ≤ r.last)
  else none

/-- The row of an object, or of a counter as a read-only U64 (R450). -/
def objRow (index sub : Nat) : Option ObjRow :=
  match objRows.find? (fun r => r.index == index && r.first ≤ sub && sub ≤ r.last) with
  | some r => if index = 0x15F0 ∧ !isSetNumber sub then none else some r
  | none =>
    match ctrRow index with
    | some c => if c.first ≤ sub ∧ sub ≤ c.last then some ⟨index, c.first, c.last, .u64, .ro, false, false, .none, .any⟩ else none
    | none => clientRow index sub

/-- Some object stands at the index (R70). -/
def indexKnown (index : Nat) : Bool :=
  objRows.any (fun r => r.index == index) || (ctrRow index).isSome ||
  (decide (0x4000 ≤ index ∧ index ≤ 0x43FF) && clientRows.any (fun r => r.index == index % 16))

/-- The default of an object (R15); a numeric default takes the bytes of its type. -/
def dfltBytes (r : ObjRow) (sub : Nat) : Bytes :=
  let n := (r.ty.size).getD 0
  match r.dflt with
  | .none => zeroBytes n
  | .num v => le n v
  | .first a b => le n (if sub = r.first then a else b)
  | .fill b k => List.replicate k b
  | .bytes bs => bs

/-- A binary32 between two non-negative bounds; zero counts as not below a zero bound. NaN and infinities are refused (R73). -/
def f32Legal (lo hi v : Nat) : Bool :=
  if 0x80000000 ≤ v then v == 0x80000000 && lo == 0 else lo ≤ v && v ≤ hi && v < 0x7F800000

/-- The value is legal for its type and its object (R73). The length is checked before. -/
def valueLegal (r : ObjRow) (v : Bytes) : Bool :=
  let n := leNat v
  (match r.ty with
   | .bool => n ≤ 1
   | .f32 => n % 0x80000000 < 0x7F800000
   | .str => v.all printable
   | _ => true) &&
  (match r.legal with
   | .any => true
   | .range lo hi => lo ≤ n && n ≤ hi
   | .oneOf xs => xs.contains n
   | .offOr lo hi => n == 0 || (lo ≤ n && n ≤ hi)
   | .period => 256 ≤ n && n ≤ 65536 && n % 64 == 0
   | .mask m => n &&& m == n
   | .deviceOrNone => n ≤ 32767 || n == 0xFFFF
   | .f32 lo hi => f32Legal lo hi n
   | .fixed k => v.length == k
   | .upTo k e => v.length % e == 0 && v.length ≤ k * e)

/-- The value's length fits the type (R73, R91). -/
def lengthLegal (r : ObjRow) (v : Bytes) : Bool :=
  match r.ty with
  | .str => 1 ≤ v.length && v.length ≤ 64
  | .domain => (match r.legal with
    | .fixed k => v.length == k
    | .upTo k e => v.length % e == 0 && v.length ≤ k * e
    | _ => true)
  | t => v.length == (t.size).getD 0

/-- The largest length a DOMAIN may take (R91). -/
def domainLimit (r : ObjRow) : Nat :=
  match r.legal with
  | .fixed k => k
  | .upTo k e => k * e
  | _ => 0xFFFFFFFF

/-- Module-scope objects (R400). -/
def moduleScope (index : Nat) : Bool :=
  [0x110C, 0x1201, 0x1203, 0x1288, 0x1402, 0x2503, 0x2507, 0x2540, 0x2805, 0x2807, 0x290D, 0x2983, 0x2B02, 0x3B01, 0x3B02,
   0x3001, 0x3005, 0x3902, 0x3905, 0x3C01, 0x6800].contains index ||
  (0x1300 ≤ index && index ≤ 0x13FF) || (0x2700 ≤ index && index ≤ 0x27FF) || (0x3700 ≤ index && index ≤ 0x37FF) ||
  (0x2901 ≤ index && index ≤ 0x2904) || (0x2A00 ≤ index && index ≤ 0x2AFF) || (0x3A00 ≤ index && index ≤ 0x3AFF) ||
  (0x2F00 ≤ index && index ≤ 0x2FFF) || (0x3500 ≤ index && index ≤ 0x35FF) || (0x3601 ≤ index && index ≤ 0x3603) ||
  (0x3801 ≤ index && index ≤ 0x3803)

/-- The value of an object in a table of values, or its default. -/
def valueIn (objs : KMap Bytes) (r : ObjRow) (sub : Nat) : Bytes := (kget objs (objKey r.index sub)).getD (dfltBytes r sub)

/-- The SHA-256 of 3,149,824 zero bytes: the hash of curve tables that are all empty (R248, R400). -/
def emptyCurvesDigest : Bytes := be 32 0x66aea0d6a778e391a8945ff2e22d6e4622aa969474340d71d82745e3dd2ccbc1

/-- The SHA-256 of 262,144 zero bytes: the hash of a parameter group table with no group (R400). -/
def emptyGroupsDigest : Bytes := be 32 0x8a39d2abd3999ab73c34db2476849cddf303ce389b35826850f9a700589b4a90

/-- The hash of a DOMAIN's contents as it enters a digest. -/
def domainDigest (objs : KMap Bytes) (r : ObjRow) (sub : Nat) : Bytes :=
  match kget objs (objKey r.index sub) with
  | some v => sha256 v
  | none => if r.index = 0x6401 then emptyCurvesDigest else if r.index = 0x6400 then emptyGroupsDigest else sha256 (dfltBytes r sub)

/-- One record of a digest: index, subindex, type code, length and value (R400). -/
def digestRecord (objs : KMap Bytes) (withValue : Bool) (r : ObjRow) (sub : Nat) : Bytes :=
  let v := if !withValue then [] else if r.ty == .domain then domainDigest objs r sub else valueIn objs r sub
  le 2 r.index ++ le 1 sub ++ le 1 r.ty.code ++ le 4 v.length ++ v

/-- The set of an object is sealed (R84). -/
def sealedIn (objs : KMap Bytes) (index : Nat) : Bool :=
  match objectSet index with
  | some k => leNat ((kget objs (objKey 0x15F0 k)).getD []) == 1
  | none => false

/-- The objects that enter the digests: every sealed RWF object and every P object except 1211.00 and 6700.00 (R84, R400). -/
def inDigest (objs : KMap Bytes) (r : ObjRow) : Bool :=
  (r.persist || (r.access == .rwf && sealedIn objs r.index)) && r.index != 0x1211 && r.index != 0x6700

/-- The instances of a row; the seals stand only at set numbers (R84). -/
def instances (r : ObjRow) : List Nat :=
  ((List.range (r.last + 1 - r.first)).map (· + r.first)).filter (fun sub => r.index != 0x15F0 || isSetNumber sub)

/-- The record sequence over the objects of a scope. -/
def digestRecords (objs : KMap Bytes) (module : Bool) : Bytes :=
  (objRows.filter (fun r => inDigest objs r && (!module || moduleScope r.index))).flatMap
    (fun r => (instances r).flatMap (fun sub => digestRecord objs (module || !moduleScope r.index) r sub))

/-- The configuration digest over the values given (R400). -/
def configDigest (objs : KMap Bytes) : Bytes := sha256 (digestRecords objs false)

/-- The module digest over the values given (R400). -/
def moduleDigest (objs : KMap Bytes) : Bytes := sha256 (digestRecords objs true)

end Sys2Proof.Machine
end

