-- ==== Sys2Proof/Machine/StateCore.lean ====
section
/-! DEFINITION. The parts of the state that every family uses: what the module sends, the object dictionary, the ledgers, the
counters and the fabric timer. -/

namespace Sys2Proof.Machine

/-- What the module sends, each in the order it leaves. -/
inductive Out where
  /-- A control frame on a chip link: the frame type of R345's table and its payload. -/
  | control (link kind : Nat) (payload : Bytes)
  /-- A flit on a chip link (R338). -/
  | flit (link : Nat) (header payload : Bytes)
  /-- A link acknowledges up to a sequence number, or asks to be resent from one (R339). -/
  | acknowledge (link sequence : Nat)
  | retry (link sequence : Nat)
  /-- A VOA or peer frame to the far end of a connection (R88, R89). -/
  | frame (conn : Nat) (bytes : Bytes)
  /-- A response frame in a function's mailbox (R463). -/
  | mailbox (function : Nat) (bytes : Bytes)
  /-- A datagram of a direct port: the link, the flow and the UDP payload (R357). -/
  | datagram (link flow : Nat) (payload : Bytes)
  /-- An MSI-X message (R469). -/
  | message (function vector : Nat)
  /-- A write to host memory at a bus address (R439, R468). -/
  | hostWrite (address : Nat) (data : Bytes)
  /-- The completion of a host read; `none` is Completer Abort with the AER error logged (R466). -/
  | completion (function : Nat) (data : Option Bytes)
  /-- An answer of the management port to ARP, echo or neighbour discovery (R359). -/
  | echo (kind : Nat) (data : Bytes)
  deriving DecidableEq, Repr

/-- The outcome of the last dictionary entry executed: its status (R94) and the data of its response. -/
structure Resp where
  status : Nat
  data : Bytes
  deriving DecidableEq, Repr

/-- The staging set (R402): state 0 none, 1 open, 2 closed. -/
structure Staging where
  state : Nat
  values : KMap Bytes
  commit : Nat
  deriving DecidableEq, Repr

/-- A VOA or peer session (R88, R92). `lastFrame` is the clock at its last frame; `stored` the stored response. -/
structure Session where
  id : Nat
  conn : Nat
  transport : Nat
  client : Nat
  key : Bytes
  owner : Bytes
  lastSeq : Option Nat
  stored : Bytes
  lastFrame : Nat
  deriving DecidableEq, Repr

/-- A session whose challenge is unanswered (R88). -/
structure Opening where
  conn : Nat
  transport : Nat
  client : Nat
  owner : Bytes
  nonce : Bytes
  deriving DecidableEq, Repr

/-- The mailbox of a PCIe function (R461, R463). -/
structure Mailbox where
  request : Bytes
  response : Bytes
  status : Nat
  count : Nat
  deriving DecidableEq, Repr

/-- An emptied mailbox. -/
def Mailbox.empty : Mailbox := ⟨[], [], 0, 0⟩

/-- A domain write in progress (R91). -/
structure Partial where
  who : Who
  key : Nat
  data : Bytes
  deriving DecidableEq, Repr

/-- The object dictionary. `objs` holds the values stored for objects that differ from their default, `inUse` the values the
hardware uses (R75), `store` the flash configuration store (R81). -/
structure Dict where
  objs : KMap Bytes
  inUse : KMap Bytes
  store : KMap Bytes
  staging : Staging
  lastCommit : Nat
  /-- The configuration digest and the module digest in force (R400). -/
  digest : Bytes
  moduleDig : Bytes
  partials : List Partial
  /-- Per client: the challenge outstanding and the clock at its issue (R79). -/
  challenges : KMap (Bytes × Nat)
  /-- The requesters whose expert level is unlocked (R79). -/
  unlocked : List Who
  sessions : List Session
  openings : List Opening
  mailboxes : KMap Mailbox
  deriving DecidableEq, Repr

/-- The three ledgers (R96, R452, R454): records by slot of the ring, and the count of records ever written. -/
structure Ledgers where
  command : KMap Bytes
  commands : Nat
  event : KMap Bytes
  events : Nat
  step : KMap Bytes
  steps : Nat
  deriving DecidableEq, Repr

/-- The counters (R447-R451). Keys are index × 256 + instance; station counters are keyed by slot, station and counter. -/
structure Counters where
  live : KMap Nat
  captured : KMap Nat
  station : KMap Nat
  stationCaptured : KMap Nat
  captureBeat : Nat
  clearPending : Bool
  /-- Functions and vectors with a cause gathered in the present beat (R469). -/
  causes : List (Nat × Nat)
  deriving DecidableEq, Repr

/-- The fabric timer and the beat services (R47-R51, R61, R63, R64). -/
structure Beat where
  count : Nat
  /-- The count of the beat before, at which commit beats that were passed over are told apart. -/
  before : Nat
  /-- 0 FREE, 1 LOCKING, 2 LOCKED, 3 MASTER. -/
  state : Nat
  /-- Consecutive marks received, up to 16. -/
  marks : Nat
  /-- Fabric beats since a mark came on the upstream link in use, and on either link. -/
  silent : Nat
  silentBoth : Nat
  /-- Fabric beats counted since reset, up to 32. -/
  sinceReset : Nat
  /-- Fabric beats since the last EVT_BEAT_MASTER while no master is heard. -/
  masterless : Nat
  term : Nat
  sender : Option Nat
  heard : Bool
  /-- The alternate upstream link is in use; the link has been changed in the present silence (R50). -/
  alternate : Bool
  switched : Bool
  /-- A count to adopt at the next beat opening. -/
  adopt : Option Nat
  /-- Last measured mark offset in cycles, and what of it is still to be corrected. -/
  offset : Int
  correction : Int
  governed : Nat
  /-- Announced additions with the beats from which they apply: the one in force first, then those still to come. -/
  announced : List (Nat × Nat)
  /-- The addition this module has requested, the beat of its last request, its quiet beats. -/
  requested : Nat
  lastRequest : Option Nat
  quiet : Nat
  /-- The largest addition requested by the modules below each link. -/
  asked : KMap Nat
  /-- Notices the master carries on its next mark; notices and request the module sends up. -/
  notices : List VoidNotice
  upNotices : List VoidNotice
  upRequest : Option Nat
  /-- Per link: measured one-way latency in cycles, and the clock at which the outstanding probe left. -/
  latency : KMap Nat
  probes : KMap Nat
  /-- The clock at cycle 0 of the present fabric beat, and the beat's length. -/
  opened : Nat
  length : Nat
  /-- The beat of the last EVT_GOVERNOR_CEILING (R498). -/
  ceilingBeat : Option Nat
  deriving DecidableEq, Repr

end Sys2Proof.Machine
end

