-- ==== Sys2Proof/Machine/StateMemory.lean ====
section
/-! DEFINITION. The parts of the state that hold memory: cargoes and their page tables, the T1 cache, descriptor engines, the
flash store, and the hold-up bank. -/

namespace Sys2Proof.Machine

/-- A page table entry (R275). Tier code 15 marks an unmapped page (R309). -/
structure PageEntry where
  generation : Nat
  tier : Nat
  unit : Nat
  frame : Nat
  deriving DecidableEq, Repr

/-- A record of the cargo table (R290): state 0 free, 1 live, 2 BROKEN. The reuse count outlives the cargo (R271). -/
structure Cargo where
  state : Nat
  client : Nat
  reuse : Nat
  attr : Bytes
  pages : List PageEntry
  /-- Zeroing after the create is still running (R277). -/
  zeroing : Bool
  deriving DecidableEq, Repr

/-- A record that no cargo has used. -/
def Cargo.free : Cargo := ⟨0, 0, 0, [], [], false⟩

/-- A frame of the T1 cache (R280-R284). -/
structure CacheFrame where
  stack : Nat
  frame : Nat
  cargo : Nat
  page : Nat
  client : Nat
  dirty : Bool
  pinned : Bool
  filled : Nat
  lastUse : Nat
  outOfDate : Bool
  /-- A refill from home is in flight; the older copy is kept until it lands. -/
  refilling : Bool
  /-- It holds a copy: a refill has landed since it was taken. -/
  valid : Bool
  /-- It was marked out of date after its present refill began (R279). -/
  again : Bool
  /-- A write home was not admitted: the beat from which it waits for its retry (R281). -/
  retry : Option Nat
  deriving DecidableEq, Repr

/-- A transfer descriptor, its fields as R292 lays them out; handle 0xFFFFFFFF is the TBF. -/
structure Descriptor where
  kind : Nat
  flags : Nat
  rows : Nat
  rowLength : Nat
  source : Nat
  dest : Nat
  sourceOffset : Nat
  destOffset : Nat
  sourceStride : Nat
  destStride : Nat
  tag : Nat
  pair : Nat
  sourceFirst : Nat
  sourcePages : Nat
  destFirst : Nat
  destPages : Nat
  deriving DecidableEq, Repr

/-- Where a copy landed (R306): a page of a T0 cargo, a half of a pair, or the staging buffer of an MMO operand at an address of the TBF. -/
inductive Landing where
  | page (record page : Nat)
  | half (array pair half : Nat)
  | staging (array address : Nat)
  deriving DecidableEq, Repr

/-- A copy record: for each source page (record × 2^28 + page) its generation at issue, or an open mark; the transfer it
describes, with its array and slot; the refetches made for the present consumption; whether it has been checked since it landed,
and whether a refetch is under way. -/
structure CopyRecord where
  landing : Landing
  pages : KMap (Option Nat)
  desc : Descriptor
  array : Nat
  slot : Nat
  refetched : Nat
  checked : Bool
  waiting : Bool
  deriving DecidableEq, Repr

/-- The grants of a partition controller (R109): the cycle of its last ones, the granules moved in it, the requester next in the round
robin, and those that wait. Sites are numbered by logical array. -/
structure PartitionPort where
  cycle : Nat
  moved : Nat
  next : Nat
  waiting : List Nat
  deriving DecidableEq, Repr

/-- A controller that nothing has asked. -/
def PartitionPort.idle : PartitionPort := ⟨0, 0, 0, []⟩

/-- Cargoes and their contents (R271-R290). `home` holds the home contents and `cached` the contents of cached frames, both at
address record × 2^44 + byte of the cargo. -/
structure Mem where
  cargoes : KMap Cargo
  home : Memory
  cached : Memory
  cache : List CacheFrame
  /-- Per client: handle of the last create and command progress (2511, 2512). -/
  progress : KMap (Nat × Nat)
  /-- Pages that a transfer or a Kiln is writing: (record, page) (R305). -/
  openPages : List (Nat × Nat)
  /-- Route slots that take FLT_SAGGAR at their next close, with the stream concerned (R268). -/
  saggarHits : List (Nat × Nat)
  copies : List CopyRecord
  /-- Late resolutions written to the event ledger: slot, tag and handle (R287). -/
  noted : List (Nat × Word × Nat)
  /-- Pages that a client's running pin or flush has still to bring in or write home: record, page, and whether it pins (R276, R277). -/
  working : KMap (List (Nat × Nat × Bool))
  /-- Per controller, kind × 256 + unit: the scrub periods begun when its last pass ended (R269). -/
  scrubbed : KMap Nat
  /-- Partition controllers by logical array. -/
  ports : KMap PartitionPort
  /-- Stacks (tier 1) and packages (tier 2) that failed memory training (R483). -/
  failed : List (Nat × Nat)
  deriving DecidableEq, Repr

/-- Who placed a transfer on the engine. -/
inductive Origin where
  /-- A descriptor of the route: a D1 move operation of a station's firing, or the prefetch table. -/
  | move (station op : Nat) (tag : Word)
  | prefetch (entry : Nat) (next : Bool)
  /-- A window of an operand of an MMO in flight (R167). -/
  | window (mmo operand position : Nat)
  /-- The T1 read of a stash overflow entry (R216). -/
  | stash (station stream : Nat) (tag : Word)
  /-- An access of a drover thread (R311). -/
  | drover (core thread : Nat)
  /-- A buffer that a serving route reloads after a substitution, by its descriptor (R116). -/
  | reload (descriptor : Nat)
  /-- A refetch of R307 for the landing of a copy record. -/
  | refetch (landing : Landing)
  deriving DecidableEq, Repr

/-- One request of a transfer (R295). `address` and `dest` are byte offsets in the source and destination. State: 0 waiting,
1 issued, 2 landed or acknowledged. `data` is what the read found when its controller served it. -/
structure Request where
  address : Nat
  dest : Nat
  length : Nat
  state : Nat
  data : Bytes
  /-- Zero bytes after the row's end, up to the end of its granule (R294). -/
  pad : Nat
  deriving DecidableEq, Repr

/-- A transfer in an engine's queue or outstanding (R292-R312). -/
structure Transfer where
  id : Nat
  slot : Nat
  attempt : Nat
  step : Nat
  origin : Origin
  desc : Descriptor
  /-- Hold tag and hold station of a prefetch (R302). -/
  hold : Option (Nat × Nat)
  requests : List Request
  /-- Generation of each source page at its first request; `none` is an open mark (R306). -/
  generations : KMap (Option Nat)
  /-- Half of the buffer pair it fills. -/
  half : Nat
  cancelled : Bool
  /-- It was resolved at its late point or after a failure (R287). -/
  resolved : Bool
  /-- A request of it was suppressed: its destination misses bytes (R308). -/
  failed : Bool
  deriving DecidableEq, Repr

/-- A buffer pair (R299, R300). -/
structure Pair where
  slot : Nat
  base : Nat
  half : Nat
  station : Nat
  input : Nat
  credits : Nat
  fill : Nat
  /-- Per half: transfers in flight into it, and the tag of its closing transfer once it has issued. -/
  flying : Nat × Nat
  closing : Option Word × Option Word
  deriving DecidableEq, Repr

/-- A drover thread (R310): 0 IDLE, 1 READY, 2 STALLED. -/
structure Drover where
  state : Nat
  /-- The bytes of its last load. -/
  loaded : Bytes
  deriving DecidableEq, Repr

/-- A descriptor engine with its array's pairs and drover threads. -/
structure Engine where
  queue : List Transfer
  outstanding : List Transfer
  nextId : Nat
  pairs : KMap Pair
  drovers : KMap Drover
  deriving DecidableEq, Repr

/-- An engine after reset. -/
def Engine.reset : Engine := ⟨[], [], 0, [], []⟩

/-- A block set (R321): 0 erased, 1 open, 2 in use, 3 retired. -/
structure BlockSet where
  state : Nat
  erases : Nat
  reads : Nat
  next : Nat
  deriving DecidableEq, Repr

/-- A block set never used. -/
def BlockSet.fresh : BlockSet := ⟨0, 0, 0, 0⟩

/-- A store of T3 pages (R324-R326): pages by logical number, waiting for admission, admitted, committed to staging. -/
structure FlashStore where
  id : Nat
  client : Nat
  waiting : List Nat
  admitted : List Nat
  committed : List Nat
  deriving DecidableEq, Repr

/-- The flash translation layer (R315-R326). -/
structure Flash where
  /-- Logical page to (block set, page). -/
  map : KMap (Nat × Nat)
  sets : KMap BlockSet
  /-- The open set of each die, and the die next in the round robin. -/
  openSets : KMap Nat
  nextDie : Nat
  /-- Bytes of the journal not yet programmed, and map entries changed since the checkpoint. -/
  journal : Nat
  dirty : Nat
  /-- Retired sets with what the bad block table holds of them. -/
  bad : List Nat
  stores : List FlashStore
  nextStore : Nat
  state : Nat
  channels : KMap Nat
  /-- Contents at the last programming of the journal, of pages committed since (R329). -/
  shadow : KMap Bytes
  deriving DecidableEq, Repr

/-- Supply, hold-up bank and temperatures (R323, R327, R330, R498-R508). -/
structure Power where
  inputVolts : Word
  inputPower : Word
  dieTemp : Word
  bankVolts : Word
  capacitance : Word
  admissible : Nat
  /-- 1307.00. -/
  holdup : Nat
  /-- 1312.00. -/
  input : Nat
  testing : Bool
  tested : Bool
  reached55 : Bool
  lastTest : Nat
  /-- Input above 60 V (R500); the hot-swap switch is open. -/
  high : Bool
  switchOpen : Bool
  /-- Hold-up sequence: 0 none, 1 quiesce, 2 programming, 3 journal, 4 record written. -/
  sequence : Nat
  cause : Nat
  beatAtLoss : Nat
  pagesAtLoss : Nat
  programmed : Nat
  journalLost : Bool
  tripped : Bool
  cableOff : List Nat
  railsFailed : Bool
  deriving DecidableEq, Repr

end Sys2Proof.Machine
end

