-- ==== Sys2Proof/Machine/Records.lean ====
section
/-! DEFINITION. The records of a route image, each read from the bytes of its own layout: station map, firing tables, beat plan,
descriptors, manifest and buffer pairs. -/

namespace Sys2Proof.Machine

/-- A station map entry (R119). -/
structure Station where
  number : Nat
  kind : Nat
  place : Nat
  proxy : Nat
  link : Nat
  thread : Nat
  table : Nat
  ops : Nat
  queues : Nat
  outputs : Nat
  counters : Nat
  reserved : Bool
  deriving DecidableEq, Repr

def Station.parse (b : Bytes) : Station :=
  ⟨field b 0 2, field b 2 1, field b 4 2, field b 6 2, field b 8 1, field b 9 1, field b 10 2, field b 12 1, field b 13 1,
   field b 14 1, field b 15 1, !zeroAt b 3 1⟩

/-- One input of an operation entry (R125's table): its queue and the masks of R126. -/
structure OpInput where
  queue : Nat
  replaceMask : Word
  replaceValue : Word
  matchMask : Word
  deriving DecidableEq, Repr

/-- An operation entry (64 bytes). -/
structure OpEntry where
  kind : Nat
  counter : Nat
  window : Nat
  inputs : List OpInput
  outputs : Nat
  program : Nat
  reserved : Bool
  deriving DecidableEq, Repr

def OpEntry.parse (b : Bytes) : OpEntry :=
  ⟨field b 0 1, field b 1 1, field b 2 1,
   (List.range (field b 3 1)).map (fun j => ⟨field b (12 + 13 * j) 1, BitVec.ofNat 32 (field b (13 + 13 * j) 4),
     BitVec.ofNat 32 (field b (17 + 13 * j) 4), BitVec.ofNat 32 (field b (21 + 13 * j) 4)⟩),
   field b 4 1, field b 6 2, !zeroAt b 5 1 || !zeroAt b 8 4⟩

/-- A queue record (R515). -/
structure QueueRec where
  queue : Nat
  kind : Nat
  depth : Nat
  base : Nat
  size : Nat
  spill : Nat
  reserved : Bool
  deriving DecidableEq, Repr

def QueueRec.parse (b : Bytes) : QueueRec :=
  ⟨field b 0 1, field b 1 1, field b 2 1, field b 4 2, field b 6 2, field b 8 4, !zeroAt b 3 1 || !zeroAt b 12 4⟩

/-- The largest tile an entry of the queue holds: the region cut into `depth` parts of whole 256 B (R515). -/
def QueueRec.part (q : QueueRec) : Nat := q.size * 4096 / q.depth / 256 * 256

/-- A counter record (R130). -/
structure CounterRec where
  base : Word
  inner : Nat
  innerStride : Nat
  outer : Nat
  outerStride : Nat
  bound : Nat
  start : Nat
  quota : Nat
  reserved : Bool
  deriving DecidableEq, Repr

def CounterRec.parse (b : Bytes) : CounterRec :=
  ⟨BitVec.ofNat 32 (field b 0 4), field b 4 2, field b 6 2, field b 8 2, field b 10 2, field b 12 1, field b 14 1, field b 15 1,
   !zeroAt b 13 1⟩

/-- A station with its firing table. -/
structure StationRec where
  info : Station
  ops : List OpEntry
  queues : List QueueRec
  counters : List CounterRec
  deriving DecidableEq, Repr

/-- The firing table of a station begins at its offset in 64-byte units; queue records follow the operation entries
(R514, R515). -/
def StationRec.parse (firing : Bytes) (counters : List (Nat × Bytes)) (b : Bytes) : StationRec :=
  let i := Station.parse b
  let base := i.table * 64
  { info := i
    ops := (List.range i.ops).map (fun k => OpEntry.parse (padTo 64 (slice firing (base + 64 * k) 64)))
    queues := (List.range i.queues).map (fun k => QueueRec.parse (padTo 16 (slice firing (base + 64 * i.ops + 16 * k) 16)))
    counters := (records 16 ((counters.find? (fun c => c.1 == i.number)).elim [] (·.2))).map CounterRec.parse }

/-- A route-set entry, a due entry, an idle mark and a channel record of the beat plan (R54). -/
structure SetEntry where
  set : Nat
  phase : Nat
  start : Nat
  deriving DecidableEq, Repr

structure DueEntry where
  station : Nat
  beat : Nat
  value : Word
  mask : Word
  deriving DecidableEq, Repr

structure IdleMark where
  array : Nat
  first : Nat
  beats : Nat
  deriving DecidableEq, Repr

structure ChannelRec where
  link : Nat
  channel : Nat
  grant : Nat
  deriving DecidableEq, Repr

/-- A prefetch entry (R302); the issue beat is signed. -/
structure PrefetchEntry where
  descriptor : Nat
  array : Nat
  issue : Int
  visit : Nat
  lookahead : Nat
  holdTag : Nat
  holdStation : Nat
  deriving DecidableEq, Repr

def PrefetchEntry.parse (b : Bytes) : PrefetchEntry :=
  ⟨field b 0 2, field b 2 2, toSigned 16 (field b 4 2), field b 6 1, field b 7 1, field b 8 4, field b 12 2⟩

/-- The beat plan header with the parts it defines itself (R52-R54); the other parts stay as bytes. -/
structure BeatPlan where
  isLocal : Bool
  policy : Nat
  stretchLimit : Nat
  voidGap : Nat
  period : Nat
  lagLimit : Nat
  stepLength : Nat
  slackBeats : Nat
  fabricId : Bytes
  slack : List Nat
  sets : List SetEntry
  due : List DueEntry
  idle : List IdleMark
  pipeline : Bytes
  prefetch : List PrefetchEntry
  cut : Bytes
  collective : Bytes
  channels : List ChannelRec
  ports : List Bytes
  deriving DecidableEq, Repr

/-- Part `k` of the beat plan by its directory entry (R53). -/
def planPart (plan : Bytes) (k : Nat) : Bytes := slice plan (field plan (64 + 8 * k) 4) (field plan (68 + 8 * k) 4)

def BeatPlan.parse (p : Bytes) : BeatPlan :=
  { isLocal := bit (field p 0 1) 0
    policy := field p 1 1 % 4
    stretchLimit := field p 2 1
    voidGap := field p 3 1
    period := field p 4 4
    lagLimit := field p 8 4
    stepLength := field p 12 2
    slackBeats := field p 14 2
    fabricId := slice p 16 32
    slack := (records 2 (planPart p 0)).map leNat
    sets := (records 8 (planPart p 1)).map (fun b => ⟨field b 0 1, field b 1 1, field b 2 2⟩)
    due := (records 16 (planPart p 2)).map (fun b =>
      ⟨field b 0 2, field b 2 2, BitVec.ofNat 32 (field b 4 4), BitVec.ofNat 32 (field b 8 4)⟩)
    idle := (records 8 (planPart p 3)).map (fun b => ⟨field b 0 2, field b 2 2, field b 4 2⟩)
    pipeline := planPart p 4
    prefetch := (records 16 (planPart p 5)).map PrefetchEntry.parse
    cut := planPart p 6
    collective := planPart p 7
    channels := (records 4 (planPart p 8)).map (fun b => ⟨field b 0 1, field b 1 1, field b 2 2⟩)
    ports := records 32 (planPart p 9) }

/-- An allocation table entry (R516). -/
structure AllocEntry where
  blocks : Nat
  base : Nat
  size : Nat
  reserved : Bool
  deriving DecidableEq, Repr

def AllocEntry.parse (b : Bytes) : AllocEntry := ⟨field b 0 1, field b 2 2, field b 4 2, !zeroAt b 1 1 || !zeroAt b 6 2⟩

/-- An operand record of an MMO (R165). -/
structure Operand where
  kind : Nat
  input : Nat
  transposed : Bool
  handle : Nat
  offset : Nat
  stride : Nat
  reserved : Bool
  deriving DecidableEq, Repr

def Operand.parse (b : Bytes) : Operand :=
  ⟨field b 0 1, field b 1 1, bit (field b 2 1) 0, field b 4 4, field b 8 4, field b 12 4,
   field b 2 1 > 1 || !zeroAt b 3 1⟩

/-- An MMO descriptor (R165). -/
structure MmoDesc where
  mode : Nat
  accumulate : Bool
  allowReorder : Bool
  fixShape : Bool
  fixOrder : Bool
  order : Nat
  rounding : Nat
  formatA : Nat
  formatB : Nat
  formatC : Nat
  delivery : Nat
  output : Nat
  lengthQueue : Nat
  lengthOnK : Bool
  acmBase : Nat
  m : Nat
  n : Nat
  k : Nat
  mt : Nat
  nt : Nat
  kt : Nat
  base : Nat
  size : Nat
  a : Operand
  b : Operand
  c : Operand
  reserved : Bool
  deriving DecidableEq, Repr

def MmoDesc.parse (b : Bytes) : MmoDesc :=
  let c := field b 0 1
  { mode := bits c 1 0, accumulate := bit c 2, allowReorder := bit c 3, fixShape := bit c 4, fixOrder := bit c 5
    order := bits c 7 6, rounding := field b 1 1 % 4, formatA := field b 2 1 % 32, formatB := field b 3 1 % 32
    formatC := field b 4 1 % 32, delivery := bits (field b 5 1) 1 0, output := bits (field b 5 1) 4 3
    lengthQueue := bits (field b 6 1) 3 0, lengthOnK := bit (field b 6 1) 4, acmBase := field b 7 1
    m := field b 8 4, n := field b 12 4, k := field b 16 4, mt := field b 20 2, nt := field b 22 2, kt := field b 24 2
    base := field b 26 2, size := field b 28 2
    a := Operand.parse (slice b 32 16), b := Operand.parse (slice b 48 16), c := Operand.parse (slice b 64 16)
    reserved := field b 1 1 > 3 || field b 2 1 > 31 || field b 3 1 > 31 || field b 4 1 > 31 ||
      (field b 5 1).land 0xE4 != 0 || field b 6 1 > 31 || bits (field b 6 1) 3 0 > 8 ||
      !zeroAt b 30 2 || !zeroAt b 80 16 || bits c 7 6 == 3 || bits c 1 0 == 3 || field b 1 1 % 4 == 3 }

/-- A GA record (R221) is kept in its own 48 bytes; the accessors stand with its chapter. -/
abbrev GaRec := Bytes

/-- A manifest entry (R278). -/
structure ManifestEntry where
  handle : Nat
  use : Nat
  read : Bool
  write : Bool
  first : Nat
  pages : Nat
  reserved : Bool
  deriving DecidableEq, Repr

def ManifestEntry.parse (b : Bytes) : ManifestEntry :=
  ⟨field b 0 4, field b 4 1, bit (field b 5 1) 0, bit (field b 5 1) 1, field b 8 4, field b 12 4,
   field b 4 1 > 6 || field b 5 1 > 3 || !zeroAt b 6 2⟩

def Descriptor.parse (b : Bytes) : Descriptor :=
  ⟨field b 0 1, field b 1 1, field b 2 2, field b 4 4, field b 8 4, field b 12 4, field b 16 8, field b 24 8, field b 32 4,
   field b 36 4, field b 40 4, field b 44 2, field b 48 4, field b 52 4, field b 56 4, field b 60 4⟩

/-- A buffer pair record (R299). -/
structure PairRec where
  pair : Nat
  base : Nat
  half : Nat
  station : Nat
  input : Nat
  reserved : Bool
  deriving DecidableEq, Repr

def PairRec.parse (b : Bytes) : PairRec :=
  ⟨field b 0 1, field b 2 2, field b 4 2, field b 6 2, field b 8 1, !zeroAt b 1 1 || !zeroAt b 9 7⟩

/-- A resident or loading route: the image's parts as its load read them (R39). -/
structure Route where
  plan : BeatPlan
  stations : List StationRec
  streams : List StreamRow
  units : List UnitRow
  slotTables : List SlotTab
  linkTables : List LinkRow
  alloc : List AllocEntry
  mmos : List MmoDesc
  gas : List GaRec
  manifest : List ManifestEntry
  stash : List (Nat × Bytes)
  updates : List Bytes
  pairs : List (Nat × PairRec)
  transfers : List Descriptor
  programs : List ProgramRow
  /-- The handle of the cargo that holds the image, its first page and length, and the image digest (R412). -/
  image : Nat
  imagePage : Nat
  imageLength : Nat
  digest : Bytes
  deriving DecidableEq, Repr

/-- The route that the parts of an image give, read part by part; absent parts read as empty. -/
def Route.parse (p : RouteParts) (image page length : Nat) (digest : Bytes) : Route :=
  let d := p.descriptors.getD []
  { plan := BeatPlan.parse (p.beatPlan.getD [])
    stations := (records 16 (p.stationMap.getD [])).map (StationRec.parse (p.firing.getD []) p.counters)
    streams := p.streams
    units := p.units
    slotTables := p.slotTables.getD []
    linkTables := p.linkTables.getD []
    alloc := (records 8 (d.take 2048)).map AllocEntry.parse
    mmos := (records 96 (slice d 2048 (96 * p.mmoCount))).map MmoDesc.parse
    gas := records 48 (d.drop (2048 + 96 * p.mmoCount))
    manifest := (records 16 (p.manifest.getD [])).map ManifestEntry.parse
    stash := p.stash
    updates := records 48 p.updates
    pairs := p.pairs.flatMap (fun e => (records 16 e.2).map (fun b => (e.1, PairRec.parse b)))
    transfers := (records 64 p.transfers).map Descriptor.parse
    programs := p.programs
    image := image
    imagePage := page
    imageLength := length
    digest := digest }

/-- A collective record with its rank list (R349). -/
structure CollRec where
  op : Nat
  sum : Nat
  result : Nat
  rings : Nat
  group : Nat
  rank : Nat
  elements : Nat
  station : Nat
  close : Nat
  grace : Nat
  norm : Bool
  links : List Nat
  cargo : Nat
  ranks : List Nat
  reserved : Bool
  deriving DecidableEq, Repr

def CollRec.parse (b : Bytes) : CollRec :=
  { op := field b 0 1, sum := field b 1 1, result := field b 2 1, rings := field b 3 1, group := field b 4 2, rank := field b 6 2
    elements := field b 8 4, station := field b 12 2, close := field b 14 2, grace := field b 16 1, norm := bit (field b 17 1) 0
    links := (slice b 18 16).map (·.toNat), cargo := field b 34 4
    ranks := (List.range (field b 4 2)).map (fun k => field b (64 + 2 * k) 2)
    reserved := field b 17 1 > 1 || !zeroAt b 38 26 }

/-- The collective records one after another, each at a multiple of 16 (R53). -/
def collRecords : Nat → Bytes → List CollRec
  | 0, _ => []
  | fuel + 1, b => if b.length < 64 then [] else CollRec.parse b :: collRecords fuel (b.drop (roundUp (64 + 2 * field b 4 2) 16))

def Route.collectives (r : Route) : List CollRec := collRecords 16 r.plan.collective

/-- The cut record and the position entries (R361). -/
def cutDevice (r : Route) : Nat := field r.plan.cut 0 2
def cutFiller (r : Route) : Bool := bit (field r.plan.cut 2 1) 0

end Sys2Proof.Machine
end

