-- ==== Sys2Proof/Machine/StateRoute.lean ====
section
/-! DEFINITION. The parts of the state that a running route uses: queues and flight tables, streams, the accumulators, buffers
and registers of the arrays, the Kilns, the steps of training, and the on-die fabric. -/

namespace Sys2Proof.Machine

/-- A tile: its 32-byte header and its payload (R121). -/
structure Tile where
  header : Bytes
  payload : Bytes
  deriving DecidableEq, Repr

/-- An entry of an input queue (R126). `address` is where its payload lies in the TBF; the payload itself stands here only where
the queue lies outside a TBF, in a Kiln's gradient buffer (R239) or in a spill area (R137). -/
structure Entry where
  tag : Word
  header : Bytes
  address : Nat
  length : Nat
  payload : Bytes
  uses : Nat
  spilled : Bool
  /-- In a Kiln's gradient buffer, its place in the order of arrival at the Kilns (R256). -/
  arrived : Nat
  /-- Array, pair and half, for an entry that is a half of a buffer pair (R300). -/
  half : Option (Nat × Nat × Nat)
  deriving DecidableEq, Repr

/-- An entry of a flight table (R129). `outputs` are the tiles its unit has produced, by output stream number; `finished`
is set once its unit has finished; `reserved` counts, by stream, the credits it has taken for tiles that it has not sent yet (R128). -/
structure Flight where
  op : Nat
  tag : Word
  inputs : List Entry
  scalar : Option Word
  outputs : List (Nat × Tile)
  finished : Bool
  reserved : List (Nat × Nat)
  deriving DecidableEq, Repr

/-- The running state of a station (R126-R131). Keys of `queues` and `scalars` are queue numbers. -/
structure StationState where
  queues : KMap (List Entry)
  scalars : KMap (List (BitVec 64))
  /-- Run-time bounds taken, by counter × 4096 + outer step (R131). -/
  bounds : KMap Nat
  flight : List Flight
  fired : List (Nat × Word)
  completed : List (Nat × Word)
  failed : List Word
  skipped : List (Nat × Word)
  /-- Firings of the present beat, per operation. -/
  quota : KMap Nat
  /-- Operation next in the round robin. -/
  next : Nat
  /-- Queue whose refill entry is in use. -/
  refill : Option (Nat × Word)
  /-- The scalar results of the Glaze programs that have ended (R193), by firing tag. -/
  results : KMap Word
  deriving DecidableEq, Repr

/-- A station at the first beat of a step. -/
def StationState.fresh : StationState := ⟨[], [], [], [], [], [], [], [], [], 0, none, []⟩

/-- A tile that leaves from a stream's output staging buffer, with the words and flits of it already on the networks. -/
structure Staged where
  tile : Tile
  words : Nat
  flits : Nat
  deriving DecidableEq, Repr

/-- The running state of a stream. -/
structure StreamState where
  credits : Nat
  staging : List Staged
  stopped : Bool
  /-- Tiles of a reduced chunk that wait for credit (R351). -/
  waiting : List Tile
  /-- It stopped for an uncorrectable word of the route's saggar pages: the image is reloaded before it restarts (R123). -/
  reload : Bool
  deriving DecidableEq, Repr

/-- A stream that nothing has set up. -/
def StreamState.fresh : StreamState := ⟨0, [], false, [], false⟩

/-- An entry of a Stash (R214, R216): its tile's bytes stand in the station's on-die stash cargo or, narrowed, in the overflow cargo of its
stream, at a byte address of that cargo. -/
structure StashEntry where
  station : Nat
  stream : Nat
  tag : Word
  header : Bytes
  record : Nat
  address : Nat
  length : Nat
  overflow : Bool
  /-- Of an overflow entry whose T1 read has started: the copy of the refill region that it takes; and whether it has landed there. -/
  refill : Option Nat
  landed : Bool
  uses : Nat
  deriving DecidableEq, Repr

/-- A gradient accumulator of the step (R221-R225): the contributions admitted as (micro-batch, source), and whether it has
drained. -/
structure GaState where
  admitted : List (Nat × Nat)
  drained : Bool
  deriving DecidableEq, Repr

/-- A group's record of the group state table (R247). -/
structure GroupState where
  updates : Nat
  lastStep : Nat
  deriving DecidableEq, Repr

/-- The training side of a route slot (R229-R233, R249). Floating-point values are kept as their bits. -/
structure Training where
  step : Nat
  attempt : Nat
  lastCommitted : Nat
  /-- 2306: 0 no training route, 1 running, 2 awaiting replay, 3 HALTED. -/
  state : Nat
  /-- Values of R404's objects as they stood at the first beat of the attempt. -/
  settings : KMap Bytes
  lossItems : List (Nat × Nat × Word)
  stepLoss : Option (BitVec 64)
  lossAverage : Option (BitVec 64)
  normAverage : Option (BitVec 64)
  lastLoss : BitVec 64
  committed : Nat
  /-- Global norm N of the step once reported, and the close at which it is evaluated. -/
  norm : Option Word
  normPending : Bool
  lossPending : Bool
  /-- A void of the step is in force: its beat count and cause; the beat at which the replay starts. -/
  voided : Option (Nat × Nat)
  replayBeat : Option Nat
  coefficients : Bytes
  coefficientsReady : Bool
  lastNorm : Word
  lastClip : Word
  /-- Groups a firing of the step named. -/
  groups : List Nat
  /-- Per update operation (station × 64 + operation): tile indexes updated in the attempt (R257). -/
  updated : KMap (List Nat)
  /-- Phase U of the step: 0 not begun, 1 running, 2 closed; write generations of the route's pages at its first beat (R303). -/
  uPhase : Nat
  uGenerations : KMap Nat
  gas : KMap GaState
  stash : List StashEntry
  /-- Cycles of the last committed steps, and of the present one (R421). -/
  stepCycles : List Nat
  stepOpened : Nat
  solo : Nat
  deriving DecidableEq, Repr

/-- No training route (R236). -/
def Training.none : Training :=
  ⟨0, 0, 0, 0, [], [], Option.none, Option.none, Option.none, 0, 0, Option.none, false, false, Option.none, Option.none,
   [], false, 0, 0, [], [], 0, [], [], [], [], 0, 0⟩

/-- The beat side of a route slot (R45, R56-R61). -/
structure SlotBeat where
  count : Nat
  lag : Nat
  /-- Step offset of the present beat, its length, its increments and the clock at its cycle 0. -/
  offset : Nat
  length : Nat
  increments : Nat
  opened : Nat
  /-- P of the present beat: the configured period with the governed addition in force for it (R63, R285). -/
  period : Nat
  /-- Beat phase: 0 not running, 1 open, 2 close window open, 3 reported, 4 verdict applied. -/
  phase : Nat
  set : Nat
  /-- Due tags of the beat fixed when the close window opened: (station, tag). -/
  due : List (Nat × Word)
  /-- The combined report (R56): a due set was not empty; fault codes held. -/
  late : Bool
  faults : List Nat
  /-- Streams to be stopped at the close under FLT_SAGGAR, and whether each needs a reload (R123). -/
  stopping : List (Nat × Bool)
  /-- Steering and merge entries marked at P - 64: (array, unit or 8 + unit, tag) (R135). -/
  marked : List (Nat × Nat × Word)
  /-- The local governed addition of a local training route (R64). -/
  addition : Nat
  deriving DecidableEq, Repr

/-- A slot whose route does not run. -/
def SlotBeat.idle : SlotBeat := ⟨0, 0, 0, 0, 0, 0, 0, 0, 0, [], false, [], [], [], 0⟩

/-- A route slot (R415-R423): 2A05 state 0 free, 1 loading, 2 resident, 3 releasing. -/
structure Slot where
  state : Nat
  owner : Nat
  route : Option Route
  beat : SlotBeat
  stations : KMap StationState
  streams : KMap StreamState
  train : Training
  /-- It was admitted by its client with expert level unlocked; its priority and the clock at its admission. -/
  expert : Bool
  started : Bool
  /-- Peers that have answered the route start (R140, R369). -/
  startPeers : List Nat
  deriving DecidableEq, Repr

/-- A free route slot. -/
def Slot.free : Slot := ⟨0, 255, Option.none, SlotBeat.idle, [], [], Training.none, false, false, []⟩

/-- A Glaze program in flight on a D0 thread (R188, R193, R194). A loop is (first word, word after the last, runs left). -/
structure Thread where
  slot : Nat
  station : Nat
  op : Nat
  tag : Word
  program : List (BitVec 64)
  pc : Nat
  loops : List (Nat × Nat × Nat)
  scalars : List Word
  rows : Nat
  lanes : Nat
  executed : Nat
  /-- Staging tile of each output stream: its bytes and the highest byte written plus one (R200). -/
  staging : KMap (Memory × Nat)
  deriving DecidableEq, Repr

/-- An MMO in flight (R174-R182). `desc` is the completed descriptor; `position` indexes its walk. -/
structure Mmo where
  slot : Nat
  station : Nat
  op : Nat
  tag : Word
  desc : MmoDesc
  meff : Nat
  keff : Nat
  position : Nat
  computed : Nat
  skipped : Nat
  reordered : Bool
  autoShape : Bool
  autoK : Bool
  lengthApplied : Bool
  zeroFilled : Bool
  /-- Accumulator blocks it holds, within the slot's allocation. -/
  blocks : List Nat
  /-- Tiles whose blocks a first contribution has written, and tiles drained. -/
  written : List (Nat × Nat)
  drained : List (Nat × Nat)
  /-- Windows of cargo operands landed in staging: (operand, position of the walk). -/
  landed : List (Nat × Nat)
  /-- Operands resolved by a late action: zero bytes (SKIP) or the fallback cargo. -/
  zeroed : List (Nat × Nat)
  fallback : Option Nat
  wait : Bool
  contribution : Option (Nat × Nat × Nat)
  issuedAt : Nat
  issuedBeat : Nat
  /-- Stationary blocks or cell passes of the present tile step that have run (R159, R181). -/
  pass : Nat
  /-- Windows of cargo operands that the loop order KMN keeps once they are fetched: operand × 2^32 + window (R172). -/
  kept : KMap Bytes
  deriving DecidableEq, Repr

/-- The cells of an array's Wheel (R149): the active and the shadow stationary registers by block row and column, the accumulators of a
cell pass and of the one before it, which flushes, and the clocks at which the last stream enters its last row and at which the last
result of it is in the accumulators. -/
structure Cells where
  active : List (List FVal)
  shadow : List (List FVal)
  accumulating : List Word
  flushing : List Word
  streams : Nat
  busy : Nat
  deriving DecidableEq, Repr

/-- Cells that hold nothing. -/
def Cells.empty : Cells := ⟨[], [], [], [], 0, 0⟩

/-- What an array holds besides its switch (R24, R151, R152, R185). Keys of `acm` are (slot × 128 + block) × 4096 + row × 128 +
column; keys of `regs` are register × 2048 + row × 128 + lane. `stale` lists blocks released without a drain, with the stamp
of their free values (R154). -/
structure ArrayState where
  tbf : Memory
  acm : KMap Word
  stale : KMap Nat
  regs : KMap Word
  owners : KMap Nat
  threads : KMap Thread
  mmos : KMap Mmo
  nextMmo : Nat
  records : KMap Bytes
  written : Nat
  gated : Bool
  /-- Cycles counted ACTIVE by the Wheel in the present beat, and the fraction of the last closed beat. -/
  wheelActive : Nat
  wheelFraction : Word
  /-- 3202: the ACTIVE fraction of the Glaze unit's pipes in the last closed beat (R209). -/
  pipeFraction : Word
  cells : Cells
  deriving DecidableEq, Repr

/-- An array after reset: memories and registers cleared (R480). -/
def ArrayState.reset : ArrayState := ⟨[], [], [], [], [], [], [], 0, [], 0, false, 0, 0, 0, Cells.empty⟩

/-- A token of a steering or merge unit (R132-R135). -/
structure Token where
  tag : Word
  choice : Nat
  deriving DecidableEq, Repr

/-- A steering or merge unit: its tokens, its data queues by input, the paired tiles that wait for their output, with the
output, and tokens with a faulty choice. -/
structure UnitState where
  slot : Nat
  tokens : List Token
  data : KMap (List Tile)
  paired : List (Nat × Tile)
  faulty : List Word
  deriving DecidableEq, Repr

/-- A repair set (R115): its commit beat and the arrays moved to their spare. -/
structure RepairSet where
  commit : Nat
  arrays : List Nat
  deriving DecidableEq, Repr

/-- The on-die fabric (R98-R118). Array keys default to: own site, state 0, never tested. Lane keys are
((array × 3 + network) × 16 + input) × 16 + lane; an item is its bytes. -/
structure Fabric where
  states : KMap Nat
  failedSites : List Nat
  /-- Arrays that have failed in the present beat of a slot, and fire until it ends: (slot, array) (R113). -/
  failing : List (Nat × Nat)
  repairs : List RepairSet
  selftest : KMap Nat
  /-- Per site, the slices passed of its pass and the first beat in which the next may run (R114). -/
  slices : KMap (Nat × Nat)
  lastPass : KMap Nat
  faultySwitches : List Nat
  lanes : KMap (List Bytes)
  /-- Items that have come to the end of their stream's path, at a local or a ring port, by slot, output and lane. -/
  delivered : KMap (List Bytes)
  /-- Slot table entries that forward nothing: (slot, set, array, network, port, index). -/
  badEntries : List (Nat × Nat × Nat × Nat × Nat × Nat)
  /-- Admission to the scalar and vector networks has stopped before a set switch, per slot (R42). -/
  stopped : List Nat
  /-- Credit words on the control network: (slot, word) (R128). -/
  words : List (Nat × Word)
  /-- Steering units 0-7 and merge units 8-15 of each array, keyed array × 16 + unit. -/
  units : KMap UnitState
  /-- Holder of an array in the present beat; arrays that pass to another slot at the end of the beat (R418). -/
  holders : KMap Nat
  nextHolders : KMap Nat
  deriving DecidableEq, Repr

/-- The Kilns (R238-R261): the group state table, and the count of the tiles that have arrived at Kilns. -/
structure Kilns where
  groups : KMap GroupState
  arrivals : Nat
  deriving DecidableEq, Repr

end Sys2Proof.Machine
end

