-- ==== Sys2Proof/Machine/StateNet.lean ====
section
/-! DEFINITION. The parts of the state that face outward: chip links, the collective engines, secured states, admission, the deadline
path, the host port, and reset, boot and security. -/

namespace Sys2Proof.Machine

/-- A flit of a link before its sequence, acknowledge, credit and check fields are filled in (R338). -/
structure Flit where
  kind : Nat
  first : Bool
  last : Bool
  channel : Nat
  dest : Nat
  set : Nat
  slot : Nat
  payload : Bytes
  /-- The link whose receive buffer it stands in, when it is in transit. -/
  via : Option Nat
  deriving DecidableEq, Repr

/-- A chip link (R333-R347). `state` is 2801.n, `port` 2F25.n. -/
structure Link where
  state : Nat
  port : Nat
  peer : Nat
  peerLink : Nat
  /-- Own lanes that have failed; the spare lane carries the link; 1 the spare lane trains, 2 it waits for a beat boundary. -/
  failed : List Nat
  spare : Bool
  spareStep : Nat
  /-- The clock up to which no flit leaves after a lane failure (R337). -/
  quietUntil : Nat
  /-- Sequence of the next new flit; flits sent and not acknowledged; the place in them from which flits are sent again. -/
  txSeq : Nat
  retry : List (Nat × Flit)
  resend : Option Nat
  /-- Sequence expected next; a discarded flit waits for its resend. -/
  rxSeq : Nat
  discarding : Bool
  /-- The sequence that the last retry request named, and how many in a row named it. -/
  askedSeq : Option Nat
  asked : Nat
  /-- Per channel: flits sent whose credit has not come back, and credits that this end owes. -/
  spent : KMap Nat
  owed : KMap Nat
  /-- Flits that wait, by channel; control frames that wait; tiles and frames received in part. -/
  queues : KMap (List Flit)
  control : List Flit
  parts : KMap Bytes
  /-- Kept out of every route: its far end is a device that was taken over. -/
  takenOver : Bool
  deriving DecidableEq, Repr

/-- A link in training with nothing sent (R480). -/
def Link.reset : Link :=
  ⟨1, 0, 0xFFFF, 0xFF, [], false, 0, 0, 0, [], none, 0, false, none, 0, [], [], [], [], [], false⟩

/-- The links of the module, its digest comparisons (R401) and the devices that takeover lists named as failed (R383). -/
structure Net where
  links : KMap Link
  diverged : List Nat
  /-- The configuration digests that digest frames carried, by beat (R347). -/
  digests : KMap Bytes
  failedDevices : List Nat
  /-- 2F06.00. -/
  management : Nat
  deriving DecidableEq, Repr

/-- A carry (R374): the step of its oldest part, its elements that have landed with their sums, the elements folded into it, and
whether it was applied or dropped in the present step. -/
structure Carry where
  step : Nat
  values : KMap Word
  folded : Nat
  landed : Nat
  spent : Bool
  deriving DecidableEq, Repr

/-- The collective side of a route slot. A piece is record × 2^24 + chunk × 16 + ring, an element record × 2^32 + its number
in the tensor (R373). Words hold the bits of the sum format. -/
structure Coll where
  staged : KMap Word
  /-- Decisions: 1 the contribution enters, 2 it is folded; partials that wait for a decision. -/
  decided : KMap Nat
  partials : KMap (List Word)
  /-- The contribution of a decided piece. -/
  own : KMap (List Word)
  reduced : KMap (List Word)
  /-- Pieces of all-gathered chunks that have arrived; those that wait to go on round the ring, and those that wait to enter the exchange
  cargo. -/
  gathered : List Nat
  passing : List (Nat × List Word)
  arriving : List (Nat × List Word)
  sums : KMap (BitVec 64)
  reported : Bool
  /-- At rank 0: sums by device, the devices heard, the largest c_meas and whether a page is held anywhere. -/
  heard : List (Nat × List (Nat × BitVec 64))
  largest : Word
  anyHeld : Bool
  late : KMap (KMap Word)
  carries : KMap Carry
  deriving DecidableEq, Repr

def Coll.none : Coll := ⟨[], [], [], [], [], [], [], [], [], false, [], 0, false, [], []⟩

/-- A page of a secure point (R388): copied, in which frame its snapshot stands and with which bytes; sent to the keeper; written to
flash, or in no need of it. It is held until both (R389). -/
structure HeldPage where
  record : Nat
  page : Nat
  copied : Bool
  frame : Nat
  contents : Memory
  sent : Bool
  flashed : Bool
  deriving DecidableEq, Repr

/-- A secured state that a source holds (R386, 2910). Source 1 local snapshot, 2 buddy current, 3 buddy previous, 4 flash newest,
5 flash older. Pages are (record, page, bytes), bytes keyed as home contents are. -/
structure Secured where
  step : Nat
  source : Nat
  complete : Bool
  beat : Nat
  pages : List (Nat × Nat × Memory)
  carries : KMap Carry
  groups : KMap GroupState
  digest : Bytes
  /-- Of a flash checkpoint, the logical page of its header: it is complete once that is programmed (R395). -/
  header : Option Nat
  deriving DecidableEq, Repr

/-- A secure point that is held or being sent. -/
structure SecurePoint where
  step : Nat
  ordinal : Nat
  checkpoint : Bool
  pages : List HeldPage
  carries : KMap Carry
  groups : KMap GroupState
  digest : Bytes
  headerSent : Bool
  buddyDone : Bool
  flashDone : Bool
  /-- Cycles beyond the planned ones since the point, and the planned cycles of one step. -/
  extra : Nat
  planned : Nat
  deriving DecidableEq, Repr

/-- A restore that waits for its start beat (R396): the state chosen, the start beat, and the step and attempt of a notice sent from here whose
mark fixes the start (R398, R399). -/
structure Restoring where
  source : Nat
  step : Nat
  start : Nat
  notice : Option (Nat × Nat)
  deriving DecidableEq, Repr

/-- The securing side of a route slot. `checking` is the first step that a restore does not replay as attempt 1; `last` is 2906.n, `next` 2908.n. -/
structure Secure where
  point : Option SecurePoint
  held : List Secured
  reserve : KMap Nat
  points : Nat
  last : Nat
  next : Nat
  announced : List Nat
  /-- Step of the secured state last restored (R398). -/
  restored : Nat
  restoring : Option Restoring
  checking : Option Nat
  /-- Steps committed since the previous restore, and flash checkpoints made. -/
  sinceRestore : Nat
  checkpoints : Nat
  deriving DecidableEq, Repr

def Secure.none : Secure := ⟨Option.none, [], [], 0, 0, 0, [], 0, Option.none, Option.none, 0, 0⟩

/-- A keep area's slot (R390, R391): its pages and its header. -/
structure KeepSlot where
  pages : KMap Bytes
  header : Bytes
  deriving DecidableEq, Repr

/-- What the module keeps for others and its cadence (R390-R394). Keys of `slots` are area × 2 + slot; `current` names the slot
of each area in force. -/
structure Keeper where
  slots : KMap KeepSlot
  current : KMap Nat
  meas : Word
  mean : Word
  tau : Nat
  deriving DecidableEq, Repr

/-- An admission request of a client (R412-R415): b + 2.00, b + 3.00, the request, the beat count of its acceptance, the slot it
loads into, and whether expert level was unlocked. -/
structure Admission where
  state : Nat
  refusal : Nat
  request : Bytes
  beat : Nat
  slot : Nat
  deriving DecidableEq, Repr

def Admission.none : Admission := ⟨0, 0, [], 0, 0⟩

/-- A request of a serving route (R428-R436). Cycles are those of the module's clock. Phase 0 waits for entry, 1 entered, 2 retired;
`primary` and `fallback` hold the answer tile staged and the cycle of the close at which it is ready, if one is. -/
structure Query where
  line : Nat
  station : Nat
  sequence : Nat
  word : Nat
  payload : Bytes
  arrival : Nat
  deadline : Nat
  egress : Nat
  port : Nat
  flow : Nat
  phase : Nat
  entry : Nat
  primary : Option (Bytes × Option Nat)
  fallback : Option (Bytes × Option Nat)
  badPrimary : Bool
  badFallback : Bool
  decided : Bool
  bank : Nat
  deriving DecidableEq, Repr

/-- The deadline path of a route slot: requests in order of arrival, the serving region of BAR2, result lines, the slots of the
ring released, the last slot a direct port took, posts since each slot's post, and the bank in force with its step. -/
structure Serve where
  requests : List Query
  region : Memory
  lines : KMap Bytes
  released : List Nat
  taken : KMap Nat
  posts : KMap Nat
  /-- 0 not stopped, 2 stopped by FLT_SAGGAR. -/
  stopped : Bool
  bank : Nat
  bankStep : Nat
  /-- Verdict cycles of the route's last closes, newest first (R435). -/
  closes : List Nat
  /-- Buffers that a substitution has emptied and that are not reloaded yet: array and descriptor (R116). -/
  reloading : List (Nat × Nat)
  /-- Bank 0 and bank 1 of each cargo that a refresh list paired (R442). -/
  banks : List (Nat × Nat)
  deriving DecidableEq, Repr

def Serve.none : Serve := ⟨[], [], [], [], [], [], false, 0, 0, [], [], []⟩

/-- The refresh in progress (R442-R444): 2B11, the list, and for each entry the pages copied with their generations, passes and
the step of the commit followed. -/
structure Refresh where
  state : Nat
  entries : List Bytes
  copied : KMap (KMap Nat)
  passes : KMap Nat
  steps : KMap Nat
  swapDue : Bool
  late : Bool
  deriving DecidableEq, Repr

/-- What the configuration space of the functions presents (R458). -/
structure PcieIdentity where
  vendor : Nat
  device : Nat
  vfDevice : Nat
  classCode : Nat
  subsystemVendor : Nat
  subsystem : Nat
  revision : Nat
  deriving DecidableEq, Repr

/-- The host port (R457-R472). Windows are keyed client × 64 + window; vectors function × 2048 + vector. -/
structure HostPort where
  link : Nat
  width : Nat
  vfs : Nat
  /-- 1410.w by client and window: the records in use, and as written (R75, R465). -/
  windows : KMap Bytes
  windowsSet : KMap Bytes
  /-- Size of BAR4 of the physical function (R460). -/
  bar4 : Nat
  refused : KMap Nat
  /-- Clients that have 1420.00 set: in use, and as written (R75). -/
  releaseInts : List Nat
  releaseSet : List Nat
  unmasked : List Nat
  pendingBits : List Nat
  bootStatus : Nat
  bootImage : Bytes
  /-- BAR0 module state (R461). -/
  module : Nat
  /-- PERST_N is held low. -/
  perst : Bool
  identity : PcieIdentity
  deriving DecidableEq, Repr

/-- A firmware slot (R487): 1210, 1212, 1213 and its image. -/
structure ImageSlot where
  state : Nat
  version : Nat
  digest : Bytes
  image : Bytes
  deriving DecidableEq, Repr

/-- Reset, boot and security (R473-R496). `resetting` is the reset being stretched: class, source, drained. -/
structure Sys where
  lastSource : Nat
  lastClass : Nat
  watchdogCore : Nat
  resets : Nat × Nat × Nat
  resetting : Option (Nat × Nat)
  drained : Bool
  straps : Nat
  bootResult : Nat
  verifyResult : Nat
  slotA : ImageSlot
  slotB : ImageSlot
  active : Nat
  fuses : Nat
  runningVersion : Nat
  runningDigest : Bytes
  writing : Bytes
  nonces : KMap Bytes
  reports : KMap Bytes
  /-- 29C1; the services that run on the new image; the cores that carry another core's service, by that core; the beat of the last move;
  the service whose core failed its self-check, while the handover is taken back (R35, R406). -/
  handover : Nat
  moved : List Nat
  carriers : KMap Nat
  movedAt : Nat
  rollback : Option Nat
  failedCores : List Nat
  /-- A closed staging set that outlived a reset waits for the first beat count (R405). -/
  lateSet : Bool
  /-- The clock at which SYSRST_N was last released (R479). -/
  released : Nat
  /-- The recovery image and the manufacturing image in the recovery SPI NOR (R19, R490); the FRU EEPROM (R511). -/
  recovery : Bytes
  manufacturing : Bytes
  fru : Bytes
  deriving DecidableEq, Repr

end Sys2Proof.Machine
end

