-- ==== Sys2Proof/Machine/State.lean ====
section
/-! DEFINITION. The state of the module: everything the spec gives it, as plain data, with the queue of waiting commands, and the
state right after reset. -/

namespace Sys2Proof.Machine

/-- Reasons a command stops with a fault. No rule of the spec gives a command no effect, so there is none. -/
inductive Fault where
  deriving DecidableEq, Repr

/-- Reasons a command is refused. -/
inductive Refusal where
  /-- Raised by the dispatch for a command without a meaning yet; safe: the model stops. No command is in this case. -/
  | notModelled (mnemonic : String)
  deriving DecidableEq, Repr

/-- The module. Sub-tables not listed here read as their values after reset. -/
structure State where
  /-- Commands waiting, first in first out: the model's own. -/
  pending : List Instr
  /-- Core-clock cycles counted by steps on an empty queue: the model's own (assumption log 1). -/
  clock : Nat
  /-- Free values drawn so far: the model's own (assumption log 4). -/
  fresh : Nat
  /-- What the module has sent, oldest first: the model's own. -/
  out : List Out
  resp : Resp
  dict : Dict
  led : Ledgers
  ctr : Counters
  beat : Beat
  fab : Fabric
  slots : KMap Slot
  arrays : KMap ArrayState
  kilns : Kilns
  mem : Mem
  engines : KMap Engine
  flash : Flash
  power : Power
  net : Net
  colls : KMap Coll
  secures : KMap Secure
  keeper : Keeper
  admissions : KMap Admission
  serves : KMap Serve
  refresh : Refresh
  host : HostPort
  sys : Sys
  deriving DecidableEq, Repr

/-- The dictionary after reset: every object at its default (R81). -/
def Dict.reset : Dict :=
  { objs := [], inUse := [], store := [], staging := ⟨0, [], 0⟩, lastCommit := 0, digest := configDigest []
    moduleDig := moduleDigest [], partials := [], challenges := [], unlocked := [], sessions := [], openings := []
    mailboxes := [] }

/-- The fabric timer after the release order: FREE with count 0 (R47). -/
def Beat.reset : Beat :=
  { count := 0, before := 0, state := 0, marks := 0, silent := 0, silentBoth := 0, sinceReset := 0, masterless := 0, term := 0, sender := none
    heard := false, alternate := false, switched := false, adopt := none, offset := 0, correction := 0, governed := 0, announced := []
    requested := 0, lastRequest := none, quiet := 0, asked := [], notices := [], upNotices := [], upRequest := none
    latency := [], probes := [], opened := 0, length := 4096, ceilingBeat := none }

/-- The fabric after reset: every array on its own site (R23, R117). -/
def Fabric.reset : Fabric :=
  { states := [], failedSites := [], failing := [], repairs := [], selftest := [], slices := [], lastPass := [], faultySwitches := []
    lanes := [], delivered := [], badEntries := [], stopped := [], words := [], units := [], holders := [], nextHolders := [] }

/-- The hold-up bank and the supply after reset: charging, nothing admissible (R323, R325). -/
def Power.reset : Power :=
  { inputVolts := 0, inputPower := 0, dieTemp := 0, bankVolts := 0, capacitance := 0, admissible := 0, holdup := 0, input := 0
    testing := false, tested := false, reached55 := false, lastTest := 0, high := false, switchOpen := false, sequence := 0
    cause := 0, beatAtLoss := 0, pagesAtLoss := 0, programmed := 0, journalLost := false, tripped := false, cableOff := []
    railsFailed := false }

/-- The flash store with nothing mapped. -/
def Flash.reset : Flash := ⟨[], [], [], 0, 0, 0, [], [], 0, 0, [], []⟩

/-- The links after reset: all in training, nothing known of their far ends (R480). -/
def Net.reset : Net := ⟨[], [], [], [], 0⟩

/-- The keeper's side and the cadence after reset; m stands at the default of 3904.00, 1,000,000 steps (R393). -/
def Keeper.reset : Keeper := ⟨[], [], 0, 0x49742400#32, 0⟩

/-- The host port after the release order: in training, no virtual function, every vector masked, firmware running
(R457, R470, R483). -/
def HostPort.reset : HostPort :=
  ⟨1, 0, 0, [], [], 2 ^ 36, [], [], [], [], [], 0, [], 1, false, ⟨0x1F3C, 0xE201, 0xE202, 0x120000, 0x1F3C, 0x0001, 0x01⟩⟩

/-- The part number, "VM-EZ1-48" (1001.00). -/
def partNumber : Bytes := [0x56, 0x4D, 0x2D, 0x45, 0x5A, 0x31, 0x2D, 0x34, 0x38]

/-- The 2 KiB of the FRU EEPROM: records of the values of 1001.00 to 1003.00 (R511). -/
def fruImage : Bytes := padTo 2048 (Config.fruRecords partNumber Config.serialNumber Config.hardwareRevision)

/-- The firmware slots, straps and reset records after a power-on: slot A booted as the active one, slot B empty
(R482, R488, R496). -/
def Sys.reset : Sys :=
  { lastSource := 0, lastClass := 3, watchdogCore := 255, resets := (0, 0, 1), resetting := none, drained := false, straps := 15
    bootResult := 0, verifyResult := 0
    slotA := ⟨1, field Config.imageA 8 4, slice Config.imageA 24 32, Config.imageA⟩
    slotB := ⟨0, 0, zeroBytes 32, []⟩, active := 0, fuses := 0
    runningVersion := field Config.imageA 8 4, runningDigest := slice Config.imageA 24 32, writing := [], nonces := []
    reports := [], handover := 0, moved := [], carriers := [], movedAt := 0, rollback := none, failedCores := [], lateSet := false
    released := 0, recovery := Config.recoveryImage, manufacturing := Config.manufacturingImage, fru := fruImage }

/-- The module right after reset: the release order has ended, no route is resident and no command waits. -/
def State.reset : State :=
  { pending := [], clock := 0, fresh := 0, out := [], resp := ⟨0, []⟩, dict := Dict.reset
    led := ⟨[], 0, [], 0, [], 0⟩, ctr := ⟨[], [], [], [], 0, false, []⟩, beat := Beat.reset, fab := Fabric.reset
    slots := [], arrays := [], kilns := ⟨[], 0⟩, mem := ⟨[], [], [], [], [], [], [], [], [], [], [], [], []⟩, engines := [], flash := Flash.reset
    power := Power.reset, net := Net.reset, colls := [], secures := [], keeper := Keeper.reset, admissions := [], serves := []
    refresh := ⟨0, [], [], [], [], false, false⟩, host := HostPort.reset, sys := Sys.reset }

end Sys2Proof.Machine
end

