-- ==== Sys2Proof/Machine/Ops.lean ====
section
/-! DEFINITION. The named operations over the state: reading and changing its parts, the settings in use, free values, and the
contents of cargoes. -/

namespace Sys2Proof.Machine

/-- The outcome of a meaning that always has its effect. -/
abbrev Outcome := Host.Outcome State Fault Refusal

/-- The commands run on states; a meaning ends in the next state. -/
def done (s : State) : Outcome := .next s

/-! Parts of the state by number. -/

def slotOf (s : State) (i : Nat) : Slot := kgetD Slot.free s.slots i
def arrayOf (s : State) (a : Nat) : ArrayState := kgetD ArrayState.reset s.arrays a
def engineOf (s : State) (a : Nat) : Engine := kgetD Engine.reset s.engines a

def setSlot (i : Nat) (x : Slot) (s : State) : State := { s with slots := kputD Slot.free s.slots i x }
def setArray (a : Nat) (x : ArrayState) (s : State) : State := { s with arrays := kputD ArrayState.reset s.arrays a x }
def setEngine (a : Nat) (x : Engine) (s : State) : State := { s with engines := kputD Engine.reset s.engines a x }

def modSlot (i : Nat) (f : Slot → Slot) (s : State) : State := setSlot i (f (slotOf s i)) s
def modArray (a : Nat) (f : ArrayState → ArrayState) (s : State) : State := setArray a (f (arrayOf s a)) s
def modEngine (a : Nat) (f : Engine → Engine) (s : State) : State := setEngine a (f (engineOf s a)) s

def modBeat (f : Beat → Beat) (s : State) : State := { s with beat := f s.beat }
def modSlotBeat (i : Nat) (f : SlotBeat → SlotBeat) : State → State := modSlot i (fun x => { x with beat := f x.beat })
def modTrain (i : Nat) (f : Training → Training) : State → State := modSlot i (fun x => { x with train := f x.train })

/-- The running state of a station of a slot. -/
def stationOf (s : State) (i n : Nat) : StationState := kgetD StationState.fresh (slotOf s i).stations n

def modStation (i n : Nat) (f : StationState → StationState) : State → State :=
  modSlot i (fun x => { x with stations := kmodD StationState.fresh x.stations n f })

/-- The running state of a stream of a slot; credits start at the destination's depth (R128). -/
def streamOf (s : State) (i n : Nat) : StreamState := kgetD StreamState.fresh (slotOf s i).streams n

def modStream (i n : Nat) (f : StreamState → StreamState) : State → State :=
  modSlot i (fun x => { x with streams := kput x.streams n (f (kgetD StreamState.fresh x.streams n)) })

/-- Accumulator blocks of a slot released without a drain: nobody owns them, and their words are free values until they are written
(R154). -/
def releaseBlocks (slot : Nat) (blocks : List Nat) (stamp : Nat) (x : ArrayState) : ArrayState :=
  let hit (k : Nat) : Bool := blocks.any (fun b => slot * 128 + b == k)
  { x with
    owners := x.owners.filter (fun e => !hit e.1)
    acm := x.acm.filter (fun e => !hit (e.1 / 4096))
    stale := blocks.foldl (fun m b => kput m (slot * 128 + b) stamp) x.stale }

/-! What the module sends, and free values. -/

def emit (o : Out) (s : State) : State := { s with out := s.out ++ [o] }

/-- One free value drawn: its number. -/
def drawn (s : State) : Nat := s.fresh
def draw (s : State) : State := { s with fresh := s.fresh + 1 }

/-! The dictionary's values. -/

/-- The row of an object, or a row without an object. -/
def rowOf (index sub : Nat) : ObjRow := (objRow index sub).getD ⟨index, sub, sub, .domain, .ro, false, false, .none, .any⟩

/-- The stored value of an object (R74). -/
def stored (s : State) (index sub : Nat) : Bytes := valueIn s.dict.objs (rowOf index sub) sub

/-- The value of an object that the hardware uses (R75). -/
def inUse (s : State) (index sub : Nat) : Bytes := valueIn s.dict.inUse (rowOf index sub) sub
def setting (s : State) (index sub : Nat) : Nat := leNat (inUse s index sub)
def flagSet (s : State) (index sub : Nat) : Bool := setting s index sub == 1

/-- The objects that a training route reads as they stood at the first beat of the attempt (R404). -/
def attemptObjects : List Nat :=
  [0x2102, 0x2103, 0x2104, 0x3101, 0x3201, 0x6200, 0x2301, 0x2302, 0x2309, 0x230A, 0x3301, 0x3302, 0x3303, 0x2403, 0x6400,
   0x6401, 0x2606, 0x2981, 0x3980]

/-- The value of an object as the route in a slot reads it (R404). -/
def routeValue (s : State) (slot index : Nat) : Bytes :=
  (kget (slotOf s slot).train.settings (objKey index 0)).getD (inUse s index 0)
def routeSetting (s : State) (slot index : Nat) : Nat := leNat (routeValue s slot index)

/-- The device number of this module (2805.00). -/
def deviceNumber (s : State) : Nat := setting s 0x2805 0

/-! Counters and ledgers. -/

/-- A counter rises by `n`; it stops at 2^64 − 1 (R448). -/
def count (index inst n : Nat) (s : State) : State :=
  { s with ctr := { s.ctr with live := kmodD 0 s.ctr.live (index * 256 + inst) (fun x => min (x + n) (2 ^ 64 - 1)) } }

/-- A counter of a station's record (R451). -/
def countStation (slot station k n : Nat) (s : State) : State :=
  { s with ctr := { s.ctr with
      station := kmodD 0 s.ctr.station ((slot * 4096 + station) * 64 + k) (fun x => min (x + n) (2 ^ 64 - 1)) } }

/-- The step number of the route in a slot, or 0 (R96, R454). -/
def stepOf (s : State) (slot : Nat) : Nat := if slot < 4 then (slotOf s slot).train.step else 0

/-! Routes. -/

/-- The route of a slot that is resident. -/
def routeOf (s : State) (i : Nat) : Option Route := if (slotOf s i).state = 2 ∨ (slotOf s i).state = 3 then (slotOf s i).route else none

/-- The route slots. -/
def slotNumbers : List Nat := [0, 1, 2, 3]

/-- The resident routes with their slots. -/
def residents (s : State) : List (Nat × Route) := slotNumbers.filterMap (fun i => (routeOf s i).map (fun r => (i, r)))

def Route.station (r : Route) (n : Nat) : Option StationRec := r.stations.find? (fun x => x.info.number == n)
def Route.stream (r : Route) (n : Nat) : Option StreamRow := r.streams.find? (fun x => x.number == n)

/-- Output stream `j` of a station (R119). -/
def Route.output (r : Route) (station j : Nat) : Option StreamRow :=
  r.streams.find? (fun x => x.source == station && x.output == j && x.fromPeer.isNone)

/-- A training route has a step (R52). -/
def Route.training (r : Route) : Bool := r.plan.stepLength != 0

/-- A station that an array plays, or the proxy array of a Kiln, Spill or PCIe station (R119). -/
def Station.array (x : Station) : Nat := if x.place < 256 then x.place else x.proxy

/-- The stations of a route on an array. -/
def Route.stationsOn (r : Route) (a : Nat) : List StationRec := r.stations.filter (fun x => x.info.place == a)

/-- The allocation of a route on an array (R516). -/
def Route.allocOn (r : Route) (a : Nat) : AllocEntry := r.alloc.getD a ⟨0, 0, 0, false⟩

/-! Queues, joins and credits. -/

def StationRec.queue (st : StationRec) (q : Nat) : Option QueueRec := st.queues.find? (fun x => x.queue == q)

/-- The join buffer that a stream of this module feeds. -/
def Route.joinOf (r : Route) (o : StreamRow) : Option QueueRec :=
  if o.peer.isSome || r.units.any (fun u => u.inputs.contains o.number) then none
  else (r.station o.dest).bind (fun st => (st.queue o.queue).bind (fun q => if q.kind = 1 then some q else none))

/-- Credits of a stream while its queue is empty (R128, R131, R133); a join buffer's also cover what its spill index lists (R138). -/
def Route.depthOf (r : Route) (o : StreamRow) : Nat :=
  if o.peer.isSome then 1 + Config.peerDepth o.number % 64
  else if r.units.any (fun u => u.inputs.contains o.number) then 8
  else match (r.station o.dest).bind (fun st => st.queue o.queue) with
    | some q => if q.kind = 1 then q.depth - 1 + (if q.spill = 0 then 0 else 4096) else q.depth
    | none => 32

/-- Credit comes back to a stream, up to the depth of its queue; tiles that wait for it take it. -/
def addCredit (slot stream n : Nat) (s : State) : State :=
  match routeOf s slot with
  | none => s
  | some r => match r.stream stream with
    | none => s
    | some o => modStream slot stream (fun x =>
        let c := min (x.credits + n) (r.depthOf o)
        let go := if x.stopped then 0 else min c x.waiting.length
        { x with credits := c - go, staging := x.staging ++ (x.waiting.take go).map (fun t => ⟨t, 0, 0⟩), waiting := x.waiting.drop go }) s

/-- An entry leaves the flight table; credit that it has reserved and not used is free again (R128, R129). -/
def leaveFlight (slot n op : Nat) (t : Word) (s : State) : State :=
  let mine (f : Flight) : Bool := f.op == op && f.tag == t
  ((stationOf s slot n).flight.filter mine).foldl (fun s f => f.reserved.foldl (fun s e => addCredit slot e.1 e.2 s) s)
    (modStation slot n (fun x => { x with flight := x.flight.filter (fun f => !mine f) }) s)

/-! Tags (R125). -/

def tagPass (t : Word) : Nat := bits t.toNat 31 28
def tagMicro (t : Word) : Nat := bits t.toNat 27 16
def tagIndex (t : Word) : Nat := bits t.toNat 15 0

/-- The due beats of a tag at a station: the due entries it matches (R55). -/
def dueBeats (r : Route) (station : Nat) (t : Word) : List Nat :=
  (r.plan.due.filter (fun d => d.station == station && ((t ^^^ d.value) &&& d.mask == 0))).map (·.beat)

/-! Tile headers (R121). -/

def hdrTag (h : Bytes) : Word := BitVec.ofNat 32 (field h 0 4)
def hdrStream (h : Bytes) : Nat := field h 4 2 % 4096
def hdrFormat (h : Bytes) : Nat := field h 6 1
def hdrAttempt (h : Bytes) : Nat := field h 7 1 / 16
def hdrRows (h : Bytes) : Nat := field h 8 2
def hdrCols (h : Bytes) : Nat := field h 10 2
def hdrValidRows (h : Bytes) : Nat := field h 12 2
def hdrValidCols (h : Bytes) : Nat := field h 14 2
def hdrLength (h : Bytes) : Nat := field h 16 4
def hdrStep (h : Bytes) : Nat := field h 20 2
def hdrUses (h : Bytes) : Nat := if field h 24 1 = 0 then 1 else field h 24 1
def hdrOk (h : Bytes) : Bool := h.length == 32 && field h 30 2 == (crc16 (h.take 30)).toNat

/-- What a producer puts into a header besides tag and payload length. -/
structure TileShape where
  format : Nat
  last : Bool
  rows : Nat
  cols : Nat
  validRows : Nat
  validCols : Nat
  uses : Nat

/-- A tile header with its check (R121). -/
def mkHeader (tag : Word) (stream attempt step station length : Nat) (f : TileShape) : Bytes :=
  let b := le 4 tag.toNat ++ le 2 (stream % 4096) ++ le 1 f.format ++ le 1 (attempt % 16 * 16 + (if f.last then 1 else 0)) ++
    le 2 f.rows ++ le 2 f.cols ++ le 2 f.validRows ++ le 2 f.validCols ++ le 4 length ++ le 2 step ++ le 2 station ++
    le 1 f.uses ++ zeroBytes 5
  b ++ le 2 (crc16 b).toNat

/-! Arrays and clusters (R20-R23). -/

def clusterOf (a : Nat) : Nat := a / 64 * 4 + a % 16 / 4

/-- The arrays of a cluster in ascending order (R21, R272). -/
def clusterArrays (c : Nat) : List Nat := (List.range 256).filter (fun a => clusterOf a == c)

/-- The array that holds ring port `p` = 16 × side + position (R110). -/
def ringPortArray (p : Nat) : Nat :=
  let i := p % 16
  match p / 16 with
  | 0 => i
  | 1 => 16 * i + 15
  | 2 => 240 + i
  | _ => 16 * i

/-- Array n is FAILED (R113), on its own site or on the spare. -/
def arrayFailed (s : State) (a : Nat) : Bool := 2 ≤ kgetD 0 s.fab.states a

/-- Array n stands on its cluster's spare. -/
def onSpare (s : State) (a : Nat) : Bool := kgetD 0 s.fab.states a % 2 == 1

/-- The physical site that holds array n (R23). -/
def siteOf (s : State) (a : Nat) : Nat := if onSpare s a then 256 + clusterOf a else a

/-- The array is held by the route slot in this beat (R127, R418); an array no slot was given to is free to its one route. -/
def holds (s : State) (a slot : Nat) : Bool := match kget s.fab.holders a with | some h => h == slot | none => true

/-- An array whose units work for a slot now: it is held, not gated, and works; one that has failed in this beat goes on until it ends (R65,
R113, R127). -/
def arrayWorks (s : State) (a slot : Nat) : Bool :=
  holds s a slot && !(arrayOf s a).gated && (!arrayFailed s a || s.fab.failing.contains (slot, a))

/-- The array passes to another slot at the end of the beat (R159, R312). -/
def passes (s : State) (a slot : Nat) : Bool := match kget s.fab.nextHolders a with | some h => h != slot | none => false

/-! Cargoes (R271-R275). -/

/-- Bytes of one page. -/
def pageBytes : Nat := 65536

/-- The span of a cargo record in content addresses. -/
def cargoSpan : Nat := 2 ^ 44

/-- The record that a handle names, if the handle is good (R271). -/
def cargoOf (s : State) (handle : Nat) : Option (Nat × Cargo) :=
  let i := handle % 65536
  let c := kgetD Cargo.free s.mem.cargoes i
  if c.state ≠ 0 ∧ c.client = bits handle 21 16 ∧ c.reuse = bits handle 31 24 ∧ bits handle 23 22 = 0 then some (i, c) else none

/-- The handle of a record. -/
def handleOf (i : Nat) (c : Cargo) : Nat := c.reuse * 2 ^ 24 + c.client * 2 ^ 16 + i

/-- Fields of the attribute block (R272). -/
def Cargo.pageCount (c : Cargo) : Nat := field c.attr 16 4
def Cargo.tier (c : Cargo) : Nat := field c.attr 20 1
def Cargo.exact (c : Cargo) : Bool := bit (field c.attr 21 1) 0
def Cargo.farCached (c : Cargo) : Bool := bit (field c.attr 21 1) 1
def Cargo.saggar (c : Cargo) : Bool := bit (field c.attr 21 1) 2
def Cargo.lateAction (c : Cargo) : Nat := field c.attr 22 1
def Cargo.format (c : Cargo) : Nat := field c.attr 23 1
def Cargo.margin (c : Cargo) : Nat := field c.attr 24 2
def Cargo.refresh (c : Cargo) : Nat := field c.attr 26 2
def Cargo.units (c : Cargo) : List Nat := (List.range 32).filter (fun i => bit (field c.attr 28 4) i)
def Cargo.cluster (c : Cargo) : Nat := field c.attr 32 1
def Cargo.cacheStacks (c : Cargo) : List Nat := (List.range 16).filter (fun i => bit (field c.attr 34 2) i)
def Cargo.fallback (c : Cargo) : Nat := field c.attr 36 4
def Cargo.busAddress (c : Cargo) : Nat := field c.attr 40 8

def modCargo (i : Nat) (f : Cargo → Cargo) (s : State) : State :=
  { s with mem := { s.mem with cargoes := kmodD Cargo.free s.mem.cargoes i f } }

/-- The cached frame of a cargo's page. -/
def frameOf (s : State) (i page : Nat) : Option CacheFrame := s.mem.cache.find? (fun f => f.cargo == i && f.page == page)

/-- `n` bytes of a cargo as a reader finds them now: a cached frame holds the page of a far-cached cargo, home otherwise
(R280). -/
def cargoBytes (s : State) (i offset n : Nat) : Bytes :=
  (List.range n).map (fun k =>
    let a := offset + k
    loadByte (if (frameOf s i (a / pageBytes)).isSome then s.mem.cached else s.mem.home) (i * cargoSpan + a))

/-- The parts of the state by number, of the chapters on the fabric beyond the die. -/
def linkOf (s : State) (l : Nat) : Link := kgetD Link.reset s.net.links l
def collOf (s : State) (i : Nat) : Coll := kgetD Coll.none s.colls i
def secureOf (s : State) (i : Nat) : Secure := kgetD Secure.none s.secures i
def serveOf (s : State) (i : Nat) : Serve := kgetD Serve.none s.serves i
def admissionOf (s : State) (c : Nat) : Admission := kgetD Admission.none s.admissions c

def modNet (f : Net → Net) (s : State) : State := { s with net := f s.net }
def modLink (l : Nat) (f : Link → Link) : State → State := modNet (fun n => { n with links := kmodD Link.reset n.links l f })
def modColl (i : Nat) (f : Coll → Coll) (s : State) : State := { s with colls := kmodD Coll.none s.colls i f }
def modSecure (i : Nat) (f : Secure → Secure) (s : State) : State := { s with secures := kmodD Secure.none s.secures i f }
def modServe (i : Nat) (f : Serve → Serve) (s : State) : State := { s with serves := kmodD Serve.none s.serves i f }
def modAdmission (c : Nat) (f : Admission → Admission) (s : State) : State :=
  { s with admissions := kmodD Admission.none s.admissions c f }
def modHost (f : HostPort → HostPort) (s : State) : State := { s with host := f s.host }
def modSys (f : Sys → Sys) (s : State) : State := { s with sys := f s.sys }
def modDict (f : Dict → Dict) (s : State) : State := { s with dict := f s.dict }
def modFab (f : Fabric → Fabric) (s : State) : State := { s with fab := f s.fab }
def modKeeper (f : Keeper → Keeper) (s : State) : State := { s with keeper := f s.keeper }

/-- The key of a page in tables over all cargoes. -/
def pageNumber (i page : Nat) : Nat := i * 2 ^ 28 + page

/-- The frame of a page's table entry. -/
def pointPage (i page frame : Nat) : State → State :=
  modCargo i (fun c => match c.pages[page]? with
    | some e => { c with pages := setNth c.pages page { e with frame := frame } }
    | none => c)

/-- A held page of a slot's secure point is copied: the reserve frame takes its place in the page table, and its former frame
becomes the snapshot frame (R388). -/
def copyHeld (slot i page : Nat) (s : State) : State :=
  let x := secureOf s slot
  match x.point, kget x.reserve (pageNumber i page), ((kgetD Cargo.free s.mem.cargoes i).pages)[page]? with
  | some p, some f, some e =>
    if p.pages.any (fun h => h.record == i && h.page == page && !h.copied) then
      pointPage i page f (modSecure slot (fun x => { x with
        reserve := kdel x.reserve (pageNumber i page)
        point := some { p with pages := p.pages.map (fun h =>
          if h.record = i ∧ h.page = page then { h with copied := true, frame := e.frame } else h) } }) s)
    else s
  | _, _, _ => s

/-- The first write to a held page that has not been copied copies it (R388). -/
def copyOnWrite (i page : Nat) (s : State) : State := slotNumbers.foldl (fun s k => copyHeld k i page s) s

/-- Bytes written into a cargo: into the cached frames of pages that are cached, which become dirty (R281), home otherwise. -/
def writeCargo (i offset : Nat) (data : Bytes) (s : State) : State :=
  let s := (List.range (ceilDiv (offset % pageBytes + data.length) pageBytes)).foldl (fun s k => copyOnWrite i (offset / pageBytes + k) s) s
  data.zipIdx.foldl (fun s e =>
    let a := offset + e.2
    if (frameOf s i (a / pageBytes)).isSome then
      { s with mem := { s.mem with
          cached := storeByte s.mem.cached (i * cargoSpan + a) e.1
          cache := s.mem.cache.map (fun f => if f.cargo == i && f.page == a / pageBytes then { f with dirty := true } else f) } }
    else { s with mem := { s.mem with home := storeByte s.mem.home (i * cargoSpan + a) e.1 } }) s

/-- The write generation of a page (R305). -/
def generationOf (s : State) (i page : Nat) : Nat :=
  (((kgetD Cargo.free s.mem.cargoes i).pages)[page]?).elim 0 (·.generation)

/-- A page's write generation rises by 1. -/
def raiseGeneration (i page : Nat) : State → State :=
  modCargo i (fun c => match c.pages[page]? with
    | some e => { c with pages := setNth c.pages page { e with generation := (e.generation + 1) % 2 ^ 64 } }
    | none => c)

/-! Power and reset. -/

/-- The parts beside the supervisor, the flash store and T2 are powered and out of reset: no warm or cold reset is being stretched, no
hold-up sequence runs and no thermal trip holds (R327, R478, R507). -/
def powered (s : State) : Bool :=
  s.sys.resetting.all (fun e => decide (e.1 ≤ 1)) && s.power.sequence == 0 && !s.power.tripped

/-- The module is powered and its firmware runs. A fabric reset leaves the steward cores running and the beat count counting on
(R477, R480). -/
def firmwareRuns (s : State) : Bool := powered s && s.host.module != 0

/-- Routes and arrays work too: no reset of any class is being stretched. -/
def alive (s : State) : Bool := s.sys.resetting.isNone && firmwareRuns s

end Sys2Proof.Machine
end

