-- ==== Sys2Proof/Machine/Network.lean ====
section
/-! DEFINITION. The on-die networks as streams use them (R98-R105, R110, R121): outputs and lanes, the path of a stream, the items that
leave its staging buffer, what has arrived at its end, and the slot index of a cycle. Outputs are numbered N E S W L, and N0 N1 E0 E1
S0 S1 W0 W1 L0 L1 on the vector network; inputs as R101 codes them. -/

namespace Sys2Proof.Machine

/-! Outputs, inputs and lanes. -/

def isVector (net : Nat) : Bool := net == 1

/-- The channels of a network: inputs and outputs of a side. -/
def channels (net : Nat) : Nat := if isVector net then 2 else 1

def laneKey (array net input lane : Nat) : Nat := ((array * 3 + net) * 16 + input) * 16 + lane
def laneItems (s : State) (k : Nat) : List Bytes := kgetD [] s.fab.lanes k

/-- What an output that ends a path of a route has delivered: the route's slot, the array, the network, the output and the lane. -/
def portKey (slot array net port lane : Nat) : Nat := (((slot * 256 + array) * 3 + net) * 16 + port) * 16 + lane
def deliveredItems (s : State) (k : Nat) : List Bytes := kgetD [] s.fab.delivered k

/-- The outputs and input codes of a side: 0 N, 1 E, 2 S, 3 W, 4 the array itself. -/
def sideOutputs (net side : Nat) : List Nat := (List.range (channels net)).map (fun c => side * channels net + c)
def sideInputs (net side : Nat) : List Nat := (sideOutputs net side).map (· + 1)

/-- The output is a local port. -/
def localOutput (net port : Nat) : Bool := (sideOutputs net 4).contains port
def localInput (net input : Nat) : Bool := (sideInputs net 4).contains input

/-- Direction 0 N, 1 E, 2 S, 3 W of an output. -/
def direction (net port : Nat) : Nat := port / channels net

/-- The neighbour of an array in a direction; none across the edge of the die, where the ring port is (R20, R28). -/
def neighbour (a d : Nat) : Option Nat :=
  match d with
  | 0 => if a / 16 = 0 then none else some (a - 16)
  | 1 => if a % 16 = 15 then none else some (a + 1)
  | 2 => if a / 16 = 15 then none else some (a + 16)
  | _ => if a % 16 = 0 then none else some (a - 1)

/-- The input code at which an item sent in a direction arrives: the opposite side, on the same channel. -/
def arrivalInput (net port : Nat) : Nat := (direction net port + 2) % 4 * channels net + port % channels net + 1

/-- Outputs of a network. -/
def portsOf (net : Nat) : List Nat := List.range (5 * channels net)

/-- Where an output leads: the lane buffer at the neighbour, or the end of the path at a local or ring port. -/
inductive Target where
  | buffer (key : Nat)
  | port (key : Nat)

def targetOf (slot array net port lane : Nat) : Target :=
  match (if localOutput net port then none else neighbour array (direction net port)) with
  | some b => .buffer (laneKey b net (arrivalInput net port) lane)
  | none => .port (portKey slot array net port lane)

/-- A lane buffer holds 4 items (R98); a local or ring port passes on what it is given. -/
def hasRoom (s : State) : Target → Bool
  | .buffer k => (laneItems s k).length < 4
  | .port _ => true

def place (item : Bytes) (t : Target) : State → State :=
  match t with
  | .buffer k => modFab (fun f => { f with lanes := kmodD [] f.lanes k (· ++ [item]) })
  | .port k => modFab (fun f => { f with delivered := kmodD [] f.delivered k (· ++ [item]) })

/-! Slot tables. -/

/-- The route set in force in a slot. -/
def setOf' (s : State) (slot : Nat) : Nat := (slotOf s slot).beat.set

/-- A slot table entry that is not idle, with its place: (set, array, network, output, slot index, lane, input). -/
structure SlotUse where
  set : Nat
  array : Nat
  net : Nat
  port : Nat
  index : Nat
  lane : Nat
  input : Nat

def tabUses (t : SlotTab) : List SlotUse :=
  (t.entries.zipIdx.filter (fun e => e.1.toNat % 16 != 0)).map (fun e => ⟨t.set, t.array, t.net, t.port, e.2, e.1.toNat / 16, e.1.toNat % 16⟩)

def slotUses (r : Route) : List SlotUse := r.slotTables.flatMap tabUses

/-- The slot table of an output in the set in force of a slot. -/
def slotTable (s : State) (slot : Nat) (r : Route) (array net port : Nat) : Option SlotTab :=
  r.slotTables.find? (fun t => t.array == array && t.set == setOf' s slot && t.net == net && t.port == port)

/-- The entry that an output reads at a slot index for a route; 0 is idle, and an entry lost to an ECC error forwards nothing
(R103, R107). -/
def entryAt (s : State) (slot : Nat) (r : Route) (array net port index : Nat) : Nat :=
  if s.fab.badEntries.contains (slot, setOf' s slot, array, net, port, index) then 0
  else (slotTable s slot r array net port).elim 0 (fun t => (t.entries.getD index 0).toNat)

/-- The cycle of the slot's beat, and the first cycle of its close window; increments follow it in whole passes (R59). -/
def beatCycle (s : State) (slot : Nat) : Nat := s.clock - (slotOf s slot).beat.opened
def closeStart (b : SlotBeat) : Nat := b.length - 64 * b.increments - 64

/-- The slot index of the present cycle, counted on the beat of the route in the slot (R102). -/
def slotIndex (s : State) (slot : Nat) : Nat :=
  let c := beatCycle s slot
  let w := closeStart (slotOf s slot).beat
  if c < w then c % 64 else (c - w) % 64

/-- In cycles P − 40 to P − 9, and 24 to 55 of an increment, the control slot tables are not read (R105). -/
def controlClosed (s : State) (slot : Nat) : Bool :=
  decide (closeStart (slotOf s slot).beat ≤ beatCycle s slot) && decide (24 ≤ slotIndex s slot) && decide (slotIndex s slot ≤ 55)

/-! Streams on the networks. -/

/-- The array of a station, or the proxy array of one that stands on none. -/
def Route.arrayOf (r : Route) (n : Nat) : Nat := ((r.station n).map (fun st => Station.array st.info)).getD 0

/-- The Port record of a station (R425): path, answers, format and shape. -/
def portRecord (r : Route) (station : Nat) : Option Bytes := r.plan.ports.find? (fun p => field p 0 2 == station)

/-- The side on whose ring port a station off the mesh meets it: a stack Kiln's, or that of the PCIe serving path (R110, R120). The
other stations meet it at the local port of their array. -/
def Route.sideOf (r : Route) (n : Nat) : Nat :=
  match (r.station n).map (fun st => st.info.place) with
  | some p =>
    if 0x100 ≤ p ∧ p < 0x110 then (p - 0x100) / 4
    else if p = 0x400 then (portRecord r n).elim 3 (fun b => field b 19 1 / 16)
    else 4
  | none => 4

/-- The stream is an output of an operation of a kind: scalar emits (8) send words on the scalar network alone, token emits (9) on the
control network (R131, R132). -/
def Route.emitted (r : Route) (o : StreamRow) (kind : Nat) : Bool :=
  o.fromPeer.isNone && (r.station o.source).any (fun st => st.ops.any (fun x => x.kind == kind && bit x.outputs o.output))

/-- The stream has items on a network (R98, R121). -/
def Route.carries (r : Route) (o : StreamRow) (net : Nat) : Bool :=
  if r.emitted o 9 then net == 2 else if r.emitted o 8 then net == 0 else net != 2

/-- Where a stream enters the mesh: the array and the side; one that comes from another module enters at the ring port of its link, at
the array of its Link station (R140, R344). -/
def Route.startOf (r : Route) (o : StreamRow) : Nat × Nat :=
  if o.fromPeer.isSome then (r.arrayOf o.dest, o.links.headD 0 / 16) else (r.arrayOf o.source, r.sideOf o.source)

/-- Where a stream leaves the mesh: at its destination, or at the ring port of the link it leaves by. -/
def Route.endOf (r : Route) (o : StreamRow) : Nat × Nat :=
  if o.peer.isSome then (r.arrayOf o.source, o.links.headD 0 / 16) else (r.arrayOf o.dest, r.sideOf o.dest)

/-- Inputs to which a lane at an input of a switch is forwarded, in one set. -/
def nextInputs (us : List SlotUse) (set net lane array input : Nat) : List (Nat × Nat) :=
  (portsOf net).filterMap (fun p =>
    if localOutput net p then none
    else if us.any (fun u => u.set == set && u.net == net && u.array == array && u.port == p && u.lane == lane && u.input == input) then
      (neighbour array (direction net p)).map (fun b => (b, arrivalInput net p))
    else none)

/-- The inputs that a lane's tree visits from an input on; none where a path comes to an array again (R106). -/
def laneTree (us : List SlotUse) (set net lane : Nat) : Nat → List Nat → Nat × Nat → Option (List (Nat × Nat))
  | 0, _, _ => none
  | fuel + 1, seen, (a, i) =>
    if seen.contains a then none
    else (nextInputs us set net lane a i).foldl (fun (acc : Option (List (Nat × Nat))) n =>
      match acc, laneTree us set net lane fuel (a :: seen) n with
      | some xs, some ys => some (xs ++ ys)
      | _, _ => none) (some [(a, i)])

/-- The input codes at which a stream's lane enters a network in a set: those of its side that an output names. -/
def entryInputs (r : Route) (us : List SlotUse) (o : StreamRow) (set net : Nat) : List Nat :=
  (sideInputs net (r.startOf o).2).filter (fun i => us.any (fun u =>
    u.set == set && u.net == net && u.array == (r.startOf o).1 && u.lane == o.lane && u.input == i))

/-- What a stream's lane visits in a set on a network, from where it enters it. -/
def streamTree (r : Route) (us : List SlotUse) (o : StreamRow) (set net : Nat) : Option (List (Nat × Nat)) :=
  if r.carries o net = false then some []
  else (entryInputs r us o set net).foldl (fun (acc : Option (List (Nat × Nat))) i =>
    match acc, laneTree us set net o.lane 257 [] ((r.startOf o).1, i) with
    | some xs, some ys => some (xs ++ ys)
    | _, _ => none) (some [])

/-- The streams of a route whose path in a set holds a lane at an input (R99). -/
def laneOwners (r : Route) (set array net input lane : Nat) : List StreamRow :=
  r.streams.filter (fun o => o.lane == lane && ((streamTree r (slotUses r) o set net).getD []).contains (array, input))

/-- The stream uses both vector channels where it enters the mesh (R98). -/
def bothChannels (s : State) (slot : Nat) (r : Route) (o : StreamRow) : Bool :=
  (entryInputs r (slotUses r) o (setOf' s slot) 1).length == 2

/-- The next item of a tile for a network: header words of 8 B on the scalar network, payload flits of 256 B on the vector network, the
last one filled with zeros, and words of 4 B on the control network (R98, R121). The header goes ahead of the payload. -/
def tileItem (net : Nat) (x : Staged) : Option Bytes :=
  match net with
  | 1 => if 8 * x.words < x.tile.header.length ∨ x.tile.payload.length ≤ 256 * x.flits then none
         else some (padTo 256 (slice x.tile.payload (256 * x.flits) 256))
  | _ => let n := if net = 2 then 4 else 8
         if x.tile.header.length ≤ n * x.words then none else some (slice x.tile.header (n * x.words) n)

/-- A tile all of whose words and flits have left. -/
def tileGone (net : Nat) (x : Staged) : Bool :=
  (x.tile.header.length ≤ (if net = 2 then 4 else 8) * x.words) && decide (x.tile.payload.length ≤ 256 * x.flits)

/-- A tile of which something has left. -/
def tileBegun (x : Staged) : Bool := x.words != 0 || x.flits != 0

/-- The item that a stream has at an input where it enters the mesh. Before a set switch no new tile is admitted to the scalar and vector
networks, while one that has begun goes on (R42); a stopped stream sends nothing (R123). -/
def streamItem (s : State) (slot : Nat) (r : Route) (net input : Nat) (o : StreamRow) : Option Bytes :=
  match (streamOf s slot o.number).staging.head? with
  | none => none
  | some x =>
    if (streamOf s slot o.number).stopped ∨ (net ≠ 2 ∧ s.fab.stopped.contains slot = true ∧ tileBegun x = false) ∨
        (net = 1 ∧ bothChannels s slot r o = true ∧ (input + 1) % 2 ≠ x.flits % 2) then none
    else tileItem net x

/-- The item at an input lane, with the stream it is drawn from where one enters the mesh there. -/
def inputItem (s : State) (slot : Nat) (r : Route) (array net input lane : Nat) : Option (Option Nat × Bytes) :=
  match r.streams.find? (fun o => o.lane == lane && r.carries o net && (r.startOf o).1 == array && (sideInputs net (r.startOf o).2).contains input) with
  | some o => (streamItem s slot r net input o).map (fun b => (some o.number, b))
  | none => ((laneItems s (laneKey array net input lane)).head?).map (fun b => (none, b))

/-- The item leaves its input. -/
def takeInput (slot array net input lane : Nat) (stream : Option Nat) (s : State) : State :=
  match stream with
  | none => modFab (fun f => { f with lanes := kmodD [] f.lanes (laneKey array net input lane) (·.drop 1) }) s
  | some n => modStream slot n (fun x => { x with staging := match x.staging with
      | [] => []
      | y :: rest =>
        let y' : Staged := if net = 1 then { y with flits := y.flits + 1 } else { y with words := y.words + 1 }
        if tileGone net y' then rest else y' :: rest }) s

/-! The end of a path. -/

/-- The stream of a route that ends at an output of an array on a lane: `port` numbers the outputs of the scalar network. -/
def ownerAt (r : Route) (array port lane : Nat) : Option StreamRow :=
  r.streams.find? (fun o => o.lane == lane && r.endOf o == (array, port) && !r.emitted o 9)

/-- What has arrived of a stream on an output of its side. -/
def arrivedAt (s : State) (slot : Nat) (r : Route) (o : StreamRow) (net channel : Nat) : List Bytes :=
  let e := r.endOf o
  deliveredItems s (portKey slot e.1 net (e.2 * channels net + channel) o.lane)

/-- Flits of the two channels in the order in which they left: flit 2k on channel 0, flit 2k + 1 on channel 1 where the stream uses both
(R98). -/
def restoreOrder (both : Bool) (n : Nat) (c0 c1 : List Bytes) : List Bytes :=
  if both then (List.range n).filterMap (fun k => (if k % 2 = 0 then c0 else c1)[k / 2]?) else (c0 ++ c1).take n

/-- Items dropped from what has arrived on an output. -/
def dropArrived (slot : Nat) (r : Route) (o : StreamRow) (net channel n : Nat) : State → State :=
  let e := r.endOf o
  modFab (fun f => { f with delivered := kmodD [] f.delivered (portKey slot e.1 net (e.2 * channels net + channel) o.lane) (·.drop n) })

/-- The header whose turn it is on the stream's scalar lane and the payload whose turn it is on its vector lane, where both are whole
(R121). -/
def arrivedTile (s : State) (slot : Nat) (r : Route) (o : StreamRow) : Option Tile :=
  let words := (arrivedAt s slot r o 0 0).take 4
  let header := words.flatMap id
  let n := ceilDiv (hdrLength header) 256
  let flits := restoreOrder (bothChannels s slot r o) n (arrivedAt s slot r o 1 0) (arrivedAt s slot r o 1 1)
  if words.length = 4 ∧ flits.length = n then some ⟨header, (flits.flatMap id).take (hdrLength header)⟩ else none

/-- A tile leaves the end of its stream's path. -/
def takeTile (slot : Nat) (r : Route) (o : StreamRow) (t : Tile) (s : State) : State :=
  let n := ceilDiv t.payload.length 256
  let both := bothChannels s slot r o
  dropArrived slot r o 1 1 (if both then n / 2 else n) (dropArrived slot r o 1 0 (if both then ceilDiv n 2 else n) (dropArrived slot r o 0 0 4 s))

/-- Everything of a stream on its path in the set in force is discarded (R123). -/
def purgePath (slot : Nat) (r : Route) (o : StreamRow) (s : State) : State :=
  let set := setOf' s slot
  let keys := [0, 1, 2].flatMap (fun net => ((streamTree r (slotUses r) o set net).getD []).map (fun e => laneKey e.1 net e.2 o.lane))
  let ends := [0, 1, 2].flatMap (fun net => (sideOutputs net (r.endOf o).2).map (fun p => portKey slot (r.endOf o).1 net p o.lane))
  modFab (fun f => { f with lanes := keys.foldl kdel f.lanes, delivered := ends.foldl kdel f.delivered }) s

/-- Cut into pieces of 240 bytes for a link (R338). -/
def cutFlits (c dest slot set : Nat) (bytes : Bytes) : List Flit :=
  let n := max 1 (ceilDiv bytes.length 240)
  (List.range n).map (fun i => ⟨1, i == 0, i + 1 == n, c, dest, set, slot, slice bytes (240 * i) 240, none⟩)

/-- Flits wait in a channel queue of a link. -/
def queueFlits (l c : Nat) (fs : List Flit) : State → State :=
  modLink l (fun x => { x with queues := kmodD [] x.queues c (· ++ fs) })

/-- A tile that is whole at the ring port of its link leaves the mesh for its peer, cut into the flits of its link channel (R140, R338). -/
def leaveRing (slot array side lane : Nat) (r : Route) (s : State) : State :=
  match (ownerAt r array side lane).bind (fun o => if o.peer.isSome then some o else none) with
  | none => s
  | some o =>
    match arrivedTile s slot r o with
    | none => s
    | some t => queueFlits (o.links.headD 0) (o.channel.getD 0)
        (cutFlits (o.channel.getD 0) (o.peer.getD 0) slot (setOf' s slot) (t.header ++ t.payload)) (takeTile slot r o t s)

end Sys2Proof.Machine
end

