-- ==== Sys2Proof/Machine/Flags.lean ====
section
/-! DEFINITION. Events and ledger records (R96, R452, R454, R455), and the interrupt causes that they raise (R469). -/

namespace Sys2Proof.Machine

/-- Codes of events: group × 100h + position in the group's list (R455). -/
def fltOverrun : Nat := 0x0100
def fltUnpaired : Nat := 0x0101
def fltSetDrain : Nat := 0x0102
def fltSaggar : Nat := 0x0103
def fltLag : Nat := 0x0104
def evtBeatUpstream : Nat := 0x0200
def evtBeatMaster : Nat := 0x0201
def evtGovernorCeiling : Nat := 0x0202
def evtBeatStaleMark : Nat := 0x0203
def evtBeatCountJump : Nat := 0x0204
def evtArrayFault : Nat := 0x0400
def evtSpareLost : Nat := 0x0401
def evtSpareIn : Nat := 0x0402
def evtSwitchFault : Nat := 0x0403
def evtMmoReject : Nat := 0x0700
def evtMmoReorder : Nat := 0x0701
def evtGlazeFault : Nat := 0x0702
def evtGaExcess : Nat := 0x0900
def evtSentinelLoss : Nat := 0x0901
def evtSentinelNorm : Nat := 0x0902
def evtReplayLate : Nat := 0x0903
def evtReplayLimit : Nat := 0x0904
def evtReloadFail : Nat := 0x0905
def evtSaggarUncorr : Nat := 0x0B00
def evtCargoLate : Nat := 0x0B01
def evtCargoFail : Nat := 0x0B02
def evtPrefetchChurn : Nat := 0x0B03
def evtExtent : Nat := 0x0B04
def evtInputLow : Nat := 0x0D00
def evtPowerLoss : Nat := 0x0D01
def evtHoldupWeak : Nat := 0x0D02
def evtHoldupFail : Nat := 0x0D03
def evtStoreRefused : Nat := 0x0D04
def evtBlockRetired : Nat := 0x0D05
def evtFlashReserveLow : Nat := 0x0D06
def evtFlashReadOnly : Nat := 0x0D07
def evtLaneFail : Nat := 0x0E00
def evtLinkDown : Nat := 0x0E01
def evtDevnumClash : Nat := 0x0E02
def evtCfgDiverge : Nat := 0x0E03
def evtTakeover : Nat := 0x0F00
def evtTakeoverFail : Nat := 0x0F01
def evtTakenOverPeer : Nat := 0x0F02
def evtSecured : Nat := 0x1000
def evtCkptRefused : Nat := 0x1001
def evtRestoreOk : Nat := 0x1002
def evtRestoreLate : Nat := 0x1003
def evtRestoreFail : Nat := 0x1004
def evtReplayMismatch : Nat := 0x1005
def evtEpochCommit : Nat := 0x1006
def evtEpochLate : Nat := 0x1007
def evtHandoverFail : Nat := 0x1008
def evtAdmitRefused : Nat := 0x1100
def evtRelease : Nat := 0x1101
def evtRefreshDone : Nat := 0x1200
def evtRefreshLate : Nat := 0x1201
def evtRefreshFail : Nat := 0x1202
def evtLedgerWrap : Nat := 0x1300

/-- Status codes (R94). -/
def stOk : Nat := 0x00
def stBusy : Nat := 0x01
def stNoObject : Nat := 0x02
def stNoSub : Nat := 0x03
def stType : Nat := 0x04
def stRange : Nat := 0x05
def stAccess : Nat := 0x06
def stLevel : Nat := 0x07
def stFrozen : Nat := 0x08
def stState : Nat := 0x09
def stEpoch : Nat := 0x0A
def stShape : Nat := 0x0B
def stAccOver : Nat := 0x0C
def stCapacity : Nat := 0x0D
def stEnergy : Nat := 0x0E
def stAuth : Nat := 0x0F
def stDigest : Nat := 0x10
def stLate : Nat := 0x11
def stNotReady : Nat := 0x12

/-- What a command of the dictionary does: its status and the state it leaves. -/
abbrev Effect := Nat × State

/-- The first of the conditions that holds gives the status; none leaves ST_OK. -/
def firstStatus : List (Bool × Nat) → Nat
  | [] => stOk
  | (b, st) :: r => if b then st else firstStatus r

/-- An effect behind its checks: only ST_OK leaves it (R94). -/
def checked (cs : List (Bool × Nat)) (s : State) (f : State → State) : Effect :=
  match firstStatus cs with
  | 0 => (stOk, f s)
  | st => (st, s)

/-- Where an event stands: its route slot (FFh none), client (FFh none) and instance (FFFFh none). -/
structure At where
  slot : Nat
  client : Nat
  inst : Nat
  deriving DecidableEq, Repr

def nowhere : At := ⟨0xFF, 0xFF, 0xFFFF⟩
def atSlot (i : Nat) : At := ⟨i, 0xFF, 0xFFFF⟩
def atInst (n : Nat) : At := ⟨0xFF, 0xFF, n⟩
def atSlotInst (i n : Nat) : At := ⟨i, 0xFF, n⟩

/-- An interrupt cause gathered for the beat's capture (R469). -/
def gather (function vector : Nat) (s : State) : State :=
  if s.ctr.causes.contains (function, vector) then s
  else { s with ctr := { s.ctr with causes := s.ctr.causes ++ [(function, vector)] } }

/-- A record of the event ledger (R454); vector 1 of the PF, and of the VF of the record's client, gather its cause. -/
def event (code : Nat) (p : At) (detail : Bytes) (s : State) : State :=
  let rec32 := le 8 s.beat.count ++ le 6 (stepOf s p.slot) ++ le 2 code ++ le 1 p.slot ++ le 1 p.client ++ le 2 p.inst ++ padTo 12 detail
  let s := { s with led := { s.led with
      event := kput s.led.event (s.led.events % 65536) rec32, events := (s.led.events + 1) % 2 ^ 64 } }
  let s := gather 0 1 s
  if 0 < p.client ∧ p.client < 64 then gather p.client 1 s else s

/-- Records written in one cycle stand in ascending code order, then ascending instance (R454). -/
def insertEvent (e : Nat × At × Bytes) : List (Nat × At × Bytes) → List (Nat × At × Bytes)
  | [] => [e]
  | x :: r => if e.1 < x.1 ∨ (e.1 = x.1 ∧ e.2.1.inst < x.2.1.inst) then e :: x :: r else x :: insertEvent e r

def eventsTogether (es : List (Nat × At × Bytes)) (s : State) : State :=
  (es.foldl (fun l e => insertEvent e l) []).foldl (fun s e => event e.1 e.2.1 e.2.2 s) s

/-- A record of the step ledger (R452). -/
def stepRecord (b : Bytes) (s : State) : State :=
  { s with led := { s.led with
      step := kput s.led.step (s.led.steps % 2097152) (padTo 32 b), steps := (s.led.steps + 1) % 2 ^ 64 } }

/-- A record of the command ledger (R96). -/
def commandRecord (b : Bytes) (s : State) : State :=
  { s with led := { s.led with
      command := kput s.led.command (s.led.commands % 65536) (padTo 32 b), commands := (s.led.commands + 1) % 2 ^ 64 } }

/-- A tag of a station is marked failed: it never completes in this attempt (R175). -/
def failTag (slot station : Nat) (t : Word) : State → State :=
  modStation slot station (fun x => if x.failed.contains t then x else { x with failed := x.failed ++ [t] })

end Sys2Proof.Machine
end

