-- ==== Sys2Proof/Machine/FlashStore.lean ====
section
/-! DEFINITION. The flash store and the hold-up bank: mapping and journal (R315-R320), maintenance (R321, R322), the bank and its
tests (R323), admission of stores (R324-R326), and the hold-up sequence up to its record (R327, R328). -/

namespace Sys2Proof.Machine

/-! The medium (R315). -/

def blockSets : Nat := 147456
def dieOf (set : Nat) : Nat := set % 96
def channelOf (set : Nat) : Nat := set % 16
def setOf (f : Flash) (b : Nat) : BlockSet := kgetD BlockSet.fresh f.sets b
def putSet (b : Nat) (x : BlockSet) (f : Flash) : Flash := { f with sets := kputD BlockSet.fresh f.sets b x }

def modFlash (g : Flash → Flash) (s : State) : State := { s with flash := g s.flash }
def modPower (g : Power → Power) (s : State) : State := { s with power := g s.power }

/-- Erased block sets: those that are not open, in use or retired. -/
def erasedSets (f : Flash) : Nat := blockSets - (f.sets.filter (fun e => e.2.state != 0)).length

/-- Erased 64 KiB pages: of the erased sets and what is left of the open ones. -/
def erasedPages (f : Flash) : Nat :=
  erasedSets f * 1024 + sumNat (f.sets.map (fun e => if e.2.state = 1 then 1024 - e.2.next else 0))

/-- Mapped logical pages whose location lies in a set. -/
def validPages (f : Flash) (set : Nat) : List Nat := (f.map.filter (fun e => e.2.1 == set)).map (·.1)

/-- Pages admitted and not yet programmed (130C.00). -/
def outstandingPages (f : Flash) : Nat := sumNat (f.stores.map (fun x => x.admitted.length + x.committed.length))

/-- A binary32 value as a rational; NaN and infinities count as 0. -/
def ratOf (w : Word) : Rat :=
  match f32 w with
  | .fin n m e =>
    let x : Rat := (m : Rat) * (if 0 ≤ e then ((2 ^ e.toNat : Nat) : Rat) else 1 / ((2 ^ (-e).toNat : Nat) : Rat))
    if n then -x else x
  | _ => 0

/-- A rational rounded to binary32, nearest even: scaled by a power of two that leaves at least 64 bits, a sticky bit below. -/
def f32OfRat (x : Rat) : Word :=
  let n := x.num.natAbs
  let k := 64 + Nat.log2 (x.den + 1)
  let q := n * 2 ^ k / x.den
  toF32 (.fin (x.num < 0) (2 * q + (if n * 2 ^ k % x.den = 0 then 0 else 1)) (-((k : Int) + 1)))

/-- The journal limit in bytes (3704.00). -/
def journalLimit (s : State) : Nat := setting s 0x3704 0 * 2 ^ 20

/-- Derated usable energy of the bank in joules (R324, 130A.00). -/
def deratedEnergy (s : State) : Rat :=
  let v := ratOf s.power.bankVolts
  (92 / 100 : Rat) * (1 / 2) * ratOf s.power.capacitance * (v * v - 900) * (1 - (setting s 0x130F 0 : Rat) / 100)

/-- Pages that can be admitted, as R324 computes them, under a journal limit in bytes. -/
def admissibleUnder (limit : Nat) (s : State) : Nat :=
  let e := deratedEnergy s - 300 * ((1 / 100 : Rat) + (limit : Rat) / 24000000000)
  if e ≤ 0 then 0
  else min (e / 300 * 24000000000 / 65536).floor.toNat (erasedPages s.flash - limit / 65536)

/-- Admissible pages as 130B.00 reports them; admission is closed while a warm or cold reset drains the stores (R324, R325, R478). -/
def admissiblePages (s : State) : Nat :=
  if s.power.input ≠ 0 ∨ s.power.tested = false ∨ powered s = false then 0 else s.power.admissible

/-! Admission of stores (R324-R326). -/

/-- A store of T3 pages of a client is admitted whole, split or refused; `t2` says that its pages are read from T2, which commits
them at once. The truth value says whether it may go on. -/
def admitStore (client : Nat) (pages : List Nat) (t2 : Bool) (s : State) : State × Bool :=
  let room := admissiblePages s - outstandingPages s.flash
  let fits := pages.length ≤ room
  let put (now later : List Nat) (s : State) : State :=
    count 0x502C 0 1 (modFlash (fun f => { f with
      stores := f.stores ++ [⟨f.nextStore, client, later, if t2 then [] else now, if t2 then now else []⟩]
      nextStore := f.nextStore + 1 }) s)
  if pages = [] then (s, true)
  else if s.flash.state = 2 ∨ (fits = false ∧ setting s 0x2701 0 = 0) then
    (event evtStoreRefused ⟨0xFF, client, 0xFFFF⟩ [] (count 0x502E 0 1 s), false)
  else if fits then (put pages [] s, true)
  else (count 0x502D 0 1 (put (pages.take room) (pages.drop room) s), true)

/-- The bytes of a logical page have reached staging: it is committed, its former contents kept for a lost journal (R326, R329). -/
def commitPage (page : Nat) (old : Bytes) : State → State :=
  modFlash (fun f => { f with
    shadow := if (kget f.shadow page).isSome then f.shadow else kput f.shadow page old
    stores := f.stores.map (fun x =>
      if x.admitted.contains page then { x with admitted := x.admitted.filter (· != page), committed := x.committed ++ [page] } else x) })

/-- A page that the store holds may take its bytes: it has been admitted, and a page that no store names needs no admission. -/
def pageAdmitted (s : State) (page : Nat) : Bool := !s.flash.stores.any (fun x => x.waiting.contains page)

/-- Waiting pages of a split store are admitted in order as pages are programmed (R325). -/
def execStoreAdmit (store : Nat) (s : State) : Outcome :=
  let room := admissiblePages s - outstandingPages s.flash
  done (modFlash (fun f => { f with
    stores := f.stores.map (fun x =>
      if x.id = store then { x with admitted := x.admitted ++ x.waiting.take room, waiting := x.waiting.drop room } else x) }) s)

/-! Programming (R318-R321). -/

/-- The erased set of a die with the lowest erase count, lowest number first (R321). -/
def pickErased (f : Flash) (die : Nat) : Option Nat :=
  ((List.range (blockSets / 96)).map (fun k => k * 96 + die)).foldl (fun (b : Option Nat) x =>
    if (setOf f x).state ≠ 0 then b
    else match b with
      | none => some x
      | some y => if (setOf f x).erases < (setOf f y).erases then some x else b) none

/-- The dirty part of the map is written to flash and the journal starts again (R320). What committed pages held before is kept until they are
programmed. -/
def writeMap : State → State :=
  modFlash (fun f => { f with journal := 0, dirty := 0, shadow := f.shadow.filter (fun e => f.stores.any (fun x => x.committed.contains e.1)) })

/-- A record enters the journal, which holds no more than its limit (R320). -/
def journalled (s : State) : State :=
  modFlash (fun f => { f with journal := f.journal + Config.journalRecord }) (if journalLimit s ≤ s.flash.journal then writeMap s else s)

/-- The die that takes the next program: in turn, the first that has an open set or an erased one (R319). -/
def nextDie (f : Flash) : Option (Nat × Nat) :=
  (List.range 96).findSome? (fun k =>
    let die := (f.nextDie + k) % 96
    (match kget f.openSets die with
      | some b => some b
      | none => pickErased f die).map (fun b => (die, b)))

/-- Program one logical page to a fresh location; nothing happens while no die has room. -/
def programPage (page : Nat) (s : State) : State :=
  match nextDie s.flash with
  | none => s
  | some (die, b) =>
    let s := journalled s
    let f := s.flash
    let x := setOf f b
    let full := x.next + 1 = 1024
    let f := putSet b { x with state := if full then 2 else 1, next := x.next + 1 } f
    let f := { f with
      openSets := if full then kdel f.openSets die else kput f.openSets die b
      nextDie := (die + 1) % 96
      map := kput f.map page (b, x.next), dirty := f.dirty + 1 }
    count 0x5701 (channelOf b) 1 { s with flash := f }

/-- The next committed page of the stores, in order of admission. -/
def nextCommitted (f : Flash) : Option Nat := (f.stores.flatMap (·.committed)).head?

/-- A store leaves once every page of it has been programmed. -/
def dropProgrammed (page : Nat) (f : Flash) : Flash :=
  let rec go : List FlashStore → List FlashStore
    | [] => []
    | x :: r => if x.committed.contains page then { x with committed := x.committed.erase page } :: r else x :: go r
  { f with stores := (go f.stores).filter (fun x => !(x.waiting.isEmpty && x.admitted.isEmpty && x.committed.isEmpty)) }

/-- One committed page is programmed and mapped (R319); the journal takes its record (R320). -/
def programNext (s : State) : State :=
  match nextCommitted s.flash with
  | none => s
  | some page =>
    if (nextDie s.flash).isNone then s else modFlash (dropProgrammed page) (programPage page s)

def execFlashProgram (s : State) : Outcome := done (programNext s)

/-- The dirty part of the map is written once the journal has reached its limit; the journal starts again (R320). -/
def execMapCheckpoint (s : State) : Outcome :=
  done (if journalLimit s ≤ s.flash.journal then writeMap s else s)

/-- A set is erased once no valid page is left in it. -/
def eraseSet (b : Nat) (s : State) : State :=
  let x := setOf s.flash b
  if validPages s.flash b ≠ [] then s
  else count 0x5702 (channelOf b) 1 (modFlash (fun f =>
    { putSet b ⟨0, x.erases + 1, 0, 0⟩ f with openSets := f.openSets.filter (fun e => e.2 != b) }) s)

/-- A set leaves the choice of open sets. -/
def closeSet (b : Nat) : State → State :=
  modFlash (fun f => { putSet b { setOf f b with state := 2 } f with openSets := f.openSets.filter (fun e => e.2 != b) })

/-- The valid pages of a set move with their map entries, counted one by one (R321). -/
def relocate (counter b : Nat) (s : State) : State :=
  let ps := validPages s.flash b
  count counter 0 ps.length (ps.foldl (fun s p => programPage p s) (closeSet b s))

/-- The in-use set for which `f` is least, lowest number first. -/
def leastSet (s : State) (f : Nat → BlockSet → Nat) : Option Nat :=
  (s.flash.sets.filter (fun e => e.2.state == 2)).foldl (fun (b : Option Nat) e =>
    match b with
    | none => some e.1
    | some y => if f e.1 e.2 < f y (setOf s.flash y) then some e.1 else b) none

/-- The maintenance processes run while the module is powered and no hold-up sequence runs (R321, R327). -/
def maintaining (s : State) : Bool := s.power.sequence == 0

/-- Garbage collection below 4,096 erased sets (R321). -/
def execGarbageCollection (s : State) : Outcome :=
  done (if maintaining s ∧ erasedSets s.flash < 4096 then
    match leastSet s (fun b _ => (validPages s.flash b).length) with
    | none => s
    | some b => eraseSet b (relocate 0x5028 b s)
  else s)

/-- Static wear levelling (R321). -/
def execStaticWearLevelling (s : State) : Outcome :=
  let es := (s.flash.sets.filter (fun e => e.2.state != 3)).map (fun e => e.2.erases)
  let hi := es.foldl max 0
  let lo := if s.flash.sets.length < blockSets then 0 else es.foldl min hi
  done (if maintaining s ∧ setting s 0x3701 0 < hi - lo then
    match leastSet s (fun _ x => x.erases) with
    | none => s
    | some b => eraseSet b (relocate 0x5029 b s)
  else s)

/-- Relocation of a set that has been read too often (R321). -/
def execReadDisturbRelocation (set : Nat) (s : State) : Outcome :=
  done (if maintaining s ∧ setting s 0x3702 0 ≤ (setOf s.flash set).reads ∧ (setOf s.flash set).state ≠ 3 then
    eraseSet set (relocate 0x502A set s)
  else s)

/-- A set is retired: its pages are programmed elsewhere, the bad block table records it, and the reserve is judged
(R321, R322). -/
def execBlockRetire (set : Nat) (s : State) : Outcome :=
  done (if (setOf s.flash set).state = 3 ∨ blockSets ≤ set then s
  else
    let ps := validPages s.flash set
    let s := ps.foldl (fun s p => programPage p s) (closeSet set s)
    let s := modFlash (fun f => { putSet set { setOf f set with state := 3 } f with bad := f.bad ++ [set] }) s
    let s := event evtBlockRetired (atInst (channelOf set)) (le 4 set) (count 0x502B 0 1 s)
    let left := 16384 - s.flash.bad.length
    let s := if left < 1024 ∧ s.flash.state = 0 then event evtFlashReserveLow nowhere [] (modFlash (fun f => { f with state := 1 }) s) else s
    if left < 256 ∧ s.flash.state = 1 then event evtFlashReadOnly nowhere [] (modFlash (fun f => { f with state := 2 }) s) else s)

/-- A logical page is read, with its retries; a page that fails every retry is uncorrectable (R317). -/
def execFlashPageRead (page retries : Nat) (uncorrectable : Bool) (s : State) : Outcome :=
  done (match kget s.flash.map page with
    | none => s
    | some (b, _) =>
      let s := count 0x5700 (channelOf b) 1 s
      let r := if uncorrectable then setting s 0x3705 0 else min retries (setting s 0x3705 0)
      let s := if r = 0 then s else count 0x5703 (channelOf b) r s
      let s := modFlash (fun f => putSet b { setOf f b with reads := (setOf f b).reads + 1 } f) s
      if uncorrectable then count 0x5704 (channelOf b) 1 s else s)

/-! The bank (R323). -/

/-- The 1 ms sample of the bank voltage; 130B.00 is computed again (R324). -/
def execBankSample (volts : Word) (s : State) : Outcome :=
  let s := modPower (fun p => { p with
    bankVolts := volts
    reached55 := p.reached55 || !flt (f32 volts) (fnat 55) && !fisNan (f32 volts) }) s
  done (modPower (fun p => { p with admissible := admissibleUnder (journalLimit s) s }) s)

/-- Core-clock cycles of a number of seconds. -/
def secondsOf (n : Nat) : Nat := n * 1700000000

/-- A load test starts. -/
def startTest (s : State) : State := modPower (fun p => { p with testing := true, holdup := 1, lastTest := s.clock }) s

end Sys2Proof.Machine
end

