-- ==== Sys2Proof/Machine/Cargo.lean ====
section
/-! DEFINITION. Cargoes: frames and their allocation (R263-R265, R274), the T1 cache (R280-R284), the cargo commands
(R272, R273, R276, R277) and the patrol scrub (R268, R269). -/

namespace Sys2Proof.Machine

/-! Frames (R263, R265). Saggar pages stand at frame numbers from 2^32 on. -/

def saggarBase : Nat := 2 ^ 32

/-- Pages of the buddy region that one package gives (R265, R390), the region shared evenly among the packages. -/
def buddyPages (s : State) : Nat := setting s 0x2902 0 * 16384 / 32

/-- Frames, or saggar pages, of a unit that cargoes may take (R265); none of one that has failed (R483). -/
def unitCap (s : State) (tier unit : Nat) (saggar : Bool) : Nat :=
  if s.mem.failed.contains (tier, unit) then 0
  else match tier, saggar with
  | 0, false => 878
  | 0, true => 16
  | 1, false => if unit = 0 then 1046223 else 1046272
  | 1, true => 2048
  | 2, false => 1043968 - buddyPages s
  | 2, true => 4096
  | 3, _ => 134217728
  | _, _ => 0

/-- Live and BROKEN cargoes with their records. -/
def liveCargoes (s : State) : List (Nat × Cargo) := s.mem.cargoes.filter (fun e => e.2.state != 0)

/-- Frames of a unit that cargoes hold, with their secure reserves and snapshot frames (R388); a T3 page holds its logical page whether it is mapped or not. -/
def cargoFrames (s : State) (tier unit : Nat) (saggar : Bool) : List Nat :=
  (liveCargoes s).flatMap (fun e =>
    if e.2.tier = tier ∧ e.2.saggar = saggar then
      (e.2.pages.filter (fun p => p.unit == unit)).map (·.frame) else []) ++
  slotNumbers.flatMap (fun k =>
    let x := secureOf s k
    let mine (i page : Nat) : Bool :=
      let c := kgetD Cargo.free s.mem.cargoes i
      c.tier == tier && c.saggar == saggar && ((c.pages)[page]?).any (fun p => p.unit == unit)
    (x.reserve.filter (fun e => mine (e.1 / 2 ^ 28) (e.1 % 2 ^ 28))).map (·.2) ++
    ((x.point.elim [] (·.pages)).filter (fun h => h.copied && mine h.record h.page)).map (·.frame))

/-- Frames of a stack that the T1 cache holds. -/
def cacheFrames (s : State) (stack : Nat) : List CacheFrame := s.mem.cache.filter (fun f => f.stack == stack)

def insertNat (x : Nat) : List Nat → List Nat
  | [] => [x]
  | y :: r => if x ≤ y then x :: y :: r else y :: insertNat x r

/-- Frames of a unit in use, ascending. -/
def usedFrames (s : State) (tier unit : Nat) (saggar : Bool) : List Nat :=
  let xs := cargoFrames s tier unit saggar
  let ys := if tier = 1 && !saggar then (cacheFrames s unit).map (·.frame) else []
  (xs ++ ys).foldl (fun l x => insertNat x l) []

/-- The k-th number, counted from `lo`, that an ascending list does not hold. -/
def kthFree (k : Nat) : List Nat → Nat
  | [] => k
  | u :: r => if u ≤ k then kthFree (k + 1) r else k

/-- The allocator's pick among the free frames of a unit (R274). -/
def pickFrame (stamp cap : Nat) (used : List Nat) (base : Nat) : Nat :=
  base + kthFree (Config.pick stamp % (cap - used.length)) (used.map (· - base))

/-! The T1 cache. -/

/-- T1 cache capacity in frames (R283). -/
def cacheCapacity (s : State) : Nat :=
  16 * 1046272 - 49 - sumNat ((List.range 16).map (fun k => (cargoFrames s 1 k false).length))

def modCache (f : CacheFrame → CacheFrame) (s : State) : State := { s with mem := { s.mem with cache := s.mem.cache.map f } }
def modFrame (i page : Nat) (f : CacheFrame → CacheFrame) : State → State :=
  modCache (fun x => if x.cargo == i && x.page == page then f x else x)

/-- Entries of a storage range. -/
def rangeOf (m : Memory) (a n : Nat) : Memory := m.filter (fun e => a ≤ e.1 && e.1 < a + n)

/-- Copy a range of one storage into the same range of another. -/
def copyRange (src dst : Memory) (a n : Nat) : Memory := (rangeOf src a n).foldl (fun m e => storeByte m e.1 e.2) (clearBytes dst a n)

/-- Where page `p` of record `i` stands in the contents. -/
def pageAddress (i p : Nat) : Nat := i * cargoSpan + p * pageBytes

/-- Home contents of a page. -/
def homePage (s : State) (i p : Nat) : Bytes := loadBytes s.mem.home (pageAddress i p) pageBytes

/-- The page entry of a page. -/
def pageOf (s : State) (i p : Nat) : Option PageEntry := (kgetD Cargo.free s.mem.cargoes i).pages[p]?

/-- A page is unmapped (R309): a T3 page not written since its create, or a TH page outside the window in force. -/
def unmapped (s : State) (i p : Nat) : Bool :=
  match pageOf s i p with
  | none => true
  | some e =>
    let c := kgetD Cargo.free s.mem.cargoes i
    e.tier == 15 ||
    (c.tier == 4 && !(setting s 0x1430 0 ≤ e.frame * 65536 && (e.frame + 1) * 65536 ≤ setting s 0x1430 0 + setting s 0x1431 0 * 65536))

/-- A T3 page takes new bytes: it is mapped and its former contents are kept for a lost journal (R309, R329). -/
def touchT3 (i p : Nat) (s : State) : State :=
  match pageOf s i p with
  | none => s
  | some e =>
    if (kgetD Cargo.free s.mem.cargoes i).tier = 3 then
      let s := commitPage e.frame (homePage s i p) s
      modCargo i (fun c => { c with pages := setNth c.pages p { e with tier := 3 } }) s
    else s

/-- The bus address of a TH page (R274). -/
def pageBus (s : State) (i p : Nat) : Nat := (kgetD Cargo.free s.mem.cargoes i).busAddress + p * pageBytes

/-- A page of tier TH cannot be reached: it lies outside the window in force, or the host port is not up (R286, R468). -/
def hostAway (s : State) (i p : Nat) : Bool :=
  (kgetD Cargo.free s.mem.cargoes i).tier == 4 && (unmapped s i p || decide (s.host.link < 5))

/-- A dirty frame is written home (R281). A write-home to T3 is a store of one page, and one to TH goes out to the host; one
that is not admitted leaves the frame dirty, to be retried. -/
def writeHomeFrame (f : CacheFrame) (s : State) : State × Bool :=
  let c := kgetD Cargo.free s.mem.cargoes f.cargo
  let later (s : State) : State × Bool := (modFrame f.cargo f.page (fun x => { x with retry := some s.beat.count }) s, false)
  let copy (s : State) : State :=
    let s := touchT3 f.cargo f.page s
    let s := { s with mem := { s.mem with home := copyRange s.mem.cached s.mem.home (pageAddress f.cargo f.page) pageBytes } }
    count 0x5434 f.stack 1 (modFrame f.cargo f.page (fun x => { x with dirty := false, retry := none }) s)
  if c.tier = 3 then
    let page := ((pageOf s f.cargo f.page).map (·.frame)).getD 0
    let r := if s.flash.stores.any (fun x => x.admitted.contains page || x.waiting.contains page) then (s, true)
      else admitStore c.client [page] false s
    if r.2 = true ∧ pageAdmitted r.1 page = true then (copy r.1, true) else later r.1
  else if c.tier = 4 then
    if hostAway s f.cargo f.page then later s
    else (copy (emit (.hostWrite (pageBus s f.cargo f.page) (loadBytes s.mem.cached (pageAddress f.cargo f.page) pageBytes)) s), true)
  else (copy s, true)

/-- A page of a cargo has a request outstanding on an engine. -/
def pageBusy (s : State) (i p : Nat) : Bool :=
  s.engines.any (fun e => e.2.outstanding.any (fun t =>
    let inside (h : Nat) (a : Request → Nat) : Bool :=
      h != 0xFFFFFFFF && h % 65536 == i && t.requests.any (fun q => q.state == 1 && a q / pageBytes == p)
    inside t.desc.source (·.address) || inside t.desc.dest (·.dest)))

/-- The victim of R284 on a stack. -/
def victim (s : State) (stack : Nat) : Option CacheFrame :=
  let cand := (cacheFrames s stack).filter (fun f => !f.pinned && !f.refilling && !pageBusy s f.cargo f.page)
  let held (n : Nat) := (s.mem.cache.filter (fun f => f.client == n)).length
  let beyond := cand.filter (fun f => decide (setting s 0x2540 f.client * cacheCapacity s < held f.client * 100))
  (if beyond.isEmpty then cand else beyond).foldl (fun b f =>
    match b with
    | none => some f
    | some y => if f.lastUse < y.lastUse ∨ (f.lastUse = y.lastUse ∧ f.frame < y.frame) then some f else b) none

def dropFrame (i p : Nat) (s : State) : State :=
  { s with mem := { s.mem with
      cache := s.mem.cache.filter (fun f => !(f.cargo == i && f.page == p))
      cached := clearBytes s.mem.cached (pageAddress i p) pageBytes } }

/-- A victim leaves its stack, written home first where it is dirty (R284). -/
def evict (stack : Nat) (s : State) : State × Bool :=
  match victim s stack with
  | none => (s, false)
  | some f =>
    let r := if f.dirty then writeHomeFrame f s else (s, true)
    if r.2 then (count 0x5433 stack 1 (dropFrame f.cargo f.page r.1), true) else (r.1, false)

/-- A frame on a stack, by eviction where none is free; `none` leaves the access waiting. A stack with no victim counts CACHE_FULL
(R284). -/
def takeFrame (stack : Nat) (s : State) : State × Option Nat :=
  let cap := unitCap s 1 stack false
  let pick (s : State) := (draw s, some (pickFrame (drawn s) cap (usedFrames s 1 stack false) 0))
  if (usedFrames s 1 stack false).length < cap then pick s
  else if (victim s stack).isNone then (count 0x5432 stack 1 s, none)
  else
    let r := evict stack s
    if r.2 then pick r.1 else (r.1, none)

/-- The stack that caches a page (R274). -/
def cacheStack (c : Cargo) (page : Nat) : Nat := c.cacheStacks.getD (page % c.cacheStacks.length) 0

/-- A frame is out of date: marked, or its refresh interval has passed since it was filled (R282). -/
def frameOld (s : State) (c : Cargo) (f : CacheFrame) : Bool :=
  f.outOfDate || (c.refresh != 0 && decide (f.filled + c.refresh ≤ s.beat.count))

/-- The next access to a page of a far-cached cargo fetches it from home. -/
def fetchesHome (s : State) (i page : Nat) : Bool :=
  match frameOf s i page with
  | some f => !f.refilling && frameOld s (kgetD Cargo.free s.mem.cargoes i) f
  | none => true

/-- An access to a page of a far-cached cargo (R280-R282): a hit, a refill of an old frame (a dirty one is written home first),
or a miss that takes a frame. The truth value says whether the access goes on. -/
def cacheAccess (i page : Nat) (s : State) : State × Bool :=
  let c := kgetD Cargo.free s.mem.cargoes i
  let stack := cacheStack c page
  match frameOf s i page with
  | some f =>
    let s := modFrame i page (fun f => { f with lastUse := s.beat.count }) s
    if f.refilling then (s, true)
    else if frameOld s c f then
      let r := if f.dirty then writeHomeFrame f s else (s, true)
      (modFrame i page (fun f => { f with refilling := r.2, again := false }) r.1, r.2)
    else (count 0x5430 f.stack 1 s, true)
  | none =>
    let r := takeFrame stack s
    match r.2 with
    | none => (r.1, false)
    | some n =>
      (count 0x5431 stack 1 { r.1 with mem := { r.1.mem with
        cache := r.1.mem.cache ++ [⟨stack, n, i, page, c.client, false, false, s.beat.count, s.beat.count, false, true, false, false, none⟩] } }, true)

/-- A refill lands: the frame holds the home page (R280, R282), for TH what the host has answered. A mark that came after the refill
began stands (R279). -/
def refillLand (i page : Nat) (answer : Option Bytes) (s : State) : State :=
  match frameOf s i page with
  | some f =>
    if f.refilling then
      let s := match answer with
        | some b => { s with mem := { s.mem with home := storeBytes s.mem.home (pageAddress i page) (padTo pageBytes b) } }
        | none => s
      let s := { s with mem := { s.mem with cached := copyRange s.mem.home s.mem.cached (pageAddress i page) pageBytes } }
      modFrame i page (fun f => { f with refilling := false, valid := true, outOfDate := f.again, again := false, filled := s.beat.count }) s
    else s
  | none => s

/-- A refill under way lands now. What host memory holds there is a free value. -/
def settlePage (i page : Nat) (s : State) : State :=
  if (frameOf s i page).any (·.refilling) then
    if (kgetD Cargo.free s.mem.cargoes i).tier = 4 then
      refillLand i page (some ((List.range pageBytes).map (fun k => Config.hostByte (drawn s) (pageBus s i page + k)))) (draw s)
    else refillLand i page none s
  else s

/-- A refill fails: the frame that was taken for it goes, an older copy stays (R282, R286). -/
def refillFail (i page : Nat) (s : State) : State :=
  match frameOf s i page with
  | some f => if f.refilling then (if f.valid then modFrame i page (fun f => { f with refilling := false, outOfDate := true }) s else dropFrame i page s) else s
  | none => s

/-- Pages of a far-cached cargo are brought into the cache one after another; the access goes on once all are there. -/
def accessPages (i : Nat) (ps : List Nat) (s : State) : State × Bool :=
  ps.foldl (fun r p =>
    if r.2 = false ∨ (fetchesHome r.1 i p = true ∧ hostAway r.1 i p = true) then (r.1, false) else cacheAccess i p r.1) (s, true)

/-- Pages that a byte range of a cargo touches. -/
def pagesOf (offset n : Nat) : List Nat :=
  if n = 0 then [] else (List.range ((offset + n - 1) / pageBytes + 1 - offset / pageBytes)).map (· + offset / pageBytes)

/-- A write into a cargo: through the cache for a far-cached cargo, with its pages refilled first, and into committed pages of
T3. -/
def writeData (i offset : Nat) (data : Bytes) (s : State) : State :=
  let c := kgetD Cargo.free s.mem.cargoes i
  let s := (pagesOf offset data.length).foldl (fun s p =>
    if c.farCached then settlePage i p s else touchT3 i p s) s
  writeCargo i offset data s

/-! Attribute checks (R272, R273). -/

/-- Bytes per element of a format in thirty-seconds, for the fallback's size. -/
def formatBytes (s : State) (code : Nat) : Option Nat := (formatOf (inUse s 0x6200 0) code).map bytes32

def attrField (b : Bytes) (o n : Nat) : Nat := field b o n

/-- Frames that pages of a cargo take on each unit of the home units field: (unit, pages). -/
def unitNeeds (c : Cargo) : List (Nat × Nat) :=
  let us := c.units
  us.zipIdx.map (fun e => (e.1, (c.pageCount + us.length - 1 - e.2) / us.length))

/-- The unit number of entry `u` of the home units field: a partition of the cluster, a stack or a package (R272). -/
def homeUnit (c : Cargo) (u : Nat) : Nat := if c.tier = 0 then (clusterArrays c.cluster).getD u 0 else u

/-- Frames of a unit free for an explicit cargo, the T1 cache left aside. -/
def freeFrames (s : State) (tier unit : Nat) (saggar : Bool) : Nat := unitCap s tier unit saggar - (cargoFrames s tier unit saggar).length

/-- Room on a stack for explicit pages: cached frames give way one after another (R284). The truth value says that there is room. -/
def makeRoom (stack need : Nat) : Nat → State → State × Bool
  | 0, s => (s, decide ((usedFrames s 1 stack false).length + need ≤ unitCap s 1 stack false))
  | fuel + 1, s =>
    if unitCap s 1 stack false < (usedFrames s 1 stack false).length + need then
      let r := evict stack s
      if r.2 then makeRoom stack need fuel r.1 else (r.1, false)
    else (s, true)

/-- Room for pages of a cargo on its units: (unit, pages). -/
def roomFor (tier : Nat) (saggar : Bool) (needs : List (Nat × Nat)) (s : State) : State × Bool :=
  needs.foldl (fun r e =>
    if r.2 = false then r
    else if tier = 1 ∧ saggar = false then makeRoom e.1 e.2 e.2 r.1
    else (r.1, decide (e.2 ≤ freeFrames r.1 tier e.1 saggar))) (s, true)

/-- Pages of every live cargo homed in a tier: they need 16 bytes each of page table (R267, R275). -/
def tablePages (s : State) (p : Cargo → Bool) : Nat := ceilDiv (sumNat ((liveCargoes s).map (fun e => if p e.2 then e.2.pageCount * 16 else 0))) 65536

/-- The page table finds room: the tables of T0 cargoes of a cluster in its partitions' saggar pages, those of T1 in the stacks',
those of the other tiers in the packages' (R267). A saggar cargo's own pages lie in the same regions (R266). -/
def tableFits (s : State) (c : Cargo) : Bool :=
  let more := ceilDiv (c.pageCount * 16) 65536 + (if c.saggar then c.pageCount else 0)
  let sag (tier : Nat) (units : List Nat) := sumNat (units.map (fun u => (cargoFrames s tier u true).length))
  match c.tier with
  | 0 => tablePages s (fun x => x.tier == 0 && x.cluster == c.cluster) + more + sag 0 (clusterArrays c.cluster) ≤ 256
  | 1 => tablePages s (fun x => x.tier == 1) + more + sag 1 (List.range 16) ≤ 32768
  | _ => tablePages s (fun x => 2 ≤ x.tier) + more + sag 2 (List.range 32) ≤ 131072

/-- A handle that is written has a reserved bit set (R16, R271). -/
def reservedHandle (h : Nat) : Bool := h != 0xFFFFFFFF && bits h 23 22 != 0

/-- The checks on an attribute block, in the order of R273's table; `before` stands between those on its fields and the rest. -/
def attrChecks (s : State) (client : Nat) (b : Bytes) (before : List (Bool × Nat)) : List (Bool × Nat) :=
  let c : Cargo := ⟨1, client, 0, b, [], false⟩
  let units := field b 28 4
  let bus := c.busAddress
  let window := setting s 0x1430 0
  let windowPages := setting s 0x1431 0
  let fb := cargoOf s c.fallback
  [(decide (c.pageCount = 0 ∨ 268435456 < c.pageCount ∨ 4 < c.tier ∨ 7 < field b 21 1 ∨ 3 < c.lateAction ∨ 16384 < c.margin) ||
      (c.format != 0xFF && reservedCode c.format) || !zeroAt b 33 1 || (c.tier ≤ 1 && 65536 ≤ units) ||
      (if c.tier = 0 then 15 < c.cluster else c.cluster != 0) || (!c.farCached && field b 34 2 != 0) ||
      (c.lateAction != 3 && c.fallback != 0xFFFFFFFF) || (if c.tier = 4 then bus % 65536 != 0 else bus != 0), stRange),
   (if c.tier ≤ 2 then units == 0 else units != 0, stRange), (reservedHandle c.fallback, stRange)] ++ before ++
  [((c.farCached && (c.tier ≤ 1 || field b 34 2 == 0)) || (c.saggar && (3 ≤ c.tier || c.farCached)), stState),
   (c.lateAction != 0 && (c.tier == 0 || c.saggar), stState),
   (c.tier == 4 && (windowPages == 0 || bus < window || window + windowPages * 65536 < bus + c.pageCount * 65536), stState),
   (c.lateAction == 3 && (match fb with
      | none => true
      | some (_, f) =>
        f.state != 1 || f.client != client || f.tier != 0 || f.lateAction != 0 ||
        (match formatBytes s f.format, formatBytes s c.format with
         | some ef, some ep => f.pageCount < ceilDiv (c.pageCount * ef) ep
         | _, _ => true)), stState)]

/-- Checks that a create adds (R273): frames, records, page tables, and the cache reserve. -/
def createChecks (s : State) (c : Cargo) : List (Bool × Nat) :=
  [((c.tier ≤ 2 && !(roomFor c.tier c.saggar ((unitNeeds c).map (fun e => (homeUnit c e.1, e.2))) s).2) ||
      (c.tier == 3 && decide (134217728 < (cargoFrames s 3 0 false).length + c.pageCount)) ||
      decide (65536 ≤ (liveCargoes s).length) || !tableFits s c, stCapacity),
   (c.tier == 1 && !c.saggar && decide (cacheCapacity s < setting s 0x2503 0 + c.pageCount), stCapacity)]

/-- The lowest record that is free (R271). -/
def lowestFree (s : State) : Nat := kthFree 0 ((liveCargoes s).map (·.1))

/-- The page table of a new cargo (R274, R275): each page on its unit, in any free frame of it. -/
def allocPages (s : State) (c : Cargo) : State × List PageEntry :=
  let us := c.units
  let base := if c.saggar then saggarBase else 0
  if c.tier = 4 then (s, (List.range c.pageCount).map (fun k => ⟨0, 4, 0, c.busAddress / 65536 + k⟩))
  else
    let start : KMap (List Nat) := if c.tier = 3 then [(0, usedFrames s 3 0 false)]
      else us.foldl (fun m u => kput m (homeUnit c u) (usedFrames s c.tier (homeUnit c u) c.saggar)) []
    let r := (List.range c.pageCount).foldl (fun (x : Nat × KMap (List Nat) × List PageEntry) k =>
      let unit := if c.tier = 3 then 0 else homeUnit c (us.getD (k % us.length) 0)
      let used := kgetD [] x.2.1 unit
      let f := if c.tier = 3 then kthFree 0 used else pickFrame x.1 (unitCap s c.tier unit c.saggar) used base
      (x.1 + 1, kput x.2.1 unit (insertNat f used), ⟨0, if c.tier = 3 then 15 else c.tier, unit, f⟩ :: x.2.2)) (s.fresh, start, [])
    ({ s with fresh := r.1 }, r.2.2.reverse)

def setProgress (client handle k : Nat) (s : State) : State :=
  { s with mem := { s.mem with progress := kput s.mem.progress client (handle, k) } }
def progressOf (s : State) (client : Nat) : Nat × Nat := kgetD (0, 0) s.mem.progress client

/-- A create has its effect: the lowest free record, its reuse count raised, its frames zeroed (R271, R276, R277). -/
def createCargo (client : Nat) (attr : Bytes) (s : State) : State :=
  let i := lowestFree s
  let c : Cargo := { state := 1, client := client, reuse := ((kgetD Cargo.free s.mem.cargoes i).reuse + 1) % 256, attr := attr
                     pages := [], zeroing := decide (field attr 20 1 ≤ 2) }
  let s := if c.tier = 1 ∧ c.saggar = false then (roomFor 1 false (unitNeeds c) s).1 else s
  let r := allocPages s c
  let s := r.1
  let s := { s with mem := { s.mem with
    home := clearBytes s.mem.home (i * cargoSpan) cargoSpan, cached := clearBytes s.mem.cached (i * cargoSpan) cargoSpan
    cargoes := kputD Cargo.free s.mem.cargoes i { c with pages := r.2 } } }
  setProgress client (handleOf i c) (if c.zeroing then 1 else 2) (if c.tier = 3 then journalled s else s)

/-- The cargo holds the image of a resident or loading route (R123). -/
def holdsImage (s : State) (handle : Nat) : Bool :=
  slotNumbers.any (fun k => ((slotOf s k).route).elim false (fun r => r.image == handle))

def manifestNames (s : State) (handle : Nat) : Bool :=
  (residents s).any (fun e => e.2.manifest.any (fun m => m.handle == handle))

def manifestReads (s : State) (handle : Nat) : Bool :=
  (residents s).any (fun e => e.2.manifest.any (fun m => m.handle == handle && m.read))

/-- A free releases every frame and cached frame without writing back, and unmaps the windows of BAR4 (R276, R465). -/
def freeCargo (client i : Nat) (s : State) : State :=
  let c := kgetD Cargo.free s.mem.cargoes i
  let s := if c.tier = 3 then journalled (modFlash (fun f => { f with map := f.map.filter (fun e => !c.pages.any (fun p => p.frame == e.1)) }) s) else s
  let s := { s with mem := { s.mem with
    cargoes := kmodD Cargo.free s.mem.cargoes i (fun c => { Cargo.free with reuse := c.reuse })
    home := clearBytes s.mem.home (i * cargoSpan) cargoSpan, cached := clearBytes s.mem.cached (i * cargoSpan) cargoSpan
    cache := s.mem.cache.filter (fun f => f.cargo != i) } }
  let s := modHost (fun h => { h with
    windows := h.windows.filter (fun e => field e.2 0 4 % 65536 != i)
    windowsSet := h.windowsSet.filter (fun e => field e.2 0 4 % 65536 != i) }) s
  setProgress client (progressOf s client).1 2 s

/-- A page is fetched into the cache and kept there (R276); one that finds no frame is still to come. -/
def pinPage (i p : Nat) (s : State) : State × Bool :=
  let r := accessPages i [p] s
  if r.2 then (modFrame i p (fun f => { f with pinned := true }) (settlePage i p r.1), true) else r

/-- A page's dirty frame is written home (R276). -/
def flushPage (i p : Nat) (s : State) : State × Bool :=
  match frameOf s i p with
  | some f => if f.dirty then writeHomeFrame f s else (s, true)
  | none => (s, true)

/-- A mark never loses a write: a dirty frame is written home first, at the latest when it is refilled (R281, R282). -/
def markPage (i p : Nat) (s : State) : State :=
  modFrame i p (fun f => { f with outOfDate := f.outOfDate || !f.refilling, again := f.again || f.refilling }) (flushPage i p s).1

/-- A client's pin or flush goes on over its pages; those that could not be brought in or written home remain (R277). -/
def workOn (client : Nat) (ps : List (Nat × Nat × Bool)) (s : State) : State :=
  let r := ps.foldl (fun (r : State × List (Nat × Nat × Bool)) e =>
    let x := if e.2.2 then pinPage e.1 e.2.1 r.1 else flushPage e.1 e.2.1 r.1
    (x.1, if x.2 then r.2 else r.2 ++ [e])) (s, [])
  { r.1 with mem := { r.1.mem with working := if r.2.isEmpty then kdel r.1.mem.working client else kput r.1.mem.working client r.2 } }

/-- Checks on a request to 2510.00 for an operation on an existing cargo, and its effect on the record named (R276). -/
def onCargo (client : Nat) (req : Bytes) (more : Nat → Cargo → List (Bool × Nat)) (f : Nat → Cargo → List Nat → State → State)
    (s : State) : Effect :=
  let h := field req 4 4
  let first := field req 8 4
  let busy := ((progressOf s client).2 == 1, stBusy)
  match cargoOf s h with
  | none => checked [busy, (true, stRange)] s id
  | some (i, c) =>
    let n := if field req 12 4 = 0 then c.pageCount - first else field req 12 4
    checked ([busy, (c.client != client, stAccess), (!zeroAt req 1 3 || c.pageCount < first + n, stRange)] ++ more i c) s
      (f i c ((List.range n).map (· + first)))

def broken (c : Cargo) : Bool × Nat := (c.state == 2, stState)
def notCached (c : Cargo) : Bool × Nat := (!c.farCached, stState)

def createEffect (client : Nat) (req : Bytes) (s : State) : Effect :=
  let attr := slice req 16 48
  checked ([((progressOf s client).2 == 1, stBusy), (!zeroAt req 1 3 || field req 4 4 != 0xFFFFFFFF, stRange)] ++
    attrChecks s client attr [] ++ createChecks s ⟨1, client, 0, attr, [], false⟩) s (createCargo client attr)

def freeEffect (client : Nat) (req : Bytes) : State → Effect := fun s =>
  onCargo client req (fun _ _ => [(manifestNames s (field req 4 4) || holdsImage s (field req 4 4), stState)])
    (fun i _ _ => freeCargo client i) s

def pinEffect (client : Nat) (req : Bytes) : State → Effect := fun s =>
  onCargo client req (fun i c =>
    let first := field req 8 4
    let n := if field req 12 4 = 0 then c.pageCount - first else field req 12 4
    let had := (s.mem.cache.filter (fun f => f.pinned)).length
    let inside := (s.mem.cache.filter (fun f => f.pinned && f.cargo == i && first ≤ f.page && f.page < first + n)).length
    [broken c, notCached c, (decide (setting s 0x3502 0 * cacheCapacity s < (had + n - inside) * 100), stCapacity)])
    (fun i _ ps s => setProgress client (progressOf s client).1 1 (workOn client (ps.map (fun p => (i, p, true))) s)) s

def unpinEffect (client : Nat) (req : Bytes) : State → Effect := fun s =>
  onCargo client req (fun _ c => [broken c, notCached c])
    (fun i _ ps s => setProgress client (progressOf s client).1 2
      (ps.foldl (fun s p => modFrame i p (fun f => { f with pinned := false }) s) s)) s

def setActionsEffect (client : Nat) (req : Bytes) : State → Effect := fun s =>
  let attr := slice req 16 48
  onCargo client req (fun _ c =>
    [(slice attr 0 22 != slice c.attr 0 22 || slice attr 28 8 != slice c.attr 28 8 || slice attr 40 8 != slice c.attr 40 8, stRange)] ++
    attrChecks s client attr [broken c, (manifestReads s (field req 4 4), stState)])
    (fun i _ _ s => setProgress client (progressOf s client).1 2 (modCargo i (fun c => { c with attr := attr }) s)) s

def flushEffect (client : Nat) (req : Bytes) : State → Effect := fun s =>
  onCargo client req (fun _ c => [broken c, notCached c])
    (fun i _ ps s => setProgress client (progressOf s client).1 1 (workOn client (ps.map (fun p => (i, p, false))) s)) s

def markEffect (client : Nat) (req : Bytes) : State → Effect := fun s =>
  onCargo client req (fun _ c => [broken c, notCached c])
    (fun i _ ps s => setProgress client (progressOf s client).1 2 (ps.foldl (fun s p => markPage i p s) s)) s

/-- A request to 2510.00 by its operation code (R276). -/
def cargoEffect (client : Nat) (req : Bytes) (s : State) : Effect :=
  match field req 0 1 with
  | 1 => createEffect client req s
  | 2 => freeEffect client req s
  | 3 => pinEffect client req s
  | 4 => unpinEffect client req s
  | 5 => setActionsEffect client req s
  | 6 => flushEffect client req s
  | 7 => markEffect client req s
  | _ => checked [((progressOf s client).2 == 1, stBusy), (true, stRange)] s id

/-- Zeroing, pinning or flushing ends (R277), with every page of its range in the cache or written home; it fails otherwise or goes on. -/
def execCargoCommandDone (client : Nat) (ok : Bool) (s : State) : Outcome :=
  done (match progressOf s client with
    | (h, 1) =>
      if firmwareRuns s = false then s
      else
        let s := if ok then workOn client (kgetD [] s.mem.working client) s
          else { s with mem := { s.mem with working := kdel s.mem.working client } }
        if (kget s.mem.working client).isSome then s
        else
          let s := setProgress client h (if ok then 2 else 3) s
          match cargoOf s h with
          | some (i, _) => if ok then modCargo i (fun c => { c with zeroing := false }) s else s
          | none => s
    | _ => s)

/-- A write-home that was not admitted is retried at the next beat (R281). -/
def execWritehomeRetry (stack frame : Nat) (s : State) : Outcome :=
  done (match s.mem.cache.find? (fun f => f.stack == stack && f.frame == frame && f.dirty && f.retry.any (fun b => decide (b < s.beat.count))) with
    | some f => if powered s then (writeHomeFrame f s).1 else s
    | none => s)

/-! Patrol scrub (R268, R269). -/

/-- First counter of a controller's saggar counters: kind 0 partition, 1 stack, 2 package. -/
def saggarCounter (kind : Nat) : Nat := match kind with | 0 => 0x5420 | 1 => 0x5424 | _ => 0x5428

def breakCargo (i : Nat) : State → State := modCargo i (fun c => if c.state = 0 then c else { c with state := 2 })

/-- Records of a ledger page read as zero from then on; 2,048 records of 32 bytes stand in a page. -/
def zeroLedgerPage (page : Nat) (m : KMap Bytes) : KMap Bytes := m.filter (fun e => e.1 / 2048 != page)

/-- Records of the cargo table in one saggar page: 64 bytes each (R290). -/
def breakRecords (page : Nat) (s : State) : State :=
  { s with mem := { s.mem with cargoes := kmap (fun i c => if i / 1024 = page ∧ c.state ≠ 0 then { c with state := 2 } else c) s.mem.cargoes } }

/-- A route's stream is to take FLT_SAGGAR at its next close (R268). -/
def saggarHit (slot stream : Nat) (s : State) : State := { s with mem := { s.mem with saggarHits := s.mem.saggarHits ++ [(slot, stream)] } }

/-- What an uncorrectable saggar word does, by the owner of its page (R268). -/
def saggarLost (kind unit : Nat) (f : ScrubFinding) (s : State) : State :=
  let s := event evtSaggarUncorr (atInst unit) (le 4 f.frame ++ le 1 f.owner) (count (saggarCounter kind + 1) unit 1 s)
  match f.owner with
  | 0 => saggarHit f.which f.stream s
  | 1 => breakCargo f.which s
  | 2 =>
    { s with led := match f.which with
      | 0 => { s.led with command := zeroLedgerPage f.stream s.led.command }
      | 1 => { s.led with step := zeroLedgerPage f.stream s.led.step }
      | _ => { s.led with event := zeroLedgerPage f.stream s.led.event } }
  | _ => breakRecords f.which s

/-- The scrub periods that have begun since the beat count was 0: one each 3501.00 beats (R269). -/
def scrubPeriods (s : State) : Nat := s.beat.count / max 1 (setting s 0x3501 0) + 1

/-- A controller has read every saggar word of its region once, which it does once in each scrub period (R269). -/
def execScrubPass (kind unit : Nat) (findings : List ScrubFinding) (s : State) : Outcome :=
  let k := kind * 256 + unit
  done (if powered s = false ∨ scrubPeriods s ≤ kgetD 0 s.mem.scrubbed k then s
  else
    let s := findings.foldl (fun s f => if f.correctable then count (saggarCounter kind) unit 1 s else saggarLost kind unit f s) s
    count (saggarCounter kind + 2) unit 1 { s with mem := { s.mem with scrubbed := kput s.mem.scrubbed k (scrubPeriods s) } })

end Sys2Proof.Machine
end

