-- ==== Sys2Proof/Machine/Stream.lean ====
section
/-! DEFINITION. Transfers: descriptors cut into requests (R292-R298), buffer pairs (R299, R300), prefetches (R302-R304), write
generations and copy records (R305-R307), extents (R308, R309), drover accesses (R310, R311), and late and failed reads
(R285-R288). -/

namespace Sys2Proof.Machine

/-- The handle that stands for the TBF, or for no cargo. -/
def noHandle : Nat := 0xFFFFFFFF

/-- Request size of a tier (R295). -/
def requestSize (tier : Nat) : Nat := match tier with | 0 => 256 | 1 => 2048 | 2 => 4096 | 3 => 65536 | _ => 4096

/-- Record and cargo of a handle as a transfer meets it. -/
def cargoAt (s : State) (h : Nat) : Nat × Cargo := (h % 65536, kgetD Cargo.free s.mem.cargoes (h % 65536))

/-- The cargo side of a transfer: the destination of a write, the source otherwise. -/
def Descriptor.cargoHandle (d : Descriptor) : Nat := if d.kind = 1 then d.dest else d.source

def Descriptor.runAhead (d : Descriptor) : Bool := bit d.flags 1
def Descriptor.followsUpdate (d : Descriptor) : Bool := bit d.flags 2
def Descriptor.writeBehind (d : Descriptor) : Bool := bit d.flags 3
def Descriptor.closesHalf (d : Descriptor) : Bool := bit d.flags 0

/-- Rows as (source byte, destination byte, length). -/
def Descriptor.segments (d : Descriptor) : List (Nat × Nat × Nat) :=
  (List.range d.rows).map (fun r =>
    (d.sourceOffset + r * (if d.sourceStride = 0 then d.rowLength else d.sourceStride),
     d.destOffset + r * (if d.destStride = 0 then d.rowLength else d.destStride), d.rowLength))

/-- The part of one row that lies in each aligned block of `size` bytes, counted on the source or on the destination (R295). -/
def cutRow (size : Nat) (byDest : Bool) (toTbf : Bool) (row : Nat × Nat × Nat) : List Request :=
  let (a, b, n) := row
  let o := if byDest then b else a
  let k := if n = 0 then 0 else (o + n - 1) / size + 1 - o / size
  (List.range k).map (fun j =>
    let lo := max o ((o / size + j) * size)
    let hi := min (o + n) ((o / size + j + 1) * size)
    ⟨a + (lo - o), b + (lo - o), hi - lo, 0, [], if toTbf && hi == o + n then (64 - (b + n) % 64) % 64 else 0⟩)

def requestsOf (size : Nat) (d : Descriptor) : List Request := d.segments.flatMap (cutRow size (d.kind == 1) (d.kind == 0))

/-- Request size of a transfer: that of the home tier of its cargo (R295, R298). -/
def sizeFor (s : State) (d : Descriptor) : Nat := requestSize (cargoAt s d.cargoHandle).2.tier

/-- What a transfer costs its home unit (R298): whole blocks. -/
def costOf (size : Nat) (d : Descriptor) : Nat :=
  sumNat (d.segments.map (fun (a, b, n) =>
    let o := if d.kind = 1 then b else a
    if n = 0 then 0 else ((o + n - 1) / size + 1 - o / size) * size))

/-- A row leaves the source or destination extent (R308). -/
def leavesExtent (d : Descriptor) : Bool :=
  let outside (first pages o n : Nat) := pages != 0 && (o < first * pageBytes || (first + pages) * pageBytes < o + n)
  d.segments.any (fun (a, b, n) => outside d.sourceFirst d.sourcePages a n || outside d.destFirst d.destPages b n)

/-! Reserved places of the engine. -/

/-- A transfer joins the queue of an array's engine. -/
def enqueue (array slot : Nat) (origin : Origin) (d : Descriptor) (hold : Option (Nat × Nat)) (rs : List Request) (s : State) : State :=
  let tr := (slotOf s slot).train
  modEngine array (fun e => { e with
    queue := e.queue ++ [⟨e.nextId, slot, tr.attempt, tr.step, origin, d, hold, rs, [], 0, false, false, false⟩]
    nextId := e.nextId + 1 }) s

def enqueueDesc (array slot : Nat) (origin : Origin) (d : Descriptor) (hold : Option (Nat × Nat)) (s : State) : State :=
  enqueue array slot origin d hold (requestsOf (sizeFor s d) d) s

def findTransfer (e : Engine) (id : Nat) : Option Transfer := e.outstanding.find? (fun t => t.id == id)
def modTransfer (array id : Nat) (f : Transfer → Transfer) : State → State :=
  modEngine array (fun e => { e with outstanding := e.outstanding.map (fun t => if t.id == id then f t else t) })

/-! Copy records (R306). -/

def setCopies (f : List CopyRecord → List CopyRecord) (s : State) : State := { s with mem := { s.mem with copies := f s.mem.copies } }

/-- A write by another transfer to a destination clears its record. -/
def clearCopy (l : Landing) : State → State := setCopies (fun cs => cs.filter (fun c => c.landing != l))

/-- Where the data of a transfer land, as far as copy records keep it. -/
def landingsOf (array : Nat) (s : State) (t : Transfer) : List Landing :=
  match t.origin with
  | .refetch l => [l]
  | .window _ _ _ => [.staging array t.desc.destOffset]
  | .stash _ _ _ => [.staging array t.desc.destOffset]
  | _ =>
    if t.desc.kind = 0 then (if t.desc.pair = 0xFFFF then [] else [.half array (t.desc.pair % 32) t.half])
    else if t.desc.kind = 2 ∧ (cargoAt s t.desc.dest).2.tier = 0 then
      (t.desc.segments.flatMap (fun (_, b, n) => pagesOf b n)).eraseDups.map (fun p => .page (t.desc.dest % 65536) p)
    else []

def pageKey (i p : Nat) : Nat := i * 2 ^ 28 + p

/-- Record what a finished read found of its source pages. -/
def recordCopies (array : Nat) (t : Transfer) (s : State) : State :=
  let ls := landingsOf array s t
  ls.foldl (fun s l =>
    match t.origin with
    | .refetch _ => setCopies (fun cs => cs.map (fun c => if c.landing == l then
        { c with pages := t.generations.foldl (fun m e => kput m e.1 e.2) c.pages, waiting := false } else c)) s
    | _ => setCopies (fun cs => cs.filter (fun c => c.landing != l) ++ [⟨l, t.generations, t.desc, array, t.slot, 0, false, false⟩]) s) s

/-! Issue of transfers (R292, R296, R300, R302, R304, R312). -/

/-- The engine's queue has room: it holds 64 descriptors (R292). -/
def queueRoom (s : State) (array : Nat) : Bool := decide ((engineOf s array).queue.length < 64)

/-- Limits of R296 on an array: 48 transfers, drover accesses among them. -/
def arrayLimit : Nat := 48

def pairOf (e : Engine) (d : Descriptor) : Option (Nat × Pair) :=
  if d.pair = 0xFFFF then none else (kget e.pairs (d.pair % 32)).map (fun p => (d.pair % 32, p))

/-- A hold tag has completed at its station in this attempt (R302). -/
def holdClear (s : State) (slot : Nat) (hold : Option (Nat × Nat)) : Bool :=
  match hold with
  | none => true
  | some (tag, station) =>
    match routeOf s slot with
    | none => true
    | some r =>
      let x := stationOf s slot station
      let t := BitVec.ofNat 32 tag
      (r.station station).elim true (fun st => st.ops.zipIdx.all (fun o =>
        x.completed.contains (o.2, t) || x.skipped.contains (o.2, t)) && x.completed.any (fun c => c.2 == t))

/-- Write-behinds of an earlier step that have requests still to issue (R304). -/
def draining (e : Engine) (t : Transfer) : Bool :=
  (e.queue ++ e.outstanding).any (fun u => u.slot == t.slot && u.step < t.step && u.desc.writeBehind && u.requests.any (·.state == 0))

/-- The engine may work for a slot: it holds the array, and no handover is near (R312). -/
def engineFree (s : State) (array slot : Nat) : Bool :=
  holds s array slot && !(passes s array slot && 2 ≤ (slotOf s slot).beat.phase)

/-! The end of an MMO that cannot go on (R161, R175, R182). -/

/-- The completion record of an MMO (R182): 48 bytes into the array's ring. -/
def writeRecord (array : Nat) (b : Bytes) : State → State :=
  modArray array (fun x => { x with records := kput x.records (x.written % 1024) (padTo 48 b), written := x.written + 1 })

def completionRecord (s : State) (m : Mmo) (status cycles : Nat) : Bytes :=
  let flag (b : Bool) (k : Nat) := if b then 2 ^ k else 0
  le 4 m.tag.toNat ++ le 6 (stepOf s m.slot) ++ le 2 m.station ++ le 1 m.op ++ le 1 status ++
  le 1 (flag m.zeroFilled 4 + flag m.lengthApplied 3 + flag m.reordered 2 + flag m.autoK 1 + flag m.autoShape 0) ++
  le 1 (m.desc.order * 4 + m.desc.mode) ++ le 2 m.desc.mt ++ le 2 m.desc.nt ++ le 2 m.desc.kt ++ le 1 m.blocks.length ++
  le 1 m.slot ++ le 4 m.meff ++ le 4 m.keff ++ le 4 m.computed ++ le 4 m.skipped ++ le 4 cycles ++
  le 4 ((slotOf s m.slot).beat.count - m.issuedBeat)

/-- Transfers leave the engine's queue; those that have issued land without effect. -/
def dropTransfers (array : Nat) (mine : Transfer → Bool) : State → State :=
  modEngine array (fun e =>
    { e with
      queue := e.queue.filter (fun t => !mine t)
      outstanding := (e.outstanding.map (fun t => if mine t then
        { t with cancelled := true, requests := t.requests.map (fun q => if q.state = 0 then { q with state := 2 } else q) } else t)).filter
          (fun t => !(mine t && t.requests.all (fun q => q.state == 2))) })

/-- Fetches of an MMO's windows leave the engine's queue. -/
def dropWindows (array mmo : Nat) : State → State :=
  dropTransfers array (fun t => match t.origin with | .window m _ _ => m == mmo | _ => false)

/-- An MMO that has issued fails: its steps are abandoned and its blocks released without a drain, and it leaves its record. The spec
states no status for it: the code is a free value. -/
def abandonMmo (array n : Nat) (s : State) : State :=
  match kget (arrayOf s array).mmos n with
  | none => s
  | some m =>
    let s := writeRecord array (completionRecord s m (Config.freeNat (drawn s)) (s.clock - m.issuedAt)) (draw s)
    let s := modArray array (fun x => releaseBlocks m.slot (m.blocks.filter (fun b => kget x.owners (m.slot * 128 + b) == some n)) (drawn s)
      { x with mmos := kdel x.mmos n }) (draw s)
    dropWindows array n s

/-- The station at which a transfer's tag fails, where the transfer comes from an operation. -/
def failOrigin (array : Nat) (t : Transfer) (s : State) : State :=
  let drop (station op : Nat) (tag : Word) : State → State := fun s =>
    failTag t.slot station tag (leaveFlight t.slot station op tag s)
  match t.origin with
  | .move station op tag => drop station op tag s
  | .window mmo _ _ =>
    match kget (arrayOf s array).mmos mmo with
    | some m => drop m.station m.op m.tag (abandonMmo array mmo s)
    | none => s
  | .stash station _ tag => failTag t.slot station tag s
  | .drover core thread =>
    let n := core * 16 + thread
    modEngine array (fun e => { e with drovers := kput e.drovers n ⟨1, []⟩ })
      (match ((slotOf s t.slot).route.elim [] (fun r => r.stationsOn array)).find? (fun x => x.info.thread == thread) with
        | some x => failTag t.slot x.info.number (BitVec.ofNat 32 t.desc.tag) s
        | none => s)
  | .prefetch _ _ =>
    match (slotOf s t.slot).route with
    | some r => (r.plan.due.filter (fun d => ((BitVec.ofNat 32 t.desc.tag ^^^ d.value) &&& d.mask) == 0)).foldl
        (fun s d => failTag t.slot d.station (BitVec.ofNat 32 t.desc.tag) s) s
    | none => s
  | .refetch _ | .reload _ => s

/-- T3 pages that a transfer writes, as one store (R324). -/
def storePages (s : State) (d : Descriptor) : List Nat :=
  let c := cargoAt s d.dest
  if d.dest = noHandle ∨ c.2.tier ≠ 3 ∨ c.2.farCached = true then []
  else ((d.segments.flatMap (fun (_, b, n) => pagesOf b n)).eraseDups.filterMap (fun p => (pageOf s c.1 p).map (·.frame)))

def dropQueued (array id : Nat) : State → State := modEngine array (fun e => { e with queue := e.queue.filter (fun t => t.id != id) })

/-- The transfer at the head of the queue becomes outstanding: its extent checked, its buffer half taken, its store admitted. -/
def issueHead (array : Nat) (t : Transfer) (s : State) : State :=
  let e := engineOf s array
  let d := t.desc
  let s := dropQueued array t.id s
  if !d.runAhead && leavesExtent d then
    failOrigin array t (event evtExtent ⟨t.slot, 0xFF, array⟩ [] (count 0x5282 array 1 s))
  else
    let a := admitStore (cargoAt s d.dest).2.client (storePages s d) (d.source != noHandle && (cargoAt s d.source).2.tier == 2) s
    if a.2 = false then failOrigin array t a.1
    else
      let p := pairOf e d
      let half := p.elim 0 (fun q => q.2.fill)
      let base := p.elim 0 (fun q => (q.2.base + q.2.fill * q.2.half) * 4096)
      let t := { t with half := half, requests := t.requests.map (fun q => { q with dest := q.dest + base }) }
      let s := modEngine array (fun e => { e with
        outstanding := e.outstanding ++ [t]
        pairs := match p with
          | none => e.pairs
          | some (n, q) =>
            let fly := if half = 0 then (q.flying.1 + 1, q.flying.2) else (q.flying.1, q.flying.2 + 1)
            let tag := some (BitVec.ofNat 32 d.tag)
            let q' : Pair := { q with flying := fly }
            kput e.pairs n (if d.closesHalf then
              { q' with credits := q.credits - 1, fill := 1 - q.fill
                        closing := if half = 0 then (tag, q.closing.2) else (q.closing.1, tag) }
            else q') }) a.1
      let bytes := sumNat (d.segments.map (fun x => x.2.2))
      count 0x527A array 1 (count 0x527C array bytes (count 0x527D array (costOf (sizeFor s d) d) s))

def execTransferIssue (array : Nat) (s : State) : Outcome :=
  let e := engineOf s array
  done (match e.queue with
    | [] => s
    | t :: _ =>
      let pairFree := (pairOf e t.desc).elim true (fun q => 0 < q.2.credits)
      if e.outstanding.length < arrayLimit ∧ pairFree = true ∧ engineFree s array t.slot = true ∧ draining e t = false ∧
          holdClear s t.slot t.hold = true then issueHead array t s
      else s)

/-! Consumption (R307). -/

/-- What a consumption check finds: it may go on, it waits for a refetch, or its tag fails. -/
inductive Consume where
  | ok
  | wait
  | fail
  deriving DecidableEq, Repr

/-- Pages of a copy record whose source has been rewritten since, or was open. -/
def stalePages (s : State) (c : CopyRecord) : List Nat :=
  (c.pages.filter (fun e => e.2 != some (generationOf s (e.1 / 2 ^ 28) (e.1 % 2 ^ 28)))).map (·.1)

/-- A landed destination is checked before its first use (R307). -/
def consumeLanding (l : Landing) (s : State) : State × Consume :=
  match s.mem.copies.find? (fun c => c.landing == l) with
  | none => (s, .ok)
  | some c =>
    let put (f : CopyRecord → CopyRecord) (s : State) := setCopies (fun cs => cs.map (fun x => if x.landing == l then f x else x)) s
    if c.waiting then (s, .wait)
    else if c.checked then (s, .ok)
    else
      let stale := stalePages s c
      if stale.isEmpty then (put (fun x => { x with checked := true }) s, .ok)
      else if (cargoAt s c.desc.source).2.exact then
        if setting s 0x2606 0 ≤ c.refetched then
          (event evtPrefetchChurn ⟨c.slot, 0xFF, c.array⟩ [] (put (fun x => { x with checked := true }) s), .fail)
        else
          let s := count 0x527F c.array stale.length (put (fun x => { x with waiting := true, refetched := x.refetched + 1 }) s)
          let i := c.desc.source % 65536
          let base := match l with
            | .half a p h => (kget (engineOf s a).pairs p).elim 0 (fun q => (q.base + h * q.half) * 4096)
            | _ => 0
          let rs := ((requestsOf (sizeFor s c.desc) c.desc).filter (fun q => stale.contains (pageKey i (q.address / pageBytes)))).map
            (fun q => { q with dest := q.dest + base })
          (enqueue c.array c.slot (.refetch l) { c.desc with pair := 0xFFFF, flags := 2 } none rs s, .wait)
      else (count 0x527E c.array stale.length (put (fun x => { x with checked := true }) s), .ok)

/-- Several landings checked in turn: the first that does not go on decides. -/
def consumeAll (ls : List Landing) (s : State) : State × Consume :=
  ls.foldl (fun r l => match r.2 with | .ok => consumeLanding l r.1 | _ => r) (s, .ok)

/-! Requests (R295-R297, R303, R305, R306, R308, R309). -/

/-- A unit of memory as the outstanding limits count it: (class, number); class 0 partition, 1 stack, 2 package, 3 flash,
4 host window. -/
def unitOf (s : State) (i p : Nat) : Nat × Nat :=
  let c := kgetD Cargo.free s.mem.cargoes i
  if c.farCached then (1, cacheStack c p)
  else match c.tier with
    | 3 => (3, 0)
    | 4 => (4, 0)
    | t => (t, ((pageOf s i p).map (·.unit)).getD 0)

/-- Requests outstanding at a unit. -/
def requestsAt (s : State) (u : Nat × Nat) : Nat :=
  sumNat (s.engines.map (fun e => sumNat (e.2.outstanding.map (fun t =>
    (t.requests.filter (fun q => q.state == 1 &&
      unitOf s (t.desc.cargoHandle % 65536) ((if t.desc.kind = 1 then q.dest else q.address) / pageBytes) == u)).length))))

def unitLimit (s : State) (cls : Nat) : Nat :=
  match cls with | 0 => 128 | 1 => 512 | 2 => 32 | 3 => 256 | _ => setting s 0x3603 0

/-- A read waits for earlier writes of its array to the same granule (R297). -/
def granuleBusy (e : Engine) (t : Transfer) (q : Request) : Bool :=
  t.desc.kind != 1 && e.outstanding.any (fun u => u.desc.kind != 0 && u.desc.dest == t.desc.source && u.id < t.id &&
    u.requests.any (fun w => w.state == 1 && w.dest / 64 ≤ (q.address + q.length - 1) / 64 && q.address / 64 ≤ (w.dest + w.length - 1) / 64))

/-- A follows-update request may go (R303). -/
def updateClear (s : State) (t : Transfer) (i p : Nat) : Bool :=
  let tr := (slotOf s t.slot).train
  !t.desc.followsUpdate || t.step < tr.step || tr.uPhase == 2 ||
  (tr.uPhase == 1 && kgetD 0 tr.uGenerations (pageKey i p) < generationOf s i p)

def setRequest (array id k : Nat) (f : Request → Request) : State → State :=
  modTransfer array id (fun t => { t with requests := t.requests.zipIdx.map (fun e => if e.2 = k then f e.1 else e.1) })

/-- The generation of a source page at the issue of its first request, or an open mark (R306). -/
def noteGeneration (array id i p : Nat) (s : State) : State :=
  let g := if s.mem.openPages.contains (i, p) then none else some (generationOf s i p)
  modTransfer array id (fun t => { t with
    generations := if (kget t.generations (pageKey i p)).isSome then t.generations else kput t.generations (pageKey i p) g }) s

def tbfBytes (s : State) (array a n : Nat) : Bytes := loadBytes (arrayOf s array).tbf a n

/-- What a read finds: the cached bytes of a page in the cache, the home bytes of one whose refill is under way. -/
def sample (s : State) (i a n : Nat) : Bytes :=
  if (frameOf s i (a / pageBytes)).any (·.refilling) then loadBytes s.mem.home (i * cargoSpan + a) n else cargoBytes s i a n

/-- The engine lets a transfer go. -/
def forget (array id : Nat) : State → State := modEngine array (fun e => { e with outstanding := e.outstanding.filter (fun u => u.id != id) })

/-- Pages that a transfer has begun to write and will not go on writing are closed (R305). -/
def closePages (t : Transfer) (s : State) : State :=
  let j := t.desc.dest % 65536
  let left (p : Nat) : Bool := s.mem.openPages.contains (j, p) &&
    (t.desc.kind == 2 || !t.requests.any (fun q => q.state == 1 && q.dest / pageBytes == p))
  if t.desc.kind = 0 then s
  else ((t.requests.map (fun q => q.dest / pageBytes)).eraseDups.filter left).foldl (fun s p =>
    raiseGeneration j p { s with mem := { s.mem with openPages := s.mem.openPages.filter (· != (j, p)) } }) s

/-- A transfer is given up: its requests not yet issued are dropped, and it stays until those that have issued have landed. -/
def giveUp (array : Nat) (t : Transfer) (s : State) : State :=
  let s := closePages t s
  if t.requests.any (fun q => q.state == 1) then
    modTransfer array t.id (fun t => { t with cancelled := true, requests := t.requests.map (fun q => if q.state = 0 then { q with state := 2 } else q) }) s
  else forget array t.id s

/-- Whoever placed a transfer goes on (R129, R216, R300, R311). The window of a fetch that ran ahead into suppressed requests is not there
yet: a demand read fetches it (R308). -/
def originDone (array : Nat) (t : Transfer) (s : State) : State :=
  let s := match t.origin with
    | .move station op tag => modStation t.slot station (fun x =>
        { x with flight := x.flight.map (fun f => if f.op == op && f.tag == tag then { f with finished := true } else f) }) s
    | .window mmo operand position => if t.failed then s else modArray array (fun x => { x with
        mmos := kmod x.mmos mmo (fun m => { m with
          landed := m.landed ++ [(operand, position)]
          kept := if m.desc.order = 2 then
              kput m.kept (operand * 2 ^ 32 + position) (loadBytes x.tbf t.desc.destOffset (t.desc.rows * t.desc.destStride)) else m.kept }) }) s
    | .stash station stream tag => modTrain t.slot (fun tr => { tr with
        stash := tr.stash.map (fun e => if e.station == station && e.stream == stream && e.tag == tag then { e with landed := true } else e) }) s
    | .drover core thread => modEngine array (fun e => { e with
        drovers := kput e.drovers (core * 16 + thread) ⟨1, (t.requests.flatMap (·.data))⟩ }) s
    | .reload k => modServe t.slot (fun x => { x with reloading := x.reloading.filter (· != (array, k)) }) s
    | _ => s
  match (kget (engineOf s array).pairs (t.desc.pair % 32)), t.desc.pair != 0xFFFF with
  | some q, true =>
    let fly := if t.half = 0 then (q.flying.1 - 1, q.flying.2) else (q.flying.1, q.flying.2 - 1)
    let left := if t.half = 0 then fly.1 else fly.2
    let tag := if t.half = 0 then q.closing.1 else q.closing.2
    match tag, left == 0 with
    | some w, true =>
      let entry : Entry := ⟨w, [], (q.base + t.half * q.half) * 4096, q.half * 4096, [], 1, false, 0, some (array, t.desc.pair % 32, t.half)⟩
      let q' : Pair := { q with flying := fly, closing := if t.half = 0 then (none, q.closing.2) else (q.closing.1, none) }
      let s := modEngine array (fun e => { e with pairs := kput e.pairs (t.desc.pair % 32) q' }) s
      modStation q.slot q.station (fun x => { x with queues := kput x.queues q.input (kgetD [] x.queues q.input ++ [entry]) }) s
    | _, _ => modEngine array (fun e => { e with pairs := kput e.pairs (t.desc.pair % 32) { q with flying := fly } }) s
  | _, _ => s

/-- A finished transfer leaves the engine. One that was cancelled or resolved has nothing more to say (R287, R312). -/
def finishTransfer (array : Nat) (t : Transfer) (s : State) : State :=
  if t.cancelled || t.resolved then forget array t.id s else originDone array t (recordCopies array t (forget array t.id s))

/-- After a request has landed, been acknowledged or been suppressed, the transfer may be over. -/
def finishIfDone (array id : Nat) (s : State) : State :=
  match findTransfer (engineOf s array) id with
  | some t => if t.requests.all (fun q => q.state == 2) then finishTransfer array t s else s
  | none => s

/-- The write side of a request: bytes into a cargo, out to host memory for a TH cargo. -/
def applyWrite (i offset : Nat) (data : Bytes) (s : State) : State :=
  let c := kgetD Cargo.free s.mem.cargoes i
  if c.tier = 4 ∧ c.farCached = false then emit (.hostWrite (c.busAddress + offset) data) s else writeData i offset data s

/-- Late actions resolve a read that is late or has failed (R287). -/
def noteLate (t : Transfer) (c : Cargo) (action : Nat) (s : State) : State :=
  let k := (t.slot, BitVec.ofNat 32 t.desc.tag, t.desc.source)
  if s.mem.noted.contains k then s
  else event evtCargoLate ⟨t.slot, c.client, 0xFFFF⟩ (le 1 action ++ le 4 t.desc.source ++ le 4 t.desc.tag)
    { s with mem := { s.mem with noted := s.mem.noted ++ [k] } }

/-- Bytes put where a read delivers them: the TBF of its array, or the destination cargo of a copy. -/
def deliver (array : Nat) (t : Transfer) (q : Request) (data : Bytes) (s : State) : State :=
  match t.origin with
  | .drover _ _ => s
  | _ =>
    if t.desc.kind = 0 then
      modArray array (fun x => { x with tbf := storeBytes x.tbf q.dest (data ++ zeroBytes q.pad) }) s
    else applyWrite (t.desc.dest % 65536) q.dest data s

/-- The MMO restarts on the fallback cargo (R288): its steps are abandoned, nothing of them is drained. -/
def restartMmo (array mmo operand : Nat) : State → State :=
  modArray array (fun x => { x with mmos := kmod x.mmos mmo (fun m =>
    { m with position := 0, pass := 0, computed := 0, skipped := 0, written := [], drained := [], landed := [], zeroed := [], kept := []
             fallback := some operand }) })

/-- Two transfers read the same source range. -/
def sameRange (a b : Descriptor) : Bool :=
  a.source == b.source && a.sourceOffset == b.sourceOffset && a.sourceStride == b.sourceStride && a.rows == b.rows && a.rowLength == b.rowLength

/-- Data of another source range land where a copy record stands: what it records is overwritten (R287, R306). -/
def clearOverwritten (array : Nat) (t : Transfer) (q : Request) (s : State) : State :=
  let ls := if t.desc.kind = 2 then [.page (t.desc.dest % 65536) (q.dest / pageBytes)] else landingsOf array s t
  setCopies (fun cs => cs.filter (fun c => !ls.contains c.landing || sameRange c.desc t.desc)) s

/-- The older copy of a late page (R287): the out-of-date frame of the page, or the bytes that the buffer still holds of it. -/
def olderCopy (array : Nat) (s : State) (t : Transfer) (q : Request) : Option Bytes :=
  let (i, c) := cargoAt s t.desc.source
  let p := q.address / pageBytes
  match frameOf s i p with
  | some f =>
    if f.valid && (frameOld s c f || f.refilling) then some (loadBytes s.mem.cached (i * cargoSpan + q.address) q.length) else none
  | none =>
    if (landingsOf array s t).any (fun l => s.mem.copies.any (fun k => k.landing == l && sameRange k.desc t.desc && (kget k.pages (pageKey i p)).isSome))
    then some (tbfBytes s array q.dest q.length) else none

/-- A late or failed read is resolved: whoever placed it goes on, and what lands for it afterwards is discarded (R287). A copy has written
its pages with that. -/
def settleRead (array : Nat) (t : Transfer) (s : State) : State :=
  let s := setCopies (fun cs => cs.map (fun c => if (landingsOf array s t).contains c.landing then { c with checked := true, waiting := false } else c)) s
  let s := if t.desc.kind = 2 then closePages t { s with mem := { s.mem with
      openPages := s.mem.openPages ++ (t.requests.map (fun q => (t.desc.dest % 65536, q.dest / pageBytes))).eraseDups.filter (fun e => !s.mem.openPages.contains e) } } else s
  originDone array t (if t.requests.any (fun q => q.state == 1) then
    modTransfer array t.id (fun t => { t with resolved := true, requests := t.requests.map (fun q => if q.state = 0 then { q with state := 2 } else q) }) s
  else forget array t.id s)

/-- Resolve a late or failed read by its cargo's late action. -/
def resolveRead (array : Nat) (t : Transfer) (failed : Bool) (s : State) : State :=
  let (_, c) := cargoAt s t.desc.source
  let waitCase (s : State) : State :=
    let s := count 0x5438 c.client 1 s
    if failed then failOrigin array t (giveUp array t s) else s
  let late := t.requests.filter (fun q => t.requests.any (fun x => x.state != 2 && x.address / pageBytes == q.address / pageBytes))
  match c.lateAction with
  | 1 =>
    let found := late.map (fun q => (q, olderCopy array s t q))
    if found.any (fun e => e.2.isNone) then waitCase s
    else noteLate t c 1 (count 0x5439 c.client 1 (settleRead array t (found.foldl (fun s e => deliver array t e.1 (e.2.getD []) s) s)))
  | 2 => noteLate t c 2 (count 0x543A c.client 1 (settleRead array t (late.foldl (fun s q => deliver array t q (zeroBytes q.length) s) s)))
  | 3 =>
    match t.origin with
    | .window mmo operand _ => noteLate t c 3 (count 0x543B c.client 1 (restartMmo array mmo operand (dropWindows array mmo s)))
    | _ => waitCase s
  | _ => waitCase s

/-- A read fails (R286). -/
def failRead (array : Nat) (t : Transfer) (s : State) : State :=
  let (i, c) := cargoAt s t.desc.source
  let s := (t.requests.filter (fun q => q.state == 1)).foldl (fun s q => refillFail i (q.address / pageBytes) s) s
  resolveRead array t true (event evtCargoFail ⟨t.slot, c.client, 0xFFFF⟩ (le 4 t.desc.source) (count 0x543C c.client 1 s))

/-! The partition crossbar (R26, R109). -/

/-- The partition at which a page of a cargo stands, by logical array; none where the page stands in another tier. -/
def partitionOf (s : State) (i p : Nat) : Option Nat :=
  let c := kgetD Cargo.free s.mem.cargoes i
  if c.tier = 0 then (pageOf s i p).map (·.unit) else none

/-- Partitions that a request reaches. -/
def partitionsOf (s : State) (t : Transfer) (q : Request) : List Nat :=
  (if t.desc.kind = 1 then [] else (partitionOf s (t.desc.source % 65536) (q.address / pageBytes)).toList) ++
  (if t.desc.kind = 0 then [] else (partitionOf s (t.desc.dest % 65536) (q.dest / pageBytes)).toList)

/-- An array's crossbar reaches the partitions of its own cluster alone (R26). -/
def inCluster (s : State) (array : Nat) (t : Transfer) (q : Request) : Bool :=
  (partitionsOf s t q).all (fun n => clusterOf n == clusterOf array)

/-- An array has a request that waits for a partition. -/
def waitsAt (s : State) (n array : Nat) : Bool :=
  (engineOf s array).outstanding.any (fun t => (t.requests.find? (fun q => q.state == 0)).any (fun q => (partitionsOf s t q).contains n))

/-- The controller of a partition moves two granules per cycle; its sites take turns in a round robin (R109). A site that must wait for its
granule counts one cycle of WAIT_GRANT. -/
def grantAt (n array : Nat) (s : State) : State × Bool :=
  let port := kgetD PartitionPort.idle s.mem.ports n
  let p : PartitionPort := if port.cycle = s.clock then port else { port with cycle := s.clock, moved := 0 }
  let turn (x : Nat) : Nat := (x + 256 - p.next) % 256
  let ahead := p.waiting.any (fun x => x != array && waitsAt s n x && decide (turn x < turn array))
  let put (p : PartitionPort) (s : State) : State := { s with mem := { s.mem with ports := kput s.mem.ports n p } }
  if p.moved < 2 ∧ ahead = false then
    (put { p with moved := p.moved + 1, next := (array + 1) % 256, waiting := p.waiting.filter (· != array) } s, true)
  else
    let counted := port.cycle == s.clock && port.waiting.contains array
    (put { p with waiting := if p.waiting.contains array then p.waiting else p.waiting ++ [array] } (if counted then s else count 0x5204 array 1 s), false)

/-- Grants for every partition that a request reaches. -/
def grantAll (ns : List Nat) (array : Nat) (s : State) : State × Bool :=
  ns.foldl (fun r n => if r.2 then grantAt n array r.1 else r) (s, true)

/-- A read of a page of a T0 cargo that a copy has filled is checked before its first use (R307). -/
def checkPage (s : State) (t : Transfer) (q : Request) : State × Consume :=
  let i := t.desc.source % 65536
  match t.desc.kind, t.origin with
  | 1, _ => (s, .ok)
  | _, .refetch _ => (s, .ok)
  | _, _ => if (kgetD Cargo.free s.mem.cargoes i).tier = 0 then consumeLanding (.page i (q.address / pageBytes)) s else (s, .ok)

/-- One request goes to its controller: a read is sampled there, a write applied (R295-R309). A read that waits for a refill of a TH page
takes its data as that lands. -/
def serveRequest (array : Nat) (t : Transfer) (k : Nat) (q : Request) (s : State) : State :=
  let d := t.desc
  let outside := d.runAhead && d.sourcePages != 0 && (q.address < d.sourceFirst * pageBytes || (d.sourceFirst + d.sourcePages) * pageBytes < q.address + q.length)
  let (i, c) := cargoAt s d.source
  let p := q.address / pageBytes
  let (j, cd) := cargoAt s d.dest
  let pd := q.dest / pageBytes
  let drop (s : State) := finishIfDone array t.id (setRequest array t.id k (fun q => { q with state := 2 })
    (modTransfer array t.id (fun t => { t with failed := true }) s))
  let fetched (n : Nat) (x : Cargo) (page : Nat) : Bool := !x.farCached || fetchesHome s n page
  if d.kind ≠ 1 ∧ outside = true then drop (count 0x5280 array 1 s)
  else if (d.kind ≠ 1 ∧ c.state = 2) ∨ (d.kind ≠ 0 ∧ cd.state = 2) then drop (saggarHit t.slot 0xFFFF s)
  else if d.kind ≠ 1 ∧ unmapped s i p = true ∧ (frameOf s i p).isNone = true then
    if d.runAhead then drop (count 0x5281 array 1 s) else failRead array t s
  else if d.kind ≠ 1 ∧ hostAway s i p = true ∧ fetched i c p = true then failRead array t s
  else if d.kind ≠ 0 ∧ cd.tier = 4 ∧ (unmapped s j pd = true ∨ (hostAway s j pd = true ∧ fetched j cd pd = true)) then
    failOrigin array t (giveUp array t s)
  else
    let r := if d.kind ≠ 1 ∧ c.farCached = true then cacheAccess i p s else (s, true)
    let r := if r.2 = true ∧ d.kind ≠ 0 ∧ cd.farCached = true then cacheAccess j pd r.1 else r
    let page := ((pageOf s j pd).map (·.frame)).getD 0
    if r.2 = false ∨ (d.kind ≠ 0 ∧ cd.tier = 3 ∧ cd.farCached = false ∧ pageAdmitted s page = false) then r.1
    else
      let s := count 0x527B array 1 r.1
      let s := if d.kind = 1 then s else noteGeneration array t.id i p s
      let data := match d.kind, t.origin with
        | 1, .drover _ _ => q.data
        | 1, _ => tbfBytes s array q.address q.length
        | _, _ => if c.tier = 4 && (!c.farCached || (frameOf s i p).any (·.refilling)) then [] else sample s i q.address q.length
      let s := if d.kind = 1 then applyWrite j q.dest data (clearCopy (.page j pd) s) else s
      let s := setRequest array t.id k (fun q => { q with state := 1, data := data }) s
      let last := d.kind = 1 && d.writeBehind && (t.requests.zipIdx.all (fun e => e.2 == k || e.1.state != 0))
      if last then
        match t.origin with
        | .move station op tag => modStation t.slot station (fun x =>
            { x with flight := x.flight.map (fun f => if f.op == op && f.tag == tag then { f with finished := true } else f) }) s
        | _ => s
      else s

/-- The engine issues the next request of a transfer, unless a limit, a granule, an update, the crossbar or a refetch holds it. -/
def execRequestIssue (array transfer : Nat) (s : State) : Outcome :=
  let e := engineOf s array
  done (match findTransfer e transfer with
    | none => s
    | some t =>
      match t.requests.zipIdx.find? (fun x => x.1.state == 0) with
      | none => s
      | some (q, k) =>
        let i := t.desc.cargoHandle % 65536
        let p := (if t.desc.kind = 1 then q.dest else q.address) / pageBytes
        let u := unitOf s i p
        if requestsAt s u < unitLimit s u.1 ∧ granuleBusy e t q = false ∧ inCluster s array t q = true ∧
            (t.desc.kind = 1 ∨ updateClear s t i p = true) then
          match checkPage s t q with
          | (s, .wait) => s
          | (s, .fail) => failOrigin array t (giveUp array t s)
          | (s, .ok) =>
            let g := grantAll (partitionsOf s t q) array s
            if g.2 then serveRequest array t k q g.1 else g.1
        else s)

/-- A request of a transfer into a page is acknowledged: the first opens the page, the last raises its generation (R305). -/
def acknowledgePage (t : Transfer) (request j p : Nat) (s : State) : State :=
  let more := t.requests.zipIdx.any (fun e => e.2 != request && e.1.state != 2 && e.1.dest / pageBytes == p)
  let s := { s with mem := { s.mem with
    openPages := if more then (if s.mem.openPages.contains (j, p) then s.mem.openPages else s.mem.openPages ++ [(j, p)])
      else s.mem.openPages.filter (· != (j, p)) } }
  if more then s else raiseGeneration j p s

/-- A read's request lands: its bytes reach their destination unless the read was cancelled or resolved (R287, R294, R312). A refill under
way lands with it (R280). `hostData` is what host memory answers for a TH cargo: the request's bytes, or the whole page that a refill
fetches. -/
def execRequestLand (array transfer request : Nat) (hostData : Bytes) (s : State) : Outcome :=
  done (match findTransfer (engineOf s array) transfer with
    | none => s
    | some t =>
      match t.requests[request]? with
      | none => s
      | some q =>
        if q.state ≠ 1 ∨ t.desc.kind = 1 then s
        else
          let (i, c) := cargoAt s t.desc.source
          let p := q.address / pageBytes
          let s := if c.farCached then refillLand i p (if c.tier = 4 then some hostData else none) s else s
          let data := if c.tier = 4 ∧ c.farCached = false then padTo q.length hostData
            else if c.tier = 4 ∧ q.data = [] then cargoBytes s i q.address q.length else q.data
          let s := if t.cancelled || t.resolved then s else deliver array t q data (clearOverwritten array t q s)
          let s := if t.desc.kind = 2 ∧ t.resolved = false ∧ t.cancelled = false then acknowledgePage t request (t.desc.dest % 65536) (q.dest / pageBytes) s else s
          finishIfDone array transfer (setRequest array transfer request (fun q => { q with state := 2, data := data }) s))

/-- A write's request is acknowledged. The first acknowledgement in a page opens it, the last raises its generation (R305). A copy
is acknowledged as its data land. -/
def execWriteAcknowledge (array transfer request : Nat) (s : State) : Outcome :=
  done (match findTransfer (engineOf s array) transfer with
    | none => s
    | some t =>
      match t.requests[request]? with
      | none => s
      | some q =>
        if q.state ≠ 1 ∨ t.desc.kind ≠ 1 then s
        else
          let j := t.desc.dest % 65536
          let p := q.dest / pageBytes
          let s := acknowledgePage t request j p s
          finishIfDone array transfer (setRequest array transfer request (fun q => { q with state := 2 }) s))

/-- A drover thread's load or store of 1 to 256 bytes of a cargo of the route's manifest (R311). -/
def execDroverAccess (array core thread slot : Nat) (store : Bool) (handle offset length : Nat) (data : Bytes) (tag : Word)
    (s : State) : Outcome :=
  let e := engineOf s array
  let n := core * 16 + thread
  let mine := e.outstanding.filter (fun t => match t.origin with | .drover _ _ => true | _ => false)
  done (match routeOf s slot with
    | none => s
    | some r =>
      match r.manifest.find? (fun m => m.handle == handle && (if store then m.write else m.read)) with
      | none => s
      | some m =>
        if 2 ≤ core ∨ 16 ≤ thread ∨ length = 0 ∨ 256 < length ∨ (kgetD ⟨0, []⟩ e.drovers n).state = 2 ∨
            arrayLimit ≤ e.outstanding.length ∨ setting s 0x3601 0 ≤ mine.length ∨ engineFree s array slot = false then s
        else
          let pages := if m.pages = 0 then (cargoAt s handle).2.pageCount - m.first else m.pages
          let d : Descriptor := ⟨if store then 1 else 0, 0, 1, length, if store then noHandle else handle, if store then handle else noHandle,
            if store then 0 else offset, if store then offset else 0, 0, 0, tag.toNat, 0xFFFF,
            if store then 0 else m.first, if store then 0 else pages, if store then m.first else 0, if store then pages else 0⟩
          let tr := (slotOf s slot).train
          let t : Transfer := ⟨e.nextId, slot, tr.attempt, tr.step, .drover core thread, d, none,
            [⟨d.sourceOffset, d.destOffset, length, 0, padTo length data, 0⟩], [], 0, false, false, false⟩
          let s := modEngine array (fun e => { e with nextId := e.nextId + 1, drovers := kput e.drovers n ⟨2, []⟩ }) (count 0x5288 array 1 s)
          let s := modEngine array (fun e => { e with queue := t :: e.queue }) s
          issueHead array t s)

/-- A route's read of a cargo ends in an error: an uncorrectable page, or a completion error or timeout (R286). -/
def execCargoReadFail (array transfer : Nat) (s : State) : Outcome :=
  done (match findTransfer (engineOf s array) transfer with
    | none => s
    | some t => if t.desc.kind ≠ 1 ∧ t.resolved = false ∧ t.cancelled = false ∧ 3 ≤ (cargoAt s t.desc.source).2.tier then failRead array t s else s)

/-- A transfer with a request of tier TH that waits in the host port, of its reads or of its writes. -/
def waitsInPort (s : State) (t : Transfer) (write : Bool) : Bool :=
  let c := (cargoAt s (if write then t.desc.dest else t.desc.source)).2
  t.desc.kind != (if write then 0 else 1) && c.tier == 4 && !t.resolved && !t.cancelled &&
  t.requests.any (fun q => q.state == 1 && (!c.farCached || (!write && q.data.isEmpty)))

/-- A transfer that waits in the host port fails (R286, R468, R471). -/
def failInPort (array id : Nat) (s : State) : State :=
  match findTransfer (engineOf s array) id with
  | none => s
  | some t =>
    if waitsInPort s t false then failRead array t s
    else if waitsInPort s t true then failOrigin array t (forget array id s)
    else s

/-- The link of the host port is down: the requests of tier TH that wait there fail (R468, R471). -/
def failHostRequests (s : State) : State :=
  s.engines.foldl (fun s e => e.2.outstanding.foldl (fun s t => failInPort e.1 t.id s) s) s

/-- The late point of a due beat has passed: that beat is over, or the present one has come to cycle P − 64 − m, counted from its opening
(R285). -/
def pastLate (s : State) (slot margin now due : Nat) : Bool :=
  let b := (slotOf s slot).beat
  due < now || (due == now && b.phase != 0 && decide (b.opened + (b.period - 64 - margin) ≤ s.clock))

/-- The step that a transfer's tag belongs to: a prefetch of a negative issue beat serves the step after the one in which it issues (R302). -/
def tagStep (t : Transfer) : Nat := match t.origin with | .prefetch _ true => t.step + 1 | _ => t.step

/-- The late point of a transfer's tag has passed (R285): in a serving route the due beats follow the entry beat of the tag's request
(R427). A tag with no due entry is never late. -/
def dueNow (s : State) (t : Transfer) (margin : Nat) : Bool :=
  let tag := BitVec.ofNat 32 t.desc.tag
  let b := (slotOf s t.slot).beat
  let step := (slotOf s t.slot).train.step
  match routeOf s t.slot with
  | none => false
  | some r =>
    let mine := r.plan.due.filter (fun d => ((tag ^^^ d.value) &&& d.mask) == 0)
    if r.training then
      mine.any (fun d => decide (tagStep t < step) || (tagStep t == step && pastLate s t.slot margin b.offset d.beat))
    else mine.any (fun d => (serveOf s t.slot).requests.any (fun q =>
      q.line == tagMicro tag && q.phase == 1 && pastLate s t.slot margin b.count (q.entry + d.beat)))

/-- The late margin of a cargo in cycles (R272). -/
def lateMargin (s : State) (c : Cargo) : Nat := if c.margin = 0 then setting s 0x2507 0 else c.margin

/-- The late point of a transfer's read has passed without all its granules (R285). Reads from T0 always wait. -/
def execLatePoint (array transfer : Nat) (s : State) : Outcome :=
  done (match findTransfer (engineOf s array) transfer with
    | none => s
    | some t =>
      let c := (cargoAt s t.desc.source).2
      if t.desc.kind = 1 ∨ c.tier = 0 ∨ t.resolved = true ∨ t.cancelled = true ∨
          dueNow s t (lateMargin s c) = false then s
      else
        let s := match t.origin with | .prefetch _ _ => count 0x5283 array 1 s | _ => s
        resolveRead array t false s)

/-! Voids (R312). -/

/-- A void drops the queued transfers of a slot, discards the data of its reads, completes its issued writes, and returns its
buffer pairs to two credits. -/
def voidTransfers (slot : Nat) (s : State) : State :=
  let s := s.engines.foldl (fun s e => (e.2.outstanding.filter (fun t => t.slot == slot && !t.cancelled)).foldl (fun s t => closePages t s) s) s
  { s with engines := s.engines.map (fun e => (e.1, { e.2 with
      queue := e.2.queue.filter (fun t => t.slot != slot)
      outstanding := (e.2.outstanding.map (fun t =>
        if t.slot = slot then
          { t with cancelled := true, requests := t.requests.map (fun q => if q.state = 0 then { q with state := 2 } else q) } else t)).filter
            (fun t => !(t.slot == slot && t.requests.all (fun q => q.state == 2)))
      pairs := kmap (fun _ q => if q.slot = slot then { q with credits := 2, fill := 0, flying := (0, 0), closing := (none, none) } else q) e.2.pairs })) }

/-- A cancelled transfer leaves the buffer half that it was filling; a half that it would have closed is free again (R300). -/
def leaveHalf (array : Nat) (t : Transfer) : State → State :=
  if t.desc.pair = 0xFFFF then id
  else modEngine array (fun e => { e with pairs := kmod e.pairs (t.desc.pair % 32) (fun q =>
    let fly := if t.half = 0 then (q.flying.1 - 1, q.flying.2) else (q.flying.1, q.flying.2 - 1)
    let closing := if t.half = 0 then q.closing.1 else q.closing.2
    if (if t.half = 0 then fly.1 else fly.2) = 0 ∧ closing.isSome then
      { q with flying := fly, credits := min 2 (q.credits + 1), closing := if t.half = 0 then (none, q.closing.2) else (q.closing.1, none) }
    else { q with flying := fly }) })

/-- The moves of a slot's operations on the tags that `mine` names are cancelled (R436). -/
def cancelMoves (slot : Nat) (mine : Word → Bool) (s : State) : State :=
  let hit (t : Transfer) : Bool := t.slot == slot && (match t.origin with | .move _ _ tag => mine tag | _ => false)
  s.engines.foldl (fun s e =>
    let s := (e.2.outstanding.filter (fun t => hit t && !t.cancelled)).foldl (fun s t => leaveHalf e.1 t (closePages t s)) s
    dropTransfers e.1 hit s) s

/-- A buffer half is free again once its entry has been removed (R300). -/
def returnHalf (h : Option (Nat × Nat × Nat)) (s : State) : State :=
  match h with
  | some (a, p, _) => modEngine a (fun e => { e with pairs := kmod e.pairs p (fun q => { q with credits := min 2 (q.credits + 1) }) }) s
  | none => s

end Sys2Proof.Machine
end

