-- ==== Sys2Proof/Machine/Firing.lean ====
section
/-! DEFINITION. Stations and firing: arrival of tiles (R121-R124), matching and the firing rule (R126, R127), credits (R128),
completion (R129), counters and run-time bounds (R130, R131), steering and merge units (R132-R135), join buffers (R136-R138), the
flush of a void (R139), and restart of stopped streams (R123). -/

namespace Sys2Proof.Machine

/-! Routes and stations. -/

/-- The stream that feeds a queue of a station of this module. -/
def Route.feeds (r : Route) (n q : Nat) : Option StreamRow :=
  r.streams.find? (fun o => o.dest == n && o.queue == q && o.peer.isNone)


/-- The station is a Kiln or Spill station: its tiles do not lie in a TBF (R239, R137). -/
def StationRec.offArray (st : StationRec) : Bool := decide (256 ≤ st.info.place) && st.info.kind == 3

/-- The region of a queue in bytes, cut into one part per entry (R515). -/
def partAddress (q : QueueRec) (k : Nat) : Nat := q.base * 4096 + k * q.part

/-- Bytes of a spill area in use, from the oldest spilled tile to the end of the newest, each rounded up to 256 B; the addresses of
spilled entries count on through the ring (R137). -/
def spillUsed (es : List Entry) : Nat :=
  match es.filter (·.spilled) with
  | [] => 0
  | e :: rest => let z := rest.getLastD e; z.address + roundUp z.length 256 - e.address

/-- Tiles of the largest size that a join buffer still takes: free arrival entries, and room of the spill area with free headers of the
spill index (R136-R138). -/
def joinRoom (q : QueueRec) (es : List Entry) : Nat :=
  let held := (es.filter (fun e => !e.spilled && e.address != partAddress q (q.depth - 1))).length
  let area := if q.part = 0 then 0 else (q.spill * pageBytes - spillUsed es) / q.part
  (if es.any (·.spilled) then 0 else q.depth - 1 - held) + min (4096 - (es.filter (·.spilled)).length) area

/-- Credits that a stream has now. Into a join buffer a credit exists while the buffer has room for the tile beside those on their way
(R138); tokens wait in their lanes and take none (R133). -/
def creditsLeft (s : State) (slot : Nat) (r : Route) (o : StreamRow) : Nat :=
  let c := (streamOf s slot o.number).credits
  if r.emitted o 9 then 4096
  else match r.joinOf o with
    | some q => min c (joinRoom q (kgetD [] (stationOf s slot o.dest).queues o.queue) - (r.depthOf o - c))
    | none => c

/-- A station's event is counted for its array and in its own record (R450, R451). -/
def countAt (slot station array k n : Nat) (s : State) : State := countStation slot station k n (count (0x5210 + k) array n s)

/-- A tile leaves on a stream once it has credit, after those that wait for it. -/
def sendWhenFree (slot stream : Nat) (t : Tile) (s : State) : State :=
  addCredit slot stream 0 (modStream slot stream (fun x => if x.stopped then x else { x with waiting := x.waiting ++ [t] }) s)

/-- A destination returns one credit: at once between stations of one array and for a tile that a join buffer took in, as a control word
on the reverse lane (R128), which goes over the stream's link to another module (R140). -/
def returnCredit (slot stream : Nat) (s : State) : State :=
  match (routeOf s slot).bind (fun r => (r.stream stream).map (fun o => (r, o))) with
  | none => s
  | some (r, o) =>
    let word := BitVec.ofNat 32 (stream % 4096 * 65536 + 1)
    match o.fromPeer with
    | some d => queueFlits (o.links.headD 0) (o.channel.getD 0) (cutFlits (o.channel.getD 0) d slot (setOf' s slot) (le 4 word.toNat)) s
    | none =>
      if r.arrayOf o.source = r.arrayOf o.dest ∨ (r.joinOf o).isSome then addCredit slot stream 1 s
      else { s with fab := { s.fab with words := s.fab.words ++ [(slot, word)] } }

/-- A control word returns credits: stream in [27:16], count in [15:0] (R128). -/
def execQueueCreditReturn (slot : Nat) (word : Word) (s : State) : Outcome :=
  done (if s.fab.words.contains (slot, word) then
    addCredit slot (bits word.toNat 27 16) (bits word.toNat 15 0) { s with fab := { s.fab with words := s.fab.words.erase (slot, word) } }
  else s)

/-! Matching (R126). -/

def expectedTag (i : OpInput) (t : Word) : Word := (t &&& ~~~i.replaceMask) ||| (i.replaceValue &&& i.replaceMask)
def tagMatches (i : OpInput) (t q : Word) : Bool := ((q ^^^ expectedTag i t) &&& i.matchMask) == 0

/-- Tag and value of a scalar item (R131). -/
def itemTag (x : BitVec 64) : Word := (x >>> 32).setWidth 32
def itemValue (x : BitVec 64) : Word := x.setWidth 32

/-- What an input draws on: an entry of its queue, a scalar item, or an entry of the Stash. -/
inductive Drawn where
  | entry (queue index : Nat)
  | item (queue index : Nat)
  | stash (index : Nat)
  deriving DecidableEq, Repr

def firstIndex {α : Type} (p : α → Bool) (xs : List α) : Option Nat := ((xs.zipIdx.find? (fun e => p e.1)).map (·.2))

/-- The oldest match of an input; a stash get draws on the stash entries of its station that the streams of that queue put, and
only on a copy that is on die or has landed (R126, R216). A spilled entry must first be read back (R137). -/
def drawInput (s : State) (slot : Nat) (r : Route) (st : StationRec) (kind : Nat) (t : Word) (i : OpInput) : Option Drawn :=
  let x := stationOf s slot st.info.number
  if kind = 4 then
    let tr := (slotOf s slot).train
    ((firstIndex (fun e => e.station == st.info.number && tagMatches i t e.tag &&
      (r.feeds st.info.number i.queue).elim true (fun o => o.number == e.stream)) tr.stash).bind (fun k =>
        if (tr.stash[k]?).any (fun e => !e.overflow || e.landed) then some (Drawn.stash k) else none))
  else if (st.queue i.queue).any (fun q => q.kind == 2) then
    (firstIndex (fun y => tagMatches i t (itemTag y)) (kgetD [] x.scalars i.queue)).map (Drawn.item i.queue)
  else
    (firstIndex (fun e => tagMatches i t e.tag) (kgetD [] x.queues i.queue)).bind (fun k =>
      if ((kgetD [] x.queues i.queue)[k]?).any (fun e => !e.spilled) then some (Drawn.entry i.queue k) else none)

/-- The payload of an entry. -/
def entryBytes (s : State) (array : Nat) (e : Entry) : Bytes :=
  if e.payload.isEmpty then loadBytes (arrayOf s array).tbf e.address e.length else e.payload

/-! Counter sequences (R130, R131). -/

def CounterRec.length (c : CounterRec) : Nat := c.inner * c.outer

/-- The tag of sequence position `p`. -/
def CounterRec.tag (c : CounterRec) (p : Nat) : Word :=
  c.base + BitVec.ofNat 32 (p / c.inner * c.outerStride * 65536) + BitVec.ofNat 32 (p % c.inner * c.innerStride)

/-- The micro-batch field of outer step `k`. -/
def CounterRec.micro (c : CounterRec) (k : Nat) : Nat := tagMicro c.base + k * c.outerStride

/-- Position `p` is skipped by its run-time bound, or waits for it. -/
def boundState (x : StationState) (c : CounterRec) (ci p : Nat) : Option Bool :=
  if c.bound = 0 then some true
  else (kget x.bounds (ci * 4096 + p / c.inner)).map (fun b => decide (p % c.inner < b))

/-- The first `w` positions that an operation has not yet fired. -/
def windowFrom (x : StationState) (c : CounterRec) (ci op : Nat) : Nat → Nat → Nat → List (Nat × Word)
  | 0, _, _ => []
  | _ + 1, _, 0 => []
  | fuel + 1, p, w + 1 =>
    if x.fired.contains (op, c.tag p) || boundState x c ci p == some false then windowFrom x c ci op fuel (p + 1) (w + 1)
    else (p, c.tag p) :: windowFrom x c ci op fuel (p + 1) w

/-- The requests of a serving route that are entered and not retired and that concern a station: at a Port station its own
(R427). -/
def openQueries (s : State) (slot : Nat) (st : StationRec) : List Query :=
  (serveOf s slot).requests.filter (fun q => q.phase == 1 && (st.info.kind != 5 || q.station == st.info.number))

/-- The tag of position `p` for a request: its slot added to the base (R427). -/
def CounterRec.slotTag (c : CounterRec) (line p : Nat) : Word := c.tag p + BitVec.ofNat 32 (line * 65536)

/-- In a serving route a counter runs once for each request, no earlier than its entry beat plus the start beat (R427). Positions count on
from request to request. -/
def servingTags (s : State) (slot : Nat) (st : StationRec) (op w : Nat) (c : CounterRec) (ci : Nat) : List (Nat × Word) :=
  let x := stationOf s slot st.info.number
  let now := (slotOf s slot).beat.count
  let all := ((openQueries s slot st).zipIdx.filter (fun q => decide (q.1.entry + c.start ≤ now))).flatMap (fun q =>
    (List.range c.inner).filterMap (fun p =>
      let t := c.slotTag q.1.line p
      let b := if c.bound = 0 then some true else (kget x.bounds (ci * 4096 + q.1.line)).map (fun b => decide (p < b))
      if x.fired.contains (op, t) || b == some false then none else some (q.2 * c.inner + p, t, b)))
  ((all.take w).filter (fun e => e.2.2 == some true)).map (fun e => (e.1, e.2.1))

/-- Tags of an operation's window that its counter lets fire now: window and cap, start beat, quota and bound. -/
def candidates (s : State) (slot : Nat) (st : StationRec) (op : Nat) : List (Nat × Word) :=
  match st.ops[op]? with
  | none => []
  | some o =>
    match st.counters[o.counter]? with
    | none => []
    | some c =>
      let x := stationOf s slot st.info.number
      let b := (slotOf s slot).beat
      if (routeOf s slot).any (fun r => !r.training) then
        if c.quota ≠ 0 ∧ c.quota ≤ kgetD 0 x.quota op then []
        else servingTags s slot st op (min o.window (setting s 0x3041 0)) c o.counter
      else if b.offset < c.start ∨ (c.quota ≠ 0 ∧ c.quota ≤ kgetD 0 x.quota op) then []
      else (windowFrom x c o.counter op c.length 0 (min o.window (setting s 0x3041 0))).filter (fun e =>
        boundState x c o.counter e.1 == some true)

/-! Completion and reports (R55-R57, R129). -/

/-- A tag completes at a station once every operation whose counter yields it has completed or skipped it, and it has not failed. -/
def tagComplete (x : StationState) (st : StationRec) (t : Word) : Bool :=
  !x.failed.contains t &&
  st.ops.zipIdx.all (fun o =>
    match st.counters[o.1.counter]? with
    | none => true
    | some c => !((List.range c.length).any (fun p => c.tag p == t || (tagPass t == 4 && c.slotTag (tagMicro t) p == t))) || x.completed.contains (o.2, t) || x.skipped.contains (o.2, t))

/-- Accessors of a GA record (R221). -/
def gaNumber (g : GaRec) : Nat := field g 0 2
def gaOwner (g : GaRec) : Nat := field g 18 2
def gaRelease (g : GaRec) : Word := BitVec.ofNat 32 (field g 20 4)
def gaState (s : State) (slot : Nat) (g : GaRec) : GaState := kgetD ⟨[], false⟩ (slotOf s slot).train.gas (gaNumber g)

/-- The tag is complete: of the station's operations, or of a gradient accumulator that the station drains (R55, R224). -/
def tagDone (s : State) (slot : Nat) (r : Route) (st : StationRec) (t : Word) : Bool :=
  tagComplete (stationOf s slot st.info.number) st t &&
  (r.gas.filter (fun g => gaOwner g == st.info.number && gaRelease g == t)).all (fun g => (gaState s slot g).drained)

/-- Some tag of the due set at a station whose array runs on its cluster's spare is complete in `s` and was not in `before`. -/
def sparedCompletes (slot : Nat) (r : Route) (before s : State) : Bool :=
  (slotOf s slot).beat.due.any (fun d => (r.station d.1).any (fun st =>
    onSpare s (Station.array st.info) && !tagDone before slot r st d.2 && tagDone s slot r st d.2))

/-- An array on its spare reports at P − 42: a tag of the due set that completes there at P − 42 or P − 41 counts as late (R57). -/
def reported (slot : Nat) (before s : State) : State :=
  let b := (slotOf s slot).beat
  if b.phase = 2 ∧ b.opened + b.length ≤ s.clock + 42 ∧ (routeOf s slot).any (fun r => sparedCompletes slot r before s) then
    modSlotBeat slot (fun b => { b with late := true }) s
  else s

/-- Counters take their bounds from the scalar items that have arrived (R131): the tags beyond the bound are skipped. -/
def takeBounds (slot : Nat) (st : StationRec) (s : State) : State :=
  let n := st.info.number
  reported slot s (st.counters.zipIdx.foldl (fun s e =>
    let (c, ci) := e
    let serving := (routeOf s slot).any (fun r => !r.training)
    if c.bound = 0 then s
    else if serving then ((openQueries s slot st).map (·.line)).foldl (fun s k =>
      let x := stationOf s slot n
      let items := kgetD [] x.scalars (c.bound - 1)
      match (kget x.bounds (ci * 4096 + k)).isSome, items.find? (fun i => tagMicro (itemTag i) == k) with
      | false, some item =>
        let b := min (itemValue item).toNat c.inner
        let ops := (st.ops.zipIdx.filter (fun o => o.1.counter == ci)).map (·.2)
        let tags := (List.range (c.inner - b)).map (fun j => c.slotTag k (b + j))
        let s := modStation slot n (fun x => { x with
          bounds := kput x.bounds (ci * 4096 + k) b
          scalars := kput x.scalars (c.bound - 1) (items.erase item)
          skipped := x.skipped ++ ops.flatMap (fun o => tags.map (fun t => (o, t))) }) s
        let s := if tags.isEmpty then s else countAt slot n (Station.array st.info) 14 tags.length s
        match (routeOf s slot).bind (fun r => r.feeds n (c.bound - 1)) with
        | some o => returnCredit slot o.number s
        | none => s
      | _, _ => s) s
    else (List.range c.outer).foldl (fun s k =>
      let x := stationOf s slot n
      if (kget x.bounds (ci * 4096 + k)).isSome then s
      else
        let items := kgetD [] x.scalars (c.bound - 1)
        match items.find? (fun i => tagMicro (itemTag i) == c.micro k) with
        | none => s
        | some item =>
          let b := min (itemValue item).toNat c.inner
          let tags := (List.range (c.inner - b)).map (fun j => c.tag (k * c.inner + b + j))
          let ops := (st.ops.zipIdx.filter (fun o => o.1.counter == ci)).map (·.2)
          let s := modStation slot n (fun x => { x with
            bounds := kput x.bounds (ci * 4096 + k) b
            scalars := kput x.scalars (c.bound - 1) (items.erase item)
            skipped := x.skipped ++ ops.flatMap (fun o => tags.map (fun t => (o, t))) }) s
          let s := if tags.isEmpty then s else countAt slot n (Station.array st.info) 14 tags.length s
          match (routeOf s slot).bind (fun r => r.feeds n (c.bound - 1)) with
          | some o => returnCredit slot o.number s
          | none => s) s) s)

/-! The firing rule (R127). -/

/-- The route fires now: its beat runs, and a training route is neither between a void and its replay nor HALTED. -/
def routeFires (s : State) (slot : Nat) : Bool :=
  match routeOf s slot with
  | none => false
  | some r => 1 ≤ (slotOf s slot).beat.phase && (!r.training || (slotOf s slot).train.state == 1)

/-- Credits that a firing reserves on each output stream; the number of tiles is given by output. -/
abbrev Needs := List (Nat × Nat)

def maskOutputs (o : OpEntry) : List Nat := (List.range 8).filter (fun j => bit o.outputs j)

/-- One tile on every output of the mask. -/
def oneEach (o : OpEntry) : Needs := (maskOutputs o).map (fun j => (j, 1))

def creditFor (s : State) (slot : Nat) (r : Route) (station : Nat) (need : Needs) : Bool :=
  need.all (fun e => (r.output station e.1).all (fun o =>
    decide (e.2 ≤ creditsLeft s slot r o) && !(streamOf s slot o.number).stopped))

/-- A stopped stream that the operation reads or writes keeps it from firing (R123). -/
def streamsOpen (s : State) (slot : Nat) (r : Route) (station : Nat) (o : OpEntry) : Bool :=
  o.inputs.all (fun i => (r.feeds station i.queue).all (fun f => !(streamOf s slot f.number).stopped)) &&
  (maskOutputs o).all (fun j => (r.output station j).all (fun f => !(streamOf s slot f.number).stopped))

/-- A station may fire: its route fires, its array is held, works and is not gated (R65, R127). An array that has failed in this beat fires
until it ends (R113); a Kiln's proxy array only reports for it (R57). -/
def stationMay (s : State) (slot : Nat) (st : StationRec) : Bool :=
  let a := Station.array st.info
  routeFires s slot && (if st.info.kind = 3 then holds s a slot else arrayWorks s a slot)

/-- An entry or an item has left a queue, and its credit returns (R126). The credit of a join buffer's entry came back as the tile arrived
(R138). -/
def queueCredit (slot : Nat) (r : Route) (n q : Nat) (s : State) : State :=
  match r.feeds n q with
  | some o => if (r.joinOf o).isSome ∧ o.fromPeer.isNone then s else returnCredit slot o.number s
  | none => s

/-- The room of an entry that has left its queue is free again: its half of a buffer pair, or its credit. -/
def entryCredit (slot : Nat) (r : Route) (n q : Nat) (e : Entry) (s : State) : State :=
  if e.half.isSome then returnHalf e.half s else queueCredit slot r n q s

/-- A use of an input is spent: an entry leaves its queue with its last use, and its credit returns (R126). -/
def spend (slot : Nat) (r : Route) (st : StationRec) (d : Drawn) (s : State) : State :=
  let n := st.info.number
  match d with
  | .entry q k =>
    match (kgetD [] (stationOf s slot n).queues q)[k]? with
    | none => s
    | some e =>
      if 1 < e.uses then modStation slot n (fun x => { x with
        queues := kput x.queues q (setNth (kgetD [] x.queues q) k { e with uses := e.uses - 1 }) }) s
      else
        let s := modStation slot n (fun x => { x with
          queues := kput x.queues q ((kgetD [] x.queues q).eraseIdx k)
          refill := if x.refill == some (q, e.tag) then none else x.refill }) s
        entryCredit slot r n q e s
  | .item q k => queueCredit slot r n q (modStation slot n (fun x => { x with scalars := kput x.scalars q ((kgetD [] x.scalars q).eraseIdx k) }) s)
  | .stash k => modTrain slot (fun tr => { tr with
      stash := match tr.stash[k]? with
        | some e => if 1 < e.uses then setNth tr.stash k { e with uses := e.uses - 1 } else tr.stash.eraseIdx k
        | none => tr.stash }) s

/-- The bytes of a stash entry: in the on-die stash cargo, or in the copy of the refill region that its overflow has landed in (R214,
R216). -/
def storedBytes (s : State) (array : Nat) (e : StashEntry) : Bytes :=
  if e.overflow then loadBytes (arrayOf s array).tbf (e.refill.getD 0) e.length else cargoBytes s e.record e.address e.length

/-- The entry that an input has drawn, its payload with it: an operation computes only from what it consumed (R129). -/
def drawnEntry (s : State) (slot : Nat) (st : StationRec) (d : Drawn) : Option Entry :=
  let x := stationOf s slot st.info.number
  match d with
  | .entry q k => ((kgetD [] x.queues q)[k]?).map (fun e => { e with payload := entryBytes s (Station.array st.info) e })
  | .item q k => ((kgetD [] x.scalars q)[k]?).map (fun i => ⟨itemTag i, [], 0, 4, le 4 (itemValue i).toNat, 1, false, 0, none⟩)
  | .stash k => ((slotOf s slot).train.stash[k]?).map (fun e => ⟨e.tag, e.header, e.refill.getD 0, e.length, storedBytes s (Station.array st.info) e, e.uses, false, 0, none⟩)

/-- What the inputs of an operation draw for a tag, one after another, with what is left behind: an entry that one input uses up is not
there for the next (R126). -/
def drawAll (slot : Nat) (r : Route) (st : StationRec) (kind : Nat) (t : Word) : List OpInput → State → Option (List Entry × State)
  | [], s => some ([], s)
  | i :: rest, s =>
    match (drawInput s slot r st kind t i).bind (fun d => (drawnEntry s slot st d).map (fun e => (d, e))) with
    | none => none
    | some (d, e) => (drawAll slot r st kind t rest (spend slot r st d s)).map (fun x => (e :: x.1, x.2))

/-- What a firing of the tag would draw, where the operation is ready for it (R127). -/
def readyFor (s : State) (slot : Nat) (r : Route) (st : StationRec) (o : OpEntry) (need : Needs) (t : Word) : Option (List Entry) :=
  if creditFor s slot r st.info.number need && streamsOpen s slot r st.info.number o &&
      decide ((stationOf s slot st.info.number).flight.length < 64) then (drawAll slot r st o.kind t o.inputs s).map (·.1) else none

/-- The unit of a firing has finished, with the tiles it leaves for its outputs. -/
def finishFlight (slot n op : Nat) (t : Word) (out : List (Nat × Tile)) : State → State :=
  modStation slot n (fun x => { x with
    flight := x.flight.map (fun f => if f.op == op && f.tag == t then { f with finished := true, outputs := f.outputs ++ out } else f) })

/-- The header of a tile that an operation sends on one of its outputs. -/
def outHeader (s : State) (slot n stream : Nat) (t : Word) (length : Nat) (f : TileShape) : Bytes :=
  let tr := (slotOf s slot).train
  mkHeader t stream tr.attempt (tr.step % 65536) n length f

/-- A header with another stream number and source station, its check formed again. -/
def renumber (h : Bytes) (stream station : Nat) : Bytes :=
  let b := overwrite (overwrite h 4 (le 2 (stream % 4096))) 22 (le 2 station)
  b.take 30 ++ le 2 (crc16 (b.take 30)).toNat

/-- Output tiles of an operation that passes a tile on unchanged: on a stream to another module the header stays as it is (R140). -/
def passOn (r : Route) (n : Nat) (o : OpEntry) (h payload : Bytes) : List (Nat × Tile) :=
  (maskOutputs o).filterMap (fun j => (r.output n j).map (fun f =>
    (f.number, ⟨if f.peer.isSome then h else renumber h f.number n, payload⟩)))

/-- A tile enters its stream's output staging buffer; a stopped stream admits none (R123, R129). -/
def putStaged (slot stream : Nat) (t : Tile) : State → State :=
  modStream slot stream (fun x => if x.stopped then x else { x with staging := x.staging ++ [⟨t, 0, 0⟩] })

/-- A tile for which a firing has reserved credit leaves. -/
def sendReserved (slot n op : Nat) (t : Word) (stream : Nat) (x : Tile) (s : State) : State :=
  putStaged slot stream x (modStation slot n (fun y => { y with
    flight := y.flight.map (fun f => if f.op == op && f.tag == t then
      { f with reserved := f.reserved.map (fun e => if e.1 = stream then (e.1, e.2 - 1) else e) } else f) }) s)

/-- An operation's unit has finished: its tiles enter the staging buffers of their streams, its flight entry is released and it
has completed its tag. -/
def completeOp (slot n op : Nat) (t : Word) (s : State) : State :=
  match (stationOf s slot n).flight.find? (fun f => f.op == op && f.tag == t && f.finished) with
  | none => s
  | some f =>
    let before := s
    let s := f.outputs.foldl (fun s e => sendReserved slot n op t e.1 e.2 s) s
    reported slot before (modStation slot n (fun x => { x with
      completed := if x.failed.contains t then x.completed else x.completed ++ [(op, t)] }) (leaveFlight slot n op t s))

/-! Arrival (R121, R122, R124, R136-R138). -/

/-- The first part, of those before `limit`, that no entry of the queue holds; one that no operation in flight still reads is
taken first (R129). -/
def freePart (flight : List Flight) (q : QueueRec) (es : List Entry) (limit : Nat) : Option Nat :=
  let free := (List.range limit).filter (fun k => !es.any (fun e => !e.spilled && e.address == partAddress q k))
  match free.find? (fun k => !flight.any (fun f => f.inputs.any (fun e => e.address == partAddress q k))) with
  | some k => some k
  | none => free.head?

/-- A tile is put into a part of a queue's region: its payload in the TBF, or in the entry where the queue lies elsewhere. -/
def placeEntry (st : StationRec) (q : QueueRec) (part : Nat) (header payload : Bytes) (uses : Nat) (s : State) : State × Entry :=
  let a := partAddress q part
  let e : Entry := ⟨hdrTag header, header, a, payload.length, if st.offArray then payload else [], uses, false, s.kilns.arrivals, none⟩
  (if st.offArray then { s with kilns := { s.kilns with arrivals := s.kilns.arrivals + 1 } }
   else if payload.isEmpty then s
   else modArray (Station.array st.info) (fun x => { x with tbf := storeBytes x.tbf a payload }) s, e)

def pushEntry (slot n q : Nat) (e : Entry) : State → State :=
  modStation slot n (fun x => { x with queues := kput x.queues q (kgetD [] x.queues q ++ [e]) })

/-- The queues of a route whose join buffers spill in a cluster, in the order of its station map. -/
def Route.spillQueues (r : Route) (cluster : Nat) : List (Nat × QueueRec) :=
  r.stations.flatMap (fun st => if clusterOf (Station.array st.info) = cluster then
    (st.queues.filter (fun q => q.kind == 1 && q.spill != 0)).map (fun q => (st.info.number, q)) else [])

/-- The cargo record and page at which a queue's spill area begins: the pages of the cluster's Spill cargo, manifest use 3, go to its join
buffers one after another (R136). -/
def spillArea (s : State) (r : Route) (st : StationRec) (q : QueueRec) : Option (Nat × Nat) :=
  let cluster := clusterOf (Station.array st.info)
  let before := (r.spillQueues cluster).takeWhile (fun e => e.1 != st.info.number || e.2.queue != q.queue)
  (r.manifest.filter (fun m => m.use == 3)).findSome? (fun m => (cargoOf s m.handle).bind (fun c =>
    if c.2.tier = 0 ∧ c.2.cluster = cluster then some (c.1, m.first + sumNat (before.map (fun e => e.2.spill))) else none))

/-- Bytes written into a spill area from a place of its ring on. -/
def writeSpill (s : State) (r : Route) (st : StationRec) (q : QueueRec) (address : Nat) (data : Bytes) : State :=
  match spillArea s r st q with
  | none => s
  | some (i, p) =>
    let n := q.spill * pageBytes - address % (q.spill * pageBytes)
    writeCargo i (p * pageBytes) (data.drop n) (writeCargo i (p * pageBytes + address % (q.spill * pageBytes)) (data.take n) s)

/-- Bytes of a spilled tile, read back over the spill lane. -/
def readSpill (s : State) (r : Route) (st : StationRec) (q : QueueRec) (e : Entry) : Bytes :=
  match spillArea s r st q with
  | none => []
  | some (i, p) =>
    let n := q.spill * pageBytes - e.address % (q.spill * pageBytes)
    cargoBytes s i (p * pageBytes + e.address % (q.spill * pageBytes)) (min n e.length) ++ cargoBytes s i (p * pageBytes) (e.length - n)

/-- A stream is to be stopped at the close of the slot's beat under FLT_SAGGAR (R58, R123). -/
def saggarStop (slot stream : Nat) (reload : Bool) : State → State :=
  modSlotBeat slot (fun b => { b with
    faults := if b.faults.contains fltSaggar then b.faults else b.faults ++ [fltSaggar]
    stopping := if b.stopping.contains (stream, reload) then b.stopping else b.stopping ++ [(stream, reload)] })

/-- A header that fails its check: it is counted, the route takes FLT_SAGGAR at this close and the stream that owns the lane stops
(R122). -/
def badHeader (slot array station stream : Nat) (s : State) : State :=
  saggarStop slot stream false (countAt slot station array 12 1 s)

/-- The queue with the tile in it, where it has room; one that finds its join buffer's arrival entries full, or tiles spilled already,
is spilled (R137). -/
def enterQueue (slot : Nat) (r : Route) (st : StationRec) (q : QueueRec) (header payload : Bytes) (s : State) : Option State :=
  let n := st.info.number
  let es := kgetD [] (stationOf s slot n).queues q.queue
  let flight := (stationOf s slot n).flight
  let enter (limit : Nat) : Option State := (freePart flight q es limit).map (fun k =>
    let x := placeEntry st q k header payload (hdrUses header) s
    pushEntry slot n q.queue x.2 x.1)
  if q.kind = 1 then
    let arrivals := (es.filter (fun e => !e.spilled && e.address != partAddress q (q.depth - 1))).length
    if arrivals < q.depth - 1 ∧ es.any (·.spilled) = false then enter (q.depth - 1)
    else if spillUsed es + roundUp payload.length 256 ≤ q.spill * pageBytes ∧ (es.filter (·.spilled)).length < 4096 then
      let at0 := (((es.filter (·.spilled)).getLast?).map (fun e => e.address + roundUp e.length 256)).getD 0
      some (countAt slot n (Station.array st.info) 11 1 (pushEntry slot n q.queue
        ⟨hdrTag header, header, at0, payload.length, [], hdrUses header, true, 0, none⟩ (writeSpill s r st q at0 payload)))
    else none
  else enter q.depth

/-- The cargo that a handle means in a bank of the slot's refresh pairs (R442, R444). -/
def bankOf (s : State) (slot bank h : Nat) : Nat :=
  if bank = 1 then (((serveOf s slot).banks.find? (fun b => b.1 == h)).map (·.2)).getD h else h

/-- A tile of a serving route whose request is retired, or was never entered, is discarded (R436). -/
def retiredTile (s : State) (slot : Nat) (r : Route) (t : Word) : Bool :=
  !r.training && tagPass t == 4 && !(serveOf s slot).requests.any (fun q => q.line == tagMicro t && q.phase == 1)

/-- An answer tile discarded after the cone has decided counts (R436). -/
def lateDiscard (slot station : Nat) (r : Route) (t : Word) (s : State) : State :=
  match portRecord r station, (serveOf s slot).requests.find? (fun q => q.line == tagMicro t) with
  | some p, some q =>
    if q.decided ∧ (tagIndex t = field p 14 2 ∨ tagIndex t = field p 16 2) then
      countStation slot station 33 1 (count 0x513B slot 1 s) else s
  | _, _ => s

/-- Bits that the wires have changed. -/
def spoil (damage : Bytes) (h : Bytes) : Bytes := h.zipIdx.map (fun e => e.1 ^^^ damage.getD e.2 0)

/-- The loss streams of a route (R210). -/
def lossStreams (r : Route) : List Nat := ((List.range 4).map (fun k => field r.plan.pipeline (12 + 2 * k) 2)).filter (· != 0xFFFF)

/-- A scalar item enters its queue, which holds 32 (R131); without room it stays in its lane. -/
def enterItem (slot : Nat) (r : Route) (o : StreamRow) (s : State) : State :=
  match arrivedAt s slot r o 0 0, r.station o.dest with
  | w :: _, some st =>
    let s' := dropArrived slot r o 0 0 1 s
    let items := kgetD [] (stationOf s slot o.dest).scalars o.queue
    if (streamOf s slot o.number).stopped ∨ (st.queue o.queue).any (fun q => q.kind == 2) = false then s'
    else if retiredTile s slot r (itemTag (BitVec.ofNat 64 (leNat w))) then returnCredit slot o.number s'
    else if 32 ≤ items.length then s
    else takeBounds slot st (modStation slot o.dest (fun x => { x with
      scalars := kput x.scalars o.queue (items ++ [BitVec.ofNat 64 (leNat w)]) }) s')
  | _, _ => s

/-- A tile whose turn it is at the local port of its destination is checked and enters its queue (R121, R122, R124, R436, R515). -/
def enterTile (slot : Nat) (r : Route) (o : StreamRow) (header payload : Bytes) (s s' : State) : State :=
  match (r.station o.dest).bind (fun st => (st.queue o.queue).map (fun q => (st, q))) with
  | none => s'
  | some (st, q) =>
    let array := Station.array st.info
    let tr := (slotOf s slot).train
    if (streamOf s slot o.number).stopped then s'
    else if !hdrOk header || decide (q.part < payload.length) then badHeader slot array o.dest o.number s'
    else if st.info.kind ≠ 4 ∧ (hdrStep header ≠ tr.step % 65536 ∨ hdrAttempt header ≠ tr.attempt % 16) then
      returnCredit slot o.number (countAt slot o.dest array 13 1 s')
    else if retiredTile s slot r (hdrTag header) then returnCredit slot o.number (lateDiscard slot o.dest r (hdrTag header) s')
    else match enterQueue slot r st q header payload s' with
      | some s'' => if (r.joinOf o).isSome ∧ o.fromPeer.isNone then addCredit slot o.number 1 s'' else s''
      | none => s

/-- The local port at the end of a stream's path pairs the header whose turn it is on the scalar lane with the payload whose turn it is
on the vector lane (R121); `port` numbers the outputs of the scalar network. `damage` is what the wires changed in the header. -/
def execTileArrive (slot : Nat) (place : LocalLane) (damage : Bytes) (s : State) : Outcome :=
  done (match (routeOf s slot).bind (fun r => (ownerAt r place.array place.port place.lane).map (fun o => (r, o))) with
    | none => s
    | some (r, o) =>
      if o.peer.isSome ∨ r.units.any (fun u => u.inputs.contains o.number) ∨ (lossStreams r).contains o.number then s
      else if r.emitted o 8 then enterItem slot r o s
      else match arrivedTile s slot r o with
        | none => s
        | some t => enterTile slot r o (spoil damage t.header) t.payload s (takeTile slot r o t s))

/-- An operation of the station matches, for a tag that it may fire, the entry of a queue at an index (R137). -/
def calledFor (s : State) (slot : Nat) (st : StationRec) (queue k : Nat) : Bool :=
  let es := kgetD [] (stationOf s slot st.info.number).queues queue
  st.ops.zipIdx.any (fun o => (candidates s slot st o.2).any (fun c => o.1.inputs.any (fun i =>
    i.queue == queue && firstIndex (fun e => tagMatches i c.2 e.tag) es == some k)))

/-- A spilled tile is read back: the oldest one into a free arrival entry, or one that an operation matches and that is not the oldest
into the refill entry (R137). -/
def execJoinRefill (slot station queue : Nat) (tag : Option Word) (s : State) : Outcome :=
  done (match (routeOf s slot).bind (fun r => (r.station station).bind (fun st => (st.queue queue).map (fun q => (r, st, q)))) with
    | none => s
    | some (r, st, q) =>
      let x := stationOf s slot station
      let es := kgetD [] x.queues queue
      let back (k part : Nat) (s : State) : State :=
        match es[k]? with
        | none => s
        | some e =>
          let r := placeEntry st q part e.header (readSpill s r st q e) e.uses s
          modStation slot station (fun x => { x with queues := kput x.queues queue (setNth es k r.2) }) r.1
      match tag with
      | none =>
        match firstIndex (·.spilled) es, freePart x.flight q es (q.depth - 1) with
        | some k, some part => back k part s
        | _, _ => s
      | some t =>
        match firstIndex (fun e => e.spilled && e.tag == t) es with
        | none => s
        | some k =>
          if x.refill.isSome ∨ firstIndex (·.spilled) es = some k ∨ calledFor s slot st queue k = false then s
          else back k (q.depth - 1) (modStation slot station (fun x => { x with refill := some (queue, t) }) s))

/-! Operations that pass tiles, items and tokens on. -/

/-- The scalar result that an operation follows (R131, R193). -/
def resultFor (s : State) (slot n : Nat) (t : Word) : Option Word :=
  kget (stationOf s slot n).results t.toNat

/-! Steering and merge units (R132-R135). Steering units are 0 to 7, merge units 8 to 15. -/

def unitKey (array unit : Nat) : Nat := array * 16 + unit
def getUnit (s : State) (array unit : Nat) : Option UnitState := kget s.fab.units (unitKey array unit)
def putUnit (array unit : Nat) (u : UnitState) (s : State) : State := { s with fab := { s.fab with units := kput s.fab.units (unitKey array unit) u } }

/-- The route's row of a unit. -/
def unitRow (r : Route) (array unit : Nat) : Option UnitRow :=
  r.units.find? (fun u => u.array == array && u.number + (if u.merge then 8 else 0) == unit)

/-- The stream that enters a unit's data queue. -/
def unitStream (s : State) (slot array unit input : Nat) : Option Nat :=
  (routeOf s slot).bind (fun r => (unitRow r array unit).bind (fun u => u.inputs[input]?))

/-- A pair goes to the output, or is discarded under choice FFh (R133). -/
def pairUnit (array unit input : Nat) (k : Token) (t : Tile) (u : UnitState) (s : State) : State :=
  let back (s : State) := match unitStream s u.slot array unit input with | some o => returnCredit u.slot o s | none => s
  if unit < 8 ∧ k.choice = 0xFF then back (count 0x5206 array 1 (putUnit array unit u s))
  else putUnit array unit { u with paired := u.paired ++ [(if unit < 8 then k.choice else input, t)] } s

/-- A choice that names no output or input (R133, R134). -/
def faultyChoice (unit choice : Nat) : Bool := if unit < 8 then 4 ≤ choice && choice ≤ 0xFE else 4 ≤ choice

/-- A token reaches a unit of its route: word 1 gives kind, unit and choice. A full token queue keeps it on its lane (R133). -/
def takeToken (array : Nat) (word0 word1 : Word) (slot : Nat) (s s' : State) : State :=
  let kind := bits word1.toNat 31 28
  let choice := bits word1.toNat 7 0
  if kind ≠ 1 ∧ kind ≠ 2 ∨ 8 ≤ bits word1.toNat 27 24 then s'
  else
    let unit := bits word1.toNat 27 24 + (if kind = 2 then 8 else 0)
    match getUnit s array unit with
    | none => s'
    | some u =>
      if u.slot ≠ slot ∨ (routeOf s slot).any (fun r => retiredTile s slot r word0) then s'
      else if faultyChoice unit choice then putUnit array unit { u with faulty := u.faulty ++ [word0] } s'
      else
        let input := if unit < 8 then 0 else choice
        let tiles := kgetD [] u.data input
        match firstIndex (fun t => hdrTag t.header == word0) tiles with
        | some k => pairUnit array unit input ⟨word0, choice⟩ (tiles.getD k ⟨[], []⟩) { u with data := kput u.data input (tiles.eraseIdx k) } s'
        | none => if u.tokens.length < 32 then putUnit array unit { u with tokens := u.tokens ++ [⟨word0, choice⟩] } s' else s

/-- The next two words on a token stream's control lane reach the units of the array (R132, R133). -/
def execTokenArrive (slot array lane : Nat) (s : State) : Outcome :=
  done (match (routeOf s slot).bind (fun r => (r.streams.find? (fun o => o.lane == lane && r.emitted o 9 && r.endOf o == (array, 4))).map (fun o => (r, o))) with
    | none => s
    | some (r, o) => match arrivedAt s slot r o 2 0 with
      | a :: b :: _ => takeToken array (BitVec.ofNat 32 (leNat a)) (BitVec.ofNat 32 (leNat b)) slot s (dropArrived slot r o 2 0 2 s)
      | _ => s)

/-- A data tile whose turn it is at a unit's input pairs with the oldest token of its tag, or waits in its 8-entry data queue; a full one
leaves it in the buffers of its lane (R133, R134). -/
def arriveData (slot array unit input : Nat) (damage : Bytes) (s : State) : State :=
  match (getUnit s array unit).filter (fun u => u.slot == slot) with
  | none => s
  | some u =>
    match (routeOf s u.slot).bind (fun r => (unitRow r array unit).bind (fun w => (w.inputs[input]?).bind (fun n =>
        (r.stream n).bind (fun o => (arrivedTile s u.slot r o).map (fun t => (r, w, o, t)))))) with
    | none => s
    | some (r, w, o, x) =>
      let tr := (slotOf s u.slot).train
      let t : Tile := ⟨spoil damage x.header, x.payload⟩
      let s' := takeTile u.slot r o x s
      if (streamOf s u.slot o.number).stopped then s'
      else if hdrOk t.header = false then badHeader u.slot array w.station o.number s'
      else if hdrStep t.header ≠ tr.step % 65536 ∨ hdrAttempt t.header ≠ tr.attempt % 16 then
        returnCredit u.slot o.number (countAt u.slot w.station array 13 1 s')
      else if retiredTile s u.slot r (hdrTag t.header) then returnCredit u.slot o.number s'
      else
        match firstIndex (fun k => k.tag == hdrTag t.header && (unit < 8 || k.choice == input)) u.tokens with
        | some k => pairUnit array unit input (u.tokens.getD k ⟨0, 0⟩) t { u with tokens := u.tokens.eraseIdx k } s'
        | none =>
          let q := kgetD [] u.data input
          if q.length < 8 then putUnit array unit { u with data := kput u.data input (q ++ [t]) } s' else s

def execSteerDataArrive (slot array unit : Nat) (damage : Bytes) (s : State) : Outcome :=
  done (if unit < 8 then arriveData slot array unit 0 damage s else s)

def execMergeDataArrive (slot array unit input : Nat) (damage : Bytes) (s : State) : Outcome :=
  done (if unit < 8 ∧ input < 4 then arriveData slot array (8 + unit) input damage s else s)

/-- The stream on which a paired tile of a unit leaves. -/
def pairOutput (s : State) (u : UnitState) (array unit : Nat) (p : Nat × Tile) : Option (Route × UnitRow × StreamRow) :=
  (routeOf s u.slot).bind (fun r => (unitRow r array unit).bind (fun w =>
    ((w.outputs[if unit < 8 then p.1 else 0]?).bind (fun n => r.stream n)).map (fun o => (r, w, o))))

/-- The output of a paired tile has credit. -/
def pairMay (s : State) (u : UnitState) (array unit : Nat) (p : Nat × Tile) : Bool :=
  (pairOutput s u array unit p).any (fun e => decide (0 < creditsLeft s u.slot e.1 e.2.2) && !(streamOf s u.slot e.2.2.number).stopped)

/-- The oldest paired tile whose output has credit goes there (R133, R134); units 8 to 15 are the merge units. -/
def execSteerOutput (array unit : Nat) (s : State) : Outcome :=
  done (match getUnit s array unit with
    | none => s
    | some u =>
      match firstIndex (pairMay s u array unit) u.paired with
      | none => s
      | some k =>
        let p := u.paired.getD k (0, ⟨[], []⟩)
        match pairOutput s u array unit p with
        | none => s
        | some (_, w, o) =>
          let s := putStaged u.slot o.number ⟨renumber p.2.header o.number w.station, p.2.payload⟩
            (modStream u.slot o.number (fun x => { x with credits := x.credits - 1 }) s)
          let s := putUnit array unit { u with paired := u.paired.eraseIdx k } s
          match w.inputs[if unit < 8 then 0 else p.1]? with
          | some i => returnCredit u.slot i s
          | none => s)

/-! The flush of a void (R139), and restart (R123). -/

/-- Items and tokens carry no step: those on their way leave the networks with the void. -/
def purgeItems (slot : Nat) (r : Route) (s : State) : State :=
  (r.streams.filter (fun o => r.emitted o 8 || r.emitted o 9)).foldl (fun s o => purgePath slot r o s) s

/-- The Wheels abandon the blocks and OS tiles of a route's operations, and every accumulator block that it owns is released without a drain
(R154, R161). -/
def abandonWork (slot : Nat) (s : State) : State :=
  s.arrays.foldl (fun s e =>
    let mine := e.2.mmos.filter (fun m => m.2.slot == slot)
    let s := mine.foldl (fun s m => abandonMmo e.1 m.1 s) s
    let owned := ((arrayOf s e.1).owners.filter (fun o => o.1 / 128 == slot)).map (fun o => o.1 % 128)
    let s := if mine.isEmpty then s else modArray e.1 (fun x => { x with cells := Cells.empty }) s
    if owned.isEmpty then s else modArray e.1 (releaseBlocks slot owned (drawn s)) (draw s)) s

/-- Everything a route has under way is emptied and its counters restart; streams return to full credit. A tile of which something has left
goes on, and is discarded where it arrives (R124). An Exchange station keeps its queues' contributions only through the late-fold
buffers. -/
def flushRoute (slot : Nat) (s : State) : State :=
  match (slotOf s slot).route with
  | none => s
  | some r =>
    let s := purgeItems slot r (voidTransfers slot s)
    let s := modSlot slot (fun x => { x with
      stations := []
      streams := kmap (fun n y => { y with
        credits := ((r.stream n).map (fun o => r.depthOf o)).getD 0
        staging := if (r.stream n).any (fun o => r.emitted o 8 || r.emitted o 9) then [] else (y.staging.take 1).filter tileBegun, waiting := [] }) x.streams
      train := { x.train with stash := [], gas := [], updated := [], lossItems := [], lossPending := false, normPending := false
                              norm := none, stepLoss := none, groups := [] } }) s
    let s := { s with fab := { s.fab with
      units := kmap (fun _ u => if u.slot = slot then ⟨slot, [], [], [], []⟩ else u) s.fab.units
      words := s.fab.words.filter (fun w => w.1 != slot) } }
    let s := abandonWork slot s
    { s with
      arrays := kmap (fun _ a => { a with threads := a.threads.filter (fun t => t.2.slot != slot) }) s.arrays
      mem := { s.mem with noted := s.mem.noted.filter (fun k => k.1 != slot) } }

/-- A stream stops: its tiles and entries here are discarded and its credits are whole again (R123). -/
def stopStream (slot stream : Nat) (reload : Bool) (s : State) : State :=
  match (routeOf s slot).bind (fun r => (r.stream stream).map (fun o => (r, o))) with
  | none => s
  | some (r, o) =>
    let held := (streamOf s slot stream).reload
    let s := purgePath slot r o (modStream slot stream (fun _ => ⟨r.depthOf o, [], true, [], reload || held⟩) s)
    let s := if r.units.any (fun u => u.inputs.contains stream) then s else
      modStation slot o.dest (fun x => { x with queues := kdel x.queues o.queue, scalars := kdel x.scalars o.queue })
      s
    { s with fab := { s.fab with units := kmap (fun k u =>
        if u.slot = slot then { u with
          data := u.data.filter (fun d => unitStream s slot (k / 16) (k % 16) d.1 != some stream)
          paired := u.paired.filter (fun p => hdrStream p.2.header != stream) } else u) s.fab.units } }

/-- The image cargo still matches the image digest (R123, R412). -/
def imageMatches (s : State) (r : Route) : Bool :=
  match cargoOf s r.image with
  | some (i, c) => c.state == 1 && sha256 (cargoBytes s i (r.imagePage * pageBytes) r.imageLength) == r.digest
  | none => false

/-- No stream of the slot is stopped any more: its deadline path is no longer stopped under FLT_SAGGAR (R123). -/
def clearStopped (slot : Nat) (s : State) : State :=
  if (slotOf s slot).streams.any (fun e => e.2.stopped) then s else modServe slot (fun x => { x with stopped := false }) s

/-- A stopped stream restarts at the first beat of the replay or, in a serving route, at the next beat that opens: after the reload of the
image, where a word of the route's saggar pages was lost. A failed reload halts a training route (R123). -/
def execStreamRestart (slot stream : Nat) (s : State) : Outcome :=
  done (match routeOf s slot with
    | none => s
    | some r =>
      let x := slotOf s slot
      if (streamOf s slot stream).stopped = false ∨ (r.training = true ∧ (x.train.state ≠ 1 ∨ x.beat.offset ≠ 0)) ∨ x.beat.phase ≠ 1 then s
      else if (streamOf s slot stream).reload = false ∨ imageMatches s r = true then
        clearStopped slot (modStream slot stream (fun y => { y with stopped := false, reload := false }) s)
      else event evtReloadFail (atSlot slot) []
        (if r.training then count 0x5105 slot 1 (modTrain slot (fun t => { t with state := 3 }) s) else s))

end Sys2Proof.Machine
end

