-- ==== Sys2Proof/Machine/Notify.lean ====
section
/-! DEFINITION. What one part of the module tells another: MSI-X messages (R469), the ALERT_N pin (R498), voids to be taken at a close
(R61, R139), and the positions of arrays on the grid (R22, R110). -/

namespace Sys2Proof.Machine

/-- An MSI-X vector is signalled; while it is masked its pending bit is set (R469). -/
def signal (function vector : Nat) (s : State) : State :=
  let v := function * 2048 + vector
  if s.host.unmasked.contains v then emit (.message function vector) s
  else modHost (fun h => { h with pendingBits := if h.pendingBits.contains v then h.pendingBits else h.pendingBits ++ [v] }) s

/-- Unmasking sends what is pending. -/
def execMsixUnmask (function vector : Nat) (s : State) : Outcome :=
  let v := function * 2048 + vector
  done (if function = 0 ∧ vector < 2048 ∨ 0 < function ∧ function ≤ s.host.vfs ∧ vector < 32 then
    let s' := modHost (fun h => { h with
      unmasked := if h.unmasked.contains v then h.unmasked else h.unmasked ++ [v], pendingBits := h.pendingBits.filter (· != v) }) s
    if s.host.pendingBits.contains v then emit (.message function vector) s' else s'
  else s)

/-- The client's virtual function exists (R470). -/
def hasFunction (s : State) (client : Nat) : Bool := client == 0 || client ≤ s.host.vfs

/-- A change of 1312.00 or 1307.00 signals vector 3 (R469). -/
def supplySignal (before after : State) : State :=
  if before.power.input ≠ after.power.input ∨ before.power.holdup ≠ after.power.holdup then signal 0 3 after else after

/-- 2306 of a slot changes: vector 8 + slot of the physical function (R469). -/
def setTrainState (slot k : Nat) (s : State) : State :=
  if (slotOf s slot).train.state = k then s else signal 0 (8 + slot) (modTrain slot (fun t => { t with state := k }) s)

/-- The boot status changes: vector 12 (R464, R469). -/
def setBootStatus (k : Nat) (s : State) : State :=
  if s.host.bootStatus = k then s else signal 0 12 (modHost (fun h => { h with bootStatus := k }) s)

/-- 2404-style values: the admission state of a client changes; vector 2 of its virtual function (R469). -/
def setAdmission (client : Nat) (a : Admission) (s : State) : State :=
  let changed := (admissionOf s client).state != a.state
  let s := modAdmission client (fun _ => a) s
  if changed && 0 < client && hasFunction s client then signal client 2 s else s

/-- ALERT_N is driven low (R498). -/
def alertLow (s : State) : Bool :=
  s.power.input != 0 || s.power.holdup == 3 || s.power.holdup == 4 ||
  flt (fnat (setting s 0x1304 0)) (f32 s.power.dieTemp) ||
  (s.beat.ceilingBeat.elim false (fun b => s.beat.count < b + 1024)) || s.power.high || s.sys.bootResult == 5 || s.power.railsFailed

/-- The route's step is to be voided at its next close, for a cause; `mark` is 0, or one more than the beat count of the mark that
carried a notice of it. An earlier void of the step stands. -/
def pendVoid (slot mark cause : Nat) : State → State :=
  modTrain slot (fun t => if t.voided.isSome then t else { t with voided := some (mark, cause) })

/-- The slots of resident routes with a station on an array. -/
def slotsOn (s : State) (a : Nat) : List (Nat × Route) :=
  (residents s).filter (fun e => e.2.stations.any (fun st => st.info.place == a))

/-- A fabric route. -/
def Route.fabric (r : Route) : Bool := !r.plan.isLocal

/-- The phase of the route set in force (R54). -/
def phaseOf (s : State) (slot : Nat) (r : Route) : Nat :=
  ((r.plan.sets.find? (fun e => e.set == setOf' s slot)).map (·.phase)).getD 0

/-- The configured period of a route (R45, R63). -/
def periodOf (s : State) (r : Route) : Nat := if r.plan.isLocal then r.plan.period else setting s 0x1101 0

/-- A local training route that shares an array with a fabric route (R64). -/
def shared (s : State) (r : Route) : Bool :=
  r.plan.isLocal && r.training && (residents s).any (fun e => e.2.fabric &&
    r.stations.any (fun st => decide (st.info.place < 256) && e.2.stations.any (fun x => x.info.place == st.info.place)))

/-- The governed addition that applies to a route (R63, R64). -/
def additionOf (s : State) (slot : Nat) (r : Route) : Nat :=
  if r.training = false then 0
  else if r.fabric || shared s r then s.beat.governed else (slotOf s slot).beat.addition

/-- The effective period of a route: the configured one with the addition, within the ceiling (R63). -/
def effectivePeriod (s : State) (slot : Nat) (r : Route) : Nat :=
  let p := periodOf s r + additionOf s slot r
  if r.training then min p (setting s 0x1108 0) else p

/-! Where the external resources stand on the ring (R29). -/

inductive RingResource where
  | chipLink
  | connector
  | stackPhy
  | dramChannel
  | flashChannel
  | pcie
  | management
  deriving DecidableEq, Repr

/-- How many of a resource stand on a side; the PCIe controller and the management complex stand between sides 3 and 0. -/
def RingResource.perSide : RingResource → Nat
  | .chipLink => 16
  | .connector => 4
  | .stackPhy => 4
  | .dramChannel => 8
  | .flashChannel => 4
  | _ => 0

/-- The side of a resource by its number: 0 north, 1 east, 2 south, 3 west. -/
def ringSide (x : RingResource) (n : Nat) : Option Nat := if n < 4 * x.perSide then some (n / x.perSide) else none

end Sys2Proof.Machine
end

