-- ==== Sys2Proof/Machine/FabricOps.lean ====
section
/-! DEFINITION. The on-die fabric: forwarding by slot tables (R98-R107), failed arrays, self-tests and spare substitution
(R113-R118). -/

namespace Sys2Proof.Machine

/-! Forwarding. -/

/-- The route whose entry an output reads in this cycle, with the entry: the slot index is counted on the route's own beat (R102), and the
control tables are not read while the report takes their lanes (R105). -/
def slotRead (s : State) (array net port : Nat) : Option (Nat × Route × Nat) :=
  (residents s).findSome? (fun e =>
    let n := entryAt s e.1 e.2 array net port (slotIndex s e.1)
    if n % 16 = 0 ∨ (slotOf s e.1).beat.phase = 0 ∨ (net = 2 ∧ controlClosed s e.1 = true) then none else some (e.1, e.2, n))

/-- The item lands; a tile that is whole at the ring port of its link leaves the die. -/
def forwardTo (slot array net lane : Nat) (r : Route) (item : Bytes) (port : Nat) (s : State) : State :=
  let s := place item (targetOf slot array net port lane) s
  if localOutput net port ∨ (neighbour array (direction net port)).isSome then s else leaveRing slot array (direction net port) lane r s

/-- One output of a switch passes its slot; the outputs that name the same lane at that index forward the item together (R103, R104). -/
def forwardSlot (array net port : Nat) (s : State) : State :=
  match slotRead s array net port with
  | none => s
  | some (slot, r, e) =>
    let lane := e / 16
    let ports := (portsOf net).filter (fun p => entryAt s slot r array net p (slotIndex s slot) == e)
    match inputItem s slot r array net (e % 16) lane with
    | none => count 0x5201 array 1 s
    | some (stream, item) =>
      if ports.all (fun p => hasRoom s (targetOf slot array net p lane)) then
        ports.foldl (fun s p => forwardTo slot array net lane r item p s) (takeInput slot array net (e % 16) lane stream s)
      else count 0x5200 array 1 s

/-- An uncorrectable entry forwards nothing until the tables are reloaded before the next beat, and the route that owns it takes FLT_SAGGAR
at the close of its beat: the streams whose lane the entry forwards stop (R58, R107, R123). -/
def loseEntry (slot : Nat) (r : Route) (array net port entry : Nat) (s : State) : State :=
  let set := setOf' s slot
  (laneOwners r set array net (entry % 16) (entry / 16)).foldl (fun s o => saggarStop slot o.number true s)
    (modSlotBeat slot (fun b => { b with faults := if b.faults.contains fltSaggar then b.faults else b.faults ++ [fltSaggar] })
      (modFab (fun f => { f with badEntries := f.badEntries ++ [(slot, set, array, net, port, slotIndex s slot)] }) s))

/-- A slot passes at one output. The decoder of the switch's tables may find an error of one bit in the entry, which it `corrected` and counts,
or one that it cannot correct, by which the entry is `lost` (R107). -/
def execSlotForward (array net port : Nat) (corrected lost : Bool) (s : State) : Outcome :=
  done (if alive s = false then s
    else if lost = true then
      match slotRead s array net port with
      | none => s
      | some (slot, r, e) => loseEntry slot r array net port e s
    else forwardSlot array net port (if corrected then count 0x5202 array 1 s else s))

/-! Failed sites (R113, R115). -/

/-- The array that a site holds in service. -/
def arrayAt (s : State) (site : Nat) : Option Nat :=
  if site < 256 then (if onSpare s site then none else some site)
  else (clusterArrays (site - 256)).find? (fun a => onSpare s a)

def siteFailed (s : State) (site : Nat) : Bool := s.fab.failedSites.contains site

/-- A staged value of an RWE object. -/
def staged (s : State) (index sub : Nat) : Option Bytes :=
  if s.dict.staging.state = 0 then none else kget s.dict.staging.values (objKey index sub)

/-- A repair set holds the substitution of array n. -/
def inRepair (s : State) (a : Nat) : Bool := s.fab.repairs.any (fun p => p.arrays.contains a)

/-- Array n is to move to its spare by the staging set or a repair set (R115). -/
def movePending (s : State) (a : Nat) : Bool := staged s 0x2004 a == some [1] || inRepair s a

/-- The spare of a cluster serves, or is staged for, another array than `a`. -/
def spareTaken (s : State) (a : Nat) : Bool :=
  (clusterArrays (clusterOf a)).any (fun b => b != a && (onSpare s b || movePending s b))

/-- Steward core 6 stages the substitution of a failed array in a repair set 64 beats ahead, whether or not the staging set holds it too
(R115). -/
def autoRepair (a : Nat) (s : State) : State :=
  if flagSet s 0x3005 0 = false ∨ onSpare s a = true ∨ spareTaken s a = true ∨ siteFailed s (256 + clusterOf a) = true ∨
      inRepair s a = true then s
  else
    let now := s.beat.count
    modFab (fun f => { f with repairs := match f.repairs.getLast? with
      | none => [⟨now + 64, [a]⟩]
      | some p =>
        if now + 2 ≤ p.commit then f.repairs.dropLast ++ [{ p with arrays := p.arrays ++ [a] }]
        else f.repairs ++ [⟨(if now < p.commit then p.commit else now) + 64, [a]⟩] }) s

/-- An array site fails: its array becomes FAILED and EVT_ARRAY_FAULT is raised; a site known to have failed stays so. In the beats that
run now its stations go on to the end (R113). -/
def failSite (site : Nat) (s : State) : State :=
  if 272 ≤ site ∨ siteFailed s site then s
  else
    let s' := modFab (fun f => { f with failedSites := f.failedSites ++ [site] }) s
    let s' := event evtArrayFault (atInst site) [] s'
    match arrayAt s site with
    | none => s'
    | some a =>
      let running := ((residents s).filter (fun e => (slotOf s e.1).beat.phase != 0)).map (fun e => (e.1, a))
      let s' := modFab (fun f => { f with states := kput f.states a (2 + kgetD 0 f.states a % 2), failing := f.failing ++ running }) s'
      if site < 256 then autoRepair a s' else s'

/-- The self-test of an array that runs takes the failure as its result. -/
def testFails (site : Nat) (s : State) : State :=
  match arrayAt s site with
  | some a => if kgetD 0 s.fab.selftest a = 1 then count 0x5019 0 1 (modFab (fun f => { f with selftest := kput f.selftest a 3 }) s) else s
  | none => s

def execArraySiteFail (site : Nat) (s : State) : Outcome := done (if alive s then failSite site (testFails site s) else s)

/-! Self-tests (R113, R114, R118). -/

/-- The site is gated in this beat: no array of it works (R65, R114). -/
def siteGated (s : State) (site : Nat) : Bool :=
  match arrayAt s site with
  | none => true
  | some a => (arrayOf s a).gated || (slotsOn s a).isEmpty

/-- A self-test slice, one in each gated beat; 32 of them are a full pass, and a fault fails the site (R113, R114). -/
def execSelftestSlice (site : Nat) (fault : Bool) (s : State) : Outcome :=
  let p := kgetD (0, 0) s.fab.slices site
  done (if alive s = false ∨ setting s 0x3001 0 = 0 ∨ 272 ≤ site ∨ siteGated s site = false ∨ s.beat.count < p.2 then s
  else if fault then
    let s := modFab (fun f => { f with slices := kdel f.slices site, selftest := match arrayAt s site with
      | some a => kput f.selftest a 3
      | none => f.selftest }) s
    failSite site (count 0x5019 0 1 s)
  else if p.1 + 1 < 32 then modFab (fun f => { f with slices := kput f.slices site (p.1 + 1, s.beat.count + 1) }) s
  else modFab (fun f => { f with
      slices := kput f.slices site (0, s.beat.count + 1), lastPass := kput f.lastPass site s.beat.count
      selftest := match arrayAt s site with
        | some a => if kgetD 0 f.selftest a = 1 then f.selftest else kput f.selftest a 2
        | none => f.selftest }) s)

/-- The write of 3002.n (R118). -/
def selftestEffect (a : Nat) (s : State) : Effect :=
  checked [(kgetD 0 s.fab.selftest a == 1, stBusy), (!(slotsOn s a).isEmpty, stState)] s
    (modFab (fun f => { f with selftest := kput f.selftest a 1 }))

/-- The self-test of an array ends (R118). -/
def execSelftestDone (array : Nat) (s : State) : Outcome :=
  done (match kgetD 0 s.fab.selftest array with
    | 1 =>
      if alive s then
        modFab (fun f => { f with selftest := kput f.selftest array 2, lastPass := kput f.lastPass (siteOf s array) s.beat.count }) s
      else s
    | _ => s)

/-- 3003.n: once 3001.00 beats have passed since its last complete pass, a site is overdue (R114, R118). A site that has never completed one
counts them from beat 0: DESIGN CHOICE, assumption log 22. -/
def selftestResult (s : State) (a : Nat) : Nat :=
  let k := kgetD 0 s.fab.selftest a
  let bound := setting s 0x3001 0
  if (k = 0 ∨ k = 2) ∧ bound ≠ 0 ∧ kgetD 0 s.fab.lastPass (siteOf s a) + bound ≤ s.beat.count then 4 else k

/-- The write of 3004.n has the effects of R113 at once. -/
def markFailedEffect (a : Nat) (s : State) : Effect := checked [] s (failSite (siteOf s a))

/-- The write of 2004.n as the staging set takes it (R115). -/
def substitutionStatus (s : State) (a v : Nat) : Nat :=
  if v = 1 then firstStatus [(siteFailed s (256 + clusterOf a), stState), (spareTaken s a, stCapacity)]
  else firstStatus [(siteFailed s a, stState)]

/-- A fault in a switch is not repaired by a spare (R117). -/
def execSwitchFault (array : Nat) (s : State) : Outcome :=
  done (if alive s then event evtSwitchFault (atInst array) []
    (modFab (fun f => { f with faultySwitches := if f.faultySwitches.contains array then f.faultySwitches else f.faultySwitches ++ [array] }) s)
  else s)

/-! Substitution (R116). -/

/-- The transfers by which a serving route fills the buffers of its stations on an array. -/
def bufferLoads (r : Route) (a : Nat) : List Nat :=
  ((r.stationsOn a).flatMap (fun st => (st.ops.filter (fun o => o.kind == 2)).map (·.program))).eraseDups.filter (fun k =>
    (r.transfers[k]?).any (fun d => d.kind == 0 && d.pair == 0xFFFF))

/-- A buffer starts to be reloaded, from the bank in force (R116, R442). -/
def startReload (a slot : Nat) (r : Route) (k : Nat) (s : State) : State :=
  match r.transfers[k]? with
  | none => s
  | some d => enqueueDesc a slot (.reload k) { d with source := bankOf s slot (serveOf s slot).bank d.source } none
      (modServe slot (fun x => { x with reloading := x.reloading.filter (· != (a, k)) ++ [(a, k)] }) s)

/-- The array starts afresh on its new site: memories zeroed, its completion records kept, the drover threads of its stations at their
entry points. Training routes with a station on it void their step, serving routes reload its buffers (R116). -/
def freshSite (a : Nat) (s : State) : State :=
  let on := slotsOn s a
  let threads := on.flatMap (fun e => (e.2.stationsOn a).flatMap (fun st => [st.info.thread, 16 + st.info.thread]))
  let s := modArray a (fun x => { ArrayState.reset with records := x.records, written := x.written, gated := x.gated }) s
  let s := modEngine a (fun x => { x with drovers := threads.foldl (fun m n => kput m n ⟨1, []⟩) [] }) s
  on.foldl (fun s e => if e.2.training then pendVoid e.1 0 evtSpareIn s
    else (bufferLoads e.2 a).foldl (fun s k => startReload a e.1 e.2 k s) s) s

/-- A substitution takes effect: the spare takes the logical number, unless it has failed (R116). -/
def substitute (a : Nat) (s : State) : State :=
  if onSpare s a then s
  else if siteFailed s (256 + clusterOf a) then event evtSpareLost (atInst a) [] s
  else
    let s := freshSite a (modFab (fun f => { f with states := kput f.states a 1 }) s)
    event evtSpareIn (atInst a) [] (count 0x5018 0 1 s)

/-- A return takes effect: the array goes back to its own site, unless that has failed (R116). -/
def returnHome (a : Nat) (s : State) : State :=
  if onSpare s a = false ∨ siteFailed s a = true then s
  else freshSite a (modFab (fun f => { f with states := kputD 0 f.states a 0 }) s)

/-- Now is cycle 0 of the beat at which something is to come into force; a beat that the count passed over counts as the one that it went to
(R51). -/
def commitNow (s : State) (commit : Nat) : Bool :=
  decide (s.clock = s.beat.opened) && decide (commit ≤ s.beat.count) && decide (s.beat.before < commit)

/-- A repair set comes into force at cycle 0 of its commit beat (R115, R116, R403). -/
def execRepairSetCommit (s : State) : Outcome :=
  match s.fab.repairs with
  | [] => done s
  | p :: rest =>
    done (if commitNow s p.commit then p.arrays.foldl (fun s a => substitute a s) (modFab (fun f => { f with repairs := rest }) s) else s)

end Sys2Proof.Machine
end

