-- ==== Sys2Proof/Machine/Links.lean ====
section
/-! DEFINITION. Chip links: lanes (R333-R337), flits, sequences and retry (R338-R340), channels and credits (R342, R343), routing
(R344, R345), control frames (R346, R347), and links that come up or go down (R340, R341). -/

namespace Sys2Proof.Machine

/-! Lanes. -/

def connectorOf (l : Nat) : Nat := l / 4
def sideOf (l : Nat) : Nat := l / 16

/-- Both ends of the link report one device number: it is kept out of every route (R341). -/
def linkClash (s : State) (l : Nat) : Bool := (linkOf s l).peer == deviceNumber s

/-- The link carries flits: up, or up on three lanes (R358). -/
def linkIsUp (s : State) (l : Nat) : Bool := (linkOf s l).state == 2 || (linkOf s l).state == 3

/-- A control frame waits on a link: flits of 240 bytes, ahead of any data (R345's table). -/
def sendFrame (l kind dest : Nat) (payload : Bytes) (s : State) : State :=
  let n := max 1 (ceilDiv payload.length 240)
  let fs := (List.range n).map (fun i => ({
    kind := 3, first := i == 0, last := i + 1 == n, channel := kind, dest := dest, set := 0, slot := 0
    payload := slice payload (240 * i) 240, via := none } : Flit))
  emit (.control l kind payload) (modLink l (fun x => { x with control := x.control ++ fs }) s)

/-- Links whose far end is up: control frames leave on them. -/
def sendUp (l kind : Nat) (payload : Bytes) (s : State) : State :=
  if linkIsUp s l then sendFrame l kind (linkOf s l).peer payload s else s

/-- The link goes down (R340): what it has sent and is not acknowledged is sent again when it comes up. -/
def linkDown (l : Nat) (s : State) : State :=
  if (linkOf s l).state = 4 then s
  else
    let s := modLink l (fun x => { x with
      state := 4, spareStep := 0, asked := 0, askedSeq := none, resend := x.retry.head?.map (·.1), discarding := false }) s
    event evtLinkDown (atInst l) [] (count 0x5507 l 1 s)

/-- The connector's spare lane serves, or is being trained for, one of its links (R333, R337). -/
def spareBusy (s : State) (l : Nat) : Bool :=
  (List.range 4).any (fun j =>
    let x := linkOf s (connectorOf l * 4 + j)
    x.spare || x.spareStep != 0)

def lanesInUse (x : Link) : Nat := 4 - x.failed.length + (if x.spare then 1 else 0)

/-- A lane in use fails: the link goes on over three lanes after 4 µs, and a second failure takes it down (R337). Lane 16 is the
spare lane. -/
def laneLost (l lane : Nat) (s : State) : State :=
  let x := linkOf s l
  if linkIsUp s l = false ∨ (lane = 16 ∧ x.spare = false) ∨ (lane ≠ 16 ∧ (4 ≤ lane ∨ x.failed.contains lane = true)) then s
  else
    let was := lanesInUse x
    let s := count 0x5506 l 1 (event evtLaneFail (atInst l) (le 1 lane) s)
    let s := modLink l (fun x => if lane = 16 then { x with spare := false } else { x with failed := x.failed ++ [lane] }) s
    if was ≤ 3 then linkDown l s
    else
      let train := flagSet s 0x3803 0 && !spareBusy s l && lane != 16
      modLink l (fun x => { x with state := 3, quietUntil := s.clock + 6800, spareStep := if train then 1 else 0 }) s

def execLaneFail (link lane : Nat) (s : State) : Outcome :=
  done (let s' := laneLost link lane s
    if linkIsUp s link ∧ linkIsUp s' link ∧ (linkOf s' link).state = 3 ∧ (linkOf s link).state ≠ 3 then
      sendUp link 8 (le 1 lane ++ le 1 0) s' else s')

/-- The background training of the spare lane ends; it waits for a fabric beat boundary (R337). -/
def execSpareLaneTrained (link : Nat) (s : State) : Outcome :=
  done (if (linkOf s link).spareStep = 1 then modLink link (fun x => { x with spareStep := 2 }) s else s)

/-- The spare lane joins at a fabric beat boundary and the link is back on four lanes (R337). -/
def execSpareLaneJoin (link : Nat) (s : State) : Outcome :=
  done (if (linkOf s link).spareStep = 2 ∧ (linkOf s link).state = 3 ∧ s.clock = s.beat.opened then
    sendUp link 8 (le 1 16 ++ le 1 1) (modLink link (fun x => { x with spareStep := 0, spare := true, state := 2 }) s)
  else s)

/-- The far end tells that it lost a lane (kind 0) or that the spare lane joins (kind 1): a lane pair is used both ways
(R333, R337). -/
def execLaneControlFrame (link lane kind : Nat) (s : State) : Outcome :=
  done (if linkIsUp s link = false then s
  else if kind = 1 then modLink link (fun x => { x with spare := true, spareStep := 0, state := 2 }) s
  else if lane < 4 ∧ (linkOf s link).failed.contains lane = false then
    if lanesInUse (linkOf s link) ≤ 3 then linkDown link (modLink link (fun x => { x with failed := x.failed ++ [lane] }) s)
    else modLink link (fun x => { x with failed := x.failed ++ [lane], state := 3, quietUntil := s.clock + 6800 }) s
  else s)

/-- 2806.n. -/
def lanesValue (x : Link) : Nat :=
  (if x.spare then 16 else 0) + sumNat ((List.range 4).map (fun i => if x.failed.contains i then 0 else 2 ^ i))

/-! Channels. -/

/-- The buddy links (2904.00). -/
def buddyLink (s : State) (l : Nat) : Bool := bit (setting s 0x2904 0) l

/-- Flits of the far end's receive buffer that a channel may fill: the grant of the route's channel record, 3902.00 for the buddy
channel (R342, R391). -/
def grantOf (s : State) (l c : Nat) : Nat :=
  if c = 63 ∧ buddyLink s l then setting s 0x3902 0
  else sumNat ((residents s).map (fun e => sumNat ((e.2.plan.channels.filter (fun x => x.link == l && x.channel == c)).map (·.grant))))

def creditLeft (s : State) (l c : Nat) : Nat := grantOf s l c - kgetD 0 (linkOf s l).spent c

/-- The header of a flit (R338): acknowledge and credit ride on every header. -/
def flitHeader (f : Flit) (seq ack : Nat) (credit : Option (Nat × Nat)) : Bytes :=
  let b := le 1 (f.kind * 16 + (if f.last then 2 else 0) + (if f.first then 1 else 0)) ++ le 1 f.channel ++ le 2 (seq % 4096) ++
    le 2 (0x8000 + ack % 4096) ++ le 2 f.payload.length ++ le 2 (f.dest % 32768) ++ le 1 (f.set * 32 + f.slot) ++ [0] ++
    le 2 (credit.elim 0 (fun e => e.1 * 1024 + e.2))
  b ++ le 2 (crc16 b).toNat

/-- The first channel with credits to return, at most 1,023 at a time. -/
def owedCredit (x : Link) : Option (Nat × Nat) := x.owed.head?.map (fun e => (e.1, min e.2 1023))

/-- The credits that this end owes, once the next header has carried some of them. -/
def owedAfter (x : Link) : KMap Nat :=
  match owedCredit x with
  | some (c, n) => kputD 0 x.owed c (kgetD 0 x.owed c - n)
  | none => x.owed

/-- A link with nothing to send: a credit flit where credits are owed, an idle flit otherwise; both carry the acknowledgement and neither is
numbered (R338, R339, R343). -/
def sendIdle (l : Nat) (s : State) : State :=
  let x := linkOf s l
  let f : Flit := ⟨if x.owed.isEmpty then 0 else 2, false, false, 0, 0, 0, 0, [], none⟩
  emit (.flit l (flitHeader f x.txSeq (x.rxSeq + 4095) (owedCredit x)) []) (modLink l (fun x => { x with owed := owedAfter x }) s)

/-- A flit leaves: numbered, kept for a resend, with the credit that this end owes. -/
def putFlit (l : Nat) (f : Flit) (s : State) : State :=
  let x := linkOf s l
  let s := modLink l (fun x => { x with
    txSeq := (x.txSeq + 1) % 4096, retry := x.retry ++ [(x.txSeq, f)]
    owed := owedAfter x }) s
  let s := match f.via with
    | some u => modLink u (fun y => { y with owed := kput y.owed f.channel (kgetD 0 y.owed f.channel + 1) }) s
    | none => s
  count 0x5500 l 1 (emit (.flit l (flitHeader f x.txSeq (x.rxSeq + 4095) (owedCredit x)) f.payload) s)

/-- Another channel than the buddy's has a flit ready with credit (R391). -/
def othersReady (s : State) (l : Nat) : Bool :=
  (linkOf s l).queues.any (fun e => e.1 != 63 && !e.2.isEmpty && decide (0 < creditLeft s l e.1))

/-- One flit slot of a link, offered to a channel: a resend first, then control frames, then the channel's flit if it holds a
credit (R339, R343, R345). A full retry buffer, and a link with nothing to send, sends idle or credit flits. -/
def execFlitSend (link channel : Nat) (s : State) : Outcome :=
  let x := linkOf s link
  if linkIsUp s link = false ∨ s.clock < x.quietUntil then done s
  else match x.resend with
    | some q =>
      match x.retry.find? (fun e => e.1 == q) with
      | none => done (modLink link (fun x => { x with resend := none }) s)
      | some (_, f) =>
        let more := (x.retry.dropWhile (fun e => e.1 != q)).drop 1
        done (count 0x5500 link 1 (emit (.flit link (flitHeader f q (x.rxSeq + 4095) none) f.payload)
          (modLink link (fun x => { x with resend := more.head?.map (·.1) }) s)))
    | none =>
      if 512 ≤ x.retry.length then done (sendIdle link s)
      else match x.control with
        | f :: rest => done (putFlit link f (modLink link (fun x => { x with control := rest }) s))
        | [] =>
          match kgetD [] x.queues channel with
          | [] => done (sendIdle link s)
          | f :: rest =>
            if channel = 63 ∧ othersReady s link then done (sendIdle link s)
            else if creditLeft s link channel = 0 then done (sendIdle link (count (0x5600 + link) channel 1 s))
            else done (putFlit link f (modLink link (fun x => { x with
              queues := kputD [] x.queues channel rest, spent := kput x.spent channel (kgetD 0 x.spent channel + 1) }) s))

/-! Receiving (R339, R343, R344). -/

/-- `k` sequence numbers from `a` up to `b`, modulo 4,096. -/
def seqDistance (a b : Nat) : Nat := (b + 4096 - a) % 4096

/-- The acknowledge and credit fields of a good header. -/
def takeReturns (l : Nat) (h : Bytes) (s : State) : State :=
  let ack := field h 4 2
  let credit := field h 12 2
  let s := if bit ack 15 then modLink l (fun x => { x with
      retry := x.retry.filter (fun e => 2048 ≤ seqDistance e.1 (ack % 4096)) }) s else s
  let n := credit % 1024
  if n = 0 then s else modLink l (fun x => { x with spent := kputD 0 x.spent (credit / 1024) (kgetD 0 x.spent (credit / 1024) - n) }) s

/-- The link that a route's table names for a destination on a side; `none` for FFh or a device without an entry (R344). -/
def routeLink (r : Route) (set dest side : Nat) : Option Nat :=
  match r.linkTables.find? (fun e => e.set == set && e.device == dest) with
  | some e => let b := (e.sides.getD side 0xFF).toNat
              if b = 0xFF then none else some b
  | none => none

/-- The stream of a route that another module sends over a channel of a link (R140, R342), and the one that this module sends over it. -/
def peerStream (r : Route) (l c : Nat) : Option StreamRow :=
  r.streams.find? (fun o => o.fromPeer.isSome && o.channel == some c && o.links.contains l)
def ownStream (r : Route) (l c : Nat) : Option StreamRow :=
  r.streams.find? (fun o => o.peer.isSome && o.channel == some c && o.links.contains l)

/-- What a channel has brought for this module, once it is whole: four bytes are a credit word of the stream that leaves over the channel
(R128, R140); a tile waits at the ring port of its link to enter the mesh. -/
def takeWhole (l c slot : Nat) (bytes : Bytes) (s : State) : State :=
  match routeOf s slot with
  | none => s
  | some r =>
    if bytes.length = 4 then
      match ownStream r l c with
      | some o => addCredit slot o.number (field bytes 0 2) s
      | none => s
    else match peerStream r l c with
      | some o => putStaged slot o.number ⟨bytes.take 32, bytes.drop 32⟩ s
      | none => s

/-- A data flit in order: for this module it joins the tile of its channel; for another it leaves by the table of its route slot and set
(R344, R345, R367). -/
def takeData (l : Nat) (h payload : Bytes) (s : State) : State :=
  let c := field h 1 1 % 64
  let slot := field h 10 1 % 4
  let set := field h 10 1 / 32
  let dest := field h 8 2 % 32768
  let k := field h 0 1
  let back := modLink l (fun x => { x with owed := kput x.owed c (kgetD 0 x.owed c + 1) })
  if dest = deviceNumber s then
    let s := back s
    let sofar := (if bit k 0 then [] else kgetD [] (linkOf s l).parts c) ++ payload.take (field h 6 2)
    if bit k 1 then takeWhole l c slot sofar (modLink l (fun x => { x with parts := kdel x.parts c }) s)
    else modLink l (fun x => { x with parts := kput x.parts c sofar }) s
  else match (routeOf s slot).bind (fun r => routeLink r set dest (sideOf l)) with
    | none => count 0x5508 l 1 (back s)
    | some out => count 0x5509 l 1 (queueFlits out c [⟨1, bit k 0, bit k 1, c, dest, set, slot, payload.take (field h 6 2), some l⟩] s)

/-- The header of a flit is good: 16 bytes with its check. -/
def flitOk (h : Bytes) : Bool := h.length == 16 && field h 14 2 == (crc16 (h.take 14)).toNat

/-- The sender goes back to a flit (R339); repeated requests for one flit take the link down (R340). -/
def resendFrom (l seq : Nat) (s : State) : State :=
  let x := linkOf s l
  let n := if x.askedSeq = some seq then x.asked + 1 else 1
  let s := modLink l (fun x => { x with
    askedSeq := some seq, asked := n
    retry := x.retry.filter (fun e => 2048 ≤ seqDistance e.1 ((seq + 4095) % 4096))
    resend := if x.retry.any (fun e => e.1 == seq) then some seq else x.resend }) s
  if setting s 0x3802 0 ≤ n then linkDown l s else s

/-- A flit arrives (R339). Idle, credit and retry-request flits carry no sequence of their own; the frames that control flits
make up have their effect as commands of their own. -/
def receiveFlit (link : Nat) (header payload : Bytes) (s : State) : Outcome :=
  if linkIsUp s link = false then done s
  else
    let s := count 0x5501 link 1 s
    let x := linkOf s link
    let k := field header 0 1 / 16
    if flitOk header = false then
      let s := count 0x5502 link 1 s
      done (if x.discarding then s
        else count 0x5503 link 1 (emit (.retry link x.rxSeq) (modLink link (fun x => { x with discarding := true }) s)))
    else if k = 0 ∨ k = 2 then done (takeReturns link header s)
    else if k = 4 then done (resendFrom link (field header 2 2 % 4096) (takeReturns link header s))
    else if 5 ≤ k then done s
    else if field header 2 2 % 4096 ≠ x.rxSeq then done (count 0x5502 link 1 (takeReturns link header s))
    else
      let s := modLink link (fun x => { x with rxSeq := (x.rxSeq + 1) % 4096, discarding := false }) (takeReturns link header s)
      done (if k = 1 then takeData link header payload s else s)

/-- The FEC decoder of a link that is up adds the symbols it has corrected and the codewords it could not correct in what brought
the flit; the flit goes on as decoded (R336). -/
def decodeFec (link corrected uncorrectable : Nat) (s : State) : State :=
  if linkIsUp s link then count 0x5505 link uncorrectable (count 0x5504 link corrected s) else s

def execFlitReceive (link : Nat) (header payload : Bytes) (corrected uncorrectable : Nat) (s : State) : Outcome :=
  receiveFlit link header payload (decodeFec link corrected uncorrectable s)

def execRetryRequest (link sequence : Nat) (s : State) : Outcome :=
  done (if linkIsUp s link then resendFrom link (sequence % 4096) s else s)

/-! Links that train (R340, R341, R49). -/

/-- A latency probe leaves on a link (R49). -/
def sendProbe (l : Nat) (s : State) : State :=
  sendUp l 2 (le 8 s.clock) (if linkIsUp s l then modBeat (fun b => { b with probes := kput b.probes l s.clock }) s else s)

/-- The link may train: firmware runs, the link is enabled and in chip-link mode, its connector's supply is not shorted (R358, R483,
R499). -/
def mayTrain (s : State) (l : Nat) : Bool :=
  firmwareRuns s && flagSet s 0x2807 l && !s.power.cableOff.contains (connectorOf l) && (linkOf s l).state != 5

/-- A link that is down trains again, at once and then every second (R340). -/
def execLinkRetrain (link : Nat) (s : State) : Outcome :=
  done (if (linkOf s link).state = 4 ∧ mayTrain s link then modLink link (fun x => { x with state := 1 }) s else s)

/-- The training of a link ends: it is up, and each end sends its identity (R341). -/
def execLinkUp (link : Nat) (s : State) : Outcome :=
  done (if (linkOf s link).state = 1 ∧ mayTrain s link ∧ link < 64 then
    let s := modLink link (fun x => { x with state := if lanesInUse x ≤ 3 then 3 else 2, peer := 0xFFFF, peerLink := 0xFF }) s
    sendFrame link 9 0xFFFF (le 2 (deviceNumber s) ++ le 1 link) s
  else s)

/-- The far end names itself (R341, R383); the link's latency is measured (R49). -/
def execIdentityFrame (link device peerLink : Nat) (s : State) : Outcome :=
  done (if linkIsUp s link = false then s
  else
    let same := device == deviceNumber s
    let lost := s.net.failedDevices.contains device
    let s := modLink link (fun x => { x with peer := device, peerLink := peerLink, takenOver := lost }) s
    let s := if same then event evtDevnumClash (atInst link) (le 2 device) s else s
    let s := if lost then event evtTakenOverPeer (atInst link) (le 2 device) s else s
    sendProbe link s)

/-- The own configuration digest at a beat count: the one sent then, or the one in force since before it (R347). -/
def digestAt (s : State) (beat : Nat) : Option Bytes :=
  match kget s.net.digests beat with
  | some d => some d
  | none => if s.dict.lastCommit ≤ beat then some s.dict.digest else none

/-- A digest frame is compared with the own digest at the same beat count (R347, R401). -/
def execDigestFrame (link : Nat) (digest : Bytes) (beat : Nat) (s : State) : Outcome :=
  done (if linkIsUp s link = false then s
  else match digestAt s beat with
    | none => s
    | some own =>
      if own = digest then modNet (fun n => { n with diverged := n.diverged.filter (· != link) }) s
      else event evtCfgDiverge (atInst link) [] (count 0x5021 0 1
        (modNet (fun n => { n with diverged := if n.diverged.contains link then n.diverged else n.diverged ++ [link] }) s)))

/-- 3804.n, 2807.n and 2F20.n: what forbids taking a link away (R354, R358). The tables of a resident route, a collective record
or the mark tree name it. -/
def linkNamed (s : State) (l : Nat) : Bool :=
  inUse s 0x110C 0 == le 1 l || inUse s 0x110C 1 == le 1 l ||
  (residents s).any (fun e =>
    e.2.linkTables.any (fun t => t.sides.any (fun b => b.toNat == l)) ||
    e.2.streams.any (fun o => o.links.contains l) || e.2.plan.channels.any (fun c => c.link == l) ||
    e.2.collectives.any (fun c => c.links.contains l))

/-- A link goes into training. -/
def retrain (l : Nat) : State → State :=
  modLink l (fun x => { x with state := 1, spareStep := 0, resend := x.retry.head?.map (·.1), peer := 0xFFFF, peerLink := 0xFF })

/-- The port answers a write of 2F20.n: it negotiates, or goes back to chip-link mode and trains (R354). One that 2807.n disables is off. -/
def setPortMode (l v : Nat) (s : State) : State :=
  let on := flagSet s 0x2807 l
  modLink l (fun x => { Link.reset with
    state := if on = false then 0 else if v = 0 then 1 else 5, port := if on = true ∧ v ≠ 0 then 1 else 0, failed := x.failed }) s

/-- The link answers a write of 2807.n (R358). -/
def enableLink (l v : Nat) (s : State) : State :=
  if v = 0 then modLink l (fun x => { x with state := 0, port := 0, peer := 0xFFFF, peerLink := 0xFF }) s
  else if (linkOf s l).state ≠ 0 then s
  else if setting s 0x2F20 l = 0 then retrain l s
  else setPortMode l (setting s 0x2F20 l) s

/-- Auto-negotiation and training of a direct port end: it is up (R355, R359). -/
def execAutoNegotiationDone (link : Nat) (s : State) : Outcome :=
  done (if (linkOf s link).state = 5 then modLink link (fun x => { x with port := 2 }) s else s)

/-- A direct port loses its link: it is down until it has negotiated again (R359). -/
def execEthernetPortDown (link : Nat) (s : State) : Outcome :=
  done (if (linkOf s link).state = 5 then modLink link (fun x => { x with port := 0 }) s else s)

/-! The management port (R359, R510). -/

def execManagementLinkUp (s : State) : Outcome := done (if firmwareRuns s then modNet (fun n => { n with management := 1 }) s else s)
def execManagementLinkDown (s : State) : Outcome := done (modNet (fun n => { n with management := 0 }) s)

/-- ARP (kind 0), ICMP echo (1), neighbour discovery (2) and ICMPv6 echo (3) are answered with what they ask for: the MAC address,
or the echo's own data (R359). Nothing else is. -/
def execManagementEchoRequest (kind : Nat) (data : Bytes) (s : State) : Outcome :=
  done (if s.net.management = 1 ∧ kind < 4 ∧ firmwareRuns s = true then
    emit (.echo kind (if kind % 2 = 1 then data else le 6 Config.managementMac)) s else s)

end Sys2Proof.Machine
end

