-- ==== Sys2Proof/Machine/Transcend.lean ====
section
/-! DEFINITION. The transcendentals of the Glaze unit (R196): the exactly rounded result, from fixed-point values with 128 bits
after the point, and the free distance from it within the bound of the table. -/

namespace Sys2Proof.Machine

/-- Fixed point: 128 bits after the point. -/
def fixOne : Nat := 2 ^ 128

/-- ln 2, 1 ÷ ln 2 and 2 ÷ √π in fixed point. -/
def fixLn2 : Nat := 235865763225513294137944142764154484399
def fixLog2e : Nat := 490923683258796565746369346286093237521
def fixErf : Nat := 383967533763538142977158567454335403656

def fixMul (a b : Nat) : Nat := a * b / fixOne

/-- Σ term over the exponential series: `k` is the index of `term`. -/
def expSeries (x : Nat) : Nat → Nat → Nat → Nat
  | 0, _, term => term
  | fuel + 1, k, term => term + expSeries x fuel (k + 1) (fixMul term x / (k + 1))

/-- 2^(n ÷ 2^128) for 0 ≤ n < 2^128, in fixed point. -/
def fixExp2 (frac : Nat) : Nat := expSeries (fixMul frac fixLn2) 45 0 fixOne

/-- The binary digits of log2 of a number between 1 and 2 in fixed point, by squaring. -/
def log2Digits : Nat → Nat → Nat → Nat
  | 0, _, acc => acc
  | fuel + 1, x, acc =>
    let y := fixMul x x
    if 2 * fixOne ≤ y then log2Digits fuel (y / 2) (2 * acc + 1) else log2Digits fuel y (2 * acc)

/-- The number m × 2^e in fixed point, truncated. -/
def toFix (m : Nat) (e : Int) : Nat := if 0 ≤ e + 128 then m * 2 ^ (e + 128).toNat else m / 2 ^ (-(e + 128)).toNat

/-- The exactly rounded base-2 exponential of a finite value. -/
def exp2Exact (neg : Bool) (m : Nat) (e : Int) : Word :=
  let x := toFix m e
  let n := x / fixOne
  let f := x % fixOne
  if neg then (if f = 0 then toF32 (.fin false 1 (-(n : Int))) else toF32 (.fin false (fixExp2 (fixOne - f)) (-(n : Int) - 129)))
  else toF32 (.fin false (fixExp2 f) ((n : Int) - 128))

/-- The exactly rounded base-2 logarithm of a positive finite value. -/
def log2Exact (m : Nat) (e : Int) : Word :=
  let l := Nat.log2 m
  let whole : Int := ((l : Int) + e) * 2 ^ 100
  let x := whole + (log2Digits 100 (toFix m (-(l : Int))) 0 : Nat)
  toF32 (.fin (x < 0) x.natAbs (-100))

/-- The exactly rounded reciprocal square root of a positive finite value. -/
def rsqrtExact (m : Nat) (e : Int) : Word :=
  let (m, e) := if e % 2 = 0 then (m, e) else (2 * m, e - 1)
  toF32 (.fin false (isqrt (2 ^ 200 / m)) (-100 - e / 2))

/-- The exactly rounded hyperbolic tangent of a finite value that is not zero. -/
def tanhExact (neg : Bool) (m : Nat) (e : Int) : Word :=
  let l := flog2 m e
  if l < -10 then
    let x2 := toFix (m * m) (2 * e)
    toF32 (.fin neg (m * (fixOne - x2 / 3 + 2 * fixMul x2 x2 / 15)) (e - 128))
  else if 3 < l then toF32 (.fin neg 1 0)
  else
    let y := fixMul (2 * toFix m e) fixLog2e
    let ex := fixExp2 (y % fixOne) * 2 ^ (y / fixOne)
    toF32 (.fin neg ((ex - fixOne) * fixOne / (ex + fixOne)) (-128))

/-- Partial sums of Σ (−1)^n x^2n ÷ (n! (2n + 1)) with `t` = x^2n ÷ n!: positive and negative terms apart. -/
def erfSeries (x2 : Nat) : Nat → Nat → Nat → Nat × Nat
  | 0, _, _ => (0, 0)
  | fuel + 1, n, t =>
    let r := erfSeries x2 fuel (n + 1) (fixMul t x2 / (n + 1))
    (r.2 + t / (2 * n + 1), r.1)

/-- The exactly rounded error function of a finite value that is not zero. -/
def erfExact (neg : Bool) (m : Nat) (e : Int) : Word :=
  if 1 < flog2 m e then toF32 (.fin neg 1 0)
  else
    let r := erfSeries (toFix (m * m) (2 * e)) 90 0 fixOne
    toF32 (.fin neg (m * fixMul (r.1 - r.2) fixErf) (e - 128))

/-- A result moved by a distance of `d` − `bound` units in the last place; it keeps its sign and does not pass zero. -/
def moveUlp (bound d : Nat) (w : Word) : Word :=
  let mag := w.toNat % 2 ^ 31
  if 0x7F800000 ≤ mag then w
  else BitVec.ofNat 32 (w.toNat - mag + min (mag + d - bound) 0x7F800000)

/-- The results of R196 with its special values; a NaN operand gives the NaN of R195. -/
def nan32 : Word := 0x7FC00000#32
def inf32 : Word := 0x7F800000#32

def exp2Result (x : Word) : Word :=
  match f32 x with
  | .nan _ => nan32
  | .inf neg => if neg then 0 else inf32
  | .fin neg m e =>
    if flt (fint 128) (f32 x) then inf32 else if flt (f32 x) (fint (-149)) then 0
    else moveUlp 1 (Config.exp2Ulp x).val (exp2Exact neg m e)

def log2Result (x : Word) : Word :=
  match f32 x with
  | .nan _ => nan32
  | .inf neg => if neg then nan32 else inf32
  | .fin neg m e =>
    if m = 0 then 0xFF800000#32 else if neg then nan32 else moveUlp 1 (Config.log2Ulp x).val (log2Exact m e)

def rcpResult (x : Word) : Word :=
  match f32 x with
  | .nan _ => nan32
  | .inf neg => if neg then 0x80000000#32 else 0
  | .fin neg m _ =>
    if m = 0 then (if neg then 0xFF800000#32 else inf32) else moveUlp 1 (Config.rcpUlp x).val (div32 0x3F800000#32 x)

def rsqrtResult (x : Word) : Word :=
  match f32 x with
  | .nan _ => nan32
  | .inf neg => if neg then nan32 else 0
  | .fin neg m e =>
    if m = 0 then (if neg then 0xFF800000#32 else inf32) else if neg then nan32
    else moveUlp 1 (Config.rsqrtUlp x).val (rsqrtExact m e)

def tanhResult (x : Word) : Word :=
  match f32 x with
  | .nan _ => nan32
  | .inf neg => if neg then 0xBF800000#32 else 0x3F800000#32
  | .fin neg m e => if m = 0 then x else moveUlp 2 (Config.tanhUlp x).val (tanhExact neg m e)

def erfResult (x : Word) : Word :=
  match f32 x with
  | .nan _ => nan32
  | .inf neg => if neg then 0xBF800000#32 else 0x3F800000#32
  | .fin neg m e => if m = 0 then x else moveUlp 2 (Config.erfUlp x).val (erfExact neg m e)

end Sys2Proof.Machine
end

