-- ==== Sys2Proof/Machine/Operands.lean ====
section
/-! DEFINITION. Operand forms of the Glaze instructions: fields of the instruction word (R192), tile and scalar registers (R185, R193), the
extent (R194), source B (R192), the formats and addresses of a memory access (R199), and the rounding of a store (R201, R206). -/

namespace Sys2Proof.Machine

/-- Fields of a Glaze instruction word (R192). -/
def gOpcode (w : BitVec 64) : Nat := bits w.toNat 63 58
def gVd (w : BitVec 64) : Nat := bits w.toNat 57 53
def gSd (w : BitVec 64) : Nat := bits w.toNat 56 53
def gVa (w : BitVec 64) : Nat := bits w.toNat 52 48
def gSa (w : BitVec 64) : Nat := bits w.toNat 51 48
def gVb (w : BitVec 64) : Nat := bits w.toNat 47 43
def gSb (w : BitVec 64) : Nat := bits w.toNat 46 43
def gStream (w : BitVec 64) : Nat := bits w.toNat 45 43
def gVc (w : BitVec 64) : Nat := bits w.toNat 42 38
def gMode (w : BitVec 64) : Nat := bits w.toNat 37 36
def gRounding (w : BitVec 64) : Nat := bits w.toNat 35 34
def gBit (w : BitVec 64) (i : Nat) : Bool := bit w.toNat i
def gImm (w : BitVec 64) : Nat := bits w.toNat 31 0

/-- A register row's lane, as a word. -/
def regGet (x : ArrayState) (v row lane : Nat) : Word := kgetD 0 x.regs (v * 2048 + row * 128 + lane)
def regPut (v row lane : Nat) (w : Word) (x : ArrayState) : ArrayState :=
  { x with regs := kputD 0 x.regs (v * 2048 + row * 128 + lane) w }

/-- What an instruction runs in: its array, thread number and thread, and whether subnormals are flushed (3201.00). -/
structure GCtx where
  a : Nat
  n : Nat
  t : Thread
  w : BitVec 64
  flush : Bool

/-- The positions of the extent (R194). -/
def GCtx.positions (c : GCtx) : List (Nat × Nat) :=
  (List.range c.t.rows).flatMap (fun r => (List.range c.t.lanes).map (fun l => (r, l)))

/-- Source B of a lane: row 0 of vB, a scalar register in every lane, or the same row (R192). -/
def sourceB (c : GCtx) (x : ArrayState) (r l : Nat) : Word :=
  if gBit c.w 30 then c.t.scalars.getD (gSb c.w) 0
  else regGet x (gVb c.w) (if gBit c.w 31 then 0 else r) l

/-! Memory accesses. -/

def gFormat (w : BitVec 64) : Nat := bits w.toNat 23 19
def gTarget (w : BitVec 64) : Nat := bits w.toNat 18 17
def gOffset (w : BitVec 64) : Nat := bits w.toNat 16 0
def gBase (c : GCtx) : Nat := (c.t.scalars.getD (bits c.w.toNat 31 28) 0).toNat
def gStride (c : GCtx) : Nat := (c.t.scalars.getD (bits c.w.toNat 27 24) 0).toNat

/-- Elements of a register row in a stored format, and those of the extent (R186): an integer takes a lane of its own in every mode
(R199). -/
def GCtx.full (c : GCtx) (f : EFmt) : Nat := if gMode c.w = 1 ∧ f.int = false then 256 else 128
def GCtx.inside (c : GCtx) (f : EFmt) : Nat := if gMode c.w = 1 ∧ f.int = false then 2 * c.t.lanes else c.t.lanes

/-- The stored format of a memory instruction; code FP32 or INT32 in packed mode moves the raw row of BF16 pairs (R199). -/
def rawRow (c : GCtx) : Bool := gFormat c.w == 0 || gFormat c.w == 0x0B || (gMode c.w == 1 && gFormat c.w == 1)

/-- Bytes of a stored row that an access touches. -/
def touched (c : GCtx) (f : EFmt) : Nat :=
  if rawRow c then 4 * c.t.lanes
  else if f.block = 0 then ceilDiv (c.inside f * f.width) 8 else rowBytes f (c.full f)

/-- Byte address of row r in the target (R199). -/
def rowAddress (c : GCtx) (r : Nat) : Nat := gBase c + gOffset c.w * 64 + r * gStride c

/-- Accumulator block row of row r. -/
def acmRow (c : GCtx) (r : Nat) : Nat := gOffset c.w % 4096 + (gBase c + r * gStride c) / 512

/-- Rounding under a rounding field, for the tile's tag and the route's step (R156, R201). -/
def roundingOf (s : State) (slot fieldCode : Nat) (tag : Word) : RndCtx :=
  { stochastic := if fieldCode = 0 then routeSetting s slot 0x2102 == 1 else fieldCode == 2
    base := routeSetting s slot 0x2104, step := stepOf s slot, tag := tag.toNat }

/-- Overflow goes to infinity where the format has one (2103.00). -/
def toInfinity (s : State) (slot : Nat) : Bool := routeSetting s slot 0x2103 == 1

/-- The stored format of a code under the table the route reads (R202). -/
def formatFor (s : State) (slot code : Nat) : EFmt := (formatOf (routeValue s slot 0x6200) code).getD ⟨fp32, false, 32, 0, false⟩

end Sys2Proof.Machine
end

