-- ==== Sys2Proof/Machine/GlazeOps.lean ====
section
/-! DEFINITION. What the Glaze instructions share: the thread that issues them (R188), lanes and element modes (R186), address faults
(R199, R207), and the advance to the next word. -/

namespace Sys2Proof.Machine

def setThread (a n : Nat) (t : Thread) : State → State := modArray a (fun x => { x with threads := kput x.threads n t })
def dropThread (a n : Nat) : State → State := modArray a (fun x => { x with threads := kdel x.threads n })

/-- The word after the present one, or the start of the innermost loop whose body ends there (R192). -/
def stepLoops : Nat → Nat → List (Nat × Nat × Nat) → Nat × List (Nat × Nat × Nat)
  | 0, pc, ls => (pc, ls)
  | _ + 1, pc, [] => (pc, [])
  | fuel + 1, pc, (first, stop, left) :: ls =>
    if pc = stop then (if 1 < left then (first, (first, stop, left - 1) :: ls) else stepLoops fuel pc ls)
    else (pc, (first, stop, left) :: ls)

/-- The thread at its next word, the instruction counted. -/
def Thread.next (t : Thread) : Thread :=
  let r := stepLoops 3 (t.pc + 1) t.loops
  { t with pc := r.1, loops := r.2, executed := t.executed + 1 }

/-- The instruction has executed: the thread goes on with its next word. -/
def glazeNext (c : GCtx) (s : State) : State := count 0x5248 c.a 1 (setThread c.a c.n c.t.next s)

/-- The scalar registers of a program at its start (R193). -/
def startScalars (s : State) (slot : Nat) (f : Flight) : List Word :=
  let at0 (k : Nat) : Word := (f.inputs[k]?).elim 0 (fun e => BitVec.ofNat 32 e.address)
  let h := (f.inputs.head?).elim [] (·.header)
  [f.tag, BitVec.ofNat 32 (stepOf s slot), at0 0, at0 1, at0 2, at0 3, BitVec.ofNat 32 (hdrValidRows h),
   BitVec.ofNat 32 (hdrValidCols h)] ++ List.replicate 8 0

/-- The instruction words of a program, after its 8-byte header (R187). -/
def programWords (p : ProgramRow) : List (BitVec 64) :=
  ((records 8 (p.bytes.drop 8)).take (field p.bytes 4 2)).map (fun b => BitVec.ofNat 64 (leNat b))

/-- A station's free D0 thread takes the oldest of its Glaze firings that has not run (R188). -/
def startProgram (slot n : Nat) (s : State) : State :=
  match (slotOf s slot).route.bind (fun r => (r.station n).map (fun st => (r, st))) with
  | none => s
  | some (r, st) =>
    let a := st.info.place
    if (kget (arrayOf s a).threads st.info.thread).isSome then s
    else
      match (stationOf s slot n).flight.find? (fun f => !f.finished && (st.ops[f.op]?).any (fun o => o.kind == 1)) with
      | none => s
      | some f =>
        let program := ((st.ops[f.op]?).bind (fun o => r.programs.find? (fun p => p.station == n && p.entry == o.program))).elim [] programWords
        setThread a st.info.thread
          { slot := slot, station := n, op := f.op, tag := f.tag, program := program, pc := 0, loops := [], scalars := startScalars s slot f
            rows := 16, lanes := 128, executed := 0, staging := [] } s

/-- The program is abandoned and its tag fails (R207). -/
def glazeAbandon (c : GCtx) (s : State) : State :=
  let s := dropThread c.a c.n s
  let s := leaveFlight c.t.slot c.t.station c.t.op c.t.tag s
  startProgram c.t.slot c.t.station <| failTag c.t.slot c.t.station c.t.tag (event evtGlazeFault (atSlotInst c.t.slot c.a) [] (count 0x524F c.a 1 s))

/-- The thread may issue: its slot holds the array, the array has not failed, and no handover is near (R188, R207). -/
def mayIssue (s : State) (a slot : Nat) : Bool :=
  arrayWorks s a slot && !(passes s a slot && 2 ≤ (slotOf s slot).beat.phase)

/-- Run the thread's present word, if it is the instruction of the given opcode; an event about another word, or a thread that
may not issue, has no effect. -/
def glazeRun (opcode a n : Nat) (f : GCtx → State → State) (s : State) : State :=
  match kget (arrayOf s a).threads n with
  | none => s
  | some t =>
    match t.program[t.pc]? with
    | none => s
    | some w =>
      if gOpcode w = opcode ∧ t.executed < 2 ^ 20 ∧ mayIssue s a t.slot = true then
        f ⟨a, n, t, w, routeSetting s t.slot 0x3201 == 1⟩ s
      else s

/-! Lanes. -/

/-- A BF16 half read as FP32, and an FP32 value rounded to a BF16 half (R186). -/
def halfToWord (h : Nat) : Word := BitVec.ofNat 32 (h % 65536 * 65536)
def wordToHalf (w : Word) : Nat := roundTo bf16 (f32 w)
def lowHalf (w : Word) : Nat := w.toNat % 65536
def highHalf (w : Word) : Nat := w.toNat / 65536
def packHalves (lo hi : Nat) : Word := BitVec.ofNat 32 (lo + hi * 65536)

/-- A floating-point result as it is written: the NaN of R195, subnormals flushed under 3201.00. -/
def fixResult (flush : Bool) (w : Word) : Word := if isNan32 w then nan32 else flush32 flush w

/-- A floating-point operation on one element in FP32. -/
def elementOp (flush : Bool) (f : Word → Word → Word → Word) (a b c : Word) : Word :=
  fixResult flush (f (flush32 flush a) (flush32 flush b) (flush32 flush c))

/-- An operation on a lane in an element mode: FP32, each half of packed BF16 on its own, or INT32 (R186). -/
def laneOp (mode : Nat) (flush : Bool) (f : Word → Word → Word → Word) (g : Word → Word → Word → Word) (a b c : Word) : Word :=
  match mode with
  | 1 =>
    let half (sel : Word → Nat) := wordToHalf (elementOp flush f (halfToWord (sel a)) (halfToWord (sel b)) (halfToWord (sel c)))
    let fl (h : Nat) := (flush32 flush (halfToWord h)).toNat / 65536
    packHalves (fl (half lowHalf)) (fl (half highHalf))
  | 2 => g a b c
  | _ => elementOp flush f a b c

/-- NaN results in a lane (R195). -/
def laneNans (mode : Nat) (w : Word) : Nat :=
  match mode with
  | 1 => (if isNan32 (halfToWord (lowHalf w)) then 1 else 0) + (if isNan32 (halfToWord (highHalf w)) then 1 else 0)
  | 2 => 0
  | _ => if isNan32 w then 1 else 0

/-- An element-wise instruction: each lane of the extent computed from the sources as they stood, NaN results counted. -/
def elementWise (nans : Bool) (f : Nat → Nat → Word → Word → Word → Word) (c : GCtx) (s : State) : State :=
  let x := arrayOf s c.a
  let rs := c.positions.map (fun p => (p, f p.1 p.2 (regGet x (gVa c.w) p.1 p.2) (sourceB c x p.1 p.2) (regGet x (gVc c.w) p.1 p.2)))
  let s := setArray c.a (rs.foldl (fun x e => regPut (gVd c.w) e.1.1 e.1.2 e.2 x) x) s
  let k := if nans then sumNat (rs.map (fun e => laneNans (gMode c.w) e.2)) else 0
  glazeNext c (if k = 0 then s else count 0x5249 c.a k s)

/-- An arithmetic instruction with a floating-point and an integer form. -/
def arith (f g : Word → Word → Word → Word) (c : GCtx) : State → State :=
  elementWise true (fun _ _ => laneOp (gMode c.w) c.flush f g) c

/-- Minimum and maximum of R195: NaN if either operand is NaN, −0 below +0. -/
def isNeg32 (w : Word) : Bool := w.msb
def less32 (a b : Word) : Bool := flt (f32 a) (f32 b) || (feq (f32 a) (f32 b) && isNeg32 a && !isNeg32 b)
def min32 (a b : Word) : Word := if isNan32 a || isNan32 b then nan32 else if less32 b a then b else a
def max32 (a b : Word) : Word := if isNan32 a || isNan32 b then nan32 else if less32 a b then b else a
def minInt (a b : Word) : Word := if b.slt a then b else a
def maxInt (a b : Word) : Word := if a.slt b then b else a

def one32 : Word := 0x3F800000#32

/-! Reductions. -/

/-- One level of the pairwise tree: positions 2i and 2i + 1 are combined (R197). -/
def pairUp {α : Type} (f : α → α → α) : List α → List α
  | x :: y :: r => f x y :: pairUp f r
  | r => r

/-- The fixed pairwise tree. -/
def tree {α : Type} (f : α → α → α) : Nat → List α → List α
  | 0, xs => xs
  | fuel + 1, xs => tree f fuel (pairUp f xs)

/-- A reduction over a list of elements. -/
structure Reduce where
  identity : Word
  /-- Each element before it is combined. -/
  each : Word → Word
  combine : Word → Word → Word

def reduceList (d : Reduce) (xs : List Word) : Word := ((tree d.combine 8 (xs.map d.each)).head?).getD d.identity

/-- The elements that a reduction reads at a position; outside the extent they are the identity (R194). -/
def laneElements (mode : Nat) (d : Reduce) (c : GCtx) (x : ArrayState) (r l : Nat) : List Word :=
  let inside := decide (r < c.t.rows) && decide (l < c.t.lanes)
  let w := regGet x (gVa c.w) r l
  match mode with
  | 1 => if inside then [flush32 c.flush (halfToWord (lowHalf w)), flush32 c.flush (halfToWord (highHalf w))] else [d.identity, d.identity]
  | 2 => [if inside then w else d.identity]
  | _ => [if inside then flush32 c.flush w else d.identity]

/-- A row of the destination: a result in lane 0 or in every lane, the other lanes zero (R197). -/
def putRow (v r : Nat) (f : Nat → Word) (x : ArrayState) : ArrayState :=
  (List.range 128).foldl (fun x l => regPut v r l (f l) x) x

/-- A reduction given by a function of its elements (R197, R198). -/
def reduceWith (d : Reduce) (g : List Word → Word) (nans : Bool) (c : GCtx) (s : State) : State :=
  let x := arrayOf s c.a
  let mode := gMode c.w
  let res : List (Nat × Nat × Word) :=
    if gBit c.w 29 then
      (List.range 128).flatMap (fun l =>
        let cols := (List.range 16).map (fun r => laneElements mode d c x r l)
        if mode = 1 then
          [(0, l, g (cols.map (fun e => e.getD 0 0))), (1, l, g (cols.map (fun e => e.getD 1 0)))]
        else [(0, l, g (cols.map (fun e => e.getD 0 0)))])
    else
      (List.range 16).map (fun r => (r, 0, g ((List.range 128).flatMap (fun l => laneElements mode d c x r l))))
  let x' :=
    if gBit c.w 29 then
      let z := (List.range 16).foldl (fun x r => putRow (gVd c.w) r (fun _ => 0) x) x
      res.foldl (fun x e => regPut (gVd c.w) e.1 e.2.1 e.2.2 x) z
    else res.foldl (fun x e => putRow (gVd c.w) e.1 (fun l => if l = 0 || gBit c.w 28 then e.2.2 else 0) x) x
  let k := if nans && mode != 2 then sumNat (res.map (fun e => if isNan32 e.2.2 then 1 else 0)) else 0
  let s := setArray c.a x' s
  glazeNext c (if k = 0 then s else count 0x5249 c.a k s)

/-- The index of the largest element: ties to the lowest index, a NaN above every number (R198). -/
def argMax (before : Word → Word → Bool) (xs : List Word) : Word :=
  let best := xs.zipIdx.foldl (fun (b : Option (Word × Nat)) e =>
    match b with
    | none => some e
    | some y => if before y.1 e.1 then some e else some y) none
  BitVec.ofNat 32 ((best.map (·.2)).getD 0)

/-- The second element beats the first under RAMAX. -/
def beatsFloat (a b : Word) : Bool := if isNan32 a then false else if isNan32 b then true else flt (f32 a) (f32 b)

/-! Memory. -/

/-- The access leaves the slot's space on the array, or its base or stride breaks R199 (R207). -/
def addressFault (s : State) (c : GCtx) (f : EFmt) : Bool :=
  let al := ((slotOf s c.t.slot).route.map (fun r => r.allocOn c.a)).getD ⟨0, 0, 0, false⟩
  gBase c % 4 != 0 || gStride c % 4 != 0 ||
  (List.range c.t.rows).any (fun r =>
    match gTarget c.w with
    | 0 => rowAddress c r < al.base * 4096 || (al.base + al.size) * 4096 < rowAddress c r + touched c f
    | 1 => (gStride c != 0 && gStride c != 512) || al.blocks * 32 ≤ acmRow c r
    | _ => 2 ^ 22 < rowAddress c r + touched c f)

/-- Key of an accumulator word of a slot. -/
def acmKey (slot row lane : Nat) : Nat := slot * 128 * 4096 + row / 32 * 4096 + row % 32 * 128 + lane

/-- An accumulator word; a word of a block released without a drain is a free value until it is written (R154). -/
def acmGet (x : ArrayState) (slot row lane : Nat) : Word :=
  match kget x.acm (acmKey slot row lane) with
  | some w => w
  | none => match kget x.stale (slot * 128 + row / 32) with | some st => Config.freeWord st (row % 32 * 128 + lane) | none => 0

def acmPut (slot row lane : Nat) (w : Word) (x : ArrayState) : ArrayState := { x with acm := kput x.acm (acmKey slot row lane) w }

/-- A block that the access names is owned by an output tile (R154, R200). -/
def acmOwned (x : ArrayState) (c : GCtx) : Bool :=
  (List.range c.t.rows).any (fun r => (kget x.owners (c.t.slot * 128 + acmRow c r / 32)).isSome)

end Sys2Proof.Machine
end

