-- ==== Sys2Proof/Machine/Glaze.lean ====
section
/-! DEFINITION. The Glaze instructions (R192-R201, R207), one meaning for each. -/

namespace Sys2Proof.Machine

/-! Arithmetic, compare, select, logic, shifts, moves and conversions. -/

def execGAdd (a n : Nat) (s : State) : Outcome :=
  done (glazeRun 0x00 a n (arith (fun x y _ => add32 x y) (fun x y _ => x + y)) s)

def execGSub (a n : Nat) (s : State) : Outcome :=
  done (glazeRun 0x01 a n (arith (fun x y _ => sub32 x y) (fun x y _ => x - y)) s)

def execGMul (a n : Nat) (s : State) : Outcome :=
  done (glazeRun 0x02 a n (arith (fun x y _ => mul32 x y) (fun x y _ => x * y)) s)

def execGFma (a n : Nat) (s : State) : Outcome :=
  done (glazeRun 0x03 a n (arith fma32 (fun _ _ z => z)) s)

def execGMin (a n : Nat) (s : State) : Outcome :=
  done (glazeRun 0x04 a n (arith (fun x y _ => min32 x y) (fun x y _ => minInt x y)) s)

def execGMax (a n : Nat) (s : State) : Outcome :=
  done (glazeRun 0x05 a n (arith (fun x y _ => max32 x y) (fun x y _ => maxInt x y)) s)

/-- The INT32 absolute value; that of −2^31 is not stated and is a free value. -/
def absInt (x : Word) : Word := if x = 0x80000000#32 then Config.absMin else if x.msb then -x else x

/-- The INT32 negation; that of −2^31 is not stated and is a free value. -/
def negInt (x : Word) : Word := if x = 0x80000000#32 then Config.negMin else -x

def execGAbs (a n : Nat) (s : State) : Outcome :=
  done (glazeRun 0x06 a n (arith (fun x _ _ => x &&& 0x7FFFFFFF#32) (fun x _ _ => absInt x)) s)

def execGNeg (a n : Nat) (s : State) : Outcome :=
  done (glazeRun 0x07 a n (arith (fun x _ _ => x ^^^ 0x80000000#32) (fun x _ _ => negInt x)) s)

def execGCmplt (a n : Nat) (s : State) : Outcome :=
  done (glazeRun 0x08 a n
    (arith (fun x y _ => if flt (f32 x) (f32 y) then one32 else 0) (fun x y _ => if x.slt y then 1 else 0)) s)

def execGCmpeq (a n : Nat) (s : State) : Outcome :=
  done (glazeRun 0x09 a n
    (arith (fun x y _ => if feq (f32 x) (f32 y) then one32 else 0) (fun x y _ => if x = y then 1 else 0)) s)

/-- SEL: C where A = 0, else B. -/
def execGSel (a n : Nat) (s : State) : Outcome :=
  done (glazeRun 0x0A a n
    (arith (fun x y z => if fisZero (f32 x) then z else y) (fun x y z => if x = 0 then z else y)) s)

def execGAnd (a n : Nat) (s : State) : Outcome :=
  done (glazeRun 0x0B a n (elementWise false (fun _ _ x y _ => x &&& y)) s)

def execGOr (a n : Nat) (s : State) : Outcome :=
  done (glazeRun 0x0C a n (elementWise false (fun _ _ x y _ => x ||| y)) s)

def execGXor (a n : Nat) (s : State) : Outcome :=
  done (glazeRun 0x0D a n (elementWise false (fun _ _ x y _ => x ^^^ y)) s)

def execGShl (a n : Nat) (s : State) : Outcome :=
  done (glazeRun 0x0E a n (elementWise false (fun _ _ x y _ => x <<< (y.toNat % 32))) s)

def execGShr (a n : Nat) (s : State) : Outcome :=
  done (glazeRun 0x0F a n (elementWise false (fun _ _ x y _ => x >>> (y.toNat % 32))) s)

def execGMov (a n : Nat) (s : State) : Outcome :=
  done (glazeRun 0x10 a n (arith (fun x _ _ => x) (fun x _ _ => x)) s)

/-- CVTI: FP32 to INT32, nearest even, clamped; a NaN converts to 0; clamps are counted (R195). -/
def cvti (x : Word) : Word × Nat :=
  match f32 x with
  | .nan _ => (0, 0)
  | .inf neg => (BitVec.ofInt 32 (if neg then int32Min else int32Max), 1)
  | .fin neg m e =>
    let r := clampInt int32Min int32Max (nearestInt neg m e)
    (BitVec.ofInt 32 r.1, if r.2 then 1 else 0)

def execGCvti (a n : Nat) (s : State) : Outcome :=
  done (glazeRun 0x11 a n (fun c s =>
    let x := arrayOf s c.a
    let k := sumNat (c.positions.map (fun p => (cvti (flush32 c.flush (regGet x (gVa c.w) p.1 p.2))).2))
    let s := if k = 0 then s else count 0x524A c.a k s
    elementWise false (fun _ _ x _ _ => (cvti (flush32 c.flush x)).1) c s) s)

def execGCvtf (a n : Nat) (s : State) : Outcome :=
  done (glazeRun 0x12 a n (elementWise false (fun _ _ x _ _ => toF32 (fint x.toInt))) s)

/-- Counts of conversions enter the Glaze counters (R204, R209). -/
def countConversions (a : Nat) (k : Counts) (s : State) : State :=
  let s := if k.int = 0 then s else count 0x524A a k.int s
  let s := if k.sat = 0 then s else count 0x524B a k.sat s
  let s := if k.neg = 0 then s else count 0x524C a k.neg s
  if k.nan = 0 then s else count 0x524D a k.nan s

/-- PACK: in each row, A gives elements 0-127 and B elements 128-255, each rounded to BF16 by the rounding field; a stochastic
rounding takes its position as ST does (R192, R201). -/
def execGPack (a n : Nat) (s : State) : Outcome :=
  done (glazeRun 0x13 a n (fun c s =>
    let x := arrayOf s c.a
    let ctx := roundingOf s c.t.slot (gRounding c.w) (c.t.scalars.getD 0 0)
    let row0 := (c.t.scalars.getD 12 0).toNat
    let col0 := (c.t.scalars.getD 13 0).toNat
    let one (r e : Nat) : Nat × Counts :=
      let w := flush32 c.flush (if e < 128 then regGet x (gVa c.w) r e else sourceB c x r (e - 128))
      let k := narrow bf16 (rndAt ctx (row0 + r) (col0 + e)) (toInfinity s c.t.slot) (f32 w)
      (k.bits, ⟨if k.saturated then 1 else 0, 0, if fisNan (f32 w) then 1 else 0, 0⟩)
    let rs := c.positions.map (fun p => (p, one p.1 (2 * p.2), one p.1 (2 * p.2 + 1)))
    let s := setArray c.a (rs.foldl (fun x e => regPut (gVd c.w) e.1.1 e.1.2 (packHalves e.2.1.1 e.2.2.1) x) x) s
    let k := rs.foldl (fun k e => addCounts k (addCounts e.2.1.2 e.2.2.2)) noCounts
    glazeNext c (countConversions c.a { k with nan := 0 } (if k.nan = 0 then s else count 0x5249 c.a k.nan s))) s)

/-- UNPACK: elements 0-127 of each row go exactly to vd, elements 128-255 to vd + 1 (R192). -/
def execGUnpack (a n : Nat) (s : State) : Outcome :=
  done (glazeRun 0x14 a n (fun c s =>
    let x := arrayOf s c.a
    let rs := c.positions.flatMap (fun p =>
      let w := regGet x (gVa c.w) p.1 p.2
      let one (h : Nat) := fixResult c.flush (flush32 c.flush (halfToWord h))
      [(p.1, 2 * p.2, one (lowHalf w)), (p.1, 2 * p.2 + 1, one (highHalf w))])
    let x' := rs.foldl (fun x e => regPut (gVd c.w + e.2.1 / 128) e.1 (e.2.1 % 128) e.2.2 x) x
    let k := sumNat (rs.map (fun e => if isNan32 e.2.2 then 1 else 0))
    glazeNext c (setArray c.a x' (if k = 0 then s else count 0x5249 c.a k s))) s)

/-! Transcendentals (R196). -/

def execGExp2 (a n : Nat) (s : State) : Outcome :=
  done (glazeRun 0x18 a n (arith (fun x _ _ => exp2Result x) (fun x _ _ => x)) s)

def execGLog2 (a n : Nat) (s : State) : Outcome :=
  done (glazeRun 0x19 a n (arith (fun x _ _ => log2Result x) (fun x _ _ => x)) s)

def execGRcp (a n : Nat) (s : State) : Outcome :=
  done (glazeRun 0x1A a n (arith (fun x _ _ => rcpResult x) (fun x _ _ => x)) s)

def execGRsqrt (a n : Nat) (s : State) : Outcome :=
  done (glazeRun 0x1B a n (arith (fun x _ _ => rsqrtResult x) (fun x _ _ => x)) s)

def execGTanh (a n : Nat) (s : State) : Outcome :=
  done (glazeRun 0x1C a n (arith (fun x _ _ => tanhResult x) (fun x _ _ => x)) s)

def execGErf (a n : Nat) (s : State) : Outcome :=
  done (glazeRun 0x1D a n (arith (fun x _ _ => erfResult x) (fun x _ _ => x)) s)

/-! Reductions (R197, R198). -/

/-- One addition of a reduction, rounded to FP32. -/
def addResult (flush : Bool) (x y : Word) : Word := fixResult flush (add32 x y)

def execGRsum (a n : Nat) (s : State) : Outcome :=
  done (glazeRun 0x20 a n (fun c =>
    let d : Reduce := if gMode c.w = 2 then ⟨0, id, fun x y => x + y⟩ else ⟨0, id, addResult c.flush⟩
    reduceWith d (reduceList d) true c) s)

def execGRmax (a n : Nat) (s : State) : Outcome :=
  done (glazeRun 0x21 a n (fun c =>
    let d : Reduce := if gMode c.w = 2 then ⟨0x80000000#32, id, maxInt⟩ else ⟨0xFF800000#32, id, max32⟩
    reduceWith d (reduceList d) true c) s)

def execGRmin (a n : Nat) (s : State) : Outcome :=
  done (glazeRun 0x22 a n (fun c =>
    let d : Reduce := if gMode c.w = 2 then ⟨0x7FFFFFFF#32, id, minInt⟩ else ⟨inf32, id, min32⟩
    reduceWith d (reduceList d) true c) s)

def execGRamax (a n : Nat) (s : State) : Outcome :=
  done (glazeRun 0x23 a n (fun c =>
    let d : Reduce := if gMode c.w = 2 then ⟨0x80000000#32, id, maxInt⟩ else ⟨0xFF800000#32, id, max32⟩
    reduceWith d (argMax (if gMode c.w = 2 then (fun x y => x.slt y) else beatsFloat)) false c) s)

def execGRssq (a n : Nat) (s : State) : Outcome :=
  done (glazeRun 0x24 a n (fun c =>
    let d : Reduce := ⟨0, fun x => fixResult c.flush (mul32 x x), addResult c.flush⟩
    reduceWith d (reduceList d) true c) s)

/-! Loads, stores and output tiles (R199-R201). -/

/-- The words that LD puts into a row from the bytes of its stored row. -/
def loadedRow (c : GCtx) (f : EFmt) (bytes : Bytes) : List Word :=
  if rawRow c then (List.range 128).map (fun l => BitVec.ofNat 32 (field bytes (4 * l) 4))
  else if f.int then (unpackRow f 128 bytes).map (fun v => match v with | .fin neg m _ => BitVec.ofInt 32 (if neg then -(m : Int) else m) | _ => 0)
  else if gMode c.w = 1 then
    let vs := (unpackRow f 256 bytes).map (fun v => wordToHalf (toF32 v))
    (List.range 128).map (fun l => packHalves (vs.getD (2 * l) 0) (vs.getD (2 * l + 1) 0))
  else (unpackRow f 128 bytes).map toF32

def execGLd (a n : Nat) (s : State) : Outcome :=
  done (glazeRun 0x28 a n (fun c s =>
    let f := formatFor s c.t.slot (gFormat c.w)
    let x := arrayOf s c.a
    if addressFault s c f then glazeAbandon c s
    else if gTarget c.w = 1 ∧ acmOwned x c = true then s
    else
      let row (r : Nat) : List Word :=
        if gTarget c.w = 1 then (List.range 128).map (fun l => acmGet x c.t.slot (acmRow c r) l)
        else loadedRow c f (loadBytes x.tbf (rowAddress c r) (if rawRow c then 512 else rowBytes f (c.full f)))
      let x' := (List.range 16).foldl (fun x' r =>
        let ws := if r < c.t.rows then row r else []
        putRow (gVd c.w) r (fun l => if l < c.t.lanes then ws.getD l 0 else 0) x') x
      glazeNext c (setArray c.a x' s)) s)

/-- Bytes of an ST row over what stands in memory: only elements inside the extent are stored (R194), an element that shares a
byte keeps the byte's other bits, and the block scales stand behind the full row's elements (R205). -/
def storeRow (c : GCtx) (f : EFmt) (old : Nat → Byte) (packed : Bytes) : List (Nat × Byte) :=
  let nbits := c.inside f * f.width
  let whole := nbits / 8
  let rest := nbits % 8
  let ebytes := ceilDiv nbits 32 * 4
  let at0 := (packed.take whole).zipIdx.map (fun e => (e.2, e.1))
  let part := if rest = 0 then [] else
    [(whole, BitVec.ofNat 8 ((packed.getD whole 0).toNat % 2 ^ rest + (old whole).toNat / 2 ^ rest * 2 ^ rest))]
  at0 ++ part ++ (packed.drop ebytes).zipIdx.map (fun e => (ceilDiv (c.full f * f.width) 32 * 4 + e.2, e.1))

/-- The values of a source row as ST reads them. -/
def storedValues (c : GCtx) (f : EFmt) (ws : List Word) : List FVal :=
  if f.int then ws.map (fun w => fint w.toInt)
  else if gMode c.w = 1 then ws.flatMap (fun w => [f32 (halfToWord (lowHalf w)), f32 (halfToWord (highHalf w))])
  else ws.map f32

/-- Where ST writes a row: the bytes with their addresses, and the counts of the conversion. -/
def stRow (s : State) (c : GCtx) (f : EFmt) (x : ArrayState) (mem : Memory) (r : Nat) : List (Nat × Byte) × Counts :=
  let ws := (List.range c.t.lanes).map (fun l => regGet x (gVa c.w) r l)
  let ad := rowAddress c r
  if rawRow c then ((ws.flatMap (fun w => le 4 w.toNat)).zipIdx.map (fun e => (ad + e.2, e.1)), noCounts)
  else
    let tag := c.t.scalars.getD 0 0
    let row := (c.t.scalars.getD 12 0).toNat + r
    let p := packRow f (seedOf (stepOf s c.t.slot) tag.toNat row) (roundingOf s c.t.slot (gRounding c.w) tag)
      (toInfinity s c.t.slot) row (c.t.scalars.getD 13 0).toNat (storedValues c f ws)
    ((storeRow c f (fun o => loadByte mem (ad + o)) p.1).map (fun e => (ad + e.1, e.2)), p.2)

/-- ST. A NaN written to the ACM counts for the Wheel (R147). -/
def execGSt (a n : Nat) (s : State) : Outcome :=
  done (glazeRun 0x29 a n (fun c s =>
    let f := formatFor s c.t.slot (gFormat c.w)
    let x := arrayOf s c.a
    let out := ((slotOf s c.t.slot).route.bind (fun r => r.output c.t.station (gStream c.w))).isSome
    if addressFault s c f || (gTarget c.w == 2 && !out) then glazeAbandon c s
    else if gTarget c.w = 1 ∧ acmOwned x c = true then s
    else
      let rows := List.range c.t.rows
      match gTarget c.w with
      | 1 =>
        let ws := c.positions.map (fun p => (p, regGet x (gVa c.w) p.1 p.2))
        let nans := if gFormat c.w = 0 then sumNat (ws.map (fun e => if isNan32 e.2 then 1 else 0)) else 0
        let s := setArray c.a (ws.foldl (fun x' e => acmPut c.t.slot (acmRow c e.1.1) e.1.2 e.2 x') x) s
        glazeNext c (if nans = 0 then s else count 0x522D c.a nans s)
      | 2 =>
        let st := kgetD ([], 0) c.t.staging (gStream c.w)
        let res := rows.map (stRow s c f x st.1)
        let cells := res.flatMap (·.1)
        let mem := cells.foldl (fun m e => storeByte m e.1 e.2) st.1
        let top := cells.foldl (fun k e => max k (e.1 + 1)) st.2
        let c := { c with t := { c.t with staging := kput c.t.staging (gStream c.w) (mem, top) } }
        glazeNext c (countConversions c.a (res.foldl (fun k e => addCounts k e.2) noCounts) s)
      | _ =>
        let res := rows.map (stRow s c f x x.tbf)
        let tbf := (res.flatMap (·.1)).foldl (fun m e => storeByte m e.1 e.2) x.tbf
        glazeNext c (countConversions c.a (res.foldl (fun k e => addCounts k e.2) noCounts) (setArray c.a { x with tbf := tbf } s))) s)

/-- A tile leaves its operation into the staging buffer of its stream, against one credit (R128, R129). -/
def stageTile (slot stream : Nat) (t : Tile) (s : State) : State :=
  putStaged slot stream t (modStream slot stream (fun x => { x with credits := x.credits - 1 }) s)

/-- TOUT sends the staged tile once the stream has credit (R200); a stream the station does not write is an address fault. -/
def execGTout (a n : Nat) (s : State) : Outcome :=
  done (glazeRun 0x2A a n (fun c s =>
    match (slotOf s c.t.slot).route.bind (fun r => (r.output c.t.station (gStream c.w)).map (fun o => (r, o))) with
    | none => glazeAbandon c s
    | some (r, o) =>
      if creditsLeft s c.t.slot r o = 0 ∨ (streamOf s c.t.slot o.number).stopped = true then s
      else
        let b := kgetD ([], 0) c.t.staging (gStream c.w)
        let s0 := c.t.scalars.getD 0 0
        let tag := BitVec.ofNat 32 (s0.toNat / 65536 * 65536 + (s0.toNat + bits c.w.toNat 15 0) % 65536)
        let dim (k : Nat) := (c.t.scalars.getD k 0).toNat % 65536
        let tr := (slotOf s c.t.slot).train
        let h := mkHeader tag o.number tr.attempt (tr.step % 65536) c.t.station b.2
          ⟨bits c.w.toNat 23 19 + (if dim 8 = dim 10 ∧ dim 9 = dim 11 then 0 else 64), false, dim 8, dim 9, dim 10, dim 11, 0⟩
        let s := stageTile c.t.slot o.number ⟨h, loadBytes b.1 0 b.2⟩ s
        glazeNext { c with t := { c.t with staging := kdel c.t.staging (gStream c.w) } } s) s)

/-! Scalar instructions (R192-R194). -/

def setScalar (c : GCtx) (w : Word) : GCtx := { c with t := { c.t with scalars := setNth c.t.scalars (gSd c.w) w } }

def execGSli (a n : Nat) (s : State) : Outcome :=
  done (glazeRun 0x30 a n (fun c => glazeNext (setScalar c (BitVec.ofNat 32 (gImm c.w)))) s)

def execGSadd (a n : Nat) (s : State) : Outcome :=
  done (glazeRun 0x31 a n (fun c => glazeNext (setScalar c
    (c.t.scalars.getD (gSa c.w) 0 + c.t.scalars.getD (gSb c.w) 0 + (BitVec.ofNat 16 (gImm c.w)).signExtend 32))) s)

def execGSmul (a n : Nat) (s : State) : Outcome :=
  done (glazeRun 0x32 a n (fun c => glazeNext (setScalar c
    (c.t.scalars.getD (gSa c.w) 0 * BitVec.ofNat 32 (gImm c.w % 65536)))) s)

def execGSfrom (a n : Nat) (s : State) : Outcome :=
  done (glazeRun 0x33 a n (fun c s => glazeNext (setScalar c
    (regGet (arrayOf s c.a) (gVa c.w) (bits c.w.toNat 3 0) (bits c.w.toNat 10 4))) s) s)

def execGSetext (a n : Nat) (s : State) : Outcome :=
  done (glazeRun 0x34 a n (fun c => glazeNext
    { c with t := { c.t with rows := bits c.w.toNat 3 0 + 1, lanes := bits c.w.toNat 10 4 + 1 } }) s)

/-- LOOP repeats the next imm[5:0] words sA times; sA = 0 skips them. -/
def execGLoop (a n : Nat) (s : State) : Outcome :=
  done (glazeRun 0x35 a n (fun c =>
    let body := bits c.w.toNat 5 0
    let k := (c.t.scalars.getD (gSa c.w) 0).toNat
    let t := c.t
    if k = 0 then glazeNext { c with t := { t with pc := t.pc + body } }
    else glazeNext { c with t := { t with loops := (t.pc + 1, t.pc + 1 + body, k) :: t.loops } }) s)

/-- END ends the program: staged tiles that no TOUT has sent are discarded and counted, s15 is the scalar result, and the
operation's unit has finished (R188, R193, R200). -/
def execGEnd (a n : Nat) (s : State) : Outcome :=
  done (glazeRun 0x36 a n (fun c s =>
    let k := c.t.staging.length
    let s := if k = 0 then s else count 0x524E c.a k s
    let s := dropThread c.a c.n (count 0x5248 c.a 1 s)
    startProgram c.t.slot c.t.station <| modStation c.t.slot c.t.station (fun x =>
      { x with results := kput x.results c.t.tag.toNat (c.t.scalars.getD 15 0)
               flight := x.flight.map (fun f => if f.op == c.t.op && f.tag == c.t.tag then
                 { f with finished := true, scalar := some (c.t.scalars.getD 15 0) } else f) }) s) s)

/-- A program that has not executed END after 2^20 words is abandoned (R207). -/
def execGlazeWordLimit (a n : Nat) (s : State) : Outcome :=
  done (match kget (arrayOf s a).threads n with
    | none => s
    | some t => if 2 ^ 20 ≤ t.executed then glazeAbandon ⟨a, n, t, 0, false⟩ s else s)

end Sys2Proof.Machine
end

