-- ==== Sys2Proof/Machine/Wheel.lean ====
section
/-! DEFINITION. The Wheel: rate classes (R144, R145), the chains of the cells (R146-R148), the FP32 split (R158), accumulator blocks
(R152, R154), and the shapes, orders and footprints of an MMO (R169-R174). -/

namespace Sys2Proof.Machine

/-! Formats and classes. -/

/-- Rate class of a pair of format codes (R144); an FP32 operand runs at class 1. -/
def rateClass (a b : Nat) : Nat :=
  if a = 0x09 ∧ b = 0x09 then 4
  else if a ≤ 0x02 ∨ b ≤ 0x02 then 1
  else 2

/-- The Wheel accepts the pair (R145). -/
def pairAccepted (a b : Nat) : Bool := (decide (a ≤ 0x09) && decide (b ≤ 0x09)) || (a == 0x0A && b == 0x0A)

/-- Output format of an MMO (R155). -/
def outputAccepted (a c : Nat) : Bool := if a = 0x0A then c == 0x0B else decide (c ≤ 0x09)

/-- Depth of the stationary block, chunk length and width of a block column (R144, R169, R173). -/
def kcOf (cls : Nat) : Nat := 128 * cls
def chunkLength (mode cls : Nat) : Nat := match mode with | 0 => kcOf cls | 1 => 128 | _ => 1024
def columnWidth (mode cls : Nat) : Nat := if mode = 1 then kcOf cls else 128

/-- Products that a chain takes at each cell: in WS-T the stationary elements of a cell feed distinct outputs (R148). -/
def groupOf (mode cls : Nat) : Nat := if mode = 1 then 1 else cls

/-! Values. -/

/-- A BF16 rounding as a value, and the split of an FP32 element (R158). -/
def bf16Of (v : FVal) : FVal := decodeF bf16 (roundTo bf16 v)

/-- The high and the low part of an FP32 element. -/
def splitValue (v : FVal) : FVal × FVal :=
  match v with
  | .nan s => (.nan s, .fin false 0 0)
  | .inf s => (.inf s, .fin false 0 0)
  | v =>
    let h := bf16Of v
    let h := match h with | .inf s => magnitudeValue bf16 s (maxMagnitude bf16) | h => h
    (h, bf16Of (fsub v h))

/-- Passes over a pair of operand elements (R158): `a` and `b` say which operand is FP32. -/
def passPairs (a b : Bool) (x y : FVal) : List (FVal × FVal) :=
  match a, b with
  | true, true =>
    let p := splitValue x
    let q := splitValue y
    [(p.2, q.1), (p.1, q.2), (p.1, q.1)]
  | true, false => let p := splitValue x; [(p.2, y), (p.1, y)]
  | false, true => let q := splitValue y; [(x, q.2), (x, q.1)]
  | false, false => [(x, y)]

def passCount (a b : Bool) : Nat := if a && b then 3 else if a || b then 2 else 1

/-- An FP32 sum as the cells and the accumulator form it: rounded once, subnormals flushed under 3101.00, NaN canonical
(R146, R147). -/
def sum32 (flush : Bool) (v : FVal) : Word :=
  let w := toF32 v
  if isNan32 w then nan32 else flush32 flush w

/-- An INT32 sum clamped at the limits (R147). -/
def sumInt (x : Int) : Word × Nat :=
  let c := clampInt int32Min int32Max x
  (BitVec.ofInt 32 c.1, if c.2 then 1 else 0)

/-- A chain of the cells over products in ascending order, `g` of them summed exactly at each cell (R146). The count is of
INT32 clamps. -/
def chainFrom (isInt flush : Bool) (g : Nat) : Nat → List (FVal × FVal) → Word × Nat → Word × Nat
  | 0, _, acc => acc
  | fuel + 1, ps, acc =>
    if ps.isEmpty then acc
    else
      let here := (ps.take g).foldl (fun v p => fadd v (fmul p.1 p.2)) (if isInt then fint acc.1.toInt else f32 acc.1)
      let next := if isInt then
          (match here with
           | .fin n m e => (let r := sumInt ((if n then -1 else 1) * ((m * 2 ^ e.toNat : Nat) : Int)); (r.1, acc.2 + r.2))
           | _ => acc)
        else (sum32 flush here, acc.2)
      chainFrom isInt flush g fuel (ps.drop g) next

def chain (isInt flush : Bool) (g : Nat) (ps : List (FVal × FVal)) : Word × Nat := chainFrom isInt flush g ps.length ps (0, 0)

/-- A chunk sum reaches an accumulator element: it writes it first, and is added to it after that (R154, R169). -/
def accumulate (isInt flush : Bool) (old : Option Word) (sum : Word) : Word × Nat :=
  match old with
  | none => (sum, 0)
  | some old => if isInt then sumInt (old.toInt + sum.toInt) else (sum32 flush (fadd (f32 old) (f32 sum)), 0)

/-! The work of a tile step: stationary blocks, or cell passes in OS (R149, R169, R181). -/

/-- One of them: its chunk, its block column or cell tile, its pass of the split. -/
structure Pass where
  chunk : Nat
  block : Nat
  split : Nat

/-- Rows and columns of a tile's cell tiles in OS. -/
def cellTiles (n : Nat) : Nat := ceilDiv n 128

/-- Block columns, or cell tiles, of a tile. -/
def blocksOf (cls : Nat) (d : MmoDesc) : Nat := if d.mode = 2 then cellTiles d.mt * cellTiles d.nt else ceilDiv d.nt (columnWidth d.mode cls)

/-- How many a tile step has, over `kspan` of K and `split` passes. -/
def passesOf (cls split : Nat) (d : MmoDesc) (kspan : Nat) : Nat := ceilDiv kspan (chunkLength d.mode cls) * blocksOf cls d * split

/-- Chunks ascending, in each its block columns ascending, in each the passes of R158 in order (R181). -/
def passAt (cls split : Nat) (d : MmoDesc) (u : Nat) : Pass :=
  ⟨u / split / max 1 (blocksOf cls d), u / split % max 1 (blocksOf cls d), u % split⟩

/-- K that a chunk of a tile step covers. -/
def chunkSpan (cls : Nat) (d : MmoDesc) (kspan chunk : Nat) : Nat := min (chunkLength d.mode cls) (kspan - chunk * chunkLength d.mode cls)

/-- ACTIVE cycles of one of them (R181). -/
def passCycles (cls : Nat) (d : MmoDesc) (rows kspan : Nat) (u : Pass) : Nat :=
  if d.mode = 2 then ceilDiv (chunkSpan cls d kspan u.chunk) cls else rows

/-- First row, rows, first column and columns of a tile that it computes, before the valid extent cuts them. -/
def passArea (cls : Nat) (d : MmoDesc) (u : Pass) : Nat × Nat × Nat × Nat :=
  if d.mode = 2 then (u.block / cellTiles d.nt * 128, 128, u.block % cellTiles d.nt * 128, 128)
  else (0, d.mt, u.block * columnWidth d.mode cls, columnWidth d.mode cls)

/-- Cycles after its last row until its sums are in the accumulator: 260, and a flush of 128 in OS (R149, R150). -/
def passLatency (d : MmoDesc) : Nat := if d.mode = 2 then 388 else 260

/-! Blocks. -/

/-- Accumulator blocks of a tile of `rows` rows and width Nt (R152, R172). -/
def blocksFor (rows nt : Nat) : Nat := ceilDiv (max rows 1) 32 * ceilDiv nt 128

/-- More accessors of a GA record (R221). -/
def gaArray (g : GaRec) : Nat := field g 2 2
def gaBase (g : GaRec) : Nat := field g 4 1
def gaBlocks (g : GaRec) : Nat := field g 5 1
def gaRows (g : GaRec) : Nat := field g 6 2
def gaCols (g : GaRec) : Nat := field g 8 2
def gaSources (g : GaRec) : Nat := field g 10 1
def gaSkew (g : GaRec) : Nat := field g 11 1
def gaCount (g : GaRec) : Nat := field g 12 2
def gaGroup (g : GaRec) : Nat := field g 14 2
def gaRounding (g : GaRec) : Nat := field g 16 1
def gaOutput (g : GaRec) : Nat := field g 17 1
def gaSource (g : GaRec) (u : Nat) : Nat := field g (24 + 2 * u) 2
def gaRowOffset (g : GaRec) : Nat := field g 40 4
def gaColOffset (g : GaRec) : Nat := field g 44 4

/-- The GA into whose blocks an OS MMO delivers (R222). -/
def gaFor (r : Route) (array : Nat) (d : MmoDesc) : Option GaRec :=
  if d.mode = 2 ∧ d.delivery = 2 then r.gas.find? (fun g => gaArray g == array && gaBase g == d.acmBase) else none

/-- A contribution (micro-batch, source) that is discarded: beyond the count, or admitted already (R225). -/
def gaExcess (s : State) (slot : Nat) (g : GaRec) (c : Nat × Nat) : Bool :=
  decide (gaCount g / gaSources g ≤ c.1) || (gaState s slot g).admitted.contains c

/-- Blocks of the slot's allocation that an MMO in flight or a GA holds (R173, R176, R222). -/
def heldBlocks (s : State) (slot : Nat) (r : Route) (array : Nat) : List Nat :=
  ((arrayOf s array).mmos.flatMap (fun m => if m.2.slot = slot then m.2.blocks else [])) ++
  (r.gas.flatMap (fun g => if gaArray g = array ∧ (gaState s slot g).drained = false then
    (List.range (gaBlocks g)).map (· + gaBase g) else []))

def freeBlocks (s : State) (slot : Nat) (r : Route) (array : Nat) : List Nat :=
  let held := heldBlocks s slot r array
  (List.range (r.allocOn array).blocks).filter (fun b => !held.contains b)

/-! Shapes, footprints, needs (R170-R174). -/

/-- What the checks need to know besides the descriptor: its formats' footprints in thirty-seconds of a byte, the rate class. -/
structure ShapeCtx where
  cls : Nat
  ea : Nat
  eb : Nat
  ec : Nat

def shapeCtx (s : State) (slot : Nat) (d : MmoDesc) : ShapeCtx :=
  let e (c : Nat) := bytes32 (formatFor s slot c)
  ⟨rateClass d.formatA d.formatB, e d.formatA, e d.formatB, e d.formatC⟩

/-- Staging footprint in bytes (R171). -/
def footprint (x : ShapeCtx) (d : MmoDesc) (kt : Nat) : Nat :=
  ceilDiv ((if d.a.kind = 2 then 2 * d.mt * kt * x.ea else 0) + (if d.b.kind = 2 then 2 * kt * d.nt * x.eb else 0) +
    (match d.delivery with | 0 => 2 * d.mt * d.nt * x.ec | 3 => 2 * d.mt * d.nt * x.ec | 1 => d.m * d.n * x.ec | _ => 0)) 32

def tileSizes : List Nat := [32, 64, 128, 256, 512]

/-- A legal tile shape (R170). -/
def legalShape (x : ShapeCtx) (d : MmoDesc) (keff : Nat) : Bool :=
  tileSizes.contains d.mt && tileSizes.contains d.nt && d.kt != 0 && d.kt % 32 == 0 &&
  (d.kt % chunkLength d.mode x.cls == 0 || roundUp keff 32 ≤ d.kt) && footprint x d d.kt ≤ d.size * 4096

/-- K of a tile, chosen (R173). -/
def chooseKt (x : ShapeCtx) (d : MmoDesc) (keff : Nat) : Nat :=
  let full := roundUp (max keff 1) 32
  let q := chunkLength d.mode x.cls
  if footprint x d full ≤ d.size * 4096 then full
  else ((List.range (full / q + 1)).reverse.find? (fun n => footprint x d (n * q) ≤ d.size * 4096)).elim 0 (· * q)

/-- Output tiles that are not skipped along M, as (i, j) in an order. -/
def outputTiles (d : MmoDesc) (meff : Nat) : List (Nat × Nat) :=
  let ni := ceilDiv (min meff d.m) d.mt
  let nj := ceilDiv d.n d.nt
  if d.order = 1 then (List.range nj).flatMap (fun j => (List.range ni).map (fun i => (i, j)))
  else (List.range ni).flatMap (fun i => (List.range nj).map (fun j => (i, j)))

def validRowsOf (d : MmoDesc) (meff i : Nat) : Nat := min d.mt (min meff d.m - i * d.mt)
def validColsOf (d : MmoDesc) (j : Nat) : Nat := min d.nt (d.n - j * d.nt)

def tileBlocks (d : MmoDesc) (meff i : Nat) : Nat := blocksFor (validRowsOf d meff i) d.nt

/-- Accumulator need of a drained delivery, or the block past the last of an ACM-resident output (R172). -/
def needOf (d : MmoDesc) (meff : Nat) : Nat :=
  if d.delivery = 2 then d.acmBase + ceilDiv d.m d.mt * ceilDiv d.n d.nt * (ceilDiv (max d.mt 32) 32 * ceilDiv d.nt 128)
  else
    let ts := outputTiles d meff
    if d.order = 2 then sumNat (ts.map (fun t => tileBlocks d meff t.1))
    else min 2 ts.length * (ts.map (fun t => tileBlocks d meff t.1)).foldl max 0

/-- The need fits: so many free blocks for a drained delivery; for an ACM-resident one its own blocks, free and within the
allocation (R172, R516). -/
def needFits (d : MmoDesc) (meff alloc : Nat) (free : List Nat) : Bool :=
  if d.delivery = 2 then needOf d meff ≤ alloc && ((List.range (needOf d meff - d.acmBase)).all (fun k => free.contains (d.acmBase + k)))
  else needOf d meff ≤ free.length

/-- The descriptor completed (R173); `kmn` says that automatic choice may take KMN and that an operand lies far. -/
def chooseShape (x : ShapeCtx) (kmn : Bool) (d : MmoDesc) (meff keff alloc : Nat) (free : List Nat) : MmoDesc :=
  let d := if d.mt = 0 then { d with mt := (tileSizes.find? (fun z => min meff 512 ≤ z)).getD 512 } else d
  let d := if d.nt = 0 then { d with nt := columnWidth d.mode x.cls } else d
  let d := if d.kt = 0 then { d with kt := chooseKt x d keff } else d
  if d.fixOrder then d
  else if kmn ∧ d.delivery ≠ 2 ∧ needFits { d with order := 2 } meff alloc free = true then { d with order := 2 }
  else { d with order := 0 }

/-- A stream-per-tile delivery keeps within the tile index (R168). -/
def tilesFit (d : MmoDesc) (t : Word) : Bool :=
  d.delivery != 0 || tagIndex t + ceilDiv d.m d.mt * ceilDiv d.n d.nt ≤ 65536

/-- Pairs of tile sides by descending area, then descending Mt (R174). -/
def reorderPairs : List (Nat × Nat) :=
  [(512, 512), (512, 256), (256, 512), (512, 128), (256, 256), (128, 512), (512, 64), (256, 128), (128, 256), (64, 512), (512, 32),
   (256, 64), (128, 128), (64, 256), (32, 512), (256, 32), (128, 64), (64, 128), (32, 256), (128, 32), (64, 64), (32, 128), (64, 32),
   (32, 64), (32, 32)]

/-- The issue check (R174): the descriptor that runs and whether it was reordered, or the status. `inGa` is set for an MMO into a
gradient accumulator, which needs no further blocks (R222). -/
def issueCheck (x : ShapeCtx) (kmn headersAgree inGa : Bool) (d : MmoDesc) (meff keff alloc : Nat) (free : List Nat) (t : Word) :
    Except Nat (MmoDesc × Bool) :=
  if !headersAgree then .error stRange
  else
    let e := chooseShape x kmn d meff keff alloc free
    if !legalShape x e keff then .error stShape
    else if inGa || needFits e meff alloc free then .ok (e, false)
    else if e.delivery = 2 ∨ d.allowReorder = false then .error stAccOver
    else
      match (reorderPairs.map (fun p =>
          let f := { e with order := 0, mt := p.1, nt := p.2 }
          if d.kt = 0 then { f with kt := chooseKt x f keff } else f)).find? (fun f =>
            legalShape x f keff && needFits f meff alloc free && tilesFit f t) with
      | some f => .ok (f, true)
      | none => .error stAccOver

end Sys2Proof.Machine
end

