-- ==== Sys2Proof/Machine/Tiling.lean ====
section
/-! DEFINITION. The tile sequencer: the issue of an MMO (R167, R174-R177), its walk step by step (R178-R181), its drains (R155-R157,
R168, R180) and its completion record (R182). -/

namespace Sys2Proof.Machine

/-! Operands. -/

/-- The record of operand A (0) or B (1), and the format it is read in: under FALLBACK that of the fallback cargo (R288). -/
def Mmo.operand (m : Mmo) (k : Nat) : Operand := if k = 0 then m.desc.a else m.desc.b
def Mmo.format (m : Mmo) (k : Nat) : Nat := if k = 0 then m.desc.formatA else m.desc.formatB

/-- Handle of a cargo operand as it is read now: the cargo or its fallback. -/
def operandHandle (s : State) (m : Mmo) (k : Nat) : Nat :=
  let h := (m.operand k).handle
  if m.fallback = some k then (cargoAt s h).2.fallback else h

/-- Format code of an operand as it is read now. -/
def operandFormat (s : State) (m : Mmo) (k : Nat) : Nat :=
  if m.fallback = some k then (cargoAt s (operandHandle s m k)).2.format else m.format k

/-- Rows and columns of an operand's whole matrix in stored orientation. -/
def storedShape (d : MmoDesc) (k : Nat) : Nat × Nat :=
  let p := if k = 0 then (d.m, d.k) else (d.k, d.n)
  if (if k = 0 then d.a else d.b).transposed then (p.2, p.1) else p

/-- The window of an operand for step (i, j, p) in stored orientation: (first row, rows, first column, columns), in bounds only
(R167, R179). -/
def windowOf (m : Mmo) (k i j p : Nat) : Nat × Nat × Nat × Nat :=
  let d := m.desc
  let rowsM := (i * d.mt, validRowsOf d m.meff i)
  let colsN := (j * d.nt, validColsOf d j)
  let spanK := (p * d.kt, min d.kt (m.keff - p * d.kt))
  let (r, c) := if k = 0 then (rowsM, spanK) else (spanK, colsN)
  let (r, c) := if (m.operand k).transposed then (c, r) else (r, c)
  (r.1, r.2, c.1, c.2)

/-- The step at a position of the walk (R172, R181). -/
def stepAt' (d : MmoDesc) (pos : Nat) : Nat × Nat × Nat :=
  let ni := ceilDiv d.m d.mt
  let nj := ceilDiv d.n d.nt
  let np := ceilDiv d.k d.kt
  match d.order with
  | 1 => (pos / np % ni, pos / np / ni, pos % np)
  | 2 => (pos / nj % ni, pos % nj, pos / nj / ni)
  | _ => (pos / np / nj, pos / np % nj, pos % np)

def stepCount (d : MmoDesc) : Nat := ceilDiv d.m d.mt * ceilDiv d.n d.nt * ceilDiv d.k d.kt

def stepSkipped (m : Mmo) (pos : Nat) : Bool :=
  let (i, _, p) := stepAt' m.desc pos
  m.meff ≤ i * m.desc.mt || m.keff ≤ p * m.desc.kt

/-- The next position, from `pos` on, whose step is not skipped. -/
def nextStep (m : Mmo) : Nat → Nat → Option Nat
  | 0, _ => none
  | fuel + 1, pos => if stepCount m.desc ≤ pos then none else if stepSkipped m pos then nextStep m fuel (pos + 1) else some pos

/-- Columns of a full window in stored orientation: the staging buffers hold stored rows of so many elements. -/
def windowCols (m : Mmo) (k : Nat) : Nat :=
  let d := m.desc
  if (m.operand k).transposed then (if k = 0 then d.mt else d.kt) else (if k = 0 then d.kt else d.nt)

def windowRows (m : Mmo) (k : Nat) : Nat :=
  let d := m.desc
  if (m.operand k).transposed then (if k = 0 then d.kt else d.nt) else (if k = 0 then d.mt else d.kt)

/-- Bytes of a staging buffer of a cargo operand (R171); other operands have none. -/
def bufferBytes (s : State) (m : Mmo) (k : Nat) : Nat :=
  if (m.operand k).kind = 2 then windowRows m k * rowBytes (formatFor s m.slot (m.format k)) (windowCols m k) else 0

/-- The number of an operand's window in a step of the walk. KMN fetches each window once, whatever steps use it; the other orders fetch
again at every step (R172). -/
def windowKey (m : Mmo) (k pos : Nat) : Nat :=
  let d := m.desc
  let (i, j, p) := stepAt' d pos
  if d.order = 2 then (if k = 0 then i * ceilDiv d.k d.kt + p else p * ceilDiv d.n d.nt + j) else pos

/-- TBF address of the staging buffer of an operand's window: two buffers for each cargo operand, taken in turn (R167). -/
def stagingAddress (s : State) (m : Mmo) (k pos : Nat) : Nat :=
  m.desc.base * 4096 + (if k = 0 then 0 else 2 * bufferBytes s m 0) + windowKey m k pos % 2 * bufferBytes s m k

/-- TBF address at which output tiles are staged, behind the buffers of the operands (R168, R171). -/
def outputAddress (s : State) (m : Mmo) : Nat := m.desc.base * 4096 + 2 * bufferBytes s m 0 + 2 * bufferBytes s m 1

/-- Bytes between stored rows of a cargo matrix (R518). -/
def strideBytes (f : EFmt) (o : Operand) (cols : Nat) : Nat := rowBytes f (if o.stride = 0 then cols else o.stride)

/-- Where the stored rows of an operand's cargo lie: the base, the bytes between rows, and the bytes of a row's elements. -/
def operandPlace (s : State) (m : Mmo) (k : Nat) : Nat × Nat × Nat :=
  let o := m.operand k
  let f := formatFor s m.slot (operandFormat s m k)
  let cols := (storedShape m.desc k).2
  let fb := m.fallback = some k
  (if fb then 0 else o.offset * 64, if fb then rowBytes f cols else strideBytes f o cols,
   ceilDiv ((if fb ∨ o.stride = 0 then cols else o.stride) * f.width) 32 * 4)

/-- The transfer that fetches a window: for each stored row its elements, then its scales, of the in-bounds rectangle alone (R179).
`ahead` says that it runs ahead of its step (R308). -/
def windowTransfer (s : State) (m : Mmo) (k pos : Nat) (ahead : Bool) : Descriptor × List Request :=
  let f := formatFor s m.slot (operandFormat s m k)
  let (i, j, p) := stepAt' m.desc pos
  let (r0, rn, c0, cn) := windowOf m k i j p
  let (base, pitchCargo, elems) := operandPlace s m k
  let h := operandHandle s m k
  let full := windowCols m k
  let pitch := rowBytes f full
  let at0 := stagingAddress s m k pos
  let first := c0 * f.width / 8
  let len := ceilDiv ((c0 + cn) * f.width) 8 - first
  let rows := (List.range rn).flatMap (fun r =>
    let a := base + (r0 + r) * pitchCargo
    let e := (a + first, at0 + r * pitch, len)
    if f.block = 0 then [e]
    else [e, (a + elems + c0 / f.block, at0 + r * pitch + ceilDiv (full * f.width) 32 * 4, ceilDiv cn f.block)])
  let entry := ((routeOf s m.slot).bind (fun r => r.manifest.find? (fun e => e.handle == h)))
  (⟨0, if ahead then 2 else 0, rn, len, h, noHandle, base + r0 * pitchCargo + first, at0, pitchCargo, pitch, m.tag.toNat, 0xFFFF,
    entry.elim 0 (·.first),
    entry.elim (cargoAt s h).2.pageCount (fun e => if e.pages = 0 then (cargoAt s h).2.pageCount - e.first else e.pages), 0, 0⟩,
   rows.flatMap (cutRow (requestSize (cargoAt s h).2.tier) false false))

/-- A window has landed, or is on its way. -/
def windowLanded (m : Mmo) (k pos : Nat) : Bool := m.landed.contains (k, windowKey m k pos)
def windowPlaced (s : State) (array mmo k pos : Nat) (m : Mmo) : Bool :=
  windowLanded m k pos ||
  ((engineOf s array).queue ++ (engineOf s array).outstanding).any (fun t => t.origin == .window mmo k (windowKey m k pos) && !t.cancelled)

/-- Place the fetches of a step's windows that are not under way, where the engine's queue has room. A window's buffer holds zeros beyond
its in-bounds rectangle (R179). -/
def placeWindows (array mmo pos : Nat) (ahead : Bool) (s : State) : State :=
  [0, 1].foldl (fun s k =>
    match kget (arrayOf s array).mmos mmo with
    | some m =>
      if (m.operand k).kind = 2 ∧ windowPlaced s array mmo k pos m = false ∧ queueRoom s array = true then
        let w := windowTransfer s m k pos ahead
        enqueue array m.slot (.window mmo k (windowKey m k pos)) w.1 none w.2
          (modArray array (fun x => { x with tbf := clearBytes x.tbf (stagingAddress s m k pos) (bufferBytes s m k) }) s)
      else s
    | none => s) s

/-- The stored bytes of a cargo operand's window: those that KMN keeps, or what stands in the staging buffer. -/
def windowBytes (s : State) (array : Nat) (m : Mmo) (k pos : Nat) : Bytes :=
  (kget m.kept (k * 2 ^ 32 + windowKey m k pos)).getD (loadBytes (arrayOf s array).tbf (stagingAddress s m k pos) (bufferBytes s m k))

/-- A queue operand's tile is stored column by column (R121, R151). -/
def columnMajor (e : Entry) : Bool := bit (hdrFormat e.header) 5

/-- Elements of a stored row of a tile of the whole matrix, `rows` by `cols`, of which a column-major tile stores the columns. -/
def tileElements (f : EFmt) (byColumn : Bool) (rows cols : Nat) (payload : Bytes) (r : Nat) : List FVal :=
  if byColumn then
    (List.range cols).map (fun c => (unpackRow f rows (padTo (rowBytes f rows) (slice payload (c * rowBytes f rows) (rowBytes f rows)))).getD r (.fin false 0 0))
  else unpackRow f cols (padTo (rowBytes f cols) (slice payload (r * rowBytes f cols) (rowBytes f cols)))

/-- Elements of stored row `r` of an operand's window, as values. -/
def operandRow (s : State) (array : Nat) (m : Mmo) (es : List Entry) (k pos r0 r c0 cn : Nat) : List FVal :=
  let o := m.operand k
  let f := formatFor s m.slot (operandFormat s m k)
  match o.kind with
  | 2 =>
    let n := rowBytes f (windowCols m k)
    (unpackRow f (windowCols m k) (padTo n (slice (windowBytes s array m k pos) (r * n) n))).take cn
  | kind =>
    let shape := storedShape m.desc k
    match if kind = 0 then es[o.input]? else none with
    | some e =>
      if e.header.isEmpty then ((tileElements f false shape.1 shape.2 e.payload (r0 + r)).drop c0).take cn
      else ((tileElements f (columnMajor e) (hdrRows e.header) (hdrCols e.header) e.payload (r0 + r)).drop c0).take cn
    | none =>
      let n := rowBytes f shape.2
      ((unpackRow f shape.2 (loadBytes (arrayOf s array).tbf (o.handle * 256 + (r0 + r) * n) n)).drop c0).take cn

/-- The window of an operand as a matrix in named orientation. -/
def operandWindow (s : State) (array : Nat) (m : Mmo) (es : List Entry) (k pos : Nat) : List (List FVal) :=
  let (i, j, p) := stepAt' m.desc pos
  let (r0, rn, c0, cn) := windowOf m k i j p
  let rows := (List.range rn).map (fun r => operandRow s array m es k pos r0 r c0 cn)
  if (m.operand k).transposed then (List.range cn).map (fun c => rows.map (fun row => row.getD c (.fin false 0 0))) else rows

/-! Issue. -/

/-- Run-time lengths (R177): M and K after the length item. -/
def runLengths (d : MmoDesc) (length : Option Word) : Nat × Nat :=
  if d.lengthQueue = 0 then (d.m, d.k)
  else
    let l := (length.map (·.toNat)).getD 0
    if d.lengthOnK then (d.m, min d.k l) else (min d.m l, d.k)

/-- The header of a queue operand agrees with the descriptor (R167); the half of a buffer pair has none. -/
def headerAgrees (d : MmoDesc) (k : Nat) (es : List Entry) : Bool :=
  let o := if k = 0 then d.a else d.b
  if o.kind ≠ 0 then true
  else match es[o.input]? with
    | none => false
    | some e =>
      if e.header.isEmpty then true
      else hdrFormat e.header % 32 == (if k = 0 then d.formatA else d.formatB) &&
        (hdrValidRows e.header, hdrValidCols e.header) == storedShape d k

/-- An operand's cargo is homed beyond T0 (R173). -/
def farOperand (s : State) (d : MmoDesc) : Bool :=
  let far (o : Operand) : Bool := o.kind == 2 && (cargoAt s o.handle).2.tier != 0
  far d.a || far d.b

/-- What the issue check of a firing answers, from the entries it brings. -/
def planMmo (s : State) (slot : Nat) (r : Route) (st : StationRec) (d : MmoDesc) (t : Word) (es : List Entry) (length : Option Word) :
    Except Nat (MmoDesc × Bool) × Nat × Nat :=
  let array := st.info.place
  let (meff, keff) := runLengths d length
  (issueCheck (shapeCtx s slot d) (setting s 0x3140 0 == 1 && farOperand s d) (headerAgrees d 0 es && headerAgrees d 1 es)
    (gaFor r array d).isSome d meff keff (r.allocOn array).blocks (freeBlocks s slot r array) t, meff, keff)

/-- The scalar item of a firing's length input. -/
def lengthItem (r : StationRec) (o : OpEntry) (d : MmoDesc) (es : List Entry) : Option Word :=
  ((es.zip o.inputs).find? (fun e => e.2.queue + 1 == d.lengthQueue && (r.queue e.2.queue).any (fun q => q.kind == 2))).map
    (fun e => BitVec.ofNat 32 (leNat e.1.payload))

/-- The entries that a firing of the tag would draw now. -/
def peekEntries (s : State) (slot : Nat) (r : Route) (st : StationRec) (o : OpEntry) (t : Word) : List Entry :=
  ((drawAll slot r st o.kind t o.inputs s).map (·.1)).getD []

/-- The contribution to a GA that an MMO of a station makes for a tag: micro-batch and source number (R222, R223). -/
def sourceOf (g : GaRec) (station : Nat) : Nat := ((List.range 8).find? (fun u => gaSource g u == station)).getD 0

/-- Contributions in admission order: ascending (m + u × s, u) (R223). -/
def before (g : GaRec) (a b : Nat × Nat) : Bool :=
  let k (x : Nat × Nat) := (x.1 + x.2 * gaSkew g) * 8 + x.2
  k a < k b

/-- A contribution is next under deterministic mode: every contribution of lower order has been admitted. One beyond the count or
admitted already waits for nothing: it will be discarded (R225). -/
def isNext (s : State) (slot : Nat) (g : GaRec) (c : Nat × Nat) : Bool :=
  let x := gaState s slot g
  let ms := gaCount g / gaSources g
  routeSetting s slot 0x2301 == 0 || ms ≤ c.1 || x.admitted.contains c ||
  (List.range ms).all (fun m => (List.range (gaSources g)).all (fun u => !before g (m, u) c || x.admitted.contains (m, u)))

def mmoDesc (r : Route) (o : OpEntry) : MmoDesc := (r.mmos[o.program]?).getD (MmoDesc.parse [])

/-- The cargo that a handle means for the request of a tag: each request reads the bank in force at its entry beat (R444). -/
def bankHandle (s : State) (slot : Nat) (t : Word) (h : Nat) : Nat :=
  let used := (serveOf s slot).requests.any (fun q => q.phase == 1 && q.line == tagMicro t && q.bank == 1)
  bankOf s slot (if used then 1 else 0) h

/-- An MMO descriptor with its cargo operands in the bank that its tag's request reads. -/
def bankDesc (s : State) (slot : Nat) (t : Word) (d : MmoDesc) : MmoDesc :=
  let f (o : Operand) : Operand := if o.kind = 2 then { o with handle := bankHandle s slot t o.handle } else o
  { d with a := f d.a, b := f d.b }

/-- Tiles that an MMO would send for a tag, by output (R127, R168). -/
def mmoTiles (s : State) (slot : Nat) (r : Route) (st : StationRec) (o : OpEntry) (t : Word) : Needs :=
  let d := bankDesc s slot t (mmoDesc r o)
  let es := peekEntries s slot r st o t
  match planMmo s slot r st d t es (lengthItem st o d es) with
  | (.ok (e, _), meff, _) =>
    (match d.delivery with
     | 0 => [(d.output, (outputTiles e meff).length)]
     | 1 => [(d.output, 1)]
     | _ => [])
  | _ => []

/-- An MMO into a GA waits for its turn (R223). -/
def mmoTurn (s : State) (slot : Nat) (r : Route) (st : StationRec) (o : OpEntry) (t : Word) : Bool :=
  match gaFor r st.info.place (mmoDesc r o) with
  | some g => isNext s slot g (tagMicro t, sourceOf g st.info.number)
  | none => true

/-- Blocks outside every ACM-resident output of the route come first. -/
def blockChoice (r : Route) (array : Nat) (free : List Nat) : List Nat :=
  let resident := (r.stationsOn array).flatMap (fun st => (st.ops.filter (fun o => o.kind == 0)).flatMap (fun o =>
    let d := mmoDesc r o
    if d.delivery = 2 then (List.range (ceilDiv d.m (max d.mt 32) * ceilDiv d.n (max d.nt 32) * (ceilDiv (max d.mt 32) 32 * ceilDiv (max d.nt 32) 128))).map
      (· + d.acmBase) else []))
  free.filter (fun b => !resident.contains b) ++ free.filter (fun b => resident.contains b)

/-- A fired MMO issues, or fails its issue check (R174-R177). -/
def issueMmo (slot op : Nat) (t : Word) (r : Route) (st : StationRec) (o : OpEntry) (es : List Entry) (s : State) : State :=
  let array := st.info.place
  let d := bankDesc s slot t (mmoDesc r o)
  let length := lengthItem st o d es
  let p := planMmo s slot r st d t es length
  let ga := gaFor r array d
  let blank (e : MmoDesc) (blocks : List Nat) (re : Bool) : Mmo :=
    { slot := slot, station := st.info.number, op := op, tag := t, desc := e, meff := p.2.1, keff := p.2.2, position := 0
      computed := 0, skipped := 0, reordered := re, autoShape := d.mt == 0 || d.nt == 0, autoK := d.kt == 0
      lengthApplied := decide (p.2.1 < d.m) || decide (p.2.2 < d.k), zeroFilled := false, blocks := blocks, written := [], drained := []
      landed := [], zeroed := [], fallback := none, wait := false
      contribution := ga.map (fun g => (gaNumber g, tagMicro t, sourceOf g st.info.number))
      issuedAt := s.clock, issuedBeat := (slotOf s slot).beat.count, pass := 0, kept := [] }
  match p.1 with
  | .error status =>
    let e := chooseShape (shapeCtx s slot d) (setting s 0x3140 0 == 1 && farOperand s d) d p.2.1 p.2.2 (r.allocOn array).blocks (freeBlocks s slot r array)
    let s := writeRecord array (completionRecord s (blank e [] false) status 0) s
    let s := event evtMmoReject (atSlotInst slot array) (le 1 status) (count 0x5234 array 1 s)
    failTag slot st.info.number t (leaveFlight slot st.info.number op t s)
  | .ok (e, re) =>
    let blocks := if ga.isSome then []
      else if e.delivery = 2 then (List.range (needOf e p.2.1 - e.acmBase)).map (· + e.acmBase)
      else (blockChoice r array (freeBlocks s slot r array)).take (needOf e p.2.1)
    let m := blank e blocks re
    let s := count 0x5230 array 1 s
    let s := if re then
        let s := count 0x5233 array 1 s
        if setting s 0x3141 0 = 1 then event evtMmoReorder (atSlotInst slot array) [] s else s
      else s
    let n := (arrayOf s array).nextMmo
    let s := modArray array (fun x => { x with mmos := kput x.mmos n m, nextMmo := n + 1 }) s
    match nextStep m (stepCount e + 1) 0 with
    | some pos => placeWindows array n pos false s
    | none => s

/-! The walk (R178-R181). -/

/-- First block of an output tile among the MMO's blocks, as block numbers of the slot: an ACM-resident tile stands at its own place; a
drained one takes a half of the blocks in turn, or its own share under KMN (R168, R172). -/
def tileBase (m : Mmo) (i j : Nat) : Nat → Nat :=
  let d := m.desc
  if d.delivery = 2 then fun k => d.acmBase + (i * ceilDiv d.n d.nt + j) * (ceilDiv (max d.mt 32) 32 * ceilDiv d.nt 128) + k
  else
    let ts := outputTiles d m.meff
    let q := (firstIndex (fun t => t == (i, j)) ts).getD 0
    let off := if d.order = 2 then sumNat ((ts.take q).map (fun t => tileBlocks d m.meff t.1))
      else q % 2 * (ts.map (fun t => tileBlocks d m.meff t.1)).foldl max 0
    fun k => m.blocks.getD (off + k) 0

/-- Accumulator row and column of element (row, col) of a GA: it is laid out as one tile (R152, R221). -/
def gaPlace (g : GaRec) (row col : Nat) : Nat × Nat :=
  ((gaBase g + row / 32 * ceilDiv (gaCols g) 128 + col / 128) * 32 + row % 32, col % 128)

/-- Accumulator row and column of element (r, c) of an output tile (R152); into a GA every tile of the MMO goes to its own part of the
GA's tile (R222). -/
def tileRow (r : Route) (array : Nat) (m : Mmo) (i j row col : Nat) : Nat × Nat :=
  match gaFor r array m.desc with
  | some g => gaPlace g (i * m.desc.mt + row) (j * m.desc.nt + col)
  | none => (tileBase m i j (row / 32 * ceilDiv m.desc.nt 128 + col / 128) * 32 + row % 32, col % 128)

/-- Blocks that an output tile owns while it accumulates; a GA owns its blocks as one (R154, R222). -/
def ownBlocks (r : Route) (array : Nat) (m : Mmo) (i j : Nat) : List Nat :=
  match gaFor r array m.desc with
  | some g => (List.range (gaBlocks g)).map (· + gaBase g)
  | none => (List.range (tileBlocks m.desc m.meff i)).map (tileBase m i j)

/-- The accumulator blocks of a tile are free: under MNK and NMK the tile two before has drained (R172, R181). -/
def tileFree (m : Mmo) (i j : Nat) : Bool :=
  if m.desc.delivery = 2 ∨ m.desc.order = 2 then true
  else
    let ts := outputTiles m.desc m.meff
    let q := (firstIndex (fun t => t == (i, j)) ts).getD 0
    q < 2 || m.drained.contains (ts.getD (q - 2) (0, 0))

/-- The format pair of an MMO as it is read now, and what follows from it: the rate class and the passes of the split. -/
def classOf (s : State) (m : Mmo) : Nat := rateClass (operandFormat s m 0) (operandFormat s m 1)
def splitOf (s : State) (m : Mmo) : Nat := passCount (operandFormat s m 0 == 0) (operandFormat s m 1 == 0)

/-- What runs of a tile step now: a block or a cell pass starts only if its last result is in the accumulators before the array passes to
another slot (R159). The streams follow one another. -/
def runsNow (s : State) (array : Nat) (m : Mmo) (rows kspan : Nat) : Nat → Nat → Nat → List Nat
  | 0, _, _ => []
  | fuel + 1, u, start =>
    let cls := classOf s m
    let b := (slotOf s m.slot).beat
    let next := start + passCycles cls m.desc rows kspan (passAt cls (splitOf s m) m.desc u)
    if passes s array m.slot && decide (b.opened + b.length < next + passLatency m.desc) then []
    else u :: runsNow s array m rows kspan fuel (u + 1) next

/-- The sum that one block or cell pass forms for an output element, and what of it reaches the accumulator (R146, R158, R169). -/
def passSum (isInt flush fa fb : Bool) (g split : Nat) (a b : List FVal) (old : Option Word) : Word × Word × Nat :=
  let ch := chain isInt flush g ((a.zip b).map (fun e => (passPairs fa fb e.1 e.2).getD split (.nan false, .nan false)))
  let w := accumulate isInt flush old ch.1
  (ch.1, w.1, ch.2 + w.2)

/-- The numerics and the counts of one stationary block or cell pass. -/
def computePass (array n : Nat) (r : Route) (m : Mmo) (a bT : List (List FVal)) (i j p u : Nat) (s : State) : State :=
  let d := m.desc
  let cls := classOf s m
  let split := splitOf s m
  let fa := operandFormat s m 0 == 0
  let fb := operandFormat s m 1 == 0
  let isInt := operandFormat s m 0 == 0x0A
  let flush := routeSetting s m.slot 0x3101 == 1
  let kspan := min d.kt (m.keff - p * d.kt)
  let rows := validRowsOf d m.meff i
  let pass := passAt cls split d u
  let q := chunkLength d.mode cls
  let span := chunkSpan cls d kspan pass.chunk
  let (r0, rn, c0, cn) := passArea cls d pass
  let here (x : List (List FVal)) (at0 k : Nat) : List (List FVal × Nat) :=
    (((x.zipIdx).drop at0).take k).map (fun e => ((e.1.drop (pass.chunk * q)).take span, e.2))
  let x := arrayOf s array
  let ga := gaFor r array d
  let first := pass.chunk = 0 && pass.split = 0 && !m.written.contains (i, j) && !d.accumulate
  let lost := match ga, m.contribution with | some g, some (_, c) => gaExcess s m.slot g c | _, _ => false
  let cols := here bT c0 cn
  let res := (here a r0 rn).flatMap (fun ra => cols.map (fun cb =>
    let e := tileRow r array m i j ra.2 cb.2
    let old := if ga.isSome then kget x.acm (acmKey m.slot e.1 e.2) else if first then none else some (acmGet x m.slot e.1 e.2)
    (e, passSum isInt flush fa fb (groupOf d.mode cls) pass.split ra.1 cb.1 old)))
  let x' := if lost then x else res.foldl (fun x e => acmPut m.slot e.1.1 e.1.2 e.2.2.1 x) x
  let cycles := passCycles cls d rows kspan pass
  let start := max s.clock x.cells.streams
  let held := cols.map (·.1)
  let cells : Cells :=
    { x.cells with
      active := if d.mode = 2 then x.cells.active else held
      shadow := if d.mode = 2 then x.cells.shadow else held
      accumulating := if d.mode = 2 then res.map (fun e => e.2.1) else x.cells.accumulating
      flushing := if d.mode = 2 then x.cells.accumulating else x.cells.flushing
      streams := start + cycles
      busy := start + cycles + passLatency d }
  let owned := if lost then x'.owners else (ownBlocks r array m i j).foldl (fun o b => kput o (m.slot * 128 + b) n) x'.owners
  let s := setArray array { x' with owners := owned, cells := cells, wheelActive := x'.wheelActive + cycles } s
  let products := if d.mode = 2 then 128 * 128 * span else rows * q * columnWidth d.mode cls
  let mac := (res.length) * span
  let add (i n : Nat) (s : State) := if n = 0 then s else count i array n s
  add 0x5220 cycles (add 0x5229 mac (add 0x522A (products - mac) (add 0x522B (sumNat (res.map (fun e => e.2.2.2)))
    (add 0x522D (if lost || isInt then 0 else sumNat (res.map (fun e => if isNan32 e.2.2.1 then 1 else 0)))
      (add 0x522E (if split = 1 then 0 else 1) s)))))

/-- The blocks or cell passes of a tile step that can run now, and with the last of them the end of the step. -/
def computeStep (array n : Nat) (r : Route) (m : Mmo) (es : List Entry) (pos : Nat) (s : State) : State :=
  let d := m.desc
  let (i, j, p) := stepAt' d pos
  let rows := validRowsOf d m.meff i
  let cols := validColsOf d j
  let kspan := min d.kt (m.keff - p * d.kt)
  let a := operandWindow s array m es 0 pos
  let b := operandWindow s array m es 1 pos
  let bT := (List.range cols).map (fun c => b.map (fun row => row.getD c (.fin false 0 0)))
  let total := passesOf (classOf s m) (splitOf s m) d kspan
  let us := runsNow s array m rows kspan (total - m.pass) m.pass (max s.clock (arrayOf s array).cells.streams)
  let s := us.foldl (fun s u => computePass array n r m a bT i j p u s) s
  let ended := decide (total ≤ m.pass + us.length)
  let m := if ended then
      { m with written := if m.written.contains (i, j) then m.written else m.written ++ [(i, j)]
               computed := m.computed + 1, position := pos + 1, pass := 0 }
    else { m with pass := m.pass + us.length }
  let s := modArray array (fun x => { x with mmos := kput x.mmos n m }) s
  let edge := rows < d.mt || cols < d.nt || kspan < d.kt
  if ended then count 0x5231 array 1 (if edge then count 0x5235 array 1 s else s) else s

/-- Granules at the right-hand edge of a window's stored rows of which only a part lies in bounds (R179). -/
def edgeGranules (s : State) (m : Mmo) (pos : Nat) : Nat :=
  sumNat ([0, 1].map (fun k =>
    if (m.operand k).kind ≠ 2 then 0
    else
      let d := m.desc
      let f := formatFor s m.slot (operandFormat s m k)
      let (i, j, p) := stepAt' d pos
      let (r0, rn, c0, cn) := windowOf m k i j p
      let (base, pitch, _) := operandPlace s m k
      let bound := if (m.operand k).transposed then (if k = 0 then m.meff else m.keff) else (if k = 0 then m.keff else d.n)
      if c0 + cn < bound then 0
      else ((List.range rn).filter (fun r => (base + (r0 + r) * pitch + ceilDiv ((c0 + cn) * f.width) 8) % 64 != 0)).length))

/-- A step of the walk that is not skipped: computed once its windows are in the TBF and its accumulator blocks are free, as far as its
blocks may start (R159, R178, R181). -/
def runStep (array mmo : Nat) (r : Route) (m : Mmo) (f : Flight) (s : State) : State :=
  let pos := m.position
  let (i, j, _) := stepAt' m.desc pos
  let want := [0, 1].filter (fun k => (m.operand k).kind == 2)
  if want.any (fun k => !windowPlaced s array mmo k pos m) then placeWindows array mmo pos false s
  else if want.all (fun k => windowLanded m k pos) && tileFree m i j then
    let c := consumeAll (want.map (fun k => Landing.staging array (stagingAddress s m k pos))) s
    match c.2 with
    | .wait => c.1
    | .fail =>
      failTag m.slot m.station m.tag (leaveFlight m.slot m.station m.op m.tag (abandonMmo array mmo c.1))
    | .ok =>
      let g := if m.pass = 0 then edgeGranules s m pos else 0
      let s := computeStep array mmo r m f.inputs pos (if g = 0 then c.1 else count 0x5236 array g c.1)
      if setting s 0x3602 0 = 1 then
        match nextStep m (stepCount m.desc + 1) (pos + 1) with
        | some next => placeWindows array mmo next true s
        | none => s
      else s
  else s

/-- One tile step of the walk: skipped beyond the run-time lengths, otherwise run (R178, R181). -/
def execTileStep (array mmo : Nat) (s : State) : Outcome :=
  done (match kget (arrayOf s array).mmos mmo with
    | none => s
    | some m =>
      match routeOf s m.slot, (stationOf s m.slot m.station).flight.find? (fun f => f.op == m.op && f.tag == m.tag) with
      | some r, some f =>
        let pos := m.position
        if stepCount m.desc ≤ pos ∨ arrayWorks s array m.slot = false then s
        else if stepSkipped m pos then
          count 0x5232 array 1 (modArray array (fun x => { x with
            mmos := kput x.mmos mmo { m with position := pos + 1, skipped := m.skipped + 1 } }) s)
        else runStep array mmo r m f s
      | _, _ => s)

/-! Drains (R155-R157, R168, R180). -/

/-- Position of an MMO's output in its whole tensor (R363): the bases of its position entry. -/
def positionBase (r : Route) (m : Mmo) (program : Nat) : Nat × Nat :=
  let n := field r.plan.cut 28 2
  match (records 16 (slice r.plan.cut 64 (16 * n))).find? (fun e => field e 0 2 == program) with
  | none => (0, 0)
  | some e =>
    let block := field r.plan.pipeline 8 4
    let local' := field r.plan.cut 24 4
    let len := if r.plan.cut.isEmpty || local' = 0 then field r.plan.pipeline 4 4 else local'
    let per := if block = 0 then 1 else max 1 (ceilDiv len block)
    (field e 4 4 + (if bit (field e 2 2) 0 then tagMicro m.tag % per * block else 0), field e 8 4)

/-- Values of an output tile, its valid rows over its full width; the padded columns are zero. -/
def drainValues (s : State) (array : Nat) (r : Route) (m : Mmo) (zero : Bool) (i j : Nat) : List (List Word) :=
  let d := m.desc
  let cols := validColsOf d j
  let x := arrayOf s array
  (List.range (validRowsOf d m.meff i)).map (fun row => (List.range d.nt).map (fun c =>
    if zero || cols ≤ c then (0 : Word) else let e := tileRow r array m i j row c; acmGet x m.slot e.1 e.2))

/-- A run of an output tile's elements in the stored layout, with the counts of its conversion. `place` gives the position of an element
in the whole tensor. The rounding takes the firing tag, so that no bit depends on the tile shape (R156, R162). -/
def packDrain (s : State) (m : Mmo) (place : Nat → Nat × Nat) (ws : List Word) : Bytes × Counts :=
  let f := formatFor s m.slot m.desc.formatC
  let q := place 0
  if f.width = 32 then (ws.flatMap (fun w => le 4 w.toNat), noCounts)
  else packPlaced f (seedOf (stepOf s m.slot) m.tag.toNat q.1) q.2 (roundingOf s m.slot m.desc.rounding m.tag) (toInfinity s m.slot) place (ws.map f32)

/-- Valid rows of an output tile in packed stored rows, with the counts of their conversion. -/
def drainRows (s : State) (array : Nat) (r : Route) (m : Mmo) (program : Nat) (zero : Bool) (i j : Nat) : List (Bytes × Counts) :=
  let base := positionBase r m program
  (drainValues s array r m zero i j).zipIdx.map (fun e =>
    packDrain s m (fun c => (base.1 + i * m.desc.mt + e.2, base.2 + j * m.desc.nt + c)) e.1)

/-- The same tile stored transposed: its valid columns as stored rows, over its full height (R165). -/
def drainColumns (s : State) (array : Nat) (r : Route) (m : Mmo) (program : Nat) (zero : Bool) (i j : Nat) : List (Bytes × Counts) :=
  let base := positionBase r m program
  let rows := drainValues s array r m zero i j
  (List.range (validColsOf m.desc j)).map (fun c =>
    packDrain s m (fun row => (base.1 + i * m.desc.mt + row, base.2 + j * m.desc.nt + c))
      ((List.range m.desc.mt).map (fun row => (rows.getD row []).getD c 0)))

/-- A tile's K steps are over: its last step has run, or every one of them is skipped because keff is 0 (R178, R181). -/
def tileDone (m : Mmo) (i j : Nat) : Bool :=
  let d := m.desc
  let np := ceilDiv m.keff d.kt
  let ni := ceilDiv d.m d.mt
  let nj := ceilDiv d.n d.nt
  let last := np - 1
  let pos := match d.order with
    | 1 => (j * ni + i) * ceilDiv d.k d.kt + last
    | 2 => (last * ni + i) * nj + j
    | _ => (i * nj + j) * ceilDiv d.k d.kt + last
  if m.keff = 0 then stepCount d ≤ m.position else pos < m.position

/-- The next tile to drain, in the order of the walk. -/
def nextDrain (m : Mmo) : Option (Nat × Nat) :=
  (outputTiles m.desc m.meff).find? (fun t => !m.drained.contains t && tileDone m t.1 t.2)

/-- Elements of MXFP6 and MXFP4 that share a byte with one out of bounds (R180). -/
def partBytes (f : EFmt) (rows cols : Nat) : Nat := if f.width % 8 = 0 ∨ cols * f.width % 8 = 0 then 0 else rows

/-- Bytes of `n` elements of a packed run, the last one sharing its byte with what stands there (R180). -/
def maskedBytes (f : EFmt) (n : Nat) (packed : Bytes) (old : Nat → Byte) : Bytes :=
  let whole := n * f.width / 8
  let rest := n * f.width % 8
  packed.take whole ++ (if rest = 0 then [] else
    [BitVec.ofNat 8 ((packed.getD whole 0).toNat % 2 ^ rest + (old whole).toNat / 2 ^ rest * 2 ^ rest)])

/-- Where a drained tile goes in its output cargo: byte offsets with their bytes, each stored run's elements and then its scales (R168,
R180, R518). -/
def cargoWrites (s : State) (m : Mmo) (i j : Nat) (runs : List Bytes) : List (Nat × Bytes) :=
  let d := m.desc
  let f := formatFor s m.slot d.formatC
  let c := d.c
  let k := (cargoAt s c.handle).1
  let (first, at0, n, full) :=
    if c.transposed then (j * d.nt, i * d.mt, validRowsOf d m.meff i, d.mt) else (i * d.mt, j * d.nt, validColsOf d j, d.nt)
  let length := if c.transposed then d.m else d.n
  let elems := ceilDiv ((if c.stride = 0 then length else c.stride) * f.width) 32 * 4
  runs.zipIdx.flatMap (fun e =>
    let row := c.offset * 64 + (first + e.2) * strideBytes f c length
    let a := row + at0 * f.width / 8
    (a, maskedBytes f n e.1 (fun o => (cargoBytes s k (a + o) 1).getD 0 0)) ::
      (if f.block = 0 then [] else [(row + elems + at0 / f.block, (e.1.drop (ceilDiv (full * f.width) 32 * 4)).take (ceilDiv n f.block))]))

/-- A drained tile goes into its output cargo, once its pages can take it: a BROKEN cargo gives the route FLT_SAGGAR (R268), and a store
that is refused ends the MMO (R324). `none` leaves the drain waiting. -/
def storeTile (array n : Nat) (m : Mmo) (i j : Nat) (runs : List Bytes) (s : State) : State × Option Bool :=
  let d := m.desc
  let f := formatFor s m.slot d.formatC
  let (k, c) := cargoAt s d.c.handle
  if c.state = 2 then (saggarHit m.slot 0xFFFF s, some true)
  else
    let pages := ((cargoWrites s m i j runs).flatMap (fun w => pagesOf w.1 w.2.length)).eraseDups
    let store := if c.tier = 3 ∧ c.farCached = false then pages.filterMap (fun p => (pageOf s k p).map (·.frame)) else []
    if pages.any (fun p => hostAway s k p && (!c.farCached || fetchesHome s k p)) then
      (failTag m.slot m.station m.tag (leaveFlight m.slot m.station m.op m.tag (abandonMmo array n s)), some false)
    else
      let a := admitStore c.client store false s
      if a.2 = false then (failTag m.slot m.station m.tag (leaveFlight m.slot m.station m.op m.tag (abandonMmo array n a.1)), some false)
      else
        let x := if c.farCached then accessPages k pages a.1 else (a.1, true)
        if x.2 = false then (x.1, none)
        else
          let s := pages.foldl (fun s p => if c.farCached then settlePage k p s else s) x.1
          let s := (cargoWrites s m i j runs).foldl (fun s w => applyWrite k w.1 w.2 s) s
          let s := pages.foldl (fun s p => raiseGeneration k p s) s
          let pb := if d.c.transposed then partBytes f (validColsOf d j) (validRowsOf d m.meff i) else partBytes f (validRowsOf d m.meff i) (validColsOf d j)
          (if pb = 0 then s else count 0x5237 array pb s, some true)

/-- The tile has left: its blocks are free (R154). -/
def drainedTile (array n : Nat) (r : Route) (m : Mmo) (i j : Nat) (s : State) : State :=
  let zero := decide (m.keff = 0)
  modArray array (fun x => { x with
    mmos := kput x.mmos n { m with drained := m.drained ++ [(i, j)], zeroFilled := m.zeroFilled || zero }
    owners := (ownBlocks r array m i j).foldl (fun o b => kdel o (m.slot * 128 + b)) x.owners }) (if zero then count 0x5238 array 1 s else s)

/-- A drained tile leaves by the descriptor's delivery (R168). Tiles are staged behind the operands' buffers. -/
def deliverTile (array n : Nat) (r : Route) (m : Mmo) (program i j : Nat) (s : State) : State :=
  let d := m.desc
  let f := formatFor s m.slot d.formatC
  let zero := decide (m.keff = 0)
  let nj := ceilDiv d.n d.nt
  let rows := validRowsOf d m.meff i
  let cols := validColsOf d j
  let index := i * nj + j
  let res := if d.delivery = 3 ∧ d.c.transposed = true then drainColumns s array r m program zero i j else drainRows s array r m program zero i j
  let sat := sumNat (res.map (fun e => e.2.sat))
  let counted (s : State) : State := if sat = 0 then s else count 0x522C array sat s
  let stage (a : Nat) (b : Bytes) : State → State := modArray array (fun x => { x with tbf := storeBytes x.tbf a b })
  match d.delivery with
  | 0 =>
    match r.output m.station d.output with
    | none => drainedTile array n r m i j (counted s)
    | some o =>
      let payload := res.flatMap (·.1) ++ zeroBytes ((d.mt - rows) * rowBytes f d.nt)
      let tag := BitVec.ofNat 32 (m.tag.toNat / 65536 * 65536 + (tagIndex m.tag + index) % 65536)
      let last := index + 1 == ceilDiv d.m d.mt * nj
      let pad := if rows < d.mt ∨ cols < d.nt then 64 else 0
      let h := outHeader s m.slot m.station o.number tag payload.length ⟨d.formatC + pad, last, d.mt, d.nt, rows, cols, 0⟩
      drainedTile array n r m i j (sendReserved m.slot m.station m.op m.tag o.number ⟨h, payload⟩
        (stage (outputAddress s m + m.drained.length % 2 * (d.mt * rowBytes f d.nt)) payload (counted s)))
  | 1 =>
    let n' := rowBytes f d.n
    let elems := ceilDiv (d.n * f.width) 32 * 4
    let s := res.zipIdx.foldl (fun s e =>
      let at0 := outputAddress s m + (i * d.mt + e.2) * n'
      let a := at0 + j * d.nt * f.width / 8
      let s := stage a (maskedBytes f cols e.1.1 (fun _ => 0)) s
      if f.block = 0 then s
      else stage (at0 + elems + j * d.nt / f.block) ((e.1.1.drop (ceilDiv (d.nt * f.width) 32 * 4)).take (ceilDiv cols f.block)) s) (counted s)
    drainedTile array n r m i j s
  | 3 =>
    match storeTile array n m i j (res.map (·.1)) s with
    | (s, some true) => drainedTile array n r m i j (counted s)
    | (s, _) => s
  | _ => drainedTile array n r m i j (counted s)

/-- Accumulator elements of an ACM-resident output without a contribution are written with zeros, unless accumulate-onto is set
(R178); in a GA those that no contribution has written yet (R222). -/
def zeroResident (array : Nat) (r : Route) (m : Mmo) : State → State :=
  modArray array (fun x =>
    (List.range (ceilDiv m.desc.m m.desc.mt)).foldl (fun x i => (List.range (ceilDiv m.desc.n m.desc.nt)).foldl (fun x j =>
      if m.written.contains (i, j) then x
      else (List.range (min m.desc.mt (m.desc.m - i * m.desc.mt))).foldl (fun x row => (List.range (validColsOf m.desc j)).foldl (fun x c =>
        let e := tileRow r array m i j row c
        if (gaFor r array m.desc).isSome ∧ (kget x.acm (acmKey m.slot e.1 e.2)).isSome then x else acmPut m.slot e.1 e.2 0 x) x) x) x) x)

/-- Zeros are due in the output of an MMO that has run (R178, R222): a contribution that will be discarded writes none. -/
def zeroDue (s : State) (array : Nat) (r : Route) (m : Mmo) : Bool :=
  m.desc.delivery == 2 && (match gaFor r array m.desc, m.contribution with
    | some g, some (_, c) => !gaExcess s m.slot g c
    | some _, none => true
    | none, _ => !m.desc.accumulate)

/-- The MMO is over: a whole-stream result leaves, its record is written, its blocks are free, and its unit has finished
(R168, R176, R182). -/
def endMmo (array n : Nat) (r : Route) (m : Mmo) (s : State) : State :=
  let d := m.desc
  let f := formatFor s m.slot d.formatC
  let s := if d.delivery = 1 then
      match r.output m.station d.output with
      | none => s
      | some o =>
        let payload := loadBytes (arrayOf s array).tbf (outputAddress s m) (m.meff * rowBytes f d.n)
        let h := outHeader s m.slot m.station o.number m.tag payload.length ⟨d.formatC, true, m.meff, d.n, m.meff, d.n, 0⟩
        sendReserved m.slot m.station m.op m.tag o.number ⟨h, payload⟩ s
    else s
  let s := if zeroDue s array r m then zeroResident array r m s else s
  let s := writeRecord array (completionRecord s m 0 (s.clock - m.issuedAt)) s
  let s := modArray array (fun x => { x with
    mmos := kdel x.mmos n
    owners := if d.delivery = 2 ∧ m.contribution.isNone then x.owners.filter (fun o => !(m.blocks.any (fun b => m.slot * 128 + b == o.1))) else x.owners }) s
  finishFlight m.slot m.station m.op m.tag [] s

/-- Every step and every drain is over. -/
def mmoOver (m : Mmo) : Bool :=
  decide (stepCount m.desc ≤ m.position) && (m.desc.delivery == 2 || (outputTiles m.desc m.meff).all (fun t => m.drained.contains t))

/-- The output drain: the next tile whose last contribution has arrived, or, with every tile out, the end of the MMO. -/
def execOutputDrain (array mmo : Nat) (s : State) : Outcome :=
  done (match kget (arrayOf s array).mmos mmo with
    | none => s
    | some m =>
      match routeOf s m.slot with
      | none => s
      | some r =>
        let program := (((r.station m.station).bind (fun st => st.ops[m.op]?)).map (·.program)).getD 0
        if m.desc.delivery ≠ 2 then
          match nextDrain m with
          | some t => deliverTile array mmo r m program t.1 t.2 s
          | none => if mmoOver m then endMmo array mmo r m s else s
        else if mmoOver m then endMmo array mmo r m s else s)

end Sys2Proof.Machine
end

