-- ==== Sys2Proof/Machine/Regions.lean ====
section
/-! DEFINITION. Regions of a route in the TBF of an array (R299, R515, R516), and the places of the Stash: the refill regions of its
stations, their on-die and overflow pages (R213-R217). -/

namespace Sys2Proof.Machine

/-- Two ranges (start, length) meet. -/
def meets (a b : Nat × Nat) : Bool := decide (a.1 < b.1 + b.2) && decide (b.1 < a.1 + a.2)

/-- The first range lies in the second. -/
def inside (a b : Nat × Nat) : Bool := decide (b.1 ≤ a.1) && decide (a.1 + a.2 ≤ b.1 + b.2)

/-- The MMO operations with the descriptors that they name: station, operation, descriptor. -/
def mmoOps (r : Route) : List (StationRec × OpEntry × MmoDesc) :=
  r.stations.flatMap (fun st => (st.ops.filter (·.kind == 0)).filterMap (fun o => (r.mmos[o.program]?).map (fun d => (st, o, d))))

/-! Regions in the TBF of an array (R299, R515, R516). -/

def queueRegions (sts : List StationRec) : List (Nat × Nat) :=
  sts.flatMap (fun st => (st.queues.filter (fun q => q.size != 0)).map (fun q => (q.base, q.size)))

/-- Stations whose queues lie in the TBF of an array. -/
def tbfStations (r : Route) (a : Nat) : List StationRec := r.stations.filter (fun st => st.info.kind != 3 && Station.array st.info == a)

def pairRegions (r : Route) (a : Nat) : List (Nat × Nat) := (r.pairs.filter (fun p => p.1 == a)).map (fun p => (p.2.base, 2 * p.2.half))
def stagingRegions (r : Route) (a : Nat) : List (Nat × Nat) :=
  ((mmoOps r).filter (fun e => e.1.info.place == a && e.2.2.size != 0)).map (fun e => (e.2.2.base, e.2.2.size))

/-- TBF-buffer operands on an array, in bytes. -/
def bufferOperands (s : State) (slot : Nat) (r : Route) (a : Nat) : List (Nat × Nat) :=
  ((mmoOps r).filter (fun e => e.1.info.place == a)).flatMap (fun e => [0, 1].filterMap (fun k =>
    let o := if k = 0 then e.2.2.a else e.2.2.b
    let f := formatFor s slot (if k = 0 then e.2.2.formatA else e.2.2.formatB)
    let m := storedShape e.2.2 k
    if o.kind = 1 then some (o.handle * 256, m.1 * rowBytes f m.2) else none))

def scaleRegion (x : Nat × Nat) : Nat × Nat := (x.1 * 4096, x.2 * 4096)

/-! The Stash. -/

def stashStream (b : Bytes) : Nat := field b 0 2
def stashFormat (b : Bytes) : Nat := field b 2 1
def stashRounding (b : Bytes) : Nat := field b 3 1
def stashOnDie (b : Bytes) : Nat := field b 4 2
def stashLead (b : Bytes) : Nat := field b 6 1
def stashNarrowed (b : Bytes) : Nat := field b 12 4
def stashCargo (b : Bytes) : Nat := field b 16 4
def stashRowBase (b : Bytes) : Nat := field b 20 4

/-- On-die pages of a stash stream (R217). -/
def onDiePages (b : Bytes) : Nat := stashOnDie b * ceilDiv (field b 8 4) 65536

/-- Refill regions of the Stash stations on an array: station, stream and bytes (R216). -/
def refillNeeds (r : Route) (a : Nat) : List ((Nat × Nat) × Nat) :=
  (r.stash.filter (fun e => (r.station e.1).any (fun st => st.info.place == a))).flatMap (fun e =>
    ((records 24 e.2).filter (fun b => stashFormat b != 255)).map (fun b => ((e.1, stashStream b), (stashLead b + 1) * stashNarrowed b)))

/-- First fit of the refill regions in the room that no record names. -/
def fitRefills (space : Nat × Nat) : List ((Nat × Nat) × Nat) → List (Nat × Nat) → Option (List ((Nat × Nat) × Nat))
  | [], _ => some []
  | (k, n) :: rest, used =>
    match (space.1 :: used.map (fun u => u.1 + u.2)).find? (fun p => inside (p, n) space && !used.any (meets (p, n))) with
    | some p => (fitRefills space rest ((p, n) :: used)).map (fun l => (k, p) :: l)
    | none => if n = 0 then (fitRefills space rest used).map (fun l => (k, 0) :: l) else none

/-- Where the refill regions of an array stand, beside the route's other regions (R216, R516). -/
def refillPlaces (s : State) (slot : Nat) (r : Route) (a : Nat) : Option (List ((Nat × Nat) × Nat)) :=
  fitRefills (scaleRegion ((r.allocOn a).base, (r.allocOn a).size)) (refillNeeds r a)
    ((queueRegions (tbfStations r a) ++ pairRegions r a ++ stagingRegions r a).map scaleRegion ++ bufferOperands s slot r a)

/-- Where the on-die pages of a stash stream begin: the on-die stash cargo of the station's cluster, manifest use 1, takes the streams of
the route one after another. Record and byte (R214, R217). -/
def onDiePlace (s : State) (r : Route) (station stream : Nat) : Option (Nat × Nat) :=
  let cluster (n : Nat) : Nat := clusterOf (r.arrayOf n)
  let all := r.stash.flatMap (fun e => if cluster e.1 = cluster station then (records 24 e.2).map (fun b => (e.1, b)) else [])
  let before := all.takeWhile (fun e => e.1 != station || stashStream e.2 != stream)
  (r.manifest.filter (fun m => m.use == 1)).findSome? (fun m => (cargoOf s m.handle).bind (fun c =>
    if c.2.tier = 0 ∧ c.2.cluster = cluster station then some (c.1, (m.first + sumNat (before.map (fun e => onDiePages e.2))) * pageBytes) else none))

/-- The pages of one micro-batch of a stash stream: the cargo record, the first byte and the bytes that the record gives it (R213, R217). -/
def stashArea (s : State) (r : Route) (station : Nat) (b : Bytes) (m : Nat) : Option (Nat × Nat × Nat) :=
  if m < stashOnDie b then
    (onDiePlace s r station (stashStream b)).map (fun p => (p.1, p.2 + m * roundUp (field b 8 4) pageBytes, field b 8 4))
  else some (stashCargo b % 65536, (m - stashOnDie b) * roundUp (stashNarrowed b) pageBytes, stashNarrowed b)

/-- The first place in an area that a tile of so many bytes finds beside those that are there. -/
def fitTile (area : Nat × Nat) (n : Nat) (used : List (Nat × Nat)) : Option Nat :=
  (area.1 :: used.map (fun u => u.1 + u.2)).find? (fun a => inside (a, n) area && !used.any (meets (a, n)))

end Sys2Proof.Machine
end

