-- ==== Sys2Proof/Machine/Rules.lean ====
section
/-! DEFINITION. The firing rule of each kind of operation (R127), the choice among the operations that are ready, and a firing itself; and
the issue of an MMO. -/

namespace Sys2Proof.Machine

/-! What the kinds add to the common conditions. -/

def updKind (b : Bytes) : Nat := field b 2 1
def updOutput (b : Bytes) : Nat := field b 38 1 % 8

/-- TOUT words of a program, by output stream: the tiles that a run sends where no loop repeats one (R127, R200). -/
def toutTiles (program : List (BitVec 64)) : Needs :=
  let ws := program.filter (fun w => gOpcode w == 0x2A)
  ((ws.map gStream).eraseDups).map (fun j => (j, (ws.filter (fun w => gStream w == j)).length))

/-- Tiles that an operation writes for a tag, by output (R127). -/
def opNeeds (s : State) (slot : Nat) (r : Route) (st : StationRec) (o : OpEntry) (t : Word) : Needs :=
  match o.kind with
  | 0 => mmoTiles s slot r st o t
  | 1 => toutTiles ((r.programs.find? (fun p => p.station == st.info.number && p.entry == o.program)).elim [] programWords)
  | 5 => match r.updates[o.program]? with
    | some b => if updKind b = 1 then [(updOutput b, 1)] else []
    | none => []
  | 2 => []
  | 3 => []
  | 6 => []
  | _ => oneEach o

/-- A firing takes the credits at once; a Glaze program takes them as its TOUTs send (R200). -/
def opReserves (kind : Nat) : Bool := kind != 1

/-- A stack Kiln has failed with its stack (R261, R483). -/
def kilnFailed (s : State) (place : Nat) : Bool := decide (256 ≤ place) && s.mem.failed.contains (1, place - 256)

/-- What an operation of a kind needs besides: an MMO its turn at a GA (R223), a move a place in the engine's queue (R292), an emit the
scalar result of the Glaze program of its tag (R131, R193), an exchange a record of its station (assumption log 20). -/
def opReady (s : State) (slot : Nat) (r : Route) (st : StationRec) (o : OpEntry) (t : Word) : Bool :=
  match o.kind with
  | 0 => mmoTurn s slot r st o t
  | 2 => queueRoom s (Station.array st.info)
  | 5 => !kilnFailed s st.info.place
  | 6 => (r.collectives[o.program]?).any (fun x => x.station == st.info.number && x.op != 3)
  | 8 => (resultFor s slot st.info.number t).isSome
  | 9 => (resultFor s slot st.info.number t).isSome
  | _ => true

/-! The choice (R127, R256). -/

/-- What a firing of a tag by an operation of its kind would draw, where the operation is ready for it. -/
def readyNow (s : State) (slot : Nat) (r : Route) (st : StationRec) (o : OpEntry) (t : Word) : Option (List Entry) :=
  if opReady s slot r st o t then readyFor s slot r st o (opNeeds s slot r st o t) t else none

/-- The (operation, tag) pairs of a station that are ready, each with its sequence position: the earliest of each operation. -/
def readyPairs (s : State) (slot : Nat) (r : Route) (st : StationRec) : List (Nat × Nat × Word) :=
  st.ops.zipIdx.filterMap (fun e =>
    ((candidates s slot st e.2).find? (fun c => (readyNow s slot r st e.1 c.2).isSome)).map (fun c => (e.2, c.1, c.2)))

/-- The pair that 3040.00 chooses among those ready (R127). -/
def choosePair (s : State) (x : StationState) (ps : List (Nat × Nat × Word)) : Option (Nat × Word) :=
  let best := ps.foldl (fun (b : Option (Nat × Nat × Word)) e =>
    match b with
    | none => some e
    | some y =>
      let key (z : Nat × Nat × Word) := if setting s 0x3040 0 = 1 then z.2.1 * 64 + z.1 else (z.1 + 64 - x.next % 64) % 64
      if key e < key y then some e else some y) none
  best.map (fun e => (e.1, e.2.2))

/-- Every update that a Kiln could begin now, for whatever route: the arrival of its tile, the slot, the station, the operation and the
tag. -/
def kilnPairs (s : State) (place : Nat) : List (Nat × Nat × Nat × Nat × Word) :=
  (residents s).flatMap (fun e => (e.2.stations.filter (fun st => st.info.kind == 3 && st.info.place == place)).flatMap (fun st =>
    if stationMay s e.1 st then
      st.ops.zipIdx.flatMap (fun o => (candidates s e.1 st o.2).filterMap (fun c =>
        (readyNow s e.1 e.2 st o.1 c.2).map (fun es => ((es.head?).elim 0 (·.arrived), e.1, st.info.number, o.2, c.2))))
    else []))

/-- A Kiln takes tiles in order of arrival (R256). -/
def kilnNext (s : State) (place : Nat) : Option (Nat × Nat × Nat × Word) :=
  ((kilnPairs s place).foldl (fun (b : Option (Nat × Nat × Nat × Nat × Word)) e =>
    match b with | none => some e | some y => if e.1 < y.1 then some e else some y) none).map (·.2)

/-- The operation and tag that a station fires now. -/
def chosen (s : State) (slot : Nat) (r : Route) (st : StationRec) : Option (Nat × Word) :=
  if st.info.kind = 3 then
    match kilnNext s st.info.place with
    | some (i, n, e) => if i = slot ∧ n = st.info.number then some e else none
    | none => none
  else choosePair s (stationOf s slot st.info.number) (readyPairs s slot r st)

/-! Firing. -/

/-- Credits taken for the tiles of a firing. -/
def reserve (slot : Nat) (r : Route) (station : Nat) (need : Needs) (s : State) : State :=
  need.foldl (fun s e => match r.output station e.1 with
    | some o => modStream slot o.number (fun x => { x with credits := x.credits - e.2 }) s
    | none => s) s

/-- What the entries of a firing have landed in, as far as R307 checks it: halves of buffer pairs, and refill regions of the Stash. -/
def entryLandings (s : State) (slot n kind : Nat) (es : List Entry) : List Landing :=
  es.filterMap (fun e => e.half.map (fun h => Landing.half h.1 h.2.1 h.2.2)) ++
  (if kind = 4 then ((slotOf s slot).train.stash.filter (fun x => x.station == n && es.any (fun e => e.tag == x.tag && e.header == x.header))).filterMap (fun x =>
      x.refill.map (fun a => Landing.staging ((routeOf s slot).elim 0 (fun r => r.arrayOf n)) a)) else [])

/-- A firing of a tag by an operation of a kind, where it is the one chosen: the consumption checks of R307, then what it consumes,
reserves and records. `f` is the effect of the operation's kind. -/
def fireKind (kind slot n op : Nat) (t : Word) (f : Route → StationRec → OpEntry → List Entry → State → State) (s : State) : State :=
  match (routeOf s slot).bind (fun r => (r.station n).bind (fun st => (st.ops[op]?).map (fun o => (r, st, o)))) with
  | none => s
  | some (r, st, o) =>
    if o.kind ≠ kind ∨ stationMay s slot st = false ∨ chosen s slot r st ≠ some (op, t) then s
    else
      match readyNow s slot r st o t with
      | none => s
      | some es =>
        let c := consumeAll (entryLandings s slot n kind es) s
        match c.2 with
        | .wait => c.1
        | .fail => modStation slot n (fun x => { x with fired := x.fired ++ [(op, t)] }) (failTag slot n t c.1)
        | .ok =>
          match drawAll slot r st kind t o.inputs c.1 with
          | none => c.1
          | some (es, s') =>
            let need := if opReserves kind then opNeeds s slot r st o t else []
            let s := reserve slot r n need s'
            let item := (es.zip o.inputs).find? (fun e => (st.queue e.2.queue).any (fun q => q.kind == 2))
            let s := modStation slot n (fun x => { x with
              flight := x.flight ++ [⟨op, t, es, item.map (fun e => BitVec.ofNat 32 (leNat e.1.payload)), [], false,
                need.filterMap (fun e => (r.output n e.1).map (fun o => (o.number, e.2)))⟩]
              fired := x.fired ++ [(op, t)]
              quota := kput x.quota op (kgetD 0 x.quota op + 1)
              next := (op + 1) % 64 }) s
            f r st o es s

/-- An MMO operation fires and issues (R174-R177). -/
def execMmoIssue (slot station op : Nat) (tag : Word) (s : State) : Outcome :=
  done (fireKind 0 slot station op tag (issueMmo slot op tag) s)

end Sys2Proof.Machine
end

