-- ==== Sys2Proof/Machine/Train.lean ====
section
/-! DEFINITION. The operations of a station other than the MMO and the Kiln update: Glaze programs (R188), moves (R127), the Stash
(R213-R216), forwards (R140), scalar items and tokens (R131, R132), their completion (R129), gradient accumulators (R221-R225) and
the loss collector (R229). -/

namespace Sys2Proof.Machine

/-! Glaze programs, moves and forwards. -/

/-- A Glaze program operation fires; its station's thread starts it once every earlier one has ended (R188). -/
def execGlazeProgramStart (slot station op : Nat) (tag : Word) (s : State) : Outcome :=
  done (fireKind 1 slot station op tag (fun _ _ _ _ s => startProgram slot station s) s)

/-- A move operation places its transfer on the array's engine; Program is the descriptor's index. -/
def execMoveOperation (slot station op : Nat) (tag : Word) (s : State) : Outcome :=
  done (fireKind 2 slot station op tag (fun r st o _ s =>
    match r.transfers[o.program]? with
    | some d => enqueueDesc (Station.array st.info) slot (.move station op tag) { d with source := bankHandle s slot tag d.source } none s
    | none => finishFlight slot station op tag [] s) s)

/-- The tile that carries a request into the route: pass 4, its slot, tile index 0, in the record's format and shape (R432). -/
def requestTiles (s : State) (slot station : Nat) (r : Route) (o : OpEntry) (tag : Word) : List (Nat × Tile) :=
  match portRecord r station, (serveOf s slot).requests.find? (fun q => q.line == tagMicro tag && q.phase == 1) with
  | some p, some q => (maskOutputs o).filterMap (fun j => (r.output station j).map (fun w =>
      let h := outHeader s slot station w.number tag q.payload.length ⟨field p 9 1, true, field p 10 2, field p 12 2, field p 10 2, field p 12 2, 0⟩
      (w.number, ⟨h, q.payload⟩)))
  | _, _ => []

/-- A forward operation of a Link or Port station passes its tiles on (R140); at a Port station one without inputs sends the
payload of its tag's request (R432). -/
def execForward (slot station op : Nat) (tag : Word) (s : State) : Outcome :=
  done (fireKind 7 slot station op tag (fun r st o es s =>
    if st.info.kind = 5 ∧ es.isEmpty then finishFlight slot station op tag (requestTiles s slot station r o tag) s
    else finishFlight slot station op tag (es.flatMap (fun e => passOn r station o e.header e.payload)) s) s)

/-- An answer tile whose tag completes at its Port station is staged there (R434). -/
def stageAnswer (slot station op : Nat) (tag : Word) (s : State) : State :=
  match routeOf s slot with
  | none => s
  | some r =>
    match portRecord r station, (stationOf s slot station).flight.find? (fun f => f.op == op && f.tag == tag && f.finished) with
    | some p, some f =>
      let bytes := (f.inputs.head?.map (·.payload)).getD []
      modServe slot (fun x => { x with requests := x.requests.map (fun q =>
        if q.line = tagMicro tag ∧ q.phase = 1 ∧ f.inputs ≠ [] then
          if tagIndex tag = field p 14 2 then { q with primary := some (bytes, none) }
          else if tagIndex tag = field p 16 2 then { q with fallback := some (bytes, none) } else q
        else q) }) s
    | _, _ => s

/-! Items and tokens. -/

/-- The tiles that stand for an 8-byte item on each output of an operation. -/
def eachOutput (r : Route) (n : Nat) (o : OpEntry) (f : StreamRow → Tile) : List (Nat × Tile) :=
  (maskOutputs o).filterMap (fun j => (r.output n j).map (fun w => (w.number, f w)))

/-- A scalar item: tag in [63:32], value in [31:0] (R131). -/
def execScalarEmit (slot station op : Nat) (tag : Word) (s : State) : Outcome :=
  done (fireKind 8 slot station op tag (fun r st o _ s =>
    let v := (resultFor s slot st.info.number tag).getD 0
    finishFlight slot station op tag (eachOutput r station o (fun _ => ⟨le 4 v.toNat ++ le 4 tag.toNat, []⟩)) s) s)

/-- Word 1 of a token: kind 1 steer or 2 merge, the unit and the choice; the stream's queue names the unit, merge units from 8 on. -/
def tokenWord (unit choice : Nat) : Nat := (if unit < 8 then 1 else 2) * 2 ^ 28 + unit % 8 * 2 ^ 24 + choice

/-- A token on each output; its choice is the low 8 bits of the scalar result (R131, R132). -/
def execTokenEmit (slot station op : Nat) (tag : Word) (s : State) : Outcome :=
  done (fireKind 9 slot station op tag (fun r st o _ s =>
    let v := ((resultFor s slot st.info.number tag).getD 0).toNat % 256
    finishFlight slot station op tag (eachOutput r station o (fun w => ⟨le 4 tag.toNat ++ le 4 (tokenWord w.queue v), []⟩)) s) s)

/-! The Stash. -/

/-- The stash stream record of a stream at a station (R213). -/
def stashRecord (r : Route) (station stream : Nat) : Option Bytes :=
  ((r.stash.find? (fun e => e.1 == station)).elim [] (fun e => records 24 e.2)).find? (fun b => stashStream b == stream)

/-- Sequence blocks of a sample, under a sequence cut those of its local part (R227, R362). -/
def blocksPerSample (r : Route) : Nat :=
  let block := field r.plan.pipeline 8 4
  let cut := field r.plan.cut 24 4
  let len := if r.plan.cut.isEmpty || cut = 0 then field r.plan.pipeline 4 4 else cut
  if block = 0 then 1 else max 1 (ceilDiv len block)

/-- First row of a put tile for stochastic rounding (R215). -/
def stashRow (r : Route) (b : Bytes) (t : Word) : Nat :=
  stashRowBase b + (if bit (field b 7 1) 0 then tagMicro t % blocksPerSample r * field r.plan.pipeline 8 4 else 0)

/-- The stored rows of a payload in one format, each as its values. -/
def rowsOf (f : EFmt) (rows cols : Nat) (payload : Bytes) : List (List FVal) :=
  (List.range rows).map (fun k => unpackRow f cols (padTo (rowBytes f cols) (slice payload (k * rowBytes f cols) (rowBytes f cols))))

/-- Stored runs of a tile, their elements, and whether they are its columns (R121). -/
def tileRuns (h : Bytes) : Nat × Nat × Bool :=
  if bit (hdrFormat h) 5 then (hdrCols h, hdrRows h, true) else (hdrRows h, hdrCols h, false)

/-- The converter of a Stash station: a tile narrowed into the overflow format, with the counts of R215. The elements convert as R204 lays
down for a user format, in a format of the table of codes too. -/
def narrowTile (s : State) (slot : Nat) (r : Route) (b h payload : Bytes) : Bytes × Counts :=
  let f := formatFor s slot (hdrFormat h % 32)
  let g := formatFor s slot (stashFormat b)
  let t := hdrTag h
  let (n, k, byColumn) := tileRuns h
  let row := stashRow r b t
  let res := (rowsOf f n k payload).zipIdx.map (fun e =>
    packWith g { g with mx := false } (seedOf (stepOf s slot) t.toNat (row + e.2)) 0 (roundingOf s slot (stashRounding b) t)
      (toInfinity s slot && !g.mx) (fun c => if byColumn then (row + c, e.2) else (row + e.2, c)) e.1)
  (res.flatMap (·.1), res.foldl (fun k e => addCounts k e.2) noCounts)

/-- A narrowed copy widened exactly to the format of its put tile (R215). -/
def widenTile (s : State) (slot : Nat) (b h payload : Bytes) : Bytes :=
  let f := formatFor s slot (hdrFormat h % 32)
  let g := formatFor s slot (stashFormat b)
  let (n, k, _) := tileRuns h
  (rowsOf g n k payload).zipIdx.flatMap (fun e =>
    (packRow f (seedOf (stepOf s slot) (hdrTag h).toNat e.2) ⟨false, 0, 0, 0⟩ false 0 0 e.1).1)

/-- Tiles of one micro-batch that stand in the Stash of a stream, as ranges of their cargo. -/
def stashUsed (s : State) (slot n stream micro : Nat) : List (Nat × Nat) :=
  ((slotOf s slot).train.stash.filter (fun e => e.station == n && e.stream == stream && tagMicro e.tag == micro)).map (fun e => (e.address, e.length))

/-- A stash counter of a station (R450, R451). -/
def countStash (slot n a k c : Nat) (s : State) : State :=
  if c = 0 then s else countStation slot n (16 + k) c (count (0x5260 + k) a c s)

/-- A stash put is placed by its tag alone (R214): below k on die in its own format, otherwise in the overflow cargo, narrowed. A tile that its
micro-batch's bytes do not take fails its tag. -/
def putStash (slot n op : Nat) (t : Word) (r : Route) (st : StationRec) (es : List Entry) (s : State) : State :=
  let a := Station.array st.info
  let fail (s : State) : State := failTag slot n t (leaveFlight slot n op t s)
  match es.head? with
  | none => fail s
  | some e =>
    match stashRecord r n (hdrStream e.header) with
    | none => fail s
    | some b =>
      let m := tagMicro e.tag
      let spills := decide (stashOnDie b ≤ m)
      if spills = true ∧ stashFormat b = 0xFF then fail s
      else
        let p := if spills then narrowTile s slot r b e.header e.payload else (e.payload, noCounts)
        match (stashArea s r n b m).bind (fun x => (fitTile x.2 p.1.length (stashUsed s slot n (stashStream b) m)).map (fun at0 => (x.1, at0))) with
        | none => fail s
        | some (i, at0) =>
          let c := kgetD Cargo.free s.mem.cargoes i
          if c.state ≠ 1 ∨ c.pageCount * pageBytes < at0 + p.1.length then fail (if c.state = 2 then saggarHit slot 0xFFFF s else s)
          else
            let s := writeData i at0 p.1 s
            let s := (pagesOf at0 p.1.length).foldl (fun s q => raiseGeneration i q s) s
            let s := countStash slot n a 3 p.2.sat (countStash slot n a 4 p.2.neg (countStash slot n a 5 p.2.nan s))
            finishFlight slot n op t [] (countStash slot n a (if spills then 1 else 0) 1 (modTrain slot (fun tr => { tr with
              stash := tr.stash ++ [⟨n, stashStream b, e.tag, e.header, i, at0, p.1.length, spills, none, false, hdrUses e.header⟩] }) s))

def execStashPut (slot station op : Nat) (tag : Word) (s : State) : Outcome :=
  done (fireKind 3 slot station op tag (fun r st _ es s => putStash slot station op tag r st es s) s)

/-- The stored tile of a get, widened where it overflowed (R215). -/
def stashTile (s : State) (slot : Nat) (r : Route) (station : Nat) (e : Entry) : Bytes :=
  match stashRecord r station (hdrStream e.header) with
  | some b => if stashOnDie b ≤ tagMicro e.tag then widenTile s slot b e.header e.payload else e.payload
  | none => e.payload

/-- A stash get sends the stored tile with its header restored (R215, R216). -/
def execStashGet (slot station op : Nat) (tag : Word) (s : State) : Outcome :=
  done (fireKind 4 slot station op tag (fun r _ o es s =>
    finishFlight slot station op tag (es.flatMap (fun e => passOn r station o e.header (stashTile s slot r station e))) s) s)

/-- The due beats of the gets that draw an entry: those of their own tags, which the masks of R126 give (R216). -/
def getBeats (r : Route) (e : StashEntry) : List Nat :=
  (r.station e.station).elim [] (fun st => (st.ops.filter (fun o => o.kind == 4)).flatMap (fun o =>
    (st.counters[o.counter]?).elim [] (fun c => ((List.range c.length).map c.tag).flatMap (fun t =>
      if o.inputs.any (fun i => tagMatches i t e.tag && (r.feeds e.station i.queue).elim true (fun f => f.number == e.stream)) then
        dueBeats r e.station t
      else []))))

/-- The copy of the stream's refill region that an entry takes: that of its micro-batch, or the first that is free (R216). -/
def refillCopy (s : State) (slot : Nat) (b : Bytes) (base : Nat) (e : StashEntry) : Option Nat :=
  let taken := (slotOf s slot).train.stash.filterMap (fun x =>
    if x.station = e.station ∧ x.stream = e.stream then x.refill.map (fun a => ((a - base) / max 1 (stashNarrowed b), tagMicro x.tag)) else none)
  match taken.find? (fun x => x.2 == tagMicro e.tag) with
  | some x => some x.1
  | none => (List.range (stashLead b + 1)).find? (fun k => !taken.any (fun x => x.1 == k))

/-- The T1 read of an overflow entry into the refill region of its stream. -/
def startStashRead (slot : Nat) (r : Route) (b : Bytes) (e : StashEntry) (s : State) : State :=
  let a := r.arrayOf e.station
  match ((refillPlaces s slot r a).getD []).find? (fun x => x.1 == (e.station, e.stream)) with
  | none => s
  | some (_, base) =>
    match refillCopy s slot b base e with
    | none => s
    | some k =>
      if queueRoom s a = false then s
      else
        let at0 := base + k * stashNarrowed b + (e.address - (tagMicro e.tag - stashOnDie b) * roundUp (stashNarrowed b) pageBytes)
        let d : Descriptor := ⟨0, 0, 1, e.length, stashCargo b, noHandle, e.address, at0, 0, 0, e.tag.toNat, 0xFFFF, 0, 0, 0, 0⟩
        enqueue a slot (.stash e.station e.stream e.tag) d none ((requestsOf (sizeFor s d) d).map (fun q => { q with pad := 0 }))
          (modTrain slot (fun tr => { tr with stash := tr.stash.map (fun x => if x == e then { x with refill := some at0 } else x) }) s)

/-- At cycle 0 of the beat that lies Lead beats before a get's due beat, the station starts the T1 read of the overflow entry (R216); where
no get of it is due, or no copy of the refill region was free, at the next cycle 0. -/
def stashReads (slot : Nat) (s : State) : State :=
  match routeOf s slot with
  | none => s
  | some r =>
    let off := (slotOf s slot).beat.offset
    (slotOf s slot).train.stash.foldl (fun s e =>
      match stashRecord r e.station e.stream with
      | none => s
      | some b =>
        let ds := getBeats r e
        if e.overflow && e.refill.isNone && (ds.isEmpty || ds.any (fun d => d - stashLead b ≤ off)) then startStashRead slot r b e s else s) s

/-! Gradient accumulators. -/

def putGa (slot : Nat) (g : GaRec) (f : GaState → GaState) : State → State :=
  modTrain slot (fun t => { t with gas := kput t.gas (gaNumber g) (f (kgetD ⟨[], false⟩ t.gas (gaNumber g))) })

/-- A contribution is admitted, and counted. -/
def admitGa (slot : Nat) (g : GaRec) (c : Nat × Nat) (s : State) : State :=
  count 0x5258 (gaArray g) 1 (putGa slot g (fun x => { x with admitted := x.admitted ++ [c] }) s)

/-- A contribution is discarded: it is counted, noted, and its producer's tag fails (R225). -/
def excessGa (slot : Nat) (g : GaRec) (station : Nat) (t : Word) (s : State) : State :=
  failTag slot station t (event evtGaExcess (atSlotInst slot (gaArray g)) (le 2 (gaNumber g)) (count 0x525A (gaArray g) 1 s))

/-- The drain of a GA whose contributions have all been admitted, once its stream has credit (R224). -/
def drainGa (slot : Nat) (r : Route) (g : GaRec) (s : State) : State :=
  let x := gaState s slot g
  match r.output (gaOwner g) (gaOutput g) with
  | none => s
  | some o =>
    if x.drained = true ∨ x.admitted.length < gaCount g ∨ creditsLeft s slot r o = 0 ∨ (streamOf s slot o.number).stopped = true then s
    else
      let a := gaArray g
      let f : EFmt := ⟨bf16, false, 16, 0, false⟩
      let res := (List.range (gaRows g)).map (fun row =>
        packRow f 0 (roundingOf s slot (gaRounding g) (gaRelease g)) (toInfinity s slot) (gaRowOffset g + row) (gaColOffset g)
          ((List.range (gaCols g)).map (fun c => let e := gaPlace g row c; f32 (acmGet (arrayOf s a) slot e.1 e.2))))
      let sat := sumNat (res.map (fun e => e.2.sat))
      let payload := res.flatMap (·.1)
      let h := outHeader s slot (gaOwner g) o.number (gaRelease g) payload.length ⟨1, false, gaRows g, gaCols g, gaRows g, gaCols g, 0⟩
      let s := stageTile slot o.number ⟨h, payload⟩ (if sat = 0 then s else count 0x522C a sat s)
      let s := modArray a (fun y => { y with
        owners := y.owners.filter (fun w => !(slot * 128 + gaBase g ≤ w.1 && w.1 < slot * 128 + gaBase g + gaBlocks g)) }) s
      reported slot s (count 0x5259 a 1 (putGa slot g (fun y => { y with drained := true }) s))

/-- An accumulate-in tile is added to the GA's blocks, with one rounding for each add; the first contribution writes them (R222). A NaN
written to them counts (R147). -/
def addTile (slot : Nat) (g : GaRec) (e : Entry) (bytes : Bytes) (s : State) : State :=
  let a := gaArray g
  let flush := routeSetting s slot 0x3101 == 1
  let x := arrayOf s a
  let words := (rowsOf ⟨bf16, false, 16, 0, false⟩ (gaRows g) (hdrCols e.header) bytes).zipIdx.flatMap (fun row =>
    (row.1.take (gaCols g)).zipIdx.map (fun v =>
      let p := gaPlace g row.2 v.2
      (p, (accumulate false flush (kget x.acm (acmKey slot p.1 p.2)) (toF32 v.1)).1)))
  let nans := sumNat (words.map (fun w => if isNan32 w.2 then 1 else 0))
  let x := words.foldl (fun x w => acmPut slot w.1.1 w.1.2 w.2 x) x
  let s := setArray a { x with owners := (List.range (gaBlocks g)).foldl (fun m b => kput m (slot * 128 + gaBase g + b) 0) x.owners } s
  if nans = 0 then s else count 0x522D a nans s

/-- The accumulate-in tile of a contribution: it waits in a join buffer of the owner station (R222). -/
def gaTile (s : State) (slot : Nat) (r : Route) (g : GaRec) (source micro : Nat) : Option (Nat × Nat × Entry) :=
  (r.station (gaOwner g)).bind (fun st =>
    ((st.queues.filter (fun q => q.kind == 1)).findSome? (fun q =>
      (firstIndex (fun e => !e.spilled && tagPass e.tag == 1 && tagMicro e.tag == micro && field e.header 22 2 == gaSource g source)
        (kgetD [] (stationOf s slot (gaOwner g)).queues q.queue)).bind (fun k =>
          ((kgetD [] (stationOf s slot (gaOwner g)).queues q.queue)[k]?).map (fun e => (q.queue, k, e))))))

/-- A gradient accumulator admits the contribution of a source for a micro-batch that waits in its join buffer, in its order under
deterministic mode (R223), and drains once it has all of them (R224). -/
def execGaAdmit (slot ga source microBatch : Nat) (s : State) : Outcome :=
  done (match routeOf s slot with
    | none => s
    | some r =>
      match r.gas.find? (fun g => gaNumber g == ga) with
      | none => s
      | some g =>
        let c := (microBatch, source)
        match gaTile s slot r g source microBatch, r.station (gaOwner g) with
        | some (q, k, e), some st =>
          if routeFires s slot = false ∨ isNext s slot g c = false then s
          else
            let bytes := entryBytes s (Station.array st.info) e
            let s' := spend slot r st (.entry q k) s
            if gaExcess s slot g c then excessGa slot g (gaSource g source) e.tag s'
            else drainGa slot r g (admitGa slot g c (addTile slot g e bytes s'))
        | _, _ => drainGa slot r g s)

/-- An operation completes (R129). An MMO into a GA counts as a contribution then (R222). -/
def execOperationComplete (slot station op : Nat) (tag : Word) (s : State) : Outcome :=
  let ended := (stationOf s slot station).flight.any (fun f => f.op == op && f.tag == tag && f.finished)
  let ga := (routeOf s slot).bind (fun r => (r.station station).bind (fun st => (st.ops[op]?).bind (fun o =>
    if o.kind = 0 then (gaFor r st.info.place (mmoDesc r o)).map (fun g => (r, g)) else none)))
  done (match ended, ga with
    | true, some (r, g) =>
      let c := (tagMicro tag, sourceOf g station)
      if gaExcess s slot g c then completeOp slot station op tag (excessGa slot g station tag s)
      else drainGa slot r g (admitGa slot g c (completeOp slot station op tag s))
    | true, none => completeOp slot station op tag (stageAnswer slot station op tag s)
    | false, _ => s)

/-! The loss collector (R229). -/

/-- Loss items of a route per step (R210). -/
def lossCount (r : Route) : Nat := field r.plan.pipeline 20 2

/-- Items in the order of their sum: ascending micro-batch, then loss stream. -/
def insertLoss (x : Nat × Nat × Word) : List (Nat × Nat × Word) → List (Nat × Nat × Word)
  | [] => [x]
  | y :: r => if x.1 < y.1 ∨ (x.1 = y.1 ∧ x.2.1 < y.2.1) then x :: y :: r else y :: insertLoss x r

/-- A loss item that has come to the end of its stream reaches the collector; the last one forms the step loss in FP64, evaluated at the
close of its beat. One beyond the loss items per step is discarded. -/
def execLossItem (slot array stream : Nat) (s : State) : Outcome :=
  done (match (routeOf s slot).bind (fun r => (r.stream stream).map (fun o => (r, o))) with
    | none => s
    | some (r, o) =>
      match arrivedAt s slot r o 0 0 with
      | [] => s
      | w :: _ =>
        if (lossStreams r).contains stream = false ∨ (r.endOf o).1 ≠ array then s
        else
          let s := addCredit slot stream 1 (dropArrived slot r o 0 0 1 s)
          let t := (slotOf s slot).train
          if lossCount r ≤ t.lossItems.length ∨ t.state ≠ 1 then s
          else
            let item := BitVec.ofNat 64 (leNat w)
            let items := insertLoss (tagMicro (itemTag item), stream, itemValue item) t.lossItems
            let sum := items.foldl (fun x e => add64 x (widen64 e.2.2)) 0
            modTrain slot (fun t => { t with
              lossItems := items
              stepLoss := if items.length = lossCount r then some (BitVec.ofNat 64 sum) else t.stepLoss
              lossPending := t.lossPending || decide (items.length = lossCount r) }) s)

end Sys2Proof.Machine
end

