-- ==== Sys2Proof/Machine/Update.lean ====
section
/-! DEFINITION. Parameter update: groups and curves (R245, R248), the coefficient block (R249), the Kilns (R238-R258) and what a
Kiln's writes do to write generations (R241, R305). -/

namespace Sys2Proof.Machine

/-! Update records and parameter groups. -/

def updGroup (b : Bytes) : Nat := field b 0 2 % 4096
def updRowMajor (b : Bytes) : Bool := bit (field b 3 1) 0
def updMaster (b : Bytes) : Nat := field b 4 4
def updFirst (b : Bytes) : Nat := field b 8 4
def updSecond (b : Bytes) : Nat := field b 12 4
def updWorking (b : Bytes) : Nat := field b 16 4
def updStateOffset (b : Bytes) : Nat := field b 20 4
def updWorkOffset (b : Bytes) : Nat := field b 24 4
def updWorkStride (b : Bytes) : Nat := field b 28 4
def updPerRow (b : Bytes) : Nat := field b 32 2
def updRows (b : Bytes) : Nat := field b 34 2
def updCols (b : Bytes) : Nat := field b 36 2

/-- Record g of the parameter group table (R245). -/
def groupRec (table : Bytes) (g : Nat) : Bytes := padTo 64 (slice table (64 * g) 64)
def grpRule (b : Bytes) : Nat := field b 0 1
def grpDefined (b : Bytes) : Bool := bit (field b 1 1) 0
def grpFrozen (b : Bytes) : Bool := bit (field b 1 1) 1
def grpClip (b : Bytes) : Bool := bit (field b 1 1) 2
def grpMasterBf16 (b : Bytes) : Bool := bit (field b 1 1) 3
def grpMomentsBf16 (b : Bytes) : Bool := bit (field b 1 1) 4
def grpWorking (b : Bytes) : Nat := field b 2 1
def grpRounding (b : Bytes) : Nat := field b 3 1
def grpF32 (b : Bytes) (o : Nat) : Word := BitVec.ofNat 32 (field b o 4)

/-- Base rule of a code: the clipped rules follow theirs (R251). -/
def baseRule (rule : Nat) : Nat := if 4 ≤ rule ∧ rule ≤ 7 then rule - 4 else rule
def clippedRule (rule : Nat) : Bool := decide (4 ≤ rule ∧ rule ≤ 7)

/-- Moments that a step of a rule reads and writes (R251, R252). -/
def momentsOf (rule kind : Nat) (beta1 : Word) : Nat :=
  if kind = 2 then 0
  else match baseRule rule with
    | 1 => 2
    | 2 => 2
    | 9 => if flt (fnat 0) (f32 beta1) then 1 else 0
    | _ => 1

/-- Curve c of the curve tables: its points as (step, value) (R248). -/
def curvePoints (table : Bytes) (c : Nat) : List (Nat × Word) :=
  let b := slice table (12304 * c) 12304
  (List.range (field b 0 2)).map (fun k => (field b (16 + 12 * k) 8, BitVec.ofNat 32 (field b (24 + 12 * k) 4)))

/-- A curve at a step, in binary64 (R248). -/
def curveAt (table : Bytes) (c step : Nat) : Nat :=
  let one := toF64 (fnat 1)
  if c = 0xFFFF then one
  else match curvePoints table c with
    | [] => one
    | ps =>
      let first := ps.headD (0, 0)
      let last := ps.getLastD (0, 0)
      if step ≤ first.1 then widen64 first.2
      else if last.1 ≤ step then widen64 last.2
      else
        let k := (ps.filter (fun p => p.1 ≤ step)).length - 1
        let p := ps.getD k (0, 0)
        let q := ps.getD (k + 1) (0, 0)
        let f := div64 (toF64 (fnat (step - p.1))) (toF64 (fnat (q.1 - p.1)))
        add64 (widen64 p.2) (mul64 (sub64 (widen64 q.2) (widen64 p.2)) f)

/-- A power of a finite value, correctly rounded to binary64 (assumption log 15). -/
def powF64 (x : Word) (n : Nat) : Nat :=
  match f32 x with
  | .fin s m e => toF64 (.fin (s && n % 2 == 1) (m ^ n) (e * n))
  | v => toF64 v

/-- One coefficient record: lr, wd, b1, omb1, b2, omb2, ibc1, ibc2, eps, cval, scale, clip, each an FP32 value (R249). -/
def coefficientRecord (g : Bytes) (curves : Bytes) (updates step : Nat) (norm gmax : Word) : Bytes :=
  let one := toF64 (fnat 1)
  let w (o : Nat) := widen64 (grpF32 g o)
  let t := updates + 1
  let adam := baseRule (grpRule g) == 1 || baseRule (grpRule g) == 2
  let clip := if grpClip g && flt (fnat 0) (f32 gmax) && flt (fnat 0) (f32 norm) then
      let q := div64 (widen64 gmax) (widen64 norm)
      if flt (f64 q) (fnat 1) then q else one
    else one
  let fs := [mul64 (w 8) (curveAt curves (field g 4 2) step), mul64 (w 24) (curveAt curves (field g 6 2) step),
    w 12, sub64 one (w 12), w 16, sub64 one (w 16),
    if adam then div64 one (sub64 one (powF64 (grpF32 g 12) t)) else one,
    if adam then div64 one (sub64 one (powF64 (grpF32 g 16) t)) else one,
    w 20, w 28, w 32, clip]
  fs.flatMap (fun x => le 4 (narrow32 x).toNat)

/-- The groups that a route's update records name, ascending. -/
def routeGroups (r : Route) : List Nat := (r.updates.map updGroup).foldl (fun l x => if l.contains x then l else insertNat x l) []

/-- The coefficient block of a slot, computed at the close at which the global norm is evaluated (R249). -/
def formCoefficients (slot : Nat) (norm : Word) (s : State) : State :=
  match routeOf s slot with
  | none => s
  | some r =>
    let gmax := BitVec.ofNat 32 (routeSetting s slot 0x2403)
    let recs := (routeGroups r).map (fun g => coefficientRecord (groupRec (routeValue s slot 0x6400) g) (routeValue s slot 0x6401)
      (kgetD ⟨0, 0⟩ s.kilns.groups g).updates (stepOf s slot) norm gmax)
    let clip := if flt (fnat 0) (f32 gmax) && flt (fnat 0) (f32 norm) then
        let q := div64 (widen64 gmax) (widen64 norm)
        narrow32 (if flt (f64 q) (fnat 1) then q else toF64 (fnat 1)) else toF32 (fnat 1)
    modTrain slot (fun t => { t with coefficients := recs.flatten, coefficientsReady := false, lastNorm := norm, lastClip := clip }) s

/-- A coefficient record taken apart. -/
structure Coeff where
  lr : Word
  wd : Word
  b1 : Word
  omb1 : Word
  b2 : Word
  omb2 : Word
  ibc1 : Word
  ibc2 : Word
  eps : Word
  cval : Word
  scale : Word
  clip : Word

/-- The coefficients of a group of a slot's block. -/
def coeffOf (s : State) (slot : Nat) (r : Route) (g : Nat) : Coeff :=
  let k := (firstIndex (· == g) (routeGroups r)).getD 0
  let b := slice (slotOf s slot).train.coefficients (48 * k) 48
  let w (i : Nat) : Word := BitVec.ofNat 32 (field b (4 * i) 4)
  ⟨w 0, w 1, w 2, w 3, w 4, w 5, w 6, w 7, w 8, w 9, w 10, w 11⟩

/-! The element procedure (R252). -/

/-- The sign of an FP32 value; sign(0) is 0. -/
def sign32 (x : Word) : Word :=
  if isNan32 x then nan32 else if fisZero (f32 x) then 0 else if isNeg32 x then 0xBF800000#32 else one32

/-- What one element becomes: p, m, v and the emitted value. -/
structure KilnElement where
  p : Word
  m : Word
  v : Word
  emit : Word

def kilnElement (rule kind : Nat) (k : Coeff) (g p m v : Word) : KilnElement :=
  let g := if kind = 2 then g else mul32 g k.clip
  let g := if kind ≠ 2 ∧ clippedRule rule then min32 (max32 g (k.cval ^^^ 0x80000000#32)) k.cval else g
  let moment := add32 (mul32 k.b1 m) (mul32 k.omb1 g)
  match baseRule rule, kind with
  | 0, _ =>
    let g := add32 g (mul32 k.wd p)
    let m := add32 (mul32 k.b1 m) g
    ⟨sub32 p (mul32 k.lr m), m, v, 0⟩
  | 1, _ =>
    let g := add32 g (mul32 k.wd p)
    let m := add32 (mul32 k.b1 m) (mul32 k.omb1 g)
    let v := add32 (mul32 k.b2 v) (mul32 k.omb2 (mul32 g g))
    ⟨sub32 p (mul32 k.lr (div32 (mul32 m k.ibc1) (add32 (sqrt32 (mul32 v k.ibc2)) k.eps))), m, v, 0⟩
  | 2, _ =>
    let v := add32 (mul32 k.b2 v) (mul32 k.omb2 (mul32 g g))
    let d := div32 (mul32 moment k.ibc1) (add32 (sqrt32 (mul32 v k.ibc2)) k.eps)
    ⟨sub32 p (mul32 k.lr (add32 d (mul32 k.wd p))), moment, v, 0⟩
  | 3, _ =>
    ⟨sub32 p (mul32 k.lr (add32 (sign32 moment) (mul32 k.wd p))), add32 (mul32 k.b2 m) (mul32 k.omb2 g), v, 0⟩
  | _, 2 => ⟨sub32 p (mul32 k.lr (add32 (mul32 k.scale g) (mul32 k.wd p))), m, v, 0⟩
  | 8, _ => let m := add32 (mul32 k.b1 m) g; ⟨p, m, v, m⟩
  | _, _ => if flt (fnat 0) (f32 k.b1) then ⟨p, moment, v, moment⟩ else ⟨p, m, v, g⟩

/-! Where a tile's state lies (R243). -/

def fp32Fmt : EFmt := ⟨fp32, false, 32, 0, false⟩
def bf16Fmt : EFmt := ⟨bf16, false, 16, 0, false⟩

/-- Byte of an element offset in a cargo of a format (R171, R243). -/
def elementByte (f : EFmt) (e : Nat) : Nat := e * bytes32 f / 32

/-- Element offset of row r of tile t in the state cargoes, and in a tile-major working copy. -/
def stateElement (b : Bytes) (t r : Nat) : Nat := updStateOffset b + t * (updRows b * updCols b) + r * updCols b
def workElement (b : Bytes) (t r : Nat) : Nat := updWorkOffset b + t * (updRows b * updCols b) + r * updCols b

/-- Where row r of tile t lies in a cargo of an update, `q` telling which one: the byte of its elements and that of its block scales. A row of
a row-major working copy is a part of a stored row of the working stride (R243, R518). -/
def rowPlace (b : Bytes) (f : EFmt) (q t r : Nat) : Nat × Nat :=
  if q = 3 ∧ updRowMajor b = true then
    let start := elementByte f (updWorkOffset b + (t / updPerRow b * updRows b + r) * updWorkStride b)
    let e := t % updPerRow b * updCols b
    (start + e * f.width / 8, start + ceilDiv (updWorkStride b * f.width) 32 * 4 + (if f.block = 0 then 0 else e / f.block))
  else
    let at0 := elementByte f (if q = 3 then workElement b t r else stateElement b t r)
    (at0, at0 + ceilDiv (updCols b * f.width) 32 * 4)

/-- The cargoes that an update writes: (handle, format, q of R253, working copy). -/
def writtenCargoes (s : State) (slot : Nat) (b : Bytes) : List (Nat × EFmt × Nat) :=
  let g := groupRec (routeValue s slot 0x6400) (updGroup b)
  let n := momentsOf (grpRule g) (updKind b) (grpF32 g 12)
  let mf := if grpMomentsBf16 g then bf16Fmt else fp32Fmt
  (if updKind b = 1 then [] else [(updMaster b, if grpMasterBf16 g then bf16Fmt else fp32Fmt, 0)]) ++
  (if 1 ≤ n then [(updFirst b, mf, 1)] else []) ++
  (if 2 ≤ n then [(updSecond b, mf, 2)] else []) ++
  (if updKind b = 1 ∨ grpWorking g = 0xFF then [] else [(updWorking b, formatFor s slot (grpWorking g), 3)])

/-- Pages, as (record, page), that the update of a whole tile writes; none for a frozen group (R255). -/
def updatePages (s : State) (slot : Nat) (b : Bytes) (t : Nat) : List (Nat × Nat) :=
  if grpFrozen (groupRec (routeValue s slot 0x6400) (updGroup b)) then []
  else ((writtenCargoes s slot b).flatMap (fun e => (List.range (updRows b)).flatMap (fun r =>
    let at0 := rowPlace b e.2.1 e.2.2 t r
    (pagesOf at0.1 (ceilDiv (updCols b * e.2.1.width) 8) ++ (if e.2.1.block = 0 then [] else pagesOf at0.2 (ceilDiv (updCols b) e.2.1.block))).map
      (fun p => (e.1 % 65536, p))))).eraseDups

/-- Tile indexes that an update operation has still to update in this attempt: not those that it has updated, and none whose tag a run-time
bound skips, has failed or is complete. -/
def tilesLeft (s : State) (slot : Nat) (st : StationRec) (op : Nat) : List Nat :=
  let x := stationOf s slot st.info.number
  let done := kgetD [] (slotOf s slot).train.updated (st.info.number * 64 + op)
  match (st.ops[op]?).bind (fun o => st.counters[o.counter]?) with
  | none => []
  | some c => (((List.range c.length).map c.tag).filter (fun t =>
      !done.contains (tagIndex t) && !x.skipped.contains (op, t) && !x.failed.contains t && !x.completed.contains (op, t))).map tagIndex

/-- The update operations of a route: station, operation, record. -/
def updateOps (r : Route) : List (StationRec × Nat × Bytes) :=
  r.stations.flatMap (fun st => st.ops.zipIdx.filterMap (fun o =>
    if o.1.kind = 5 then (r.updates[o.1.program]?).map (fun b => (st, o.2, b)) else none))

/-- A Kiln has written pages: each is open until the last write of the step into it, and then its generation rises (R241, R305). -/
def kilnPages (slot : Nat) (r : Route) (pages : List (Nat × Nat)) (s : State) : State :=
  let left := (updateOps r).flatMap (fun e => (tilesLeft s slot e.1 e.2.1).flatMap (updatePages s slot e.2.2))
  pages.foldl (fun s p =>
    if left.contains p then { s with mem := { s.mem with openPages := if s.mem.openPages.contains p then s.mem.openPages else s.mem.openPages ++ [p] } }
    else raiseGeneration p.1 p.2 { s with mem := { s.mem with openPages := s.mem.openPages.filter (· != p) } }) s

/-! A Kiln's firing. -/

/-- Counter base and instance of a Kiln, and its key (R450). -/
def kilnCounter (place : Nat) : Nat × Nat := if place < 512 then (0x5400, place - 256) else (0x5410, place - 512)

/-- Update firings at a Kiln that have not completed: the arrival of their tile, slot, station and flight entry. -/
def kilnFlights (s : State) (place : Nat) : List (Nat × Nat × Nat × Flight) :=
  (residents s).flatMap (fun e => (e.2.stations.filter (fun st => st.info.kind == 3 && st.info.place == place)).flatMap (fun st =>
    ((stationOf s e.1 st.info.number).flight.filter (fun f => (st.ops[f.op]?).any (fun o => o.kind == 5))).map (fun f =>
      ((f.inputs.head?).elim 0 (·.arrived), e.1, st.info.number, f))))

/-- The coefficient block of a slot is in force on the Kilns (R249). -/
def blockInForce (s : State) (slot : Nat) : Bool := (slotOf s slot).train.coefficientsReady && (slotOf s slot).train.uPhase != 0

/-- State of a Kiln (R261): 0 idle, 1 updating, 2 waiting for coefficients, 3 failed. -/
def kilnState (s : State) (place : Nat) : Nat :=
  if kilnFailed s place then 3
  else if (kilnFlights s place).any (fun e => e.2.2.2.finished) then 1
  else if (kilnFlights s place).any (fun e => !blockInForce s e.2.1) then 2
  else 0

/-- Values of one row of a tile in a cargo. -/
def stateRow (s : State) (handle : Nat) (f : EFmt) (e n : Nat) : List Word :=
  (unpackRow f n (padTo (rowBytes f n) (cargoBytes s (handle % 65536) (elementByte f e) (ceilDiv (n * f.width) 8)))).map toF32

/-- The rounding of a state or working cargo (R253). -/
def kilnRounding (s : State) (slot : Nat) (stochastic : Bool) (t : Word) (q : Nat) : RndCtx :=
  ⟨stochastic, routeSetting s slot 0x2104, stepOf s slot, (t ^^^ BitVec.ofNat 32 (q * 2 ^ 28)).toNat⟩

/-- The bytes of one row as they are written: only valid elements, with the scales of their blocks (R244, R253). -/
def kilnRow (s : State) (slot : Nat) (g : Bytes) (t : Word) (handle : Nat) (f : EFmt) (q : Nat) (at0 : Nat × Nat) (row col : Nat) (vs : List Word) :
    List (Nat × Bytes) × Counts :=
  let stochastic := if q = 3 then (roundingOf s slot (grpRounding g) t).stochastic else f.width == 16
  let c := kilnRounding s slot stochastic t q
  let p := packRow f (seedOf (stepOf s slot) c.tag row) c (toInfinity s slot) row col (vs.map f32)
  let n := vs.length
  let whole := n * f.width / 8
  let rest := n * f.width % 8
  let first := p.1.take whole
  let last := if rest = 0 then [] else
    let old := (cargoBytes s (handle % 65536) (at0.1 + whole) 1).headD 0
    [BitVec.ofNat 8 (old.toNat / 2 ^ rest * 2 ^ rest + (p.1.getD whole 0).toNat % 2 ^ rest)]
  let scales := if f.block = 0 then [] else
    [(at0.2, p.1.drop (ceilDiv (n * f.width) 32 * 4))]
  ((at0.1, first ++ last) :: scales, p.2)

/-- The tile of a pre-step (R254). -/
def preStepTile (s : State) (slot n : Nat) (t : Word) (stream : Nat) (b h : Bytes) (rows : List (List Word)) : Tile :=
  let vr := hdrValidRows h
  let vc := hdrValidCols h
  let row (k : Nat) : List FVal := (List.range (updCols b)).map (fun c => if k < vr ∧ c < vc then f32 ((rows.getD k []).getD c 0) else .fin false 0 0)
  let payload := (List.range (updRows b)).flatMap (fun k => (packRow bf16Fmt 0 ⟨false, 0, 0, 0⟩ (toInfinity s slot) 0 0 (row k)).1)
  let pad := if vr < updRows b ∨ vc < updCols b then 64 else 0
  ⟨outHeader s slot n stream t payload.length ⟨1 + pad, false, updRows b, updCols b, vr, vc, 0⟩, payload⟩

/-- A tile is updated: state read, the rule applied to every valid element, results written back (R252, R253), and the pages'
generations kept (R305). -/
def updateTile (slot n op : Nat) (t : Word) (r : Route) (st : StationRec) (b h payload : Bytes) (s : State) : State :=
  let g := groupRec (routeValue s slot 0x6400) (updGroup b)
  let (base, inst) := kilnCounter st.info.place
  let k := coeffOf s slot r (updGroup b)
  let rule := grpRule g
  let kind := updKind b
  let vr := min (hdrValidRows h) (updRows b)
  let vc := min (hdrValidCols h) (updCols b)
  let tile := tagIndex t
  let moments := momentsOf rule kind (grpF32 g 12)
  let mf := if grpMomentsBf16 g then bf16Fmt else fp32Fmt
  let gs := rowsOf (formatFor s slot (hdrFormat h % 32)) vr (updCols b) payload
  let zero := List.replicate vc (0 : Word)
  let res := (List.range vr).map (fun row =>
    let e := stateElement b tile row
    let ps := if kind = 1 then zero else stateRow s (updMaster b) (if grpMasterBf16 g then bf16Fmt else fp32Fmt) e vc
    let ms := if 1 ≤ moments then stateRow s (updFirst b) mf e vc else zero
    let vs := if 2 ≤ moments then stateRow s (updSecond b) mf e vc else zero
    (List.range vc).map (fun c => kilnElement rule kind k (toF32 ((gs.getD row []).getD c (.nan false))) (ps.getD c 0) (ms.getD c 0) (vs.getD c 0)))
  let cargoes := writtenCargoes s slot b
  let writes := cargoes.flatMap (fun c => res.zipIdx.map (fun row =>
    let vs := row.1.map (fun x => match c.2.2 with | 1 => x.m | 2 => x.v | _ => x.p)
    (c.1, kilnRow s slot g t c.1 c.2.1 c.2.2 (rowPlace b c.2.1 c.2.2 tile row.2) (tile / updPerRow b * updRows b + row.2) (tile % updPerRow b * updCols b) vs)))
  let nan (w : Word) := if isNan32 w then 1 else 0
  let nans := sumNat (res.map (fun row => sumNat (row.map (fun x =>
    (if kind ≠ 1 then nan x.p else if 1 ≤ moments then 0 else nan x.emit) + (if 1 ≤ moments then nan x.m else 0) + (if 2 ≤ moments then nan x.v else 0)))))
  let sat := sumNat (writes.map (fun w => w.2.2.sat))
  let s := writes.foldl (fun s w => w.2.1.foldl (fun s e => writeData (w.1 % 65536) e.1 e.2 s) s) s
  let s := count (base + 6) inst 1 (count (base + 7) inst (vr * vc) s)
  let s := if nans = 0 then s else count (base + 11) inst nans s
  let s := if sat = 0 then s else count (base + 12) inst sat s
  let s := modTrain slot (fun tr => { tr with updated := kput tr.updated (n * 64 + op) (kgetD [] tr.updated (n * 64 + op) ++ [tile]) }) s
  let s := kilnPages slot r (updatePages s slot b tile) s
  let out := if kind = 1 then (match r.output n (updOutput b) with
    | some o => [(o.number, preStepTile s slot n t o.number b h (res.map (fun row => row.map (·.emit))))]
    | none => []) else []
  finishFlight slot n op t out s

/-- The tag of a Kiln's firing fails (R175). -/
def failKiln (slot n op : Nat) (t : Word) (s : State) : State :=
  failTag slot n t (leaveFlight slot n op t s)

/-- The groups that a firing of the step has named (R247). -/
def nameGroup (slot g : Nat) : State → State :=
  modTrain slot (fun tr => { tr with groups := if tr.groups.contains g then tr.groups else tr.groups ++ [g] })

/-- A tile of a frozen group is read and discarded; a pre-step emits a tile of zeros (R255). -/
def frozenTile (slot n op : Nat) (t : Word) (r : Route) (st : StationRec) (b h : Bytes) (s : State) : State :=
  let (base, inst) := kilnCounter st.info.place
  if updKind b = 1 then
    finishFlight slot n op t ((r.output n (updOutput b)).elim [] (fun o => [(o.number, preStepTile s slot n t o.number b h [])])) s
  else finishFlight slot n op t [] (count (base + 8) inst 1 s)

/-- The tile of a firing is updated: frozen groups (R255), tiles updated already (R257), BROKEN cargoes (R268), then the update. -/
def runKiln (slot n op : Nat) (t : Word) (s : State) : State :=
  match routeOf s slot, (stationOf s slot n).flight.find? (fun f => f.op == op && f.tag == t && !f.finished) with
  | some r, some f =>
    match r.station n, (r.station n).bind (fun st => (st.ops[op]?).bind (fun o => r.updates[o.program]?)), f.inputs.head? with
    | some st, some b, some e =>
      let (base, inst) := kilnCounter st.info.place
      let s := nameGroup slot (updGroup b) s
      if grpFrozen (groupRec (routeValue s slot 0x6400) (updGroup b)) then frozenTile slot n op t r st b e.header s
      else if (kgetD [] (slotOf s slot).train.updated (n * 64 + op)).contains (tagIndex t) then failKiln slot n op t (count (base + 9) inst 1 s)
      else if (writtenCargoes s slot b).any (fun c => (cargoAt s c.1).2.state == 2) then failKiln slot n op t (saggarHit slot 0xFFFF s)
      else updateTile slot n op t r st b e.header e.payload s
    | _, _, _ => s
  | _, _ => s

/-- A tile whose shape or format is not the record's is discarded as it fires (R244). -/
def checkTile (slot n op : Nat) (t : Word) (s : State) : State :=
  match (routeOf s slot).bind (fun r => (r.station n).bind (fun st => ((st.ops[op]?).bind (fun o => r.updates[o.program]?)).map (fun b => (st, b)))),
      (stationOf s slot n).flight.find? (fun f => f.op == op && f.tag == t && !f.finished) with
  | some (st, b), some f =>
    let h := (f.inputs.head?).elim [] (·.header)
    if hdrRows h ≠ updRows b ∨ hdrCols h ≠ updCols b ∨ 1 < hdrFormat h % 32 then
      let (base, inst) := kilnCounter st.info.place
      failKiln slot n op t (count (base + 10) inst 1 s)
    else s
  | _, _ => s

/-- Flights in order of arrival of their tiles. -/
def insertArrival (x : Nat × Nat × Nat × Flight) : List (Nat × Nat × Nat × Flight) → List (Nat × Nat × Nat × Flight)
  | [] => [x]
  | y :: r => if x.1 < y.1 then x :: y :: r else y :: insertArrival x r

/-- A Kiln takes its tiles in order of arrival (R256): it begins none of a slot that does not hold its proxy array, and waits at one whose
coefficient block has not arrived (R249). -/
def kilnWork (place : Nat) (s : State) : State :=
  (((kilnFlights s place).filter (fun e => !e.2.2.2.finished)).foldl (fun l e => insertArrival e l) []).foldl (fun (a : State × Bool) e =>
    let s := a.1
    let (_, slot, n, f) := e
    if a.2 = false ∨ (routeOf s slot).any (fun r => holds s (r.arrayOf n) slot) = false then a
    else if blockInForce s slot = false then (s, false)
    else (runKiln slot n f.op f.tag s, true)) (s, !kilnFailed s place) |>.1

/-- The places of the Kilns of a route. -/
def kilnPlaces (r : Route) : List Nat := ((r.stations.filter (·.info.kind == 3)).map (·.info.place)).eraseDups

def execKilnUpdate (slot station op : Nat) (tag : Word) (s : State) : Outcome :=
  done (fireKind 5 slot station op tag (fun _ st _ _ s => kilnWork st.info.place (checkTile slot station op tag s)) s)

/-- The Kilns of a route go on with the firings that waited. -/
def resumeKilns (slot : Nat) (s : State) : State :=
  match routeOf s slot with
  | none => s
  | some r => (kilnPlaces r).foldl (fun s k => kilnWork k s) s

/-- Steward core 6 has completed the block (R249). -/
def execCoefficientBlockDone (slot : Nat) (s : State) : Outcome :=
  let t := (slotOf s slot).train
  done (if t.norm.isSome ∧ t.normPending = false ∧ t.coefficientsReady = false then
    resumeKilns slot (modTrain slot (fun t => { t with coefficientsReady := true }) s)
  else s)

/-- At a void and at a commit the pages that Kilns of the route hold open have had their last write of the attempt (R258, R305). -/
def closeKilnPages (slot : Nat) (s : State) : State :=
  match routeOf s slot with
  | none => s
  | some r =>
    let hs := r.updates.flatMap (fun b => [updMaster b, updFirst b, updSecond b, updWorking b].map (· % 65536))
    let mine := s.mem.openPages.filter (fun p => hs.contains p.1 && (kget s.mem.cargoes p.1).isSome)
    mine.foldl (fun s p => raiseGeneration p.1 p.2 { s with mem := { s.mem with openPages := s.mem.openPages.filter (· != p) } }) s

end Sys2Proof.Machine
end

