-- ==== Sys2Proof/Machine/Securing.lean ====
section
/-! DEFINITION. Secured states (R386-R389), buddy shards (R390-R392), cadence (R393, R394), flash checkpoints (R395), restore and its
checks (R396-R399), and firmware handover (R406). -/

namespace Sys2Proof.Machine

/-! What a route's secured state is made of. -/

/-- Every page of each cargo that the manifest names with use 4 and write access (R386). -/
def securedPages (s : State) (r : Route) : List (Nat × Nat) :=
  let rs := (r.manifest.filter (fun m => m.use == 4 && m.write)).foldl (fun l m =>
    let i := m.handle % 65536
    if l.contains i then l else l ++ [i]) ([] : List Nat)
  rs.flatMap (fun i => (List.range (kgetD Cargo.free s.mem.cargoes i).pageCount).map (fun k => (i, k)))

/-- The contents of a page as a reader finds them, keyed as home contents are. -/
def pageCells (s : State) (i page : Nat) : Memory :=
  rangeOf (if (frameOf s i page).isSome then s.mem.cached else s.mem.home) (pageAddress i page) pageBytes

/-- A page is given contents; what it held is gone and its write generation rises (R305). -/
def putPage (i page : Nat) (cells : Memory) (s : State) : State :=
  let s := copyOnWrite i page s
  let f := frameOf s i page
  let s := if f.isSome then
      { s with mem := { s.mem with
          cached := cells.foldl (fun m e => storeByte m e.1 e.2) (clearBytes s.mem.cached (pageAddress i page) pageBytes) } }
    else { s with mem := { s.mem with
          home := cells.foldl (fun m e => storeByte m e.1 e.2) (clearBytes s.mem.home (pageAddress i page) pageBytes) } }
  raiseGeneration i page (if f.isSome then modFrame i page (fun x => { x with dirty := true }) s else s)

/-- Groups that the route's update records name (R386). -/
def groupStates (s : State) (r : Route) : KMap GroupState :=
  s.kilns.groups.filter (fun e => r.updates.any (fun b => updGroup b == e.1))

/-- 2907.n. -/
def secureState (s : State) (slot : Nat) : Nat :=
  let x := secureOf s slot
  if x.restoring.isSome then 3
  else if x.checking.isSome then 4
  else match x.point with
    | none => 0
    | some p => if p.checkpoint && p.buddyDone && !p.flashDone then 2 else 1

/-! Cadence (R393). -/

/-- Steps between secure points, and the step of the next. -/
def cadenceTau (s : State) (meas : Word) : Nat :=
  let floor32 := BitVec.ofNat 32 (setting s 0x3901 0)
  let c := if flt (f32 meas) (f32 floor32) then floor32 else meas
  min (max (isqrt ((2 * ratOf c * ratOf s.keeper.mean).floor.toNat)) 1) (setting s 0x2905 0)

/-- A running average with the weight of 3903.00, rounded once to binary32. -/
def averaged (s : State) (old : Word) (x : Rat) : Word :=
  let w := ratOf (BitVec.ofNat 32 (setting s 0x3903 0))
  f32OfRat ((1 - w) * ratOf old + w * x)

/-! Holding (R388, R389). -/

/-- A secure point is taken at a commit: every page of the secured state is held. -/
def takePoint (slot step : Nat) (r : Route) (s : State) : State :=
  let x := secureOf s slot
  let k := setting s 0x290C 0
  let n := x.points + 1
  let flash := decide (k ≠ 0) && n % k == 0
  let p : SecurePoint := {
    step := step, ordinal := n, checkpoint := flash
    pages := (securedPages s r).map (fun e => ⟨e.1, e.2, false, 0, pageCells s e.1 e.2, false, !flash⟩)
    carries := (collOf s slot).carries, groups := groupStates s r, digest := s.dict.digest
    headerSent := false, buddyDone := false, flashDone := !flash
    extra := 0, planned := r.plan.stepLength * effectivePeriod s slot r }
  modSecure slot (fun x => { x with
    points := n, point := some p, next := if x.next = step then 0 else x.next
    announced := if x.announced.contains step then x.announced else step :: x.announced }) s

/-- A page that is still held: it has not been sent, or not been written to flash (R389). -/
def HeldPage.held (h : HeldPage) : Bool := !(h.sent && h.flashed)

def modPoint (slot : Nat) (f : SecurePoint → SecurePoint) : State → State :=
  modSecure slot (fun x => { x with point := x.point.map f })

/-- Snapshot frames of pages go back to the reserve. -/
def framesBack (pages : List HeldPage) (m : KMap Nat) : KMap Nat :=
  pages.foldl (fun m h => if h.copied then kput m (pageNumber h.record h.page) h.frame else m) m

/-- A secure point is given up: every frame goes back to the reserve. -/
def releasePoint (slot : Nat) : State → State :=
  modSecure slot (fun x => { x with point := none, reserve := framesBack (x.point.elim [] (·.pages)) x.reserve })

/-- The pages change, and those held no longer are released; with the last of them the cost of securing enters c_meas (R389, R393). -/
def releasePages (slot : Nat) (f : HeldPage → HeldPage) (s : State) : State :=
  match (secureOf s slot).point with
  | none => s
  | some p =>
    let pages := p.pages.map f
    let s := modSecure slot (fun x => { x with
      reserve := framesBack (pages.filter (fun h => !h.held)) x.reserve
      point := some { p with pages := pages.map (fun h => if h.held then h else { h with copied := false }), planned := if pages.any (·.held) then p.planned else 0 } }) s
    if p.planned = 0 ∨ pages.any (·.held) = true then s
    else modKeeper (fun k => { k with meas := averaged s k.meas ((p.extra : Rat) / (p.planned : Rat)) }) s

/-- The point is over once the keeper has it complete, and the flash too where it is a checkpoint (R389, R392, R395). -/
def releaseIfDone (slot : Nat) (s : State) : State :=
  match (secureOf s slot).point with
  | some p => if p.buddyDone && p.flashDone then releasePoint slot s else s
  | none => s

/-- A background copy of the next held page of a unit, in ascending page order; tiers as R262 numbers them (R388). -/
def execBackgroundCopy (slot tier unit : Nat) (s : State) : Outcome :=
  done (match (secureOf s slot).point with
    | none => s
    | some p =>
      match p.pages.find? (fun h => !h.copied && h.held &&
          (kgetD Cargo.free s.mem.cargoes h.record).tier == tier &&
          ((pageOf s h.record h.page).any (fun e => e.unit == unit))) with
      | none => s
      | some h =>
        let s' := copyHeld slot h.record h.page s
        count 0x5122 slot 1 s')

/-! The keeper (R390-R392). -/

def keeperOf (s : State) : Nat := setting s 0x2901 0

/-- The link that the control route table names for a device; for a neighbour, its link (R348). -/
def controlLink (s : State) (dest : Nat) : Option Nat :=
  let b := ((inUse s 0x6800 0).getD dest 0xFF).toNat
  if b ≠ 0xFF then some b
  else (List.range 64).find? (fun l => linkIsUp s l && (linkOf s l).peer == dest)

/-- The header of a secured state (R391). -/
def securedHeader (s : State) (slot : Nat) (r : Route) (p : SecurePoint) : Bytes :=
  le 2 (deviceNumber s) ++ le 1 slot ++ le 1 (if p.checkpoint then 3 else 1) ++ le 6 p.step ++ le 2 0 ++ le 4 p.pages.length ++
  padTo 32 r.digest ++ padTo 32 p.digest ++ le 8 s.beat.count ++ le 8 0

/-- The next snapshot frame leaves for the keeper on channel 63, and after the last one the header (R391, R392). -/
def execBuddySend (slot : Nat) (s : State) : Outcome :=
  done (match (secureOf s slot).point, routeOf s slot, controlLink s (keeperOf s) with
    | some p, some r, some l =>
      if keeperOf s = 0xFFFF ∨ buddyLink s l = false then s
      else
        let send (bytes : Bytes) := queueFlits l 63 (cutFlits 63 (keeperOf s) slot 0 bytes)
        match p.pages.find? (fun h => h.copied && !h.sent) with
        | some h =>
          let bytes := loadBytes h.contents (pageAddress h.record h.page) pageBytes
          count 0x5123 slot pageBytes (releasePages slot (fun g => if g.record = h.record ∧ g.page = h.page then { g with sent := true } else g)
            (send bytes s))
        | none =>
          if p.headerSent = true ∨ p.pages.any (fun h => !h.sent) = true then s
          else modPoint slot (fun p => { p with headerSent := true }) (send (securedHeader s slot r p) s)
    | _, _, _ => s)

/-- A page, or the header, of another module's secured state arrives; it goes to the slot of that module's keep area that does not
hold its current state (R391, R392). -/
def execBuddyReceive (device slot step page : Nat) (contents : Bytes) (header : Option Bytes) (s : State) : Outcome :=
  match (List.range 4).find? (fun k => setting s 0x2903 k == device && device != 0xFFFF) with
  | none => done s
  | some area =>
    if firmwareRuns s = false then done s
    else
      let cur := kgetD 1 s.keeper.current area
      let k := area * 2 + (1 - cur)
      let x := kgetD ⟨[], []⟩ s.keeper.slots k
      let same := field x.header 4 6 == step && field x.header 2 1 == slot && !x.header.isEmpty
      let x : KeepSlot := if same then x else ⟨[], le 2 device ++ le 1 slot ++ [0] ++ le 6 step ++ zeroBytes 86⟩
      match header with
      | none => done (modKeeper (fun q => { q with slots := kput q.slots k { x with pages := kput x.pages page contents } }) s)
      | some h =>
        let q' := modKeeper (fun q => { q with slots := kput q.slots k { x with header := padTo 96 h } }) s
        done (if bit (field h 3 1) 0 ∧ field h 12 4 = x.pages.length then
          modKeeper (fun q => { q with current := kput q.current area (1 - cur) }) q' else q')

/-- The sender's slot at the keeper is complete: it becomes current and the one before it previous (R392). -/
def execBuddySlotComplete (slot : Nat) (s : State) : Outcome :=
  done (match (secureOf s slot).point with
    | none => s
    | some p =>
      if keeperOf s = 0xFFFF ∨ p.buddyDone = true ∨ p.headerSent = false then s
      else
        let cells := p.pages.map (fun h => (h.record, h.page, h.contents))
        let s := modSecure slot (fun x => { x with
          last := p.step
          held := ⟨p.step, 2, true, s.beat.count, cells, p.carries, p.groups, p.digest, none⟩ ::
            (x.held.filter (fun e => e.source != 3)).map (fun e => if e.source = 2 then { e with source := 3 } else e) }) s
        let s := event evtSecured (atSlot slot) (le 8 p.step) (count 0x5120 slot 1 s)
        releaseIfDone slot (modPoint slot (fun p => { p with buddyDone := true }) s))

/-- A change of 2901.00 abandons a send in progress and releases the held pages (R392). -/
def keeperChanged (s : State) : State := slotNumbers.foldl (fun s k => releasePoint k s) s

/-! Flash checkpoints (R395). -/

/-- The T3 cargo of 290D.00, if it is live, homed in T3 and of two checkpoints' size. -/
def checkpointCargo (s : State) (pages : Nat) : Option (Nat × Cargo) :=
  match cargoOf s (setting s 0x290D 0) with
  | some (i, c) => if c.state = 1 ∧ c.tier = 3 ∧ 2 * (pages + 1) ≤ c.pageCount then some (i, c) else none
  | none => none

/-- A checkpoint is abandoned: the held pages go once the buddy has them (R395). -/
def abandonCheckpoint (slot : Nat) (s : State) : State :=
  releaseIfDone slot (releasePages slot (fun h => { h with flashed := true }) (modPoint slot (fun p => { p with flashDone := true })
    (event evtCkptRefused (atSlot slot) [] (count 0x5126 slot 1 s))))

/-- The held pages are written to flash in stores of at most 4,096 pages, the route's dirty frames home before the header, and the
header page last (R395). -/
def execFlashCheckpoint (slot : Nat) (s : State) : Outcome :=
  done (match (secureOf s slot).point, routeOf s slot with
    | some p, some r =>
      if p.checkpoint = false ∨ p.flashDone = true then s
      else match checkpointCargo s p.pages.length with
        | none => abandonCheckpoint slot s
        | some (i, c) =>
          let half := (secureOf s slot).checkpoints % 2 * (p.pages.length + 1)
          let logical (k : Nat) : Nat := ((c.pages[half + k]?).map (·.frame)).getD 0
          let owner := (slotOf s slot).owner
          let ks := List.range p.pages.length
          let stores := (List.range (ceilDiv p.pages.length 4096)).map (fun j => (ks.drop (4096 * j)).take 4096)
          let res := stores.foldl (fun (x : State × Bool) g => if x.2 then admitStore owner (g.map (fun k => logical (k + 1))) true x.1 else x) (s, true)
          if res.2 = false then abandonCheckpoint slot res.1
          else
            let s := p.pages.zipIdx.foldl (fun s e =>
              writeData i ((half + 1 + e.2) * pageBytes) (loadBytes e.1.contents (pageAddress e.1.record e.1.page) pageBytes) s) res.1
            let home := (r.manifest.map (fun m => m.handle % 65536)).foldl (fun (x : State × Bool) j =>
              (x.1.mem.cache.filter (fun f => f.cargo == j && f.dirty)).foldl (fun x f =>
                let y := flushPage f.cargo f.page x.1
                (y.1, x.2 && y.2)) x) (s, true)
            let res := if home.2 then admitStore owner [logical 0] true home.1 else home
            if res.2 = false then abandonCheckpoint slot res.1
            else
              let s := writeData i (half * pageBytes) (padTo pageBytes (securedHeader s slot r p)) res.1
              let cells := p.pages.map (fun h => (h.record, h.page, h.contents))
              let s := modSecure slot (fun x => { x with
                checkpoints := x.checkpoints + 1
                held := (x.held.filter (fun e => e.source != 5)).map (fun e => if e.source = 4 then { e with source := 5 } else e) ++
                  [⟨p.step, 4, true, s.beat.count, cells, p.carries, p.groups, p.digest, some (logical 0)⟩] }) s
              releaseIfDone slot (releasePages slot (fun h => { h with flashed := true })
                (modPoint slot (fun p => { p with flashDone := true }) (count 0x5125 slot 1 s)))
    | _, _ => s)

/-! Voids of what the collective engine gathers (R375). -/

/-- A void discards the late tiles and partials of the attempt; carries of earlier steps stay (R139, R375). -/
def collVoid (slot : Nat) : State → State :=
  modColl slot (fun x => { Coll.none with carries := kmap (fun _ c => { c with spent := false }) x.carries })

/-- The step in progress is discarded (R139): everything under way, what the Kilns hold open, the engine's partials. -/
def discardStep (slot : Nat) (s : State) : State := collVoid slot (flushRoute slot (closeKilnPages slot s))

/-! Restore (R396-R399). -/

/-- A secured state is complete: one in flash once its header page has been programmed (R395). -/
def Secured.ready (s : State) (e : Secured) : Bool :=
  e.complete && e.header.all (fun k => !s.flash.stores.any (fun x => (x.waiting ++ x.admitted ++ x.committed).contains k))

/-- The secured states a module holds for a slot, local snapshot first, in the order of the sources (R396, 2910). A local snapshot is there
while every page of its point is held. -/
def heldStates (s : State) (slot : Nat) : List Secured :=
  let x := secureOf s slot
  let here := match x.point with
    | some p => if p.pages.all (·.held) then
        [(⟨p.step, 1, true, s.beat.count, p.pages.map (fun h => (h.record, h.page, h.contents)), p.carries, p.groups, p.digest, none⟩ : Secured)] else []
    | none => []
  here ++ [2, 3, 4, 5].flatMap (fun k => x.held.filter (fun e => e.source == k))

/-- The state that a restore takes: of one source or the first that has it, of a step or the newest. -/
def chooseState (s : State) (slot source step : Nat) : Option Secured :=
  (heldStates s slot).find? (fun e => e.ready s && (source == 0 || e.source == source) && (step == 0 || e.step == step))

/-- A secured state leaves the list of 2910. -/
def dropState (slot : Nat) (e : Secured) (s : State) : State :=
  if e.source = 1 then releasePoint slot s
  else modSecure slot (fun x => { x with held := x.held.filter (fun h => !(h.source == e.source && h.step == e.step)) }) s

/-- A record enters the step ledger; secured states whose restore would replay the record it overwrites leave the list first
(R452, R453). -/
def ledgerStep (b : Bytes) (s : State) : State :=
  match kget s.led.step (s.led.steps % 2097152) with
  | none => stepRecord b s
  | some old =>
    let slot := field old 7 1 % 4
    let lost := (heldStates s slot).filter (fun e => e.step < field old 0 6)
    stepRecord b (lost.foldl (fun s e => event evtLedgerWrap (atSlot slot) (le 6 e.step) (dropState slot e s)) s)

/-- The step ledger shows a step of the slot as committed: its kind 4 record. -/
def committedRecord (s : State) (slot step : Nat) : Option (Nat × Bytes) :=
  s.led.step.find? (fun e => field e.2 6 1 == 4 && field e.2 0 6 == step && field e.2 7 1 % 4 == slot)

/-- The route halts on a restore that it cannot make (R233, R396, R398). -/
def haltRoute (slot : Nat) (s : State) : State := count 0x5105 slot 1 (setTrainState slot 3 s)

/-- A notice of a void goes up the mark tree; the master carries it on its next mark (R61). -/
def sendNotice (slot step attempt : Nat) (s : State) : State :=
  let n : VoidNotice := ⟨step, slot, attempt % 16, deviceNumber s⟩
  modBeat (fun b => if b.state = 3 then { b with notices := b.notices ++ [n] } else { b with upNotices := b.upNotices ++ [n] }) s

/-- The step in progress is void (R139): what it has under way is discarded and the attempt number rises. -/
def voidAttempt (slot : Nat) (s : State) : State :=
  modTrain slot (fun t => { t with attempt := t.attempt + 1, voided := none, replayBeat := none }) (discardStep slot s)

/-- A restore is accepted: the step in progress is void, held pages that are not its source are released, and the route awaits
the start beat (R396). -/
def acceptRestore (slot source step start : Nat) (s : State) : State :=
  let s := voidAttempt slot s
  match chooseState s slot source step with
  | none => haltRoute slot (event evtRestoreFail (atSlot slot) (le 6 step) (releasePoint slot s))
  | some e =>
    let s := modSecure slot (fun x => { x with restoring := some ⟨e.source, e.step, start, none⟩, checking := none }) s
    setTrainState slot 2 (if e.source = 1 then s else releasePoint slot s)

/-- The start of a restore that a void here brings about waits for the mark that carries the void's notice (R398, R399). -/
def awaitNotice (slot step attempt : Nat) : State → State :=
  modSecure slot (fun x => { x with restoring := x.restoring.map (fun q => { q with notice := some (step, attempt % 16) }) })

/-- The write of 290F.00 (R396). -/
def restoreEffect (data : Bytes) (s : State) : Effect :=
  let slot := field data 0 1
  checked [(decide (4 ≤ slot) || decide (5 < field data 1 1) || !zeroAt data 16 8, stRange),
      (field data 8 8 < s.beat.count + 65536, stEpoch),
      (!((routeOf s slot).any (·.training)), stState)] s
    (acceptRestore slot (field data 1 1) (field data 2 6) (field data 8 8))

/-- The source of a restore can be read: a buddy's state comes over a link to the keeper that is up. -/
def sourceReachable (s : State) (source : Nat) : Bool :=
  if source = 2 ∨ source = 3 then (controlLink s (keeperOf s)).any (fun l => linkIsUp s l) else true

/-- A restored state is written into the cargoes' present frames, with its carries and group records (R396). -/
def writeState (slot : Nat) (e : Secured) (s : State) : State :=
  let s := e.pages.foldl (fun s p => putPage p.1 p.2.1 p.2.2 s) s
  let s := modColl slot (fun _ => { Coll.none with carries := e.carries }) s
  { s with kilns := { s.kilns with groups := e.groups.foldl (fun m g => kput m g.1 g.2) s.kilns.groups } }

/-- The attempt that a step runs as after a restore: 1 where the ledger shows it committed (R396). -/
def restoredAttempt (s : State) (slot step : Nat) : Nat := if (committedRecord s slot step).isSome then 1 else 0

/-- The start beat of a restore (R396): the route runs on from the step after the secured one, or halts if it is not ready. -/
def execRestoreStart (slot : Nat) (s : State) : Outcome :=
  done (match (secureOf s slot).restoring with
    | none => s
    | some q =>
      if s.beat.count < q.start then s
      else
        let late := haltRoute slot (sendNotice slot (q.step + 1) 0 (event evtRestoreLate (atSlot slot) []
          (modSecure slot (fun x => { x with restoring := none }) s)))
        match chooseState s slot q.source q.step with
        | none => late
        | some e =>
          if sourceReachable s q.source = false ∨ q.start ≤ s.beat.before then late
          else
            let s := writeState slot e s
            let s := if q.source = 1 then releasePoint slot s else s
            let w := s
            let s := modKeeper (fun k => { k with mean := averaged w k.mean ((secureOf w slot).sinceRestore : Rat) }) s
            let a := restoredAttempt s slot (e.step + 1)
            let s := modSecure slot (fun x => { x with
              restoring := none, restored := e.step, sinceRestore := 0, checking := if a = 1 then some (e.step + 1) else none }) s
            let start := if (routeOf s slot).any (·.plan.isLocal) then (slotOf s slot).beat.count else s.beat.count
            let s := modTrain slot (fun t => { t with
              step := e.step + 1, attempt := a, lastCommitted := e.step, voided := none, replayBeat := some start }) s
            count 0x5127 slot 1 s)

/-- Bytes of the configuration digest that a commit left in the step ledger: 8 in its kind 4 record, the rest in the kind 5
record after it (R452). -/
def recordedDigest (s : State) (i : Nat) (b : Bytes) : Bytes :=
  slice b 24 8 ++ slice (kgetD [] s.led.step ((i + 1) % 2097152)) 8 24

/-- The replay check of a step that commits under a restore (R397): 0 matches, 1 differs, 2 cannot be compared. -/
def replayCheck (s : State) (slot step : Nat) (loss : Option (BitVec 64)) : Nat :=
  match committedRecord s slot step, loss with
  | some (i, b), some l =>
    if bit (field b 18 1) 0 = false ∨ recordedDigest s i b ≠ s.dict.digest then 2
    else
      let r := field b 8 8
      if routeSetting s slot 0x2301 = 1 then (if r = l.toNat then 0 else 1)
      else
        let tol := f32 (BitVec.ofNat 32 (setting s 0x290E 0))
        if flt (fmul tol (fabs (f64 r))) (fabs (fsub (f64 l.toNat) (f64 r))) || fisNan (f64 r) || fisNan (f64 l.toNat) then 1 else 0
  | _, _ => 2

/-- A void reaches a step that is replayed under a restore: the next older secure step of the announced list is restored, 3906.00 beats
after the beat of the notice; a module that does not hold it cannot, and the route halts (R398). -/
def restoreOlder (slot notice : Nat) (s : State) : State :=
  let x := secureOf s slot
  let older := (x.announced.filter (· < x.restored)).foldl max 0
  match (if older = 0 then none else chooseState s slot 0 older) with
  | none => haltRoute slot (event evtRestoreFail (atSlot slot) (le 6 older) (modSecure slot (fun x => { x with checking := none }) (voidAttempt slot s)))
  | some e => acceptRestore slot 0 e.step (notice + setting s 0x3906 0) s

/-- A void that takes effect in phase U is repaired by a restore of the newest state (R399). -/
def repairVoid (slot notice : Nat) (s : State) : State := acceptRestore slot 0 0 (notice + setting s 0x3906 0) s

/-! Firmware handover (R406). -/

def slotImage (s : State) (k : Nat) : ImageSlot := if k = 0 then s.sys.slotA else s.sys.slotB
def setImage (k : Nat) (x : ImageSlot) : State → State := modSys (fun y => if k = 0 then { y with slotA := x } else { y with slotB := x })
def inactiveSlot (s : State) : Nat := 1 - s.sys.active

/-- The order in which the services move; of the flash translation layer, core 5 carries core 4's first (R406). -/
def handoverOrder : List Nat := [6, 2, 1, 3, 0, 4, 5]

/-- The core that carries the service of a core while its own reloads (R35, R406). -/
def carrierOf (core : Nat) : Nat := if core = 4 then 5 else if core = 5 then 4 else 7

/-- 29C2.00: the service that another core carries, or none. -/
def inTransit (s : State) : Option Nat := s.sys.carriers.head?.map (·.1)

/-- The write of 29C0.00. -/
def handoverEffect (s : State) : Effect :=
  checked [(s.sys.handover == 1, stBusy),
      ((slotImage s (inactiveSlot s)).state != 1 || s.power.input != 0 || s.power.holdup != 2 || s.sys.failedCores.contains 7, stState)] s
    (modSys (fun y => { y with handover := 1, moved := [], carriers := [], rollback := none }))

/-- The service that moves next: forward by the order, or back to the old image in reverse order (R406). -/
def nextService (s : State) : Option Nat :=
  match s.sys.rollback with
  | none => handoverOrder.find? (fun c => !s.sys.moved.contains c)
  | some _ => s.sys.moved.getLast?

/-- The handover is over: every service runs on the new image, or every one is back on the old (R406). -/
def endHandover (s : State) : State :=
  match s.sys.rollback with
  | none =>
    let x := slotImage s (inactiveSlot s)
    count 0x5024 0 1 (modSys (fun y => { y with
      handover := 2, moved := [], active := inactiveSlot s, runningVersion := x.version, runningDigest := x.digest }) s)
  | some c => event evtHandoverFail nowhere (le 1 c) (modSys (fun y => { y with handover := 3, rollback := none }) s)

/-- A service comes back to its core, which runs the image it has loaded; one whose core failed the check of the new image comes back to
the old one, and the handover is taken back (R406). -/
def serviceBack (core : Nat) (ok : Bool) (s : State) : State :=
  let s := modSys (fun y => { y with
    carriers := [], movedAt := s.beat.count
    rollback := if y.rollback = none ∧ ok = false then some core else y.rollback
    moved := if y.rollback.isSome then y.moved.filter (· != core) else if ok then y.moved ++ [core] else y.moved }) s
  if (nextService s).isSome then s else endHandover s

/-- At a beat boundary one service moves: to the core that carries it, or, at a later one, back to its own core, which has loaded its image
and checked itself. At most one is in transit (R35, R406). -/
def execHandoverServiceMove (selfCheckOk : Bool) (s : State) : Outcome :=
  done (if s.sys.handover ≠ 1 ∨ firmwareRuns s = false ∨ s.clock ≠ s.beat.opened then s
  else match inTransit s with
    | some c => if s.beat.count ≤ s.sys.movedAt then s else serviceBack c selfCheckOk s
    | none => match nextService s with
      | some c => modSys (fun y => { y with carriers := [(c, carrierOf c)], movedAt := s.beat.count }) s
      | none => s)

end Sys2Proof.Machine
end

