-- ==== Sys2Proof/Machine/Counters.lean ====
section
/-! DEFINITION. Capture and clearing of the counters (R447-R449), the messages of a beat's causes (R469), and the records of stations
(R451). -/

namespace Sys2Proof.Machine

/-- Arrays gated in the present beat: no resident route has a station on them, or each marks them idle (R65). -/
def gatedArrays (s : State) : Nat :=
  ((List.range 256).filter (fun a => (arrayOf s a).gated || (slotsOn s a).isEmpty)).length

/-- Every counter is copied in one cycle; a clear that waits empties them instead (R447, R449). -/
def capture (s : State) : State :=
  let c := s.ctr
  { s with ctr :=
      if c.clearPending then { c with
        live := [], captured := [], station := [], stationCaptured := [], clearPending := false, captureBeat := s.beat.count }
      else { c with captured := c.live, stationCaptured := c.station, captureBeat := s.beat.count } }

/-- Cycle P − 1 of a fabric beat: gated arrays are counted, the beat's causes are signalled, and the counters are captured in beats
whose count is a multiple of 3C01.00 (R447, R469). -/
def execCounterCapture (s : State) : Outcome :=
  done (if firmwareRuns s then
    let s := count 0x5012 0 (gatedArrays s) s
    let causes := s.ctr.causes
    let s := causes.foldl (fun s c => if hasFunction s c.1 then signal c.1 c.2 s else s) { s with ctr := { s.ctr with causes := [] } }
    if s.beat.count % max 1 (setting s 0x3C01 0) = 0 then capture s else s
  else s)

/-- The write of 2C02.00 (R449). -/
def clearEffect (s : State) : Effect :=
  checked [(s.ctr.clearPending, stBusy)] s (fun s => { s with ctr := { s.ctr with clearPending := true } })

/-- The captured value of a counter (R447). -/
def capturedValue (s : State) (index inst : Nat) : Nat := kgetD 0 s.ctr.captured (index * 256 + inst)

/-- The record of a station: its number and kind, then its 35 counters (R451). -/
def stationRecord (s : State) (slot : Nat) (st : StationRec) : Bytes :=
  le 2 st.info.number ++ le 1 st.info.kind ++ zeroBytes 5 ++
    (List.range 35).flatMap (fun k => le 8 (kgetD 0 s.ctr.stationCaptured ((slot * 4096 + st.info.number) * 64 + k)))

/-- 6C00.s. -/
def stationRecords (s : State) (slot : Nat) : Bytes :=
  ((slotOf s slot).route.map (fun r => r.stations.flatMap (stationRecord s slot))).getD []

end Sys2Proof.Machine
end

