-- ==== Sys2Proof/Machine/Collective.lean ====
section
/-! DEFINITION. The collective engine: contributions and the ring (R349-R353, R366, R367), the global norm (R351, R352, R368, R394), and
late-fold (R373-R377). -/

namespace Sys2Proof.Machine

/-! Pieces (R373). Ring i carries the i-th part of each chunk. -/

def pieceKey (k c i : Nat) : Nat := k * 2 ^ 24 + c * 16 + i

/-- Elements of a piece. -/
def CollRec.piece (x : CollRec) : Nat := x.elements / (x.group * x.rings)

/-- First element of a piece in the tensor. -/
def CollRec.base (x : CollRec) (c i : Nat) : Nat := (c * x.rings + i) * x.piece

/-- The chunk and ring that carry an element. -/
def CollRec.pieceOf (x : CollRec) (e : Nat) : Nat × Nat := (e / (x.piece * x.rings), e % (x.piece * x.rings) / x.piece)

def elementKey (k e : Nat) : Nat := k * 2 ^ 32 + e

/-- The side's engine (R353). -/
def CollRec.side (x : CollRec) : Nat := (x.links.headD 0) / 16

/-- One addition in the sum format, rounded once (R350). -/
def sumAdd (fmt : Nat) (a b : Word) : Word :=
  if fmt = 1 then toF32 (bf16Of (fadd (f32 a) (f32 b))) else add32 a b

/-- A value rounded to a format of the ring: 0 FP32, 1 BF16. -/
def sumRound (fmt : Nat) (a : Word) : Word := if fmt = 1 then toF32 (bf16Of (f32 a)) else a

/-- Values as the bytes of a format, and back. -/
def ringBytes (fmt : Nat) (vs : List Word) : Bytes :=
  vs.flatMap (fun v => if fmt = 1 then le 2 (roundTo bf16 (f32 v)) else le 4 v.toNat)
def ringWords (fmt : Nat) (b : Bytes) : List Word :=
  if fmt = 1 then (records 2 b).map (fun x => toF32 (decodeF bf16 (leNat x))) else (records 4 b).map (fun x => BitVec.ofNat 32 (leNat x))

/-- The contribution staged for a piece. -/
def contribution (q : Coll) (x : CollRec) (k c i : Nat) : List (Option Word) :=
  (List.range x.piece).map (fun n => kget q.staged (elementKey k (x.base c i + n)))

/-- Every element of the piece is staged (R373). -/
def present (q : Coll) (x : CollRec) (k c i : Nat) : Bool := (contribution q x k c i).all (·.isSome)

/-- The engine works while a route set marked X or U is in force (R366). -/
def ringOpen (s : State) (slot : Nat) (r : Route) : Bool := phaseOf s slot r == 2 || phaseOf s slot r == 3

/-- The staleness limit of a record: the least of the groups whose GA records drain into its station (R373, R245). -/
def stalenessLimit (s : State) (slot : Nat) (r : Route) (x : CollRec) : Nat :=
  let gs := r.gas.filter (fun g => (r.output (gaOwner g) (gaOutput g)).any (fun o => o.dest == x.station))
  match gs.map (fun g => field (groupRec (routeValue s slot 0x6400) (gaGroup g)) 36 1) with
  | [] => 1
  | l :: ls => ls.foldl min l

/-! What leaves on a ring. -/

/-- The channel of ring flits on a link: the lowest that the route's channel records grant there and no stream of it uses. The spec
names none (assumption log 20). -/
def ringChannel (r : Route) (l : Nat) : Nat :=
  ((r.plan.channels.filter (fun c => c.link == l && !r.streams.any (fun o => o.links.contains l && o.channel == some c.channel))).map
    (·.channel)).foldl min 62

/-- The values of a piece leave for the next rank, on the record's ring link (R350, R367). -/
def sendRing (slot : Nat) (r : Route) (k c i phase fmt : Nat) (x : CollRec) (vs : List Word) (s : State) : State :=
  let t := (slotOf s slot).train
  let l := x.links.getD i 0xFF
  let dest := x.ranks.getD ((x.rank + 1) % x.group) 0
  let head := le 1 k ++ le 1 i ++ le 2 c ++ le 1 phase ++ le 1 (t.attempt % 16) ++ le 6 t.step ++ le 4 vs.length
  queueFlits l (ringChannel r l) (cutFlits (ringChannel r l) dest slot (setOf' s slot) (head ++ ringBytes fmt vs)) s

/-- The bytes of a gathered piece go to the exchange cargo, in the result format at its place in the tensor (R353); the truth value says
whether its pages could take them now. A BROKEN cargo gives the route FLT_SAGGAR (R268). -/
def writePiece (slot : Nat) (x : CollRec) (c i : Nat) (vs : List Word) (s : State) : State × Bool :=
  match cargoOf s x.cargo with
  | none => (s, true)
  | some (j, q) =>
    let o := x.base c i * (if x.result = 1 then 2 else 4)
    let b := ringBytes x.result vs
    let pages := pagesOf o b.length
    if q.state = 2 then (saggarHit slot 0xFFFF s, true)
    else if q.pageCount * pageBytes < o + b.length then (s, true)
    else
      let store := if q.tier = 3 ∧ q.farCached = false then pages.filterMap (fun p => (pageOf s j p).map (·.frame)) else []
      let a := admitStore q.client store false s
      let y := if a.2 = true ∧ q.farCached = true then accessPages j pages a.1 else a
      if y.2 = false then (y.1, false)
      else (pages.foldl (fun s p => raiseGeneration j p s) (applyWrite j o b y.1), true)

/-- A gathered piece is delivered, or waits until its pages can take it. -/
def deliverPiece (slot : Nat) (x : CollRec) (p c i : Nat) (vs : List Word) (s : State) : State :=
  let y := writePiece slot x c i vs s
  if y.2 then y.1 else modColl slot (fun q => { q with arriving := q.arriving ++ [(p, vs)] }) y.1

/-- Pieces that wait to be delivered are tried again. -/
def retryPieces (slot : Nat) (r : Route) (s : State) : State :=
  let ps := (collOf s slot).arriving
  ps.foldl (fun s e => match r.collectives[e.1 / 2 ^ 24]? with
    | some x => deliverPiece slot x e.1 (e.1 % 2 ^ 24 / 16) (e.1 % 16) e.2 s
    | none => s) (modColl slot (fun q => { q with arriving := [] }) s)

/-! The norm (R351, R352, R368). -/

/-- The record whose ranks share the norm: the norm-only record, else the first record with the norm bit. -/
def normRecord (r : Route) : Option CollRec :=
  match r.collectives.find? (fun x => x.op == 3) with
  | some x => some x
  | none => r.collectives.find? (·.norm)

/-- Records whose sums this module sends. -/
def normNumbers (r : Route) : List Nat := ((r.collectives.zipIdx.filter (fun e => e.1.norm && e.1.op != 3)).map (·.2))

/-- A page of a secure point is still held. -/
def pageHeld (s : State) (slot : Nat) : Bool := (secureOf s slot).point.isSome

/-- The sum of squares of a chunk, in binary64 and ascending element order. -/
def sumSquares (vs : List Word) : Nat := vs.foldl (fun a v => add64 a (mul64 (widen64 v) (widen64 v))) 0

/-- N is known here: it enters the step at the close of the present beat (R351). -/
def takeNorm (slot : Nat) (n : Word) (next : Nat) (s : State) : State :=
  let s := modTrain slot (fun t => { t with norm := some n, normPending := true }) s
  if next = 0 then s else modSecure slot (fun x => { x with next := next, announced := next :: x.announced }) s

/-- Rank 0 announces the step of the next secure point once, unless a page is held anywhere (R393, R394). -/
def announce (slot : Nat) (s : State) : State × Nat :=
  let q := collOf s slot
  let x := secureOf s slot
  let now := (slotOf s slot).train.step
  if q.anyHeld then (count 0x5124 slot 1 s, 0)
  else if x.next ≠ 0 then (s, 0)
  else
    let tau := cadenceTau s q.largest
    let step := max (x.announced.headD x.last + tau) (now + 1)
    (modKeeper (fun k => { k with tau := tau }) s, step)

/-- Every rank has reported: rank 0 forms N and sends it to every rank (R351, R352, R368, R394). -/
def formNorm (slot : Nat) (r : Route) (s : State) : State :=
  match normRecord r with
  | none => s
  | some x =>
    let q := collOf s slot
    if x.ranks.headD 0 ≠ deviceNumber s ∨ x.ranks.all (fun d => q.heard.any (fun e => e.1 == d)) = false ∨ q.reported = false ∨
        (slotOf s slot).train.norm.isSome then s
    else
      let sums := x.ranks.flatMap (fun d => ((q.heard.find? (fun e => e.1 == d)).elim [] (·.2)).map (·.2.toNat))
      let total := sums.foldl add64 0
      let n := toF32 (fsqrt (f64 total))
      let a := announce slot s
      let t := (slotOf s slot).train
      let payload := le 6 t.step ++ le 1 slot ++ le 1 (t.attempt % 16) ++ le 2 (deviceNumber s) ++ le 1 1 ++ le 1 0 ++ le 4 n.toNat ++
        le 6 a.2 ++ le 2 0
      let s := (x.ranks.filter (· != deviceNumber s)).foldl (fun s d =>
        match controlLink s d with
        | some l => sendFrame l 6 d payload s
        | none => s) a.1
      takeNorm slot n a.2 s

/-- A device's sums are taken at rank 0, once (R352). -/
def hearSums (slot device : Nat) (sums : List (Nat × BitVec 64)) (meas : Word) (held : Bool) : State → State :=
  modColl slot (fun q => if q.heard.any (fun e => e.1 == device) then q else { q with
    heard := q.heard ++ [(device, sums)]
    largest := if flt (f32 q.largest) (f32 meas) then meas else q.largest
    anyHeld := q.anyHeld || held })

/-- Once the last of the records with the norm bit has its sum, one report carries them all to rank 0 (R352). -/
def reportSums (slot : Nat) (r : Route) (s : State) : State :=
  let q := collOf s slot
  match normRecord r with
  | none => s
  | some x =>
    if q.reported = true ∨ (normNumbers r).all (fun k => (kget q.sums k).isSome) = false then s
    else
      let sums := (normNumbers r).map (fun k => (k, kgetD 0 q.sums k))
      let s := modColl slot (fun q => { q with reported := true }) s
      let t := (slotOf s slot).train
      if x.ranks.headD 0 = deviceNumber s then
        formNorm slot r (hearSums slot (deviceNumber s) sums s.keeper.meas (pageHeld s slot) s)
      else
        let payload := le 6 t.step ++ le 1 slot ++ le 1 (t.attempt % 16) ++ le 2 (deviceNumber s) ++ le 1 0 ++ le 1 sums.length ++ le 4 0 ++
          sums.flatMap (fun e => le 1 e.1 ++ le 7 0 ++ le 8 e.2.toNat) ++
          le 4 s.keeper.meas.toNat ++ le 1 (if pageHeld s slot then 1 else 0) ++ le 3 0
        match controlLink s (x.ranks.headD 0) with
        | some l => sendFrame l 6 (x.ranks.headD 0) payload s
        | none => s

/-- The step, slot and attempt of a norm report are this module's present ones (R352). -/
def reportCurrent (s : State) (slot : Nat) (b : Bytes) : Bool :=
  let t := (slotOf s slot).train
  field b 0 6 == t.step % 2 ^ 48 && field b 7 1 % 16 == t.attempt % 16 && t.state == 1

def execSumReport (payload : Bytes) (s : State) : Outcome :=
  let slot := field payload 6 1 % 4
  match routeOf s slot with
  | none => done s
  | some r =>
    let n := field payload 11 1
    if field payload 10 1 ≠ 0 ∨ reportCurrent s slot payload = false ∨ n = 0 ∨ 16 < n then done s
    else
      let sums := (List.range n).map (fun i => (field payload (16 + 16 * i) 1, BitVec.ofNat 64 (field payload (24 + 16 * i) 8)))
      done (formNorm slot r (hearSums slot (field payload 8 2) sums (BitVec.ofNat 32 (field payload (16 + 16 * n) 4))
        (bit (field payload (20 + 16 * n) 1) 0) s))

def execNormReport (payload : Bytes) (s : State) : Outcome :=
  let slot := field payload 6 1 % 4
  done (if field payload 10 1 = 1 ∧ reportCurrent s slot payload = true ∧ (routeOf s slot).isSome ∧
      (slotOf s slot).train.norm.isNone then
    takeNorm slot (BitVec.ofNat 32 (field payload 12 4)) (field payload 16 6) s else s)

/-! The ring (R350, R351). -/

/-- The reduced chunk leaves as tiles of 16,384 elements, 128 in a row, on output 0 of the Exchange station (R351). -/
def emitChunk (slot : Nat) (r : Route) (x : CollRec) (vs : List Word) (s : State) : State :=
  match r.output x.station 0 with
  | none => s
  | some o =>
    (List.range (ceilDiv vs.length 16384)).foldl (fun s n =>
      let part := (vs.drop (16384 * n)).take 16384
      let rows := ceilDiv part.length 128
      let payload := ringBytes x.result (part ++ List.replicate (rows * 128 - part.length) 0)
      let h := outHeader s slot x.station o.number (BitVec.ofNat 32 (3 * 2 ^ 28 + n)) payload.length ⟨x.result, false, rows, 128, rows, 128, 0⟩
      sendWhenFree slot o.number ⟨h, payload⟩ s) s

/-- This rank's piece of its own chunk is reduced: it goes on round the ring in an all-reduce or an all-gather, and the chunk
leaves once every ring has brought its piece (R350, R351). -/
def finishPiece (slot : Nat) (r : Route) (k i : Nat) (x : CollRec) (vs : List Word) (s : State) : State :=
  let c := x.rank
  let vs := vs.map (sumRound x.result)
  let s := modColl slot (fun q => { q with reduced := kput q.reduced (pieceKey k c i) vs }) s
  let s := if x.op = 1 ∨ x.op = 2 then sendRing slot r k c i 1 x.result x vs (deliverPiece slot x (pieceKey k c i) c i vs s) else s
  let parts := (List.range x.rings).map (fun j => kget (collOf s slot).reduced (pieceKey k c j))
  if x.op = 1 ∨ parts.any (·.isNone) then s
  else
    let chunk := (parts.filterMap id).flatMap id
    let s := emitChunk slot r x chunk s
    if x.norm then
      reportSums slot r (modColl slot (fun q => { q with sums := kput q.sums k (BitVec.ofNat 64 (sumSquares chunk)) }) s)
    else s

/-- A decided piece goes on once its partial is there and the ring is open: each addend rounded once (R350, R374). Decision 1 adds
`own`, 2 passes the partial on unchanged, 3 is over. -/
def goPiece (slot : Nat) (r : Route) (k c i : Nat) (x : CollRec) (s : State) : State :=
  let q := collOf s slot
  let p := pieceKey k c i
  let d := kgetD 0 q.decided p
  let starts := x.rank == (c + 1) % x.group
  if d = 0 ∨ d = 3 ∨ d = 4 ∨ ringOpen s slot r = false then s
  else
    let own := kgetD [] q.own p
    let addends := (List.range (own.length / max 1 x.piece)).map (fun j => (own.drop (j * x.piece)).take x.piece)
    let start : Option (List Word × List (List Word)) :=
      if starts then match addends with
        | [] => some (List.replicate x.piece 0, [])
        | a :: rest => some (a.map (sumRound x.sum), rest)
      else (kget q.partials p).map (fun v => (v, addends))
    match start with
    | none => s
    | some (v, as) =>
      let v := as.foldl (fun v a => List.zipWith (sumAdd x.sum) v a) v
      let s := modColl slot (fun q => { q with
        decided := kput q.decided p (d + 2), partials := kdel q.partials p, own := kdel q.own p }) s
      let s := count 0x5510 x.side x.piece s
      if c = x.rank then finishPiece slot r k i x v s else sendRing slot r k c i 0 x.sum x v s

/-- Gathered pieces go on to the next rank while the ring is open (R350, R366). -/
def passPieces (slot : Nat) (r : Route) (s : State) : State :=
  if ringOpen s slot r = false then s
  else (collOf s slot).passing.foldl (fun s e => match r.collectives[e.1 / 2 ^ 24]? with
    | some x => sendRing slot r (e.1 / 2 ^ 24) (e.1 % 2 ^ 24 / 16) (e.1 % 16) 1 x.result x e.2 s
    | none => s) (modColl slot (fun q => { q with passing := [] }) s)

/-- What waited for the X set goes on when it comes into force (R366). -/
def runRings (slot : Nat) (s : State) : State :=
  match routeOf s slot with
  | none => s
  | some r =>
    let s := retryPieces slot r s
    if ringOpen s slot r = false then s
    else passPieces slot r ((collOf s slot).decided.foldl (fun s e =>
      let k := e.1 / 2 ^ 24
      match r.collectives[k]? with
      | some x => goPiece slot r k (e.1 % 2 ^ 24 / 16) (e.1 % 16) x s
      | none => s) s)

/-- A partial, or in the gathering round a finished piece, arrives from the previous rank (R350, R353, R366). -/
def execRingPartialArrive (slot record chunk ring : Nat) (values : Bytes) (s : State) : Outcome :=
  match (routeOf s slot).bind (fun r => (r.collectives[record]?).map (fun x => (r, x))) with
  | none => done s
  | some (r, x) =>
    let p := pieceKey record chunk ring
    let q := collOf s slot
    if x.group ≤ chunk ∨ x.rings ≤ ring ∨ x.op = 3 ∨ (slotOf s slot).train.state ≠ 1 then done s
    else
      let gathering := x.op == 1 || x.rank == (chunk + 1) % x.group || 3 ≤ kgetD 0 q.decided p || (kget q.partials p).isSome
      if gathering then
        if x.op = 0 ∨ chunk = x.rank ∨ q.gathered.contains p then done s
        else
          let vs := ringWords x.result values
          let on := if (x.rank + 1) % x.group = chunk then [] else [(p, vs)]
          let s := modColl slot (fun q => { q with gathered := q.gathered ++ [p], passing := q.passing ++ on }) s
          done (passPieces slot r (count 0x5510 x.side x.piece (deliverPiece slot x p chunk ring vs s)))
      else
        done (goPiece slot r record chunk ring x (modColl slot (fun q => { q with partials := kput q.partials p (ringWords x.sum values) }) s))

/-! Late-fold (R373-R377). -/

/-- A fold record (R376). -/
def foldRecord (s : State) (slot k c i kind carryStep elements : Nat) : Bytes :=
  le 6 (slotOf s slot).train.step ++ le 1 kind ++ le 1 slot ++ le 1 k ++ le 1 i ++ le 2 c ++ le 6 carryStep ++ le 2 (deviceNumber s) ++
  le 4 elements ++ le 8 0

/-- A fold record of a piece for the present step is in the step ledger. -/
def hasFold (s : State) (slot k c i kind : Nat) : Bool :=
  s.led.step.any (fun e => slice e.2 0 12 == slice (foldRecord s slot k c i kind 0 0) 0 12)

/-- A decision is written and counted; a replay finds it written (R374, R376). -/
def writeFold (slot k c i kind carryStep elements : Nat) (s : State) : State :=
  if (slotOf s slot).train.attempt = 0 then
    count (0x5118 + kind) slot 1 (ledgerStep (foldRecord s slot k c i kind carryStep elements) s)
  else s

/-- The close point of a record has come: the last cycle of the fabric beat at the step offset up to which its contributions count. The lag
of the route does not move it, so it is counted back from where the present beat opened (R373). -/
def closePointPassed (s : State) (slot : Nat) (x : CollRec) : Bool :=
  let b := (slotOf s slot).beat
  let last := x.close + x.grace + routeSetting s slot 0x3980
  decide (b.opened + (last + 1) * b.period ≤ s.clock + 1 + b.lag + b.offset * b.period)

/-- The decision for a piece (R374, R377), with what enters the partial: the contribution, then the carry. -/
def decidePiece (slot : Nat) (r : Route) (k c i : Nat) (x : CollRec) (s : State) : State :=
  let q := collOf s slot
  let p := pieceKey k c i
  let t := (slotOf s slot).train
  let n := x.piece
  let limit := stalenessLimit s slot r x
  let replay := decide (0 < t.attempt)
  let here := present q x k c i
  let folded := if replay then hasFold s slot k c i 0 else !here && closePointPassed s slot x && routeSetting s slot 0x2981 == 1
  if folded = false ∧ here = false then s
  else
    let carry := kget q.carries p
    let spend (s : State) : State := modColl slot (fun q => { q with carries := kmod q.carries p (fun y => { y with spent := true }) }) s
    if folded then
      let s := writeFold slot k c i 0 t.step n s
      let old := match carry with
        | some y => if replay then hasFold s slot k c i 2 else decide (limit < t.step + 1 - y.step)
        | none => false
      let s := if old then spend (writeFold slot k c i 2 ((carry.map (·.step)).getD t.step) n s)
        else if limit = 0 then writeFold slot k c i 2 t.step n s else s
      let mine : KMap Word := (contribution q x k c i).zipIdx.foldl (fun m e => match e.1 with
        | some v => kput m e.2 v
        | none => m) []
      goPiece slot r k c i x (modColl slot (fun q => { q with
        decided := kput q.decided p 2, own := kdel q.own p, late := kput q.late p mine }) s)
    else
      let own := (contribution q x k c i).filterMap id
      let enter (extra : List Word) (s : State) : State :=
        goPiece slot r k c i x (modColl slot (fun q => { q with decided := kput q.decided p 1, own := kput q.own p (own ++ extra) }) s)
      match carry with
      | none => enter [] s
      | some y =>
        let drop := if replay then hasFold s slot k c i 2 else decide (limit < t.step - y.step)
        let apply := if replay then hasFold s slot k c i 1 else y.landed == y.folded
        if drop then enter [] (spend (writeFold slot k c i 2 y.step n s))
        else if apply then
          enter ((List.range n).map (fun j => kgetD 0 y.values j)) (spend (writeFold slot k c i 1 y.step n s))
        else enter [] (writeFold slot k c i 3 y.step n s)

/-- The engine decides on a piece: when it is present, or at its close point (R374). An all-gather passes on its own chunk. -/
def execLateFoldDecide (slot record chunk ring : Nat) (s : State) : Outcome :=
  match (routeOf s slot).bind (fun r => (r.collectives[record]?).map (fun x => (r, x))) with
  | none => done s
  | some (r, x) =>
    let q := collOf s slot
    let p := pieceKey record chunk ring
    if x.group ≤ chunk ∨ x.rings ≤ ring ∨ x.op = 3 ∨ kgetD 0 q.decided p ≠ 0 ∨ (slotOf s slot).train.state ≠ 1 then done s
    else if x.op = 1 then
      if chunk = x.rank ∧ present q x record chunk ring ∧ ringOpen s slot r then
        done (finishPiece slot r record ring x ((contribution q x record chunk ring).filterMap id)
          (modColl slot (fun q => { q with decided := kput q.decided p 3 }) s))
      else done s
    else done (decidePiece slot r record chunk ring x s)

/-- A late element joins a carry: carry first, one rounding (R375). -/
def addLate (fmt : Nat) (y : Carry) (j : Nat) (v : Word) : Carry :=
  { y with
    values := kput y.values j (match kget y.values j with
      | some u => sumAdd fmt u v
      | none => sumRound fmt v)
    landed := y.landed + 1 }

/-- Elements of a step reach a piece that the step folded, or a carry of an earlier step (R375). `first` is the place of the
first value within the piece. -/
def landLate (slot k c i first step : Nat) (x : CollRec) (r : Route) (vs : List Word) (s : State) : State :=
  let t := (slotOf s slot).train
  let p := pieceKey k c i
  let limit := stalenessLimit s slot r x
  if t.step < step then s
  else if step = t.step then
    modColl slot (fun q => { q with late := kput q.late p (vs.zipIdx.foldl (fun m e => kput m (first + e.2) e.1) (kgetD [] q.late p)) }) s
  else if limit < t.step - step then count 0x511C slot 1 s
  else if limit = 0 then s
  else modColl slot (fun q => { q with carries := kmod q.carries p (fun y =>
    if y.spent || y.folded ≤ y.landed then y else vs.zipIdx.foldl (fun y e => addLate x.sum y (first + e.2) e.1) y) }) s

def execLateTileLand (slot record chunk ring first step : Nat) (values : Bytes) (s : State) : Outcome :=
  match (routeOf s slot).bind (fun r => (r.collectives[record]?).map (fun x => (r, x))) with
  | none => done s
  | some (r, x) =>
    let vs := ringWords x.sum values
    let present := kgetD 0 (collOf s slot).decided (pieceKey record chunk ring)
    if x.group ≤ chunk ∨ x.rings ≤ ring ∨ x.op = 3 ∨ x.piece < first + vs.length ∨
        (step = (slotOf s slot).train.step ∧ present ≠ 2 ∧ present ≠ 4) then done s
    else done (landLate slot record chunk ring first step x r vs s)

/-- What a commit does to the carries of a slot (R375). -/
def commitCarries (slot : Nat) (r : Route) (s : State) : State :=
  let step := (slotOf s slot).train.step
  let q := collOf s slot
  let kept := q.carries.filter (fun e => !e.2.spent)
  let folded := q.decided.filter (fun e => e.2 == 2 || e.2 == 4)
  let carries := folded.foldl (fun m e =>
    match r.collectives[e.1 / 2 ^ 24]? with
    | none => m
    | some x =>
      if stalenessLimit s slot r x = 0 then m
      else
        let y : Carry := kgetD ⟨step, [], 0, 0, false⟩ m e.1
        let y := { y with folded := y.folded + x.piece }
        kput m e.1 ((kgetD [] q.late e.1).foldl (fun y v => addLate x.sum y v.1 v.2) y)) kept
  modColl slot (fun _ => { Coll.none with carries := carries }) s

/-! Contributions (R349, R353). -/

/-- The values of a tile's valid extent, row by row. -/
def tileValues (s : State) (slot : Nat) (h payload : Bytes) : List Word :=
  let f := formatFor s slot (hdrFormat h % 32)
  (rowsOf f (hdrValidRows h) (hdrCols h) payload).flatMap (fun row => (row.take (hdrValidCols h)).map toF32)

/-- One element of a contribution of the present step: staged, or late where its piece has been folded. -/
def stageElement (slot k : Nat) (x : CollRec) (e : Nat) (v : Word) (s : State) : State :=
  if x.elements ≤ e then s
  else
    let ci := x.pieceOf e
    let p := pieceKey k ci.1 ci.2
    let d := kgetD 0 (collOf s slot).decided p
    if d = 0 then modColl slot (fun q => { q with staged := kput q.staged (elementKey k e) v }) s
    else if d = 2 ∨ d = 4 then
      modColl slot (fun q => { q with late := kput q.late p (kput (kgetD [] q.late p) (e - x.base ci.1 ci.2) v) }) s
    else s

/-- A contribution tile: tile index t holds the tensor's elements from 16,384 t on; a tile of an earlier step is late (R375), and one
of a voided attempt of the present step is discarded (R124). -/
def contribute (slot k : Nat) (r : Route) (x : CollRec) (e : Entry) (s : State) : State :=
  let t := (slotOf s slot).train
  let age := (t.step % 65536 + 65536 - hdrStep e.header) % 65536
  let first := tagIndex e.tag * 16384
  let vs := tileValues s slot e.header e.payload
  if age = 0 then
    if hdrAttempt e.header ≠ t.attempt % 16 then s
    else vs.zipIdx.foldl (fun s v => stageElement slot k x (first + v.2) v.1 s) s
  else if stalenessLimit s slot r x < age ∨ t.step < age then count 0x511C slot 1 s
  else vs.zipIdx.foldl (fun s v =>
    let ci := x.pieceOf (first + v.2)
    if x.elements ≤ first + v.2 then s
    else landLate slot k ci.1 ci.2 (first + v.2 - x.base ci.1 ci.2) (t.step - age) x r [v.1] s) s

/-- An exchange-contribute operation: its Program field names the collective record (assumption log 20). -/
def execExchangeContribute (slot station op : Nat) (tag : Word) (s : State) : Outcome :=
  done (fireKind 6 slot station op tag (fun r _ o es s =>
    match r.collectives[o.program]? with
    | some x => finishFlight slot station op tag [] (es.foldl (fun s e => contribute slot o.program r x e s) s)
    | none => s) s)

end Sys2Proof.Machine
end

