-- ==== Sys2Proof/Machine/Sharing.lean ====
section
/-! DEFINITION. Clients and sharing: admission (R412-R414), residence and start (R140, R369, R379, R415, R417), release (R416), and which
slot holds an array (R371, R418-R420). -/

namespace Sys2Proof.Machine

/-! Admission requests (R412). -/

def admHandle (b : Bytes) : Nat := field b 0 4
def admPage (b : Bytes) : Nat := field b 4 4
def admLength (b : Bytes) : Nat := field b 8 4
def admSlot (b : Bytes) : Nat := field b 12 1
def admQueue (b : Bytes) : Bool := bit (field b 13 1) 0
def admDigest (b : Bytes) : Bytes := slice b 16 32

/-- Slots that a client holds, loading ones among them. -/
def slotsHeld (s : State) (client : Nat) : List Nat := slotNumbers.filter (fun k => (slotOf s k).state != 0 && (slotOf s k).owner == client)

/-- A request fits a slot. -/
def wantsSlot (b : Bytes) (slot : Nat) : Bool := admSlot b == slot || admSlot b == 0xFF

/-- The queued requests in the order of R414: by priority, then by acceptance, then by client. -/
def admissionQueue (s : State) : List (Nat × Admission) :=
  let key (e : Nat × Admission) : Nat := (setting s 0x2A02 e.1 * 2 ^ 64 + e.2.beat) * 64 + e.1
  let rec insert (e : Nat × Admission) : List (Nat × Admission) → List (Nat × Admission)
    | [] => [e]
    | x :: r => if key e < key x then e :: x :: r else x :: insert e r
  (s.admissions.filter (fun e => e.2.state == 1)).foldl (fun l e => insert e l) []

/-- A request begins to load into a slot: its image is to be copied and checked (R415). -/
def startLoad (client slot : Nat) (s : State) : State :=
  setAdmission client { admissionOf s client with state := 2, slot := slot }
    (setSlot slot { Slot.free with state := 1, owner := client } s)

/-- A request is refused: its status, EVT_ADMIT_REFUSED and the counter (R415). -/
def refuse (client slot status : Nat) (s : State) : State :=
  event evtAdmitRefused ⟨slot, client, 0xFFFF⟩ (le 1 status)
    (count 0x5807 client 1 (setAdmission client { admissionOf s client with state := 4, refusal := status } s))

/-- The rule `give` (R414): a free slot goes to the first queued request that may take it. -/
def giveSlot (slot : Nat) (s : State) : State :=
  if (slotOf s slot).state ≠ 0 ∨ 4 ≤ slot then s
  else match (admissionQueue s).find? (fun e => wantsSlot e.2.request slot) with
    | some e => startLoad e.1 slot s
    | none => s

def execSlotGive (slot : Nat) (s : State) : Outcome := done (giveSlot slot s)

/-- The free slots that a new request may take at once: no queued request could take them (R413). -/
def openSlots (s : State) (b : Bytes) : List Nat :=
  slotNumbers.filter (fun k => (slotOf s k).state == 0 && wantsSlot b k && !(admissionQueue s).any (fun e => wantsSlot e.2.request k))

/-- The write of b + 1.00 (R413). -/
def admitEffect (client : Nat) (b : Bytes) (s : State) : Effect :=
  let a := admissionOf s client
  let good := (cargoOf s (admHandle b)).any (fun e => e.2.client == client)
  checked [(a.state == 1 || a.state == 2, stBusy),
      (admLength b == 0 || (decide (4 ≤ admSlot b) && admSlot b != 0xFF) || decide (1 < field b 13 1) || !zeroAt b 14 2 ||
        !zeroAt b 48 16 || !good, stRange),
      (setting s 0x2A03 client ≤ (slotsHeld s client).length, stCapacity)] s (fun s =>
    let s := modAdmission client (fun a => { a with request := b, beat := s.beat.count }) s
    match openSlots s b with
    | k :: _ => startLoad client k s
    | [] => if admQueue b then setAdmission client { admissionOf s client with state := 1 } s else refuse client 0xFF stCapacity s)

/-- The write of b + 6.00 (R414). -/
def cancelEffect (client : Nat) (s : State) : Effect :=
  checked [((admissionOf s client).state != 1, stState)] s
    (fun s => setAdmission client { admissionOf s client with state := 0 } s)

/-- b + 4.00. -/
def queuePosition (s : State) (client : Nat) : Nat :=
  ((firstIndex (fun (e : Nat × Admission) => e.1 == client) (admissionQueue s)).map (· + 1)).getD 0

/-! Release (R416). -/

/-- A staged takeover list names the slot. -/
def takeoverNames (s : State) (slot : Nat) : Bool :=
  ((staged s 0x2984 0).elim [] (records 16)).any (fun e => field e 4 1 == slot)

/-- An enabled flow names a Port station of the route. -/
def flowNames (s : State) (slot : Nat) : Bool :=
  (List.range 64).any (fun f => setting s 0x2F40 f != 0 && setting s 0x2F47 f / 2 ^ 14 == slot &&
    ((routeOf s slot).any (fun r => r.plan.ports.any (fun p => field p 0 2 == setting s 0x2F47 f % 4096))))

/-- The write of b + 5.00. -/
def releaseEffect (client slot : Nat) (s : State) : Effect :=
  checked [(decide (4 ≤ slot), stRange),
      ((slotOf s slot).state != 2 || (slotOf s slot).owner != client || flowNames s slot || takeoverNames s slot, stState)] s
    (modSlot slot (fun x => { x with state := 3 }))

/-- The refresh fails (R443): the banks stay and the list is cleared. -/
def failRefresh (s : State) : State :=
  if s.refresh.state = 1 ∨ s.refresh.state = 2 ∨ s.refresh.state = 3 then
    event evtRefreshFail nowhere [] { s with refresh := { s.refresh with state := 4, entries := [], swapDue := false } }
  else s

/-- Everything that a route holds on the module is freed; its cargoes stay (R416). -/
def freeSlot (slot : Nat) (s : State) : State :=
  let s := discardStep slot { s with slots := kmod s.slots slot (fun x => { x with state := 2 }) }
  let training := ((slotOf s slot).route.any (·.training))
  let s := if training && s.refresh.entries.any (fun e => field e 1 1 == slot) then failRefresh s else s
  let s := { s with
    arrays := kmap (fun a x => { x with
      acm := x.acm.filter (fun e => e.1 / 4096 / 128 != slot)
      stale := (List.range 128).foldl (fun m b => if (x.acm.any (fun e => e.1 / 4096 == slot * 128 + b)) then kput m (slot * 128 + b) (drawn s) else m) x.stale
      regs := if (residents s).any (fun e => e.1 != slot && e.2.programs.any (fun p => e.2.arrayOf p.station == a)) then x.regs else [] }) s.arrays
    fresh := s.fresh + 1
    engines := kmap (fun _ e => { e with pairs := e.pairs.filter (fun p => p.2.slot != slot) }) s.engines
    mem := { s.mem with copies := s.mem.copies.filter (fun c => c.slot != slot), saggarHits := s.mem.saggarHits.filter (fun h => h.1 != slot) }
    colls := kdel s.colls slot, secures := kdel s.secures slot, serves := kdel s.serves slot
    ctr := { s.ctr with station := s.ctr.station.filter (fun e => e.1 / 64 / 4096 != slot)
                        stationCaptured := s.ctr.stationCaptured.filter (fun e => e.1 / 64 / 4096 != slot) } }
  let s := ((slotOf s slot).route.elim [] (fun r => r.streams.map (fun o => (r, o)))).foldl (fun s e => purgePath slot e.1 e.2 s) s
  let s := modFab (fun f => { f with
    delivered := f.delivered.filter (fun e => e.1 / 196608 != slot), failing := f.failing.filter (fun e => e.1 != slot)
    units := f.units.filter (fun u => u.2.slot != slot), stopped := f.stopped.filter (· != slot)
    badEntries := f.badEntries.filter (fun e => e.1 != slot), words := f.words.filter (fun w => w.1 != slot)
    holders := f.holders.filter (fun h => h.2 != slot), nextHolders := f.nextHolders.filter (fun h => h.2 != slot) }) s
  let changed := (slotOf s slot).train.state != 0
  let s := setSlot slot Slot.free s
  if changed then signal 0 (8 + slot) s else s

/-- The release takes effect at the close of the route's present beat (R416). -/
def execReleaseTakeEffect (slot : Nat) (s : State) : Outcome :=
  done (if (slotOf s slot).state = 3 ∧ ((slotOf s slot).beat.phase = 0 ∨ (slotOf s slot).beat.phase = 4) then
    let owner := (slotOf s slot).owner
    let s := freeSlot slot s
    let s := if (admissionOf s owner).state = 3 ∧ (admissionOf s owner).slot = slot then
        setAdmission owner { admissionOf s owner with state := 0 } s else s
    event evtRelease ⟨slot, owner, 0xFFFF⟩ [] (count 0x5808 owner 1 s)
  else s)

/-! Residence and start. -/

/-- 2985.00 and 2986.00: the spare stands ready for the device of a fabric route it holds and does not start (R379). -/
def spareReadyFor (s : State) : Option (Nat × Nat) :=
  ((residents s).find? (fun e => e.2.fabric && setting s 0x2983 0 == 1 && cutDevice e.2 != deviceNumber s)).map (fun e => (e.1, cutDevice e.2))

/-- The route starts: its counters run from the next beat that opens (R140). -/
def startRoute (slot : Nat) (r : Route) (s : State) : State :=
  let s := modSlot slot (fun x => { x with started := true }) s
  if r.training then setTrainState slot 1 s else s

/-- What a route finds on the module as it becomes resident: its streams at full credit (R128), its steering and merge units empty
(R132), its buffer pairs with both halves free (R299, R300). -/
def setUpRoute (slot : Nat) (r : Route) (s : State) : State :=
  let s := modSlot slot (fun x => { x with
    streams := r.streams.foldl (fun m o => kput m o.number { StreamState.fresh with credits := r.depthOf o }) [] }) s
  let s := r.units.foldl (fun s u => putUnit u.array (u.number + if u.merge then 8 else 0) ⟨slot, [], [], [], []⟩ s) s
  r.pairs.foldl (fun s e => modEngine e.1 (fun g => { g with
    pairs := kput g.pairs e.2.pair ⟨slot, e.2.base, e.2.half, e.2.station, e.2.input, 2, 0, (0, 0), (none, none)⟩ }) s) s

/-- A loaded route becomes resident at cycle 0 of the next beat of its period, which is a fabric beat for a local training route that shares
an array with a fabric route (R64); a local route starts with it (R415, R417, R45). -/
def execRouteResident (slot : Nat) (s : State) : Outcome :=
  let x := slotOf s slot
  match x.route with
  | none => done s
  | some r =>
    if x.state ≠ 1 ∨ ((r.fabric = true ∨ shared s r = true) ∧ s.clock ≠ s.beat.opened) then done s
    else
      let s := modSlot slot (fun x => { x with state := 2, train := { Training.none with
        solo := if r.training then r.plan.stepLength * effectivePeriod s slot r else 0 } }) (setUpRoute slot r s)
      let s := setAdmission x.owner { admissionOf s x.owner with state := 3, slot := slot } s
      let s := count 0x5806 x.owner 1 s
      done (if r.plan.isLocal then startRoute slot r s else s)

/-- Link stations' peers of a fabric route. -/
def startLinks (r : Route) : List Nat :=
  (r.streams.flatMap (fun o => if o.peer.isSome || o.fromPeer.isSome then o.links.take 1 else [])).foldl (fun l x => if l.contains x then l else l ++ [x]) []

/-- A start that the spec refuses: the status stands in b + 3.00 and the route does not run. -/
def startRefusal (s : State) (slot : Nat) (r : Route) : Nat :=
  let need := (securedPages s r).length
  firstStatus [(s.beat.state != 2 && s.beat.state != 3, stState),
    (need != 0 && keeperOf s != 0xFFFF && setting s 0x2902 0 * 16384 < need * 8, stCapacity),
    (r.linkTables.any (fun t => t.sides.any (fun b => s.net.diverged.contains b.toNat)), stDigest),
    (4 ≤ slot, stRange)]

/-- A fabric route starts: each Link station sends its identifier, slot and step length to its peer; without cross-module streams
the route runs at once (R140, R345, R369). A spare that stands ready does not start (R379). -/
def execRouteStart (slot : Nat) (s : State) : Outcome :=
  match routeOf s slot with
  | none => done s
  | some r =>
    if r.plan.isLocal ∨ (slotOf s slot).started = true ∨ (setting s 0x2983 0 = 1 ∧ cutDevice r ≠ deviceNumber s) then done s
    else
      let owner := (slotOf s slot).owner
      match startRefusal s slot r with
      | 0 =>
        let s := (startLinks r).foldl (fun s l => sendUp l 7 (r.plan.fabricId ++ le 1 slot ++ le 2 r.plan.stepLength) s) s
        done (if (startLinks r).all (fun l => (slotOf s slot).startPeers.contains l) then startRoute slot r s else s)
      | st => done (modAdmission owner (fun a => { a with refusal := st }) s)

/-- A peer's route-start frame: an identifier or step length that differs rejects the start with ST_DIGEST, another slot number with
ST_STATE (R140, R345, R369). -/
def execRouteStartFrame (link : Nat) (fabricId : Bytes) (slot stepLength : Nat) (s : State) : Outcome :=
  let mine := (residents s).filter (fun e => e.2.fabric && !(slotOf s e.1).started && (startLinks e.2).contains link)
  done (mine.foldl (fun s e =>
    let r := e.2
    let st := firstStatus [(decide (slot ≠ e.1), stState), (fabricId != r.plan.fabricId || stepLength != r.plan.stepLength, stDigest)]
    if st ≠ 0 then modAdmission (slotOf s e.1).owner (fun a => { a with refusal := st }) s
    else
      let s := modSlot e.1 (fun x => { x with startPeers := if x.startPeers.contains link then x.startPeers else x.startPeers ++ [link] }) s
      let refused := startRefusal s e.1 r != 0 || (setting s 0x2983 0 == 1 && cutDevice r != deviceNumber s)
      if refused = false ∧ (startLinks r).all (fun l => (slotOf s e.1).startPeers.contains l) then startRoute e.1 r s else s) s)

/-! Holding arrays (R371, R418). -/

/-- The step offset, or the beat of a serving route, that follows the present one. -/
def nextOffset (x : Slot) (r : Route) : Nat :=
  if r.training then (if r.plan.stepLength ≤ x.beat.offset + 1 then 0 else x.beat.offset + 1) else 0

/-- The beat plan marks the array idle at a step offset (R54, R65). -/
def markedIdle (r : Route) (a off : Nat) : Bool :=
  r.training && r.plan.idle.any (fun m => m.array == a && decide (m.first ≤ off) && decide (off < m.first + m.beats))

def hasStation (r : Route) (a : Nat) : Bool := r.stations.any (fun st => st.info.place == a || (decide (256 ≤ st.info.place) && st.info.proxy == a && st.info.kind == 3))

/-- A route wants the array at an offset (R418). -/
def wants (s : State) (e : Nat × Route) (a off : Nat) : Bool :=
  !cutFiller e.2 && hasStation e.2 a && !markedIdle e.2 a off &&
  (!e.2.training || (slotOf s e.1).train.state == 1)

/-- The rule `holder` for the beat that follows (R418), with `off` giving each slot's offset in it. -/
def holderRule (s : State) (a : Nat) (off : Nat → Route → Nat) (before : Option Nat) : Option Nat :=
  let want := (residents s).filter (fun e => wants s e a (off e.1 e.2))
  match want with
  | [] => ((residents s).find? (fun e => cutFiller e.2 && hasStation e.2 a && !markedIdle e.2 a (off e.1 e.2))).map (·.1)
  | _ =>
    if setting s 0x3A02 0 = 1 ∧ before.any (fun h => want.any (fun e => e.1 == h)) then before
    else
      let prio (e : Nat × Route) : Nat := setting s 0x2A02 (slotOf s e.1).owner
      let best := (want.map prio).foldl min 255
      let tied := want.filter (fun e => prio e == best)
      if before.any (fun h => tied.any (fun e => e.1 == h)) then before else tied.head?.map (·.1)

/-- Arrays on which a resident route has a station. -/
def usedArrays (s : State) : List Nat :=
  (List.range 256).filter (fun a => (residents s).any (fun e => hasStation e.2 a))

end Sys2Proof.Machine
end

