-- ==== Sys2Proof/Machine/Serving.lean ====
section
/-! DEFINITION. The deadline path: requests by BAR2 and by direct ports (R355, R356, R428-R431), entry (R432, R433), the cone (R434-R440),
retirement (R436), and the refresh of served weights (R442-R444). -/

namespace Sys2Proof.Machine

/-! Port records (R425). -/

def portPath (p : Bytes) : Nat := field p 2 1
def portPush (p : Bytes) : Bool := bit (field p 3 1) 2
def portAuto (p : Bytes) : Bool := bit (field p 3 1) 1
def portEarly (p : Bytes) : Bool := bit (field p 3 1) 0
def portFirst (p : Bytes) : Nat := field p 4 2
def portSlots (p : Bytes) : Nat := field p 6 2
def portEntries (p : Bytes) : Nat := field p 8 1
def portPrimary (p : Bytes) : Nat := field p 14 2
def portFallback (p : Bytes) : Nat := field p 16 2
def portDepth (p : Bytes) : Nat := field p 18 1
def portPushBase (p : Bytes) : Nat := field p 24 8

def inRing (p : Bytes) (i : Nat) : Bool := portFirst p ≤ i && decide (i < portFirst p + portSlots p)

/-- Counter k of the serving list, of the slot and of the Port station (R446, R451). -/
def countServe (slot station k n : Nat) (s : State) : State := countStation slot station (22 + k) n (count (0x5130 + k) slot n s)

/-- The Port record of a station of a slot. -/
def portOf (s : State) (slot station : Nat) : Option Bytes := (routeOf s slot).bind (fun r => portRecord r station)

/-- Egress allowance of a path (R435, 2B02). -/
def egressOf (s : State) (p : Bytes) : Nat :=
  if portPath p ≠ 0 then 170 else if portPush p then setting s 0x2B02 1 else setting s 0x2B02 0

/-! Requests. -/

def qSequence (h : Bytes) : Nat := field h 0 4
def qBudget (h : Bytes) : Nat := field h 4 4
def qLength (h : Bytes) : Nat := field h 8 2

/-- A request that R428 calls malformed, `room` bytes of payload having been received. -/
def malformed (h : Bytes) (room : Nat) : Bool :=
  h.length != 32 || !zeroAt h 10 2 || !zeroAt h 16 8 || !zeroAt h 28 4 || field h 24 4 != qSequence h || qBudget h == 0 ||
  decide (8160 < qLength h) || decide (room < qLength h)

/-- A result line (R437). -/
def resultLine (sequence word kind status elapsed : Nat) (answer : Bytes) : Bytes :=
  let a := answer.take 48
  le 4 sequence ++ le 1 1 ++ le 1 kind ++ le 1 status ++ le 1 a.length ++ le 4 elapsed ++ le 4 word ++ padTo 48 a

/-- The line stands in BAR2, is pushed to host memory in two writes, and its vector is signalled where the client asked for it; on
a direct port it is the payload of the result datagram (R437, R439, R469). -/
def deliverLine (slot line station port flow : Nat) (b : Bytes) (s : State) : State :=
  match portOf s slot station with
  | none => s
  | some p =>
    if portPath p ≠ 0 then
      let l := if portPath p = 1 then 62 else 63
      count 0x5519 l 1 (emit (.datagram l flow (le 2 port ++ b))
        (modServe slot (fun x => { x with released := if x.released.contains line then x.released else x.released ++ [line] }) s))
    else
      let s := modServe slot (fun x => { x with lines := kput x.lines line b }) s
      let s := if portPush p then
          let base := portPushBase p + (line - portFirst p) * 64
          let s := countServe slot station 12 1 s
          if 5 ≤ s.host.link then emit (.hostWrite base (b.take 8)) (emit (.hostWrite (base + 8) (b.drop 8)) s) else s
        else s
      let owner := (slotOf s slot).owner
      if s.host.releaseInts.contains owner ∧ hasFunction s owner = true then
        signal owner (if owner = 0 then 1024 + 256 * slot + line % 256 else 16 + 4 * slot + line % 4) s
      else s

def modQuery (slot line : Nat) (f : Query → Query) : State → State :=
  modServe slot (fun x => { x with requests := x.requests.map (fun q => if q.line = line then f q else q) })

def queryOf (s : State) (slot line : Nat) : Option Query := (serveOf s slot).requests.find? (fun q => q.line == line)

/-- An answer leaves: its line, and the counter of its kind (R435). -/
def answer (slot : Nat) (q : Query) (kind status elapsed counter : Nat) (bytes : Bytes) (s : State) : State :=
  let s := modQuery slot q.line (fun q => { q with decided := true }) s
  let s := if counter < 13 then countServe slot q.station counter 1 s else s
  deliverLine slot q.line q.station q.port q.flow (resultLine q.sequence q.word kind status elapsed bytes) s

/-- A request that never enters is answered at once and its slot is retired (R428, R433). -/
def answerAtOnce (slot : Nat) (q : Query) (status counter : Nat) (s : State) : State :=
  answer slot q 2 status (s.clock - q.arrival) counter [] (modQuery slot q.line (fun q => { q with phase := 2 }) s)

/-- The beat that opens at a cycle would close too late for the request's release point (R433). -/
def entersLate (s : State) (slot : Nat) (q : Query) (opening : Nat) : Bool :=
  (routeOf s slot).any (fun r => q.deadline ≤ q.egress + (opening + periodOf s r - 1))

/-- A slot is free once it has been released and retired (R440). -/
def lineFree (s : State) (slot line : Nat) : Bool :=
  match queryOf s slot line with
  | none => true
  | some q => q.phase == 2 && q.decided && (serveOf s slot).released.contains line

/-- A request has arrived whole: it waits for entry, or is answered at once (R428, R433, R440). -/
def admitQuery (slot line port flow : Nat) (p h payload : Bytes) (s : State) : State :=
  let station := field p 0 2
  let bad := malformed h payload.length
  let q : Query := {
    line := line, station := station, sequence := qSequence h, word := field h 12 4, payload := payload.take (qLength h)
    arrival := s.clock, deadline := s.clock + qBudget h, egress := egressOf s p, port := port, flow := flow, phase := 0, entry := 0
    primary := none, fallback := none, badPrimary := false, badFallback := false, decided := false, bank := 0 }
  let s := modServe slot (fun x => { x with
    requests := x.requests.filter (fun y => y.line != line) ++ [q], released := x.released.filter (· != line)
    lines := kmod x.lines line (fun b => overwrite b 4 [0]), taken := kput x.taken station line }) s
  let s := countServe slot station 0 1 s
  if bad then answerAtOnce slot q stRange 7 s
  else if entersLate s slot q ((slotOf s slot).beat.opened + (slotOf s slot).beat.length) then
    countServe slot station 4 1 (answerAtOnce slot q stLate 5 s)
  else s

/-- Lines of the same ring that are released once four later requests have been posted (R440). -/
def autoRelease (slot line : Nat) (p : Bytes) (s : State) : State :=
  if portAuto p = false then s
  else modServe slot (fun x =>
    let ring := (x.requests.map (·.line)).filter (fun i => i != line && inRing p i)
    let posts := ring.foldl (fun m i => kput m i (kgetD 0 m i + 1)) (kput x.posts line 0)
    { x with posts := posts
             released := ring.foldl (fun l i => if 4 ≤ kgetD 0 posts i ∧ l.contains i = false then l ++ [i] else l) x.released }) s

/-- The release register (R440). -/
def releaseLine (slot : Nat) (value : BitVec 64) (s : State) : State :=
  let line := bits value.toNat 43 32
  let seq := value.toNat % 2 ^ 32
  let b := kgetD [] (serveOf s slot).lines line
  if field b 4 1 = 1 ∧ field b 0 4 = seq then
    modServe slot (fun x => { x with released := if x.released.contains line then x.released else x.released ++ [line] }) s
  else
    match (routeOf s slot).bind (fun r => r.plan.ports.find? (fun p => inRing p line)) with
    | some p => countServe slot (field p 0 2) 10 1 s
    | none => count 0x513A slot 1 s

/-- The region answers only the function of the slot's owner, and only while its function exists (R429). -/
def regionOpen (s : State) (client slot : Nat) : Bool :=
  slot < 4 && (slotOf s slot).state != 0 && (slotOf s slot).state != 1 && (slotOf s slot).owner == client && hasFunction s client && alive s

def execResultReleaseWrite (client slot : Nat) (value : BitVec 64) (s : State) : Outcome :=
  done (if regionOpen s client slot then releaseLine slot value s else s)

/-- A write into a serving region of BAR2. Bytes of a request slot are kept; the write that covers bytes 24 to 27 of a header posts
the request (R429, R430). -/
def execRequestPost (client slot offset : Nat) (data : Bytes) (s : State) : Outcome :=
  if regionOpen s client slot = false ∨ 0x2000000 ≤ offset ∨ data = [] then done s
  else
    let i := offset / 0x2000
    let s := modServe slot (fun x => { x with region := storeBytes x.region offset data }) s
    let posts := offset % 0x2000 ≤ 24 ∧ 28 ≤ offset % 0x2000 + data.length
    match routeOf s slot with
    | none => done s
    | some r =>
      if ¬ posts then done s
      else match r.plan.ports.find? (fun p => portPath p == 0 && inRing p i) with
        | none => done (count 0x5138 slot 1 s)
        | some p =>
          if lineFree s slot i = false then done (countServe slot (field p 0 2) 9 1 s)
          else
            let h := loadBytes (serveOf s slot).region (i * 0x2000) 32
            let payload := loadBytes (serveOf s slot).region (i * 0x2000 + 32) (min 8160 (qLength h))
            done (autoRelease slot i p (admitQuery slot i 0 0 p h payload s))

/-! Direct ports (R355, R356, R431). -/

/-- A prefix of an address. -/
def prefixOf (n : Nat) (a : Bytes) : Nat := beNat (padTo 16 a) / 2 ^ (128 - n)

/-- The datagram matches an enabled flow of its port (R356). -/
def flowMatches (s : State) (link f : Nat) (d : Datagram) : Bool :=
  setting s 0x2F40 f + 61 == link && d.dstAddr == inUse s 0x2F22 link && d.dstPort == setting s 0x2F41 f &&
  prefixOf (setting s 0x2F43 f) d.srcAddr == prefixOf (setting s 0x2F43 f) (inUse s 0x2F42 f) &&
  (setting s 0x2F44 f == 0 || setting s 0x2F44 f == d.srcPort) && (setting s 0x2F46 f == 0 || setting s 0x2F46 f == d.vlan)

/-- The port to which a result goes (R356). -/
def resultPort (s : State) (f src : Nat) : Nat := if setting s 0x2F44 f = 0 then src else setting s 0x2F44 f

/-- The next free slot of a ring, from the slot after the last one taken (R431). -/
def nextLine (s : State) (slot : Nat) (p : Bytes) : Option Nat :=
  let n := portSlots p
  let last := match kget (serveOf s slot).taken (field p 0 2) with
    | some l => l - portFirst p + 1
    | none => 0
  ((List.range n).map (fun k => portFirst p + (last + k) % n)).find? (fun i => lineFree s slot i)

/-- A received Ethernet frame (R355, R356). -/
def execDatagramReceive (link : Nat) (frame : Datagram) (s : State) : Outcome :=
  if (linkOf s link).state ≠ 5 ∨ (linkOf s link).port ≠ 2 ∨ alive s = false then done s
  else
    let s := count 0x5518 link 1 s
    if frame.fcsOk = false then done (count 0x551A link 1 s)
    else if frame.length < 64 ∨ 9018 < frame.length then done (count 0x551D link 1 s)
    else if frame.protoOk = false then done (count 0x551B link 1 s)
    else match (List.range 64).find? (fun f => flowMatches s link f frame) with
      | none => done (count 0x551C link 1 s)
      | some f =>
        let slot := setting s 0x2F47 f / 2 ^ 14
        match (routeOf s slot).bind (fun r => if r.training then none else portRecord r (setting s 0x2F47 f % 4096)) with
        | none => done (count 0x551C link 1 s)
        | some p =>
          if portPath p + 61 ≠ link then done (count 0x551C link 1 s)
          else
            let h := frame.payload.take 32
            let port := resultPort s f frame.srcPort
            match nextLine s slot p with
            | some i => done (admitQuery slot i port f p h (frame.payload.drop 32) s)
            | none =>
              let s := countServe slot (field p 0 2) 6 1 (countServe slot (field p 0 2) 0 1 s)
              done (count 0x5519 link 1 (emit (.datagram link f (le 2 port ++
                resultLine (qSequence h) (field h 12 4) 2 stCapacity 0 [])) s))

/-! Entry (R432, R433). -/

/-- Requests of one Port station enter at cycle 0 of a beat, in order of arrival, late ones answered at once. -/
def enterStation (slot opening : Nat) (p : Bytes) (s : State) : State :=
  let station := field p 0 2
  let waiting := (serveOf s slot).requests.filter (fun q => q.phase == 0 && q.station == station && decide (q.arrival < opening))
  let late := waiting.filter (fun q => entersLate s slot q opening)
  let s := late.foldl (fun s q => countServe slot station 4 1 (answerAtOnce slot q stLate 5 s)) s
  let go := (waiting.filter (fun q => !entersLate s slot q opening)).take (portEntries p)
  let beat := (slotOf s slot).beat.count
  let bank := (serveOf s slot).bank
  go.foldl (fun s q => countServe slot station 1 1 (modQuery slot q.line (fun q => { q with phase := 1, entry := beat, bank := bank }) s)) s

def enterRequests (slot opening : Nat) (r : Route) (s : State) : State :=
  r.plan.ports.foldl (fun s p => enterStation slot opening p s) s

/-! The cone (R434, R435). -/

/-- The close at which an answer is ready, if it is. -/
def readyAt (bad : Bool) (a : Option (Bytes × Option Nat)) : Option (Nat × Bytes) :=
  if bad then none else a.bind (fun e => e.2.map (fun k => (k, e.1)))

/-- What the cone sends for a request, and in which cycle: kind, status, cycle, counter and answer. -/
def coneRule (s : State) (slot : Nat) (q : Query) (early : Bool) : Nat × Nat × Nat × Nat × Bytes :=
  let rp := q.deadline - q.egress
  let c := ((serveOf s slot).closes.filter (fun k => decide (k < rp))).foldl max 0
  let primary := (readyAt q.badPrimary q.primary).filter (fun e => decide (e.1 ≤ c))
  let fallback := (readyAt q.badFallback q.fallback).filter (fun e => decide (e.1 ≤ c))
  match primary, fallback with
  | some (k, b), _ => if early then (0, stOk, k + 1, 2, b) else (0, stOk, rp, 2, b)
  | none, some (_, b) => (1, stOk, rp, 3, b)
  | none, none => (2, stNotReady, q.deadline, 4, [])

/-- The cone decides on a request, once its cycle has come (R435). -/
def execConeRelease (slot request : Nat) (s : State) : Outcome :=
  match queryOf s slot request with
  | none => done s
  | some q =>
    match portOf s slot q.station with
    | none => done s
    | some p =>
      let d := coneRule s slot q (portEarly p)
      if q.decided ∨ q.phase = 0 ∨ s.clock < d.2.2.1 then done s
      else done (answer slot q d.1 d.2.1 (d.2.2.1 - q.arrival) d.2.2.2.1 d.2.2.2.2 s)

/-! Closes of a serving beat (R62, R434, R436). -/

/-- At the report cutoff: answers staged by now will be ready at this beat's close. -/
def cutoffAnswers (slot verdict : Nat) : State → State :=
  let mark (a : Option (Bytes × Option Nat)) : Option (Bytes × Option Nat) := a.map (fun e => match e.2 with
    | none => (e.1, some verdict)
    | some k => (e.1, some k))
  modServe slot (fun x => { x with requests := x.requests.map (fun q =>
    if q.phase = 1 then { q with primary := mark q.primary, fallback := mark q.fallback } else q) })

/-- Beats since a request's entry. -/
def ageOf (s : State) (slot : Nat) (q : Query) : Nat := (slotOf s slot).beat.count - q.entry

/-- A fault in the beat, or a buffer that a substitution has emptied and that is not reloaded yet, marks the primary answers of the requests
due in it as not ready (R62, R116); an answer that an overrun left incomplete is not ready (R434). -/
def markNotReady (slot : Nat) (fault : Bool) (r : Route) (s : State) : State :=
  modServe slot (fun x => { x with requests := x.requests.map (fun q =>
    match portRecord r q.station with
    | none => q
    | some p =>
      if q.phase ≠ 1 then q
      else
        let age := ageOf s slot q
        { q with
          badPrimary := q.badPrimary || (age + 1 == portDepth p && (fault || x.reloading != [] || (readyAt false q.primary).isNone))
          badFallback := q.badFallback || (age == 0 && (readyAt false q.fallback).isNone) }) }) s

/-- What a station holds of a retired request leaves it: entries and items give their room back, operations in flight their credit (R128,
R436). -/
def cancelStation (slot : Nat) (r : Route) (mine : Word → Bool) (n : Nat) (s : State) : State :=
  let y := stationOf s slot n
  let entries := y.queues.flatMap (fun e => (e.2.filter (fun x => mine x.tag)).map (fun x => (e.1, x)))
  let items := y.scalars.flatMap (fun e => (e.2.filter (fun i => mine (itemTag i))).map (fun _ => e.1))
  let s := modStation slot n (fun x => { x with
    queues := kmap (fun _ es => es.filter (fun e => !mine e.tag)) x.queues
    scalars := kmap (fun _ es => es.filter (fun i => !mine (itemTag i))) x.scalars
    refill := x.refill.filter (fun e => !mine e.2)
    fired := x.fired.filter (fun e => !mine e.2), completed := x.completed.filter (fun e => !mine e.2)
    skipped := x.skipped.filter (fun e => !mine e.2), failed := x.failed.filter (fun t => !mine t)
    results := x.results.filter (fun e => !mine (BitVec.ofNat 32 e.1)) }) s
  let s := entries.foldl (fun s e => entryCredit slot r n e.1 e.2 (lateDiscard slot n r e.2.tag s)) s
  let s := items.foldl (fun s q => queueCredit slot r n q s) s
  (y.flight.filter (fun f => mine f.tag)).foldl (fun s f => leaveFlight slot n f.op f.tag s) s

/-- The Wheel and the Glaze unit of an array give up the operations of a retired request. -/
def cancelArray (slot : Nat) (mine : Word → Bool) (a : Nat) (s : State) : State :=
  let x := arrayOf s a
  let s := (x.mmos.filter (fun m => m.2.slot == slot && mine m.2.tag)).foldl (fun s m => abandonMmo a m.1 s) s
  (x.threads.filter (fun t => t.2.slot == slot && mine t.2.tag)).foldl (fun s t => startProgram slot t.2.station (dropThread a t.1 s)) s

/-- A unit's tokens and tiles of a retired request leave it; the tiles' credit returns. -/
def cancelUnit (slot : Nat) (mine : Word → Bool) (k : Nat) (u : UnitState) (s : State) : State :=
  let hit (t : Tile) : Bool := mine (hdrTag t.header)
  let inputs := u.data.flatMap (fun e => (e.2.filter hit).map (fun _ => e.1)) ++
    (u.paired.filter (fun p => hit p.2)).map (fun p => if k % 16 < 8 then 0 else p.1)
  let s := putUnit (k / 16) (k % 16) { u with
    tokens := u.tokens.filter (fun t => !mine t.tag), data := kmap (fun _ ts => ts.filter (fun t => !hit t)) u.data
    paired := u.paired.filter (fun p => !hit p.2) } s
  inputs.foldl (fun s i => match unitStream s slot (k / 16) (k % 16) i with | some o => returnCredit slot o s | none => s) s

/-- Everything of a retired request leaves the route: operations in flight, queued entries, tags (R436). -/
def cancelLine (slot line : Nat) (r : Route) (s : State) : State :=
  let mine (t : Word) : Bool := tagPass t == 4 && tagMicro t == line
  let s := r.stations.foldl (fun s st => cancelStation slot r mine st.info.number s) (cancelMoves slot mine s)
  let s := modSlot slot (fun x => { x with stations := kmap (fun _ y => { y with bounds := y.bounds.filter (fun e => e.1 % 4096 != line) }) x.stations }) s
  let s := s.arrays.foldl (fun s e => cancelArray slot mine e.1 s) s
  (s.fab.units.filter (fun e => e.2.slot == slot)).foldl (fun s e => cancelUnit slot mine e.1 e.2 s) s

/-- Requests whose primary answer was due in the beat are retired at its close (R436). -/
def retireRequests (slot : Nat) (r : Route) (s : State) : State :=
  let ended := (serveOf s slot).requests.filter (fun q => q.phase == 1 &&
    ((portRecord r q.station).any (fun p => portDepth p ≤ ageOf s slot q + 1)))
  ended.foldl (fun s q => cancelLine slot q.line r (modQuery slot q.line (fun q => { q with phase := 2 }) s)) s

/-! Refresh (R442-R444). -/

def refTraining (e : Bytes) : Nat := field e 1 1
def refServing (e : Bytes) : Nat := field e 0 1
def refSource (e : Bytes) : Nat := field e 4 4
def refFirst (e : Bytes) : Nat := field e 8 4
def refPages (e : Bytes) : Nat := field e 12 4
def refBank (e : Bytes) (k : Nat) : Nat := field e (16 + 4 * k) 4

/-- Every page of every entry is copied and clean. -/
def refreshReady (x : Refresh) : Bool :=
  x.entries.zipIdx.all (fun e => (kgetD [] x.copied e.2).length == refPages e.1)

/-- What the close of a staging set with a refresh list asks of the routes (R442). -/
def refreshListOk (s : State) (v : Bytes) : Bool :=
  let es := records 32 v
  let bankOk (r : Route) (h pages : Nat) : Bool :=
    r.manifest.any (fun m => m.handle == h) &&
    (cargoOf s h).any (fun c => c.2.tier == 0 && c.2.lateAction == 0 && decide (pages ≤ c.2.pageCount))
  let size (h : Nat) : Nat := ((cargoOf s h).map (fun c => c.2.pageCount)).getD 0
  es.all (fun e =>
    (routeOf s (refServing e)).any (fun r => !r.training && bankOk r (refBank e 0) (refPages e) && bankOk r (refBank e 1) (refPages e)) &&
    (routeOf s (refTraining e)).any (·.training) && size (refBank e 0) == size (refBank e 1) &&
    decide (refFirst e + refPages e ≤ size (refSource e))) &&
  distinct (es.flatMap (fun e => [refBank e 0, refBank e 1]))

/-- The closed refresh list waits for the training route's next commit (R443). -/
def armRefresh (v : Bytes) (s : State) : State :=
  if records 32 v = [] then s
  else
    let s := (records 32 v).foldl (fun s e => modServe (refServing e) (fun x =>
      { x with banks := (refBank e 0, refBank e 1) :: x.banks.filter (fun b => b.1 != refBank e 0) }) s) s
    { s with refresh := ⟨1, records 32 v, [], [], [], false, false⟩ }

/-- The commit of a training route starts the copies that follow it; pages whose source has changed are copied again, and too many
passes fail the refresh (R443). -/
def refreshCommit (slot step : Nat) (s : State) : State :=
  let x := s.refresh
  if x.state = 0 ∨ x.state = 4 ∨ x.entries.any (fun e => refTraining e == slot) = false then s
  else
    let stale (e : Bytes) (k : Nat) : List Nat :=
      ((kgetD [] x.copied k).filter (fun p => generationOf s (refSource e % 65536) (refFirst e + p.1) != p.2)).map (·.1)
    let mine := x.entries.zipIdx.filter (fun e => refTraining e.1 == slot)
    let res := mine.foldl (fun (y : Refresh × Nat) e =>
      let bad := stale e.1 e.2
      let y' : Refresh := { y.1 with
        steps := if bad.isEmpty ∧ (kgetD [] y.1.copied e.2).length = refPages e.1 ∧ (kget y.1.steps e.2).isSome then y.1.steps else kput y.1.steps e.2 step
        copied := kput y.1.copied e.2 ((kgetD [] y.1.copied e.2).filter (fun p => !bad.contains p.1))
        passes := if bad.isEmpty then y.1.passes else kput y.1.passes e.2 (kgetD 0 y.1.passes e.2 + 1) }
      (y', if bad.isEmpty then y.2 else y.2 + 1)) (x, 0)
    let s' := { s with refresh := { res.1 with state := if refreshReady res.1 then 3 else 2 } }
    let s' := if res.2 = 0 then s' else count 0x513E (refServing (x.entries.headD [])) res.2 s'
    if res.1.passes.any (fun p => setting s 0x3B02 0 < p.2) then failRefresh s' else s'

/-- The pages of an entry that are not copied yet go into the bank not in force, once no request still reads it (R443). -/
def execRefreshCopy (entry : Nat) (s : State) : Outcome :=
  done (match s.refresh.entries[entry]? with
    | none => s
    | some e =>
      let v := serveOf s (refServing e)
      let idle := 1 - v.bank
      if s.refresh.state ≠ 2 ∨ (kget s.refresh.steps entry).isNone = true ∨
          v.requests.any (fun q => q.phase == 1 && q.bank == idle) = true ∨ alive s = false then s
      else
        let src := refSource e % 65536
        let dst := refBank e idle % 65536
        let sofar := kgetD [] s.refresh.copied entry
        let todo := (List.range (refPages e)).filter (fun p => (kget sofar p).isNone && !s.mem.openPages.contains (src, refFirst e + p))
        let s := todo.foldl (fun s p =>
          let b := cargoBytes s src ((refFirst e + p) * pageBytes) pageBytes
          raiseGeneration dst p (writeData dst (p * pageBytes) b s)) s
        let copied := todo.foldl (fun m p => kput m p (generationOf s src (refFirst e + p))) sofar
        let x : Refresh := { s.refresh with copied := kput s.refresh.copied entry copied }
        { s with refresh := { x with state := if refreshReady x then 3 else 2 } })

/-- Values by entry, for the entries that are left. -/
def keepEntries {α : Type} (left : List Nat) (m : KMap α) : KMap α :=
  left.zipIdx.foldl (fun o e => match kget m e.1 with | some v => kput o e.2 v | none => o) []

/-- The refresh without the entries of a serving slot. -/
def Refresh.without (x : Refresh) (slot : Nat) : Refresh :=
  let rest := x.entries.zipIdx.filter (fun e => refServing e.1 != slot)
  if rest.isEmpty then ⟨0, [], [], [], [], false, false⟩
  else
    let left := rest.map (·.2)
    { x with entries := rest.map (·.1), copied := keepEntries left x.copied, passes := keepEntries left x.passes, steps := keepEntries left x.steps }

/-- The banks of a serving route swap at its first beat from the commit beat on at which every copy is complete; the requests that enter in
that beat read the new one (R444). -/
def execBankSwap (slot : Nat) (s : State) : Outcome :=
  let x := s.refresh
  let b := (slotOf s slot).beat
  done (if x.swapDue = false ∨ x.entries.any (fun e => refServing e == slot) = false ∨ b.phase ≠ 1 ∨ s.clock ≠ b.opened then s
  else if x.state ≠ 3 then
    if x.late then s else event evtRefreshLate (atSlot slot) [] { s with refresh := { x with late := true } }
  else
    let step := ((x.entries.zipIdx.find? (fun e => refServing e.1 == slot)).map (fun e => kgetD 0 x.steps e.2)).getD 0
    let s := modServe slot (fun v => { v with
      bank := 1 - v.bank, bankStep := step
      requests := v.requests.map (fun q => if q.phase = 1 ∧ q.entry = b.count then { q with bank := 1 - v.bank } else q) }) s
    let s := { s with refresh := x.without slot }
    event evtRefreshDone (atSlot slot) (le 6 step) (count 0x513D slot 1 s))

end Sys2Proof.Machine
end

