-- ==== Sys2Proof/Machine/Beats.lean ====
section
/-! DEFINITION. The fabric timer (R47-R51), the governor (R63, R64), the mark tree's frames (R345, R346) and how a module takes the void
notices that they carry (R61, R232). -/

namespace Sys2Proof.Machine

/-- The effective period of the fabric beat (R63). -/
def fabricPeriod (s : State) : Nat := min (setting s 0x1101 0 + s.beat.governed) (setting s 0x1108 0)

/-- A period that changes at cycle 0 of a beat holds for the fabric beat that has just opened and for the beats that opened with it. -/
def rePace (before s : State) : State :=
  if s.clock ≠ s.beat.opened then s
  else
    let s := modBeat (fun b => { b with length := ((b.length : Int) + fabricPeriod s - fabricPeriod before).toNat }) s
    (residents s).foldl (fun s e =>
      if (slotOf s e.1).beat.phase = 1 ∧ (slotOf s e.1).beat.opened = s.clock then
        let p := effectivePeriod s e.1 e.2
        modSlotBeat e.1 (fun b => { b with period := p, length := ((b.length : Int) + p - effectivePeriod before e.1 e.2).toNat }) s
      else s) s

/-- The beat count in which the beats of a route are numbered (R45). -/
def routeCount (s : State) (slot : Nat) (r : Route) : Nat := if r.plan.isLocal then (slotOf s slot).beat.count else s.beat.count

/-! The mark tree. The upstream links are 110C.00 and 110C.01; every other link that is up counts as downstream (assumption
log 30). -/

def upstreamLink (s : State) : Nat := setting s 0x110C (if s.beat.alternate then 1 else 0)
def downstreamLinks (s : State) (except : Option Nat) : List Nat :=
  (List.range 64).filter (fun l => linkIsUp s l && except != some l && (s.beat.state == 3 || l != upstreamLink s))

def noticeBytes (n : VoidNotice) : Bytes := le 6 n.step ++ le 1 n.slot ++ le 1 (n.attempt % 16) ++ le 2 n.device ++ zeroBytes 6
def noticeOf (b : Bytes) : VoidNotice := ⟨field b 0 6, field b 6 1, field b 7 1 % 16, field b 8 2⟩

/-- The payload of a beat mark (R346). -/
def markPayload (count device elapsed add start term : Nat) (ns : List VoidNotice) : Bytes :=
  le 8 count ++ le 2 device ++ le 4 elapsed ++ le 4 add ++ le 8 start ++ le 1 ns.length ++ le 1 0 ++ le 4 term ++ ns.flatMap noticeBytes

/-- The attempt number rises: the step will be replayed, or the route halts where its attempts run out (R232, R233). -/
def raiseAttempt (slot : Nat) (s : State) : State :=
  let a := (slotOf s slot).train.attempt + 1
  let s := modTrain slot (fun t => { t with attempt := a, replayBeat := none }) s
  if routeSetting s slot 0x2302 ≤ a then haltRoute slot (event evtReplayLimit (atSlot slot) [] s)
  else count 0x5101 slot 1 (setTrainState slot 2 s)

/-- A void of the step is in force here: the mark that carried its notice fixes the beat of the replay, or comes too late for it
(R232). -/
def noteReplay (slot mark : Nat) (s : State) : State :=
  let v := mark + routeSetting s slot 0x3301
  let t := (slotOf s slot).train
  if s.beat.count ≤ v then modTrain slot (fun t => { t with replayBeat := some v }) s
  else raiseAttempt slot (sendNotice slot t.step t.attempt (count 0x5104 slot 1 (event evtReplayLate (atSlot slot) [] s)))

/-- The notice is about a step that the module has replayed, or replays, under a restore (R398). -/
def aboutReplay (s : State) (n : VoidNotice) : Bool :=
  let x := secureOf s n.slot
  x.checking.isSome && decide (x.restored < n.step) && decide (n.step < (slotOf s n.slot).train.step)

/-- A void notice reaches the module with a mark (R61): it voids the attempt that runs, or fixes the replay of one that is void, or the start of
the restore that the void brought about here (R398, R399). -/
def applyNotice (mark : Nat) (n : VoidNotice) (s : State) : State :=
  match routeOf s n.slot with
  | none => s
  | some r =>
    let t := (slotOf s n.slot).train
    if r.plan.isLocal ∨ r.training = false then s
    else if (secureOf s n.slot).restoring.any (fun q => q.notice == some (n.step, n.attempt)) then
      modSecure n.slot (fun x => { x with
        restoring := x.restoring.map (fun q => { q with start := mark + setting s 0x3906 0, notice := none }) }) s
    else if t.state = 1 ∧ aboutReplay s n = true then draw (pendVoid n.slot (mark + 1) (Config.freeNat (drawn s) % 65536) s)
    else if t.step % 2 ^ 48 ≠ n.step then s
    else if t.state = 1 ∧ t.attempt % 16 = n.attempt then
      draw (pendVoid n.slot (mark + 1) (Config.freeNat (drawn s) % 65536) s)
    else if t.state = 2 ∧ (t.attempt + 15) % 16 = n.attempt ∧ t.replayBeat = none ∧ (secureOf s n.slot).restoring = none then
      noteReplay n.slot mark s
    else s

/-- The addition announced last, with the beat from which it applies. -/
def lastAnnounced (b : Beat) : Nat × Nat := b.announced.getLastD (b.governed, 0)

/-- The master announces the largest addition requested by any module from the 64th beat on (R64). -/
def announceAddition (s : State) : State :=
  let want := (s.beat.asked.map (·.2)).foldl max s.beat.requested
  if want = (lastAnnounced s.beat).1 then s
  else modBeat (fun b => { b with announced := b.announced ++ [(want, b.count + 64)] }) s

/-- The master's mark leaves at cycle 0 with up to 13 notices (R48, R346). -/
def sendMark (s : State) : State :=
  let s := announceAddition s
  let ns := s.beat.notices.take 13
  let a := lastAnnounced s.beat
  let p := markPayload s.beat.count (deviceNumber s) 0 a.1 a.2 s.beat.term ns
  let s := (downstreamLinks s none).foldl (fun s l => sendUp l 0 p s) s
  let s := modBeat (fun b => { b with notices := b.notices.drop 13 }) s
  ns.foldl (fun s n => applyNotice s.beat.count n s) s

/-- What waits to go up the mark tree leaves at a beat close (R61, R64, R345). The spec lays out no up report: notices, each as in a
mark, then the largest addition requested (assumption log 30). -/
def sendUpReport (s : State) : State :=
  let b := s.beat
  if b.state = 3 ∨ (b.upNotices = [] ∧ b.upRequest = none) then s
  else
    let p := le 1 b.upNotices.length ++ b.upNotices.flatMap noticeBytes ++ le 4 (b.upRequest.getD 0)
    if linkIsUp s (upstreamLink s) then
      sendUp (upstreamLink s) 1 p (modBeat (fun b => { b with upNotices := [], upRequest := none }) s)
    else s

/-! The governor (R63). -/

def overLimit (s : State) : Bool :=
  flt (fnat (setting s 0x1304 0)) (f32 s.power.dieTemp) || flt (fnat (setting s 0x1305 0)) (f32 s.power.inputPower)

/-- Both quantities stand below their limits by the margins. -/
def underLimit (s : State) : Bool :=
  flt (f32 s.power.dieTemp) (fnat (setting s 0x1304 0 - setting s 0x1107 0)) &&
  flt (f32 s.power.inputPower) (fnat (setting s 0x1305 0 - setting s 0x1306 0))

/-- One request of the module: an addition, the counter of its direction. -/
def request (add counter : Nat) (s : State) : State :=
  count counter 0 1 (modBeat (fun b => { b with
    requested := add, lastRequest := some b.count, quiet := 0
    upRequest := if b.state = 3 then b.upRequest else some ((b.asked.map (·.2)).foldl max add) }) s)

/-- The effective periods that the module's additions lengthen: that of the fabric beat, unless only local training routes run here, and those
of local training routes (R63, R64). -/
def governedPeriods (s : State) : List Nat :=
  let own := ((residents s).filter (fun e => e.2.training && e.2.plan.isLocal)).map (fun e => effectivePeriod s e.1 e.2)
  if own = [] ∨ (residents s).any (fun e => e.2.fabric) then fabricPeriod s :: own else own

/-- A period holds at the ceiling (R63). -/
def atCeiling (s : State) (p : Nat) : Bool := setting s 0x1108 0 ≤ p

/-- EVT_GOVERNOR_CEILING, once in 1,024 beats. -/
def ceilingEvent (s : State) : State :=
  if s.beat.ceilingBeat.all (fun k => k + 1024 ≤ s.beat.count) then
    event evtGovernorCeiling nowhere [] (modBeat (fun b => { b with ceilingBeat := some b.count }) s)
  else s

/-- The governor at a close of the fabric beat (R63). The P that sizes a request is that of the fabric beat, also where only local training
routes run: DESIGN CHOICE, assumption log 22. -/
def govern (s : State) : State :=
  let b := s.beat
  let may := b.lastRequest.all (fun k => k + 1024 ≤ b.count)
  let step := ceilDiv (fabricPeriod s) 1024 * 64
  if overLimit s then
    let s := modBeat (fun b => { b with quiet := 0 }) s
    let s := if (governedPeriods s).any (atCeiling s) then ceilingEvent s else s
    if may && !(governedPeriods s).all (atCeiling s) then request (max b.governed b.requested + step) 0x5010 s else s
  else if underLimit s then
    if may && decide (16384 ≤ b.quiet + 1) && decide (0 < b.requested) then request (b.requested - step) 0x5011 s
    else modBeat (fun b => { b with quiet := b.quiet + 1 }) s
  else modBeat (fun b => { b with quiet := 0 }) s

/-! The opening of a fabric beat. -/

/-- The count of the beat that opens: one more, or the count adopted from a mark (R47, R51). -/
def nextCount (b : Beat) : Nat := max (b.adopt.getD 0) (b.count + 1) % 2 ^ 64

/-- A fabric route's beats were skipped: its step cannot close (R51). -/
def voidFabricSteps (s : State) : State :=
  (residents s).foldl (fun s e => if e.2.fabric && e.2.training then pendVoid e.1 0 evtBeatCountJump s else s) s

/-- The length of a beat takes up to 32 cycles of the measured offset (R49). -/
def correctionOf (b : Beat) : Int := max (-32) (min 32 b.correction)

/-- The sensors are read again: what they find comes from outside and is a free value (R330). -/
def senseAgain (s : State) : State :=
  let n := drawn s
  draw (modPower (fun p => { p with
    inputVolts := Config.measure n 0, inputPower := Config.measure n 1, dieTemp := Config.measure n 2 }) s)

/-- The value written to an object differs from the one in use. -/
def changes (s : State) (index sub : Nat) : Bool :=
  let k := objKey index sub
  kget s.dict.objs k != kget s.dict.inUse k && stored s index sub != inUse s index sub

/-- The hardware takes the values written since the last beat (R75): links and direct ports answer theirs (R354, R358), BAR4 its windows
(R465). -/
def takeValues (s : State) : State :=
  let links := (List.range 64).filter (changes s 0x2807)
  let ports := (List.range 64).filter (changes s 0x2F20)
  let s := modHost (fun h => { h with windows := h.windowsSet, releaseInts := h.releaseSet }) (modDict (fun d => { d with inUse := d.objs }) s)
  ports.foldl (fun s l => setPortMode l (setting s 0x2F20 l) s) (links.foldl (fun s l => enableLink l (setting s 0x2807 l) s) s)

/-- A part of a number of cycles as binary32, 0.0 to 1.0 (R164, R209). -/
def fraction (part whole : Nat) : Word := toF32 (fdiv (fnat (min part whole)) (fnat whole))

/-- Cycle 0 of a fabric beat. -/
def openFabric (s : State) : State :=
  let s := sendUpReport (govern s)
  let s := if s.beat.adopt.isSome then voidFabricSteps s else s
  let s := takeValues s
  let c := correctionOf s.beat
  let p := fabricPeriod s
  let closed := s.beat.length
  let s := modBeat (fun b => { b with
    before := b.count, count := nextCount b, adopt := none, opened := s.clock, length := ((p : Int) - c).toNat, correction := b.correction - c
    marks := if b.silent = 0 then b.marks else 0
    silent := b.silent + 1, silentBoth := b.silentBoth + 1, sinceReset := min 32 (b.sinceReset + 1)
    masterless := if b.state = 1 && !b.heard then b.masterless + 1 else 0 }) s
  let s := { s with arrays := kmap (fun k a => { a with
    wheelActive := 0, wheelFraction := fraction a.wheelActive closed
    pipeFraction := fraction (Config.pipeCycles s.beat.before k) (2 * closed) }) s.arrays }
  let s : State := s.admissions.foldl (fun s e => if e.2.state = 1 then count 0x5800 e.1 1 s else s) s
  let s : State := if s.beat.count % 4096 = 0 then
      (List.range 64).foldl (fun s l => sendUp l 4 (s.dict.digest ++ le 8 s.beat.count) s)
        (modNet (fun n => { n with digests := kput n.digests s.beat.count s.dict.digest }) s)
    else s
  let s := senseAgain s
  if s.beat.state = 3 then sendMark s else s

/-! Marks. -/

/-- A mark is accepted (R51). -/
def acceptsMark (s : State) (device term : Nat) : Bool :=
  let b := s.beat
  b.state == 0 || decide (b.term < term) ||
  (term == b.term && (b.sender == some device || (b.state == 3 && decide (device < deviceNumber s))))

/-- EVT_BEAT_STALE_MARK with the sender's device number, 2 bytes, and term, 4 bytes: the spec gives the detail no layout; DESIGN CHOICE,
assumption log 22. -/
def staleMark (device term : Nat) : State → State := event evtBeatStaleMark nowhere (le 2 device ++ le 4 term)

/-- The module follows the sender of an accepted mark (R47, R51). A master that gives way stops sending marks: what waits for them goes up
the tree, and its silence is counted from here. -/
def follow (device term : Nat) (s : State) : State :=
  modBeat (fun b =>
    let b := if b.state = 3 then { b with
        notices := [], upNotices := b.upNotices ++ b.notices, silent := 0, silentBoth := 0, switched := false
        upRequest := if b.requested = 0 ∧ b.asked = [] then b.upRequest else some ((b.asked.map (·.2)).foldl max b.requested) }
      else b
    { b with
      state := if b.state = 0 ∨ b.state = 3 then 1 else b.state, marks := if b.state = 0 ∨ b.state = 3 then 0 else b.marks
      term := term, sender := some device, heard := true, masterless := 0 }) s

/-- A mark's own fields are used: its count, its opening, its addition and its notices; it goes on down the tree with the latency
of its link added to the time elapsed (R346). EVT_BEAT_COUNT_JUMP gives the own count and the mark's, each cut to 6 bytes, and a mark on
the upstream link that is not in use is used and forwarded like one on the other: DESIGN CHOICE, assumption log 22. -/
def useMark (link count device elapsed add start term : Nat) (ns : List VoidNotice) (s : State) : State :=
  let own := s.beat.count
  let free := s.beat.state == 0
  let s := follow device term s
  let latency := kgetD 0 s.beat.latency link
  let s := (downstreamLinks s (some link)).foldl (fun s l => sendUp l 0 (markPayload count device (elapsed + latency) add start term ns) s) s
  let s := modBeat (fun b =>
    let offset : Int := (b.opened : Int) - ((s.clock : Int) - latency - elapsed)
    let m := min 16 (b.marks + 1)
    { b with
      marks := m, state := if b.state = 1 ∧ m = 16 then 2 else b.state, silent := if link = upstreamLink s then 0 else b.silent
      silentBoth := 0, switched := false, offset := offset, correction := offset
      announced := if b.announced.getLast? = some (add, start) then b.announced else b.announced ++ [(add, start)]
      count := if free then count else b.count
      adopt := if !free && decide (own < count) then some count else b.adopt }) s
  let s := if !free && decide (own < count) then event evtBeatCountJump nowhere (le 6 own ++ le 6 count) s else s
  ns.foldl (fun s n => applyNotice count n s) s

/-- A beat mark arrives on an upstream link (R49, R51, R346). One on any other link is ignored, and a mark that is not used lets the silence of
R50 run on: DESIGN CHOICE, assumption log 22. -/
def execBeatMark (link : Nat) (payload : Bytes) (s : State) : Outcome :=
  let count := field payload 0 8
  let device := field payload 8 2
  let term := field payload 28 4
  let ns := (List.range (field payload 26 1)).map (fun i => noticeOf (slice payload (32 + 16 * i) 16))
  done (if firmwareRuns s = false ∨ linkIsUp s link = false ∨ (link ≠ setting s 0x110C 0 ∧ link ≠ setting s 0x110C 1) ∨
      payload.length < 32 + 16 * field payload 26 1 ∨ 13 < field payload 26 1 then s
    else if acceptsMark s device term = false then staleMark device term s
    else if s.beat.state ≠ 0 ∧ count < s.beat.count then staleMark device term (follow device term s)
    else useMark link count device (field payload 10 4) (field payload 14 4) (field payload 18 8) term ns s)

/-- The module takes state MASTER with a term (R47, R50, R51); the notices that waited to go up are the first that its marks carry (R61). -/
def takeMaster (term : Nat) (s : State) : State :=
  modBeat (fun b => { b with state := 3, term := term % 2 ^ 32, sender := some (deviceNumber s), heard := true, adopt := none
                             silent := 0, silentBoth := 0, switched := false, masterless := 0, correction := 0
                             notices := b.notices ++ b.upNotices, upNotices := [], upRequest := none }) s

/-- No mark in the first 32 fabric beats: the module named by 1104.00 takes MASTER (R47). -/
def execInitialMarkTimeout (s : State) : Outcome :=
  done (if firmwareRuns s = true ∧ s.beat.state = 0 ∧ 32 ≤ s.beat.sinceReset ∧ deviceNumber s = setting s 0x1104 0 then takeMaster 1 s else s)

/-- No mark for 8 fabric beats on the upstream link in use: the module goes over to the other one, once in a silence (R50). -/
def execMarkUpstreamTimeout (s : State) : Outcome :=
  done (if firmwareRuns s = true ∧ s.beat.state ≠ 3 ∧ 8 ≤ s.beat.silent ∧ s.beat.switched = false then
    event evtBeatUpstream nowhere [] (modBeat (fun b => { b with alternate := !b.alternate, silent := 0, switched := true }) s)
  else s)

/-- No mark on either link for 32 fabric beats: the deputy takes MASTER (R50). A module that has never heard one stays in FREE (R47). -/
def execMarkMasterTimeout (s : State) : Outcome :=
  done (if firmwareRuns s = true ∧ (s.beat.state = 1 ∨ s.beat.state = 2) ∧ 32 ≤ s.beat.silentBoth ∧ s.beat.heard = true then
    let s := event evtBeatMaster nowhere [] (modBeat (fun b => { b with state := 1, marks := 0, heard := false, masterless := 0 }) s)
    if deviceNumber s = setting s 0x1105 0 then takeMaster (s.beat.term + 1) s else s
  else s)

/-- With no master, EVT_BEAT_MASTER is raised again every 1,024 fabric beats (R50). -/
def execBeatMasterRepeat (s : State) : Outcome :=
  done (if firmwareRuns s = true ∧ s.beat.state = 1 ∧ s.beat.heard = false ∧ 1024 ≤ s.beat.masterless then
    event evtBeatMaster nowhere [] (modBeat (fun b => { b with masterless := 0 }) s)
  else s)

/-! Latency (R49). -/

def execLatencyMeasure (link : Nat) (s : State) : Outcome := done (if firmwareRuns s then sendProbe link s else s)

/-- A neighbour's probe is answered. -/
def execLatencyProbe (link : Nat) (s : State) : Outcome := done (if firmwareRuns s then sendUp link 3 [] s else s)

/-- The answer gives half the round trip; half of an odd one is cut to a whole cycle: DESIGN CHOICE, assumption log 22. -/
def execLatencyReply (link : Nat) (s : State) : Outcome :=
  done (match kget s.beat.probes link with
    | none => s
    | some t => if firmwareRuns s = false then s else modBeat (fun b => { b with latency := kput b.latency link ((s.clock - t) / 2), probes := kdel b.probes link }) s)

/-! The way up (R61, R64). -/

/-- An up report from a module below: the master takes it, any other module hands it on at its next close. -/
def execUpReport (link : Nat) (notices : List VoidNotice) (request : Option Nat) (s : State) : Outcome :=
  done (if firmwareRuns s = false ∨ linkIsUp s link = false then s
  else
    let s := modBeat (fun b => { b with asked := match request with | some q => kput b.asked link q | none => b.asked }) s
    if s.beat.state = 3 then modBeat (fun b => { b with notices := b.notices ++ notices }) s
    else modBeat (fun b => { b with
      upNotices := b.upNotices ++ notices
      upRequest := if request.isSome then some ((b.asked.map (·.2)).foldl max b.requested) else b.upRequest }) s)

/-- An announced addition comes into force at its beat (R64): the last of those whose beat has come. -/
def execGovernedAdditionApply (s : State) : Outcome :=
  done (match (s.beat.announced.filter (fun e => e.2 ≤ s.beat.count)).getLast? with
    | some e =>
      if firmwareRuns s = true then
        rePace s (modBeat (fun b => { b with governed := e.1, announced := e :: b.announced.filter (fun x => b.count < x.2) }) s)
      else s
    | none => s)

end Sys2Proof.Machine
end

