-- ==== Sys2Proof/Machine/Closes.lean ====
section
/-! DEFINITION. The beats of a route: opening, close window, verdict, overrun policies (R55-R62), voids, sentinels, commit and replay
(R229-R233), and the holders of arrays (R418, R419). -/

namespace Sys2Proof.Machine

/-! Opening. -/

/-- Pages of the cargoes that a route's manifest names, with their write generations (R303). -/
def manifestGenerations (s : State) (r : Route) : KMap Nat :=
  r.manifest.foldl (fun m e =>
    (List.range e.pages).foldl (fun m k => kput m (pageKey (e.handle % 65536) (e.first + k)) (generationOf s (e.handle % 65536) (e.first + k))) m) []

/-- Prefetch entries whose issue beat is the present step offset go to their engines; at the first step of a route or after a
restore, those of a negative issue beat go at beat 0 (R302). -/
def placePrefetch (slot : Nat) (r : Route) (s : State) : State :=
  let off := (slotOf s slot).beat.offset
  let first := off = 0 ∧ (secureOf s slot).sinceRestore = 0
  r.plan.prefetch.zipIdx.foldl (fun s (e : PrefetchEntry × Nat) =>
    let p := e.1
    let at0 : Int := if p.issue < 0 then p.issue + Int.ofNat r.plan.stepLength else p.issue
    let late : Bool := decide first && decide (p.issue < 0)
    let now : Bool := decide (at0 = Int.ofNat off) || late
    match r.transfers[p.descriptor]? with
    | some d => if now then
        enqueueDesc p.array slot (.prefetch e.2 (decide (p.issue < 0) && !late)) d (if p.holdTag = 0xFFFFFFFF then none else some (p.holdTag, p.holdStation)) s
      else s
    | none => s) s

/-- The first beat of an attempt: the objects that the route reads are taken as they stand (R404), and phase U is ahead. -/
def stepStart (slot : Nat) (s : State) : State :=
  let keep := attemptObjects.foldl (fun m i => kput m (objKey i 0) (inUse s i 0)) []
  let s := modTrain slot (fun t => { t with
    settings := keep, uPhase := 0, uGenerations := [], coefficientsReady := false, replayBeat := none, voided := none
    stepOpened := if t.attempt = 0 then s.clock else t.stepOpened }) s
  { s with mem := { s.mem with noted := s.mem.noted.filter (fun k => k.1 != slot) } }

/-- The set named for the offset comes into force (R41, R54); with it phase U may begin, and the rings of X and U run. -/
def switchSet (slot : Nat) (r : Route) (s : State) : State :=
  let off := (slotOf s slot).beat.offset
  match r.plan.sets.find? (fun e => e.start == off) with
  | none => s
  | some e =>
    let s := modSlotBeat slot (fun b => { b with set := e.set }) s
    let s := if e.phase = 3 ∧ (slotOf s slot).train.uPhase = 0 then
        let gens := manifestGenerations s r
        resumeKilns slot (modTrain slot (fun t => { t with uPhase := 1, uGenerations := gens }) s)
      else s
    if e.phase = 2 ∨ e.phase = 3 then runRings slot s else s

/-- Every gradient accumulator of the route is empty at the first beat of a step and of an attempt (R225). -/
def emptyGas (slot : Nat) (r : Route) (s : State) : State :=
  r.gas.foldl (fun s g =>
    modArray (gaArray g) (releaseBlocks slot ((List.range (gaBlocks g)).map (· + gaBase g)) (drawn s)) (draw s))
    (modTrain slot (fun t => { t with gas := [] }) s)

/-- What a running training route does at cycle 0 of a beat. -/
def openTraining (slot : Nat) (r : Route) (s : State) : State :=
  let s := if (slotOf s slot).beat.offset = 0 then stepStart slot (emptyGas slot r s) else s
  stashReads slot (placePrefetch slot r (resumeKilns slot (switchSet slot r s)))

/-- The slot stands at a beat boundary: its beat is closed and the next one has not opened. -/
def atBoundary (s : State) (slot : Nat) : Bool := (slotOf s slot).beat.phase == 0 || (slotOf s slot).beat.phase == 4

/-- The beat count of a route's beat that opens (R45): its own, or that of the fabric beat whose opening it follows by its lag (R60). -/
def countAtOpening (s : State) (x : Slot) (r : Route) : Nat :=
  if r.plan.isLocal then (if x.beat.phase = 0 then 0 else x.beat.count + 1)
  else if x.beat.phase = 0 ∨ s.beat.opened + x.beat.lag ≤ s.clock then s.beat.count else x.beat.count + 1

/-- A void step's next attempt, or a restored one, begins in the beat that opens (R232, R396). -/
def beginsAnew (s : State) (slot : Nat) (r : Route) : Bool :=
  let x := slotOf s slot
  x.train.state == 2 && (x.train.replayBeat.any (fun v => decide (v ≤ countAtOpening s x r)) ||
    (secureOf s slot).restoring.any (fun q => decide (q.start ≤ s.beat.count)))

/-- The step offset of a route's beat that opens; a step that is void or HALTED does not move on. -/
def offsetAtOpening (s : State) (slot : Nat) (r : Route) : Nat :=
  let x := slotOf s slot
  if x.beat.phase = 0 ∨ beginsAnew s slot r then 0
  else if r.training = true ∧ x.train.state ≠ 1 then x.beat.offset else nextOffset x r

/-- Offsets of a slot for the beat that opens or has just opened, and for the one after it (R418). -/
def offsetNow (s : State) (k : Nat) (r : Route) : Nat :=
  if atBoundary s k then offsetAtOpening s k r else (slotOf s k).beat.offset
def offsetNext (s : State) (k : Nat) (r : Route) : Nat :=
  let x := slotOf s k
  nextOffset { x with beat := { x.beat with offset := offsetNow s k r } } r

/-- Arrays whose handover point falls at this opening: it is cycle 0 of a beat of every running route with a station on the array. The first
route that opens there makes the handover (R46, R418). -/
def handoverArrays (s : State) (slot : Nat) : List Nat :=
  (usedArrays s).filter (fun a =>
    let mine := (residents s).filter (fun e => hasStation e.2 a && (slotOf s e.1).started)
    mine.any (fun e => e.1 == slot) && mine.all (fun e => e.1 == slot || atBoundary s e.1))

/-- An array passes to the holder fixed for it; a Wheel that changes hands keeps nothing in its cells (R418, R419). -/
def passArray (a : Nat) (s : State) : State :=
  match kget s.fab.nextHolders a with
  | none => s
  | some h =>
    let s' := modFab (fun f => { f with holders := kput f.holders a h }) s
    if kget s.fab.holders a = some h then s' else modArray a (fun x => { x with cells := Cells.empty }) s'

/-- The holder of each array comes into force and the next one is fixed (R418); arrays wanted and not held, and arrays that a
filler holds, are counted (R371, R419). -/
def handOver (slot : Nat) (s : State) : State :=
  let arrays := handoverArrays s slot
  let s := arrays.foldl (fun s a => passArray a s) s
  let lost := arrays.flatMap (fun a => ((residents s).filter (fun e =>
    wants s e a (offsetNow s e.1 e.2) && (kget s.fab.holders a).any (fun h => h != e.1))).map (fun e => (slotOf s e.1).owner))
  let s := lost.foldl (fun s c => count 0x5801 c 1 s) s
  let s := (List.range 64).foldl (fun s c => if lost.contains c then count 0x5802 c 1 s else s) s
  let s := arrays.foldl (fun s a =>
    match (residents s).find? (fun e => cutFiller e.2 && kget s.fab.holders a == some e.1) with
    | none => s
    | some e =>
      ((residents s).filter (fun d => !cutFiller d.2 && hasStation d.2 a)).foldl (fun s d =>
        count 0x5110 d.1 1 (count 0x5804 (slotOf s d.1).owner 1 s))
        (count 0x5111 e.1 1 (count 0x5805 (slotOf s e.1).owner 1 s))) s
  let next := arrays.foldl (fun m a =>
    match holderRule s a (offsetNext s) (kget s.fab.holders a) with | some h => kput m a h | none => kdel m a) s.fab.nextHolders
  modFab (fun f => { f with nextHolders := next }) s

/-- A block or an OS tile is in flight in the array's cells (R160). -/
def wheelHolds (s : State) (a : Nat) : Bool := decide (s.clock < (arrayOf s a).cells.busy)

/-- An array is gated or not for the beat that opens. A gated one loses the registers of its Glaze unit and the contents of its cells (R65, R160,
R187). -/
def setGate (a : Nat) (on : Bool) (s : State) : State :=
  if (arrayOf s a).gated = on then s
  else modArray a (fun x => if on then { x with gated := true, regs := [], cells := Cells.empty } else { x with gated := false }) s

/-- Resident routes with a station on an array, in slot order. -/
def usersOf (s : State) (a : Nat) : List (Nat × Route) := (residents s).filter (fun e => hasStation e.2 a)

/-- Every resident route with a station on the array marks it idle. -/
def idleNow (s : State) (a : Nat) : Bool := (usersOf s a).all (fun e => markedIdle e.2 a (offsetNow s e.1 e.2))

/-- Arrays that every resident route with a station on them marks idle are gated (R65), except where the Wheel still holds work: that
array stays ungated for the whole beat, which is counted once (R160). -/
def gateArrays (slot : Nat) (r : Route) (s : State) : State :=
  ((List.range 256).filter (hasStation r)).foldl (fun s a =>
    setGate a (idleNow s a && !wheelHolds s a)
      (if idleNow s a && wheelHolds s a && (usersOf s a).head?.any (fun e => e.1 == slot) then count 0x522F a 1 s else s)) s

/-- The beat of a slot as it opens: a slack beat takes back what it can of the lag, and the first beat of a step has none (R60). A fabric route's
beat is as long as the fabric beat, corrections among it (R49). -/
def openedBeat (s : State) (slot : Nat) (r : Route) : SlotBeat :=
  let x := slotOf s slot
  let moves := r.training = true ∧ x.train.state = 1
  let off := offsetAtOpening s slot r
  let addition := if r.plan.isLocal = true ∧ r.training = true ∧ shared s r = false ∧ off = 0 then s.beat.requested else x.beat.addition
  let p := effectivePeriod (modSlotBeat slot (fun b => { b with addition := addition }) s) slot r
  let length := if r.fabric then s.beat.length else p
  let lag := if off = 0 then 0 else x.beat.lag
  let cut := if moves ∧ r.plan.slack.contains off then min lag (length - 64) else 0
  { x.beat with
    count := countAtOpening s x r, lag := lag - cut, offset := off, length := length - cut, period := p, increments := 0
    opened := s.clock, addition := addition, due := [], late := false, faults := [], stopping := [], marked := [] }

/-- Buffers of a serving route that wait for their reload and have no transfer under way are queued for it again (R116). -/
def reloadAgain (slot : Nat) (r : Route) (s : State) : State :=
  ((serveOf s slot).reloading.filter (fun e =>
    !((engineOf s e.1).queue ++ (engineOf s e.1).outstanding).any (fun t => t.slot == slot && t.origin == .reload e.2))).foldl
      (fun s e => startReload e.1 slot r e.2 s) s

/-- Cycle 0 of a beat of a route (R45, R56, R60); while the fabric timer runs free, values written take effect here (R75). -/
def openSlot (slot : Nat) (r : Route) (s : State) : State :=
  let s := if s.beat.state = 0 then takeValues s else s
  let b := openedBeat s slot r
  let s := handOver slot (gateArrays slot r s)
  let s := modSlotBeat slot (fun _ => { b with phase := 1 }) s
  let s := modSlot slot (fun x => { x with stations := kmap (fun _ y => { y with quota := [] }) x.stations }) s
  let s := modFab (fun f => { f with
    stopped := f.stopped.filter (· != slot), badEntries := f.badEntries.filter (fun e => e.1 != slot)
    failing := f.failing.filter (fun e => e.1 != slot) }) s
  let s := count 0x5803 (slotOf s slot).owner 1 s
  if r.training then (if (slotOf s slot).train.state = 1 then openTraining slot r s else s)
  else reloadAgain slot r (enterRequests slot s.clock r { s with mem := { s.mem with noted := s.mem.noted.filter (fun k => k.1 != slot) } })

/-- A route that keeps to the fabric beat opens its first beat at cycle 0 of one (R45, R64). -/
def mayOpen (s : State) (slot : Nat) (r : Route) : Bool :=
  let b := (slotOf s slot).beat
  if b.phase = 0 then !(r.fabric || shared s r) || decide (s.clock = s.beat.opened) else b.phase == 4

/-- A beat opens: of the module's fabric timer, or of the route in a slot once it has started and its last beat has closed. -/
def execBeatOpen (tl : Timeline) (s : State) : Outcome :=
  done (match tl with
    | .fabric => if firmwareRuns s then openFabric s else s
    | .slot k =>
      match routeOf s k with
      | none => s
      | some r => if alive s = true ∧ (slotOf s k).started = true ∧ mayOpen s k r = true then openSlot k r s else s)

/-! The close window (R55-R57). -/

/-- Tags that a station's counters yield in a step, run-time bounds taken into account. -/
def stationTags (s : State) (slot : Nat) (st : StationRec) : List Word :=
  let x := stationOf s slot st.info.number
  st.counters.zipIdx.flatMap (fun c =>
    if st.ops.any (fun o => o.counter == c.2) then
      (List.range c.1.length).filterMap (fun p => if boundState x c.1 c.2 p == some false then none else some (c.1.tag p))
    else [])

/-- Tags of a station of a serving route for one request. -/
def requestTags (s : State) (slot : Nat) (st : StationRec) (q : Query) : List Word :=
  let x := stationOf s slot st.info.number
  st.counters.zipIdx.flatMap (fun c => (List.range c.1.inner).filterMap (fun p =>
    if c.1.bound != 0 && (kget x.bounds (c.2 * 4096 + q.line)).any (fun b => decide (b ≤ p)) then none else some (c.1.slotTag q.line p)))

/-- The due set of a beat: tags due in it that are not complete (R55, R56). A filler's due sets are checked in the last beat of a
step alone (R372). -/
def dueSet (s : State) (slot : Nat) (r : Route) : List (Nat × Word) :=
  let b := (slotOf s slot).beat
  let last := b.offset + 1 = r.plan.stepLength
  if r.training then
    if (slotOf s slot).train.state ≠ 1 then []
    else r.stations.flatMap (fun st =>
      let tags := stationTags s slot st ++ (r.gas.filter (fun g => gaOwner g == st.info.number)).map gaRelease
      ((tags.filter (fun t => (dueBeats r st.info.number t).any (fun d => if cutFiller r then last else d == b.offset))).filter
        (fun t => !tagDone s slot r st t)).map (fun t => (st.info.number, t)))
  else r.stations.flatMap (fun st => (openQueries s slot st).flatMap (fun q =>
    ((requestTags s slot st q).filter (fun t => (dueBeats r st.info.number t).any (fun d => d == ageOf s slot q) &&
      !tagDone s slot r st t)).map (fun t => (st.info.number, t))))

/-- A tag due in the present beat at a station. -/
def dueHere (s : State) (slot : Nat) (r : Route) (station : Nat) (t : Word) : Bool :=
  let b := (slotOf s slot).beat
  if r.training then (dueBeats r station t).any (fun d => d == b.offset)
  else ((serveOf s slot).requests.filter (fun q => q.phase == 1 && q.line == tagMicro t)).any (fun q =>
    (dueBeats r station t).any (fun d => d == ageOf s slot q))

/-- Entries of a unit whose tags are unpaired: tokens and data. -/
def unpairedTags (u : UnitState) : List Word := u.tokens.map (·.tag) ++ u.data.flatMap (fun d => d.2.map (fun t => hdrTag t.header))

/-- Units of a slot with what they hold: (array, unit, state, its station). -/
def slotUnits (s : State) (slot : Nat) (r : Route) : List (Nat × Nat × UnitState × Nat) :=
  (s.fab.units.filter (fun e => e.2.slot == slot)).map (fun e =>
    (e.1 / 16, e.1 % 16, e.2, ((unitRow r (e.1 / 16) (e.1 % 16)).map (·.station)).getD 0xFFFF))

/-- The next beat starts another route set (R42). -/
def switchAhead (s : State) (slot : Nat) (r : Route) : Bool :=
  r.training && (slotOf s slot).train.state == 1 && r.plan.sets.any (fun e => e.start == nextOffset (slotOf s slot) r && e.set != setOf' s slot)

/-- Cycle P − 64, or the start of an increment: due sets are fixed, entries due at steering and merge units are marked (R135), and
before a set switch the switches admit no new tile (R42). -/
def execCloseWindowOpen (slot : Nat) (s : State) : Outcome :=
  done (match routeOf s slot with
    | none => s
    | some r =>
      if (slotOf s slot).beat.phase ≠ 1 ∨ alive s = false then s
      else
        let due := dueSet s slot r
        let marks := (slotUnits s slot r).flatMap (fun u =>
          ((unpairedTags u.2.2.1).filter (dueHere s slot r u.2.2.2)).map (fun t => (u.1, u.2.1, t)))
        let stop := switchAhead s slot r
        let s := modSlotBeat slot (fun b => { b with phase := 2, due := due, marked := marks, late := false }) s
        if stop then modFab (fun f => { f with stopped := slot :: f.stopped.filter (· != slot) }) s else s)

/-- Cycle P − 40: every station reports whether its due set is empty, and its faults (R56, R58). -/
def execReportCutoff (slot : Nat) (s : State) : Outcome :=
  done (match routeOf s slot with
    | none => s
    | some r =>
      let b := (slotOf s slot).beat
      if b.phase ≠ 2 ∨ alive s = false then s
      else
        let late := b.late || b.due.any (fun d => (r.station d.1).any (fun st => !tagDone s slot r st d.2))
        let units := slotUnits s slot r
        let unpaired := units.any (fun u => u.2.2.1.faulty != [] || b.marked.any (fun m => m.1 == u.1 && m.2.1 == u.2.1 && (unpairedTags u.2.2.1).contains m.2.2))
        let hits := (s.mem.saggarHits.filter (fun h => h.1 == slot)).map (·.2)
        let faults := (if unpaired then [fltUnpaired] else []) ++ (if hits = [] then [] else [fltSaggar])
        let s := { s with mem := { s.mem with saggarHits := s.mem.saggarHits.filter (fun h => h.1 != slot) } }
        let s := modSlotBeat slot (fun b => { b with
          phase := 3, late := late, stopping := b.stopping ++ hits.map (fun n => (n, true)), faults := b.faults ++ faults.filter (fun f => !b.faults.contains f) }) s
        if r.training then s else cutoffAnswers slot (b.opened + b.length - 1) s)

/-! Voids (R61, R139, R232). -/

/-- A fault code as the list of R455 counts its beats (R66). -/
def faultCounter (f : Nat) : Nat :=
  if f = fltOverrun then 0x5140 else if f = fltLag then 0x5144 else if f = fltSetDrain then 0x5145 else if f = fltUnpaired then 0x5146 else 0x5147

/-- The step is void at this close: what it holds is discarded, and it is replayed, repaired from a secured state, or halted. `mark` is
one more than the count of the mark that told of it, 0 if it was raised here. -/
def takeVoid (slot mark cause : Nat) (r : Route) (s : State) : State :=
  let t := (slotOf s slot).train
  let inU := phaseOf s slot r == 3
  let replaying := (secureOf s slot).checking.isSome
  let here := r.fabric && mark == 0
  let notice := if mark = 0 then s.beat.count else mark - 1
  let await (s : State) : State := if here then awaitNotice slot t.step t.attempt s else s
  let s := ledgerStep (le 6 t.step ++ le 1 6 ++ le 1 (t.attempt % 16 * 4 + slot) ++ le 8 s.beat.count ++ le 2 cause) s
  let s := count 0x5142 slot 1 s
  let s := if here then sendNotice slot t.step t.attempt s else s
  let s := modTrain slot (fun t => { t with voided := none }) s
  if replaying then await (restoreOlder slot notice s)
  else if inU then await (repairVoid slot notice s)
  else
    let s := raiseAttempt slot (discardStep slot s)
    if (slotOf s slot).train.state ≠ 2 then s
    else if r.plan.isLocal then
      let v := (slotOf s slot).beat.count + routeSetting s slot 0x3301
      modTrain slot (fun t => { t with replayBeat := some v }) s
    else if mark = 0 then s
    else noteReplay slot (mark - 1) s

/-! The sentinels (R230). -/

/-- An FP64 value trips a sentinel: not finite, or beyond the factor times the running average once the warm-up is over. -/
def trips (s : State) (slot factor : Nat) (average : Option (BitVec 64)) (v : Nat) : Bool :=
  !fisFinite (f64 v) ||
  (decide (routeSetting s slot 0x3303 ≤ (slotOf s slot).train.committed) &&
    average.any (fun a => flt (fmul (f32 (BitVec.ofNat 32 (routeSetting s slot factor))) (f64 a.toNat)) (f64 v)))

/-- The loss and the norm reported in this beat are judged at its close, and the norm forms the coefficient block (R230, R249). -/
def checkSentinels (slot : Nat) (s : State) : State :=
  let t := (slotOf s slot).train
  let loss := ((t.stepLoss).map (·.toNat)).getD 0
  let s := if t.lossPending = false then s
    else
      let s := modTrain slot (fun t => { t with lossPending := false }) s
      if trips s slot 0x2309 t.lossAverage loss then
        pendVoid slot 0 evtSentinelLoss (count 0x5102 slot 1 (event evtSentinelLoss (atSlot slot) [] s))
      else s
  if t.normPending = false then s
  else
    let n := t.norm.getD 0
    let s := formCoefficients slot n (modTrain slot (fun t => { t with normPending := false, lastNorm := n }) s)
    if trips s slot 0x230A t.normAverage (widen64 n) then
      pendVoid slot 0 evtSentinelNorm (count 0x5103 slot 1 (event evtSentinelNorm (atSlot slot) [] s))
    else s

/-! Commit (R231). -/

/-- (1 − w) × average + w × value, each operation rounded to binary64; the first value starts it (R230). -/
def runAverage (w : Word) (average : Option (BitVec 64)) (v : Nat) : BitVec 64 :=
  match average with
  | none => BitVec.ofNat 64 v
  | some a => BitVec.ofNat 64 (add64 (mul64 (sub64 (toF64 (fnat 1)) (widen64 w)) a.toNat) (mul64 (widen64 w) v))

/-- The commit record and its continuation (R452). -/
def commitRecords (s : State) (slot : Nat) : List Bytes :=
  let t := (slotOf s slot).train
  let loss := ((t.stepLoss).map (·.toNat)).getD 0
  [le 6 t.step ++ le 1 4 ++ le 1 ((t.attempt + 1) % 16 * 4 + slot) ++ le 8 loss ++ le 2 (deviceNumber s) ++
     le 1 (if t.stepLoss.isSome then 1 else 0) ++ zeroBytes 5 ++ slice s.dict.digest 0 8,
   le 6 t.step ++ le 1 5 ++ le 1 slot ++ slice s.dict.digest 8 24]

/-- Groups that a firing of the step named and that are not frozen advance (R247). -/
def advanceGroups (slot : Nat) (s : State) : State :=
  let t := (slotOf s slot).train
  { s with kilns := { s.kilns with groups := t.groups.foldl (fun m g =>
      if grpFrozen (groupRec (routeValue s slot 0x6400) g) then m
      else kput m g ⟨(kgetD ⟨0, 0⟩ m g).updates + 1, t.step⟩) s.kilns.groups } }

/-- A step that a restore replays is compared with its record (R397, R398); `before` is the state before the commit. A mismatch
abandons the replay. -/
def checkReplay (slot step : Nat) (before s : State) : State :=
  if (secureOf s slot).checking.isNone then s
  else
    let more := (committedRecord before slot (step + 1)).isSome
    let s := modTrain slot (fun t => { t with attempt := if more then 1 else 0 })
      (modSecure slot (fun x => { x with checking := if more then some (step + 1) else none }) s)
    match replayCheck before slot step (slotOf before slot).train.stepLoss with
    | 0 => count 0x5128 slot 1 (event evtRestoreOk (atSlot slot) (le 6 step) s)
    | 1 =>
      let s := count 0x5129 slot 1 (event evtReplayMismatch (atSlot slot) (le 6 step) s)
      let a := (slotOf before slot).train.attempt
      if (routeOf s slot).any (fun r => r.fabric) then
        awaitNotice slot step a (restoreOlder slot s.beat.count (sendNotice slot step a s))
      else restoreOlder slot s.beat.count s
    | _ => count 0x512A slot 1 s

/-- The commit of a step may be a secure point: the step announced by rank 0, or without a norm-only record every multiple of 2905.00;
a point still held defers it (R388, R394). -/
def securePoint (slot step : Nat) (r : Route) (s : State) : State :=
  if (securedPages s r).isEmpty then s
  else
    let alone := !r.collectives.any (fun x => x.op == 3)
    let due := if alone then setting s 0x2905 0 != 0 && step % setting s 0x2905 0 == 0 else (secureOf s slot).next == step && step != 0
    if !due then s
    else if pageHeld s slot then (if alone then count 0x5124 slot 1 s else modSecure slot (fun x => { x with next := 0 }) s)
    else takePoint slot step r s

/-- The close of a step's last beat with no void commits the step (R231). -/
def commitStep (slot : Nat) (r : Route) (s : State) : State :=
  let before := s
  let t := (slotOf s slot).train
  let cycles := s.clock + 1 - t.stepOpened
  let restored := (secureOf s slot).checking.isSome
  let w := BitVec.ofNat 32 (routeSetting s slot 0x3302)
  let s := closeKilnPages slot (commitCarries slot r s)
  let s := (commitRecords s slot).foldl (fun s b => ledgerStep b s) s
  let s := advanceGroups slot s
  let s := modTrain slot (fun t => { t with
    lastCommitted := t.step, step := (t.step + 1) % 2 ^ 48, attempt := 0, committed := t.committed + 1
    lossAverage := match t.stepLoss with | some l => some (runAverage w t.lossAverage l.toNat) | none => t.lossAverage
    normAverage := match t.norm with | some n => some (runAverage w t.normAverage (widen64 n)) | none => t.normAverage
    lastLoss := t.stepLoss.getD t.lastLoss
    stepCycles := if restored then t.stepCycles else (cycles :: t.stepCycles).take 1024
    lossItems := [], stepLoss := none, norm := none, groups := [], gas := [], updated := [], stash := [], uPhase := 2 }) s
  let s := modSlot slot (fun x => { x with stations := kmap (fun _ y => { y with
    fired := [], completed := [], failed := [], skipped := [], bounds := [], results := [] }) x.stations }) s
  let s := gather 0 (4 + slot) (count 0x5100 slot 1 s)
  let owner := (slotOf s slot).owner
  let s := if 0 < owner ∧ owner < 64 then gather owner (4 + slot) s else s
  let s := modSecure slot (fun x => { x with
    sinceRestore := x.sinceRestore + 1
    point := x.point.map (fun p => { p with extra := p.extra + (cycles - p.planned) }) }) s
  let s := checkReplay slot t.step before s
  if (slotOf s slot).train.state ≠ 1 then s
  else refreshCommit slot t.step (securePoint slot t.step r s)

/-! The verdict (R58-R62). -/

/-- Something of a stream is on its path in the set in force: a tile has left in part, a lane holds an item, or what has come to the end of the
path has not found room there (R42). -/
def streamBusy (s : State) (slot : Nat) (r : Route) (o : StreamRow) : Bool :=
  let set := setOf' s slot
  ((streamOf s slot o.number).staging.head?).any tileBegun ||
  [0, 1].any (fun net =>
    ((streamTree r (slotUses r) o set net).getD []).any (fun e => laneItems s (laneKey e.1 net e.2 o.lane) != []) ||
    (sideOutputs net (r.endOf o).2).any (fun p => deliveredItems s (portKey slot (r.endOf o).1 net p o.lane) != []))

/-- A tile of the route is on a network path; tokens travel on the control network, which goes on (R42). -/
def pathBusy (s : State) (slot : Nat) (r : Route) : Bool := r.streams.any (fun o => !r.emitted o 9 && streamBusy s slot r o)

/-- Unpaired entries of a unit that were due are discarded at the close of a serving beat, their credit returned, and its entries with a faulty
choice (R135). -/
def dropUnpaired (slot : Nat) (r : Route) (s : State) : State :=
  let marked := (slotOf s slot).beat.marked
  (slotUnits s slot r).foldl (fun s u =>
    let gone (t : Word) : Bool := marked.any (fun m => m.1 == u.1 && m.2.1 == u.2.1 && m.2.2 == t)
    let n := ((unpairedTags u.2.2.1).filter gone).length + u.2.2.1.faulty.length
    if n = 0 then s
    else
      let inputs := u.2.2.1.data.flatMap (fun d => (d.2.filter (fun x => gone (hdrTag x.header))).map (fun _ => d.1))
      let s := putUnit u.1 u.2.1 { u.2.2.1 with
        tokens := u.2.2.1.tokens.filter (fun k => !gone k.tag), data := kmap (fun _ ts => ts.filter (fun x => !gone (hdrTag x.header))) u.2.2.1.data
        faulty := [] } (count 0x5207 u.1 n s)
      inputs.foldl (fun s i => match unitStream s slot u.1 u.2.1 i with | some o => returnCredit slot o s | none => s) s) s

/-- Streams owned by a saggar fault stop at this close (R58, R123). -/
def stopStreams (slot : Nat) (s : State) : State :=
  (slotOf s slot).beat.stopping.foldl (fun s e => stopStream slot e.1 e.2 s) s

/-- Faults are written to the event ledger and their beats counted. -/
def raiseFaults (slot : Nat) (fs : List Nat) (s : State) : State :=
  eventsTogether (fs.map (fun f => (f, atSlot slot, []))) (fs.foldl (fun s f => count (faultCounter f) slot 1 s) s)

/-- The verdict of a serving beat: FALLBACK (R62), retirement (R436). -/
def closeServing (slot : Nat) (r : Route) (s : State) : State :=
  let b := (slotOf s slot).beat
  let faults := (if b.late then [fltOverrun] else []) ++ b.faults
  let s := raiseFaults slot faults s
  let s := if faults = [] then s else count 0x5143 slot 1 s
  let s := if b.faults.contains fltSaggar then modServe slot (fun x => { x with stopped := true }) (stopStreams slot s) else s
  let s := dropUnpaired slot r (markNotReady slot (faults != []) r s)
  let s := retireRequests slot r s
  modSlotBeat slot (fun b => { b with phase := 4 })
    (modServe slot (fun x => { x with closes := ((b.opened + b.length - 1) :: x.closes).take 256 }) s)

/-- A stretch of one increment (R59, R60). -/
def stretch (slot : Nat) (r : Route) (s : State) : State :=
  let first := (slotOf s slot).beat.increments == 0
  let s := event fltOverrun (atSlot slot) [] (if first then count 0x5140 slot 1 s else s)
  count 0x5141 slot 1 (modSlotBeat slot (fun b => { b with
    increments := b.increments + 1, length := b.length + 64, lag := if r.fabric || shared s r then b.lag + 64 else b.lag, phase := 1 }) s)

/-- The step's beat ends: sentinels, a void that is due, or the commit of its last beat. -/
def closeTraining (slot : Nat) (r : Route) (s : State) : State :=
  let s := checkSentinels slot s
  let s := modSlotBeat slot (fun b => { b with phase := 4 }) s
  match (slotOf s slot).train.voided with
  | some (mark, cause) => takeVoid slot mark cause r s
  | none =>
    let b := (slotOf s slot).beat
    let ends := r.plan.sets.any (fun e => e.start == nextOffset (slotOf s slot) r && e.phase != 3)
    let s := if (slotOf s slot).train.uPhase = 1 ∧ (ends = true ∨ b.offset + 1 = r.plan.stepLength) then
        modTrain slot (fun t => { t with uPhase := 2 }) s else s
    if b.offset + 1 = r.plan.stepLength then commitStep slot r s else s

/-- Cycle P − 1, or cycle 63 of an increment: the verdict is applied (R58, R59). -/
def execVerdictApply (slot : Nat) (s : State) : Outcome :=
  done (match routeOf s slot with
    | none => s
    | some r =>
      let b := (slotOf s slot).beat
      if b.phase ≠ 3 ∨ alive s = false then s
      else if r.training = false then closeServing slot r s
      else if (slotOf s slot).train.state ≠ 1 then
        modSlotBeat slot (fun b => { b with phase := 4 }) (stopStreams slot (raiseFaults slot b.faults s))
      else
        let stretching := r.plan.policy = 0 ∧ b.late = true ∧ b.faults = [] ∧ b.increments < r.plan.stretchLimit
        let lagging := (r.fabric || shared s r) = true ∧ r.plan.lagLimit < b.lag + 64
        if stretching ∧ ¬lagging then stretch slot r s
        else
          let drain := if s.fab.stopped.contains slot && pathBusy s slot r then [fltSetDrain] else []
          let faults := b.faults ++ drain ++ (if stretching ∧ lagging then [fltLag] else [])
          let overrun := if b.late then [fltOverrun] else []
          let s := eventsTogether ((overrun ++ faults).map (fun f => (f, atSlot slot, [])))
            (faults.foldl (fun s f => count (faultCounter f) slot 1 s) (if b.late && b.increments == 0 then count 0x5140 slot 1 s else s))
          let s := stopStreams slot s
          let s := match overrun ++ faults with
            | [] => s
            | f :: rest => pendVoid slot 0 (rest.getLastD f) s
          closeTraining slot r s)

/-- The next attempt of a void step begins at the opening of its replay beat (R232). -/
def execReplayStart (slot : Nat) (s : State) : Outcome :=
  done (match routeOf s slot with
    | none => s
    | some r =>
      let x := slotOf s slot
      match x.train.replayBeat with
      | some v =>
        if x.train.state = 2 ∧ v ≤ routeCount s slot r ∧ x.beat.phase = 1 ∧ s.clock = x.beat.opened ∧ alive s = true then
          openTraining slot r (modSlotBeat slot (fun b => { b with offset := 0, lag := 0 }) (setTrainState slot 1 s))
        else s
      | none => s)

end Sys2Proof.Machine
end

