-- ==== Sys2Proof/Machine/Supply.lean ====
section
/-! DEFINITION. The supply: load tests of the hold-up bank (R323), the input and its loss (R327, R500-R504), the hold-up sequence and its
record (R327-R329), and the cable supplies (R499). -/

namespace Sys2Proof.Machine

/-- The load test runs once the bank first reaches 55 V after a warm or cold reset, then every 130E.00 seconds; not while
1312.00 is not 0 (R323). -/
def execLoadTest (s : State) : Outcome :=
  let p := s.power
  done (if p.input = 0 ∧ p.testing = false ∧ p.reached55 = true ∧
      (p.tested = false ∨ p.lastTest + secondsOf (setting s 0x130E 0) ≤ s.clock) then supplySignal s (startTest s) else s)

/-- A write of 130D.00 (R330). -/
def loadTestEffect (s : State) : Effect := checked [(s.power.testing, stBusy), (s.power.input != 0, stState)] s (fun s => supplySignal s (startTest s))

/-- The test ends: the capacitance is 0.8 C divided by the voltage drop (R323). A drop of 0 gives an infinite quotient. -/
def execLoadTestDone (drop : Word) (s : State) : Outcome :=
  let before := s
  done (if s.power.testing then supplySignal before (
    let c := toF32 (fdiv (f32 (f32OfRat (4 / 5))) (f32 drop))
    let s := modPower (fun p => { p with testing := false, tested := true, capacitance := c, holdup := 2 }) s
    let s := if flt (f32 c) (f32 (BitVec.ofNat 32 (setting s 0x1310 0))) then
      event evtHoldupWeak nowhere [] (modPower (fun p => { p with holdup := 3 }) s) else s
    if admissibleUnder (journalLimit s) s = 0 then event evtHoldupFail nowhere [] (modPower (fun p => { p with holdup := 4 }) s) else s)
  else s)

/-! The input (R327, R500). -/

/-- The input stays below 42 V for 1 ms. -/
def execInputLow (s : State) : Outcome :=
  done (if s.power.input = 0 then
    supplySignal s (event evtInputLow nowhere [] (modPower (fun p => { p with input := 1 }) s))
  else s)

/-- The input has stayed at or above 42 V for 1 ms. -/
def execInputLowClear (s : State) : Outcome :=
  done (if s.power.input = 1 then supplySignal s (modPower (fun p => { p with input := 0 }) s) else s)

/-- States that the keeper and the flash hold of a slot outlive the route. -/
def keptSecures (s : State) : KMap Secure :=
  kmap (fun _ x => { Secure.none with held := x.held.filter (fun e => e.source != 1), last := x.last }) s.secures

/-- The die, the stacks and the links lose power or are held in reset, and hold nothing from then on: no route, no array's contents, no
transfer and no link (R36, R327, R478, R507). Memory, the flash store and the records are settled when the reset ends. -/
def stopDie (s : State) : State :=
  { s with
    slots := [], arrays := [], engines := [], colls := [], secures := keptSecures s, admissions := [], serves := []
    refresh := State.reset.refresh, fab := Fabric.reset, net := Net.reset
    host := { s.host with link := 0, width := 0, windows := [], windowsSet := [] } }

/-- Input loss is declared (R327): admission closes, the die loses power and the hold-up sequence runs. -/
def declareLoss (cause : Nat) (s : State) : State :=
  if s.power.input = 2 ∨ s.power.sequence ≠ 0 then s
  else stopDie (supplySignal s (modPower (fun p => { p with
    input := 2, holdup := 5, sequence := 1, cause := cause, beatAtLoss := s.beat.count
    pagesAtLoss := outstandingPages s.flash, programmed := 0, journalLost := false, testing := false }) s))

/-- PWR_FAIL_N is asserted, or the input stays below 40 V for 20 µs. -/
def execInputLoss (byPin : Bool) (s : State) : Outcome := done (declareLoss (if byPin then 0 else 1) s)

/-- The input enters or leaves the band from 60 V to 64 V (R500). -/
def execInputHigh (entering : Bool) (s : State) : Outcome := done (modPower (fun p => { p with high := entering }) s)

/-- Above 64 V for 100 µs, or more than 130 A for 1 ms, the hot-swap switch opens, which is handled as input loss (R500, R503). -/
def openSwitch (s : State) : State := declareLoss 1 (modPower (fun p => { p with switchOpen := true }) s)
def execInputOvervoltage (s : State) : Outcome := done (openSwitch s)
def execOvercurrent (s : State) : Outcome := done (openSwitch s)

/-! The hold-up sequence (R327-R329). -/

/-- The quiesce ends: the outstanding pages are fixed and EVT_POWER_LOSS is written (R327). -/
def execHoldupQuiesceEnd (s : State) : Outcome :=
  done (if s.power.sequence = 1 then
    event evtPowerLoss nowhere (le 1 s.power.cause) (modPower (fun p => { p with sequence := 2 }) s)
  else s)

/-- The committed pages of a list of stores are programmed one after another. -/
def programAll : Nat → State → State
  | 0, s => s
  | n + 1, s =>
    let s' := programNext s
    programAll n (modPower (fun p => { p with programmed := p.programmed + (outstandingPages s.flash - outstandingPages s'.flash) }) s')

/-- Every committed page has been programmed (R327). -/
def execHoldupProgramDone (s : State) : Outcome :=
  done (if s.power.sequence = 2 then
    modPower (fun p => { p with sequence := 3 }) (programAll (s.flash.stores.flatMap (·.committed)).length s)
  else s)

/-- Energy runs out before the journal has been programmed (R328, R329). -/
def execBankExhausted (s : State) : Outcome :=
  done (if 1 ≤ s.power.sequence ∧ s.power.sequence ≤ 3 then modPower (fun p => { p with journalLost := true, sequence := 3 }) s else s)

/-- The 64-byte power-loss record (R329). -/
def lossRecord (s : State) (energy volts : Word) : Bytes :=
  let p := s.power
  let incomplete := (s.flash.stores.filter (fun x => x.waiting != [] || x.admitted != [])).length
  padTo 64 (le 8 p.beatAtLoss ++ le 1 p.cause ++ le 1 (if p.journalLost then 1 else 0) ++ zeroBytes 6 ++ le 4 p.pagesAtLoss ++
    le 4 p.programmed ++ le 4 incomplete ++ le 4 energy.toNat ++ le 4 volts.toNat)

/-! The FRU EEPROM (R36, R511). -/

/-- VDD_MGMT is up: the input has not been lost, or the bank supplies it through the hold-up sequence. -/
def managementPowered (s : State) : Bool := s.power.input != 2 || (decide (1 ≤ s.power.sequence) && decide (s.power.sequence ≤ 3))

/-- A read on SMBus: the module's one target stands at address 50h; none where nothing answers. -/
def smbusRead (device offset n : Nat) (s : State) : Option Bytes :=
  if device = 0x50 ∧ managementPowered s = true then
    some ((List.range n).map (fun k => s.sys.fru.getD ((offset + k) % 2048) 0)) else none

/-- A write on SMBus: the EEPROM is write-protected and acknowledges no data byte. -/
def smbusWrite (_device _offset : Nat) (_data : Bytes) (s : State) : State × Bool := (s, false)

/-! The cables (R499). -/

/-- A short circuit on CBL_3V3 turns the connector's supply off and keeps its links down. -/
def execCableShort (connector : Nat) (s : State) : Outcome :=
  done (if 16 ≤ connector ∨ s.power.cableOff.contains connector then s
  else [0, 1, 2, 3].foldl (fun s k => if linkIsUp s (4 * connector + k) || (linkOf s (4 * connector + k)).state == 1 then linkDown (4 * connector + k) s else s)
    (modPower (fun p => { p with cableOff := p.cableOff ++ [connector] }) s))

end Sys2Proof.Machine
end

