-- ==== Sys2Proof/Machine/Reset.lean ====
section
/-! DEFINITION. Reset, boot and security: reset sources and classes (R473-R480), the release order and the choice of the image
(R483-R491), anti-rollback (R492), attestation (R494), thermal trips (R506-R508), and resets of PCIe functions (R471, R474). -/

namespace Sys2Proof.Machine

/-! PCIe functions. -/

/-- Everything that a function holds at the port goes: mailbox, BAR4 windows, MSI-X table (R471). The implicit session of the mailbox, and expert
level unlocked in it, stay: DESIGN CHOICE, assumption log 25. -/
def clearFunction (f : Nat) (s : State) : State :=
  modDict (fun d => { d with mailboxes := kdel d.mailboxes f })
    (modHost (fun h => { h with
      windows := h.windows.filter (fun e => e.1 / 64 != f), windowsSet := h.windowsSet.filter (fun e => e.1 / 64 != f), refused := kdel h.refused f
      unmasked := h.unmasked.filter (fun v => v / 2048 != f), pendingBits := h.pendingBits.filter (fun v => v / 2048 != f) }) s)

/-- A virtual function is reset: its client's slots are released and its queued request is removed (R471). -/
def resetFunction (f : Nat) (s : State) : State :=
  let s := (slotsHeld s f).foldl (fun s k =>
    if (slotOf s k).state = 2 then modSlot k (fun x => { x with state := 3 }) s
    else if (slotOf s k).state = 1 then freeSlot k s else s) s
  let s := if (admissionOf s f).state = 1 ∨ (admissionOf s f).state = 2 then modAdmission f (fun a => { a with state := 0 }) s else s
  clearFunction f s

/-- VF Enable is cleared (R471). -/
def clearVfs (s : State) : State :=
  modHost (fun h => { h with vfs := 0 }) ((List.range s.host.vfs).foldl (fun s k => resetFunction (k + 1) s) s)

def execVfEnable (k : Nat) (s : State) : Outcome :=
  done (if k ≤ 63 ∧ s.host.vfs = 0 ∧ s.host.module ≠ 0 then modHost (fun h => { h with vfs := k }) s else s)

def execVfDisable (s : State) : Outcome := done (clearVfs s)

/-- An FLR: of a virtual function, or of the physical function with every virtual one (R471). -/
def execFunctionLevelReset (function : Nat) (s : State) : Outcome :=
  done (if function = 0 then clearFunction 0 (clearVfs s)
  else if function ≤ s.host.vfs then resetFunction function s
  else s)

/-- A fabric reset: routes go without void notices, the arrays and the fabric start afresh (R480); they stand so from its request (R479). -/
def clearFabric (s : State) : State :=
  let keeps := keptSecures s
  let s := slotNumbers.foldl (fun s k =>
    if (slotOf s k).state = 0 then s
    else
      let owner := (slotOf s k).owner
      let s := freeSlot k s
      if (admissionOf s owner).slot = k ∧ 2 ≤ (admissionOf s owner).state ∧ (admissionOf s owner).state ≤ 3 then
        setAdmission owner { admissionOf s owner with state := 0 } s else s) s
  { s with
    arrays := [], engines := [], secures := keeps
    fab := { s.fab with
      failing := [], lanes := [], delivered := [], badEntries := [], stopped := [], words := [], units := [], holders := [], nextHolders := [] }
    mem := { s.mem with openPages := [], copies := [], saggarHits := [], noted := [], ports := [] } }

/-! Requests for a reset (R473-R477). -/

/-- A reset is requested: absorbed by one that is being stretched unless it is stronger, and by the hold-up sequence (R477).
What its class resets stands reset from then on (R478, R479). -/
def requestReset (source cls core : Nat) (s : State) : State :=
  let begin (s : State) : State := modSys (fun y => { y with
      resetting := some (cls, source), drained := cls == 1, lastSource := source, lastClass := cls, watchdogCore := core })
    (if cls = 1 then clearFabric s else stopDie s)
  if s.power.sequence ≠ 0 then s
  else match s.sys.resetting with
    | none => begin s
    | some (c, _) => if cls ≤ c then s else begin s

/-- PORST_N low, or the supervisor finds the input below 44 V: a cold reset with the straps latched again. After the end of a hold-up
sequence the supervisor has been without power, and its counts begin again (R473, R482, R496). -/
def execPowerOnReset (s : State) : Outcome :=
  done (if s.power.sequence = 4 then
    let s := modPower (fun p => { p with sequence := 0 }) (modSys (fun y => { y with resets := (0, 0, 0), resetting := none }) s)
    modSys (fun y => { y with drained := true }) (requestReset 0 3 255 s)
  else requestReset 0 3 255 s)

/-- PERST_N goes low: the port is reset, its TH requests fail, and the class of 1203.00 is added (R474). -/
def execPerst (s : State) : Outcome :=
  let s := failHostRequests (modHost (fun h => { h with link := 1, width := 0, perst := true }) (clearFunction 0 (clearVfs s)))
  done (if setting s 0x1203 0 = 0 then s else requestReset 1 (setting s 0x1203 0) 255 s)

def execPerstRelease (s : State) : Outcome := done (modHost (fun h => { h with perst := false }) s)

/-- SYSRST_N is low: not while the module drives it, nor within 100 µs of its release (R473, R479). -/
def execSysrst (s : State) : Outcome :=
  done (if s.sys.resetting.isSome ∨ s.clock < s.sys.released + 170000 then s else requestReset 2 (setting s 0x1203 1) 255 s)

/-- A steward core misses its watchdog; core 7 only while it carries a service (R475). -/
def execWatchdogMiss (core : Nat) (s : State) : Outcome :=
  done (if core ≤ 6 ∨ (core = 7 ∧ s.sys.carriers.any (fun e => e.2 == 7) = true) then
    if firmwareRuns s = false then s
    else requestReset 3 (setting s 0x1203 2) core (modSys (fun y => { y with failedCores := if y.failedCores.contains core then y.failedCores else y.failedCores ++ [core] }) s)
  else s)

/-- The write of 1200.02 (R476): source 4, or 5 where peer access carried it. -/
def resetEffect (client transport v : Nat) (s : State) : Effect :=
  checked [(decide (v = 0 ∨ 3 < v), stRange), (s.power.input != 0, stState),
      (client != 0 && slotNumbers.any (fun k => (slotOf s k).state != 0 && (slotOf s k).owner != client), stState),
      (s.sys.resetting.isSome, stBusy)] s
    (requestReset (if transport = 2 then 5 else 4) v 255)

/-- The store drain ends (R478): committed pages are programmed and the journal is written; what was not committed is lost. -/
def execStoreDrainDone (s : State) : Outcome :=
  done (if (s.sys.resetting.any (fun e => 2 ≤ e.1) || s.power.tripped) && !s.sys.drained && s.power.sequence == 0 then
    let s := programAll (s.flash.stores.flatMap (·.committed)).length s
    modSys (fun y => { y with drained := true }) (modFlash (fun f => { f with stores := [], journal := 0, shadow := [] }) s)
  else s)

/-! What a class clears (R480). -/

/-- Cargoes that a class keeps (R289). -/
def keptTier (cls tier : Nat) : Bool := if cls = 3 then tier == 3 else tier != 0

/-- Cargoes after a warm or cold reset. -/
def Mem.afterReset (cls : Nat) (m : Mem) : Mem :=
  let kept (i : Nat) : Bool := let c := kgetD Cargo.free m.cargoes i; c.state != 0 && keptTier cls c.tier
  { cargoes := kmap (fun i c => if kept i then { c with zeroing := false } else { Cargo.free with reuse := c.reuse }) m.cargoes
    home := m.home.filter (fun e => kept (e.1 / cargoSpan))
    cached := if cls = 3 then [] else m.cached.filter (fun e => kept (e.1 / cargoSpan))
    cache := if cls = 3 then [] else (m.cache.filter (fun f => kept f.cargo && f.valid)).map (fun f => { f with
      outOfDate := f.outOfDate || f.refilling || f.again, refilling := false, again := false, retry := f.retry.map (fun _ => 0) })
    progress := [], openPages := [], saggarHits := [], copies := [], noted := [], working := [], scrubbed := [], ports := [], failed := [] }

/-- Volatile objects return to their defaults, P objects to their stored values; a closed staging set survives (R81, R405). -/
def Dict.afterReset (d : Dict) : Dict :=
  { Dict.reset with
    objs := d.store, inUse := d.store, store := d.store, staging := if d.staging.state = 2 then d.staging else ⟨0, [], 0⟩
    digest := configDigest d.store, moduleDig := moduleDigest d.store }

/-- Contents of pages that were programmed after the last journal that reached flash: what they held before (R329). -/
def undoShadow (s : State) : State :=
  s.flash.shadow.foldl (fun s e =>
    match (s.mem.cargoes.filter (fun c => c.2.state != 0 && c.2.tier == 3)).findSome? (fun c =>
        (firstIndex (fun p => p.frame == e.1) c.2.pages).map (fun k => (c.1, k))) with
    | some (i, k) => { s with mem := { s.mem with home := storeBytes (clearBytes s.mem.home (pageAddress i k) pageBytes) (pageAddress i k) e.2 } }
    | none => s) s

/-- Links after training: disabled ones and direct ports as their objects say (R354, R358). -/
def trainLinks (s : State) : State :=
  (List.range 64).foldl (fun s l =>
    let s := if flagSet s 0x2807 l then s else enableLink l 0 s
    if setting s 0x2F20 l = 0 then s else setPortMode l 1 s) s

/-- A slot whose image was being programmed reads empty after the reset (R480). -/
def dropProgramming (x : ImageSlot) : ImageSlot := if x.state = 4 then ⟨0, 0, zeroBytes 32, []⟩ else x

/-- A warm or cold reset (R480). -/
def clearModule (cls : Nat) (s : State) : State :=
  let s := if s.power.journalLost then undoShadow s else s
  let keeps := keptSecures s
  let s' : State := { State.reset with
    pending := s.pending, clock := s.clock, fresh := s.fresh, out := s.out, resp := s.resp
    dict := s.dict.afterReset
    led := ⟨[], 0, [], 0, s.led.step, s.led.steps⟩
    mem := s.mem.afterReset cls
    flash := { s.flash with stores := [], shadow := [] }
    power := { s.power with
      input := if s.power.input = 2 then 0 else s.power.input, holdup := 0, testing := false, tested := false, reached55 := false
      sequence := 0, journalLost := false, tripped := false, switchOpen := false }
    secures := keeps
    keeper := if cls = 3 then Keeper.reset else { s.keeper with meas := 0, mean := Keeper.reset.mean, tau := 0 }
    host := { HostPort.reset with perst := s.host.perst }
    sys := { s.sys with
      slotA := dropProgramming s.sys.slotA, slotB := dropProgramming s.sys.slotB, handover := 0, moved := [], carriers := [], rollback := none, failedCores := [], writing := [], nonces := [], reports := []
      lateSet := s.dict.staging.state == 2 } }
  trainLinks s'

/-! Images (R485-R491). -/

def imageMagic : Nat := 0x57465A45
def imageVersion (b : Bytes) : Nat := field b 8 4
def imageDigest (b : Bytes) : Bytes := slice b 24 32
def imagePayload (b : Bytes) : Bytes := b.drop 896

/-- The checks of an image of a kind, in their order; 0 passes (R486). -/
def verifyImage (s : State) (kind : Nat) (b : Bytes) : Nat :=
  let n := field b 16 8
  let badFormat := b.length < 896 || field b 0 4 != imageMagic || field b 4 2 != 1 || field b 6 1 != kind || !zeroAt b 7 1 ||
    decide (64 < imageVersion b) || n == 0 || decide (33554432 < n) || b.length != 896 + n || (kind != 2 && !zeroAt b 444 16) ||
    !zeroAt b 460 52
  if badFormat then 1
  else if sha256 (slice b 56 388) ≠ Config.rootKeyHash then 2
  else if pssVerify (slice b 56 388) (b.take 512) (slice b 512 384) = false then 3
  else if imageVersion b < s.sys.fuses then 4
  else if sha256 (imagePayload b) ≠ imageDigest b then 5
  else 0

/-- The state of a slot that an image's check gives (R487, R492). -/
def slotStateOf (result : Nat) : Nat := if result = 0 then 1 else if result = 4 then 3 else 2

/-- An image runs: its version and digest are those attested. -/
def runImage (b : Bytes) (result module : Nat) (s : State) : State :=
  modHost (fun h => { h with module := module })
    (modSys (fun y => { y with bootResult := result, runningVersion := imageVersion b, runningDigest := imageDigest b }) s)

def refuseImage (result : Nat) : State → State := modSys (fun y => { y with verifyResult := result })

/-- The recovery image of the SPI NOR; without one that passes, the module stays in the boot ROM (R488, R490). -/
def bootRecovery (s : State) : State :=
  match verifyImage s 1 s.sys.recovery with
  | 0 => runImage s.sys.recovery 3 2 s
  | r => modHost (fun h => { h with module := 0 }) (modSys (fun y => { y with bootResult := 5 }) (refuseImage r s))

/-- A slot is tried; one that fails is marked. -/
def trySlot (k result : Nat) (s : State) : State × Bool :=
  let x := slotImage s k
  if x.state = 0 ∨ x.image = [] then (s, false)
  else match verifyImage s 0 x.image with
    | 0 => (runImage x.image result 1 (setImage k { x with state := 1 } s), true)
    | r => (refuseImage r (setImage k { x with state := slotStateOf r } s), false)

/-- The boot ROM chooses the image (R488-R490). -/
def boot (s : State) : State :=
  match s.sys.straps / 4 % 4 with
  | 3 =>
    let r := trySlot s.sys.active 0 s
    if r.2 then r.1
    else
      let r := trySlot (1 - s.sys.active) 1 r.1
      if r.2 then r.1 else bootRecovery r.1
  | 2 => modHost (fun h => { h with module := 0, bootStatus := 0, bootImage := [] }) (modSys (fun y => { y with bootResult := 2 }) s)
  | 1 => bootRecovery s
  | _ =>
    match verifyImage s 2 s.sys.manufacturing with
    | 0 => if slice s.sys.manufacturing 444 16 = padTo 16 Config.serialNumber then runImage s.sys.manufacturing 4 3 s else bootRecovery s
    | r => bootRecovery (refuseImage r s)

/-! The release order (R117, R483). -/

/-- A site that fails the reset self-test is replaced by its cluster's spare, without a staging set (R117). -/
def releaseSite (site : Nat) (s : State) : State :=
  if 272 ≤ site ∨ siteFailed s site then s
  else
    let s := event evtArrayFault (atInst site) [] (modFab (fun f => { f with failedSites := f.failedSites ++ [site] }) s)
    match arrayAt s site with
    | none => s
    | some a =>
      if site < 256 ∧ siteFailed s (256 + clusterOf a) = false ∧ (clusterArrays (clusterOf a)).any (onSpare s) = false then
        event evtSpareIn (atInst a) [] (count 0x5018 0 1 (modFab (fun f => { f with states := kput f.states a 1 }) s))
      else modFab (fun f => { f with states := kput f.states a (2 + kgetD 0 f.states a % 2) }) s

/-- Spares first, then the arrays' own sites. -/
def releaseSites (sites : List Nat) (s : State) : State :=
  (sites.filter (· < 256)).foldl (fun s x => releaseSite x s) ((sites.filter (256 ≤ ·)).foldl (fun s x => releaseSite x s) s)

/-- Units that fail memory training are marked, and cargoes with a page there are BROKEN (R483). -/
def failUnits (tier : Nat) (units : List Nat) (s : State) : State :=
  { s with mem := { s.mem with failed := s.mem.failed ++ units.map (fun u => (tier, u)), cargoes := kmap (fun _ c =>
      if c.state = 1 && c.pages.any (fun p => p.tier == tier && units.contains p.unit) then { c with state := 2 } else c) s.mem.cargoes } }

/-- Links that did not train stay down (R483). -/
def releaseLinks (up : List Nat) (s : State) : State :=
  (List.range 64).foldl (fun s l =>
    if (linkOf s l).state ≠ 1 then s
    else if up.contains l ∧ mayTrain s l then
      sendFrame l 9 0xFFFF (le 2 (deviceNumber s) ++ le 1 l) (modLink l (fun x => { x with state := if lanesInUse x ≤ 3 then 3 else 2 }) s)
    else modLink l (fun x => { x with state := 4 }) s) s

/-- The counts of 1202. -/
def countReset (cls : Nat) (r : Nat × Nat × Nat) : Nat × Nat × Nat :=
  match cls with
  | 1 => (r.1 + 1, r.2.1, r.2.2)
  | 2 => (r.1, r.2.1 + 1, r.2.2)
  | _ => (r.1, r.2.1, r.2.2 + 1)

/-- The stretch of a reset ends, SYSRST_N is released, and the release order of its class runs (R479, R483). -/
def execResetStretchEnd (findings : BootFindings) (s : State) : Outcome :=
  done (match s.sys.resetting with
    | none => s
    | some (cls, source) =>
      if s.sys.drained = false then s
      else
        let s := modSys (fun y => { y with resetting := none, drained := false, released := s.clock, resets := countReset cls y.resets }) s
        if cls = 1 then releaseSites findings.failedSites (clearFabric s)
        else
          let s := clearModule cls s
          let s := if source = 0 then modSys (fun y => { y with straps := findings.bootSrc % 4 * 4 + findings.clkMode % 4 }) s else s
          if findings.railsFail = true ∧ cls = 3 then
            modHost (fun h => { h with module := 0 }) (modPower (fun p => { p with railsFailed := true }) s)
          else
            let s := boot (modPower (fun p => { p with railsFailed := false }) s)
            if s.sys.bootResult = 5 then s
            else
            let s := failUnits 2 findings.failedPackages (failUnits 1 findings.failedStacks s)
            releaseSites findings.failedSites (releaseLinks findings.linksUp s))

/-- The power-loss record is programmed (R327-R329); with the input back a cold reset follows, else the module is without power. -/
def execPowerLossRecord (energy volts : Word) (inputBack : Bool) (s : State) : Outcome :=
  done (if s.power.sequence = 3 then
    let k := objKey 0x1311 0
    let b := lossRecord s energy volts
    let s := modDict (fun d => { d with store := kput d.store k b, objs := kput d.objs k b, inUse := kput d.inUse k b }) s
    let s := modSys (fun y => { y with resetting := none }) (modPower (fun p => { p with sequence := 4 }) s)
    if inputBack = false ∨ s.power.tripped = true then s
    else
      let s := requestReset 0 3 255 (modPower (fun p => { p with sequence := 0 }) s)
      modSys (fun y => { y with drained := true }) s
  else s)

/-! Thermal trips (R506-R508). -/

/-- A sensor reaches its trip level: sensors 0 to 63 die, 64 to 79 stacks, 80 to 87 regulators. The rails go, the stores drain. -/
def execThermTrip (sensor : Nat) (s : State) : Outcome :=
  done (if 88 ≤ sensor ∨ s.power.tripped = true then s
  else modSys (fun y => { y with drained := false }) (modPower (fun p => { p with tripped := true }) (stopDie s)))

/-- Every sensor has cooled: THERM_TRIP_N is released and a cold reset of source 0 starts (R507). -/
def execThermTripRecover (s : State) : Outcome :=
  done (if s.power.tripped = true ∧ (s.power.sequence = 0 ∧ s.sys.drained = true ∨ s.power.sequence = 4) then
    let s := modSys (fun y => { y with resetting := none }) (modPower (fun p => { p with tripped := false, sequence := 0 }) s)
    modSys (fun y => { y with drained := true }) (requestReset 0 3 255 s)
  else s)

/-! Anti-rollback, image writes and attestation (R491-R494). -/

/-- A slot whose image falls below the counter reads 3 (R492). -/
def belowCounter (v : Nat) (x : ImageSlot) : ImageSlot := if x.state = 1 ∧ x.version < v then { x with state := 3 } else x

/-- The write of 1215.00 (R492). -/
def advanceEffect (v : Nat) (s : State) : Effect :=
  checked [(decide (v < s.sys.fuses ∨ 64 < v), stRange), (decide (s.sys.runningVersion < v), stState)] s
    (modSys (fun y => { y with fuses := v, slotA := belowCounter v y.slotA, slotB := belowCounter v y.slotB }))

/-- The last segment of 1220.00 has arrived: the image is verified, and programmed once it has passed (R491). -/
def imageEffect (b : Bytes) (s : State) : Effect :=
  let k := inactiveSlot s
  let r := verifyImage s 0 b
  let bad (st : Nat) : Effect := (st, setImage k ⟨slotStateOf r, 0, zeroBytes 32, []⟩ (refuseImage r s))
  match r with
  | 0 => (stOk, modSys (fun y => { y with writing := b }) (setImage k ⟨4, imageVersion b, imageDigest b, []⟩ s))
  | 1 => bad stRange
  | 4 => bad stState
  | _ => bad stDigest

/-- A first segment begins to replace the inactive slot's image, unless a handover runs (R491). -/
def imageBegin (s : State) : Effect :=
  checked [(s.sys.handover == 1, stBusy)] s (fun s => setImage (inactiveSlot s) ⟨0, 0, zeroBytes 32, []⟩ s)

/-- The image is programmed: the slot is valid (R491). -/
def execImageProgramDone (s : State) : Outcome :=
  let k := inactiveSlot s
  let x := slotImage s k
  done (if x.state = 4 ∧ firmwareRuns s = true then
    setImage k (belowCounter s.sys.fuses { x with state := 1, image := s.sys.writing }) (modSys (fun y => { y with writing := [] }) s)
  else s)

/-- The write of 1230.00 (R494). -/
def nonceEffect (client : Nat) (nonce : Bytes) (s : State) : Effect :=
  checked [((kget s.sys.nonces client).isSome, stBusy)] s (modSys (fun y => { y with nonces := kput y.nonces client nonce }))

/-- Bytes 0 to 383 of an attestation report. -/
def reportBody (s : State) (client : Nat) (nonce : Bytes) : Bytes :=
  let inactive := slotImage s (inactiveSlot s)
  let route (k : Nat) : Bytes := if (slotOf s k).state = 0 then zeroBytes 32 else ((slotOf s k).route.map (·.digest)).getD (zeroBytes 32)
  let flags := (if s.host.module = 2 then 1 else 0) + (if s.host.module = 3 then 2 else 0) +
    (if s.dict.unlocked.any (fun w => w.client == client) then 4 else 0)
  le 4 0x54415A45 ++ le 2 1 ++ le 2 768 ++ le 8 s.beat.count ++ le 2 (deviceNumber s) ++ le 1 client ++ le 1 flags ++
    le 4 s.sys.fuses ++ le 4 s.sys.runningVersion ++ zeroBytes 4 ++ padTo 32 nonce ++ s.sys.runningDigest ++
    (if inactive.state = 1 then inactive.digest else zeroBytes 32) ++ s.dict.digest ++ s.dict.moduleDig ++
    slotNumbers.flatMap (fun k => padTo 32 (route k)) ++ sha256 Config.certificate ++ zeroBytes 32

/-- Steward core 0 has signed the report of a client (R494). -/
def execAttestationSigned (client : Nat) (s : State) : Outcome :=
  done (match kget s.sys.nonces client with
    | none => s
    | some nonce =>
      let b := reportBody s client nonce
      if firmwareRuns s = false then s
      else draw (modSys (fun y => { y with nonces := kdel y.nonces client, reports := kput y.reports client (b ++ padTo 384 (Config.sign b (drawn s))) }) s))

end Sys2Proof.Machine
end

