-- ==== Sys2Proof/Machine/Epoch.lean ====
section
/-! DEFINITION. Staging sets and the epoch commit (R76, R402-R405), and spare-worker takeover (R379-R383). -/

namespace Sys2Proof.Machine

/-! What the beat plan asks of a period (R60, R61). -/

/-- The least void gap, in beats, for a period and a depth of the mark tree (R61). -/
def leastGap (p depth : Nat) : Nat := ceilDiv (2 * depth * 180 * 1000) (p * 588) + 1

/-- The lag limit and the void gap of a training route under a configured period. -/
def planFits (b : BeatPlan) (p : Nat) : Bool :=
  decide (b.lagLimit ≤ b.slack.length * (p - 64)) && decide (leastGap p (if b.isLocal then 0 else 16) ≤ b.voidGap)

/-! Staging (R76, R402). -/

/-- The values of the dictionary once the staging set is in force. -/
def afterCommit (s : State) : KMap Bytes := s.dict.staging.values.foldl (fun m e => kput m e.1 e.2) s.dict.objs

/-- Format codes that a route names: in MMO descriptors and in the cargoes of its manifest; programs are judged word by word. -/
def routeFormats (s : State) (r : Route) : List Nat :=
  r.mmos.flatMap (fun d => [d.formatA, d.formatB, d.formatC]) ++
  r.manifest.filterMap (fun m => (cargoOf s m.handle).map (fun c => c.2.format)) ++
  r.programs.flatMap (fun p => (programWords p).filterMap (fun w =>
    if gOpcode w = 0x28 ∨ gOpcode w = 0x29 ∨ gOpcode w = 0x2A then some (gFormat w) else none))

/-- User formats that two format tables give differently. -/
def changedFormats (a b : Bytes) : List Nat :=
  (List.range 16).filterMap (fun k => if slice a (16 * k) 16 = slice b (16 * k) 16 then none else some (16 + k))

/-- Bit 0 of the pipeline header's flags: deterministic mode is required (R210). -/
def Route.needsDeterministic (r : Route) : Bool := r.training && bit (field r.plan.pipeline 1 1) 0

/-- Groups of resident routes' update records (R244). -/
def groupsInUse (s : State) : List Nat := (residents s).flatMap (fun e => routeGroups e.2)

/-- What may not change in a group's record while a resident route names the group (R246). -/
def groupFixed (t : Bytes) (g : Nat) : Nat × Nat × Nat :=
  let r := groupRec t g
  (grpRule r, bits (field r 1 1) 4 3, grpWorking r)

/-- A value of an RWE object that its chapter refuses against what is resident: 2301.00 (R223), 2902.00 (R408), 6200.00 (R206) and
6400.00 (R246). -/
def stateRefused (s : State) (index : Nat) (v : Bytes) : Bool :=
  match index with
  | 0x2301 => leNat v == 0 && (residents s).any (fun e => e.2.needsDeterministic)
  | 0x2902 => (List.range 32).any (fun u => decide (1043968 - leNat v * 16384 / 32 < (cargoFrames s 2 u false).length))
  | 0x6200 => (residents s).any (fun e => (routeFormats s e.2).any (fun c => (changedFormats (stored s 0x6200 0) v).contains c))
  | 0x6400 => (groupsInUse s).any (fun g => groupFixed v g != groupFixed (stored s 0x6400 0) g)
  | _ => false

/-- A staged value that its chapter refuses against the resident routes (R402): those of `stateRefused`, a period under R60 and R61,
a refresh list under R442. -/
def stagedRefused (s : State) : Bool :=
  s.dict.staging.values.any (fun e => stateRefused s (e.1 / 256) e.2) ||
  ((staged s 0x1101 0).map leNat).any (fun p => (residents s).any (fun e => e.2.fabric && e.2.training && !planFits e.2.plan p)) ||
  ((staged s 0x2B10 0).any (fun v => !refreshListOk s v))

/-- The write of 1501.00: 1 opens, 2 closes, 3 discards (R402). -/
def stagingEffect (v : Nat) (s : State) : Effect :=
  let g := s.dict.staging
  let commit := leNat (stored s 0x1502 0)
  match v with
  | 1 => checked [(g.state != 0, stState)] s (modDict (fun d => { d with staging := ⟨1, [], 0⟩ }))
  | 2 => checked [(g.state != 1, stState), (decide (commit < s.beat.count + 4096), stEpoch), (stagedRefused s, stState),
      (configDigest (afterCommit s) != stored s 0x1503 0, stDigest)] s (fun s =>
        armRefresh ((staged s 0x2B10 0).getD []) (journalled (modDict (fun d => { d with staging := { d.staging with state := 2, commit := commit } }) s)))
  | _ => checked [(g.state == 0, stState), (g.state == 2 && decide (g.commit < s.beat.count + 1024), stState)] s
      (modDict (fun d => { d with staging := ⟨0, [], 0⟩ }))

/-- Bytes of DOMAIN values in the open set. -/
def stagedDomainBytes (s : State) : Nat :=
  sumNat (s.dict.staging.values.map (fun e => if (rowOf (e.1 / 256) (e.1 % 256)).ty = .domain then e.2.length else 0))

/-- A value enters the open set (R76, R402). -/
def stageValue (index sub : Nat) (v : Bytes) (s : State) : Effect :=
  let g := s.dict.staging
  let k := objKey index sub
  let isDomain := (rowOf index sub).ty == .domain
  let old := if isDomain then ((kget g.values k).map List.length).getD 0 else 0
  checked [(g.state != 1, stEpoch), ((kget g.values k).isNone && decide (1024 ≤ g.values.length), stCapacity),
      (isDomain && decide (67108864 < stagedDomainBytes s - old + v.length), stCapacity)] s
    (modDict (fun d => { d with staging := { d.staging with values := kput d.staging.values k v } }))

/-- An object takes a value in force at once, and in the store where it is a P object (R81). -/
def putObject (index sub : Nat) (v : Bytes) (s : State) : State :=
  let s := modDict (fun d => { d with objs := kput d.objs (objKey index sub) v, inUse := kput d.inUse (objKey index sub) v }) s
  if (rowOf index sub).persist then journalled (modDict (fun d => { d with store := kput d.store (objKey index sub) v }) s) else s

/-- Both digests over the values in force (R400). -/
def renewDigests : State → State := modDict (fun d => { d with digest := configDigest d.objs, moduleDig := moduleDigest d.objs })

/-! Takeover (R380-R383). -/

def tkFailed (e : Bytes) : Nat := field e 0 2
def tkSpare (e : Bytes) : Nat := field e 2 2
def tkSlot (e : Bytes) : Nat := field e 4 1
def tkStep (e : Bytes) : Nat := field e 8 6

/-- The spare's entries take the place of the failed device's, and are cleared. -/
def patchRows (failed spare : Nat) (rows : List LinkRow) : List LinkRow :=
  let kept := rows.filter (fun x => x.device != failed && x.device != spare)
  let moved := (rows.filter (fun x => x.device == spare)).flatMap (fun x => [{ x with device := failed }, { x with sides := onesBytes 4 }])
  kept ++ moved

def patchControl (failed spare : Nat) (t : Bytes) : Bytes :=
  overwrite (overwrite t failed (slice t spare 1)) spare [255]

/-- One entry of a takeover list comes into force (R381). -/
def takeOver (e : Bytes) (s : State) : State :=
  let failed := tkFailed e
  let spare := tkSpare e
  let slot := tkSlot e
  let s := modSlot slot (fun x => { x with route := x.route.map (fun r => if r.fabric then { r with linkTables := patchRows failed spare r.linkTables } else r) }) s
  let s := putObject 0x6800 0 (patchControl failed spare (stored s 0x6800 0)) s
  let s := modNet (fun n => { n with failedDevices := if n.failedDevices.contains failed then n.failedDevices else n.failedDevices ++ [failed] }) s
  let s := (List.range 64).foldl (fun s l =>
    if linkIsUp s l && (linkOf s l).peer == failed && deviceNumber s != spare then
      event evtTakenOverPeer (atInst l) (le 2 failed) (modLink l (fun x => { x with takenOver := true }) s)
    else s) s
  let mine := deviceNumber s == spare
  let ready := spareReadyFor s == some (slot, failed)
  let s := if mine && !ready then event evtTakeoverFail (atSlot slot) (le 2 failed) s
    else if mine then
      match routeOf s slot with
      | some r => startRoute slot r (putObject 0x2805 0 (le 2 failed) s)
      | none => s
    else s
  let s := event evtTakeover (atSlot slot) (le 2 failed ++ le 2 spare) (count 0x5025 0 1 s)
  if (routeOf s slot).any (fun r => r.fabric && r.training) ∧ ¬(mine = true ∧ ready = false) then
    acceptRestore slot 0 (tkStep e) (s.beat.count + setting s 0x3906 0) s
  else s

/-! The commit (R403, R405). -/

/-- What a staged value does as it comes into force, beyond standing in the dictionary. -/
def commitValue (before : State) (key : Nat) (v : Bytes) (s : State) : State :=
  let index := key / 256
  let sub := key % 256
  if index = 0x2004 then (if leNat v = 1 then substitute sub s else returnHome sub s)
  else if index = 0x1104 then
    if leNat v = deviceNumber s ∧ setting before 0x1104 0 ≠ leNat v ∧ s.beat.state ≠ 3 then takeMaster (s.beat.term + 1) s else s
  else if index = 0x2901 then (if setting before 0x2901 0 = leNat v then s else keeperChanged s)
  else if index = 0x2984 then (records 16 v).foldl (fun s e => takeOver e s) s
  else if index = 0x2B10 then { s with refresh := { s.refresh with swapDue := s.refresh.state != 0 && s.refresh.state != 4 } }
  else s

/-- Cycle 0 of the beat at which the closed set comes into force: its commit beat, or, once a module that was reset has a beat count past it, the
next beat (R403, R405). -/
def epochNow (s : State) : Bool :=
  let g := s.dict.staging
  g.state == 2 && firmwareRuns s &&
    (commitNow s g.commit || (s.sys.lateSet && s.beat.state != 0 && decide (s.clock = s.beat.opened) && decide (g.commit < s.beat.count)))

/-- The closed set comes into force (R403, R405). -/
def execEpochCommit (s : State) : Outcome :=
  let g := s.dict.staging
  done (if epochNow s = false then s
  else
    let before := s
    let late := s.sys.lateSet && decide (g.commit < s.beat.count)
    let s := modDict (fun d => { d with staging := ⟨0, [], 0⟩, lastCommit := s.beat.count }) (modSys (fun y => { y with lateSet := false }) s)
    let s := g.values.foldl (fun s e => putObject (e.1 / 256) (e.1 % 256) e.2 s) s
    let s := g.values.foldl (fun s e => commitValue before e.1 e.2 s) s
    let s := rePace before (renewDigests s)
    let s := event evtEpochCommit nowhere [] (count 0x5020 0 1 s)
    let s := if late then event evtEpochLate nowhere [] (count 0x5022 0 1 s) else s
    signal 0 2 s)

end Sys2Proof.Machine
end

