-- ==== Sys2Proof/Machine/Host.lean ====
section
/-! DEFINITION. The PCIe port: its link (R457), the boot window (R464, R489), the cargo aperture of BAR4 (R465, R466), and the host window
(R467). -/

namespace Sys2Proof.Machine

/-! The link (R457, R472). -/

/-- The link comes up at a rate (5 is 32 GT/s, 6 is 64, 7 is 128) and a width. -/
def execPcieLinkUp (rate width : Nat) (s : State) : Outcome :=
  done (if 5 ≤ rate ∧ rate ≤ setting s 0x1402 0 ∧ rate ≤ 7 ∧ (width = 4 ∨ width = 8 ∨ width = 16) ∧ s.host.perst = false ∧ powered s = true then
    modHost (fun h => { h with link := rate, width := width }) s
  else s)

/-- A link that goes down without PERST_N resets nothing; its TH requests fail (R471). -/
def execPcieLinkDown (s : State) : Outcome := done (failHostRequests (modHost (fun h => { h with link := 0, width := 0 }) s))

/-- A transfer of tier TH is outstanding. -/
def hostOutstanding (s : State) : Bool :=
  s.engines.any (fun e => e.2.outstanding.any (fun t => (cargoAt s t.desc.cargoHandle).2.tier == 4))

/-- The write of 1403.00 (R472). -/
def pcieRetrainEffect (s : State) : Effect :=
  checked [(hostOutstanding s, stState)] s (modHost (fun h => { h with link := 1, width := 0 }))

/-! The boot window (R464, R489). -/

/-- The boot doorbell: a segment joins the image, and the last one has it verified. It acts only under BOOT_SRC 10, before verified
firmware runs; while the status is 1 or 2 it is ignored. -/
def execBootDoorbell (value : Word) (segment : Bytes) (s : State) : Outcome :=
  let n := bits value.toNat 23 0
  let st := s.host.bootStatus
  done (if s.sys.straps / 4 % 4 ≠ 2 ∨ s.host.module ≠ 0 ∨ st = 1 ∨ st = 2 ∨ bits value.toNat 30 24 ≠ 0 ∨ 2 ^ 24 < n ∨
      s.sys.resetting.isSome = true ∨ powered s = false then s
  else
    let image := (if st = 4 then [] else s.host.bootImage) ++ padTo n segment
    let s := setBootStatus 1 (modHost (fun h => { h with bootImage := image }) s)
    if bit value.toNat 31 = false then setBootStatus 0 s
    else
      let s := setBootStatus 2 s
      match verifyImage s 0 image with
      | 0 => setBootStatus 3 (runImage image 2 1 s)
      | r => setBootStatus 4 (modHost (fun h => { h with bootImage := [] }) (refuseImage r s)))

/-! The cargo aperture (R465, R466). -/

/-- Bytes of a window: a sixty-fourth of BAR4, 16 GiB on a virtual function (R460, R465). -/
def apertureBytes (s : State) (function : Nat) : Nat := (if function = 0 then s.host.bar4 else 2 ^ 34) / 64

def winHandle (b : Bytes) : Nat := field b 0 4
def winFirst (b : Bytes) : Nat := field b 4 4
def winPages (b : Bytes) : Nat := field b 8 4
def winRead (b : Bytes) : Bool := bit (field b 12 1) 0
def winWrite (b : Bytes) : Bool := bit (field b 12 1) 1

/-- The write of 1410.w of a client (R465): every ST_RANGE comes before the ST_STATE (R94). The window follows at the next beat (R75). -/
def windowEffect (client window : Nat) (b : Bytes) (s : State) : Effect :=
  let h := winHandle b
  let mapped := h != 0xFFFFFFFF
  let c := ((cargoOf s h).map (·.2)).getD Cargo.free
  checked [(decide (3 < field b 12 1) || !zeroAt b 13 3 || (mapped && ((cargoOf s h).isNone || c.client != client)), stRange),
      (mapped && (decide (c.pageCount < winFirst b + winPages b) || decide (apertureBytes s client < winPages b * pageBytes)), stRange),
      (mapped && c.state == 2, stState)] s
    (modHost (fun x => { x with
      windowsSet := if mapped then kput x.windowsSet (client * 64 + window) b else kdel x.windowsSet (client * 64 + window) }))

/-- What an access at an offset of a function's BAR4 maps to: window, cargo, byte of the cargo; none where nothing answers. -/
def windowAt (s : State) (function offset length : Nat) (write : Bool) : Option (Nat × Nat × Nat) :=
  let w := offset / apertureBytes s function
  match kget s.host.windows (function * 64 + w) with
  | none => none
  | some b =>
    let x := offset % apertureBytes s function
    match cargoOf s (winHandle b) with
    | some (i, _) =>
      if x + length ≤ winPages b * pageBytes ∧ (if write then winWrite b else winRead b) = true then some (w, i, winFirst b * pageBytes + x) else none
    | none => none

/-- Pages whose fetch from the host is under way take what host memory returns, page by page, or fail with it; other pages take their home's
bytes. The truth value says that all is there. -/
def landPages (i : Nat) (pages : List Nat) (hostData : Option Bytes) (s : State) : State × Bool :=
  pages.zipIdx.foldl (fun r e =>
    if (kgetD Cargo.free r.1.mem.cargoes i).tier = 4 ∧ (frameOf r.1 i e.1).any (·.refilling) = true then
      match hostData with
      | some b => (refillLand i e.1 (some (slice b (e.2 * pageBytes) pageBytes)) r.1, r.2)
      | none => (refillFail i e.1 r.1, false)
    else (refillLand i e.1 none r.1, r.2)) (s, true)

/-- The access must go to the home of a page: the cargo is not far-cached, or the cache must fetch the page. -/
def goesHome (s : State) (i p : Nat) : Bool := !(kgetD Cargo.free s.mem.cargoes i).farCached || fetchesHome s i p

/-- The answer to a read of BAR4: Completer Abort for a failed one (R286, R466). -/
def abortRead (function i : Nat) (s : State) : State :=
  let c := kgetD Cargo.free s.mem.cargoes i
  emit (.completion function none) (count 0x543C c.client 1 (event evtCargoFail ⟨0xFF, c.client, 0xFFFF⟩ (le 4 (handleOf i c)) s))

/-- A host read of BAR4 (R466), through the T1 cache for a far-cached cargo (R280). `hostData` is what host memory returns for a TH cargo,
none on an error: the bytes read, or the whole pages where the cache fetches them. A page that is unmapped fails (R286); a read whose
pages find no frame waits: it is presented again. -/
def execBar4Read (function offset length : Nat) (hostData : Option Bytes) (s : State) : Outcome :=
  done (if hasFunction s function = false ∨ s.host.link < 5 ∨ 64 ≤ offset / apertureBytes s function then s
  else match windowAt s function offset length false with
    | none => emit (.completion function (some (zeroBytes length))) s
    | some (_, i, a) =>
      let c := kgetD Cargo.free s.mem.cargoes i
      let pages := pagesOf a length
      let answer (s : State) : State := emit (.completion function (some (cargoBytes s i a length))) s
      if c.state = 2 ∨ pages.any (fun p => unmapped s i p && goesHome s i p) = true then abortRead function i s
      else if c.farCached = true then
        let r := accessPages i pages s
        if r.2 = false then r.1
        else
          let x := landPages i pages hostData r.1
          if x.2 then answer x.1 else abortRead function i x.1
      else if c.tier = 4 then
        match hostData with
        | none => abortRead function i s
        | some b => emit (.completion function (some (padTo length b))) s
      else answer s)

/-- A host write of BAR4 (R466), through the T1 cache for a far-cached cargo. A write to an unmapped TH page fails and leaves no effect (R309);
a write to a T3 page that is refused is discarded and noted; one that waits, for admission or for a frame, is held by the port's flow
control and presented again. -/
def execBar4Write (function offset : Nat) (data : Bytes) (s : State) : Outcome :=
  done (if hasFunction s function = false ∨ s.host.link < 5 ∨ 64 ≤ offset / apertureBytes s function ∨ data = [] then s
  else match windowAt s function offset data.length true with
    | none => s
    | some (w, i, a) =>
      let c := kgetD Cargo.free s.mem.cargoes i
      let pages := pagesOf a data.length
      let write (s : State) : State := pages.foldl (fun s p => raiseGeneration i p s) (applyWrite i a data s)
      if c.state = 2 ∨ pages.any (fun p => hostAway s i p && goesHome s i p) = true then s
      else if c.farCached = true then
        let r := accessPages i pages s
        if r.2 then write r.1 else r.1
      else if c.tier = 3 then
        let frames := pages.map (fun p => ((pageOf s i p).map (·.frame)).getD 0)
        if s.flash.state ≠ 2 ∧ setting s 0x2701 0 = 1 ∧ admissiblePages s < outstandingPages s.flash + frames.length then s
        else match admitStore c.client frames false s with
          | (s, true) => write s
          | (s, false) => modHost (fun h => { h with refused := kput h.refused function (kgetD 0 h.refused function ||| 2 ^ w) }) s
      else write s)

/-! Configuration space (R458). -/

/-- What the configuration space of a function presents: vendor, device, class code, subsystem vendor, subsystem and revision. A virtual
function stands under the VF device ID of the SR-IOV capability; none where the function is not enabled. -/
def configIdentity (s : State) (function : Nat) : Option PcieIdentity :=
  if hasFunction s function = false then none
  else some (if function = 0 then s.host.identity else { s.host.identity with device := s.host.identity.vfDevice })

/-- The read of 1411.00 clears it (R472). -/
def refusedEffect (client : Nat) (s : State) : Nat × State :=
  (kgetD 0 s.host.refused client, modHost (fun h => { h with refused := kdel h.refused client }) s)

/-! The host window (R467). -/

/-- A base and a size of the host window that no live TH cargo would lie outside. -/
def hostWindowStatus (base pages : Nat) (s : State) : Nat :=
  let ok (c : Cargo) : Bool := c.pages.all (fun e => decide (base ≤ e.frame * 65536) && decide ((e.frame + 1) * 65536 ≤ base + pages * 65536))
  firstStatus [(base % 65536 != 0 || decide (268435456 < pages) || decide (2 ^ 64 < base + pages * 65536), stRange),
    ((liveCargoes s).any (fun e => e.2.tier == 4 && !ok e.2), stState)]

end Sys2Proof.Machine
end

