-- ==== Sys2Proof/Machine/Values.lean ====
section
/-! DEFINITION. What a read of each object returns (R77, R97): the measurements and tables that the state gives, and the stored value
of every other object. -/

namespace Sys2Proof.Machine

/-! Numbers, range by range of R70. -/

/-- Cycles as nanoseconds in binary32, at 1.7 GHz. -/
def cyclesNs (n : Int) : Nat := (toF32 (fdiv (fint (n * 10)) (fnat 17))).toNat

/-- Bits of a mask, from the numbers of the bits set. -/
def maskOf (xs : List Nat) : Nat := xs.foldl (fun m i => m ||| 2 ^ i) 0

/-- Beat objects (R66). -/
def beatNumber (s : State) (index sub : Nat) : Option Nat :=
  match index with
  | 0x1102 => some s.beat.count
  | 0x1103 => some s.beat.state
  | 0x1106 => some s.beat.governed
  | 0x1109 => some (cyclesNs s.beat.offset)
  | 0x110A => some (slotOf s sub).beat.count
  | 0x110B => some (slotOf s sub).beat.lag
  | 0x110D => some s.beat.term
  | _ => none

/-- Identity, reset, boot and security objects (R495, R496). -/
def bootNumber (s : State) (index sub : Nat) : Option Nat :=
  let y := s.sys
  match index, sub with
  | 0x1003, _ => some (Config.hardwareRevision % 256)
  | 0x1004, _ => some (Config.dieRevision % 256)
  | 0x1005, _ => some (Config.bootRomVersion % 65536)
  | 0x1200, 1 => some (y.lastSource * 16 + y.lastClass)
  | 0x1200, 3 => some y.watchdogCore
  | 0x1202, 0 => some y.resets.1
  | 0x1202, 1 => some y.resets.2.1
  | 0x1202, _ => some y.resets.2.2
  | 0x1204, _ => some y.straps
  | 0x1206, 0 => some y.bootResult
  | 0x1206, _ => some y.verifyResult
  | 0x1210, k => some (slotImage s k).state
  | 0x1211, _ => some y.active
  | 0x1212, k => some (slotImage s k).version
  | 0x1214, _ => some y.fuses
  | 0x1289, _ => some s.led.commands
  | _, _ => none

/-- Power and host objects (R330, R472). -/
def powerNumber (s : State) (client index sub : Nat) : Option Nat :=
  let p := s.power
  match index with
  | 0x1301 => some p.inputVolts.toNat
  | 0x1302 => some p.inputPower.toNat
  | 0x1303 => some p.dieTemp.toNat
  | 0x1307 => some p.holdup
  | 0x1308 => some p.bankVolts.toNat
  | 0x1309 => some p.capacitance.toNat
  | 0x130A => some (f32OfRat (deratedEnergy s)).toNat
  | 0x130B => some (admissiblePages s)
  | 0x130C => some (outstandingPages s.flash)
  | 0x1312 => some p.input
  | 0x1401 => some (if sub = 0 then s.host.link else s.host.width)
  | 0x1404 => some s.host.vfs
  | 0x1411 => some (kgetD 0 s.host.refused client)
  | 0x1506 => some s.dict.staging.state
  | 0x1507 => some (if s.dict.staging.state = 2 then s.dict.staging.commit else 0)
  | 0x1508 => some s.dict.lastCommit
  | 0x1509 => some (maskOf s.net.diverged)
  | 0x150A => some s.dict.staging.values.length
  | _ => none

/-- Stations of resident routes, with their slots. -/
def residentStations (s : State) : List (Nat × Route × StationRec) :=
  (residents s).flatMap (fun e => e.2.stations.map (fun st => (e.1, e.2, st)))

/-- Spill pages that queue records of resident routes take in a cluster (R136, 2046). -/
def spillPages (s : State) (c : Nat) : Nat :=
  sumNat ((residentStations s).map (fun e =>
    if e.2.2.info.place < 256 ∧ clusterOf e.2.2.info.place = c then sumNat (e.2.2.queues.map (fun q => if q.kind = 1 then q.spill else 0)) else 0))

/-- On-die pages that Stash stream records of resident routes take in a cluster (R214, 2308). -/
def stashPages (s : State) (c : Nat) : Nat :=
  sumNat ((residents s).map (fun e => sumNat (e.2.stash.map (fun x =>
    if ((e.2.station x.1).any (fun st => st.info.place < 256 && clusterOf st.info.place == c)) then sumNat ((records 24 x.2).map onDiePages) else 0))))

/-- Accumulator blocks of an array that resident routes hold (2142). -/
def blocksAllocated (s : State) (a : Nat) : Nat := sumNat ((residents s).map (fun e => (e.2.allocOn a).blocks))

/-- Tile registers of an array that resident routes hold (R187, 2202). -/
def registersHeld (s : State) (a : Nat) : Nat :=
  (residents s).foldl (fun m e => (e.2.programs.filter (fun p => (e.2.station p.station).any (fun st => st.info.place == a))).foldl
    (fun m p => m ||| field p.bytes 0 4) m) 0

/-- The array is gated in the present beat (R65). -/
def arrayGated (s : State) (a : Nat) : Bool := (arrayOf s a).gated || (slotsOn s a).isEmpty

/-- Fabric, firing, Wheel, tiling and Glaze objects (R118, R143, R164, R184, R209). -/
def arrayNumber (s : State) (index sub : Nat) : Option Nat :=
  let x := arrayOf s sub
  match index with
  | 0x2001 => some (min 2 (kgetD 0 s.fab.states sub))
  | 0x2002 => some (siteOf s sub)
  | 0x2003 => some (maskOf ((List.range 16).filter (fun c =>
      if sub = 0 then (List.range 256).any (fun a => clusterOf a == c && onSpare s a) else siteFailed s (256 + c))))
  | 0x2040 => some ((routeOf s sub).elim 0 (fun r => r.stations.length))
  | 0x2041 => some ((residentStations s).filter (fun e => Station.array e.2.2.info == sub && e.2.2.info.thread < 16)).length
  | 0x2042 => some (let us := (residents s).flatMap (fun e => e.2.units.filter (fun u => u.array == sub))
      (us.filter (·.merge)).length * 16 + (us.filter (fun u => !u.merge)).length)
  | 0x2046 => some (spillPages s sub)
  | 0x2101 => some (if arrayFailed s sub then 3 else if !x.mmos.isEmpty then 1 else if arrayGated s sub then 2 else 0)
  | 0x2105 => some (128 - blocksAllocated s sub)
  | 0x2140 => some x.mmos.length
  | 0x2141 => some x.written
  | 0x2142 => some (blocksAllocated s sub)
  | 0x2201 => some (if arrayFailed s sub then 3 else if !x.threads.isEmpty then 1 else if arrayGated s sub then 2 else 0)
  | 0x2202 => some (registersHeld s sub)
  | 0x2203 => some (maskOf ((List.range 16).filter (fun u => userDefined (stored s 0x6200 0) u)))
  | 0x3003 => some (selftestResult s sub)
  | 0x3042 => some (sumNat ((residents s).map (fun e => sumNat ((e.2.stationsOn sub).map (fun st =>
      (stationOf s e.1 st.info.number).flight.length)))))
  | 0x3102 => some x.wheelFraction.toNat
  | 0x3202 => some x.pipeFraction.toNat
  | 0x3304 => some (sumNat ((residents s).map (fun e => (e.2.gas.filter (fun g => gaArray g == sub)).length)))
  | _ => none

/-- Training and update objects (R236, R261). -/
def trainNumber (s : State) (index sub : Nat) : Option Nat :=
  let t := (slotOf s sub).train
  match index with
  | 0x2303 => some t.step
  | 0x2304 => some t.attempt
  | 0x2305 => some t.lastCommitted
  | 0x2306 => some t.state
  | 0x2308 => some (stashPages s sub)
  | 0x230B => some (narrow32 t.lastLoss.toNat).toNat
  | 0x2401 => some (kilnState s (0x100 + sub))
  | 0x2402 => some (kilnState s (0x200 + sub))
  | 0x2404 => some t.lastNorm.toNat
  | 0x2405 => some t.lastClip.toNat
  | 0x2406 => some (((records 64 (stored s 0x6400 0)).filter grpDefined).length)
  | _ => none

/-- Frames of a tier that nothing holds: neither a cargo nor, on the stacks, the T1 cache. -/
def freeOf (s : State) (tier units : Nat) : Nat :=
  sumNat ((List.range units).map (fun u => unitCap s tier u false - (cargoFrames s tier u false).length -
    (if tier = 1 then (cacheFrames s u).length else 0)))

/-- Memory, streaming and flash objects (R290, R314, R331). -/
def memoryNumber (s : State) (client index sub : Nat) : Option Nat :=
  match index, sub with
  | 0x2501, 0 => some (freeOf s 0 256)
  | 0x2501, 1 => some (freeOf s 1 16)
  | 0x2501, 2 => some (freeOf s 2 32)
  | 0x2501, 3 => some (134217728 - (cargoFrames s 3 0 false).length)
  | 0x2501, _ => some (setting s 0x1431 0 - (cargoFrames s 4 0 false).length)
  | 0x2502, _ => some ((liveCargoes s).filter (fun e => e.2.state == 1)).length
  | 0x2504, _ => some (cacheCapacity s)
  | 0x2505, _ => some s.mem.cache.length
  | 0x2506, _ => some (s.mem.cache.filter (·.dirty)).length
  | 0x2511, _ => some (progressOf s client).1
  | 0x2512, _ => some (progressOf s client).2
  | 0x2601, a => some (engineOf s a).outstanding.length
  | 0x2602, k => some (requestsAt s (1, k))
  | 0x2603, k => some (requestsAt s (2, k))
  | 0x2604, _ => some (requestsAt s (3, 0))
  | 0x2605, _ => some (requestsAt s (4, 0))
  | 0x2607, a => some (engineOf s a).pairs.length
  | 0x2703, _ => some (f32OfRat ((sumNat (s.flash.sets.map (fun e => e.2.erases)) : Rat) / 147456 / 3000 * 100)).toNat
  | 0x2704, _ => some (erasedSets s.flash)
  | 0x2705, _ => some s.flash.bad.length
  | 0x2706, k => some (kgetD 0 s.flash.channels k)
  | 0x2707, _ => some s.flash.state
  | _, _ => none

/-- Link and Ethernet objects (R358, R359). -/
def linkNumber (s : State) (index sub : Nat) : Option Nat :=
  let x := linkOf s sub
  match index with
  | 0x2801 => some x.state
  | 0x2802 => some x.peer
  | 0x2803 => some x.peerLink
  | 0x2804 => some (cyclesNs ((kgetD 0 s.beat.latency sub : Nat) : Int))
  | 0x2806 => some (lanesValue x)
  | 0x2F01 => some (Config.managementMac % 2 ^ 48)
  | 0x2F06 => some s.net.management
  | 0x2F21 => some (Config.portMac sub % 2 ^ 48)
  | 0x2F25 => some x.port
  | _ => none

/-- A takeover names the slot: staged, or in force with its restore under way (2987). -/
def takeoverState (s : State) (slot : Nat) : Nat :=
  if (secureOf s slot).restoring.isSome && (records 16 (stored s 0x2984 0)).any (fun e => tkSlot e == slot) then 2
  else if takeoverNames s slot then 1 else 0

/-- Resilience objects (R384, R408). -/
def resilienceNumber (s : State) (index sub : Nat) : Option Nat :=
  match index with
  | 0x2906 => some (secureOf s sub).last
  | 0x2907 => some (secureState s sub)
  | 0x2908 => some (secureOf s sub).next
  | 0x2909 => some s.keeper.tau
  | 0x290A => some s.keeper.meas.toNat
  | 0x290B => some s.keeper.mean.toNat
  | 0x2982 => some (collOf s sub).carries.length
  | 0x2985 => some (if setting s 0x2983 0 = 0 then 0 else if (spareReadyFor s).isSome then 1
      else if (residents s).any (fun e => e.2.fabric) then 2 else 0)
  | 0x2986 => some (((spareReadyFor s).map (·.2)).getD 0xFFFF)
  | 0x2987 => some (takeoverState s sub)
  | 0x29C1 => some s.sys.handover
  | 0x29C2 => some ((inTransit s).getD 255)
  | _ => none

/-- A serving route: one with Port records and no step. -/
def Route.serving (r : Route) : Bool := !r.training && !r.plan.ports.isEmpty

/-- Sharing, serving and counter-control objects (R423, R445, R456). -/
def sharingNumber (s : State) (index sub : Nat) : Option Nat :=
  let v := serveOf s sub
  match index with
  | 0x2A04 => some (if (slotOf s sub).state = 0 then 255 else (slotOf s sub).owner)
  | 0x2A05 => some (slotOf s sub).state
  | 0x2A06 => some (admissionQueue s).length
  | 0x2A07 => some (kgetD 255 s.fab.holders sub)
  | 0x2B01 => some (if (routeOf s sub).any Route.serving then (if v.stopped then 2 else 1) else 0)
  | 0x2B03 => some (v.requests.filter (fun q => q.phase == 0)).length
  | 0x2B04 => some (v.requests.filter (fun q => q.phase == 1)).length
  | 0x2B05 => some v.bank
  | 0x2B06 => some v.bankStep
  | 0x2B11 => some s.refresh.state
  | 0x2C01 => some s.ctr.captureBeat
  | 0x2C03 => some s.led.steps
  | 0x2C04 => some s.led.events
  | _ => none

/-- The slow-down of the training route of a slot: the mean of its last steps' cycles over its solo reference (R421). -/
def slowDown (s : State) (slot : Nat) : Nat :=
  let t := (slotOf s slot).train
  let xs := t.stepCycles.take (setting s 0x3A01 0)
  if xs = [] ∨ t.solo = 0 then 0 else (f32OfRat ((sumNat xs : Rat) / (xs.length : Rat) / (t.solo : Rat))).toNat

/-- Frames that a client's cargoes hold in the T1 cache (R284). -/
def framesHeld (s : State) (client : Nat) : Nat := (s.mem.cache.filter (fun f => f.client == client)).length

/-- The objects of a client's block (R424). -/
def clientNumber (s : State) (index sub : Nat) : Option Nat :=
  let n := (index - 0x4000) / 16
  let owns := (slotsHeld s n).contains sub
  match index % 16, sub with
  | 2, _ => some (admissionOf s n).state
  | 3, _ => some (admissionOf s n).refusal
  | 4, _ => some (queuePosition s n)
  | 7, _ => some (if owns then (slotOf s sub).train.solo else 0)
  | 8, _ => some (if owns then slowDown s sub else 0)
  | 9, 0 => some (framesHeld s n)
  | 9, _ => some (framesHeld s n - setting s 0x2540 n * cacheCapacity s / 100)
  | 10, _ => some (maskOf (slotsHeld s n))
  | _, _ => none

/-- The value of a numeric object that the state gives; none where the object holds a stored value. -/
def measured (s : State) (client index sub : Nat) : Option Nat :=
  if 0x4000 ≤ index ∧ index ≤ 0x43FF then clientNumber s index sub
  else if 0x5000 < index ∧ index < 0x6000 then some (capturedValue s index sub)
  else
    match index / 256 with
    | 0x10 => bootNumber s index sub
    | 0x11 => beatNumber s index sub
    | 0x12 => bootNumber s index sub
    | 0x13 => powerNumber s client index sub
    | 0x14 => powerNumber s client index sub
    | 0x15 => powerNumber s client index sub
    | 0x23 => trainNumber s index sub
    | 0x24 => trainNumber s index sub
    | 0x25 => memoryNumber s client index sub
    | 0x26 => memoryNumber s client index sub
    | 0x27 => memoryNumber s client index sub
    | 0x28 => linkNumber s index sub
    | 0x2F => linkNumber s index sub
    | 0x29 => resilienceNumber s index sub
    | 0x2A => sharingNumber s index sub
    | 0x2B => sharingNumber s index sub
    | 0x2C => sharingNumber s index sub
    | _ => arrayNumber s index sub

/-! Strings, digests and tables. -/

/-- The secured states held for a slot, 16 bytes each (2910): step, source, complete bit and beat of completion. -/
def securedList (s : State) (slot : Nat) : Bytes :=
  ((heldStates s slot).take 6).flatMap (fun e => le 6 e.step ++ le 1 e.source ++ le 1 (if e.ready s then 1 else 0) ++ le 8 e.beat)

/-- A record of the cargo table (R290). -/
def cargoRecord (s : State) (i : Nat) : Bytes :=
  let c := kgetD Cargo.free s.mem.cargoes i
  if c.state = 0 then zeroBytes 64
  else
    let fs := s.mem.cache.filter (fun f => f.cargo == i)
    le 4 (handleOf i c) ++ le 1 c.state ++ le 1 c.client ++ [0] ++
      le 1 ((residents s).filter (fun e => e.2.manifest.any (fun m => m.handle == handleOf i c))).length ++
      le 4 fs.length ++ le 4 (fs.filter (·.pinned)).length ++ padTo 48 c.attr

/-- Bytes of a ring or table of records of `n` bytes, from an offset on. -/
def tableSlice (n : Nat) (rec : Nat → Bytes) (offset length : Nat) : Bytes :=
  slice ((List.range (length / n + 2)).flatMap (fun k => rec (offset / n + k))) (offset % n) length

/-- The length of a DOMAIN that is no stored value, and its bytes from an offset on. -/
structure Domain where
  length : Nat
  bytes : Nat → Nat → Bytes

/-- A DOMAIN from its bytes. -/
def Domain.of (b : Bytes) : Domain := ⟨b.length, fun o n => slice b o n⟩

/-- A table of `k` records of `n` bytes; a record that nothing has written reads as zero. -/
def Domain.table (n k : Nat) (rec : Nat → Bytes) : Domain := ⟨n * k, tableSlice n (fun i => padTo n (rec i))⟩

/-- The DOMAIN objects that the state gives. -/
def tableOf (s : State) (client index sub : Nat) : Option Domain :=
  match index with
  | 0x1006 => some (.of Config.certificate)
  | 0x1007 => some (.of (padTo 388 Config.identityKey))
  | 0x1231 => some (.of ((kget s.sys.reports client).getD []))
  | 0x1410 => some (.of ((kget s.host.windowsSet (client * 64 + sub)).getD (dfltBytes (rowOf 0x1410 sub) sub)))
  | 0x2910 => some (.of (securedList s sub))
  | 0x2980 => some (.of (padTo 64 ((routeOf s sub).elim [] (fun r => r.plan.cut.take 64))))
  | 0x6140 => some (.table 48 1024 (fun i => kgetD [] (arrayOf s sub).records i))
  | 0x6402 => some (.table 16 4096 (fun i => (kget s.kilns.groups i).elim [] (fun g => le 8 g.updates ++ le 6 g.lastStep)))
  | 0x6403 => some (.of (slotOf s sub).train.coefficients)
  | 0x6500 => some (.table 64 65536 (cargoRecord s))
  | 0x6700 => some (.of (s.flash.bad.flatMap (le 4)))
  | 0x6C00 => some (.of (stationRecords s sub))
  | 0x6C01 => some (.of (stationRecords s 1))
  | 0x6C02 => some (.of (stationRecords s 2))
  | 0x6C03 => some (.of (stationRecords s 3))
  | 0x6F00 => some (.table 32 65536 (fun i => kgetD [] s.led.command i))
  | 0x6F01 => some (.table 32 2097152 (fun i => kgetD [] s.led.step i))
  | 0x6F02 => some (.table 32 65536 (fun i => kgetD [] s.led.event i))
  | _ => none

/-- Strings and digests that the state gives. -/
def octets (s : State) (index sub : Nat) : Option Bytes :=
  match index with
  | 0x1001 => some partNumber
  | 0x1002 => some Config.serialNumber
  | 0x1008 => some (sha256 Config.certificate)
  | 0x1213 => some (slotImage s sub).digest
  | 0x1240 => some Config.rootKeyHash
  | 0x1504 => some s.dict.digest
  | 0x1505 => some s.dict.moduleDig
  | _ => none

/-- What an object reads as for a client, staged values aside: every object but the tables (R74, R77). -/
def objValue (s : State) (who : Who) (index sub : Nat) : Bytes :=
  let r := rowOf index sub
  match octets s index sub with
  | some b => b
  | none =>
    if index = 0x1280 then le 1 (if s.dict.unlocked.contains who then 1 else 0)
    else if index = 0x2004 then le 1 (if onSpare s sub then 1 else 0)
    else if index = 0x1420 then le 1 (if s.host.releaseSet.contains who.client then 1 else 0)
    else if r.access = .ro then
      match measured s who.client index sub with
      | some n => le ((r.ty.size).getD 0) n
      | none => stored s index sub
    else stored s index sub

/-- A DOMAIN object: a table of the state or a stored value. -/
def domainOf (s : State) (client index sub : Nat) : Domain := (tableOf s client index sub).getD (.of (stored s index sub))

end Sys2Proof.Machine
end

