-- ==== Sys2Proof/Machine/Writes.lean ====
section
/-! DEFINITION. What a write of each object does beyond storing its value: the checks that its chapter states, the commands, and expert
level (R79, R82, R85, R86). -/

namespace Sys2Proof.Machine

/-! Checks of tables (R246, R248, R380, R442). -/

def finite32 (w : Word) : Bool := bits w.toNat 30 23 != 255

/-- The rules of R246 on one parameter group record. -/
def groupRecOk (b : Bytes) : Bool :=
  let nonNegative (w : Word) : Bool := finite32 w && !flt (f32 w) (fnat 0)
  let positive (w : Word) : Bool := finite32 w && flt (fnat 0) (f32 w)
  let beta (w : Word) : Bool := nonNegative w && flt (f32 w) (fnat 1)
  let curve (n : Nat) : Bool := n ≤ 255 || n == 0xFFFF
  if grpDefined b then
    grpRule b ≤ 9 && beta (grpF32 b 12) && beta (grpF32 b 16) && nonNegative (grpF32 b 8) && nonNegative (grpF32 b 24) &&
    positive (grpF32 b 20) && (!clippedRule (grpRule b) || positive (grpF32 b 28)) && finite32 (grpF32 b 32) &&
    ((1 ≤ grpWorking b && grpWorking b ≤ 9) || (grpWorking b == 0xFF && grpMasterBf16 b)) &&
    curve (field b 4 2) && curve (field b 6 2) && field b 1 1 < 32 && grpRounding b < 3 && field b 36 1 ≤ 15 && zeroAt b 37 27
  else zeroAt b 0 64

/-- The rules of R248 on one curve; `named` says that a defined group names it. -/
def curveOk (named : Bool) (b : Bytes) : Bool :=
  let n := field b 0 2
  let ps := curvePoints b 0
  n ≤ 1024 && zeroAt b 2 14 && ascending (ps.map (·.1)) && ps.all (fun p => p.1 < 2 ^ 48 && finite32 p.2) &&
  zeroAt b (16 + 12 * n) (12304 - 16 - 12 * n) && (!named || 1 ≤ n)

/-- The rules of R248 on the curve tables, against the groups staged or in force. -/
def curvesOk (s : State) (t : Bytes) : Bool :=
  let groups := (records 64 ((staged s 0x6400 0).getD (stored s 0x6400 0))).filter grpDefined
  ((records 12304 t).zipIdx).all (fun e => curveOk (groups.any (fun g => field g 4 2 == e.2 || field g 6 2 == e.2)) e.1)

/-- An entry of a takeover list (R380, R385). -/
def takeoverOk (e : Bytes) : Bool := tkFailed e != tkSpare e && tkSlot e ≤ 3 && zeroAt e 5 3 && zeroAt e 14 2

/-- A refresh entry's reserved bytes, slots and handles (R271, R442). -/
def refreshOk (s : State) (e : Bytes) : Bool :=
  refServing e ≤ 3 && refTraining e ≤ 3 && zeroAt e 2 2 && zeroAt e 24 8 &&
  (cargoOf s (refSource e)).isSome && (cargoOf s (refBank e 0)).isSome && (cargoOf s (refBank e 1)).isSome

/-! Rules of single objects. -/

/-- Flow objects (R359): an enabled flow needs a port and a MAC, and a flow whose Port station belongs to a resident route stays. -/
def flowStatus (s : State) (index f v : Nat) : Nat :=
  let now (i : Nat) : Nat := leNat (stored s i f)
  let port := if index = 0x2F41 then v else now 0x2F41
  let mac := if index = 0x2F45 then v else now 0x2F45
  let on := if index = 0x2F40 then v else now 0x2F40
  let resident := (routeOf s (now 0x2F47 / 2 ^ 14)).any (fun r => r.plan.ports.any (fun p => field p 0 2 == now 0x2F47 % 4096))
  firstStatus [(now 0x2F40 != 0 && resident, stState), (index == 0x2F40 && on != 0 && (port == 0 || mac == 0), stState)]

/-- A Port record of a resident route names the link (R427). -/
def portNames (s : State) (l : Nat) : Bool := (residents s).any (fun e => e.2.plan.ports.any (fun p => portPath p + 61 == l))

/-- The client has a request queued or loading. -/
def requesting (s : State) (client : Nat) : Bool := (admissionOf s client).state == 1 || (admissionOf s client).state == 2

/-- What a chapter refuses of a value that is legal for its type, for objects that a write stores or stages: ST_RANGE first, then
ST_STATE and the codes after it (R94). -/
def chapterStatus (s : State) (index sub : Nat) (b : Bytes) : Nat :=
  let v := leNat b
  match index with
  | 0x1430 => hostWindowStatus v (leNat (stored s 0x1431 0)) s
  | 0x1431 => hostWindowStatus (leNat (stored s 0x1430 0)) v s
  | 0x2004 => substitutionStatus s sub v
  | 0x2045 => firstStatus [((List.range 16).any (fun c => decide (v < spillPages s c)), stState)]
  | 0x2301 => firstStatus [(stateRefused s index b, stState)]
  | 0x2307 => firstStatus [((List.range 16).any (fun c => decide (v < stashPages s c)), stState)]
  | 0x2503 => firstStatus [(decide (cacheCapacity s < v), stState)]
  | 0x2540 => firstStatus [(decide (100 < v + sumNat ((List.range 64).map (fun n => if n = sub then 0 else leNat (stored s 0x2540 n)))), stRange)]
  | 0x2807 => firstStatus [(v == 0 && linkNamed s sub, stState)]
  | 0x2902 => firstStatus [(stateRefused s index b, stState)]
  | 0x290D => firstStatus [(v != 0xFFFFFFFF && (cargoOf s v).isNone, stRange),
      (v != 0xFFFFFFFF && !(cargoOf s v).any (fun c => c.2.tier == 3), stState)]
  | 0x2983 => firstStatus [((residents s).any (fun e => e.2.fabric), stState)]
  | 0x2984 => firstStatus [(!(records 16 b).all takeoverOk, stRange)]
  | 0x2A01 => firstStatus [(v == 0 && sub == 0, stRange), (v == 0 && (!(slotsHeld s sub).isEmpty || requesting s sub), stState)]
  | 0x2A03 => firstStatus [(decide (v < (slotsHeld s sub).length), stState)]
  | 0x2B10 => firstStatus [(!(records 32 b).all (refreshOk s), stRange)]
  | 0x2F20 => firstStatus [(linkNamed s sub || portNames s sub, stState)]
  | 0x3704 => firstStatus [(admissibleUnder (v * 2 ^ 20) s == 0, stEnergy)]
  | 0x6200 => firstStatus [(!formatTableOk b, stRange), (stateRefused s index b, stState)]
  | 0x6400 => firstStatus [(!(records 64 b).all groupRecOk, stRange), (stateRefused s index b, stState)]
  | 0x6401 => firstStatus [(!curvesOk s b, stRange)]
  | 0x6800 => firstStatus [(!b.all (fun x => x.toNat < 64 || x.toNat == 255), stRange)]
  | _ => if 0x2F40 ≤ index ∧ index ≤ 0x2F48 then flowStatus s index sub v else stOk

/-- A value is stored: reads return it from now on, the hardware takes it at the next fabric beat, and a P object is journalled
(R75, R81). -/
def storeValue (index sub : Nat) (v : Bytes) (s : State) : State :=
  let s := modDict (fun d => { d with objs := kput d.objs (objKey index sub) v }) s
  if (rowOf index sub).persist then journalled (modDict (fun d => { d with store := kput d.store (objKey index sub) v }) s) else s

/-- A write of an RW or RWF object (R75). -/
def writeValue (index sub : Nat) (v : Bytes) (s : State) : Effect :=
  match chapterStatus s index sub v with
  | 0 => (stOk, storeValue index sub v s)
  | st => (st, s)

/-- A write of an RWE object (R76): the staging set's own checks come between the range and the state. -/
def stageWrite (index sub : Nat) (v : Bytes) (s : State) : Effect :=
  match chapterStatus s index sub v with
  | 0 => stageValue index sub v s
  | st => if st = stRange then (stRange, s) else if s.dict.staging.state ≠ 1 then (stEpoch, s) else (st, s)

/-! Expert level (R79). -/

/-- A read of 1281.00 issues a fresh challenge to the client (R77, R79). -/
def challengeEffect (who : Who) (s : State) : Bytes × State :=
  let c := padTo 32 (Config.random (drawn s) 32)
  (c, modDict (fun d => { d with challenges := kput d.challenges who.client (c, s.clock) }) (draw s))

/-- Ten seconds of the clock. -/
def challengeCycles : Nat := 17000000000

/-- A write of 1282.00: the checks of R79; the challenge serves this one response, whatever its outcome. -/
def unlockEffect (who : Who) (b : Bytes) (s : State) : Effect :=
  let key := b.take 388
  let named := sha256 key == stored s 0x1286 who.client && stored s 0x1287 who.client == [1]
  let same := who.transport != 1 && who.transport != 2 || s.dict.sessions.any (fun x => x.id == who.session && x.owner == key)
  let ok := match kget s.dict.challenges who.client with
    | some (c, at0) => s.clock ≤ at0 + challengeCycles && named && same && pssVerify key (c ++ le 1 who.client) (b.drop 388)
    | none => false
  let s := modDict (fun d => { d with challenges := kdel d.challenges who.client }) s
  if ok then (stOk, modDict (fun d => { d with unlocked := if d.unlocked.contains who then d.unlocked else d.unlocked ++ [who] }) s)
  else (stAuth, s)

/-- A write of 1284.00 locks the requester's expert level. -/
def lockEffect (who : Who) (s : State) : Effect :=
  (stOk, modDict (fun d => { d with unlocked := d.unlocked.filter (· != who) }) s)

/-! Defaults (R82). -/

/-- The instances of objects of the levels concerned. Of a sealed set the RWF objects alone are left: DESIGN CHOICE, assumption log 11. -/
def restorable (both : Bool) (s : State) : List (ObjRow × Nat) :=
  (objRows.filter (fun r => (both || !r.expert) && !(r.access == .rwf && sealedIn s.dict.objs r.index) && r.index != 0x15F0)).flatMap
    (fun r => (instances r).map (fun k => (r, k)))

/-- The write of 1285.00: RW and open RWF objects take their defaults, and the defaults of RWE objects are staged. -/
def restoreDefaults (both : Bool) (s : State) : Effect :=
  let xs := restorable both s
  let put := xs.filter (fun e => e.1.access == .rw || e.1.access == .rwf)
  let values := (xs.filter (fun e => e.1.access == .rwe)).foldl
    (fun m e => kput m (objKey e.1.index e.2) (dfltBytes e.1 e.2)) s.dict.staging.values
  checked [(s.dict.staging.state != 1, stEpoch), (slotNumbers.any (fun k => (slotOf s k).state != 0), stState),
      (decide (cacheCapacity s < leNat (dfltBytes (rowOf 0x2503 0) 0)), stState),
      (decide (1024 < values.length), stCapacity)] s (fun s =>
    let s := put.foldl (fun s e =>
      let v := dfltBytes e.1 e.2
      if stored s e.1.index e.2 = v then s else storeValue e.1.index e.2 v s) s
    let s := modHost (fun h => { h with windowsSet := [], releaseSet := [] }) s
    modDict (fun d => { d with staging := { d.staging with values := values } }) s)

/-! Commands (R85, R86). -/

/-- The same command is still running: the first check of R94. -/
def commandRuns (s : State) (who : Who) (index sub : Nat) : Bool :=
  match index with
  | 0x1200 => sub == 2 && s.sys.resetting.isSome
  | 0x1220 => s.sys.handover == 1
  | 0x1230 => (kget s.sys.nonces who.client).isSome
  | 0x130D => s.power.testing
  | 0x1403 => s.host.link == 1
  | 0x2510 => (progressOf s who.client).2 == 1
  | 0x290F => slotNumbers.any (fun k => (secureOf s k).restoring.isSome)
  | 0x29C0 => s.sys.handover == 1
  | 0x2C02 => s.ctr.clearPending
  | 0x3002 => kgetD 0 s.fab.selftest sub == 1
  | 0x3804 => (linkOf s sub).state == 1
  | _ =>
    let n := (index - 0x4000) / 16
    if 0x4000 ≤ index ∧ index ≤ 0x43FF then
      if index % 16 = 1 then requesting s n
      else if index % 16 = 5 then (slotsHeld s n).any (fun k => (slotOf s k).state == 3) else false
    else false

/-- The write of 3804.n (R358). -/
def retrainEffect (l : Nat) (s : State) : Effect :=
  checked [(linkNamed s l, stState)] s (fun s => if mayTrain s l then retrain l s else s)

/-- The effect of a WO object of a complete, legal value. -/
def commandEffect (who : Who) (index sub : Nat) (b : Bytes) (s : State) : Effect :=
  let v := leNat b
  match index with
  | 0x1200 => resetEffect who.client who.transport v s
  | 0x1215 => advanceEffect v s
  | 0x1220 => imageEffect b s
  | 0x1230 => nonceEffect who.client b s
  | 0x1282 => unlockEffect who b s
  | 0x1284 => lockEffect who s
  | 0x1285 => restoreDefaults (v == 2) s
  | 0x130D => loadTestEffect s
  | 0x1403 => pcieRetrainEffect s
  | 0x1501 => stagingEffect v s
  | 0x2510 => cargoEffect who.client b s
  | 0x290F => restoreEffect b s
  | 0x29C0 => handoverEffect s
  | 0x2C02 => clearEffect s
  | 0x3002 => selftestEffect sub s
  | 0x3004 => markFailedEffect sub s
  | 0x3804 => retrainEffect sub s
  | _ =>
    let n := (index - 0x4000) / 16
    match index % 16 with
    | 1 => admitEffect n b s
    | 5 => releaseEffect n v s
    | _ => cancelEffect n s

/-- The effect of a complete, legal value written to an object (R74). -/
def writeEffect (who : Who) (index sub : Nat) (b : Bytes) (s : State) : Effect :=
  if index = 0x1410 then windowEffect who.client sub b s
  else if index = 0x1420 then
    (stOk, modHost (fun h => { h with
      releaseSet := h.releaseSet.filter (· != who.client) ++ (if leNat b = 1 then [who.client] else []) }) s)
  else match (rowOf index sub).access with
    | .wo => commandEffect who index sub b s
    | .rwe => stageWrite index sub b s
    | _ => writeValue index sub b s

end Sys2Proof.Machine
end

