-- ==== Sys2Proof/Machine/Entries.lean ====
section
/-! DEFINITION. The dictionary server: one entry of a request with its checks in the order of R94, domain segments (R91, R517), the
command ledger (R96), and every command that is a write or a read of one object. -/

namespace Sys2Proof.Machine

/-- A request entry (R90): operation 1 read, 2 write, 3 domain read segment, 4 domain write segment, 5 last segment. `length` is the
data-length field, `staged` the staged-read flag of the frame. -/
structure Ask where
  op : Nat
  index : Nat
  sub : Nat
  offset : Nat
  length : Nat
  data : Bytes
  staged : Bool

def Ask.writes (a : Ask) : Bool := a.op == 2 || a.op == 4 || a.op == 5

/-- The command acts: a whole value is written. -/
def Ask.acts (a : Ask) : Bool := a.op == 2 || a.op == 5

/-- What an entry did: its status, the data of its response, and the state it leaves. -/
abbrev Answer := Nat × Bytes × State

/-! The checks before the value (R94). -/

def vendorIndex (index : Nat) : Bool := 0x7000 ≤ index && index ≤ 0x7FFF

/-- No session that is open carries the request (R87, R88). -/
def noSession (s : State) (who : Who) : Bool :=
  (who.transport == 1 || who.transport == 2) &&
  !s.dict.sessions.any (fun x => x.id == who.session && x.client == who.client && x.transport == who.transport)

/-- Objects that every client writes for itself (R95, R97, R290, R472, R476, R494). -/
def perClient (index sub : Nat) : Bool :=
  [0x1230, 0x1282, 0x1284, 0x1410, 0x1420, 0x2510].contains index || (index == 0x1200 && sub == 2)

/-- The block of a client, if the index lies in one. -/
def blockOf (index : Nat) : Option Nat := if 0x4000 ≤ index ∧ index ≤ 0x43FF then some ((index - 0x4000) / 16) else none

/-- ST_ACCESS: the range of R72, a client that is not enabled (R410), the access class (R74), another client's objects (R95), the
first key (R80) and the seals (R84). -/
def accessRefused (s : State) (who : Who) (a : Ask) (r : ObjRow) : Bool :=
  let unsealing := a.index == 0x15F0 && a.data == [0] && stored s 0x15F0 a.sub == [1]
  vendorIndex a.index || stored s 0x2A01 who.client != [1] || 63 < who.client ||
  (if a.writes then r.access == .ro else r.access == .wo) ||
  (who.client != 0 &&
    (match blockOf a.index with
     | some n => n != who.client
     | none => if a.writes then !perClient a.index a.sub else a.index == 0x1286)) ||
  (a.writes && unsealing && !(who.client == 0 && s.dict.unlocked.contains who)) ||
  (a.writes && a.index == 0x1286 && stored s 0x1286 0 == zeroBytes 32 && !(a.sub == 0 && who.client == 0 && who.transport == 0))

/-- ST_LEVEL: a level E object, or an expert-only value (R78, R82, R331). -/
def needsExpert (a : Ask) (r : ObjRow) : Bool :=
  r.expert || (a.index == 0x1285 && a.data == [2]) || (a.index == 0x2701 && a.data == [1])

/-- ST_TYPE: an operation that does not match the type, or a length that does not (R73, R517). -/
def typeRefused (a : Ask) (r : ObjRow) : Bool :=
  (if 3 ≤ a.op then r.ty != .domain else r.ty == .domain) ||
  (match a.op with
   | 1 => a.length != 0
   | 2 => !lengthLegal r a.data
   | 3 => a.length == 0 || decide (1024 < a.length)
   | 4 => a.data.length == 0 || decide (1024 < a.data.length)
   | 5 => decide (1024 < a.data.length)
   | _ => true)

/-- The segment breaks R517: it aborts the domain write. -/
def segmentBroken (a : Ask) : Bool := (a.op == 4 && a.data.length == 0) || ((a.op == 4 || a.op == 5) && decide (1024 < a.data.length))

/-- The checks of R94 down to ST_TYPE. -/
def entryStatus (s : State) (who : Who) (a : Ask) : Nat :=
  let r := objRow a.index a.sub
  let row := rowOf a.index a.sub
  firstStatus [
    (a.acts && commandRuns s who a.index a.sub || (a.index == 0x1220 && a.op == 4 && a.offset == 0 && s.sys.handover == 1), stBusy),
    (noSession s who, stAuth),
    (!indexKnown a.index && !vendorIndex a.index, stNoObject),
    (r.isNone && !vendorIndex a.index, stNoSub),
    (accessRefused s who a row, stAccess),
    (a.writes && needsExpert a row && !s.dict.unlocked.contains who, stLevel),
    (a.writes && row.access == .rwf && sealedIn s.dict.objs a.index, stFrozen),
    (typeRefused a row, stType)]

/-- The recovery firmware serves 1000-15FF only (R490). -/
def notServed (s : State) (index : Nat) : Bool := s.host.module == 2 && !(0x1000 ≤ index && index ≤ 0x15FF)

/-! Reads. -/

/-- The value of an object under the staged-read flag: of 2004.n the value staged in either set (R76, R115). -/
def stagedValue (s : State) (index sub : Nat) : Option Bytes :=
  match staged s index sub with
  | some v => some v
  | none => if index = 0x2004 ∧ s.fab.repairs.any (fun p => p.arrays.contains sub) = true then some [1] else none

def readEntry (who : Who) (a : Ask) (s : State) : Answer :=
  if a.index = 0x1281 then
    let r := challengeEffect who s
    (stOk, r.1, r.2)
  else if a.index = 0x1411 then
    let r := refusedEffect who.client s
    (stOk, le 8 r.1, r.2)
  else
    let v := if a.staged = true ∧ (rowOf a.index a.sub).access = .rwe then stagedValue s a.index a.sub else none
    (stOk, v.getD (objValue s who a.index a.sub), s)

/-- A domain read segment returns min(asked, length − offset) bytes (R517). -/
def readSegment (who : Who) (a : Ask) (s : State) : Answer :=
  let v := if a.staged = true ∧ (rowOf a.index a.sub).access = .rwe then stagedValue s a.index a.sub else none
  let d := (v.map Domain.of).getD (domainOf s who.client a.index a.sub)
  if d.length < a.offset then (stRange, [], s) else (stOk, d.bytes a.offset (min a.length (d.length - a.offset)), s)

/-! Writes. -/

def dropPartial (who : Who) (key : Nat) : State → State :=
  modDict (fun d => { d with partials := d.partials.filter (fun p => !(p.who == who && p.key == key)) })

/-- The value assembled so far, with a segment that continues it. -/
def assembled (s : State) (who : Who) (a : Ask) : Option Bytes :=
  if a.offset = 0 then some a.data
  else match s.dict.partials.find? (fun p => p.who == who && p.key == objKey a.index a.sub) with
    | some p => if p.data.length = a.offset then some (p.data ++ a.data) else none
    | none => none

/-- The value, legal in length, is checked and takes effect. -/
def writeWhole (who : Who) (a : Ask) (b : Bytes) (s : State) : Answer :=
  if valueLegal (rowOf a.index a.sub) b = false then (stRange, [], s)
  else if notServed s a.index then (stState, [], s)
  else
    let r := writeEffect who a.index a.sub b s
    (r.1, [], r.2)

/-- A segment of a domain write (R91). -/
def writeSegment (who : Who) (a : Ask) (s : State) : Answer :=
  let row := rowOf a.index a.sub
  let key := objKey a.index a.sub
  match assembled s who a with
  | none => (stRange, [], dropPartial who key s)
  | some b =>
    let s := dropPartial who key s
    if domainLimit row < b.length ∨ (a.op = 5 ∧ lengthLegal row b = false) then (stType, [], s)
    else if row.access = .rwe ∧ s.dict.staging.state ≠ 1 ∧ a.op = 4 then (stEpoch, [], s)
    else
      let s := if a.index = 0x1220 ∧ a.offset = 0 then (imageBegin s).2 else s
      if a.op = 4 then (stOk, [], modDict (fun d => { d with partials := d.partials ++ [⟨who, key, b⟩] }) s)
      else writeWhole who a b s

/-! One entry. -/

/-- An entry is executed: nothing but ST_OK leaves an effect beyond what R79 and R91 state of refused ones. -/
def entryResult (who : Who) (a : Ask) (s : State) : Answer :=
  match entryStatus s who a with
  | 0 =>
    match a.op with
    | 1 => if notServed s a.index then (stState, [], s) else readEntry who a s
    | 2 => writeWhole who a a.data s
    | 3 => if notServed s a.index then (stState, [], s) else readSegment who a s
    | _ => writeSegment who a s
  | st => (st, [], if segmentBroken a then dropPartial who (objKey a.index a.sub) s else s)

/-- The step number of client 0's training route (R96). -/
def clientZeroStep (s : State) : Nat :=
  ((residents s).find? (fun e => e.2.training && (slotOf s e.1).owner == 0)).elim 0 (fun e => stepOf s e.1)

/-- The value field of a command ledger record (R96). A last segment that does not continue its write gives the hash of its own data: DESIGN
CHOICE, assumption log 11. -/
def ledgerValue (s : State) (who : Who) (a : Ask) : Bytes :=
  match a.op with
  | 2 => padTo 8 a.data
  | 4 => (sha256 a.data).take 8
  | 5 => (sha256 ((assembled s who a).getD a.data)).take 8
  | _ => zeroBytes 8

/-- The record of an entry: what stood before it gives the beat, the step, the level and the value (R96). Entries alone are recorded: nothing
that the module does by itself leaves a record of transport 3, DESIGN CHOICE, assumption log 11. -/
def entryRecord (s : State) (who : Who) (a : Ask) (status : Nat) : Bytes :=
  let stages := a.acts && status == 0 && (rowOf a.index a.sub).access == .rwe
  le 8 s.beat.count ++ le 6 (clientZeroStep s) ++ le 1 who.client ++ le 1 who.transport ++ le 2 a.index ++ le 1 a.sub ++ le 1 a.op ++
    le 1 status ++ le 1 ((if s.dict.unlocked.contains who then 2 else 0) + (if stages then 1 else 0)) ++ zeroBytes 2 ++ ledgerValue s who a

/-- An entry with room for `room` bytes of response data: an answer that does not fit returns ST_CAPACITY and has no effect (R89).
Writes, commands and refused entries are recorded (R96). -/
def runEntry (who : Who) (a : Ask) (room : Nat) (s : State) : State :=
  let full := entryResult who a s
  let r : Answer := if room < full.2.1.length then (stCapacity, [], s) else full
  let s' := if a.writes || r.1 != 0 then commandRecord (entryRecord s who a r.1) r.2.2 else r.2.2
  { s' with resp := ⟨r.1, r.2.1⟩ }

/-- The requester reaches the dictionary server: the firmware runs, and a mailbox needs its function (R87, R409). -/
def reaches (s : State) (who : Who) : Bool := firmwareRuns s && (who.transport != 0 || hasFunction s who.client)

/-- A single entry as a command. -/
def ask (who : Who) (a : Ask) (s : State) : Outcome := done (if reaches s who then runEntry who a 1024 s else s)

def askRead (who : Who) (index sub : Nat) : State → Outcome := ask who ⟨1, index, sub, 0, 0, [], false⟩
def askWrite (who : Who) (index sub : Nat) (b : Bytes) : State → Outcome := ask who ⟨2, index, sub, 0, b.length, b, false⟩
def askDomain (who : Who) (index sub : Nat) (b : Bytes) : State → Outcome := ask who ⟨5, index, sub, 0, b.length, b, false⟩

/-! The operations of R90. -/

def execObjectRead (who : Who) (index sub length : Nat) (staged : Bool) (s : State) : Outcome := ask who ⟨1, index, sub, 0, length, [], staged⟩ s
def execObjectWrite (who : Who) (index sub : Nat) (data : Bytes) (s : State) : Outcome := askWrite who index sub data s

def execDomainReadSegment (who : Who) (index sub offset length : Nat) (staged : Bool) (s : State) : Outcome :=
  ask who ⟨3, index, sub, offset, length, [], staged⟩ s

def execDomainWriteSegment (who : Who) (index sub offset : Nat) (data : Bytes) (s : State) : Outcome :=
  ask who ⟨4, index, sub, offset, data.length, data, false⟩ s

def execDomainWriteLastSegment (who : Who) (index sub offset : Nat) (data : Bytes) (s : State) : Outcome :=
  ask who ⟨5, index, sub, offset, data.length, data, false⟩ s

/-! Expert level (R79), defaults (R82) and staging (R402). -/

def execExpertChallenge (who : Who) (s : State) : Outcome := askRead who 0x1281 0 s
def execExpertUnlock (who : Who) (data : Bytes) (s : State) : Outcome := askDomain who 0x1282 0 data s
def execLockExpert (who : Who) (data : Bytes) (s : State) : Outcome := askWrite who 0x1284 0 data s
def execRestoreDefaultsBasic (who : Who) (s : State) : Outcome := askWrite who 0x1285 0 [1] s
def execRestoreDefaultsAll (who : Who) (s : State) : Outcome := askWrite who 0x1285 0 [2] s
def execStagingOpen (who : Who) (s : State) : Outcome := askWrite who 0x1501 0 [1] s
def execStagingClose (who : Who) (s : State) : Outcome := askWrite who 0x1501 0 [2] s
def execStagingDiscard (who : Who) (s : State) : Outcome := askWrite who 0x1501 0 [3] s

/-! Fabric (R115, R118), cargoes (R276), hold-up (R323) and links (R354, R358). -/

def execSelftestNow (who : Who) (array : Nat) (data : Bytes) (s : State) : Outcome := askWrite who 0x3002 array data s
def execMarkArrayFailed (who : Who) (array : Nat) (data : Bytes) (s : State) : Outcome := askWrite who 0x3004 array data s
def execStageSubstitution (who : Who) (array : Nat) (s : State) : Outcome := askWrite who 0x2004 array [1] s
def execStageReturn (who : Who) (array : Nat) (s : State) : Outcome := askWrite who 0x2004 array [0] s

/-- A cargo request with its operation code. -/
def askCargo (who : Who) (code : Byte) (request : Bytes) : State → Outcome := askDomain who 0x2510 0 (code :: request.drop 1)

def execCargoCreate (who : Who) (request : Bytes) (s : State) : Outcome := askCargo who 1 request s
def execCargoFree (who : Who) (request : Bytes) (s : State) : Outcome := askCargo who 2 request s
def execCargoPin (who : Who) (request : Bytes) (s : State) : Outcome := askCargo who 3 request s
def execCargoUnpin (who : Who) (request : Bytes) (s : State) : Outcome := askCargo who 4 request s
def execCargoSetActions (who : Who) (request : Bytes) (s : State) : Outcome := askCargo who 5 request s
def execCargoFlush (who : Who) (request : Bytes) (s : State) : Outcome := askCargo who 6 request s
def execCargoMarkOutOfDate (who : Who) (request : Bytes) (s : State) : Outcome := askCargo who 7 request s
def execLoadTestNow (who : Who) (data : Bytes) (s : State) : Outcome := askWrite who 0x130D 0 data s
def execPortModeChipLink (who : Who) (link : Nat) (s : State) : Outcome := askWrite who 0x2F20 link [0] s
def execPortModeEthernet (who : Who) (link mode : Nat) (s : State) : Outcome := askWrite who 0x2F20 link (le 1 mode) s
def execRetrainLinkNow (who : Who) (link : Nat) (data : Bytes) (s : State) : Outcome := askWrite who 0x3804 link data s

/-! Restore and handover (R396, R406), sharing (R412-R416), counters (R449), host port (R465, R472), resets (R476), boot and security
(R491, R492, R494). -/

def execRestoreRequest (who : Who) (data : Bytes) (s : State) : Outcome := askDomain who 0x290F 0 data s
def execFirmwareHandover (who : Who) (data : Bytes) (s : State) : Outcome := askWrite who 0x29C0 0 data s
def execAdmissionRequest (who : Who) (client : Nat) (request : Bytes) (s : State) : Outcome := askDomain who (0x4001 + 16 * client) 0 request s
def execCancelAdmission (who : Who) (client : Nat) (data : Bytes) (s : State) : Outcome := askWrite who (0x4006 + 16 * client) 0 data s
def execReleaseSlot (who : Who) (client : Nat) (data : Bytes) (s : State) : Outcome := askWrite who (0x4005 + 16 * client) 0 data s
def execClearCounters (who : Who) (data : Bytes) (s : State) : Outcome := askWrite who 0x2C02 0 data s
def execBar4WindowSet (who : Who) (window : Nat) (record : Bytes) (s : State) : Outcome := askDomain who 0x1410 window record s
def execReadRefusedWindows (who : Who) (s : State) : Outcome := askRead who 0x1411 0 s
def execPcieRetrainNow (who : Who) (data : Bytes) (s : State) : Outcome := askWrite who 0x1403 0 data s
def execResetFabric (who : Who) (s : State) : Outcome := askWrite who 0x1200 2 [1] s
def execResetWarm (who : Who) (s : State) : Outcome := askWrite who 0x1200 2 [2] s
def execResetCold (who : Who) (s : State) : Outcome := askWrite who 0x1200 2 [3] s
def execAdvanceAntiRollback (who : Who) (data : Bytes) (s : State) : Outcome := askWrite who 0x1215 0 data s
def execAttestationNonce (who : Who) (nonce : Bytes) (s : State) : Outcome := askWrite who 0x1230 0 nonce s

def execFirmwareImageWrite (who : Who) (offset : Nat) (data : Bytes) (last : Bool) (s : State) : Outcome :=
  ask who ⟨if last then 5 else 4, 0x1220, 0, offset, data.length, data, false⟩ s

end Sys2Proof.Machine
end

