-- ==== Sys2Proof/Machine/Frames.lean ====
section
/-! DEFINITION. Request frames and sessions: the frame header and its entries (R89-R91), the PCIe mailbox (R462, R463), VOA and peer
sessions (R88, R92), and peer access over chip links (R348). -/

namespace Sys2Proof.Machine

/-! Frames (R89, R90). -/

def frameMagic : Nat := 0x4F56

/-- A frame header of 24 bytes. -/
def frameHeader (kind session sequence entries payload client : Nat) : Bytes :=
  le 2 frameMagic ++ le 1 1 ++ le 1 kind ++ le 4 session ++ le 4 sequence ++ le 2 entries ++ le 2 payload ++ le 1 client ++ zeroBytes 7

def fKind (b : Bytes) : Nat := field b 3 1
def fSession (b : Bytes) : Nat := field b 4 4
def fSequence (b : Bytes) : Nat := field b 8 4
def fEntries (b : Bytes) : Nat := field b 12 2
def fPayload (b : Bytes) : Nat := field b 14 2
def fClient (b : Bytes) : Nat := field b 16 1
def fStaged (b : Bytes) : Bool := bit (field b 17 1) 0

/-- Magic, version, kind, entries field and reserved bytes of a request header (R91). -/
def headerFault (b : Bytes) : Bool :=
  field b 0 2 != frameMagic || field b 2 1 != 1 || fKind b != 0 || fEntries b == 0 || decide (32 < fEntries b) ||
  decide (1 < field b 17 1) || !zeroAt b 18 6

/-- The entries of a payload, if their heads and data fill it exactly (R90, R91, R517). -/
def parseEntries (staged : Bool) : Nat → Bytes → Option (List Ask)
  | 0, b => if b = [] then some [] else none
  | n + 1, b =>
    if b.length < 10 then none
    else
      let op := field b 0 1
      let length := field b 4 2
      let carried := if op = 2 ∨ op = 4 ∨ op = 5 then length else 0
      if b.length < 10 + carried then none
      else (parseEntries staged n (b.drop (10 + carried))).map
        (fun r => ⟨op, field b 2 2, field b 1 1, field b 6 4, length, slice b 10 carried, staged⟩ :: r)

/-- The response entry of the entry just executed (R90). -/
def answerEntry (a : Ask) (r : Resp) : Bytes :=
  le 1 r.status ++ le 1 a.sub ++ le 2 a.index ++ le 2 r.data.length ++ le 4 a.offset ++ r.data

/-- The entries of a frame, one at a time in order; `room` is what the response frame still takes, ten bytes of it for each entry to
come (R89, R91). -/
def runEntries (who : Who) : List Ask → Nat → State → Bytes × State
  | [], _, s => ([], s)
  | a :: rest, room, s =>
    let s := runEntry who a (room - 10 * (rest.length + 1)) s
    let b := answerEntry a s.resp
    let r := runEntries who rest (room - b.length) s
    (b ++ r.1, r.2)

/-! The PCIe mailbox (R462, R463). -/

def modMailbox (f : Nat) (g : Mailbox → Mailbox) : State → State :=
  modDict (fun d => { d with mailboxes := kput d.mailboxes f (g (kgetD Mailbox.empty d.mailboxes f)) })

/-- The doorbell checks in their order (R462). A request is answered within the command, so none is unanswered. -/
def doorbellStatus (function : Nat) (value : Word) (frame : Bytes) : Nat :=
  let n := bits value.toNat 12 0
  firstStatus [
    (decide (n < 24 ∨ 4080 < n ∨ value.toNat ≠ n) || n != 24 + fPayload frame, stType),
    (headerFault frame || fSession frame != 0 || fSequence frame != 0, stRange),
    ((parseEntries (fStaged frame) (fEntries frame) (slice frame 24 (fPayload frame))).isNone, stType),
    (fClient frame != function, stAccess)]

/-- The doorbell of a function rings on the frame that its request area holds. The whole response frame is written, then the count
rises and vector 0 is signalled (R463). -/
def execMailboxDoorbell (function : Nat) (value : Word) (frame : Bytes) (s : State) : Outcome :=
  done (if hasFunction s function = false ∨ firmwareRuns s = false then s
  else
    let st := doorbellStatus function value frame
    let s := modMailbox function (fun m => { m with request := frame, status := st }) s
    if st ≠ 0 then s
    else
      let who : Who := ⟨function, 0, 0⟩
      let asks := (parseEntries (fStaged frame) (fEntries frame) (slice frame 24 (fPayload frame))).getD []
      let r := runEntries who asks (4080 - 24) s
      let response := frameHeader 1 0 0 asks.length r.1.length function ++ r.1
      let s := modMailbox function (fun m => { m with response := response, count := (m.count + 1) % 2 ^ 32 }) r.2
      signal function 0 (emit (.mailbox function response) s))

/-! Sessions (R88). -/

/-- A response frame of one entry with a status, outside any request entry. -/
def statusFrame (session sequence client status : Nat) : Bytes :=
  frameHeader 1 session sequence 1 10 client ++ le 1 status ++ zeroBytes 9

/-- A session ends: its expert unlock ends with it (R79, R88). -/
def endSession (id : Nat) : State → State :=
  modDict (fun d => { d with
    sessions := d.sessions.filter (fun x => x.id != id)
    unlocked := d.unlocked.filter (fun w => !((w.transport == 1 || w.transport == 2) && w.session == id))
    partials := d.partials.filter (fun p => !((p.who.transport == 1 || p.who.transport == 2) && p.who.session == id)) })

/-- The checks on a session open: 16 sessions at most, an enabled client, and its key (R88, R410). -/
def openStatus (s : State) (client : Nat) (key : Bytes) : Nat :=
  firstStatus [(decide (16 ≤ s.dict.sessions.length), stBusy), (sha256 key != stored s 0x1286 client || 63 < client, stAuth),
    (stored s 0x2A01 client != [1], stAccess)]

/-- A session open: the challenge with its nonce is the answer. -/
def execSessionOpen (conn transport client : Nat) (key : Bytes) (s : State) : Outcome :=
  done (if firmwareRuns s = false ∨ (transport ≠ 1 ∧ transport ≠ 2) then s
  else match openStatus s client key with
    | 0 =>
      let nonce := padTo 32 (Config.random (drawn s) 32)
      let s := modDict (fun d => { d with
        openings := d.openings.filter (fun o => o.conn != conn) ++ [⟨conn, transport, client, key, nonce⟩] }) (draw s)
      { emit (.frame conn (frameHeader 3 0 0 0 32 client ++ nonce)) s with resp := ⟨stOk, nonce⟩ }
    | st => { emit (.frame conn (statusFrame 0 0 client st)) s with resp := ⟨st, []⟩ })

/-- The first identifier from `n` on that is not in use and not 0. -/
def freshId (used : List Nat) : Nat → Nat → Nat
  | 0, n => n
  | fuel + 1, n => if n % 2 ^ 32 = 0 ∨ used.contains (n % 2 ^ 32) then freshId used fuel (n + 1) else n % 2 ^ 32

/-- A proof: the signature over nonce, client and transport number opens the session; the accept carries the identifier, and the
session key encrypted to the requester's key (R88). -/
def execSessionProof (conn : Nat) (signature : Bytes) (s : State) : Outcome :=
  done (if firmwareRuns s = false then s
  else match s.dict.openings.find? (fun o => o.conn == conn) with
    | none => { emit (.frame conn (statusFrame 0 0 0 stAuth)) s with resp := ⟨stAuth, []⟩ }
    | some o =>
      let s := modDict (fun d => { d with openings := d.openings.filter (fun x => x.conn != conn) }) s
      let st := firstStatus [(decide (16 ≤ s.dict.sessions.length), stBusy),
        (!pssVerify o.owner (o.nonce ++ le 1 o.client ++ le 1 o.transport) signature, stAuth), (stored s 0x2A01 o.client != [1], stAccess)]
      if st ≠ 0 then { emit (.frame conn (statusFrame 0 0 o.client st)) s with resp := ⟨st, []⟩ }
      else
        let n := drawn s
        let id := freshId (s.dict.sessions.map (·.id)) 18 (leNat (padTo 4 (Config.random n 4)))
        let key := padTo 32 (Config.random (n + 1) 32)
        let body := le 4 id ++ oaepEncrypt o.owner key (padTo 32 (Config.random (n + 2) 32))
        let s := modDict (fun d => { d with sessions := d.sessions ++ [⟨id, conn, o.transport, o.client, key, o.owner, none, [], s.clock⟩] })
          (draw (draw (draw s)))
        { emit (.frame conn (frameHeader 5 id 0 0 body.length o.client ++ body)) s with resp := ⟨stOk, body⟩ })

def execSessionClose (session : Nat) (s : State) : Outcome := done (if firmwareRuns s then endSession session s else s)

/-- Cycles of the session idle limit (1288.00). -/
def idleCycles (s : State) : Nat := setting s 0x1288 0 * 1700000000

/-- A session without a frame for 1288.00 seconds ends (R88). -/
def execSessionIdleTimeout (session : Nat) (s : State) : Outcome :=
  done (if firmwareRuns s = true ∧ s.dict.sessions.any (fun x => x.id == session && decide (x.lastFrame + idleCycles s ≤ s.clock)) then endSession session s else s)

/-! Requests on a session (R89, R91, R92). -/

def modSession (id : Nat) (f : Session → Session) : State → State :=
  modDict (fun d => { d with sessions := d.sessions.map (fun x => if x.id = id then f x else x) })

/-- A response leaves with its tag and is kept for a retry (R88, R92). -/
def respond (conn : Nat) (x : Session) (sequence : Nat) (plain : Bytes) (s : State) : State :=
  let b := plain ++ sessionTag x.key plain
  emit (.frame conn b) (modSession x.id (fun y => { y with lastSeq := some sequence, stored := b }) s)

/-- A frame that passed its tag but breaks the header or its framing: one entry answers it, and the ledger records it (R91). -/
def faultAnswer (conn : Nat) (x : Session) (sequence status : Nat) (s : State) : State :=
  let who : Who := ⟨x.client, x.transport, x.id⟩
  let s := commandRecord (entryRecord s who ⟨0, 0, 0, 0, 0, [], false⟩ status) s
  respond conn x sequence (statusFrame x.id sequence x.client status) { s with resp := ⟨status, []⟩ }

/-- A request of a session, its tag checked. -/
def runFrame (conn : Nat) (x : Session) (frame : Bytes) (s : State) : State :=
  let sequence := fSequence frame
  let payload := slice frame 24 (frame.length - 40)
  if headerFault frame = true ∨ fClient frame ≠ x.client then faultAnswer conn x sequence stRange s
  else match (if fPayload frame = payload.length then parseEntries (fStaged frame) (fEntries frame) payload else none) with
    | none => faultAnswer conn x sequence stType s
    | some asks =>
      let r := runEntries ⟨x.client, x.transport, x.id⟩ asks (1472 - 40) s
      respond conn x sequence (frameHeader 1 x.id sequence asks.length r.1.length x.client ++ r.1) r.2

/-- A frame of a session arrives on a connection. A frame whose tag fails is dropped and counted; a repeated sequence number is
answered from the stored response, a lower one dropped (R88, R92). One longer than 1,472 bytes, or too short for a header and a tag, is
dropped and counted with those whose tag fails: DESIGN CHOICE, assumption log 11. -/
def takeFrame' (conn transport : Nat) (frame : Bytes) (s : State) : State :=
  match s.dict.sessions.find? (fun x => x.id == fSession frame && x.transport == transport) with
  | none => { emit (.frame conn (statusFrame (fSession frame) (fSequence frame) (fClient frame) stAuth)) s with resp := ⟨stAuth, []⟩ }
  | some x =>
    let n := frame.length
    if n < 40 ∨ 1472 < n ∨ sessionTag x.key (frame.take (n - 16)) ≠ frame.drop (n - 16) then count 0x5014 0 1 s
    else
      let s := modSession x.id (fun y => { y with lastFrame := s.clock }) s
      if fKind frame = 6 then endSession x.id s
      else match x.lastSeq with
        | none => runFrame conn x frame s
        | some q =>
          if fSequence frame = q then emit (.frame conn x.stored) s
          else if fSequence frame < q then count 0x5015 0 1 s
          else runFrame conn x frame s

/-- A VOA frame in a UDP datagram at the management port (R89). -/
def execVoaRequestFrame (conn : Nat) (frame : Bytes) (s : State) : Outcome :=
  done (if firmwareRuns s then takeFrame' conn 1 frame s else s)

/-- The link on which a peer-access frame goes on: by the control route table, or to the neighbour itself (R348). -/
def peerLinkTo (s : State) (dest : Nat) : Option Nat :=
  let e := ((stored s 0x6800 0).getD dest 255).toNat
  if e < 64 then some e else (List.range 64).find? (fun l => linkIsUp s l && (linkOf s l).peer == dest)

/-- A peer-access frame arrives: it is for this module, or goes on hop by hop; without a way it is discarded (R348). Connections of
peer access are numbered from 2^16 on by link. -/
def execPeerAccessFrame (link dest : Nat) (frame : Bytes) (s : State) : Outcome :=
  done (if firmwareRuns s = false ∨ linkIsUp s link = false then s
  else if dest = deviceNumber s then takeFrame' (2 ^ 16 + link) 2 frame s
  else match peerLinkTo s dest with
    | some l => sendFrame l 5 dest frame s
    | none => s)

end Sys2Proof.Machine
end

