-- ==== Sys2Proof/Machine/LoadPlan.lean ====
section
/-! DEFINITION. The load checks of the beat plan (R52-R54, R60, R61), of the pipeline, cut, collective, prefetch and Port records that
it carries (R210, R211, R227, R302, R349, R361, R362, R371, R425, R426), and of the stations (R119, R120, R125, R130, R132). -/

namespace Sys2Proof.Machine

/-- Conditions that reject, each with its status. -/
abbrev Checks := List (Bool × Nat)

/-- The order in which R94 makes checks. -/
def statusOrder : List Nat :=
  [stBusy, stAuth, stNoObject, stNoSub, stAccess, stLevel, stFrozen, stType, stRange, stEpoch, stState, stShape, stAccOver, stCapacity,
   stEnergy, stDigest, stLate, stNotReady]

/-- The status of the first check that fails, in the order of R94. -/
def orderedStatus (cs : Checks) : Nat := (statusOrder.find? (fun st => cs.any (fun c => c.1 && c.2 == st))).getD stOk

/-- No two elements at different places stand in the relation. -/
def pairwise {α : Type} (clash : α → α → Bool) : List α → Bool
  | [] => true
  | x :: r => r.all (fun y => !clash x y) && pairwise clash r

def periodOk (p : Nat) : Bool := decide (256 ≤ p) && decide (p ≤ 65536) && p % 64 == 0

/-- A serving route is one of policy FALLBACK (R52, R425). -/
def Route.isServing (r : Route) : Bool := r.plan.policy == 2

/-! The beat plan. -/

/-- The rules of the header (R44, R52, R60, R61). -/
def headerChecks (s : State) (r : Route) (b : Bytes) : Checks :=
  let p := r.plan
  let serving := r.isServing
  [(p.isLocal && !periodOk p.period, stRange),
   (decide (1 < field b 0 1) || decide (3 < field b 1 1) || decide (131072 ≤ p.period) || decide (16777216 ≤ p.lagLimit) ||
      !zeroAt b 48 16, stRange),
   (p.policy == 3 || (serving && (!p.isLocal || p.stepLength != 0)) || (!serving && p.stepLength == 0), stState),
   (if p.policy = 0 then p.stretchLimit == 0 else p.stretchLimit != 0, stState),
   (!p.isLocal && p.period != 0, stState),
   (p.isLocal != zeroAt p.fabricId 0 32, stState),
   (decide (1024 < p.slackBeats) || (serving && p.slackBeats != 0) || p.slack.length != p.slackBeats, stState),
   (if serving then p.lagLimit != 0 else !planFits p (periodOf s r), stState)]

/-- Offset and length of part `k` in the part directory (R53). -/
def partSpan (b : Bytes) (k : Nat) : Nat × Nat := (field b (64 + 8 * k) 4, field b (68 + 8 * k) 4)

/-- The parts that the route carries lie in directory order behind the directory, each at a multiple of 16, and end within the plan; one may be
empty (R53). -/
def partsInOrder (b : Bytes) : Nat → Nat → Nat → Bool
  | 0, _, _ => true
  | fuel + 1, k, last =>
    let e := partSpan b k
    if e = (0, 0) then partsInOrder b fuel (k + 1) last
    else e.1 % 16 == 0 && decide (last ≤ e.1) && decide (e.1 + e.2 ≤ b.length) && partsInOrder b fuel (k + 1) (e.1 + e.2)

/-- The stream leaves for, or comes from, another module (R121, R140). -/
def streamCrosses (o : StreamRow) : Bool := o.peer.isSome || o.fromPeer.isSome

/-- The length of a part is whole records. -/
def partWhole (k n : Nat) : Bool :=
  match k with
  | 0 => n % 2 == 0
  | 1 => n % 8 == 0
  | 2 => n % 16 == 0
  | 3 => n % 8 == 0
  | 4 => decide (32 ≤ n) && n % 16 == 0
  | 5 => n % 16 == 0
  | 6 => decide (64 ≤ n) && n % 16 == 0
  | 8 => n % 4 == 0
  | 9 => n % 32 == 0
  | _ => true

/-- The part directory (R53). -/
def directoryChecks (r : Route) (b : Bytes) : Checks :=
  let serving := r.isServing
  let has (k : Nat) : Bool := (partSpan b k) != (0, 0)
  [(decide (b.length < 192) || !partsInOrder b 16 0 192 || (List.range 6).any (fun k => has (10 + k)), stState),
   ((List.range 10).any (fun k => has k && !partWhole k (partSpan b k).2), stState),
   (!has 1 || !has 2 || (serving && (has 0 || has 3 || has 4 || has 5 || has 7)) || (!serving && (!has 4 || has 9)), stState),
   (r.fabric != has 6, stState),
   (has 8 && !r.streams.any streamCrosses, stState)]

/-- The idle marks of one array do not overlap. -/
def idleApart (p : BeatPlan) : Bool :=
  pairwise (fun (x y : IdleMark) => x.array == y.array && meets (x.first, x.beats) (y.first, y.beats)) p.idle

/-- The entries of the parts that the beat plan defines (R41, R54). -/
def entryChecks (r : Route) (b : Bytes) : Checks :=
  let p := r.plan
  let serving := r.isServing
  let phases := p.sets.map (·.phase)
  [(!ascending p.slack || p.slack.any (fun x => decide (p.stepLength ≤ x) || p.due.any (fun d => d.beat == x)), stState),
   (p.sets.map (·.set) != List.range p.sets.length || !distinct (p.sets.map (·.start)) || !p.sets.any (fun e => e.start == 0) ||
      (records 8 (planPart b 1)).any (fun e => !zeroAt e 4 4), stState),
   (if serving then phases != [4] || p.sets.any (fun e => e.start != 0)
    else decide (p.sets.length < 4) || decide (8 < p.sets.length) || phases.any (fun x => decide (3 < x)) ||
      [0, 1, 2, 3].any (fun x => !phases.contains x) || p.sets.any (fun e => decide (p.stepLength ≤ e.start)), stState),
   (p.due.any (fun d => (r.station d.station).isNone || (!serving && decide (p.stepLength ≤ d.beat))) ||
      (records 16 (planPart b 2)).any (fun e => !zeroAt e 12 4), stState),
   (p.idle.any (fun e => decide (255 < e.array) || e.beats == 0 || decide (p.stepLength < e.first + e.beats)) || !idleApart p ||
      (records 8 (planPart b 3)).any (fun e => !zeroAt e 6 2), stState),
   (p.channels.any (fun c => decide (63 < c.link) || decide (63 < c.channel) || c.grant == 0 || decide (1024 < c.grant)) ||
      !pairwise (fun (x y : ChannelRec) => x.link == y.link && x.channel == y.channel) p.channels, stState)]

/-! Pipeline, cut and prefetch. -/

def spanRecords (r : Route) : List Bytes := records 16 (r.plan.pipeline.drop 32)
def microBatches (r : Route) : Nat := field r.plan.pipeline 2 2

def setPhase (r : Route) (n : Nat) : Option Nat := (r.plan.sets.find? (fun e => e.set == n)).map (·.phase)

/-- Each span but the last against the next: F starts ascend and B starts descend (R210). -/
def spansOrdered : List Bytes → Bool
  | x :: y :: rest => decide (field x 6 2 < field y 6 2) && decide (field y 8 2 < field x 8 2) && spansOrdered (y :: rest)
  | _ => true

def powersOfTwo : List Nat := [256, 512, 1024, 2048, 4096, 8192, 16384, 32768, 65536]

/-- The stream is the output of a scalar-emit operation. -/
def scalarOutput (r : Route) (n : Nat) : Bool :=
  (r.stream n).any (fun o => (r.station o.source).any (fun st => st.ops.any (fun x => x.kind == 8 && bit x.outputs o.output)))

/-- The pipeline header and span records (R210, R211, R227). -/
def pipelineChecks (s : State) (r : Route) : Checks :=
  let h := r.plan.pipeline
  let spans := spanRecords r
  let n := spans.length
  let mb := microBatches r
  let block := field h 8 4
  if r.isServing then []
  else
    [(field h 4 4 == 0 || decide (1048576 < field h 4 4) || (block != 0 && !powersOfTwo.contains block), stRange),
     (decide (1 < field h 1 1) || !zeroAt h 22 10 || spans.any (fun b => decide (1 < field b 14 1) || !zeroAt b 15 1), stRange),
     (block != 0 && (decide (4096 < blocksPerSample r) || mb % blocksPerSample r != 0), stRange),
     (n == 0 || decide (3 < n) || field h 0 1 != n || decide (r.plan.sets.length < 2 * n + 2), stState),
     (r.needsDeterministic && setting s 0x2301 0 != 1, stState),
     (mb == 0 || decide (4096 < mb) || r.stations.any (fun st => st.counters.any (fun c => tagPass c.base == 0 && c.outer != mb)), stState),
     ((lossStreams r).any (fun x => !scalarOutput r x) || (field h 20 2 == 0 && !(lossStreams r).isEmpty), stState),
     (spans.zipIdx.any (fun e =>
        let b := e.1
        field b 0 1 != e.2 || setPhase r (field b 1 1 % 16) != some 0 || setPhase r (field b 1 1 / 16) != some 1 ||
        decide (field b 4 2 < field b 2 2) || decide (field b 8 2 ≤ field b 6 2) || bit (field b 14 1) 0 != (e.2 + 1 == n)) ||
      !spansOrdered spans, stState)]

/-- The cut record and its position entries (R361, R362, R371). -/
def cutChecks (s : State) (r : Route) : Checks :=
  let c := r.plan.cut
  let w (o : Nat) := field c o 2
  let pos := records 16 (c.drop 64)
  if r.fabric = false then []
  else
    [([4, 8, 12, 16].any (fun o => decide (w o ≤ w (o + 2))) || decide (32768 < w 4 * w 8 * w 12 * w 16), stRange),
     (decide (32768 < w 4) || decide (256 < w 8) || decide (32768 < w 12) || decide (4096 < w 16), stRange),
     (field c 24 4 == 0 || decide (1048576 < field c 24 4) || decide (field r.plan.pipeline 4 4 < field c 20 4 + field c 24 4), stRange),
     (field c 28 2 != pos.length || decide (4096 < pos.length) || pos.any (fun e => decide (r.mmos.length ≤ field e 0 2)), stRange),
     (decide (1 < field c 2 1) || !zeroAt c 3 1 || !zeroAt c 30 34 || pos.any (fun e => decide (1 < field e 2 2) || !zeroAt e 12 4), stRange),
     (c.isEmpty, stState),
     (setting s 0x2983 0 == 0 && cutDevice r != deviceNumber s, stState),
     (cutFiller r && r.plan.policy != 1, stState)]

/-- The prefetch table (R302). -/
def prefetchChecks (r : Route) (b : Bytes) : Checks :=
  let n := (spanRecords r).length
  [(decide (4096 < r.plan.prefetch.length) || r.plan.prefetch.any (fun e =>
      !(r.transfers[e.descriptor]?).any (fun d => d.kind == 0 || d.kind == 2) || decide (255 < e.array) ||
      decide ((r.plan.stepLength : Int) ≤ e.issue) || decide (e.issue < -(r.plan.stepLength : Int)) ||
      (e.visit != 255 && decide (2 * n - 2 < e.visit)) || decide (4 < e.lookahead) ||
      (e.holdTag != 0xFFFFFFFF && (r.station e.holdStation).isNone)) ||
    (records 16 (planPart b 5)).any (fun e => !zeroAt e 14 2), stRange)]

/-! Collective records (R349, R378). -/

/-- The array holds a ring port on the side (R28, R110). -/
def onSide (side array : Nat) : Bool := (List.range 16).any (fun i => ringPortArray (16 * side + i) == array)

/-- Bytes of an element in a record's sum format. -/
def sumBytes (c : CollRec) : Nat := if c.sum = 1 then 2 else 4

/-- Bytes that the records of a cargo stage and carry in it. -/
def exchangeNeed (r : Route) (handle : Nat) : Nat :=
  sumNat (r.collectives.map (fun c => if c.cargo = handle then 2 * c.elements * sumBytes c else 0))

/-- The records fill their part. -/
def collLength (r : Route) : Nat := sumNat (r.collectives.map (fun c => roundUp (64 + 2 * c.group) 16))

def collectiveChecks (s : State) (r : Route) : Checks :=
  let cs := r.collectives
  [(decide (roundUp r.plan.collective.length 16 ≠ collLength r), stState),
   (cs.any (fun c => c.reserved || decide (3 < c.op) || decide (1 < c.sum) || decide (1 < c.result) || c.rings == 0 || decide (16 < c.rings) ||
      decide (c.group < 2) || decide (32768 < c.group) || decide (c.group ≤ c.rank) || c.elements % (c.group * c.rings * 128) != 0 ||
      decide (r.plan.stepLength ≤ c.close) || (c.links.take c.rings).any (fun l => decide (63 < l)) ||
      (c.links.drop c.rings).any (· != 255)), stRange),
   (cs.any (fun c => match r.station c.station with
      | some st => st.info.kind != 4 || (c.links.take c.rings).any (fun l => !onSide (l / 16) st.info.place)
      | none => true), stState),
   (cs.any (fun c => c.ranks.getD c.rank 0xFFFF != cutDevice r), stState),
   (cs.any (fun c => match cargoOf s c.cargo with
      | some (_, g) => decide (g.pageCount * pageBytes < exchangeNeed r c.cargo)
      | none => false), stCapacity)]

/-! Port records (R120, R425, R426). -/

/-- Due entries at a Port station that name an answer. -/
def answerEntries (r : Route) (p : Bytes) (index : Nat) : List DueEntry :=
  r.plan.due.filter (fun d => d.station == field p 0 2 && d.mask &&& 0xF000FFFF#32 == 0xF000FFFF#32 && tagPass d.value == 4 && tagIndex d.value == index)

def answerAt (r : Route) (p : Bytes) (index beat : Nat) : Bool :=
  match answerEntries r p index with
  | [d] => d.beat == beat
  | _ => false

def portChecks (s : State) (r : Route) : Checks :=
  let ps := r.plan.ports
  let path (p : Bytes) := field p 2 1
  let push (p : Bytes) := bit (field p 3 1) 2
  let deepest := ps.foldl (fun m p => max m (field p 18 1)) 0
  if r.isServing = false then []
  else
    [(ps.any (fun p => decide (2 < path p) || decide (7 < field p 3 1) || field p 6 2 == 0 || decide (4096 < field p 6 2) || field p 8 1 == 0 ||
        decide (64 < field p 8 1) || reservedCode (field p 9 1) || field p 18 1 == 0 || !zeroAt p 20 4 || field p 24 8 % 64 != 0 ||
        (if path p = 0 then decide (15 < field p 19 1 ∧ field p 19 1 < 48) || decide (63 < field p 19 1) else field p 19 1 != 255) ||
        (!push p && field p 24 8 != 0)), stRange),
     (r.stations.any (fun st => st.info.kind == 5 && (ps.filter (fun p => field p 0 2 == st.info.number)).length != 1) ||
        ps.any (fun p => !(r.station (field p 0 2)).any (fun st => st.info.kind == 5)), stState),
     (ps.any (fun p => (r.station (field p 0 2)).any (fun st =>
        if path p = 0 then st.info.place != 0x400 || st.info.proxy != ringPortArray (field p 19 1)
        else decide (255 < st.info.place) || st.info.place % 16 != 0)), stState),
     (ps.any (fun p => path p != 0 && setting s 0x2F20 (61 + path p) == 0), stState),
     (ps.any (fun p => decide (4096 < field p 4 2 + field p 6 2)) ||
        !pairwise (fun (x y : Bytes) => meets (field x 4 2, field x 6 2) (field y 4 2, field y 6 2)) ps, stState),
     (ps.any (fun p => push p && (path p != 0 || field p 24 8 == 0)), stState),
     (r.plan.due.any (fun d => d.mask &&& 0x0FFF0000#32 != 0 || decide (deepest < d.beat + 1)), stState),
     (ps.any (fun p => !answerAt r p (field p 16 2) 0 || !answerAt r p (field p 14 2) (field p 18 1 - 1)), stState),
     (r.stations.any (fun st => st.counters.any (fun c => c.outer != 1 || c.outerStride != 0)), stState)]

/-! Stations (R119, R120, R125, R130, R132). -/

/-- Kind and place stand together in the place-code table. -/
def placeAllowed (kind place : Nat) : Bool :=
  if place < 0x100 then [0, 1, 2, 4, 5, 6].contains kind
  else if place < 0x110 then kind == 3
  else if decide (0x200 ≤ place) && decide (place < 0x300) then kind == 3
  else if decide (0x300 ≤ place) && decide (place < 0x310) then kind == 7
  else place == 0x400 && kind == 5

/-- Station map entries: the ranges of R119, the rules of R120. -/
def stationChecks (s : State) (r : Route) : Checks :=
  let is := r.stations.map (·.info)
  let threads (q : Route) : List (Nat × Nat) := (q.stations.filter (fun st => st.info.thread != 255)).map (fun st => (Station.array st.info, st.info.thread))
  let mine := threads r
  let theirs := (residents s).flatMap (fun e => threads e.2)
  [(is.isEmpty || decide (4096 < is.length) || !distinct (is.map (·.number)) || is.any (fun i =>
      decide (4095 < i.number) || i.reserved || (if i.kind = 6 then decide (63 < i.link) else i.link != 255) ||
      (if i.kind = 3 ∨ i.kind = 7 then i.thread != 255 else decide (15 < i.thread)) || i.ops == 0 || decide (64 < i.ops) || i.queues == 0 ||
      decide (8 < i.queues) || decide (8 < i.outputs) || decide (16 < i.counters) || decide (255 < i.proxy)), stRange),
   (is.any (fun i => !placeAllowed i.kind i.place || (decide (i.place < 256) && i.proxy != i.place)), stState),
   (is.any (fun i => i.kind == 5 && decide (i.place < 256) && i.place % 16 != 0), stState),
   (is.any (fun i => i.kind == 6 && !onSide (i.link / 16) i.place), stState),
   (is.any (fun i => decide (0x100 ≤ i.place ∧ i.place < 0x110) && !onSide ((i.place - 0x100) / 4) i.proxy), stState),
   (is.any (fun i => decide (0x200 ≤ i.place ∧ i.place < 0x300) && clusterOf i.proxy != clusterOf (i.place - 0x200)), stState),
   (!pairwise (fun (x y : Nat × Nat) => x == y) mine || mine.any (fun x => theirs.contains x), stCapacity),
   ((residents s).any (fun e => periodOf s e.2 != periodOf s r && is.any (fun i => decide (i.place < 256) && !(e.2.stationsOn i.place).isEmpty)), stState)]

/-- A counter's last position keeps within its fields (R130). -/
def counterFits (c : CounterRec) : Bool :=
  decide (tagMicro c.base + (c.outer - 1) * c.outerStride ≤ 4095) && decide (tagIndex c.base + (c.inner - 1) * c.innerStride ≤ 65535)

/-- Firing tables: operation entries, queue records and counters (R125, R130, R514, R515). -/
def firingChecks (r : Route) (firing : Bytes) : Checks :=
  let any (f : StationRec → Bool) : Bool := r.stations.any f
  [(any (fun st => decide (firing.length < st.info.table * 64 + st.info.ops * 64 + st.info.queues * 16) || st.counters.length != st.info.counters), stState),
   (any (fun st => st.ops.any (fun o => o.reserved || decide (9 < o.kind) || decide (st.counters.length ≤ o.counter) || o.window == 0 ||
      decide (64 < o.window) || decide (4 < o.inputs.length) || decide (2 ^ st.info.outputs ≤ o.outputs) ||
      o.inputs.any (fun i => !st.queues.any (fun q => q.queue == i.queue)))), stRange),
   (any (fun st => st.counters.any (fun c => c.reserved || c.inner == 0 || c.outer == 0 || decide (4096 < c.outer) || decide (8 < c.bound) ||
      (c.bound != 0 && !st.queues.any (fun q => q.queue + 1 == c.bound && q.kind == 2)))), stRange),
   (any (fun st => st.counters.any (fun c => !counterFits c)), stState),
   (any (fun st => st.queues.any (fun q => q.reserved || decide (7 < q.queue) || decide (14336 < q.spill) || decide (1535 < q.base) ||
      (if q.kind = 2 then q.base != 0 || q.size != 0 else q.size == 0 || decide (1536 < q.size)))), stRange),
   (any (fun st => !distinct (st.queues.map (·.queue))), stState),
   (any (fun st => st.queues.any (fun q => decide (2 < q.kind) || (q.kind != 1 && q.spill != 0) ||
      (match q.kind with
       | 0 => q.depth == 0 || decide (64 < q.depth)
       | 1 => decide (q.depth < 2) || decide (64 < q.depth)
       | _ => q.depth != 32))), stState)]

/-- Streams name stations and queues of the route, and each is one output of one station (R121, R140). -/
def streamChecks (r : Route) : Checks :=
  [(!distinct (r.streams.map (·.number)) || r.streams.any (fun o => decide (4095 < o.number) || decide (15 < o.lane) ||
      (o.fromPeer.isNone && !(r.station o.source).any (fun st => decide (o.output < st.info.outputs))) ||
      (o.peer.isNone && !(r.station o.dest).any (fun st => st.queues.any (fun q => q.queue == o.queue) || r.units.any (fun u => u.inputs.contains o.number))) ||
      (o.peer.isSome && !(r.station o.source).any (fun st => st.info.kind == 6))) ||
    !pairwise (fun (x y : StreamRow) => x.fromPeer.isNone && y.fromPeer.isNone && x.source == y.source && x.output == y.output) r.streams, stState)]

/-- Steering and merge units (R132-R134). -/
def unitChecks (s : State) (r : Route) : Checks :=
  let same (x y : UnitRow) : Bool := x.array == y.array && x.merge == y.merge && x.number == y.number
  [(r.units.any (fun u => decide (7 < u.number) || decide (4 < (if u.merge then u.inputs else u.outputs).length)), stRange),
   (r.units.any (fun u => !(r.station u.station).any (fun st => st.info.place == u.array) || !r.plan.due.any (fun d => d.station == u.station)) ||
      !pairwise same r.units, stState),
   (r.units.any (fun u => (residents s).any (fun e => e.2.units.any (same u))), stCapacity)]

end Sys2Proof.Machine
end

