-- ==== Sys2Proof/Machine/LoadUse.lean ====
section
/-! DEFINITION. The load checks of the fabric and the links (R99, R104, R106, R117, R342, R344, R391), of the descriptors (R145, R152,
R155, R158, R165-R171, R219, R221, R516, R518), of Glaze programs (R187, R192, R199), of the Stash (R213, R216, R217), of update
records (R242, R244), of the manifest and transfers (R271, R277, R278, R292, R293), and of the regions in a TBF (R299, R515, R516). -/

namespace Sys2Proof.Machine

/-! Slot tables. -/

/-- The array from which an input is fed: the neighbour on its side; none at a local input and at a ring port. -/
def feeder (net array input : Nat) : Option Nat :=
  if localInput net input then none else neighbour array (if isVector net then (input - 1) / 2 else input - 1)

/-- Where the lane of a table entry can enter its network in its set: the local and ring port inputs at which an output names it. -/
def laneRoots (us : List SlotUse) (u : SlotUse) : List (Nat × Nat) :=
  (us.filter (fun v => v.set == u.set && v.net == u.net && v.lane == u.lane && (feeder v.net v.array v.input).isNone)).foldl
    (fun l v => if l.contains (v.array, v.input) then l else l ++ [(v.array, v.input)]) []

/-- The trees of the lane of a table entry; none where a path visits an array twice (R106). -/
def laneTrees (us : List SlotUse) (u : SlotUse) : List (Option (List (Nat × Nat))) :=
  (laneRoots us u).map (fun p => laneTree us u.set u.net u.lane 257 [] p)

/-- A stream of the lane enters the network at the input. The control network is also entered by credit words, at the end of their streams
(R128). -/
def entersHere (r : Route) (u : SlotUse) : Bool :=
  u.net == 2 || r.streams.any (fun o => o.lane == u.lane && r.carries o u.net && (r.startOf o).1 == u.array && (sideInputs u.net (r.startOf o).2).contains u.input)

/-- The input lane that an entry names is fed: a stream enters there, or an upstream output feeds it, from where one enters (R106). -/
def laneFed (r : Route) (us : List SlotUse) (u : SlotUse) : Bool :=
  if (feeder u.net u.array u.input).isNone then entersHere r u
  else (laneTrees us u).any (fun t => (t.getD []).contains (u.array, u.input))

/-- The inputs that each stream's lane visits on a network in a set: (lane, inputs). -/
def streamLanes (r : Route) (us : List SlotUse) (set net : Nat) : List (Nat × List (Nat × Nat)) :=
  r.streams.map (fun o => (o.lane, (streamTree r us o set net).getD []))

/-- Two streams share a lane on an input (R99). -/
def lanesShared (xs : List (Nat × List (Nat × Nat))) : Bool :=
  !pairwise (fun (x y : Nat × List (Nat × Nat)) => x.1 == y.1 && x.2.any (fun i => y.2.contains i)) xs

/-- A vector lane visits an input on whose side the stream does not hold the scalar lane of the same number (R121). -/
def scalarLacks (scalar vector : List (Nat × List (Nat × Nat))) : Bool :=
  (scalar.zip vector).any (fun e => e.2.2.any (fun i => !e.1.2.contains (i.1, (i.2 - 1) / 2 + 1)))

/-- The slot indexes at which an output names an input lane. -/
def namesAt (t : SlotTab) (code : Nat) : List Nat := (t.entries.zipIdx.filter (fun e => e.1.toNat == code)).map (·.2)

/-- Two outputs of a switch that name an input lane name it at the same slot indexes (R104). -/
def multicastOk (r : Route) : Bool :=
  pairwise (fun (x y : SlotTab) => x.set == y.set && x.array == y.array && x.net == y.net &&
    x.entries.any (fun e => e.toNat % 16 != 0 && y.entries.contains e && namesAt x e.toNat != namesAt y e.toNat)) r.slotTables

/-- Slot tables (R99, R104, R106, R117, R121). -/
def fabricChecks (s : State) (r : Route) : Checks :=
  let us := slotUses r
  let sets := r.plan.sets.length
  let others := (residents s).map (fun e => (e.2, slotUses e.2))
  [(r.slotTables.any (fun t => t.entries.length != 64 || decide (255 < t.array) || decide (sets ≤ t.set) || decide (2 < t.net) ||
      !(portsOf t.net).contains t.port) ||
    !pairwise (fun (x y : SlotTab) => x.set == y.set && x.array == y.array && x.net == y.net && x.port == y.port) r.slotTables, stState),
   (us.any (fun u => decide ((if isVector u.net then 10 else 5) < u.input)), stState),
   (!multicastOk r, stState),
   ((List.range sets).any (fun k => [0, 1, 2].any (fun net => lanesShared (streamLanes r us k net)) ||
      scalarLacks (streamLanes r us k 0) (streamLanes r us k 1)), stState),
   (us.any (fun u => (laneTrees us u).any (·.isNone)), stState),
   (us.any (fun u => !laneFed r us u), stState),
   (us.any (fun u => s.fab.faultySwitches.contains u.array), stState),
   (others.any (fun o => periodOf s o.1 != periodOf s r && us.any (fun u => o.2.any (fun v => v.array == u.array))), stState),
   (others.any (fun o => us.any (fun u => o.2.any (fun v => v.array == u.array && v.net == u.net &&
      ((v.port == u.port && v.index == u.index) || (v.input == u.input && v.lane == u.lane))))), stCapacity)]

/-! Links. -/

/-- Links that a route names. -/
def linksNamed (r : Route) : List Nat :=
  r.linkTables.flatMap (fun t => (t.sides.map (·.toNat)).filter (· != 255)) ++ r.streams.flatMap (·.links) ++ r.plan.channels.map (·.link) ++
  r.collectives.flatMap (fun c => c.links.take c.rings)

/-- Flits of a link's receive buffer that resident routes and the buddy channel take (R342, R391). -/
def grantedFlits (s : State) (l : Nat) : Nat :=
  (if buddyLink s l then setting s 0x3902 0 else 0) +
  sumNat ((residents s).map (fun e => sumNat (e.2.plan.channels.map (fun c => if c.link = l then c.grant else 0))))

/-- The crossing streams of the route over each link of their paths: (link, channel). -/
def channelUses (r : Route) : List (Nat × Nat) :=
  (r.streams.filter streamCrosses).flatMap (fun o => o.links.map (fun l => (l, o.channel.getD 64)))

def linkChecks (s : State) (r : Route) : Checks :=
  let cs := r.plan.channels
  [(r.linkTables.any (fun t => decide (32767 < t.device) || decide (r.plan.sets.length ≤ t.set) || t.sides.length != 4 ||
      t.sides.zipIdx.any (fun e => e.1.toNat != 255 && (e.1.toNat / 16 != e.2)) ||
      (t.device == deviceNumber s && t.sides.any (fun b => b.toNat != 255))), stState),
   ((linksNamed r).any (fun l => decide (62 ≤ l) && setting s 0x2F20 l != 0), stState),
   ((linksNamed r).any (fun l => linkClash s l), stState),
   (!pairwise (fun (x y : Nat × Nat) => x == y) (channelUses r) ||
      (channelUses r).any (fun u => !cs.any (fun c => c.link == u.1 && c.channel == u.2)), stState),
   (cs.any (fun c => c.channel == 63 && buddyLink s c.link), stCapacity),
   (cs.any (fun c => decide (1024 < grantedFlits s c.link + sumNat (cs.map (fun x => if x.link = c.link then x.grant else 0))) ||
      (residents s).any (fun e => e.2.plan.channels.any (fun x => x.link == c.link && x.channel == c.channel))), stCapacity)]

/-! Descriptors. -/

def operandBad (x : Operand) : Bool := x.reserved || decide (2 < x.kind) || (if x.kind = 0 then decide (3 < x.input) else x.input != 0)

/-- The descriptor completed for the full M and K, as far as its blocks go (R168, R173). -/
def atLoad (s : State) (slot : Nat) (d : MmoDesc) (blocks : Nat) : MmoDesc :=
  chooseShape (shapeCtx s slot d) false d d.m d.k blocks (List.range blocks)

/-- A length source shortens M, or K (R177). -/
def openM (d : MmoDesc) : Bool := d.lengthQueue != 0 && !d.lengthOnK
def openK (d : MmoDesc) : Bool := d.lengthQueue != 0 && d.lengthOnK

/-- The shape fields whose values are known at load break R170: those that the descriptor fixes, and those that R173 chooses from a size that
no run-time length shortens (R174). -/
def shapeBad (s : State) (slot : Nat) (d : MmoDesc) : Bool :=
  let x := shapeCtx s slot d
  let e := atLoad s slot d 128
  let mtKnown := d.mt != 0 || !openM d
  let ktKnown := d.kt != 0 || (!openK d && mtKnown)
  (mtKnown && !tileSizes.contains e.mt) || !tileSizes.contains e.nt ||
    (ktKnown && (e.kt == 0 || e.kt % 32 != 0 || (!openK d && !(e.kt % chunkLength d.mode x.cls == 0 || decide (roundUp d.k 32 ≤ e.kt))))) ||
    (mtKnown && ktKnown && decide (d.size * 4096 < footprint x e e.kt))

/-- The need for accumulator blocks is known at load and exceeds the route's blocks on the array, whatever shape a reorder could take (R174). -/
def accOver (s : State) (slot : Nat) (d : MmoDesc) (inGa : Bool) (blocks : Nat) (t : Word) : Bool :=
  let x := shapeCtx s slot d
  let free := List.range blocks
  if openM d || inGa || d.delivery == 2 then false
  else if openK d then
    let e := atLoad s slot d blocks
    !needFits e d.m blocks free && (!d.allowReorder || !reorderPairs.any (fun p =>
      let f := { e with order := 0, mt := p.1, nt := p.2 }
      needFits f d.m blocks free && tilesFit f t))
  else match issueCheck x false true false d d.m d.k blocks free t with
    | .error st => st == stAccOver
    | .ok _ => false

def cargoOperands (d : MmoDesc) : List (Operand × Nat) :=
  ((if d.a.kind = 2 then [(d.a, d.formatA)] else []) ++ if d.b.kind = 2 then [(d.b, d.formatB)] else []) ++
  if d.delivery = 3 then [(d.c, d.formatC)] else []

/-- A counter of the station yields pass-B tags for the operation (R219). -/
def passB (st : StationRec) (o : OpEntry) : Bool := (st.counters[o.counter]?).any (fun c => tagPass c.base == 1)

/-- Highest tile index of an operation's counter. -/
def lastIndex (st : StationRec) (o : OpEntry) : Nat :=
  (st.counters[o.counter]?).elim 0 (fun c => tagIndex c.base + (c.inner - 1) * c.innerStride)

/-- The operation's length source is the scalar queue of one of its inputs (R166, R177). -/
def lengthOk (st : StationRec) (o : OpEntry) (d : MmoDesc) : Bool :=
  d.lengthQueue == 0 || (o.inputs.any (fun i => i.queue + 1 == d.lengthQueue) && st.queues.any (fun q => q.queue + 1 == d.lengthQueue && q.kind == 2))

/-- The pair of formats with the fallback cargo's in place of a FALLBACK operand's is refused by R145 (R278). -/
def fallbackRefused (s : State) (d : MmoDesc) : Bool :=
  let fb (o : Operand) : Option Nat := match cargoOf s o.handle with
    | some (_, c) => if o.kind = 2 ∧ c.lateAction = 3 then (cargoOf s c.fallback).map (fun f => f.2.format) else none
    | none => none
  (fb d.a).any (fun f => !pairAccepted f d.formatB) || (fb d.b).any (fun f => !pairAccepted d.formatA f)

/-- MMO descriptors and the operations that name them. -/
def mmoChecks (s : State) (slot : Nat) (expert : Bool) (r : Route) : Checks :=
  let ds := r.mmos
  let os := mmoOps r
  let blocks (st : StationRec) := (r.allocOn st.info.place).blocks
  [(!expert && ds.any (fun d => d.fixShape || d.fixOrder || d.formatA == 0 || d.formatB == 0), stLevel),
   (ds.any (fun d => d.reserved || !pairAccepted d.formatA d.formatB || !outputAccepted d.formatA d.formatC || [d.m, d.n, d.k].any (fun x => x == 0 || decide (1048576 < x)) ||
      decide (1535 < d.base) || decide (1536 < d.size) || decide (127 < d.acmBase) || operandBad d.a || operandBad d.b ||
      (if d.delivery = 3 then operandBad d.c || d.c.kind != 2 else d.c.reserved)), stRange),
   (os.any (fun e => passB e.1 e.2.1 && e.2.2.delivery != 2 && e.2.2.formatC != 1), stRange),
   (ds.any (fallbackRefused s), stRange),
   (r.stations.any (fun st => st.ops.any (fun o => o.kind == 0 && (r.mmos[o.program]?).isNone)), stState),
   (ds.any (fun d => (d.accumulate && d.delivery != 2) || decide (1536 < d.base + d.size) ||
      (cargoOperands d).any (fun o => !r.manifest.any (fun m => m.handle == o.1.handle) ||
        (o.1.stride % 32 != 0 && (formatFor s slot o.2).block != 0))), stState),
   (os.any (fun e => [e.2.2.a, e.2.2.b].any (fun x => x.kind == 0 && decide (e.2.1.inputs.length ≤ x.input)) || !lengthOk e.1 e.2.1 e.2.2), stState),
   (os.any (fun e => let d := atLoad s slot e.2.2 (blocks e.1)
      (d.delivery == 0 && decide (65536 < lastIndex e.1 e.2.1 + ceilDiv d.m d.mt * ceilDiv d.n d.nt)) ||
      (d.delivery == 2 && decide (blocks e.1 < needOf d d.m))), stState),
   (ds.any (shapeBad s slot), stShape),
   (os.any (fun e => accOver s slot e.2.2 (gaFor r e.1.info.place e.2.2).isSome (blocks e.1) (BitVec.ofNat 32 (lastIndex e.1 e.2.1))), stAccOver),
   (ds.any (fun d => d.delivery == 1 && (decide (65535 < d.m) || decide (65535 < d.n) || decide (4194304 < d.m * rowBytes (formatFor s slot d.formatC) d.n))), stCapacity)]

/-- GA records (R221, R516). -/
def gaChecks (r : Route) : Checks :=
  [(!distinct (r.gas.map gaNumber) || r.gas.any (fun g => decide (4095 < gaNumber g) || decide (255 < gaArray g) || gaBlocks g == 0 || decide (64 < gaBlocks g) ||
      gaSources g == 0 || decide (8 < gaSources g) || gaCount g == 0 || gaCount g % gaSources g != 0 || decide (4095 < gaGroup g) ||
      decide (2 < gaRounding g) || decide (7 < gaOutput g) ||
      (List.range 8).any (fun u => gaSource g u != 0xFFFF && (r.station (gaSource g u)).isNone)), stRange),
   (r.gas.any (fun g => !(r.station (gaOwner g)).any (fun st => st.info.place == gaArray g) ||
      decide ((r.allocOn (gaArray g)).blocks < gaBase g + gaBlocks g)), stState)]

/-! Glaze programs. -/

/-- Element modes that an opcode accepts; none for a reserved opcode (R192). -/
def opcodeModes (op : Nat) : Option (List Nat) :=
  if op = 3 ∨ decide (0x18 ≤ op ∧ op ≤ 0x1D) ∨ op = 0x24 then some [0, 1]
  else if op ≤ 0x0A ∨ op = 0x10 ∨ decide (0x20 ≤ op ∧ op ≤ 0x23) ∨ op = 0x28 ∨ op = 0x29 then some [0, 1, 2]
  else if op ≤ 0x0F then some [2]
  else if op = 0x11 ∨ op = 0x12 then some [0]
  else if op = 0x13 ∨ op = 0x14 then some [1]
  else if op = 0x2A ∨ decide (0x30 ≤ op ∧ op ≤ 0x36) then some [0, 1, 2]
  else none

/-- A reserved opcode or field value, or a mode that the opcode does not accept (R192, R199). -/
def wordBad (w : BitVec 64) : Bool :=
  let op := gOpcode w
  let fmt := gFormat w
  match opcodeModes op with
  | none => true
  | some ms =>
    !ms.contains (gMode w) || bits w.toNat 33 32 != 0 ||
    ((decide (op ≤ 0x24)) && bits w.toNat 27 0 != 0) ||
    (op == 0x14 && gVd w == 31) ||
    (op == 0x11 && decide (2 ≤ gRounding w)) || ((op == 0x13 || op == 0x29) && gRounding w == 3) ||
    (op == 0x28 && decide (2 ≤ gTarget w)) || (op == 0x29 && gTarget w == 3) ||
    ((op == 0x28 || op == 0x29) && (reservedCode fmt || (gTarget w == 1 && fmt != 0 && fmt != 0x0B))) ||
    (op == 0x2A && (bits w.toNat 31 24 != 0 || bits w.toNat 18 16 != 0))

/-- The loops of a program: word of the LOOP and length of its body. -/
def loopsOf (ws : List (BitVec 64)) : List (Nat × Nat) :=
  (ws.zipIdx.filter (fun e => gOpcode e.1 == 0x35)).map (fun e => (e.2, bits e.1.toNat 5 0))

/-- A loop that R192 calls reserved, or that is nested more than two deep. -/
def loopBad (ws : List (BitVec 64)) (l : Nat × Nat) : Bool :=
  let outer := (loopsOf ws).filter (fun x => decide (x.1 < l.1) && decide (l.1 ≤ x.1 + x.2))
  l.2 == 0 || decide (ws.length ≤ l.1 + l.2) || ((ws.drop (l.1 + 1)).take l.2).any (fun w => gOpcode w == 0x36) ||
  outer.any (fun x => decide (x.1 + x.2 < l.1 + l.2)) || decide (2 ≤ outer.length)

def programMask (p : ProgramRow) : Nat := field p.bytes 0 4

/-- Programs with the array of their station. -/
def programArrays (r : Route) : List (Nat × ProgramRow) := r.programs.map (fun p => (r.arrayOf p.station, p))

/-- The TOUT words of the program that a pass-B operation runs (R219). -/
def passBTouts (r : Route) : List (BitVec 64) :=
  r.stations.flatMap (fun st => (st.ops.filter (fun o => o.kind == 1 && passB st o)).flatMap (fun o =>
    (r.programs.filter (fun p => p.station == st.info.number && p.entry == o.program)).flatMap (fun p => (programWords p).filter (fun w => gOpcode w == 0x2A))))

/-- A user format that the route names is undefined, or its entry differs in a staged table (R206). -/
def formatsUnsound (s : State) (r : Route) : Bool :=
  let table := stored s 0x6200 0
  let changed := (staged s 0x6200 0).elim [] (changedFormats table)
  (routeFormats s r).any (fun c => decide (0x10 ≤ c ∧ c ≤ 0x1F) && ((formatOf table c).isNone || changed.contains c))

def programChecks (s : State) (r : Route) : Checks :=
  let ps := r.programs
  [(ps.any (fun p => field p.bytes 4 2 == 0 || decide (4096 < field p.bytes 4 2) || decide (p.bytes.length < 8 + 8 * field p.bytes 4 2) || !zeroAt p.bytes 6 2) ||
      ps.any (fun p => (programWords p).any (fun w => gOpcode w == 0x2A && reservedCode (gFormat w))), stRange),
   ((passBTouts r).any (fun w => gFormat w != 1), stRange),
   (ps.any (fun p => let ws := programWords p
      ws.any wordBad || (loopsOf ws).any (loopBad ws) || !ws.any (fun w => gOpcode w == 0x36)), stState),
   (r.stations.any (fun st => st.ops.any (fun o => o.kind == 1 && !ps.any (fun p => p.station == st.info.number && p.entry == o.program))), stState),
   (!pairwise (fun (x y : Nat × ProgramRow) => x.1 == y.1 && x.2.station != y.2.station && (programMask x.2).land (programMask y.2) != 0) (programArrays r), stState),
   (formatsUnsound s r, stState),
   ((programArrays r).any (fun e => (programMask e.2).land (registersHeld s e.1) != 0), stCapacity)]

/-! Regions in the TBF of an array (R299, R515, R516). -/

/-- Arrays on which the route has something. -/
def routeArrays (r : Route) : List Nat :=
  (r.stations.map (fun st => Station.array st.info) ++ r.pairs.map (·.1)).foldl (fun l x => if l.contains x then l else l ++ [x]) []

/-- 4 KiB units of a Kiln's gradient buffer (R239). -/
def gradientUnits (place : Nat) : Nat := if place < 0x200 then 512 else 64

def kilnStations (r : Route) (place : Nat) : List StationRec := r.stations.filter (fun st => st.info.kind == 3 && st.info.place == place)

/-- The allocation table and the regions (R152, R216, R299, R515, R516). -/
def regionChecks (s : State) (slot : Nat) (r : Route) (descriptors : Bytes) : Checks :=
  let arrays := routeArrays r
  let space (a : Nat) := ((r.allocOn a).base, (r.allocOn a).size)
  let firm (a : Nat) := queueRegions (tbfStations r a) ++ pairRegions r a
  [(r.pairs.any (fun p => decide (31 < p.2.pair) || p.2.reserved || decide (1535 < p.2.base) || p.2.half == 0 || decide (768 < p.2.half) || decide (7 < p.2.input)), stRange),
   (decide (descriptors.length < 2048) || r.alloc.any (fun e => e.reserved || decide (1535 < e.base) || decide (1536 < e.base + e.size)), stState),
   (arrays.any (fun a => (firm a ++ stagingRegions r a).any (fun x => !inside x (space a)) ||
      (bufferOperands s slot r a).any (fun x => !inside x (scaleRegion (space a)))), stState),
   (r.pairs.any (fun p => !(r.station p.2.station).any (fun st => st.info.place == p.1)), stState),
   (r.stations.any (fun st => st.info.kind == 3 && st.queues.any (fun q => decide (gradientUnits st.info.place < q.base + q.size))), stState),
   (arrays.any (fun a => !pairwise meets (firm a) || (firm a).any (fun x => (stagingRegions r a).any (meets x))), stCapacity),
   ((kilnPlaces r).any (fun k => !pairwise meets (queueRegions (kilnStations r k)) ||
      (residents s).any (fun e => (queueRegions (kilnStations e.2 k)).any (fun x => (queueRegions (kilnStations r k)).any (meets x)))), stCapacity),
   (r.pairs.any (fun p => (residents s).any (fun e => e.2.pairs.any (fun q => q.1 == p.1 && q.2.pair == p.2.pair))) ||
      !pairwise (fun (x y : Nat × PairRec) => x.1 == y.1 && x.2.pair == y.2.pair) r.pairs, stCapacity),
   ((List.range 256).any (fun a => decide (128 < blocksAllocated s a + (r.allocOn a).blocks) ||
      (residents s).any (fun e => meets ((e.2.allocOn a).base, (e.2.allocOn a).size) (space a))), stCapacity),
   (arrays.any (fun a => (refillPlaces s slot r a).isNone), stCapacity)]

/-! The Stash (R213, R217) and spill areas (R136). -/

/-- The pages that the route's join buffers spill into in a cluster, and those of the Spill cargo, manifest use 3, that it names there. -/
def spillNeed (r : Route) (cluster : Nat) : Nat := sumNat ((r.spillQueues cluster).map (·.2.spill))
def spillGiven (s : State) (r : Route) (cluster : Nat) : Option Nat :=
  (r.manifest.filter (fun m => m.use == 3)).findSome? (fun m => (cargoOf s m.handle).bind (fun c =>
    if c.2.tier = 0 ∧ c.2.cluster = cluster then some (if m.pages = 0 then c.2.pageCount - m.first else m.pages) else none))

def stashSpan (b : Bytes) : Nat := bits (field b 7 1) 2 1

/-- Stash records of the route with their stations. -/
def stashRecords (r : Route) : List (Nat × Bytes) := r.stash.flatMap (fun e => (records 24 e.2).map (fun b => (e.1, b)))

def stashCluster (r : Route) (station : Nat) : Nat := clusterOf (r.arrayOf station)

def stashChecks (s : State) (r : Route) : Checks :=
  let rs := stashRecords r
  let mb := microBatches r
  let spans := spanRecords r
  [(rs.any (fun e => let f := stashFormat e.2
      f != 255 && (decide (31 < f) || f == 0x0A || f == 0x0B || (formatOf (stored s 0x6200 0) f).isNone)), stRange),
   (r.stash.any (fun e => e.2.isEmpty || decide (64 < (records 24 e.2).length) || e.2.length % 24 != 0) ||
      rs.any (fun e => decide (2 < stashRounding e.2) || decide (4096 < stashOnDie e.2) || stashLead e.2 == 0 || decide (15 < stashLead e.2) ||
        decide (7 < field e.2 7 1)), stRange),
   (r.stations.any (fun st => st.info.kind == 2 && !r.stash.any (fun e => e.1 == st.info.number)) ||
      r.stash.any (fun e => !(r.station e.1).any (fun st => st.info.kind == 2)), stState),
   (rs.any (fun e => stashFormat e.2 != 255 && (match cargoOf s (stashCargo e.2) with
      | some (_, c) => c.tier != 1 || c.lateAction != 0
      | none => true)), stState),
   (r.stash.any (fun e => !r.manifest.any (fun m => m.use == 1 && (cargoOf s m.handle).any (fun c => c.2.tier == 0 && c.2.cluster == stashCluster r e.1))), stState),
   (rs.any (fun e => decide (spans.length ≤ stashSpan e.2)), stState),
   ((List.range 16).any (fun c => spillNeed r c != 0 && (spillGiven s r c).isNone), stState),
   ((List.range 16).any (fun c => (spillGiven s r c).any (fun n => decide (n < spillNeed r c))), stCapacity),
   ((List.range 16).any (fun c => decide (setting s 0x2307 0 < stashPages s c + sumNat (rs.map (fun e => if stashCluster r e.1 = c then onDiePages e.2 else 0)))), stCapacity),
   (spans.zipIdx.any (fun x => decide (field x.1 10 4 < sumNat (rs.map (fun e => if stashSpan e.2 = x.2 then onDiePages e.2 else 0)))), stCapacity),
   (rs.any (fun e => stashFormat e.2 != 255 && (cargoOf s (stashCargo e.2)).any (fun c =>
      decide (c.2.pageCount < (mb - min (stashOnDie e.2) mb) * ceilDiv (stashNarrowed e.2) 65536))), stCapacity),
   ((List.range 16).any (fun c => decide (setting s 0x2045 0 < spillPages s c + sumNat (r.stations.map (fun st =>
      if st.info.place < 256 ∧ clusterOf st.info.place = c then sumNat (st.queues.map (fun q => if q.kind = 1 then q.spill else 0)) else 0)))), stCapacity)]

/-! Update records (R242, R244). -/

/-- The Kiln stations that run an update record, by its index. -/
def kilnsOf (r : Route) (k : Nat) : List Nat :=
  (r.stations.filter (fun st => st.ops.any (fun o => o.kind == 5 && o.program == k))).map (·.info.place)

/-- The cargo is homed wholly in the stack or partition of a Kiln. -/
def homedAt (s : State) (handle place : Nat) : Bool :=
  match cargoOf s handle with
  | none => false
  | some (_, c) =>
    let tier := if place < 0x200 then 1 else 0
    let unit := if place < 0x200 then place - 0x100 else place - 0x200
    c.tier == tier && c.pages.all (fun p => p.unit == unit)

def updCargoes (b : Bytes) : List Nat := [updMaster b, updFirst b, updSecond b, updWorking b].filter (· != noHandle)

def stepKindOk (rule kind : Nat) : Bool := if rule < 8 then kind == 0 else kind == 1 || kind == 2

def updateChecks (s : State) (r : Route) : Checks :=
  let table := stored s 0x6400 0
  let us := r.updates.zipIdx
  let grp (b : Bytes) := groupRec table (updGroup b)
  [(r.updates.any (fun b => decide (4095 < field b 0 2) || decide (2 < updKind b) || decide (1 < field b 3 1) || updPerRow b == 0 || decide (updRows b < 32) ||
      decide (512 < updRows b) || decide (updCols b < 32) || decide (512 < updCols b) || decide (7 < field b 38 1) || !zeroAt b 39 9), stRange),
   (r.updates.any (fun b => !grpDefined (grp b)), stState),
   (us.any (fun e => (updCargoes e.1).any (fun h => (kilnsOf r e.2).any (fun k => !homedAt s h k))), stState),
   (r.updates.any (fun b => let n := momentsOf (grpRule (grp b)) (updKind b) (grpF32 (grp b) 12)
      (updFirst b != noHandle) != decide (1 ≤ n) || (updSecond b != noHandle) != (n == 2)), stState),
   (r.updates.any (fun b => !stepKindOk (grpRule (grp b)) (updKind b)), stState),
   ((routeGroups r).any (fun g => (groupsInUse s).contains g), stState),
   (r.updates.any (fun b => updWorking b != noHandle && decide (5 ≤ grpWorking (grp b) ∧ grpWorking (grp b) ≤ 9) && updCols b % 32 != 0), stState),
   (r.stations.any (fun st => st.ops.any (fun o => o.kind == 5 && decide (r.updates.length ≤ o.program))), stState)]

/-! The manifest, the cargoes and the transfers. -/

/-- Every cargo handle that a route names (R271). -/
def handlesNamed (r : Route) : List Nat :=
  r.manifest.map (·.handle) ++ r.updates.flatMap updCargoes ++ r.collectives.map (·.cargo) ++
  r.transfers.flatMap (fun d => [d.source, d.dest].filter (· != noHandle)) ++ r.mmos.flatMap (fun d => (cargoOperands d).map (·.1.handle)) ++
  ((stashRecords r).filter (fun e => stashFormat e.2 != 255)).map (fun e => stashCargo e.2)

/-- Pages of a manifest entry: (first, count), a count of 0 taken to the cargo's end. -/
def manifestRange (c : Cargo) (m : ManifestEntry) : Nat × Nat := (m.first, if m.pages = 0 then c.pageCount - m.first else m.pages)

/-- A resident route of another client writes a page range of the record that meets the range (R278). -/
def writtenByOthers (s : State) (client record : Nat) (x : Nat × Nat) : Bool :=
  (residents s).any (fun e => (slotOf s e.1).owner != client && e.2.manifest.any (fun m => m.write && m.handle % 65536 == record &&
    (cargoOf s m.handle).any (fun c => meets (manifestRange c.2 m) x)))

/-- A FALLBACK cargo is read otherwise than R278 allows. -/
def fallbackMisread (s : State) (r : Route) : Bool :=
  let fb (h : Nat) : Bool := (cargoOf s h).any (fun c => c.2.lateAction == 3)
  r.transfers.any (fun d => fb d.source) || r.updates.any (fun b => (updCargoes b).any fb) ||
  r.mmos.any (fun d => [d.a, d.b].any (fun o => o.kind == 2 && fb o.handle && (d.accumulate || o.offset != 0 || o.stride != 0)))

def manifestChecks (s : State) (client : Nat) (r : Route) : Checks :=
  let withCargo := r.manifest.filterMap (fun m => (cargoOf s m.handle).map (fun c => (m, c)))
  [(r.manifest.any (·.reserved), stRange),
   ((handlesNamed r).any (fun h => !(cargoOf s h).any (fun c => c.2.client == client && c.2.state == 1 && !c.2.zeroing)), stState),
   (withCargo.any (fun e => decide (e.2.2.pageCount ≤ e.1.first) || decide (e.2.2.pageCount < e.1.first + e.1.pages)), stState),
   (withCargo.any (fun e => (e.1.use == 4 || e.1.use == 2) && e.2.2.lateAction != 0), stState),
   (r.needsDeterministic && withCargo.any (fun e => e.1.read && e.2.2.lateAction != 0), stState),
   (fallbackMisread s r, stState),
   (withCargo.any (fun e => e.1.write && writtenByOthers s client e.2.1 (manifestRange e.2.2 e.1)), stState)]

/-- The manifest entry that gives a transfer's extent on one side (R293). -/
def extentOf (s : State) (r : Route) (h : Nat) : Nat × Nat :=
  if h = noHandle then (0, 0)
  else match r.manifest.find? (fun m => m.handle == h), cargoOf s h with
    | some m, some c => manifestRange c.2 m
    | _, _ => (0, 0)

/-- A route's transfers with their extents written from the manifest (R293), and the manifest's page counts of 0 taken to the end of
their cargoes (R278). -/
def withExtents (s : State) (r : Route) : Route :=
  { r with
    manifest := r.manifest.map (fun m => { m with pages := (cargoOf s m.handle).elim m.pages (fun c => (manifestRange c.2 m).2) })
    transfers := r.transfers.map (fun d =>
      let a := extentOf s r d.source
      let b := extentOf s r d.dest
      { d with sourceFirst := a.1, sourcePages := a.2, destFirst := b.1, destPages := b.2 }) }

/-- The arrays that may issue a transfer: by the prefetch table, or by a move operation. -/
def issuers (r : Route) (k : Nat) : List Nat :=
  (r.plan.prefetch.filter (fun e => e.descriptor == k)).map (·.array) ++
  (r.stations.filter (fun st => st.ops.any (fun o => o.kind == 2 && o.program == k))).map (fun st => Station.array st.info)

def transferChecks (s : State) (r : Route) (raw : Bytes) : Checks :=
  let ts := r.transfers
  let flag (d : Descriptor) (i : Nat) : Bool := bit d.flags i
  [(ts.any (fun d => d.rows == 0 || d.rowLength == 0 || decide (4194304 < d.rowLength) || (d.pair != 0xFFFF && decide (31 < d.pair))) ||
      (records 64 raw).any (fun b => !zeroAt b 46 2), stRange),
   (ts.any (fun d => decide (2 < d.kind) || decide (15 < d.flags)), stState),
   (ts.any (fun d => (d.source == noHandle) != (d.kind == 1) || (d.dest == noHandle) != (d.kind == 0) ||
      [d.source, d.dest].any (fun h => h != noHandle && !r.manifest.any (fun m => m.handle == h))), stState),
   (ts.any (fun d => (d.kind == 1 && (d.sourceOffset % 64 != 0 || d.sourceStride % 64 != 0)) || (d.kind == 0 && (d.destOffset % 64 != 0 || d.destStride % 64 != 0))), stState),
   (ts.any (fun d => (d.kind == 1 && (flag d 1 || flag d 2)) || (d.kind == 0 && flag d 3) ||
      (flag d 2 && !r.plan.sets.any (fun e => e.phase == 3))), stState),
   (ts.zipIdx.any (fun e => e.1.kind == 2 && (cargoOf s e.1.dest).any (fun c => c.2.tier == 0 && (issuers r e.2).any (fun a => clusterOf a != c.2.cluster))), stState),
   (r.stations.any (fun st => st.ops.any (fun o => o.kind == 2 && decide (ts.length ≤ o.program))), stState)]

end Sys2Proof.Machine
end

