-- ==== Sys2Proof/Machine/RouteLoad.lean ====
section
/-! DEFINITION. Loading a route (R39, R388, R403, R415, R490): its image, its checks in the order of R94, and what a load that passes
leaves. -/

namespace Sys2Proof.Machine

/-- The parts that R39 names are present. -/
def partsMissing (p : RouteParts) : Bool :=
  p.stationMap.isNone || p.firing.isNone || p.slotTables.isNone || p.linkTables.isNone || p.descriptors.isNone || p.manifest.isNone || p.beatPlan.isNone

/-- The unit that a page of a cargo stands on. -/
def pageUnit (s : State) (e : Nat × Nat) : Nat := ((kgetD Cargo.free s.mem.cargoes e.1).pages[e.2]?).elim 0 (·.unit)

/-- Secured pages of a tier by the unit that they stand on (R388): (unit, pages). -/
def reserveNeeds (s : State) (r : Route) (tier : Nat) (saggar : Bool) : List (Nat × Nat) :=
  ((securedPages s r).filter (fun e => let c := kgetD Cargo.free s.mem.cargoes e.1; c.tier == tier && c.saggar == saggar)).foldl
    (fun m e => kput m (pageUnit s e) (kgetD 0 m (pageUnit s e) + 1)) []

/-- Every secured page finds its reserve frame, and the T1 cache keeps its least capacity (R283, R388). -/
def reserveChecks (s : State) (r : Route) : Checks :=
  [([(0, false), (0, true), (1, false), (1, true), (2, false), (2, true)].any (fun t => !(roomFor t.1 t.2 (reserveNeeds s r t.1 t.2) s).2) ||
    decide (cacheCapacity s < setting s 0x2503 0 + sumNat ((reserveNeeds s r 1 false).map (·.2))), stCapacity)]

/-- The load checks of every chapter. -/
def loadChecks (s : State) (slot client : Nat) (expert : Bool) (p : RouteParts) (r : Route) : Checks :=
  let plan := p.beatPlan.getD []
  headerChecks s r plan ++ directoryChecks r plan ++ entryChecks r plan ++ pipelineChecks s r ++ cutChecks s r ++ prefetchChecks r plan ++
  collectiveChecks s r ++ portChecks s r ++ stationChecks s r ++ firingChecks r (p.firing.getD []) ++ streamChecks r ++ unitChecks s r ++
  fabricChecks s r ++ linkChecks s r ++ mmoChecks s slot expert r ++ gaChecks r ++ programChecks s r ++
  regionChecks s slot r (p.descriptors.getD []) ++ stashChecks s r ++ updateChecks s r ++ manifestChecks s client r ++
  transferChecks s r p.transfers ++ reserveChecks s r

/-- The state as it will stand once the closed set is in force, as far as load checks read it. -/
def underClosedSet (s : State) : State :=
  modDict (fun d => { d with objs := afterCommit s, inUse := d.staging.values.foldl (fun m e => kput m e.1 e.2) d.inUse }) s

/-- A load conflicts with the closed set when its checks hold now and fail once the set is in force (R403). -/
def closedConflict (s : State) (slot client : Nat) (expert : Bool) (p : RouteParts) (r : Route) : Bool :=
  s.dict.staging.state == 2 && orderedStatus (loadChecks (underClosedSet s) slot client expert p r) != stOk

/-- The image cargo is good and holds the image; the image's digest is that of the request (R415). -/
def imageStatus (s : State) (client : Nat) (req : Bytes) : Nat :=
  match cargoOf s (admHandle req) with
  | none => stState
  | some (i, c) =>
    if c.client ≠ client ∨ c.state ≠ 1 ∨ c.pageCount * pageBytes < admPage req * pageBytes + admLength req then stState
    else if sha256 (cargoBytes s i (admPage req * pageBytes) (admLength req)) ≠ admDigest req then stDigest
    else stOk

/-- A route that has passed its load is resident from its next beat on: later loads are checked against it (R279, R415). -/
def withLoaded (s : State) : State :=
  slotNumbers.foldl (fun s k => if (slotOf s k).state = 1 ∧ (slotOf s k).route.isSome = true then modSlot k (fun x => { x with state := 2 }) s else s) s

/-- The status of a load (R39, R415, R490): the image, the parts, the checks, the closed set. -/
def loadStatus (s : State) (slot client : Nat) (req : Bytes) (p : RouteParts) (r : Route) : Nat :=
  let expert := s.dict.unlocked.any (fun w => w.client == client)
  if s.host.module ≠ 1 then stState
  else match imageStatus s client req with
    | 0 =>
      if partsMissing p then stState
      else match orderedStatus (loadChecks s slot client expert p r) with
        | 0 => if closedConflict s slot client expert p r then stEpoch else stOk
        | st => st
    | st => st

/-- A secure reserve frame for each secured page, in the page's unit (R388); cached frames give way on the stacks. -/
def reserveFrames (slot : Nat) (r : Route) (s : State) : State :=
  (securedPages s r).foldl (fun s e =>
    let c := kgetD Cargo.free s.mem.cargoes e.1
    let u := pageUnit s e
    let f := pickFrame s.fresh (unitCap s c.tier u c.saggar) (usedFrames s c.tier u c.saggar) (if c.saggar then saggarBase else 0)
    modSecure slot (fun x => { x with reserve := kput x.reserve (pageNumber e.1 e.2) f }) { s with fresh := s.fresh + 1 })
    (roomFor 1 false (reserveNeeds s r 1 false) s).1

/-- A route that its slot is loading is copied and checked: it waits for its next beat, or is refused and its slot given on (R415). -/
def execRouteLoad (slot : Nat) (parts : RouteParts) (s : State) : Outcome :=
  let x := slotOf s slot
  if x.state ≠ 1 ∨ x.route.isSome = true ∨ firmwareRuns s = false then done s
  else
    let client := x.owner
    let req := (admissionOf s client).request
    let r := withExtents s (Route.parse parts (admHandle req) (admPage req) (admLength req) (admDigest req))
    match loadStatus (withLoaded s) slot client req parts r with
    | 0 =>
      let s := reserveFrames slot r s
      done (modSlot slot (fun x => { x with route := some r, expert := s.dict.unlocked.any (fun w => w.client == client) }) s)
    | st => done (giveSlot slot (setSlot slot Slot.free (refuse client slot st s)))

end Sys2Proof.Machine
end

