-- ==== Sys2Proof/Machine/Dispatch.lean ====
section
/-! DEFINITION. The dispatch: one arm for each command, one direct call of its meaning. -/

namespace Sys2Proof.Machine

/-- The effect of a command on everything but the queue. -/
def exec (i : Instr) (s : State) : Host.Outcome State Fault Refusal :=
  match i with
  | .beatOpen tl => Sys2Proof.Machine.execBeatOpen tl s
  | .beatMark link payload => Sys2Proof.Machine.execBeatMark link payload s
  | .initialMarkTimeout => Sys2Proof.Machine.execInitialMarkTimeout s
  | .markUpstreamTimeout => Sys2Proof.Machine.execMarkUpstreamTimeout s
  | .markMasterTimeout => Sys2Proof.Machine.execMarkMasterTimeout s
  | .beatMasterRepeat => Sys2Proof.Machine.execBeatMasterRepeat s
  | .latencyMeasure link => Sys2Proof.Machine.execLatencyMeasure link s
  | .latencyProbe link => Sys2Proof.Machine.execLatencyProbe link s
  | .latencyReply link => Sys2Proof.Machine.execLatencyReply link s
  | .upReport link notices request => Sys2Proof.Machine.execUpReport link notices request s
  | .governedAdditionApply => Sys2Proof.Machine.execGovernedAdditionApply s
  | .closeWindowOpen slot => Sys2Proof.Machine.execCloseWindowOpen slot s
  | .reportCutoff slot => Sys2Proof.Machine.execReportCutoff slot s
  | .verdictApply slot => Sys2Proof.Machine.execVerdictApply slot s
  | .replayStart slot => Sys2Proof.Machine.execReplayStart slot s
  | .counterCapture => Sys2Proof.Machine.execCounterCapture s
  | .objectRead who index sub length staged => Sys2Proof.Machine.execObjectRead who index sub length staged s
  | .objectWrite who index sub data => Sys2Proof.Machine.execObjectWrite who index sub data s
  | .domainReadSegment who index sub offset length staged => Sys2Proof.Machine.execDomainReadSegment who index sub offset length staged s
  | .domainWriteSegment who index sub offset data => Sys2Proof.Machine.execDomainWriteSegment who index sub offset data s
  | .domainWriteLastSegment who index sub offset data => Sys2Proof.Machine.execDomainWriteLastSegment who index sub offset data s
  | .sessionOpen conn transport client key => Sys2Proof.Machine.execSessionOpen conn transport client key s
  | .sessionProof conn signature => Sys2Proof.Machine.execSessionProof conn signature s
  | .sessionClose session => Sys2Proof.Machine.execSessionClose session s
  | .sessionIdleTimeout session => Sys2Proof.Machine.execSessionIdleTimeout session s
  | .expertChallenge who => Sys2Proof.Machine.execExpertChallenge who s
  | .expertUnlock who data => Sys2Proof.Machine.execExpertUnlock who data s
  | .lockExpert who data => Sys2Proof.Machine.execLockExpert who data s
  | .restoreDefaultsBasic who => Sys2Proof.Machine.execRestoreDefaultsBasic who s
  | .restoreDefaultsAll who => Sys2Proof.Machine.execRestoreDefaultsAll who s
  | .stagingOpen who => Sys2Proof.Machine.execStagingOpen who s
  | .stagingClose who => Sys2Proof.Machine.execStagingClose who s
  | .stagingDiscard who => Sys2Proof.Machine.execStagingDiscard who s
  | .epochCommit => Sys2Proof.Machine.execEpochCommit s
  | .repairSetCommit => Sys2Proof.Machine.execRepairSetCommit s
  | .slotForward array net port corrected lost => Sys2Proof.Machine.execSlotForward array net port corrected lost s
  | .arraySiteFail site => Sys2Proof.Machine.execArraySiteFail site s
  | .selftestSlice site fault => Sys2Proof.Machine.execSelftestSlice site fault s
  | .selftestNow who array data => Sys2Proof.Machine.execSelftestNow who array data s
  | .markArrayFailed who array data => Sys2Proof.Machine.execMarkArrayFailed who array data s
  | .stageSubstitution who array => Sys2Proof.Machine.execStageSubstitution who array s
  | .stageReturn who array => Sys2Proof.Machine.execStageReturn who array s
  | .switchFault array => Sys2Proof.Machine.execSwitchFault array s
  | .tileArrive slot place damage => Sys2Proof.Machine.execTileArrive slot place damage s
  | .joinRefill slot station queue tag => Sys2Proof.Machine.execJoinRefill slot station queue tag s
  | .queueCreditReturn slot word => Sys2Proof.Machine.execQueueCreditReturn slot word s
  | .mmoIssue slot station op tag => Sys2Proof.Machine.execMmoIssue slot station op tag s
  | .glazeProgramStart slot station op tag => Sys2Proof.Machine.execGlazeProgramStart slot station op tag s
  | .moveOperation slot station op tag => Sys2Proof.Machine.execMoveOperation slot station op tag s
  | .stashPut slot station op tag => Sys2Proof.Machine.execStashPut slot station op tag s
  | .stashGet slot station op tag => Sys2Proof.Machine.execStashGet slot station op tag s
  | .kilnUpdate slot station op tag => Sys2Proof.Machine.execKilnUpdate slot station op tag s
  | .exchangeContribute slot station op tag => Sys2Proof.Machine.execExchangeContribute slot station op tag s
  | .forward slot station op tag => Sys2Proof.Machine.execForward slot station op tag s
  | .scalarEmit slot station op tag => Sys2Proof.Machine.execScalarEmit slot station op tag s
  | .tokenEmit slot station op tag => Sys2Proof.Machine.execTokenEmit slot station op tag s
  | .operationComplete slot station op tag => Sys2Proof.Machine.execOperationComplete slot station op tag s
  | .tokenArrive slot array lane => Sys2Proof.Machine.execTokenArrive slot array lane s
  | .steerDataArrive slot array unit damage => Sys2Proof.Machine.execSteerDataArrive slot array unit damage s
  | .mergeDataArrive slot array unit input damage => Sys2Proof.Machine.execMergeDataArrive slot array unit input damage s
  | .steerOutput array unit => Sys2Proof.Machine.execSteerOutput array unit s
  | .streamRestart slot stream => Sys2Proof.Machine.execStreamRestart slot stream s
  | .routeStart slot => Sys2Proof.Machine.execRouteStart slot s
  | .routeStartFrame link fabricId slot stepLength => Sys2Proof.Machine.execRouteStartFrame link fabricId slot stepLength s
  | .tileStep array mmo => Sys2Proof.Machine.execTileStep array mmo s
  | .outputDrain array mmo => Sys2Proof.Machine.execOutputDrain array mmo s
  | .latePoint array transfer => Sys2Proof.Machine.execLatePoint array transfer s
  | .gAdd array thread => Sys2Proof.Machine.execGAdd array thread s
  | .gSub array thread => Sys2Proof.Machine.execGSub array thread s
  | .gMul array thread => Sys2Proof.Machine.execGMul array thread s
  | .gFma array thread => Sys2Proof.Machine.execGFma array thread s
  | .gMin array thread => Sys2Proof.Machine.execGMin array thread s
  | .gMax array thread => Sys2Proof.Machine.execGMax array thread s
  | .gAbs array thread => Sys2Proof.Machine.execGAbs array thread s
  | .gNeg array thread => Sys2Proof.Machine.execGNeg array thread s
  | .gCmplt array thread => Sys2Proof.Machine.execGCmplt array thread s
  | .gCmpeq array thread => Sys2Proof.Machine.execGCmpeq array thread s
  | .gSel array thread => Sys2Proof.Machine.execGSel array thread s
  | .gAnd array thread => Sys2Proof.Machine.execGAnd array thread s
  | .gOr array thread => Sys2Proof.Machine.execGOr array thread s
  | .gXor array thread => Sys2Proof.Machine.execGXor array thread s
  | .gShl array thread => Sys2Proof.Machine.execGShl array thread s
  | .gShr array thread => Sys2Proof.Machine.execGShr array thread s
  | .gMov array thread => Sys2Proof.Machine.execGMov array thread s
  | .gCvti array thread => Sys2Proof.Machine.execGCvti array thread s
  | .gCvtf array thread => Sys2Proof.Machine.execGCvtf array thread s
  | .gPack array thread => Sys2Proof.Machine.execGPack array thread s
  | .gUnpack array thread => Sys2Proof.Machine.execGUnpack array thread s
  | .gExp2 array thread => Sys2Proof.Machine.execGExp2 array thread s
  | .gLog2 array thread => Sys2Proof.Machine.execGLog2 array thread s
  | .gRcp array thread => Sys2Proof.Machine.execGRcp array thread s
  | .gRsqrt array thread => Sys2Proof.Machine.execGRsqrt array thread s
  | .gTanh array thread => Sys2Proof.Machine.execGTanh array thread s
  | .gErf array thread => Sys2Proof.Machine.execGErf array thread s
  | .gRsum array thread => Sys2Proof.Machine.execGRsum array thread s
  | .gRmax array thread => Sys2Proof.Machine.execGRmax array thread s
  | .gRmin array thread => Sys2Proof.Machine.execGRmin array thread s
  | .gRamax array thread => Sys2Proof.Machine.execGRamax array thread s
  | .gRssq array thread => Sys2Proof.Machine.execGRssq array thread s
  | .gLd array thread => Sys2Proof.Machine.execGLd array thread s
  | .gSt array thread => Sys2Proof.Machine.execGSt array thread s
  | .gTout array thread => Sys2Proof.Machine.execGTout array thread s
  | .gSli array thread => Sys2Proof.Machine.execGSli array thread s
  | .gSadd array thread => Sys2Proof.Machine.execGSadd array thread s
  | .gSmul array thread => Sys2Proof.Machine.execGSmul array thread s
  | .gSfrom array thread => Sys2Proof.Machine.execGSfrom array thread s
  | .gSetext array thread => Sys2Proof.Machine.execGSetext array thread s
  | .gLoop array thread => Sys2Proof.Machine.execGLoop array thread s
  | .gEnd array thread => Sys2Proof.Machine.execGEnd array thread s
  | .glazeWordLimit array thread => Sys2Proof.Machine.execGlazeWordLimit array thread s
  | .gaAdmit slot ga source microBatch => Sys2Proof.Machine.execGaAdmit slot ga source microBatch s
  | .lossItem slot array stream => Sys2Proof.Machine.execLossItem slot array stream s
  | .cargoCreate who request => Sys2Proof.Machine.execCargoCreate who request s
  | .cargoFree who request => Sys2Proof.Machine.execCargoFree who request s
  | .cargoPin who request => Sys2Proof.Machine.execCargoPin who request s
  | .cargoUnpin who request => Sys2Proof.Machine.execCargoUnpin who request s
  | .cargoSetActions who request => Sys2Proof.Machine.execCargoSetActions who request s
  | .cargoFlush who request => Sys2Proof.Machine.execCargoFlush who request s
  | .cargoMarkOutOfDate who request => Sys2Proof.Machine.execCargoMarkOutOfDate who request s
  | .cargoCommandDone client ok => Sys2Proof.Machine.execCargoCommandDone client ok s
  | .scrubPass kind unit findings => Sys2Proof.Machine.execScrubPass kind unit findings s
  | .writehomeRetry stack frame => Sys2Proof.Machine.execWritehomeRetry stack frame s
  | .cargoReadFail array transfer => Sys2Proof.Machine.execCargoReadFail array transfer s
  | .transferIssue array => Sys2Proof.Machine.execTransferIssue array s
  | .requestIssue array transfer => Sys2Proof.Machine.execRequestIssue array transfer s
  | .requestLand array transfer request hostData => Sys2Proof.Machine.execRequestLand array transfer request hostData s
  | .writeAcknowledge array transfer request => Sys2Proof.Machine.execWriteAcknowledge array transfer request s
  | .droverAccess array core thread slot store handle offset length data tag => Sys2Proof.Machine.execDroverAccess array core thread slot store handle offset length data tag s
  | .flashPageRead page retries uncorrectable => Sys2Proof.Machine.execFlashPageRead page retries uncorrectable s
  | .flashProgram => Sys2Proof.Machine.execFlashProgram s
  | .mapCheckpoint => Sys2Proof.Machine.execMapCheckpoint s
  | .garbageCollection => Sys2Proof.Machine.execGarbageCollection s
  | .staticWearLevelling => Sys2Proof.Machine.execStaticWearLevelling s
  | .readDisturbRelocation set => Sys2Proof.Machine.execReadDisturbRelocation set s
  | .blockRetire set => Sys2Proof.Machine.execBlockRetire set s
  | .bankSample volts => Sys2Proof.Machine.execBankSample volts s
  | .loadTest => Sys2Proof.Machine.execLoadTest s
  | .loadTestNow who data => Sys2Proof.Machine.execLoadTestNow who data s
  | .loadTestDone drop => Sys2Proof.Machine.execLoadTestDone drop s
  | .storeAdmit store => Sys2Proof.Machine.execStoreAdmit store s
  | .inputLow => Sys2Proof.Machine.execInputLow s
  | .inputLowClear => Sys2Proof.Machine.execInputLowClear s
  | .inputLoss byPin => Sys2Proof.Machine.execInputLoss byPin s
  | .inputHigh entering => Sys2Proof.Machine.execInputHigh entering s
  | .inputOvervoltage => Sys2Proof.Machine.execInputOvervoltage s
  | .overcurrent => Sys2Proof.Machine.execOvercurrent s
  | .holdupQuiesceEnd => Sys2Proof.Machine.execHoldupQuiesceEnd s
  | .holdupProgramDone => Sys2Proof.Machine.execHoldupProgramDone s
  | .powerLossRecord energy volts inputBack => Sys2Proof.Machine.execPowerLossRecord energy volts inputBack s
  | .laneFail link lane => Sys2Proof.Machine.execLaneFail link lane s
  | .spareLaneTrained link => Sys2Proof.Machine.execSpareLaneTrained link s
  | .spareLaneJoin link => Sys2Proof.Machine.execSpareLaneJoin link s
  | .flitSend link channel => Sys2Proof.Machine.execFlitSend link channel s
  | .flitReceive link header payload corrected uncorrectable => Sys2Proof.Machine.execFlitReceive link header payload corrected uncorrectable s
  | .retryRequest link sequence => Sys2Proof.Machine.execRetryRequest link sequence s
  | .linkRetrain link => Sys2Proof.Machine.execLinkRetrain link s
  | .linkUp link => Sys2Proof.Machine.execLinkUp link s
  | .identityFrame link device peerLink => Sys2Proof.Machine.execIdentityFrame link device peerLink s
  | .laneControlFrame link lane kind => Sys2Proof.Machine.execLaneControlFrame link lane kind s
  | .digestFrame link digest beat => Sys2Proof.Machine.execDigestFrame link digest beat s
  | .peerAccessFrame link dest frame => Sys2Proof.Machine.execPeerAccessFrame link dest frame s
  | .sumReport payload => Sys2Proof.Machine.execSumReport payload s
  | .normReport payload => Sys2Proof.Machine.execNormReport payload s
  | .ringPartialArrive slot record chunk ring values => Sys2Proof.Machine.execRingPartialArrive slot record chunk ring values s
  | .lateFoldDecide slot record chunk ring => Sys2Proof.Machine.execLateFoldDecide slot record chunk ring s
  | .lateTileLand slot record chunk ring first step values => Sys2Proof.Machine.execLateTileLand slot record chunk ring first step values s
  | .portModeChipLink who link => Sys2Proof.Machine.execPortModeChipLink who link s
  | .portModeEthernet who link mode => Sys2Proof.Machine.execPortModeEthernet who link mode s
  | .datagramReceive link frame => Sys2Proof.Machine.execDatagramReceive link frame s
  | .retrainLinkNow who link data => Sys2Proof.Machine.execRetrainLinkNow who link data s
  | .backgroundCopy slot tier unit => Sys2Proof.Machine.execBackgroundCopy slot tier unit s
  | .buddySend slot => Sys2Proof.Machine.execBuddySend slot s
  | .buddyReceive device slot step page contents header => Sys2Proof.Machine.execBuddyReceive device slot step page contents header s
  | .buddySlotComplete slot => Sys2Proof.Machine.execBuddySlotComplete slot s
  | .flashCheckpoint slot => Sys2Proof.Machine.execFlashCheckpoint slot s
  | .restoreRequest who data => Sys2Proof.Machine.execRestoreRequest who data s
  | .restoreStart slot => Sys2Proof.Machine.execRestoreStart slot s
  | .firmwareHandover who data => Sys2Proof.Machine.execFirmwareHandover who data s
  | .handoverServiceMove selfCheckOk => Sys2Proof.Machine.execHandoverServiceMove selfCheckOk s
  | .admissionRequest who client request => Sys2Proof.Machine.execAdmissionRequest who client request s
  | .slotGive slot => Sys2Proof.Machine.execSlotGive slot s
  | .routeLoad slot parts => Sys2Proof.Machine.execRouteLoad slot parts s
  | .routeResident slot => Sys2Proof.Machine.execRouteResident slot s
  | .cancelAdmission who client data => Sys2Proof.Machine.execCancelAdmission who client data s
  | .releaseSlot who client data => Sys2Proof.Machine.execReleaseSlot who client data s
  | .releaseTakeEffect slot => Sys2Proof.Machine.execReleaseTakeEffect slot s
  | .requestPost client slot offset data => Sys2Proof.Machine.execRequestPost client slot offset data s
  | .coneRelease slot request => Sys2Proof.Machine.execConeRelease slot request s
  | .resultReleaseWrite client slot value => Sys2Proof.Machine.execResultReleaseWrite client slot value s
  | .refreshCopy entry => Sys2Proof.Machine.execRefreshCopy entry s
  | .bankSwap slot => Sys2Proof.Machine.execBankSwap slot s
  | .clearCounters who data => Sys2Proof.Machine.execClearCounters who data s
  | .bootDoorbell value segment => Sys2Proof.Machine.execBootDoorbell value segment s
  | .bar4WindowSet who window record => Sys2Proof.Machine.execBar4WindowSet who window record s
  | .bar4Read function offset length hostData => Sys2Proof.Machine.execBar4Read function offset length hostData s
  | .bar4Write function offset data => Sys2Proof.Machine.execBar4Write function offset data s
  | .readRefusedWindows who => Sys2Proof.Machine.execReadRefusedWindows who s
  | .pcieRetrainNow who data => Sys2Proof.Machine.execPcieRetrainNow who data s
  | .vfEnable k => Sys2Proof.Machine.execVfEnable k s
  | .vfDisable => Sys2Proof.Machine.execVfDisable s
  | .functionLevelReset function => Sys2Proof.Machine.execFunctionLevelReset function s
  | .pcieLinkDown => Sys2Proof.Machine.execPcieLinkDown s
  | .powerOnReset => Sys2Proof.Machine.execPowerOnReset s
  | .perst => Sys2Proof.Machine.execPerst s
  | .sysrst => Sys2Proof.Machine.execSysrst s
  | .watchdogMiss core => Sys2Proof.Machine.execWatchdogMiss core s
  | .resetFabric who => Sys2Proof.Machine.execResetFabric who s
  | .resetWarm who => Sys2Proof.Machine.execResetWarm who s
  | .resetCold who => Sys2Proof.Machine.execResetCold who s
  | .storeDrainDone => Sys2Proof.Machine.execStoreDrainDone s
  | .resetStretchEnd findings => Sys2Proof.Machine.execResetStretchEnd findings s
  | .thermTrip sensor => Sys2Proof.Machine.execThermTrip sensor s
  | .thermTripRecover => Sys2Proof.Machine.execThermTripRecover s
  | .advanceAntiRollback who data => Sys2Proof.Machine.execAdvanceAntiRollback who data s
  | .firmwareImageWrite who offset data last => Sys2Proof.Machine.execFirmwareImageWrite who offset data last s
  | .imageProgramDone => Sys2Proof.Machine.execImageProgramDone s
  | .attestationNonce who nonce => Sys2Proof.Machine.execAttestationNonce who nonce s
  | .attestationSigned client => Sys2Proof.Machine.execAttestationSigned client s
  | .cableShort connector => Sys2Proof.Machine.execCableShort connector s
  | .mailboxDoorbell function value frame => Sys2Proof.Machine.execMailboxDoorbell function value frame s
  | .voaRequestFrame conn frame => Sys2Proof.Machine.execVoaRequestFrame conn frame s
  | .managementEchoRequest kind data => Sys2Proof.Machine.execManagementEchoRequest kind data s
  | .managementLinkUp => Sys2Proof.Machine.execManagementLinkUp s
  | .managementLinkDown => Sys2Proof.Machine.execManagementLinkDown s
  | .autoNegotiationDone link => Sys2Proof.Machine.execAutoNegotiationDone link s
  | .ethernetPortDown link => Sys2Proof.Machine.execEthernetPortDown link s
  | .pcieLinkUp rate width => Sys2Proof.Machine.execPcieLinkUp rate width s
  | .perstRelease => Sys2Proof.Machine.execPerstRelease s
  | .msixUnmask function vector => Sys2Proof.Machine.execMsixUnmask function vector s
  | .selftestDone array => Sys2Proof.Machine.execSelftestDone array s
  | .coefficientBlockDone slot => Sys2Proof.Machine.execCoefficientBlockDone slot s
  | .bankExhausted => Sys2Proof.Machine.execBankExhausted s

end Sys2Proof.Machine
end

