-- ==== Sys2Proof/Safety.lean ====
section
/-! DEFINITION. What every state that the module reaches satisfies, in the terms that the statements use: the canonical form of byte
storage, the legal states of the fabric timer, the width of the counters and the size of the ledgers. -/

namespace Sys2Proof.Machine

/-- Every value of a table of counters fits 64 bits (R448). -/
def CountersFit (m : KMap Nat) : Prop := ∀ e ∈ m, e.2 < 2 ^ 64

/-- Every record of a ledger stands at a place of its ring. -/
def RingFits (m : KMap Bytes) (size : Nat) : Prop := ∀ e ∈ m, e.1 < size

/-- The TBF of every array is in canonical form. -/
def TbfsCanonical (m : KMap ArrayState) : Prop := ∀ e ∈ m, Memory.wf e.2.tbf = true

/-- What holds of the module between any two steps, whatever commands arrive. -/
structure State.Inv (s : State) : Prop where
  /-- Home contents of cargoes, contents of cached frames, and every TBF: addresses strictly rising, no zero byte listed. -/
  home : Memory.wf s.mem.home = true
  cached : Memory.wf s.mem.cached = true
  tbf : TbfsCanonical s.arrays
  /-- The fabric timer is FREE, LOCKING, LOCKED or MASTER (R47). -/
  timer : s.beat.state ≤ 3
  /-- Counters stop at 2^64 − 1 (R448). -/
  live : CountersFit s.ctr.live
  captured : CountersFit s.ctr.captured
  station : CountersFit s.ctr.station
  stationCaptured : CountersFit s.ctr.stationCaptured
  /-- The ledgers hold 65,536 command records, 65,536 event records and 2,097,152 step records (R96, R452, R454). -/
  commands : RingFits s.led.command 65536
  events : RingFits s.led.event 65536
  steps : RingFits s.led.step 2097152

/-- The parts of the state beside the queue. -/
inductive Part where
  | clock | fresh | out | resp | dict | led | ctr | beat | fab | slots | arrays | kilns | mem
  | engines | flash | power | net | colls | secures | keeper | admissions | serves | refresh | host | sys
  deriving DecidableEq, Repr

/-- Two states agree on a part. -/
def Part.same : Part → State → State → Prop
  | .clock, s, t => t.clock = s.clock
  | .fresh, s, t => t.fresh = s.fresh
  | .out, s, t => t.out = s.out
  | .resp, s, t => t.resp = s.resp
  | .dict, s, t => t.dict = s.dict
  | .led, s, t => t.led = s.led
  | .ctr, s, t => t.ctr = s.ctr
  | .beat, s, t => t.beat = s.beat
  | .fab, s, t => t.fab = s.fab
  | .slots, s, t => t.slots = s.slots
  | .arrays, s, t => t.arrays = s.arrays
  | .kilns, s, t => t.kilns = s.kilns
  | .mem, s, t => t.mem = s.mem
  | .engines, s, t => t.engines = s.engines
  | .flash, s, t => t.flash = s.flash
  | .power, s, t => t.power = s.power
  | .net, s, t => t.net = s.net
  | .colls, s, t => t.colls = s.colls
  | .secures, s, t => t.secures = s.secures
  | .keeper, s, t => t.keeper = s.keeper
  | .admissions, s, t => t.admissions = s.admissions
  | .serves, s, t => t.serves = s.serves
  | .refresh, s, t => t.refresh = s.refresh
  | .host, s, t => t.host = s.host
  | .sys, s, t => t.sys = s.sys

/-- Two states agree on every part but those listed. -/
def SameBut (ps : List Part) (s t : State) : Prop := t.pending = s.pending ∧ ∀ p, p ∉ ps → p.same s t

/-- The parts of the state that a command may change; it leaves every other part as it stands. -/
def touches : Instr → List Part
  | .beatOpen .. =>
    [.fresh, .out, .dict, .led, .ctr, .beat, .fab, .slots, .arrays, .mem, .engines, .flash, .power, .net, .colls, .secures, .keeper,
     .serves, .host]
  | .beatMark .. =>
    [.fresh, .out, .led, .ctr, .beat, .slots, .net, .secures, .host]
  | .initialMarkTimeout | .latencyReply .. | .upReport .. =>
    [.beat]
  | .markUpstreamTimeout | .markMasterTimeout | .beatMasterRepeat =>
    [.led, .ctr, .beat]
  | .latencyMeasure .. =>
    [.out, .beat, .net]
  | .latencyProbe .. | .spareLaneJoin .. | .linkUp .. =>
    [.out, .net]
  | .governedAdditionApply =>
    [.beat, .slots]
  | .closeWindowOpen .. | .queueCreditReturn .. | .lossItem .. =>
    [.fab, .slots]
  | .reportCutoff .. =>
    [.slots, .mem, .serves]
  | .verdictApply .. =>
    [.fresh, .out, .led, .ctr, .beat, .fab, .slots, .arrays, .kilns, .mem, .engines, .net, .colls, .secures, .serves, .refresh, .host]
  | .replayStart .. =>
    [.fresh, .out, .led, .ctr, .slots, .arrays, .mem, .engines, .flash, .net, .colls, .secures, .keeper, .host]
  | .counterCapture =>
    [.out, .ctr, .host]
  | .objectRead .. | .objectWrite .. | .domainReadSegment .. | .domainWriteSegment .. | .domainWriteLastSegment .. |
    .expertChallenge .. | .expertUnlock .. | .lockExpert .. | .restoreDefaultsBasic .. | .restoreDefaultsAll .. | .stagingOpen .. |
    .stagingClose .. | .stagingDiscard .. | .selftestNow .. | .markArrayFailed .. | .stageSubstitution .. | .stageReturn .. |
    .cargoCreate .. | .cargoFree .. | .cargoPin .. | .cargoUnpin .. | .cargoSetActions .. | .cargoFlush .. | .cargoMarkOutOfDate .. |
    .loadTestNow .. | .peerAccessFrame .. | .portModeChipLink .. | .portModeEthernet .. | .retrainLinkNow .. | .restoreRequest .. |
    .firmwareHandover .. | .admissionRequest .. | .cancelAdmission .. | .releaseSlot .. | .clearCounters .. | .bar4WindowSet .. |
    .readRefusedWindows .. | .pcieRetrainNow .. | .resetFabric .. | .resetWarm .. | .resetCold .. | .advanceAntiRollback .. |
    .firmwareImageWrite .. | .attestationNonce .. | .mailboxDoorbell .. | .voaRequestFrame .. =>
    [.fresh, .out, .resp, .dict, .led, .ctr, .fab, .slots, .arrays, .mem, .engines, .flash, .power, .net, .colls, .secures,
     .admissions, .serves, .refresh, .host, .sys]
  | .sessionOpen .. | .sessionProof .. =>
    [.fresh, .out, .resp, .dict]
  | .sessionClose .. | .sessionIdleTimeout .. =>
    [.dict]
  | .epochCommit =>
    [.fresh, .out, .dict, .led, .ctr, .beat, .fab, .slots, .arrays, .mem, .engines, .flash, .net, .colls, .secures, .serves, .refresh,
     .host, .sys]
  | .repairSetCommit =>
    [.led, .ctr, .fab, .slots, .arrays, .engines, .serves]
  | .slotForward .. | .tokenArrive .. | .steerDataArrive .. | .mergeDataArrive .. =>
    [.ctr, .fab, .slots, .net]
  | .arraySiteFail .. | .selftestSlice .. | .switchFault .. =>
    [.led, .ctr, .fab]
  | .tileArrive .. =>
    [.ctr, .fab, .slots, .arrays, .kilns, .mem, .net, .secures]
  | .joinRefill .. =>
    [.slots, .arrays, .kilns]
  | .mmoIssue .. | .glazeProgramStart .. =>
    [.led, .ctr, .fab, .slots, .arrays, .mem, .engines, .net]
  | .moveOperation .. | .stashGet .. | .forward .. | .scalarEmit .. | .tokenEmit .. =>
    [.led, .ctr, .fab, .slots, .mem, .engines, .net]
  | .stashPut .. | .kilnUpdate .. =>
    [.fresh, .led, .ctr, .fab, .slots, .mem, .engines, .flash, .net, .secures]
  | .exchangeContribute .. =>
    [.led, .ctr, .fab, .slots, .mem, .engines, .net, .colls]
  | .operationComplete .. =>
    [.led, .ctr, .slots, .arrays, .serves]
  | .steerOutput .. =>
    [.fab, .slots, .net]
  | .streamRestart .. =>
    [.led, .ctr, .slots, .serves]
  | .routeStart .. =>
    [.out, .slots, .net, .admissions, .host]
  | .routeStartFrame .. | .slotGive .. =>
    [.out, .slots, .admissions, .host]
  | .tileStep .. =>
    [.fresh, .led, .ctr, .slots, .arrays, .mem, .engines]
  | .outputDrain .. =>
    [.fresh, .out, .led, .ctr, .slots, .arrays, .mem, .engines, .flash, .secures]
  | .latePoint .. | .cargoReadFail .. | .requestIssue .. =>
    [.fresh, .out, .led, .ctr, .slots, .arrays, .mem, .engines, .flash, .secures, .serves]
  | .gAdd .. | .gSub .. | .gMul .. | .gFma .. | .gMin .. | .gMax .. | .gAbs .. | .gNeg .. | .gCmplt .. | .gCmpeq .. | .gSel .. |
    .gAnd .. | .gOr .. | .gXor .. | .gShl .. | .gShr .. | .gMov .. | .gCvti .. | .gCvtf .. | .gPack .. | .gUnpack .. | .gExp2 .. |
    .gLog2 .. | .gRcp .. | .gRsqrt .. | .gTanh .. | .gErf .. | .gRsum .. | .gRmax .. | .gRmin .. | .gRamax .. | .gRssq .. | .gSli .. |
    .gSadd .. | .gSmul .. | .gSfrom .. | .gSetext .. | .gLoop .. =>
    [.ctr, .arrays]
  | .gLd .. | .gSt .. | .gTout .. | .glazeWordLimit .. =>
    [.led, .ctr, .slots, .arrays]
  | .gEnd .. =>
    [.ctr, .slots, .arrays]
  | .gaAdmit .. =>
    [.led, .ctr, .fab, .slots, .arrays, .engines, .net]
  | .cargoCommandDone .. | .bar4Read .. =>
    [.fresh, .out, .led, .ctr, .mem, .flash]
  | .scrubPass .. =>
    [.led, .ctr, .mem]
  | .writehomeRetry .. =>
    [.out, .led, .ctr, .mem, .flash]
  | .transferIssue .. | .droverAccess .. =>
    [.fresh, .led, .ctr, .slots, .arrays, .engines, .flash]
  | .requestLand .. =>
    [.fresh, .out, .slots, .arrays, .mem, .engines, .flash, .secures, .serves]
  | .writeAcknowledge .. =>
    [.slots, .arrays, .mem, .engines, .serves]
  | .flashPageRead .. | .flashProgram | .garbageCollection | .staticWearLevelling | .readDisturbRelocation .. =>
    [.ctr, .flash]
  | .mapCheckpoint | .storeAdmit .. =>
    [.flash]
  | .blockRetire .. =>
    [.led, .ctr, .flash]
  | .bankSample .. | .inputHigh .. | .bankExhausted =>
    [.power]
  | .loadTest | .inputLowClear =>
    [.out, .power, .host]
  | .loadTestDone .. | .inputLow =>
    [.out, .led, .ctr, .power, .host]
  | .inputLoss .. | .inputOvervoltage | .overcurrent =>
    [.out, .fab, .slots, .arrays, .engines, .power, .net, .colls, .secures, .admissions, .serves, .refresh, .host]
  | .holdupQuiesceEnd =>
    [.led, .ctr, .power]
  | .holdupProgramDone =>
    [.ctr, .flash, .power]
  | .powerLossRecord .. =>
    [.fresh, .out, .dict, .led, .ctr, .fab, .slots, .arrays, .mem, .engines, .power, .net, .colls, .secures, .admissions, .serves,
     .refresh, .host, .sys]
  | .laneFail .. =>
    [.out, .led, .ctr, .net]
  | .spareLaneTrained .. | .linkRetrain .. | .managementLinkUp | .managementLinkDown | .autoNegotiationDone .. | .ethernetPortDown
    .. =>
    [.net]
  | .flitSend .. =>
    [.out, .ctr, .net]
  | .flitReceive .. =>
    [.out, .led, .ctr, .slots, .net]
  | .retryRequest .. | .laneControlFrame .. | .digestFrame .. =>
    [.led, .ctr, .net]
  | .identityFrame .. =>
    [.out, .led, .ctr, .beat, .net]
  | .sumReport .. =>
    [.out, .ctr, .slots, .net, .colls, .secures, .keeper]
  | .normReport .. =>
    [.slots, .secures]
  | .ringPartialArrive .. | .lateFoldDecide .. =>
    [.fresh, .out, .led, .ctr, .slots, .mem, .flash, .net, .colls, .secures, .keeper]
  | .lateTileLand .. =>
    [.ctr, .colls]
  | .datagramReceive .. | .requestPost .. | .coneRelease .. =>
    [.out, .ctr, .serves, .host]
  | .backgroundCopy .. =>
    [.ctr, .mem, .secures]
  | .buddySend .. =>
    [.ctr, .net, .secures, .keeper]
  | .buddyReceive .. =>
    [.keeper]
  | .buddySlotComplete .. =>
    [.led, .ctr, .secures]
  | .flashCheckpoint .. =>
    [.fresh, .out, .led, .ctr, .mem, .flash, .secures, .keeper]
  | .restoreStart .. =>
    [.out, .led, .ctr, .beat, .slots, .kilns, .mem, .colls, .secures, .keeper, .host]
  | .handoverServiceMove .. =>
    [.led, .ctr, .sys]
  | .routeLoad .. =>
    [.fresh, .out, .dict, .led, .ctr, .slots, .mem, .flash, .secures, .admissions, .host]
  | .routeResident .. =>
    [.out, .ctr, .fab, .slots, .engines, .admissions, .host]
  | .releaseTakeEffect .. =>
    [.fresh, .out, .led, .ctr, .fab, .slots, .arrays, .mem, .engines, .colls, .secures, .admissions, .serves, .refresh, .host]
  | .resultReleaseWrite .. =>
    [.ctr, .serves]
  | .refreshCopy .. =>
    [.fresh, .mem, .flash, .secures, .refresh]
  | .bankSwap .. =>
    [.led, .ctr, .serves, .refresh]
  | .bootDoorbell .. =>
    [.out, .host, .sys]
  | .bar4Write .. =>
    [.fresh, .out, .led, .ctr, .mem, .flash, .secures, .host]
  | .vfEnable .. | .pcieLinkUp .. | .perstRelease =>
    [.host]
  | .vfDisable | .functionLevelReset .. =>
    [.fresh, .out, .dict, .led, .ctr, .fab, .slots, .arrays, .mem, .engines, .colls, .secures, .admissions, .serves, .refresh, .host]
  | .pcieLinkDown =>
    [.fresh, .out, .led, .ctr, .slots, .arrays, .mem, .engines, .flash, .secures, .serves, .host]
  | .powerOnReset | .thermTripRecover =>
    [.fresh, .out, .led, .ctr, .fab, .slots, .arrays, .mem, .engines, .power, .net, .colls, .secures, .admissions, .serves, .refresh,
     .host, .sys]
  | .perst =>
    [.fresh, .out, .dict, .led, .ctr, .fab, .slots, .arrays, .mem, .engines, .flash, .net, .colls, .secures, .admissions, .serves,
     .refresh, .host, .sys]
  | .sysrst | .watchdogMiss .. =>
    [.fresh, .out, .led, .ctr, .fab, .slots, .arrays, .mem, .engines, .net, .colls, .secures, .admissions, .serves, .refresh, .host,
     .sys]
  | .storeDrainDone =>
    [.ctr, .flash, .power, .sys]
  | .resetStretchEnd .. =>
    [.fresh, .out, .dict, .led, .ctr, .fab, .slots, .arrays, .mem, .engines, .flash, .power, .net, .colls, .secures, .keeper,
     .admissions, .serves, .refresh, .host, .sys]
  | .thermTrip .. =>
    [.fab, .slots, .arrays, .engines, .power, .net, .colls, .secures, .admissions, .serves, .refresh, .host, .sys]
  | .imageProgramDone =>
    [.sys]
  | .attestationSigned .. =>
    [.fresh, .sys]
  | .cableShort .. =>
    [.led, .ctr, .power, .net]
  | .managementEchoRequest .. =>
    [.out]
  | .msixUnmask .. =>
    [.out, .host]
  | .selftestDone .. =>
    [.fab]
  | .coefficientBlockDone .. =>
    [.fresh, .ctr, .slots, .mem, .flash, .secures]

/-! Entries of the object dictionary. -/

/-- The entry of R90 that writes a value to an object, and the one that writes a domain in a single last segment. -/
def writeOf (index sub : Nat) (b : Bytes) : Ask := ⟨2, index, sub, 0, b.length, b, false⟩
def lastOf (index sub : Nat) (b : Bytes) : Ask := ⟨5, index, sub, 0, b.length, b, false⟩

/-- The entry that reads an object. -/
def readOf (index sub : Nat) : Ask := ⟨1, index, sub, 0, 0, [], false⟩

/-- The entry reaches the dictionary server, passes the checks of R94 that every entry passes, and carries a value that its object
may take. -/
structure Passes (who : Who) (a : Ask) (s : State) : Prop where
  reached : reaches s who = true
  status : entryStatus s who a = stOk
  served : notServed s a.index = false
  legal : a.acts = true → valueLegal (rowOf a.index a.sub) a.data = true
  fits : a.op = 5 → a.data.length ≤ domainLimit (rowOf a.index a.sub) ∧ lengthLegal (rowOf a.index a.sub) a.data = true

/-- The state that an accepted write leaves: its effect, the record in the command ledger (R96), the response ST_OK. `before` is the
state at its execution. -/
def answered (who : Who) (a : Ask) (before after : State) : State :=
  { commandRecord (entryRecord before who a stOk) after with resp := ⟨stOk, []⟩ }

/-- What the requester had written of a domain before is given up by a write that begins at offset 0 (R91). -/
def begun (who : Who) (a : Ask) (s : State) : State := dropPartial who (objKey a.index a.sub) s

end Sys2Proof.Machine
end

