-- ==== Sys2Proof/Certificates/Slice0/Obligations.lean ====
section
/-! DEFINITION. The statements for the provers. -/

open Sys2Proof Sys2Proof.Machine

/-! The machine as a whole. -/

/-- A step takes the command at the front of the queue and executes it over the rest of the queue. -/
def Obligations.StepRunsTheFrontCommand : Prop :=
  ∀ (c : Instr) (rest : List Instr) (s : State), s.pending = c :: rest → step s = exec c { s with pending := rest }

/-- No command stops the module: every step answers a next state. A step takes exactly the front command from the queue; no command puts
another there, takes one or reorders them. With no command waiting, a step counts one cycle of the core clock and changes nothing else. The
model's own choice (assumption log 1). -/
def Obligations.StepsAlwaysAnswerAndTakeOneCommand : Prop :=
  (∀ s : State, ∃ t, step s = .next t) ∧
  (∀ (c : Instr) (rest : List Instr) (s t : State), s.pending = c :: rest → step s = .next t → t.pending = rest) ∧
  (∀ s : State, s.pending = [] → step s = .next { s with clock := s.clock + 1 })

/-- What holds of the module goes on holding at every step, whatever the command: canonical storage, a legal timer state, counters
of 64 bits, ledgers of their sizes. -/
def Obligations.EveryStepKeepsTheInvariant : Prop :=
  ∀ s t : State, s.Inv → step s = .next t → t.Inv

/-- The module right after reset satisfies the invariant. -/
def Obligations.ResetSatisfiesTheInvariant : Prop := State.reset.Inv

/-- A command leaves every part of the state that is not listed for it as it stands, and so it leaves the queue. -/
def Obligations.CommandsTouchOnlyTheirParts : Prop :=
  ∀ (c : Instr) (s t : State), exec c s = .next t → SameBut (touches c) s t

/-- After reset: the fabric timer FREE with count 0, no route resident, every object at its default, no staging set, no session
and no unlocked level, ledgers and counters empty, every array on its own site, every link in training, no command waiting. -/
def Obligations.ResetLeavesTheModuleFree : Prop :=
  State.reset.beat.state = 0 ∧ State.reset.beat.count = 0 ∧ residents State.reset = [] ∧
  (∀ index sub, stored State.reset index sub = dfltBytes (rowOf index sub) sub) ∧
  State.reset.dict.staging.state = 0 ∧ State.reset.dict.sessions = [] ∧ State.reset.dict.unlocked = [] ∧
  State.reset.led.commands = 0 ∧ State.reset.led.events = 0 ∧ State.reset.led.steps = 0 ∧
  (∀ index inst, capturedValue State.reset index inst = 0) ∧ (∀ a, siteOf State.reset a = a ∧ arrayFailed State.reset a = false) ∧
  (∀ l, (linkOf State.reset l).state = 1) ∧ State.reset.pending = []

/-! The fabric timer and the governor. -/

/-- BEAT_OPEN of the fabric timer advances the count by one, or takes the count adopted from a mark where that lies further on, and makes written values the ones
in use (R47, R51, R75); BEAT_OPEN of a slot opens the beat of its started route when its last beat has closed, or at cycle 0
of a fabric beat for the first beat of a route that keeps to it, with no increment granted and no tag due yet (R45, R56, R64); the first beat
of a step has no lag (R60). -/
def Obligations.BeatOpenStartsTheNextBeat : Prop :=
  (∀ s : State, firmwareRuns s = true → ∃ t, exec (.beatOpen .fabric) s = .next t ∧
    t.beat.count = max (s.beat.adopt.getD 0) (s.beat.count + 1) % 2 ^ 64 ∧ t.beat.adopt = none ∧ t.beat.opened = s.clock ∧
    t.beat.sinceReset = min 32 (s.beat.sinceReset + 1) ∧ t.beat.state = s.beat.state ∧ t.beat.term = s.beat.term ∧
    t.dict.objs = s.dict.objs ∧ t.dict.inUse = s.dict.objs ∧
    SameBut (touches (.beatOpen .fabric)) s t) ∧
  (∀ (k : Nat) (r : Route) (s : State), routeOf s k = some r → alive s = true → (slotOf s k).started = true →
    mayOpen s k r = true →
    ∃ u, (slotOf u k).beat.phase = 1 ∧ (slotOf u k).beat.opened = s.clock ∧ (slotOf u k).beat.increments = 0 ∧
      (slotOf u k).beat.due = [] ∧ (slotOf u k).beat.late = false ∧ (slotOf u k).beat.faults = [] ∧
      (r.plan.isLocal = false → s.beat.opened + (slotOf s k).beat.lag ≤ s.clock → (slotOf u k).beat.count = s.beat.count) ∧
      (r.plan.isLocal = true → (slotOf s k).beat.phase ≠ 0 → (slotOf u k).beat.count = (slotOf s k).beat.count + 1) ∧
      ((slotOf s k).beat.phase = 0 → (slotOf u k).beat.offset = 0) ∧ ((slotOf u k).beat.offset = 0 → (slotOf u k).beat.lag = 0) ∧
      exec (.beatOpen (.slot k)) s = .next (
        if r.training then (if (slotOf s k).train.state = 1 then openTraining k r u else u)
        else reloadAgain k r (enterRequests k s.clock r { u with mem := { u.mem with noted := u.mem.noted.filter (fun e => e.1 != k) } })))

/-- BEAT_MARK: a mark of a term that the module may not accept is discarded with EVT_BEAT_STALE_MARK and nothing else; so is one whose
count lies behind the module's own, whose sender it follows all the same; any other sets the term and the sender, and its count is
adopted at once in FREE, at the next opening otherwise where it lies ahead (R47, R51). -/
def Obligations.MarksAreAcceptedByTerm : Prop :=
  ∀ (link : Nat) (p : Bytes) (s : State), firmwareRuns s = true → linkIsUp s link = true →
    (link = setting s 0x110C 0 ∨ link = setting s 0x110C 1) → field p 26 1 ≤ 13 → p.length = 32 + 16 * field p 26 1 →
    let count := field p 0 8
    let device := field p 8 2
    let term := field p 28 4
    let mine := s.beat.state = 0 ∨ s.beat.term < term ∨
      (term = s.beat.term ∧ (s.beat.sender = some device ∨ (s.beat.state = 3 ∧ device < deviceNumber s)))
    (¬ mine → exec (.beatMark link p) s = .next (event evtBeatStaleMark nowhere (le 2 device ++ le 4 term) s)) ∧
    (mine → s.beat.state ≠ 0 → count < s.beat.count → ∃ t, exec (.beatMark link p) s = .next t ∧
      t.beat.count = s.beat.count ∧ t.beat.adopt = s.beat.adopt ∧ t.beat.term = term ∧ t.beat.sender = some device ∧
      t.beat.marks = (if s.beat.state = 3 then 0 else s.beat.marks) ∧ t.led.events = (s.led.events + 1) % 2 ^ 64 ∧
      SameBut [.beat, .led, .ctr] s t) ∧
    (mine → (s.beat.state = 0 ∨ s.beat.count ≤ count) → ∃ t, exec (.beatMark link p) s = .next t ∧
      t.beat.term = term ∧ t.beat.sender = some device ∧ t.beat.heard = true ∧ t.beat.silentBoth = 0 ∧
      t.beat.marks = (if s.beat.state = 0 ∨ s.beat.state = 3 then 1 else min 16 (s.beat.marks + 1)) ∧
      t.beat.count = (if s.beat.state = 0 then count else s.beat.count) ∧
      t.beat.adopt = (if s.beat.state ≠ 0 ∧ s.beat.count < count then some count else s.beat.adopt) ∧
      t.beat.state = (if s.beat.state = 2 ∨ (s.beat.state = 1 ∧ 15 ≤ s.beat.marks) then 2
        else if s.beat.state = 1 ∨ s.beat.state = 0 ∨ s.beat.state = 3 then 1 else s.beat.state) ∧
      SameBut (touches (.beatMark link p)) s t)

/-- The timeouts of the mark tree: the module named by 1104.00 takes MASTER with term 1 after 32 beats without a mark (R47); after 8 beats
without one the module turns to its other upstream link; after 32 beats on neither link it falls to LOCKING, and the deputy takes MASTER
with a term one higher; with no master the event comes again every 1,024 beats (R50). A latency measurement sends a probe on a link that is
up, a probe is answered, and an answer gives half its round trip (R49). Reports and requests go up the mark tree: the master keeps notices
for its marks, any other module hands them on (R61); the master takes the addition asked, and the announced addition is in force from its
beat on (R64). -/
def Obligations.MarksTimeOutAndLinksAreMeasured : Prop :=
  ((∀ s : State, firmwareRuns s = true → s.beat.state = 0 → 32 ≤ s.beat.sinceReset → deviceNumber s = setting s 0x1104 0 →
    exec .initialMarkTimeout s = .next { s with beat := { s.beat with
      state := 3, term := 1, sender := some (deviceNumber s), heard := true, adopt := none, silent := 0, silentBoth := 0
      switched := false, masterless := 0, correction := 0, notices := s.beat.notices ++ s.beat.upNotices, upNotices := []
      upRequest := none } }) ∧
  (∀ s : State, firmwareRuns s = true → s.beat.state ≠ 3 → 8 ≤ s.beat.silent → s.beat.switched = false →
    exec .markUpstreamTimeout s = .next (event evtBeatUpstream nowhere []
      { s with beat := { s.beat with alternate := !s.beat.alternate, silent := 0, switched := true } })) ∧
  (∀ s : State, firmwareRuns s = true → (s.beat.state = 1 ∨ s.beat.state = 2) → 32 ≤ s.beat.silentBoth → s.beat.heard = true →
    ∃ t, exec .markMasterTimeout s = .next t ∧ t.led.events = (s.led.events + 1) % 2 ^ 64 ∧ t.beat.count = s.beat.count ∧
      (deviceNumber s = setting s 0x1105 0 →
        t.beat.state = 3 ∧ t.beat.term = (s.beat.term + 1) % 2 ^ 32 ∧ t.beat.sender = some (deviceNumber s)) ∧
      (deviceNumber s ≠ setting s 0x1105 0 →
        t.beat.state = 1 ∧ t.beat.marks = 0 ∧ t.beat.heard = false ∧ t.beat.term = s.beat.term) ∧
      SameBut [.beat, .led, .ctr] s t) ∧
  (∀ s : State, firmwareRuns s = true → s.beat.state = 1 → s.beat.heard = false → 1024 ≤ s.beat.masterless →
    exec .beatMasterRepeat s = .next (event evtBeatMaster nowhere [] { s with beat := { s.beat with masterless := 0 } }))) ∧
  ((∀ (l : Nat) (s : State), firmwareRuns s = true → linkIsUp s l = true → ∃ t, exec (.latencyMeasure l) s = .next t ∧
    t.beat = { s.beat with probes := kput s.beat.probes l s.clock } ∧ t.out = s.out ++ [.control l 2 (le 8 s.clock)] ∧
    SameBut [.out, .beat, .net] s t) ∧
  (∀ (l : Nat) (s : State), firmwareRuns s = true → linkIsUp s l = true → ∃ t, exec (.latencyProbe l) s = .next t ∧
    t.out = s.out ++ [.control l 3 []] ∧ SameBut [.out, .net] s t) ∧
  (∀ (l sent : Nat) (s : State), firmwareRuns s = true → kget s.beat.probes l = some sent → exec (.latencyReply l) s = .next { s with beat := { s.beat with
    latency := kput s.beat.latency l ((s.clock - sent) / 2), probes := kdel s.beat.probes l } })) ∧
  ((∀ (l : Nat) (ns : List VoidNotice) (q : Option Nat) (s : State), firmwareRuns s = true → linkIsUp s l = true →
    ∃ t, exec (.upReport l ns q) s = .next t ∧
      (∀ a, q = some a → kget t.beat.asked l = some a) ∧ (q = none → t.beat.asked = s.beat.asked) ∧
      (s.beat.state = 3 → t.beat.notices = s.beat.notices ++ ns ∧ t.beat.upNotices = s.beat.upNotices) ∧
      (s.beat.state ≠ 3 → t.beat.upNotices = s.beat.upNotices ++ ns ∧ t.beat.notices = s.beat.notices ∧
        (∀ a, q = some a → ∃ m, t.beat.upRequest = some m ∧ a ≤ m ∧ s.beat.requested ≤ m)) ∧
      t.beat.count = s.beat.count ∧ t.beat.state = s.beat.state ∧ t.beat.governed = s.beat.governed ∧ SameBut [.beat] s t) ∧
  (∀ (add start : Nat) (s : State), firmwareRuns s = true →
    (s.beat.announced.filter (fun e => e.2 ≤ s.beat.count)).getLast? = some (add, start) →
    let b := { s.beat with governed := add, announced := (add, start) :: s.beat.announced.filter (fun e => s.beat.count < e.2) }
    (s.clock ≠ s.beat.opened → exec .governedAdditionApply s = .next { s with beat := b }) ∧
    (s.clock = s.beat.opened → ∃ t, exec .governedAdditionApply s = .next t ∧ t.beat = { b with length := t.beat.length } ∧
      (t.beat.length : Int) = max 0 ((s.beat.length : Int) + fabricPeriod { s with beat := b } - fabricPeriod s) ∧ SameBut [.beat, .slots] s t)))

/-! The beats of a route. -/

/-- The close window of a route's open beat: at its opening the due set is fixed (R56) and, before a set switch, admission stops (R42);
at the cutoff the beat is late where some tag of the due set is still not complete, or where an array on its spare has reported one already
(R57), and a saggar error of one of its streams is a fault (R56, R58). No other slot changes. -/
def Obligations.CloseWindowFixesAndReportsTheDueSet : Prop :=
  (∀ (k : Nat) (r : Route) (s : State), routeOf s k = some r → (slotOf s k).beat.phase = 1 → alive s = true →
    ∃ t, exec (.closeWindowOpen k) s = .next t ∧
      (slotOf t k).beat = { (slotOf s k).beat with
        phase := 2, due := dueSet s k r, late := false, marked := (slotOf t k).beat.marked } ∧
      (∀ j, j ≠ k → slotOf t j = slotOf s j) ∧ (switchAhead s k r = true → k ∈ t.fab.stopped) ∧ SameBut [.fab, .slots] s t) ∧
  (∀ (k : Nat) (r : Route) (s : State), routeOf s k = some r → (slotOf s k).beat.phase = 2 → alive s = true →
    ∃ t, exec (.reportCutoff k) s = .next t ∧
      (slotOf t k).beat.phase = 3 ∧
      ((slotOf t k).beat.late = true ↔ (slotOf s k).beat.late = true ∨ ∃ d ∈ (slotOf s k).beat.due, ∃ st, r.station d.1 = some st ∧ tagDone s k r st d.2 = false) ∧
      ((∃ n, (k, n) ∈ s.mem.saggarHits) → fltSaggar ∈ (slotOf t k).beat.faults) ∧
      (∀ n, (k, n) ∈ s.mem.saggarHits → (n, true) ∈ (slotOf t k).beat.stopping) ∧
      (∀ n, (k, n) ∉ t.mem.saggarHits) ∧ (∀ j, j ≠ k → slotOf t j = slotOf s j) ∧ SameBut [.slots, .mem, .serves] s t)

/-- The verdict. A late beat of a route under STRETCH grows by one increment of 64 cycles (R59, R60); a late beat under VOID ends, its step
is void, and the next attempt of the same step is awaited (R61, R232); a clean last beat commits the step: 2305 receives its number, the
step number rises by 1, the attempt falls to 0 (R231); a clean beat before the last ends and nothing but the slot's phase and the mark of
phase U changes. REPLAY_START: at the replay's beat the next attempt of a void step runs, from step offset 0 and without lag (R232, R60).
-/
def Obligations.VerdictsVoidCommitAndReplay : Prop :=
  (∀ (k : Nat) (r : Route) (s : State), routeOf s k = some r → (slotOf s k).beat.phase = 3 → alive s = true → r.training = true →
    (slotOf s k).train.state = 1 → (slotOf s k).beat.faults = [] → k ∉ s.fab.stopped → (slotOf s k).beat.stopping = [] →
    (secureOf s k).checking = none → (slotOf s k).train.voided = none →
    (slotOf s k).train.lossPending = false → (slotOf s k).train.normPending = false →
    ((slotOf s k).beat.late = true → r.plan.policy = 0 → (slotOf s k).beat.increments < r.plan.stretchLimit →
      (r.fabric = true ∨ shared s r = true → (slotOf s k).beat.lag + 64 ≤ r.plan.lagLimit) →
      ∃ t, exec (.verdictApply k) s = .next t ∧
        (slotOf t k).beat = { (slotOf s k).beat with
          phase := 1, increments := (slotOf s k).beat.increments + 1, length := (slotOf s k).beat.length + 64
          lag := (slotOf s k).beat.lag + (if r.fabric || shared s r then 64 else 0) } ∧
        (slotOf t k).train = (slotOf s k).train ∧ t.led.events = (s.led.events + 1) % 2 ^ 64 ∧
        (∀ j, j ≠ k → slotOf t j = slotOf s j) ∧ SameBut [.led, .ctr, .slots] s t) ∧
    ((slotOf s k).beat.late = true → r.plan.policy ≠ 0 → phaseOf s k r ≠ 3 →
      (slotOf s k).train.attempt + 1 < routeSetting s k 0x2302 →
      ∃ t, exec (.verdictApply k) s = .next t ∧
        (slotOf t k).beat.phase = 4 ∧ (slotOf t k).train.state = 2 ∧ (slotOf t k).train.step = (slotOf s k).train.step ∧
        (slotOf t k).train.attempt = (slotOf s k).train.attempt + 1 ∧
        (r.plan.isLocal = true →
          (slotOf t k).train.replayBeat = some ((slotOf s k).beat.count + routeSetting s k 0x3301)) ∧
        (r.fabric = true → (slotOf t k).train.replayBeat = none) ∧
        (∀ j, j ≠ k → slotOf t j = slotOf s j) ∧ SameBut (touches (.verdictApply k)) s t) ∧
    ((slotOf s k).beat.late = false → (slotOf s k).beat.offset + 1 = r.plan.stepLength →
      ∃ t, exec (.verdictApply k) s = .next t ∧
        (slotOf t k).beat.phase = 4 ∧ (slotOf t k).train.lastCommitted = (slotOf s k).train.step ∧
        (slotOf t k).train.step = ((slotOf s k).train.step + 1) % 2 ^ 48 ∧ (slotOf t k).train.attempt = 0 ∧
        (slotOf t k).train.committed = (slotOf s k).train.committed + 1 ∧ t.led.steps = (s.led.steps + 2) % 2 ^ 64 ∧
        (∀ j, j ≠ k → slotOf t j = slotOf s j) ∧ SameBut (touches (.verdictApply k)) s t) ∧
    ((slotOf s k).beat.late = false → (slotOf s k).beat.offset + 1 ≠ r.plan.stepLength →
      ∃ t, exec (.verdictApply k) s = .next t ∧
        (slotOf t k).beat = { (slotOf s k).beat with phase := 4 } ∧
        (slotOf t k).train = { (slotOf s k).train with uPhase := (slotOf t k).train.uPhase } ∧
        (∀ j, j ≠ k → slotOf t j = slotOf s j) ∧ SameBut [.slots] s t)) ∧
  (∀ (k v : Nat) (r : Route) (s : State), routeOf s k = some r → (slotOf s k).train.replayBeat = some v → (slotOf s k).train.state = 2 →
    v ≤ routeCount s k r → (slotOf s k).beat.phase = 1 → s.clock = (slotOf s k).beat.opened → alive s = true →
    ∃ u, exec (.replayStart k) s = .next (openTraining k r u) ∧
      (slotOf u k).train = { (slotOf s k).train with state := 1 } ∧
      (slotOf u k).beat = { (slotOf s k).beat with offset := 0, lag := 0 } ∧
      (∀ j, j ≠ k → slotOf u j = slotOf s j) ∧ SameBut [.slots, .out, .host] s u)

/-- An event writes one record of 32 bytes at the place after the last, the oldest being overwritten once 65,536 stand, and counts it; a
counter rises by what it counts and stops at 2^64 − 1, and no other counter changes. COUNTER_CAPTURE: in a beat whose count is a multiple
of 3C01.00 every counter is copied at once and 2C01.00 takes the count (R447); the write of 2C02.00 by client 0 waits for that capture,
which then leaves every counter and every captured value at 0 (R449). The causes gathered in the beat are signalled once. -/
def Obligations.EventsAreRecordedAndCountersCaptured : Prop :=
  ((∀ (code : Nat) (p : At) (detail : Bytes) (s : State), detail.length ≤ 12 →
    (event code p detail s).led.events = (s.led.events + 1) % 2 ^ 64 ∧
    kget (event code p detail s).led.event (s.led.events % 65536) =
      some (le 8 s.beat.count ++ le 6 (stepOf s p.slot) ++ le 2 code ++ le 1 p.slot ++ le 1 p.client ++ le 2 p.inst ++
        (detail ++ zeroBytes (12 - detail.length))) ∧
    (∀ k, k ≠ s.led.events % 65536 → kget (event code p detail s).led.event k = kget s.led.event k) ∧
    SameBut [.led, .ctr] s (event code p detail s)) ∧
  (∀ (index inst n : Nat) (s : State),
    kgetD 0 (count index inst n s).ctr.live (index * 256 + inst) = min (kgetD 0 s.ctr.live (index * 256 + inst) + n) (2 ^ 64 - 1) ∧
    (∀ k, k ≠ index * 256 + inst → kgetD 0 (count index inst n s).ctr.live k = kgetD 0 s.ctr.live k) ∧
    SameBut [.ctr] s (count index inst n s))) ∧
  ((∀ s : State, firmwareRuns s = true → s.beat.count % max 1 (setting s 0x3C01 0) = 0 → ∃ t, exec .counterCapture s = .next t ∧
    t.ctr.captureBeat = s.beat.count ∧ t.ctr.causes = [] ∧ t.ctr.clearPending = false ∧
    (s.ctr.clearPending = false → t.ctr.captured = t.ctr.live ∧ t.ctr.stationCaptured = s.ctr.station ∧ t.ctr.station = s.ctr.station ∧
      ∀ key, key ≠ 0x5012 * 256 → kgetD 0 t.ctr.captured key = kgetD 0 s.ctr.live key) ∧
    (s.ctr.clearPending = true → (∀ key, kgetD 0 t.ctr.captured key = 0 ∧ kgetD 0 t.ctr.live key = 0 ∧
      kgetD 0 t.ctr.station key = 0 ∧ kgetD 0 t.ctr.stationCaptured key = 0)) ∧
    SameBut [.ctr, .out, .host] s t) ∧
  (∀ s : State, firmwareRuns s = true → s.beat.count % max 1 (setting s 0x3C01 0) ≠ 0 → ∃ t, exec .counterCapture s = .next t ∧
    t.ctr.captured = s.ctr.captured ∧ t.ctr.stationCaptured = s.ctr.stationCaptured ∧ t.ctr.captureBeat = s.ctr.captureBeat ∧
    t.ctr.clearPending = s.ctr.clearPending ∧ t.ctr.causes = [] ∧ SameBut [.ctr, .out, .host] s t))

/-! The object dictionary, its sessions and its staging set. -/

/-- OBJECT_READ and the domain segments of a read return the present value, or with the staged-read flag the value staged of an RWE
object; OBJECT_WRITE of an RW or open RWF object changes the value that reads return from now on and leaves the one in use until the
next fabric beat (R74, R75); an RWE value is staged (R76); a segment that continues a domain write waits for the last one (R91); an entry
that is refused leaves nothing but its record and its status (R94, R96). -/
def Obligations.EntriesReadWriteOrStage : Prop :=
  (∀ (who : Who) (index sub length : Nat) (flag : Bool) (s : State), Passes who ⟨1, index, sub, 0, length, [], flag⟩ s →
    index ≠ 0x1281 → index ≠ 0x1411 →
    let v := (if flag = true ∧ (rowOf index sub).access = .rwe then stagedValue s index sub else none).getD (objValue s who index sub)
    v.length ≤ 1024 → exec (.objectRead who index sub length flag) s = .next { s with resp := ⟨stOk, v⟩ }) ∧
  (∀ (who : Who) (index sub offset length : Nat) (flag : Bool) (s : State), Passes who ⟨3, index, sub, offset, length, [], flag⟩ s →
    let d := ((if flag = true ∧ (rowOf index sub).access = .rwe then stagedValue s index sub else none).map Domain.of).getD
      (domainOf s who.client index sub)
    offset ≤ d.length → (d.bytes offset (min length (d.length - offset))).length ≤ 1024 →
    exec (.domainReadSegment who index sub offset length flag) s =
      .next { s with resp := ⟨stOk, d.bytes offset (min length (d.length - offset))⟩ }) ∧
  (∀ (who : Who) (index sub : Nat) (b : Bytes) (s : State), Passes who (writeOf index sub b) s → index ≠ 0x1410 → index ≠ 0x1420 →
    ((rowOf index sub).access = .rw ∨ (rowOf index sub).access = .rwf) → chapterStatus s index sub b = stOk →
    ∃ t, exec (.objectWrite who index sub b) s = .next (answered who (writeOf index sub b) s t) ∧
      kget t.dict.objs (objKey index sub) = some b ∧ t.dict.inUse = s.dict.inUse ∧
      (∀ k, k ≠ objKey index sub → kget t.dict.objs k = kget s.dict.objs k) ∧
      ((rowOf index sub).persist = true → kget t.dict.store (objKey index sub) = some b) ∧
      (∀ k, k ≠ objKey index sub ∨ (rowOf index sub).persist = false → kget t.dict.store k = kget s.dict.store k) ∧
      ((rowOf index sub).persist = false → t.flash = s.flash) ∧ SameBut [.dict, .flash] s t) ∧
  (∀ (who : Who) (index sub : Nat) (b : Bytes) (s : State), Passes who (writeOf index sub b) s → (rowOf index sub).access = .rwe →
    index ≠ 0x1410 → index ≠ 0x1420 → chapterStatus s index sub b = stOk → s.dict.staging.state = 1 →
    ((kget s.dict.staging.values (objKey index sub)).isSome = true ∨ s.dict.staging.values.length < 1024) →
    (rowOf index sub).ty ≠ .domain →
    exec (.objectWrite who index sub b) s = .next (answered who (writeOf index sub b) s
      { s with dict := { s.dict with staging := { s.dict.staging with values := kput s.dict.staging.values (objKey index sub) b } } })) ∧
  (∀ (who : Who) (index sub offset : Nat) (b v : Bytes) (s : State), let a : Ask := ⟨4, index, sub, offset, b.length, b, false⟩
    Passes who a s → assembled s who a = some v → v.length ≤ domainLimit (rowOf index sub) → index ≠ 0x1220 →
    ((rowOf index sub).access = .rwe → s.dict.staging.state = 1) →
    let others := s.dict.partials.filter (fun p => !(p.who == who && p.key == objKey index sub))
    exec (.domainWriteSegment who index sub offset b) s = .next (answered who a s
      { s with dict := { s.dict with partials := others ++ [⟨who, objKey index sub, v⟩] } })) ∧
  (∀ (who : Who) (index sub offset : Nat) (b v : Bytes) (s : State), let a : Ask := ⟨5, index, sub, offset, b.length, b, false⟩
    reaches s who = true → entryStatus s who a = stOk → notServed s index = false → assembled s who a = some v →
    valueLegal (rowOf index sub) v = true → v.length ≤ domainLimit (rowOf index sub) → lengthLegal (rowOf index sub) v = true →
    (rowOf index sub).access = .rw → index ≠ 0x1410 → index ≠ 0x1420 → index ≠ 0x1220 → chapterStatus (begun who a s) index sub v = stOk →
    ∃ t, exec (.domainWriteLastSegment who index sub offset b) s = .next (answered who a s t) ∧
      kget t.dict.objs (objKey index sub) = some v ∧
      t.dict.partials = s.dict.partials.filter (fun p => !(p.who == who && p.key == objKey index sub))) ∧
  (∀ (who : Who) (index sub : Nat) (b : Bytes) (s : State), reaches s who = true → entryStatus s who (writeOf index sub b) ≠ stOk →
    exec (.objectWrite who index sub b) s = .next
      { commandRecord (entryRecord s who (writeOf index sub b) (entryStatus s who (writeOf index sub b))) s with
        resp := ⟨entryStatus s who (writeOf index sub b), []⟩ })

/-- A session opens in two frames: the challenge carries a fresh nonce for a named client whose key is enrolled, the proof is the key's
signature over nonce, client and transport, and the accept carries the new session, its key encrypted to the requester; at most 16 are
open. A close and an idle time of 1288.00 seconds end it, and with it its expert unlock (R79, R88). Expert level: a read of 1281.00 issues
a challenge of 32 bytes that lives ten seconds; a response signed by the client's own enrolled key over challenge and client unlocks the
requester, and serves once; a write of 1284.00 locks it again (R78, R79). -/
def Obligations.SessionsAndExpertLevelAreUnlockedByProof : Prop :=
  ((∀ (conn transport client : Nat) (key : Bytes) (s : State), firmwareRuns s = true → (transport = 1 ∨ transport = 2) →
    s.dict.sessions.length < 16 → sha256 key = stored s 0x1286 client → client < 64 → stored s 0x2A01 client = [1] →
    ∃ nonce t, exec (.sessionOpen conn transport client key) s = .next t ∧ nonce.length = 32 ∧
      t.dict = { s.dict with openings := s.dict.openings.filter (fun o => o.conn != conn) ++ [⟨conn, transport, client, key, nonce⟩] } ∧
      t.out = s.out ++ [.frame conn (frameHeader 3 0 0 0 32 client ++ nonce)] ∧ SameBut [.dict, .out, .resp, .fresh] s t) ∧
  (∀ (conn : Nat) (signature : Bytes) (o : Opening) (s : State), firmwareRuns s = true →
    s.dict.openings.find? (fun o => o.conn == conn) = some o → s.dict.sessions.length < 16 →
    pssVerify o.owner (o.nonce ++ le 1 o.client ++ le 1 o.transport) signature = true → stored s 0x2A01 o.client = [1] →
    ∃ x seed t, exec (.sessionProof conn signature) s = .next t ∧
      t.dict = { s.dict with openings := s.dict.openings.filter (fun x => x.conn != conn), sessions := s.dict.sessions ++ [x] } ∧
      x.conn = conn ∧ x.transport = o.transport ∧ x.client = o.client ∧ x.owner = o.owner ∧ x.key.length = 32 ∧ x.lastSeq = none ∧
      x.lastFrame = s.clock ∧
      t.out = s.out ++ [.frame conn (frameHeader 5 x.id 0 0 (le 4 x.id ++ oaepEncrypt o.owner x.key seed).length o.client ++
        (le 4 x.id ++ oaepEncrypt o.owner x.key seed))] ∧ SameBut [.dict, .out, .resp, .fresh] s t) ∧
  (∀ (id : Nat) (s : State), firmwareRuns s = true → ∃ t, exec (.sessionClose id) s = .next t ∧
    t.dict.sessions = s.dict.sessions.filter (fun x => x.id != id) ∧
    (∀ w, w ∈ t.dict.unlocked ↔ w ∈ s.dict.unlocked ∧ ¬((w.transport = 1 ∨ w.transport = 2) ∧ w.session = id)) ∧
    t.dict.objs = s.dict.objs ∧ SameBut [.dict] s t) ∧
  (∀ (x : Session) (s : State), firmwareRuns s = true → x ∈ s.dict.sessions → x.lastFrame + setting s 0x1288 0 * 1700000000 ≤ s.clock →
    ∃ t, exec (.sessionIdleTimeout x.id) s = .next t ∧ t.dict.sessions = s.dict.sessions.filter (fun y => y.id != x.id) ∧
    (∀ w, w ∈ t.dict.unlocked ↔ w ∈ s.dict.unlocked ∧ ¬((w.transport = 1 ∨ w.transport = 2) ∧ w.session = x.id)) ∧
    t.dict.objs = s.dict.objs ∧ SameBut [.dict] s t)) ∧
  ((∀ (who : Who) (s : State), Passes who (readOf 0x1281 0) s → ∃ c t, exec (.expertChallenge who) s = .next t ∧
    c.length = 32 ∧ t.resp = ⟨stOk, c⟩ ∧ t.dict = { s.dict with challenges := kput s.dict.challenges who.client (c, s.clock) } ∧
    SameBut [.dict, .resp, .fresh] s t) ∧
  (∀ (who : Who) (b c : Bytes) (issued : Nat) (s : State), Passes who (lastOf 0x1282 0 b) s →
    kget s.dict.challenges who.client = some (c, issued) → s.clock ≤ issued + 10 * 1700000000 →
    sha256 (b.take 388) = stored s 0x1286 who.client → stored s 0x1287 who.client = [1] →
    ((who.transport = 1 ∨ who.transport = 2) → ∃ x ∈ s.dict.sessions, x.id = who.session ∧ x.owner = b.take 388) →
    pssVerify (b.take 388) (c ++ le 1 who.client) (b.drop 388) = true → who ∉ s.dict.unlocked →
    exec (.expertUnlock who b) s = .next (answered who (lastOf 0x1282 0 b) s
      { begun who (lastOf 0x1282 0 b) s with dict := { (begun who (lastOf 0x1282 0 b) s).dict with
        challenges := kdel s.dict.challenges who.client, unlocked := s.dict.unlocked ++ [who] } })) ∧
  (∀ (who : Who) (b : Bytes) (s : State), Passes who (writeOf 0x1284 0 b) s →
    exec (.lockExpert who b) s = .next (answered who (writeOf 0x1284 0 b) s
      { s with dict := { s.dict with unlocked := s.dict.unlocked.filter (· != who) } })))

/-- The restoring of defaults: with a set open and no route slot in use, every RW object of the levels concerned and every RWF object
whose set is open takes its default, and the defaults of the RWE objects are staged; 1 leaves expert objects, 2 takes them too (R82).
The cache holds at least the default of 2503.00 (R283). -/
def Obligations.DefaultsAreRestoredAndStaged : Prop :=
  ∀ (who : Who) (both : Bool) (s : State), let v : Bytes := if both then [2] else [1]
    Passes who (writeOf 0x1285 0 v) s → s.dict.staging.state = 1 → (∀ k ∈ slotNumbers, (slotOf s k).state = 0) →
    leNat (dfltBytes (rowOf 0x2503 0) 0) ≤ cacheCapacity s →
    (((restorable both s).filter (fun e => e.1.access == .rwe)).foldl (fun m e => kput m (objKey e.1.index e.2) (dfltBytes e.1 e.2))
      s.dict.staging.values).length ≤ 1024 →
    ∃ t, exec (if both then .restoreDefaultsAll who else .restoreDefaultsBasic who) s =
        .next (answered who (writeOf 0x1285 0 v) s t) ∧
      (∀ e ∈ restorable both s, (e.1.access = .rw ∨ e.1.access = .rwf) → stored t e.1.index e.2 = dfltBytes e.1 e.2) ∧
      (∀ e ∈ restorable both s, e.1.access = .rwe → kget t.dict.staging.values (objKey e.1.index e.2) = some (dfltBytes e.1 e.2)) ∧
      (∀ e ∈ restorable both s, both = false → e.1.expert = false) ∧
      t.dict.staging.state = 1 ∧ t.dict.inUse = s.dict.inUse

/-- The staging set opens where there is none, closes on a commit beat at least 4,096 beats ahead with a digest that matches, and is
discarded while open or early enough (R402); a substitution and a return are staged in it (R115). The closed set comes into force at cycle
0 of its commit beat, or of the next beat once a module that was reset finds that beat past: every object has the value staged last for it,
stored and in use, and the set is gone (R403); a repair set moves its arrays to their spares at its own commit beat (R115, R116). -/
def Obligations.StagingSetsCloseAndComeIntoForce : Prop :=
  ((∀ (who : Who) (s : State), Passes who (writeOf 0x1501 0 [1]) s → s.dict.staging.state = 0 →
    exec (.stagingOpen who) s = .next (answered who (writeOf 0x1501 0 [1]) s { s with dict := { s.dict with staging := ⟨1, [], 0⟩ } })) ∧
  (∀ (who : Who) (s : State), Passes who (writeOf 0x1501 0 [2]) s → s.dict.staging.state = 1 →
    s.beat.count + 4096 ≤ leNat (stored s 0x1502 0) → stagedRefused s = false → configDigest (afterCommit s) = stored s 0x1503 0 →
    ∃ t, exec (.stagingClose who) s = .next (answered who (writeOf 0x1501 0 [2]) s t) ∧
      t.dict = { s.dict with staging := ⟨2, s.dict.staging.values, leNat (stored s 0x1502 0)⟩ } ∧ SameBut [.dict, .refresh, .serves, .flash] s t) ∧
  (∀ (who : Who) (s : State), Passes who (writeOf 0x1501 0 [3]) s →
    (s.dict.staging.state = 1 ∨ (s.dict.staging.state = 2 ∧ s.beat.count + 1024 ≤ s.dict.staging.commit)) →
    exec (.stagingDiscard who) s = .next (answered who (writeOf 0x1501 0 [3]) s { s with dict := { s.dict with staging := ⟨0, [], 0⟩ } })) ∧
  (∀ (who : Who) (a : Nat) (s : State), Passes who (writeOf 0x2004 a [1]) s → s.dict.staging.state = 1 →
    s.dict.staging.values.length < 1024 → siteFailed s (256 + clusterOf a) = false → spareTaken s a = false →
    exec (.stageSubstitution who a) s = .next (answered who (writeOf 0x2004 a [1]) s { s with dict := { s.dict with
      staging := { s.dict.staging with values := kput s.dict.staging.values (objKey 0x2004 a) [1] } } })) ∧
  (∀ (who : Who) (a : Nat) (s : State), Passes who (writeOf 0x2004 a [0]) s → s.dict.staging.state = 1 →
    s.dict.staging.values.length < 1024 → siteFailed s a = false →
    exec (.stageReturn who a) s = .next (answered who (writeOf 0x2004 a [0]) s { s with dict := { s.dict with
      staging := { s.dict.staging with values := kput s.dict.staging.values (objKey 0x2004 a) [0] } } }))) ∧
  ((∀ s : State, s.dict.staging.state = 2 → firmwareRuns s = true → s.clock = s.beat.opened →
    (s.beat.before < s.dict.staging.commit ∧ s.dict.staging.commit ≤ s.beat.count ∨
      s.sys.lateSet = true ∧ s.beat.state ≠ 0 ∧ s.dict.staging.commit < s.beat.count) → (∀ e ∈ s.dict.staging.values, e.1 / 256 ≠ 0x2984) →
    ∃ t, exec .epochCommit s = .next t ∧ t.dict.staging = ⟨0, [], 0⟩ ∧ t.dict.lastCommit = s.beat.count ∧ t.sys.lateSet = false ∧
      (∀ pre post key v, s.dict.staging.values = pre ++ (key, v) :: post → (∀ e ∈ post, e.1 ≠ key) →
        kget t.dict.objs key = some v ∧ kget t.dict.inUse key = some v) ∧
      (∀ key, (∀ e ∈ s.dict.staging.values, e.1 ≠ key) → kget t.dict.objs key = kget s.dict.objs key) ∧
      t.dict.digest = configDigest t.dict.objs ∧ SameBut (touches .epochCommit) s t) ∧
  (∀ (p : RepairSet) (rest : List RepairSet) (s : State), s.fab.repairs = p :: rest → s.clock = s.beat.opened →
    s.beat.before < p.commit → p.commit ≤ s.beat.count → ∃ t, exec .repairSetCommit s = .next t ∧ t.fab.repairs = rest ∧
      (∀ a ∈ p.arrays, siteFailed s (256 + clusterOf a) = false → onSpare t a = true) ∧
      (∀ a, a ∉ p.arrays → onSpare t a = onSpare s a) ∧ SameBut (touches .repairSetCommit) s t))

/-! The fabric of the die. -/

/-- The items that an output adds to the lane buffer with key `k`, and to what the port with key `k` has delivered. -/
def intoBuffer (item : Bytes) (k : Nat) (x : Target) : List Bytes :=
  match x with
  | .buffer j => if j = k then [item] else []
  | .port _ => []
def intoPort (item : Bytes) (k : Nat) (x : Target) : List Bytes :=
  match x with
  | .port j => if j = k then [item] else []
  | .buffer _ => []

/-- SLOT_FORWARD: an output reads the entry at the slot index of its cycle, counted from cycle 0 of the route's beat and again from the close
window on (R102); an idle entry forwards nothing; an item that the entry names leaves its lane for every output that names the lane at that
index, and stands at each receiving input, once all of them have a free buffer entry; else the slot passes empty (R103, R104). A tile that is
whole at the ring port of its link leaves for its peer (R140). An entry whose error is corrected is counted and serves; one with an error that
cannot be corrected forwards nothing from then on, and its route takes FLT_SAGGAR with the streams that the entry serves stopping (R107). The
control tables are not read while the report takes their lanes (R105). -/
def Obligations.SlotTablesForwardItems : Prop :=
  (∀ (array net port : Nat) (corrected lost : Bool) (s : State), (∀ e ∈ residents s, entryAt s e.1 e.2 array net port (slotIndex s e.1) % 16 = 0 ∨
      (slotOf s e.1).beat.phase = 0 ∨ (net = 2 ∧ controlClosed s e.1 = true)) →
      (corrected = true → lost = true) →
    exec (.slotForward array net port corrected lost) s = .next s) ∧
  (∀ (array net port slot n : Nat) (r : Route) (s : State), slotRead s array net port = some (slot, r, n) → alive s = true →
    let lane := n / 16
    let ps := (portsOf net).filter (fun p => entryAt s slot r array net p (slotIndex s slot) == n)
    let ts := ps.map (fun p => targetOf slot array net p lane)
    let inside := ∀ p ∈ ps, localOutput net p = true ∨ (neighbour array (direction net p)).isSome = true
    (inputItem s slot r array net (n % 16) lane = none →
      exec (.slotForward array net port false false) s = .next (count 0x5201 array 1 s)) ∧
    (∀ x, inputItem s slot r array net (n % 16) lane = some x → (∃ y ∈ ts, hasRoom s y = false) →
      exec (.slotForward array net port false false) s = .next (count 0x5200 array 1 s)) ∧
    (∀ item, inputItem s slot r array net (n % 16) lane = some (none, item) → (∀ y ∈ ts, hasRoom s y = true) →
      ∃ t, exec (.slotForward array net port false false) s = .next t ∧
        (∀ k, laneItems t k = (if k = laneKey array net (n % 16) lane then (laneItems s k).drop 1 else laneItems s k) ++
          ts.flatMap (intoBuffer item k)) ∧
        (inside → (∀ k, deliveredItems t k = deliveredItems s k ++ ts.flatMap (intoPort item k)) ∧ t.net = s.net) ∧
        SameBut [.fab, .net] s t) ∧
    (∀ m item, inputItem s slot r array net (n % 16) lane = some (some m, item) → (∀ y ∈ ts, hasRoom s y = true) →
      ∃ t, exec (.slotForward array net port false false) s = .next t ∧
        (∀ k, laneItems t k = laneItems s k ++ ts.flatMap (intoBuffer item k)) ∧
        (inside → (∀ k, deliveredItems t k = deliveredItems s k ++ ts.flatMap (intoPort item k)) ∧ t.net = s.net) ∧
        t.slots = (takeInput slot array net (n % 16) lane (some m) s).slots ∧ SameBut [.fab, .slots, .net] s t) ∧
    (∀ p m item o x, ps = [p] → localOutput net p = false → neighbour array (direction net p) = none →
      inputItem s slot r array net (n % 16) lane = some (m, item) →
      ownerAt r array (direction net p) lane = some o → o.peer.isSome = true →
      let u := place item (targetOf slot array net p lane) (takeInput slot array net (n % 16) lane m s)
      arrivedTile u slot r o = some x →
      exec (.slotForward array net port false false) s = .next (queueFlits (o.links.headD 0) (o.channel.getD 0)
        (cutFlits (o.channel.getD 0) (o.peer.getD 0) slot (setOf' s slot) (x.header ++ x.payload)) (takeTile slot r o x u)))) ∧
  (∀ (array net port slot n : Nat) (r : Route) (s : State), slotRead s array net port = some (slot, r, n) → alive s = true →
    exec (.slotForward array net port true false) s = exec (.slotForward array net port false false) (count 0x5202 array 1 s) ∧
    (∀ corrected, ∃ t, exec (.slotForward array net port corrected true) s = .next t ∧ fltSaggar ∈ (slotOf t slot).beat.faults ∧
      (∀ o ∈ laneOwners r (setOf' s slot) array net (n % 16) (n / 16), (o.number, true) ∈ (slotOf t slot).beat.stopping) ∧
      entryAt t slot r array net port (slotIndex s slot) = 0 ∧
      (∀ k q a m p i, (k, a, m, p, i) ≠ (slot, array, net, port, slotIndex s slot) → entryAt t k q a m p i = entryAt s k q a m p i) ∧
      SameBut [.fab, .slots] s t))

/-- Faults of the fabric: a site that fails is listed, its array becomes FAILED with EVT_ARRAY_FAULT, and the substitution of an array is
staged in a repair set where its spare is free (R113, R115); a fault in a switch is kept and reported (R117); 3004.n fails the site of
array n at once (R118). Self-tests: a gated beat takes one slice, 32 of them are a full pass, and a fault fails the site (R113, R114); the
command 3002.n runs a test of an array without stations, whose end is a pass (R118). -/
def Obligations.SitesAreTestedFailedAndReplaced : Prop :=
  ((∀ (site : Nat) (s : State), alive s = true → site < 272 → siteFailed s site = false →
    ∃ t, exec (.arraySiteFail site) s = .next t ∧ t.fab.failedSites = s.fab.failedSites ++ [site] ∧
      t.led.events = (s.led.events + 1) % 2 ^ 64 ∧
      (∀ a, arrayAt s site = some a → arrayFailed t a = true ∧ (∀ b, b ≠ a → kgetD 0 t.fab.states b = kgetD 0 s.fab.states b) ∧
        (kgetD 0 s.fab.selftest a = 1 → kgetD 0 t.fab.selftest a = 3)) ∧
      (arrayAt s site = none → t.fab.states = s.fab.states ∧ t.fab.repairs = s.fab.repairs) ∧
      (∀ a, arrayAt s site = some a → site < 256 → flagSet s 0x3005 0 = true → spareTaken s a = false →
        siteFailed s (256 + clusterOf a) = false → (∃ p ∈ t.fab.repairs, a ∈ p.arrays) ∧
        (s.fab.repairs = [] → t.fab.repairs = [⟨s.beat.count + 64, [a]⟩])) ∧
      SameBut [.led, .ctr, .fab] s t) ∧
  (∀ (a : Nat) (s : State), alive s = true → a ∉ s.fab.faultySwitches → exec (.switchFault a) s =
    .next (event evtSwitchFault (atInst a) [] { s with fab := { s.fab with faultySwitches := s.fab.faultySwitches ++ [a] } })) ∧
  (∀ (who : Who) (a : Nat) (s : State), Passes who (writeOf 0x3004 a [1]) s →
    exec (.markArrayFailed who a [1]) s = .next (answered who (writeOf 0x3004 a [1]) s (failSite (siteOf s a) s)))) ∧
  ((∀ (site : Nat) (s : State), alive s = true → setting s 0x3001 0 ≠ 0 → site < 272 → siteGated s site = true →
    let p := kgetD (0, 0) s.fab.slices site
    (s.beat.count < p.2 → ∀ fault : Bool, exec (.selftestSlice site fault) s = .next s) ∧
    (p.2 ≤ s.beat.count → ∃ t, exec (.selftestSlice site false) s = .next t ∧ SameBut [.fab] s t ∧
      kgetD (0, 0) t.fab.slices site = (if p.1 < 31 then p.1 + 1 else 0, s.beat.count + 1) ∧
      (∀ j, j ≠ site → kget t.fab.slices j = kget s.fab.slices j ∧ kget t.fab.lastPass j = kget s.fab.lastPass j) ∧
      t.fab.states = s.fab.states ∧ t.fab.failedSites = s.fab.failedSites ∧
      (p.1 < 31 → t.fab.lastPass = s.fab.lastPass ∧ t.fab.selftest = s.fab.selftest) ∧
      (31 ≤ p.1 → kgetD 0 t.fab.lastPass site = s.beat.count ∧
        (∀ a, arrayAt s site = some a → kgetD 0 s.fab.selftest a ≠ 1 → kgetD 0 t.fab.selftest a = 2)))) ∧
  (∀ (site : Nat) (s : State), alive s = true → setting s 0x3001 0 ≠ 0 → site < 272 → siteGated s site = true → siteFailed s site = false →
    (kgetD (0, 0) s.fab.slices site).2 ≤ s.beat.count →
    ∃ t, exec (.selftestSlice site true) s = .next t ∧ t.fab.failedSites = s.fab.failedSites ++ [site] ∧
      t.led.events = (s.led.events + 1) % 2 ^ 64 ∧ SameBut [.led, .ctr, .fab] s t) ∧
  (∀ (who : Who) (a : Nat) (s : State), Passes who (writeOf 0x3002 a [1]) s → kgetD 0 s.fab.selftest a ≠ 1 → slotsOn s a = [] →
    exec (.selftestNow who a [1]) s = .next (answered who (writeOf 0x3002 a [1]) s
      { s with fab := { s.fab with selftest := kput s.fab.selftest a 1 } })) ∧
  (∀ (a : Nat) (s : State), alive s = true → kgetD 0 s.fab.selftest a = 1 → exec (.selftestDone a) s = .next { s with fab := { s.fab with
    selftest := kput s.fab.selftest a 2, lastPass := kput s.fab.lastPass (siteOf s a) s.beat.count } }))

/-! Stations and firing. -/

/-- The firing rule lets an operation of a kind fire for a tag now: the route and the station may fire, 3040.00 chooses the pair, or for a
Kiln the order of arrival does, and `es` is what it would draw (R126, R127, R256). -/
structure MayFire (kind slot n op : Nat) (t : Word) (r : Route) (st : StationRec) (o : OpEntry) (es : List Entry) (s : State) : Prop where
  route : routeOf s slot = some r
  station : r.station n = some st
  entry : st.ops[op]? = some o
  kind : o.kind = kind
  may : stationMay s slot st = true
  chosen : chosen s slot r st = some (op, t)
  ready : readyNow s slot r st o t = some es

/-- The check of what a firing is to consume, before its first use (R307). -/
def firingCheck (slot n kind : Nat) (es : List Entry) (s : State) : State × Consume := consumeAll (entryLandings s slot n kind es) s

/-- The credits that a firing takes at once, by stream: for every tile that it will write, but those of a Glaze program, which takes them
as it sends (R127, R200). -/
def creditsTaken (s : State) (slot n : Nat) (t : Word) (r : Route) (st : StationRec) (o : OpEntry) : List (Nat × Nat) :=
  (if opReserves o.kind then opNeeds s slot r st o t else []).filterMap (fun e => (r.output n e.1).map (fun w => (w.number, e.2)))

/-- What a firing records beyond drawing `es`, which leaves `v`: its entries in flight, its tag as fired, its quota and the credits that it
takes; the route and the other stations are as they were. -/
structure Fired (slot n op : Nat) (t : Word) (es : List Entry) (taken : List (Nat × Nat)) (v u : State) : Prop where
  flight : ∃ item, (stationOf u slot n).flight = (stationOf v slot n).flight ++ [⟨op, t, es, item, [], false, taken⟩]
  fired : (stationOf u slot n).fired = (stationOf v slot n).fired ++ [(op, t)]
  quota : kgetD 0 (stationOf u slot n).quota op = kgetD 0 (stationOf v slot n).quota op + 1
  next : (stationOf u slot n).next = (op + 1) % 64
  queues : (stationOf u slot n).queues = (stationOf v slot n).queues
  credits : ∀ m, (streamOf u slot m).credits = (streamOf v slot m).credits - sumNat ((taken.filter (fun e => e.1 == m)).map (·.2))
  route : (slotOf u slot).route = (slotOf v slot).route
  others : ∀ m, m ≠ n → stationOf u slot m = stationOf v slot m
  slots : ∀ k, k ≠ slot → slotOf u k = slotOf v k

/-- A command that fires an operation of a kind, with the kind's effect: it fires where the rule chooses the pair and what it draws
passes its check; it waits while a page is read again, and its tag fails where the pages changed too often (R127, R307). -/
def Fires (c : Nat → Nat → Nat → Word → Instr) (kind : Nat)
    (effect : Nat → Nat → Nat → Word → Route → StationRec → OpEntry → List Entry → State → State) : Prop :=
  ∀ (slot n op : Nat) (t : Word) (r : Route) (st : StationRec) (o : OpEntry) (es : List Entry) (s : State),
    MayFire kind slot n op t r st o es s →
    let x := firingCheck slot n kind es s
    (∀ ds v, x.2 = .ok → drawAll slot r st kind t o.inputs x.1 = some (ds, v) →
      ∃ u, Fired slot n op t ds (creditsTaken s slot n t r st o) v u ∧ exec (c slot n op t) s = .next (effect slot n op t r st o ds u)) ∧
    (entryLandings s slot n kind es = [] → x = (s, .ok) ∧ ∃ v, drawAll slot r st kind t o.inputs s = some (es, v)) ∧
    (x.2 = .wait → exec (c slot n op t) s = .next x.1) ∧
    (x.2 = .fail → exec (c slot n op t) s = .next (modStation slot n (fun y => { y with fired := y.fired ++ [(op, t)] })
      (failTag slot n t x.1)))

/-- Firing (R127, R129): an MMO issues, a Glaze program starts, a move places its transfer, a stash put and get go to the Stash, a Kiln
updates, an exchange contributes. -/
def Obligations.OperationsFireByTheFiringRule : Prop :=
  Fires .mmoIssue 0 (fun slot _ op t r st o es => issueMmo slot op t r st o es) ∧
  Fires .glazeProgramStart 1 (fun slot n _ _ _ _ _ _ => startProgram slot n) ∧
  Fires .moveOperation 2 (fun slot n op t r st o _ u => match r.transfers[o.program]? with
    | some d => enqueueDesc (Station.array st.info) slot (.move n op t) { d with source := bankHandle u slot t d.source } none u
    | none => finishFlight slot n op t [] u) ∧
  Fires .stashPut 3 (fun slot n op t r st _ es => putStash slot n op t r st es) ∧
  Fires .kilnUpdate 5 (fun slot n op t _ st _ _ u => kilnWork st.info.place (checkTile slot n op t u))

/-- A firing of a forward passes its tiles on with the stream and the station in their headers renewed (R140), or sends the request of its
tag (R432); a scalar emit and a token emit send the scalar result that the Glaze program of the tag has left (R131, R132). A stash get
sends the stored tile on, one that overflowed widened to the format of its put (R215, R216); a put whose micro-batch lies on die stores its
tile as it is in the station's stash cargo, in the first range that it fits (R214). -/
def Obligations.ItemsLeaveAndStashedTilesComeBack : Prop :=
  (Fires .forward 7 (fun slot n op t r st o es u =>
    if st.info.kind = 5 ∧ es.isEmpty then finishFlight slot n op t (requestTiles u slot n r o t) u
    else finishFlight slot n op t (es.flatMap (fun e => passOn r n o e.header e.payload)) u) ∧
  Fires .scalarEmit 8 (fun slot n op t r st o _ u =>
    let v := (resultFor u slot st.info.number t).getD 0
    finishFlight slot n op t (eachOutput r n o (fun _ => ⟨le 4 v.toNat ++ le 4 t.toNat, []⟩)) u) ∧
  Fires .tokenEmit 9 (fun slot n op t r st o _ u =>
    let v := ((resultFor u slot st.info.number t).getD 0).toNat % 256
    finishFlight slot n op t (eachOutput r n o (fun w => ⟨le 4 t.toNat ++ le 4 (tokenWord w.queue v), []⟩)) u)) ∧
  (Fires .stashGet 4 (fun slot n op t r _ o es u => finishFlight slot n op t (es.flatMap (fun e =>
    passOn r n o e.header (match stashRecord r n (hdrStream e.header) with
      | some b => if stashOnDie b ≤ tagMicro e.tag then widenTile u slot b e.header e.payload else e.payload
      | none => e.payload))) u) ∧
  (∀ (slot n op i base : Nat) (t : Word) (r : Route) (st : StationRec) (e : Entry) (b : Bytes) (area : Nat × Nat) (s : State),
    stashRecord r n (hdrStream e.header) = some b → tagMicro e.tag < stashOnDie b →
    stashArea s r n b (tagMicro e.tag) = some (i, area) →
    fitTile area e.payload.length (stashUsed s slot n (stashStream b) (tagMicro e.tag)) = some base →
    (kgetD Cargo.free s.mem.cargoes i).state = 1 → base + e.payload.length ≤ (kgetD Cargo.free s.mem.cargoes i).pageCount * pageBytes →
    let u := putStash slot n op t r st [e] s
    (slotOf u slot).train.stash = (slotOf s slot).train.stash ++
      [⟨n, stashStream b, e.tag, e.header, i, base, e.payload.length, false, none, false, hdrUses e.header⟩] ∧
    u.mem.home = (writeData i base e.payload s).mem.home))

/-- Exchange contributions stage the elements of their tiles (R349, R353). -/
def Obligations.ContributionsAreStaged : Prop :=
  Fires .exchangeContribute 6
    (fun slot n op t r _ o es u => match r.collectives[o.program]? with
      | some x => finishFlight slot n op t [] (es.foldl (fun v e => contribute slot o.program r x e v) u)
      | none => u) ∧
  (∀ (slot k e : Nat) (x : CollRec) (v : Word) (s : State), e < x.elements →
    kgetD 0 (collOf s slot).decided (pieceKey k (x.pieceOf e).1 (x.pieceOf e).2) = 0 →
    kget (collOf (stageElement slot k x e v s) slot).staged (elementKey k e) = some v)

/-- TILE_ARRIVE: the local port at the end of a stream's path pairs the header and the payload whose turn it is (R121), and the tile enters
the queue that its stream names, in a free part of the queue's region (R138); one whose header fails its check stops the stream and faults
the route (R122); one of another step or attempt is discarded and its credit goes back (R124), as does one of a request that is retired
(R436); a scalar item joins its queue of 32 (R131); a tile that finds its join buffer full is spilled (R137), and one that finds no room stays
in its lane. JOIN_REFILL brings the oldest spilled tile back, or one that an operation calls for (R137), and a control word returns credits,
never beyond the depth of the queue, which tiles that wait for them take (R128). -/
def Obligations.TilesArriveAndCreditsReturn : Prop :=
  (∀ (slot : Nat) (place : LocalLane) (damage : Bytes) (x : Tile) (r : Route) (o : StreamRow) (st : StationRec) (q : QueueRec) (s : State),
    routeOf s slot = some r → ownerAt r place.array place.port place.lane = some o → o.peer = none → (∀ w ∈ r.units, o.number ∉ w.inputs) →
    o.number ∉ lossStreams r → r.emitted o 8 = false → arrivedTile s slot r o = some x → r.station o.dest = some st →
    st.queue o.queue = some q → (streamOf s slot o.number).stopped = false →
    let c : Instr := .tileArrive slot place damage
    let h := spoil damage x.header
    let s' := takeTile slot r o x s
    let es := kgetD [] (stationOf s slot o.dest).queues o.queue
    let ok := hdrOk h = true ∧ x.payload.length ≤ q.part
    let now := st.info.kind = 4 ∨ (hdrStep h = (slotOf s slot).train.step % 65536 ∧ hdrAttempt h = (slotOf s slot).train.attempt % 16)
    let direct := q.kind = 1 → (es.filter (fun e => !e.spilled && e.address != partAddress q (q.depth - 1))).length < q.depth - 1 ∧
      (∀ e ∈ es, e.spilled = false)
    let part := freePart (stationOf s slot o.dest).flight q es (if q.kind = 1 then q.depth - 1 else q.depth)
    (¬ ok → ∃ t, exec c s = .next t ∧ fltSaggar ∈ (slotOf t slot).beat.faults ∧
      (o.number, false) ∈ (slotOf t slot).beat.stopping ∧ stationOf t slot o.dest = stationOf s slot o.dest ∧
      t.fab = s'.fab ∧ SameBut (touches c) s t) ∧
    (ok → ¬ now → exec c s = .next (returnCredit slot o.number (countAt slot o.dest (Station.array st.info) 13 1 s'))) ∧
    (ok → now → retiredTile s slot r (hdrTag h) = true →
      exec c s = .next (returnCredit slot o.number (lateDiscard slot o.dest r (hdrTag h) s'))) ∧
    (ok → now → retiredTile s slot r (hdrTag h) = false → direct → ∀ k, part = some k →
      ∃ t, exec c s = .next t ∧
        kgetD [] (stationOf t slot o.dest).queues o.queue = es ++
          [⟨hdrTag h, h, partAddress q k, x.payload.length, if st.offArray then x.payload else [], hdrUses h, false, s.kilns.arrivals, none⟩] ∧
        (st.offArray = false → x.payload ≠ [] → (arrayOf t (Station.array st.info)).tbf =
          storeBytes (arrayOf s (Station.array st.info)).tbf (partAddress q k) x.payload) ∧
        t.fab = s'.fab ∧ SameBut (touches c) s t) ∧
    (ok → now → retiredTile s slot r (hdrTag h) = false → direct → part = none → exec c s = .next s) ∧
    (ok → now → retiredTile s slot r (hdrTag h) = false → ¬ direct →
      spillUsed es + roundUp x.payload.length 256 ≤ q.spill * pageBytes → (es.filter (·.spilled)).length < 4096 →
      ∃ base t, exec c s = .next t ∧
        kgetD [] (stationOf t slot o.dest).queues o.queue = es ++ [⟨hdrTag h, h, base, x.payload.length, [], hdrUses h, true, 0, none⟩] ∧
        t.fab = s'.fab ∧ SameBut (touches c) s t)) ∧
  (∀ (slot : Nat) (place : LocalLane) (damage w : Bytes) (rest : List Bytes) (r : Route) (o : StreamRow) (st : StationRec) (q : QueueRec) (s : State),
    routeOf s slot = some r → ownerAt r place.array place.port place.lane = some o → o.peer = none → (∀ w ∈ r.units, o.number ∉ w.inputs) →
    o.number ∉ lossStreams r → r.emitted o 8 = true → arrivedAt s slot r o 0 0 = w :: rest → r.station o.dest = some st →
    st.queue o.queue = some q → q.kind = 2 → (streamOf s slot o.number).stopped = false →
    let item := BitVec.ofNat 64 (leNat w)
    let items := kgetD [] (stationOf s slot o.dest).scalars o.queue
    retiredTile s slot r (itemTag item) = false →
    (items.length < 32 → exec (.tileArrive slot place damage) s = .next (takeBounds slot st (modStation slot o.dest (fun x => { x with
      scalars := kput x.scalars o.queue (items ++ [item]) }) (dropArrived slot r o 0 0 1 s)))) ∧
    (32 ≤ items.length → exec (.tileArrive slot place damage) s = .next s)) ∧
  (∀ (slot n j : Nat) (r : Route) (st : StationRec) (q : QueueRec) (k : Nat) (e : Entry) (s : State),
    routeOf s slot = some r → r.station n = some st → st.queue j = some q →
    let es := kgetD [] (stationOf s slot n).queues j
    es[k]? = some e →
    (∀ part, firstIndex (·.spilled) es = some k → freePart (stationOf s slot n).flight q es (q.depth - 1) = some part →
      ∃ t, exec (.joinRefill slot n j none) s = .next t ∧
        kgetD [] (stationOf t slot n).queues j = setNth es k (placeEntry st q part e.header (readSpill s r st q e) e.uses s).2 ∧
        SameBut (touches (.joinRefill slot n j none)) s t) ∧
    (firstIndex (fun x => x.spilled && x.tag == e.tag) es = some k → firstIndex (·.spilled) es ≠ some k →
      (stationOf s slot n).refill = none → calledFor s slot st j k = true →
      ∃ t, exec (.joinRefill slot n j (some e.tag)) s = .next t ∧ (stationOf t slot n).refill = some (j, e.tag) ∧
        kgetD [] (stationOf t slot n).queues j = setNth es k (placeEntry st q (q.depth - 1) e.header (readSpill s r st q e) e.uses s).2 ∧
        SameBut (touches (.joinRefill slot n j (some e.tag))) s t)) ∧
  (∀ (slot : Nat) (w : Word) (r : Route) (o : StreamRow) (s : State), routeOf s slot = some r →
    r.stream (bits w.toNat 27 16) = some o → (slot, w) ∈ s.fab.words →
    let x := streamOf s slot o.number
    let c := min (x.credits + bits w.toNat 15 0) (r.depthOf o)
    let go := if x.stopped then 0 else min c x.waiting.length
    ∃ t, exec (.queueCreditReturn slot w) s = .next t ∧ (streamOf t slot o.number).credits = c - go ∧
      (streamOf t slot o.number).staging = x.staging ++ (x.waiting.take go).map (fun y => ⟨y, 0, 0⟩) ∧
      t.fab.words = s.fab.words.erase (slot, w) ∧ SameBut [.fab, .slots] s t)

/-- Steering and merge units: a token pairs with the waiting tile of its tag, a tile with the waiting token of its tag; otherwise each
waits in its queue, of 32 tokens and of 8 tiles; the oldest paired tile whose output has credit leaves on it, and the credit of its input
goes back (R132-R135). -/
def Obligations.TokensPairWithTilesAtUnits : Prop :=
  (∀ (slot array lane unit choice : Nat) (a b : Bytes) (rest : List Bytes) (r : Route) (o : StreamRow) (u : UnitState) (s : State),
    routeOf s slot = some r →
    r.streams.find? (fun o => o.lane == lane && r.emitted o 9 && r.endOf o == (array, 4)) = some o →
    arrivedAt s slot r o 2 0 = a :: b :: rest →
    let w0 := BitVec.ofNat 32 (leNat a)
    let w1 := BitVec.ofNat 32 (leNat b)
    let c : Instr := .tokenArrive slot array lane
    let s' := dropArrived slot r o 2 0 2 s
    unit < 16 → bits w1.toNat 31 28 = (if unit < 8 then 1 else 2) → bits w1.toNat 27 24 = unit % 8 → bits w1.toNat 7 0 = choice →
    getUnit s array unit = some u → u.slot = slot → retiredTile s slot r w0 = false →
    let input := if unit < 8 then 0 else choice
    (faultyChoice unit choice = true →
      exec c s = .next (putUnit array unit { u with faulty := u.faulty ++ [w0] } s')) ∧
    (faultyChoice unit choice = false → ∀ k, firstIndex (fun t => hdrTag t.header == w0) (kgetD [] u.data input) = some k →
      exec c s = .next (pairUnit array unit input ⟨w0, choice⟩ ((kgetD [] u.data input).getD k ⟨[], []⟩)
        { u with data := kput u.data input ((kgetD [] u.data input).eraseIdx k) } s')) ∧
    (faultyChoice unit choice = false → firstIndex (fun t => hdrTag t.header == w0) (kgetD [] u.data input) = none →
      exec c s = .next (if u.tokens.length < 32 then putUnit array unit { u with tokens := u.tokens ++ [⟨w0, choice⟩] } s' else s))) ∧
  (∀ (array unit input n : Nat) (merge : Bool) (damage : Bytes) (x : Tile) (u : UnitState) (r : Route) (w : UnitRow) (o : StreamRow) (s : State),
    unit < 8 → (merge = true → input < 4) → (merge = false → input = 0) →
    let number := if merge then 8 + unit else unit
    let c : Instr := if merge then .mergeDataArrive u.slot array unit input damage else .steerDataArrive u.slot array unit damage
    getUnit s array number = some u → routeOf s u.slot = some r → unitRow r array number = some w → w.inputs[input]? = some n →
    r.stream n = some o → arrivedTile s u.slot r o = some x → (streamOf s u.slot o.number).stopped = false →
    let h := spoil damage x.header
    let s' := takeTile u.slot r o x s
    (hdrOk h = false → exec c s = .next (badHeader u.slot array w.station o.number s')) ∧
    (hdrOk h = true → hdrStep h = (slotOf s u.slot).train.step % 65536 → hdrAttempt h = (slotOf s u.slot).train.attempt % 16 →
      retiredTile s u.slot r (hdrTag h) = false →
      (∀ k, firstIndex (fun y => y.tag == hdrTag h && (number < 8 || y.choice == input)) u.tokens = some k →
        exec c s = .next (pairUnit array number input (u.tokens.getD k ⟨0, 0⟩) ⟨h, x.payload⟩ { u with tokens := u.tokens.eraseIdx k } s')) ∧
      (firstIndex (fun y => y.tag == hdrTag h && (number < 8 || y.choice == input)) u.tokens = none →
        exec c s = .next (if (kgetD [] u.data input).length < 8 then
          putUnit array number { u with data := kput u.data input (kgetD [] u.data input ++ [⟨h, x.payload⟩]) } s' else s)))) ∧
  (∀ (array unit input : Nat) (k : Token) (t : Tile) (u : UnitState) (s : State), ¬ (unit < 8 ∧ k.choice = 255) →
    pairUnit array unit input k t u s =
      putUnit array unit { u with paired := u.paired ++ [(if unit < 8 then k.choice else input, t)] } s) ∧
  (∀ (array unit choice i k : Nat) (t : Tile) (u : UnitState) (r : Route) (w : UnitRow) (o : StreamRow) (s : State),
    getUnit s array unit = some u → firstIndex (pairMay s u array unit) u.paired = some k → u.paired[k]? = some (choice, t) →
    pairOutput s u array unit (choice, t) = some (r, w, o) → w.inputs[if unit < 8 then 0 else choice]? = some i →
    exec (.steerOutput array unit) s = .next (returnCredit u.slot i (putUnit array unit { u with paired := u.paired.eraseIdx k }
      (putStaged u.slot o.number ⟨renumber t.header o.number w.station, t.payload⟩
        (modStream u.slot o.number (fun x => { x with credits := x.credits - 1 }) s)))))

/-- OPERATION_COMPLETE: the tiles of an operation whose unit has finished enter the staging buffers of their streams, its flight entry is
released, and it has completed its tag unless that has failed; one that has not finished stays (R129). An MMO into a gradient accumulator
counts as a contribution then (R222), GA_ADMIT adds a waiting tile in its turn (R223), and a loss item is summed in its order, the last
one giving the step loss (R229). -/
def Obligations.OperationsCompleteAndContribute : Prop :=
  (∀ (slot n op : Nat) (t : Word) (s : State),
    (∀ f ∈ (stationOf s slot n).flight, ¬ (f.op = op ∧ f.tag = t ∧ f.finished = true)) →
    exec (.operationComplete slot n op t) s = .next s) ∧
  (∀ (slot n op : Nat) (t : Word) (f : Flight) (s : State),
    (stationOf s slot n).flight.find? (fun f => f.op == op && f.tag == t && f.finished) = some f →
    (∀ r st o g, routeOf s slot = some r → r.station n = some st → st.ops[op]? = some o → gaFor r st.info.place (mmoDesc r o) = some g →
      o.kind ≠ 0) →
    ∃ u, exec (.operationComplete slot n op t) s = .next u ∧
      (stationOf u slot n).flight = (stationOf s slot n).flight.filter (fun g => !(g.op == op && g.tag == t)) ∧
      (t ∉ (stationOf s slot n).failed → (stationOf u slot n).completed = (stationOf s slot n).completed ++ [(op, t)]) ∧
      (t ∈ (stationOf s slot n).failed → (stationOf u slot n).completed = (stationOf s slot n).completed) ∧
      (∀ m, (streamOf s slot m).stopped = false → (streamOf s slot m).waiting = [] → (streamOf u slot m).staging = (streamOf s slot m).staging ++
        (f.outputs.filter (fun e => e.1 == m)).map (fun e => ⟨e.2, 0, 0⟩)) ∧
      (∀ m, (streamOf s slot m).stopped = true → (streamOf u slot m).staging = (streamOf s slot m).staging) ∧
      SameBut (touches (.operationComplete slot n op t)) s u) ∧
  (∀ (slot n op : Nat) (t : Word) (f : Flight) (r : Route) (st : StationRec) (o : OpEntry) (g : GaRec) (s : State),
    (stationOf s slot n).flight.find? (fun f => f.op == op && f.tag == t && f.finished) = some f →
    routeOf s slot = some r → r.station n = some st → st.ops[op]? = some o → o.kind = 0 → gaFor r st.info.place (mmoDesc r o) = some g →
    gaExcess s slot g (tagMicro t, sourceOf g n) = false →
    exec (.operationComplete slot n op t) s =
      .next (drainGa slot r g (admitGa slot g (tagMicro t, sourceOf g n) (completeOp slot n op t s)))) ∧
  (∀ (slot ga source micro q k : Nat) (r : Route) (g : GaRec) (st : StationRec) (e : Entry) (s : State), routeOf s slot = some r →
    r.gas.find? (fun g => gaNumber g == ga) = some g → gaTile s slot r g source micro = some (q, k, e) →
    r.station (gaOwner g) = some st → routeFires s slot = true → isNext s slot g (micro, source) = true →
    gaExcess s slot g (micro, source) = false →
    exec (.gaAdmit slot ga source micro) s = .next (drainGa slot r g (admitGa slot g (micro, source)
      (addTile slot g e (entryBytes s (Station.array st.info) e) (spend slot r st (.entry q k) s))))) ∧
  (∀ (slot array stream : Nat) (w : Bytes) (rest : List Bytes) (r : Route) (o : StreamRow) (s : State), routeOf s slot = some r →
    r.stream stream = some o → arrivedAt s slot r o 0 0 = w :: rest → stream ∈ lossStreams r → (r.endOf o).1 = array →
    (slotOf s slot).train.lossItems.length < lossCount r → (slotOf s slot).train.state = 1 →
    let item := BitVec.ofNat 64 (leNat w)
    ∃ t, exec (.lossItem slot array stream) s = .next t ∧
      (slotOf t slot).train.lossItems = insertLoss (tagMicro (itemTag item), stream, itemValue item) (slotOf s slot).train.lossItems ∧
      ((slotOf s slot).train.lossItems.length + 1 = lossCount r → (slotOf t slot).train.stepLoss = some (BitVec.ofNat 64
        ((slotOf t slot).train.lossItems.foldl (fun x e => add64 x (widen64 e.2.2)) 0)) ∧ (slotOf t slot).train.lossPending = true) ∧
      ((slotOf s slot).train.lossItems.length + 1 < lossCount r → (slotOf t slot).train.stepLoss = (slotOf s slot).train.stepLoss) ∧
      t.fab = (dropArrived slot r o 0 0 1 s).fab ∧ SameBut [.fab, .slots] s t)

/-- A stopped stream restarts at the first beat of the replay, or at the next beat that opens, after the reload of the image where
a word of the route's saggar pages was lost: the image matches its digest then; a failed reload halts a training route with EVT_RELOAD_FAIL (R123). The Kiln firings that waited for the step's coefficient block
go on once Steward core 6 has completed it (R249). -/
def Obligations.StreamsRestartAndKilnsGoOn : Prop :=
  (∀ (slot n : Nat) (r : Route) (s : State), routeOf s slot = some r → (streamOf s slot n).stopped = true →
    (slotOf s slot).beat.phase = 1 → (r.training = true → (slotOf s slot).train.state = 1 ∧ (slotOf s slot).beat.offset = 0) →
    ((streamOf s slot n).reload = false ∨ imageMatches s r = true → ∃ t, exec (.streamRestart slot n) s = .next t ∧
      (streamOf t slot n).stopped = false ∧
      (streamOf t slot n).credits = (streamOf s slot n).credits ∧ (∀ m, m ≠ n → streamOf t slot m = streamOf s slot m) ∧
      SameBut [.slots, .serves] s t) ∧
    ((streamOf s slot n).reload = true → imageMatches s r = false → ∃ t, exec (.streamRestart slot n) s = .next t ∧ t.led.events = (s.led.events + 1) % 2 ^ 64 ∧
      (streamOf t slot n).stopped = true ∧ (r.training = true → (slotOf t slot).train.state = 3) ∧
      (r.training = false → (slotOf t slot).train.state = (slotOf s slot).train.state) ∧ SameBut (touches (.streamRestart slot n)) s t)) ∧
  (∀ (slot : Nat) (s : State), (slotOf s slot).train.norm.isSome = true → (slotOf s slot).train.normPending = false →
    (slotOf s slot).train.coefficientsReady = false →
    exec (.coefficientBlockDone slot) s =
      .next (resumeKilns slot (modTrain slot (fun t => { t with coefficientsReady := true }) s)))

/-! Clients, slots and routes. -/

/-- A request for admission that passes its checks is put into a free slot that no queued request could take, queues where there is none
and it asks to, and is refused otherwise (R413); a cancelled one leaves the queue (R414); SLOT_GIVE puts a free slot's first queued request
into it (R414). -/
def Obligations.AdmissionsTakeSlotsInOrder : Prop :=
  (∀ (who : Who) (n : Nat) (b : Bytes) (s : State), n < 64 → Passes who (lastOf (0x4001 + 16 * n) 0 b) s →
    (admissionOf s n).state ≠ 1 → (admissionOf s n).state ≠ 2 → admLength b ≠ 0 → (admSlot b < 4 ∨ admSlot b = 255) → field b 13 1 ≤ 1 →
    zeroAt b 14 2 = true → zeroAt b 48 16 = true → (∃ e, cargoOf s (admHandle b) = some e ∧ e.2.client = n) →
    (slotsHeld s n).length < setting s 0x2A03 n →
    let a := lastOf (0x4001 + 16 * n) 0 b
    let u := modAdmission n (fun x => { x with request := b, beat := s.beat.count }) (begun who a s)
    exec (.admissionRequest who n b) s = .next (answered who a s (match openSlots u b with
      | k :: _ => startLoad n k u
      | [] => if admQueue b then setAdmission n { admissionOf u n with state := 1 } u else refuse n 255 stCapacity u))) ∧
  (∀ (n k : Nat) (s : State), (admissionOf (startLoad n k s) n).state = 2 ∧ (admissionOf (startLoad n k s) n).slot = k ∧
    (slotOf (startLoad n k s) k).state = 1 ∧ (slotOf (startLoad n k s) k).owner = n ∧
    (∀ j, j ≠ k → slotOf (startLoad n k s) j = slotOf s j) ∧ (∀ m, m ≠ n → admissionOf (startLoad n k s) m = admissionOf s m)) ∧
  (∀ (n k status : Nat) (s : State), (admissionOf (refuse n k status s) n).state = 4 ∧ (admissionOf (refuse n k status s) n).refusal = status ∧
    (refuse n k status s).slots = s.slots ∧ (refuse n k status s).led.events = (s.led.events + 1) % 2 ^ 64) ∧
  (∀ (who : Who) (n : Nat) (s : State), n < 64 → Passes who (writeOf (0x4006 + 16 * n) 0 [1]) s → (admissionOf s n).state = 1 →
    exec (.cancelAdmission who n [1]) s = .next (answered who (writeOf (0x4006 + 16 * n) 0 [1]) s
      (setAdmission n { admissionOf s n with state := 0 } s))) ∧
  (∀ (k : Nat) (s : State), k < 4 → (slotOf s k).state = 0 → exec (.slotGive k) s = .next (
    match (admissionQueue s).find? (fun e => wantsSlot e.2.request k) with
    | some e => startLoad e.1 k s
    | none => s))

/-- A loading slot checks its route, beside the routes that are resident and those that have passed their load: one that passes takes a secure reserve frame for each secured page and waits for its next beat
(R388, R415); one that fails is refused with its status, and its slot is given on (R415). -/
def Obligations.RoutesLoadOrAreRefused : Prop :=
  ∀ (k : Nat) (p : RouteParts) (s : State), (slotOf s k).state = 1 → (slotOf s k).route = none → firmwareRuns s = true →
    let n := (slotOf s k).owner
    let q := (admissionOf s n).request
    let r := withExtents s (Route.parse p (admHandle q) (admPage q) (admLength q) (admDigest q))
    let st := loadStatus (withLoaded s) k n q p r
    (st = stOk → ∃ t, exec (.routeLoad k p) s = .next t ∧ (slotOf t k).route = some r ∧ (slotOf t k).state = 1 ∧
      (∀ j, j ≠ k → slotOf t j = slotOf s j) ∧ t.admissions = s.admissions ∧
      SameBut (touches (.routeLoad k p)) s t) ∧
    (st ≠ stOk → exec (.routeLoad k p) s = .next (giveSlot k (setSlot k Slot.free (refuse n k st s))))

/-- A loaded route becomes resident at its next beat, a fabric beat for one that shares an array with a fabric route, its streams at full
credit, and a local route starts with it (R64, R415, R417, R128); a fabric route's start sends its identifier, slot and step length to its
peers and runs once each has sent the same (R140, R369); a refused start leaves its status in b + 3.00, and a peer's frame that differs
rejects it (R140). A release marks the route, and at the close of its present beat frees everything that the route holds on the module; its
cargoes stay, as do the other slots (R416). -/
def Obligations.RoutesStartAndTheirSlotsAreFreed : Prop :=
  ((∀ (k : Nat) (r : Route) (s : State), (slotOf s k).route = some r → (slotOf s k).state = 1 →
    (r.fabric = true ∨ shared s r = true → s.clock = s.beat.opened) → ∃ t, exec (.routeResident k) s = .next t ∧ routeOf t k = some r ∧ (slotOf t k).state = 2 ∧
      (slotOf t k).started = (r.plan.isLocal || (slotOf s k).started) ∧
      (admissionOf t (slotOf s k).owner).state = 3 ∧ (admissionOf t (slotOf s k).owner).slot = k ∧
      (∀ o ∈ r.streams, (∀ x ∈ r.streams, x.number = o.number → x = o) → streamOf t k o.number = ⟨r.depthOf o, [], false, [], false⟩) ∧
      (r.plan.isLocal = true → r.training = true → (slotOf t k).train.state = 1) ∧
      (r.plan.isLocal = false → (slotOf t k).train.step = 0 ∧ (slotOf t k).train.state = 0) ∧ SameBut (touches (.routeResident k)) s t) ∧
  (∀ (k : Nat) (r : Route) (s : State), routeOf s k = some r → r.plan.isLocal = false → (slotOf s k).started = false →
    (setting s 0x2983 0 = 1 → cutDevice r = deviceNumber s) →
    (startRefusal s k r = stOk → exec (.routeStart k) s = .next (
      let u := (startLinks r).foldl (fun v l => sendUp l 7 (r.plan.fabricId ++ le 1 k ++ le 2 r.plan.stepLength) v) s
      if ∀ l ∈ startLinks r, l ∈ (slotOf u k).startPeers then startRoute k r u else u)) ∧
    (startRefusal s k r ≠ stOk → exec (.routeStart k) s =
      .next (modAdmission (slotOf s k).owner (fun a => { a with refusal := startRefusal s k r }) s))) ∧
  (∀ (link k : Nat) (f : Bytes) (len : Nat) (r : Route) (s : State),
    (residents s).filter (fun e => e.2.fabric && !(slotOf s e.1).started && (startLinks e.2).contains link) = [(k, r)] →
    (f = r.plan.fabricId → len = r.plan.stepLength → ∃ t, exec (.routeStartFrame link f k len) s = .next t ∧
      link ∈ (slotOf t k).startPeers ∧ (∀ l ∈ (slotOf s k).startPeers, l ∈ (slotOf t k).startPeers) ∧
      (startRefusal s k r = stOk → setting s 0x2983 0 ≠ 1 → (∀ l ∈ startLinks r, l = link ∨ l ∈ (slotOf s k).startPeers) →
        (slotOf t k).started = true) ∧
      SameBut (touches (.routeStartFrame link f k len)) s t) ∧
    (¬ (f = r.plan.fabricId ∧ len = r.plan.stepLength) → exec (.routeStartFrame link f k len) s =
      .next (modAdmission (slotOf s k).owner (fun a => { a with refusal := stDigest }) s)) ∧
    (∀ j, j ≠ k → exec (.routeStartFrame link f j len) s =
      .next (modAdmission (slotOf s k).owner (fun a => { a with refusal := stState }) s)))) ∧
  ((∀ (who : Who) (n k : Nat) (s : State), n < 64 → k < 4 → Passes who (writeOf (0x4005 + 16 * n) 0 (le 1 k)) s → (slotOf s k).state = 2 →
    (slotOf s k).owner = n → flowNames s k = false → takeoverNames s k = false →
    exec (.releaseSlot who n (le 1 k)) s = .next (answered who (writeOf (0x4005 + 16 * n) 0 (le 1 k)) s
      (modSlot k (fun x => { x with state := 3 }) s))) ∧
  (∀ (k : Nat) (s : State), (slotOf s k).state = 3 → ((slotOf s k).beat.phase = 0 ∨ (slotOf s k).beat.phase = 4) →
    ∃ t, exec (.releaseTakeEffect k) s = .next t ∧ slotOf t k = Slot.free ∧
    (∀ j, j ≠ k → slotOf t j = slotOf s j) ∧ kget t.colls k = none ∧ kget t.secures k = none ∧ kget t.serves k = none ∧
    (∀ h ∈ t.fab.holders, h.2 ≠ k) ∧ (∀ u ∈ t.fab.units, u.2.slot ≠ k) ∧ t.mem.home = s.mem.home ∧
    (∀ i, (kgetD Cargo.free t.mem.cargoes i).state = (kgetD Cargo.free s.mem.cargoes i).state) ∧
    ((admissionOf s (slotOf s k).owner).state = 3 → (admissionOf s (slotOf s k).owner).slot = k →
      (admissionOf t (slotOf s k).owner).state = 0) ∧
    SameBut (touches (.releaseTakeEffect k)) s t))

/-! Glaze programs. -/

/-- A thread's present word is an instruction of the opcode, and the thread may issue it (R187, R188); its extent is one that a program
starts with or SETEXT gives (R194). -/
structure Issues (opcode a n : Nat) (c : GCtx) (s : State) : Prop where
  array : c.a = a
  number : c.n = n
  thread : kget (arrayOf s a).threads n = some c.t
  word : c.t.program[c.t.pc]? = some c.w
  opcode : gOpcode c.w = opcode
  runs : c.t.executed < 2 ^ 20
  may : mayIssue s a c.t.slot = true
  flush : c.flush = (routeSetting s c.t.slot 0x3201 == 1)
  extent : c.t.rows ≤ 16 ∧ c.t.lanes ≤ 128

/-- The thread goes on with its next word; memories, other arrays and the routes are as they were. -/
structure GoesOn (c : GCtx) (s t : State) : Prop where
  thread : kget (arrayOf t c.a).threads c.n = some c.t.next
  threads : ∀ m, m ≠ c.n → kget (arrayOf t c.a).threads m = kget (arrayOf s c.a).threads m
  tbf : (arrayOf t c.a).tbf = (arrayOf s c.a).tbf
  acm : (arrayOf t c.a).acm = (arrayOf s c.a).acm
  arrays : ∀ b, b ≠ c.a → arrayOf t b = arrayOf s b
  slots : t.slots = s.slots

/-- Sources A and C of a lane. -/
def sourceA (c : GCtx) (s : State) (r l : Nat) : Word := regGet (arrayOf s c.a) (gVa c.w) r l
def sourceC (c : GCtx) (s : State) (r l : Nat) : Word := regGet (arrayOf s c.a) (gVc c.w) r l

/-- An instruction writes a value to each lane of the extent of vd, from the sources as they stood, and no other register (R192, R194). -/
def Computes (ins : Nat → Nat → Instr) (opcode : Nat) (f : GCtx → State → Nat → Nat → Word) : Prop :=
  ∀ (a n : Nat) (c : GCtx) (s : State), Issues opcode a n c s → ∃ t, exec (ins a n) s = .next t ∧ GoesOn c s t ∧
    (∀ v r l, r < 16 → l < 128 → regGet (arrayOf t a) v r l =
      if v = gVd c.w ∧ r < c.t.rows ∧ l < c.t.lanes then f c s r l else regGet (arrayOf s a) v r l) ∧
    SameBut (touches (ins a n)) s t

/-- A lane of an arithmetic instruction: in FP32, on both halves of packed BF16, or in INT32 (R186, R195). -/
def lane (f g : Word → Word → Word → Word) (c : GCtx) (s : State) (r l : Nat) : Word :=
  laneOp (gMode c.w) c.flush f g (sourceA c s r l) (sourceB c (arrayOf s c.a) r l) (sourceC c s r l)

/-- ADD, SUB, MUL, FMA, MIN and MAX (R195, R192). ABS, NEG, MOV and the conversions CVTI and CVTF (R195); the INT32 absolute value and
negation of -2^31, which the spec does not state, are free values, one for each (the model's choice, log 14). Compares, selection, logic
and shifts (R195): a compare gives 1 or 0, SEL takes C where A is 0, logic and shifts work on the bits of the lane whatever the mode. -/
def Obligations.GlazeLanesComputeOverTheirExtent : Prop :=
  (Computes .gAdd 0x00 (lane (fun x y _ => add32 x y) (fun x y _ => x + y)) ∧
  Computes .gSub 0x01 (lane (fun x y _ => sub32 x y) (fun x y _ => x - y)) ∧
  Computes .gMul 0x02 (lane (fun x y _ => mul32 x y) (fun x y _ => x * y)) ∧
  Computes .gFma 0x03 (lane fma32 (fun _ _ z => z)) ∧
  Computes .gMin 0x04 (lane (fun x y _ => if isNan32 x || isNan32 y then nan32 else if less32 y x then y else x)
    (fun x y _ => if y.slt x then y else x)) ∧
  Computes .gMax 0x05 (lane (fun x y _ => if isNan32 x || isNan32 y then nan32 else if less32 x y then y else x)
    (fun x y _ => if x.slt y then y else x))) ∧
  (Computes .gAbs 0x06 (lane (fun x _ _ => x &&& 0x7FFFFFFF#32) (fun x _ _ =>
    if x = 0x80000000#32 then Config.absMin else if x.msb then -x else x)) ∧
  Computes .gNeg 0x07 (lane (fun x _ _ => x ^^^ 0x80000000#32) (fun x _ _ => if x = 0x80000000#32 then Config.negMin else -x)) ∧
  Computes .gMov 0x10 (lane (fun x _ _ => x) (fun x _ _ => x)) ∧
  Computes .gCvti 0x11 (fun c s r l => match f32 (flush32 c.flush (sourceA c s r l)) with
    | .nan _ => 0
    | .inf neg => if neg then 0x80000000#32 else 0x7FFFFFFF#32
    | .fin neg m e => BitVec.ofInt 32 (max int32Min (min int32Max (nearestInt neg m e)))) ∧
  Computes .gCvtf 0x12 (fun c s r l => toF32 (fint (sourceA c s r l).toInt))) ∧
  (Computes .gCmplt 0x08 (lane (fun x y _ => if flt (f32 x) (f32 y) then one32 else 0) (fun x y _ => if x.slt y then 1 else 0)) ∧
  Computes .gCmpeq 0x09 (lane (fun x y _ => if feq (f32 x) (f32 y) then one32 else 0) (fun x y _ => if x = y then 1 else 0)) ∧
  Computes .gSel 0x0A (lane (fun x y z => if fisZero (f32 x) then z else y) (fun x y z => if x = 0 then z else y)) ∧
  Computes .gAnd 0x0B (fun c s r l => sourceA c s r l &&& sourceB c (arrayOf s c.a) r l) ∧
  Computes .gOr 0x0C (fun c s r l => sourceA c s r l ||| sourceB c (arrayOf s c.a) r l) ∧
  Computes .gXor 0x0D (fun c s r l => sourceA c s r l ^^^ sourceB c (arrayOf s c.a) r l) ∧
  Computes .gShl 0x0E (fun c s r l => sourceA c s r l <<< ((sourceB c (arrayOf s c.a) r l).toNat % 32)) ∧
  Computes .gShr 0x0F (fun c s r l => sourceA c s r l >>> ((sourceB c (arrayOf s c.a) r l).toNat % 32)))

/-- Element `e` of a row of PACK: A gives elements 0-127 and B elements 128-255. -/
def packElement (c : GCtx) (s : State) (r e : Nat) : Nat :=
  (narrow bf16 (rndAt (roundingOf s c.t.slot (gRounding c.w) (c.t.scalars.getD 0 0)) ((c.t.scalars.getD 12 0).toNat + r)
    ((c.t.scalars.getD 13 0).toNat + e)) (toInfinity s c.t.slot)
    (f32 (flush32 c.flush (if e < 128 then sourceA c s r e else sourceB c (arrayOf s c.a) r (e - 128))))).bits

/-- EXP2, LOG2, RCP, RSQRT, TANH and ERF: each lane takes the value that R196 states for its operand. PACK rounds two rows of FP32 into one
of packed BF16; UNPACK gives the halves back exactly, elements 0-127 to vd and 128-255 to vd + 1 (R192). -/
def Obligations.GlazeFunctionsPackingAndUnpacking : Prop :=
  (Computes .gExp2 0x18 (lane (fun x _ _ => exp2Result x) (fun x _ _ => x)) ∧
  Computes .gLog2 0x19 (lane (fun x _ _ => log2Result x) (fun x _ _ => x)) ∧
  Computes .gRcp 0x1A (lane (fun x _ _ => rcpResult x) (fun x _ _ => x)) ∧
  Computes .gRsqrt 0x1B (lane (fun x _ _ => rsqrtResult x) (fun x _ _ => x)) ∧
  Computes .gTanh 0x1C (lane (fun x _ _ => tanhResult x) (fun x _ _ => x)) ∧
  Computes .gErf 0x1D (lane (fun x _ _ => erfResult x) (fun x _ _ => x))) ∧
  (Computes .gPack 0x13 (fun c s r l => packHalves (packElement c s r (2 * l)) (packElement c s r (2 * l + 1))) ∧
  (∀ (a n : Nat) (c : GCtx) (s : State), Issues 0x14 a n c s → ∃ t, exec (.gUnpack a n) s = .next t ∧ GoesOn c s t ∧
    (∀ v r l, r < 16 → l < 128 → regGet (arrayOf t a) v r l =
      if r < c.t.rows ∧ (v = gVd c.w ∧ l < 2 * c.t.lanes ∨ v = gVd c.w + 1 ∧ 128 + l < 2 * c.t.lanes) then
        let e := if v = gVd c.w then l else 128 + l
        let w := sourceA c s r (e / 2)
        fixResult c.flush (flush32 c.flush (halfToWord (if e % 2 = 0 then lowHalf w else highHalf w)))
      else regGet (arrayOf s a) v r l) ∧
    SameBut (touches (.gUnpack a n)) s t))

/-- A reduction: along axis 0 each of the 16 rows gives one result, in lane 0 or in every lane, the other lanes zero; along axis 1 each
element column gives one, in row 0, or in rows 0 and 1 of a packed reduction, the other rows zero; elements outside the extent are read as
the identity (R194, R197). -/
def ReducesBy (ins : Nat → Nat → Instr) (opcode : Nat) (d : GCtx → Reduce) (g : GCtx → List Word → Word) : Prop :=
  ∀ (a n : Nat) (c : GCtx) (s : State), Issues opcode a n c s → ∃ t, exec (ins a n) s = .next t ∧ GoesOn c s t ∧
    (∀ v r l, r < 16 → l < 128 → regGet (arrayOf t a) v r l =
      if v ≠ gVd c.w then regGet (arrayOf s a) v r l
      else if gBit c.w 29 then
        if r = 0 ∨ (r = 1 ∧ gMode c.w = 1) then
          g c ((List.range 16).map (fun k => (laneElements (gMode c.w) (d c) c (arrayOf s a) k l).getD r 0)) else 0
      else if l = 0 ∨ gBit c.w 28 then
        g c ((List.range 128).flatMap (fun k => laneElements (gMode c.w) (d c) c (arrayOf s a) r k)) else 0) ∧
    SameBut (touches (ins a n)) s t

/-- RSUM and RSSQ sum in the fixed pairwise tree, each addition rounded to FP32 (R197); RMAX and RMIN give a NaN for any NaN, RAMAX the
index of the largest element (R198). -/
def Obligations.GlazeReductions : Prop :=
  ReducesBy .gRsum 0x20 (fun c => if gMode c.w = 2 then ⟨0, id, fun x y => x + y⟩ else ⟨0, id, addResult c.flush⟩)
    (fun c => reduceList (if gMode c.w = 2 then ⟨0, id, fun x y => x + y⟩ else ⟨0, id, addResult c.flush⟩)) ∧
  ReducesBy .gRmax 0x21 (fun c => if gMode c.w = 2 then ⟨0x80000000#32, id, maxInt⟩ else ⟨0xFF800000#32, id, max32⟩)
    (fun c => reduceList (if gMode c.w = 2 then ⟨0x80000000#32, id, maxInt⟩ else ⟨0xFF800000#32, id, max32⟩)) ∧
  ReducesBy .gRmin 0x22 (fun c => if gMode c.w = 2 then ⟨0x7FFFFFFF#32, id, minInt⟩ else ⟨0x7F800000#32, id, min32⟩)
    (fun c => reduceList (if gMode c.w = 2 then ⟨0x7FFFFFFF#32, id, minInt⟩ else ⟨0x7F800000#32, id, min32⟩)) ∧
  ReducesBy .gRamax 0x23 (fun c => if gMode c.w = 2 then ⟨0x80000000#32, id, maxInt⟩ else ⟨0xFF800000#32, id, max32⟩)
    (fun c => argMax (if gMode c.w = 2 then (fun x y => x.slt y) else beatsFloat)) ∧
  ReducesBy .gRssq 0x24 (fun c => ⟨0, fun x => fixResult c.flush (mul32 x x), addResult c.flush⟩)
    (fun c => reduceList ⟨0, fun x => fixResult c.flush (mul32 x x), addResult c.flush⟩) ∧
  (∀ (d : Reduce) (x y z w : Word), reduceList d [x, y, z, w] =
    d.combine (d.combine (d.each x) (d.each y)) (d.combine (d.each z) (d.each w)))

/-- LD reads the rows of the extent into vd and zeros around them, from the TBF or the accumulators (R199); ST stores nothing outside the
bytes of its rows, and the words of an FP32 or INT32 row unchanged (R199); both wait while an output tile owns a block they name (R200), and
one whose address breaks the rules of R199 is abandoned with its tag failed (R207). -/
def Obligations.GlazeLoadsAndStores : Prop :=
  (∀ (a n : Nat) (c : GCtx) (s : State), Issues 0x28 a n c s →
    let f := formatFor s c.t.slot (gFormat c.w)
    let x := arrayOf s a
    (addressFault s c f = true → exec (.gLd a n) s = .next (glazeAbandon c s)) ∧
    (addressFault s c f = false → gTarget c.w = 1 → acmOwned x c = true → exec (.gLd a n) s = .next s) ∧
    (addressFault s c f = false → (gTarget c.w = 1 → acmOwned x c = false) → ∃ t, exec (.gLd a n) s = .next t ∧ GoesOn c s t ∧
      (∀ v r l, r < 16 → l < 128 → regGet (arrayOf t a) v r l =
        if v ≠ gVd c.w then regGet x v r l
        else if r < c.t.rows ∧ l < c.t.lanes then
          if gTarget c.w = 1 then acmGet x c.t.slot (acmRow c r) l
          else (loadedRow c f (loadBytes x.tbf (rowAddress c r) (if rawRow c then 512 else rowBytes f (c.full f)))).getD l 0
        else 0) ∧
      SameBut (touches (.gLd a n)) s t)) ∧
  (∀ (a n : Nat) (c : GCtx) (s : State), Issues 0x29 a n c s →
    let f := formatFor s c.t.slot (gFormat c.w)
    let x := arrayOf s a
    (addressFault s c f = true → exec (.gSt a n) s = .next (glazeAbandon c s)) ∧
    (addressFault s c f = false → gTarget c.w = 1 → acmOwned x c = true → exec (.gSt a n) s = .next s) ∧
    (addressFault s c f = false → gTarget c.w = 1 → acmOwned x c = false → ∃ t, exec (.gSt a n) s = .next t ∧
      kget (arrayOf t a).threads n = some c.t.next ∧ (arrayOf t a).regs = x.regs ∧ (arrayOf t a).tbf = x.tbf ∧
      (∀ k, (∀ r l, r < c.t.rows → l < c.t.lanes → k ≠ acmKey c.t.slot (acmRow c r) l) → kget (arrayOf t a).acm k = kget x.acm k) ∧
      (gStride c = 512 → ∀ r l, r < c.t.rows → l < c.t.lanes → acmGet (arrayOf t a) c.t.slot (acmRow c r) l = regGet x (gVa c.w) r l) ∧
      SameBut (touches (.gSt a n)) s t) ∧
    (addressFault s c f = false → gTarget c.w = 0 → ∃ t, exec (.gSt a n) s = .next t ∧
      kget (arrayOf t a).threads n = some c.t.next ∧ (arrayOf t a).regs = x.regs ∧ (arrayOf t a).acm = x.acm ∧
      (∀ i, (∀ r, r < c.t.rows → i < rowAddress c r ∨ rowAddress c r + touched c f ≤ i) →
        loadByte (arrayOf t a).tbf i = loadByte x.tbf i) ∧
      (rawRow c = true → 512 ≤ gStride c → ∀ r l, r < c.t.rows → l < c.t.lanes →
        loadBytes (arrayOf t a).tbf (rowAddress c r + 4 * l) 4 = le 4 (regGet x (gVa c.w) r l).toNat) ∧
      SameBut (touches (.gSt a n)) s t))

/-- An ST with target 2 writes the staging tile of its output stream, and TOUT sends it against one credit of the stream, with the tag
s0 plus its offset and the shape of s8 to s11 (R200); without credit it waits, and a stream that the station does not write is an address
fault (R207). -/
def Obligations.GlazeOutputTilesAreStagedAndSent : Prop :=
  (∀ (a n : Nat) (c : GCtx) (o : StreamRow) (s : State), Issues 0x29 a n c s → gTarget c.w = 2 →
    (slotOf s c.t.slot).route.bind (fun r => r.output c.t.station (gStream c.w)) = some o →
    addressFault s c (formatFor s c.t.slot (gFormat c.w)) = false →
    ∃ t x, exec (.gSt a n) s = .next t ∧ kget (arrayOf t a).threads n = some x ∧ x.pc = c.t.next.pc ∧
      (arrayOf t a).tbf = (arrayOf s a).tbf ∧
      (∀ j, j ≠ gStream c.w → kget x.staging j = kget c.t.staging j) ∧
      (∀ i, (∀ r, r < c.t.rows → i < rowAddress c r ∨ rowAddress c r + touched c (formatFor s c.t.slot (gFormat c.w)) ≤ i) →
        loadByte (kgetD ([], 0) x.staging (gStream c.w)).1 i = loadByte (kgetD ([], 0) c.t.staging (gStream c.w)).1 i) ∧
      (kgetD ([], 0) c.t.staging (gStream c.w)).2 ≤ (kgetD ([], 0) x.staging (gStream c.w)).2 ∧ SameBut (touches (.gSt a n)) s t) ∧
  (∀ (a n : Nat) (c : GCtx) (s : State), Issues 0x2A a n c s →
    (slotOf s c.t.slot).route.bind (fun r => r.output c.t.station (gStream c.w)) = none →
    exec (.gTout a n) s = .next (glazeAbandon c s)) ∧
  (∀ (a n : Nat) (c : GCtx) (r : Route) (o : StreamRow) (s : State), Issues 0x2A a n c s → (slotOf s c.t.slot).route = some r →
    r.output c.t.station (gStream c.w) = some o →
    (creditsLeft s c.t.slot r o = 0 ∨ (streamOf s c.t.slot o.number).stopped = true → exec (.gTout a n) s = .next s) ∧
    (creditsLeft s c.t.slot r o ≠ 0 → (streamOf s c.t.slot o.number).stopped = false →
      let b := kgetD ([], 0) c.t.staging (gStream c.w)
      let s0 := (c.t.scalars.getD 0 0).toNat
      let dim := fun k => (c.t.scalars.getD k 0).toNat % 65536
      let tag := BitVec.ofNat 32 (s0 / 65536 * 65536 + (s0 + bits c.w.toNat 15 0) % 65536)
      let h := mkHeader tag o.number (slotOf s c.t.slot).train.attempt ((slotOf s c.t.slot).train.step % 65536) c.t.station b.2
        ⟨bits c.w.toNat 23 19 + (if dim 8 = dim 10 ∧ dim 9 = dim 11 then 0 else 64), false, dim 8, dim 9, dim 10, dim 11, 0⟩
      ∃ t, exec (.gTout a n) s = .next t ∧
        (streamOf t c.t.slot o.number).credits = (streamOf s c.t.slot o.number).credits - 1 ∧
        (streamOf t c.t.slot o.number).staging = (streamOf s c.t.slot o.number).staging ++ [⟨⟨h, loadBytes b.1 0 b.2⟩, 0, 0⟩] ∧
        (∀ m, m ≠ o.number → streamOf t c.t.slot m = streamOf s c.t.slot m) ∧
        (∃ x, kget (arrayOf t a).threads n = some x ∧ x.pc = c.t.next.pc ∧ kget x.staging (gStream c.w) = none) ∧
        (arrayOf t a).regs = (arrayOf s a).regs ∧ (arrayOf t a).tbf = (arrayOf s a).tbf ∧ SameBut (touches (.gTout a n)) s t))

/-- The scalar instructions SLI, SADD, SMUL and SFROM write one scalar register, SETEXT sets the extent, and LOOP repeats its body; every
other scalar register, the tile registers and the memories stay (R192-R194). -/
def Obligations.GlazeScalarsExtentsAndLoops : Prop :=
  (∀ (a n op : Nat) (ins : Instr) (v : Word) (c : GCtx) (s : State), Issues op a n c s →
    (ins = .gSli a n ∧ op = 0x30 ∧ v = BitVec.ofNat 32 (gImm c.w)) ∨
    (ins = .gSadd a n ∧ op = 0x31 ∧
      v = c.t.scalars.getD (gSa c.w) 0 + c.t.scalars.getD (gSb c.w) 0 + (BitVec.ofNat 16 (gImm c.w)).signExtend 32) ∨
    (ins = .gSmul a n ∧ op = 0x32 ∧ v = c.t.scalars.getD (gSa c.w) 0 * BitVec.ofNat 32 (gImm c.w % 65536)) ∨
    (ins = .gSfrom a n ∧ op = 0x33 ∧ v = regGet (arrayOf s a) (gVa c.w) (bits c.w.toNat 3 0) (bits c.w.toNat 10 4)) →
    ∃ t, exec ins s = .next t ∧ GoesOn { c with t := { c.t with scalars := setNth c.t.scalars (gSd c.w) v } } s t ∧
      (arrayOf t a).regs = (arrayOf s a).regs ∧ SameBut (touches ins) s t) ∧
  (∀ (xs : List Word) (d k : Nat) (v : Word), d < xs.length →
    (setNth xs d v).getD k 0 = if k = d then v else xs.getD k 0) ∧
  (∀ (a n : Nat) (c : GCtx) (s : State), Issues 0x34 a n c s → ∃ t x, exec (.gSetext a n) s = .next t ∧
    kget (arrayOf t a).threads n = some x ∧ x.rows = bits c.w.toNat 3 0 + 1 ∧ x.lanes = bits c.w.toNat 10 4 + 1 ∧ x.rows ≤ 16 ∧
    x.lanes ≤ 128 ∧ x.scalars = c.t.scalars ∧ (arrayOf t a).regs = (arrayOf s a).regs ∧ SameBut (touches (.gSetext a n)) s t) ∧
  (∀ (a n : Nat) (c : GCtx) (s : State), Issues 0x35 a n c s →
    let body := bits c.w.toNat 5 0
    let k := (c.t.scalars.getD (gSa c.w) 0).toNat
    ∃ t, exec (.gLoop a n) s = .next t ∧ (arrayOf t a).regs = (arrayOf s a).regs ∧ SameBut (touches (.gLoop a n)) s t ∧
      (k = 0 → GoesOn { c with t := { c.t with pc := c.t.pc + body } } s t) ∧
      (k ≠ 0 → GoesOn { c with t := { c.t with loops := (c.t.pc + 1, c.t.pc + 1 + body, k) :: c.t.loops } } s t))

/-- END leaves s15 as the scalar result and finishes the program's operation, discarding staged tiles that no TOUT has sent (R188, R193,
R200); a program that has executed 2^20 words without END is abandoned: its tag fails with EVT_GLAZE_FAULT (R207). -/
def Obligations.GlazeProgramsEndOrAreAbandoned : Prop :=
  (∀ (a n : Nat) (c : GCtx) (s : State), Issues 0x36 a n c s → ∃ u,
    exec (.gEnd a n) s = .next (startProgram c.t.slot c.t.station u) ∧
    kget (arrayOf u a).threads n = none ∧ (arrayOf u a).tbf = (arrayOf s a).tbf ∧
    resultFor u c.t.slot c.t.station c.t.tag = some (c.t.scalars.getD 15 0) ∧
    (stationOf u c.t.slot c.t.station).flight = (stationOf s c.t.slot c.t.station).flight.map (fun f =>
      if f.op = c.t.op ∧ f.tag = c.t.tag then { f with finished := true, scalar := some (c.t.scalars.getD 15 0) } else f) ∧
    u.ctr.station = s.ctr.station ∧ SameBut [.arrays, .slots, .ctr] s u) ∧
  (∀ (a n : Nat) (t : Thread) (s : State), kget (arrayOf s a).threads n = some t → 2 ^ 20 ≤ t.executed →
    exec (.glazeWordLimit a n) s = .next (glazeAbandon ⟨a, n, t, 0, false⟩ s)) ∧
  (∀ (c : GCtx) (s : State), ∃ u, glazeAbandon c s = startProgram c.t.slot c.t.station u ∧ kget (arrayOf u c.a).threads c.n = none ∧
    c.t.tag ∈ (stationOf u c.t.slot c.t.station).failed ∧ u.led.events = (s.led.events + 1) % 2 ^ 64 ∧
    (∀ f ∈ (stationOf u c.t.slot c.t.station).flight, ¬ (f.op = c.t.op ∧ f.tag = c.t.tag)) ∧
    (stationOf u c.t.slot c.t.station).completed = (stationOf s c.t.slot c.t.station).completed)

/-! The Wheel. -/

/-- TILE_STEP: beyond the run-time lengths a step is skipped and counted (R178); a window of a cargo operand that is not under way is
fetched first; a step whose windows have landed and whose blocks are free is computed, and the next windows are fetched where 3602.00 asks
for it (R178-R181). Its blocks and cell passes run in order; without a handover to another slot all of them run (R159), and the last one ends
the step. -/
def Obligations.TileStepsWalkTheirMmo : Prop :=
  ∀ (a n : Nat) (m : Mmo) (r : Route) (f : Flight) (s : State), kget (arrayOf s a).mmos n = some m → routeOf s m.slot = some r →
    (stationOf s m.slot m.station).flight.find? (fun f => f.op == m.op && f.tag == m.tag) = some f → m.position < stepCount m.desc →
    arrayWorks s a m.slot = true →
    let pos := m.position
    let want := [0, 1].filter (fun k => (m.operand k).kind == 2)
    let tile := stepAt' m.desc pos
    let c := consumeAll (want.map (fun k => Landing.staging a (stagingAddress s m k pos))) s
    let there := (∀ k ∈ want, windowLanded m k pos = true) ∧ tileFree m tile.1 tile.2.1 = true
    (stepSkipped m pos = true → exec (.tileStep a n) s = .next (count 0x5232 a 1 (modArray a (fun x => { x with
      mmos := kput x.mmos n { m with position := pos + 1, skipped := m.skipped + 1 } }) s))) ∧
    (stepSkipped m pos = false → (∃ k ∈ want, windowPlaced s a n k pos m = false) →
      exec (.tileStep a n) s = .next (placeWindows a n pos false s)) ∧
    (stepSkipped m pos = false → (∀ k ∈ want, windowPlaced s a n k pos m = true) → ¬ there → exec (.tileStep a n) s = .next s) ∧
    (stepSkipped m pos = false → there → c.2 = .wait → exec (.tileStep a n) s = .next c.1) ∧
    (stepSkipped m pos = false → there → c.2 = .fail → exec (.tileStep a n) s = .next (failTag m.slot m.station m.tag
      (leaveFlight m.slot m.station m.op m.tag (abandonMmo a n c.1)))) ∧
    (stepSkipped m pos = false → there → c.2 = .ok →
      ∃ u, u.arrays = s.arrays ∧ u.slots = s.slots ∧ exec (.tileStep a n) s = .next (
        let v := computeStep a n r m f.inputs pos u
        if setting v 0x3602 0 = 1 then (nextStep m (stepCount m.desc + 1) (pos + 1)).elim v (fun q => placeWindows a n q true v) else v)) ∧
    (∀ u, let rows := validRowsOf m.desc m.meff tile.1
      let span := min m.desc.kt (m.keff - tile.2.2 * m.desc.kt)
      let total := passesOf (classOf u m) (splitOf u m) m.desc span
      let run := (runsNow u a m rows span (total - m.pass) m.pass (max u.clock (arrayOf u a).cells.streams)).length
      (passes u a m.slot = false → run = total - m.pass) ∧
      ∃ x, kget (arrayOf (computeStep a n r m f.inputs pos u) a).mmos n = some x ∧ x.drained = m.drained ∧
        (total ≤ m.pass + run → x.position = pos + 1 ∧ x.pass = 0 ∧ x.computed = m.computed + 1 ∧ (tile.1, tile.2.1) ∈ x.written) ∧
        (m.pass + run < total → x = { m with pass := m.pass + run }) ∧
        (arrayOf (computeStep a n r m f.inputs pos u) a).tbf = (arrayOf u a).tbf ∧
        (∀ b, b ≠ a → arrayOf (computeStep a n r m f.inputs pos u) b = arrayOf u b) ∧
        SameBut [.arrays, .ctr] u (computeStep a n r m f.inputs pos u))

/-- OUTPUT_DRAIN: the next tile of the walk whose K steps are over leaves by its delivery: a tile of a stream is staged with its header, its
accumulator blocks are free, and a tile without a contribution is all zeros (R168, R178, R180); with every tile out the MMO ends, its record
is written and its operation has finished (R176, R182). -/
def Obligations.OutputsDrainAndMmosEnd : Prop :=
  (∀ (a n i j : Nat) (m : Mmo) (r : Route) (o : StreamRow) (s : State), kget (arrayOf s a).mmos n = some m → routeOf s m.slot = some r →
    m.desc.delivery = 0 → nextDrain m = some (i, j) → r.output m.station m.desc.output = some o →
    (streamOf s m.slot o.number).stopped = false →
    let program := (((r.station m.station).bind (fun st => st.ops[m.op]?)).map (·.program)).getD 0
    let index := i * ceilDiv m.desc.n m.desc.nt + j
    let tag := BitVec.ofNat 32 (m.tag.toNat / 65536 * 65536 + (tagIndex m.tag + index) % 65536)
    let row := rowBytes (formatFor s m.slot m.desc.formatC) m.desc.nt
    let payload := (drainRows s a r m program (decide (m.keff = 0)) i j).flatMap (·.1) ++
      zeroBytes ((m.desc.mt - validRowsOf m.desc m.meff i) * row)
    ∃ t x h, exec (.outputDrain a n) s = .next t ∧ kget (arrayOf t a).mmos n = some x ∧ x.drained = m.drained ++ [(i, j)] ∧
      x.position = m.position ∧ (arrayOf t a).acm = (arrayOf s a).acm ∧
      (arrayOf t a).tbf = storeBytes (arrayOf s a).tbf (outputAddress s m + m.drained.length % 2 * (m.desc.mt * row)) payload ∧
      (∀ b ∈ ownBlocks r a m i j, kget (arrayOf t a).owners (m.slot * 128 + b) = none) ∧
      hdrTag h = tag ∧ hdrRows h = m.desc.mt % 65536 ∧ hdrCols h = m.desc.nt % 65536 ∧
      (streamOf t m.slot o.number).staging = (streamOf s m.slot o.number).staging ++ [⟨⟨h, payload⟩, 0, 0⟩] ∧
      SameBut (touches (.outputDrain a n)) s t) ∧
  (∀ (a n i j : Nat) (m : Mmo) (r : Route) (s : State), kget (arrayOf s a).mmos n = some m → routeOf s m.slot = some r →
    m.desc.delivery ≠ 2 → nextDrain m = some (i, j) → exec (.outputDrain a n) s = .next (deliverTile a n r m
      ((((r.station m.station).bind (fun st => st.ops[m.op]?)).map (·.program)).getD 0) i j s)) ∧
  (∀ (a n : Nat) (m : Mmo) (r : Route) (s : State), kget (arrayOf s a).mmos n = some m → routeOf s m.slot = some r →
    mmoOver m = true → (m.desc.delivery = 2 ∨ nextDrain m = none) → exec (.outputDrain a n) s = .next (endMmo a n r m s)) ∧
  (∀ (a n : Nat) (r : Route) (m : Mmo) (s : State), kget (arrayOf (endMmo a n r m s) a).mmos n = none ∧
    (arrayOf (endMmo a n r m s) a).written = (arrayOf s a).written + 1 ∧
    kget (arrayOf (endMmo a n r m s) a).records ((arrayOf s a).written % 1024) = some (padTo 48 (completionRecord s m 0 (s.clock - m.issuedAt))) ∧
    (∀ f ∈ (stationOf (endMmo a n r m s) m.slot m.station).flight, f.op = m.op → f.tag = m.tag → f.finished = true))

/-! Transfers. -/

/-- TRANSFER_ISSUE takes the head of the queue out where the engine, a buffer half and the hold allow it (R295, R299); REQUEST_ISSUE gives
its next request to the controller: a read is sampled there, a write applied, and a page that is BROKEN is a hit (R295-R309). A request
goes to the partitions of its own cluster alone (R26); a partition moves two granules in a cycle, and the sites take turns there (R109).
REQUEST_LAND: the bytes that a read has found reach the TBF of its array, unless the transfer was cancelled or resolved (R294, R312);
WRITE_ACKNOWLEDGE raises the generation of a page with its last request there and holds the page open until then (R305). -/
def Obligations.TransfersIssueLandAndAcknowledge : Prop :=
  ((∀ (a : Nat) (t : Transfer) (rest : List Transfer) (s : State), (engineOf s a).queue = t :: rest →
    let ok := (engineOf s a).outstanding.length < arrayLimit ∧ (∀ p, pairOf (engineOf s a) t.desc = some p → 0 < p.2.credits) ∧
      engineFree s a t.slot = true ∧ draining (engineOf s a) t = false ∧ holdClear s t.slot t.hold = true
    (ok → exec (.transferIssue a) s = .next (issueHead a t s)) ∧ (¬ ok → exec (.transferIssue a) s = .next s)) ∧
  (∀ (a : Nat) (t : Transfer) (s : State), t.desc.runAhead = false → leavesExtent t.desc = true → ∃ u,
    issueHead a t s = failOrigin a t u ∧ u.led.events = (s.led.events + 1) % 2 ^ 64 ∧
    (engineOf u a).outstanding = (engineOf s a).outstanding ∧ (∀ x ∈ (engineOf u a).queue, x.id ≠ t.id)) ∧
  (∀ (a : Nat) (t : Transfer) (s : State), t.desc.runAhead = true ∨ leavesExtent t.desc = false → t.desc.pair = 0xFFFF →
    storePages s t.desc = [] → let u := issueHead a t s
    (engineOf u a).outstanding = (engineOf s a).outstanding ++ [{ t with half := 0 }] ∧ u.slots = s.slots ∧
      (engineOf u a).queue = (engineOf s a).queue.filter (fun x => x.id != t.id)) ∧
  (∀ (a id k : Nat) (t : Transfer) (q : Request) (s : State), findTransfer (engineOf s a) id = some t →
    t.requests.zipIdx.find? (fun x => x.1.state == 0) = some (q, k) →
    let p := (if t.desc.kind = 1 then q.dest else q.address) / pageBytes
    let u := unitOf s (t.desc.cargoHandle % 65536) p
    let ok := requestsAt s u < unitLimit s u.1 ∧ granuleBusy (engineOf s a) t q = false ∧ inCluster s a t q = true ∧
      (t.desc.kind = 1 ∨ updateClear s t (t.desc.cargoHandle % 65536) p = true)
    let c := checkPage s t q
    let g := grantAll (partitionsOf c.1 t q) a c.1
    (¬ ok → exec (.requestIssue a id) s = .next s) ∧
    (ok → c.2 = .wait → exec (.requestIssue a id) s = .next c.1) ∧
    (ok → c.2 = .fail → exec (.requestIssue a id) s = .next (failOrigin a t (giveUp a t c.1))) ∧
    (ok → c.2 = .ok → exec (.requestIssue a id) s = .next (if g.2 then serveRequest a t k q g.1 else g.1))) ∧
  (∀ (n a : Nat) (s : State), let port := kgetD PartitionPort.idle s.mem.ports n
    let moved := if port.cycle = s.clock then port.moved else 0
    let g := grantAt n a s
    (moved < 2 → (∀ x ∈ port.waiting, x ≠ a → waitsAt s n x = true → (a + 256 - port.next) % 256 ≤ (x + 256 - port.next) % 256) →
      g.2 = true ∧ kget g.1.mem.ports n = some ⟨s.clock, moved + 1, (a + 1) % 256, port.waiting.filter (· != a)⟩ ∧ SameBut [.mem] s g.1) ∧
    (2 ≤ moved ∨ (∃ x ∈ port.waiting, x ≠ a ∧ waitsAt s n x = true ∧ (x + 256 - port.next) % 256 < (a + 256 - port.next) % 256) →
      g.2 = false ∧ a ∈ (kgetD PartitionPort.idle g.1.mem.ports n).waiting ∧ SameBut [.mem, .ctr] s g.1)) ∧
  (∀ (a k : Nat) (t : Transfer) (q : Request) (s : State), t.desc.kind = 0 → t.desc.runAhead = false →
    (cargoAt s t.desc.source).2.state = 1 → (cargoAt s t.desc.source).2.farCached = false → (cargoAt s t.desc.source).2.tier ≤ 2 →
    unmapped s (cargoAt s t.desc.source).1 (q.address / pageBytes) = false →
    serveRequest a t k q s = setRequest a t.id k (fun x => { x with state := 1, data := sample s (cargoAt s t.desc.source).1 q.address q.length })
      (noteGeneration a t.id (cargoAt s t.desc.source).1 (q.address / pageBytes) (count 0x527B a 1 s)))) ∧
  ((∀ (a id k : Nat) (d : Bytes) (t : Transfer) (q : Request) (s : State), findTransfer (engineOf s a) id = some t →
    t.requests[k]? = some q → q.state = 1 → t.desc.kind = 0 → t.cancelled = false → t.resolved = false →
    (cargoAt s t.desc.source).2.farCached = false → (cargoAt s t.desc.source).2.tier ≠ 4 →
    (∀ core thread, t.origin ≠ .drover core thread) →
    exec (.requestLand a id k d) s = .next (finishIfDone a id (setRequest a id k (fun x => { x with state := 2, data := q.data })
      (modArray a (fun x => { x with tbf := storeBytes x.tbf q.dest (q.data ++ zeroBytes q.pad) }) (clearOverwritten a t q s))))) ∧
  (∀ (a id k : Nat) (t : Transfer) (q : Request) (s : State), findTransfer (engineOf s a) id = some t → t.requests[k]? = some q →
    q.state = 1 → t.desc.kind = 1 → exec (.writeAcknowledge a id k) s = .next (finishIfDone a id
      (setRequest a id k (fun x => { x with state := 2 }) (acknowledgePage t k (t.desc.dest % 65536) (q.dest / pageBytes) s)))) ∧
  (∀ (t : Transfer) (k j p : Nat) (s : State),
    let more := t.requests.zipIdx.any (fun e => e.2 != k && e.1.state != 2 && e.1.dest / pageBytes == p)
    (more = true → (j, p) ∈ (acknowledgePage t k j p s).mem.openPages ∧
      (acknowledgePage t k j p s).mem.cargoes = s.mem.cargoes) ∧
    (more = false → (j, p) ∉ (acknowledgePage t k j p s).mem.openPages ∧
      ∀ e, (kgetD Cargo.free s.mem.cargoes j).pages[p]? = some e →
        (kgetD Cargo.free (acknowledgePage t k j p s).mem.cargoes j).pages[p]? = some { e with generation := (e.generation + 1) % 2 ^ 64 }) ∧
    (acknowledgePage t k j p s).mem.home = s.mem.home))

/-- A drover's access is placed before the queue and goes out at once, within the limits of R311; the late point, at cycle P - 64 - m of a
due beat of its tag, and a failed read give a read to the late action of its cargo, a failed one with EVT_CARGO_FAIL (R285-R287). -/
def Obligations.DroversAndLateReads : Prop :=
  (∀ (a core thread slot offset length : Nat) (store : Bool) (handle : Nat) (data : Bytes) (tag : Word) (r : Route) (m : ManifestEntry) (s : State),
    routeOf s slot = some r → r.manifest.find? (fun m => m.handle == handle && (if store then m.write else m.read)) = some m →
    core < 2 → thread < 16 → length ≠ 0 → length ≤ 256 → (kgetD ⟨0, []⟩ (engineOf s a).drovers (core * 16 + thread)).state ≠ 2 →
    (engineOf s a).outstanding.length < arrayLimit →
    ((engineOf s a).outstanding.filter (fun t => match t.origin with | .drover _ _ => true | _ => false)).length < setting s 0x3601 0 →
    engineFree s a slot = true →
    ∃ u t, exec (.droverAccess a core thread slot store handle offset length data tag) s = .next (issueHead a t u) ∧
      t.origin = .drover core thread ∧ t.slot = slot ∧ t.id = (engineOf s a).nextId ∧
      t.desc.kind = (if store then 1 else 0) ∧ (store = false → t.desc.source = handle ∧ t.desc.sourceOffset = offset) ∧
      (store = true → t.desc.dest = handle ∧ t.desc.destOffset = offset ∧ (t.requests.map (·.data)) = [padTo length data]) ∧
      (engineOf u a).queue = t :: (engineOf s a).queue ∧ (engineOf u a).nextId = (engineOf s a).nextId + 1 ∧
      (kgetD ⟨0, []⟩ (engineOf u a).drovers (core * 16 + thread)).state = 2) ∧
  (∀ (a id : Nat) (t : Transfer) (r : Route) (s : State), findTransfer (engineOf s a) id = some t → t.desc.kind ≠ 1 →
    (cargoAt s t.desc.source).2.tier ≠ 0 → t.resolved = false → t.cancelled = false → routeOf s t.slot = some r → r.training = true →
    (∀ k, t.origin ≠ .prefetch k true) → t.step = (slotOf s t.slot).train.step →
    let m := lateMargin s (cargoAt s t.desc.source).2
    let b := (slotOf s t.slot).beat
    let mine := r.plan.due.filter (fun d => ((BitVec.ofNat 32 t.desc.tag ^^^ d.value) &&& d.mask) == 0)
    let passed := ∃ d ∈ mine, d.beat < b.offset ∨ (d.beat = b.offset ∧ b.phase ≠ 0 ∧ b.opened + (b.period - 64 - m) ≤ s.clock)
    (passed → exec (.latePoint a id) s = .next (resolveRead a t false (match t.origin with | .prefetch _ _ => count 0x5283 a 1 s | _ => s))) ∧
    (¬ passed → exec (.latePoint a id) s = .next s)) ∧
  (∀ (a id : Nat) (t : Transfer) (r : Route) (s : State), findTransfer (engineOf s a) id = some t → t.desc.kind ≠ 1 →
    (cargoAt s t.desc.source).2.tier ≠ 0 → t.resolved = false → t.cancelled = false → routeOf s t.slot = some r → r.training = false →
    (∀ k next, t.origin ≠ .prefetch k next) →
    (∃ d ∈ r.plan.due, ((BitVec.ofNat 32 t.desc.tag ^^^ d.value) &&& d.mask) = 0 ∧ ∃ q ∈ (serveOf s t.slot).requests,
      q.line = tagMicro (BitVec.ofNat 32 t.desc.tag) ∧ q.phase = 1 ∧
      pastLate s t.slot (lateMargin s (cargoAt s t.desc.source).2) (slotOf s t.slot).beat.count (q.entry + d.beat) = true) →
    exec (.latePoint a id) s = .next (resolveRead a t false s)) ∧
  (∀ (a id : Nat) (t : Transfer) (s : State), findTransfer (engineOf s a) id = some t → t.desc.kind ≠ 1 → t.resolved = false →
    t.cancelled = false → 3 ≤ (cargoAt s t.desc.source).2.tier →
    let c := cargoAt s t.desc.source
    let v := (t.requests.filter (fun q => q.state == 1)).foldl (fun s q => refillFail c.1 (q.address / pageBytes) s) s
    exec (.cargoReadFail a id) s = .next (resolveRead a t true
      (event evtCargoFail ⟨t.slot, c.2.client, 0xFFFF⟩ (le 4 t.desc.source) (count 0x543C c.2.client 1 v)))) ∧
  (∀ (a : Nat) (t : Transfer) (s : State), let c := (cargoAt s t.desc.source).2
    let late := t.requests.filter (fun q => t.requests.any (fun x => x.state != 2 && x.address / pageBytes == q.address / pageBytes))
    (c.lateAction = 0 → resolveRead a t false s = count 0x5438 c.client 1 s) ∧
    (c.lateAction = 0 → resolveRead a t true s = failOrigin a t (giveUp a t (count 0x5438 c.client 1 s))) ∧
    (∀ failed : Bool, c.lateAction = 2 → resolveRead a t failed s = noteLate t c 2 (count 0x543A c.client 1
      (settleRead a t (late.foldl (fun s q => deliver a t q (zeroBytes q.length) s) s)))))

/-! Cargoes. -/

/-- A request to 2510.00 of an operation code. -/
def cargoAsk (code : Byte) (b : Bytes) : Bytes := code :: b.drop 1

/-- The request passes the checks that every operation on a cargo makes: record `i` is the requester's, and `ps` are the pages that it
names (R276). -/
structure OnCargo (who : Who) (q : Bytes) (i : Nat) (c : Cargo) (ps : List Nat) (s : State) : Prop where
  free : (progressOf s who.client).2 ≠ 1
  found : cargoOf s (field q 4 4) = some (i, c)
  mine : c.client = who.client
  zero : zeroAt q 1 3 = true
  pages : ∃ n, n = (if field q 12 4 = 0 then c.pageCount - field q 8 4 else field q 12 4) ∧ field q 8 4 + n ≤ c.pageCount ∧
    ps = (List.range n).map (· + field q 8 4)

/-- Pin, unpin, flush and mark act on the pages they name of a far-cached cargo, and set-actions changes its late action (R276, R281). -/
def Obligations.CargoOperationsActOnTheirPages : Prop :=
  (∀ (who : Who) (b : Bytes) (i : Nat) (c : Cargo) (ps : List Nat) (s : State),
    let q := cargoAsk 3 b
    let a := lastOf 0x2510 0 q
    Passes who a s → OnCargo who q i c ps s → c.state ≠ 2 → c.farCached = true →
    ((s.mem.cache.filter (fun f => f.pinned)).length + ps.length - (s.mem.cache.filter (fun f => f.pinned && f.cargo == i &&
      field q 8 4 ≤ f.page && f.page < field q 8 4 + ps.length)).length) * 100 ≤ setting s 0x3502 0 * cacheCapacity s →
    exec (.cargoPin who b) s = .next (answered who a s (let u := begun who a s
      setProgress who.client (progressOf s who.client).1 1 (workOn who.client (ps.map (fun p => (i, p, true))) u)))) ∧
  (∀ (who : Who) (b : Bytes) (i : Nat) (c : Cargo) (ps : List Nat) (s : State), c.state ≠ 2 → c.farCached = true →
    (let a := lastOf 0x2510 0 (cargoAsk 4 b)
     Passes who a s → OnCargo who (cargoAsk 4 b) i c ps s → exec (.cargoUnpin who b) s = .next (answered who a s
      (setProgress who.client (progressOf s who.client).1 2
        (ps.foldl (fun v p => modFrame i p (fun f => { f with pinned := false }) v) (begun who a s))))) ∧
    (let a := lastOf 0x2510 0 (cargoAsk 6 b)
     Passes who a s → OnCargo who (cargoAsk 6 b) i c ps s → exec (.cargoFlush who b) s = .next (answered who a s
      (setProgress who.client (progressOf s who.client).1 1
        (workOn who.client (ps.map (fun p => (i, p, false))) (begun who a s))))) ∧
    (let a := lastOf 0x2510 0 (cargoAsk 7 b)
     Passes who a s → OnCargo who (cargoAsk 7 b) i c ps s → exec (.cargoMarkOutOfDate who b) s = .next (answered who a s
      (setProgress who.client (progressOf s who.client).1 2 (ps.foldl (fun v p => markPage i p v) (begun who a s)))))) ∧
  (∀ (who : Who) (b : Bytes) (i : Nat) (c : Cargo) (ps : List Nat) (s : State),
    let q := cargoAsk 5 b
    let a := lastOf 0x2510 0 q
    let attr := slice q 16 48
    Passes who a s → OnCargo who q i c ps s → slice attr 0 22 = slice c.attr 0 22 → slice attr 28 8 = slice c.attr 28 8 →
    slice attr 40 8 = slice c.attr 40 8 →
    firstStatus (attrChecks s who.client attr [broken c, (manifestReads s (field q 4 4), stState)]) = stOk →
    exec (.cargoSetActions who b) s = .next (answered who a s (setProgress who.client (progressOf s who.client).1 2
      (modCargo i (fun c => { c with attr := attr }) (begun who a s)))))

/-- A create takes the lowest free record, raises its reuse count and leaves its pages zero (R271, R276, R277); a free of a cargo that no
route names gives its record, its frames and its windows back (R276, R465). The end of a zeroing, pinning or flush is reported once no page
of it is left to do (R277); a write-home that was not admitted is tried again at the next beat (R281); a scrub pass counts itself and its
corrected words, once in each scrub period (R269), and an uncorrectable word breaks the cargo that owns the page with EVT_SAGGAR_UNCORR
(R268). -/
def Obligations.CargoesAreCreatedFreedAndScrubbed : Prop :=
  ((∀ (who : Who) (b : Bytes) (s : State),
    let q := cargoAsk 1 b
    let a := lastOf 0x2510 0 q
    let attr := slice q 16 48
    let i := lowestFree s
    Passes who a s → (progressOf s who.client).2 ≠ 1 → zeroAt q 1 3 = true → field q 4 4 = 0xFFFFFFFF →
    firstStatus (attrChecks s who.client attr [] ++ createChecks s ⟨1, who.client, 0, attr, [], false⟩) = stOk →
    ∃ t, exec (.cargoCreate who b) s = .next (answered who a s t) ∧
      (kgetD Cargo.free t.mem.cargoes i).state = 1 ∧ (kgetD Cargo.free t.mem.cargoes i).client = who.client ∧
      (kgetD Cargo.free t.mem.cargoes i).attr = attr ∧
      (kgetD Cargo.free t.mem.cargoes i).reuse = ((kgetD Cargo.free s.mem.cargoes i).reuse + 1) % 256 ∧
      (kgetD Cargo.free t.mem.cargoes i).pages.length = (kgetD Cargo.free t.mem.cargoes i).pageCount ∧
      (∀ k, k < cargoSpan → loadByte t.mem.home (i * cargoSpan + k) = 0 ∧ loadByte t.mem.cached (i * cargoSpan + k) = 0) ∧
      (progressOf t who.client).2 = (if field attr 20 1 ≤ 2 then 1 else 2)) ∧
  (∀ (who : Who) (b : Bytes) (i : Nat) (c : Cargo) (ps : List Nat) (s : State),
    let q := cargoAsk 2 b
    let a := lastOf 0x2510 0 q
    Passes who a s → OnCargo who q i c ps s → manifestNames s (field q 4 4) = false → holdsImage s (field q 4 4) = false →
    exec (.cargoFree who b) s = .next (answered who a s (freeCargo who.client i (begun who a s)))) ∧
  (∀ (n i : Nat) (s : State), let t := freeCargo n i s
    (kgetD Cargo.free t.mem.cargoes i).state = 0 ∧
    (kgetD Cargo.free t.mem.cargoes i).reuse = (kgetD Cargo.free s.mem.cargoes i).reuse ∧
    (∀ j, j ≠ i → kgetD Cargo.free t.mem.cargoes j = kgetD Cargo.free s.mem.cargoes j) ∧
    (∀ k, k < cargoSpan → loadByte t.mem.home (i * cargoSpan + k) = 0) ∧
    (∀ k, k < i * cargoSpan ∨ (i + 1) * cargoSpan ≤ k → loadByte t.mem.home k = loadByte s.mem.home k) ∧
    (∀ f ∈ t.mem.cache, f.cargo ≠ i) ∧ (∀ w ∈ t.host.windows ++ t.host.windowsSet, field w.2 0 4 % 65536 ≠ i) ∧
    ((kgetD Cargo.free s.mem.cargoes i).tier = 3 → ∀ p ∈ (kgetD Cargo.free s.mem.cargoes i).pages, kget t.flash.map p.frame = none) ∧
    (progressOf t n).2 = 2)) ∧
  ((∀ (n h : Nat) (s : State), firmwareRuns s = true → progressOf s n = (h, 1) →
    let u := workOn n (kgetD [] s.mem.working n) s
    (∃ t, exec (.cargoCommandDone n false) s = .next t ∧ progressOf t n = (h, 3) ∧ kget t.mem.working n = none ∧ SameBut [.mem] s t) ∧
    ((kget u.mem.working n).isSome = true → exec (.cargoCommandDone n true) s = .next u) ∧
    ((kget u.mem.working n).isSome = false → ∃ t, exec (.cargoCommandDone n true) s = .next t ∧ progressOf t n = (h, 2) ∧
      (∀ i c, cargoOf u h = some (i, c) → (kgetD Cargo.free t.mem.cargoes i).zeroing = false) ∧ SameBut [.mem] u t)) ∧
  (∀ (stack frame : Nat) (f : CacheFrame) (s : State), powered s = true →
    s.mem.cache.find? (fun f => f.stack == stack && f.frame == frame && f.dirty && f.retry.any (fun b => decide (b < s.beat.count))) = some f →
    exec (.writehomeRetry stack frame) s = .next (writeHomeFrame f s).1 ∧
    ((kgetD Cargo.free s.mem.cargoes f.cargo).tier ≠ 3 → hostAway s f.cargo f.page = false →
      Memory.wf s.mem.home = true → Memory.wf s.mem.cached = true →
      (∀ k, k < pageBytes → loadByte (writeHomeFrame f s).1.mem.home (pageAddress f.cargo f.page + k) =
        loadByte s.mem.cached (pageAddress f.cargo f.page + k)) ∧
      ((kgetD Cargo.free s.mem.cargoes f.cargo).tier = 4 → ∃ d, (writeHomeFrame f s).1.out = s.out ++ [.hostWrite (pageBus s f.cargo f.page) d]) ∧
      (∀ x ∈ (writeHomeFrame f s).1.mem.cache, x.cargo = f.cargo → x.page = f.page → x.dirty = false))) ∧
  (∀ (kind unit : Nat) (fs : List ScrubFinding) (s : State), powered s = true →
    let k := kind * 256 + unit
    (scrubPeriods s ≤ kgetD 0 s.mem.scrubbed k → exec (.scrubPass kind unit fs) s = .next s) ∧
    (kgetD 0 s.mem.scrubbed k < scrubPeriods s → (∀ f ∈ fs, f.correctable = true) →
      exec (.scrubPass kind unit fs) s = .next (count (saggarCounter kind + 2) unit 1
        (let v := fs.foldl (fun v _ => count (saggarCounter kind) unit 1 v) s
         { v with mem := { v.mem with scrubbed := kput s.mem.scrubbed k (scrubPeriods s) } })))) ∧
  (∀ (kind unit : Nat) (f : ScrubFinding) (s : State), powered s = true → f.correctable = false → f.owner = 1 →
    kgetD 0 s.mem.scrubbed (kind * 256 + unit) < scrubPeriods s → ∃ t, exec (.scrubPass kind unit [f]) s = .next t ∧ t.led.events = (s.led.events + 1) % 2 ^ 64 ∧
      ((kgetD Cargo.free s.mem.cargoes f.which).state ≠ 0 → (kgetD Cargo.free t.mem.cargoes f.which).state = 2) ∧
      t.mem.home = s.mem.home ∧ SameBut (touches (.scrubPass kind unit [f])) s t))

/-! The flash store. -/

/-- FLASH_PROGRAM writes the oldest committed page to a fresh location of the next die that has one, maps it there and journals it
(R318-R320); a page read counts against its block set (R317); MAP_CHECKPOINT writes the dirty part of the map and clears the journal at its
limit (R320); a split store's next pages are admitted (R325). Maintenance: garbage collection below 4,096 erased sets, static wear
levelling beyond 3701.00 and relocation at 3702.00 reads move the valid pages of a set elsewhere and erase it (R321); none of them runs in
a hold-up sequence (R327). A set that fails is retired, listed and reported, and the reserve is judged (R321, R322). -/
def Obligations.FlashIsProgrammedAndMaintained : Prop :=
  ((∀ (page die b : Nat) (s : State), nextCommitted s.flash = some page → nextDie s.flash = some (die, b) →
    let x := setOf s.flash b
    ∃ t, exec .flashProgram s = .next t ∧ t.flash.nextDie = (die + 1) % 96 ∧ kget t.flash.map page = some (b, x.next) ∧
      (∀ p, p ≠ page → kget t.flash.map p = kget s.flash.map p) ∧ setOf t.flash b =
        { x with state := if x.next + 1 = 1024 then 2 else 1, next := x.next + 1 } ∧
      t.flash.journal = (if journalLimit s ≤ s.flash.journal then 0 else s.flash.journal) + Config.journalRecord ∧
      outstandingPages t.flash + 1 = outstandingPages s.flash ∧ SameBut [.flash, .ctr] s t) ∧
  (∀ (die b : Nat) (s : State), nextDie s.flash = some (die, b) → (die < 96 ∧ (kget s.flash.openSets die = some b ∨
    kget s.flash.openSets die = none ∧ pickErased s.flash die = some b))) ∧
  (∀ s : State, nextCommitted s.flash = none ∨ nextDie s.flash = none → exec .flashProgram s = .next s) ∧
  (∀ s : State, journalLimit s ≤ s.flash.journal → exec .mapCheckpoint s = .next { s with flash := { s.flash with
    journal := 0, dirty := 0, shadow := s.flash.shadow.filter (fun e => s.flash.stores.any (fun x => x.committed.contains e.1)) } }) ∧
  (∀ (page retries b k : Nat) (bad : Bool) (s : State), kget s.flash.map page = some (b, k) →
    ∃ t, exec (.flashPageRead page retries bad) s = .next t ∧
      setOf t.flash b = { setOf s.flash b with reads := (setOf s.flash b).reads + 1 } ∧ t.flash.map = s.flash.map ∧ SameBut [.flash, .ctr] s t) ∧
  (∀ (id : Nat) (s : State), exec (.storeAdmit id) s = .next { s with flash := { s.flash with stores := s.flash.stores.map (fun x =>
    if x.id = id then
      { x with admitted := x.admitted ++ x.waiting.take (admissiblePages s - outstandingPages s.flash)
               waiting := x.waiting.drop (admissiblePages s - outstandingPages s.flash) }
    else x) } })) ∧
  ((∀ (b : Nat) (s : State), s.power.sequence = 0 → erasedSets s.flash < 4096 →
    leastSet s (fun x _ => (validPages s.flash x).length) = some b → exec .garbageCollection s = .next (eraseSet b (relocate 0x5028 b s))) ∧
  (∀ (b : Nat) (s : State), s.power.sequence = 0 →
    let es := (s.flash.sets.filter (fun e => e.2.state != 3)).map (fun e => e.2.erases)
    setting s 0x3701 0 < es.foldl max 0 - (if s.flash.sets.length < blockSets then 0 else es.foldl min (es.foldl max 0)) →
    leastSet s (fun _ x => x.erases) = some b → exec .staticWearLevelling s = .next (eraseSet b (relocate 0x5029 b s))) ∧
  (∀ (b : Nat) (s : State), s.power.sequence = 0 → setting s 0x3702 0 ≤ (setOf s.flash b).reads → (setOf s.flash b).state ≠ 3 →
    exec (.readDisturbRelocation b) s = .next (eraseSet b (relocate 0x502A b s))) ∧
  (∀ (b : Nat) (s : State), s.power.sequence ≠ 0 → exec .garbageCollection s = .next s ∧ exec .staticWearLevelling s = .next s ∧
    exec (.readDisturbRelocation b) s = .next s) ∧
  (∀ (b : Nat) (s : State), validPages s.flash b = [] → (setOf (eraseSet b s).flash b) = ⟨0, (setOf s.flash b).erases + 1, 0, 0⟩ ∧
    (∀ c, c ≠ b → setOf (eraseSet b s).flash c = setOf s.flash c) ∧ (eraseSet b s).flash.map = s.flash.map) ∧
  (∀ (b : Nat) (s : State), b < blockSets → (setOf s.flash b).state ≠ 3 → ∃ t, exec (.blockRetire b) s = .next t ∧
    (setOf t.flash b).state = 3 ∧ t.flash.bad = s.flash.bad ++ [b] ∧
    (s.flash.bad.length + 1 ≤ 15360 → s.flash.state = 0 → t.flash.state = 0) ∧
    (15360 < s.flash.bad.length + 1 → s.flash.bad.length + 1 ≤ 16128 → s.flash.state = 0 → t.flash.state = 1) ∧
    (16128 < s.flash.bad.length + 1 → s.flash.state ≤ 1 → t.flash.state = 2) ∧ SameBut [.flash, .led, .ctr] s t))

/-! Supply and hold-up. -/

/-- The bank: a sample keeps its voltage and computes the admissible pages anew (R323, R324); a load test runs once the bank has reached 55 V
and then every 130E.00 seconds, or on the command 130D.00, and not while the input is lost; its end measures the capacitance, reports a weak
bank, and one that admits no page as failed (R323, R330). -/
def Obligations.BankIsSampledAndTested : Prop :=
  (∀ (v : Word) (s : State), ∃ t, exec (.bankSample v) s = .next t ∧ t.power.bankVolts = v ∧
    (s.power.reached55 = true → t.power.reached55 = true) ∧
    t.power.admissible = admissibleUnder (journalLimit s) { s with power := { s.power with bankVolts := v } } ∧ SameBut [.power] s t) ∧
  (∀ s : State, s.power.input = 0 → s.power.testing = false → s.power.reached55 = true →
    (s.power.tested = false ∨ s.power.lastTest + setting s 0x130E 0 * 1700000000 ≤ s.clock) →
    ∃ t, exec .loadTest s = .next t ∧ t.power = { s.power with testing := true, holdup := 1, lastTest := s.clock } ∧
      SameBut (touches .loadTest) s t) ∧
  (∀ s : State, s.power.input ≠ 0 → exec .loadTest s = .next s) ∧
  (∀ (who : Who) (s : State), Passes who (writeOf 0x130D 0 [1]) s → s.power.testing = false → s.power.input = 0 →
    ∃ t, exec (.loadTestNow who [1]) s = .next (answered who (writeOf 0x130D 0 [1]) s t) ∧
      t.power = { s.power with testing := true, holdup := 1, lastTest := s.clock }) ∧
  (∀ (d : Word) (s : State), s.power.testing = true → ∃ t, exec (.loadTestDone d) s = .next t ∧ t.power.testing = false ∧
    t.power.tested = true ∧ t.power.capacitance = toF32 (fdiv (f32 (f32OfRat (4 / 5))) (f32 d)) ∧
    (let weak := flt (f32 t.power.capacitance) (f32 (BitVec.ofNat 32 (setting s 0x1310 0)))
     t.power.holdup = (if admissibleUnder (journalLimit s) { s with power := { s.power with capacitance := t.power.capacitance } } = 0 then 4
       else if weak then 3 else 2)) ∧
    (t.power.holdup = 2 → t.led = s.led) ∧ (t.power.holdup = 3 → t.led.events = (s.led.events + 1) % 2 ^ 64) ∧ SameBut (touches (.loadTestDone d)) s t)

/-- What a module whose die has lost power, or is held in reset, still holds of it: no route, no array's contents, no transfer, and no link
that is up. -/
def NothingRuns (t : State) : Prop :=
  t.slots = [] ∧ t.arrays = [] ∧ t.engines = [] ∧ t.serves = [] ∧ t.colls = [] ∧ t.admissions = [] ∧ t.host.link = 0 ∧ ∀ l, linkIsUp t l = false

/-- The input: below 42 V it reads low and EVT_INPUT_LOW is written, at or above it normal again (R500); its loss, by the pin, by the
voltage, or by the hot-swap switch that overvoltage and overcurrent open, closes admission, takes the power from the die and the links, and
starts the hold-up sequence (R36, R327, R500, R503). The FRU EEPROM stays readable on SMBus while the input or the sequence supplies it,
and takes no write (R511). The hold-up sequence: the quiesce ends with EVT_POWER_LOSS, every committed page is programmed, and the
power-loss record is written (R327, R329), after which the module starts cold where the input has come back; energy that runs out loses the
journal (R328, R329). A short circuit of a cable supply turns it off (R499). -/
def Obligations.InputLossRunsTheHoldUpSequence : Prop :=
  ((∀ s : State, s.power.input = 0 → ∃ t, exec .inputLow s = .next t ∧ t.power = { s.power with input := 1 } ∧
    t.led.events = (s.led.events + 1) % 2 ^ 64 ∧ SameBut (touches .inputLow) s t) ∧
  (∀ s : State, s.power.input = 1 → ∃ t, exec .inputLowClear s = .next t ∧ t.power = { s.power with input := 0 } ∧
    SameBut (touches .inputLowClear) s t) ∧
  (∀ (e : Bool) (s : State), exec (.inputHigh e) s = .next { s with power := { s.power with high := e } }) ∧
  (∀ (pin : Bool) (s : State), s.power.input ≠ 2 → s.power.sequence = 0 → ∃ t, exec (.inputLoss pin) s = .next t ∧
    t.power = { s.power with
      input := 2, holdup := 5, sequence := 1, cause := (if pin then 0 else 1), beatAtLoss := s.beat.count
      pagesAtLoss := outstandingPages s.flash, programmed := 0, journalLost := false, testing := false } ∧
    admissiblePages t = 0 ∧ NothingRuns t ∧ t.mem = s.mem ∧ t.flash = s.flash ∧ SameBut (touches (.inputLoss pin)) s t) ∧
  (∀ (c : Instr) (s : State), c = .inputOvervoltage ∨ c = .overcurrent → s.power.input ≠ 2 → s.power.sequence = 0 →
    ∃ t, exec c s = .next t ∧ t.power.switchOpen = true ∧ t.power.input = 2 ∧ t.power.sequence = 1 ∧ t.power.cause = 1 ∧
      t.power.pagesAtLoss = outstandingPages s.flash ∧ NothingRuns t ∧ SameBut (touches c) s t) ∧
  (∀ (offset n : Nat) (data : Bytes) (s : State), (s.power.input ≠ 2 ∨ (1 ≤ s.power.sequence ∧ s.power.sequence ≤ 3) →
      smbusRead 0x50 offset n s = some ((List.range n).map (fun k => s.sys.fru.getD ((offset + k) % 2048) 0))) ∧
    smbusWrite 0x50 offset data s = (s, false))) ∧
  ((∀ s : State, s.power.sequence = 1 → exec .holdupQuiesceEnd s = .next (event evtPowerLoss nowhere (le 1 s.power.cause)
    { s with power := { s.power with sequence := 2 } })) ∧
  (∀ s : State, s.power.sequence = 2 → ∃ t, exec .holdupProgramDone s = .next t ∧ t.power.sequence = 3 ∧
    t.power.programmed + outstandingPages t.flash = s.power.programmed + outstandingPages s.flash ∧
    (nextCommitted t.flash = none ∨ nextDie t.flash = none) ∧ t.power.input = s.power.input ∧
    SameBut [.flash, .power, .ctr] s t) ∧
  (∀ s : State, 1 ≤ s.power.sequence → s.power.sequence ≤ 3 →
    exec .bankExhausted s = .next { s with power := { s.power with journalLost := true, sequence := 3 } }) ∧
  (∀ (e v : Word) (back : Bool) (s : State), s.power.sequence = 3 → ∃ t, exec (.powerLossRecord e v back) s = .next t ∧
    kget t.dict.store (objKey 0x1311 0) = some (lossRecord s e v) ∧ kget t.dict.objs (objKey 0x1311 0) = some (lossRecord s e v) ∧
    (back = false → t.power.sequence = 4 ∧ t.sys.resetting = none) ∧
    (back = true → s.power.tripped = false → t.power.sequence = 0 ∧ t.sys.resetting = some (3, 0) ∧ t.sys.drained = true) ∧
    t.flash = s.flash ∧ t.mem = s.mem ∧ SameBut (touches (.powerLossRecord e v back)) s t) ∧
  (∀ (s : State) (e v : Word), (lossRecord s e v).length = 64 ∧ field (lossRecord s e v) 0 8 = s.power.beatAtLoss % 2 ^ 64 ∧
    field (lossRecord s e v) 8 1 = s.power.cause % 256 ∧ field (lossRecord s e v) 16 4 = s.power.pagesAtLoss % 2 ^ 32 ∧
    field (lossRecord s e v) 20 4 = s.power.programmed % 2 ^ 32 ∧ field (lossRecord s e v) 28 4 = e.toNat) ∧
  (∀ (k : Nat) (s : State), k < 16 → k ∉ s.power.cableOff → ∃ t, exec (.cableShort k) s = .next t ∧
    t.power = { s.power with cableOff := s.power.cableOff ++ [k] } ∧
    (∀ j, j < 4 → linkIsUp s (4 * k + j) = true → (linkOf t (4 * k + j)).state = 4) ∧
    (∀ l, l / 4 ≠ k → linkOf t l = linkOf s l) ∧ SameBut (touches (.cableShort k)) s t))

/-! Resets, boot and security. -/

/-- The drain programs every committed page before a warm or cold reset (R478); the stretch ends with the count of its class raised (R479),
and the class decides what is cleared: after a fabric reset the dictionary, the cargoes and the timer stand as they were; after a warm one
cargoes of T0 are gone and after a cold one all but those of T3 (R289, R480). -/
def Obligations.ResetClassesClearWhatTheyName : Prop :=
  (∀ s : State, ((∃ c, s.sys.resetting = some c ∧ 2 ≤ c.1) ∨ s.power.tripped = true) → s.sys.drained = false → s.power.sequence = 0 →
    ∃ t, exec .storeDrainDone s = .next t ∧ t.sys = { s.sys with drained := true } ∧ t.flash.stores = [] ∧ t.flash.journal = 0 ∧
      SameBut (touches .storeDrainDone) s t) ∧
  (∀ (f : BootFindings) (s : State), s.sys.drained = false → exec (.resetStretchEnd f) s = .next s) ∧
  (∀ (f : BootFindings) (source : Nat) (s : State), s.sys.resetting = some (1, source) → s.sys.drained = true →
    f.failedSites = [] → ∃ t, exec (.resetStretchEnd f) s = .next t ∧ t.sys.resetting = none ∧ t.sys.released = s.clock ∧
      t.sys.resets = (s.sys.resets.1 + 1, s.sys.resets.2.1, s.sys.resets.2.2) ∧ (∀ k ∈ slotNumbers, (slotOf t k).state = 0) ∧
      t.arrays = [] ∧ t.engines = [] ∧ t.dict = s.dict ∧ t.beat = s.beat ∧ t.mem.home = s.mem.home ∧
      (∀ i, (kgetD Cargo.free t.mem.cargoes i).state = (kgetD Cargo.free s.mem.cargoes i).state) ∧
      t.fab.failedSites = s.fab.failedSites ∧ t.fab.states = s.fab.states) ∧
  (∀ (f : BootFindings) (cls source : Nat) (s : State), s.sys.resetting = some (cls, source) → cls = 2 ∨ cls = 3 → s.sys.drained = true →
    s.power.journalLost = false → (f.railsFail = true → cls = 2) → f.failedStacks = [] → f.failedPackages = [] → f.failedSites = [] →
    ∃ t, exec (.resetStretchEnd f) s = .next t ∧ t.sys.resetting = none ∧ t.sys.released = s.clock ∧
      t.beat.state = 0 ∧ t.beat.count = 0 ∧ (∀ k ∈ slotNumbers, (slotOf t k).state = 0) ∧ t.arrays = [] ∧ t.engines = [] ∧
      t.dict.objs = s.dict.store ∧ t.dict.inUse = s.dict.store ∧ t.dict.store = s.dict.store ∧ t.dict.sessions = [] ∧ t.dict.unlocked = [] ∧
      t.led.step = s.led.step ∧ t.led.steps = s.led.steps ∧
      (∀ i, (kgetD Cargo.free t.mem.cargoes i).state = (if keptTier cls (kgetD Cargo.free s.mem.cargoes i).tier then
        (kgetD Cargo.free s.mem.cargoes i).state else 0)) ∧
      (s.dict.staging.state = 2 → t.dict.staging = s.dict.staging) ∧
      SameBut (touches (.resetStretchEnd f)) s t)

/-- A reset of a class begins where none as strong is being stretched and no hold-up sequence runs (R477), whatever its source: PORST_N,
SYSRST_N, a watchdog, or a command (R473-R476); what its class resets holds nothing from the request on (R478, R479), while a fabric reset
leaves the dictionary, the timer and the links as they are (R480). A thermal trip turns the rails and the links off and drains the stores;
the module starts cold once every sensor has cooled (R506, R507). -/
def Obligations.ResetsAndTripsBeginByTheirSources : Prop :=
  ((∀ (source cls core : Nat) (s : State), let t := requestReset source cls core s
    (s.power.sequence = 0 → (∀ c, s.sys.resetting = some c → c.1 < cls) → t.sys.resetting = some (cls, source) ∧
      t.sys.lastSource = source ∧ t.sys.lastClass = cls ∧ t.sys.watchdogCore = core ∧ t.sys.drained = (cls == 1) ∧
      (cls ≠ 1 → NothingRuns t ∧ SameBut [.fab, .slots, .arrays, .engines, .net, .colls, .secures, .admissions, .serves, .refresh, .host, .sys] s t) ∧
      (cls = 1 → (∀ k ∈ slotNumbers, (slotOf t k).state = 0) ∧ t.arrays = [] ∧ t.engines = [] ∧ t.fab.states = s.fab.states ∧
        t.mem.home = s.mem.home ∧ SameBut [.fresh, .out, .led, .ctr, .mem, .fab, .slots, .arrays, .engines, .net, .colls, .secures, .admissions, .serves, .refresh, .host, .sys] s t ∧ t.net = s.net)) ∧
    (s.power.sequence ≠ 0 → t = s) ∧ (∀ c, s.sys.resetting = some c → cls ≤ c.1 → t = s)) ∧
  (∀ s : State, s.power.sequence ≠ 4 → exec .powerOnReset s = .next (requestReset 0 3 255 s)) ∧
  (∀ s : State, s.power.sequence = 4 → ∃ t, exec .powerOnReset s = .next t ∧ t.power.sequence = 0 ∧ t.sys.resets = (0, 0, 0) ∧
    t.sys.resetting = some (3, 0) ∧ NothingRuns t ∧ SameBut (touches .powerOnReset) s t) ∧
  (∀ s : State, s.sys.resetting = none → s.sys.released + 170000 ≤ s.clock →
    exec .sysrst s = .next (requestReset 2 (setting s 0x1203 1) 255 s)) ∧
  (∀ (core : Nat) (s : State), (core ≤ 6 ∨ (core = 7 ∧ ∃ e ∈ s.sys.carriers, e.2 = 7)) → firmwareRuns s = true → s.sys.resetting = none →
    ∃ t, exec (.watchdogMiss core) s = .next t ∧ t.sys.resetting = some (setting s 0x1203 2, 3) ∧ t.sys.watchdogCore = core ∧
      core ∈ t.sys.failedCores ∧ SameBut (touches (.watchdogMiss core)) s t) ∧
  (∀ (who : Who) (v : Nat) (c : Instr) (s : State), (c = .resetFabric who ∧ v = 1) ∨ (c = .resetWarm who ∧ v = 2) ∨
    (c = .resetCold who ∧ v = 3) → Passes who (writeOf 0x1200 2 (le 1 v)) s → s.power.input = 0 → s.sys.resetting = none →
    (who.client = 0 ∨ ∀ k ∈ slotNumbers, (slotOf s k).state = 0 ∨ (slotOf s k).owner = who.client) →
    exec c s = .next (answered who (writeOf 0x1200 2 (le 1 v)) s (requestReset (if who.transport = 2 then 5 else 4) v 255 s)))) ∧
  ((∀ (k : Nat) (s : State), k < 88 → s.power.tripped = false → ∃ t, exec (.thermTrip k) s = .next t ∧
    t.power = { s.power with tripped := true } ∧ t.sys = { s.sys with drained := false } ∧ NothingRuns t ∧ t.mem = s.mem ∧ t.flash = s.flash ∧
    SameBut (touches (.thermTrip k)) s t) ∧
  (∀ s : State, s.power.tripped = true → (s.power.sequence = 0 ∧ s.sys.drained = true ∨ s.power.sequence = 4) →
    ∃ t, exec .thermTripRecover s = .next t ∧ t.power = { s.power with tripped := false, sequence := 0 } ∧
      t.sys.resetting = some (3, 0) ∧ t.sys.drained = true ∧ t.sys.lastSource = 0 ∧ SameBut (touches .thermTripRecover) s t))

/-! Images, and the host port. -/

/-- The code with which a firmware image that fails its check is refused: ST_RANGE for its format, ST_STATE below the anti-rollback
counter, ST_DIGEST for its signature or its digest (R486, R491). -/
def imageRefusal (r : Nat) : Nat := if r = 1 then stRange else if r = 4 then stState else stDigest

/-- The anti-rollback counter rises to a value that the running image permits, and slots below it read 3 (R492); a first segment of an image
empties the inactive slot, the last has it verified and programmed, or refused (R491); a nonce waits for its report, which carries it with
the beat count and the client, signed (R494). -/
def Obligations.ImagesAreVerifiedAndReportsSigned : Prop :=
  (∀ (who : Who) (b : Bytes) (s : State), Passes who (writeOf 0x1215 0 b) s → s.sys.fuses ≤ leNat b → leNat b ≤ 64 →
    leNat b ≤ s.sys.runningVersion →
    let mark (x : ImageSlot) : ImageSlot := if x.state = 1 ∧ x.version < leNat b then { x with state := 3 } else x
    exec (.advanceAntiRollback who b) s = .next (answered who (writeOf 0x1215 0 b) s
      { s with sys := { s.sys with fuses := leNat b, slotA := mark s.sys.slotA, slotB := mark s.sys.slotB } })) ∧
  (∀ (who : Who) (offset : Nat) (b v : Bytes) (s : State), let a : Ask := ⟨4, 0x1220, 0, offset, b.length, b, false⟩
    Passes who a s → assembled s who a = some v → v.length ≤ domainLimit (rowOf 0x1220 0) → s.sys.handover ≠ 1 →
    ∃ t, exec (.firmwareImageWrite who offset b false) s = .next (answered who a s t) ∧
      t.dict = { s.dict with partials := s.dict.partials.filter (fun p => !(p.who == who && p.key == objKey 0x1220 0)) ++
        [⟨who, objKey 0x1220 0, v⟩] } ∧
      (offset = 0 → slotImage t (inactiveSlot s) = ⟨0, 0, zeroBytes 32, []⟩) ∧ (offset ≠ 0 → t.sys = s.sys) ∧
      SameBut [.dict, .sys] s t) ∧
  (∀ (who : Who) (offset : Nat) (b v : Bytes) (s : State), let a : Ask := ⟨5, 0x1220, 0, offset, b.length, b, false⟩
    let r := verifyImage s 0 v
    reaches s who = true → entryStatus s who a = stOk → assembled s who a = some v → v.length ≤ domainLimit (rowOf 0x1220 0) →
    valueLegal (rowOf 0x1220 0) v = true → lengthLegal (rowOf 0x1220 0) v = true →
    ∃ t, exec (.firmwareImageWrite who offset b true) s =
        .next { commandRecord (entryRecord s who a (if r = 0 then stOk else imageRefusal r)) t with
          resp := ⟨if r = 0 then stOk else imageRefusal r, []⟩ } ∧
      (r = 0 → slotImage t (inactiveSlot s) = ⟨4, imageVersion v, imageDigest v, []⟩ ∧ t.sys.writing = v ∧
        t.sys.verifyResult = s.sys.verifyResult) ∧
      (r ≠ 0 → slotImage t (inactiveSlot s) = ⟨slotStateOf r, 0, zeroBytes 32, []⟩ ∧ t.sys.verifyResult = r) ∧
      SameBut [.dict, .sys] s t) ∧
  (∀ s : State, firmwareRuns s = true → (slotImage s (inactiveSlot s)).state = 4 → s.sys.fuses ≤ (slotImage s (inactiveSlot s)).version →
    ∃ t, exec .imageProgramDone s = .next t ∧ t.sys.writing = [] ∧
      slotImage t (inactiveSlot s) = { slotImage s (inactiveSlot s) with state := 1, image := s.sys.writing } ∧
      slotImage t (1 - inactiveSlot s) = slotImage s (1 - inactiveSlot s) ∧ SameBut [.sys] s t) ∧
  (∀ (who : Who) (nonce : Bytes) (s : State), Passes who (writeOf 0x1230 0 nonce) s →
    exec (.attestationNonce who nonce) s = .next (answered who (writeOf 0x1230 0 nonce) s
      { s with sys := { s.sys with nonces := kput s.sys.nonces who.client nonce } })) ∧
  (∀ (n : Nat) (nonce : Bytes) (s : State), firmwareRuns s = true → kget s.sys.nonces n = some nonce → ∃ r t, exec (.attestationSigned n) s = .next t ∧
    kget t.sys.reports n = some (r ++ padTo 384 (Config.sign r (drawn s))) ∧ field r 8 8 = s.beat.count % 2 ^ 64 ∧
    field r 18 1 = n % 256 ∧ slice r 32 32 = padTo 32 nonce ∧ slice r 64 s.sys.runningDigest.length = s.sys.runningDigest ∧
    kget t.sys.nonces n = none ∧ (∀ m, m ≠ n → kget t.sys.reports m = kget s.sys.reports m) ∧ SameBut [.sys, .fresh] s t)

/-- The PCIe link comes up at a legal rate and width and goes down without a reset, its TH requests failing (R457, R471); its retrain needs TH idle (R472); PERST_N
resets the port and the class of 1203.00 (R474); virtual functions are enabled and reset with their clients' slots (R470, R471); an unmasked
vector signals its pending message (R469). -/
def Obligations.TheHostPortTrainsAndItsFunctionsReset : Prop :=
  (∀ (rate width : Nat) (s : State), 5 ≤ rate → rate ≤ setting s 0x1402 0 → rate ≤ 7 → (width = 4 ∨ width = 8 ∨ width = 16) →
    s.host.perst = false → powered s = true →
    exec (.pcieLinkUp rate width) s = .next { s with host := { s.host with link := rate, width := width } }) ∧
  (∀ s : State, (∀ e ∈ s.engines, ∀ t ∈ e.2.outstanding, waitsInPort s t false = false ∧ waitsInPort s t true = false) →
    exec .pcieLinkDown s = .next { s with host := { s.host with link := 0, width := 0 } }) ∧
  (∀ (a : Nat) (t : Transfer) (s : State), s.engines = [(a, engineOf s a)] → (engineOf s a).outstanding = [t] →
    waitsInPort s t false = true → exec .pcieLinkDown s = .next (failRead a t { s with host := { s.host with link := 0, width := 0 } })) ∧
  (∀ (who : Who) (b : Bytes) (s : State), Passes who (writeOf 0x1403 0 b) s → hostOutstanding s = false →
    exec (.pcieRetrainNow who b) s = .next (answered who (writeOf 0x1403 0 b) s { s with host := { s.host with link := 1, width := 0 } })) ∧
  (∀ s : State, ∃ u, exec .perst s = .next (if setting u 0x1203 0 = 0 then u else requestReset 1 (setting u 0x1203 0) 255 u) ∧
    u.host.perst = true ∧ u.host.link = 1 ∧ u.host.width = 0 ∧ u.host.vfs = 0 ∧ kget u.dict.mailboxes 0 = none ∧
    (∀ v ∈ u.host.unmasked, v / 2048 ≠ 0) ∧ (∀ e ∈ u.host.windows ++ u.host.windowsSet, e.1 / 64 ≠ 0) ∧ u.sys = s.sys ∧ SameBut (touches .perst) s u) ∧
  (∀ s : State, exec .perstRelease s = .next { s with host := { s.host with perst := false } }) ∧
  (∀ (k : Nat) (s : State), k ≤ 63 → s.host.vfs = 0 → s.host.module ≠ 0 →
    exec (.vfEnable k) s = .next { s with host := { s.host with vfs := k } }) ∧
  (∀ s : State, ∃ t, exec .vfDisable s = .next t ∧ t.host.vfs = 0 ∧
    (∀ f, 1 ≤ f → f ≤ s.host.vfs → kget t.dict.mailboxes f = none ∧ (∀ v ∈ t.host.unmasked, v / 2048 ≠ f)) ∧
    SameBut (touches .vfDisable) s t) ∧
  (∀ (f : Nat) (s : State), 1 ≤ f → f ≤ s.host.vfs → ∃ t, exec (.functionLevelReset f) s = .next t ∧ t.host.vfs = s.host.vfs ∧
    kget t.dict.mailboxes f = none ∧ (∀ v, v ∈ t.host.unmasked ↔ v ∈ s.host.unmasked ∧ v / 2048 ≠ f) ∧
    (∀ e, e ∈ t.host.windows ↔ e ∈ s.host.windows ∧ e.1 / 64 ≠ f) ∧ (∀ e, e ∈ t.host.windowsSet ↔ e ∈ s.host.windowsSet ∧ e.1 / 64 ≠ f) ∧
    (∀ k ∈ slotsHeld s f, (slotOf s k).state = 2 → (slotOf t k).state = 3) ∧
    (∀ k ∈ slotsHeld s f, (slotOf s k).state = 1 → (slotOf t k).state = 0) ∧ SameBut (touches (.functionLevelReset f)) s t) ∧
  (∀ (f v : Nat) (s : State), (f = 0 ∧ v < 2048 ∨ 0 < f ∧ f ≤ s.host.vfs ∧ v < 32) → ∃ t, exec (.msixUnmask f v) s = .next t ∧
    f * 2048 + v ∈ t.host.unmasked ∧ f * 2048 + v ∉ t.host.pendingBits ∧
    t.out = s.out ++ (if f * 2048 + v ∈ s.host.pendingBits then [.message f v] else []) ∧ SameBut [.out, .host] s t)

/-- The boot doorbell joins segments and verifies the image after the last (R464, R489). A cargo window is set, to follow at the next beat
(R75), and the one in use is read and written through BAR4 (R465, R466); 1411.00 is cleared by its read (R472); the configuration space
presents the identity of R458. -/
def Obligations.TheBootAndCargoWindowsServeTheHost : Prop :=
  (∀ (value : Word) (segment : Bytes) (s : State), let n := value.toNat % 2 ^ 24
    s.sys.straps / 4 % 4 = 2 → s.host.module = 0 → s.host.bootStatus ≠ 1 → s.host.bootStatus ≠ 2 → bits value.toNat 30 24 = 0 →
    s.sys.resetting = none → powered s = true →
    let image := (if s.host.bootStatus = 4 then [] else s.host.bootImage) ++ padTo n segment
    ∃ t, exec (.bootDoorbell value segment) s = .next t ∧ SameBut [.out, .host, .sys] s t ∧
      (value.msb = false → t.host.bootStatus = 0 ∧ t.host.bootImage = image ∧ t.host.module = 0 ∧ t.sys = s.sys) ∧
      (value.msb = true → verifyImage s 0 image = 0 → t.host.bootStatus = 3 ∧ t.host.module = 1 ∧ t.sys.bootResult = 2 ∧
        t.sys.runningVersion = imageVersion image ∧ t.sys.runningDigest = imageDigest image) ∧
      (value.msb = true → verifyImage s 0 image ≠ 0 → t.host.bootStatus = 4 ∧ t.host.bootImage = [] ∧ t.host.module = 0 ∧
        t.sys.verifyResult = verifyImage s 0 image)) ∧
  (∀ (who : Who) (w i : Nat) (c : Cargo) (b : Bytes) (s : State), Passes who (lastOf 0x1410 w b) s →
    cargoOf s (winHandle b) = some (i, c) → c.client = who.client → c.state ≠ 2 → field b 12 1 ≤ 3 → zeroAt b 13 3 = true →
    winHandle b ≠ 0xFFFFFFFF → winFirst b + winPages b ≤ c.pageCount → winPages b * pageBytes ≤ apertureBytes s who.client →
    exec (.bar4WindowSet who w b) s = .next (answered who (lastOf 0x1410 w b) s (let u := begun who (lastOf 0x1410 w b) s
      { u with host := { u.host with windowsSet := kput u.host.windowsSet (who.client * 64 + w) b } }))) ∧
  (∀ (who : Who) (s : State), Passes who (readOf 0x1411 0) s → ∃ t, exec (.readRefusedWindows who) s = .next t ∧
    t.resp = ⟨stOk, le 8 (kgetD 0 s.host.refused who.client)⟩ ∧ t.host = { s.host with refused := kdel s.host.refused who.client } ∧
    SameBut [.host, .resp] s t) ∧
  (∀ (f offset length : Nat) (data : Option Bytes) (s : State), hasFunction s f = true → 5 ≤ s.host.link →
    offset < 64 * apertureBytes s f → windowAt s f offset length false = none →
    exec (.bar4Read f offset length data) s = .next { s with out := s.out ++ [.completion f (some (zeroBytes length))] }) ∧
  (∀ (f offset length w i a : Nat) (data : Option Bytes) (s : State), hasFunction s f = true → 5 ≤ s.host.link →
    offset < 64 * apertureBytes s f → windowAt s f offset length false = some (w, i, a) →
    let c := kgetD Cargo.free s.mem.cargoes i
    (c.state ≠ 2 → (∀ p ∈ pagesOf a length, unmapped s i p = false) → c.farCached = false →
      (c.tier ≠ 4 →
        exec (.bar4Read f offset length data) s = .next { s with out := s.out ++ [.completion f (some (cargoBytes s i a length))] }) ∧
      (∀ b, c.tier = 4 → data = some b →
        exec (.bar4Read f offset length data) s = .next { s with out := s.out ++ [.completion f (some (padTo length b))] })) ∧
    (c.state ≠ 2 → c.farCached = true → (∀ p ∈ pagesOf a length, fetchesHome s i p = false ∧ (frameOf s i p).all (fun x => !x.refilling) = true) →
      ∃ t, exec (.bar4Read f offset length data) s = .next t ∧ t.out = s.out ++ [.completion f (some (cargoBytes s i a length))] ∧
        t.mem.home = s.mem.home ∧ t.mem.cached = s.mem.cached ∧ SameBut (touches (.bar4Read f offset length data)) s t) ∧
    (c.state = 2 ∨ (c.farCached = false ∧ ((∃ p ∈ pagesOf a length, unmapped s i p = true) ∨ c.tier = 4 ∧ data = none)) →
      ∃ t, exec (.bar4Read f offset length data) s = .next t ∧ t.out = s.out ++ [.completion f none] ∧
      t.mem = s.mem ∧ t.led.events = (s.led.events + 1) % 2 ^ 64 ∧ SameBut [.out, .led, .ctr] s t)) ∧
  (∀ (f offset w i a : Nat) (data : Bytes) (s : State), hasFunction s f = true → 5 ≤ s.host.link → offset < 64 * apertureBytes s f →
    data ≠ [] → windowAt s f offset data.length true = some (w, i, a) →
    let c := kgetD Cargo.free s.mem.cargoes i
    (c.state = 2 ∨ (c.farCached = false ∧ c.tier = 4 ∧ ∃ p ∈ pagesOf a data.length, unmapped s i p = true) →
      exec (.bar4Write f offset data) s = .next s) ∧
    (c.state ≠ 2 → c.tier ≠ 3 → c.tier ≠ 4 → c.farCached = false → (∀ p, frameOf s i p = none) → ∃ t, exec (.bar4Write f offset data) s = .next t ∧
      (∀ k, k < data.length → loadByte t.mem.home (i * cargoSpan + a + k) = data.getD k 0) ∧
      (∀ x, (∀ k, k < data.length → x ≠ i * cargoSpan + a + k) → loadByte t.mem.home x = loadByte s.mem.home x) ∧
      t.out = s.out ∧ SameBut (touches (.bar4Write f offset data)) s t)) ∧
  (∀ (f offset : Nat) (data : Bytes) (s : State), windowAt s f offset data.length true = none →
    exec (.bar4Write f offset data) s = .next s) ∧
  (∀ s : State, configIdentity State.reset 0 = some ⟨0x1F3C, 0xE201, 0xE202, 0x120000, 0x1F3C, 1, 1⟩ ∧
    (∀ f, 1 ≤ f → f ≤ s.host.vfs →
      configIdentity s f = (configIdentity s 0).map (fun x => { x with device := x.vfDevice })))

/-! Request frames. -/

/-- A frame of an open session arrives: on the management port (transport 1), or by peer access over a chip link (transport 2, whose
connections the model numbers from 2^16 on by link); its size and its tag are good (R88, R89, R348). -/
structure OnSession (ins : Instr) (conn transport : Nat) (frame : Bytes) (x : Session) (s : State) : Prop where
  arrives : (ins = .voaRequestFrame conn frame ∧ transport = 1) ∨
    (∃ link, ins = .peerAccessFrame link (deviceNumber s) frame ∧ conn = 2 ^ 16 + link ∧ transport = 2 ∧ linkIsUp s link = true)
  runs : firmwareRuns s = true
  session : s.dict.sessions.find? (fun x => x.id == fSession frame && x.transport == transport) = some x
  size : 40 ≤ frame.length ∧ frame.length ≤ 1472
  tag : sessionTag x.key (frame.take (frame.length - 16)) = frame.drop (frame.length - 16)

/-- A request frame runs its entries in order and is answered by one response frame, in the mailbox with its count raised (R462, R463) or
on the session with its tag (R88, R91); a repeated sequence number is answered from the stored response, a lower one dropped, a bad tag
dropped and counted (R92); an unknown session gets ST_AUTH; peer access goes on hop by hop (R348). -/
def Obligations.RequestFramesRunTheirEntries : Prop :=
  (∀ (f : Nat) (value : Word) (frame : Bytes) (asks : List Ask) (s : State), hasFunction s f = true → firmwareRuns s = true →
    doorbellStatus f value frame = 0 →
    parseEntries (fStaged frame) (fEntries frame) (slice frame 24 (fPayload frame)) = some asks →
    let r := runEntries ⟨f, 0, 0⟩ asks 4056 (modMailbox f (fun m => { m with request := frame, status := 0 }) s)
    let b := frameHeader 1 0 0 asks.length r.1.length f ++ r.1
    ∃ t, exec (.mailboxDoorbell f value frame) s = .next t ∧ (kgetD Mailbox.empty t.dict.mailboxes f).response = b ∧
      (kgetD Mailbox.empty t.dict.mailboxes f).count = ((kgetD Mailbox.empty r.2.dict.mailboxes f).count + 1) % 2 ^ 32 ∧
      t.out = r.2.out ++ [.mailbox f b] ++ (if f * 2048 ∈ r.2.host.unmasked then [.message f 0] else []) ∧
      SameBut [.dict, .out, .host] r.2 t) ∧
  (∀ (f : Nat) (value : Word) (frame : Bytes) (s : State), hasFunction s f = true → firmwareRuns s = true →
    doorbellStatus f value frame ≠ 0 → exec (.mailboxDoorbell f value frame) s =
      .next (modMailbox f (fun m => { m with request := frame, status := doorbellStatus f value frame }) s)) ∧
  (∀ (who : Who) (room : Nat) (a : Ask) (rest : List Ask) (s : State),
    let u := runEntry who a (room - 10 * (rest.length + 1)) s
    let b := answerEntry a u.resp
    runEntries who (a :: rest) room s = (b ++ (runEntries who rest (room - b.length) u).1, (runEntries who rest (room - b.length) u).2)) ∧
  (∀ (ins : Instr) (conn transport : Nat) (frame : Bytes) (asks : List Ask) (x : Session) (s : State), OnSession ins conn transport frame x s →
    x.lastSeq.all (fun q => decide (q < fSequence frame)) = true → headerFault frame = false → fClient frame = x.client →
    fPayload frame = frame.length - 40 →
    parseEntries (fStaged frame) (fEntries frame) (slice frame 24 (frame.length - 40)) = some asks →
    let r := runEntries ⟨x.client, transport, x.id⟩ asks 1432 (modSession x.id (fun y => { y with lastFrame := s.clock }) s)
    let plain := frameHeader 1 x.id (fSequence frame) asks.length r.1.length x.client ++ r.1
    let b := plain ++ sessionTag x.key plain
    ∃ t, exec ins s = .next t ∧ t.out = r.2.out ++ [.frame conn b] ∧ SameBut [.dict, .out] r.2 t ∧
      t.dict.sessions = r.2.dict.sessions.map (fun y => if y.id = x.id then { y with lastSeq := some (fSequence frame), stored := b } else y)) ∧
  (∀ (ins : Instr) (conn transport q : Nat) (frame : Bytes) (x : Session) (s : State), OnSession ins conn transport frame x s →
    fKind frame ≠ 6 → x.lastSeq = some q →
    let u := modSession x.id (fun y => { y with lastFrame := s.clock }) s
    (fSequence frame = q → exec ins s = .next { u with out := s.out ++ [.frame conn x.stored] }) ∧
    (fSequence frame < q → exec ins s = .next (count 0x5015 0 1 u))) ∧
  (∀ (ins : Instr) (conn transport : Nat) (frame : Bytes) (x : Session) (s : State), OnSession ins conn transport frame x s →
    fKind frame = 6 → ∃ t, exec ins s = .next t ∧ t.dict.sessions = s.dict.sessions.filter (fun y => y.id != x.id) ∧ SameBut [.dict] s t) ∧
  (∀ (conn : Nat) (frame : Bytes) (s : State), firmwareRuns s = true →
    s.dict.sessions.find? (fun x => x.id == fSession frame && x.transport == 1) = none →
    exec (.voaRequestFrame conn frame) s = .next { s with resp := ⟨stAuth, []⟩, out := s.out ++ [.frame conn
      (frameHeader 1 (fSession frame) (fSequence frame) 1 10 (fClient frame) ++ le 1 stAuth ++ zeroBytes 9)] }) ∧
  (∀ (conn : Nat) (frame : Bytes) (x : Session) (s : State), firmwareRuns s = true →
    s.dict.sessions.find? (fun x => x.id == fSession frame && x.transport == 1) = some x → 40 ≤ frame.length →
    sessionTag x.key (frame.take (frame.length - 16)) ≠ frame.drop (frame.length - 16) →
    exec (.voaRequestFrame conn frame) s = .next (count 0x5014 0 1 s)) ∧
  (∀ (link dest l : Nat) (frame : Bytes) (s : State), firmwareRuns s = true → linkIsUp s link = true → dest ≠ deviceNumber s →
    peerLinkTo s dest = some l → ∃ t, exec (.peerAccessFrame link dest frame) s = .next t ∧
      t.out = s.out ++ [.control l 5 frame] ∧ (∀ j, j ≠ l → linkOf t j = linkOf s j) ∧ SameBut [.out, .net] s t)

/-! Chip links and Ethernet ports. -/

/-- A lane that fails leaves its link on three lanes, quiet for 4 µs, with EVT_LANE_FAIL, and a second one takes the link down; the spare
lane is trained, joins, and the far end follows (R337, R340). A link that is down, or is told to, trains again; one that comes up sends its
identity, and the far end's names the peer and has the latency measured (R340, R341, R49, R358); an equal device number is a clash and a
device taken over is kept out (R341, R383). A digest frame is compared at its beat count (R347, R401). -/
def Obligations.LinksTrainLoseLanesAndNameThemselves : Prop :=
  ((∀ (l lane : Nat) (s : State), let x := linkOf s l
    linkIsUp s l = true → (lane < 4 ∧ lane ∉ x.failed ∨ lane = 16 ∧ x.spare = true) →
    (x.state = 2 → 3 < lanesInUse x → ∃ t, exec (.laneFail l lane) s = .next t ∧ (linkOf t l).state = 3 ∧ (linkOf t l).quietUntil = s.clock + 6800 ∧
      (linkOf t l).failed = (if lane = 16 then x.failed else x.failed ++ [lane]) ∧ (linkOf t l).spare = (x.spare && lane != 16) ∧
      (linkOf t l).spareStep = (if flagSet s 0x3803 0 = true ∧ spareBusy s l = false ∧ lane ≠ 16 then 1 else 0) ∧
      (linkOf t l).retry = x.retry ∧ (linkOf t l).queues = x.queues ∧ (linkOf t l).txSeq = x.txSeq ∧ (linkOf t l).rxSeq = x.rxSeq ∧
      (∀ j, j ≠ l → linkOf t j = linkOf s j) ∧ t.out = s.out ++ [.control l 8 (le 1 lane ++ le 1 0)] ∧
      t.led.events = (s.led.events + 1) % 2 ^ 64 ∧ SameBut [.out, .led, .ctr, .net] s t) ∧
    (lanesInUse x ≤ 3 → ∃ t, exec (.laneFail l lane) s = .next t ∧ (linkOf t l).state = 4 ∧ (linkOf t l).spareStep = 0 ∧
      (linkOf t l).resend = x.retry.head?.map (·.1) ∧ (linkOf t l).retry = x.retry ∧ (∀ j, j ≠ l → linkOf t j = linkOf s j) ∧
      t.led.events = (s.led.events + 2) % 2 ^ 64 ∧ SameBut [.led, .ctr, .net] s t)) ∧
  (∀ (l : Nat) (s : State), (linkOf s l).spareStep = 1 →
    exec (.spareLaneTrained l) s = .next (modLink l (fun x => { x with spareStep := 2 }) s)) ∧
  (∀ (l : Nat) (s : State), (linkOf s l).spareStep = 2 → (linkOf s l).state = 3 → s.clock = s.beat.opened → ∃ t, exec (.spareLaneJoin l) s = .next t ∧
    (linkOf t l).state = 2 ∧ (linkOf t l).spare = true ∧ (linkOf t l).spareStep = 0 ∧ (linkOf t l).failed = (linkOf s l).failed ∧
    t.out = s.out ++ [.control l 8 (le 1 16 ++ le 1 1)] ∧ SameBut [.out, .net] s t) ∧
  (∀ (l lane : Nat) (s : State), linkIsUp s l = true →
    exec (.laneControlFrame l lane 1) s = .next (modLink l (fun x => { x with spare := true, spareStep := 0, state := 2 }) s) ∧
    (lane < 4 → lane ∉ (linkOf s l).failed → 3 < lanesInUse (linkOf s l) → exec (.laneControlFrame l lane 0) s =
      .next (modLink l (fun x => { x with failed := x.failed ++ [lane], state := 3, quietUntil := s.clock + 6800 }) s)) ∧
    (lane < 4 → lane ∉ (linkOf s l).failed → lanesInUse (linkOf s l) ≤ 3 → ∃ t, exec (.laneControlFrame l lane 0) s = .next t ∧
      (linkOf t l).state = 4 ∧ t.led.events = (s.led.events + 1) % 2 ^ 64 ∧ SameBut [.led, .ctr, .net] s t))) ∧
  ((∀ (l : Nat) (s : State), (linkOf s l).state = 4 → mayTrain s l = true →
    exec (.linkRetrain l) s = .next (modLink l (fun x => { x with state := 1 }) s)) ∧
  (∀ (who : Who) (l : Nat) (b : Bytes) (s : State), Passes who (writeOf 0x3804 l b) s → linkNamed s l = false → mayTrain s l = true →
    exec (.retrainLinkNow who l b) s = .next (answered who (writeOf 0x3804 l b) s (modLink l (fun x => { x with
      state := 1, spareStep := 0, resend := x.retry.head?.map (·.1), peer := 0xFFFF, peerLink := 0xFF }) s))) ∧
  (∀ (l : Nat) (s : State), l < 64 → (linkOf s l).state = 1 → mayTrain s l = true → ∃ t, exec (.linkUp l) s = .next t ∧
    (linkOf t l).state = (if lanesInUse (linkOf s l) ≤ 3 then 3 else 2) ∧ (linkOf t l).peer = 0xFFFF ∧
    (linkOf t l).retry = (linkOf s l).retry ∧ (∀ j, j ≠ l → linkOf t j = linkOf s j) ∧
    t.out = s.out ++ [.control l 9 (le 2 (deviceNumber s) ++ le 1 l)] ∧ SameBut [.out, .net] s t) ∧
  (∀ (l device peerLink : Nat) (s : State), linkIsUp s l = true → ∃ t, exec (.identityFrame l device peerLink) s = .next t ∧
    (linkOf t l).peer = device ∧ (linkOf t l).peerLink = peerLink ∧ linkClash t l = (device == deviceNumber s) ∧
    (linkOf t l).takenOver = s.net.failedDevices.contains device ∧ (linkOf t l).state = (linkOf s l).state ∧
    (device ≠ deviceNumber s → device ∉ s.net.failedDevices → t.led.events = s.led.events) ∧
    (device = deviceNumber s → device ∉ s.net.failedDevices → t.led.events = (s.led.events + 1) % 2 ^ 64) ∧
    (device ≠ deviceNumber s → device ∈ s.net.failedDevices → t.led.events = (s.led.events + 1) % 2 ^ 64) ∧
    t.out = s.out ++ [.control l 2 (le 8 s.clock)] ∧ t.beat = { s.beat with probes := kput s.beat.probes l s.clock } ∧
    (∀ j, j ≠ l → linkOf t j = linkOf s j) ∧ SameBut (touches (.identityFrame l device peerLink)) s t) ∧
  (∀ (l beat : Nat) (d own : Bytes) (s : State), linkIsUp s l = true → digestAt s beat = some own →
    (own = d → exec (.digestFrame l d beat) s = .next { s with net := { s.net with diverged := s.net.diverged.filter (· != l) } }) ∧
    (own ≠ d → ∃ t, exec (.digestFrame l d beat) s = .next t ∧ l ∈ t.net.diverged ∧ t.net.links = s.net.links ∧
      t.led.events = (s.led.events + 1) % 2 ^ 64 ∧ SameBut [.led, .ctr, .net] s t)) ∧
  (∀ (l beat : Nat) (d : Bytes) (s : State), digestAt s beat = none → exec (.digestFrame l d beat) s = .next s))

/-- A flit slot sends what is to be resent, else a control frame, else the channel's next flit against one credit of its grant, else an idle
flit or one that returns credits; a sent flit is numbered and kept until it is acknowledged (R338, R339, R343, R345). What the FEC decoder corrects and cannot correct is counted (R336).
Flits are taken in order; a bad header asks for a resend; a data flit goes to its tile or on by its route's table (R339, R344); a repeated
request takes the link down (R340). -/
def Obligations.FlitsAreNumberedCreditedAndResent : Prop :=
  (∀ (l c : Nat) (f : Flit) (rest : List Flit) (s : State), let x := linkOf s l
    linkIsUp s l = true → x.quietUntil ≤ s.clock → x.resend = none → x.retry.length < 512 →
    (x.control = f :: rest ∨ x.control = [] ∧ kgetD [] x.queues c = f :: rest ∧ ¬(c = 63 ∧ othersReady s l = true) ∧ creditLeft s l c ≠ 0) →
    ∃ t, exec (.flitSend l c) s = .next t ∧ t.out = s.out ++ [.flit l (flitHeader f x.txSeq (x.rxSeq + 4095) (owedCredit x)) f.payload] ∧
      (linkOf t l).txSeq = (x.txSeq + 1) % 4096 ∧ (linkOf t l).retry = x.retry ++ [(x.txSeq, f)] ∧ (linkOf t l).rxSeq = x.rxSeq ∧
      (x.control ≠ [] → (linkOf t l).control = rest ∧ (linkOf t l).queues = x.queues ∧ (linkOf t l).spent = x.spent) ∧
      (x.control = [] → kgetD [] (linkOf t l).queues c = rest ∧ kgetD 0 (linkOf t l).spent c = kgetD 0 x.spent c + 1) ∧
      (f.via = none → (linkOf t l).owed = owedAfter x) ∧
      (∀ u, f.via = some u → u ≠ l → kgetD 0 (linkOf t u).owed f.channel = kgetD 0 (linkOf s u).owed f.channel + 1) ∧
      SameBut [.out, .ctr, .net] s t) ∧
  (∀ (l c : Nat) (s : State), let x := linkOf s l
    let idle (s : State) : State := { modLink l (fun x => { x with owed := owedAfter x }) s with out := s.out ++ [.flit l
      (flitHeader ⟨if x.owed = [] then 0 else 2, false, false, 0, 0, 0, 0, [], none⟩ x.txSeq (x.rxSeq + 4095) (owedCredit x)) []] }
    linkIsUp s l = true → x.quietUntil ≤ s.clock → x.resend = none →
    (512 ≤ x.retry.length ∨ (x.control = [] ∧ (kgetD [] x.queues c = [] ∨ (c = 63 ∧ othersReady s l = true))) →
      exec (.flitSend l c) s = .next (idle s)) ∧
    (x.retry.length < 512 → x.control = [] → kgetD [] x.queues c ≠ [] → ¬(c = 63 ∧ othersReady s l = true) → creditLeft s l c = 0 →
      exec (.flitSend l c) s = .next (idle (count (0x5600 + l) c 1 s)))) ∧
  (∀ (l c q : Nat) (f : Flit) (s : State), let x := linkOf s l
    linkIsUp s l = true → x.quietUntil ≤ s.clock → x.resend = some q → x.retry.find? (fun e => e.1 == q) = some (q, f) →
    ∃ t, exec (.flitSend l c) s = .next t ∧ t.out = s.out ++ [.flit l (flitHeader f q (x.rxSeq + 4095) none) f.payload] ∧
      (linkOf t l).retry = x.retry ∧ (linkOf t l).txSeq = x.txSeq ∧
      (linkOf t l).resend = ((x.retry.dropWhile (fun e => e.1 != q)).drop 1).head?.map (·.1) ∧ SameBut [.out, .ctr, .net] s t) ∧
  (∀ (l x y : Nat) (h p : Bytes) (s : State), linkIsUp s l = true → flitOk h = false → ∃ t, exec (.flitReceive l h p x y) s = .next t ∧
    (linkOf t l) = { linkOf s l with discarding := true } ∧
    t.out = s.out ++ (if (linkOf s l).discarding then [] else [.retry l (linkOf s l).rxSeq]) ∧
    kgetD 0 t.ctr.live (0x5504 * 256 + l) = min (kgetD 0 s.ctr.live (0x5504 * 256 + l) + x) (2 ^ 64 - 1) ∧
    kgetD 0 t.ctr.live (0x5505 * 256 + l) = min (kgetD 0 s.ctr.live (0x5505 * 256 + l) + y) (2 ^ 64 - 1) ∧
    SameBut [.out, .ctr, .net] s t) ∧
  (∀ (l x y : Nat) (h p : Bytes) (s : State), linkIsUp s l = true → flitOk h = true → (field h 0 1 / 16 = 1 ∨ field h 0 1 / 16 = 3) →
    (field h 2 2 % 4096 ≠ (linkOf s l).rxSeq → ∃ t, exec (.flitReceive l h p x y) s = .next t ∧ (linkOf t l).rxSeq = (linkOf s l).rxSeq ∧
      t.out = s.out ∧ SameBut [.ctr, .net] s t) ∧
    (field h 2 2 % 4096 = (linkOf s l).rxSeq → ∃ u, (linkOf u l).rxSeq = ((linkOf s l).rxSeq + 1) % 4096 ∧ (linkOf u l).discarding = false ∧
      (bit (field h 4 2) 15 = true → ∀ e, e ∈ (linkOf u l).retry ↔
        e ∈ (linkOf s l).retry ∧ 2048 ≤ seqDistance e.1 (field h 4 2 % 4096)) ∧ SameBut [.ctr, .net] s u ∧
      exec (.flitReceive l h p x y) s = .next (if field h 0 1 / 16 = 1 then takeData l h p u else u))) ∧
  (∀ (l out : Nat) (r : Route) (h p : Bytes) (s : State), field h 8 2 % 32768 ≠ deviceNumber s →
    routeOf s (field h 10 1 % 4) = some r → routeLink r (field h 10 1 / 32) (field h 8 2 % 32768) (sideOf l) = some out →
    let c := field h 1 1 % 64
    ∃ f, kgetD [] (linkOf (takeData l h p s) out).queues c = kgetD [] (linkOf s out).queues c ++ [f] ∧ f.channel = c ∧
      f.payload = p.take (field h 6 2) ∧ f.via = some l ∧ SameBut [.net, .ctr] s (takeData l h p s)) ∧
  (∀ (l slot : Nat) (r : Route) (o : StreamRow) (h p : Bytes) (s : State), field h 8 2 % 32768 = deviceNumber s →
    slot = field h 10 1 % 4 → bit (field h 0 1) 1 = true → routeOf s slot = some r →
    let c := field h 1 1 % 64
    let b := (if bit (field h 0 1) 0 then [] else kgetD [] (linkOf s l).parts c) ++ p.take (field h 6 2)
    ((b.length = 4 ∧ ownStream r l c = some o) ∨ (b.length ≠ 4 ∧ peerStream r l c = some o) →
    ∃ u, takeData l h p s = (if b.length = 4 then addCredit slot o.number (field b 0 2) u
        else putStaged slot o.number ⟨b.take 32, b.drop 32⟩ u) ∧ kget (linkOf u l).parts c = none ∧
      kgetD 0 (linkOf u l).owed c = kgetD 0 (linkOf s l).owed c + 1 ∧ SameBut [.net] s u)) ∧
  (∀ (l q : Nat) (s : State), let x := linkOf s l
    let n := if x.askedSeq = some (q % 4096) then x.asked + 1 else 1
    linkIsUp s l = true →
    (n < setting s 0x3802 0 → ∃ t, exec (.retryRequest l q) s = .next t ∧ (linkOf t l).asked = n ∧ (linkOf t l).state = x.state ∧
      ((∃ e ∈ x.retry, e.1 = q % 4096) → (linkOf t l).resend = some (q % 4096)) ∧ SameBut [.net] s t) ∧
    (setting s 0x3802 0 ≤ n → ∃ t, exec (.retryRequest l q) s = .next t ∧ (linkOf t l).state = 4 ∧
      t.led.events = (s.led.events + 1) % 2 ^ 64 ∧ SameBut [.led, .ctr, .net] s t))

/-- Links 62 and 63 are told to change between chip-link and Ethernet mode, and do when the hardware takes the value at the next beat (R354, R75); a direct port negotiates, comes up and goes down, and the management
port answers echo and address requests (R355, R359). A datagram of an enabled flow becomes a request of the Port station's next free slot, and
one that finds no slot free is answered at once with ST_CAPACITY (R356, R431). -/
def Obligations.EthernetPortsNegotiateAndTakeDatagrams : Prop :=
  (∀ (who : Who) (l v : Nat) (ins : Instr) (s : State), (ins = .portModeChipLink who l ∧ v = 0) ∨
      (ins = .portModeEthernet who l v ∧ (v = 1 ∨ v = 2)) → Passes who (writeOf 0x2F20 l (le 1 v)) s →
    linkNamed s l = false → portNames s l = false → ∃ t, exec ins s = .next (answered who (writeOf 0x2F20 l (le 1 v)) s t) ∧
      kget t.dict.objs (objKey 0x2F20 l) = some (le 1 v) ∧ t.dict.inUse = s.dict.inUse ∧ SameBut [.dict, .flash] s t) ∧
  (∀ (l : Nat) (s : State), (l = 62 ∨ l = 63) → changes s 0x2F20 l = true → leNat (stored s 0x2807 l) = 1 →
    let v := leNat (stored s 0x2F20 l)
    linkOf (takeValues s) l = { Link.reset with state := if v = 0 then 1 else 5, port := if v = 0 then 0 else 1, failed := (linkOf s l).failed }) ∧
  (∀ (l : Nat) (s : State), (linkOf s l).state = 5 →
    exec (.autoNegotiationDone l) s = .next (modLink l (fun x => { x with port := 2 }) s) ∧
    exec (.ethernetPortDown l) s = .next (modLink l (fun x => { x with port := 0 }) s)) ∧
  (∀ s : State, firmwareRuns s = true → exec .managementLinkUp s = .next { s with net := { s.net with management := 1 } } ∧
    exec .managementLinkDown s = .next { s with net := { s.net with management := 0 } }) ∧
  (∀ (k : Nat) (b : Bytes) (s : State), s.net.management = 1 → k < 4 → firmwareRuns s = true → exec (.managementEchoRequest k b) s =
    .next { s with out := s.out ++ [.echo k (if k % 2 = 1 then b else le 6 Config.managementMac)] }) ∧
  (∀ (l : Nat) (d : Datagram) (s : State), (linkOf s l).state = 5 → (linkOf s l).port = 2 → alive s = true → d.fcsOk = false →
    exec (.datagramReceive l d) s = .next (count 0x551A l 1 (count 0x5518 l 1 s))) ∧
  (∀ (l f slot : Nat) (d : Datagram) (r : Route) (p : Bytes) (s : State), (linkOf s l).state = 5 → (linkOf s l).port = 2 → alive s = true →
    d.fcsOk = true → d.protoOk = true → 64 ≤ d.length → d.length ≤ 9018 →
    (List.range 64).find? (fun f => flowMatches s l f d) = some f → slot = setting s 0x2F47 f / 2 ^ 14 → routeOf s slot = some r →
    r.training = false → portRecord r (setting s 0x2F47 f % 4096) = some p → portPath p + 61 = l →
    (∀ i, nextLine s slot p = some i → exec (.datagramReceive l d) s = .next (admitQuery slot i (resultPort s f d.srcPort) f p (d.payload.take 32)
      (d.payload.drop 32) (count 0x5518 l 1 s))) ∧
    (nextLine s slot p = none → ∃ t, exec (.datagramReceive l d) s = .next t ∧ t.out = s.out ++ [.datagram l f (le 2 (resultPort s f d.srcPort) ++
      resultLine (qSequence (d.payload.take 32)) (field (d.payload.take 32) 12 4) 2 stCapacity 0 [])] ∧ SameBut [.out, .ctr] s t))

/-! The deadline path. -/

/-- A request posted in BAR2 takes its free line and waits for entry with its deadline, or is answered at once with ST_RANGE when it is malformed
(R428-R431); the cone answers in its cycle with the primary, the fallback, or not ready (R434, R435, R437); a release frees its line (R440); a
refresh copies pages into the bank not in force, and the banks swap at the route's first beat once all is copied (R443, R444). -/
def Obligations.RequestsAreAnsweredAndBanksSwap : Prop :=
  (∀ (n slot offset : Nat) (data : Bytes) (r : Route) (p : Bytes) (s : State), regionOpen s n slot = true → offset < 0x2000000 → data ≠ [] →
    routeOf s slot = some r →
    let i := offset / 0x2000
    let u := modServe slot (fun x => { x with region := storeBytes x.region offset data }) s
    let h := loadBytes (serveOf u slot).region (i * 0x2000) 32
    (¬(offset % 0x2000 ≤ 24 ∧ 28 ≤ offset % 0x2000 + data.length) → exec (.requestPost n slot offset data) s = .next u) ∧
    (offset % 0x2000 ≤ 24 → 28 ≤ offset % 0x2000 + data.length →
      r.plan.ports.find? (fun p => portPath p == 0 && inRing p i) = some p →
      (lineFree u slot i = true → exec (.requestPost n slot offset data) s = .next (autoRelease slot i p (admitQuery slot i 0 0 p h
        (loadBytes (serveOf u slot).region (i * 0x2000 + 32) (min 8160 (qLength h))) u))) ∧
      (lineFree u slot i = false → exec (.requestPost n slot offset data) s = .next (countServe slot (field p 0 2) 9 1 u)))) ∧
  (∀ (slot line port flow : Nat) (p h b : Bytes) (s : State), let t := admitQuery slot line port flow p h b s
    (malformed h b.length = false → (∀ q : Query, q.deadline = s.clock + qBudget h → q.egress = egressOf s p →
        entersLate s slot q ((slotOf s slot).beat.opened + (slotOf s slot).beat.length) = false) →
      ∃ q ∈ (serveOf t slot).requests, q.line = line ∧ q.sequence = qSequence h ∧ q.payload = b.take (qLength h) ∧ q.arrival = s.clock ∧
        q.deadline = s.clock + qBudget h ∧ q.phase = 0 ∧ q.decided = false ∧ line ∉ (serveOf t slot).released ∧
        SameBut [.serves, .ctr] s t) ∧
    (malformed h b.length = true → portOf s slot (field p 0 2) = some p → portPath p = 0 →
      (∃ q ∈ (serveOf t slot).requests, q.line = line ∧ q.phase = 2 ∧ q.decided = true) ∧
      kget (serveOf t slot).lines line = some (resultLine (qSequence h) (field h 12 4) 2 stRange 0 []))) ∧
  (∀ (slot line : Nat) (q : Query) (p : Bytes) (s : State), queryOf s slot line = some q → portOf s slot q.station = some p →
    let d := coneRule s slot q (portEarly p)
    q.decided = false → q.phase ≠ 0 →
    (d.2.2.1 ≤ s.clock → ∃ t x, exec (.coneRelease slot line) s = .next t ∧ queryOf t slot line = some x ∧ x.decided = true ∧
      (portPath p = 0 → kget (serveOf t slot).lines line =
        some (resultLine q.sequence q.word d.1 d.2.1 (d.2.2.1 - q.arrival) d.2.2.2.2)) ∧
      SameBut [.out, .ctr, .serves, .host] s t) ∧
    (s.clock < d.2.2.1 → exec (.coneRelease slot line) s = .next s)) ∧
  (∀ (n slot : Nat) (v : BitVec 64) (s : State), regionOpen s n slot = true →
    let line := bits v.toNat 43 32
    let b := kgetD [] (serveOf s slot).lines line
    (field b 4 1 = 1 → field b 0 4 = v.toNat % 2 ^ 32 → ∃ t, exec (.resultReleaseWrite n slot v) s = .next t ∧
      line ∈ (serveOf t slot).released ∧ (serveOf t slot).requests = (serveOf s slot).requests ∧ SameBut [.serves] s t) ∧
    (¬(field b 4 1 = 1 ∧ field b 0 4 = v.toNat % 2 ^ 32) → ∃ t, exec (.resultReleaseWrite n slot v) s = .next t ∧ SameBut [.ctr] s t)) ∧
  (∀ (k p : Nat) (e : Bytes) (s : State), s.refresh.entries[k]? = some e → s.refresh.state = 2 → (kget s.refresh.steps k).isSome = true →
    let idle := 1 - (serveOf s (refServing e)).bank
    let src := refSource e % 65536
    let dst := refBank e idle % 65536
    (∀ q ∈ (serveOf s (refServing e)).requests, ¬(q.phase = 1 ∧ q.bank = idle)) → alive s = true → src ≠ dst →
    refFirst e + refPages e ≤ 2 ^ 28 → p < refPages e → kget (kgetD [] s.refresh.copied k) p = none →
    (src, refFirst e + p) ∉ s.mem.openPages → (kgetD Cargo.free s.mem.cargoes dst).tier = 0 →
    (kgetD Cargo.free s.mem.cargoes dst).farCached = false → (∀ x, frameOf s dst x = none) →
    ∃ t, exec (.refreshCopy k) s = .next t ∧ kget (kgetD [] t.refresh.copied k) p = some (generationOf s src (refFirst e + p)) ∧
      loadBytes t.mem.home (pageAddress dst p) pageBytes = cargoBytes s src ((refFirst e + p) * pageBytes) pageBytes ∧
      SameBut (touches (.refreshCopy k)) s t) ∧
  (∀ (slot : Nat) (s : State), let b := (slotOf s slot).beat
    s.refresh.swapDue = true → (∃ e ∈ s.refresh.entries, refServing e = slot) → b.phase = 1 → s.clock = b.opened →
    (s.refresh.state = 3 → ∃ t, exec (.bankSwap slot) s = .next t ∧ (serveOf t slot).bank = 1 - (serveOf s slot).bank ∧
      (serveOf t slot).requests = (serveOf s slot).requests.map (fun q =>
        if q.phase = 1 ∧ q.entry = b.count then { q with bank := 1 - (serveOf s slot).bank } else q) ∧
      t.refresh.entries = s.refresh.entries.filter (fun e => refServing e != slot) ∧ t.led.events = (s.led.events + 1) % 2 ^ 64 ∧
      SameBut [.led, .ctr, .serves, .refresh] s t) ∧
    (s.refresh.state ≠ 3 → s.refresh.late = false → ∃ t, exec (.bankSwap slot) s = .next t ∧ t.refresh = { s.refresh with late := true } ∧
      t.led.events = (s.led.events + 1) % 2 ^ 64 ∧ SameBut [.led, .ctr, .refresh] s t)) ∧
  (∀ (slot : Nat) (s : State), (s.refresh.state ≠ 3 ∧ s.refresh.late = true ∨ s.clock ≠ (slotOf s slot).beat.opened) →
    exec (.bankSwap slot) s = .next s)

/-! The collective engine. -/

/-- Sums of squares are heard once from each device, and rank 0 with all of them forms the norm (R351, R352); a norm report gives it to the
other ranks (R352, R394). A partial waits for its piece's decision, then takes the contribution, one rounding each, and goes on round the ring
(R350, R366); a gathered piece is passed on, or waits for the set in which the ring works (R353, R366). A piece is decided when present, or folded at its close point with its record (R374, R376);
late elements land in it or in its carry (R375). -/
def Obligations.NormsFormRingsReduceAndLatePiecesFold : Prop :=
  (∀ (b : Bytes) (slot n : Nat) (r : Route) (s : State), slot = field b 6 1 % 4 → routeOf s slot = some r → field b 10 1 = 0 →
    reportCurrent s slot b = true → n = field b 11 1 → 1 ≤ n → n ≤ 16 → ∃ t, exec (.sumReport b) s = .next t ∧
      (collOf t slot).heard = (if (collOf s slot).heard.any (fun e => e.1 == field b 8 2) = true then (collOf s slot).heard
        else (collOf s slot).heard ++ [(field b 8 2, (List.range n).map (fun i =>
          (field b (16 + 16 * i) 1, BitVec.ofNat 64 (field b (24 + 16 * i) 8))))]) ∧
      (∀ x, normRecord r = some x → x.ranks.headD 0 = deviceNumber s → (∀ d ∈ x.ranks, ∃ e ∈ (collOf t slot).heard, e.1 = d) →
        (collOf s slot).reported = true → (slotOf s slot).train.norm = none →
        (slotOf t slot).train.norm = some (toF32 (fsqrt (f64 ((x.ranks.flatMap (fun d =>
          (((collOf t slot).heard.find? (fun e => e.1 == d)).elim [] (·.2)).map (·.2.toNat))).foldl add64 0)))) ∧
        (slotOf t slot).train.normPending = true) ∧
      SameBut (touches (.sumReport b)) s t) ∧
  (∀ (b : Bytes) (slot : Nat) (r : Route) (s : State), slot = field b 6 1 % 4 → routeOf s slot = some r → field b 10 1 = 1 →
    reportCurrent s slot b = true → (slotOf s slot).train.norm = none → ∃ t, exec (.normReport b) s = .next t ∧
      (slotOf t slot).train = { (slotOf s slot).train with norm := some (BitVec.ofNat 32 (field b 12 4)), normPending := true } ∧
      (field b 16 6 ≠ 0 → (secureOf t slot).next = field b 16 6) ∧ SameBut [.slots, .secures] s t) ∧
  (∀ (slot k c i : Nat) (vs : Bytes) (r : Route) (x : CollRec) (s : State), routeOf s slot = some r → r.collectives[k]? = some x →
    c < x.group → i < x.rings → x.op ≠ 3 → (slotOf s slot).train.state = 1 →
    let q := collOf s slot
    let p := pieceKey k c i
    (x.op ≠ 1 → x.rank ≠ (c + 1) % x.group → kget q.partials p = none → kgetD 0 q.decided p = 0 →
      ∃ t, exec (.ringPartialArrive slot k c i vs) s = .next t ∧
        collOf t slot = { q with partials := kput q.partials p (ringWords x.sum vs) } ∧ SameBut [.colls] s t) ∧
    (x.op ≠ 1 → x.rank ≠ (c + 1) % x.group → kget q.partials p = none → (kgetD 0 q.decided p = 1 ∨ kgetD 0 q.decided p = 2) →
      ringOpen s slot r = true → c ≠ x.rank → 0 < x.piece → ∀ v : List Word,
      (kgetD [] q.own p = [] ∧ v = ringWords x.sum vs ∨ (kgetD [] q.own p).length = x.piece ∧
        v = List.zipWith (sumAdd x.sum) (ringWords x.sum vs) (kgetD [] q.own p)) →
      ∃ u, exec (.ringPartialArrive slot k c i vs) s = .next (sendRing slot r k c i 0 x.sum x v u) ∧
        kgetD 0 (collOf u slot).decided p = kgetD 0 q.decided p + 2 ∧ kget (collOf u slot).partials p = none ∧ SameBut [.colls, .ctr] s u) ∧
    (x.op ≠ 0 → (x.op = 1 ∨ x.rank = (c + 1) % x.group) → c ≠ x.rank → p ∉ q.gathered →
      ∃ t, exec (.ringPartialArrive slot k c i vs) s = .next t ∧ (collOf t slot).gathered = q.gathered ++ [p] ∧
        ((x.rank + 1) % x.group = c → q.passing = [] → t.net = s.net) ∧
        ((x.rank + 1) % x.group ≠ c → ringOpen s slot r = false →
          (collOf t slot).passing = q.passing ++ [(p, ringWords x.result vs)] ∧ t.net = s.net) ∧ SameBut (touches (.ringPartialArrive slot k c i vs)) s t)) ∧
  (∀ (slot k c i phase fmt : Nat) (r : Route) (x : CollRec) (vs : List Word) (s : State),
    let l := x.links.getD i 0xFF
    let ch := ringChannel r l
    ∃ fs, kgetD [] (linkOf (sendRing slot r k c i phase fmt x vs s) l).queues ch = kgetD [] (linkOf s l).queues ch ++ fs ∧
      (fs.flatMap (·.payload)).drop 16 = ringBytes fmt vs ∧ SameBut [.net] s (sendRing slot r k c i phase fmt x vs s)) ∧
  (∀ (slot k c i : Nat) (r : Route) (x : CollRec) (s : State), routeOf s slot = some r → r.collectives[k]? = some x →
    c < x.group → i < x.rings → x.op ≠ 3 → x.op ≠ 1 → (slotOf s slot).train.state = 1 → (slotOf s slot).train.attempt = 0 →
    let q := collOf s slot
    let p := pieceKey k c i
    kgetD 0 q.decided p = 0 → kget q.carries p = none →
    (present q x k c i = true → exec (.lateFoldDecide slot k c i) s = .next (goPiece slot r k c i x (modColl slot (fun q => { q with
      decided := kput q.decided p 1, own := kput q.own p ((contribution q x k c i).filterMap id) }) s))) ∧
    (present q x k c i = false → (closePointPassed s slot x = false ∨ routeSetting s slot 0x2981 ≠ 1) →
      exec (.lateFoldDecide slot k c i) s = .next s) ∧
    (present q x k c i = false → closePointPassed s slot x = true → routeSetting s slot 0x2981 = 1 → stalenessLimit s slot r x ≠ 0 →
      ∃ u, exec (.lateFoldDecide slot k c i) s = .next (goPiece slot r k c i x u) ∧ kgetD 0 (collOf u slot).decided p = 2 ∧
        kget (collOf u slot).own p = none ∧
        u.led = (ledgerStep (foldRecord s slot k c i 0 (slotOf s slot).train.step x.piece) s).led)) ∧
  (∀ (slot k c i : Nat) (r : Route) (x : CollRec) (s : State), (ringOpen s slot r = false ∨ kgetD 0 (collOf s slot).decided (pieceKey k c i) = 0) →
    goPiece slot r k c i x s = s) ∧
  (∀ (slot k c i first step : Nat) (vs : Bytes) (r : Route) (x : CollRec) (s : State), routeOf s slot = some r → r.collectives[k]? = some x →
    c < x.group → i < x.rings → x.op ≠ 3 → first + (ringWords x.sum vs).length ≤ x.piece →
    let q := collOf s slot
    let p := pieceKey k c i
    (step = (slotOf s slot).train.step → (kgetD 0 q.decided p = 2 ∨ kgetD 0 q.decided p = 4) →
      ∃ t, exec (.lateTileLand slot k c i first step vs) s = .next t ∧ SameBut [.colls] s t ∧
        (∀ j, kget (kgetD [] (collOf t slot).late p) j = if first ≤ j ∧ j < first + (ringWords x.sum vs).length
          then (ringWords x.sum vs)[j - first]? else kget (kgetD [] q.late p) j)) ∧
    (step < (slotOf s slot).train.step → stalenessLimit s slot r x < (slotOf s slot).train.step - step →
      exec (.lateTileLand slot k c i first step vs) s = .next (count 0x511C slot 1 s)) ∧
    (∀ y, step < (slotOf s slot).train.step → (slotOf s slot).train.step - step ≤ stalenessLimit s slot r x → kget q.carries p = some y →
      y.spent = false → y.landed < y.folded → ∃ t z, exec (.lateTileLand slot k c i first step vs) s = .next t ∧
        kget (collOf t slot).carries p = some z ∧ z.landed = y.landed + (ringWords x.sum vs).length ∧ z.step = y.step ∧
        z.folded = y.folded ∧ SameBut [.colls] s t))

/-! Secured states and handover. -/

/-- A held page is copied by giving its cargo the reserve frame (R388), sent to the keeper on channel 63 from its snapshot frame, and released with
that where no checkpoint needs it; the header goes last (R389, R391). Pages are received into the keep slot that is not current, which a
complete header makes current (R391, R392); a complete point is announced with EVT_SECURED and over once flash has it too (R389, R392); a
checkpoint is written header last, or refused (R395). -/
def Obligations.HeldPagesAreCopiedSentAndKept : Prop :=
  (∀ (slot tier unit f : Nat) (p : SecurePoint) (h : HeldPage) (e : PageEntry) (s : State), let x := secureOf s slot
    x.point = some p → p.pages.find? (fun h => !h.copied && h.held && (kgetD Cargo.free s.mem.cargoes h.record).tier == tier &&
      ((pageOf s h.record h.page).any (fun e => e.unit == unit))) = some h →
    kget x.reserve (pageNumber h.record h.page) = some f → pageOf s h.record h.page = some e →
    ∃ t, exec (.backgroundCopy slot tier unit) s = .next t ∧ pageOf t h.record h.page = some { e with frame := f } ∧
      (secureOf t slot).point = some { p with pages := p.pages.map (fun g =>
        if g.record = h.record ∧ g.page = h.page then { g with copied := true, frame := e.frame } else g) } ∧
      (secureOf t slot).reserve = kdel x.reserve (pageNumber h.record h.page) ∧ t.mem.home = s.mem.home ∧ t.mem.cached = s.mem.cached ∧
      SameBut [.ctr, .mem, .secures] s t) ∧
  (∀ (slot l : Nat) (r : Route) (p : SecurePoint) (s : State), (secureOf s slot).point = some p → routeOf s slot = some r →
    controlLink s (keeperOf s) = some l → keeperOf s ≠ 0xFFFF → buddyLink s l = true →
    (∀ h, p.pages.find? (fun h => h.copied && !h.sent) = some h →
      let pages := p.pages.map (fun g => if g.record = h.record ∧ g.page = h.page then { g with sent := true } else g)
      ∃ t, exec (.buddySend slot) s = .next t ∧ kgetD [] (linkOf t l).queues 63 = kgetD [] (linkOf s l).queues 63 ++
          cutFlits 63 (keeperOf s) slot 0 (loadBytes h.contents (pageAddress h.record h.page) pageBytes) ∧
        (∃ q, (secureOf t slot).point = some q ∧ q.step = p.step ∧ q.headerSent = p.headerSent ∧
          q.pages = pages.map (fun g => if g.sent && g.flashed then { g with copied := false } else g)) ∧
        (secureOf t slot).reserve = framesBack (pages.filter (fun g => g.sent && g.flashed)) (secureOf s slot).reserve ∧
        SameBut [.ctr, .net, .secures, .keeper] s t) ∧
    ((∀ h ∈ p.pages, h.sent = true) → p.headerSent = false →
      ∃ t, exec (.buddySend slot) s = .next t ∧ kgetD [] (linkOf t l).queues 63 = kgetD [] (linkOf s l).queues 63 ++
          cutFlits 63 (keeperOf s) slot 0 (securedHeader s slot r p) ∧
        (secureOf t slot).point = some { p with headerSent := true } ∧ SameBut [.net, .secures] s t)) ∧
  (∀ (device slot step page area : Nat) (b : Bytes) (s : State), firmwareRuns s = true →
    (List.range 4).find? (fun k => setting s 0x2903 k == device && device != 0xFFFF) = some area →
    let cur := kgetD 1 s.keeper.current area
    let k := area * 2 + (1 - cur)
    let x := kgetD ⟨[], []⟩ s.keeper.slots k
    (∃ t, exec (.buddyReceive device slot step page b none) s = .next t ∧ kget (kgetD ⟨[], []⟩ t.keeper.slots k).pages page = some b ∧
      t.keeper.current = s.keeper.current ∧ kget t.keeper.slots (area * 2 + cur) = kget s.keeper.slots (area * 2 + cur) ∧
      SameBut [.keeper] s t) ∧
    (∀ h, x.header ≠ [] → field x.header 4 6 = step → field x.header 2 1 = slot → ∃ t,
      exec (.buddyReceive device slot step page b (some h)) s = .next t ∧ kget t.keeper.slots k = some { x with header := padTo 96 h } ∧
      t.keeper.current = (if bit (field h 3 1) 0 = true ∧ field h 12 4 = x.pages.length then kput s.keeper.current area (1 - cur)
        else s.keeper.current) ∧ SameBut [.keeper] s t)) ∧
  (∀ (slot : Nat) (p : SecurePoint) (s : State), (secureOf s slot).point = some p → keeperOf s ≠ 0xFFFF → p.buddyDone = false →
    p.headerSent = true → ∃ t, exec (.buddySlotComplete slot) s = .next t ∧ (secureOf t slot).last = p.step ∧
      (∃ e, (secureOf t slot).held.head? = some e ∧ e.step = p.step ∧ e.source = 2 ∧ e.carries = p.carries ∧ e.groups = p.groups ∧
        e.pages = p.pages.map (fun h => (h.record, h.page, h.contents))) ∧
      (∀ e ∈ (secureOf s slot).held, e.source = 2 → ∃ g ∈ (secureOf t slot).held, g = { e with source := 3 }) ∧
      t.led.events = (s.led.events + 1) % 2 ^ 64 ∧
      (secureOf t slot).point = (if p.flashDone = true then none else some { p with buddyDone := true }) ∧
      SameBut [.led, .ctr, .secures] s t) ∧
  (∀ (slot : Nat) (r : Route) (p : SecurePoint) (s : State), (secureOf s slot).point = some p → routeOf s slot = some r →
    p.checkpoint = true → p.flashDone = false →
    (checkpointCargo s p.pages.length = none → ∃ t, exec (.flashCheckpoint slot) s = .next t ∧ t.led.events = (s.led.events + 1) % 2 ^ 64 ∧
      (if p.buddyDone = true then (secureOf t slot).point = none
        else ∃ q, (secureOf t slot).point = some q ∧ q.step = p.step ∧ q.flashDone = true ∧ ∀ h ∈ q.pages, h.flashed = true) ∧
      (secureOf t slot).checkpoints = (secureOf s slot).checkpoints ∧ SameBut [.led, .ctr, .secures, .keeper] s t) ∧
    (∀ i c u v, checkpointCargo s p.pages.length = some (i, c) → 0 < p.pages.length → p.pages.length ≤ 4096 →
      let half := (secureOf s slot).checkpoints % 2 * (p.pages.length + 1)
      let logical (k : Nat) : Nat := ((c.pages[half + k]?).map (·.frame)).getD 0
      admitStore (slotOf s slot).owner ((List.range p.pages.length).map (fun k => logical (k + 1))) true s = (u, true) →
      let w := p.pages.zipIdx.foldl (fun s e =>
        writeData i ((half + 1 + e.2) * pageBytes) (loadBytes e.1.contents (pageAddress e.1.record e.1.page) pageBytes) s) u
      (∀ f ∈ w.mem.cache, f.dirty = false) → admitStore (slotOf s slot).owner [logical 0] true w = (v, true) →
      ∃ t, exec (.flashCheckpoint slot) s = .next t ∧ (secureOf t slot).checkpoints = (secureOf s slot).checkpoints + 1 ∧
        (∃ e ∈ (secureOf t slot).held, e.step = p.step ∧ e.source = 4 ∧ e.carries = p.carries ∧ e.groups = p.groups ∧
          e.header = some (logical 0)) ∧
        (p.buddyDone = true → (secureOf t slot).point = none) ∧ SameBut (touches (.flashCheckpoint slot)) s t))

/-- A restore request discards the step and waits for its start beat, or halts the route where no such state is held; at the start beat the
pages, carries and groups are written back and the route runs on from the next step (R396). In a firmware handover one service
after the other moves at a beat boundary to the core that carries it and back at a later one, core 5 carrying core 4's and core 4 core 5's; the
new image runs after the last; a failed self-check hands those that have moved back in reverse order, and 29C1 reads 3 (R35, R406). -/
def Obligations.RestoresAndHandoversRunTheirSteps : Prop :=
  (∀ (who : Who) (b : Bytes) (r : Route) (s : State), Passes who (lastOf 0x290F 0 b) s → field b 0 1 < 4 → field b 1 1 ≤ 5 →
    zeroAt b 16 8 = true → s.beat.count + 65536 ≤ field b 8 8 → routeOf s (field b 0 1) = some r → r.training = true →
    exec (.restoreRequest who b) s = .next (answered who (lastOf 0x290F 0 b) s
      (acceptRestore (field b 0 1) (field b 1 1) (field b 2 6) (field b 8 8) (begun who (lastOf 0x290F 0 b) s)))) ∧
  (∀ (slot source step start : Nat) (s : State), let t := acceptRestore slot source step start s
    (slotOf t slot).train.attempt = (slotOf (discardStep slot s) slot).train.attempt + 1 ∧
    (∀ e, chooseState (voidAttempt slot s) slot source step = some e → (slotOf t slot).train.state = 2 ∧
      (slotOf t slot).train.voided = none ∧ (slotOf t slot).train.replayBeat = none ∧
      (secureOf t slot).restoring = some ⟨e.source, e.step, start, none⟩ ∧ (e.source ≠ 1 → (secureOf t slot).point = none)) ∧
    (chooseState (voidAttempt slot s) slot source step = none → (slotOf t slot).train.state = 3 ∧
      t.led.events = ((voidAttempt slot s).led.events + 1) % 2 ^ 64)) ∧
  (∀ (slot : Nat) (q : Restoring) (s : State), (secureOf s slot).restoring = some q →
    (s.beat.count < q.start → exec (.restoreStart slot) s = .next s) ∧
    (∀ e, q.start ≤ s.beat.count → s.beat.before < q.start → chooseState s slot q.source q.step = some e → sourceReachable s q.source = true →
      ∃ t, exec (.restoreStart slot) s = .next t ∧ (slotOf t slot).train = { (slotOf s slot).train with
          step := e.step + 1, attempt := if (committedRecord s slot (e.step + 1)).isSome then 1 else 0, lastCommitted := e.step, voided := none
          replayBeat := some (if (routeOf s slot).any (·.plan.isLocal) then (slotOf s slot).beat.count else s.beat.count) } ∧
        (secureOf t slot).restoring = none ∧ (collOf t slot).carries = e.carries ∧
        t.kilns.groups = e.groups.foldl (fun m g => kput m g.1 g.2) s.kilns.groups ∧
        (∀ i p cells, e.pages = [(i, p, cells)] → frameOf s i p = none → KMap.wf cells = true →
          (∀ x ∈ cells, pageAddress i p ≤ x.1 ∧ x.1 < pageAddress i p + pageBytes) →
          ∀ a, pageAddress i p ≤ a → a < pageAddress i p + pageBytes → loadByte t.mem.home a = loadByte cells a) ∧
        SameBut (touches (.restoreStart slot)) s t) ∧
    (q.start ≤ s.beat.count → (chooseState s slot q.source q.step = none ∨ sourceReachable s q.source = false ∨ q.start ≤ s.beat.before) →
      ∃ t, exec (.restoreStart slot) s = .next t ∧ (slotOf t slot).train.state = 3 ∧ (secureOf t slot).restoring = none ∧
        t.led.events = (s.led.events + 1) % 2 ^ 64 ∧ t.mem = s.mem ∧ SameBut (touches (.restoreStart slot)) s t)) ∧
  (∀ (who : Who) (b : Bytes) (s : State), Passes who (writeOf 0x29C0 0 b) s → (slotImage s (inactiveSlot s)).state = 1 →
    s.power.input = 0 → s.power.holdup = 2 → 7 ∉ s.sys.failedCores →
    exec (.firmwareHandover who b) s = .next (answered who (writeOf 0x29C0 0 b) s
      { s with sys := { s.sys with handover := 1, moved := [], carriers := [], rollback := none } })) ∧
  (∀ (ok : Bool) (c k : Nat) (rest : List (Nat × Nat)) (s : State), firmwareRuns s = true → s.sys.handover = 1 → s.clock = s.beat.opened →
    let order := [6, 2, 1, 3, 0, 4, 5]
    let y := { s.sys with carriers := [], movedAt := s.beat.count }
    let new := slotImage s (inactiveSlot s)
    (s.sys.carriers = [] → (s.sys.rollback = none ∧ order.find? (fun n => !s.sys.moved.contains n) = some c ∨
        s.sys.rollback ≠ none ∧ s.sys.moved.getLast? = some c) →
      exec (.handoverServiceMove ok) s = .next { s with sys := { y with carriers := [(c, if c = 4 then 5 else if c = 5 then 4 else 7)] } }) ∧
    (s.sys.carriers = (c, k) :: rest → s.beat.count ≤ s.sys.movedAt → exec (.handoverServiceMove ok) s = .next s) ∧
    (s.sys.carriers = (c, k) :: rest → s.sys.movedAt < s.beat.count →
      (s.sys.rollback = none → ok = true → (order.find? (fun n => !(s.sys.moved ++ [c]).contains n)).isSome = true →
        exec (.handoverServiceMove ok) s = .next { s with sys := { y with moved := s.sys.moved ++ [c] } }) ∧
      (s.sys.rollback = none → ok = true → order.find? (fun n => !(s.sys.moved ++ [c]).contains n) = none →
        ∃ t, exec (.handoverServiceMove ok) s = .next t ∧ t.sys = { y with
          handover := 2, moved := [], active := inactiveSlot s, runningVersion := new.version, runningDigest := new.digest } ∧
          SameBut [.ctr, .sys] s t) ∧
      (s.sys.rollback = none → ok = false → s.sys.moved ≠ [] →
        exec (.handoverServiceMove ok) s = .next { s with sys := { y with rollback := some c } }) ∧
      (s.sys.rollback ≠ none → s.sys.moved.filter (· != c) ≠ [] →
        exec (.handoverServiceMove ok) s = .next { s with sys := { y with moved := s.sys.moved.filter (· != c) } }) ∧
      (s.sys.rollback = none ∧ ok = false ∧ s.sys.moved = [] ∨ s.sys.rollback ≠ none ∧ s.sys.moved.filter (· != c) = [] →
        ∃ t, exec (.handoverServiceMove ok) s = .next t ∧ t.sys = { y with handover := 3, rollback := none, moved := [] } ∧
          t.led.events = (s.led.events + 1) % 2 ^ 64 ∧ SameBut [.led, .ctr, .sys] s t)))

/-! Two rules of the dictionary, each stated whole. -/

/-- R72: every access to an index of 7000-7FFF returns ST_ACCESS, whatever the requester's level, its client, or the session it is on; the
object values stay. -/
def Obligations.VendorIndexesAreRefused : Prop :=
  (∀ (who : Who) (a : Ask) (s : State), 0x7000 ≤ a.index → a.index ≤ 0x7FFF → noSession s who = false → entryStatus s who a = stAccess) ∧
  (∀ (who : Who) (index sub offset length : Nat) (b : Bytes) (flag : Bool) (ins : Instr) (s : State), 0x7000 ≤ index → index ≤ 0x7FFF →
    reaches s who = true → noSession s who = false →
    ins ∈ [.objectRead who index sub length flag, .objectWrite who index sub b, .domainReadSegment who index sub offset length flag,
      .domainWriteSegment who index sub offset b, .domainWriteLastSegment who index sub offset b] →
    ∃ t, exec ins s = .next t ∧ t.resp = ⟨stAccess, []⟩ ∧ t.dict.objs = s.dict.objs ∧ SameBut [.dict, .led, .resp] s t)

/-- R449: the write of 2C02.00, which only client 0 may make, clears the counters at the next capture; a second write before it returns
ST_BUSY; the capture leaves the ledgers, 1289.00, 2C03.00 and 2C04.00 unchanged. -/
def Obligations.CountersAreClearedAtTheNextCapture : Prop :=
  (∀ (who : Who) (b : Bytes) (s : State), Passes who (writeOf 0x2C02 0 b) s → exec (.clearCounters who b) s =
    .next (answered who (writeOf 0x2C02 0 b) s { s with ctr := { s.ctr with clearPending := true } })) ∧
  (∀ (who : Who) (b : Bytes) (s : State), who.client ≠ 0 → noSession s who = false → s.ctr.clearPending = false →
    entryStatus s who (writeOf 0x2C02 0 b) = stAccess) ∧
  (∀ (who : Who) (b : Bytes) (s : State), reaches s who = true → s.ctr.clearPending = true → ∃ t, exec (.clearCounters who b) s = .next t ∧
    t.resp = ⟨stBusy, []⟩ ∧ t.ctr = s.ctr) ∧
  (∀ s : State, s.ctr.clearPending = true → firmwareRuns s = true → s.beat.count % max 1 (setting s 0x3C01 0) = 0 →
    ∃ t, exec .counterCapture s = .next t ∧ (∀ index inst, capturedValue t index inst = 0) ∧
      (∀ k, kgetD 0 t.ctr.stationCaptured k = 0 ∧ kgetD 0 t.ctr.live k = 0 ∧ kgetD 0 t.ctr.station k = 0) ∧ t.ctr.clearPending = false ∧
      t.led = s.led ∧ (∀ who, objValue t who 0x1289 0 = objValue s who 0x1289 0 ∧ objValue t who 0x2C03 0 = objValue s who 0x2C03 0 ∧
        objValue t who 0x2C04 0 = objValue s who 0x2C04 0))
end

