-- ==== Sys2Proof/Laws/KMap.lean ====
section
/-! SUPPORT. Sparse tables and byte storage: what is read after a write, and that every operation keeps the canonical form. -/

namespace Sys2Proof.Machine

/-! What is read. -/

@[simp] theorem kget_nil {α : Type} (k : Nat) : kget ([] : KMap α) k = none := rfl

theorem kget_cons {α : Type} (j : Nat) (v : α) (r : KMap α) (k : Nat) : kget ((j, v) :: r) k = if j = k then some v else kget r k := rfl

@[simp] theorem kget_kput_same {α : Type} (m : KMap α) (k : Nat) (v : α) : kget (kput m k v) k = some v := by
  induction m with
  | nil => simp [kput, kget_cons]
  | cons e r ih =>
    obtain ⟨j, w⟩ := e; unfold kput; repeat' split
    all_goals simp_all [kget_cons]
    omega

theorem kget_kput_other {α : Type} (m : KMap α) {k k' : Nat} (v : α) (h : k ≠ k') : kget (kput m k v) k' = kget m k' := by
  induction m with
  | nil => simp [kput, kget_cons, h]
  | cons e r ih =>
    obtain ⟨j, w⟩ := e; unfold kput; repeat' split
    all_goals simp_all [kget_cons]

@[simp] theorem kget_kdel_same {α : Type} (m : KMap α) (k : Nat) : kget (kdel m k) k = none := by
  induction m with
  | nil => rfl
  | cons e r ih => obtain ⟨j, w⟩ := e; unfold kdel; split <;> simp_all [kget_cons]

theorem kget_kdel_other {α : Type} (m : KMap α) {k k' : Nat} (h : k ≠ k') : kget (kdel m k) k' = kget m k' := by
  induction m with
  | nil => rfl
  | cons e r ih => obtain ⟨j, w⟩ := e; unfold kdel; split <;> simp_all [kget_cons]

@[simp] theorem kgetD_kput_same {α : Type} (d : α) (m : KMap α) (k : Nat) (v : α) : kgetD d (kput m k v) k = v := by simp [kgetD]

theorem kgetD_kput_other {α : Type} (d : α) (m : KMap α) {k k' : Nat} (v : α) (h : k ≠ k') : kgetD d (kput m k v) k' = kgetD d m k' := by
  simp [kgetD, kget_kput_other m v h]

@[simp] theorem kgetD_kputD_same {α : Type} [DecidableEq α] (d : α) (m : KMap α) (k : Nat) (v : α) : kgetD d (kputD d m k v) k = v := by
  unfold kputD kgetD; split <;> simp_all

theorem kgetD_kputD_other {α : Type} [DecidableEq α] (d : α) (m : KMap α) {k k' : Nat} (v : α) (h : k ≠ k') :
    kgetD d (kputD d m k v) k' = kgetD d m k' := by
  unfold kputD kgetD; split <;> simp [kget_kput_other m v h, kget_kdel_other m h]

@[simp] theorem kgetD_kmodD_same {α : Type} [DecidableEq α] (d : α) (m : KMap α) (k : Nat) (f : α → α) :
    kgetD d (kmodD d m k f) k = f (kgetD d m k) := by simp [kmodD]

theorem kgetD_kmodD_other {α : Type} [DecidableEq α] (d : α) (m : KMap α) {k k' : Nat} (f : α → α) (h : k ≠ k') :
    kgetD d (kmodD d m k f) k' = kgetD d m k' := kgetD_kputD_other d m _ h

@[simp] theorem loadByte_storeByte_same (m : Memory) (a : Nat) (b : Byte) : loadByte (storeByte m a b) a = b := kgetD_kputD_same 0 m a b

theorem loadByte_storeByte_other (m : Memory) {a a' : Nat} (b : Byte) (h : a ≠ a') : loadByte (storeByte m a b) a' = loadByte m a' :=
  kgetD_kputD_other 0 m b h

/-- A byte string written leaves every byte outside it. -/
theorem loadByte_storeBytes_other (bs : Bytes) (m : Memory) (a a' : Nat) (h : a' < a ∨ a + bs.length ≤ a') :
    loadByte (storeBytes m a bs) a' = loadByte m a' := by
  induction bs generalizing m a with
  | nil => rfl
  | cons b bs ih =>
    rw [List.length_cons] at h
    rw [storeBytes, ih _ _ (by omega), loadByte_storeByte_other _ _ (by omega)]

/-- A byte string written is what its addresses read. -/
theorem loadByte_storeBytes_same (bs : Bytes) (m : Memory) (a i : Nat) (h : i < bs.length) :
    loadByte (storeBytes m a bs) (a + i) = bs[i] := by
  induction bs generalizing m a i with
  | nil => simp at h
  | cons b bs ih =>
    cases i with
    | zero => rw [storeBytes, loadByte_storeBytes_other _ _ _ _ (by omega)]; simp
    | succ i =>
      have := ih (storeByte m a b) (a + 1) i (by simpa using h)
      rw [storeBytes, show a + (i + 1) = a + 1 + i by omega, this]; rfl

/-! The canonical form. -/

/-- Every entry of a table after a write is the one written or was there. -/
theorem mem_kput {α : Type} {m : KMap α} {k : Nat} {v : α} {e : Nat × α} (h : e ∈ kput m k v) : e = (k, v) ∨ e ∈ m := by
  induction m with
  | nil => simpa [kput] using h
  | cons x r ih =>
    obtain ⟨j, w⟩ := x; unfold kput at h
    split at h
    · rcases List.mem_cons.mp h with h | h
      · exact .inr (h ▸ .head _)
      · exact (ih h).imp id (.tail _)
    · split at h
      · exact (List.mem_cons.mp h).imp id (.tail _)
      · exact List.mem_cons.mp h

theorem mem_kdel {α : Type} {m : KMap α} {k : Nat} {e : Nat × α} (h : e ∈ kdel m k) : e ∈ m := by
  induction m with
  | nil => exact h
  | cons x r ih =>
    obtain ⟨j, w⟩ := x; unfold kdel at h
    split at h
    · exact .tail _ (ih h)
    · exact (List.mem_cons.mp h).elim (fun h => h ▸ .head _) (fun h => .tail _ (ih h))

theorem mem_kputD {α : Type} [DecidableEq α] {d : α} {m : KMap α} {k : Nat} {v : α} {e : Nat × α} (h : e ∈ kputD d m k v) :
    e = (k, v) ∨ e ∈ m := by
  unfold kputD at h; split at h
  · exact .inr (mem_kdel h)
  · exact mem_kput h

theorem mem_of_kget {α : Type} {m : KMap α} {k : Nat} {v : α} (h : kget m k = some v) : (k, v) ∈ m := by
  induction m with
  | nil => simp at h
  | cons x r ih =>
    obtain ⟨j, w⟩ := x; rw [kget_cons] at h
    split at h
    · cases h; subst_vars; exact .head _
    · exact .tail _ (ih h)

/-- The keys of a table in canonical form lie above a bound. -/
def KeysAbove {α : Type} (b : Nat) (m : KMap α) : Prop := ∀ e ∈ m, b < e.1

theorem wf_cons {α : Type} (k : Nat) (v : α) (r : KMap α) : KMap.wf ((k, v) :: r) = true ↔ KeysAbove k r ∧ KMap.wf r = true := by
  induction r generalizing k v with
  | nil => simp [KMap.wf, ascending, KeysAbove]
  | cons x r ih =>
    obtain ⟨j, w⟩ := x
    have e : KMap.wf ((k, v) :: (j, w) :: r) = (decide (k < j) && KMap.wf ((j, w) :: r)) := rfl
    rw [e, Bool.and_eq_true, decide_eq_true_iff]
    refine ⟨fun ⟨a, b⟩ => ⟨fun y hy => ?_, b⟩, fun ⟨a, b⟩ => ⟨a _ (.head _), b⟩⟩
    rcases List.mem_cons.mp hy with rfl | hy
    · exact a
    · exact Nat.lt_trans a (((ih j w).mp b).1 y hy)

theorem wf_kput {α : Type} (m : KMap α) (k : Nat) (v : α) (h : KMap.wf m = true) : KMap.wf (kput m k v) = true := by
  induction m with
  | nil => rfl
  | cons x r ih =>
    obtain ⟨j, w⟩ := x
    have hr := (wf_cons j w r).mp h
    unfold kput; split
    · refine (wf_cons _ _ _).mpr ⟨fun e he => ?_, ih hr.2⟩
      rcases mem_kput he with rfl | he
      · assumption
      · exact hr.1 e he
    · split
      · subst_vars; exact (wf_cons _ _ _).mpr hr
      · refine (wf_cons _ _ _).mpr ⟨fun e he => ?_, h⟩
        rcases List.mem_cons.mp he with rfl | he
        · simp only; omega
        · exact Nat.lt_trans (by omega) (hr.1 e he)

theorem wf_kdel {α : Type} (m : KMap α) (k : Nat) (h : KMap.wf m = true) : KMap.wf (kdel m k) = true := by
  induction m with
  | nil => rfl
  | cons x r ih =>
    obtain ⟨j, w⟩ := x
    have hr := (wf_cons j w r).mp h
    unfold kdel; split
    · exact ih hr.2
    · exact (wf_cons _ _ _).mpr ⟨fun e he => hr.1 e (mem_kdel he), ih hr.2⟩

theorem wf_filter {α : Type} (p : Nat × α → Bool) (m : KMap α) (h : KMap.wf m = true) : KMap.wf (m.filter p) = true := by
  induction m with
  | nil => rfl
  | cons x r ih =>
    obtain ⟨j, w⟩ := x
    have hr := (wf_cons j w r).mp h
    rw [List.filter_cons]; split
    · exact (wf_cons _ _ _).mpr ⟨fun e he => hr.1 e (List.mem_filter.mp he).1, ih hr.2⟩
    · exact ih hr.2

theorem Memory.wf_iff (m : Memory) : Memory.wf m = true ↔ KMap.wf m = true ∧ ∀ e ∈ m, e.2 ≠ 0 := by
  simp [Memory.wf]

theorem Memory.wf_nil : Memory.wf [] = true := rfl

theorem wf_storeByte (m : Memory) (a : Nat) (b : Byte) (h : Memory.wf m = true) : Memory.wf (storeByte m a b) = true := by
  rw [Memory.wf_iff] at *
  unfold storeByte kputD; split
  · exact ⟨wf_kdel m a h.1, fun e he => h.2 e (mem_kdel he)⟩
  · refine ⟨wf_kput m a b h.1, fun e he => ?_⟩
    rcases mem_kput he with rfl | he
    · assumption
    · exact h.2 e he

theorem wf_storeBytes (bs : Bytes) (m : Memory) (a : Nat) (h : Memory.wf m = true) : Memory.wf (storeBytes m a bs) = true := by
  induction bs generalizing m a with
  | nil => exact h
  | cons b bs ih => exact ih _ _ (wf_storeByte m a b h)

theorem Memory.wf_filter (p : Nat × Byte → Bool) (m : Memory) (h : Memory.wf m = true) : Memory.wf (m.filter p) = true := by
  rw [Memory.wf_iff] at *
  exact ⟨Machine.wf_filter p m h.1, fun e he => h.2 e (List.mem_filter.mp he).1⟩

theorem wf_clearBytes (m : Memory) (a n : Nat) (h : Memory.wf m = true) : Memory.wf (clearBytes m a n) = true := Memory.wf_filter _ m h

/-- Bytes stored one after another. -/
theorem wf_storeCells {α : Type} (f : α → Nat × Byte) (cells : List α) (m : Memory) (h : Memory.wf m = true) :
    Memory.wf (cells.foldl (fun m e => storeByte m (f e).1 (f e).2) m) = true := by
  induction cells generalizing m with
  | nil => exact h
  | cons c cells ih => exact ih _ (wf_storeByte _ _ _ h)

end Sys2Proof.Machine
end

