-- ==== Sys2Proof/Laws/State.lean ====
section
/-! SUPPORT. What each update of the state leaves in every field of it, and what the parts of the state by number are after one. -/

namespace Sys2Proof.Machine

variable (s : State)

/-! setSlot -/

@[simp] theorem setSlot_pending (i : Nat) (x : Slot) : (setSlot i x s).pending = s.pending := rfl
@[simp] theorem setSlot_clock (i : Nat) (x : Slot) : (setSlot i x s).clock = s.clock := rfl
@[simp] theorem setSlot_fresh (i : Nat) (x : Slot) : (setSlot i x s).fresh = s.fresh := rfl
@[simp] theorem setSlot_out (i : Nat) (x : Slot) : (setSlot i x s).out = s.out := rfl
@[simp] theorem setSlot_resp (i : Nat) (x : Slot) : (setSlot i x s).resp = s.resp := rfl
@[simp] theorem setSlot_dict (i : Nat) (x : Slot) : (setSlot i x s).dict = s.dict := rfl
@[simp] theorem setSlot_led (i : Nat) (x : Slot) : (setSlot i x s).led = s.led := rfl
@[simp] theorem setSlot_ctr (i : Nat) (x : Slot) : (setSlot i x s).ctr = s.ctr := rfl
@[simp] theorem setSlot_beat (i : Nat) (x : Slot) : (setSlot i x s).beat = s.beat := rfl
@[simp] theorem setSlot_fab (i : Nat) (x : Slot) : (setSlot i x s).fab = s.fab := rfl
@[simp] theorem setSlot_slots (i : Nat) (x : Slot) : (setSlot i x s).slots = kputD Slot.free s.slots i x := rfl
@[simp] theorem setSlot_arrays (i : Nat) (x : Slot) : (setSlot i x s).arrays = s.arrays := rfl
@[simp] theorem setSlot_kilns (i : Nat) (x : Slot) : (setSlot i x s).kilns = s.kilns := rfl
@[simp] theorem setSlot_mem (i : Nat) (x : Slot) : (setSlot i x s).mem = s.mem := rfl
@[simp] theorem setSlot_engines (i : Nat) (x : Slot) : (setSlot i x s).engines = s.engines := rfl
@[simp] theorem setSlot_flash (i : Nat) (x : Slot) : (setSlot i x s).flash = s.flash := rfl
@[simp] theorem setSlot_power (i : Nat) (x : Slot) : (setSlot i x s).power = s.power := rfl
@[simp] theorem setSlot_net (i : Nat) (x : Slot) : (setSlot i x s).net = s.net := rfl
@[simp] theorem setSlot_colls (i : Nat) (x : Slot) : (setSlot i x s).colls = s.colls := rfl
@[simp] theorem setSlot_secures (i : Nat) (x : Slot) : (setSlot i x s).secures = s.secures := rfl
@[simp] theorem setSlot_keeper (i : Nat) (x : Slot) : (setSlot i x s).keeper = s.keeper := rfl
@[simp] theorem setSlot_admissions (i : Nat) (x : Slot) : (setSlot i x s).admissions = s.admissions := rfl
@[simp] theorem setSlot_serves (i : Nat) (x : Slot) : (setSlot i x s).serves = s.serves := rfl
@[simp] theorem setSlot_refresh (i : Nat) (x : Slot) : (setSlot i x s).refresh = s.refresh := rfl
@[simp] theorem setSlot_host (i : Nat) (x : Slot) : (setSlot i x s).host = s.host := rfl
@[simp] theorem setSlot_sys (i : Nat) (x : Slot) : (setSlot i x s).sys = s.sys := rfl

/-! setArray -/

@[simp] theorem setArray_pending (a : Nat) (x : ArrayState) : (setArray a x s).pending = s.pending := rfl
@[simp] theorem setArray_clock (a : Nat) (x : ArrayState) : (setArray a x s).clock = s.clock := rfl
@[simp] theorem setArray_fresh (a : Nat) (x : ArrayState) : (setArray a x s).fresh = s.fresh := rfl
@[simp] theorem setArray_out (a : Nat) (x : ArrayState) : (setArray a x s).out = s.out := rfl
@[simp] theorem setArray_resp (a : Nat) (x : ArrayState) : (setArray a x s).resp = s.resp := rfl
@[simp] theorem setArray_dict (a : Nat) (x : ArrayState) : (setArray a x s).dict = s.dict := rfl
@[simp] theorem setArray_led (a : Nat) (x : ArrayState) : (setArray a x s).led = s.led := rfl
@[simp] theorem setArray_ctr (a : Nat) (x : ArrayState) : (setArray a x s).ctr = s.ctr := rfl
@[simp] theorem setArray_beat (a : Nat) (x : ArrayState) : (setArray a x s).beat = s.beat := rfl
@[simp] theorem setArray_fab (a : Nat) (x : ArrayState) : (setArray a x s).fab = s.fab := rfl
@[simp] theorem setArray_slots (a : Nat) (x : ArrayState) : (setArray a x s).slots = s.slots := rfl
@[simp] theorem setArray_arrays (a : Nat) (x : ArrayState) : (setArray a x s).arrays = kputD ArrayState.reset s.arrays a x := rfl
@[simp] theorem setArray_kilns (a : Nat) (x : ArrayState) : (setArray a x s).kilns = s.kilns := rfl
@[simp] theorem setArray_mem (a : Nat) (x : ArrayState) : (setArray a x s).mem = s.mem := rfl
@[simp] theorem setArray_engines (a : Nat) (x : ArrayState) : (setArray a x s).engines = s.engines := rfl
@[simp] theorem setArray_flash (a : Nat) (x : ArrayState) : (setArray a x s).flash = s.flash := rfl
@[simp] theorem setArray_power (a : Nat) (x : ArrayState) : (setArray a x s).power = s.power := rfl
@[simp] theorem setArray_net (a : Nat) (x : ArrayState) : (setArray a x s).net = s.net := rfl
@[simp] theorem setArray_colls (a : Nat) (x : ArrayState) : (setArray a x s).colls = s.colls := rfl
@[simp] theorem setArray_secures (a : Nat) (x : ArrayState) : (setArray a x s).secures = s.secures := rfl
@[simp] theorem setArray_keeper (a : Nat) (x : ArrayState) : (setArray a x s).keeper = s.keeper := rfl
@[simp] theorem setArray_admissions (a : Nat) (x : ArrayState) : (setArray a x s).admissions = s.admissions := rfl
@[simp] theorem setArray_serves (a : Nat) (x : ArrayState) : (setArray a x s).serves = s.serves := rfl
@[simp] theorem setArray_refresh (a : Nat) (x : ArrayState) : (setArray a x s).refresh = s.refresh := rfl
@[simp] theorem setArray_host (a : Nat) (x : ArrayState) : (setArray a x s).host = s.host := rfl
@[simp] theorem setArray_sys (a : Nat) (x : ArrayState) : (setArray a x s).sys = s.sys := rfl

/-! setEngine -/

@[simp] theorem setEngine_pending (a : Nat) (x : Engine) : (setEngine a x s).pending = s.pending := rfl
@[simp] theorem setEngine_clock (a : Nat) (x : Engine) : (setEngine a x s).clock = s.clock := rfl
@[simp] theorem setEngine_fresh (a : Nat) (x : Engine) : (setEngine a x s).fresh = s.fresh := rfl
@[simp] theorem setEngine_out (a : Nat) (x : Engine) : (setEngine a x s).out = s.out := rfl
@[simp] theorem setEngine_resp (a : Nat) (x : Engine) : (setEngine a x s).resp = s.resp := rfl
@[simp] theorem setEngine_dict (a : Nat) (x : Engine) : (setEngine a x s).dict = s.dict := rfl
@[simp] theorem setEngine_led (a : Nat) (x : Engine) : (setEngine a x s).led = s.led := rfl
@[simp] theorem setEngine_ctr (a : Nat) (x : Engine) : (setEngine a x s).ctr = s.ctr := rfl
@[simp] theorem setEngine_beat (a : Nat) (x : Engine) : (setEngine a x s).beat = s.beat := rfl
@[simp] theorem setEngine_fab (a : Nat) (x : Engine) : (setEngine a x s).fab = s.fab := rfl
@[simp] theorem setEngine_slots (a : Nat) (x : Engine) : (setEngine a x s).slots = s.slots := rfl
@[simp] theorem setEngine_arrays (a : Nat) (x : Engine) : (setEngine a x s).arrays = s.arrays := rfl
@[simp] theorem setEngine_kilns (a : Nat) (x : Engine) : (setEngine a x s).kilns = s.kilns := rfl
@[simp] theorem setEngine_mem (a : Nat) (x : Engine) : (setEngine a x s).mem = s.mem := rfl
@[simp] theorem setEngine_engines (a : Nat) (x : Engine) : (setEngine a x s).engines = kputD Engine.reset s.engines a x := rfl
@[simp] theorem setEngine_flash (a : Nat) (x : Engine) : (setEngine a x s).flash = s.flash := rfl
@[simp] theorem setEngine_power (a : Nat) (x : Engine) : (setEngine a x s).power = s.power := rfl
@[simp] theorem setEngine_net (a : Nat) (x : Engine) : (setEngine a x s).net = s.net := rfl
@[simp] theorem setEngine_colls (a : Nat) (x : Engine) : (setEngine a x s).colls = s.colls := rfl
@[simp] theorem setEngine_secures (a : Nat) (x : Engine) : (setEngine a x s).secures = s.secures := rfl
@[simp] theorem setEngine_keeper (a : Nat) (x : Engine) : (setEngine a x s).keeper = s.keeper := rfl
@[simp] theorem setEngine_admissions (a : Nat) (x : Engine) : (setEngine a x s).admissions = s.admissions := rfl
@[simp] theorem setEngine_serves (a : Nat) (x : Engine) : (setEngine a x s).serves = s.serves := rfl
@[simp] theorem setEngine_refresh (a : Nat) (x : Engine) : (setEngine a x s).refresh = s.refresh := rfl
@[simp] theorem setEngine_host (a : Nat) (x : Engine) : (setEngine a x s).host = s.host := rfl
@[simp] theorem setEngine_sys (a : Nat) (x : Engine) : (setEngine a x s).sys = s.sys := rfl

/-! modSlot -/

@[simp] theorem modSlot_pending (i : Nat) (f : Slot → Slot) : (modSlot i f s).pending = s.pending := rfl
@[simp] theorem modSlot_clock (i : Nat) (f : Slot → Slot) : (modSlot i f s).clock = s.clock := rfl
@[simp] theorem modSlot_fresh (i : Nat) (f : Slot → Slot) : (modSlot i f s).fresh = s.fresh := rfl
@[simp] theorem modSlot_out (i : Nat) (f : Slot → Slot) : (modSlot i f s).out = s.out := rfl
@[simp] theorem modSlot_resp (i : Nat) (f : Slot → Slot) : (modSlot i f s).resp = s.resp := rfl
@[simp] theorem modSlot_dict (i : Nat) (f : Slot → Slot) : (modSlot i f s).dict = s.dict := rfl
@[simp] theorem modSlot_led (i : Nat) (f : Slot → Slot) : (modSlot i f s).led = s.led := rfl
@[simp] theorem modSlot_ctr (i : Nat) (f : Slot → Slot) : (modSlot i f s).ctr = s.ctr := rfl
@[simp] theorem modSlot_beat (i : Nat) (f : Slot → Slot) : (modSlot i f s).beat = s.beat := rfl
@[simp] theorem modSlot_fab (i : Nat) (f : Slot → Slot) : (modSlot i f s).fab = s.fab := rfl
@[simp] theorem modSlot_slots (i : Nat) (f : Slot → Slot) : (modSlot i f s).slots = kputD Slot.free s.slots i (f (slotOf s i)) := rfl
@[simp] theorem modSlot_arrays (i : Nat) (f : Slot → Slot) : (modSlot i f s).arrays = s.arrays := rfl
@[simp] theorem modSlot_kilns (i : Nat) (f : Slot → Slot) : (modSlot i f s).kilns = s.kilns := rfl
@[simp] theorem modSlot_mem (i : Nat) (f : Slot → Slot) : (modSlot i f s).mem = s.mem := rfl
@[simp] theorem modSlot_engines (i : Nat) (f : Slot → Slot) : (modSlot i f s).engines = s.engines := rfl
@[simp] theorem modSlot_flash (i : Nat) (f : Slot → Slot) : (modSlot i f s).flash = s.flash := rfl
@[simp] theorem modSlot_power (i : Nat) (f : Slot → Slot) : (modSlot i f s).power = s.power := rfl
@[simp] theorem modSlot_net (i : Nat) (f : Slot → Slot) : (modSlot i f s).net = s.net := rfl
@[simp] theorem modSlot_colls (i : Nat) (f : Slot → Slot) : (modSlot i f s).colls = s.colls := rfl
@[simp] theorem modSlot_secures (i : Nat) (f : Slot → Slot) : (modSlot i f s).secures = s.secures := rfl
@[simp] theorem modSlot_keeper (i : Nat) (f : Slot → Slot) : (modSlot i f s).keeper = s.keeper := rfl
@[simp] theorem modSlot_admissions (i : Nat) (f : Slot → Slot) : (modSlot i f s).admissions = s.admissions := rfl
@[simp] theorem modSlot_serves (i : Nat) (f : Slot → Slot) : (modSlot i f s).serves = s.serves := rfl
@[simp] theorem modSlot_refresh (i : Nat) (f : Slot → Slot) : (modSlot i f s).refresh = s.refresh := rfl
@[simp] theorem modSlot_host (i : Nat) (f : Slot → Slot) : (modSlot i f s).host = s.host := rfl
@[simp] theorem modSlot_sys (i : Nat) (f : Slot → Slot) : (modSlot i f s).sys = s.sys := rfl

/-! modArray -/

@[simp] theorem modArray_pending (a : Nat) (f : ArrayState → ArrayState) : (modArray a f s).pending = s.pending := rfl
@[simp] theorem modArray_clock (a : Nat) (f : ArrayState → ArrayState) : (modArray a f s).clock = s.clock := rfl
@[simp] theorem modArray_fresh (a : Nat) (f : ArrayState → ArrayState) : (modArray a f s).fresh = s.fresh := rfl
@[simp] theorem modArray_out (a : Nat) (f : ArrayState → ArrayState) : (modArray a f s).out = s.out := rfl
@[simp] theorem modArray_resp (a : Nat) (f : ArrayState → ArrayState) : (modArray a f s).resp = s.resp := rfl
@[simp] theorem modArray_dict (a : Nat) (f : ArrayState → ArrayState) : (modArray a f s).dict = s.dict := rfl
@[simp] theorem modArray_led (a : Nat) (f : ArrayState → ArrayState) : (modArray a f s).led = s.led := rfl
@[simp] theorem modArray_ctr (a : Nat) (f : ArrayState → ArrayState) : (modArray a f s).ctr = s.ctr := rfl
@[simp] theorem modArray_beat (a : Nat) (f : ArrayState → ArrayState) : (modArray a f s).beat = s.beat := rfl
@[simp] theorem modArray_fab (a : Nat) (f : ArrayState → ArrayState) : (modArray a f s).fab = s.fab := rfl
@[simp] theorem modArray_slots (a : Nat) (f : ArrayState → ArrayState) : (modArray a f s).slots = s.slots := rfl
@[simp] theorem modArray_arrays (a : Nat) (f : ArrayState → ArrayState) : (modArray a f s).arrays = kputD ArrayState.reset s.arrays a (f (arrayOf s a)) := rfl
@[simp] theorem modArray_kilns (a : Nat) (f : ArrayState → ArrayState) : (modArray a f s).kilns = s.kilns := rfl
@[simp] theorem modArray_mem (a : Nat) (f : ArrayState → ArrayState) : (modArray a f s).mem = s.mem := rfl
@[simp] theorem modArray_engines (a : Nat) (f : ArrayState → ArrayState) : (modArray a f s).engines = s.engines := rfl
@[simp] theorem modArray_flash (a : Nat) (f : ArrayState → ArrayState) : (modArray a f s).flash = s.flash := rfl
@[simp] theorem modArray_power (a : Nat) (f : ArrayState → ArrayState) : (modArray a f s).power = s.power := rfl
@[simp] theorem modArray_net (a : Nat) (f : ArrayState → ArrayState) : (modArray a f s).net = s.net := rfl
@[simp] theorem modArray_colls (a : Nat) (f : ArrayState → ArrayState) : (modArray a f s).colls = s.colls := rfl
@[simp] theorem modArray_secures (a : Nat) (f : ArrayState → ArrayState) : (modArray a f s).secures = s.secures := rfl
@[simp] theorem modArray_keeper (a : Nat) (f : ArrayState → ArrayState) : (modArray a f s).keeper = s.keeper := rfl
@[simp] theorem modArray_admissions (a : Nat) (f : ArrayState → ArrayState) : (modArray a f s).admissions = s.admissions := rfl
@[simp] theorem modArray_serves (a : Nat) (f : ArrayState → ArrayState) : (modArray a f s).serves = s.serves := rfl
@[simp] theorem modArray_refresh (a : Nat) (f : ArrayState → ArrayState) : (modArray a f s).refresh = s.refresh := rfl
@[simp] theorem modArray_host (a : Nat) (f : ArrayState → ArrayState) : (modArray a f s).host = s.host := rfl
@[simp] theorem modArray_sys (a : Nat) (f : ArrayState → ArrayState) : (modArray a f s).sys = s.sys := rfl

/-! modEngine -/

@[simp] theorem modEngine_pending (a : Nat) (f : Engine → Engine) : (modEngine a f s).pending = s.pending := rfl
@[simp] theorem modEngine_clock (a : Nat) (f : Engine → Engine) : (modEngine a f s).clock = s.clock := rfl
@[simp] theorem modEngine_fresh (a : Nat) (f : Engine → Engine) : (modEngine a f s).fresh = s.fresh := rfl
@[simp] theorem modEngine_out (a : Nat) (f : Engine → Engine) : (modEngine a f s).out = s.out := rfl
@[simp] theorem modEngine_resp (a : Nat) (f : Engine → Engine) : (modEngine a f s).resp = s.resp := rfl
@[simp] theorem modEngine_dict (a : Nat) (f : Engine → Engine) : (modEngine a f s).dict = s.dict := rfl
@[simp] theorem modEngine_led (a : Nat) (f : Engine → Engine) : (modEngine a f s).led = s.led := rfl
@[simp] theorem modEngine_ctr (a : Nat) (f : Engine → Engine) : (modEngine a f s).ctr = s.ctr := rfl
@[simp] theorem modEngine_beat (a : Nat) (f : Engine → Engine) : (modEngine a f s).beat = s.beat := rfl
@[simp] theorem modEngine_fab (a : Nat) (f : Engine → Engine) : (modEngine a f s).fab = s.fab := rfl
@[simp] theorem modEngine_slots (a : Nat) (f : Engine → Engine) : (modEngine a f s).slots = s.slots := rfl
@[simp] theorem modEngine_arrays (a : Nat) (f : Engine → Engine) : (modEngine a f s).arrays = s.arrays := rfl
@[simp] theorem modEngine_kilns (a : Nat) (f : Engine → Engine) : (modEngine a f s).kilns = s.kilns := rfl
@[simp] theorem modEngine_mem (a : Nat) (f : Engine → Engine) : (modEngine a f s).mem = s.mem := rfl
@[simp] theorem modEngine_engines (a : Nat) (f : Engine → Engine) : (modEngine a f s).engines = kputD Engine.reset s.engines a (f (engineOf s a)) := rfl
@[simp] theorem modEngine_flash (a : Nat) (f : Engine → Engine) : (modEngine a f s).flash = s.flash := rfl
@[simp] theorem modEngine_power (a : Nat) (f : Engine → Engine) : (modEngine a f s).power = s.power := rfl
@[simp] theorem modEngine_net (a : Nat) (f : Engine → Engine) : (modEngine a f s).net = s.net := rfl
@[simp] theorem modEngine_colls (a : Nat) (f : Engine → Engine) : (modEngine a f s).colls = s.colls := rfl
@[simp] theorem modEngine_secures (a : Nat) (f : Engine → Engine) : (modEngine a f s).secures = s.secures := rfl
@[simp] theorem modEngine_keeper (a : Nat) (f : Engine → Engine) : (modEngine a f s).keeper = s.keeper := rfl
@[simp] theorem modEngine_admissions (a : Nat) (f : Engine → Engine) : (modEngine a f s).admissions = s.admissions := rfl
@[simp] theorem modEngine_serves (a : Nat) (f : Engine → Engine) : (modEngine a f s).serves = s.serves := rfl
@[simp] theorem modEngine_refresh (a : Nat) (f : Engine → Engine) : (modEngine a f s).refresh = s.refresh := rfl
@[simp] theorem modEngine_host (a : Nat) (f : Engine → Engine) : (modEngine a f s).host = s.host := rfl
@[simp] theorem modEngine_sys (a : Nat) (f : Engine → Engine) : (modEngine a f s).sys = s.sys := rfl

/-! modBeat -/

@[simp] theorem modBeat_pending (f : Beat → Beat) : (modBeat f s).pending = s.pending := rfl
@[simp] theorem modBeat_clock (f : Beat → Beat) : (modBeat f s).clock = s.clock := rfl
@[simp] theorem modBeat_fresh (f : Beat → Beat) : (modBeat f s).fresh = s.fresh := rfl
@[simp] theorem modBeat_out (f : Beat → Beat) : (modBeat f s).out = s.out := rfl
@[simp] theorem modBeat_resp (f : Beat → Beat) : (modBeat f s).resp = s.resp := rfl
@[simp] theorem modBeat_dict (f : Beat → Beat) : (modBeat f s).dict = s.dict := rfl
@[simp] theorem modBeat_led (f : Beat → Beat) : (modBeat f s).led = s.led := rfl
@[simp] theorem modBeat_ctr (f : Beat → Beat) : (modBeat f s).ctr = s.ctr := rfl
@[simp] theorem modBeat_beat (f : Beat → Beat) : (modBeat f s).beat = f s.beat := rfl
@[simp] theorem modBeat_fab (f : Beat → Beat) : (modBeat f s).fab = s.fab := rfl
@[simp] theorem modBeat_slots (f : Beat → Beat) : (modBeat f s).slots = s.slots := rfl
@[simp] theorem modBeat_arrays (f : Beat → Beat) : (modBeat f s).arrays = s.arrays := rfl
@[simp] theorem modBeat_kilns (f : Beat → Beat) : (modBeat f s).kilns = s.kilns := rfl
@[simp] theorem modBeat_mem (f : Beat → Beat) : (modBeat f s).mem = s.mem := rfl
@[simp] theorem modBeat_engines (f : Beat → Beat) : (modBeat f s).engines = s.engines := rfl
@[simp] theorem modBeat_flash (f : Beat → Beat) : (modBeat f s).flash = s.flash := rfl
@[simp] theorem modBeat_power (f : Beat → Beat) : (modBeat f s).power = s.power := rfl
@[simp] theorem modBeat_net (f : Beat → Beat) : (modBeat f s).net = s.net := rfl
@[simp] theorem modBeat_colls (f : Beat → Beat) : (modBeat f s).colls = s.colls := rfl
@[simp] theorem modBeat_secures (f : Beat → Beat) : (modBeat f s).secures = s.secures := rfl
@[simp] theorem modBeat_keeper (f : Beat → Beat) : (modBeat f s).keeper = s.keeper := rfl
@[simp] theorem modBeat_admissions (f : Beat → Beat) : (modBeat f s).admissions = s.admissions := rfl
@[simp] theorem modBeat_serves (f : Beat → Beat) : (modBeat f s).serves = s.serves := rfl
@[simp] theorem modBeat_refresh (f : Beat → Beat) : (modBeat f s).refresh = s.refresh := rfl
@[simp] theorem modBeat_host (f : Beat → Beat) : (modBeat f s).host = s.host := rfl
@[simp] theorem modBeat_sys (f : Beat → Beat) : (modBeat f s).sys = s.sys := rfl

/-! modDict -/

@[simp] theorem modDict_pending (f : Dict → Dict) : (modDict f s).pending = s.pending := rfl
@[simp] theorem modDict_clock (f : Dict → Dict) : (modDict f s).clock = s.clock := rfl
@[simp] theorem modDict_fresh (f : Dict → Dict) : (modDict f s).fresh = s.fresh := rfl
@[simp] theorem modDict_out (f : Dict → Dict) : (modDict f s).out = s.out := rfl
@[simp] theorem modDict_resp (f : Dict → Dict) : (modDict f s).resp = s.resp := rfl
@[simp] theorem modDict_dict (f : Dict → Dict) : (modDict f s).dict = f s.dict := rfl
@[simp] theorem modDict_led (f : Dict → Dict) : (modDict f s).led = s.led := rfl
@[simp] theorem modDict_ctr (f : Dict → Dict) : (modDict f s).ctr = s.ctr := rfl
@[simp] theorem modDict_beat (f : Dict → Dict) : (modDict f s).beat = s.beat := rfl
@[simp] theorem modDict_fab (f : Dict → Dict) : (modDict f s).fab = s.fab := rfl
@[simp] theorem modDict_slots (f : Dict → Dict) : (modDict f s).slots = s.slots := rfl
@[simp] theorem modDict_arrays (f : Dict → Dict) : (modDict f s).arrays = s.arrays := rfl
@[simp] theorem modDict_kilns (f : Dict → Dict) : (modDict f s).kilns = s.kilns := rfl
@[simp] theorem modDict_mem (f : Dict → Dict) : (modDict f s).mem = s.mem := rfl
@[simp] theorem modDict_engines (f : Dict → Dict) : (modDict f s).engines = s.engines := rfl
@[simp] theorem modDict_flash (f : Dict → Dict) : (modDict f s).flash = s.flash := rfl
@[simp] theorem modDict_power (f : Dict → Dict) : (modDict f s).power = s.power := rfl
@[simp] theorem modDict_net (f : Dict → Dict) : (modDict f s).net = s.net := rfl
@[simp] theorem modDict_colls (f : Dict → Dict) : (modDict f s).colls = s.colls := rfl
@[simp] theorem modDict_secures (f : Dict → Dict) : (modDict f s).secures = s.secures := rfl
@[simp] theorem modDict_keeper (f : Dict → Dict) : (modDict f s).keeper = s.keeper := rfl
@[simp] theorem modDict_admissions (f : Dict → Dict) : (modDict f s).admissions = s.admissions := rfl
@[simp] theorem modDict_serves (f : Dict → Dict) : (modDict f s).serves = s.serves := rfl
@[simp] theorem modDict_refresh (f : Dict → Dict) : (modDict f s).refresh = s.refresh := rfl
@[simp] theorem modDict_host (f : Dict → Dict) : (modDict f s).host = s.host := rfl
@[simp] theorem modDict_sys (f : Dict → Dict) : (modDict f s).sys = s.sys := rfl

/-! modFab -/

@[simp] theorem modFab_pending (f : Fabric → Fabric) : (modFab f s).pending = s.pending := rfl
@[simp] theorem modFab_clock (f : Fabric → Fabric) : (modFab f s).clock = s.clock := rfl
@[simp] theorem modFab_fresh (f : Fabric → Fabric) : (modFab f s).fresh = s.fresh := rfl
@[simp] theorem modFab_out (f : Fabric → Fabric) : (modFab f s).out = s.out := rfl
@[simp] theorem modFab_resp (f : Fabric → Fabric) : (modFab f s).resp = s.resp := rfl
@[simp] theorem modFab_dict (f : Fabric → Fabric) : (modFab f s).dict = s.dict := rfl
@[simp] theorem modFab_led (f : Fabric → Fabric) : (modFab f s).led = s.led := rfl
@[simp] theorem modFab_ctr (f : Fabric → Fabric) : (modFab f s).ctr = s.ctr := rfl
@[simp] theorem modFab_beat (f : Fabric → Fabric) : (modFab f s).beat = s.beat := rfl
@[simp] theorem modFab_fab (f : Fabric → Fabric) : (modFab f s).fab = f s.fab := rfl
@[simp] theorem modFab_slots (f : Fabric → Fabric) : (modFab f s).slots = s.slots := rfl
@[simp] theorem modFab_arrays (f : Fabric → Fabric) : (modFab f s).arrays = s.arrays := rfl
@[simp] theorem modFab_kilns (f : Fabric → Fabric) : (modFab f s).kilns = s.kilns := rfl
@[simp] theorem modFab_mem (f : Fabric → Fabric) : (modFab f s).mem = s.mem := rfl
@[simp] theorem modFab_engines (f : Fabric → Fabric) : (modFab f s).engines = s.engines := rfl
@[simp] theorem modFab_flash (f : Fabric → Fabric) : (modFab f s).flash = s.flash := rfl
@[simp] theorem modFab_power (f : Fabric → Fabric) : (modFab f s).power = s.power := rfl
@[simp] theorem modFab_net (f : Fabric → Fabric) : (modFab f s).net = s.net := rfl
@[simp] theorem modFab_colls (f : Fabric → Fabric) : (modFab f s).colls = s.colls := rfl
@[simp] theorem modFab_secures (f : Fabric → Fabric) : (modFab f s).secures = s.secures := rfl
@[simp] theorem modFab_keeper (f : Fabric → Fabric) : (modFab f s).keeper = s.keeper := rfl
@[simp] theorem modFab_admissions (f : Fabric → Fabric) : (modFab f s).admissions = s.admissions := rfl
@[simp] theorem modFab_serves (f : Fabric → Fabric) : (modFab f s).serves = s.serves := rfl
@[simp] theorem modFab_refresh (f : Fabric → Fabric) : (modFab f s).refresh = s.refresh := rfl
@[simp] theorem modFab_host (f : Fabric → Fabric) : (modFab f s).host = s.host := rfl
@[simp] theorem modFab_sys (f : Fabric → Fabric) : (modFab f s).sys = s.sys := rfl

/-! modPower -/

@[simp] theorem modPower_pending (f : Power → Power) : (modPower f s).pending = s.pending := rfl
@[simp] theorem modPower_clock (f : Power → Power) : (modPower f s).clock = s.clock := rfl
@[simp] theorem modPower_fresh (f : Power → Power) : (modPower f s).fresh = s.fresh := rfl
@[simp] theorem modPower_out (f : Power → Power) : (modPower f s).out = s.out := rfl
@[simp] theorem modPower_resp (f : Power → Power) : (modPower f s).resp = s.resp := rfl
@[simp] theorem modPower_dict (f : Power → Power) : (modPower f s).dict = s.dict := rfl
@[simp] theorem modPower_led (f : Power → Power) : (modPower f s).led = s.led := rfl
@[simp] theorem modPower_ctr (f : Power → Power) : (modPower f s).ctr = s.ctr := rfl
@[simp] theorem modPower_beat (f : Power → Power) : (modPower f s).beat = s.beat := rfl
@[simp] theorem modPower_fab (f : Power → Power) : (modPower f s).fab = s.fab := rfl
@[simp] theorem modPower_slots (f : Power → Power) : (modPower f s).slots = s.slots := rfl
@[simp] theorem modPower_arrays (f : Power → Power) : (modPower f s).arrays = s.arrays := rfl
@[simp] theorem modPower_kilns (f : Power → Power) : (modPower f s).kilns = s.kilns := rfl
@[simp] theorem modPower_mem (f : Power → Power) : (modPower f s).mem = s.mem := rfl
@[simp] theorem modPower_engines (f : Power → Power) : (modPower f s).engines = s.engines := rfl
@[simp] theorem modPower_flash (f : Power → Power) : (modPower f s).flash = s.flash := rfl
@[simp] theorem modPower_power (f : Power → Power) : (modPower f s).power = f s.power := rfl
@[simp] theorem modPower_net (f : Power → Power) : (modPower f s).net = s.net := rfl
@[simp] theorem modPower_colls (f : Power → Power) : (modPower f s).colls = s.colls := rfl
@[simp] theorem modPower_secures (f : Power → Power) : (modPower f s).secures = s.secures := rfl
@[simp] theorem modPower_keeper (f : Power → Power) : (modPower f s).keeper = s.keeper := rfl
@[simp] theorem modPower_admissions (f : Power → Power) : (modPower f s).admissions = s.admissions := rfl
@[simp] theorem modPower_serves (f : Power → Power) : (modPower f s).serves = s.serves := rfl
@[simp] theorem modPower_refresh (f : Power → Power) : (modPower f s).refresh = s.refresh := rfl
@[simp] theorem modPower_host (f : Power → Power) : (modPower f s).host = s.host := rfl
@[simp] theorem modPower_sys (f : Power → Power) : (modPower f s).sys = s.sys := rfl

/-! modNet -/

@[simp] theorem modNet_pending (f : Net → Net) : (modNet f s).pending = s.pending := rfl
@[simp] theorem modNet_clock (f : Net → Net) : (modNet f s).clock = s.clock := rfl
@[simp] theorem modNet_fresh (f : Net → Net) : (modNet f s).fresh = s.fresh := rfl
@[simp] theorem modNet_out (f : Net → Net) : (modNet f s).out = s.out := rfl
@[simp] theorem modNet_resp (f : Net → Net) : (modNet f s).resp = s.resp := rfl
@[simp] theorem modNet_dict (f : Net → Net) : (modNet f s).dict = s.dict := rfl
@[simp] theorem modNet_led (f : Net → Net) : (modNet f s).led = s.led := rfl
@[simp] theorem modNet_ctr (f : Net → Net) : (modNet f s).ctr = s.ctr := rfl
@[simp] theorem modNet_beat (f : Net → Net) : (modNet f s).beat = s.beat := rfl
@[simp] theorem modNet_fab (f : Net → Net) : (modNet f s).fab = s.fab := rfl
@[simp] theorem modNet_slots (f : Net → Net) : (modNet f s).slots = s.slots := rfl
@[simp] theorem modNet_arrays (f : Net → Net) : (modNet f s).arrays = s.arrays := rfl
@[simp] theorem modNet_kilns (f : Net → Net) : (modNet f s).kilns = s.kilns := rfl
@[simp] theorem modNet_mem (f : Net → Net) : (modNet f s).mem = s.mem := rfl
@[simp] theorem modNet_engines (f : Net → Net) : (modNet f s).engines = s.engines := rfl
@[simp] theorem modNet_flash (f : Net → Net) : (modNet f s).flash = s.flash := rfl
@[simp] theorem modNet_power (f : Net → Net) : (modNet f s).power = s.power := rfl
@[simp] theorem modNet_net (f : Net → Net) : (modNet f s).net = f s.net := rfl
@[simp] theorem modNet_colls (f : Net → Net) : (modNet f s).colls = s.colls := rfl
@[simp] theorem modNet_secures (f : Net → Net) : (modNet f s).secures = s.secures := rfl
@[simp] theorem modNet_keeper (f : Net → Net) : (modNet f s).keeper = s.keeper := rfl
@[simp] theorem modNet_admissions (f : Net → Net) : (modNet f s).admissions = s.admissions := rfl
@[simp] theorem modNet_serves (f : Net → Net) : (modNet f s).serves = s.serves := rfl
@[simp] theorem modNet_refresh (f : Net → Net) : (modNet f s).refresh = s.refresh := rfl
@[simp] theorem modNet_host (f : Net → Net) : (modNet f s).host = s.host := rfl
@[simp] theorem modNet_sys (f : Net → Net) : (modNet f s).sys = s.sys := rfl

/-! modHost -/

@[simp] theorem modHost_pending (f : HostPort → HostPort) : (modHost f s).pending = s.pending := rfl
@[simp] theorem modHost_clock (f : HostPort → HostPort) : (modHost f s).clock = s.clock := rfl
@[simp] theorem modHost_fresh (f : HostPort → HostPort) : (modHost f s).fresh = s.fresh := rfl
@[simp] theorem modHost_out (f : HostPort → HostPort) : (modHost f s).out = s.out := rfl
@[simp] theorem modHost_resp (f : HostPort → HostPort) : (modHost f s).resp = s.resp := rfl
@[simp] theorem modHost_dict (f : HostPort → HostPort) : (modHost f s).dict = s.dict := rfl
@[simp] theorem modHost_led (f : HostPort → HostPort) : (modHost f s).led = s.led := rfl
@[simp] theorem modHost_ctr (f : HostPort → HostPort) : (modHost f s).ctr = s.ctr := rfl
@[simp] theorem modHost_beat (f : HostPort → HostPort) : (modHost f s).beat = s.beat := rfl
@[simp] theorem modHost_fab (f : HostPort → HostPort) : (modHost f s).fab = s.fab := rfl
@[simp] theorem modHost_slots (f : HostPort → HostPort) : (modHost f s).slots = s.slots := rfl
@[simp] theorem modHost_arrays (f : HostPort → HostPort) : (modHost f s).arrays = s.arrays := rfl
@[simp] theorem modHost_kilns (f : HostPort → HostPort) : (modHost f s).kilns = s.kilns := rfl
@[simp] theorem modHost_mem (f : HostPort → HostPort) : (modHost f s).mem = s.mem := rfl
@[simp] theorem modHost_engines (f : HostPort → HostPort) : (modHost f s).engines = s.engines := rfl
@[simp] theorem modHost_flash (f : HostPort → HostPort) : (modHost f s).flash = s.flash := rfl
@[simp] theorem modHost_power (f : HostPort → HostPort) : (modHost f s).power = s.power := rfl
@[simp] theorem modHost_net (f : HostPort → HostPort) : (modHost f s).net = s.net := rfl
@[simp] theorem modHost_colls (f : HostPort → HostPort) : (modHost f s).colls = s.colls := rfl
@[simp] theorem modHost_secures (f : HostPort → HostPort) : (modHost f s).secures = s.secures := rfl
@[simp] theorem modHost_keeper (f : HostPort → HostPort) : (modHost f s).keeper = s.keeper := rfl
@[simp] theorem modHost_admissions (f : HostPort → HostPort) : (modHost f s).admissions = s.admissions := rfl
@[simp] theorem modHost_serves (f : HostPort → HostPort) : (modHost f s).serves = s.serves := rfl
@[simp] theorem modHost_refresh (f : HostPort → HostPort) : (modHost f s).refresh = s.refresh := rfl
@[simp] theorem modHost_host (f : HostPort → HostPort) : (modHost f s).host = f s.host := rfl
@[simp] theorem modHost_sys (f : HostPort → HostPort) : (modHost f s).sys = s.sys := rfl

/-! modSys -/

@[simp] theorem modSys_pending (f : Sys → Sys) : (modSys f s).pending = s.pending := rfl
@[simp] theorem modSys_clock (f : Sys → Sys) : (modSys f s).clock = s.clock := rfl
@[simp] theorem modSys_fresh (f : Sys → Sys) : (modSys f s).fresh = s.fresh := rfl
@[simp] theorem modSys_out (f : Sys → Sys) : (modSys f s).out = s.out := rfl
@[simp] theorem modSys_resp (f : Sys → Sys) : (modSys f s).resp = s.resp := rfl
@[simp] theorem modSys_dict (f : Sys → Sys) : (modSys f s).dict = s.dict := rfl
@[simp] theorem modSys_led (f : Sys → Sys) : (modSys f s).led = s.led := rfl
@[simp] theorem modSys_ctr (f : Sys → Sys) : (modSys f s).ctr = s.ctr := rfl
@[simp] theorem modSys_beat (f : Sys → Sys) : (modSys f s).beat = s.beat := rfl
@[simp] theorem modSys_fab (f : Sys → Sys) : (modSys f s).fab = s.fab := rfl
@[simp] theorem modSys_slots (f : Sys → Sys) : (modSys f s).slots = s.slots := rfl
@[simp] theorem modSys_arrays (f : Sys → Sys) : (modSys f s).arrays = s.arrays := rfl
@[simp] theorem modSys_kilns (f : Sys → Sys) : (modSys f s).kilns = s.kilns := rfl
@[simp] theorem modSys_mem (f : Sys → Sys) : (modSys f s).mem = s.mem := rfl
@[simp] theorem modSys_engines (f : Sys → Sys) : (modSys f s).engines = s.engines := rfl
@[simp] theorem modSys_flash (f : Sys → Sys) : (modSys f s).flash = s.flash := rfl
@[simp] theorem modSys_power (f : Sys → Sys) : (modSys f s).power = s.power := rfl
@[simp] theorem modSys_net (f : Sys → Sys) : (modSys f s).net = s.net := rfl
@[simp] theorem modSys_colls (f : Sys → Sys) : (modSys f s).colls = s.colls := rfl
@[simp] theorem modSys_secures (f : Sys → Sys) : (modSys f s).secures = s.secures := rfl
@[simp] theorem modSys_keeper (f : Sys → Sys) : (modSys f s).keeper = s.keeper := rfl
@[simp] theorem modSys_admissions (f : Sys → Sys) : (modSys f s).admissions = s.admissions := rfl
@[simp] theorem modSys_serves (f : Sys → Sys) : (modSys f s).serves = s.serves := rfl
@[simp] theorem modSys_refresh (f : Sys → Sys) : (modSys f s).refresh = s.refresh := rfl
@[simp] theorem modSys_host (f : Sys → Sys) : (modSys f s).host = s.host := rfl
@[simp] theorem modSys_sys (f : Sys → Sys) : (modSys f s).sys = f s.sys := rfl

/-! modKeeper -/

@[simp] theorem modKeeper_pending (f : Keeper → Keeper) : (modKeeper f s).pending = s.pending := rfl
@[simp] theorem modKeeper_clock (f : Keeper → Keeper) : (modKeeper f s).clock = s.clock := rfl
@[simp] theorem modKeeper_fresh (f : Keeper → Keeper) : (modKeeper f s).fresh = s.fresh := rfl
@[simp] theorem modKeeper_out (f : Keeper → Keeper) : (modKeeper f s).out = s.out := rfl
@[simp] theorem modKeeper_resp (f : Keeper → Keeper) : (modKeeper f s).resp = s.resp := rfl
@[simp] theorem modKeeper_dict (f : Keeper → Keeper) : (modKeeper f s).dict = s.dict := rfl
@[simp] theorem modKeeper_led (f : Keeper → Keeper) : (modKeeper f s).led = s.led := rfl
@[simp] theorem modKeeper_ctr (f : Keeper → Keeper) : (modKeeper f s).ctr = s.ctr := rfl
@[simp] theorem modKeeper_beat (f : Keeper → Keeper) : (modKeeper f s).beat = s.beat := rfl
@[simp] theorem modKeeper_fab (f : Keeper → Keeper) : (modKeeper f s).fab = s.fab := rfl
@[simp] theorem modKeeper_slots (f : Keeper → Keeper) : (modKeeper f s).slots = s.slots := rfl
@[simp] theorem modKeeper_arrays (f : Keeper → Keeper) : (modKeeper f s).arrays = s.arrays := rfl
@[simp] theorem modKeeper_kilns (f : Keeper → Keeper) : (modKeeper f s).kilns = s.kilns := rfl
@[simp] theorem modKeeper_mem (f : Keeper → Keeper) : (modKeeper f s).mem = s.mem := rfl
@[simp] theorem modKeeper_engines (f : Keeper → Keeper) : (modKeeper f s).engines = s.engines := rfl
@[simp] theorem modKeeper_flash (f : Keeper → Keeper) : (modKeeper f s).flash = s.flash := rfl
@[simp] theorem modKeeper_power (f : Keeper → Keeper) : (modKeeper f s).power = s.power := rfl
@[simp] theorem modKeeper_net (f : Keeper → Keeper) : (modKeeper f s).net = s.net := rfl
@[simp] theorem modKeeper_colls (f : Keeper → Keeper) : (modKeeper f s).colls = s.colls := rfl
@[simp] theorem modKeeper_secures (f : Keeper → Keeper) : (modKeeper f s).secures = s.secures := rfl
@[simp] theorem modKeeper_keeper (f : Keeper → Keeper) : (modKeeper f s).keeper = f s.keeper := rfl
@[simp] theorem modKeeper_admissions (f : Keeper → Keeper) : (modKeeper f s).admissions = s.admissions := rfl
@[simp] theorem modKeeper_serves (f : Keeper → Keeper) : (modKeeper f s).serves = s.serves := rfl
@[simp] theorem modKeeper_refresh (f : Keeper → Keeper) : (modKeeper f s).refresh = s.refresh := rfl
@[simp] theorem modKeeper_host (f : Keeper → Keeper) : (modKeeper f s).host = s.host := rfl
@[simp] theorem modKeeper_sys (f : Keeper → Keeper) : (modKeeper f s).sys = s.sys := rfl

/-! modColl -/

@[simp] theorem modColl_pending (i : Nat) (f : Coll → Coll) : (modColl i f s).pending = s.pending := rfl
@[simp] theorem modColl_clock (i : Nat) (f : Coll → Coll) : (modColl i f s).clock = s.clock := rfl
@[simp] theorem modColl_fresh (i : Nat) (f : Coll → Coll) : (modColl i f s).fresh = s.fresh := rfl
@[simp] theorem modColl_out (i : Nat) (f : Coll → Coll) : (modColl i f s).out = s.out := rfl
@[simp] theorem modColl_resp (i : Nat) (f : Coll → Coll) : (modColl i f s).resp = s.resp := rfl
@[simp] theorem modColl_dict (i : Nat) (f : Coll → Coll) : (modColl i f s).dict = s.dict := rfl
@[simp] theorem modColl_led (i : Nat) (f : Coll → Coll) : (modColl i f s).led = s.led := rfl
@[simp] theorem modColl_ctr (i : Nat) (f : Coll → Coll) : (modColl i f s).ctr = s.ctr := rfl
@[simp] theorem modColl_beat (i : Nat) (f : Coll → Coll) : (modColl i f s).beat = s.beat := rfl
@[simp] theorem modColl_fab (i : Nat) (f : Coll → Coll) : (modColl i f s).fab = s.fab := rfl
@[simp] theorem modColl_slots (i : Nat) (f : Coll → Coll) : (modColl i f s).slots = s.slots := rfl
@[simp] theorem modColl_arrays (i : Nat) (f : Coll → Coll) : (modColl i f s).arrays = s.arrays := rfl
@[simp] theorem modColl_kilns (i : Nat) (f : Coll → Coll) : (modColl i f s).kilns = s.kilns := rfl
@[simp] theorem modColl_mem (i : Nat) (f : Coll → Coll) : (modColl i f s).mem = s.mem := rfl
@[simp] theorem modColl_engines (i : Nat) (f : Coll → Coll) : (modColl i f s).engines = s.engines := rfl
@[simp] theorem modColl_flash (i : Nat) (f : Coll → Coll) : (modColl i f s).flash = s.flash := rfl
@[simp] theorem modColl_power (i : Nat) (f : Coll → Coll) : (modColl i f s).power = s.power := rfl
@[simp] theorem modColl_net (i : Nat) (f : Coll → Coll) : (modColl i f s).net = s.net := rfl
@[simp] theorem modColl_colls (i : Nat) (f : Coll → Coll) : (modColl i f s).colls = kmodD Coll.none s.colls i f := rfl
@[simp] theorem modColl_secures (i : Nat) (f : Coll → Coll) : (modColl i f s).secures = s.secures := rfl
@[simp] theorem modColl_keeper (i : Nat) (f : Coll → Coll) : (modColl i f s).keeper = s.keeper := rfl
@[simp] theorem modColl_admissions (i : Nat) (f : Coll → Coll) : (modColl i f s).admissions = s.admissions := rfl
@[simp] theorem modColl_serves (i : Nat) (f : Coll → Coll) : (modColl i f s).serves = s.serves := rfl
@[simp] theorem modColl_refresh (i : Nat) (f : Coll → Coll) : (modColl i f s).refresh = s.refresh := rfl
@[simp] theorem modColl_host (i : Nat) (f : Coll → Coll) : (modColl i f s).host = s.host := rfl
@[simp] theorem modColl_sys (i : Nat) (f : Coll → Coll) : (modColl i f s).sys = s.sys := rfl

/-! modSecure -/

@[simp] theorem modSecure_pending (i : Nat) (f : Secure → Secure) : (modSecure i f s).pending = s.pending := rfl
@[simp] theorem modSecure_clock (i : Nat) (f : Secure → Secure) : (modSecure i f s).clock = s.clock := rfl
@[simp] theorem modSecure_fresh (i : Nat) (f : Secure → Secure) : (modSecure i f s).fresh = s.fresh := rfl
@[simp] theorem modSecure_out (i : Nat) (f : Secure → Secure) : (modSecure i f s).out = s.out := rfl
@[simp] theorem modSecure_resp (i : Nat) (f : Secure → Secure) : (modSecure i f s).resp = s.resp := rfl
@[simp] theorem modSecure_dict (i : Nat) (f : Secure → Secure) : (modSecure i f s).dict = s.dict := rfl
@[simp] theorem modSecure_led (i : Nat) (f : Secure → Secure) : (modSecure i f s).led = s.led := rfl
@[simp] theorem modSecure_ctr (i : Nat) (f : Secure → Secure) : (modSecure i f s).ctr = s.ctr := rfl
@[simp] theorem modSecure_beat (i : Nat) (f : Secure → Secure) : (modSecure i f s).beat = s.beat := rfl
@[simp] theorem modSecure_fab (i : Nat) (f : Secure → Secure) : (modSecure i f s).fab = s.fab := rfl
@[simp] theorem modSecure_slots (i : Nat) (f : Secure → Secure) : (modSecure i f s).slots = s.slots := rfl
@[simp] theorem modSecure_arrays (i : Nat) (f : Secure → Secure) : (modSecure i f s).arrays = s.arrays := rfl
@[simp] theorem modSecure_kilns (i : Nat) (f : Secure → Secure) : (modSecure i f s).kilns = s.kilns := rfl
@[simp] theorem modSecure_mem (i : Nat) (f : Secure → Secure) : (modSecure i f s).mem = s.mem := rfl
@[simp] theorem modSecure_engines (i : Nat) (f : Secure → Secure) : (modSecure i f s).engines = s.engines := rfl
@[simp] theorem modSecure_flash (i : Nat) (f : Secure → Secure) : (modSecure i f s).flash = s.flash := rfl
@[simp] theorem modSecure_power (i : Nat) (f : Secure → Secure) : (modSecure i f s).power = s.power := rfl
@[simp] theorem modSecure_net (i : Nat) (f : Secure → Secure) : (modSecure i f s).net = s.net := rfl
@[simp] theorem modSecure_colls (i : Nat) (f : Secure → Secure) : (modSecure i f s).colls = s.colls := rfl
@[simp] theorem modSecure_secures (i : Nat) (f : Secure → Secure) : (modSecure i f s).secures = kmodD Secure.none s.secures i f := rfl
@[simp] theorem modSecure_keeper (i : Nat) (f : Secure → Secure) : (modSecure i f s).keeper = s.keeper := rfl
@[simp] theorem modSecure_admissions (i : Nat) (f : Secure → Secure) : (modSecure i f s).admissions = s.admissions := rfl
@[simp] theorem modSecure_serves (i : Nat) (f : Secure → Secure) : (modSecure i f s).serves = s.serves := rfl
@[simp] theorem modSecure_refresh (i : Nat) (f : Secure → Secure) : (modSecure i f s).refresh = s.refresh := rfl
@[simp] theorem modSecure_host (i : Nat) (f : Secure → Secure) : (modSecure i f s).host = s.host := rfl
@[simp] theorem modSecure_sys (i : Nat) (f : Secure → Secure) : (modSecure i f s).sys = s.sys := rfl

/-! modServe -/

@[simp] theorem modServe_pending (i : Nat) (f : Serve → Serve) : (modServe i f s).pending = s.pending := rfl
@[simp] theorem modServe_clock (i : Nat) (f : Serve → Serve) : (modServe i f s).clock = s.clock := rfl
@[simp] theorem modServe_fresh (i : Nat) (f : Serve → Serve) : (modServe i f s).fresh = s.fresh := rfl
@[simp] theorem modServe_out (i : Nat) (f : Serve → Serve) : (modServe i f s).out = s.out := rfl
@[simp] theorem modServe_resp (i : Nat) (f : Serve → Serve) : (modServe i f s).resp = s.resp := rfl
@[simp] theorem modServe_dict (i : Nat) (f : Serve → Serve) : (modServe i f s).dict = s.dict := rfl
@[simp] theorem modServe_led (i : Nat) (f : Serve → Serve) : (modServe i f s).led = s.led := rfl
@[simp] theorem modServe_ctr (i : Nat) (f : Serve → Serve) : (modServe i f s).ctr = s.ctr := rfl
@[simp] theorem modServe_beat (i : Nat) (f : Serve → Serve) : (modServe i f s).beat = s.beat := rfl
@[simp] theorem modServe_fab (i : Nat) (f : Serve → Serve) : (modServe i f s).fab = s.fab := rfl
@[simp] theorem modServe_slots (i : Nat) (f : Serve → Serve) : (modServe i f s).slots = s.slots := rfl
@[simp] theorem modServe_arrays (i : Nat) (f : Serve → Serve) : (modServe i f s).arrays = s.arrays := rfl
@[simp] theorem modServe_kilns (i : Nat) (f : Serve → Serve) : (modServe i f s).kilns = s.kilns := rfl
@[simp] theorem modServe_mem (i : Nat) (f : Serve → Serve) : (modServe i f s).mem = s.mem := rfl
@[simp] theorem modServe_engines (i : Nat) (f : Serve → Serve) : (modServe i f s).engines = s.engines := rfl
@[simp] theorem modServe_flash (i : Nat) (f : Serve → Serve) : (modServe i f s).flash = s.flash := rfl
@[simp] theorem modServe_power (i : Nat) (f : Serve → Serve) : (modServe i f s).power = s.power := rfl
@[simp] theorem modServe_net (i : Nat) (f : Serve → Serve) : (modServe i f s).net = s.net := rfl
@[simp] theorem modServe_colls (i : Nat) (f : Serve → Serve) : (modServe i f s).colls = s.colls := rfl
@[simp] theorem modServe_secures (i : Nat) (f : Serve → Serve) : (modServe i f s).secures = s.secures := rfl
@[simp] theorem modServe_keeper (i : Nat) (f : Serve → Serve) : (modServe i f s).keeper = s.keeper := rfl
@[simp] theorem modServe_admissions (i : Nat) (f : Serve → Serve) : (modServe i f s).admissions = s.admissions := rfl
@[simp] theorem modServe_serves (i : Nat) (f : Serve → Serve) : (modServe i f s).serves = kmodD Serve.none s.serves i f := rfl
@[simp] theorem modServe_refresh (i : Nat) (f : Serve → Serve) : (modServe i f s).refresh = s.refresh := rfl
@[simp] theorem modServe_host (i : Nat) (f : Serve → Serve) : (modServe i f s).host = s.host := rfl
@[simp] theorem modServe_sys (i : Nat) (f : Serve → Serve) : (modServe i f s).sys = s.sys := rfl

/-! modAdmission -/

@[simp] theorem modAdmission_pending (c : Nat) (f : Admission → Admission) : (modAdmission c f s).pending = s.pending := rfl
@[simp] theorem modAdmission_clock (c : Nat) (f : Admission → Admission) : (modAdmission c f s).clock = s.clock := rfl
@[simp] theorem modAdmission_fresh (c : Nat) (f : Admission → Admission) : (modAdmission c f s).fresh = s.fresh := rfl
@[simp] theorem modAdmission_out (c : Nat) (f : Admission → Admission) : (modAdmission c f s).out = s.out := rfl
@[simp] theorem modAdmission_resp (c : Nat) (f : Admission → Admission) : (modAdmission c f s).resp = s.resp := rfl
@[simp] theorem modAdmission_dict (c : Nat) (f : Admission → Admission) : (modAdmission c f s).dict = s.dict := rfl
@[simp] theorem modAdmission_led (c : Nat) (f : Admission → Admission) : (modAdmission c f s).led = s.led := rfl
@[simp] theorem modAdmission_ctr (c : Nat) (f : Admission → Admission) : (modAdmission c f s).ctr = s.ctr := rfl
@[simp] theorem modAdmission_beat (c : Nat) (f : Admission → Admission) : (modAdmission c f s).beat = s.beat := rfl
@[simp] theorem modAdmission_fab (c : Nat) (f : Admission → Admission) : (modAdmission c f s).fab = s.fab := rfl
@[simp] theorem modAdmission_slots (c : Nat) (f : Admission → Admission) : (modAdmission c f s).slots = s.slots := rfl
@[simp] theorem modAdmission_arrays (c : Nat) (f : Admission → Admission) : (modAdmission c f s).arrays = s.arrays := rfl
@[simp] theorem modAdmission_kilns (c : Nat) (f : Admission → Admission) : (modAdmission c f s).kilns = s.kilns := rfl
@[simp] theorem modAdmission_mem (c : Nat) (f : Admission → Admission) : (modAdmission c f s).mem = s.mem := rfl
@[simp] theorem modAdmission_engines (c : Nat) (f : Admission → Admission) : (modAdmission c f s).engines = s.engines := rfl
@[simp] theorem modAdmission_flash (c : Nat) (f : Admission → Admission) : (modAdmission c f s).flash = s.flash := rfl
@[simp] theorem modAdmission_power (c : Nat) (f : Admission → Admission) : (modAdmission c f s).power = s.power := rfl
@[simp] theorem modAdmission_net (c : Nat) (f : Admission → Admission) : (modAdmission c f s).net = s.net := rfl
@[simp] theorem modAdmission_colls (c : Nat) (f : Admission → Admission) : (modAdmission c f s).colls = s.colls := rfl
@[simp] theorem modAdmission_secures (c : Nat) (f : Admission → Admission) : (modAdmission c f s).secures = s.secures := rfl
@[simp] theorem modAdmission_keeper (c : Nat) (f : Admission → Admission) : (modAdmission c f s).keeper = s.keeper := rfl
@[simp] theorem modAdmission_admissions (c : Nat) (f : Admission → Admission) : (modAdmission c f s).admissions = kmodD Admission.none s.admissions c f := rfl
@[simp] theorem modAdmission_serves (c : Nat) (f : Admission → Admission) : (modAdmission c f s).serves = s.serves := rfl
@[simp] theorem modAdmission_refresh (c : Nat) (f : Admission → Admission) : (modAdmission c f s).refresh = s.refresh := rfl
@[simp] theorem modAdmission_host (c : Nat) (f : Admission → Admission) : (modAdmission c f s).host = s.host := rfl
@[simp] theorem modAdmission_sys (c : Nat) (f : Admission → Admission) : (modAdmission c f s).sys = s.sys := rfl

/-! emit -/

@[simp] theorem emit_pending (o : Out) : (emit o s).pending = s.pending := rfl
@[simp] theorem emit_clock (o : Out) : (emit o s).clock = s.clock := rfl
@[simp] theorem emit_fresh (o : Out) : (emit o s).fresh = s.fresh := rfl
@[simp] theorem emit_out (o : Out) : (emit o s).out = s.out ++ [o] := rfl
@[simp] theorem emit_resp (o : Out) : (emit o s).resp = s.resp := rfl
@[simp] theorem emit_dict (o : Out) : (emit o s).dict = s.dict := rfl
@[simp] theorem emit_led (o : Out) : (emit o s).led = s.led := rfl
@[simp] theorem emit_ctr (o : Out) : (emit o s).ctr = s.ctr := rfl
@[simp] theorem emit_beat (o : Out) : (emit o s).beat = s.beat := rfl
@[simp] theorem emit_fab (o : Out) : (emit o s).fab = s.fab := rfl
@[simp] theorem emit_slots (o : Out) : (emit o s).slots = s.slots := rfl
@[simp] theorem emit_arrays (o : Out) : (emit o s).arrays = s.arrays := rfl
@[simp] theorem emit_kilns (o : Out) : (emit o s).kilns = s.kilns := rfl
@[simp] theorem emit_mem (o : Out) : (emit o s).mem = s.mem := rfl
@[simp] theorem emit_engines (o : Out) : (emit o s).engines = s.engines := rfl
@[simp] theorem emit_flash (o : Out) : (emit o s).flash = s.flash := rfl
@[simp] theorem emit_power (o : Out) : (emit o s).power = s.power := rfl
@[simp] theorem emit_net (o : Out) : (emit o s).net = s.net := rfl
@[simp] theorem emit_colls (o : Out) : (emit o s).colls = s.colls := rfl
@[simp] theorem emit_secures (o : Out) : (emit o s).secures = s.secures := rfl
@[simp] theorem emit_keeper (o : Out) : (emit o s).keeper = s.keeper := rfl
@[simp] theorem emit_admissions (o : Out) : (emit o s).admissions = s.admissions := rfl
@[simp] theorem emit_serves (o : Out) : (emit o s).serves = s.serves := rfl
@[simp] theorem emit_refresh (o : Out) : (emit o s).refresh = s.refresh := rfl
@[simp] theorem emit_host (o : Out) : (emit o s).host = s.host := rfl
@[simp] theorem emit_sys (o : Out) : (emit o s).sys = s.sys := rfl

/-! draw -/

@[simp] theorem draw_pending : (draw s).pending = s.pending := rfl
@[simp] theorem draw_clock : (draw s).clock = s.clock := rfl
@[simp] theorem draw_fresh : (draw s).fresh = s.fresh + 1 := rfl
@[simp] theorem draw_out : (draw s).out = s.out := rfl
@[simp] theorem draw_resp : (draw s).resp = s.resp := rfl
@[simp] theorem draw_dict : (draw s).dict = s.dict := rfl
@[simp] theorem draw_led : (draw s).led = s.led := rfl
@[simp] theorem draw_ctr : (draw s).ctr = s.ctr := rfl
@[simp] theorem draw_beat : (draw s).beat = s.beat := rfl
@[simp] theorem draw_fab : (draw s).fab = s.fab := rfl
@[simp] theorem draw_slots : (draw s).slots = s.slots := rfl
@[simp] theorem draw_arrays : (draw s).arrays = s.arrays := rfl
@[simp] theorem draw_kilns : (draw s).kilns = s.kilns := rfl
@[simp] theorem draw_mem : (draw s).mem = s.mem := rfl
@[simp] theorem draw_engines : (draw s).engines = s.engines := rfl
@[simp] theorem draw_flash : (draw s).flash = s.flash := rfl
@[simp] theorem draw_power : (draw s).power = s.power := rfl
@[simp] theorem draw_net : (draw s).net = s.net := rfl
@[simp] theorem draw_colls : (draw s).colls = s.colls := rfl
@[simp] theorem draw_secures : (draw s).secures = s.secures := rfl
@[simp] theorem draw_keeper : (draw s).keeper = s.keeper := rfl
@[simp] theorem draw_admissions : (draw s).admissions = s.admissions := rfl
@[simp] theorem draw_serves : (draw s).serves = s.serves := rfl
@[simp] theorem draw_refresh : (draw s).refresh = s.refresh := rfl
@[simp] theorem draw_host : (draw s).host = s.host := rfl
@[simp] theorem draw_sys : (draw s).sys = s.sys := rfl

/-! count -/

@[simp] theorem count_pending (index inst n : Nat) : (count index inst n s).pending = s.pending := rfl
@[simp] theorem count_clock (index inst n : Nat) : (count index inst n s).clock = s.clock := rfl
@[simp] theorem count_fresh (index inst n : Nat) : (count index inst n s).fresh = s.fresh := rfl
@[simp] theorem count_out (index inst n : Nat) : (count index inst n s).out = s.out := rfl
@[simp] theorem count_resp (index inst n : Nat) : (count index inst n s).resp = s.resp := rfl
@[simp] theorem count_dict (index inst n : Nat) : (count index inst n s).dict = s.dict := rfl
@[simp] theorem count_led (index inst n : Nat) : (count index inst n s).led = s.led := rfl
@[simp] theorem count_beat (index inst n : Nat) : (count index inst n s).beat = s.beat := rfl
@[simp] theorem count_fab (index inst n : Nat) : (count index inst n s).fab = s.fab := rfl
@[simp] theorem count_slots (index inst n : Nat) : (count index inst n s).slots = s.slots := rfl
@[simp] theorem count_arrays (index inst n : Nat) : (count index inst n s).arrays = s.arrays := rfl
@[simp] theorem count_kilns (index inst n : Nat) : (count index inst n s).kilns = s.kilns := rfl
@[simp] theorem count_mem (index inst n : Nat) : (count index inst n s).mem = s.mem := rfl
@[simp] theorem count_engines (index inst n : Nat) : (count index inst n s).engines = s.engines := rfl
@[simp] theorem count_flash (index inst n : Nat) : (count index inst n s).flash = s.flash := rfl
@[simp] theorem count_power (index inst n : Nat) : (count index inst n s).power = s.power := rfl
@[simp] theorem count_net (index inst n : Nat) : (count index inst n s).net = s.net := rfl
@[simp] theorem count_colls (index inst n : Nat) : (count index inst n s).colls = s.colls := rfl
@[simp] theorem count_secures (index inst n : Nat) : (count index inst n s).secures = s.secures := rfl
@[simp] theorem count_keeper (index inst n : Nat) : (count index inst n s).keeper = s.keeper := rfl
@[simp] theorem count_admissions (index inst n : Nat) : (count index inst n s).admissions = s.admissions := rfl
@[simp] theorem count_serves (index inst n : Nat) : (count index inst n s).serves = s.serves := rfl
@[simp] theorem count_refresh (index inst n : Nat) : (count index inst n s).refresh = s.refresh := rfl
@[simp] theorem count_host (index inst n : Nat) : (count index inst n s).host = s.host := rfl
@[simp] theorem count_sys (index inst n : Nat) : (count index inst n s).sys = s.sys := rfl

/-! countStation -/

@[simp] theorem countStation_pending (slot station k n : Nat) : (countStation slot station k n s).pending = s.pending := rfl
@[simp] theorem countStation_clock (slot station k n : Nat) : (countStation slot station k n s).clock = s.clock := rfl
@[simp] theorem countStation_fresh (slot station k n : Nat) : (countStation slot station k n s).fresh = s.fresh := rfl
@[simp] theorem countStation_out (slot station k n : Nat) : (countStation slot station k n s).out = s.out := rfl
@[simp] theorem countStation_resp (slot station k n : Nat) : (countStation slot station k n s).resp = s.resp := rfl
@[simp] theorem countStation_dict (slot station k n : Nat) : (countStation slot station k n s).dict = s.dict := rfl
@[simp] theorem countStation_led (slot station k n : Nat) : (countStation slot station k n s).led = s.led := rfl
@[simp] theorem countStation_beat (slot station k n : Nat) : (countStation slot station k n s).beat = s.beat := rfl
@[simp] theorem countStation_fab (slot station k n : Nat) : (countStation slot station k n s).fab = s.fab := rfl
@[simp] theorem countStation_slots (slot station k n : Nat) : (countStation slot station k n s).slots = s.slots := rfl
@[simp] theorem countStation_arrays (slot station k n : Nat) : (countStation slot station k n s).arrays = s.arrays := rfl
@[simp] theorem countStation_kilns (slot station k n : Nat) : (countStation slot station k n s).kilns = s.kilns := rfl
@[simp] theorem countStation_mem (slot station k n : Nat) : (countStation slot station k n s).mem = s.mem := rfl
@[simp] theorem countStation_engines (slot station k n : Nat) : (countStation slot station k n s).engines = s.engines := rfl
@[simp] theorem countStation_flash (slot station k n : Nat) : (countStation slot station k n s).flash = s.flash := rfl
@[simp] theorem countStation_power (slot station k n : Nat) : (countStation slot station k n s).power = s.power := rfl
@[simp] theorem countStation_net (slot station k n : Nat) : (countStation slot station k n s).net = s.net := rfl
@[simp] theorem countStation_colls (slot station k n : Nat) : (countStation slot station k n s).colls = s.colls := rfl
@[simp] theorem countStation_secures (slot station k n : Nat) : (countStation slot station k n s).secures = s.secures := rfl
@[simp] theorem countStation_keeper (slot station k n : Nat) : (countStation slot station k n s).keeper = s.keeper := rfl
@[simp] theorem countStation_admissions (slot station k n : Nat) : (countStation slot station k n s).admissions = s.admissions := rfl
@[simp] theorem countStation_serves (slot station k n : Nat) : (countStation slot station k n s).serves = s.serves := rfl
@[simp] theorem countStation_refresh (slot station k n : Nat) : (countStation slot station k n s).refresh = s.refresh := rfl
@[simp] theorem countStation_host (slot station k n : Nat) : (countStation slot station k n s).host = s.host := rfl
@[simp] theorem countStation_sys (slot station k n : Nat) : (countStation slot station k n s).sys = s.sys := rfl

/-! stepRecord -/

@[simp] theorem stepRecord_pending (b : Bytes) : (stepRecord b s).pending = s.pending := rfl
@[simp] theorem stepRecord_clock (b : Bytes) : (stepRecord b s).clock = s.clock := rfl
@[simp] theorem stepRecord_fresh (b : Bytes) : (stepRecord b s).fresh = s.fresh := rfl
@[simp] theorem stepRecord_out (b : Bytes) : (stepRecord b s).out = s.out := rfl
@[simp] theorem stepRecord_resp (b : Bytes) : (stepRecord b s).resp = s.resp := rfl
@[simp] theorem stepRecord_dict (b : Bytes) : (stepRecord b s).dict = s.dict := rfl
@[simp] theorem stepRecord_ctr (b : Bytes) : (stepRecord b s).ctr = s.ctr := rfl
@[simp] theorem stepRecord_beat (b : Bytes) : (stepRecord b s).beat = s.beat := rfl
@[simp] theorem stepRecord_fab (b : Bytes) : (stepRecord b s).fab = s.fab := rfl
@[simp] theorem stepRecord_slots (b : Bytes) : (stepRecord b s).slots = s.slots := rfl
@[simp] theorem stepRecord_arrays (b : Bytes) : (stepRecord b s).arrays = s.arrays := rfl
@[simp] theorem stepRecord_kilns (b : Bytes) : (stepRecord b s).kilns = s.kilns := rfl
@[simp] theorem stepRecord_mem (b : Bytes) : (stepRecord b s).mem = s.mem := rfl
@[simp] theorem stepRecord_engines (b : Bytes) : (stepRecord b s).engines = s.engines := rfl
@[simp] theorem stepRecord_flash (b : Bytes) : (stepRecord b s).flash = s.flash := rfl
@[simp] theorem stepRecord_power (b : Bytes) : (stepRecord b s).power = s.power := rfl
@[simp] theorem stepRecord_net (b : Bytes) : (stepRecord b s).net = s.net := rfl
@[simp] theorem stepRecord_colls (b : Bytes) : (stepRecord b s).colls = s.colls := rfl
@[simp] theorem stepRecord_secures (b : Bytes) : (stepRecord b s).secures = s.secures := rfl
@[simp] theorem stepRecord_keeper (b : Bytes) : (stepRecord b s).keeper = s.keeper := rfl
@[simp] theorem stepRecord_admissions (b : Bytes) : (stepRecord b s).admissions = s.admissions := rfl
@[simp] theorem stepRecord_serves (b : Bytes) : (stepRecord b s).serves = s.serves := rfl
@[simp] theorem stepRecord_refresh (b : Bytes) : (stepRecord b s).refresh = s.refresh := rfl
@[simp] theorem stepRecord_host (b : Bytes) : (stepRecord b s).host = s.host := rfl
@[simp] theorem stepRecord_sys (b : Bytes) : (stepRecord b s).sys = s.sys := rfl

/-! commandRecord -/

@[simp] theorem commandRecord_pending (b : Bytes) : (commandRecord b s).pending = s.pending := rfl
@[simp] theorem commandRecord_clock (b : Bytes) : (commandRecord b s).clock = s.clock := rfl
@[simp] theorem commandRecord_fresh (b : Bytes) : (commandRecord b s).fresh = s.fresh := rfl
@[simp] theorem commandRecord_out (b : Bytes) : (commandRecord b s).out = s.out := rfl
@[simp] theorem commandRecord_resp (b : Bytes) : (commandRecord b s).resp = s.resp := rfl
@[simp] theorem commandRecord_dict (b : Bytes) : (commandRecord b s).dict = s.dict := rfl
@[simp] theorem commandRecord_ctr (b : Bytes) : (commandRecord b s).ctr = s.ctr := rfl
@[simp] theorem commandRecord_beat (b : Bytes) : (commandRecord b s).beat = s.beat := rfl
@[simp] theorem commandRecord_fab (b : Bytes) : (commandRecord b s).fab = s.fab := rfl
@[simp] theorem commandRecord_slots (b : Bytes) : (commandRecord b s).slots = s.slots := rfl
@[simp] theorem commandRecord_arrays (b : Bytes) : (commandRecord b s).arrays = s.arrays := rfl
@[simp] theorem commandRecord_kilns (b : Bytes) : (commandRecord b s).kilns = s.kilns := rfl
@[simp] theorem commandRecord_mem (b : Bytes) : (commandRecord b s).mem = s.mem := rfl
@[simp] theorem commandRecord_engines (b : Bytes) : (commandRecord b s).engines = s.engines := rfl
@[simp] theorem commandRecord_flash (b : Bytes) : (commandRecord b s).flash = s.flash := rfl
@[simp] theorem commandRecord_power (b : Bytes) : (commandRecord b s).power = s.power := rfl
@[simp] theorem commandRecord_net (b : Bytes) : (commandRecord b s).net = s.net := rfl
@[simp] theorem commandRecord_colls (b : Bytes) : (commandRecord b s).colls = s.colls := rfl
@[simp] theorem commandRecord_secures (b : Bytes) : (commandRecord b s).secures = s.secures := rfl
@[simp] theorem commandRecord_keeper (b : Bytes) : (commandRecord b s).keeper = s.keeper := rfl
@[simp] theorem commandRecord_admissions (b : Bytes) : (commandRecord b s).admissions = s.admissions := rfl
@[simp] theorem commandRecord_serves (b : Bytes) : (commandRecord b s).serves = s.serves := rfl
@[simp] theorem commandRecord_refresh (b : Bytes) : (commandRecord b s).refresh = s.refresh := rfl
@[simp] theorem commandRecord_host (b : Bytes) : (commandRecord b s).host = s.host := rfl
@[simp] theorem commandRecord_sys (b : Bytes) : (commandRecord b s).sys = s.sys := rfl

/-! The parts by number, and the settings in use, under an update of another field. -/

@[simp] theorem slotOf_modArray (a : Nat) (f : ArrayState → ArrayState) (i' : Nat) : slotOf (modArray a f s) i' = slotOf s i' := rfl
@[simp] theorem slotOf_modEngine (a : Nat) (f : Engine → Engine) (i' : Nat) : slotOf (modEngine a f s) i' = slotOf s i' := rfl
@[simp] theorem slotOf_modBeat (f : Beat → Beat) (i' : Nat) : slotOf (modBeat f s) i' = slotOf s i' := rfl
@[simp] theorem slotOf_modDict (f : Dict → Dict) (i' : Nat) : slotOf (modDict f s) i' = slotOf s i' := rfl
@[simp] theorem slotOf_modFab (f : Fabric → Fabric) (i' : Nat) : slotOf (modFab f s) i' = slotOf s i' := rfl
@[simp] theorem slotOf_modPower (f : Power → Power) (i' : Nat) : slotOf (modPower f s) i' = slotOf s i' := rfl
@[simp] theorem slotOf_modNet (f : Net → Net) (i' : Nat) : slotOf (modNet f s) i' = slotOf s i' := rfl
@[simp] theorem slotOf_modHost (f : HostPort → HostPort) (i' : Nat) : slotOf (modHost f s) i' = slotOf s i' := rfl
@[simp] theorem slotOf_modSys (f : Sys → Sys) (i' : Nat) : slotOf (modSys f s) i' = slotOf s i' := rfl
@[simp] theorem slotOf_modColl (i : Nat) (f : Coll → Coll) (i' : Nat) : slotOf (modColl i f s) i' = slotOf s i' := rfl
@[simp] theorem slotOf_modSecure (i : Nat) (f : Secure → Secure) (i' : Nat) : slotOf (modSecure i f s) i' = slotOf s i' := rfl
@[simp] theorem slotOf_modServe (i : Nat) (f : Serve → Serve) (i' : Nat) : slotOf (modServe i f s) i' = slotOf s i' := rfl
@[simp] theorem slotOf_modAdmission (c : Nat) (f : Admission → Admission) (i' : Nat) : slotOf (modAdmission c f s) i' = slotOf s i' := rfl
@[simp] theorem slotOf_emit (o : Out) (i' : Nat) : slotOf (emit o s) i' = slotOf s i' := rfl
@[simp] theorem slotOf_draw (i' : Nat) : slotOf (draw s) i' = slotOf s i' := rfl
@[simp] theorem slotOf_count (index inst n : Nat) (i' : Nat) : slotOf (count index inst n s) i' = slotOf s i' := rfl
@[simp] theorem arrayOf_modSlot (i : Nat) (f : Slot → Slot) (a' : Nat) : arrayOf (modSlot i f s) a' = arrayOf s a' := rfl
@[simp] theorem arrayOf_modEngine (a : Nat) (f : Engine → Engine) (a' : Nat) : arrayOf (modEngine a f s) a' = arrayOf s a' := rfl
@[simp] theorem arrayOf_modBeat (f : Beat → Beat) (a' : Nat) : arrayOf (modBeat f s) a' = arrayOf s a' := rfl
@[simp] theorem arrayOf_modDict (f : Dict → Dict) (a' : Nat) : arrayOf (modDict f s) a' = arrayOf s a' := rfl
@[simp] theorem arrayOf_modFab (f : Fabric → Fabric) (a' : Nat) : arrayOf (modFab f s) a' = arrayOf s a' := rfl
@[simp] theorem arrayOf_modPower (f : Power → Power) (a' : Nat) : arrayOf (modPower f s) a' = arrayOf s a' := rfl
@[simp] theorem arrayOf_modNet (f : Net → Net) (a' : Nat) : arrayOf (modNet f s) a' = arrayOf s a' := rfl
@[simp] theorem arrayOf_modHost (f : HostPort → HostPort) (a' : Nat) : arrayOf (modHost f s) a' = arrayOf s a' := rfl
@[simp] theorem arrayOf_modSys (f : Sys → Sys) (a' : Nat) : arrayOf (modSys f s) a' = arrayOf s a' := rfl
@[simp] theorem arrayOf_modColl (i : Nat) (f : Coll → Coll) (a' : Nat) : arrayOf (modColl i f s) a' = arrayOf s a' := rfl
@[simp] theorem arrayOf_modSecure (i : Nat) (f : Secure → Secure) (a' : Nat) : arrayOf (modSecure i f s) a' = arrayOf s a' := rfl
@[simp] theorem arrayOf_modServe (i : Nat) (f : Serve → Serve) (a' : Nat) : arrayOf (modServe i f s) a' = arrayOf s a' := rfl
@[simp] theorem arrayOf_modAdmission (c : Nat) (f : Admission → Admission) (a' : Nat) : arrayOf (modAdmission c f s) a' = arrayOf s a' := rfl
@[simp] theorem arrayOf_emit (o : Out) (a' : Nat) : arrayOf (emit o s) a' = arrayOf s a' := rfl
@[simp] theorem arrayOf_draw (a' : Nat) : arrayOf (draw s) a' = arrayOf s a' := rfl
@[simp] theorem arrayOf_count (index inst n : Nat) (a' : Nat) : arrayOf (count index inst n s) a' = arrayOf s a' := rfl
@[simp] theorem engineOf_modSlot (i : Nat) (f : Slot → Slot) (a' : Nat) : engineOf (modSlot i f s) a' = engineOf s a' := rfl
@[simp] theorem engineOf_modArray (a : Nat) (f : ArrayState → ArrayState) (a' : Nat) : engineOf (modArray a f s) a' = engineOf s a' := rfl
@[simp] theorem engineOf_modBeat (f : Beat → Beat) (a' : Nat) : engineOf (modBeat f s) a' = engineOf s a' := rfl
@[simp] theorem engineOf_modDict (f : Dict → Dict) (a' : Nat) : engineOf (modDict f s) a' = engineOf s a' := rfl
@[simp] theorem engineOf_modFab (f : Fabric → Fabric) (a' : Nat) : engineOf (modFab f s) a' = engineOf s a' := rfl
@[simp] theorem engineOf_modPower (f : Power → Power) (a' : Nat) : engineOf (modPower f s) a' = engineOf s a' := rfl
@[simp] theorem engineOf_modNet (f : Net → Net) (a' : Nat) : engineOf (modNet f s) a' = engineOf s a' := rfl
@[simp] theorem engineOf_modHost (f : HostPort → HostPort) (a' : Nat) : engineOf (modHost f s) a' = engineOf s a' := rfl
@[simp] theorem engineOf_modSys (f : Sys → Sys) (a' : Nat) : engineOf (modSys f s) a' = engineOf s a' := rfl
@[simp] theorem engineOf_modColl (i : Nat) (f : Coll → Coll) (a' : Nat) : engineOf (modColl i f s) a' = engineOf s a' := rfl
@[simp] theorem engineOf_modSecure (i : Nat) (f : Secure → Secure) (a' : Nat) : engineOf (modSecure i f s) a' = engineOf s a' := rfl
@[simp] theorem engineOf_modServe (i : Nat) (f : Serve → Serve) (a' : Nat) : engineOf (modServe i f s) a' = engineOf s a' := rfl
@[simp] theorem engineOf_modAdmission (c : Nat) (f : Admission → Admission) (a' : Nat) : engineOf (modAdmission c f s) a' = engineOf s a' := rfl
@[simp] theorem engineOf_emit (o : Out) (a' : Nat) : engineOf (emit o s) a' = engineOf s a' := rfl
@[simp] theorem engineOf_draw (a' : Nat) : engineOf (draw s) a' = engineOf s a' := rfl
@[simp] theorem engineOf_count (index inst n : Nat) (a' : Nat) : engineOf (count index inst n s) a' = engineOf s a' := rfl
@[simp] theorem linkOf_modSlot (i : Nat) (f : Slot → Slot) (l' : Nat) : linkOf (modSlot i f s) l' = linkOf s l' := rfl
@[simp] theorem linkOf_modArray (a : Nat) (f : ArrayState → ArrayState) (l' : Nat) : linkOf (modArray a f s) l' = linkOf s l' := rfl
@[simp] theorem linkOf_modEngine (a : Nat) (f : Engine → Engine) (l' : Nat) : linkOf (modEngine a f s) l' = linkOf s l' := rfl
@[simp] theorem linkOf_modBeat (f : Beat → Beat) (l' : Nat) : linkOf (modBeat f s) l' = linkOf s l' := rfl
@[simp] theorem linkOf_modDict (f : Dict → Dict) (l' : Nat) : linkOf (modDict f s) l' = linkOf s l' := rfl
@[simp] theorem linkOf_modFab (f : Fabric → Fabric) (l' : Nat) : linkOf (modFab f s) l' = linkOf s l' := rfl
@[simp] theorem linkOf_modPower (f : Power → Power) (l' : Nat) : linkOf (modPower f s) l' = linkOf s l' := rfl
@[simp] theorem linkOf_modHost (f : HostPort → HostPort) (l' : Nat) : linkOf (modHost f s) l' = linkOf s l' := rfl
@[simp] theorem linkOf_modSys (f : Sys → Sys) (l' : Nat) : linkOf (modSys f s) l' = linkOf s l' := rfl
@[simp] theorem linkOf_modColl (i : Nat) (f : Coll → Coll) (l' : Nat) : linkOf (modColl i f s) l' = linkOf s l' := rfl
@[simp] theorem linkOf_modSecure (i : Nat) (f : Secure → Secure) (l' : Nat) : linkOf (modSecure i f s) l' = linkOf s l' := rfl
@[simp] theorem linkOf_modServe (i : Nat) (f : Serve → Serve) (l' : Nat) : linkOf (modServe i f s) l' = linkOf s l' := rfl
@[simp] theorem linkOf_modAdmission (c : Nat) (f : Admission → Admission) (l' : Nat) : linkOf (modAdmission c f s) l' = linkOf s l' := rfl
@[simp] theorem linkOf_emit (o : Out) (l' : Nat) : linkOf (emit o s) l' = linkOf s l' := rfl
@[simp] theorem linkOf_draw (l' : Nat) : linkOf (draw s) l' = linkOf s l' := rfl
@[simp] theorem linkOf_count (index inst n : Nat) (l' : Nat) : linkOf (count index inst n s) l' = linkOf s l' := rfl
@[simp] theorem collOf_modSlot (i : Nat) (f : Slot → Slot) (j' : Nat) : collOf (modSlot i f s) j' = collOf s j' := rfl
@[simp] theorem collOf_modArray (a : Nat) (f : ArrayState → ArrayState) (j' : Nat) : collOf (modArray a f s) j' = collOf s j' := rfl
@[simp] theorem collOf_modEngine (a : Nat) (f : Engine → Engine) (j' : Nat) : collOf (modEngine a f s) j' = collOf s j' := rfl
@[simp] theorem collOf_modBeat (f : Beat → Beat) (j' : Nat) : collOf (modBeat f s) j' = collOf s j' := rfl
@[simp] theorem collOf_modDict (f : Dict → Dict) (j' : Nat) : collOf (modDict f s) j' = collOf s j' := rfl
@[simp] theorem collOf_modFab (f : Fabric → Fabric) (j' : Nat) : collOf (modFab f s) j' = collOf s j' := rfl
@[simp] theorem collOf_modPower (f : Power → Power) (j' : Nat) : collOf (modPower f s) j' = collOf s j' := rfl
@[simp] theorem collOf_modNet (f : Net → Net) (j' : Nat) : collOf (modNet f s) j' = collOf s j' := rfl
@[simp] theorem collOf_modHost (f : HostPort → HostPort) (j' : Nat) : collOf (modHost f s) j' = collOf s j' := rfl
@[simp] theorem collOf_modSys (f : Sys → Sys) (j' : Nat) : collOf (modSys f s) j' = collOf s j' := rfl
@[simp] theorem collOf_modSecure (i : Nat) (f : Secure → Secure) (j' : Nat) : collOf (modSecure i f s) j' = collOf s j' := rfl
@[simp] theorem collOf_modServe (i : Nat) (f : Serve → Serve) (j' : Nat) : collOf (modServe i f s) j' = collOf s j' := rfl
@[simp] theorem collOf_modAdmission (c : Nat) (f : Admission → Admission) (j' : Nat) : collOf (modAdmission c f s) j' = collOf s j' := rfl
@[simp] theorem collOf_emit (o : Out) (j' : Nat) : collOf (emit o s) j' = collOf s j' := rfl
@[simp] theorem collOf_draw (j' : Nat) : collOf (draw s) j' = collOf s j' := rfl
@[simp] theorem collOf_count (index inst n : Nat) (j' : Nat) : collOf (count index inst n s) j' = collOf s j' := rfl
@[simp] theorem secureOf_modSlot (i : Nat) (f : Slot → Slot) (j' : Nat) : secureOf (modSlot i f s) j' = secureOf s j' := rfl
@[simp] theorem secureOf_modArray (a : Nat) (f : ArrayState → ArrayState) (j' : Nat) : secureOf (modArray a f s) j' = secureOf s j' := rfl
@[simp] theorem secureOf_modEngine (a : Nat) (f : Engine → Engine) (j' : Nat) : secureOf (modEngine a f s) j' = secureOf s j' := rfl
@[simp] theorem secureOf_modBeat (f : Beat → Beat) (j' : Nat) : secureOf (modBeat f s) j' = secureOf s j' := rfl
@[simp] theorem secureOf_modDict (f : Dict → Dict) (j' : Nat) : secureOf (modDict f s) j' = secureOf s j' := rfl
@[simp] theorem secureOf_modFab (f : Fabric → Fabric) (j' : Nat) : secureOf (modFab f s) j' = secureOf s j' := rfl
@[simp] theorem secureOf_modPower (f : Power → Power) (j' : Nat) : secureOf (modPower f s) j' = secureOf s j' := rfl
@[simp] theorem secureOf_modNet (f : Net → Net) (j' : Nat) : secureOf (modNet f s) j' = secureOf s j' := rfl
@[simp] theorem secureOf_modHost (f : HostPort → HostPort) (j' : Nat) : secureOf (modHost f s) j' = secureOf s j' := rfl
@[simp] theorem secureOf_modSys (f : Sys → Sys) (j' : Nat) : secureOf (modSys f s) j' = secureOf s j' := rfl
@[simp] theorem secureOf_modColl (i : Nat) (f : Coll → Coll) (j' : Nat) : secureOf (modColl i f s) j' = secureOf s j' := rfl
@[simp] theorem secureOf_modServe (i : Nat) (f : Serve → Serve) (j' : Nat) : secureOf (modServe i f s) j' = secureOf s j' := rfl
@[simp] theorem secureOf_modAdmission (c : Nat) (f : Admission → Admission) (j' : Nat) : secureOf (modAdmission c f s) j' = secureOf s j' := rfl
@[simp] theorem secureOf_emit (o : Out) (j' : Nat) : secureOf (emit o s) j' = secureOf s j' := rfl
@[simp] theorem secureOf_draw (j' : Nat) : secureOf (draw s) j' = secureOf s j' := rfl
@[simp] theorem secureOf_count (index inst n : Nat) (j' : Nat) : secureOf (count index inst n s) j' = secureOf s j' := rfl
@[simp] theorem serveOf_modSlot (i : Nat) (f : Slot → Slot) (j' : Nat) : serveOf (modSlot i f s) j' = serveOf s j' := rfl
@[simp] theorem serveOf_modArray (a : Nat) (f : ArrayState → ArrayState) (j' : Nat) : serveOf (modArray a f s) j' = serveOf s j' := rfl
@[simp] theorem serveOf_modEngine (a : Nat) (f : Engine → Engine) (j' : Nat) : serveOf (modEngine a f s) j' = serveOf s j' := rfl
@[simp] theorem serveOf_modBeat (f : Beat → Beat) (j' : Nat) : serveOf (modBeat f s) j' = serveOf s j' := rfl
@[simp] theorem serveOf_modDict (f : Dict → Dict) (j' : Nat) : serveOf (modDict f s) j' = serveOf s j' := rfl
@[simp] theorem serveOf_modFab (f : Fabric → Fabric) (j' : Nat) : serveOf (modFab f s) j' = serveOf s j' := rfl
@[simp] theorem serveOf_modPower (f : Power → Power) (j' : Nat) : serveOf (modPower f s) j' = serveOf s j' := rfl
@[simp] theorem serveOf_modNet (f : Net → Net) (j' : Nat) : serveOf (modNet f s) j' = serveOf s j' := rfl
@[simp] theorem serveOf_modHost (f : HostPort → HostPort) (j' : Nat) : serveOf (modHost f s) j' = serveOf s j' := rfl
@[simp] theorem serveOf_modSys (f : Sys → Sys) (j' : Nat) : serveOf (modSys f s) j' = serveOf s j' := rfl
@[simp] theorem serveOf_modColl (i : Nat) (f : Coll → Coll) (j' : Nat) : serveOf (modColl i f s) j' = serveOf s j' := rfl
@[simp] theorem serveOf_modSecure (i : Nat) (f : Secure → Secure) (j' : Nat) : serveOf (modSecure i f s) j' = serveOf s j' := rfl
@[simp] theorem serveOf_modAdmission (c : Nat) (f : Admission → Admission) (j' : Nat) : serveOf (modAdmission c f s) j' = serveOf s j' := rfl
@[simp] theorem serveOf_emit (o : Out) (j' : Nat) : serveOf (emit o s) j' = serveOf s j' := rfl
@[simp] theorem serveOf_draw (j' : Nat) : serveOf (draw s) j' = serveOf s j' := rfl
@[simp] theorem serveOf_count (index inst n : Nat) (j' : Nat) : serveOf (count index inst n s) j' = serveOf s j' := rfl
@[simp] theorem admissionOf_modSlot (i : Nat) (f : Slot → Slot) (k' : Nat) : admissionOf (modSlot i f s) k' = admissionOf s k' := rfl
@[simp] theorem admissionOf_modArray (a : Nat) (f : ArrayState → ArrayState) (k' : Nat) : admissionOf (modArray a f s) k' = admissionOf s k' := rfl
@[simp] theorem admissionOf_modEngine (a : Nat) (f : Engine → Engine) (k' : Nat) : admissionOf (modEngine a f s) k' = admissionOf s k' := rfl
@[simp] theorem admissionOf_modBeat (f : Beat → Beat) (k' : Nat) : admissionOf (modBeat f s) k' = admissionOf s k' := rfl
@[simp] theorem admissionOf_modDict (f : Dict → Dict) (k' : Nat) : admissionOf (modDict f s) k' = admissionOf s k' := rfl
@[simp] theorem admissionOf_modFab (f : Fabric → Fabric) (k' : Nat) : admissionOf (modFab f s) k' = admissionOf s k' := rfl
@[simp] theorem admissionOf_modPower (f : Power → Power) (k' : Nat) : admissionOf (modPower f s) k' = admissionOf s k' := rfl
@[simp] theorem admissionOf_modNet (f : Net → Net) (k' : Nat) : admissionOf (modNet f s) k' = admissionOf s k' := rfl
@[simp] theorem admissionOf_modHost (f : HostPort → HostPort) (k' : Nat) : admissionOf (modHost f s) k' = admissionOf s k' := rfl
@[simp] theorem admissionOf_modSys (f : Sys → Sys) (k' : Nat) : admissionOf (modSys f s) k' = admissionOf s k' := rfl
@[simp] theorem admissionOf_modColl (i : Nat) (f : Coll → Coll) (k' : Nat) : admissionOf (modColl i f s) k' = admissionOf s k' := rfl
@[simp] theorem admissionOf_modSecure (i : Nat) (f : Secure → Secure) (k' : Nat) : admissionOf (modSecure i f s) k' = admissionOf s k' := rfl
@[simp] theorem admissionOf_modServe (i : Nat) (f : Serve → Serve) (k' : Nat) : admissionOf (modServe i f s) k' = admissionOf s k' := rfl
@[simp] theorem admissionOf_emit (o : Out) (k' : Nat) : admissionOf (emit o s) k' = admissionOf s k' := rfl
@[simp] theorem admissionOf_draw (k' : Nat) : admissionOf (draw s) k' = admissionOf s k' := rfl
@[simp] theorem admissionOf_count (index inst n : Nat) (k' : Nat) : admissionOf (count index inst n s) k' = admissionOf s k' := rfl
@[simp] theorem stored_modSlot (i : Nat) (f : Slot → Slot) (x' y' : Nat) : stored (modSlot i f s) x' y' = stored s x' y' := rfl
@[simp] theorem stored_modArray (a : Nat) (f : ArrayState → ArrayState) (x' y' : Nat) : stored (modArray a f s) x' y' = stored s x' y' := rfl
@[simp] theorem stored_modEngine (a : Nat) (f : Engine → Engine) (x' y' : Nat) : stored (modEngine a f s) x' y' = stored s x' y' := rfl
@[simp] theorem stored_modBeat (f : Beat → Beat) (x' y' : Nat) : stored (modBeat f s) x' y' = stored s x' y' := rfl
@[simp] theorem stored_modFab (f : Fabric → Fabric) (x' y' : Nat) : stored (modFab f s) x' y' = stored s x' y' := rfl
@[simp] theorem stored_modPower (f : Power → Power) (x' y' : Nat) : stored (modPower f s) x' y' = stored s x' y' := rfl
@[simp] theorem stored_modNet (f : Net → Net) (x' y' : Nat) : stored (modNet f s) x' y' = stored s x' y' := rfl
@[simp] theorem stored_modHost (f : HostPort → HostPort) (x' y' : Nat) : stored (modHost f s) x' y' = stored s x' y' := rfl
@[simp] theorem stored_modSys (f : Sys → Sys) (x' y' : Nat) : stored (modSys f s) x' y' = stored s x' y' := rfl
@[simp] theorem stored_modColl (i : Nat) (f : Coll → Coll) (x' y' : Nat) : stored (modColl i f s) x' y' = stored s x' y' := rfl
@[simp] theorem stored_modSecure (i : Nat) (f : Secure → Secure) (x' y' : Nat) : stored (modSecure i f s) x' y' = stored s x' y' := rfl
@[simp] theorem stored_modServe (i : Nat) (f : Serve → Serve) (x' y' : Nat) : stored (modServe i f s) x' y' = stored s x' y' := rfl
@[simp] theorem stored_modAdmission (c : Nat) (f : Admission → Admission) (x' y' : Nat) : stored (modAdmission c f s) x' y' = stored s x' y' := rfl
@[simp] theorem stored_emit (o : Out) (x' y' : Nat) : stored (emit o s) x' y' = stored s x' y' := rfl
@[simp] theorem stored_draw (x' y' : Nat) : stored (draw s) x' y' = stored s x' y' := rfl
@[simp] theorem stored_count (index inst n : Nat) (x' y' : Nat) : stored (count index inst n s) x' y' = stored s x' y' := rfl
@[simp] theorem setting_modSlot (i : Nat) (f : Slot → Slot) (x' y' : Nat) : setting (modSlot i f s) x' y' = setting s x' y' := rfl
@[simp] theorem setting_modArray (a : Nat) (f : ArrayState → ArrayState) (x' y' : Nat) : setting (modArray a f s) x' y' = setting s x' y' := rfl
@[simp] theorem setting_modEngine (a : Nat) (f : Engine → Engine) (x' y' : Nat) : setting (modEngine a f s) x' y' = setting s x' y' := rfl
@[simp] theorem setting_modBeat (f : Beat → Beat) (x' y' : Nat) : setting (modBeat f s) x' y' = setting s x' y' := rfl
@[simp] theorem setting_modFab (f : Fabric → Fabric) (x' y' : Nat) : setting (modFab f s) x' y' = setting s x' y' := rfl
@[simp] theorem setting_modPower (f : Power → Power) (x' y' : Nat) : setting (modPower f s) x' y' = setting s x' y' := rfl
@[simp] theorem setting_modNet (f : Net → Net) (x' y' : Nat) : setting (modNet f s) x' y' = setting s x' y' := rfl
@[simp] theorem setting_modHost (f : HostPort → HostPort) (x' y' : Nat) : setting (modHost f s) x' y' = setting s x' y' := rfl
@[simp] theorem setting_modSys (f : Sys → Sys) (x' y' : Nat) : setting (modSys f s) x' y' = setting s x' y' := rfl
@[simp] theorem setting_modColl (i : Nat) (f : Coll → Coll) (x' y' : Nat) : setting (modColl i f s) x' y' = setting s x' y' := rfl
@[simp] theorem setting_modSecure (i : Nat) (f : Secure → Secure) (x' y' : Nat) : setting (modSecure i f s) x' y' = setting s x' y' := rfl
@[simp] theorem setting_modServe (i : Nat) (f : Serve → Serve) (x' y' : Nat) : setting (modServe i f s) x' y' = setting s x' y' := rfl
@[simp] theorem setting_modAdmission (c : Nat) (f : Admission → Admission) (x' y' : Nat) : setting (modAdmission c f s) x' y' = setting s x' y' := rfl
@[simp] theorem setting_emit (o : Out) (x' y' : Nat) : setting (emit o s) x' y' = setting s x' y' := rfl
@[simp] theorem setting_draw (x' y' : Nat) : setting (draw s) x' y' = setting s x' y' := rfl
@[simp] theorem setting_count (index inst n : Nat) (x' y' : Nat) : setting (count index inst n s) x' y' = setting s x' y' := rfl
@[simp] theorem inUse_modSlot (i : Nat) (f : Slot → Slot) (x' y' : Nat) : inUse (modSlot i f s) x' y' = inUse s x' y' := rfl
@[simp] theorem inUse_modArray (a : Nat) (f : ArrayState → ArrayState) (x' y' : Nat) : inUse (modArray a f s) x' y' = inUse s x' y' := rfl
@[simp] theorem inUse_modEngine (a : Nat) (f : Engine → Engine) (x' y' : Nat) : inUse (modEngine a f s) x' y' = inUse s x' y' := rfl
@[simp] theorem inUse_modBeat (f : Beat → Beat) (x' y' : Nat) : inUse (modBeat f s) x' y' = inUse s x' y' := rfl
@[simp] theorem inUse_modFab (f : Fabric → Fabric) (x' y' : Nat) : inUse (modFab f s) x' y' = inUse s x' y' := rfl
@[simp] theorem inUse_modPower (f : Power → Power) (x' y' : Nat) : inUse (modPower f s) x' y' = inUse s x' y' := rfl
@[simp] theorem inUse_modNet (f : Net → Net) (x' y' : Nat) : inUse (modNet f s) x' y' = inUse s x' y' := rfl
@[simp] theorem inUse_modHost (f : HostPort → HostPort) (x' y' : Nat) : inUse (modHost f s) x' y' = inUse s x' y' := rfl
@[simp] theorem inUse_modSys (f : Sys → Sys) (x' y' : Nat) : inUse (modSys f s) x' y' = inUse s x' y' := rfl
@[simp] theorem inUse_modColl (i : Nat) (f : Coll → Coll) (x' y' : Nat) : inUse (modColl i f s) x' y' = inUse s x' y' := rfl
@[simp] theorem inUse_modSecure (i : Nat) (f : Secure → Secure) (x' y' : Nat) : inUse (modSecure i f s) x' y' = inUse s x' y' := rfl
@[simp] theorem inUse_modServe (i : Nat) (f : Serve → Serve) (x' y' : Nat) : inUse (modServe i f s) x' y' = inUse s x' y' := rfl
@[simp] theorem inUse_modAdmission (c : Nat) (f : Admission → Admission) (x' y' : Nat) : inUse (modAdmission c f s) x' y' = inUse s x' y' := rfl
@[simp] theorem inUse_emit (o : Out) (x' y' : Nat) : inUse (emit o s) x' y' = inUse s x' y' := rfl
@[simp] theorem inUse_draw (x' y' : Nat) : inUse (draw s) x' y' = inUse s x' y' := rfl
@[simp] theorem inUse_count (index inst n : Nat) (x' y' : Nat) : inUse (count index inst n s) x' y' = inUse s x' y' := rfl

/-! Read after write, part by part. -/

@[simp] theorem slotOf_modSlot_same (i : Nat) (f : Slot → Slot) : slotOf (modSlot i f s) i = f (slotOf s i) := by
  simp [slotOf, modSlot, setSlot]

theorem slotOf_modSlot_other {i j : Nat} (f : Slot → Slot) (h : i ≠ j) : slotOf (modSlot i f s) j = slotOf s j := by
  simp [slotOf, modSlot, setSlot, kgetD_kputD_other _ _ _ h]

@[simp] theorem arrayOf_modArray_same (a : Nat) (f : ArrayState → ArrayState) : arrayOf (modArray a f s) a = f (arrayOf s a) := by
  simp [arrayOf, modArray, setArray]

theorem arrayOf_modArray_other {a b : Nat} (f : ArrayState → ArrayState) (h : a ≠ b) : arrayOf (modArray a f s) b = arrayOf s b := by
  simp [arrayOf, modArray, setArray, kgetD_kputD_other _ _ _ h]

@[simp] theorem engineOf_modEngine_same (a : Nat) (f : Engine → Engine) : engineOf (modEngine a f s) a = f (engineOf s a) := by
  simp [engineOf, modEngine, setEngine]

theorem engineOf_modEngine_other {a b : Nat} (f : Engine → Engine) (h : a ≠ b) : engineOf (modEngine a f s) b = engineOf s b := by
  simp [engineOf, modEngine, setEngine, kgetD_kputD_other _ _ _ h]

@[simp] theorem linkOf_modLink_same (l : Nat) (f : Link → Link) : linkOf (modLink l f s) l = f (linkOf s l) := by
  simp [linkOf, modLink, modNet]

theorem linkOf_modLink_other {l m : Nat} (f : Link → Link) (h : l ≠ m) : linkOf (modLink l f s) m = linkOf s m := by
  simp [linkOf, modLink, modNet, kgetD_kmodD_other _ _ _ h]

@[simp] theorem secureOf_modSecure_same (i : Nat) (f : Secure → Secure) : secureOf (modSecure i f s) i = f (secureOf s i) := by
  simp [secureOf, modSecure]

theorem secureOf_modSecure_other {i j : Nat} (f : Secure → Secure) (h : i ≠ j) : secureOf (modSecure i f s) j = secureOf s j := by
  simp [secureOf, modSecure, kgetD_kmodD_other _ _ _ h]

@[simp] theorem serveOf_modServe_same (i : Nat) (f : Serve → Serve) : serveOf (modServe i f s) i = f (serveOf s i) := by
  simp [serveOf, modServe]

theorem serveOf_modServe_other {i j : Nat} (f : Serve → Serve) (h : i ≠ j) : serveOf (modServe i f s) j = serveOf s j := by
  simp [serveOf, modServe, kgetD_kmodD_other _ _ _ h]

@[simp] theorem admissionOf_modAdmission_same (c : Nat) (f : Admission → Admission) :
    admissionOf (modAdmission c f s) c = f (admissionOf s c) := by simp [admissionOf, modAdmission]

theorem admissionOf_modAdmission_other {c d : Nat} (f : Admission → Admission) (h : c ≠ d) :
    admissionOf (modAdmission c f s) d = admissionOf s d := by simp [admissionOf, modAdmission, kgetD_kmodD_other _ _ _ h]

@[simp] theorem collOf_modColl_same (i : Nat) (f : Coll → Coll) : collOf (modColl i f s) i = f (collOf s i) := by
  simp [collOf, modColl]

theorem collOf_modColl_other {i j : Nat} (f : Coll → Coll) (h : i ≠ j) : collOf (modColl i f s) j = collOf s j := by
  simp [collOf, modColl, kgetD_kmodD_other _ _ _ h]

/-- Derived updates are updates of the part that holds them. -/
theorem modSlotBeat_eq (i : Nat) (f : SlotBeat → SlotBeat) : modSlotBeat i f s = modSlot i (fun x => { x with beat := f x.beat }) s := rfl
theorem modTrain_eq (i : Nat) (f : Training → Training) : modTrain i f s = modSlot i (fun x => { x with train := f x.train }) s := rfl
theorem modLink_eq (l : Nat) (f : Link → Link) : modLink l f s = modNet (fun n => { n with links := kmodD Link.reset n.links l f }) s := rfl

end Sys2Proof.Machine
end

