-- ==== Sys2Proof/Laws/Events.lean ====
section
/-! SUPPORT. What an interrupt cause and an event change: the ledger and the causes, nothing else. -/

namespace Sys2Proof.Machine

variable (s : State)

@[simp] theorem gather_led (f v : Nat) : (gather f v s).led = s.led := by unfold gather; split <;> rfl
@[simp] theorem gather_pending (f v : Nat) : (gather f v s).pending = s.pending := by unfold gather; split <;> rfl
@[simp] theorem gather_clock (f v : Nat) : (gather f v s).clock = s.clock := by unfold gather; split <;> rfl
@[simp] theorem gather_fresh (f v : Nat) : (gather f v s).fresh = s.fresh := by unfold gather; split <;> rfl
@[simp] theorem gather_out (f v : Nat) : (gather f v s).out = s.out := by unfold gather; split <;> rfl
@[simp] theorem gather_resp (f v : Nat) : (gather f v s).resp = s.resp := by unfold gather; split <;> rfl
@[simp] theorem gather_dict (f v : Nat) : (gather f v s).dict = s.dict := by unfold gather; split <;> rfl
@[simp] theorem gather_beat (f v : Nat) : (gather f v s).beat = s.beat := by unfold gather; split <;> rfl
@[simp] theorem gather_fab (f v : Nat) : (gather f v s).fab = s.fab := by unfold gather; split <;> rfl
@[simp] theorem gather_slots (f v : Nat) : (gather f v s).slots = s.slots := by unfold gather; split <;> rfl
@[simp] theorem gather_arrays (f v : Nat) : (gather f v s).arrays = s.arrays := by unfold gather; split <;> rfl
@[simp] theorem gather_kilns (f v : Nat) : (gather f v s).kilns = s.kilns := by unfold gather; split <;> rfl
@[simp] theorem gather_mem (f v : Nat) : (gather f v s).mem = s.mem := by unfold gather; split <;> rfl
@[simp] theorem gather_engines (f v : Nat) : (gather f v s).engines = s.engines := by unfold gather; split <;> rfl
@[simp] theorem gather_flash (f v : Nat) : (gather f v s).flash = s.flash := by unfold gather; split <;> rfl
@[simp] theorem gather_power (f v : Nat) : (gather f v s).power = s.power := by unfold gather; split <;> rfl
@[simp] theorem gather_net (f v : Nat) : (gather f v s).net = s.net := by unfold gather; split <;> rfl
@[simp] theorem gather_colls (f v : Nat) : (gather f v s).colls = s.colls := by unfold gather; split <;> rfl
@[simp] theorem gather_secures (f v : Nat) : (gather f v s).secures = s.secures := by unfold gather; split <;> rfl
@[simp] theorem gather_keeper (f v : Nat) : (gather f v s).keeper = s.keeper := by unfold gather; split <;> rfl
@[simp] theorem gather_admissions (f v : Nat) : (gather f v s).admissions = s.admissions := by unfold gather; split <;> rfl
@[simp] theorem gather_serves (f v : Nat) : (gather f v s).serves = s.serves := by unfold gather; split <;> rfl
@[simp] theorem gather_refresh (f v : Nat) : (gather f v s).refresh = s.refresh := by unfold gather; split <;> rfl
@[simp] theorem gather_host (f v : Nat) : (gather f v s).host = s.host := by unfold gather; split <;> rfl
@[simp] theorem gather_sys (f v : Nat) : (gather f v s).sys = s.sys := by unfold gather; split <;> rfl
@[simp] theorem gather_ctr_live (f v : Nat) : (gather f v s).ctr.live = s.ctr.live := by unfold gather; split <;> rfl
@[simp] theorem gather_ctr_captured (f v : Nat) : (gather f v s).ctr.captured = s.ctr.captured := by unfold gather; split <;> rfl
@[simp] theorem gather_ctr_station (f v : Nat) : (gather f v s).ctr.station = s.ctr.station := by unfold gather; split <;> rfl
@[simp] theorem gather_ctr_stationCaptured (f v : Nat) : (gather f v s).ctr.stationCaptured = s.ctr.stationCaptured := by unfold gather; split <;> rfl
@[simp] theorem gather_ctr_captureBeat (f v : Nat) : (gather f v s).ctr.captureBeat = s.ctr.captureBeat := by unfold gather; split <;> rfl
@[simp] theorem gather_ctr_clearPending (f v : Nat) : (gather f v s).ctr.clearPending = s.ctr.clearPending := by unfold gather; split <;> rfl

@[simp] theorem event_pending (code : Nat) (p : At) (d : Bytes) : (event code p d s).pending = s.pending := by simp [event]; split <;> simp
@[simp] theorem event_clock (code : Nat) (p : At) (d : Bytes) : (event code p d s).clock = s.clock := by simp [event]; split <;> simp
@[simp] theorem event_fresh (code : Nat) (p : At) (d : Bytes) : (event code p d s).fresh = s.fresh := by simp [event]; split <;> simp
@[simp] theorem event_out (code : Nat) (p : At) (d : Bytes) : (event code p d s).out = s.out := by simp [event]; split <;> simp
@[simp] theorem event_resp (code : Nat) (p : At) (d : Bytes) : (event code p d s).resp = s.resp := by simp [event]; split <;> simp
@[simp] theorem event_dict (code : Nat) (p : At) (d : Bytes) : (event code p d s).dict = s.dict := by simp [event]; split <;> simp
@[simp] theorem event_beat (code : Nat) (p : At) (d : Bytes) : (event code p d s).beat = s.beat := by simp [event]; split <;> simp
@[simp] theorem event_fab (code : Nat) (p : At) (d : Bytes) : (event code p d s).fab = s.fab := by simp [event]; split <;> simp
@[simp] theorem event_slots (code : Nat) (p : At) (d : Bytes) : (event code p d s).slots = s.slots := by simp [event]; split <;> simp
@[simp] theorem event_arrays (code : Nat) (p : At) (d : Bytes) : (event code p d s).arrays = s.arrays := by simp [event]; split <;> simp
@[simp] theorem event_kilns (code : Nat) (p : At) (d : Bytes) : (event code p d s).kilns = s.kilns := by simp [event]; split <;> simp
@[simp] theorem event_mem (code : Nat) (p : At) (d : Bytes) : (event code p d s).mem = s.mem := by simp [event]; split <;> simp
@[simp] theorem event_engines (code : Nat) (p : At) (d : Bytes) : (event code p d s).engines = s.engines := by simp [event]; split <;> simp
@[simp] theorem event_flash (code : Nat) (p : At) (d : Bytes) : (event code p d s).flash = s.flash := by simp [event]; split <;> simp
@[simp] theorem event_power (code : Nat) (p : At) (d : Bytes) : (event code p d s).power = s.power := by simp [event]; split <;> simp
@[simp] theorem event_net (code : Nat) (p : At) (d : Bytes) : (event code p d s).net = s.net := by simp [event]; split <;> simp
@[simp] theorem event_colls (code : Nat) (p : At) (d : Bytes) : (event code p d s).colls = s.colls := by simp [event]; split <;> simp
@[simp] theorem event_secures (code : Nat) (p : At) (d : Bytes) : (event code p d s).secures = s.secures := by simp [event]; split <;> simp
@[simp] theorem event_keeper (code : Nat) (p : At) (d : Bytes) : (event code p d s).keeper = s.keeper := by simp [event]; split <;> simp
@[simp] theorem event_admissions (code : Nat) (p : At) (d : Bytes) : (event code p d s).admissions = s.admissions := by simp [event]; split <;> simp
@[simp] theorem event_serves (code : Nat) (p : At) (d : Bytes) : (event code p d s).serves = s.serves := by simp [event]; split <;> simp
@[simp] theorem event_refresh (code : Nat) (p : At) (d : Bytes) : (event code p d s).refresh = s.refresh := by simp [event]; split <;> simp
@[simp] theorem event_host (code : Nat) (p : At) (d : Bytes) : (event code p d s).host = s.host := by simp [event]; split <;> simp
@[simp] theorem event_sys (code : Nat) (p : At) (d : Bytes) : (event code p d s).sys = s.sys := by simp [event]; split <;> simp
@[simp] theorem event_ctr_live (code : Nat) (p : At) (d : Bytes) : (event code p d s).ctr.live = s.ctr.live := by simp [event]; split <;> simp
@[simp] theorem event_ctr_captured (code : Nat) (p : At) (d : Bytes) : (event code p d s).ctr.captured = s.ctr.captured := by simp [event]; split <;> simp
@[simp] theorem event_ctr_station (code : Nat) (p : At) (d : Bytes) : (event code p d s).ctr.station = s.ctr.station := by simp [event]; split <;> simp
@[simp] theorem event_ctr_stationCaptured (code : Nat) (p : At) (d : Bytes) : (event code p d s).ctr.stationCaptured = s.ctr.stationCaptured := by simp [event]; split <;> simp
@[simp] theorem event_ctr_captureBeat (code : Nat) (p : At) (d : Bytes) : (event code p d s).ctr.captureBeat = s.ctr.captureBeat := by simp [event]; split <;> simp
@[simp] theorem event_ctr_clearPending (code : Nat) (p : At) (d : Bytes) : (event code p d s).ctr.clearPending = s.ctr.clearPending := by simp [event]; split <;> simp

/-- The one record that an event adds to its ledger. -/
theorem event_led (code : Nat) (p : At) (d : Bytes) :
    (event code p d s).led = { s.led with
      event := kput s.led.event (s.led.events % 65536)
        (le 8 s.beat.count ++ le 6 (stepOf s p.slot) ++ le 2 code ++ le 1 p.slot ++ le 1 p.client ++ le 2 p.inst ++ padTo 12 d)
      events := (s.led.events + 1) % 2 ^ 64 } := by
  simp only [event]; split <;> simp

@[simp] theorem slotOf_gather (f v : Nat) (i' : Nat) : slotOf (gather f v s) i' = slotOf s i' := by simp [slotOf]
@[simp] theorem slotOf_event (code : Nat) (p : At) (d : Bytes) (i' : Nat) : slotOf (event code p d s) i' = slotOf s i' := by simp [slotOf]
@[simp] theorem arrayOf_gather (f v : Nat) (a' : Nat) : arrayOf (gather f v s) a' = arrayOf s a' := by simp [arrayOf]
@[simp] theorem arrayOf_event (code : Nat) (p : At) (d : Bytes) (a' : Nat) : arrayOf (event code p d s) a' = arrayOf s a' := by simp [arrayOf]
@[simp] theorem engineOf_gather (f v : Nat) (a' : Nat) : engineOf (gather f v s) a' = engineOf s a' := by simp [engineOf]
@[simp] theorem engineOf_event (code : Nat) (p : At) (d : Bytes) (a' : Nat) : engineOf (event code p d s) a' = engineOf s a' := by simp [engineOf]
@[simp] theorem linkOf_gather (f v : Nat) (l' : Nat) : linkOf (gather f v s) l' = linkOf s l' := by simp [linkOf]
@[simp] theorem linkOf_event (code : Nat) (p : At) (d : Bytes) (l' : Nat) : linkOf (event code p d s) l' = linkOf s l' := by simp [linkOf]
@[simp] theorem collOf_gather (f v : Nat) (j' : Nat) : collOf (gather f v s) j' = collOf s j' := by simp [collOf]
@[simp] theorem collOf_event (code : Nat) (p : At) (d : Bytes) (j' : Nat) : collOf (event code p d s) j' = collOf s j' := by simp [collOf]
@[simp] theorem secureOf_gather (f v : Nat) (j' : Nat) : secureOf (gather f v s) j' = secureOf s j' := by simp [secureOf]
@[simp] theorem secureOf_event (code : Nat) (p : At) (d : Bytes) (j' : Nat) : secureOf (event code p d s) j' = secureOf s j' := by simp [secureOf]
@[simp] theorem serveOf_gather (f v : Nat) (j' : Nat) : serveOf (gather f v s) j' = serveOf s j' := by simp [serveOf]
@[simp] theorem serveOf_event (code : Nat) (p : At) (d : Bytes) (j' : Nat) : serveOf (event code p d s) j' = serveOf s j' := by simp [serveOf]
@[simp] theorem admissionOf_gather (f v : Nat) (k' : Nat) : admissionOf (gather f v s) k' = admissionOf s k' := by simp [admissionOf]
@[simp] theorem admissionOf_event (code : Nat) (p : At) (d : Bytes) (k' : Nat) : admissionOf (event code p d s) k' = admissionOf s k' := by simp [admissionOf]
@[simp] theorem stored_gather (f v : Nat) (x' y' : Nat) : stored (gather f v s) x' y' = stored s x' y' := by simp [stored]
@[simp] theorem stored_event (code : Nat) (p : At) (d : Bytes) (x' y' : Nat) : stored (event code p d s) x' y' = stored s x' y' := by simp [stored]
@[simp] theorem setting_gather (f v : Nat) (x' y' : Nat) : setting (gather f v s) x' y' = setting s x' y' := by simp [setting, inUse]
@[simp] theorem setting_event (code : Nat) (p : At) (d : Bytes) (x' y' : Nat) : setting (event code p d s) x' y' = setting s x' y' := by simp [setting, inUse]
@[simp] theorem inUse_gather (f v : Nat) (x' y' : Nat) : inUse (gather f v s) x' y' = inUse s x' y' := by simp [inUse]
@[simp] theorem inUse_event (code : Nat) (p : At) (d : Bytes) (x' y' : Nat) : inUse (event code p d s) x' y' = inUse s x' y' := by simp [inUse]

end Sys2Proof.Machine
end

