-- ==== Sys2Proof/Laws/Keeps.lean ====
section
/-! SUPPORT. The relation that every meaning keeps: the queue stands, the invariant goes on holding, and so do the parts of the state that it does not
reach. For every operation one lemma says which parts it may change. -/

set_option Elab.async false

namespace Sys2Proof.Machine

theorem Part.same_trans {p : Part} {s t u : State} (h : p.same s t) (k : p.same t u) : p.same s u := by
  cases p <;> exact Eq.trans k h

/-- `t` has the queue of `s`, the invariant of `s` gives that of `t`, and `t` agrees with `s` on the parts of `M`. -/
structure Keeps (M : Part → Prop) (s t : State) : Prop where
  queue : t.pending = s.pending
  inv : s.Inv → t.Inv
  parts : ∀ p, M p → Part.same p s t

theorem Keeps.refl (M : Part → Prop) (s : State) : Keeps M s s := ⟨rfl, id, fun p _ => by cases p <;> rfl⟩

/-- A further change of the state. -/
theorem Keeps.next {M : Part → Prop} {s0 X Y : State} (h : Keeps M s0 X) (hq : Y.pending = X.pending) (hi : X.Inv → Y.Inv)
    (hp : ∀ p, M p → Part.same p X Y) : Keeps M s0 Y :=
  ⟨hq.trans h.queue, fun i => hi (h.inv i), fun p m => Part.same_trans (h.parts p m) (hp p m)⟩

/-- An update of parts that the invariant does not mention. -/
theorem Keeps.upd {M : Part → Prop} {s0 X : State} (h : Keeps M s0 X) {clock fresh out resp dict fab slots kilns engines flash power net colls secures keeper admissions serves refresh host sys}
    (k_clock : clock = X.clock ∨ ¬M .clock := by first | exact .inr (by assumption) | exact .inl rfl)
    (k_fresh : fresh = X.fresh ∨ ¬M .fresh := by first | exact .inr (by assumption) | exact .inl rfl)
    (k_out : out = X.out ∨ ¬M .out := by first | exact .inr (by assumption) | exact .inl rfl)
    (k_resp : resp = X.resp ∨ ¬M .resp := by first | exact .inr (by assumption) | exact .inl rfl)
    (k_dict : dict = X.dict ∨ ¬M .dict := by first | exact .inr (by assumption) | exact .inl rfl)
    (k_fab : fab = X.fab ∨ ¬M .fab := by first | exact .inr (by assumption) | exact .inl rfl)
    (k_slots : slots = X.slots ∨ ¬M .slots := by first | exact .inr (by assumption) | exact .inl rfl)
    (k_kilns : kilns = X.kilns ∨ ¬M .kilns := by first | exact .inr (by assumption) | exact .inl rfl)
    (k_engines : engines = X.engines ∨ ¬M .engines := by first | exact .inr (by assumption) | exact .inl rfl)
    (k_flash : flash = X.flash ∨ ¬M .flash := by first | exact .inr (by assumption) | exact .inl rfl)
    (k_power : power = X.power ∨ ¬M .power := by first | exact .inr (by assumption) | exact .inl rfl)
    (k_net : net = X.net ∨ ¬M .net := by first | exact .inr (by assumption) | exact .inl rfl)
    (k_colls : colls = X.colls ∨ ¬M .colls := by first | exact .inr (by assumption) | exact .inl rfl)
    (k_secures : secures = X.secures ∨ ¬M .secures := by first | exact .inr (by assumption) | exact .inl rfl)
    (k_keeper : keeper = X.keeper ∨ ¬M .keeper := by first | exact .inr (by assumption) | exact .inl rfl)
    (k_admissions : admissions = X.admissions ∨ ¬M .admissions := by first | exact .inr (by assumption) | exact .inl rfl)
    (k_serves : serves = X.serves ∨ ¬M .serves := by first | exact .inr (by assumption) | exact .inl rfl)
    (k_refresh : refresh = X.refresh ∨ ¬M .refresh := by first | exact .inr (by assumption) | exact .inl rfl)
    (k_host : host = X.host ∨ ¬M .host := by first | exact .inr (by assumption) | exact .inl rfl)
    (k_sys : sys = X.sys ∨ ¬M .sys := by first | exact .inr (by assumption) | exact .inl rfl) :
    Keeps M s0 ⟨X.pending, clock, fresh, out, resp, dict, X.led, X.ctr, X.beat, fab, slots, X.arrays, kilns, X.mem, engines, flash, power, net, colls, secures, keeper, admissions, serves, refresh, host, sys⟩ :=
  h.next rfl (fun i => ⟨i.home, i.cached, i.tbf, i.timer, i.live, i.captured, i.station, i.stationCaptured, i.commands, i.events, i.steps⟩) (fun p m => by
    cases p <;> first | rfl | exact k_clock.resolve_right (not_not_intro m) | exact k_fresh.resolve_right (not_not_intro m) | exact k_out.resolve_right (not_not_intro m) | exact k_resp.resolve_right (not_not_intro m) | exact k_dict.resolve_right (not_not_intro m) | exact k_fab.resolve_right (not_not_intro m) | exact k_slots.resolve_right (not_not_intro m) | exact k_kilns.resolve_right (not_not_intro m) | exact k_engines.resolve_right (not_not_intro m) | exact k_flash.resolve_right (not_not_intro m) | exact k_power.resolve_right (not_not_intro m) | exact k_net.resolve_right (not_not_intro m) | exact k_colls.resolve_right (not_not_intro m) | exact k_secures.resolve_right (not_not_intro m) | exact k_keeper.resolve_right (not_not_intro m) | exact k_admissions.resolve_right (not_not_intro m) | exact k_serves.resolve_right (not_not_intro m) | exact k_refresh.resolve_right (not_not_intro m) | exact k_host.resolve_right (not_not_intro m) | exact k_sys.resolve_right (not_not_intro m))

/-- An update of the memory beside its bytes. -/
theorem Keeps.updMem {M : Part → Prop} {s0 X : State} (h : Keeps M s0 X) {clock fresh out resp dict fab slots kilns engines flash power net colls secures keeper admissions serves refresh host sys}
    {cargoes cache progress openPages saggarHits copies noted working scrubbed ports failed}
    (k_clock : clock = X.clock ∨ ¬M .clock := by first | exact .inr (by assumption) | exact .inl rfl)
    (k_fresh : fresh = X.fresh ∨ ¬M .fresh := by first | exact .inr (by assumption) | exact .inl rfl)
    (k_out : out = X.out ∨ ¬M .out := by first | exact .inr (by assumption) | exact .inl rfl)
    (k_resp : resp = X.resp ∨ ¬M .resp := by first | exact .inr (by assumption) | exact .inl rfl)
    (k_dict : dict = X.dict ∨ ¬M .dict := by first | exact .inr (by assumption) | exact .inl rfl)
    (k_fab : fab = X.fab ∨ ¬M .fab := by first | exact .inr (by assumption) | exact .inl rfl)
    (k_slots : slots = X.slots ∨ ¬M .slots := by first | exact .inr (by assumption) | exact .inl rfl)
    (k_kilns : kilns = X.kilns ∨ ¬M .kilns := by first | exact .inr (by assumption) | exact .inl rfl)
    (k_mem : ⟨cargoes, X.mem.home, X.mem.cached, cache, progress, openPages, saggarHits, copies, noted, working, scrubbed, ports, failed⟩ = X.mem ∨ ¬M .mem := by first | exact .inr (by assumption) | exact .inl rfl)
    (k_engines : engines = X.engines ∨ ¬M .engines := by first | exact .inr (by assumption) | exact .inl rfl)
    (k_flash : flash = X.flash ∨ ¬M .flash := by first | exact .inr (by assumption) | exact .inl rfl)
    (k_power : power = X.power ∨ ¬M .power := by first | exact .inr (by assumption) | exact .inl rfl)
    (k_net : net = X.net ∨ ¬M .net := by first | exact .inr (by assumption) | exact .inl rfl)
    (k_colls : colls = X.colls ∨ ¬M .colls := by first | exact .inr (by assumption) | exact .inl rfl)
    (k_secures : secures = X.secures ∨ ¬M .secures := by first | exact .inr (by assumption) | exact .inl rfl)
    (k_keeper : keeper = X.keeper ∨ ¬M .keeper := by first | exact .inr (by assumption) | exact .inl rfl)
    (k_admissions : admissions = X.admissions ∨ ¬M .admissions := by first | exact .inr (by assumption) | exact .inl rfl)
    (k_serves : serves = X.serves ∨ ¬M .serves := by first | exact .inr (by assumption) | exact .inl rfl)
    (k_refresh : refresh = X.refresh ∨ ¬M .refresh := by first | exact .inr (by assumption) | exact .inl rfl)
    (k_host : host = X.host ∨ ¬M .host := by first | exact .inr (by assumption) | exact .inl rfl)
    (k_sys : sys = X.sys ∨ ¬M .sys := by first | exact .inr (by assumption) | exact .inl rfl) :
    Keeps M s0 ⟨X.pending, clock, fresh, out, resp, dict, X.led, X.ctr, X.beat, fab, slots, X.arrays, kilns, ⟨cargoes, X.mem.home, X.mem.cached, cache, progress, openPages, saggarHits, copies, noted, working, scrubbed, ports, failed⟩, engines, flash, power, net, colls, secures, keeper, admissions, serves, refresh, host, sys⟩ :=
  h.next rfl (fun i => ⟨i.home, i.cached, i.tbf, i.timer, i.live, i.captured, i.station, i.stationCaptured, i.commands, i.events, i.steps⟩) (fun p m => by
    cases p <;> first | rfl | exact k_clock.resolve_right (not_not_intro m) | exact k_fresh.resolve_right (not_not_intro m) | exact k_out.resolve_right (not_not_intro m) | exact k_resp.resolve_right (not_not_intro m) | exact k_dict.resolve_right (not_not_intro m) | exact k_fab.resolve_right (not_not_intro m) | exact k_slots.resolve_right (not_not_intro m) | exact k_kilns.resolve_right (not_not_intro m) | exact k_mem.resolve_right (not_not_intro m) | exact k_engines.resolve_right (not_not_intro m) | exact k_flash.resolve_right (not_not_intro m) | exact k_power.resolve_right (not_not_intro m) | exact k_net.resolve_right (not_not_intro m) | exact k_colls.resolve_right (not_not_intro m) | exact k_secures.resolve_right (not_not_intro m) | exact k_keeper.resolve_right (not_not_intro m) | exact k_admissions.resolve_right (not_not_intro m) | exact k_serves.resolve_right (not_not_intro m) | exact k_refresh.resolve_right (not_not_intro m) | exact k_host.resolve_right (not_not_intro m) | exact k_sys.resolve_right (not_not_intro m))

/-- An update of the counters' side that leaves their values. -/
theorem Keeps.updCtr {M : Part → Prop} {s0 X : State} (h : Keeps M s0 X) {clock fresh out resp dict fab slots kilns engines flash power net colls secures keeper admissions serves refresh host sys}
    {captureBeat clearPending causes}
    (k_clock : clock = X.clock ∨ ¬M .clock := by first | exact .inr (by assumption) | exact .inl rfl)
    (k_fresh : fresh = X.fresh ∨ ¬M .fresh := by first | exact .inr (by assumption) | exact .inl rfl)
    (k_out : out = X.out ∨ ¬M .out := by first | exact .inr (by assumption) | exact .inl rfl)
    (k_resp : resp = X.resp ∨ ¬M .resp := by first | exact .inr (by assumption) | exact .inl rfl)
    (k_dict : dict = X.dict ∨ ¬M .dict := by first | exact .inr (by assumption) | exact .inl rfl)
    (k_ctr : ⟨X.ctr.live, X.ctr.captured, X.ctr.station, X.ctr.stationCaptured, captureBeat, clearPending, causes⟩ = X.ctr ∨ ¬M .ctr := by first | exact .inr (by assumption) | exact .inl rfl)
    (k_fab : fab = X.fab ∨ ¬M .fab := by first | exact .inr (by assumption) | exact .inl rfl)
    (k_slots : slots = X.slots ∨ ¬M .slots := by first | exact .inr (by assumption) | exact .inl rfl)
    (k_kilns : kilns = X.kilns ∨ ¬M .kilns := by first | exact .inr (by assumption) | exact .inl rfl)
    (k_engines : engines = X.engines ∨ ¬M .engines := by first | exact .inr (by assumption) | exact .inl rfl)
    (k_flash : flash = X.flash ∨ ¬M .flash := by first | exact .inr (by assumption) | exact .inl rfl)
    (k_power : power = X.power ∨ ¬M .power := by first | exact .inr (by assumption) | exact .inl rfl)
    (k_net : net = X.net ∨ ¬M .net := by first | exact .inr (by assumption) | exact .inl rfl)
    (k_colls : colls = X.colls ∨ ¬M .colls := by first | exact .inr (by assumption) | exact .inl rfl)
    (k_secures : secures = X.secures ∨ ¬M .secures := by first | exact .inr (by assumption) | exact .inl rfl)
    (k_keeper : keeper = X.keeper ∨ ¬M .keeper := by first | exact .inr (by assumption) | exact .inl rfl)
    (k_admissions : admissions = X.admissions ∨ ¬M .admissions := by first | exact .inr (by assumption) | exact .inl rfl)
    (k_serves : serves = X.serves ∨ ¬M .serves := by first | exact .inr (by assumption) | exact .inl rfl)
    (k_refresh : refresh = X.refresh ∨ ¬M .refresh := by first | exact .inr (by assumption) | exact .inl rfl)
    (k_host : host = X.host ∨ ¬M .host := by first | exact .inr (by assumption) | exact .inl rfl)
    (k_sys : sys = X.sys ∨ ¬M .sys := by first | exact .inr (by assumption) | exact .inl rfl) :
    Keeps M s0 ⟨X.pending, clock, fresh, out, resp, dict, X.led, ⟨X.ctr.live, X.ctr.captured, X.ctr.station, X.ctr.stationCaptured, captureBeat, clearPending, causes⟩, X.beat, fab, slots, X.arrays, kilns, X.mem, engines, flash, power, net, colls, secures, keeper, admissions, serves, refresh, host, sys⟩ :=
  h.next rfl (fun i => ⟨i.home, i.cached, i.tbf, i.timer, i.live, i.captured, i.station, i.stationCaptured, i.commands, i.events, i.steps⟩) (fun p m => by
    cases p <;> first | rfl | exact k_clock.resolve_right (not_not_intro m) | exact k_fresh.resolve_right (not_not_intro m) | exact k_out.resolve_right (not_not_intro m) | exact k_resp.resolve_right (not_not_intro m) | exact k_dict.resolve_right (not_not_intro m) | exact k_ctr.resolve_right (not_not_intro m) | exact k_fab.resolve_right (not_not_intro m) | exact k_slots.resolve_right (not_not_intro m) | exact k_kilns.resolve_right (not_not_intro m) | exact k_engines.resolve_right (not_not_intro m) | exact k_flash.resolve_right (not_not_intro m) | exact k_power.resolve_right (not_not_intro m) | exact k_net.resolve_right (not_not_intro m) | exact k_colls.resolve_right (not_not_intro m) | exact k_secures.resolve_right (not_not_intro m) | exact k_keeper.resolve_right (not_not_intro m) | exact k_admissions.resolve_right (not_not_intro m) | exact k_serves.resolve_right (not_not_intro m) | exact k_refresh.resolve_right (not_not_intro m) | exact k_host.resolve_right (not_not_intro m) | exact k_sys.resolve_right (not_not_intro m))

/-- An update of parts that the invariant mentions, each kept. -/
theorem Keeps.updGen {M : Part → Prop} {s0 X : State} (h : Keeps M s0 X) {clock fresh out resp dict fab slots kilns engines flash power net colls secures keeper admissions serves refresh host sys}
    {home cached arrays live captured station stationCaptured}
    {cargoes cache progress openPages saggarHits copies noted working scrubbed ports failed}
    {captureBeat clearPending causes}
    (hh : Memory.wf X.mem.home = true → Memory.wf home = true) (hc : Memory.wf X.mem.cached = true → Memory.wf cached = true)
    (ha : TbfsCanonical X.arrays → TbfsCanonical arrays)
    (h1 : CountersFit X.ctr.live → CountersFit live) (h2 : CountersFit X.ctr.captured → CountersFit captured)
    (h3 : CountersFit X.ctr.station → CountersFit station) (h4 : CountersFit X.ctr.stationCaptured → CountersFit stationCaptured)
    (k_clock : clock = X.clock ∨ ¬M .clock := by first | exact .inr (by assumption) | exact .inl rfl)
    (k_fresh : fresh = X.fresh ∨ ¬M .fresh := by first | exact .inr (by assumption) | exact .inl rfl)
    (k_out : out = X.out ∨ ¬M .out := by first | exact .inr (by assumption) | exact .inl rfl)
    (k_resp : resp = X.resp ∨ ¬M .resp := by first | exact .inr (by assumption) | exact .inl rfl)
    (k_dict : dict = X.dict ∨ ¬M .dict := by first | exact .inr (by assumption) | exact .inl rfl)
    (k_ctr : ⟨live, captured, station, stationCaptured, captureBeat, clearPending, causes⟩ = X.ctr ∨ ¬M .ctr := by first | exact .inr (by assumption) | exact .inl rfl)
    (k_fab : fab = X.fab ∨ ¬M .fab := by first | exact .inr (by assumption) | exact .inl rfl)
    (k_slots : slots = X.slots ∨ ¬M .slots := by first | exact .inr (by assumption) | exact .inl rfl)
    (k_arrays : arrays = X.arrays ∨ ¬M .arrays := by first | exact .inr (by assumption) | exact .inl rfl)
    (k_kilns : kilns = X.kilns ∨ ¬M .kilns := by first | exact .inr (by assumption) | exact .inl rfl)
    (k_mem : ⟨cargoes, home, cached, cache, progress, openPages, saggarHits, copies, noted, working, scrubbed, ports, failed⟩ = X.mem ∨ ¬M .mem := by first | exact .inr (by assumption) | exact .inl rfl)
    (k_engines : engines = X.engines ∨ ¬M .engines := by first | exact .inr (by assumption) | exact .inl rfl)
    (k_flash : flash = X.flash ∨ ¬M .flash := by first | exact .inr (by assumption) | exact .inl rfl)
    (k_power : power = X.power ∨ ¬M .power := by first | exact .inr (by assumption) | exact .inl rfl)
    (k_net : net = X.net ∨ ¬M .net := by first | exact .inr (by assumption) | exact .inl rfl)
    (k_colls : colls = X.colls ∨ ¬M .colls := by first | exact .inr (by assumption) | exact .inl rfl)
    (k_secures : secures = X.secures ∨ ¬M .secures := by first | exact .inr (by assumption) | exact .inl rfl)
    (k_keeper : keeper = X.keeper ∨ ¬M .keeper := by first | exact .inr (by assumption) | exact .inl rfl)
    (k_admissions : admissions = X.admissions ∨ ¬M .admissions := by first | exact .inr (by assumption) | exact .inl rfl)
    (k_serves : serves = X.serves ∨ ¬M .serves := by first | exact .inr (by assumption) | exact .inl rfl)
    (k_refresh : refresh = X.refresh ∨ ¬M .refresh := by first | exact .inr (by assumption) | exact .inl rfl)
    (k_host : host = X.host ∨ ¬M .host := by first | exact .inr (by assumption) | exact .inl rfl)
    (k_sys : sys = X.sys ∨ ¬M .sys := by first | exact .inr (by assumption) | exact .inl rfl) :
    Keeps M s0 ⟨X.pending, clock, fresh, out, resp, dict, X.led, ⟨live, captured, station, stationCaptured, captureBeat, clearPending, causes⟩, X.beat, fab, slots, arrays, kilns, ⟨cargoes, home, cached, cache, progress, openPages, saggarHits, copies, noted, working, scrubbed, ports, failed⟩, engines, flash, power, net, colls, secures, keeper, admissions, serves, refresh, host, sys⟩ :=
  h.next rfl (fun i => ⟨hh i.home, hc i.cached, ha i.tbf, i.timer, h1 i.live, h2 i.captured, h3 i.station, h4 i.stationCaptured, i.commands, i.events, i.steps⟩) (fun p m => by
    cases p <;> first | rfl | exact k_clock.resolve_right (not_not_intro m) | exact k_fresh.resolve_right (not_not_intro m) | exact k_out.resolve_right (not_not_intro m) | exact k_resp.resolve_right (not_not_intro m) | exact k_dict.resolve_right (not_not_intro m) | exact k_ctr.resolve_right (not_not_intro m) | exact k_fab.resolve_right (not_not_intro m) | exact k_slots.resolve_right (not_not_intro m) | exact k_arrays.resolve_right (not_not_intro m) | exact k_kilns.resolve_right (not_not_intro m) | exact k_mem.resolve_right (not_not_intro m) | exact k_engines.resolve_right (not_not_intro m) | exact k_flash.resolve_right (not_not_intro m) | exact k_power.resolve_right (not_not_intro m) | exact k_net.resolve_right (not_not_intro m) | exact k_colls.resolve_right (not_not_intro m) | exact k_secures.resolve_right (not_not_intro m) | exact k_keeper.resolve_right (not_not_intro m) | exact k_admissions.resolve_right (not_not_intro m) | exact k_serves.resolve_right (not_not_intro m) | exact k_refresh.resolve_right (not_not_intro m) | exact k_host.resolve_right (not_not_intro m) | exact k_sys.resolve_right (not_not_intro m))

/-- Home contents changed. -/
theorem Keeps.updHome {M : Part → Prop} {s0 X : State} (h : Keeps M s0 X) {home} {cargoes cache progress openPages saggarHits copies noted working scrubbed ports failed}
    (hh : Memory.wf X.mem.home = true → Memory.wf home = true) (k : ¬M .mem := by assumption) :
    Keeps M s0 { X with mem := ⟨cargoes, home, X.mem.cached, cache, progress, openPages, saggarHits, copies, noted, working, scrubbed, ports, failed⟩ } :=
  h.next rfl (fun i => ⟨hh i.home, i.cached, i.tbf, i.timer, i.live, i.captured, i.station, i.stationCaptured, i.commands, i.events, i.steps⟩) (fun p m => by cases p <;> first | rfl | exact absurd m k)

/-- Contents of cached frames changed. -/
theorem Keeps.updCached {M : Part → Prop} {s0 X : State} (h : Keeps M s0 X) {cached} {cargoes cache progress openPages saggarHits copies noted working scrubbed ports failed}
    (hc : Memory.wf X.mem.cached = true → Memory.wf cached = true) (k : ¬M .mem := by assumption) :
    Keeps M s0 { X with mem := ⟨cargoes, X.mem.home, cached, cache, progress, openPages, saggarHits, copies, noted, working, scrubbed, ports, failed⟩ } :=
  h.next rfl (fun i => ⟨i.home, hc i.cached, i.tbf, i.timer, i.live, i.captured, i.station, i.stationCaptured, i.commands, i.events, i.steps⟩) (fun p m => by cases p <;> first | rfl | exact absurd m k)

/-- Home contents and contents of cached frames changed. -/
theorem Keeps.updBytes {M : Part → Prop} {s0 X : State} (h : Keeps M s0 X) {home cached} {cargoes cache progress openPages saggarHits copies noted working scrubbed ports failed}
    (hh : Memory.wf X.mem.home = true → Memory.wf home = true) (hc : Memory.wf X.mem.cached = true → Memory.wf cached = true) (k : ¬M .mem := by assumption) :
    Keeps M s0 { X with mem := ⟨cargoes, home, cached, cache, progress, openPages, saggarHits, copies, noted, working, scrubbed, ports, failed⟩ } :=
  h.next rfl (fun i => ⟨hh i.home, hc i.cached, i.tbf, i.timer, i.live, i.captured, i.station, i.stationCaptured, i.commands, i.events, i.steps⟩) (fun p m => by cases p <;> first | rfl | exact absurd m k)

/-- The arrays changed. -/
theorem Keeps.updArrays {M : Part → Prop} {s0 X : State} (h : Keeps M s0 X) {arrays}
    (ha : TbfsCanonical X.arrays → TbfsCanonical arrays) (k : ¬M .arrays := by assumption) :
    Keeps M s0 { X with arrays := arrays } :=
  h.next rfl (fun i => ⟨i.home, i.cached, ha i.tbf, i.timer, i.live, i.captured, i.station, i.stationCaptured, i.commands, i.events, i.steps⟩) (fun p m => by cases p <;> first | rfl | exact absurd m k)

/-- The fabric timer changed. -/
theorem Keeps.updBeat {M : Part → Prop} {s0 X : State} (h : Keeps M s0 X) {beat : Beat}
    (ht : X.beat.state ≤ 3 → beat.state ≤ 3) (k : ¬M .beat := by assumption) :
    Keeps M s0 { X with beat := beat } :=
  h.next rfl (fun i => ⟨i.home, i.cached, i.tbf, ht i.timer, i.live, i.captured, i.station, i.stationCaptured, i.commands, i.events, i.steps⟩) (fun p m => by cases p <;> first | rfl | exact absurd m k)

/-- The ledgers changed. -/
theorem Keeps.updLed {M : Part → Prop} {s0 X : State} (h : Keeps M s0 X) {led : Ledgers}
    (h1 : RingFits X.led.command 65536 → RingFits led.command 65536) (h2 : RingFits X.led.event 65536 → RingFits led.event 65536)
    (h3 : RingFits X.led.step 2097152 → RingFits led.step 2097152) (k : ¬M .led := by assumption) :
    Keeps M s0 { X with led := led } :=
  h.next rfl (fun i => ⟨i.home, i.cached, i.tbf, i.timer, i.live, i.captured, i.station, i.stationCaptured, h1 i.commands, h2 i.events, h3 i.steps⟩) (fun p m => by cases p <;> first | rfl | exact absurd m k)

theorem fits_nil : CountersFit [] := fun _ h => nomatch h
theorem fits_filter {m : KMap Nat} (p : Nat × Nat → Bool) (h : CountersFit m) : CountersFit (m.filter p) :=
  fun e he => h e (List.mem_filter.mp he).1
theorem fits_count {m : KMap Nat} (k n : Nat) (h : CountersFit m) : CountersFit (kmodD 0 m k (fun x => min (x + n) (2 ^ 64 - 1))) := by
  intro e he
  rcases mem_kputD he with rfl | he
  · simp only; omega
  · exact h e he

theorem ring_nil (n : Nat) : RingFits [] n := fun _ h => nomatch h
theorem ring_filter {m : KMap Bytes} {n : Nat} (p : Nat × Bytes → Bool) (h : RingFits m n) : RingFits (m.filter p) n :=
  fun e he => h e (List.mem_filter.mp he).1
theorem ring_put {m : KMap Bytes} {n : Nat} (k : Nat) (v : Bytes) (hk : k < n) (h : RingFits m n) : RingFits (kput m k v) n := by
  intro e he
  rcases mem_kput he with rfl | he
  · exact hk
  · exact h e he

theorem tbfs_nil : TbfsCanonical [] := fun _ h => nomatch h
theorem tbfs_kmap {m : KMap ArrayState} {f : Nat → ArrayState → ArrayState} (hf : ∀ k a, (f k a).tbf = a.tbf) (h : TbfsCanonical m) :
    TbfsCanonical (kmap f m) := by
  intro e he
  obtain ⟨x, hx, rfl⟩ := List.mem_map.mp he
  simp only [hf]; exact h x hx
theorem tbfs_get {m : KMap ArrayState} (a : Nat) (h : TbfsCanonical m) : Memory.wf (kgetD ArrayState.reset m a).tbf = true := by
  unfold kgetD
  cases e : kget m a with
  | none => rfl
  | some v => exact h _ (mem_of_kget e)
theorem tbfs_put {m : KMap ArrayState} (a : Nat) {x : ArrayState} (hx : Memory.wf x.tbf = true) (h : TbfsCanonical m) :
    TbfsCanonical (kputD ArrayState.reset m a x) := by
  intro e he
  rcases mem_kputD he with rfl | he
  · exact hx
  · exact h e he

theorem wf_storeAll (cells : List (Nat × Byte)) (m : Memory) (h : Memory.wf m = true) :
    Memory.wf (cells.foldl (fun m e => storeByte m e.1 e.2) m) = true := wf_storeCells id cells m h

theorem wf_copyRange (src dst : Memory) (a n : Nat) (h : Memory.wf dst = true) : Memory.wf (copyRange src dst a n) = true :=
  wf_storeCells id _ _ (wf_clearBytes _ _ _ h)

/-- A fold over an array that leaves its TBF. -/
theorem foldl_tbf {α : Type} {f : ArrayState → α → ArrayState} (hf : ∀ x e, (f x e).tbf = x.tbf) (l : List α) (x : ArrayState) :
    (l.foldl f x).tbf = x.tbf := by
  induction l generalizing x with
  | nil => rfl
  | cons e l ih => rw [List.foldl_cons, ih, hf]

theorem putRow_tbf (v r : Nat) (f : Nat → Word) (x : ArrayState) : (putRow v r f x).tbf = x.tbf := by
  unfold putRow; rw [foldl_tbf]; intros; rfl

/-- Accumulator words written one after another. -/
theorem acmFold_tbf {α : Type} (slot : Nat) (f : ArrayState → α → Nat × Nat) (w : ArrayState → α → Word) (l : List α) (x : ArrayState) :
    (l.foldl (fun x e => acmPut slot (f x e).1 (f x e).2 (w x e) x) x).tbf = x.tbf := by
  rw [foldl_tbf]; intros; rfl

/-- An array whose TBF stands. -/
theorem Keeps.setTbf {M : Part → Prop} {s0 s : State} (a : Nat) {x : ArrayState} (hx : x.tbf = (arrayOf s a).tbf) (h : Keeps M s0 s) (k : ¬M .arrays := by assumption) :
    Keeps M s0 (setArray a x s) := h.updArrays (fun i => tbfs_put a (hx ▸ tbfs_get a i) i) k

theorem Keeps.modTbf {M : Part → Prop} {s0 s : State} (a : Nat) {f : ArrayState → ArrayState} (hf : ∀ x, (f x).tbf = x.tbf) (h : Keeps M s0 s) (k : ¬M .arrays := by assumption) :
    Keeps M s0 (modArray a f s) := h.setTbf a (hf _) k

/-- A value bound by a let. -/
theorem Keeps.letIn {M : Part → Prop} {s0 v : State} {f : State → State} (hv : Keeps M s0 v) (hf : ∀ x, Keeps M s0 x → Keeps M s0 (f x)) :
    Keeps M s0 (let x := v; f x) := hf v hv

theorem Keeps.letAny {M : Part → Prop} {s0 : State} {α : Sort _} {v : α} {f : α → State} (hf : ∀ x, x = v → Keeps M s0 (f x)) :
    Keeps M s0 (let x := v; f x) := hf v rfl

/-- The state in the first place of a pair. -/
theorem Keeps.fst {M : Part → Prop} {s0 s : State} {β : Type} {b : β} {p : State × β} (e : p = (s, b)) (h : Keeps M s0 p.1) : Keeps M s0 s := by
  subst e; exact h

theorem Keeps.snd {M : Part → Prop} {s0 s : State} {β : Type} {b : β} {p : β × State} (e : p = (b, s)) (h : Keeps M s0 p.2) : Keeps M s0 s := by
  subst e; exact h

/-- A fold of kept steps. -/
theorem Keeps.foldl {M : Part → Prop} {s0 : State} {α : Type} {f : State → α → State} (hf : ∀ s x, Keeps M s0 s → Keeps M s0 (f s x)) (l : List α) :
    ∀ {s : State}, Keeps M s0 s → Keeps M s0 (l.foldl f s) := by
  induction l with
  | nil => intro s h; exact h
  | cons a l ih => intro s h; exact ih (hf s a h)

/-- A fold of kept steps that carries a value beside the state. -/
theorem Keeps.foldlFst {M : Part → Prop} {s0 : State} {α β : Type} {f : State × β → α → State × β} (hf : ∀ r x, Keeps M s0 r.1 → Keeps M s0 (f r x).1) (l : List α) :
    ∀ {r : State × β}, Keeps M s0 r.1 → Keeps M s0 (l.foldl f r).1 := by
  induction l with
  | nil => intro r h; exact h
  | cons a l ih => intro r h; exact ih (hf r a h)

theorem Keeps.ite {M : Part → Prop} {s0 a b : State} {c : Prop} [Decidable c] (ha : c → Keeps M s0 a) (hb : ¬c → Keeps M s0 b) :
    Keeps M s0 (if c then a else b) := by split <;> simp_all

theorem Keeps.iteFst {M : Part → Prop} {s0 : State} {β : Type} {a b : State × β} {c : Prop} [Decidable c] (ha : c → Keeps M s0 a.1) (hb : ¬c → Keeps M s0 b.1) :
    Keeps M s0 (if c then a else b).1 := by split <;> simp_all

theorem Keeps.iteSnd {M : Part → Prop} {s0 : State} {β : Type} {a b : β × State} {c : Prop} [Decidable c] (ha : c → Keeps M s0 a.2) (hb : ¬c → Keeps M s0 b.2) :
    Keeps M s0 (if c then a else b).2 := by split <;> simp_all

theorem Keeps.letInFst {M : Part → Prop} {s0 v : State} {β : Type} {f : State → State × β} (hv : Keeps M s0 v) (hf : ∀ x, Keeps M s0 x → Keeps M s0 (f x).1) :
    Keeps M s0 (let x := v; f x).1 := hf v hv

theorem Keeps.letInSnd {M : Part → Prop} {s0 v : State} {β : Type} {f : State → β × State} (hv : Keeps M s0 v) (hf : ∀ x, Keeps M s0 x → Keeps M s0 (f x).2) :
    Keeps M s0 (let x := v; f x).2 := hf v hv

theorem Keeps.letAnyFst {M : Part → Prop} {s0 : State} {α : Sort _} {β : Type} {v : α} {f : α → State × β} (hf : ∀ x, x = v → Keeps M s0 (f x).1) :
    Keeps M s0 (let x := v; f x).1 := hf v rfl

theorem Keeps.letAnySnd {M : Part → Prop} {s0 : State} {α : Sort _} {β : Type} {v : α} {f : α → β × State} (hf : ∀ x, x = v → Keeps M s0 (f x).2) :
    Keeps M s0 (let x := v; f x).2 := hf v rfl

/-- A meaning that answers a state kept. -/
def Answers (M : Part → Prop) (s0 : State) (o : Outcome) : Prop := ∃ t, o = .next t ∧ Keeps M s0 t

theorem Answers.ite {M : Part → Prop} {s0 : State} {a b : Outcome} {c : Prop} [Decidable c] (ha : c → Answers M s0 a) (hb : ¬c → Answers M s0 b) :
    Answers M s0 (if c then a else b) := by split <;> simp_all

theorem Answers.done {M : Part → Prop} {s0 s : State} (h : Keeps M s0 s) : Answers M s0 (Sys2Proof.Machine.done s) := ⟨s, rfl, h⟩

theorem Answers.letAny {M : Part → Prop} {s0 : State} {α : Sort _} {v : α} {f : α → Outcome} (hf : ∀ x, x = v → Answers M s0 (f x)) :
    Answers M s0 (let x := v; f x) := hf v rfl

theorem Answers.letIn {M : Part → Prop} {s0 v : State} {f : State → Outcome} (hv : Keeps M s0 v) (hf : ∀ x, Keeps M s0 x → Answers M s0 (f x)) :
    Answers M s0 (let x := v; f x) := hf v hv

end Sys2Proof.Machine
end

