-- ==== Sys2Proof/Laws/KeepsOps.lean ====
section
/-! SUPPORT. The queue and the invariant are kept by the operations of Machine/Ops.lean. -/

set_option Elab.async false

namespace Sys2Proof.Machine

theorem setSlot_keeps {M : Part → Prop} {s0 a2 : State} (a0) (a1) (h : Keeps M s0 a2) (k_slots : ¬M .slots := by assumption) : Keeps M s0 (setSlot a0 a1 a2) := by
  unfold setSlot
  with_reducible refine Keeps.upd ?_; assumption

theorem modSlot_keeps {M : Part → Prop} {s0 a2 : State} (a0) (a1) (h : Keeps M s0 a2) (k_slots : ¬M .slots := by assumption) : Keeps M s0 (modSlot a0 a1 a2) := by
  unfold modSlot
  refine setSlot_keeps _ _ ?_; assumption

theorem modStation_keeps {M : Part → Prop} {s0 a3 : State} (a0) (a1) (a2) (h : Keeps M s0 a3) (k_slots : ¬M .slots := by assumption) : Keeps M s0 (modStation a0 a1 a2 a3) := by
  unfold modStation
  refine modSlot_keeps _ _ ?_; assumption

theorem modHost_keeps {M : Part → Prop} {s0 a1 : State} (a0) (h : Keeps M s0 a1) (k_host : ¬M .host := by assumption) : Keeps M s0 (modHost a0 a1) := by
  unfold modHost
  with_reducible refine Keeps.upd ?_; assumption

theorem count_keeps {M : Part → Prop} {s0 s : State} (index inst n) (h : Keeps M s0 s) (k_ctr : ¬M .ctr := by assumption) : Keeps M s0 (count index inst n s) :=
  h.updGen id id id (fits_count _ _) id id id

theorem modCargo_keeps {M : Part → Prop} {s0 a2 : State} (a0) (a1) (h : Keeps M s0 a2) (k_mem : ¬M .mem := by assumption) : Keeps M s0 (modCargo a0 a1 a2) := by
  unfold modCargo
  with_reducible refine Keeps.updMem ?_; assumption

theorem pointPage_keeps {M : Part → Prop} {s0 a3 : State} (a0) (a1) (a2) (h : Keeps M s0 a3) (k_mem : ¬M .mem := by assumption) : Keeps M s0 (pointPage a0 a1 a2 a3) := by
  unfold pointPage
  refine modCargo_keeps _ _ ?_; assumption

theorem setEngine_keeps {M : Part → Prop} {s0 a2 : State} (a0) (a1) (h : Keeps M s0 a2) (k_engines : ¬M .engines := by assumption) : Keeps M s0 (setEngine a0 a1 a2) := by
  unfold setEngine
  with_reducible refine Keeps.upd ?_; assumption

theorem draw_keeps {M : Part → Prop} {s0 a0 : State}  (h : Keeps M s0 a0) (k_fresh : ¬M .fresh := by assumption) : Keeps M s0 (draw a0) := by
  unfold draw
  with_reducible refine Keeps.upd ?_; assumption

theorem countStation_keeps {M : Part → Prop} {s0 s : State} (a0 a1 a2 a3) (h : Keeps M s0 s) (k_ctr : ¬M .ctr := by assumption) : Keeps M s0 (countStation a0 a1 a2 a3 s) :=
  h.updGen id id id id id (fits_count _ _) id

theorem raiseGeneration_keeps {M : Part → Prop} {s0 a2 : State} (a0) (a1) (h : Keeps M s0 a2) (k_mem : ¬M .mem := by assumption) : Keeps M s0 (raiseGeneration a0 a1 a2) := by
  unfold raiseGeneration
  refine modCargo_keeps _ _ ?_; assumption

theorem modAdmission_keeps {M : Part → Prop} {s0 a2 : State} (a0) (a1) (h : Keeps M s0 a2) (k_admissions : ¬M .admissions := by assumption) : Keeps M s0 (modAdmission a0 a1 a2) := by
  unfold modAdmission
  with_reducible refine Keeps.upd ?_; assumption

theorem modServe_keeps {M : Part → Prop} {s0 a2 : State} (a0) (a1) (h : Keeps M s0 a2) (k_serves : ¬M .serves := by assumption) : Keeps M s0 (modServe a0 a1 a2) := by
  unfold modServe
  with_reducible refine Keeps.upd ?_; assumption

theorem modEngine_keeps {M : Part → Prop} {s0 a2 : State} (a0) (a1) (h : Keeps M s0 a2) (k_engines : ¬M .engines := by assumption) : Keeps M s0 (modEngine a0 a1 a2) := by
  unfold modEngine
  refine setEngine_keeps _ _ ?_; assumption

theorem modBeat_keeps {M : Part → Prop} {s0 s : State} (f : Beat → Beat) (hf : ∀ b : Beat, b.state ≤ 3 → (f b).state ≤ 3) (h : Keeps M s0 s) (k_beat : ¬M .beat := by assumption) :
    Keeps M s0 (modBeat f s) := h.updBeat (hf _)

theorem modStream_keeps {M : Part → Prop} {s0 a3 : State} (a0) (a1) (a2) (h : Keeps M s0 a3) (k_slots : ¬M .slots := by assumption) : Keeps M s0 (modStream a0 a1 a2 a3) := by
  unfold modStream
  refine modSlot_keeps _ _ ?_; assumption

theorem addCredit_keeps {M : Part → Prop} {s0 a3 : State} (a0) (a1) (a2) (h : Keeps M s0 a3) (k_slots : ¬M .slots := by assumption) : Keeps M s0 (addCredit a0 a1 a2 a3) := by
  unfold addCredit
  split; assumption; split; assumption; refine modStream_keeps _ _ _ ?_; assumption

theorem emit_keeps {M : Part → Prop} {s0 a1 : State} (a0) (h : Keeps M s0 a1) (k_out : ¬M .out := by assumption) : Keeps M s0 (emit a0 a1) := by
  unfold emit
  with_reducible refine Keeps.upd ?_; assumption

theorem modNet_keeps {M : Part → Prop} {s0 a1 : State} (a0) (h : Keeps M s0 a1) (k_net : ¬M .net := by assumption) : Keeps M s0 (modNet a0 a1) := by
  unfold modNet
  with_reducible refine Keeps.upd ?_; assumption

theorem modFab_keeps {M : Part → Prop} {s0 a1 : State} (a0) (h : Keeps M s0 a1) (k_fab : ¬M .fab := by assumption) : Keeps M s0 (modFab a0 a1) := by
  unfold modFab
  with_reducible refine Keeps.upd ?_; assumption

theorem modSys_keeps {M : Part → Prop} {s0 a1 : State} (a0) (h : Keeps M s0 a1) (k_sys : ¬M .sys := by assumption) : Keeps M s0 (modSys a0 a1) := by
  unfold modSys
  with_reducible refine Keeps.upd ?_; assumption

theorem modSecure_keeps {M : Part → Prop} {s0 a2 : State} (a0) (a1) (h : Keeps M s0 a2) (k_secures : ¬M .secures := by assumption) : Keeps M s0 (modSecure a0 a1 a2) := by
  unfold modSecure
  with_reducible refine Keeps.upd ?_; assumption

theorem modTrain_keeps {M : Part → Prop} {s0 a2 : State} (a0) (a1) (h : Keeps M s0 a2) (k_slots : ¬M .slots := by assumption) : Keeps M s0 (modTrain a0 a1 a2) := by
  unfold modTrain
  refine modSlot_keeps _ _ ?_; assumption

theorem leaveFlight_keeps {M : Part → Prop} {s0 a4 : State} (a0) (a1) (a2) (a3) (h : Keeps M s0 a4) (k_slots : ¬M .slots := by assumption) : Keeps M s0 (leaveFlight a0 a1 a2 a3 a4) := by
  unfold leaveFlight
  (with_reducible refine Keeps.letAny (fun x hx => ?_); subst hx); with_reducible refine Keeps.foldl (fun s x hs => ?_) _ ?_
  with_reducible refine Keeps.foldl (fun s x hs => ?_) _ ?_; refine addCredit_keeps _ _ _ ?_; assumption; assumption
  refine modStation_keeps _ _ _ ?_; assumption

theorem setArray_keeps {M : Part → Prop} {s0 s : State} (a x) (hx : TbfsCanonical s.arrays → Memory.wf x.tbf = true) (h : Keeps M s0 s) (k_arrays : ¬M .arrays := by assumption) :
    Keeps M s0 (setArray a x s) := h.updArrays (fun i => tbfs_put a (hx i) i)

theorem modArray_keeps {M : Part → Prop} {s0 s : State} (a) (f : ArrayState → ArrayState) (hf : ∀ x : ArrayState, Memory.wf x.tbf = true → Memory.wf (f x).tbf = true)
    (h : Keeps M s0 s) (k_arrays : ¬M .arrays := by assumption) : Keeps M s0 (modArray a f s) := setArray_keeps a _ (fun i => hf _ (tbfs_get a i)) h

theorem copyHeld_keeps {M : Part → Prop} {s0 a3 : State} (a0) (a1) (a2) (h : Keeps M s0 a3) (k_mem : ¬M .mem := by assumption) (k_secures : ¬M .secures := by assumption) : Keeps M s0 (copyHeld a0 a1 a2 a3) := by
  unfold copyHeld
  (with_reducible refine Keeps.letAny (fun x hx => ?_); subst hx); split; refine Keeps.ite (fun _ => ?_) (fun _ => ?_)
  refine pointPage_keeps _ _ _ ?_; refine modSecure_keeps _ _ ?_; assumption; assumption; assumption

theorem copyOnWrite_keeps {M : Part → Prop} {s0 a2 : State} (a0) (a1) (h : Keeps M s0 a2) (k_mem : ¬M .mem := by assumption) (k_secures : ¬M .secures := by assumption) : Keeps M s0 (copyOnWrite a0 a1 a2) := by
  unfold copyOnWrite
  with_reducible refine Keeps.foldl (fun s x hs => ?_) _ ?_; refine copyHeld_keeps _ _ _ ?_; assumption; assumption

theorem modKeeper_keeps {M : Part → Prop} {s0 a1 : State} (a0) (h : Keeps M s0 a1) (k_keeper : ¬M .keeper := by assumption) : Keeps M s0 (modKeeper a0 a1) := by
  unfold modKeeper
  with_reducible refine Keeps.upd ?_; assumption

theorem modLink_keeps {M : Part → Prop} {s0 a2 : State} (a0) (a1) (h : Keeps M s0 a2) (k_net : ¬M .net := by assumption) : Keeps M s0 (modLink a0 a1 a2) := by
  unfold modLink
  refine modNet_keeps _ ?_; assumption

theorem writeCargo_keeps {M : Part → Prop} {s0 a3 : State} (a0) (a1) (a2) (h : Keeps M s0 a3) (k_mem : ¬M .mem := by assumption) (k_secures : ¬M .secures := by assumption) : Keeps M s0 (writeCargo a0 a1 a2 a3) := by
  unfold writeCargo
  (with_reducible refine Keeps.letAny (fun x hx => ?_); subst hx); with_reducible refine Keeps.foldl (fun s x hs => ?_) _ ?_
  (with_reducible refine Keeps.letAny (fun x hx => ?_); subst hx); refine Keeps.ite (fun _ => ?_) (fun _ => ?_)
  with_reducible refine Keeps.updCached ?_ (fun hm => by first | exact wf_storeByte _ _ _ hm | exact wf_storeBytes _ _ _ hm | exact wf_clearBytes _ _ _ hm | exact wf_copyRange _ _ _ _ hm | exact wf_storeAll _ _ (wf_clearBytes _ _ _ hm))
  assumption
  with_reducible refine Keeps.updHome ?_ (fun hm => by first | exact wf_storeByte _ _ _ hm | exact wf_storeBytes _ _ _ hm | exact wf_storeBytes _ _ _ (wf_clearBytes _ _ _ hm) | exact wf_copyRange _ _ _ _ hm | exact wf_storeAll _ _ (wf_clearBytes _ _ _ hm))
  assumption; with_reducible refine Keeps.foldl (fun s x hs => ?_) _ ?_; refine copyOnWrite_keeps _ _ ?_; assumption; assumption

theorem modColl_keeps {M : Part → Prop} {s0 a2 : State} (a0) (a1) (h : Keeps M s0 a2) (k_colls : ¬M .colls := by assumption) : Keeps M s0 (modColl a0 a1 a2) := by
  unfold modColl
  with_reducible refine Keeps.upd ?_; assumption

theorem modSlotBeat_keeps {M : Part → Prop} {s0 a2 : State} (a0) (a1) (h : Keeps M s0 a2) (k_slots : ¬M .slots := by assumption) : Keeps M s0 (modSlotBeat a0 a1 a2) := by
  unfold modSlotBeat
  refine modSlot_keeps _ _ ?_; assumption

theorem modDict_keeps {M : Part → Prop} {s0 a1 : State} (a0) (h : Keeps M s0 a1) (k_dict : ¬M .dict := by assumption) : Keeps M s0 (modDict a0 a1) := by
  unfold modDict
  with_reducible refine Keeps.upd ?_; assumption

end Sys2Proof.Machine
end

