-- ==== Sys2Proof/Laws/KeepsFlags.lean ====
section
/-! SUPPORT. The queue and the invariant are kept by the operations of Machine/Flags.lean. -/

set_option Elab.async false

namespace Sys2Proof.Machine

theorem stepRecord_keeps {M : Part → Prop} {s0 s : State} (b) (h : Keeps M s0 s) (k_led : ¬M .led := by assumption) : Keeps M s0 (stepRecord b s) :=
  h.updLed id id (ring_put _ _ (Nat.mod_lt _ (by decide)))

theorem commandRecord_keeps {M : Part → Prop} {s0 s : State} (b) (h : Keeps M s0 s) (k_led : ¬M .led := by assumption) : Keeps M s0 (commandRecord b s) :=
  h.updLed (ring_put _ _ (Nat.mod_lt _ (by decide))) id id

theorem failTag_keeps {M : Part → Prop} {s0 a3 : State} (a0) (a1) (a2) (h : Keeps M s0 a3) (k_slots : ¬M .slots := by assumption) : Keeps M s0 (failTag a0 a1 a2 a3) := by
  unfold failTag
  refine modStation_keeps _ _ _ ?_; assumption

theorem gather_keeps {M : Part → Prop} {s0 a2 : State} (a0) (a1) (h : Keeps M s0 a2) (k_ctr : ¬M .ctr := by assumption) : Keeps M s0 (gather a0 a1 a2) := by
  unfold gather
  refine Keeps.ite (fun _ => ?_) (fun _ => ?_); assumption; with_reducible refine Keeps.updCtr ?_; assumption

theorem event_keeps {M : Part → Prop} {s0 s : State} (a0 a1 a2) (h : Keeps M s0 s) (k_led : ¬M .led := by assumption) (k_ctr : ¬M .ctr := by assumption) : Keeps M s0 (event a0 a1 a2 s) := by
  have e : ∀ r, Keeps M s0 { s with led := { s.led with
      event := kput s.led.event (s.led.events % 65536) r, events := (s.led.events + 1) % 2 ^ 64 } } :=
    fun r => h.updLed id (ring_put _ _ (Nat.mod_lt _ (by decide))) id
  unfold event
  exact Keeps.ite (fun _ => gather_keeps _ _ (gather_keeps _ _ (e _))) (fun _ => gather_keeps _ _ (e _))

theorem eventsTogether_keeps {M : Part → Prop} {s0 a1 : State} (a0) (h : Keeps M s0 a1) (k_led : ¬M .led := by assumption) (k_ctr : ¬M .ctr := by assumption) : Keeps M s0 (eventsTogether a0 a1) := by
  unfold eventsTogether
  with_reducible refine Keeps.foldl (fun s x hs => ?_) _ ?_; refine event_keeps _ _ _ ?_; assumption; assumption

theorem checked_keeps {M : Part → Prop} {s0 a1 : State} (a0) (a2) (h : Keeps M s0 a1) (hf2 : ∀ s, Keeps M s0 s → Keeps M s0 (a2 s)) : Keeps M s0 (checked a0 a1 a2).2 := by
  unfold checked
  split; dsimp only; apply hf2; assumption; dsimp only; assumption

end Sys2Proof.Machine
end

