-- ==== Sys2Proof/Laws/KeepsFlashStore.lean ====
section
/-! SUPPORT. The queue and the invariant are kept by the operations of Machine/FlashStore.lean. -/

set_option Elab.async false

namespace Sys2Proof.Machine

theorem modFlash_keeps {M : Part → Prop} {s0 a1 : State} (a0) (h : Keeps M s0 a1) (k_flash : ¬M .flash := by assumption) : Keeps M s0 (modFlash a0 a1) := by
  unfold modFlash
  with_reducible refine Keeps.upd ?_; assumption

theorem commitPage_keeps {M : Part → Prop} {s0 a2 : State} (a0) (a1) (h : Keeps M s0 a2) (k_flash : ¬M .flash := by assumption) : Keeps M s0 (commitPage a0 a1 a2) := by
  unfold commitPage
  refine modFlash_keeps _ ?_; assumption

theorem execStoreAdmit_keeps {M : Part → Prop} {s0 a1 : State} (a0) (h : Keeps M s0 a1) (k_flash : ¬M .flash := by assumption) : Answers M s0 (execStoreAdmit a0 a1) := by
  unfold execStoreAdmit
  (with_reducible refine Answers.letAny (fun x hx => ?_); subst hx); with_reducible apply Answers.done; refine modFlash_keeps _ ?_
  assumption

theorem modPower_keeps {M : Part → Prop} {s0 a1 : State} (a0) (h : Keeps M s0 a1) (k_power : ¬M .power := by assumption) : Keeps M s0 (modPower a0 a1) := by
  unfold modPower
  with_reducible refine Keeps.upd ?_; assumption

theorem startTest_keeps {M : Part → Prop} {s0 a0 : State}  (h : Keeps M s0 a0) (k_power : ¬M .power := by assumption) : Keeps M s0 (startTest a0) := by
  unfold startTest
  refine modPower_keeps _ ?_; assumption

theorem execBankSample_keeps {M : Part → Prop} {s0 a1 : State} (a0) (h : Keeps M s0 a1) (k_power : ¬M .power := by assumption) : Answers M s0 (execBankSample a0 a1) := by
  unfold execBankSample
  with_reducible refine Answers.letIn ?_ (fun s hs => ?_); refine modPower_keeps _ ?_; refine modPower_keeps _ ?_; assumption
  with_reducible apply Answers.done; assumption

theorem eraseSet_keeps {M : Part → Prop} {s0 a1 : State} (a0) (h : Keeps M s0 a1) (k_ctr : ¬M .ctr := by assumption) (k_flash : ¬M .flash := by assumption) : Keeps M s0 (eraseSet a0 a1) := by
  unfold eraseSet
  (with_reducible refine Keeps.letAny (fun x hx => ?_); subst hx); refine Keeps.ite (fun _ => ?_) (fun _ => ?_); assumption
  refine count_keeps _ _ _ ?_; refine modFlash_keeps _ ?_; assumption

theorem writeMap_keeps {M : Part → Prop} {s0 a0 : State}  (h : Keeps M s0 a0) (k_flash : ¬M .flash := by assumption) : Keeps M s0 (writeMap a0) := by
  unfold writeMap
  refine modFlash_keeps _ ?_; assumption

theorem journalled_keeps {M : Part → Prop} {s0 a0 : State}  (h : Keeps M s0 a0) (k_flash : ¬M .flash := by assumption) : Keeps M s0 (journalled a0) := by
  unfold journalled
  refine modFlash_keeps _ ?_; refine Keeps.ite (fun _ => ?_) (fun _ => ?_); refine writeMap_keeps ?_; assumption; assumption

theorem programPage_keeps {M : Part → Prop} {s0 a1 : State} (a0) (h : Keeps M s0 a1) (k_ctr : ¬M .ctr := by assumption) (k_flash : ¬M .flash := by assumption) : Keeps M s0 (programPage a0 a1) := by
  unfold programPage
  split; assumption; with_reducible refine Keeps.letIn ?_ (fun s hs => ?_); with_reducible refine Keeps.upd ?_
  refine journalled_keeps ?_; assumption; refine count_keeps _ _ _ ?_; assumption

theorem closeSet_keeps {M : Part → Prop} {s0 a1 : State} (a0) (h : Keeps M s0 a1) (k_flash : ¬M .flash := by assumption) : Keeps M s0 (closeSet a0 a1) := by
  unfold closeSet
  refine modFlash_keeps _ ?_; assumption

theorem relocate_keeps {M : Part → Prop} {s0 a2 : State} (a0) (a1) (h : Keeps M s0 a2) (k_ctr : ¬M .ctr := by assumption) (k_flash : ¬M .flash := by assumption) : Keeps M s0 (relocate a0 a1 a2) := by
  unfold relocate
  (with_reducible refine Keeps.letAny (fun x hx => ?_); subst hx); refine count_keeps _ _ _ ?_
  with_reducible refine Keeps.foldl (fun s x hs => ?_) _ ?_; refine programPage_keeps _ ?_; assumption; refine closeSet_keeps _ ?_
  assumption

theorem execStaticWearLevelling_keeps {M : Part → Prop} {s0 a0 : State}  (h : Keeps M s0 a0) (k_ctr : ¬M .ctr := by assumption) (k_flash : ¬M .flash := by assumption) : Answers M s0 (execStaticWearLevelling a0) := by
  unfold execStaticWearLevelling
  (with_reducible refine Answers.letAny (fun x hx => ?_); subst hx); with_reducible apply Answers.done
  refine Keeps.ite (fun _ => ?_) (fun _ => ?_); split; assumption; refine eraseSet_keeps _ ?_; refine relocate_keeps _ _ ?_; assumption
  assumption

theorem programNext_keeps {M : Part → Prop} {s0 a0 : State}  (h : Keeps M s0 a0) (k_ctr : ¬M .ctr := by assumption) (k_flash : ¬M .flash := by assumption) : Keeps M s0 (programNext a0) := by
  unfold programNext
  split; assumption; refine Keeps.ite (fun _ => ?_) (fun _ => ?_); assumption; refine modFlash_keeps _ ?_
  refine programPage_keeps _ ?_; assumption

theorem execFlashProgram_keeps {M : Part → Prop} {s0 a0 : State}  (h : Keeps M s0 a0) (k_ctr : ¬M .ctr := by assumption) (k_flash : ¬M .flash := by assumption) : Answers M s0 (execFlashProgram a0) := by
  unfold execFlashProgram
  with_reducible apply Answers.done; refine programNext_keeps ?_; assumption

theorem execBlockRetire_keeps {M : Part → Prop} {s0 a1 : State} (a0) (h : Keeps M s0 a1) (k_led : ¬M .led := by assumption) (k_ctr : ¬M .ctr := by assumption) (k_flash : ¬M .flash := by assumption) : Answers M s0 (execBlockRetire a0 a1) := by
  unfold execBlockRetire
  with_reducible apply Answers.done; refine Keeps.ite (fun _ => ?_) (fun _ => ?_); assumption
  (with_reducible refine Keeps.letAny (fun x hx => ?_); subst hx); refine Keeps.ite (fun _ => ?_) (fun _ => ?_)
  refine event_keeps _ _ _ ?_; refine modFlash_keeps _ ?_; refine Keeps.ite (fun _ => ?_) (fun _ => ?_); refine event_keeps _ _ _ ?_
  refine modFlash_keeps _ ?_; refine event_keeps _ _ _ ?_; refine count_keeps _ _ _ ?_; refine modFlash_keeps _ ?_
  with_reducible refine Keeps.foldl (fun s x hs => ?_) _ ?_; refine programPage_keeps _ ?_; assumption; refine closeSet_keeps _ ?_
  assumption; refine event_keeps _ _ _ ?_; refine count_keeps _ _ _ ?_; refine modFlash_keeps _ ?_
  with_reducible refine Keeps.foldl (fun s x hs => ?_) _ ?_; refine programPage_keeps _ ?_; assumption; refine closeSet_keeps _ ?_
  assumption; refine Keeps.ite (fun _ => ?_) (fun _ => ?_); refine event_keeps _ _ _ ?_; refine modFlash_keeps _ ?_
  refine event_keeps _ _ _ ?_; refine count_keeps _ _ _ ?_; refine modFlash_keeps _ ?_
  with_reducible refine Keeps.foldl (fun s x hs => ?_) _ ?_; refine programPage_keeps _ ?_; assumption; refine closeSet_keeps _ ?_
  assumption; refine event_keeps _ _ _ ?_; refine count_keeps _ _ _ ?_; refine modFlash_keeps _ ?_
  with_reducible refine Keeps.foldl (fun s x hs => ?_) _ ?_; refine programPage_keeps _ ?_; assumption; refine closeSet_keeps _ ?_
  assumption

theorem execMapCheckpoint_keeps {M : Part → Prop} {s0 a0 : State}  (h : Keeps M s0 a0) (k_flash : ¬M .flash := by assumption) : Answers M s0 (execMapCheckpoint a0) := by
  unfold execMapCheckpoint
  with_reducible apply Answers.done; refine Keeps.ite (fun _ => ?_) (fun _ => ?_); refine writeMap_keeps ?_; assumption; assumption

theorem admitStore_keeps {M : Part → Prop} {s0 a3 : State} (a0) (a1) (a2) (h : Keeps M s0 a3) (k_led : ¬M .led := by assumption) (k_ctr : ¬M .ctr := by assumption) (k_flash : ¬M .flash := by assumption) : Keeps M s0 (admitStore a0 a1 a2 a3).1 := by
  unfold admitStore
  (with_reducible refine Keeps.letAnyFst (fun x hx => ?_); subst hx); with_reducible refine Keeps.iteFst (fun hc => ?_) (fun hc => ?_)
  dsimp only; assumption; with_reducible refine Keeps.iteFst (fun hc => ?_) (fun hc => ?_); dsimp only; refine event_keeps _ _ _ ?_
  refine count_keeps _ _ _ ?_; assumption; with_reducible refine Keeps.iteFst (fun hc => ?_) (fun hc => ?_); dsimp only
  refine count_keeps _ _ _ ?_; refine modFlash_keeps _ ?_; assumption; dsimp only; refine count_keeps _ _ _ ?_
  refine count_keeps _ _ _ ?_; refine modFlash_keeps _ ?_; assumption

theorem execReadDisturbRelocation_keeps {M : Part → Prop} {s0 a1 : State} (a0) (h : Keeps M s0 a1) (k_ctr : ¬M .ctr := by assumption) (k_flash : ¬M .flash := by assumption) : Answers M s0 (execReadDisturbRelocation a0 a1) := by
  unfold execReadDisturbRelocation
  with_reducible apply Answers.done; refine Keeps.ite (fun _ => ?_) (fun _ => ?_); refine eraseSet_keeps _ ?_
  refine relocate_keeps _ _ ?_; assumption; assumption

theorem execFlashPageRead_keeps {M : Part → Prop} {s0 a3 : State} (a0) (a1) (a2) (h : Keeps M s0 a3) (k_ctr : ¬M .ctr := by assumption) (k_flash : ¬M .flash := by assumption) : Answers M s0 (execFlashPageRead a0 a1 a2 a3) := by
  unfold execFlashPageRead
  with_reducible apply Answers.done; split; assumption; with_reducible refine Keeps.letIn ?_ (fun s hs => ?_)
  refine modFlash_keeps _ ?_; refine Keeps.ite (fun _ => ?_) (fun _ => ?_); refine count_keeps _ _ _ ?_; assumption
  refine count_keeps _ _ _ ?_; refine count_keeps _ _ _ ?_; assumption; refine Keeps.ite (fun _ => ?_) (fun _ => ?_)
  refine count_keeps _ _ _ ?_; refine modFlash_keeps _ ?_; refine Keeps.ite (fun _ => ?_) (fun _ => ?_); refine count_keeps _ _ _ ?_
  assumption; refine count_keeps _ _ _ ?_; refine count_keeps _ _ _ ?_; assumption; assumption

theorem execGarbageCollection_keeps {M : Part → Prop} {s0 a0 : State}  (h : Keeps M s0 a0) (k_ctr : ¬M .ctr := by assumption) (k_flash : ¬M .flash := by assumption) : Answers M s0 (execGarbageCollection a0) := by
  unfold execGarbageCollection
  with_reducible apply Answers.done; refine Keeps.ite (fun _ => ?_) (fun _ => ?_); split; assumption; refine eraseSet_keeps _ ?_
  refine relocate_keeps _ _ ?_; assumption; assumption

end Sys2Proof.Machine
end

