-- ==== Sys2Proof/Laws/KeepsNetwork.lean ====
section
/-! SUPPORT. The queue and the invariant are kept by the operations of Machine/Network.lean. -/

set_option Elab.async false

namespace Sys2Proof.Machine

theorem place_keeps {M : Part → Prop} {s0 a2 : State} (a0) (a1) (h : Keeps M s0 a2) (k_fab : ¬M .fab := by assumption) : Keeps M s0 (place a0 a1 a2) := by
  unfold place
  split; refine modFab_keeps _ ?_; assumption; refine modFab_keeps _ ?_; assumption

theorem takeInput_keeps {M : Part → Prop} {s0 a6 : State} (a0) (a1) (a2) (a3) (a4) (a5) (h : Keeps M s0 a6) (k_fab : ¬M .fab := by assumption) (k_slots : ¬M .slots := by assumption) : Keeps M s0 (takeInput a0 a1 a2 a3 a4 a5 a6) := by
  unfold takeInput
  split; refine modFab_keeps _ ?_; assumption; refine modStream_keeps _ _ _ ?_; assumption

theorem dropArrived_keeps {M : Part → Prop} {s0 a6 : State} (a0) (a1) (a2) (a3) (a4) (a5) (h : Keeps M s0 a6) (k_fab : ¬M .fab := by assumption) : Keeps M s0 (dropArrived a0 a1 a2 a3 a4 a5 a6) := by
  unfold dropArrived
  refine modFab_keeps _ ?_; assumption

theorem takeTile_keeps {M : Part → Prop} {s0 a4 : State} (a0) (a1) (a2) (a3) (h : Keeps M s0 a4) (k_fab : ¬M .fab := by assumption) : Keeps M s0 (takeTile a0 a1 a2 a3 a4) := by
  unfold takeTile
  (with_reducible refine Keeps.letAny (fun x hx => ?_); subst hx); refine dropArrived_keeps _ _ _ _ _ _ ?_
  refine dropArrived_keeps _ _ _ _ _ _ ?_; refine dropArrived_keeps _ _ _ _ _ _ ?_; assumption

theorem queueFlits_keeps {M : Part → Prop} {s0 a3 : State} (a0) (a1) (a2) (h : Keeps M s0 a3) (k_net : ¬M .net := by assumption) : Keeps M s0 (queueFlits a0 a1 a2 a3) := by
  unfold queueFlits
  refine modLink_keeps _ _ ?_; assumption

theorem leaveRing_keeps {M : Part → Prop} {s0 a5 : State} (a0) (a1) (a2) (a3) (a4) (h : Keeps M s0 a5) (k_fab : ¬M .fab := by assumption) (k_net : ¬M .net := by assumption) : Keeps M s0 (leaveRing a0 a1 a2 a3 a4 a5) := by
  unfold leaveRing
  split; assumption; split; assumption; refine queueFlits_keeps _ _ _ ?_; refine takeTile_keeps _ _ _ _ ?_; assumption

theorem purgePath_keeps {M : Part → Prop} {s0 a3 : State} (a0) (a1) (a2) (h : Keeps M s0 a3) (k_fab : ¬M .fab := by assumption) : Keeps M s0 (purgePath a0 a1 a2 a3) := by
  unfold purgePath
  (with_reducible refine Keeps.letAny (fun x hx => ?_); subst hx); refine modFab_keeps _ ?_; assumption

end Sys2Proof.Machine
end

