-- ==== Sys2Proof/Laws/KeepsCargo.lean ====
section
/-! SUPPORT. The queue and the invariant are kept by the operations of Machine/Cargo.lean. -/

set_option Elab.async false

namespace Sys2Proof.Machine

theorem modCache_keeps {M : Part → Prop} {s0 a1 : State} (a0) (h : Keeps M s0 a1) (k_mem : ¬M .mem := by assumption) : Keeps M s0 (modCache a0 a1) := by
  unfold modCache
  with_reducible refine Keeps.updMem ?_; assumption

theorem modFrame_keeps {M : Part → Prop} {s0 a3 : State} (a0) (a1) (a2) (h : Keeps M s0 a3) (k_mem : ¬M .mem := by assumption) : Keeps M s0 (modFrame a0 a1 a2 a3) := by
  unfold modFrame
  refine modCache_keeps _ ?_; assumption

theorem touchT3_keeps {M : Part → Prop} {s0 a2 : State} (a0) (a1) (h : Keeps M s0 a2) (k_mem : ¬M .mem := by assumption) (k_flash : ¬M .flash := by assumption) : Keeps M s0 (touchT3 a0 a1 a2) := by
  unfold touchT3
  split; assumption; refine Keeps.ite (fun _ => ?_) (fun _ => ?_); with_reducible refine Keeps.letIn ?_ (fun s hs => ?_)
  refine commitPage_keeps _ _ ?_; assumption; refine modCargo_keeps _ _ ?_; assumption; assumption

theorem writeHomeFrame_keeps {M : Part → Prop} {s0 a1 : State} (a0) (h : Keeps M s0 a1) (k_out : ¬M .out := by assumption) (k_led : ¬M .led := by assumption) (k_ctr : ¬M .ctr := by assumption) (k_mem : ¬M .mem := by assumption) (k_flash : ¬M .flash := by assumption) : Keeps M s0 (writeHomeFrame a0 a1).1 := by
  unfold writeHomeFrame
  (with_reducible refine Keeps.letAnyFst (fun x hx => ?_); subst hx); with_reducible refine Keeps.iteFst (fun hc => ?_) (fun hc => ?_)
  (with_reducible refine Keeps.letAnyFst (fun x hx => ?_); subst hx); with_reducible refine Keeps.iteFst (fun hc => ?_) (fun hc => ?_)
  dsimp only; refine count_keeps _ _ _ ?_; refine modFrame_keeps _ _ _ ?_
  with_reducible refine Keeps.updHome ?_ (fun hm => by first | exact wf_storeByte _ _ _ hm | exact wf_storeBytes _ _ _ hm | exact wf_storeBytes _ _ _ (wf_clearBytes _ _ _ hm) | exact wf_copyRange _ _ _ _ hm | exact wf_storeAll _ _ (wf_clearBytes _ _ _ hm))
  refine touchT3_keeps _ _ ?_; with_reducible refine Keeps.iteFst (fun hc => ?_) (fun hc => ?_); dsimp only; assumption
  refine admitStore_keeps _ _ _ ?_; assumption; dsimp -zeta only; refine modFrame_keeps _ _ _ ?_
  with_reducible refine Keeps.iteFst (fun hc => ?_) (fun hc => ?_); dsimp only; assumption; refine admitStore_keeps _ _ _ ?_
  assumption; with_reducible refine Keeps.iteFst (fun hc => ?_) (fun hc => ?_)
  with_reducible refine Keeps.iteFst (fun hc => ?_) (fun hc => ?_); dsimp -zeta only; refine modFrame_keeps _ _ _ ?_; assumption
  dsimp only; refine count_keeps _ _ _ ?_; refine modFrame_keeps _ _ _ ?_
  with_reducible refine Keeps.updHome ?_ (fun hm => by first | exact wf_storeByte _ _ _ hm | exact wf_storeBytes _ _ _ hm | exact wf_storeBytes _ _ _ (wf_clearBytes _ _ _ hm) | exact wf_copyRange _ _ _ _ hm | exact wf_storeAll _ _ (wf_clearBytes _ _ _ hm))
  refine touchT3_keeps _ _ ?_; refine emit_keeps _ ?_; assumption; dsimp only; refine count_keeps _ _ _ ?_
  refine modFrame_keeps _ _ _ ?_
  with_reducible refine Keeps.updHome ?_ (fun hm => by first | exact wf_storeByte _ _ _ hm | exact wf_storeBytes _ _ _ hm | exact wf_storeBytes _ _ _ (wf_clearBytes _ _ _ hm) | exact wf_copyRange _ _ _ _ hm | exact wf_storeAll _ _ (wf_clearBytes _ _ _ hm))
  refine touchT3_keeps _ _ ?_; assumption

theorem flushPage_keeps {M : Part → Prop} {s0 a2 : State} (a0) (a1) (h : Keeps M s0 a2) (k_out : ¬M .out := by assumption) (k_led : ¬M .led := by assumption) (k_ctr : ¬M .ctr := by assumption) (k_mem : ¬M .mem := by assumption) (k_flash : ¬M .flash := by assumption) : Keeps M s0 (flushPage a0 a1 a2).1 := by
  unfold flushPage
  split; with_reducible refine Keeps.iteFst (fun hc => ?_) (fun hc => ?_); refine writeHomeFrame_keeps _ ?_; assumption; dsimp only
  assumption; dsimp only; assumption

theorem setProgress_keeps {M : Part → Prop} {s0 a3 : State} (a0) (a1) (a2) (h : Keeps M s0 a3) (k_mem : ¬M .mem := by assumption) : Keeps M s0 (setProgress a0 a1 a2 a3) := by
  unfold setProgress
  with_reducible refine Keeps.updMem ?_; assumption

theorem dropFrame_keeps {M : Part → Prop} {s0 a2 : State} (a0) (a1) (h : Keeps M s0 a2) (k_mem : ¬M .mem := by assumption) : Keeps M s0 (dropFrame a0 a1 a2) := by
  unfold dropFrame
  with_reducible refine Keeps.updCached ?_ (fun hm => by first | exact wf_storeByte _ _ _ hm | exact wf_storeBytes _ _ _ hm | exact wf_clearBytes _ _ _ hm | exact wf_copyRange _ _ _ _ hm | exact wf_storeAll _ _ (wf_clearBytes _ _ _ hm))
  assumption

theorem evict_keeps {M : Part → Prop} {s0 a1 : State} (a0) (h : Keeps M s0 a1) (k_out : ¬M .out := by assumption) (k_led : ¬M .led := by assumption) (k_ctr : ¬M .ctr := by assumption) (k_mem : ¬M .mem := by assumption) (k_flash : ¬M .flash := by assumption) : Keeps M s0 (evict a0 a1).1 := by
  unfold evict
  split; dsimp only; assumption; (with_reducible refine Keeps.letAnyFst (fun x hx => ?_); subst hx)
  with_reducible refine Keeps.iteFst (fun hc => ?_) (fun hc => ?_); dsimp only; refine count_keeps _ _ _ ?_
  refine dropFrame_keeps _ _ ?_; with_reducible refine Keeps.iteFst (fun hc => ?_) (fun hc => ?_); refine writeHomeFrame_keeps _ ?_
  assumption; dsimp only; assumption; dsimp only; with_reducible refine Keeps.iteFst (fun hc => ?_) (fun hc => ?_)
  refine writeHomeFrame_keeps _ ?_; assumption; dsimp only; assumption

theorem makeRoom_keeps {M : Part → Prop} {s0 s : State} (stack need) (fuel : Nat) (h : Keeps M s0 s) (k_out : ¬M .out := by assumption) (k_led : ¬M .led := by assumption) (k_ctr : ¬M .ctr := by assumption) (k_mem : ¬M .mem := by assumption) (k_flash : ¬M .flash := by assumption) : Keeps M s0 (makeRoom stack need fuel s).1 := by
  induction fuel generalizing s with
  | zero => exact h
  | succ fuel ih =>
    have he := evict_keeps stack h
    unfold makeRoom
    exact Keeps.iteFst (fun _ => Keeps.iteFst (fun _ => ih he) (fun _ => he)) (fun _ => h)

theorem roomFor_keeps {M : Part → Prop} {s0 a3 : State} (a0) (a1) (a2) (h : Keeps M s0 a3) (k_out : ¬M .out := by assumption) (k_led : ¬M .led := by assumption) (k_ctr : ¬M .ctr := by assumption) (k_mem : ¬M .mem := by assumption) (k_flash : ¬M .flash := by assumption) : Keeps M s0 (roomFor a0 a1 a2 a3).1 := by
  unfold roomFor
  with_reducible refine Keeps.foldlFst (fun s x hs => ?_) _ ?_; with_reducible refine Keeps.iteFst (fun hc => ?_) (fun hc => ?_)
  assumption; with_reducible refine Keeps.iteFst (fun hc => ?_) (fun hc => ?_); refine makeRoom_keeps _ _ _ ?_; assumption; dsimp only
  assumption; dsimp only; assumption

theorem allocPages_keeps {M : Part → Prop} {s0 a0 : State} (a1) (h : Keeps M s0 a0) (k_fresh : ¬M .fresh := by assumption) : Keeps M s0 (allocPages a0 a1).1 := by
  unfold allocPages
  (with_reducible refine Keeps.letAnyFst (fun x hx => ?_); subst hx); with_reducible refine Keeps.iteFst (fun hc => ?_) (fun hc => ?_)
  dsimp only; assumption; (with_reducible refine Keeps.letAnyFst (fun x hx => ?_); subst hx); dsimp only
  with_reducible refine Keeps.upd ?_; assumption

theorem createCargo_keeps {M : Part → Prop} {s0 a2 : State} (a0) (a1) (h : Keeps M s0 a2) (k_fresh : ¬M .fresh := by assumption) (k_out : ¬M .out := by assumption) (k_led : ¬M .led := by assumption) (k_ctr : ¬M .ctr := by assumption) (k_mem : ¬M .mem := by assumption) (k_flash : ¬M .flash := by assumption) : Keeps M s0 (createCargo a0 a1 a2) := by
  unfold createCargo
  (with_reducible refine Keeps.letAny (fun x hx => ?_); subst hx); refine setProgress_keeps _ _ _ ?_
  refine Keeps.ite (fun _ => ?_) (fun _ => ?_); refine journalled_keeps ?_
  with_reducible refine Keeps.updGen ?_ (fun hm => by first | exact hm | exact tbfs_kmap (fun _ _ => rfl) hm | exact fits_filter _ hm | exact wf_clearBytes _ _ _ hm | exact tbfs_nil) (fun hm => by first | exact hm | exact tbfs_kmap (fun _ _ => rfl) hm | exact fits_filter _ hm | exact wf_clearBytes _ _ _ hm | exact tbfs_nil) (fun hm => by first | exact hm | exact tbfs_kmap (fun _ _ => rfl) hm | exact fits_filter _ hm | exact wf_clearBytes _ _ _ hm | exact tbfs_nil) (fun hm => by first | exact hm | exact tbfs_kmap (fun _ _ => rfl) hm | exact fits_filter _ hm | exact wf_clearBytes _ _ _ hm | exact tbfs_nil) (fun hm => by first | exact hm | exact tbfs_kmap (fun _ _ => rfl) hm | exact fits_filter _ hm | exact wf_clearBytes _ _ _ hm | exact tbfs_nil) (fun hm => by first | exact hm | exact tbfs_kmap (fun _ _ => rfl) hm | exact fits_filter _ hm | exact wf_clearBytes _ _ _ hm | exact tbfs_nil) (fun hm => by first | exact hm | exact tbfs_kmap (fun _ _ => rfl) hm | exact fits_filter _ hm | exact wf_clearBytes _ _ _ hm | exact tbfs_nil)
  refine allocPages_keeps _ ?_; refine Keeps.ite (fun _ => ?_) (fun _ => ?_); refine roomFor_keeps _ _ _ ?_; assumption; assumption
  with_reducible refine Keeps.updGen ?_ (fun hm => by first | exact hm | exact tbfs_kmap (fun _ _ => rfl) hm | exact fits_filter _ hm | exact wf_clearBytes _ _ _ hm | exact tbfs_nil) (fun hm => by first | exact hm | exact tbfs_kmap (fun _ _ => rfl) hm | exact fits_filter _ hm | exact wf_clearBytes _ _ _ hm | exact tbfs_nil) (fun hm => by first | exact hm | exact tbfs_kmap (fun _ _ => rfl) hm | exact fits_filter _ hm | exact wf_clearBytes _ _ _ hm | exact tbfs_nil) (fun hm => by first | exact hm | exact tbfs_kmap (fun _ _ => rfl) hm | exact fits_filter _ hm | exact wf_clearBytes _ _ _ hm | exact tbfs_nil) (fun hm => by first | exact hm | exact tbfs_kmap (fun _ _ => rfl) hm | exact fits_filter _ hm | exact wf_clearBytes _ _ _ hm | exact tbfs_nil) (fun hm => by first | exact hm | exact tbfs_kmap (fun _ _ => rfl) hm | exact fits_filter _ hm | exact wf_clearBytes _ _ _ hm | exact tbfs_nil) (fun hm => by first | exact hm | exact tbfs_kmap (fun _ _ => rfl) hm | exact fits_filter _ hm | exact wf_clearBytes _ _ _ hm | exact tbfs_nil)
  refine allocPages_keeps _ ?_; refine Keeps.ite (fun _ => ?_) (fun _ => ?_); refine roomFor_keeps _ _ _ ?_; assumption; assumption

theorem createEffect_keeps {M : Part → Prop} {s0 a2 : State} (a0) (a1) (h : Keeps M s0 a2) (k_fresh : ¬M .fresh := by assumption) (k_out : ¬M .out := by assumption) (k_led : ¬M .led := by assumption) (k_ctr : ¬M .ctr := by assumption) (k_mem : ¬M .mem := by assumption) (k_flash : ¬M .flash := by assumption) : Keeps M s0 (createEffect a0 a1 a2).2 := by
  unfold createEffect
  (with_reducible refine Keeps.letAnySnd (fun x hx => ?_); subst hx); refine checked_keeps _ _ ?_ ?_; assumption; intros
  refine createCargo_keeps _ _ ?_; assumption

theorem onCargo_keeps {M : Part → Prop} {s0 a4 : State} (a0) (a1) (a2) (a3) (h : Keeps M s0 a4) (hf3 : ∀ x y z s, Keeps M s0 s → Keeps M s0 (a3 x y z s)) : Keeps M s0 (onCargo a0 a1 a2 a3 a4).2 := by
  unfold onCargo
  (with_reducible refine Keeps.letAnySnd (fun x hx => ?_); subst hx); split; refine checked_keeps _ _ ?_ ?_; assumption; intros
  dsimp -zeta only [id]; assumption; (with_reducible refine Keeps.letAnySnd (fun x hx => ?_); subst hx); refine checked_keeps _ _ ?_ ?_
  assumption; intros; apply hf3; assumption

theorem freeCargo_keeps {M : Part → Prop} {s0 a2 : State} (a0) (a1) (h : Keeps M s0 a2) (k_mem : ¬M .mem := by assumption) (k_flash : ¬M .flash := by assumption) (k_host : ¬M .host := by assumption) : Keeps M s0 (freeCargo a0 a1 a2) := by
  unfold freeCargo
  (with_reducible refine Keeps.letAny (fun x hx => ?_); subst hx); refine setProgress_keeps _ _ _ ?_; refine modHost_keeps _ ?_
  with_reducible refine Keeps.updGen ?_ (fun hm => by first | exact hm | exact tbfs_kmap (fun _ _ => rfl) hm | exact fits_filter _ hm | exact wf_clearBytes _ _ _ hm | exact tbfs_nil) (fun hm => by first | exact hm | exact tbfs_kmap (fun _ _ => rfl) hm | exact fits_filter _ hm | exact wf_clearBytes _ _ _ hm | exact tbfs_nil) (fun hm => by first | exact hm | exact tbfs_kmap (fun _ _ => rfl) hm | exact fits_filter _ hm | exact wf_clearBytes _ _ _ hm | exact tbfs_nil) (fun hm => by first | exact hm | exact tbfs_kmap (fun _ _ => rfl) hm | exact fits_filter _ hm | exact wf_clearBytes _ _ _ hm | exact tbfs_nil) (fun hm => by first | exact hm | exact tbfs_kmap (fun _ _ => rfl) hm | exact fits_filter _ hm | exact wf_clearBytes _ _ _ hm | exact tbfs_nil) (fun hm => by first | exact hm | exact tbfs_kmap (fun _ _ => rfl) hm | exact fits_filter _ hm | exact wf_clearBytes _ _ _ hm | exact tbfs_nil) (fun hm => by first | exact hm | exact tbfs_kmap (fun _ _ => rfl) hm | exact fits_filter _ hm | exact wf_clearBytes _ _ _ hm | exact tbfs_nil)
  refine Keeps.ite (fun _ => ?_) (fun _ => ?_); refine journalled_keeps ?_; refine modFlash_keeps _ ?_; assumption; assumption

theorem freeEffect_keeps {M : Part → Prop} {s0 a2 : State} (a0) (a1) (h : Keeps M s0 a2) (k_mem : ¬M .mem := by assumption) (k_flash : ¬M .flash := by assumption) (k_host : ¬M .host := by assumption) : Keeps M s0 (freeEffect a0 a1 a2).2 := by
  unfold freeEffect
  refine onCargo_keeps _ _ _ _ ?_ ?_; assumption; intros; refine freeCargo_keeps _ _ ?_; assumption

theorem takeFrame_keeps {M : Part → Prop} {s0 a1 : State} (a0) (h : Keeps M s0 a1) (k_fresh : ¬M .fresh := by assumption) (k_out : ¬M .out := by assumption) (k_led : ¬M .led := by assumption) (k_ctr : ¬M .ctr := by assumption) (k_mem : ¬M .mem := by assumption) (k_flash : ¬M .flash := by assumption) : Keeps M s0 (takeFrame a0 a1).1 := by
  unfold takeFrame
  (with_reducible refine Keeps.letAnyFst (fun x hx => ?_); subst hx); with_reducible refine Keeps.iteFst (fun hc => ?_) (fun hc => ?_)
  dsimp -zeta only; refine draw_keeps ?_; assumption; with_reducible refine Keeps.iteFst (fun hc => ?_) (fun hc => ?_); dsimp only
  refine count_keeps _ _ _ ?_; assumption; (with_reducible refine Keeps.letAnyFst (fun x hx => ?_); subst hx)
  with_reducible refine Keeps.iteFst (fun hc => ?_) (fun hc => ?_); dsimp -zeta only; refine draw_keeps ?_; refine evict_keeps _ ?_
  assumption; dsimp only; refine evict_keeps _ ?_; assumption

theorem cacheAccess_keeps {M : Part → Prop} {s0 a2 : State} (a0) (a1) (h : Keeps M s0 a2) (k_fresh : ¬M .fresh := by assumption) (k_out : ¬M .out := by assumption) (k_led : ¬M .led := by assumption) (k_ctr : ¬M .ctr := by assumption) (k_mem : ¬M .mem := by assumption) (k_flash : ¬M .flash := by assumption) : Keeps M s0 (cacheAccess a0 a1 a2).1 := by
  unfold cacheAccess
  (with_reducible refine Keeps.letAnyFst (fun x hx => ?_); subst hx); split
  (with_reducible refine Keeps.letAnyFst (fun x hx => ?_); subst hx); with_reducible refine Keeps.iteFst (fun hc => ?_) (fun hc => ?_)
  dsimp only; refine modFrame_keeps _ _ _ ?_; assumption; with_reducible refine Keeps.iteFst (fun hc => ?_) (fun hc => ?_)
  (with_reducible refine Keeps.letAnyFst (fun x hx => ?_); subst hx); dsimp only; refine modFrame_keeps _ _ _ ?_
  with_reducible refine Keeps.iteFst (fun hc => ?_) (fun hc => ?_); refine writeHomeFrame_keeps _ ?_; refine modFrame_keeps _ _ _ ?_
  assumption; dsimp only; refine modFrame_keeps _ _ _ ?_; assumption; dsimp only; refine count_keeps _ _ _ ?_
  refine modFrame_keeps _ _ _ ?_; assumption; (with_reducible refine Keeps.letAnyFst (fun x hx => ?_); subst hx); split; dsimp only
  refine takeFrame_keeps _ ?_; assumption; dsimp only; refine count_keeps _ _ _ ?_; with_reducible refine Keeps.updMem ?_
  refine takeFrame_keeps _ ?_; assumption

theorem accessPages_keeps {M : Part → Prop} {s0 a2 : State} (a0) (a1) (h : Keeps M s0 a2) (k_fresh : ¬M .fresh := by assumption) (k_out : ¬M .out := by assumption) (k_led : ¬M .led := by assumption) (k_ctr : ¬M .ctr := by assumption) (k_mem : ¬M .mem := by assumption) (k_flash : ¬M .flash := by assumption) : Keeps M s0 (accessPages a0 a1 a2).1 := by
  unfold accessPages
  with_reducible refine Keeps.foldlFst (fun s x hs => ?_) _ ?_; with_reducible refine Keeps.iteFst (fun hc => ?_) (fun hc => ?_)
  dsimp only; assumption; refine cacheAccess_keeps _ _ ?_; assumption; dsimp only; assumption

theorem refillLand_keeps {M : Part → Prop} {s0 a3 : State} (a0) (a1) (a2) (h : Keeps M s0 a3) (k_mem : ¬M .mem := by assumption) : Keeps M s0 (refillLand a0 a1 a2 a3) := by
  unfold refillLand
  split; refine Keeps.ite (fun _ => ?_) (fun _ => ?_); with_reducible refine Keeps.letIn ?_ (fun s hs => ?_)
  with_reducible refine Keeps.updCached ?_ (fun hm => by first | exact wf_storeByte _ _ _ hm | exact wf_storeBytes _ _ _ hm | exact wf_clearBytes _ _ _ hm | exact wf_copyRange _ _ _ _ hm | exact wf_storeAll _ _ (wf_clearBytes _ _ _ hm))
  split
  with_reducible refine Keeps.updHome ?_ (fun hm => by first | exact wf_storeByte _ _ _ hm | exact wf_storeBytes _ _ _ hm | exact wf_storeBytes _ _ _ (wf_clearBytes _ _ _ hm) | exact wf_copyRange _ _ _ _ hm | exact wf_storeAll _ _ (wf_clearBytes _ _ _ hm))
  assumption; assumption; refine modFrame_keeps _ _ _ ?_; assumption; assumption; assumption

theorem settlePage_keeps {M : Part → Prop} {s0 a2 : State} (a0) (a1) (h : Keeps M s0 a2) (k_fresh : ¬M .fresh := by assumption) (k_mem : ¬M .mem := by assumption) : Keeps M s0 (settlePage a0 a1 a2) := by
  unfold settlePage
  refine Keeps.ite (fun _ => ?_) (fun _ => ?_); refine Keeps.ite (fun _ => ?_) (fun _ => ?_); refine refillLand_keeps _ _ _ ?_
  refine draw_keeps ?_; assumption; refine refillLand_keeps _ _ _ ?_; assumption; assumption

theorem pinPage_keeps {M : Part → Prop} {s0 a2 : State} (a0) (a1) (h : Keeps M s0 a2) (k_fresh : ¬M .fresh := by assumption) (k_out : ¬M .out := by assumption) (k_led : ¬M .led := by assumption) (k_ctr : ¬M .ctr := by assumption) (k_mem : ¬M .mem := by assumption) (k_flash : ¬M .flash := by assumption) : Keeps M s0 (pinPage a0 a1 a2).1 := by
  unfold pinPage
  (with_reducible refine Keeps.letAnyFst (fun x hx => ?_); subst hx); with_reducible refine Keeps.iteFst (fun hc => ?_) (fun hc => ?_)
  dsimp only; refine modFrame_keeps _ _ _ ?_; refine settlePage_keeps _ _ ?_; refine accessPages_keeps _ _ ?_; assumption
  refine accessPages_keeps _ _ ?_; assumption

theorem workOn_keeps {M : Part → Prop} {s0 a2 : State} (a0) (a1) (h : Keeps M s0 a2) (k_fresh : ¬M .fresh := by assumption) (k_out : ¬M .out := by assumption) (k_led : ¬M .led := by assumption) (k_ctr : ¬M .ctr := by assumption) (k_mem : ¬M .mem := by assumption) (k_flash : ¬M .flash := by assumption) : Keeps M s0 (workOn a0 a1 a2) := by
  unfold workOn
  (with_reducible refine Keeps.letAny (fun x hx => ?_); subst hx); with_reducible refine Keeps.updMem ?_
  with_reducible refine Keeps.foldlFst (fun s x hs => ?_) _ ?_; (with_reducible refine Keeps.letAnyFst (fun x hx => ?_); subst hx)
  dsimp only; with_reducible refine Keeps.iteFst (fun hc => ?_) (fun hc => ?_); refine pinPage_keeps _ _ ?_; assumption
  refine flushPage_keeps _ _ ?_; assumption; dsimp only; assumption

theorem pinEffect_keeps {M : Part → Prop} {s0 a2 : State} (a0) (a1) (h : Keeps M s0 a2) (k_fresh : ¬M .fresh := by assumption) (k_out : ¬M .out := by assumption) (k_led : ¬M .led := by assumption) (k_ctr : ¬M .ctr := by assumption) (k_mem : ¬M .mem := by assumption) (k_flash : ¬M .flash := by assumption) : Keeps M s0 (pinEffect a0 a1 a2).2 := by
  unfold pinEffect
  refine onCargo_keeps _ _ _ _ ?_ ?_; assumption; intros; refine setProgress_keeps _ _ _ ?_; refine workOn_keeps _ _ ?_; assumption

theorem unpinEffect_keeps {M : Part → Prop} {s0 a2 : State} (a0) (a1) (h : Keeps M s0 a2) (k_mem : ¬M .mem := by assumption) : Keeps M s0 (unpinEffect a0 a1 a2).2 := by
  unfold unpinEffect
  refine onCargo_keeps _ _ _ _ ?_ ?_; assumption; intros; refine setProgress_keeps _ _ _ ?_
  with_reducible refine Keeps.foldl (fun s x hs => ?_) _ ?_; refine modFrame_keeps _ _ _ ?_; assumption; assumption

theorem setActionsEffect_keeps {M : Part → Prop} {s0 a2 : State} (a0) (a1) (h : Keeps M s0 a2) (k_mem : ¬M .mem := by assumption) : Keeps M s0 (setActionsEffect a0 a1 a2).2 := by
  unfold setActionsEffect
  (with_reducible refine Keeps.letAnySnd (fun x hx => ?_); subst hx); refine onCargo_keeps _ _ _ _ ?_ ?_; assumption; intros
  refine setProgress_keeps _ _ _ ?_; refine modCargo_keeps _ _ ?_; assumption

theorem flushEffect_keeps {M : Part → Prop} {s0 a2 : State} (a0) (a1) (h : Keeps M s0 a2) (k_fresh : ¬M .fresh := by assumption) (k_out : ¬M .out := by assumption) (k_led : ¬M .led := by assumption) (k_ctr : ¬M .ctr := by assumption) (k_mem : ¬M .mem := by assumption) (k_flash : ¬M .flash := by assumption) : Keeps M s0 (flushEffect a0 a1 a2).2 := by
  unfold flushEffect
  refine onCargo_keeps _ _ _ _ ?_ ?_; assumption; intros; refine setProgress_keeps _ _ _ ?_; refine workOn_keeps _ _ ?_; assumption

theorem markPage_keeps {M : Part → Prop} {s0 a2 : State} (a0) (a1) (h : Keeps M s0 a2) (k_out : ¬M .out := by assumption) (k_led : ¬M .led := by assumption) (k_ctr : ¬M .ctr := by assumption) (k_mem : ¬M .mem := by assumption) (k_flash : ¬M .flash := by assumption) : Keeps M s0 (markPage a0 a1 a2) := by
  unfold markPage
  refine modFrame_keeps _ _ _ ?_; refine flushPage_keeps _ _ ?_; assumption

theorem markEffect_keeps {M : Part → Prop} {s0 a2 : State} (a0) (a1) (h : Keeps M s0 a2) (k_out : ¬M .out := by assumption) (k_led : ¬M .led := by assumption) (k_ctr : ¬M .ctr := by assumption) (k_mem : ¬M .mem := by assumption) (k_flash : ¬M .flash := by assumption) : Keeps M s0 (markEffect a0 a1 a2).2 := by
  unfold markEffect
  refine onCargo_keeps _ _ _ _ ?_ ?_; assumption; intros; refine setProgress_keeps _ _ _ ?_
  with_reducible refine Keeps.foldl (fun s x hs => ?_) _ ?_; refine markPage_keeps _ _ ?_; assumption; assumption

theorem cargoEffect_keeps {M : Part → Prop} {s0 a2 : State} (a0) (a1) (h : Keeps M s0 a2) (k_fresh : ¬M .fresh := by assumption) (k_out : ¬M .out := by assumption) (k_led : ¬M .led := by assumption) (k_ctr : ¬M .ctr := by assumption) (k_mem : ¬M .mem := by assumption) (k_flash : ¬M .flash := by assumption) (k_host : ¬M .host := by assumption) : Keeps M s0 (cargoEffect a0 a1 a2).2 := by
  unfold cargoEffect
  split; refine createEffect_keeps _ _ ?_; assumption; refine freeEffect_keeps _ _ ?_; assumption; refine pinEffect_keeps _ _ ?_
  assumption; refine unpinEffect_keeps _ _ ?_; assumption; refine setActionsEffect_keeps _ _ ?_; assumption
  refine flushEffect_keeps _ _ ?_; assumption; refine markEffect_keeps _ _ ?_; assumption; refine checked_keeps _ _ ?_ ?_; assumption
  intros; dsimp -zeta only [id]; assumption

theorem saggarHit_keeps {M : Part → Prop} {s0 a2 : State} (a0) (a1) (h : Keeps M s0 a2) (k_mem : ¬M .mem := by assumption) : Keeps M s0 (saggarHit a0 a1 a2) := by
  unfold saggarHit
  with_reducible refine Keeps.updMem ?_; assumption

theorem breakCargo_keeps {M : Part → Prop} {s0 a1 : State} (a0) (h : Keeps M s0 a1) (k_mem : ¬M .mem := by assumption) : Keeps M s0 (breakCargo a0 a1) := by
  unfold breakCargo
  refine modCargo_keeps _ _ ?_; assumption

theorem breakRecords_keeps {M : Part → Prop} {s0 a1 : State} (a0) (h : Keeps M s0 a1) (k_mem : ¬M .mem := by assumption) : Keeps M s0 (breakRecords a0 a1) := by
  unfold breakRecords
  with_reducible refine Keeps.updMem ?_; assumption

theorem saggarLost_keeps {M : Part → Prop} {s0 s : State} (kind unit f) (h : Keeps M s0 s) (k_led : ¬M .led := by assumption) (k_ctr : ¬M .ctr := by assumption) (k_mem : ¬M .mem := by assumption) : Keeps M s0 (saggarLost kind unit f s) := by
  unfold saggarLost
  extract_lets s1
  have h1 : Keeps M s0 s1 := event_keeps _ _ _ (count_keeps _ _ _ h)
  split
  · exact saggarHit_keeps _ _ h1
  · exact breakCargo_keeps _ h1
  · split
    · exact h1.updLed (ring_filter _) id id
    · exact h1.updLed id id (ring_filter _)
    · exact h1.updLed id (ring_filter _) id
  · exact breakRecords_keeps _ h1

theorem refillFail_keeps {M : Part → Prop} {s0 a2 : State} (a0) (a1) (h : Keeps M s0 a2) (k_mem : ¬M .mem := by assumption) : Keeps M s0 (refillFail a0 a1 a2) := by
  unfold refillFail
  split; refine Keeps.ite (fun _ => ?_) (fun _ => ?_); refine Keeps.ite (fun _ => ?_) (fun _ => ?_); refine modFrame_keeps _ _ _ ?_
  assumption; refine dropFrame_keeps _ _ ?_; assumption; assumption; assumption

theorem execScrubPass_keeps {M : Part → Prop} {s0 a3 : State} (a0) (a1) (a2) (h : Keeps M s0 a3) (k_led : ¬M .led := by assumption) (k_ctr : ¬M .ctr := by assumption) (k_mem : ¬M .mem := by assumption) : Answers M s0 (execScrubPass a0 a1 a2 a3) := by
  unfold execScrubPass
  (with_reducible refine Answers.letAny (fun x hx => ?_); subst hx); with_reducible apply Answers.done
  refine Keeps.ite (fun _ => ?_) (fun _ => ?_); assumption; with_reducible refine Keeps.letIn ?_ (fun s hs => ?_)
  with_reducible refine Keeps.updMem ?_; with_reducible refine Keeps.foldl (fun s x hs => ?_) _ ?_
  refine Keeps.ite (fun _ => ?_) (fun _ => ?_); refine count_keeps _ _ _ ?_; assumption; refine saggarLost_keeps _ _ _ ?_; assumption
  assumption; refine count_keeps _ _ _ ?_; assumption

theorem execWritehomeRetry_keeps {M : Part → Prop} {s0 a2 : State} (a0) (a1) (h : Keeps M s0 a2) (k_out : ¬M .out := by assumption) (k_led : ¬M .led := by assumption) (k_ctr : ¬M .ctr := by assumption) (k_mem : ¬M .mem := by assumption) (k_flash : ¬M .flash := by assumption) : Answers M s0 (execWritehomeRetry a0 a1 a2) := by
  unfold execWritehomeRetry
  with_reducible apply Answers.done; split; refine Keeps.ite (fun _ => ?_) (fun _ => ?_); refine writeHomeFrame_keeps _ ?_; assumption
  assumption; assumption

theorem writeData_keeps {M : Part → Prop} {s0 a3 : State} (a0) (a1) (a2) (h : Keeps M s0 a3) (k_fresh : ¬M .fresh := by assumption) (k_mem : ¬M .mem := by assumption) (k_flash : ¬M .flash := by assumption) (k_secures : ¬M .secures := by assumption) : Keeps M s0 (writeData a0 a1 a2 a3) := by
  unfold writeData
  (with_reducible refine Keeps.letAny (fun x hx => ?_); subst hx); refine writeCargo_keeps _ _ _ ?_
  with_reducible refine Keeps.foldl (fun s x hs => ?_) _ ?_; refine Keeps.ite (fun _ => ?_) (fun _ => ?_)
  refine settlePage_keeps _ _ ?_; assumption; refine touchT3_keeps _ _ ?_; assumption; assumption

theorem execCargoCommandDone_keeps {M : Part → Prop} {s0 a2 : State} (a0) (a1) (h : Keeps M s0 a2) (k_fresh : ¬M .fresh := by assumption) (k_out : ¬M .out := by assumption) (k_led : ¬M .led := by assumption) (k_ctr : ¬M .ctr := by assumption) (k_mem : ¬M .mem := by assumption) (k_flash : ¬M .flash := by assumption) : Answers M s0 (execCargoCommandDone a0 a1 a2) := by
  unfold execCargoCommandDone
  with_reducible apply Answers.done; split; refine Keeps.ite (fun _ => ?_) (fun _ => ?_); assumption
  with_reducible refine Keeps.letIn ?_ (fun s hs => ?_); (with_reducible refine Keeps.letAny (fun x hx => ?_); subst hx); split
  refine Keeps.ite (fun _ => ?_) (fun _ => ?_); refine modCargo_keeps _ _ ?_; refine setProgress_keeps _ _ _ ?_
  refine Keeps.ite (fun _ => ?_) (fun _ => ?_); refine workOn_keeps _ _ ?_; assumption; with_reducible refine Keeps.updMem ?_
  assumption; refine setProgress_keeps _ _ _ ?_; refine Keeps.ite (fun _ => ?_) (fun _ => ?_); refine workOn_keeps _ _ ?_; assumption
  with_reducible refine Keeps.updMem ?_; assumption; refine setProgress_keeps _ _ _ ?_; refine Keeps.ite (fun _ => ?_) (fun _ => ?_)
  refine workOn_keeps _ _ ?_; assumption; with_reducible refine Keeps.updMem ?_; assumption
  refine Keeps.ite (fun _ => ?_) (fun _ => ?_); refine Keeps.ite (fun _ => ?_) (fun _ => ?_); refine workOn_keeps _ _ ?_; assumption
  with_reducible refine Keeps.updMem ?_; assumption; assumption; assumption

end Sys2Proof.Machine
end

