-- ==== Sys2Proof/Laws/KeepsStream.lean ====
section
/-! SUPPORT. The queue and the invariant are kept by the operations of Machine/Stream.lean. -/

set_option Elab.async false

namespace Sys2Proof.Machine

theorem grantAt_keeps {M : Part → Prop} {s0 a2 : State} (a0) (a1) (h : Keeps M s0 a2) (k_ctr : ¬M .ctr := by assumption) (k_mem : ¬M .mem := by assumption) : Keeps M s0 (grantAt a0 a1 a2).1 := by
  unfold grantAt
  (with_reducible refine Keeps.letAnyFst (fun x hx => ?_); subst hx); with_reducible refine Keeps.iteFst (fun hc => ?_) (fun hc => ?_)
  dsimp only; with_reducible refine Keeps.updMem ?_; assumption; (with_reducible refine Keeps.letAnyFst (fun x hx => ?_); subst hx)
  dsimp only; with_reducible refine Keeps.updMem ?_; refine Keeps.ite (fun _ => ?_) (fun _ => ?_); assumption
  refine count_keeps _ _ _ ?_; assumption

theorem grantAll_keeps {M : Part → Prop} {s0 a2 : State} (a0) (a1) (h : Keeps M s0 a2) (k_ctr : ¬M .ctr := by assumption) (k_mem : ¬M .mem := by assumption) : Keeps M s0 (grantAll a0 a1 a2).1 := by
  unfold grantAll
  with_reducible refine Keeps.foldlFst (fun s x hs => ?_) _ ?_; with_reducible refine Keeps.iteFst (fun hc => ?_) (fun hc => ?_)
  refine grantAt_keeps _ _ ?_; assumption; assumption; dsimp only; assumption

theorem applyWrite_keeps {M : Part → Prop} {s0 a3 : State} (a0) (a1) (a2) (h : Keeps M s0 a3) (k_fresh : ¬M .fresh := by assumption) (k_out : ¬M .out := by assumption) (k_mem : ¬M .mem := by assumption) (k_flash : ¬M .flash := by assumption) (k_secures : ¬M .secures := by assumption) : Keeps M s0 (applyWrite a0 a1 a2 a3) := by
  unfold applyWrite
  (with_reducible refine Keeps.letAny (fun x hx => ?_); subst hx); refine Keeps.ite (fun _ => ?_) (fun _ => ?_); refine emit_keeps _ ?_
  assumption; refine writeData_keeps _ _ _ ?_; assumption

theorem deliver_keeps {M : Part → Prop} {s0 a4 : State} (a0) (a1) (a2) (a3) (h : Keeps M s0 a4) (k_fresh : ¬M .fresh := by assumption) (k_out : ¬M .out := by assumption) (k_arrays : ¬M .arrays := by assumption) (k_mem : ¬M .mem := by assumption) (k_flash : ¬M .flash := by assumption) (k_secures : ¬M .secures := by assumption) : Keeps M s0 (deliver a0 a1 a2 a3 a4) := by
  unfold deliver
  split; assumption; refine Keeps.ite (fun _ => ?_) (fun _ => ?_); refine modArray_keeps _ _ ?_ ?_; intros; simp_all only
  (first | exact wf_storeBytes _ _ _ (by assumption) | exact wf_clearBytes _ _ _ (by assumption) | (split <;> assumption) | simp_all)
  assumption; refine applyWrite_keeps _ _ _ ?_; assumption

theorem setCopies_keeps {M : Part → Prop} {s0 a1 : State} (a0) (h : Keeps M s0 a1) (k_mem : ¬M .mem := by assumption) : Keeps M s0 (setCopies a0 a1) := by
  unfold setCopies
  with_reducible refine Keeps.updMem ?_; assumption

theorem clearOverwritten_keeps {M : Part → Prop} {s0 a3 : State} (a0) (a1) (a2) (h : Keeps M s0 a3) (k_mem : ¬M .mem := by assumption) : Keeps M s0 (clearOverwritten a0 a1 a2 a3) := by
  unfold clearOverwritten
  (with_reducible refine Keeps.letAny (fun x hx => ?_); subst hx); refine setCopies_keeps _ ?_; assumption

theorem acknowledgePage_keeps {M : Part → Prop} {s0 a4 : State} (a0) (a1) (a2) (a3) (h : Keeps M s0 a4) (k_mem : ¬M .mem := by assumption) : Keeps M s0 (acknowledgePage a0 a1 a2 a3 a4) := by
  unfold acknowledgePage
  (with_reducible refine Keeps.letAny (fun x hx => ?_); subst hx); refine Keeps.ite (fun _ => ?_) (fun _ => ?_)
  with_reducible refine Keeps.updMem ?_; assumption; refine raiseGeneration_keeps _ _ ?_; with_reducible refine Keeps.updMem ?_
  assumption

theorem forget_keeps {M : Part → Prop} {s0 a2 : State} (a0) (a1) (h : Keeps M s0 a2) (k_engines : ¬M .engines := by assumption) : Keeps M s0 (forget a0 a1 a2) := by
  unfold forget
  refine modEngine_keeps _ _ ?_; assumption

theorem originDone_keeps {M : Part → Prop} {s0 a2 : State} (a0) (a1) (h : Keeps M s0 a2) (k_slots : ¬M .slots := by assumption) (k_arrays : ¬M .arrays := by assumption) (k_engines : ¬M .engines := by assumption) (k_serves : ¬M .serves := by assumption) : Keeps M s0 (originDone a0 a1 a2) := by
  unfold originDone
  (with_reducible refine Keeps.letAny (fun x hx => ?_); subst hx); split
  (with_reducible refine Keeps.letAny (fun x hx => ?_); subst hx); split
  (with_reducible refine Keeps.letAny (fun x hx => ?_); subst hx); refine modStation_keeps _ _ _ ?_; refine modEngine_keeps _ _ ?_
  split; refine modStation_keeps _ _ _ ?_; assumption; refine Keeps.ite (fun _ => ?_) (fun _ => ?_); assumption
  refine modArray_keeps _ _ ?_ ?_; intros; with_reducible assumption; assumption; refine modTrain_keeps _ _ ?_; assumption
  refine modEngine_keeps _ _ ?_; assumption; refine modServe_keeps _ _ ?_; assumption; assumption; refine modEngine_keeps _ _ ?_; split
  refine modStation_keeps _ _ _ ?_; assumption; refine Keeps.ite (fun _ => ?_) (fun _ => ?_); assumption
  refine modArray_keeps _ _ ?_ ?_; intros; with_reducible assumption; assumption; refine modTrain_keeps _ _ ?_; assumption
  refine modEngine_keeps _ _ ?_; assumption; refine modServe_keeps _ _ ?_; assumption; assumption; split
  refine modStation_keeps _ _ _ ?_; assumption; refine Keeps.ite (fun _ => ?_) (fun _ => ?_); assumption
  refine modArray_keeps _ _ ?_ ?_; intros; with_reducible assumption; assumption; refine modTrain_keeps _ _ ?_; assumption
  refine modEngine_keeps _ _ ?_; assumption; refine modServe_keeps _ _ ?_; assumption; assumption

theorem recordCopies_keeps {M : Part → Prop} {s0 a2 : State} (a0) (a1) (h : Keeps M s0 a2) (k_mem : ¬M .mem := by assumption) : Keeps M s0 (recordCopies a0 a1 a2) := by
  unfold recordCopies
  (with_reducible refine Keeps.letAny (fun x hx => ?_); subst hx); with_reducible refine Keeps.foldl (fun s x hs => ?_) _ ?_; split
  refine setCopies_keeps _ ?_; assumption; refine setCopies_keeps _ ?_; assumption; assumption

theorem finishTransfer_keeps {M : Part → Prop} {s0 a2 : State} (a0) (a1) (h : Keeps M s0 a2) (k_slots : ¬M .slots := by assumption) (k_arrays : ¬M .arrays := by assumption) (k_mem : ¬M .mem := by assumption) (k_engines : ¬M .engines := by assumption) (k_serves : ¬M .serves := by assumption) : Keeps M s0 (finishTransfer a0 a1 a2) := by
  unfold finishTransfer
  refine Keeps.ite (fun _ => ?_) (fun _ => ?_); refine forget_keeps _ _ ?_; assumption; refine originDone_keeps _ _ ?_
  refine recordCopies_keeps _ _ ?_; refine forget_keeps _ _ ?_; assumption

theorem finishIfDone_keeps {M : Part → Prop} {s0 a2 : State} (a0) (a1) (h : Keeps M s0 a2) (k_slots : ¬M .slots := by assumption) (k_arrays : ¬M .arrays := by assumption) (k_mem : ¬M .mem := by assumption) (k_engines : ¬M .engines := by assumption) (k_serves : ¬M .serves := by assumption) : Keeps M s0 (finishIfDone a0 a1 a2) := by
  unfold finishIfDone
  split; refine Keeps.ite (fun _ => ?_) (fun _ => ?_); refine finishTransfer_keeps _ _ ?_; assumption; assumption; assumption

theorem modTransfer_keeps {M : Part → Prop} {s0 a3 : State} (a0) (a1) (a2) (h : Keeps M s0 a3) (k_engines : ¬M .engines := by assumption) : Keeps M s0 (modTransfer a0 a1 a2 a3) := by
  unfold modTransfer
  refine modEngine_keeps _ _ ?_; assumption

theorem setRequest_keeps {M : Part → Prop} {s0 a4 : State} (a0) (a1) (a2) (a3) (h : Keeps M s0 a4) (k_engines : ¬M .engines := by assumption) : Keeps M s0 (setRequest a0 a1 a2 a3 a4) := by
  unfold setRequest
  refine modTransfer_keeps _ _ _ ?_; assumption

theorem execRequestLand_keeps {M : Part → Prop} {s0 a4 : State} (a0) (a1) (a2) (a3) (h : Keeps M s0 a4) (k_fresh : ¬M .fresh := by assumption) (k_out : ¬M .out := by assumption) (k_slots : ¬M .slots := by assumption) (k_arrays : ¬M .arrays := by assumption) (k_mem : ¬M .mem := by assumption) (k_engines : ¬M .engines := by assumption) (k_flash : ¬M .flash := by assumption) (k_secures : ¬M .secures := by assumption) (k_serves : ¬M .serves := by assumption) : Answers M s0 (execRequestLand a0 a1 a2 a3 a4) := by
  unfold execRequestLand
  with_reducible apply Answers.done; split; assumption; split; assumption; refine Keeps.ite (fun _ => ?_) (fun _ => ?_); assumption
  split; (with_reducible refine Keeps.letAny (fun x hx => ?_); subst hx); refine finishIfDone_keeps _ _ ?_
  refine setRequest_keeps _ _ _ _ ?_; refine Keeps.ite (fun _ => ?_) (fun _ => ?_); refine acknowledgePage_keeps _ _ _ _ ?_
  refine Keeps.ite (fun _ => ?_) (fun _ => ?_); refine Keeps.ite (fun _ => ?_) (fun _ => ?_); refine refillLand_keeps _ _ _ ?_
  assumption; assumption; refine deliver_keeps _ _ _ _ ?_; refine clearOverwritten_keeps _ _ _ ?_
  refine Keeps.ite (fun _ => ?_) (fun _ => ?_); refine refillLand_keeps _ _ _ ?_; assumption; assumption
  refine Keeps.ite (fun _ => ?_) (fun _ => ?_); refine Keeps.ite (fun _ => ?_) (fun _ => ?_); refine refillLand_keeps _ _ _ ?_
  assumption; assumption; refine deliver_keeps _ _ _ _ ?_; refine clearOverwritten_keeps _ _ _ ?_
  refine Keeps.ite (fun _ => ?_) (fun _ => ?_); refine refillLand_keeps _ _ _ ?_; assumption; assumption

theorem clearCopy_keeps {M : Part → Prop} {s0 a1 : State} (a0) (h : Keeps M s0 a1) (k_mem : ¬M .mem := by assumption) : Keeps M s0 (clearCopy a0 a1) := by
  unfold clearCopy
  refine setCopies_keeps _ ?_; assumption

theorem writeRecord_keeps {M : Part → Prop} {s0 a2 : State} (a0) (a1) (h : Keeps M s0 a2) (k_arrays : ¬M .arrays := by assumption) : Keeps M s0 (writeRecord a0 a1 a2) := by
  unfold writeRecord
  refine modArray_keeps _ _ ?_ ?_; intros; with_reducible assumption; assumption

theorem dropTransfers_keeps {M : Part → Prop} {s0 a2 : State} (a0) (a1) (h : Keeps M s0 a2) (k_engines : ¬M .engines := by assumption) : Keeps M s0 (dropTransfers a0 a1 a2) := by
  unfold dropTransfers
  refine modEngine_keeps _ _ ?_; assumption

theorem dropWindows_keeps {M : Part → Prop} {s0 a2 : State} (a0) (a1) (h : Keeps M s0 a2) (k_engines : ¬M .engines := by assumption) : Keeps M s0 (dropWindows a0 a1 a2) := by
  unfold dropWindows
  refine dropTransfers_keeps _ _ ?_; assumption

theorem abandonMmo_keeps {M : Part → Prop} {s0 a2 : State} (a0) (a1) (h : Keeps M s0 a2) (k_fresh : ¬M .fresh := by assumption) (k_arrays : ¬M .arrays := by assumption) (k_engines : ¬M .engines := by assumption) : Keeps M s0 (abandonMmo a0 a1 a2) := by
  unfold abandonMmo
  split; assumption; with_reducible refine Keeps.letIn ?_ (fun s hs => ?_); refine modArray_keeps _ _ ?_ ?_; intros
  (first | assumption | omega); refine draw_keeps ?_; refine writeRecord_keeps _ _ ?_; refine draw_keeps ?_; assumption
  refine dropWindows_keeps _ _ ?_; assumption

theorem failOrigin_keeps {M : Part → Prop} {s0 a2 : State} (a0) (a1) (h : Keeps M s0 a2) (k_fresh : ¬M .fresh := by assumption) (k_slots : ¬M .slots := by assumption) (k_arrays : ¬M .arrays := by assumption) (k_engines : ¬M .engines := by assumption) : Keeps M s0 (failOrigin a0 a1 a2) := by
  unfold failOrigin
  (with_reducible refine Keeps.letAny (fun x hx => ?_); subst hx); split; dsimp -zeta only; refine failTag_keeps _ _ _ ?_
  refine leaveFlight_keeps _ _ _ _ ?_; assumption; split; dsimp -zeta only; refine failTag_keeps _ _ _ ?_
  refine leaveFlight_keeps _ _ _ _ ?_; refine abandonMmo_keeps _ _ ?_; assumption; assumption; refine failTag_keeps _ _ _ ?_
  assumption; (with_reducible refine Keeps.letAny (fun x hx => ?_); subst hx); refine modEngine_keeps _ _ ?_; split
  refine failTag_keeps _ _ _ ?_; assumption; assumption; split; with_reducible refine Keeps.foldl (fun s x hs => ?_) _ ?_
  refine failTag_keeps _ _ _ ?_; assumption; assumption; assumption; assumption; assumption

theorem restartMmo_keeps {M : Part → Prop} {s0 a3 : State} (a0) (a1) (a2) (h : Keeps M s0 a3) (k_arrays : ¬M .arrays := by assumption) : Keeps M s0 (restartMmo a0 a1 a2 a3) := by
  unfold restartMmo
  refine modArray_keeps _ _ ?_ ?_; intros; with_reducible assumption; assumption

theorem closePages_keeps {M : Part → Prop} {s0 a1 : State} (a0) (h : Keeps M s0 a1) (k_mem : ¬M .mem := by assumption) : Keeps M s0 (closePages a0 a1) := by
  unfold closePages
  (with_reducible refine Keeps.letAny (fun x hx => ?_); subst hx); refine Keeps.ite (fun _ => ?_) (fun _ => ?_); assumption
  with_reducible refine Keeps.foldl (fun s x hs => ?_) _ ?_; refine raiseGeneration_keeps _ _ ?_; with_reducible refine Keeps.updMem ?_
  assumption; assumption

theorem giveUp_keeps {M : Part → Prop} {s0 a2 : State} (a0) (a1) (h : Keeps M s0 a2) (k_mem : ¬M .mem := by assumption) (k_engines : ¬M .engines := by assumption) : Keeps M s0 (giveUp a0 a1 a2) := by
  unfold giveUp
  with_reducible refine Keeps.letIn ?_ (fun s hs => ?_); refine forget_keeps _ _ ?_; refine closePages_keeps _ ?_; assumption
  refine Keeps.ite (fun _ => ?_) (fun _ => ?_); refine modTransfer_keeps _ _ _ ?_; refine closePages_keeps _ ?_; assumption; assumption

theorem dropQueued_keeps {M : Part → Prop} {s0 a2 : State} (a0) (a1) (h : Keeps M s0 a2) (k_engines : ¬M .engines := by assumption) : Keeps M s0 (dropQueued a0 a1 a2) := by
  unfold dropQueued
  refine modEngine_keeps _ _ ?_; assumption

theorem noteLate_keeps {M : Part → Prop} {s0 a3 : State} (a0) (a1) (a2) (h : Keeps M s0 a3) (k_led : ¬M .led := by assumption) (k_ctr : ¬M .ctr := by assumption) (k_mem : ¬M .mem := by assumption) : Keeps M s0 (noteLate a0 a1 a2 a3) := by
  unfold noteLate
  (with_reducible refine Keeps.letAny (fun x hx => ?_); subst hx); refine Keeps.ite (fun _ => ?_) (fun _ => ?_); assumption
  refine event_keeps _ _ _ ?_; with_reducible refine Keeps.updMem ?_; assumption

theorem settleRead_keeps {M : Part → Prop} {s0 a2 : State} (a0) (a1) (h : Keeps M s0 a2) (k_slots : ¬M .slots := by assumption) (k_arrays : ¬M .arrays := by assumption) (k_mem : ¬M .mem := by assumption) (k_engines : ¬M .engines := by assumption) (k_serves : ¬M .serves := by assumption) : Keeps M s0 (settleRead a0 a1 a2) := by
  unfold settleRead
  with_reducible refine Keeps.letIn ?_ (fun s hs => ?_); refine Keeps.ite (fun _ => ?_) (fun _ => ?_)
  refine modTransfer_keeps _ _ _ ?_; refine Keeps.ite (fun _ => ?_) (fun _ => ?_); refine closePages_keeps _ ?_
  with_reducible refine Keeps.updMem ?_; refine setCopies_keeps _ ?_; assumption; refine setCopies_keeps _ ?_; assumption
  refine forget_keeps _ _ ?_; refine Keeps.ite (fun _ => ?_) (fun _ => ?_); refine closePages_keeps _ ?_
  with_reducible refine Keeps.updMem ?_; refine setCopies_keeps _ ?_; assumption; refine setCopies_keeps _ ?_; assumption
  refine originDone_keeps _ _ ?_; assumption

theorem resolveRead_keeps {M : Part → Prop} {s0 a3 : State} (a0) (a1) (a2) (h : Keeps M s0 a3) (k_fresh : ¬M .fresh := by assumption) (k_out : ¬M .out := by assumption) (k_led : ¬M .led := by assumption) (k_ctr : ¬M .ctr := by assumption) (k_slots : ¬M .slots := by assumption) (k_arrays : ¬M .arrays := by assumption) (k_mem : ¬M .mem := by assumption) (k_engines : ¬M .engines := by assumption) (k_flash : ¬M .flash := by assumption) (k_secures : ¬M .secures := by assumption) (k_serves : ¬M .serves := by assumption) : Keeps M s0 (resolveRead a0 a1 a2 a3) := by
  unfold resolveRead
  split; (with_reducible refine Keeps.letAny (fun x hx => ?_); subst hx); split
  (with_reducible refine Keeps.letAny (fun x hx => ?_); subst hx); refine Keeps.ite (fun _ => ?_) (fun _ => ?_); dsimp -zeta only
  with_reducible refine Keeps.letIn ?_ (fun s hs => ?_); refine count_keeps _ _ _ ?_; assumption
  refine Keeps.ite (fun _ => ?_) (fun _ => ?_); refine failOrigin_keeps _ _ ?_; refine giveUp_keeps _ _ ?_; refine count_keeps _ _ _ ?_
  assumption; assumption; refine noteLate_keeps _ _ _ ?_; refine count_keeps _ _ _ ?_; refine settleRead_keeps _ _ ?_
  with_reducible refine Keeps.foldl (fun s x hs => ?_) _ ?_; refine deliver_keeps _ _ _ _ ?_; assumption; assumption
  refine noteLate_keeps _ _ _ ?_; refine count_keeps _ _ _ ?_; refine settleRead_keeps _ _ ?_
  with_reducible refine Keeps.foldl (fun s x hs => ?_) _ ?_; refine deliver_keeps _ _ _ _ ?_; assumption; assumption; split
  refine noteLate_keeps _ _ _ ?_; refine count_keeps _ _ _ ?_; refine restartMmo_keeps _ _ _ ?_; refine dropWindows_keeps _ _ ?_
  assumption; dsimp -zeta only; with_reducible refine Keeps.letIn ?_ (fun s hs => ?_); refine count_keeps _ _ _ ?_; assumption
  refine Keeps.ite (fun _ => ?_) (fun _ => ?_); refine failOrigin_keeps _ _ ?_; refine giveUp_keeps _ _ ?_; refine count_keeps _ _ _ ?_
  assumption; assumption; dsimp -zeta only; with_reducible refine Keeps.letIn ?_ (fun s hs => ?_); refine count_keeps _ _ _ ?_
  assumption; refine Keeps.ite (fun _ => ?_) (fun _ => ?_); refine failOrigin_keeps _ _ ?_; refine giveUp_keeps _ _ ?_
  refine count_keeps _ _ _ ?_; assumption; assumption

theorem execLatePoint_keeps {M : Part → Prop} {s0 a2 : State} (a0) (a1) (h : Keeps M s0 a2) (k_fresh : ¬M .fresh := by assumption) (k_out : ¬M .out := by assumption) (k_led : ¬M .led := by assumption) (k_ctr : ¬M .ctr := by assumption) (k_slots : ¬M .slots := by assumption) (k_arrays : ¬M .arrays := by assumption) (k_mem : ¬M .mem := by assumption) (k_engines : ¬M .engines := by assumption) (k_flash : ¬M .flash := by assumption) (k_secures : ¬M .secures := by assumption) (k_serves : ¬M .serves := by assumption) : Answers M s0 (execLatePoint a0 a1 a2) := by
  unfold execLatePoint
  with_reducible apply Answers.done; split; assumption; (with_reducible refine Keeps.letAny (fun x hx => ?_); subst hx)
  refine Keeps.ite (fun _ => ?_) (fun _ => ?_); assumption; with_reducible refine Keeps.letIn ?_ (fun s hs => ?_); split
  refine count_keeps _ _ _ ?_; assumption; assumption; refine resolveRead_keeps _ _ _ ?_; assumption

theorem execWriteAcknowledge_keeps {M : Part → Prop} {s0 a3 : State} (a0) (a1) (a2) (h : Keeps M s0 a3) (k_slots : ¬M .slots := by assumption) (k_arrays : ¬M .arrays := by assumption) (k_mem : ¬M .mem := by assumption) (k_engines : ¬M .engines := by assumption) (k_serves : ¬M .serves := by assumption) : Answers M s0 (execWriteAcknowledge a0 a1 a2 a3) := by
  unfold execWriteAcknowledge
  with_reducible apply Answers.done; split; assumption; split; assumption; refine Keeps.ite (fun _ => ?_) (fun _ => ?_); assumption
  (with_reducible refine Keeps.letAny (fun x hx => ?_); subst hx); refine finishIfDone_keeps _ _ ?_; refine setRequest_keeps _ _ _ _ ?_
  refine acknowledgePage_keeps _ _ _ _ ?_; assumption

theorem failRead_keeps {M : Part → Prop} {s0 a2 : State} (a0) (a1) (h : Keeps M s0 a2) (k_fresh : ¬M .fresh := by assumption) (k_out : ¬M .out := by assumption) (k_led : ¬M .led := by assumption) (k_ctr : ¬M .ctr := by assumption) (k_slots : ¬M .slots := by assumption) (k_arrays : ¬M .arrays := by assumption) (k_mem : ¬M .mem := by assumption) (k_engines : ¬M .engines := by assumption) (k_flash : ¬M .flash := by assumption) (k_secures : ¬M .secures := by assumption) (k_serves : ¬M .serves := by assumption) : Keeps M s0 (failRead a0 a1 a2) := by
  unfold failRead
  split; with_reducible refine Keeps.letIn ?_ (fun s hs => ?_); refine event_keeps _ _ _ ?_; refine count_keeps _ _ _ ?_
  with_reducible refine Keeps.foldl (fun s x hs => ?_) _ ?_; refine refillFail_keeps _ _ ?_; assumption; assumption
  refine resolveRead_keeps _ _ _ ?_; assumption

theorem noteGeneration_keeps {M : Part → Prop} {s0 a4 : State} (a0) (a1) (a2) (a3) (h : Keeps M s0 a4) (k_engines : ¬M .engines := by assumption) : Keeps M s0 (noteGeneration a0 a1 a2 a3 a4) := by
  unfold noteGeneration
  (with_reducible refine Keeps.letAny (fun x hx => ?_); subst hx); refine modTransfer_keeps _ _ _ ?_; assumption

theorem serveRequest_keeps {M : Part → Prop} {s0 a4 : State} (a0) (a1) (a2) (a3) (h : Keeps M s0 a4) (k_fresh : ¬M .fresh := by assumption) (k_out : ¬M .out := by assumption) (k_led : ¬M .led := by assumption) (k_ctr : ¬M .ctr := by assumption) (k_slots : ¬M .slots := by assumption) (k_arrays : ¬M .arrays := by assumption) (k_mem : ¬M .mem := by assumption) (k_engines : ¬M .engines := by assumption) (k_flash : ¬M .flash := by assumption) (k_secures : ¬M .secures := by assumption) (k_serves : ¬M .serves := by assumption) : Keeps M s0 (serveRequest a0 a1 a2 a3 a4) := by
  unfold serveRequest
  (with_reducible refine Keeps.letAny (fun x hx => ?_); subst hx); refine Keeps.ite (fun _ => ?_) (fun _ => ?_); dsimp -zeta only
  refine finishIfDone_keeps _ _ ?_; refine setRequest_keeps _ _ _ _ ?_; refine modTransfer_keeps _ _ _ ?_; refine count_keeps _ _ _ ?_
  assumption; refine Keeps.ite (fun _ => ?_) (fun _ => ?_); dsimp -zeta only; refine finishIfDone_keeps _ _ ?_
  refine setRequest_keeps _ _ _ _ ?_; refine modTransfer_keeps _ _ _ ?_; refine saggarHit_keeps _ _ ?_; assumption
  refine Keeps.ite (fun _ => ?_) (fun _ => ?_); refine Keeps.ite (fun _ => ?_) (fun _ => ?_); dsimp -zeta only
  refine finishIfDone_keeps _ _ ?_; refine setRequest_keeps _ _ _ _ ?_; refine modTransfer_keeps _ _ _ ?_; refine count_keeps _ _ _ ?_
  assumption; refine failRead_keeps _ _ ?_; assumption; refine Keeps.ite (fun _ => ?_) (fun _ => ?_); refine failRead_keeps _ _ ?_
  assumption; refine Keeps.ite (fun _ => ?_) (fun _ => ?_); refine failOrigin_keeps _ _ ?_; refine giveUp_keeps _ _ ?_; assumption
  (with_reducible refine Keeps.letAny (fun x hx => ?_); subst hx); refine Keeps.ite (fun _ => ?_) (fun _ => ?_)
  with_reducible refine Keeps.iteFst (fun hc => ?_) (fun hc => ?_); refine cacheAccess_keeps _ _ ?_
  with_reducible refine Keeps.iteFst (fun hc => ?_) (fun hc => ?_); refine cacheAccess_keeps _ _ ?_; assumption; dsimp only; assumption
  with_reducible refine Keeps.iteFst (fun hc => ?_) (fun hc => ?_); refine cacheAccess_keeps _ _ ?_; assumption; dsimp only; assumption
  with_reducible refine Keeps.letIn ?_ (fun s hs => ?_); refine setRequest_keeps _ _ _ _ ?_
  refine Keeps.ite (fun _ => ?_) (fun _ => ?_); refine applyWrite_keeps _ _ _ ?_; refine clearCopy_keeps _ ?_
  refine Keeps.ite (fun _ => ?_) (fun _ => ?_); refine count_keeps _ _ _ ?_
  with_reducible refine Keeps.iteFst (fun hc => ?_) (fun hc => ?_); refine cacheAccess_keeps _ _ ?_
  with_reducible refine Keeps.iteFst (fun hc => ?_) (fun hc => ?_); refine cacheAccess_keeps _ _ ?_; assumption; dsimp only; assumption
  with_reducible refine Keeps.iteFst (fun hc => ?_) (fun hc => ?_); refine cacheAccess_keeps _ _ ?_; assumption; dsimp only; assumption
  refine noteGeneration_keeps _ _ _ _ ?_; refine count_keeps _ _ _ ?_; with_reducible refine Keeps.iteFst (fun hc => ?_) (fun hc => ?_)
  refine cacheAccess_keeps _ _ ?_; with_reducible refine Keeps.iteFst (fun hc => ?_) (fun hc => ?_); refine cacheAccess_keeps _ _ ?_
  assumption; dsimp only; assumption; with_reducible refine Keeps.iteFst (fun hc => ?_) (fun hc => ?_); refine cacheAccess_keeps _ _ ?_
  assumption; dsimp only; assumption; refine Keeps.ite (fun _ => ?_) (fun _ => ?_); refine count_keeps _ _ _ ?_
  with_reducible refine Keeps.iteFst (fun hc => ?_) (fun hc => ?_); refine cacheAccess_keeps _ _ ?_
  with_reducible refine Keeps.iteFst (fun hc => ?_) (fun hc => ?_); refine cacheAccess_keeps _ _ ?_; assumption; dsimp only; assumption
  with_reducible refine Keeps.iteFst (fun hc => ?_) (fun hc => ?_); refine cacheAccess_keeps _ _ ?_; assumption; dsimp only; assumption
  refine noteGeneration_keeps _ _ _ _ ?_; refine count_keeps _ _ _ ?_; with_reducible refine Keeps.iteFst (fun hc => ?_) (fun hc => ?_)
  refine cacheAccess_keeps _ _ ?_; with_reducible refine Keeps.iteFst (fun hc => ?_) (fun hc => ?_); refine cacheAccess_keeps _ _ ?_
  assumption; dsimp only; assumption; with_reducible refine Keeps.iteFst (fun hc => ?_) (fun hc => ?_); refine cacheAccess_keeps _ _ ?_
  assumption; dsimp only; assumption; refine Keeps.ite (fun _ => ?_) (fun _ => ?_); split; refine modStation_keeps _ _ _ ?_
  refine setRequest_keeps _ _ _ _ ?_; refine Keeps.ite (fun _ => ?_) (fun _ => ?_); refine applyWrite_keeps _ _ _ ?_
  refine clearCopy_keeps _ ?_; refine Keeps.ite (fun _ => ?_) (fun _ => ?_); refine count_keeps _ _ _ ?_
  with_reducible refine Keeps.iteFst (fun hc => ?_) (fun hc => ?_); refine cacheAccess_keeps _ _ ?_
  with_reducible refine Keeps.iteFst (fun hc => ?_) (fun hc => ?_); refine cacheAccess_keeps _ _ ?_; assumption; dsimp only; assumption
  with_reducible refine Keeps.iteFst (fun hc => ?_) (fun hc => ?_); refine cacheAccess_keeps _ _ ?_; assumption; dsimp only; assumption
  refine noteGeneration_keeps _ _ _ _ ?_; refine count_keeps _ _ _ ?_; with_reducible refine Keeps.iteFst (fun hc => ?_) (fun hc => ?_)
  refine cacheAccess_keeps _ _ ?_; with_reducible refine Keeps.iteFst (fun hc => ?_) (fun hc => ?_); refine cacheAccess_keeps _ _ ?_
  assumption; dsimp only; assumption; with_reducible refine Keeps.iteFst (fun hc => ?_) (fun hc => ?_); refine cacheAccess_keeps _ _ ?_
  assumption; dsimp only; assumption; refine Keeps.ite (fun _ => ?_) (fun _ => ?_); refine count_keeps _ _ _ ?_
  with_reducible refine Keeps.iteFst (fun hc => ?_) (fun hc => ?_); refine cacheAccess_keeps _ _ ?_
  with_reducible refine Keeps.iteFst (fun hc => ?_) (fun hc => ?_); refine cacheAccess_keeps _ _ ?_; assumption; dsimp only; assumption
  with_reducible refine Keeps.iteFst (fun hc => ?_) (fun hc => ?_); refine cacheAccess_keeps _ _ ?_; assumption; dsimp only; assumption
  refine noteGeneration_keeps _ _ _ _ ?_; refine count_keeps _ _ _ ?_; with_reducible refine Keeps.iteFst (fun hc => ?_) (fun hc => ?_)
  refine cacheAccess_keeps _ _ ?_; with_reducible refine Keeps.iteFst (fun hc => ?_) (fun hc => ?_); refine cacheAccess_keeps _ _ ?_
  assumption; dsimp only; assumption; with_reducible refine Keeps.iteFst (fun hc => ?_) (fun hc => ?_); refine cacheAccess_keeps _ _ ?_
  assumption; dsimp only; assumption; refine setRequest_keeps _ _ _ _ ?_; refine Keeps.ite (fun _ => ?_) (fun _ => ?_)
  refine applyWrite_keeps _ _ _ ?_; refine clearCopy_keeps _ ?_; refine Keeps.ite (fun _ => ?_) (fun _ => ?_)
  refine count_keeps _ _ _ ?_; with_reducible refine Keeps.iteFst (fun hc => ?_) (fun hc => ?_); refine cacheAccess_keeps _ _ ?_
  with_reducible refine Keeps.iteFst (fun hc => ?_) (fun hc => ?_); refine cacheAccess_keeps _ _ ?_; assumption; dsimp only; assumption
  with_reducible refine Keeps.iteFst (fun hc => ?_) (fun hc => ?_); refine cacheAccess_keeps _ _ ?_; assumption; dsimp only; assumption
  refine noteGeneration_keeps _ _ _ _ ?_; refine count_keeps _ _ _ ?_; with_reducible refine Keeps.iteFst (fun hc => ?_) (fun hc => ?_)
  refine cacheAccess_keeps _ _ ?_; with_reducible refine Keeps.iteFst (fun hc => ?_) (fun hc => ?_); refine cacheAccess_keeps _ _ ?_
  assumption; dsimp only; assumption; with_reducible refine Keeps.iteFst (fun hc => ?_) (fun hc => ?_); refine cacheAccess_keeps _ _ ?_
  assumption; dsimp only; assumption; refine Keeps.ite (fun _ => ?_) (fun _ => ?_); refine count_keeps _ _ _ ?_
  with_reducible refine Keeps.iteFst (fun hc => ?_) (fun hc => ?_); refine cacheAccess_keeps _ _ ?_
  with_reducible refine Keeps.iteFst (fun hc => ?_) (fun hc => ?_); refine cacheAccess_keeps _ _ ?_; assumption; dsimp only; assumption
  with_reducible refine Keeps.iteFst (fun hc => ?_) (fun hc => ?_); refine cacheAccess_keeps _ _ ?_; assumption; dsimp only; assumption
  refine noteGeneration_keeps _ _ _ _ ?_; refine count_keeps _ _ _ ?_; with_reducible refine Keeps.iteFst (fun hc => ?_) (fun hc => ?_)
  refine cacheAccess_keeps _ _ ?_; with_reducible refine Keeps.iteFst (fun hc => ?_) (fun hc => ?_); refine cacheAccess_keeps _ _ ?_
  assumption; dsimp only; assumption; with_reducible refine Keeps.iteFst (fun hc => ?_) (fun hc => ?_); refine cacheAccess_keeps _ _ ?_
  assumption; dsimp only; assumption; assumption

theorem failInPort_keeps {M : Part → Prop} {s0 a2 : State} (a0) (a1) (h : Keeps M s0 a2) (k_fresh : ¬M .fresh := by assumption) (k_out : ¬M .out := by assumption) (k_led : ¬M .led := by assumption) (k_ctr : ¬M .ctr := by assumption) (k_slots : ¬M .slots := by assumption) (k_arrays : ¬M .arrays := by assumption) (k_mem : ¬M .mem := by assumption) (k_engines : ¬M .engines := by assumption) (k_flash : ¬M .flash := by assumption) (k_secures : ¬M .secures := by assumption) (k_serves : ¬M .serves := by assumption) : Keeps M s0 (failInPort a0 a1 a2) := by
  unfold failInPort
  split; assumption; refine Keeps.ite (fun _ => ?_) (fun _ => ?_); refine failRead_keeps _ _ ?_; assumption
  refine Keeps.ite (fun _ => ?_) (fun _ => ?_); refine failOrigin_keeps _ _ ?_; refine forget_keeps _ _ ?_; assumption; assumption

theorem failHostRequests_keeps {M : Part → Prop} {s0 a0 : State}  (h : Keeps M s0 a0) (k_fresh : ¬M .fresh := by assumption) (k_out : ¬M .out := by assumption) (k_led : ¬M .led := by assumption) (k_ctr : ¬M .ctr := by assumption) (k_slots : ¬M .slots := by assumption) (k_arrays : ¬M .arrays := by assumption) (k_mem : ¬M .mem := by assumption) (k_engines : ¬M .engines := by assumption) (k_flash : ¬M .flash := by assumption) (k_secures : ¬M .secures := by assumption) (k_serves : ¬M .serves := by assumption) : Keeps M s0 (failHostRequests a0) := by
  unfold failHostRequests
  with_reducible refine Keeps.foldl (fun s x hs => ?_) _ ?_; with_reducible refine Keeps.foldl (fun s x hs => ?_) _ ?_
  refine failInPort_keeps _ _ ?_; assumption; assumption; assumption

theorem issueHead_keeps {M : Part → Prop} {s0 a2 : State} (a0) (a1) (h : Keeps M s0 a2) (k_fresh : ¬M .fresh := by assumption) (k_led : ¬M .led := by assumption) (k_ctr : ¬M .ctr := by assumption) (k_slots : ¬M .slots := by assumption) (k_arrays : ¬M .arrays := by assumption) (k_engines : ¬M .engines := by assumption) (k_flash : ¬M .flash := by assumption) : Keeps M s0 (issueHead a0 a1 a2) := by
  unfold issueHead
  (with_reducible refine Keeps.letAny (fun x hx => ?_); subst hx); refine Keeps.ite (fun _ => ?_) (fun _ => ?_)
  refine failOrigin_keeps _ _ ?_; refine event_keeps _ _ _ ?_; refine count_keeps _ _ _ ?_; refine dropQueued_keeps _ _ ?_; assumption
  (with_reducible refine Keeps.letAny (fun x hx => ?_); subst hx); refine Keeps.ite (fun _ => ?_) (fun _ => ?_)
  refine failOrigin_keeps _ _ ?_; refine admitStore_keeps _ _ _ ?_; refine dropQueued_keeps _ _ ?_; assumption
  (with_reducible refine Keeps.letAny (fun x hx => ?_); subst hx); refine count_keeps _ _ _ ?_; refine count_keeps _ _ _ ?_
  refine count_keeps _ _ _ ?_; refine modEngine_keeps _ _ ?_; refine admitStore_keeps _ _ _ ?_; refine dropQueued_keeps _ _ ?_
  assumption

theorem execTransferIssue_keeps {M : Part → Prop} {s0 a1 : State} (a0) (h : Keeps M s0 a1) (k_fresh : ¬M .fresh := by assumption) (k_led : ¬M .led := by assumption) (k_ctr : ¬M .ctr := by assumption) (k_slots : ¬M .slots := by assumption) (k_arrays : ¬M .arrays := by assumption) (k_engines : ¬M .engines := by assumption) (k_flash : ¬M .flash := by assumption) : Answers M s0 (execTransferIssue a0 a1) := by
  unfold execTransferIssue
  (with_reducible refine Answers.letAny (fun x hx => ?_); subst hx); with_reducible apply Answers.done; split; assumption
  (with_reducible refine Keeps.letAny (fun x hx => ?_); subst hx); refine Keeps.ite (fun _ => ?_) (fun _ => ?_)
  refine issueHead_keeps _ _ ?_; assumption; assumption

theorem execDroverAccess_keeps {M : Part → Prop} {s0 a10 : State} (a0) (a1) (a2) (a3) (a4) (a5) (a6) (a7) (a8) (a9) (h : Keeps M s0 a10) (k_fresh : ¬M .fresh := by assumption) (k_led : ¬M .led := by assumption) (k_ctr : ¬M .ctr := by assumption) (k_slots : ¬M .slots := by assumption) (k_arrays : ¬M .arrays := by assumption) (k_engines : ¬M .engines := by assumption) (k_flash : ¬M .flash := by assumption) : Answers M s0 (execDroverAccess a0 a1 a2 a3 a4 a5 a6 a7 a8 a9 a10) := by
  unfold execDroverAccess
  (with_reducible refine Answers.letAny (fun x hx => ?_); subst hx); with_reducible apply Answers.done; split; assumption; split
  assumption; refine Keeps.ite (fun _ => ?_) (fun _ => ?_); assumption; (with_reducible refine Keeps.letAny (fun x hx => ?_); subst hx)
  refine issueHead_keeps _ _ ?_; refine modEngine_keeps _ _ ?_; refine modEngine_keeps _ _ ?_; refine count_keeps _ _ _ ?_; assumption

theorem execCargoReadFail_keeps {M : Part → Prop} {s0 a2 : State} (a0) (a1) (h : Keeps M s0 a2) (k_fresh : ¬M .fresh := by assumption) (k_out : ¬M .out := by assumption) (k_led : ¬M .led := by assumption) (k_ctr : ¬M .ctr := by assumption) (k_slots : ¬M .slots := by assumption) (k_arrays : ¬M .arrays := by assumption) (k_mem : ¬M .mem := by assumption) (k_engines : ¬M .engines := by assumption) (k_flash : ¬M .flash := by assumption) (k_secures : ¬M .secures := by assumption) (k_serves : ¬M .serves := by assumption) : Answers M s0 (execCargoReadFail a0 a1 a2) := by
  unfold execCargoReadFail
  with_reducible apply Answers.done; split; assumption; refine Keeps.ite (fun _ => ?_) (fun _ => ?_); refine failRead_keeps _ _ ?_
  assumption; assumption

theorem enqueue_keeps {M : Part → Prop} {s0 a6 : State} (a0) (a1) (a2) (a3) (a4) (a5) (h : Keeps M s0 a6) (k_engines : ¬M .engines := by assumption) : Keeps M s0 (enqueue a0 a1 a2 a3 a4 a5 a6) := by
  unfold enqueue
  (with_reducible refine Keeps.letAny (fun x hx => ?_); subst hx); refine modEngine_keeps _ _ ?_; assumption

theorem consumeLanding_keeps {M : Part → Prop} {s0 a1 : State} (a0) (h : Keeps M s0 a1) (k_led : ¬M .led := by assumption) (k_ctr : ¬M .ctr := by assumption) (k_mem : ¬M .mem := by assumption) (k_engines : ¬M .engines := by assumption) : Keeps M s0 (consumeLanding a0 a1).1 := by
  unfold consumeLanding
  split; dsimp only; assumption; (with_reducible refine Keeps.letAnyFst (fun x hx => ?_); subst hx)
  with_reducible refine Keeps.iteFst (fun hc => ?_) (fun hc => ?_); dsimp only; assumption
  with_reducible refine Keeps.iteFst (fun hc => ?_) (fun hc => ?_); dsimp only; assumption
  (with_reducible refine Keeps.letAnyFst (fun x hx => ?_); subst hx); with_reducible refine Keeps.iteFst (fun hc => ?_) (fun hc => ?_)
  dsimp only; refine setCopies_keeps _ ?_; assumption; with_reducible refine Keeps.iteFst (fun hc => ?_) (fun hc => ?_)
  with_reducible refine Keeps.iteFst (fun hc => ?_) (fun hc => ?_); dsimp only; refine event_keeps _ _ _ ?_
  refine setCopies_keeps _ ?_; assumption; (with_reducible refine Keeps.letAnyFst (fun x hx => ?_); subst hx); dsimp only
  refine enqueue_keeps _ _ _ _ _ _ ?_; refine count_keeps _ _ _ ?_; refine setCopies_keeps _ ?_; assumption; dsimp only
  refine count_keeps _ _ _ ?_; refine setCopies_keeps _ ?_; assumption

theorem checkPage_keeps {M : Part → Prop} {s0 a0 : State} (a1) (a2) (h : Keeps M s0 a0) (k_led : ¬M .led := by assumption) (k_ctr : ¬M .ctr := by assumption) (k_mem : ¬M .mem := by assumption) (k_engines : ¬M .engines := by assumption) : Keeps M s0 (checkPage a0 a1 a2).1 := by
  unfold checkPage
  (with_reducible refine Keeps.letAnyFst (fun x hx => ?_); subst hx); split; dsimp only; assumption; dsimp only; assumption
  with_reducible refine Keeps.iteFst (fun hc => ?_) (fun hc => ?_); refine consumeLanding_keeps _ ?_; assumption; dsimp only
  assumption

theorem execRequestIssue_keeps {M : Part → Prop} {s0 a2 : State} (a0) (a1) (h : Keeps M s0 a2) (k_fresh : ¬M .fresh := by assumption) (k_out : ¬M .out := by assumption) (k_led : ¬M .led := by assumption) (k_ctr : ¬M .ctr := by assumption) (k_slots : ¬M .slots := by assumption) (k_arrays : ¬M .arrays := by assumption) (k_mem : ¬M .mem := by assumption) (k_engines : ¬M .engines := by assumption) (k_flash : ¬M .flash := by assumption) (k_secures : ¬M .secures := by assumption) (k_serves : ¬M .serves := by assumption) : Answers M s0 (execRequestIssue a0 a1 a2) := by
  unfold execRequestIssue
  (with_reducible refine Answers.letAny (fun x hx => ?_); subst hx); with_reducible apply Answers.done; split; assumption; split
  assumption; (with_reducible refine Keeps.letAny (fun x hx => ?_); subst hx); refine Keeps.ite (fun _ => ?_) (fun _ => ?_); split
  refine Keeps.fst (by assumption) ?_; refine checkPage_keeps _ _ ?_; assumption; refine failOrigin_keeps _ _ ?_
  refine giveUp_keeps _ _ ?_; refine Keeps.fst (by assumption) ?_; refine checkPage_keeps _ _ ?_; assumption
  (with_reducible refine Keeps.letAny (fun x hx => ?_); subst hx); refine Keeps.ite (fun _ => ?_) (fun _ => ?_)
  refine serveRequest_keeps _ _ _ _ ?_; refine grantAll_keeps _ _ ?_; refine Keeps.fst (by assumption) ?_
  refine checkPage_keeps _ _ ?_; assumption; refine grantAll_keeps _ _ ?_; refine Keeps.fst (by assumption) ?_
  refine checkPage_keeps _ _ ?_; assumption; assumption

theorem consumeAll_keeps {M : Part → Prop} {s0 s : State} (ls : List Landing) (h : Keeps M s0 s) (k_led : ¬M .led := by assumption) (k_ctr : ¬M .ctr := by assumption) (k_mem : ¬M .mem := by assumption) (k_engines : ¬M .engines := by assumption) : Keeps M s0 (consumeAll ls s).1 := by
  unfold consumeAll
  generalize Consume.ok = c
  induction ls generalizing s c with
  | nil => exact h
  | cons l ls ih =>
    rw [List.foldl_cons]
    cases c <;> first | exact ih (consumeLanding_keeps l h) _ | exact ih h _

theorem voidTransfers_keeps {M : Part → Prop} {s0 a1 : State} (a0) (h : Keeps M s0 a1) (k_mem : ¬M .mem := by assumption) (k_engines : ¬M .engines := by assumption) : Keeps M s0 (voidTransfers a0 a1) := by
  unfold voidTransfers
  (with_reducible refine Keeps.letAny (fun x hx => ?_); subst hx); with_reducible refine Keeps.upd ?_
  with_reducible refine Keeps.foldl (fun s x hs => ?_) _ ?_; with_reducible refine Keeps.foldl (fun s x hs => ?_) _ ?_
  refine closePages_keeps _ ?_; assumption; assumption; assumption

theorem leaveHalf_keeps {M : Part → Prop} {s0 a2 : State} (a0) (a1) (h : Keeps M s0 a2) (k_engines : ¬M .engines := by assumption) : Keeps M s0 (leaveHalf a0 a1 a2) := by
  unfold leaveHalf
  split; dsimp -zeta only [id]; assumption; refine modEngine_keeps _ _ ?_; assumption

theorem enqueueDesc_keeps {M : Part → Prop} {s0 a5 : State} (a0) (a1) (a2) (a3) (a4) (h : Keeps M s0 a5) (k_engines : ¬M .engines := by assumption) : Keeps M s0 (enqueueDesc a0 a1 a2 a3 a4 a5) := by
  unfold enqueueDesc
  refine enqueue_keeps _ _ _ _ _ _ ?_; assumption

theorem cancelMoves_keeps {M : Part → Prop} {s0 a2 : State} (a0) (a1) (h : Keeps M s0 a2) (k_mem : ¬M .mem := by assumption) (k_engines : ¬M .engines := by assumption) : Keeps M s0 (cancelMoves a0 a1 a2) := by
  unfold cancelMoves
  (with_reducible refine Keeps.letAny (fun x hx => ?_); subst hx); with_reducible refine Keeps.foldl (fun s x hs => ?_) _ ?_
  with_reducible refine Keeps.letIn ?_ (fun s hs => ?_); with_reducible refine Keeps.foldl (fun s x hs => ?_) _ ?_
  refine leaveHalf_keeps _ _ ?_; refine closePages_keeps _ ?_; assumption; assumption; refine dropTransfers_keeps _ _ ?_; assumption
  assumption

theorem returnHalf_keeps {M : Part → Prop} {s0 a1 : State} (a0) (h : Keeps M s0 a1) (k_engines : ¬M .engines := by assumption) : Keeps M s0 (returnHalf a0 a1) := by
  unfold returnHalf
  split; refine modEngine_keeps _ _ ?_; assumption; assumption

end Sys2Proof.Machine
end

