-- ==== Sys2Proof/Laws/KeepsFiring.lean ====
section
/-! SUPPORT. The queue and the invariant are kept by the operations of Machine/Firing.lean. -/

set_option Elab.async false

namespace Sys2Proof.Machine

theorem saggarStop_keeps {M : Part → Prop} {s0 a3 : State} (a0) (a1) (a2) (h : Keeps M s0 a3) (k_slots : ¬M .slots := by assumption) : Keeps M s0 (saggarStop a0 a1 a2 a3) := by
  unfold saggarStop
  refine modSlotBeat_keeps _ _ ?_; assumption

theorem countAt_keeps {M : Part → Prop} {s0 a5 : State} (a0) (a1) (a2) (a3) (a4) (h : Keeps M s0 a5) (k_ctr : ¬M .ctr := by assumption) : Keeps M s0 (countAt a0 a1 a2 a3 a4 a5) := by
  unfold countAt
  refine countStation_keeps _ _ _ _ ?_; refine count_keeps _ _ _ ?_; assumption

theorem badHeader_keeps {M : Part → Prop} {s0 a4 : State} (a0) (a1) (a2) (a3) (h : Keeps M s0 a4) (k_ctr : ¬M .ctr := by assumption) (k_slots : ¬M .slots := by assumption) : Keeps M s0 (badHeader a0 a1 a2 a3 a4) := by
  unfold badHeader
  refine saggarStop_keeps _ _ _ ?_; refine countAt_keeps _ _ _ _ _ ?_; assumption

theorem returnCredit_keeps {M : Part → Prop} {s0 a2 : State} (a0) (a1) (h : Keeps M s0 a2) (k_fab : ¬M .fab := by assumption) (k_slots : ¬M .slots := by assumption) (k_net : ¬M .net := by assumption) : Keeps M s0 (returnCredit a0 a1 a2) := by
  unfold returnCredit
  split; assumption; (with_reducible refine Keeps.letAny (fun x hx => ?_); subst hx); split; refine queueFlits_keeps _ _ _ ?_
  assumption; refine Keeps.ite (fun _ => ?_) (fun _ => ?_); refine addCredit_keeps _ _ _ ?_; assumption
  with_reducible refine Keeps.upd ?_; assumption

theorem lateDiscard_keeps {M : Part → Prop} {s0 a4 : State} (a0) (a1) (a2) (a3) (h : Keeps M s0 a4) (k_ctr : ¬M .ctr := by assumption) : Keeps M s0 (lateDiscard a0 a1 a2 a3 a4) := by
  unfold lateDiscard
  split; refine Keeps.ite (fun _ => ?_) (fun _ => ?_); refine countStation_keeps _ _ _ _ ?_; refine count_keeps _ _ _ ?_; assumption
  assumption; assumption

theorem placeEntry_keeps {M : Part → Prop} {s0 a6 : State} (a0) (a1) (a2) (a3) (a4) (a5) (h : Keeps M s0 a6) (k_arrays : ¬M .arrays := by assumption) (k_kilns : ¬M .kilns := by assumption) : Keeps M s0 (placeEntry a0 a1 a2 a3 a4 a5 a6).1 := by
  unfold placeEntry
  (with_reducible refine Keeps.letAnyFst (fun x hx => ?_); subst hx); dsimp only; refine Keeps.ite (fun _ => ?_) (fun _ => ?_)
  with_reducible refine Keeps.upd ?_; assumption; refine Keeps.ite (fun _ => ?_) (fun _ => ?_); assumption
  refine modArray_keeps _ _ ?_ ?_; intros; simp_all only
  (first | exact wf_storeBytes _ _ _ (by assumption) | exact wf_clearBytes _ _ _ (by assumption) | (split <;> assumption) | simp_all)
  assumption

theorem pushEntry_keeps {M : Part → Prop} {s0 a4 : State} (a0) (a1) (a2) (a3) (h : Keeps M s0 a4) (k_slots : ¬M .slots := by assumption) : Keeps M s0 (pushEntry a0 a1 a2 a3 a4) := by
  unfold pushEntry
  refine modStation_keeps _ _ _ ?_; assumption

theorem writeSpill_keeps {M : Part → Prop} {s0 a0 : State} (a1) (a2) (a3) (a4) (a5) (h : Keeps M s0 a0) (k_mem : ¬M .mem := by assumption) (k_secures : ¬M .secures := by assumption) : Keeps M s0 (writeSpill a0 a1 a2 a3 a4 a5) := by
  unfold writeSpill
  split; assumption; (with_reducible refine Keeps.letAny (fun x hx => ?_); subst hx); refine writeCargo_keeps _ _ _ ?_
  refine writeCargo_keeps _ _ _ ?_; assumption

theorem enterQueue_keeps {M : Part → Prop} {s0 s : State} {t : State} (slot r st q header payload) (he : enterQueue slot r st q header payload s = some t)
    (h : Keeps M s0 s) (k_ctr : ¬M .ctr := by assumption) (_k_fab : ¬M .fab := by assumption) (k_slots : ¬M .slots := by assumption) (k_arrays : ¬M .arrays := by assumption) (k_kilns : ¬M .kilns := by assumption) (k_mem : ¬M .mem := by assumption) (_k_net : ¬M .net := by assumption) (k_secures : ¬M .secures := by assumption) : Keeps M s0 t := by
  have hp : ∀ (es : List Entry) (flight limit) (x : Option State), (freePart flight q es limit).map (fun k =>
      let x := placeEntry st q k header payload (hdrUses header) s
      pushEntry slot st.info.number q.queue x.2 x.1) = x → x = some t → Keeps M s0 t := by
    intro es flight limit x e ex
    subst e
    obtain ⟨k, _, rfl⟩ := Option.map_eq_some_iff.mp ex
    exact pushEntry_keeps _ _ _ _ (placeEntry_keeps _ _ _ _ _ _ h)
  unfold enterQueue at he
  extract_lets n es flight enter at he
  split at he
  · split at he
    · exact hp _ _ _ _ rfl he
    split at he
    · cases he
      exact countAt_keeps _ _ _ _ _ (pushEntry_keeps _ _ _ _ (writeSpill_keeps _ _ _ _ _ h))
    · cases he
  · exact hp _ _ _ _ rfl he

theorem enterTile_keeps {M : Part → Prop} {s0 s : State} {s' : State} (slot r o header payload) (h : Keeps M s0 s) (h' : Keeps M s0 s') (k_ctr : ¬M .ctr := by assumption) (k_fab : ¬M .fab := by assumption) (k_slots : ¬M .slots := by assumption) (k_arrays : ¬M .arrays := by assumption) (k_kilns : ¬M .kilns := by assumption) (k_mem : ¬M .mem := by assumption) (k_net : ¬M .net := by assumption) (k_secures : ¬M .secures := by assumption) :
    Keeps M s0 (enterTile slot r o header payload s s') := by
  unfold enterTile
  split; assumption; (with_reducible refine Keeps.letAny (fun x hx => ?_); subst hx); refine Keeps.ite (fun _ => ?_) (fun _ => ?_)
  assumption; refine Keeps.ite (fun _ => ?_) (fun _ => ?_); refine badHeader_keeps _ _ _ _ ?_; assumption
  refine Keeps.ite (fun _ => ?_) (fun _ => ?_); refine returnCredit_keeps _ _ ?_; refine countAt_keeps _ _ _ _ _ ?_; assumption
  refine Keeps.ite (fun _ => ?_) (fun _ => ?_); refine returnCredit_keeps _ _ ?_; refine lateDiscard_keeps _ _ _ _ ?_; assumption
  split; refine Keeps.ite (fun _ => ?_) (fun _ => ?_); refine addCredit_keeps _ _ _ ?_
  refine enterQueue_keeps _ _ _ _ _ _ (by assumption) ?_; assumption; refine enterQueue_keeps _ _ _ _ _ _ (by assumption) ?_
  assumption; assumption

theorem putUnit_keeps {M : Part → Prop} {s0 a3 : State} (a0) (a1) (a2) (h : Keeps M s0 a3) (k_fab : ¬M .fab := by assumption) : Keeps M s0 (putUnit a0 a1 a2 a3) := by
  unfold putUnit
  with_reducible refine Keeps.upd ?_; assumption

theorem pairUnit_keeps {M : Part → Prop} {s0 a6 : State} (a0) (a1) (a2) (a3) (a4) (a5) (h : Keeps M s0 a6) (k_ctr : ¬M .ctr := by assumption) (k_fab : ¬M .fab := by assumption) (k_slots : ¬M .slots := by assumption) (k_net : ¬M .net := by assumption) : Keeps M s0 (pairUnit a0 a1 a2 a3 a4 a5 a6) := by
  unfold pairUnit
  (with_reducible refine Keeps.letAny (fun x hx => ?_); subst hx); refine Keeps.ite (fun _ => ?_) (fun _ => ?_); dsimp -zeta only
  split; refine returnCredit_keeps _ _ ?_; refine count_keeps _ _ _ ?_; refine putUnit_keeps _ _ _ ?_; assumption
  refine count_keeps _ _ _ ?_; refine putUnit_keeps _ _ _ ?_; assumption; refine putUnit_keeps _ _ _ ?_; assumption

theorem takeToken_keeps {M : Part → Prop} {s0 a5 : State} (a0) (a1) (a2) (a3) (a4) (h : Keeps M s0 a5) (h4 : Keeps M s0 a4) (k_ctr : ¬M .ctr := by assumption) (k_fab : ¬M .fab := by assumption) (k_slots : ¬M .slots := by assumption) (k_net : ¬M .net := by assumption) : Keeps M s0 (takeToken a0 a1 a2 a3 a4 a5) := by
  unfold takeToken
  (with_reducible refine Keeps.letAny (fun x hx => ?_); subst hx); refine Keeps.ite (fun _ => ?_) (fun _ => ?_); assumption
  (with_reducible refine Keeps.letAny (fun x hx => ?_); subst hx); split; assumption; refine Keeps.ite (fun _ => ?_) (fun _ => ?_)
  assumption; refine Keeps.ite (fun _ => ?_) (fun _ => ?_); refine putUnit_keeps _ _ _ ?_; assumption
  (with_reducible refine Keeps.letAny (fun x hx => ?_); subst hx); split; refine pairUnit_keeps _ _ _ _ _ _ ?_; assumption
  refine Keeps.ite (fun _ => ?_) (fun _ => ?_); refine putUnit_keeps _ _ _ ?_; assumption; assumption

theorem purgeItems_keeps {M : Part → Prop} {s0 a2 : State} (a0) (a1) (h : Keeps M s0 a2) (k_fab : ¬M .fab := by assumption) : Keeps M s0 (purgeItems a0 a1 a2) := by
  unfold purgeItems
  with_reducible refine Keeps.foldl (fun s x hs => ?_) _ ?_; refine purgePath_keeps _ _ _ ?_; assumption; assumption

theorem abandonWork_keeps {M : Part → Prop} {s0 a1 : State} (a0) (h : Keeps M s0 a1) (k_fresh : ¬M .fresh := by assumption) (k_arrays : ¬M .arrays := by assumption) (k_engines : ¬M .engines := by assumption) : Keeps M s0 (abandonWork a0 a1) := by
  unfold abandonWork
  with_reducible refine Keeps.foldl (fun s x hs => ?_) _ ?_; (with_reducible refine Keeps.letAny (fun x hx => ?_); subst hx)
  refine Keeps.ite (fun _ => ?_) (fun _ => ?_); refine Keeps.ite (fun _ => ?_) (fun _ => ?_)
  with_reducible refine Keeps.foldl (fun s x hs => ?_) _ ?_; refine abandonMmo_keeps _ _ ?_; assumption; assumption
  refine modArray_keeps _ _ ?_ ?_; intros; with_reducible assumption; with_reducible refine Keeps.foldl (fun s x hs => ?_) _ ?_
  refine abandonMmo_keeps _ _ ?_; assumption; assumption; refine modArray_keeps _ _ ?_ ?_; intros; (first | assumption | omega)
  refine draw_keeps ?_; refine Keeps.ite (fun _ => ?_) (fun _ => ?_); with_reducible refine Keeps.foldl (fun s x hs => ?_) _ ?_
  refine abandonMmo_keeps _ _ ?_; assumption; assumption; refine modArray_keeps _ _ ?_ ?_; intros; with_reducible assumption
  with_reducible refine Keeps.foldl (fun s x hs => ?_) _ ?_; refine abandonMmo_keeps _ _ ?_; assumption; assumption; assumption

theorem flushRoute_keeps {M : Part → Prop} {s0 a1 : State} (a0) (h : Keeps M s0 a1) (k_fresh : ¬M .fresh := by assumption) (k_fab : ¬M .fab := by assumption) (k_slots : ¬M .slots := by assumption) (k_arrays : ¬M .arrays := by assumption) (k_mem : ¬M .mem := by assumption) (k_engines : ¬M .engines := by assumption) : Keeps M s0 (flushRoute a0 a1) := by
  unfold flushRoute
  split; assumption; (with_reducible refine Keeps.letAny (fun x hx => ?_); subst hx)
  with_reducible refine Keeps.updGen ?_ (fun hm => by first | exact hm | exact tbfs_kmap (fun _ _ => rfl) hm | exact fits_filter _ hm | exact wf_clearBytes _ _ _ hm | exact tbfs_nil) (fun hm => by first | exact hm | exact tbfs_kmap (fun _ _ => rfl) hm | exact fits_filter _ hm | exact wf_clearBytes _ _ _ hm | exact tbfs_nil) (fun hm => by first | exact hm | exact tbfs_kmap (fun _ _ => rfl) hm | exact fits_filter _ hm | exact wf_clearBytes _ _ _ hm | exact tbfs_nil) (fun hm => by first | exact hm | exact tbfs_kmap (fun _ _ => rfl) hm | exact fits_filter _ hm | exact wf_clearBytes _ _ _ hm | exact tbfs_nil) (fun hm => by first | exact hm | exact tbfs_kmap (fun _ _ => rfl) hm | exact fits_filter _ hm | exact wf_clearBytes _ _ _ hm | exact tbfs_nil) (fun hm => by first | exact hm | exact tbfs_kmap (fun _ _ => rfl) hm | exact fits_filter _ hm | exact wf_clearBytes _ _ _ hm | exact tbfs_nil) (fun hm => by first | exact hm | exact tbfs_kmap (fun _ _ => rfl) hm | exact fits_filter _ hm | exact wf_clearBytes _ _ _ hm | exact tbfs_nil)
  refine abandonWork_keeps _ ?_; with_reducible refine Keeps.upd ?_; refine modSlot_keeps _ _ ?_; refine purgeItems_keeps _ _ ?_
  refine voidTransfers_keeps _ ?_; assumption

theorem putStaged_keeps {M : Part → Prop} {s0 a3 : State} (a0) (a1) (a2) (h : Keeps M s0 a3) (k_slots : ¬M .slots := by assumption) : Keeps M s0 (putStaged a0 a1 a2 a3) := by
  unfold putStaged
  refine modStream_keeps _ _ _ ?_; assumption

theorem sendReserved_keeps {M : Part → Prop} {s0 a6 : State} (a0) (a1) (a2) (a3) (a4) (a5) (h : Keeps M s0 a6) (k_slots : ¬M .slots := by assumption) : Keeps M s0 (sendReserved a0 a1 a2 a3 a4 a5 a6) := by
  unfold sendReserved
  refine putStaged_keeps _ _ _ ?_; refine modStation_keeps _ _ _ ?_; assumption

theorem reported_keeps {M : Part → Prop} {s0 a2 : State} (a0) (a1) (h : Keeps M s0 a2) (_h1 : Keeps M s0 a1) (k_slots : ¬M .slots := by assumption) : Keeps M s0 (reported a0 a1 a2) := by
  unfold reported
  (with_reducible refine Keeps.letAny (fun x hx => ?_); subst hx); refine Keeps.ite (fun _ => ?_) (fun _ => ?_)
  refine modSlotBeat_keeps _ _ ?_; assumption; assumption

theorem takeBounds_keeps {M : Part → Prop} {s0 a2 : State} (a0) (a1) (h : Keeps M s0 a2) (k_ctr : ¬M .ctr := by assumption) (k_fab : ¬M .fab := by assumption) (k_slots : ¬M .slots := by assumption) (k_net : ¬M .net := by assumption) : Keeps M s0 (takeBounds a0 a1 a2) := by
  unfold takeBounds
  (with_reducible refine Keeps.letAny (fun x hx => ?_); subst hx); refine reported_keeps _ _ ?_ ?_
  with_reducible refine Keeps.foldl (fun s x hs => ?_) _ ?_; split; (with_reducible refine Keeps.letAny (fun x hx => ?_); subst hx)
  refine Keeps.ite (fun _ => ?_) (fun _ => ?_); assumption; refine Keeps.ite (fun _ => ?_) (fun _ => ?_)
  with_reducible refine Keeps.foldl (fun s x hs => ?_) _ ?_; (with_reducible refine Keeps.letAny (fun x hx => ?_); subst hx); split
  (with_reducible refine Keeps.letAny (fun x hx => ?_); subst hx); split; refine returnCredit_keeps _ _ ?_
  refine Keeps.ite (fun _ => ?_) (fun _ => ?_); refine modStation_keeps _ _ _ ?_; assumption; refine countAt_keeps _ _ _ _ _ ?_
  refine modStation_keeps _ _ _ ?_; assumption; refine Keeps.ite (fun _ => ?_) (fun _ => ?_); refine modStation_keeps _ _ _ ?_
  assumption; refine countAt_keeps _ _ _ _ _ ?_; refine modStation_keeps _ _ _ ?_; assumption; assumption; assumption
  with_reducible refine Keeps.foldl (fun s x hs => ?_) _ ?_; (with_reducible refine Keeps.letAny (fun x hx => ?_); subst hx)
  refine Keeps.ite (fun _ => ?_) (fun _ => ?_); assumption; (with_reducible refine Keeps.letAny (fun x hx => ?_); subst hx); split
  assumption; (with_reducible refine Keeps.letAny (fun x hx => ?_); subst hx); split; refine returnCredit_keeps _ _ ?_
  refine Keeps.ite (fun _ => ?_) (fun _ => ?_); refine modStation_keeps _ _ _ ?_; assumption; refine countAt_keeps _ _ _ _ _ ?_
  refine modStation_keeps _ _ _ ?_; assumption; refine Keeps.ite (fun _ => ?_) (fun _ => ?_); refine modStation_keeps _ _ _ ?_
  assumption; refine countAt_keeps _ _ _ _ _ ?_; refine modStation_keeps _ _ _ ?_; assumption; assumption; assumption; assumption

theorem execTokenArrive_keeps {M : Part → Prop} {s0 a3 : State} (a0) (a1) (a2) (h : Keeps M s0 a3) (k_ctr : ¬M .ctr := by assumption) (k_fab : ¬M .fab := by assumption) (k_slots : ¬M .slots := by assumption) (k_net : ¬M .net := by assumption) : Answers M s0 (execTokenArrive a0 a1 a2 a3) := by
  unfold execTokenArrive
  with_reducible apply Answers.done; split; assumption; split; refine takeToken_keeps _ _ _ _ _ ?_ ?_
  refine dropArrived_keeps _ _ _ _ _ _ ?_; assumption; assumption; assumption

theorem enterItem_keeps {M : Part → Prop} {s0 a3 : State} (a0) (a1) (a2) (h : Keeps M s0 a3) (k_ctr : ¬M .ctr := by assumption) (k_fab : ¬M .fab := by assumption) (k_slots : ¬M .slots := by assumption) (k_net : ¬M .net := by assumption) : Keeps M s0 (enterItem a0 a1 a2 a3) := by
  unfold enterItem
  split; with_reducible refine Keeps.letIn ?_ (fun s hs => ?_); refine Keeps.ite (fun _ => ?_) (fun _ => ?_)
  refine returnCredit_keeps _ _ ?_; refine dropArrived_keeps _ _ _ _ _ _ ?_; assumption; refine Keeps.ite (fun _ => ?_) (fun _ => ?_)
  assumption; refine takeBounds_keeps _ _ ?_; refine modStation_keeps _ _ _ ?_; refine dropArrived_keeps _ _ _ _ _ _ ?_; assumption
  refine Keeps.ite (fun _ => ?_) (fun _ => ?_); refine dropArrived_keeps _ _ _ _ _ _ ?_; assumption; assumption; assumption

theorem execTileArrive_keeps {M : Part → Prop} {s0 a3 : State} (a0) (a1) (a2) (h : Keeps M s0 a3) (k_ctr : ¬M .ctr := by assumption) (k_fab : ¬M .fab := by assumption) (k_slots : ¬M .slots := by assumption) (k_arrays : ¬M .arrays := by assumption) (k_kilns : ¬M .kilns := by assumption) (k_mem : ¬M .mem := by assumption) (k_net : ¬M .net := by assumption) (k_secures : ¬M .secures := by assumption) : Answers M s0 (execTileArrive a0 a1 a2 a3) := by
  unfold execTileArrive
  with_reducible apply Answers.done; split; assumption; refine Keeps.ite (fun _ => ?_) (fun _ => ?_); assumption
  refine Keeps.ite (fun _ => ?_) (fun _ => ?_); refine enterItem_keeps _ _ _ ?_; assumption; split; assumption
  refine enterTile_keeps _ _ _ _ _ ?_ ?_; assumption; refine takeTile_keeps _ _ _ _ ?_; assumption

theorem queueCredit_keeps {M : Part → Prop} {s0 a4 : State} (a0) (a1) (a2) (a3) (h : Keeps M s0 a4) (k_fab : ¬M .fab := by assumption) (k_slots : ¬M .slots := by assumption) (k_net : ¬M .net := by assumption) : Keeps M s0 (queueCredit a0 a1 a2 a3 a4) := by
  unfold queueCredit
  split; refine Keeps.ite (fun _ => ?_) (fun _ => ?_); assumption; refine returnCredit_keeps _ _ ?_; assumption; assumption

theorem finishFlight_keeps {M : Part → Prop} {s0 a5 : State} (a0) (a1) (a2) (a3) (a4) (h : Keeps M s0 a5) (k_slots : ¬M .slots := by assumption) : Keeps M s0 (finishFlight a0 a1 a2 a3 a4 a5) := by
  unfold finishFlight
  refine modStation_keeps _ _ _ ?_; assumption

theorem stopStream_keeps {M : Part → Prop} {s0 a3 : State} (a0) (a1) (a2) (h : Keeps M s0 a3) (k_fab : ¬M .fab := by assumption) (k_slots : ¬M .slots := by assumption) : Keeps M s0 (stopStream a0 a1 a2 a3) := by
  unfold stopStream
  split; assumption; (with_reducible refine Keeps.letAny (fun x hx => ?_); subst hx); with_reducible refine Keeps.upd ?_
  refine Keeps.ite (fun _ => ?_) (fun _ => ?_); refine purgePath_keeps _ _ _ ?_; refine modStream_keeps _ _ _ ?_; assumption
  refine modStation_keeps _ _ _ ?_; refine purgePath_keeps _ _ _ ?_; refine modStream_keeps _ _ _ ?_; assumption

theorem entryCredit_keeps {M : Part → Prop} {s0 a5 : State} (a0) (a1) (a2) (a3) (a4) (h : Keeps M s0 a5) (k_fab : ¬M .fab := by assumption) (k_slots : ¬M .slots := by assumption) (k_engines : ¬M .engines := by assumption) (k_net : ¬M .net := by assumption) : Keeps M s0 (entryCredit a0 a1 a2 a3 a4 a5) := by
  unfold entryCredit
  refine Keeps.ite (fun _ => ?_) (fun _ => ?_); refine returnHalf_keeps _ ?_; assumption; refine queueCredit_keeps _ _ _ _ ?_
  assumption

theorem execSteerOutput_keeps {M : Part → Prop} {s0 a2 : State} (a0) (a1) (h : Keeps M s0 a2) (k_fab : ¬M .fab := by assumption) (k_slots : ¬M .slots := by assumption) (k_net : ¬M .net := by assumption) : Answers M s0 (execSteerOutput a0 a1 a2) := by
  unfold execSteerOutput
  with_reducible apply Answers.done; split; assumption; split; assumption
  (with_reducible refine Keeps.letAny (fun x hx => ?_); subst hx); split; assumption
  (with_reducible refine Keeps.letAny (fun x hx => ?_); subst hx); split; refine returnCredit_keeps _ _ ?_
  refine putUnit_keeps _ _ _ ?_; refine putStaged_keeps _ _ _ ?_; refine modStream_keeps _ _ _ ?_; assumption
  refine putUnit_keeps _ _ _ ?_; refine putStaged_keeps _ _ _ ?_; refine modStream_keeps _ _ _ ?_; assumption

theorem clearStopped_keeps {M : Part → Prop} {s0 a1 : State} (a0) (h : Keeps M s0 a1) (k_serves : ¬M .serves := by assumption) : Keeps M s0 (clearStopped a0 a1) := by
  unfold clearStopped
  refine Keeps.ite (fun _ => ?_) (fun _ => ?_); assumption; refine modServe_keeps _ _ ?_; assumption

theorem execStreamRestart_keeps {M : Part → Prop} {s0 a2 : State} (a0) (a1) (h : Keeps M s0 a2) (k_led : ¬M .led := by assumption) (k_ctr : ¬M .ctr := by assumption) (k_slots : ¬M .slots := by assumption) (k_serves : ¬M .serves := by assumption) : Answers M s0 (execStreamRestart a0 a1 a2) := by
  unfold execStreamRestart
  with_reducible apply Answers.done; split; assumption; (with_reducible refine Keeps.letAny (fun x hx => ?_); subst hx)
  refine Keeps.ite (fun _ => ?_) (fun _ => ?_); assumption; refine Keeps.ite (fun _ => ?_) (fun _ => ?_)
  refine clearStopped_keeps _ ?_; refine modStream_keeps _ _ _ ?_; assumption; refine event_keeps _ _ _ ?_
  refine Keeps.ite (fun _ => ?_) (fun _ => ?_); refine count_keeps _ _ _ ?_; refine modTrain_keeps _ _ ?_; assumption; assumption

theorem arriveData_keeps {M : Part → Prop} {s0 a5 : State} (a0) (a1) (a2) (a3) (a4) (h : Keeps M s0 a5) (k_ctr : ¬M .ctr := by assumption) (k_fab : ¬M .fab := by assumption) (k_slots : ¬M .slots := by assumption) (k_net : ¬M .net := by assumption) : Keeps M s0 (arriveData a0 a1 a2 a3 a4 a5) := by
  unfold arriveData
  split; assumption; split; assumption; (with_reducible refine Keeps.letAny (fun x hx => ?_); subst hx)
  refine Keeps.ite (fun _ => ?_) (fun _ => ?_); refine takeTile_keeps _ _ _ _ ?_; assumption
  refine Keeps.ite (fun _ => ?_) (fun _ => ?_); refine badHeader_keeps _ _ _ _ ?_; refine takeTile_keeps _ _ _ _ ?_; assumption
  refine Keeps.ite (fun _ => ?_) (fun _ => ?_); refine returnCredit_keeps _ _ ?_; refine countAt_keeps _ _ _ _ _ ?_
  refine takeTile_keeps _ _ _ _ ?_; assumption; refine Keeps.ite (fun _ => ?_) (fun _ => ?_); refine returnCredit_keeps _ _ ?_
  refine takeTile_keeps _ _ _ _ ?_; assumption; split; refine pairUnit_keeps _ _ _ _ _ _ ?_; refine takeTile_keeps _ _ _ _ ?_
  assumption; (with_reducible refine Keeps.letAny (fun x hx => ?_); subst hx); refine Keeps.ite (fun _ => ?_) (fun _ => ?_)
  refine putUnit_keeps _ _ _ ?_; refine takeTile_keeps _ _ _ _ ?_; assumption; assumption

theorem execSteerDataArrive_keeps {M : Part → Prop} {s0 a4 : State} (a0) (a1) (a2) (a3) (h : Keeps M s0 a4) (k_ctr : ¬M .ctr := by assumption) (k_fab : ¬M .fab := by assumption) (k_slots : ¬M .slots := by assumption) (k_net : ¬M .net := by assumption) : Answers M s0 (execSteerDataArrive a0 a1 a2 a3 a4) := by
  unfold execSteerDataArrive
  with_reducible apply Answers.done; refine Keeps.ite (fun _ => ?_) (fun _ => ?_); refine arriveData_keeps _ _ _ _ _ ?_; assumption
  assumption

theorem execMergeDataArrive_keeps {M : Part → Prop} {s0 a5 : State} (a0) (a1) (a2) (a3) (a4) (h : Keeps M s0 a5) (k_ctr : ¬M .ctr := by assumption) (k_fab : ¬M .fab := by assumption) (k_slots : ¬M .slots := by assumption) (k_net : ¬M .net := by assumption) : Answers M s0 (execMergeDataArrive a0 a1 a2 a3 a4 a5) := by
  unfold execMergeDataArrive
  with_reducible apply Answers.done; refine Keeps.ite (fun _ => ?_) (fun _ => ?_); refine arriveData_keeps _ _ _ _ _ ?_; assumption
  assumption

theorem execJoinRefill_keeps {M : Part → Prop} {s0 a4 : State} (a0) (a1) (a2) (a3) (h : Keeps M s0 a4) (k_slots : ¬M .slots := by assumption) (k_arrays : ¬M .arrays := by assumption) (k_kilns : ¬M .kilns := by assumption) : Answers M s0 (execJoinRefill a0 a1 a2 a3 a4) := by
  unfold execJoinRefill
  with_reducible apply Answers.done; split; assumption; (with_reducible refine Keeps.letAny (fun x hx => ?_); subst hx); split; split
  dsimp -zeta only; split; assumption; (with_reducible refine Keeps.letAny (fun x hx => ?_); subst hx)
  refine modStation_keeps _ _ _ ?_; refine placeEntry_keeps _ _ _ _ _ _ ?_; assumption; assumption; split; assumption
  refine Keeps.ite (fun _ => ?_) (fun _ => ?_); assumption; dsimp -zeta only; split; refine modStation_keeps _ _ _ ?_; assumption
  (with_reducible refine Keeps.letAny (fun x hx => ?_); subst hx); refine modStation_keeps _ _ _ ?_
  refine placeEntry_keeps _ _ _ _ _ _ ?_; refine modStation_keeps _ _ _ ?_; assumption

theorem spend_keeps {M : Part → Prop} {s0 a4 : State} (a0) (a1) (a2) (a3) (h : Keeps M s0 a4) (k_fab : ¬M .fab := by assumption) (k_slots : ¬M .slots := by assumption) (k_engines : ¬M .engines := by assumption) (k_net : ¬M .net := by assumption) : Keeps M s0 (spend a0 a1 a2 a3 a4) := by
  unfold spend
  (with_reducible refine Keeps.letAny (fun x hx => ?_); subst hx); split; split; assumption
  refine Keeps.ite (fun _ => ?_) (fun _ => ?_); refine modStation_keeps _ _ _ ?_; assumption
  with_reducible refine Keeps.letIn ?_ (fun s hs => ?_); refine modStation_keeps _ _ _ ?_; assumption
  refine entryCredit_keeps _ _ _ _ _ ?_; assumption; refine queueCredit_keeps _ _ _ _ ?_; refine modStation_keeps _ _ _ ?_; assumption
  refine modTrain_keeps _ _ ?_; assumption

theorem sendWhenFree_keeps {M : Part → Prop} {s0 a3 : State} (a0) (a1) (a2) (h : Keeps M s0 a3) (k_slots : ¬M .slots := by assumption) : Keeps M s0 (sendWhenFree a0 a1 a2 a3) := by
  unfold sendWhenFree
  refine addCredit_keeps _ _ _ ?_; refine modStream_keeps _ _ _ ?_; assumption

theorem execQueueCreditReturn_keeps {M : Part → Prop} {s0 a2 : State} (a0) (a1) (h : Keeps M s0 a2) (k_fab : ¬M .fab := by assumption) (k_slots : ¬M .slots := by assumption) : Answers M s0 (execQueueCreditReturn a0 a1 a2) := by
  unfold execQueueCreditReturn
  with_reducible apply Answers.done; refine Keeps.ite (fun _ => ?_) (fun _ => ?_); refine addCredit_keeps _ _ _ ?_
  with_reducible refine Keeps.upd ?_; assumption; assumption

theorem completeOp_keeps {M : Part → Prop} {s0 a4 : State} (a0) (a1) (a2) (a3) (h : Keeps M s0 a4) (k_slots : ¬M .slots := by assumption) : Keeps M s0 (completeOp a0 a1 a2 a3 a4) := by
  unfold completeOp
  split; assumption; with_reducible refine Keeps.letIn ?_ (fun s hs => ?_); refine modStation_keeps _ _ _ ?_
  refine leaveFlight_keeps _ _ _ _ ?_; with_reducible refine Keeps.foldl (fun s x hs => ?_) _ ?_
  refine sendReserved_keeps _ _ _ _ _ _ ?_; assumption; assumption; refine reported_keeps _ _ ?_ ?_; assumption; assumption

end Sys2Proof.Machine
end

