-- ==== Sys2Proof/Laws/KeepsLinks.lean ====
section
/-! SUPPORT. The queue and the invariant are kept by the operations of Machine/Links.lean. -/

set_option Elab.async false

namespace Sys2Proof.Machine

theorem putFlit_keeps {M : Part → Prop} {s0 a2 : State} (a0) (a1) (h : Keeps M s0 a2) (k_out : ¬M .out := by assumption) (k_ctr : ¬M .ctr := by assumption) (k_net : ¬M .net := by assumption) : Keeps M s0 (putFlit a0 a1 a2) := by
  unfold putFlit
  (with_reducible refine Keeps.letAny (fun x hx => ?_); subst hx); refine count_keeps _ _ _ ?_; refine emit_keeps _ ?_; split
  refine modLink_keeps _ _ ?_; refine modLink_keeps _ _ ?_; assumption; refine modLink_keeps _ _ ?_; assumption

theorem takeReturns_keeps {M : Part → Prop} {s0 a2 : State} (a0) (a1) (h : Keeps M s0 a2) (k_net : ¬M .net := by assumption) : Keeps M s0 (takeReturns a0 a1 a2) := by
  unfold takeReturns
  (with_reducible refine Keeps.letAny (fun x hx => ?_); subst hx); refine Keeps.ite (fun _ => ?_) (fun _ => ?_)
  refine Keeps.ite (fun _ => ?_) (fun _ => ?_); refine modLink_keeps _ _ ?_; assumption; assumption; refine modLink_keeps _ _ ?_
  refine Keeps.ite (fun _ => ?_) (fun _ => ?_); refine modLink_keeps _ _ ?_; assumption; assumption

theorem linkDown_keeps {M : Part → Prop} {s0 a1 : State} (a0) (h : Keeps M s0 a1) (k_led : ¬M .led := by assumption) (k_ctr : ¬M .ctr := by assumption) (k_net : ¬M .net := by assumption) : Keeps M s0 (linkDown a0 a1) := by
  unfold linkDown
  refine Keeps.ite (fun _ => ?_) (fun _ => ?_); assumption; with_reducible refine Keeps.letIn ?_ (fun s hs => ?_)
  refine count_keeps _ _ _ ?_; refine modLink_keeps _ _ ?_; assumption; refine event_keeps _ _ _ ?_; assumption

theorem resendFrom_keeps {M : Part → Prop} {s0 a2 : State} (a0) (a1) (h : Keeps M s0 a2) (k_led : ¬M .led := by assumption) (k_ctr : ¬M .ctr := by assumption) (k_net : ¬M .net := by assumption) : Keeps M s0 (resendFrom a0 a1 a2) := by
  unfold resendFrom
  (with_reducible refine Keeps.letAny (fun x hx => ?_); subst hx); refine Keeps.ite (fun _ => ?_) (fun _ => ?_)
  refine linkDown_keeps _ ?_; refine modLink_keeps _ _ ?_; assumption; refine modLink_keeps _ _ ?_; assumption

theorem takeWhole_keeps {M : Part → Prop} {s0 a4 : State} (a0) (a1) (a2) (a3) (h : Keeps M s0 a4) (k_slots : ¬M .slots := by assumption) : Keeps M s0 (takeWhole a0 a1 a2 a3 a4) := by
  unfold takeWhole
  split; assumption; refine Keeps.ite (fun _ => ?_) (fun _ => ?_); split; refine addCredit_keeps _ _ _ ?_; assumption; assumption
  split; refine putStaged_keeps _ _ _ ?_; assumption; assumption

theorem takeData_keeps {M : Part → Prop} {s0 a3 : State} (a0) (a1) (a2) (h : Keeps M s0 a3) (k_ctr : ¬M .ctr := by assumption) (k_slots : ¬M .slots := by assumption) (k_net : ¬M .net := by assumption) : Keeps M s0 (takeData a0 a1 a2 a3) := by
  unfold takeData
  (with_reducible refine Keeps.letAny (fun x hx => ?_); subst hx); refine Keeps.ite (fun _ => ?_) (fun _ => ?_)
  with_reducible refine Keeps.letIn ?_ (fun s hs => ?_); refine modLink_keeps _ _ ?_; refine modLink_keeps _ _ ?_; assumption
  refine Keeps.ite (fun _ => ?_) (fun _ => ?_); refine takeWhole_keeps _ _ _ _ ?_; refine modLink_keeps _ _ ?_
  refine modLink_keeps _ _ ?_; assumption; assumption; split; refine count_keeps _ _ _ ?_; refine modLink_keeps _ _ ?_; assumption
  refine count_keeps _ _ _ ?_; refine queueFlits_keeps _ _ _ ?_; assumption

theorem receiveFlit_keeps {M : Part → Prop} {s0 a3 : State} (a0) (a1) (a2) (h : Keeps M s0 a3) (k_out : ¬M .out := by assumption) (k_led : ¬M .led := by assumption) (k_ctr : ¬M .ctr := by assumption) (k_slots : ¬M .slots := by assumption) (k_net : ¬M .net := by assumption) : Answers M s0 (receiveFlit a0 a1 a2 a3) := by
  unfold receiveFlit
  with_reducible refine Answers.ite (fun hc => ?_) (fun hc => ?_); with_reducible apply Answers.done; assumption
  (with_reducible refine Answers.letAny (fun x hx => ?_); subst hx); with_reducible refine Answers.ite (fun hc => ?_) (fun hc => ?_)
  with_reducible refine Answers.letIn ?_ (fun s hs => ?_); refine Keeps.ite (fun _ => ?_) (fun _ => ?_); refine count_keeps _ _ _ ?_
  refine count_keeps _ _ _ ?_; assumption; refine count_keeps _ _ _ ?_; refine emit_keeps _ ?_; refine modLink_keeps _ _ ?_
  refine count_keeps _ _ _ ?_; refine count_keeps _ _ _ ?_; assumption; with_reducible apply Answers.done; assumption
  with_reducible refine Answers.ite (fun hc => ?_) (fun hc => ?_); with_reducible apply Answers.done; refine takeReturns_keeps _ _ ?_
  refine count_keeps _ _ _ ?_; assumption; with_reducible refine Answers.ite (fun hc => ?_) (fun hc => ?_)
  with_reducible apply Answers.done; refine resendFrom_keeps _ _ ?_; refine takeReturns_keeps _ _ ?_; refine count_keeps _ _ _ ?_
  assumption; with_reducible refine Answers.ite (fun hc => ?_) (fun hc => ?_); with_reducible apply Answers.done
  refine count_keeps _ _ _ ?_; assumption; with_reducible refine Answers.ite (fun hc => ?_) (fun hc => ?_)
  with_reducible apply Answers.done; refine count_keeps _ _ _ ?_; refine takeReturns_keeps _ _ ?_; refine count_keeps _ _ _ ?_
  assumption; with_reducible refine Answers.letIn ?_ (fun s hs => ?_); refine Keeps.ite (fun _ => ?_) (fun _ => ?_)
  refine takeData_keeps _ _ _ ?_; refine modLink_keeps _ _ ?_; refine takeReturns_keeps _ _ ?_; refine count_keeps _ _ _ ?_; assumption
  refine modLink_keeps _ _ ?_; refine takeReturns_keeps _ _ ?_; refine count_keeps _ _ _ ?_; assumption
  with_reducible apply Answers.done; assumption

theorem decodeFec_keeps {M : Part → Prop} {s0 a3 : State} (a0) (a1) (a2) (h : Keeps M s0 a3) (k_ctr : ¬M .ctr := by assumption) : Keeps M s0 (decodeFec a0 a1 a2 a3) := by
  unfold decodeFec
  refine Keeps.ite (fun _ => ?_) (fun _ => ?_); refine count_keeps _ _ _ ?_; refine count_keeps _ _ _ ?_; assumption; assumption

theorem execFlitReceive_keeps {M : Part → Prop} {s0 a5 : State} (a0) (a1) (a2) (a3) (a4) (h : Keeps M s0 a5) (k_out : ¬M .out := by assumption) (k_led : ¬M .led := by assumption) (k_ctr : ¬M .ctr := by assumption) (k_slots : ¬M .slots := by assumption) (k_net : ¬M .net := by assumption) : Answers M s0 (execFlitReceive a0 a1 a2 a3 a4 a5) := by
  unfold execFlitReceive
  refine receiveFlit_keeps _ _ _ ?_; refine decodeFec_keeps _ _ _ ?_; assumption

theorem execManagementLinkUp_keeps {M : Part → Prop} {s0 a0 : State}  (h : Keeps M s0 a0) (k_net : ¬M .net := by assumption) : Answers M s0 (execManagementLinkUp a0) := by
  unfold execManagementLinkUp
  with_reducible apply Answers.done; refine Keeps.ite (fun _ => ?_) (fun _ => ?_); refine modNet_keeps _ ?_; assumption; assumption

theorem execEthernetPortDown_keeps {M : Part → Prop} {s0 a1 : State} (a0) (h : Keeps M s0 a1) (k_net : ¬M .net := by assumption) : Answers M s0 (execEthernetPortDown a0 a1) := by
  unfold execEthernetPortDown
  with_reducible apply Answers.done; refine Keeps.ite (fun _ => ?_) (fun _ => ?_); refine modLink_keeps _ _ ?_; assumption; assumption

theorem execLaneControlFrame_keeps {M : Part → Prop} {s0 a3 : State} (a0) (a1) (a2) (h : Keeps M s0 a3) (k_led : ¬M .led := by assumption) (k_ctr : ¬M .ctr := by assumption) (k_net : ¬M .net := by assumption) : Answers M s0 (execLaneControlFrame a0 a1 a2 a3) := by
  unfold execLaneControlFrame
  with_reducible apply Answers.done; refine Keeps.ite (fun _ => ?_) (fun _ => ?_); assumption
  refine Keeps.ite (fun _ => ?_) (fun _ => ?_); refine modLink_keeps _ _ ?_; assumption; refine Keeps.ite (fun _ => ?_) (fun _ => ?_)
  refine Keeps.ite (fun _ => ?_) (fun _ => ?_); refine linkDown_keeps _ ?_; refine modLink_keeps _ _ ?_; assumption
  refine modLink_keeps _ _ ?_; assumption; assumption

theorem execManagementLinkDown_keeps {M : Part → Prop} {s0 a0 : State}  (h : Keeps M s0 a0) (k_net : ¬M .net := by assumption) : Answers M s0 (execManagementLinkDown a0) := by
  unfold execManagementLinkDown
  with_reducible apply Answers.done; refine modNet_keeps _ ?_; assumption

theorem execAutoNegotiationDone_keeps {M : Part → Prop} {s0 a1 : State} (a0) (h : Keeps M s0 a1) (k_net : ¬M .net := by assumption) : Answers M s0 (execAutoNegotiationDone a0 a1) := by
  unfold execAutoNegotiationDone
  with_reducible apply Answers.done; refine Keeps.ite (fun _ => ?_) (fun _ => ?_); refine modLink_keeps _ _ ?_; assumption; assumption

theorem retrain_keeps {M : Part → Prop} {s0 a1 : State} (a0) (h : Keeps M s0 a1) (k_net : ¬M .net := by assumption) : Keeps M s0 (retrain a0 a1) := by
  unfold retrain
  refine modLink_keeps _ _ ?_; assumption

theorem laneLost_keeps {M : Part → Prop} {s0 a2 : State} (a0) (a1) (h : Keeps M s0 a2) (k_led : ¬M .led := by assumption) (k_ctr : ¬M .ctr := by assumption) (k_net : ¬M .net := by assumption) : Keeps M s0 (laneLost a0 a1 a2) := by
  unfold laneLost
  (with_reducible refine Keeps.letAny (fun x hx => ?_); subst hx); refine Keeps.ite (fun _ => ?_) (fun _ => ?_); assumption
  (with_reducible refine Keeps.letAny (fun x hx => ?_); subst hx); refine Keeps.ite (fun _ => ?_) (fun _ => ?_)
  refine linkDown_keeps _ ?_; refine modLink_keeps _ _ ?_; refine count_keeps _ _ _ ?_; refine event_keeps _ _ _ ?_; assumption
  (with_reducible refine Keeps.letAny (fun x hx => ?_); subst hx); refine modLink_keeps _ _ ?_; refine modLink_keeps _ _ ?_
  refine count_keeps _ _ _ ?_; refine event_keeps _ _ _ ?_; assumption

theorem sendFrame_keeps {M : Part → Prop} {s0 a4 : State} (a0) (a1) (a2) (a3) (h : Keeps M s0 a4) (k_out : ¬M .out := by assumption) (k_net : ¬M .net := by assumption) : Keeps M s0 (sendFrame a0 a1 a2 a3 a4) := by
  unfold sendFrame
  (with_reducible refine Keeps.letAny (fun x hx => ?_); subst hx); refine emit_keeps _ ?_; refine modLink_keeps _ _ ?_; assumption

theorem sendUp_keeps {M : Part → Prop} {s0 a3 : State} (a0) (a1) (a2) (h : Keeps M s0 a3) (k_out : ¬M .out := by assumption) (k_net : ¬M .net := by assumption) : Keeps M s0 (sendUp a0 a1 a2 a3) := by
  unfold sendUp
  refine Keeps.ite (fun _ => ?_) (fun _ => ?_); refine sendFrame_keeps _ _ _ _ ?_; assumption; assumption

theorem sendProbe_keeps {M : Part → Prop} {s0 a1 : State} (a0) (h : Keeps M s0 a1) (k_out : ¬M .out := by assumption) (k_beat : ¬M .beat := by assumption) (k_net : ¬M .net := by assumption) : Keeps M s0 (sendProbe a0 a1) := by
  unfold sendProbe
  refine sendUp_keeps _ _ _ ?_; refine Keeps.ite (fun _ => ?_) (fun _ => ?_); refine modBeat_keeps _ ?_ ?_; intros
  with_reducible assumption; assumption; assumption

theorem execLinkRetrain_keeps {M : Part → Prop} {s0 a1 : State} (a0) (h : Keeps M s0 a1) (k_net : ¬M .net := by assumption) : Answers M s0 (execLinkRetrain a0 a1) := by
  unfold execLinkRetrain
  with_reducible apply Answers.done; refine Keeps.ite (fun _ => ?_) (fun _ => ?_); refine modLink_keeps _ _ ?_; assumption; assumption

theorem execRetryRequest_keeps {M : Part → Prop} {s0 a2 : State} (a0) (a1) (h : Keeps M s0 a2) (k_led : ¬M .led := by assumption) (k_ctr : ¬M .ctr := by assumption) (k_net : ¬M .net := by assumption) : Answers M s0 (execRetryRequest a0 a1 a2) := by
  unfold execRetryRequest
  with_reducible apply Answers.done; refine Keeps.ite (fun _ => ?_) (fun _ => ?_); refine resendFrom_keeps _ _ ?_; assumption
  assumption

theorem execLinkUp_keeps {M : Part → Prop} {s0 a1 : State} (a0) (h : Keeps M s0 a1) (k_out : ¬M .out := by assumption) (k_net : ¬M .net := by assumption) : Answers M s0 (execLinkUp a0 a1) := by
  unfold execLinkUp
  with_reducible apply Answers.done; refine Keeps.ite (fun _ => ?_) (fun _ => ?_)
  with_reducible refine Keeps.letIn ?_ (fun s hs => ?_); refine modLink_keeps _ _ ?_; assumption; refine sendFrame_keeps _ _ _ _ ?_
  assumption; assumption

theorem execLaneFail_keeps {M : Part → Prop} {s0 a2 : State} (a0) (a1) (h : Keeps M s0 a2) (k_out : ¬M .out := by assumption) (k_led : ¬M .led := by assumption) (k_ctr : ¬M .ctr := by assumption) (k_net : ¬M .net := by assumption) : Answers M s0 (execLaneFail a0 a1 a2) := by
  unfold execLaneFail
  with_reducible apply Answers.done; with_reducible refine Keeps.letIn ?_ (fun s hs => ?_); refine laneLost_keeps _ _ ?_; assumption
  refine Keeps.ite (fun _ => ?_) (fun _ => ?_); refine sendUp_keeps _ _ _ ?_; refine laneLost_keeps _ _ ?_; assumption; assumption

theorem execSpareLaneTrained_keeps {M : Part → Prop} {s0 a1 : State} (a0) (h : Keeps M s0 a1) (k_net : ¬M .net := by assumption) : Answers M s0 (execSpareLaneTrained a0 a1) := by
  unfold execSpareLaneTrained
  with_reducible apply Answers.done; refine Keeps.ite (fun _ => ?_) (fun _ => ?_); refine modLink_keeps _ _ ?_; assumption; assumption

theorem execSpareLaneJoin_keeps {M : Part → Prop} {s0 a1 : State} (a0) (h : Keeps M s0 a1) (k_out : ¬M .out := by assumption) (k_net : ¬M .net := by assumption) : Answers M s0 (execSpareLaneJoin a0 a1) := by
  unfold execSpareLaneJoin
  with_reducible apply Answers.done; refine Keeps.ite (fun _ => ?_) (fun _ => ?_); refine sendUp_keeps _ _ _ ?_
  refine modLink_keeps _ _ ?_; assumption; assumption

theorem sendIdle_keeps {M : Part → Prop} {s0 a1 : State} (a0) (h : Keeps M s0 a1) (k_out : ¬M .out := by assumption) (k_net : ¬M .net := by assumption) : Keeps M s0 (sendIdle a0 a1) := by
  unfold sendIdle
  (with_reducible refine Keeps.letAny (fun x hx => ?_); subst hx); refine emit_keeps _ ?_; refine modLink_keeps _ _ ?_; assumption

theorem execFlitSend_keeps {M : Part → Prop} {s0 a2 : State} (a0) (a1) (h : Keeps M s0 a2) (k_out : ¬M .out := by assumption) (k_ctr : ¬M .ctr := by assumption) (k_net : ¬M .net := by assumption) : Answers M s0 (execFlitSend a0 a1 a2) := by
  unfold execFlitSend
  (with_reducible refine Answers.letAny (fun x hx => ?_); subst hx); with_reducible refine Answers.ite (fun hc => ?_) (fun hc => ?_)
  with_reducible apply Answers.done; assumption; split; split; with_reducible apply Answers.done; refine modLink_keeps _ _ ?_
  assumption; (with_reducible refine Answers.letAny (fun x hx => ?_); subst hx); with_reducible apply Answers.done
  refine count_keeps _ _ _ ?_; refine emit_keeps _ ?_; refine modLink_keeps _ _ ?_; assumption
  with_reducible refine Answers.ite (fun hc => ?_) (fun hc => ?_); with_reducible apply Answers.done; refine sendIdle_keeps _ ?_
  assumption; split; with_reducible apply Answers.done; refine putFlit_keeps _ _ ?_; refine modLink_keeps _ _ ?_; assumption; split
  with_reducible apply Answers.done; refine sendIdle_keeps _ ?_; assumption
  with_reducible refine Answers.ite (fun hc => ?_) (fun hc => ?_); with_reducible apply Answers.done; refine sendIdle_keeps _ ?_
  assumption; with_reducible refine Answers.ite (fun hc => ?_) (fun hc => ?_); with_reducible apply Answers.done
  refine sendIdle_keeps _ ?_; refine count_keeps _ _ _ ?_; assumption; with_reducible apply Answers.done; refine putFlit_keeps _ _ ?_
  refine modLink_keeps _ _ ?_; assumption

theorem execManagementEchoRequest_keeps {M : Part → Prop} {s0 a2 : State} (a0) (a1) (h : Keeps M s0 a2) (k_out : ¬M .out := by assumption) : Answers M s0 (execManagementEchoRequest a0 a1 a2) := by
  unfold execManagementEchoRequest
  with_reducible apply Answers.done; refine Keeps.ite (fun _ => ?_) (fun _ => ?_); refine emit_keeps _ ?_; assumption; assumption

theorem setPortMode_keeps {M : Part → Prop} {s0 a2 : State} (a0) (a1) (h : Keeps M s0 a2) (k_net : ¬M .net := by assumption) : Keeps M s0 (setPortMode a0 a1 a2) := by
  unfold setPortMode
  (with_reducible refine Keeps.letAny (fun x hx => ?_); subst hx); refine modLink_keeps _ _ ?_; assumption

theorem enableLink_keeps {M : Part → Prop} {s0 a2 : State} (a0) (a1) (h : Keeps M s0 a2) (k_net : ¬M .net := by assumption) : Keeps M s0 (enableLink a0 a1 a2) := by
  unfold enableLink
  refine Keeps.ite (fun _ => ?_) (fun _ => ?_); refine modLink_keeps _ _ ?_; assumption; refine Keeps.ite (fun _ => ?_) (fun _ => ?_)
  assumption; refine Keeps.ite (fun _ => ?_) (fun _ => ?_); refine retrain_keeps _ ?_; assumption; refine setPortMode_keeps _ _ ?_
  assumption

theorem execIdentityFrame_keeps {M : Part → Prop} {s0 a3 : State} (a0) (a1) (a2) (h : Keeps M s0 a3) (k_out : ¬M .out := by assumption) (k_led : ¬M .led := by assumption) (k_ctr : ¬M .ctr := by assumption) (k_beat : ¬M .beat := by assumption) (k_net : ¬M .net := by assumption) : Answers M s0 (execIdentityFrame a0 a1 a2 a3) := by
  unfold execIdentityFrame
  with_reducible apply Answers.done; refine Keeps.ite (fun _ => ?_) (fun _ => ?_); assumption
  (with_reducible refine Keeps.letAny (fun x hx => ?_); subst hx); refine sendProbe_keeps _ ?_
  refine Keeps.ite (fun _ => ?_) (fun _ => ?_); refine event_keeps _ _ _ ?_; refine Keeps.ite (fun _ => ?_) (fun _ => ?_)
  refine event_keeps _ _ _ ?_; refine modLink_keeps _ _ ?_; assumption; refine modLink_keeps _ _ ?_; assumption
  refine Keeps.ite (fun _ => ?_) (fun _ => ?_); refine event_keeps _ _ _ ?_; refine modLink_keeps _ _ ?_; assumption
  refine modLink_keeps _ _ ?_; assumption

theorem execDigestFrame_keeps {M : Part → Prop} {s0 a3 : State} (a0) (a1) (a2) (h : Keeps M s0 a3) (k_led : ¬M .led := by assumption) (k_ctr : ¬M .ctr := by assumption) (k_net : ¬M .net := by assumption) : Answers M s0 (execDigestFrame a0 a1 a2 a3) := by
  unfold execDigestFrame
  with_reducible apply Answers.done; refine Keeps.ite (fun _ => ?_) (fun _ => ?_); assumption; split; assumption
  refine Keeps.ite (fun _ => ?_) (fun _ => ?_); refine modNet_keeps _ ?_; assumption; refine event_keeps _ _ _ ?_
  refine count_keeps _ _ _ ?_; refine modNet_keeps _ ?_; assumption

end Sys2Proof.Machine
end

