-- ==== Sys2Proof/Laws/KeepsNotify.lean ====
section
/-! SUPPORT. The queue and the invariant are kept by the operations of Machine/Notify.lean. -/

set_option Elab.async false

namespace Sys2Proof.Machine

theorem signal_keeps {M : Part → Prop} {s0 a2 : State} (a0) (a1) (h : Keeps M s0 a2) (k_out : ¬M .out := by assumption) (k_host : ¬M .host := by assumption) : Keeps M s0 (signal a0 a1 a2) := by
  unfold signal
  (with_reducible refine Keeps.letAny (fun x hx => ?_); subst hx); refine Keeps.ite (fun _ => ?_) (fun _ => ?_); refine emit_keeps _ ?_
  assumption; refine modHost_keeps _ ?_; assumption

theorem setAdmission_keeps {M : Part → Prop} {s0 a2 : State} (a0) (a1) (h : Keeps M s0 a2) (k_out : ¬M .out := by assumption) (k_admissions : ¬M .admissions := by assumption) (k_host : ¬M .host := by assumption) : Keeps M s0 (setAdmission a0 a1 a2) := by
  unfold setAdmission
  (with_reducible refine Keeps.letAny (fun x hx => ?_); subst hx); refine Keeps.ite (fun _ => ?_) (fun _ => ?_)
  refine signal_keeps _ _ ?_; refine modAdmission_keeps _ _ ?_; assumption; refine modAdmission_keeps _ _ ?_; assumption

theorem pendVoid_keeps {M : Part → Prop} {s0 a3 : State} (a0) (a1) (a2) (h : Keeps M s0 a3) (k_slots : ¬M .slots := by assumption) : Keeps M s0 (pendVoid a0 a1 a2 a3) := by
  unfold pendVoid
  refine modTrain_keeps _ _ ?_; assumption

theorem setTrainState_keeps {M : Part → Prop} {s0 a2 : State} (a0) (a1) (h : Keeps M s0 a2) (k_out : ¬M .out := by assumption) (k_slots : ¬M .slots := by assumption) (k_host : ¬M .host := by assumption) : Keeps M s0 (setTrainState a0 a1 a2) := by
  unfold setTrainState
  refine Keeps.ite (fun _ => ?_) (fun _ => ?_); assumption; refine signal_keeps _ _ ?_; refine modTrain_keeps _ _ ?_; assumption

theorem setBootStatus_keeps {M : Part → Prop} {s0 a1 : State} (a0) (h : Keeps M s0 a1) (k_out : ¬M .out := by assumption) (k_host : ¬M .host := by assumption) : Keeps M s0 (setBootStatus a0 a1) := by
  unfold setBootStatus
  refine Keeps.ite (fun _ => ?_) (fun _ => ?_); assumption; refine signal_keeps _ _ ?_; refine modHost_keeps _ ?_; assumption

theorem execMsixUnmask_keeps {M : Part → Prop} {s0 a2 : State} (a0) (a1) (h : Keeps M s0 a2) (k_out : ¬M .out := by assumption) (k_host : ¬M .host := by assumption) : Answers M s0 (execMsixUnmask a0 a1 a2) := by
  unfold execMsixUnmask
  (with_reducible refine Answers.letAny (fun x hx => ?_); subst hx); with_reducible apply Answers.done
  refine Keeps.ite (fun _ => ?_) (fun _ => ?_); with_reducible refine Keeps.letIn ?_ (fun s hs => ?_); refine modHost_keeps _ ?_
  assumption; refine Keeps.ite (fun _ => ?_) (fun _ => ?_); refine emit_keeps _ ?_; refine modHost_keeps _ ?_; assumption; assumption
  assumption

theorem supplySignal_keeps {M : Part → Prop} {s0 a1 : State} (a0) (h : Keeps M s0 a1) (_h0 : Keeps M s0 a0) (k_out : ¬M .out := by assumption) (k_host : ¬M .host := by assumption) : Keeps M s0 (supplySignal a0 a1) := by
  unfold supplySignal
  refine Keeps.ite (fun _ => ?_) (fun _ => ?_); refine signal_keeps _ _ ?_; assumption; assumption

end Sys2Proof.Machine
end

