-- ==== Sys2Proof/Laws/KeepsTiling.lean ====
section
/-! SUPPORT. The queue and the invariant are kept by the operations of Machine/Tiling.lean. -/

set_option Elab.async false

namespace Sys2Proof.Machine

theorem computePass_keeps {M : Part → Prop} {s0 s : State} (array n r m a bT i j p u) (h : Keeps M s0 s) (k_ctr : ¬M .ctr := by assumption) (k_arrays : ¬M .arrays := by assumption) : Keeps M s0 (computePass array n r m a bT i j p u s) := by
  have ha : ∀ i n {s}, Keeps M s0 s → Keeps M s0 (if n = 0 then s else count i array n s) :=
    fun i n {s} hs => Keeps.ite (fun _ => hs) (fun _ => count_keeps _ _ _ hs)
  have hx : ∀ (res : List ((Nat × Nat) × Word × Word × Nat)) (b : Bool), (if b then arrayOf s array else
      res.foldl (fun x e => acmPut m.slot e.1.1 e.1.2 e.2.2.1 x) (arrayOf s array)).tbf = (arrayOf s array).tbf := by
    intro res b; cases b
    · show (List.foldl _ _ _ : ArrayState).tbf = _
      rw [foldl_tbf]; intros; rfl
    · rfl
  unfold computePass
  exact ha _ _ (ha _ _ (ha _ _ (ha _ _ (ha _ _ (ha _ _ (h.setTbf _ (hx _ _)))))))

theorem placeWindows_keeps {M : Part → Prop} {s0 a4 : State} (a0) (a1) (a2) (a3) (h : Keeps M s0 a4) (k_arrays : ¬M .arrays := by assumption) (k_engines : ¬M .engines := by assumption) : Keeps M s0 (placeWindows a0 a1 a2 a3 a4) := by
  unfold placeWindows
  with_reducible refine Keeps.foldl (fun s x hs => ?_) _ ?_; split; refine Keeps.ite (fun _ => ?_) (fun _ => ?_)
  (with_reducible refine Keeps.letAny (fun x hx => ?_); subst hx); refine enqueue_keeps _ _ _ _ _ _ ?_; refine modArray_keeps _ _ ?_ ?_
  intros; simp_all only
  (first | exact wf_storeBytes _ _ _ (by assumption) | exact wf_clearBytes _ _ _ (by assumption) | (split <;> assumption) | simp_all)
  assumption; assumption; assumption; assumption

theorem computeStep_keeps {M : Part → Prop} {s0 a6 : State} (a0) (a1) (a2) (a3) (a4) (a5) (h : Keeps M s0 a6) (k_ctr : ¬M .ctr := by assumption) (k_arrays : ¬M .arrays := by assumption) : Keeps M s0 (computeStep a0 a1 a2 a3 a4 a5 a6) := by
  unfold computeStep
  (with_reducible refine Keeps.letAny (fun x hx => ?_); subst hx); refine Keeps.ite (fun _ => ?_) (fun _ => ?_)
  refine count_keeps _ _ _ ?_; refine Keeps.ite (fun _ => ?_) (fun _ => ?_); refine count_keeps _ _ _ ?_
  refine modArray_keeps _ _ ?_ ?_; intros; with_reducible assumption; with_reducible refine Keeps.foldl (fun s x hs => ?_) _ ?_
  refine computePass_keeps _ _ _ _ _ _ _ _ _ _ ?_; assumption; assumption; refine modArray_keeps _ _ ?_ ?_; intros
  with_reducible assumption; with_reducible refine Keeps.foldl (fun s x hs => ?_) _ ?_; refine computePass_keeps _ _ _ _ _ _ _ _ _ _ ?_
  assumption; assumption; refine modArray_keeps _ _ ?_ ?_; intros; with_reducible assumption
  with_reducible refine Keeps.foldl (fun s x hs => ?_) _ ?_; refine computePass_keeps _ _ _ _ _ _ _ _ _ _ ?_; assumption; assumption

theorem runStep_keeps {M : Part → Prop} {s0 a5 : State} (a0) (a1) (a2) (a3) (a4) (h : Keeps M s0 a5) (k_fresh : ¬M .fresh := by assumption) (k_led : ¬M .led := by assumption) (k_ctr : ¬M .ctr := by assumption) (k_slots : ¬M .slots := by assumption) (k_arrays : ¬M .arrays := by assumption) (k_mem : ¬M .mem := by assumption) (k_engines : ¬M .engines := by assumption) : Keeps M s0 (runStep a0 a1 a2 a3 a4 a5) := by
  unfold runStep
  (with_reducible refine Keeps.letAny (fun x hx => ?_); subst hx); refine Keeps.ite (fun _ => ?_) (fun _ => ?_)
  refine placeWindows_keeps _ _ _ _ ?_; assumption; refine Keeps.ite (fun _ => ?_) (fun _ => ?_)
  (with_reducible refine Keeps.letAny (fun x hx => ?_); subst hx); split; refine consumeAll_keeps _ ?_; assumption
  refine failTag_keeps _ _ _ ?_; refine leaveFlight_keeps _ _ _ _ ?_; refine abandonMmo_keeps _ _ ?_; refine consumeAll_keeps _ ?_
  assumption; (with_reducible refine Keeps.letAny (fun x hx => ?_); subst hx); refine Keeps.ite (fun _ => ?_) (fun _ => ?_); split
  refine placeWindows_keeps _ _ _ _ ?_; refine computeStep_keeps _ _ _ _ _ _ ?_; refine Keeps.ite (fun _ => ?_) (fun _ => ?_)
  refine consumeAll_keeps _ ?_; assumption; refine count_keeps _ _ _ ?_; refine consumeAll_keeps _ ?_; assumption
  refine computeStep_keeps _ _ _ _ _ _ ?_; refine Keeps.ite (fun _ => ?_) (fun _ => ?_); refine consumeAll_keeps _ ?_; assumption
  refine count_keeps _ _ _ ?_; refine consumeAll_keeps _ ?_; assumption; refine computeStep_keeps _ _ _ _ _ _ ?_
  refine Keeps.ite (fun _ => ?_) (fun _ => ?_); refine consumeAll_keeps _ ?_; assumption; refine count_keeps _ _ _ ?_
  refine consumeAll_keeps _ ?_; assumption; assumption

theorem drainedTile_keeps {M : Part → Prop} {s0 a6 : State} (a0) (a1) (a2) (a3) (a4) (a5) (h : Keeps M s0 a6) (k_ctr : ¬M .ctr := by assumption) (k_arrays : ¬M .arrays := by assumption) : Keeps M s0 (drainedTile a0 a1 a2 a3 a4 a5 a6) := by
  unfold drainedTile
  (with_reducible refine Keeps.letAny (fun x hx => ?_); subst hx); refine modArray_keeps _ _ ?_ ?_; intros; with_reducible assumption
  refine Keeps.ite (fun _ => ?_) (fun _ => ?_); refine count_keeps _ _ _ ?_; assumption; assumption

theorem storeTile_keeps {M : Part → Prop} {s0 a6 : State} (a0) (a1) (a2) (a3) (a4) (a5) (h : Keeps M s0 a6) (k_fresh : ¬M .fresh := by assumption) (k_out : ¬M .out := by assumption) (k_led : ¬M .led := by assumption) (k_ctr : ¬M .ctr := by assumption) (k_slots : ¬M .slots := by assumption) (k_arrays : ¬M .arrays := by assumption) (k_mem : ¬M .mem := by assumption) (k_engines : ¬M .engines := by assumption) (k_flash : ¬M .flash := by assumption) (k_secures : ¬M .secures := by assumption) : Keeps M s0 (storeTile a0 a1 a2 a3 a4 a5 a6).1 := by
  unfold storeTile
  (with_reducible refine Keeps.letAnyFst (fun x hx => ?_); subst hx); with_reducible refine Keeps.iteFst (fun hc => ?_) (fun hc => ?_)
  dsimp only; refine saggarHit_keeps _ _ ?_; assumption; (with_reducible refine Keeps.letAnyFst (fun x hx => ?_); subst hx)
  with_reducible refine Keeps.iteFst (fun hc => ?_) (fun hc => ?_); dsimp only; refine failTag_keeps _ _ _ ?_
  refine leaveFlight_keeps _ _ _ _ ?_; refine abandonMmo_keeps _ _ ?_; assumption
  (with_reducible refine Keeps.letAnyFst (fun x hx => ?_); subst hx); with_reducible refine Keeps.iteFst (fun hc => ?_) (fun hc => ?_)
  dsimp only; refine failTag_keeps _ _ _ ?_; refine leaveFlight_keeps _ _ _ _ ?_; refine abandonMmo_keeps _ _ ?_
  refine admitStore_keeps _ _ _ ?_; assumption; (with_reducible refine Keeps.letAnyFst (fun x hx => ?_); subst hx)
  with_reducible refine Keeps.iteFst (fun hc => ?_) (fun hc => ?_); dsimp only
  with_reducible refine Keeps.iteFst (fun hc => ?_) (fun hc => ?_); refine accessPages_keeps _ _ ?_; refine admitStore_keeps _ _ _ ?_
  assumption; dsimp only; refine admitStore_keeps _ _ _ ?_; assumption
  (with_reducible refine Keeps.letAnyFst (fun x hx => ?_); subst hx); dsimp only; refine Keeps.ite (fun _ => ?_) (fun _ => ?_)
  with_reducible refine Keeps.foldl (fun s x hs => ?_) _ ?_; refine raiseGeneration_keeps _ _ ?_; assumption
  with_reducible refine Keeps.foldl (fun s x hs => ?_) _ ?_; refine applyWrite_keeps _ _ _ ?_; assumption
  with_reducible refine Keeps.foldl (fun s x hs => ?_) _ ?_; refine Keeps.ite (fun _ => ?_) (fun _ => ?_)
  refine settlePage_keeps _ _ ?_; assumption; assumption; with_reducible refine Keeps.iteFst (fun hc => ?_) (fun hc => ?_)
  refine accessPages_keeps _ _ ?_; refine admitStore_keeps _ _ _ ?_; assumption; dsimp only; refine admitStore_keeps _ _ _ ?_
  assumption; refine count_keeps _ _ _ ?_; with_reducible refine Keeps.foldl (fun s x hs => ?_) _ ?_
  refine raiseGeneration_keeps _ _ ?_; assumption; with_reducible refine Keeps.foldl (fun s x hs => ?_) _ ?_
  refine applyWrite_keeps _ _ _ ?_; assumption; with_reducible refine Keeps.foldl (fun s x hs => ?_) _ ?_
  refine Keeps.ite (fun _ => ?_) (fun _ => ?_); refine settlePage_keeps _ _ ?_; assumption; assumption
  with_reducible refine Keeps.iteFst (fun hc => ?_) (fun hc => ?_); refine accessPages_keeps _ _ ?_; refine admitStore_keeps _ _ _ ?_
  assumption; dsimp only; refine admitStore_keeps _ _ _ ?_; assumption

theorem deliverTile_keeps {M : Part → Prop} {s0 a7 : State} (a0) (a1) (a2) (a3) (a4) (a5) (a6) (h : Keeps M s0 a7) (k_fresh : ¬M .fresh := by assumption) (k_out : ¬M .out := by assumption) (k_led : ¬M .led := by assumption) (k_ctr : ¬M .ctr := by assumption) (k_slots : ¬M .slots := by assumption) (k_arrays : ¬M .arrays := by assumption) (k_mem : ¬M .mem := by assumption) (k_engines : ¬M .engines := by assumption) (k_flash : ¬M .flash := by assumption) (k_secures : ¬M .secures := by assumption) : Keeps M s0 (deliverTile a0 a1 a2 a3 a4 a5 a6 a7) := by
  unfold deliverTile
  (with_reducible refine Keeps.letAny (fun x hx => ?_); subst hx); split; split; refine drainedTile_keeps _ _ _ _ _ _ ?_
  dsimp -zeta only; refine Keeps.ite (fun _ => ?_) (fun _ => ?_); assumption; refine count_keeps _ _ _ ?_; assumption
  (with_reducible refine Keeps.letAny (fun x hx => ?_); subst hx); refine drainedTile_keeps _ _ _ _ _ _ ?_
  refine sendReserved_keeps _ _ _ _ _ _ ?_; dsimp -zeta only; refine modArray_keeps _ _ ?_ ?_; intros; simp_all only
  (first | exact wf_storeBytes _ _ _ (by assumption) | exact wf_clearBytes _ _ _ (by assumption) | (split <;> assumption) | simp_all)
  refine Keeps.ite (fun _ => ?_) (fun _ => ?_); assumption; refine count_keeps _ _ _ ?_; assumption
  (with_reducible refine Keeps.letAny (fun x hx => ?_); subst hx); refine drainedTile_keeps _ _ _ _ _ _ ?_
  with_reducible refine Keeps.foldl (fun s x hs => ?_) _ ?_; (with_reducible refine Keeps.letAny (fun x hx => ?_); subst hx)
  refine Keeps.ite (fun _ => ?_) (fun _ => ?_); dsimp -zeta only; refine modArray_keeps _ _ ?_ ?_; intros; simp_all only
  (first | exact wf_storeBytes _ _ _ (by assumption) | exact wf_clearBytes _ _ _ (by assumption) | (split <;> assumption) | simp_all)
  assumption; dsimp -zeta only; refine modArray_keeps _ _ ?_ ?_; intros; simp_all only
  (first | exact wf_storeBytes _ _ _ (by assumption) | exact wf_clearBytes _ _ _ (by assumption) | (split <;> assumption) | simp_all)
  refine modArray_keeps _ _ ?_ ?_; intros; simp_all only
  (first | exact wf_storeBytes _ _ _ (by assumption) | exact wf_clearBytes _ _ _ (by assumption) | (split <;> assumption) | simp_all)
  assumption; dsimp -zeta only; refine Keeps.ite (fun _ => ?_) (fun _ => ?_); assumption; refine count_keeps _ _ _ ?_; assumption
  split; refine drainedTile_keeps _ _ _ _ _ _ ?_; dsimp -zeta only; refine Keeps.ite (fun _ => ?_) (fun _ => ?_)
  refine Keeps.fst (by assumption) ?_; refine storeTile_keeps _ _ _ _ _ _ ?_; assumption; refine count_keeps _ _ _ ?_
  refine Keeps.fst (by assumption) ?_; refine storeTile_keeps _ _ _ _ _ _ ?_; assumption; refine Keeps.fst (by assumption) ?_
  refine storeTile_keeps _ _ _ _ _ _ ?_; assumption; refine drainedTile_keeps _ _ _ _ _ _ ?_; dsimp -zeta only
  refine Keeps.ite (fun _ => ?_) (fun _ => ?_); assumption; refine count_keeps _ _ _ ?_; assumption

theorem execTileStep_keeps {M : Part → Prop} {s0 a2 : State} (a0) (a1) (h : Keeps M s0 a2) (k_fresh : ¬M .fresh := by assumption) (k_led : ¬M .led := by assumption) (k_ctr : ¬M .ctr := by assumption) (k_slots : ¬M .slots := by assumption) (k_arrays : ¬M .arrays := by assumption) (k_mem : ¬M .mem := by assumption) (k_engines : ¬M .engines := by assumption) : Answers M s0 (execTileStep a0 a1 a2) := by
  unfold execTileStep
  with_reducible apply Answers.done; split; assumption; split; (with_reducible refine Keeps.letAny (fun x hx => ?_); subst hx)
  refine Keeps.ite (fun _ => ?_) (fun _ => ?_); assumption; refine Keeps.ite (fun _ => ?_) (fun _ => ?_); refine count_keeps _ _ _ ?_
  refine modArray_keeps _ _ ?_ ?_; intros; with_reducible assumption; assumption; refine runStep_keeps _ _ _ _ _ ?_; assumption
  assumption

theorem zeroResident_keeps {M : Part → Prop} {s0 s : State} (array r m) (h : Keeps M s0 s) (k_arrays : ¬M .arrays := by assumption) : Keeps M s0 (zeroResident array r m s) := by
  refine h.modTbf _ (fun x => ?_)
  refine foldl_tbf (fun x i => foldl_tbf (fun x j => ?_) _ _) _ _
  split
  · rfl
  · refine foldl_tbf (fun x row => foldl_tbf (fun x c => ?_) _ _) _ _
    dsimp only; split <;> rfl

theorem endMmo_keeps {M : Part → Prop} {s0 a4 : State} (a0) (a1) (a2) (a3) (h : Keeps M s0 a4) (k_slots : ¬M .slots := by assumption) (k_arrays : ¬M .arrays := by assumption) : Keeps M s0 (endMmo a0 a1 a2 a3 a4) := by
  unfold endMmo
  (with_reducible refine Keeps.letAny (fun x hx => ?_); subst hx); refine finishFlight_keeps _ _ _ _ _ ?_
  refine modArray_keeps _ _ ?_ ?_; intros; with_reducible assumption; refine writeRecord_keeps _ _ ?_
  refine Keeps.ite (fun _ => ?_) (fun _ => ?_); refine zeroResident_keeps _ _ _ ?_; refine Keeps.ite (fun _ => ?_) (fun _ => ?_); split
  assumption; (with_reducible refine Keeps.letAny (fun x hx => ?_); subst hx); refine sendReserved_keeps _ _ _ _ _ _ ?_; assumption
  assumption; refine Keeps.ite (fun _ => ?_) (fun _ => ?_); split; assumption
  (with_reducible refine Keeps.letAny (fun x hx => ?_); subst hx); refine sendReserved_keeps _ _ _ _ _ _ ?_; assumption; assumption

theorem execOutputDrain_keeps {M : Part → Prop} {s0 a2 : State} (a0) (a1) (h : Keeps M s0 a2) (k_fresh : ¬M .fresh := by assumption) (k_out : ¬M .out := by assumption) (k_led : ¬M .led := by assumption) (k_ctr : ¬M .ctr := by assumption) (k_slots : ¬M .slots := by assumption) (k_arrays : ¬M .arrays := by assumption) (k_mem : ¬M .mem := by assumption) (k_engines : ¬M .engines := by assumption) (k_flash : ¬M .flash := by assumption) (k_secures : ¬M .secures := by assumption) : Answers M s0 (execOutputDrain a0 a1 a2) := by
  unfold execOutputDrain
  with_reducible apply Answers.done; split; assumption; split; assumption
  (with_reducible refine Keeps.letAny (fun x hx => ?_); subst hx); refine Keeps.ite (fun _ => ?_) (fun _ => ?_); split
  refine deliverTile_keeps _ _ _ _ _ _ _ ?_; assumption; refine Keeps.ite (fun _ => ?_) (fun _ => ?_); refine endMmo_keeps _ _ _ _ ?_
  assumption; assumption; refine Keeps.ite (fun _ => ?_) (fun _ => ?_); refine endMmo_keeps _ _ _ _ ?_; assumption; assumption

theorem issueMmo_keeps {M : Part → Prop} {s0 a7 : State} (a0) (a1) (a2) (a3) (a4) (a5) (a6) (h : Keeps M s0 a7) (k_led : ¬M .led := by assumption) (k_ctr : ¬M .ctr := by assumption) (k_slots : ¬M .slots := by assumption) (k_arrays : ¬M .arrays := by assumption) (k_engines : ¬M .engines := by assumption) : Keeps M s0 (issueMmo a0 a1 a2 a3 a4 a5 a6 a7) := by
  unfold issueMmo
  (with_reducible refine Keeps.letAny (fun x hx => ?_); subst hx); split
  (with_reducible refine Keeps.letAny (fun x hx => ?_); subst hx); refine failTag_keeps _ _ _ ?_; refine leaveFlight_keeps _ _ _ _ ?_
  refine event_keeps _ _ _ ?_; refine count_keeps _ _ _ ?_; refine writeRecord_keeps _ _ ?_; assumption
  (with_reducible refine Keeps.letAny (fun x hx => ?_); subst hx); split; refine placeWindows_keeps _ _ _ _ ?_
  refine modArray_keeps _ _ ?_ ?_; intros; with_reducible assumption; refine Keeps.ite (fun _ => ?_) (fun _ => ?_)
  with_reducible refine Keeps.letIn ?_ (fun s hs => ?_); refine count_keeps _ _ _ ?_; refine count_keeps _ _ _ ?_; assumption
  refine Keeps.ite (fun _ => ?_) (fun _ => ?_); refine event_keeps _ _ _ ?_; refine count_keeps _ _ _ ?_; refine count_keeps _ _ _ ?_
  assumption; assumption; refine count_keeps _ _ _ ?_; assumption; refine modArray_keeps _ _ ?_ ?_; intros; with_reducible assumption
  refine Keeps.ite (fun _ => ?_) (fun _ => ?_); with_reducible refine Keeps.letIn ?_ (fun s hs => ?_); refine count_keeps _ _ _ ?_
  refine count_keeps _ _ _ ?_; assumption; refine Keeps.ite (fun _ => ?_) (fun _ => ?_); refine event_keeps _ _ _ ?_
  refine count_keeps _ _ _ ?_; refine count_keeps _ _ _ ?_; assumption; assumption; refine count_keeps _ _ _ ?_; assumption

end Sys2Proof.Machine
end

