-- ==== Sys2Proof/Laws/KeepsRules.lean ====
section
/-! SUPPORT. The queue and the invariant are kept by the operations of Machine/Rules.lean. -/

set_option Elab.async false

namespace Sys2Proof.Machine

theorem reserve_keeps {M : Part → Prop} {s0 a4 : State} (a0) (a1) (a2) (a3) (h : Keeps M s0 a4) (k_slots : ¬M .slots := by assumption) : Keeps M s0 (reserve a0 a1 a2 a3 a4) := by
  unfold reserve
  with_reducible refine Keeps.foldl (fun s x hs => ?_) _ ?_; split; refine modStream_keeps _ _ _ ?_; assumption; assumption; assumption

theorem drawAll_keeps {M : Part → Prop} {s0 : State} (slot r st kind t) (is : List OpInput) {s s' : State} {es : List Entry}
    (hd : drawAll slot r st kind t is s = some (es, s')) (h : Keeps M s0 s) (k_fab : ¬M .fab := by assumption) (k_slots : ¬M .slots := by assumption) (k_engines : ¬M .engines := by assumption) (k_net : ¬M .net := by assumption) : Keeps M s0 s' := by
  induction is generalizing s es with
  | nil => cases hd; exact h
  | cons i rest ih =>
    unfold drawAll at hd
    split at hd
    · cases hd
    · obtain ⟨⟨_, _⟩, hx, e⟩ := Option.map_eq_some_iff.mp hd
      cases e
      exact ih hx (spend_keeps _ _ _ _ h)

theorem fireKind_keeps {M : Part → Prop} {s0 s : State} (kind slot n op t) (a5 : Route → StationRec → OpEntry → List Entry → State → State)
    (hf5 : ∀ r st o es s, Keeps M s0 s → Keeps M s0 (a5 r st o es s)) (h : Keeps M s0 s) (k_led : ¬M .led := by assumption) (k_ctr : ¬M .ctr := by assumption) (k_fab : ¬M .fab := by assumption) (k_slots : ¬M .slots := by assumption) (k_mem : ¬M .mem := by assumption) (k_engines : ¬M .engines := by assumption) (k_net : ¬M .net := by assumption) : Keeps M s0 (fireKind kind slot n op t a5 s) := by
  unfold fireKind
  split; assumption; refine Keeps.ite (fun _ => ?_) (fun _ => ?_); assumption; split; assumption
  (with_reducible refine Keeps.letAny (fun x hx => ?_); subst hx); split; refine consumeAll_keeps _ ?_; assumption
  refine modStation_keeps _ _ _ ?_; refine failTag_keeps _ _ _ ?_; refine consumeAll_keeps _ ?_; assumption; split
  refine consumeAll_keeps _ ?_; assumption; (with_reducible refine Keeps.letAny (fun x hx => ?_); subst hx); apply hf5
  refine modStation_keeps _ _ _ ?_; refine reserve_keeps _ _ _ _ ?_; refine drawAll_keeps _ _ _ _ _ _ (by assumption) ?_
  refine consumeAll_keeps _ ?_; assumption

theorem execMmoIssue_keeps {M : Part → Prop} {s0 a4 : State} (a0) (a1) (a2) (a3) (h : Keeps M s0 a4) (k_led : ¬M .led := by assumption) (k_ctr : ¬M .ctr := by assumption) (k_fab : ¬M .fab := by assumption) (k_slots : ¬M .slots := by assumption) (k_arrays : ¬M .arrays := by assumption) (k_mem : ¬M .mem := by assumption) (k_engines : ¬M .engines := by assumption) (k_net : ¬M .net := by assumption) : Answers M s0 (execMmoIssue a0 a1 a2 a3 a4) := by
  unfold execMmoIssue
  with_reducible apply Answers.done; refine fireKind_keeps _ _ _ _ _ _ ?_ ?_; intros; refine issueMmo_keeps _ _ _ _ _ _ _ ?_
  assumption; assumption

end Sys2Proof.Machine
end

