-- ==== Sys2Proof/Laws/KeepsUpdate.lean ====
section
/-! SUPPORT. The queue and the invariant are kept by the operations of Machine/Update.lean. -/

set_option Elab.async false

namespace Sys2Proof.Machine

theorem nameGroup_keeps {M : Part → Prop} {s0 a2 : State} (a0) (a1) (h : Keeps M s0 a2) (k_slots : ¬M .slots := by assumption) : Keeps M s0 (nameGroup a0 a1 a2) := by
  unfold nameGroup
  refine modTrain_keeps _ _ ?_; assumption

theorem frozenTile_keeps {M : Part → Prop} {s0 a8 : State} (a0) (a1) (a2) (a3) (a4) (a5) (a6) (a7) (h : Keeps M s0 a8) (k_ctr : ¬M .ctr := by assumption) (k_slots : ¬M .slots := by assumption) : Keeps M s0 (frozenTile a0 a1 a2 a3 a4 a5 a6 a7 a8) := by
  unfold frozenTile
  split; refine Keeps.ite (fun _ => ?_) (fun _ => ?_); refine finishFlight_keeps _ _ _ _ _ ?_; assumption
  refine finishFlight_keeps _ _ _ _ _ ?_; refine count_keeps _ _ _ ?_; assumption

theorem failKiln_keeps {M : Part → Prop} {s0 a4 : State} (a0) (a1) (a2) (a3) (h : Keeps M s0 a4) (k_slots : ¬M .slots := by assumption) : Keeps M s0 (failKiln a0 a1 a2 a3 a4) := by
  unfold failKiln
  refine failTag_keeps _ _ _ ?_; refine leaveFlight_keeps _ _ _ _ ?_; assumption

theorem kilnPages_keeps {M : Part → Prop} {s0 a3 : State} (a0) (a1) (a2) (h : Keeps M s0 a3) (k_mem : ¬M .mem := by assumption) : Keeps M s0 (kilnPages a0 a1 a2 a3) := by
  unfold kilnPages
  (with_reducible refine Keeps.letAny (fun x hx => ?_); subst hx); with_reducible refine Keeps.foldl (fun s x hs => ?_) _ ?_
  refine Keeps.ite (fun _ => ?_) (fun _ => ?_); with_reducible refine Keeps.updMem ?_; assumption; refine raiseGeneration_keeps _ _ ?_
  with_reducible refine Keeps.updMem ?_; assumption; assumption

theorem updateTile_keeps {M : Part → Prop} {s0 a9 : State} (a0) (a1) (a2) (a3) (a4) (a5) (a6) (a7) (a8) (h : Keeps M s0 a9) (k_fresh : ¬M .fresh := by assumption) (k_ctr : ¬M .ctr := by assumption) (k_slots : ¬M .slots := by assumption) (k_mem : ¬M .mem := by assumption) (k_flash : ¬M .flash := by assumption) (k_secures : ¬M .secures := by assumption) : Keeps M s0 (updateTile a0 a1 a2 a3 a4 a5 a6 a7 a8 a9) := by
  unfold updateTile
  (with_reducible refine Keeps.letAny (fun x hx => ?_); subst hx); refine finishFlight_keeps _ _ _ _ _ ?_
  refine kilnPages_keeps _ _ _ ?_; refine modTrain_keeps _ _ ?_; refine Keeps.ite (fun _ => ?_) (fun _ => ?_)
  refine Keeps.ite (fun _ => ?_) (fun _ => ?_); refine count_keeps _ _ _ ?_; refine count_keeps _ _ _ ?_
  with_reducible refine Keeps.foldl (fun s x hs => ?_) _ ?_; with_reducible refine Keeps.foldl (fun s x hs => ?_) _ ?_
  refine writeData_keeps _ _ _ ?_; assumption; assumption; assumption; refine count_keeps _ _ _ ?_; refine count_keeps _ _ _ ?_
  refine count_keeps _ _ _ ?_; with_reducible refine Keeps.foldl (fun s x hs => ?_) _ ?_
  with_reducible refine Keeps.foldl (fun s x hs => ?_) _ ?_; refine writeData_keeps _ _ _ ?_; assumption; assumption; assumption
  refine count_keeps _ _ _ ?_; refine Keeps.ite (fun _ => ?_) (fun _ => ?_); refine count_keeps _ _ _ ?_; refine count_keeps _ _ _ ?_
  with_reducible refine Keeps.foldl (fun s x hs => ?_) _ ?_; with_reducible refine Keeps.foldl (fun s x hs => ?_) _ ?_
  refine writeData_keeps _ _ _ ?_; assumption; assumption; assumption; refine count_keeps _ _ _ ?_; refine count_keeps _ _ _ ?_
  refine count_keeps _ _ _ ?_; with_reducible refine Keeps.foldl (fun s x hs => ?_) _ ?_
  with_reducible refine Keeps.foldl (fun s x hs => ?_) _ ?_; refine writeData_keeps _ _ _ ?_; assumption; assumption; assumption

theorem runKiln_keeps {M : Part → Prop} {s0 a4 : State} (a0) (a1) (a2) (a3) (h : Keeps M s0 a4) (k_fresh : ¬M .fresh := by assumption) (k_ctr : ¬M .ctr := by assumption) (k_slots : ¬M .slots := by assumption) (k_mem : ¬M .mem := by assumption) (k_flash : ¬M .flash := by assumption) (k_secures : ¬M .secures := by assumption) : Keeps M s0 (runKiln a0 a1 a2 a3 a4) := by
  unfold runKiln
  split; split; split; with_reducible refine Keeps.letIn ?_ (fun s hs => ?_); refine Keeps.ite (fun _ => ?_) (fun _ => ?_)
  refine failKiln_keeps _ _ _ _ ?_; refine count_keeps _ _ _ ?_; refine nameGroup_keeps _ _ ?_; assumption
  refine Keeps.ite (fun _ => ?_) (fun _ => ?_); refine failKiln_keeps _ _ _ _ ?_; refine saggarHit_keeps _ _ ?_
  refine nameGroup_keeps _ _ ?_; assumption; refine updateTile_keeps _ _ _ _ _ _ _ _ _ ?_; refine nameGroup_keeps _ _ ?_; assumption
  refine Keeps.ite (fun _ => ?_) (fun _ => ?_); refine frozenTile_keeps _ _ _ _ _ _ _ _ ?_; refine nameGroup_keeps _ _ ?_; assumption
  assumption; assumption; assumption

theorem kilnWork_keeps {M : Part → Prop} {s0 a1 : State} (a0) (h : Keeps M s0 a1) (k_fresh : ¬M .fresh := by assumption) (k_ctr : ¬M .ctr := by assumption) (k_slots : ¬M .slots := by assumption) (k_mem : ¬M .mem := by assumption) (k_flash : ¬M .flash := by assumption) (k_secures : ¬M .secures := by assumption) : Keeps M s0 (kilnWork a0 a1) := by
  unfold kilnWork
  with_reducible refine Keeps.foldlFst (fun s x hs => ?_) _ ?_; (with_reducible refine Keeps.letAnyFst (fun x hx => ?_); subst hx)
  with_reducible refine Keeps.iteFst (fun hc => ?_) (fun hc => ?_); assumption
  with_reducible refine Keeps.iteFst (fun hc => ?_) (fun hc => ?_); dsimp only; assumption; dsimp only; refine runKiln_keeps _ _ _ _ ?_
  assumption; dsimp only; assumption

theorem closeKilnPages_keeps {M : Part → Prop} {s0 a1 : State} (a0) (h : Keeps M s0 a1) (k_mem : ¬M .mem := by assumption) : Keeps M s0 (closeKilnPages a0 a1) := by
  unfold closeKilnPages
  split; assumption; (with_reducible refine Keeps.letAny (fun x hx => ?_); subst hx)
  with_reducible refine Keeps.foldl (fun s x hs => ?_) _ ?_; refine raiseGeneration_keeps _ _ ?_; with_reducible refine Keeps.updMem ?_
  assumption; assumption

theorem checkTile_keeps {M : Part → Prop} {s0 a4 : State} (a0) (a1) (a2) (a3) (h : Keeps M s0 a4) (k_ctr : ¬M .ctr := by assumption) (k_slots : ¬M .slots := by assumption) : Keeps M s0 (checkTile a0 a1 a2 a3 a4) := by
  unfold checkTile
  split; (with_reducible refine Keeps.letAny (fun x hx => ?_); subst hx); refine Keeps.ite (fun _ => ?_) (fun _ => ?_); split
  refine failKiln_keeps _ _ _ _ ?_; refine count_keeps _ _ _ ?_; assumption; assumption; assumption

theorem execKilnUpdate_keeps {M : Part → Prop} {s0 a4 : State} (a0) (a1) (a2) (a3) (h : Keeps M s0 a4) (k_fresh : ¬M .fresh := by assumption) (k_led : ¬M .led := by assumption) (k_ctr : ¬M .ctr := by assumption) (k_fab : ¬M .fab := by assumption) (k_slots : ¬M .slots := by assumption) (k_mem : ¬M .mem := by assumption) (k_engines : ¬M .engines := by assumption) (k_flash : ¬M .flash := by assumption) (k_net : ¬M .net := by assumption) (k_secures : ¬M .secures := by assumption) : Answers M s0 (execKilnUpdate a0 a1 a2 a3 a4) := by
  unfold execKilnUpdate
  with_reducible apply Answers.done; refine fireKind_keeps _ _ _ _ _ _ ?_ ?_; intros; refine kilnWork_keeps _ ?_
  refine checkTile_keeps _ _ _ _ ?_; assumption; assumption

theorem resumeKilns_keeps {M : Part → Prop} {s0 a1 : State} (a0) (h : Keeps M s0 a1) (k_fresh : ¬M .fresh := by assumption) (k_ctr : ¬M .ctr := by assumption) (k_slots : ¬M .slots := by assumption) (k_mem : ¬M .mem := by assumption) (k_flash : ¬M .flash := by assumption) (k_secures : ¬M .secures := by assumption) : Keeps M s0 (resumeKilns a0 a1) := by
  unfold resumeKilns
  split; assumption; with_reducible refine Keeps.foldl (fun s x hs => ?_) _ ?_; refine kilnWork_keeps _ ?_; assumption; assumption

theorem execCoefficientBlockDone_keeps {M : Part → Prop} {s0 a1 : State} (a0) (h : Keeps M s0 a1) (k_fresh : ¬M .fresh := by assumption) (k_ctr : ¬M .ctr := by assumption) (k_slots : ¬M .slots := by assumption) (k_mem : ¬M .mem := by assumption) (k_flash : ¬M .flash := by assumption) (k_secures : ¬M .secures := by assumption) : Answers M s0 (execCoefficientBlockDone a0 a1) := by
  unfold execCoefficientBlockDone
  (with_reducible refine Answers.letAny (fun x hx => ?_); subst hx); with_reducible apply Answers.done
  refine Keeps.ite (fun _ => ?_) (fun _ => ?_); refine resumeKilns_keeps _ ?_; refine modTrain_keeps _ _ ?_; assumption; assumption

theorem formCoefficients_keeps {M : Part → Prop} {s0 a2 : State} (a0) (a1) (h : Keeps M s0 a2) (k_slots : ¬M .slots := by assumption) : Keeps M s0 (formCoefficients a0 a1 a2) := by
  unfold formCoefficients
  split; assumption; (with_reducible refine Keeps.letAny (fun x hx => ?_); subst hx); refine modTrain_keeps _ _ ?_; assumption

end Sys2Proof.Machine
end

