-- ==== Sys2Proof/Laws/KeepsSecuring.lean ====
section
/-! SUPPORT. The queue and the invariant are kept by the operations of Machine/Securing.lean. -/

set_option Elab.async false

namespace Sys2Proof.Machine

theorem releasePoint_keeps {M : Part → Prop} {s0 a1 : State} (a0) (h : Keeps M s0 a1) (k_secures : ¬M .secures := by assumption) : Keeps M s0 (releasePoint a0 a1) := by
  unfold releasePoint
  refine modSecure_keeps _ _ ?_; assumption

theorem keeperChanged_keeps {M : Part → Prop} {s0 a0 : State}  (h : Keeps M s0 a0) (k_secures : ¬M .secures := by assumption) : Keeps M s0 (keeperChanged a0) := by
  unfold keeperChanged
  with_reducible refine Keeps.foldl (fun s x hs => ?_) _ ?_; refine releasePoint_keeps _ ?_; assumption; assumption

theorem releaseIfDone_keeps {M : Part → Prop} {s0 a1 : State} (a0) (h : Keeps M s0 a1) (k_secures : ¬M .secures := by assumption) : Keeps M s0 (releaseIfDone a0 a1) := by
  unfold releaseIfDone
  split; refine Keeps.ite (fun _ => ?_) (fun _ => ?_); refine releasePoint_keeps _ ?_; assumption; assumption; assumption

theorem execBackgroundCopy_keeps {M : Part → Prop} {s0 a3 : State} (a0) (a1) (a2) (h : Keeps M s0 a3) (k_ctr : ¬M .ctr := by assumption) (k_mem : ¬M .mem := by assumption) (k_secures : ¬M .secures := by assumption) : Answers M s0 (execBackgroundCopy a0 a1 a2 a3) := by
  unfold execBackgroundCopy
  with_reducible apply Answers.done; split; assumption; split; assumption; with_reducible refine Keeps.letIn ?_ (fun s hs => ?_)
  refine copyHeld_keeps _ _ _ ?_; assumption; refine count_keeps _ _ _ ?_; assumption

theorem collVoid_keeps {M : Part → Prop} {s0 a1 : State} (a0) (h : Keeps M s0 a1) (k_colls : ¬M .colls := by assumption) : Keeps M s0 (collVoid a0 a1) := by
  unfold collVoid
  refine modColl_keeps _ _ ?_; assumption

theorem discardStep_keeps {M : Part → Prop} {s0 a1 : State} (a0) (h : Keeps M s0 a1) (k_fresh : ¬M .fresh := by assumption) (k_fab : ¬M .fab := by assumption) (k_slots : ¬M .slots := by assumption) (k_arrays : ¬M .arrays := by assumption) (k_mem : ¬M .mem := by assumption) (k_engines : ¬M .engines := by assumption) (k_colls : ¬M .colls := by assumption) : Keeps M s0 (discardStep a0 a1) := by
  unfold discardStep
  refine collVoid_keeps _ ?_; refine flushRoute_keeps _ ?_; refine closeKilnPages_keeps _ ?_; assumption

theorem handoverEffect_keeps {M : Part → Prop} {s0 a0 : State}  (h : Keeps M s0 a0) (k_sys : ¬M .sys := by assumption) : Keeps M s0 (handoverEffect a0).2 := by
  unfold handoverEffect
  refine checked_keeps _ _ ?_ ?_; assumption; intros; refine modSys_keeps _ ?_; assumption

theorem modPoint_keeps {M : Part → Prop} {s0 a2 : State} (a0) (a1) (h : Keeps M s0 a2) (k_secures : ¬M .secures := by assumption) : Keeps M s0 (modPoint a0 a1 a2) := by
  unfold modPoint
  refine modSecure_keeps _ _ ?_; assumption

theorem releasePages_keeps {M : Part → Prop} {s0 a2 : State} (a0) (a1) (h : Keeps M s0 a2) (k_secures : ¬M .secures := by assumption) (k_keeper : ¬M .keeper := by assumption) : Keeps M s0 (releasePages a0 a1 a2) := by
  unfold releasePages
  split; assumption; (with_reducible refine Keeps.letAny (fun x hx => ?_); subst hx); refine Keeps.ite (fun _ => ?_) (fun _ => ?_)
  refine modSecure_keeps _ _ ?_; assumption; refine modKeeper_keeps _ ?_; refine modSecure_keeps _ _ ?_; assumption

theorem dropState_keeps {M : Part → Prop} {s0 a2 : State} (a0) (a1) (h : Keeps M s0 a2) (k_secures : ¬M .secures := by assumption) : Keeps M s0 (dropState a0 a1 a2) := by
  unfold dropState
  refine Keeps.ite (fun _ => ?_) (fun _ => ?_); refine releasePoint_keeps _ ?_; assumption; refine modSecure_keeps _ _ ?_; assumption

theorem ledgerStep_keeps {M : Part → Prop} {s0 a1 : State} (a0) (h : Keeps M s0 a1) (k_led : ¬M .led := by assumption) (k_ctr : ¬M .ctr := by assumption) (k_secures : ¬M .secures := by assumption) : Keeps M s0 (ledgerStep a0 a1) := by
  unfold ledgerStep
  split; refine stepRecord_keeps _ ?_; assumption; (with_reducible refine Keeps.letAny (fun x hx => ?_); subst hx)
  refine stepRecord_keeps _ ?_; with_reducible refine Keeps.foldl (fun s x hs => ?_) _ ?_; refine event_keeps _ _ _ ?_
  refine dropState_keeps _ _ ?_; assumption; assumption

theorem endHandover_keeps {M : Part → Prop} {s0 a0 : State}  (h : Keeps M s0 a0) (k_led : ¬M .led := by assumption) (k_ctr : ¬M .ctr := by assumption) (k_sys : ¬M .sys := by assumption) : Keeps M s0 (endHandover a0) := by
  unfold endHandover
  split; (with_reducible refine Keeps.letAny (fun x hx => ?_); subst hx); refine count_keeps _ _ _ ?_; refine modSys_keeps _ ?_
  assumption; refine event_keeps _ _ _ ?_; refine modSys_keeps _ ?_; assumption

theorem takePoint_keeps {M : Part → Prop} {s0 a3 : State} (a0) (a1) (a2) (h : Keeps M s0 a3) (k_secures : ¬M .secures := by assumption) : Keeps M s0 (takePoint a0 a1 a2 a3) := by
  unfold takePoint
  (with_reducible refine Keeps.letAny (fun x hx => ?_); subst hx); refine modSecure_keeps _ _ ?_; assumption

theorem execBuddySend_keeps {M : Part → Prop} {s0 a1 : State} (a0) (h : Keeps M s0 a1) (k_ctr : ¬M .ctr := by assumption) (k_net : ¬M .net := by assumption) (k_secures : ¬M .secures := by assumption) (k_keeper : ¬M .keeper := by assumption) : Answers M s0 (execBuddySend a0 a1) := by
  unfold execBuddySend
  with_reducible apply Answers.done; split; refine Keeps.ite (fun _ => ?_) (fun _ => ?_); assumption
  (with_reducible refine Keeps.letAny (fun x hx => ?_); subst hx); split
  (with_reducible refine Keeps.letAny (fun x hx => ?_); subst hx); refine count_keeps _ _ _ ?_; refine releasePages_keeps _ _ ?_
  dsimp -zeta only; refine queueFlits_keeps _ _ _ ?_; assumption; refine Keeps.ite (fun _ => ?_) (fun _ => ?_); assumption
  refine modPoint_keeps _ _ ?_; dsimp -zeta only; refine queueFlits_keeps _ _ _ ?_; assumption; assumption

theorem putPage_keeps {M : Part → Prop} {s0 a3 : State} (a0) (a1) (a2) (h : Keeps M s0 a3) (k_mem : ¬M .mem := by assumption) (k_secures : ¬M .secures := by assumption) : Keeps M s0 (putPage a0 a1 a2 a3) := by
  unfold putPage
  with_reducible refine Keeps.letIn ?_ (fun s hs => ?_); refine Keeps.ite (fun _ => ?_) (fun _ => ?_); refine modFrame_keeps _ _ _ ?_
  refine Keeps.ite (fun _ => ?_) (fun _ => ?_)
  with_reducible refine Keeps.updCached ?_ (fun hm => by first | exact wf_storeByte _ _ _ hm | exact wf_storeBytes _ _ _ hm | exact wf_clearBytes _ _ _ hm | exact wf_copyRange _ _ _ _ hm | exact wf_storeAll _ _ (wf_clearBytes _ _ _ hm))
  refine copyOnWrite_keeps _ _ ?_; assumption
  with_reducible refine Keeps.updHome ?_ (fun hm => by first | exact wf_storeByte _ _ _ hm | exact wf_storeBytes _ _ _ hm | exact wf_storeBytes _ _ _ (wf_clearBytes _ _ _ hm) | exact wf_copyRange _ _ _ _ hm | exact wf_storeAll _ _ (wf_clearBytes _ _ _ hm))
  refine copyOnWrite_keeps _ _ ?_; assumption; refine Keeps.ite (fun _ => ?_) (fun _ => ?_)
  with_reducible refine Keeps.updCached ?_ (fun hm => by first | exact wf_storeByte _ _ _ hm | exact wf_storeBytes _ _ _ hm | exact wf_clearBytes _ _ _ hm | exact wf_copyRange _ _ _ _ hm | exact wf_storeAll _ _ (wf_clearBytes _ _ _ hm))
  refine copyOnWrite_keeps _ _ ?_; assumption
  with_reducible refine Keeps.updHome ?_ (fun hm => by first | exact wf_storeByte _ _ _ hm | exact wf_storeBytes _ _ _ hm | exact wf_storeBytes _ _ _ (wf_clearBytes _ _ _ hm) | exact wf_copyRange _ _ _ _ hm | exact wf_storeAll _ _ (wf_clearBytes _ _ _ hm))
  refine copyOnWrite_keeps _ _ ?_; assumption; refine raiseGeneration_keeps _ _ ?_; assumption

theorem execBuddyReceive_keeps {M : Part → Prop} {s0 a6 : State} (a0) (a1) (a2) (a3) (a4) (a5) (h : Keeps M s0 a6) (k_keeper : ¬M .keeper := by assumption) : Answers M s0 (execBuddyReceive a0 a1 a2 a3 a4 a5 a6) := by
  unfold execBuddyReceive
  split; with_reducible apply Answers.done; assumption; with_reducible refine Answers.ite (fun hc => ?_) (fun hc => ?_)
  with_reducible apply Answers.done; assumption; (with_reducible refine Answers.letAny (fun x hx => ?_); subst hx); split
  with_reducible apply Answers.done; refine modKeeper_keeps _ ?_; assumption; with_reducible refine Answers.letIn ?_ (fun s hs => ?_)
  refine Keeps.ite (fun _ => ?_) (fun _ => ?_); refine modKeeper_keeps _ ?_; refine modKeeper_keeps _ ?_; assumption
  refine modKeeper_keeps _ ?_; assumption; with_reducible apply Answers.done; assumption

theorem awaitNotice_keeps {M : Part → Prop} {s0 a3 : State} (a0) (a1) (a2) (h : Keeps M s0 a3) (k_secures : ¬M .secures := by assumption) : Keeps M s0 (awaitNotice a0 a1 a2 a3) := by
  unfold awaitNotice
  refine modSecure_keeps _ _ ?_; assumption

theorem voidAttempt_keeps {M : Part → Prop} {s0 a1 : State} (a0) (h : Keeps M s0 a1) (k_fresh : ¬M .fresh := by assumption) (k_fab : ¬M .fab := by assumption) (k_slots : ¬M .slots := by assumption) (k_arrays : ¬M .arrays := by assumption) (k_mem : ¬M .mem := by assumption) (k_engines : ¬M .engines := by assumption) (k_colls : ¬M .colls := by assumption) : Keeps M s0 (voidAttempt a0 a1) := by
  unfold voidAttempt
  refine modTrain_keeps _ _ ?_; refine discardStep_keeps _ ?_; assumption

theorem haltRoute_keeps {M : Part → Prop} {s0 a1 : State} (a0) (h : Keeps M s0 a1) (k_out : ¬M .out := by assumption) (k_ctr : ¬M .ctr := by assumption) (k_slots : ¬M .slots := by assumption) (k_host : ¬M .host := by assumption) : Keeps M s0 (haltRoute a0 a1) := by
  unfold haltRoute
  refine count_keeps _ _ _ ?_; refine setTrainState_keeps _ _ ?_; assumption

theorem acceptRestore_keeps {M : Part → Prop} {s0 a4 : State} (a0) (a1) (a2) (a3) (h : Keeps M s0 a4) (k_fresh : ¬M .fresh := by assumption) (k_out : ¬M .out := by assumption) (k_led : ¬M .led := by assumption) (k_ctr : ¬M .ctr := by assumption) (k_fab : ¬M .fab := by assumption) (k_slots : ¬M .slots := by assumption) (k_arrays : ¬M .arrays := by assumption) (k_mem : ¬M .mem := by assumption) (k_engines : ¬M .engines := by assumption) (k_colls : ¬M .colls := by assumption) (k_secures : ¬M .secures := by assumption) (k_host : ¬M .host := by assumption) : Keeps M s0 (acceptRestore a0 a1 a2 a3 a4) := by
  unfold acceptRestore
  (with_reducible refine Keeps.letAny (fun x hx => ?_); subst hx); split; refine haltRoute_keeps _ ?_; refine event_keeps _ _ _ ?_
  refine releasePoint_keeps _ ?_; refine voidAttempt_keeps _ ?_; assumption; with_reducible refine Keeps.letIn ?_ (fun s hs => ?_)
  refine Keeps.ite (fun _ => ?_) (fun _ => ?_); refine modSecure_keeps _ _ ?_; refine voidAttempt_keeps _ ?_; assumption
  refine releasePoint_keeps _ ?_; refine modSecure_keeps _ _ ?_; refine voidAttempt_keeps _ ?_; assumption
  refine setTrainState_keeps _ _ ?_; assumption

theorem repairVoid_keeps {M : Part → Prop} {s0 a2 : State} (a0) (a1) (h : Keeps M s0 a2) (k_fresh : ¬M .fresh := by assumption) (k_out : ¬M .out := by assumption) (k_led : ¬M .led := by assumption) (k_ctr : ¬M .ctr := by assumption) (k_fab : ¬M .fab := by assumption) (k_slots : ¬M .slots := by assumption) (k_arrays : ¬M .arrays := by assumption) (k_mem : ¬M .mem := by assumption) (k_engines : ¬M .engines := by assumption) (k_colls : ¬M .colls := by assumption) (k_secures : ¬M .secures := by assumption) (k_host : ¬M .host := by assumption) : Keeps M s0 (repairVoid a0 a1 a2) := by
  unfold repairVoid
  refine acceptRestore_keeps _ _ _ _ ?_; assumption

theorem abandonCheckpoint_keeps {M : Part → Prop} {s0 a1 : State} (a0) (h : Keeps M s0 a1) (k_led : ¬M .led := by assumption) (k_ctr : ¬M .ctr := by assumption) (k_secures : ¬M .secures := by assumption) (k_keeper : ¬M .keeper := by assumption) : Keeps M s0 (abandonCheckpoint a0 a1) := by
  unfold abandonCheckpoint
  refine releaseIfDone_keeps _ ?_; refine releasePages_keeps _ _ ?_; refine modPoint_keeps _ _ ?_; refine event_keeps _ _ _ ?_
  refine count_keeps _ _ _ ?_; assumption

theorem execFlashCheckpoint_keeps {M : Part → Prop} {s0 a1 : State} (a0) (h : Keeps M s0 a1) (k_fresh : ¬M .fresh := by assumption) (k_out : ¬M .out := by assumption) (k_led : ¬M .led := by assumption) (k_ctr : ¬M .ctr := by assumption) (k_mem : ¬M .mem := by assumption) (k_flash : ¬M .flash := by assumption) (k_secures : ¬M .secures := by assumption) (k_keeper : ¬M .keeper := by assumption) : Answers M s0 (execFlashCheckpoint a0 a1) := by
  unfold execFlashCheckpoint
  with_reducible apply Answers.done; split; refine Keeps.ite (fun _ => ?_) (fun _ => ?_); assumption; split
  refine abandonCheckpoint_keeps _ ?_; assumption; (with_reducible refine Keeps.letAny (fun x hx => ?_); subst hx)
  refine Keeps.ite (fun _ => ?_) (fun _ => ?_); refine abandonCheckpoint_keeps _ ?_
  with_reducible refine Keeps.foldlFst (fun s x hs => ?_) _ ?_; with_reducible refine Keeps.iteFst (fun hc => ?_) (fun hc => ?_)
  refine admitStore_keeps _ _ _ ?_; assumption; assumption; dsimp only; assumption
  with_reducible refine Keeps.letIn ?_ (fun s hs => ?_); with_reducible refine Keeps.letIn ?_ (fun s hs => ?_)
  refine releasePages_keeps _ _ ?_; refine modPoint_keeps _ _ ?_; refine count_keeps _ _ _ ?_; refine modSecure_keeps _ _ ?_
  refine writeData_keeps _ _ _ ?_; with_reducible refine Keeps.iteFst (fun hc => ?_) (fun hc => ?_); refine admitStore_keeps _ _ _ ?_
  with_reducible refine Keeps.foldlFst (fun s x hs => ?_) _ ?_; with_reducible refine Keeps.foldlFst (fun s x hs => ?_) _ ?_
  (with_reducible refine Keeps.letAnyFst (fun x hx => ?_); subst hx); dsimp only; refine flushPage_keeps _ _ ?_; assumption; assumption
  dsimp only; with_reducible refine Keeps.foldl (fun s x hs => ?_) _ ?_; refine writeData_keeps _ _ _ ?_; assumption
  with_reducible refine Keeps.foldlFst (fun s x hs => ?_) _ ?_; with_reducible refine Keeps.iteFst (fun hc => ?_) (fun hc => ?_)
  refine admitStore_keeps _ _ _ ?_; assumption; assumption; dsimp only; assumption
  with_reducible refine Keeps.foldlFst (fun s x hs => ?_) _ ?_; with_reducible refine Keeps.foldlFst (fun s x hs => ?_) _ ?_
  (with_reducible refine Keeps.letAnyFst (fun x hx => ?_); subst hx); dsimp only; refine flushPage_keeps _ _ ?_; assumption; assumption
  dsimp only; with_reducible refine Keeps.foldl (fun s x hs => ?_) _ ?_; refine writeData_keeps _ _ _ ?_; assumption
  with_reducible refine Keeps.foldlFst (fun s x hs => ?_) _ ?_; with_reducible refine Keeps.iteFst (fun hc => ?_) (fun hc => ?_)
  refine admitStore_keeps _ _ _ ?_; assumption; assumption; dsimp only; assumption; refine releaseIfDone_keeps _ ?_; assumption
  refine Keeps.ite (fun _ => ?_) (fun _ => ?_); refine abandonCheckpoint_keeps _ ?_
  with_reducible refine Keeps.iteFst (fun hc => ?_) (fun hc => ?_); refine admitStore_keeps _ _ _ ?_
  with_reducible refine Keeps.foldlFst (fun s x hs => ?_) _ ?_; with_reducible refine Keeps.foldlFst (fun s x hs => ?_) _ ?_
  (with_reducible refine Keeps.letAnyFst (fun x hx => ?_); subst hx); dsimp only; refine flushPage_keeps _ _ ?_; assumption; assumption
  dsimp only; with_reducible refine Keeps.foldl (fun s x hs => ?_) _ ?_; refine writeData_keeps _ _ _ ?_; assumption
  with_reducible refine Keeps.foldlFst (fun s x hs => ?_) _ ?_; with_reducible refine Keeps.iteFst (fun hc => ?_) (fun hc => ?_)
  refine admitStore_keeps _ _ _ ?_; assumption; assumption; dsimp only; assumption
  with_reducible refine Keeps.foldlFst (fun s x hs => ?_) _ ?_; with_reducible refine Keeps.foldlFst (fun s x hs => ?_) _ ?_
  (with_reducible refine Keeps.letAnyFst (fun x hx => ?_); subst hx); dsimp only; refine flushPage_keeps _ _ ?_; assumption; assumption
  dsimp only; with_reducible refine Keeps.foldl (fun s x hs => ?_) _ ?_; refine writeData_keeps _ _ _ ?_; assumption
  with_reducible refine Keeps.foldlFst (fun s x hs => ?_) _ ?_; with_reducible refine Keeps.iteFst (fun hc => ?_) (fun hc => ?_)
  refine admitStore_keeps _ _ _ ?_; assumption; assumption; dsimp only; assumption; assumption; assumption

theorem sendNotice_keeps {M : Part → Prop} {s0 s : State} (slot step attempt) (h : Keeps M s0 s) (k_beat : ¬M .beat := by assumption) : Keeps M s0 (sendNotice slot step attempt s) := by
  unfold sendNotice
  exact modBeat_keeps _ (fun b hb => by split <;> exact hb) h

theorem writeState_keeps {M : Part → Prop} {s0 a2 : State} (a0) (a1) (h : Keeps M s0 a2) (k_kilns : ¬M .kilns := by assumption) (k_mem : ¬M .mem := by assumption) (k_colls : ¬M .colls := by assumption) (k_secures : ¬M .secures := by assumption) : Keeps M s0 (writeState a0 a1 a2) := by
  unfold writeState
  (with_reducible refine Keeps.letAny (fun x hx => ?_); subst hx); with_reducible refine Keeps.upd ?_; refine modColl_keeps _ _ ?_
  with_reducible refine Keeps.foldl (fun s x hs => ?_) _ ?_; refine putPage_keeps _ _ _ ?_; assumption; assumption

theorem execRestoreStart_keeps {M : Part → Prop} {s0 a1 : State} (a0) (h : Keeps M s0 a1) (k_out : ¬M .out := by assumption) (k_led : ¬M .led := by assumption) (k_ctr : ¬M .ctr := by assumption) (k_beat : ¬M .beat := by assumption) (k_slots : ¬M .slots := by assumption) (k_kilns : ¬M .kilns := by assumption) (k_mem : ¬M .mem := by assumption) (k_colls : ¬M .colls := by assumption) (k_secures : ¬M .secures := by assumption) (k_keeper : ¬M .keeper := by assumption) (k_host : ¬M .host := by assumption) : Answers M s0 (execRestoreStart a0 a1) := by
  unfold execRestoreStart
  with_reducible apply Answers.done; split; assumption; refine Keeps.ite (fun _ => ?_) (fun _ => ?_); assumption
  (with_reducible refine Keeps.letAny (fun x hx => ?_); subst hx); split; refine haltRoute_keeps _ ?_; refine sendNotice_keeps _ _ _ ?_
  refine event_keeps _ _ _ ?_; refine modSecure_keeps _ _ ?_; assumption; refine Keeps.ite (fun _ => ?_) (fun _ => ?_)
  refine haltRoute_keeps _ ?_; refine sendNotice_keeps _ _ _ ?_; refine event_keeps _ _ _ ?_; refine modSecure_keeps _ _ ?_; assumption
  with_reducible refine Keeps.letIn ?_ (fun s hs => ?_); refine modTrain_keeps _ _ ?_; refine modSecure_keeps _ _ ?_
  refine modKeeper_keeps _ ?_; refine Keeps.ite (fun _ => ?_) (fun _ => ?_); refine releasePoint_keeps _ ?_
  refine writeState_keeps _ _ ?_; assumption; refine writeState_keeps _ _ ?_; assumption; refine count_keeps _ _ _ ?_; assumption

theorem restoreEffect_keeps {M : Part → Prop} {s0 a1 : State} (a0) (h : Keeps M s0 a1) (k_fresh : ¬M .fresh := by assumption) (k_out : ¬M .out := by assumption) (k_led : ¬M .led := by assumption) (k_ctr : ¬M .ctr := by assumption) (k_fab : ¬M .fab := by assumption) (k_slots : ¬M .slots := by assumption) (k_arrays : ¬M .arrays := by assumption) (k_mem : ¬M .mem := by assumption) (k_engines : ¬M .engines := by assumption) (k_colls : ¬M .colls := by assumption) (k_secures : ¬M .secures := by assumption) (k_host : ¬M .host := by assumption) : Keeps M s0 (restoreEffect a0 a1).2 := by
  unfold restoreEffect
  (with_reducible refine Keeps.letAnySnd (fun x hx => ?_); subst hx); refine checked_keeps _ _ ?_ ?_; assumption; intros
  refine acceptRestore_keeps _ _ _ _ ?_; assumption

theorem serviceBack_keeps {M : Part → Prop} {s0 a2 : State} (a0) (a1) (h : Keeps M s0 a2) (k_led : ¬M .led := by assumption) (k_ctr : ¬M .ctr := by assumption) (k_sys : ¬M .sys := by assumption) : Keeps M s0 (serviceBack a0 a1 a2) := by
  unfold serviceBack
  with_reducible refine Keeps.letIn ?_ (fun s hs => ?_); refine endHandover_keeps ?_; refine modSys_keeps _ ?_; assumption
  refine Keeps.ite (fun _ => ?_) (fun _ => ?_); refine modSys_keeps _ ?_; assumption; assumption

theorem setImage_keeps {M : Part → Prop} {s0 a2 : State} (a0) (a1) (h : Keeps M s0 a2) (k_sys : ¬M .sys := by assumption) : Keeps M s0 (setImage a0 a1 a2) := by
  unfold setImage
  refine modSys_keeps _ ?_; assumption

theorem execBuddySlotComplete_keeps {M : Part → Prop} {s0 a1 : State} (a0) (h : Keeps M s0 a1) (k_led : ¬M .led := by assumption) (k_ctr : ¬M .ctr := by assumption) (k_secures : ¬M .secures := by assumption) : Answers M s0 (execBuddySlotComplete a0 a1) := by
  unfold execBuddySlotComplete
  with_reducible apply Answers.done; split; assumption; refine Keeps.ite (fun _ => ?_) (fun _ => ?_); assumption
  (with_reducible refine Keeps.letAny (fun x hx => ?_); subst hx); refine releaseIfDone_keeps _ ?_; refine modPoint_keeps _ _ ?_
  refine event_keeps _ _ _ ?_; refine count_keeps _ _ _ ?_; refine modSecure_keeps _ _ ?_; assumption

theorem restoreOlder_keeps {M : Part → Prop} {s0 a2 : State} (a0) (a1) (h : Keeps M s0 a2) (k_fresh : ¬M .fresh := by assumption) (k_out : ¬M .out := by assumption) (k_led : ¬M .led := by assumption) (k_ctr : ¬M .ctr := by assumption) (k_fab : ¬M .fab := by assumption) (k_slots : ¬M .slots := by assumption) (k_arrays : ¬M .arrays := by assumption) (k_mem : ¬M .mem := by assumption) (k_engines : ¬M .engines := by assumption) (k_colls : ¬M .colls := by assumption) (k_secures : ¬M .secures := by assumption) (k_host : ¬M .host := by assumption) : Keeps M s0 (restoreOlder a0 a1 a2) := by
  unfold restoreOlder
  (with_reducible refine Keeps.letAny (fun x hx => ?_); subst hx); split; refine haltRoute_keeps _ ?_; refine event_keeps _ _ _ ?_
  refine modSecure_keeps _ _ ?_; refine voidAttempt_keeps _ ?_; assumption; refine acceptRestore_keeps _ _ _ _ ?_; assumption

theorem execHandoverServiceMove_keeps {M : Part → Prop} {s0 a1 : State} (a0) (h : Keeps M s0 a1) (k_led : ¬M .led := by assumption) (k_ctr : ¬M .ctr := by assumption) (k_sys : ¬M .sys := by assumption) : Answers M s0 (execHandoverServiceMove a0 a1) := by
  unfold execHandoverServiceMove
  with_reducible apply Answers.done; refine Keeps.ite (fun _ => ?_) (fun _ => ?_); assumption; split
  refine Keeps.ite (fun _ => ?_) (fun _ => ?_); assumption; refine serviceBack_keeps _ _ ?_; assumption; split
  refine modSys_keeps _ ?_; assumption; assumption

end Sys2Proof.Machine
end

