-- ==== Sys2Proof/Laws/KeepsBeats.lean ====
section
/-! SUPPORT. The queue and the invariant are kept by the operations of Machine/Beats.lean. -/

set_option Elab.async false

namespace Sys2Proof.Machine

theorem request_keeps {M : Part → Prop} {s0 a2 : State} (a0) (a1) (h : Keeps M s0 a2) (k_ctr : ¬M .ctr := by assumption) (k_beat : ¬M .beat := by assumption) : Keeps M s0 (request a0 a1 a2) := by
  unfold request
  refine count_keeps _ _ _ ?_; refine modBeat_keeps _ ?_ ?_; intros; with_reducible assumption; assumption

theorem staleMark_keeps {M : Part → Prop} {s0 a2 : State} (a0) (a1) (h : Keeps M s0 a2) (k_led : ¬M .led := by assumption) (k_ctr : ¬M .ctr := by assumption) : Keeps M s0 (staleMark a0 a1 a2) := by
  unfold staleMark
  refine event_keeps _ _ _ ?_; assumption

theorem execLatencyProbe_keeps {M : Part → Prop} {s0 a1 : State} (a0) (h : Keeps M s0 a1) (k_out : ¬M .out := by assumption) (k_net : ¬M .net := by assumption) : Answers M s0 (execLatencyProbe a0 a1) := by
  unfold execLatencyProbe
  with_reducible apply Answers.done; refine Keeps.ite (fun _ => ?_) (fun _ => ?_); refine sendUp_keeps _ _ _ ?_; assumption; assumption

theorem execMarkUpstreamTimeout_keeps {M : Part → Prop} {s0 a0 : State}  (h : Keeps M s0 a0) (k_led : ¬M .led := by assumption) (k_ctr : ¬M .ctr := by assumption) (k_beat : ¬M .beat := by assumption) : Answers M s0 (execMarkUpstreamTimeout a0) := by
  unfold execMarkUpstreamTimeout
  with_reducible apply Answers.done; refine Keeps.ite (fun _ => ?_) (fun _ => ?_); refine event_keeps _ _ _ ?_
  refine modBeat_keeps _ ?_ ?_; intros; with_reducible assumption; assumption; assumption

theorem execBeatMasterRepeat_keeps {M : Part → Prop} {s0 a0 : State}  (h : Keeps M s0 a0) (k_led : ¬M .led := by assumption) (k_ctr : ¬M .ctr := by assumption) (k_beat : ¬M .beat := by assumption) : Answers M s0 (execBeatMasterRepeat a0) := by
  unfold execBeatMasterRepeat
  with_reducible apply Answers.done; refine Keeps.ite (fun _ => ?_) (fun _ => ?_); refine event_keeps _ _ _ ?_
  refine modBeat_keeps _ ?_ ?_; intros; with_reducible assumption; assumption; assumption

theorem sendUpReport_keeps {M : Part → Prop} {s0 a0 : State}  (h : Keeps M s0 a0) (k_out : ¬M .out := by assumption) (k_beat : ¬M .beat := by assumption) (k_net : ¬M .net := by assumption) : Keeps M s0 (sendUpReport a0) := by
  unfold sendUpReport
  (with_reducible refine Keeps.letAny (fun x hx => ?_); subst hx); refine Keeps.ite (fun _ => ?_) (fun _ => ?_); assumption
  (with_reducible refine Keeps.letAny (fun x hx => ?_); subst hx); refine Keeps.ite (fun _ => ?_) (fun _ => ?_)
  refine sendUp_keeps _ _ _ ?_; refine modBeat_keeps _ ?_ ?_; intros; with_reducible assumption; assumption; assumption

theorem follow_keeps {M : Part → Prop} {s0 s : State} (device term) (h : Keeps M s0 s) (k_beat : ¬M .beat := by assumption) : Keeps M s0 (follow device term s) := by
  unfold follow
  refine modBeat_keeps _ (fun b hb => ?_) h
  by_cases h3 : b.state = 3
  · simp [h3]
  · simp only [h3, if_false, or_false]; split <;> omega

theorem raiseAttempt_keeps {M : Part → Prop} {s0 a1 : State} (a0) (h : Keeps M s0 a1) (k_out : ¬M .out := by assumption) (k_led : ¬M .led := by assumption) (k_ctr : ¬M .ctr := by assumption) (k_slots : ¬M .slots := by assumption) (k_host : ¬M .host := by assumption) : Keeps M s0 (raiseAttempt a0 a1) := by
  unfold raiseAttempt
  (with_reducible refine Keeps.letAny (fun x hx => ?_); subst hx); refine Keeps.ite (fun _ => ?_) (fun _ => ?_)
  refine haltRoute_keeps _ ?_; refine event_keeps _ _ _ ?_; refine modTrain_keeps _ _ ?_; assumption; refine count_keeps _ _ _ ?_
  refine setTrainState_keeps _ _ ?_; refine modTrain_keeps _ _ ?_; assumption

theorem noteReplay_keeps {M : Part → Prop} {s0 a2 : State} (a0) (a1) (h : Keeps M s0 a2) (k_out : ¬M .out := by assumption) (k_led : ¬M .led := by assumption) (k_ctr : ¬M .ctr := by assumption) (k_beat : ¬M .beat := by assumption) (k_slots : ¬M .slots := by assumption) (k_host : ¬M .host := by assumption) : Keeps M s0 (noteReplay a0 a1 a2) := by
  unfold noteReplay
  (with_reducible refine Keeps.letAny (fun x hx => ?_); subst hx); refine Keeps.ite (fun _ => ?_) (fun _ => ?_)
  refine modTrain_keeps _ _ ?_; assumption; refine raiseAttempt_keeps _ ?_; refine sendNotice_keeps _ _ _ ?_
  refine count_keeps _ _ _ ?_; refine event_keeps _ _ _ ?_; assumption

theorem applyNotice_keeps {M : Part → Prop} {s0 a2 : State} (a0) (a1) (h : Keeps M s0 a2) (k_fresh : ¬M .fresh := by assumption) (k_out : ¬M .out := by assumption) (k_led : ¬M .led := by assumption) (k_ctr : ¬M .ctr := by assumption) (k_beat : ¬M .beat := by assumption) (k_slots : ¬M .slots := by assumption) (k_secures : ¬M .secures := by assumption) (k_host : ¬M .host := by assumption) : Keeps M s0 (applyNotice a0 a1 a2) := by
  unfold applyNotice
  split; assumption; (with_reducible refine Keeps.letAny (fun x hx => ?_); subst hx); refine Keeps.ite (fun _ => ?_) (fun _ => ?_)
  assumption; refine Keeps.ite (fun _ => ?_) (fun _ => ?_); refine modSecure_keeps _ _ ?_; assumption
  refine Keeps.ite (fun _ => ?_) (fun _ => ?_); refine draw_keeps ?_; refine pendVoid_keeps _ _ _ ?_; assumption
  refine Keeps.ite (fun _ => ?_) (fun _ => ?_); assumption; refine Keeps.ite (fun _ => ?_) (fun _ => ?_); refine draw_keeps ?_
  refine pendVoid_keeps _ _ _ ?_; assumption; refine Keeps.ite (fun _ => ?_) (fun _ => ?_); refine noteReplay_keeps _ _ ?_; assumption
  assumption

theorem useMark_keeps {M : Part → Prop} {s0 s : State} (link count device elapsed add start term ns) (h : Keeps M s0 s) (k_fresh : ¬M .fresh := by assumption) (k_out : ¬M .out := by assumption) (k_led : ¬M .led := by assumption) (k_ctr : ¬M .ctr := by assumption) (k_beat : ¬M .beat := by assumption) (k_slots : ¬M .slots := by assumption) (k_net : ¬M .net := by assumption) (k_secures : ¬M .secures := by assumption) (k_host : ¬M .host := by assumption) :
    Keeps M s0 (useMark link count device elapsed add start term ns s) := by
  unfold useMark
  exact Keeps.foldl (fun _ _ hs => applyNotice_keeps _ _ hs) _ (Keeps.ite
    (fun _ => event_keeps _ _ _ (modBeat_keeps _ (fun b hb => by show (if _ then 2 else b.state) ≤ 3; split <;> omega)
      (Keeps.foldl (fun _ _ hs => sendUp_keeps _ _ _ hs) _ (follow_keeps _ _ h))))
    (fun _ => modBeat_keeps _ (fun b hb => by show (if _ then 2 else b.state) ≤ 3; split <;> omega)
      (Keeps.foldl (fun _ _ hs => sendUp_keeps _ _ _ hs) _ (follow_keeps _ _ h))))

theorem execBeatMark_keeps {M : Part → Prop} {s0 a2 : State} (a0) (a1) (h : Keeps M s0 a2) (k_fresh : ¬M .fresh := by assumption) (k_out : ¬M .out := by assumption) (k_led : ¬M .led := by assumption) (k_ctr : ¬M .ctr := by assumption) (k_beat : ¬M .beat := by assumption) (k_slots : ¬M .slots := by assumption) (k_net : ¬M .net := by assumption) (k_secures : ¬M .secures := by assumption) (k_host : ¬M .host := by assumption) : Answers M s0 (execBeatMark a0 a1 a2) := by
  unfold execBeatMark
  (with_reducible refine Answers.letAny (fun x hx => ?_); subst hx); with_reducible apply Answers.done
  refine Keeps.ite (fun _ => ?_) (fun _ => ?_); assumption; refine Keeps.ite (fun _ => ?_) (fun _ => ?_); refine staleMark_keeps _ _ ?_
  assumption; refine Keeps.ite (fun _ => ?_) (fun _ => ?_); refine staleMark_keeps _ _ ?_; refine follow_keeps _ _ ?_; assumption
  refine useMark_keeps _ _ _ _ _ _ _ _ ?_; assumption

theorem takeValues_keeps {M : Part → Prop} {s0 a0 : State}  (h : Keeps M s0 a0) (k_dict : ¬M .dict := by assumption) (k_net : ¬M .net := by assumption) (k_host : ¬M .host := by assumption) : Keeps M s0 (takeValues a0) := by
  unfold takeValues
  (with_reducible refine Keeps.letAny (fun x hx => ?_); subst hx); with_reducible refine Keeps.foldl (fun s x hs => ?_) _ ?_
  refine setPortMode_keeps _ _ ?_; assumption; with_reducible refine Keeps.foldl (fun s x hs => ?_) _ ?_
  refine enableLink_keeps _ _ ?_; assumption; refine modHost_keeps _ ?_; refine modDict_keeps _ ?_; assumption

theorem announceAddition_keeps {M : Part → Prop} {s0 a0 : State}  (h : Keeps M s0 a0) (k_beat : ¬M .beat := by assumption) : Keeps M s0 (announceAddition a0) := by
  unfold announceAddition
  (with_reducible refine Keeps.letAny (fun x hx => ?_); subst hx); refine Keeps.ite (fun _ => ?_) (fun _ => ?_); assumption
  refine modBeat_keeps _ ?_ ?_; intros; with_reducible assumption; assumption

theorem execLatencyReply_keeps {M : Part → Prop} {s0 a1 : State} (a0) (h : Keeps M s0 a1) (k_beat : ¬M .beat := by assumption) : Answers M s0 (execLatencyReply a0 a1) := by
  unfold execLatencyReply
  with_reducible apply Answers.done; split; assumption; refine Keeps.ite (fun _ => ?_) (fun _ => ?_); assumption
  refine modBeat_keeps _ ?_ ?_; intros; with_reducible assumption; assumption

theorem ceilingEvent_keeps {M : Part → Prop} {s0 a0 : State}  (h : Keeps M s0 a0) (k_led : ¬M .led := by assumption) (k_ctr : ¬M .ctr := by assumption) (k_beat : ¬M .beat := by assumption) : Keeps M s0 (ceilingEvent a0) := by
  unfold ceilingEvent
  refine Keeps.ite (fun _ => ?_) (fun _ => ?_); refine event_keeps _ _ _ ?_; refine modBeat_keeps _ ?_ ?_; intros
  with_reducible assumption; assumption; assumption

theorem govern_keeps {M : Part → Prop} {s0 a0 : State}  (h : Keeps M s0 a0) (k_led : ¬M .led := by assumption) (k_ctr : ¬M .ctr := by assumption) (k_beat : ¬M .beat := by assumption) : Keeps M s0 (govern a0) := by
  unfold govern
  (with_reducible refine Keeps.letAny (fun x hx => ?_); subst hx); refine Keeps.ite (fun _ => ?_) (fun _ => ?_)
  with_reducible refine Keeps.letIn ?_ (fun s hs => ?_); refine Keeps.ite (fun _ => ?_) (fun _ => ?_); refine ceilingEvent_keeps ?_
  refine modBeat_keeps _ ?_ ?_; intros; with_reducible assumption; assumption; refine modBeat_keeps _ ?_ ?_; intros
  with_reducible assumption; assumption; refine Keeps.ite (fun _ => ?_) (fun _ => ?_); refine request_keeps _ _ ?_
  refine Keeps.ite (fun _ => ?_) (fun _ => ?_); refine ceilingEvent_keeps ?_; refine modBeat_keeps _ ?_ ?_; intros
  with_reducible assumption; assumption; refine modBeat_keeps _ ?_ ?_; intros; with_reducible assumption; assumption; assumption
  refine Keeps.ite (fun _ => ?_) (fun _ => ?_); refine Keeps.ite (fun _ => ?_) (fun _ => ?_); refine request_keeps _ _ ?_; assumption
  refine modBeat_keeps _ ?_ ?_; intros; with_reducible assumption; assumption; refine modBeat_keeps _ ?_ ?_; intros
  with_reducible assumption; assumption

theorem voidFabricSteps_keeps {M : Part → Prop} {s0 a0 : State}  (h : Keeps M s0 a0) (k_slots : ¬M .slots := by assumption) : Keeps M s0 (voidFabricSteps a0) := by
  unfold voidFabricSteps
  with_reducible refine Keeps.foldl (fun s x hs => ?_) _ ?_; refine Keeps.ite (fun _ => ?_) (fun _ => ?_)
  refine pendVoid_keeps _ _ _ ?_; assumption; assumption; assumption

theorem senseAgain_keeps {M : Part → Prop} {s0 a0 : State}  (h : Keeps M s0 a0) (k_fresh : ¬M .fresh := by assumption) (k_power : ¬M .power := by assumption) : Keeps M s0 (senseAgain a0) := by
  unfold senseAgain
  (with_reducible refine Keeps.letAny (fun x hx => ?_); subst hx); refine draw_keeps ?_; refine modPower_keeps _ ?_; assumption

theorem sendMark_keeps {M : Part → Prop} {s0 a0 : State}  (h : Keeps M s0 a0) (k_fresh : ¬M .fresh := by assumption) (k_out : ¬M .out := by assumption) (k_led : ¬M .led := by assumption) (k_ctr : ¬M .ctr := by assumption) (k_beat : ¬M .beat := by assumption) (k_slots : ¬M .slots := by assumption) (k_net : ¬M .net := by assumption) (k_secures : ¬M .secures := by assumption) (k_host : ¬M .host := by assumption) : Keeps M s0 (sendMark a0) := by
  unfold sendMark
  (with_reducible refine Keeps.letAny (fun x hx => ?_); subst hx); with_reducible refine Keeps.foldl (fun s x hs => ?_) _ ?_
  refine applyNotice_keeps _ _ ?_; assumption; refine modBeat_keeps _ ?_ ?_; intros; with_reducible assumption
  with_reducible refine Keeps.foldl (fun s x hs => ?_) _ ?_; refine sendUp_keeps _ _ _ ?_; assumption; refine announceAddition_keeps ?_
  assumption

theorem openFabric_keeps {M : Part → Prop} {s0 a0 : State}  (h : Keeps M s0 a0) (k_fresh : ¬M .fresh := by assumption) (k_out : ¬M .out := by assumption) (k_dict : ¬M .dict := by assumption) (k_led : ¬M .led := by assumption) (k_ctr : ¬M .ctr := by assumption) (k_beat : ¬M .beat := by assumption) (k_slots : ¬M .slots := by assumption) (k_arrays : ¬M .arrays := by assumption) (k_power : ¬M .power := by assumption) (k_net : ¬M .net := by assumption) (k_secures : ¬M .secures := by assumption) (k_host : ¬M .host := by assumption) : Keeps M s0 (openFabric a0) := by
  unfold openFabric
  with_reducible refine Keeps.letIn ?_ (fun s hs => ?_); refine senseAgain_keeps ?_; refine Keeps.ite (fun _ => ?_) (fun _ => ?_)
  with_reducible refine Keeps.foldl (fun s x hs => ?_) _ ?_; refine sendUp_keeps _ _ _ ?_; assumption; refine modNet_keeps _ ?_
  with_reducible refine Keeps.foldl (fun s x hs => ?_) _ ?_; refine Keeps.ite (fun _ => ?_) (fun _ => ?_); refine count_keeps _ _ _ ?_
  assumption; assumption; with_reducible refine Keeps.updArrays ?_ (fun hm => tbfs_kmap (fun _ _ => rfl) hm)
  refine modBeat_keeps _ ?_ ?_; intros; with_reducible assumption; refine takeValues_keeps ?_
  refine Keeps.ite (fun _ => ?_) (fun _ => ?_); refine voidFabricSteps_keeps ?_; refine sendUpReport_keeps ?_; refine govern_keeps ?_
  assumption; refine sendUpReport_keeps ?_; refine govern_keeps ?_; assumption
  with_reducible refine Keeps.foldl (fun s x hs => ?_) _ ?_; refine Keeps.ite (fun _ => ?_) (fun _ => ?_); refine count_keeps _ _ _ ?_
  assumption; assumption; with_reducible refine Keeps.updArrays ?_ (fun hm => tbfs_kmap (fun _ _ => rfl) hm)
  refine modBeat_keeps _ ?_ ?_; intros; with_reducible assumption; refine takeValues_keeps ?_
  refine Keeps.ite (fun _ => ?_) (fun _ => ?_); refine voidFabricSteps_keeps ?_; refine sendUpReport_keeps ?_; refine govern_keeps ?_
  assumption; refine sendUpReport_keeps ?_; refine govern_keeps ?_; assumption; refine Keeps.ite (fun _ => ?_) (fun _ => ?_)
  refine sendMark_keeps ?_; refine senseAgain_keeps ?_; refine Keeps.ite (fun _ => ?_) (fun _ => ?_)
  with_reducible refine Keeps.foldl (fun s x hs => ?_) _ ?_; refine sendUp_keeps _ _ _ ?_; assumption; refine modNet_keeps _ ?_
  with_reducible refine Keeps.foldl (fun s x hs => ?_) _ ?_; refine Keeps.ite (fun _ => ?_) (fun _ => ?_); refine count_keeps _ _ _ ?_
  assumption; assumption; with_reducible refine Keeps.updArrays ?_ (fun hm => tbfs_kmap (fun _ _ => rfl) hm)
  refine modBeat_keeps _ ?_ ?_; intros; with_reducible assumption; refine takeValues_keeps ?_
  refine Keeps.ite (fun _ => ?_) (fun _ => ?_); refine voidFabricSteps_keeps ?_; refine sendUpReport_keeps ?_; refine govern_keeps ?_
  assumption; refine sendUpReport_keeps ?_; refine govern_keeps ?_; assumption
  with_reducible refine Keeps.foldl (fun s x hs => ?_) _ ?_; refine Keeps.ite (fun _ => ?_) (fun _ => ?_); refine count_keeps _ _ _ ?_
  assumption; assumption; with_reducible refine Keeps.updArrays ?_ (fun hm => tbfs_kmap (fun _ _ => rfl) hm)
  refine modBeat_keeps _ ?_ ?_; intros; with_reducible assumption; refine takeValues_keeps ?_
  refine Keeps.ite (fun _ => ?_) (fun _ => ?_); refine voidFabricSteps_keeps ?_; refine sendUpReport_keeps ?_; refine govern_keeps ?_
  assumption; refine sendUpReport_keeps ?_; refine govern_keeps ?_; assumption; assumption

theorem rePace_keeps {M : Part → Prop} {s0 a1 : State} (a0) (h : Keeps M s0 a1) (_h0 : Keeps M s0 a0) (k_beat : ¬M .beat := by assumption) (k_slots : ¬M .slots := by assumption) : Keeps M s0 (rePace a0 a1) := by
  unfold rePace
  refine Keeps.ite (fun _ => ?_) (fun _ => ?_); assumption; (with_reducible refine Keeps.letAny (fun x hx => ?_); subst hx)
  with_reducible refine Keeps.foldl (fun s x hs => ?_) _ ?_; refine Keeps.ite (fun _ => ?_) (fun _ => ?_)
  (with_reducible refine Keeps.letAny (fun x hx => ?_); subst hx); refine modSlotBeat_keeps _ _ ?_; assumption; assumption
  refine modBeat_keeps _ ?_ ?_; intros; with_reducible assumption; assumption

theorem execGovernedAdditionApply_keeps {M : Part → Prop} {s0 a0 : State}  (h : Keeps M s0 a0) (k_beat : ¬M .beat := by assumption) (k_slots : ¬M .slots := by assumption) : Answers M s0 (execGovernedAdditionApply a0) := by
  unfold execGovernedAdditionApply
  with_reducible apply Answers.done; split; refine Keeps.ite (fun _ => ?_) (fun _ => ?_); refine rePace_keeps _ ?_ ?_
  refine modBeat_keeps _ ?_ ?_; intros; with_reducible assumption; assumption; assumption; assumption; assumption

theorem takeMaster_keeps {M : Part → Prop} {s0 a1 : State} (a0) (h : Keeps M s0 a1) (k_beat : ¬M .beat := by assumption) : Keeps M s0 (takeMaster a0 a1) := by
  unfold takeMaster
  refine modBeat_keeps _ ?_ ?_; intros; simp_all only; (first | assumption | omega); assumption

theorem execInitialMarkTimeout_keeps {M : Part → Prop} {s0 a0 : State}  (h : Keeps M s0 a0) (k_beat : ¬M .beat := by assumption) : Answers M s0 (execInitialMarkTimeout a0) := by
  unfold execInitialMarkTimeout
  with_reducible apply Answers.done; refine Keeps.ite (fun _ => ?_) (fun _ => ?_); refine takeMaster_keeps _ ?_; assumption; assumption

theorem execLatencyMeasure_keeps {M : Part → Prop} {s0 a1 : State} (a0) (h : Keeps M s0 a1) (k_out : ¬M .out := by assumption) (k_beat : ¬M .beat := by assumption) (k_net : ¬M .net := by assumption) : Answers M s0 (execLatencyMeasure a0 a1) := by
  unfold execLatencyMeasure
  with_reducible apply Answers.done; refine Keeps.ite (fun _ => ?_) (fun _ => ?_); refine sendProbe_keeps _ ?_; assumption; assumption

theorem execUpReport_keeps {M : Part → Prop} {s0 a3 : State} (a0) (a1) (a2) (h : Keeps M s0 a3) (k_beat : ¬M .beat := by assumption) : Answers M s0 (execUpReport a0 a1 a2 a3) := by
  unfold execUpReport
  with_reducible apply Answers.done; refine Keeps.ite (fun _ => ?_) (fun _ => ?_); assumption
  with_reducible refine Keeps.letIn ?_ (fun s hs => ?_); refine modBeat_keeps _ ?_ ?_; intros; with_reducible assumption
  refine modBeat_keeps _ ?_ ?_; intros; with_reducible assumption; assumption; refine Keeps.ite (fun _ => ?_) (fun _ => ?_)
  refine modBeat_keeps _ ?_ ?_; intros; with_reducible assumption; refine modBeat_keeps _ ?_ ?_; intros; with_reducible assumption
  assumption; assumption

theorem execMarkMasterTimeout_keeps {M : Part → Prop} {s0 a0 : State}  (h : Keeps M s0 a0) (k_led : ¬M .led := by assumption) (k_ctr : ¬M .ctr := by assumption) (k_beat : ¬M .beat := by assumption) : Answers M s0 (execMarkMasterTimeout a0) := by
  unfold execMarkMasterTimeout
  with_reducible apply Answers.done; refine Keeps.ite (fun _ => ?_) (fun _ => ?_)
  with_reducible refine Keeps.letIn ?_ (fun s hs => ?_); refine event_keeps _ _ _ ?_; refine modBeat_keeps _ ?_ ?_; intros
  simp_all only; (first | assumption | omega); assumption; refine Keeps.ite (fun _ => ?_) (fun _ => ?_); refine takeMaster_keeps _ ?_
  refine event_keeps _ _ _ ?_; refine modBeat_keeps _ ?_ ?_; intros; simp_all only; (first | assumption | omega); assumption
  assumption; assumption

end Sys2Proof.Machine
end

