-- ==== Sys2Proof/Laws/KeepsCollective.lean ====
section
/-! SUPPORT. The queue and the invariant are kept by the operations of Machine/Collective.lean. -/

set_option Elab.async false

namespace Sys2Proof.Machine

theorem writePiece_keeps {M : Part → Prop} {s0 a5 : State} (a0) (a1) (a2) (a3) (a4) (h : Keeps M s0 a5) (k_fresh : ¬M .fresh := by assumption) (k_out : ¬M .out := by assumption) (k_led : ¬M .led := by assumption) (k_ctr : ¬M .ctr := by assumption) (k_mem : ¬M .mem := by assumption) (k_flash : ¬M .flash := by assumption) (k_secures : ¬M .secures := by assumption) : Keeps M s0 (writePiece a0 a1 a2 a3 a4 a5).1 := by
  unfold writePiece
  split; dsimp only; assumption; (with_reducible refine Keeps.letAnyFst (fun x hx => ?_); subst hx)
  with_reducible refine Keeps.iteFst (fun hc => ?_) (fun hc => ?_); dsimp only; refine saggarHit_keeps _ _ ?_; assumption
  with_reducible refine Keeps.iteFst (fun hc => ?_) (fun hc => ?_); dsimp only; assumption
  (with_reducible refine Keeps.letAnyFst (fun x hx => ?_); subst hx); with_reducible refine Keeps.iteFst (fun hc => ?_) (fun hc => ?_)
  dsimp only; with_reducible refine Keeps.iteFst (fun hc => ?_) (fun hc => ?_); refine accessPages_keeps _ _ ?_
  refine admitStore_keeps _ _ _ ?_; assumption; refine admitStore_keeps _ _ _ ?_; assumption; dsimp only
  with_reducible refine Keeps.foldl (fun s x hs => ?_) _ ?_; refine raiseGeneration_keeps _ _ ?_; assumption
  refine applyWrite_keeps _ _ _ ?_; with_reducible refine Keeps.iteFst (fun hc => ?_) (fun hc => ?_); refine accessPages_keeps _ _ ?_
  refine admitStore_keeps _ _ _ ?_; assumption; refine admitStore_keeps _ _ _ ?_; assumption

theorem deliverPiece_keeps {M : Part → Prop} {s0 a6 : State} (a0) (a1) (a2) (a3) (a4) (a5) (h : Keeps M s0 a6) (k_fresh : ¬M .fresh := by assumption) (k_out : ¬M .out := by assumption) (k_led : ¬M .led := by assumption) (k_ctr : ¬M .ctr := by assumption) (k_mem : ¬M .mem := by assumption) (k_flash : ¬M .flash := by assumption) (k_colls : ¬M .colls := by assumption) (k_secures : ¬M .secures := by assumption) : Keeps M s0 (deliverPiece a0 a1 a2 a3 a4 a5 a6) := by
  unfold deliverPiece
  (with_reducible refine Keeps.letAny (fun x hx => ?_); subst hx); refine Keeps.ite (fun _ => ?_) (fun _ => ?_)
  refine writePiece_keeps _ _ _ _ _ ?_; assumption; refine modColl_keeps _ _ ?_; refine writePiece_keeps _ _ _ _ _ ?_; assumption

theorem sendRing_keeps {M : Part → Prop} {s0 a9 : State} (a0) (a1) (a2) (a3) (a4) (a5) (a6) (a7) (a8) (h : Keeps M s0 a9) (k_net : ¬M .net := by assumption) : Keeps M s0 (sendRing a0 a1 a2 a3 a4 a5 a6 a7 a8 a9) := by
  unfold sendRing
  (with_reducible refine Keeps.letAny (fun x hx => ?_); subst hx); refine queueFlits_keeps _ _ _ ?_; assumption

theorem emitChunk_keeps {M : Part → Prop} {s0 a4 : State} (a0) (a1) (a2) (a3) (h : Keeps M s0 a4) (k_slots : ¬M .slots := by assumption) : Keeps M s0 (emitChunk a0 a1 a2 a3 a4) := by
  unfold emitChunk
  split; assumption; with_reducible refine Keeps.foldl (fun s x hs => ?_) _ ?_
  (with_reducible refine Keeps.letAny (fun x hx => ?_); subst hx); refine sendWhenFree_keeps _ _ _ ?_; assumption; assumption

theorem announce_keeps {M : Part → Prop} {s0 a1 : State} (a0) (h : Keeps M s0 a1) (k_ctr : ¬M .ctr := by assumption) (k_keeper : ¬M .keeper := by assumption) : Keeps M s0 (announce a0 a1).1 := by
  unfold announce
  (with_reducible refine Keeps.letAnyFst (fun x hx => ?_); subst hx); with_reducible refine Keeps.iteFst (fun hc => ?_) (fun hc => ?_)
  dsimp only; refine count_keeps _ _ _ ?_; assumption; with_reducible refine Keeps.iteFst (fun hc => ?_) (fun hc => ?_); dsimp only
  assumption; (with_reducible refine Keeps.letAnyFst (fun x hx => ?_); subst hx); dsimp only; refine modKeeper_keeps _ ?_; assumption

theorem takeNorm_keeps {M : Part → Prop} {s0 a3 : State} (a0) (a1) (a2) (h : Keeps M s0 a3) (k_slots : ¬M .slots := by assumption) (k_secures : ¬M .secures := by assumption) : Keeps M s0 (takeNorm a0 a1 a2 a3) := by
  unfold takeNorm
  with_reducible refine Keeps.letIn ?_ (fun s hs => ?_); refine modSecure_keeps _ _ ?_; refine modTrain_keeps _ _ ?_; assumption
  refine Keeps.ite (fun _ => ?_) (fun _ => ?_); refine modTrain_keeps _ _ ?_; assumption; assumption

theorem formNorm_keeps {M : Part → Prop} {s0 a2 : State} (a0) (a1) (h : Keeps M s0 a2) (k_out : ¬M .out := by assumption) (k_ctr : ¬M .ctr := by assumption) (k_slots : ¬M .slots := by assumption) (k_net : ¬M .net := by assumption) (k_secures : ¬M .secures := by assumption) (k_keeper : ¬M .keeper := by assumption) : Keeps M s0 (formNorm a0 a1 a2) := by
  unfold formNorm
  split; assumption; (with_reducible refine Keeps.letAny (fun x hx => ?_); subst hx); refine Keeps.ite (fun _ => ?_) (fun _ => ?_)
  assumption; (with_reducible refine Keeps.letAny (fun x hx => ?_); subst hx); refine takeNorm_keeps _ _ _ ?_
  with_reducible refine Keeps.foldl (fun s x hs => ?_) _ ?_; split; refine sendFrame_keeps _ _ _ _ ?_; assumption; assumption
  refine announce_keeps _ ?_; assumption

theorem hearSums_keeps {M : Part → Prop} {s0 a5 : State} (a0) (a1) (a2) (a3) (a4) (h : Keeps M s0 a5) (k_colls : ¬M .colls := by assumption) : Keeps M s0 (hearSums a0 a1 a2 a3 a4 a5) := by
  unfold hearSums
  refine modColl_keeps _ _ ?_; assumption

theorem reportSums_keeps {M : Part → Prop} {s0 a2 : State} (a0) (a1) (h : Keeps M s0 a2) (k_out : ¬M .out := by assumption) (k_ctr : ¬M .ctr := by assumption) (k_slots : ¬M .slots := by assumption) (k_net : ¬M .net := by assumption) (k_colls : ¬M .colls := by assumption) (k_secures : ¬M .secures := by assumption) (k_keeper : ¬M .keeper := by assumption) : Keeps M s0 (reportSums a0 a1 a2) := by
  unfold reportSums
  (with_reducible refine Keeps.letAny (fun x hx => ?_); subst hx); split; assumption; refine Keeps.ite (fun _ => ?_) (fun _ => ?_)
  assumption; (with_reducible refine Keeps.letAny (fun x hx => ?_); subst hx); refine Keeps.ite (fun _ => ?_) (fun _ => ?_)
  refine formNorm_keeps _ _ ?_; refine hearSums_keeps _ _ _ _ _ ?_; refine modColl_keeps _ _ ?_; assumption
  (with_reducible refine Keeps.letAny (fun x hx => ?_); subst hx); split; refine sendFrame_keeps _ _ _ _ ?_
  refine modColl_keeps _ _ ?_; assumption; refine modColl_keeps _ _ ?_; assumption

theorem finishPiece_keeps {M : Part → Prop} {s0 a6 : State} (a0) (a1) (a2) (a3) (a4) (a5) (h : Keeps M s0 a6) (k_fresh : ¬M .fresh := by assumption) (k_out : ¬M .out := by assumption) (k_led : ¬M .led := by assumption) (k_ctr : ¬M .ctr := by assumption) (k_slots : ¬M .slots := by assumption) (k_mem : ¬M .mem := by assumption) (k_flash : ¬M .flash := by assumption) (k_net : ¬M .net := by assumption) (k_colls : ¬M .colls := by assumption) (k_secures : ¬M .secures := by assumption) (k_keeper : ¬M .keeper := by assumption) : Keeps M s0 (finishPiece a0 a1 a2 a3 a4 a5 a6) := by
  unfold finishPiece
  (with_reducible refine Keeps.letAny (fun x hx => ?_); subst hx); refine Keeps.ite (fun _ => ?_) (fun _ => ?_)
  refine Keeps.ite (fun _ => ?_) (fun _ => ?_); refine sendRing_keeps _ _ _ _ _ _ _ _ _ ?_; refine deliverPiece_keeps _ _ _ _ _ _ ?_
  refine modColl_keeps _ _ ?_; assumption; refine modColl_keeps _ _ ?_; assumption
  (with_reducible refine Keeps.letAny (fun x hx => ?_); subst hx); refine Keeps.ite (fun _ => ?_) (fun _ => ?_)
  refine reportSums_keeps _ _ ?_; refine modColl_keeps _ _ ?_; refine emitChunk_keeps _ _ _ _ ?_
  refine Keeps.ite (fun _ => ?_) (fun _ => ?_); refine sendRing_keeps _ _ _ _ _ _ _ _ _ ?_; refine deliverPiece_keeps _ _ _ _ _ _ ?_
  refine modColl_keeps _ _ ?_; assumption; refine modColl_keeps _ _ ?_; assumption; refine emitChunk_keeps _ _ _ _ ?_
  refine Keeps.ite (fun _ => ?_) (fun _ => ?_); refine sendRing_keeps _ _ _ _ _ _ _ _ _ ?_; refine deliverPiece_keeps _ _ _ _ _ _ ?_
  refine modColl_keeps _ _ ?_; assumption; refine modColl_keeps _ _ ?_; assumption

theorem goPiece_keeps {M : Part → Prop} {s0 a6 : State} (a0) (a1) (a2) (a3) (a4) (a5) (h : Keeps M s0 a6) (k_fresh : ¬M .fresh := by assumption) (k_out : ¬M .out := by assumption) (k_led : ¬M .led := by assumption) (k_ctr : ¬M .ctr := by assumption) (k_slots : ¬M .slots := by assumption) (k_mem : ¬M .mem := by assumption) (k_flash : ¬M .flash := by assumption) (k_net : ¬M .net := by assumption) (k_colls : ¬M .colls := by assumption) (k_secures : ¬M .secures := by assumption) (k_keeper : ¬M .keeper := by assumption) : Keeps M s0 (goPiece a0 a1 a2 a3 a4 a5 a6) := by
  unfold goPiece
  (with_reducible refine Keeps.letAny (fun x hx => ?_); subst hx); refine Keeps.ite (fun _ => ?_) (fun _ => ?_); assumption
  (with_reducible refine Keeps.letAny (fun x hx => ?_); subst hx); split; assumption
  (with_reducible refine Keeps.letAny (fun x hx => ?_); subst hx); refine Keeps.ite (fun _ => ?_) (fun _ => ?_)
  refine finishPiece_keeps _ _ _ _ _ _ ?_; refine count_keeps _ _ _ ?_; refine modColl_keeps _ _ ?_; assumption
  refine sendRing_keeps _ _ _ _ _ _ _ _ _ ?_; refine count_keeps _ _ _ ?_; refine modColl_keeps _ _ ?_; assumption

theorem retryPieces_keeps {M : Part → Prop} {s0 a2 : State} (a0) (a1) (h : Keeps M s0 a2) (k_fresh : ¬M .fresh := by assumption) (k_out : ¬M .out := by assumption) (k_led : ¬M .led := by assumption) (k_ctr : ¬M .ctr := by assumption) (k_mem : ¬M .mem := by assumption) (k_flash : ¬M .flash := by assumption) (k_colls : ¬M .colls := by assumption) (k_secures : ¬M .secures := by assumption) : Keeps M s0 (retryPieces a0 a1 a2) := by
  unfold retryPieces
  (with_reducible refine Keeps.letAny (fun x hx => ?_); subst hx); with_reducible refine Keeps.foldl (fun s x hs => ?_) _ ?_; split
  refine deliverPiece_keeps _ _ _ _ _ _ ?_; assumption; assumption; refine modColl_keeps _ _ ?_; assumption

theorem passPieces_keeps {M : Part → Prop} {s0 a2 : State} (a0) (a1) (h : Keeps M s0 a2) (k_net : ¬M .net := by assumption) (k_colls : ¬M .colls := by assumption) : Keeps M s0 (passPieces a0 a1 a2) := by
  unfold passPieces
  refine Keeps.ite (fun _ => ?_) (fun _ => ?_); assumption; with_reducible refine Keeps.foldl (fun s x hs => ?_) _ ?_; split
  refine sendRing_keeps _ _ _ _ _ _ _ _ _ ?_; assumption; assumption; refine modColl_keeps _ _ ?_; assumption

theorem runRings_keeps {M : Part → Prop} {s0 a1 : State} (a0) (h : Keeps M s0 a1) (k_fresh : ¬M .fresh := by assumption) (k_out : ¬M .out := by assumption) (k_led : ¬M .led := by assumption) (k_ctr : ¬M .ctr := by assumption) (k_slots : ¬M .slots := by assumption) (k_mem : ¬M .mem := by assumption) (k_flash : ¬M .flash := by assumption) (k_net : ¬M .net := by assumption) (k_colls : ¬M .colls := by assumption) (k_secures : ¬M .secures := by assumption) (k_keeper : ¬M .keeper := by assumption) : Keeps M s0 (runRings a0 a1) := by
  unfold runRings
  split; assumption; with_reducible refine Keeps.letIn ?_ (fun s hs => ?_); refine passPieces_keeps _ _ ?_
  with_reducible refine Keeps.foldl (fun s x hs => ?_) _ ?_; (with_reducible refine Keeps.letAny (fun x hx => ?_); subst hx); split
  refine goPiece_keeps _ _ _ _ _ _ ?_; assumption; assumption; refine retryPieces_keeps _ _ ?_; assumption
  refine Keeps.ite (fun _ => ?_) (fun _ => ?_); refine retryPieces_keeps _ _ ?_; assumption; assumption

theorem stageElement_keeps {M : Part → Prop} {s0 a5 : State} (a0) (a1) (a2) (a3) (a4) (h : Keeps M s0 a5) (k_colls : ¬M .colls := by assumption) : Keeps M s0 (stageElement a0 a1 a2 a3 a4 a5) := by
  unfold stageElement
  refine Keeps.ite (fun _ => ?_) (fun _ => ?_); assumption; (with_reducible refine Keeps.letAny (fun x hx => ?_); subst hx)
  refine Keeps.ite (fun _ => ?_) (fun _ => ?_); refine modColl_keeps _ _ ?_; assumption; refine Keeps.ite (fun _ => ?_) (fun _ => ?_)
  refine modColl_keeps _ _ ?_; assumption; assumption

theorem landLate_keeps {M : Part → Prop} {s0 a9 : State} (a0) (a1) (a2) (a3) (a4) (a5) (a6) (a7) (a8) (h : Keeps M s0 a9) (k_ctr : ¬M .ctr := by assumption) (k_colls : ¬M .colls := by assumption) : Keeps M s0 (landLate a0 a1 a2 a3 a4 a5 a6 a7 a8 a9) := by
  unfold landLate
  (with_reducible refine Keeps.letAny (fun x hx => ?_); subst hx); refine Keeps.ite (fun _ => ?_) (fun _ => ?_); assumption
  refine Keeps.ite (fun _ => ?_) (fun _ => ?_); refine modColl_keeps _ _ ?_; assumption; refine Keeps.ite (fun _ => ?_) (fun _ => ?_)
  refine count_keeps _ _ _ ?_; assumption; refine Keeps.ite (fun _ => ?_) (fun _ => ?_); assumption; refine modColl_keeps _ _ ?_
  assumption

theorem contribute_keeps {M : Part → Prop} {s0 a5 : State} (a0) (a1) (a2) (a3) (a4) (h : Keeps M s0 a5) (k_ctr : ¬M .ctr := by assumption) (k_colls : ¬M .colls := by assumption) : Keeps M s0 (contribute a0 a1 a2 a3 a4 a5) := by
  unfold contribute
  (with_reducible refine Keeps.letAny (fun x hx => ?_); subst hx); refine Keeps.ite (fun _ => ?_) (fun _ => ?_)
  refine Keeps.ite (fun _ => ?_) (fun _ => ?_); assumption; with_reducible refine Keeps.foldl (fun s x hs => ?_) _ ?_
  refine stageElement_keeps _ _ _ _ _ ?_; assumption; assumption; refine Keeps.ite (fun _ => ?_) (fun _ => ?_)
  refine count_keeps _ _ _ ?_; assumption; with_reducible refine Keeps.foldl (fun s x hs => ?_) _ ?_
  (with_reducible refine Keeps.letAny (fun x hx => ?_); subst hx); refine Keeps.ite (fun _ => ?_) (fun _ => ?_); assumption
  refine landLate_keeps _ _ _ _ _ _ _ _ _ ?_; assumption; assumption

theorem writeFold_keeps {M : Part → Prop} {s0 a7 : State} (a0) (a1) (a2) (a3) (a4) (a5) (a6) (h : Keeps M s0 a7) (k_led : ¬M .led := by assumption) (k_ctr : ¬M .ctr := by assumption) (k_secures : ¬M .secures := by assumption) : Keeps M s0 (writeFold a0 a1 a2 a3 a4 a5 a6 a7) := by
  unfold writeFold
  refine Keeps.ite (fun _ => ?_) (fun _ => ?_); refine count_keeps _ _ _ ?_; refine ledgerStep_keeps _ ?_; assumption; assumption

theorem decidePiece_keeps {M : Part → Prop} {s0 a6 : State} (a0) (a1) (a2) (a3) (a4) (a5) (h : Keeps M s0 a6) (k_fresh : ¬M .fresh := by assumption) (k_out : ¬M .out := by assumption) (k_led : ¬M .led := by assumption) (k_ctr : ¬M .ctr := by assumption) (k_slots : ¬M .slots := by assumption) (k_mem : ¬M .mem := by assumption) (k_flash : ¬M .flash := by assumption) (k_net : ¬M .net := by assumption) (k_colls : ¬M .colls := by assumption) (k_secures : ¬M .secures := by assumption) (k_keeper : ¬M .keeper := by assumption) : Keeps M s0 (decidePiece a0 a1 a2 a3 a4 a5 a6) := by
  unfold decidePiece
  (with_reducible refine Keeps.letAny (fun x hx => ?_); subst hx); refine Keeps.ite (fun _ => ?_) (fun _ => ?_); assumption
  (with_reducible refine Keeps.letAny (fun x hx => ?_); subst hx); refine Keeps.ite (fun _ => ?_) (fun _ => ?_)
  with_reducible refine Keeps.letIn ?_ (fun s hs => ?_); refine modColl_keeps _ _ ?_; refine Keeps.ite (fun _ => ?_) (fun _ => ?_)
  dsimp -zeta only; refine modColl_keeps _ _ ?_; refine writeFold_keeps _ _ _ _ _ _ _ ?_; refine writeFold_keeps _ _ _ _ _ _ _ ?_
  assumption; refine Keeps.ite (fun _ => ?_) (fun _ => ?_); refine writeFold_keeps _ _ _ _ _ _ _ ?_
  refine writeFold_keeps _ _ _ _ _ _ _ ?_; assumption; refine writeFold_keeps _ _ _ _ _ _ _ ?_; assumption
  refine goPiece_keeps _ _ _ _ _ _ ?_; assumption; (with_reducible refine Keeps.letAny (fun x hx => ?_); subst hx); split
  dsimp -zeta only; refine goPiece_keeps _ _ _ _ _ _ ?_; refine modColl_keeps _ _ ?_; assumption
  (with_reducible refine Keeps.letAny (fun x hx => ?_); subst hx); refine Keeps.ite (fun _ => ?_) (fun _ => ?_); dsimp -zeta only
  refine goPiece_keeps _ _ _ _ _ _ ?_; refine modColl_keeps _ _ ?_; refine modColl_keeps _ _ ?_
  refine writeFold_keeps _ _ _ _ _ _ _ ?_; assumption; refine Keeps.ite (fun _ => ?_) (fun _ => ?_); dsimp -zeta only
  refine goPiece_keeps _ _ _ _ _ _ ?_; refine modColl_keeps _ _ ?_; refine modColl_keeps _ _ ?_
  refine writeFold_keeps _ _ _ _ _ _ _ ?_; assumption; dsimp -zeta only; refine goPiece_keeps _ _ _ _ _ _ ?_
  refine modColl_keeps _ _ ?_; refine writeFold_keeps _ _ _ _ _ _ _ ?_; assumption

theorem execExchangeContribute_keeps {M : Part → Prop} {s0 a4 : State} (a0) (a1) (a2) (a3) (h : Keeps M s0 a4) (k_led : ¬M .led := by assumption) (k_ctr : ¬M .ctr := by assumption) (k_fab : ¬M .fab := by assumption) (k_slots : ¬M .slots := by assumption) (k_mem : ¬M .mem := by assumption) (k_engines : ¬M .engines := by assumption) (k_net : ¬M .net := by assumption) (k_colls : ¬M .colls := by assumption) : Answers M s0 (execExchangeContribute a0 a1 a2 a3 a4) := by
  unfold execExchangeContribute
  with_reducible apply Answers.done; refine fireKind_keeps _ _ _ _ _ _ ?_ ?_; intros; split; refine finishFlight_keeps _ _ _ _ _ ?_
  with_reducible refine Keeps.foldl (fun s x hs => ?_) _ ?_; refine contribute_keeps _ _ _ _ _ ?_; assumption; assumption; assumption
  assumption

theorem execSumReport_keeps {M : Part → Prop} {s0 a1 : State} (a0) (h : Keeps M s0 a1) (k_out : ¬M .out := by assumption) (k_ctr : ¬M .ctr := by assumption) (k_slots : ¬M .slots := by assumption) (k_net : ¬M .net := by assumption) (k_colls : ¬M .colls := by assumption) (k_secures : ¬M .secures := by assumption) (k_keeper : ¬M .keeper := by assumption) : Answers M s0 (execSumReport a0 a1) := by
  unfold execSumReport
  (with_reducible refine Answers.letAny (fun x hx => ?_); subst hx); split; with_reducible apply Answers.done; assumption
  (with_reducible refine Answers.letAny (fun x hx => ?_); subst hx); with_reducible refine Answers.ite (fun hc => ?_) (fun hc => ?_)
  with_reducible apply Answers.done; assumption; (with_reducible refine Answers.letAny (fun x hx => ?_); subst hx)
  with_reducible apply Answers.done; refine formNorm_keeps _ _ ?_; refine hearSums_keeps _ _ _ _ _ ?_; assumption

theorem execRingPartialArrive_keeps {M : Part → Prop} {s0 a5 : State} (a0) (a1) (a2) (a3) (a4) (h : Keeps M s0 a5) (k_fresh : ¬M .fresh := by assumption) (k_out : ¬M .out := by assumption) (k_led : ¬M .led := by assumption) (k_ctr : ¬M .ctr := by assumption) (k_slots : ¬M .slots := by assumption) (k_mem : ¬M .mem := by assumption) (k_flash : ¬M .flash := by assumption) (k_net : ¬M .net := by assumption) (k_colls : ¬M .colls := by assumption) (k_secures : ¬M .secures := by assumption) (k_keeper : ¬M .keeper := by assumption) : Answers M s0 (execRingPartialArrive a0 a1 a2 a3 a4 a5) := by
  unfold execRingPartialArrive
  split; with_reducible apply Answers.done; assumption; (with_reducible refine Answers.letAny (fun x hx => ?_); subst hx)
  with_reducible refine Answers.ite (fun hc => ?_) (fun hc => ?_); with_reducible apply Answers.done; assumption
  (with_reducible refine Answers.letAny (fun x hx => ?_); subst hx); with_reducible refine Answers.ite (fun hc => ?_) (fun hc => ?_)
  with_reducible refine Answers.ite (fun hc => ?_) (fun hc => ?_); with_reducible apply Answers.done; assumption
  (with_reducible refine Answers.letAny (fun x hx => ?_); subst hx); with_reducible apply Answers.done; refine passPieces_keeps _ _ ?_
  refine count_keeps _ _ _ ?_; refine deliverPiece_keeps _ _ _ _ _ _ ?_; refine modColl_keeps _ _ ?_; assumption
  with_reducible apply Answers.done; refine goPiece_keeps _ _ _ _ _ _ ?_; refine modColl_keeps _ _ ?_; assumption

theorem commitCarries_keeps {M : Part → Prop} {s0 a2 : State} (a0) (a1) (h : Keeps M s0 a2) (k_colls : ¬M .colls := by assumption) : Keeps M s0 (commitCarries a0 a1 a2) := by
  unfold commitCarries
  (with_reducible refine Keeps.letAny (fun x hx => ?_); subst hx); refine modColl_keeps _ _ ?_; assumption

theorem execLateFoldDecide_keeps {M : Part → Prop} {s0 a4 : State} (a0) (a1) (a2) (a3) (h : Keeps M s0 a4) (k_fresh : ¬M .fresh := by assumption) (k_out : ¬M .out := by assumption) (k_led : ¬M .led := by assumption) (k_ctr : ¬M .ctr := by assumption) (k_slots : ¬M .slots := by assumption) (k_mem : ¬M .mem := by assumption) (k_flash : ¬M .flash := by assumption) (k_net : ¬M .net := by assumption) (k_colls : ¬M .colls := by assumption) (k_secures : ¬M .secures := by assumption) (k_keeper : ¬M .keeper := by assumption) : Answers M s0 (execLateFoldDecide a0 a1 a2 a3 a4) := by
  unfold execLateFoldDecide
  split; with_reducible apply Answers.done; assumption; (with_reducible refine Answers.letAny (fun x hx => ?_); subst hx)
  with_reducible refine Answers.ite (fun hc => ?_) (fun hc => ?_); with_reducible apply Answers.done; assumption
  with_reducible refine Answers.ite (fun hc => ?_) (fun hc => ?_); with_reducible refine Answers.ite (fun hc => ?_) (fun hc => ?_)
  with_reducible apply Answers.done; refine finishPiece_keeps _ _ _ _ _ _ ?_; refine modColl_keeps _ _ ?_; assumption
  with_reducible apply Answers.done; assumption; with_reducible apply Answers.done; refine decidePiece_keeps _ _ _ _ _ _ ?_; assumption

theorem execLateTileLand_keeps {M : Part → Prop} {s0 a7 : State} (a0) (a1) (a2) (a3) (a4) (a5) (a6) (h : Keeps M s0 a7) (k_ctr : ¬M .ctr := by assumption) (k_colls : ¬M .colls := by assumption) : Answers M s0 (execLateTileLand a0 a1 a2 a3 a4 a5 a6 a7) := by
  unfold execLateTileLand
  split; with_reducible apply Answers.done; assumption; (with_reducible refine Answers.letAny (fun x hx => ?_); subst hx)
  with_reducible refine Answers.ite (fun hc => ?_) (fun hc => ?_); with_reducible apply Answers.done; assumption
  with_reducible apply Answers.done; refine landLate_keeps _ _ _ _ _ _ _ _ _ ?_; assumption

theorem execNormReport_keeps {M : Part → Prop} {s0 a1 : State} (a0) (h : Keeps M s0 a1) (k_slots : ¬M .slots := by assumption) (k_secures : ¬M .secures := by assumption) : Answers M s0 (execNormReport a0 a1) := by
  unfold execNormReport
  (with_reducible refine Answers.letAny (fun x hx => ?_); subst hx); with_reducible apply Answers.done
  refine Keeps.ite (fun _ => ?_) (fun _ => ?_); refine takeNorm_keeps _ _ _ ?_; assumption; assumption

end Sys2Proof.Machine
end

