-- ==== Sys2Proof/Laws/KeepsFabricOps.lean ====
section
/-! SUPPORT. The queue and the invariant are kept by the operations of Machine/FabricOps.lean. -/

set_option Elab.async false

namespace Sys2Proof.Machine

theorem startReload_keeps {M : Part → Prop} {s0 a4 : State} (a0) (a1) (a2) (a3) (h : Keeps M s0 a4) (k_engines : ¬M .engines := by assumption) (k_serves : ¬M .serves := by assumption) : Keeps M s0 (startReload a0 a1 a2 a3 a4) := by
  unfold startReload
  split; assumption; refine enqueueDesc_keeps _ _ _ _ _ ?_; refine modServe_keeps _ _ ?_; assumption

theorem forwardTo_keeps {M : Part → Prop} {s0 a7 : State} (a0) (a1) (a2) (a3) (a4) (a5) (a6) (h : Keeps M s0 a7) (k_fab : ¬M .fab := by assumption) (k_net : ¬M .net := by assumption) : Keeps M s0 (forwardTo a0 a1 a2 a3 a4 a5 a6 a7) := by
  unfold forwardTo
  with_reducible refine Keeps.letIn ?_ (fun s hs => ?_); refine leaveRing_keeps _ _ _ _ _ ?_; refine place_keeps _ _ ?_; assumption
  refine Keeps.ite (fun _ => ?_) (fun _ => ?_); refine place_keeps _ _ ?_; assumption; assumption

theorem freshSite_keeps {M : Part → Prop} {s0 a1 : State} (a0) (h : Keeps M s0 a1) (k_slots : ¬M .slots := by assumption) (k_arrays : ¬M .arrays := by assumption) (k_engines : ¬M .engines := by assumption) (k_serves : ¬M .serves := by assumption) : Keeps M s0 (freshSite a0 a1) := by
  unfold freshSite
  (with_reducible refine Keeps.letAny (fun x hx => ?_); subst hx); with_reducible refine Keeps.foldl (fun s x hs => ?_) _ ?_
  refine Keeps.ite (fun _ => ?_) (fun _ => ?_); refine pendVoid_keeps _ _ _ ?_; assumption
  with_reducible refine Keeps.foldl (fun s x hs => ?_) _ ?_; refine startReload_keeps _ _ _ _ ?_; assumption; assumption
  refine modEngine_keeps _ _ ?_; refine modArray_keeps _ _ ?_ ?_; intros; rfl; assumption

theorem substitute_keeps {M : Part → Prop} {s0 a1 : State} (a0) (h : Keeps M s0 a1) (k_led : ¬M .led := by assumption) (k_ctr : ¬M .ctr := by assumption) (k_fab : ¬M .fab := by assumption) (k_slots : ¬M .slots := by assumption) (k_arrays : ¬M .arrays := by assumption) (k_engines : ¬M .engines := by assumption) (k_serves : ¬M .serves := by assumption) : Keeps M s0 (substitute a0 a1) := by
  unfold substitute
  refine Keeps.ite (fun _ => ?_) (fun _ => ?_); assumption; refine Keeps.ite (fun _ => ?_) (fun _ => ?_); refine event_keeps _ _ _ ?_
  assumption; with_reducible refine Keeps.letIn ?_ (fun s hs => ?_); refine count_keeps _ _ _ ?_; refine freshSite_keeps _ ?_
  refine modFab_keeps _ ?_; assumption; refine event_keeps _ _ _ ?_; assumption

theorem execRepairSetCommit_keeps {M : Part → Prop} {s0 a0 : State}  (h : Keeps M s0 a0) (k_led : ¬M .led := by assumption) (k_ctr : ¬M .ctr := by assumption) (k_fab : ¬M .fab := by assumption) (k_slots : ¬M .slots := by assumption) (k_arrays : ¬M .arrays := by assumption) (k_engines : ¬M .engines := by assumption) (k_serves : ¬M .serves := by assumption) : Answers M s0 (execRepairSetCommit a0) := by
  unfold execRepairSetCommit
  split; with_reducible apply Answers.done; assumption; with_reducible apply Answers.done; refine Keeps.ite (fun _ => ?_) (fun _ => ?_)
  with_reducible refine Keeps.foldl (fun s x hs => ?_) _ ?_; refine substitute_keeps _ ?_; assumption; refine modFab_keeps _ ?_
  assumption; assumption

theorem loseEntry_keeps {M : Part → Prop} {s0 a6 : State} (a0) (a1) (a2) (a3) (a4) (a5) (h : Keeps M s0 a6) (k_fab : ¬M .fab := by assumption) (k_slots : ¬M .slots := by assumption) : Keeps M s0 (loseEntry a0 a1 a2 a3 a4 a5 a6) := by
  unfold loseEntry
  (with_reducible refine Keeps.letAny (fun x hx => ?_); subst hx); with_reducible refine Keeps.foldl (fun s x hs => ?_) _ ?_
  refine saggarStop_keeps _ _ _ ?_; assumption; refine modSlotBeat_keeps _ _ ?_; refine modFab_keeps _ ?_; assumption

theorem execSelftestDone_keeps {M : Part → Prop} {s0 a1 : State} (a0) (h : Keeps M s0 a1) (k_fab : ¬M .fab := by assumption) : Answers M s0 (execSelftestDone a0 a1) := by
  unfold execSelftestDone
  with_reducible apply Answers.done; split; refine Keeps.ite (fun _ => ?_) (fun _ => ?_); refine modFab_keeps _ ?_; assumption
  assumption; assumption

theorem forwardSlot_keeps {M : Part → Prop} {s0 a3 : State} (a0) (a1) (a2) (h : Keeps M s0 a3) (k_ctr : ¬M .ctr := by assumption) (k_fab : ¬M .fab := by assumption) (k_slots : ¬M .slots := by assumption) (k_net : ¬M .net := by assumption) : Keeps M s0 (forwardSlot a0 a1 a2 a3) := by
  unfold forwardSlot
  split; assumption; (with_reducible refine Keeps.letAny (fun x hx => ?_); subst hx); split; refine count_keeps _ _ _ ?_; assumption
  refine Keeps.ite (fun _ => ?_) (fun _ => ?_); with_reducible refine Keeps.foldl (fun s x hs => ?_) _ ?_
  refine forwardTo_keeps _ _ _ _ _ _ _ ?_; assumption; refine takeInput_keeps _ _ _ _ _ _ ?_; assumption; refine count_keeps _ _ _ ?_
  assumption

theorem autoRepair_keeps {M : Part → Prop} {s0 a1 : State} (a0) (h : Keeps M s0 a1) (k_fab : ¬M .fab := by assumption) : Keeps M s0 (autoRepair a0 a1) := by
  unfold autoRepair
  refine Keeps.ite (fun _ => ?_) (fun _ => ?_); assumption; (with_reducible refine Keeps.letAny (fun x hx => ?_); subst hx)
  refine modFab_keeps _ ?_; assumption

theorem failSite_keeps {M : Part → Prop} {s0 a1 : State} (a0) (h : Keeps M s0 a1) (k_led : ¬M .led := by assumption) (k_ctr : ¬M .ctr := by assumption) (k_fab : ¬M .fab := by assumption) : Keeps M s0 (failSite a0 a1) := by
  unfold failSite
  refine Keeps.ite (fun _ => ?_) (fun _ => ?_); assumption; (with_reducible refine Keeps.letAny (fun x hx => ?_); subst hx); split
  refine event_keeps _ _ _ ?_; refine modFab_keeps _ ?_; assumption; (with_reducible refine Keeps.letAny (fun x hx => ?_); subst hx)
  refine Keeps.ite (fun _ => ?_) (fun _ => ?_); refine autoRepair_keeps _ ?_; refine modFab_keeps _ ?_; refine event_keeps _ _ _ ?_
  refine modFab_keeps _ ?_; assumption; refine modFab_keeps _ ?_; refine event_keeps _ _ _ ?_; refine modFab_keeps _ ?_; assumption

theorem testFails_keeps {M : Part → Prop} {s0 a1 : State} (a0) (h : Keeps M s0 a1) (k_ctr : ¬M .ctr := by assumption) (k_fab : ¬M .fab := by assumption) : Keeps M s0 (testFails a0 a1) := by
  unfold testFails
  split; refine Keeps.ite (fun _ => ?_) (fun _ => ?_); refine count_keeps _ _ _ ?_; refine modFab_keeps _ ?_; assumption; assumption
  assumption

theorem execSwitchFault_keeps {M : Part → Prop} {s0 a1 : State} (a0) (h : Keeps M s0 a1) (k_led : ¬M .led := by assumption) (k_ctr : ¬M .ctr := by assumption) (k_fab : ¬M .fab := by assumption) : Answers M s0 (execSwitchFault a0 a1) := by
  unfold execSwitchFault
  with_reducible apply Answers.done; refine Keeps.ite (fun _ => ?_) (fun _ => ?_); refine event_keeps _ _ _ ?_
  refine modFab_keeps _ ?_; assumption; assumption

theorem execSlotForward_keeps {M : Part → Prop} {s0 a5 : State} (a0) (a1) (a2) (a3) (a4) (h : Keeps M s0 a5) (k_ctr : ¬M .ctr := by assumption) (k_fab : ¬M .fab := by assumption) (k_slots : ¬M .slots := by assumption) (k_net : ¬M .net := by assumption) : Answers M s0 (execSlotForward a0 a1 a2 a3 a4 a5) := by
  unfold execSlotForward
  with_reducible apply Answers.done; refine Keeps.ite (fun _ => ?_) (fun _ => ?_); assumption
  refine Keeps.ite (fun _ => ?_) (fun _ => ?_); split; assumption; refine loseEntry_keeps _ _ _ _ _ _ ?_; assumption
  refine forwardSlot_keeps _ _ _ ?_; refine Keeps.ite (fun _ => ?_) (fun _ => ?_); refine count_keeps _ _ _ ?_; assumption; assumption

theorem markFailedEffect_keeps {M : Part → Prop} {s0 a1 : State} (a0) (h : Keeps M s0 a1) (k_led : ¬M .led := by assumption) (k_ctr : ¬M .ctr := by assumption) (k_fab : ¬M .fab := by assumption) : Keeps M s0 (markFailedEffect a0 a1).2 := by
  unfold markFailedEffect
  refine checked_keeps _ _ ?_ ?_; assumption; intros; refine failSite_keeps _ ?_; assumption

theorem selftestEffect_keeps {M : Part → Prop} {s0 a1 : State} (a0) (h : Keeps M s0 a1) (k_fab : ¬M .fab := by assumption) : Keeps M s0 (selftestEffect a0 a1).2 := by
  unfold selftestEffect
  refine checked_keeps _ _ ?_ ?_; assumption; intros; refine modFab_keeps _ ?_; assumption

theorem execArraySiteFail_keeps {M : Part → Prop} {s0 a1 : State} (a0) (h : Keeps M s0 a1) (k_led : ¬M .led := by assumption) (k_ctr : ¬M .ctr := by assumption) (k_fab : ¬M .fab := by assumption) : Answers M s0 (execArraySiteFail a0 a1) := by
  unfold execArraySiteFail
  with_reducible apply Answers.done; refine Keeps.ite (fun _ => ?_) (fun _ => ?_); refine failSite_keeps _ ?_
  refine testFails_keeps _ ?_; assumption; assumption

theorem execSelftestSlice_keeps {M : Part → Prop} {s0 a2 : State} (a0) (a1) (h : Keeps M s0 a2) (k_led : ¬M .led := by assumption) (k_ctr : ¬M .ctr := by assumption) (k_fab : ¬M .fab := by assumption) : Answers M s0 (execSelftestSlice a0 a1 a2) := by
  unfold execSelftestSlice
  (with_reducible refine Answers.letAny (fun x hx => ?_); subst hx); with_reducible apply Answers.done
  refine Keeps.ite (fun _ => ?_) (fun _ => ?_); assumption; refine Keeps.ite (fun _ => ?_) (fun _ => ?_)
  with_reducible refine Keeps.letIn ?_ (fun s hs => ?_); refine count_keeps _ _ _ ?_; refine modFab_keeps _ ?_; assumption
  refine failSite_keeps _ ?_; assumption; refine Keeps.ite (fun _ => ?_) (fun _ => ?_); refine modFab_keeps _ ?_; assumption
  refine modFab_keeps _ ?_; assumption

theorem returnHome_keeps {M : Part → Prop} {s0 a1 : State} (a0) (h : Keeps M s0 a1) (k_fab : ¬M .fab := by assumption) (k_slots : ¬M .slots := by assumption) (k_arrays : ¬M .arrays := by assumption) (k_engines : ¬M .engines := by assumption) (k_serves : ¬M .serves := by assumption) : Keeps M s0 (returnHome a0 a1) := by
  unfold returnHome
  refine Keeps.ite (fun _ => ?_) (fun _ => ?_); assumption; refine freshSite_keeps _ ?_; refine modFab_keeps _ ?_; assumption

end Sys2Proof.Machine
end

