-- ==== Sys2Proof/Laws/KeepsGlazeOps.lean ====
section
/-! SUPPORT. The queue and the invariant are kept by the operations of Machine/GlazeOps.lean. -/

set_option Elab.async false

namespace Sys2Proof.Machine

theorem setThread_keeps {M : Part → Prop} {s0 a3 : State} (a0) (a1) (a2) (h : Keeps M s0 a3) (k_arrays : ¬M .arrays := by assumption) : Keeps M s0 (setThread a0 a1 a2 a3) := by
  unfold setThread
  refine modArray_keeps _ _ ?_ ?_; intros; with_reducible assumption; assumption

theorem glazeNext_keeps {M : Part → Prop} {s0 a1 : State} (a0) (h : Keeps M s0 a1) (k_ctr : ¬M .ctr := by assumption) (k_arrays : ¬M .arrays := by assumption) : Keeps M s0 (glazeNext a0 a1) := by
  unfold glazeNext
  refine count_keeps _ _ _ ?_; refine setThread_keeps _ _ _ ?_; assumption

theorem elementWise_keeps {M : Part → Prop} {s0 s : State} (nans f c) (h : Keeps M s0 s) (k_ctr : ¬M .ctr := by assumption) (k_arrays : ¬M .arrays := by assumption) : Keeps M s0 (elementWise nans f c s) := by
  have h1 : ∀ rs : List ((Nat × Nat) × Word), Keeps M s0 (setArray c.a (rs.foldl (fun x e => regPut (gVd c.w) e.1.1 e.1.2 e.2 x) (arrayOf s c.a)) s) :=
    fun rs => h.setTbf _ (by rw [foldl_tbf]; intros; rfl)
  unfold elementWise
  exact glazeNext_keeps _ (Keeps.ite (fun _ => h1 _) (fun _ => count_keeps _ _ _ (h1 _)))

theorem arith_keeps {M : Part → Prop} {s0 a3 : State} (a0) (a1) (a2) (h : Keeps M s0 a3) (k_ctr : ¬M .ctr := by assumption) (k_arrays : ¬M .arrays := by assumption) : Keeps M s0 (arith a0 a1 a2 a3) := by
  unfold arith
  refine elementWise_keeps _ _ _ ?_; assumption

theorem glazeRun_keeps {M : Part → Prop} {s0 a4 : State} (a0) (a1) (a2) (a3) (h : Keeps M s0 a4) (hf3 : ∀ x s, Keeps M s0 s → Keeps M s0 (a3 x s)) : Keeps M s0 (glazeRun a0 a1 a2 a3 a4) := by
  unfold glazeRun
  split; assumption; split; assumption; refine Keeps.ite (fun _ => ?_) (fun _ => ?_); apply hf3; assumption; assumption

theorem dropThread_keeps {M : Part → Prop} {s0 a2 : State} (a0) (a1) (h : Keeps M s0 a2) (k_arrays : ¬M .arrays := by assumption) : Keeps M s0 (dropThread a0 a1 a2) := by
  unfold dropThread
  refine modArray_keeps _ _ ?_ ?_; intros; with_reducible assumption; assumption

theorem startProgram_keeps {M : Part → Prop} {s0 a2 : State} (a0) (a1) (h : Keeps M s0 a2) (k_arrays : ¬M .arrays := by assumption) : Keeps M s0 (startProgram a0 a1 a2) := by
  unfold startProgram
  split; assumption; (with_reducible refine Keeps.letAny (fun x hx => ?_); subst hx); refine Keeps.ite (fun _ => ?_) (fun _ => ?_)
  assumption; split; assumption; (with_reducible refine Keeps.letAny (fun x hx => ?_); subst hx); refine setThread_keeps _ _ _ ?_
  assumption

theorem glazeAbandon_keeps {M : Part → Prop} {s0 a1 : State} (a0) (h : Keeps M s0 a1) (k_led : ¬M .led := by assumption) (k_ctr : ¬M .ctr := by assumption) (k_slots : ¬M .slots := by assumption) (k_arrays : ¬M .arrays := by assumption) : Keeps M s0 (glazeAbandon a0 a1) := by
  unfold glazeAbandon
  with_reducible refine Keeps.letIn ?_ (fun s hs => ?_); refine failTag_keeps _ _ _ ?_; refine event_keeps _ _ _ ?_
  refine count_keeps _ _ _ ?_; refine leaveFlight_keeps _ _ _ _ ?_; refine dropThread_keeps _ _ ?_; assumption
  refine startProgram_keeps _ _ ?_; assumption

theorem reduceWith_keeps {M : Part → Prop} {s0 s : State} (d g nans c) (h : Keeps M s0 s) (k_ctr : ¬M .ctr := by assumption) (k_arrays : ¬M .arrays := by assumption) : Keeps M s0 (reduceWith d g nans c s) := by
  have hx : ∀ (rs : List (Nat × Nat × Word)) (b : Bool), (if b then
      rs.foldl (fun x e => regPut (gVd c.w) e.1 e.2.1 e.2.2 x) ((List.range 16).foldl (fun x r => putRow (gVd c.w) r (fun _ => 0) x) (arrayOf s c.a))
      else rs.foldl (fun x e => putRow (gVd c.w) e.1 (fun l => if l = 0 || gBit c.w 28 then e.2.2 else 0) x) (arrayOf s c.a)).tbf =
      (arrayOf s c.a).tbf := by
    intro rs b; cases b
    · exact foldl_tbf (fun _ _ => putRow_tbf _ _ _ _) _ _
    · exact (foldl_tbf (by intros; rfl) _ _).trans (foldl_tbf (fun _ _ => putRow_tbf _ _ _ _) _ _)
  have h1 := fun rs => h.setTbf c.a (hx rs (gBit c.w 29))
  unfold reduceWith
  exact glazeNext_keeps _ (Keeps.ite (fun _ => h1 _) (fun _ => count_keeps _ _ _ (h1 _)))

end Sys2Proof.Machine
end

