-- ==== Sys2Proof/Laws/KeepsSharing.lean ====
section
/-! SUPPORT. The queue and the invariant are kept by the operations of Machine/Sharing.lean. -/

set_option Elab.async false

namespace Sys2Proof.Machine

theorem failRefresh_keeps {M : Part → Prop} {s0 a0 : State}  (h : Keeps M s0 a0) (k_led : ¬M .led := by assumption) (k_ctr : ¬M .ctr := by assumption) (k_refresh : ¬M .refresh := by assumption) : Keeps M s0 (failRefresh a0) := by
  unfold failRefresh
  refine Keeps.ite (fun _ => ?_) (fun _ => ?_); refine event_keeps _ _ _ ?_; with_reducible refine Keeps.upd ?_; assumption; assumption

theorem freeSlot_keeps {M : Part → Prop} {s0 a1 : State} (a0) (h : Keeps M s0 a1) (k_fresh : ¬M .fresh := by assumption) (k_out : ¬M .out := by assumption) (k_led : ¬M .led := by assumption) (k_ctr : ¬M .ctr := by assumption) (k_fab : ¬M .fab := by assumption) (k_slots : ¬M .slots := by assumption) (k_arrays : ¬M .arrays := by assumption) (k_mem : ¬M .mem := by assumption) (k_engines : ¬M .engines := by assumption) (k_colls : ¬M .colls := by assumption) (k_secures : ¬M .secures := by assumption) (k_serves : ¬M .serves := by assumption) (k_refresh : ¬M .refresh := by assumption) (k_host : ¬M .host := by assumption) : Keeps M s0 (freeSlot a0 a1) := by
  unfold freeSlot
  with_reducible refine Keeps.letIn ?_ (fun s hs => ?_); refine setSlot_keeps _ _ ?_; refine modFab_keeps _ ?_
  with_reducible refine Keeps.foldl (fun s x hs => ?_) _ ?_; refine purgePath_keeps _ _ _ ?_; assumption
  with_reducible refine Keeps.updGen ?_ (fun hm => by first | exact hm | exact tbfs_kmap (fun _ _ => rfl) hm | exact fits_filter _ hm | exact wf_clearBytes _ _ _ hm | exact tbfs_nil) (fun hm => by first | exact hm | exact tbfs_kmap (fun _ _ => rfl) hm | exact fits_filter _ hm | exact wf_clearBytes _ _ _ hm | exact tbfs_nil) (fun hm => by first | exact hm | exact tbfs_kmap (fun _ _ => rfl) hm | exact fits_filter _ hm | exact wf_clearBytes _ _ _ hm | exact tbfs_nil) (fun hm => by first | exact hm | exact tbfs_kmap (fun _ _ => rfl) hm | exact fits_filter _ hm | exact wf_clearBytes _ _ _ hm | exact tbfs_nil) (fun hm => by first | exact hm | exact tbfs_kmap (fun _ _ => rfl) hm | exact fits_filter _ hm | exact wf_clearBytes _ _ _ hm | exact tbfs_nil) (fun hm => by first | exact hm | exact tbfs_kmap (fun _ _ => rfl) hm | exact fits_filter _ hm | exact wf_clearBytes _ _ _ hm | exact tbfs_nil) (fun hm => by first | exact hm | exact tbfs_kmap (fun _ _ => rfl) hm | exact fits_filter _ hm | exact wf_clearBytes _ _ _ hm | exact tbfs_nil)
  refine Keeps.ite (fun _ => ?_) (fun _ => ?_); refine failRefresh_keeps ?_; refine discardStep_keeps _ ?_
  with_reducible refine Keeps.upd ?_; assumption; refine discardStep_keeps _ ?_; with_reducible refine Keeps.upd ?_; assumption
  refine Keeps.ite (fun _ => ?_) (fun _ => ?_); refine signal_keeps _ _ ?_; refine setSlot_keeps _ _ ?_; refine modFab_keeps _ ?_
  with_reducible refine Keeps.foldl (fun s x hs => ?_) _ ?_; refine purgePath_keeps _ _ _ ?_; assumption
  with_reducible refine Keeps.updGen ?_ (fun hm => by first | exact hm | exact tbfs_kmap (fun _ _ => rfl) hm | exact fits_filter _ hm | exact wf_clearBytes _ _ _ hm | exact tbfs_nil) (fun hm => by first | exact hm | exact tbfs_kmap (fun _ _ => rfl) hm | exact fits_filter _ hm | exact wf_clearBytes _ _ _ hm | exact tbfs_nil) (fun hm => by first | exact hm | exact tbfs_kmap (fun _ _ => rfl) hm | exact fits_filter _ hm | exact wf_clearBytes _ _ _ hm | exact tbfs_nil) (fun hm => by first | exact hm | exact tbfs_kmap (fun _ _ => rfl) hm | exact fits_filter _ hm | exact wf_clearBytes _ _ _ hm | exact tbfs_nil) (fun hm => by first | exact hm | exact tbfs_kmap (fun _ _ => rfl) hm | exact fits_filter _ hm | exact wf_clearBytes _ _ _ hm | exact tbfs_nil) (fun hm => by first | exact hm | exact tbfs_kmap (fun _ _ => rfl) hm | exact fits_filter _ hm | exact wf_clearBytes _ _ _ hm | exact tbfs_nil) (fun hm => by first | exact hm | exact tbfs_kmap (fun _ _ => rfl) hm | exact fits_filter _ hm | exact wf_clearBytes _ _ _ hm | exact tbfs_nil)
  refine Keeps.ite (fun _ => ?_) (fun _ => ?_); refine failRefresh_keeps ?_; refine discardStep_keeps _ ?_
  with_reducible refine Keeps.upd ?_; assumption; refine discardStep_keeps _ ?_; with_reducible refine Keeps.upd ?_; assumption
  assumption

theorem execReleaseTakeEffect_keeps {M : Part → Prop} {s0 a1 : State} (a0) (h : Keeps M s0 a1) (k_fresh : ¬M .fresh := by assumption) (k_out : ¬M .out := by assumption) (k_led : ¬M .led := by assumption) (k_ctr : ¬M .ctr := by assumption) (k_fab : ¬M .fab := by assumption) (k_slots : ¬M .slots := by assumption) (k_arrays : ¬M .arrays := by assumption) (k_mem : ¬M .mem := by assumption) (k_engines : ¬M .engines := by assumption) (k_colls : ¬M .colls := by assumption) (k_secures : ¬M .secures := by assumption) (k_admissions : ¬M .admissions := by assumption) (k_serves : ¬M .serves := by assumption) (k_refresh : ¬M .refresh := by assumption) (k_host : ¬M .host := by assumption) : Answers M s0 (execReleaseTakeEffect a0 a1) := by
  unfold execReleaseTakeEffect
  with_reducible apply Answers.done; refine Keeps.ite (fun _ => ?_) (fun _ => ?_)
  (with_reducible refine Keeps.letAny (fun x hx => ?_); subst hx); refine event_keeps _ _ _ ?_; refine count_keeps _ _ _ ?_
  refine Keeps.ite (fun _ => ?_) (fun _ => ?_); refine setAdmission_keeps _ _ ?_; refine freeSlot_keeps _ ?_; assumption
  refine freeSlot_keeps _ ?_; assumption; assumption

theorem startRoute_keeps {M : Part → Prop} {s0 a2 : State} (a0) (a1) (h : Keeps M s0 a2) (k_out : ¬M .out := by assumption) (k_slots : ¬M .slots := by assumption) (k_host : ¬M .host := by assumption) : Keeps M s0 (startRoute a0 a1 a2) := by
  unfold startRoute
  with_reducible refine Keeps.letIn ?_ (fun s hs => ?_); refine modSlot_keeps _ _ ?_; assumption
  refine Keeps.ite (fun _ => ?_) (fun _ => ?_); refine setTrainState_keeps _ _ ?_; refine modSlot_keeps _ _ ?_; assumption; assumption

theorem execRouteStart_keeps {M : Part → Prop} {s0 a1 : State} (a0) (h : Keeps M s0 a1) (k_out : ¬M .out := by assumption) (k_slots : ¬M .slots := by assumption) (k_net : ¬M .net := by assumption) (k_admissions : ¬M .admissions := by assumption) (k_host : ¬M .host := by assumption) : Answers M s0 (execRouteStart a0 a1) := by
  unfold execRouteStart
  split; with_reducible apply Answers.done; assumption; with_reducible refine Answers.ite (fun hc => ?_) (fun hc => ?_)
  with_reducible apply Answers.done; assumption; (with_reducible refine Answers.letAny (fun x hx => ?_); subst hx); split
  with_reducible refine Answers.letIn ?_ (fun s hs => ?_); refine Keeps.ite (fun _ => ?_) (fun _ => ?_); refine startRoute_keeps _ _ ?_
  with_reducible refine Keeps.foldl (fun s x hs => ?_) _ ?_; refine sendUp_keeps _ _ _ ?_; assumption; assumption
  with_reducible refine Keeps.foldl (fun s x hs => ?_) _ ?_; refine sendUp_keeps _ _ _ ?_; assumption; assumption
  with_reducible apply Answers.done; assumption; with_reducible apply Answers.done; refine modAdmission_keeps _ _ ?_; assumption

theorem cancelEffect_keeps {M : Part → Prop} {s0 a1 : State} (a0) (h : Keeps M s0 a1) (k_out : ¬M .out := by assumption) (k_admissions : ¬M .admissions := by assumption) (k_host : ¬M .host := by assumption) : Keeps M s0 (cancelEffect a0 a1).2 := by
  unfold cancelEffect
  refine checked_keeps _ _ ?_ ?_; assumption; intros; refine setAdmission_keeps _ _ ?_; assumption

theorem refuse_keeps {M : Part → Prop} {s0 a3 : State} (a0) (a1) (a2) (h : Keeps M s0 a3) (k_out : ¬M .out := by assumption) (k_led : ¬M .led := by assumption) (k_ctr : ¬M .ctr := by assumption) (k_admissions : ¬M .admissions := by assumption) (k_host : ¬M .host := by assumption) : Keeps M s0 (refuse a0 a1 a2 a3) := by
  unfold refuse
  refine event_keeps _ _ _ ?_; refine count_keeps _ _ _ ?_; refine setAdmission_keeps _ _ ?_; assumption

theorem setUpRoute_keeps {M : Part → Prop} {s0 a2 : State} (a0) (a1) (h : Keeps M s0 a2) (k_fab : ¬M .fab := by assumption) (k_slots : ¬M .slots := by assumption) (k_engines : ¬M .engines := by assumption) : Keeps M s0 (setUpRoute a0 a1 a2) := by
  unfold setUpRoute
  (with_reducible refine Keeps.letAny (fun x hx => ?_); subst hx); with_reducible refine Keeps.foldl (fun s x hs => ?_) _ ?_
  refine modEngine_keeps _ _ ?_; assumption; with_reducible refine Keeps.foldl (fun s x hs => ?_) _ ?_; refine putUnit_keeps _ _ _ ?_
  assumption; refine modSlot_keeps _ _ ?_; assumption

theorem releaseEffect_keeps {M : Part → Prop} {s0 a2 : State} (a0) (a1) (h : Keeps M s0 a2) (k_slots : ¬M .slots := by assumption) : Keeps M s0 (releaseEffect a0 a1 a2).2 := by
  unfold releaseEffect
  refine checked_keeps _ _ ?_ ?_; assumption; intros; refine modSlot_keeps _ _ ?_; assumption

theorem execRouteResident_keeps {M : Part → Prop} {s0 a1 : State} (a0) (h : Keeps M s0 a1) (k_out : ¬M .out := by assumption) (k_ctr : ¬M .ctr := by assumption) (k_fab : ¬M .fab := by assumption) (k_slots : ¬M .slots := by assumption) (k_engines : ¬M .engines := by assumption) (k_admissions : ¬M .admissions := by assumption) (k_host : ¬M .host := by assumption) : Answers M s0 (execRouteResident a0 a1) := by
  unfold execRouteResident
  (with_reducible refine Answers.letAny (fun x hx => ?_); subst hx); split; with_reducible apply Answers.done; assumption
  with_reducible refine Answers.ite (fun hc => ?_) (fun hc => ?_); with_reducible apply Answers.done; assumption
  with_reducible refine Answers.letIn ?_ (fun s hs => ?_); refine Keeps.ite (fun _ => ?_) (fun _ => ?_); refine startRoute_keeps _ _ ?_
  refine count_keeps _ _ _ ?_; refine setAdmission_keeps _ _ ?_; refine modSlot_keeps _ _ ?_; refine setUpRoute_keeps _ _ ?_
  assumption; refine count_keeps _ _ _ ?_; refine setAdmission_keeps _ _ ?_; refine modSlot_keeps _ _ ?_
  refine setUpRoute_keeps _ _ ?_; assumption; with_reducible apply Answers.done; assumption

theorem execRouteStartFrame_keeps {M : Part → Prop} {s0 a4 : State} (a0) (a1) (a2) (a3) (h : Keeps M s0 a4) (k_out : ¬M .out := by assumption) (k_slots : ¬M .slots := by assumption) (k_admissions : ¬M .admissions := by assumption) (k_host : ¬M .host := by assumption) : Answers M s0 (execRouteStartFrame a0 a1 a2 a3 a4) := by
  unfold execRouteStartFrame
  (with_reducible refine Answers.letAny (fun x hx => ?_); subst hx); with_reducible apply Answers.done
  with_reducible refine Keeps.foldl (fun s x hs => ?_) _ ?_; (with_reducible refine Keeps.letAny (fun x hx => ?_); subst hx)
  refine Keeps.ite (fun _ => ?_) (fun _ => ?_); refine modAdmission_keeps _ _ ?_; assumption
  with_reducible refine Keeps.letIn ?_ (fun s hs => ?_); refine modSlot_keeps _ _ ?_; assumption
  refine Keeps.ite (fun _ => ?_) (fun _ => ?_); refine startRoute_keeps _ _ ?_; refine modSlot_keeps _ _ ?_; assumption; assumption
  assumption

theorem startLoad_keeps {M : Part → Prop} {s0 a2 : State} (a0) (a1) (h : Keeps M s0 a2) (k_out : ¬M .out := by assumption) (k_slots : ¬M .slots := by assumption) (k_admissions : ¬M .admissions := by assumption) (k_host : ¬M .host := by assumption) : Keeps M s0 (startLoad a0 a1 a2) := by
  unfold startLoad
  refine setAdmission_keeps _ _ ?_; refine setSlot_keeps _ _ ?_; assumption

theorem giveSlot_keeps {M : Part → Prop} {s0 a1 : State} (a0) (h : Keeps M s0 a1) (k_out : ¬M .out := by assumption) (k_slots : ¬M .slots := by assumption) (k_admissions : ¬M .admissions := by assumption) (k_host : ¬M .host := by assumption) : Keeps M s0 (giveSlot a0 a1) := by
  unfold giveSlot
  refine Keeps.ite (fun _ => ?_) (fun _ => ?_); assumption; split; refine startLoad_keeps _ _ ?_; assumption; assumption

theorem execSlotGive_keeps {M : Part → Prop} {s0 a1 : State} (a0) (h : Keeps M s0 a1) (k_out : ¬M .out := by assumption) (k_slots : ¬M .slots := by assumption) (k_admissions : ¬M .admissions := by assumption) (k_host : ¬M .host := by assumption) : Answers M s0 (execSlotGive a0 a1) := by
  unfold execSlotGive
  with_reducible apply Answers.done; refine giveSlot_keeps _ ?_; assumption

theorem admitEffect_keeps {M : Part → Prop} {s0 a2 : State} (a0) (a1) (h : Keeps M s0 a2) (k_out : ¬M .out := by assumption) (k_led : ¬M .led := by assumption) (k_ctr : ¬M .ctr := by assumption) (k_slots : ¬M .slots := by assumption) (k_admissions : ¬M .admissions := by assumption) (k_host : ¬M .host := by assumption) : Keeps M s0 (admitEffect a0 a1 a2).2 := by
  unfold admitEffect
  (with_reducible refine Keeps.letAnySnd (fun x hx => ?_); subst hx); refine checked_keeps _ _ ?_ ?_; assumption; intros
  (with_reducible refine Keeps.letAny (fun x hx => ?_); subst hx); split; refine startLoad_keeps _ _ ?_
  refine modAdmission_keeps _ _ ?_; assumption; refine Keeps.ite (fun _ => ?_) (fun _ => ?_); refine setAdmission_keeps _ _ ?_
  refine modAdmission_keeps _ _ ?_; assumption; refine refuse_keeps _ _ _ ?_; refine modAdmission_keeps _ _ ?_; assumption

end Sys2Proof.Machine
end

