-- ==== Sys2Proof/Laws/KeepsServing.lean ====
section
/-! SUPPORT. The queue and the invariant are kept by the operations of Machine/Serving.lean. -/

set_option Elab.async false

namespace Sys2Proof.Machine

theorem modQuery_keeps {M : Part → Prop} {s0 a3 : State} (a0) (a1) (a2) (h : Keeps M s0 a3) (k_serves : ¬M .serves := by assumption) : Keeps M s0 (modQuery a0 a1 a2 a3) := by
  unfold modQuery
  refine modServe_keeps _ _ ?_; assumption

theorem countServe_keeps {M : Part → Prop} {s0 a4 : State} (a0) (a1) (a2) (a3) (h : Keeps M s0 a4) (k_ctr : ¬M .ctr := by assumption) : Keeps M s0 (countServe a0 a1 a2 a3 a4) := by
  unfold countServe
  refine countStation_keeps _ _ _ _ ?_; refine count_keeps _ _ _ ?_; assumption

theorem deliverLine_keeps {M : Part → Prop} {s0 a6 : State} (a0) (a1) (a2) (a3) (a4) (a5) (h : Keeps M s0 a6) (k_out : ¬M .out := by assumption) (k_ctr : ¬M .ctr := by assumption) (k_serves : ¬M .serves := by assumption) (k_host : ¬M .host := by assumption) : Keeps M s0 (deliverLine a0 a1 a2 a3 a4 a5 a6) := by
  unfold deliverLine
  split; assumption; refine Keeps.ite (fun _ => ?_) (fun _ => ?_); (with_reducible refine Keeps.letAny (fun x hx => ?_); subst hx)
  refine count_keeps _ _ _ ?_; refine emit_keeps _ ?_; refine modServe_keeps _ _ ?_; assumption
  with_reducible refine Keeps.letIn ?_ (fun s hs => ?_); refine Keeps.ite (fun _ => ?_) (fun _ => ?_)
  (with_reducible refine Keeps.letAny (fun x hx => ?_); subst hx); refine Keeps.ite (fun _ => ?_) (fun _ => ?_); refine emit_keeps _ ?_
  refine emit_keeps _ ?_; refine countServe_keeps _ _ _ _ ?_; refine modServe_keeps _ _ ?_; assumption
  refine countServe_keeps _ _ _ _ ?_; refine modServe_keeps _ _ ?_; assumption; refine modServe_keeps _ _ ?_; assumption
  refine Keeps.ite (fun _ => ?_) (fun _ => ?_); refine signal_keeps _ _ ?_; refine Keeps.ite (fun _ => ?_) (fun _ => ?_)
  (with_reducible refine Keeps.letAny (fun x hx => ?_); subst hx); refine Keeps.ite (fun _ => ?_) (fun _ => ?_); refine emit_keeps _ ?_
  refine emit_keeps _ ?_; refine countServe_keeps _ _ _ _ ?_; refine modServe_keeps _ _ ?_; assumption
  refine countServe_keeps _ _ _ _ ?_; refine modServe_keeps _ _ ?_; assumption; refine modServe_keeps _ _ ?_; assumption; assumption

theorem answer_keeps {M : Part → Prop} {s0 a7 : State} (a0) (a1) (a2) (a3) (a4) (a5) (a6) (h : Keeps M s0 a7) (k_out : ¬M .out := by assumption) (k_ctr : ¬M .ctr := by assumption) (k_serves : ¬M .serves := by assumption) (k_host : ¬M .host := by assumption) : Keeps M s0 (answer a0 a1 a2 a3 a4 a5 a6 a7) := by
  unfold answer
  with_reducible refine Keeps.letIn ?_ (fun s hs => ?_); refine Keeps.ite (fun _ => ?_) (fun _ => ?_)
  refine countServe_keeps _ _ _ _ ?_; refine modQuery_keeps _ _ _ ?_; assumption; refine modQuery_keeps _ _ _ ?_; assumption
  refine deliverLine_keeps _ _ _ _ _ _ ?_; assumption

theorem answerAtOnce_keeps {M : Part → Prop} {s0 a4 : State} (a0) (a1) (a2) (a3) (h : Keeps M s0 a4) (k_out : ¬M .out := by assumption) (k_ctr : ¬M .ctr := by assumption) (k_serves : ¬M .serves := by assumption) (k_host : ¬M .host := by assumption) : Keeps M s0 (answerAtOnce a0 a1 a2 a3 a4) := by
  unfold answerAtOnce
  refine answer_keeps _ _ _ _ _ _ _ ?_; refine modQuery_keeps _ _ _ ?_; assumption

theorem admitQuery_keeps {M : Part → Prop} {s0 a7 : State} (a0) (a1) (a2) (a3) (a4) (a5) (a6) (h : Keeps M s0 a7) (k_out : ¬M .out := by assumption) (k_ctr : ¬M .ctr := by assumption) (k_serves : ¬M .serves := by assumption) (k_host : ¬M .host := by assumption) : Keeps M s0 (admitQuery a0 a1 a2 a3 a4 a5 a6 a7) := by
  unfold admitQuery
  (with_reducible refine Keeps.letAny (fun x hx => ?_); subst hx); refine Keeps.ite (fun _ => ?_) (fun _ => ?_)
  refine answerAtOnce_keeps _ _ _ _ ?_; refine countServe_keeps _ _ _ _ ?_; refine modServe_keeps _ _ ?_; assumption
  refine Keeps.ite (fun _ => ?_) (fun _ => ?_); refine countServe_keeps _ _ _ _ ?_; refine answerAtOnce_keeps _ _ _ _ ?_
  refine countServe_keeps _ _ _ _ ?_; refine modServe_keeps _ _ ?_; assumption; refine countServe_keeps _ _ _ _ ?_
  refine modServe_keeps _ _ ?_; assumption

theorem execConeRelease_keeps {M : Part → Prop} {s0 a2 : State} (a0) (a1) (h : Keeps M s0 a2) (k_out : ¬M .out := by assumption) (k_ctr : ¬M .ctr := by assumption) (k_serves : ¬M .serves := by assumption) (k_host : ¬M .host := by assumption) : Answers M s0 (execConeRelease a0 a1 a2) := by
  unfold execConeRelease
  split; with_reducible apply Answers.done; assumption; split; with_reducible apply Answers.done; assumption
  (with_reducible refine Answers.letAny (fun x hx => ?_); subst hx); with_reducible refine Answers.ite (fun hc => ?_) (fun hc => ?_)
  with_reducible apply Answers.done; assumption; with_reducible apply Answers.done; refine answer_keeps _ _ _ _ _ _ _ ?_; assumption

theorem cancelStation_keeps {M : Part → Prop} {s0 a4 : State} (a0) (a1) (a2) (a3) (h : Keeps M s0 a4) (k_ctr : ¬M .ctr := by assumption) (k_fab : ¬M .fab := by assumption) (k_slots : ¬M .slots := by assumption) (k_engines : ¬M .engines := by assumption) (k_net : ¬M .net := by assumption) : Keeps M s0 (cancelStation a0 a1 a2 a3 a4) := by
  unfold cancelStation
  (with_reducible refine Keeps.letAny (fun x hx => ?_); subst hx); with_reducible refine Keeps.foldl (fun s x hs => ?_) _ ?_
  refine leaveFlight_keeps _ _ _ _ ?_; assumption; with_reducible refine Keeps.foldl (fun s x hs => ?_) _ ?_
  refine queueCredit_keeps _ _ _ _ ?_; assumption; with_reducible refine Keeps.foldl (fun s x hs => ?_) _ ?_
  refine entryCredit_keeps _ _ _ _ _ ?_; refine lateDiscard_keeps _ _ _ _ ?_; assumption; refine modStation_keeps _ _ _ ?_; assumption

theorem releaseLine_keeps {M : Part → Prop} {s0 a2 : State} (a0) (a1) (h : Keeps M s0 a2) (k_ctr : ¬M .ctr := by assumption) (k_serves : ¬M .serves := by assumption) : Keeps M s0 (releaseLine a0 a1 a2) := by
  unfold releaseLine
  (with_reducible refine Keeps.letAny (fun x hx => ?_); subst hx); refine Keeps.ite (fun _ => ?_) (fun _ => ?_)
  refine modServe_keeps _ _ ?_; assumption; split; refine countServe_keeps _ _ _ _ ?_; assumption; refine count_keeps _ _ _ ?_
  assumption

theorem execResultReleaseWrite_keeps {M : Part → Prop} {s0 a3 : State} (a0) (a1) (a2) (h : Keeps M s0 a3) (k_ctr : ¬M .ctr := by assumption) (k_serves : ¬M .serves := by assumption) : Answers M s0 (execResultReleaseWrite a0 a1 a2 a3) := by
  unfold execResultReleaseWrite
  with_reducible apply Answers.done; refine Keeps.ite (fun _ => ?_) (fun _ => ?_); refine releaseLine_keeps _ _ ?_; assumption
  assumption

theorem cutoffAnswers_keeps {M : Part → Prop} {s0 a2 : State} (a0) (a1) (h : Keeps M s0 a2) (k_serves : ¬M .serves := by assumption) : Keeps M s0 (cutoffAnswers a0 a1 a2) := by
  unfold cutoffAnswers
  refine modServe_keeps _ _ ?_; assumption

theorem cancelArray_keeps {M : Part → Prop} {s0 a3 : State} (a0) (a1) (a2) (h : Keeps M s0 a3) (k_fresh : ¬M .fresh := by assumption) (k_arrays : ¬M .arrays := by assumption) (k_engines : ¬M .engines := by assumption) : Keeps M s0 (cancelArray a0 a1 a2 a3) := by
  unfold cancelArray
  (with_reducible refine Keeps.letAny (fun x hx => ?_); subst hx); with_reducible refine Keeps.foldl (fun s x hs => ?_) _ ?_
  refine startProgram_keeps _ _ ?_; refine dropThread_keeps _ _ ?_; assumption
  with_reducible refine Keeps.foldl (fun s x hs => ?_) _ ?_; refine abandonMmo_keeps _ _ ?_; assumption; assumption

theorem cancelUnit_keeps {M : Part → Prop} {s0 a4 : State} (a0) (a1) (a2) (a3) (h : Keeps M s0 a4) (k_fab : ¬M .fab := by assumption) (k_slots : ¬M .slots := by assumption) (k_net : ¬M .net := by assumption) : Keeps M s0 (cancelUnit a0 a1 a2 a3 a4) := by
  unfold cancelUnit
  (with_reducible refine Keeps.letAny (fun x hx => ?_); subst hx); with_reducible refine Keeps.foldl (fun s x hs => ?_) _ ?_; split
  refine returnCredit_keeps _ _ ?_; assumption; assumption; refine putUnit_keeps _ _ _ ?_; assumption

theorem cancelLine_keeps {M : Part → Prop} {s0 a3 : State} (a0) (a1) (a2) (h : Keeps M s0 a3) (k_fresh : ¬M .fresh := by assumption) (k_ctr : ¬M .ctr := by assumption) (k_fab : ¬M .fab := by assumption) (k_slots : ¬M .slots := by assumption) (k_arrays : ¬M .arrays := by assumption) (k_mem : ¬M .mem := by assumption) (k_engines : ¬M .engines := by assumption) (k_net : ¬M .net := by assumption) : Keeps M s0 (cancelLine a0 a1 a2 a3) := by
  unfold cancelLine
  (with_reducible refine Keeps.letAny (fun x hx => ?_); subst hx); with_reducible refine Keeps.foldl (fun s x hs => ?_) _ ?_
  refine cancelUnit_keeps _ _ _ _ ?_; assumption; with_reducible refine Keeps.foldl (fun s x hs => ?_) _ ?_
  refine cancelArray_keeps _ _ _ ?_; assumption; refine modSlot_keeps _ _ ?_; with_reducible refine Keeps.foldl (fun s x hs => ?_) _ ?_
  refine cancelStation_keeps _ _ _ _ ?_; assumption; refine cancelMoves_keeps _ _ ?_; assumption

theorem enterStation_keeps {M : Part → Prop} {s0 a3 : State} (a0) (a1) (a2) (h : Keeps M s0 a3) (k_out : ¬M .out := by assumption) (k_ctr : ¬M .ctr := by assumption) (k_serves : ¬M .serves := by assumption) (k_host : ¬M .host := by assumption) : Keeps M s0 (enterStation a0 a1 a2 a3) := by
  unfold enterStation
  (with_reducible refine Keeps.letAny (fun x hx => ?_); subst hx); with_reducible refine Keeps.foldl (fun s x hs => ?_) _ ?_
  refine countServe_keeps _ _ _ _ ?_; refine modQuery_keeps _ _ _ ?_; assumption
  with_reducible refine Keeps.foldl (fun s x hs => ?_) _ ?_; refine countServe_keeps _ _ _ _ ?_; refine answerAtOnce_keeps _ _ _ _ ?_
  assumption; assumption

theorem armRefresh_keeps {M : Part → Prop} {s0 a1 : State} (a0) (h : Keeps M s0 a1) (k_serves : ¬M .serves := by assumption) (k_refresh : ¬M .refresh := by assumption) : Keeps M s0 (armRefresh a0 a1) := by
  unfold armRefresh
  refine Keeps.ite (fun _ => ?_) (fun _ => ?_); assumption; (with_reducible refine Keeps.letAny (fun x hx => ?_); subst hx)
  with_reducible refine Keeps.upd ?_; with_reducible refine Keeps.foldl (fun s x hs => ?_) _ ?_; refine modServe_keeps _ _ ?_
  assumption; assumption

theorem execBankSwap_keeps {M : Part → Prop} {s0 a1 : State} (a0) (h : Keeps M s0 a1) (k_led : ¬M .led := by assumption) (k_ctr : ¬M .ctr := by assumption) (k_serves : ¬M .serves := by assumption) (k_refresh : ¬M .refresh := by assumption) : Answers M s0 (execBankSwap a0 a1) := by
  unfold execBankSwap
  (with_reducible refine Answers.letAny (fun x hx => ?_); subst hx); with_reducible apply Answers.done
  refine Keeps.ite (fun _ => ?_) (fun _ => ?_); assumption; refine Keeps.ite (fun _ => ?_) (fun _ => ?_)
  refine Keeps.ite (fun _ => ?_) (fun _ => ?_); assumption; refine event_keeps _ _ _ ?_; with_reducible refine Keeps.upd ?_; assumption
  (with_reducible refine Keeps.letAny (fun x hx => ?_); subst hx); refine event_keeps _ _ _ ?_; refine count_keeps _ _ _ ?_
  with_reducible refine Keeps.upd ?_; refine modServe_keeps _ _ ?_; assumption

theorem autoRelease_keeps {M : Part → Prop} {s0 a3 : State} (a0) (a1) (a2) (h : Keeps M s0 a3) (k_serves : ¬M .serves := by assumption) : Keeps M s0 (autoRelease a0 a1 a2 a3) := by
  unfold autoRelease
  refine Keeps.ite (fun _ => ?_) (fun _ => ?_); assumption; refine modServe_keeps _ _ ?_; assumption

theorem execRequestPost_keeps {M : Part → Prop} {s0 a4 : State} (a0) (a1) (a2) (a3) (h : Keeps M s0 a4) (k_out : ¬M .out := by assumption) (k_ctr : ¬M .ctr := by assumption) (k_serves : ¬M .serves := by assumption) (k_host : ¬M .host := by assumption) : Answers M s0 (execRequestPost a0 a1 a2 a3 a4) := by
  unfold execRequestPost
  with_reducible refine Answers.ite (fun hc => ?_) (fun hc => ?_); with_reducible apply Answers.done; assumption
  (with_reducible refine Answers.letAny (fun x hx => ?_); subst hx); split; with_reducible apply Answers.done
  refine modServe_keeps _ _ ?_; assumption; with_reducible refine Answers.ite (fun hc => ?_) (fun hc => ?_)
  with_reducible apply Answers.done; refine modServe_keeps _ _ ?_; assumption; split; with_reducible apply Answers.done
  refine count_keeps _ _ _ ?_; refine modServe_keeps _ _ ?_; assumption
  with_reducible refine Answers.ite (fun hc => ?_) (fun hc => ?_); with_reducible apply Answers.done
  refine countServe_keeps _ _ _ _ ?_; refine modServe_keeps _ _ ?_; assumption
  (with_reducible refine Answers.letAny (fun x hx => ?_); subst hx); with_reducible apply Answers.done
  refine autoRelease_keeps _ _ _ ?_; refine admitQuery_keeps _ _ _ _ _ _ _ ?_; refine modServe_keeps _ _ ?_; assumption

theorem markNotReady_keeps {M : Part → Prop} {s0 a3 : State} (a0) (a1) (a2) (h : Keeps M s0 a3) (k_serves : ¬M .serves := by assumption) : Keeps M s0 (markNotReady a0 a1 a2 a3) := by
  unfold markNotReady
  refine modServe_keeps _ _ ?_; assumption

theorem execDatagramReceive_keeps {M : Part → Prop} {s0 a2 : State} (a0) (a1) (h : Keeps M s0 a2) (k_out : ¬M .out := by assumption) (k_ctr : ¬M .ctr := by assumption) (k_serves : ¬M .serves := by assumption) (k_host : ¬M .host := by assumption) : Answers M s0 (execDatagramReceive a0 a1 a2) := by
  unfold execDatagramReceive
  with_reducible refine Answers.ite (fun hc => ?_) (fun hc => ?_); with_reducible apply Answers.done; assumption
  (with_reducible refine Answers.letAny (fun x hx => ?_); subst hx); with_reducible refine Answers.ite (fun hc => ?_) (fun hc => ?_)
  with_reducible apply Answers.done; refine count_keeps _ _ _ ?_; refine count_keeps _ _ _ ?_; assumption
  with_reducible refine Answers.ite (fun hc => ?_) (fun hc => ?_); with_reducible apply Answers.done; refine count_keeps _ _ _ ?_
  refine count_keeps _ _ _ ?_; assumption; with_reducible refine Answers.ite (fun hc => ?_) (fun hc => ?_)
  with_reducible apply Answers.done; refine count_keeps _ _ _ ?_; refine count_keeps _ _ _ ?_; assumption; split
  with_reducible apply Answers.done; refine count_keeps _ _ _ ?_; refine count_keeps _ _ _ ?_; assumption
  (with_reducible refine Answers.letAny (fun x hx => ?_); subst hx); split; with_reducible apply Answers.done
  refine count_keeps _ _ _ ?_; refine count_keeps _ _ _ ?_; assumption; with_reducible refine Answers.ite (fun hc => ?_) (fun hc => ?_)
  with_reducible apply Answers.done; refine count_keeps _ _ _ ?_; refine count_keeps _ _ _ ?_; assumption
  (with_reducible refine Answers.letAny (fun x hx => ?_); subst hx); split; with_reducible apply Answers.done
  refine admitQuery_keeps _ _ _ _ _ _ _ ?_; refine count_keeps _ _ _ ?_; assumption
  with_reducible refine Answers.letIn ?_ (fun s hs => ?_); refine count_keeps _ _ _ ?_; refine emit_keeps _ ?_
  refine countServe_keeps _ _ _ _ ?_; refine countServe_keeps _ _ _ _ ?_; refine count_keeps _ _ _ ?_; assumption
  with_reducible apply Answers.done; assumption

theorem refreshCommit_keeps {M : Part → Prop} {s0 a2 : State} (a0) (a1) (h : Keeps M s0 a2) (k_led : ¬M .led := by assumption) (k_ctr : ¬M .ctr := by assumption) (k_refresh : ¬M .refresh := by assumption) : Keeps M s0 (refreshCommit a0 a1 a2) := by
  unfold refreshCommit
  (with_reducible refine Keeps.letAny (fun x hx => ?_); subst hx); refine Keeps.ite (fun _ => ?_) (fun _ => ?_); assumption
  (with_reducible refine Keeps.letAny (fun x hx => ?_); subst hx); refine Keeps.ite (fun _ => ?_) (fun _ => ?_)
  refine failRefresh_keeps ?_; refine Keeps.ite (fun _ => ?_) (fun _ => ?_); with_reducible refine Keeps.upd ?_; assumption
  refine count_keeps _ _ _ ?_; with_reducible refine Keeps.upd ?_; assumption; refine Keeps.ite (fun _ => ?_) (fun _ => ?_)
  with_reducible refine Keeps.upd ?_; assumption; refine count_keeps _ _ _ ?_; with_reducible refine Keeps.upd ?_; assumption

theorem enterRequests_keeps {M : Part → Prop} {s0 a3 : State} (a0) (a1) (a2) (h : Keeps M s0 a3) (k_out : ¬M .out := by assumption) (k_ctr : ¬M .ctr := by assumption) (k_serves : ¬M .serves := by assumption) (k_host : ¬M .host := by assumption) : Keeps M s0 (enterRequests a0 a1 a2 a3) := by
  unfold enterRequests
  with_reducible refine Keeps.foldl (fun s x hs => ?_) _ ?_; refine enterStation_keeps _ _ _ ?_; assumption; assumption

theorem execRefreshCopy_keeps {M : Part → Prop} {s0 a1 : State} (a0) (h : Keeps M s0 a1) (k_fresh : ¬M .fresh := by assumption) (k_mem : ¬M .mem := by assumption) (k_flash : ¬M .flash := by assumption) (k_secures : ¬M .secures := by assumption) (k_refresh : ¬M .refresh := by assumption) : Answers M s0 (execRefreshCopy a0 a1) := by
  unfold execRefreshCopy
  with_reducible apply Answers.done; split; assumption; (with_reducible refine Keeps.letAny (fun x hx => ?_); subst hx)
  refine Keeps.ite (fun _ => ?_) (fun _ => ?_); assumption; (with_reducible refine Keeps.letAny (fun x hx => ?_); subst hx)
  with_reducible refine Keeps.upd ?_; with_reducible refine Keeps.foldl (fun s x hs => ?_) _ ?_
  (with_reducible refine Keeps.letAny (fun x hx => ?_); subst hx); refine raiseGeneration_keeps _ _ ?_; refine writeData_keeps _ _ _ ?_
  assumption; assumption

theorem retireRequests_keeps {M : Part → Prop} {s0 a2 : State} (a0) (a1) (h : Keeps M s0 a2) (k_fresh : ¬M .fresh := by assumption) (k_ctr : ¬M .ctr := by assumption) (k_fab : ¬M .fab := by assumption) (k_slots : ¬M .slots := by assumption) (k_arrays : ¬M .arrays := by assumption) (k_mem : ¬M .mem := by assumption) (k_engines : ¬M .engines := by assumption) (k_net : ¬M .net := by assumption) (k_serves : ¬M .serves := by assumption) : Keeps M s0 (retireRequests a0 a1 a2) := by
  unfold retireRequests
  (with_reducible refine Keeps.letAny (fun x hx => ?_); subst hx); with_reducible refine Keeps.foldl (fun s x hs => ?_) _ ?_
  refine cancelLine_keeps _ _ _ ?_; refine modQuery_keeps _ _ _ ?_; assumption; assumption

end Sys2Proof.Machine
end

