-- ==== Sys2Proof/Laws/KeepsGlaze.lean ====
section
/-! SUPPORT. The queue and the invariant are kept by the operations of Machine/Glaze.lean. -/

set_option Elab.async false

namespace Sys2Proof.Machine

theorem execGCmpeq_keeps {M : Part → Prop} {s0 a2 : State} (a0) (a1) (h : Keeps M s0 a2) (k_ctr : ¬M .ctr := by assumption) (k_arrays : ¬M .arrays := by assumption) : Answers M s0 (execGCmpeq a0 a1 a2) := by
  unfold execGCmpeq
  with_reducible apply Answers.done; refine glazeRun_keeps _ _ _ _ ?_ ?_; assumption; intros; refine arith_keeps _ _ _ ?_; assumption

theorem execGUnpack_keeps {M : Part → Prop} {s0 s : State} (a n) (h : Keeps M s0 s) (k_ctr : ¬M .ctr := by assumption) (k_arrays : ¬M .arrays := by assumption) : Answers M s0 (execGUnpack a n s) := by
  refine Answers.done (glazeRun_keeps _ _ _ _ h (fun c s hs => ?_))
  have hx : ∀ (rs : List (Nat × Nat × Word)) (k : Nat) (s' : State), s'.arrays = s.arrays → Keeps M s0 s' →
      Keeps M s0 (setArray c.a (rs.foldl (fun x e => regPut (gVd c.w + e.2.1 / 128) e.1 (e.2.1 % 128) e.2.2 x) (arrayOf s c.a)) s') := by
    intro rs k s' e hk
    refine hk.setTbf _ ?_
    rw [foldl_tbf (by intros; rfl)]; unfold arrayOf; rw [e]
  refine glazeNext_keeps _ (hx _ 0 _ ?_ (Keeps.ite (fun _ => hs) (fun _ => count_keeps _ _ _ hs)))
  split <;> rfl

theorem execGMax_keeps {M : Part → Prop} {s0 a2 : State} (a0) (a1) (h : Keeps M s0 a2) (k_ctr : ¬M .ctr := by assumption) (k_arrays : ¬M .arrays := by assumption) : Answers M s0 (execGMax a0 a1 a2) := by
  unfold execGMax
  with_reducible apply Answers.done; refine glazeRun_keeps _ _ _ _ ?_ ?_; assumption; intros; refine arith_keeps _ _ _ ?_; assumption

theorem countConversions_keeps {M : Part → Prop} {s0 a2 : State} (a0) (a1) (h : Keeps M s0 a2) (k_ctr : ¬M .ctr := by assumption) : Keeps M s0 (countConversions a0 a1 a2) := by
  unfold countConversions
  with_reducible refine Keeps.letIn ?_ (fun s hs => ?_); refine count_keeps _ _ _ ?_; refine Keeps.ite (fun _ => ?_) (fun _ => ?_)
  refine Keeps.ite (fun _ => ?_) (fun _ => ?_); refine Keeps.ite (fun _ => ?_) (fun _ => ?_); assumption; refine count_keeps _ _ _ ?_
  assumption; refine count_keeps _ _ _ ?_; refine Keeps.ite (fun _ => ?_) (fun _ => ?_); assumption; refine count_keeps _ _ _ ?_
  assumption; refine count_keeps _ _ _ ?_; refine Keeps.ite (fun _ => ?_) (fun _ => ?_); refine Keeps.ite (fun _ => ?_) (fun _ => ?_)
  assumption; refine count_keeps _ _ _ ?_; assumption; refine count_keeps _ _ _ ?_; refine Keeps.ite (fun _ => ?_) (fun _ => ?_)
  assumption; refine count_keeps _ _ _ ?_; assumption; refine Keeps.ite (fun _ => ?_) (fun _ => ?_)
  refine Keeps.ite (fun _ => ?_) (fun _ => ?_); refine Keeps.ite (fun _ => ?_) (fun _ => ?_)
  refine Keeps.ite (fun _ => ?_) (fun _ => ?_); assumption; refine count_keeps _ _ _ ?_; assumption; refine count_keeps _ _ _ ?_
  refine Keeps.ite (fun _ => ?_) (fun _ => ?_); assumption; refine count_keeps _ _ _ ?_; assumption; refine count_keeps _ _ _ ?_
  refine Keeps.ite (fun _ => ?_) (fun _ => ?_); refine Keeps.ite (fun _ => ?_) (fun _ => ?_); assumption; refine count_keeps _ _ _ ?_
  assumption; refine count_keeps _ _ _ ?_; refine Keeps.ite (fun _ => ?_) (fun _ => ?_); assumption; refine count_keeps _ _ _ ?_
  assumption; assumption

theorem execGPack_keeps {M : Part → Prop} {s0 s : State} (a n) (h : Keeps M s0 s) (k_ctr : ¬M .ctr := by assumption) (k_arrays : ¬M .arrays := by assumption) : Answers M s0 (execGPack a n s) := by
  refine Answers.done (glazeRun_keeps _ _ _ _ h (fun c s hs => ?_))
  have h1 : ∀ rs : List ((Nat × Nat) × (Nat × Counts) × Nat × Counts), Keeps M s0 (setArray c.a (rs.foldl (fun x e =>
      regPut (gVd c.w) e.1.1 e.1.2 (packHalves e.2.1.1 e.2.2.1) x) (arrayOf s c.a)) s) :=
    fun rs => hs.setTbf _ (by rw [foldl_tbf]; intros; rfl)
  exact glazeNext_keeps _ (countConversions_keeps _ _ (Keeps.ite (fun _ => h1 _) (fun _ => count_keeps _ _ _ (h1 _))))

theorem execGSmul_keeps {M : Part → Prop} {s0 a2 : State} (a0) (a1) (h : Keeps M s0 a2) (k_ctr : ¬M .ctr := by assumption) (k_arrays : ¬M .arrays := by assumption) : Answers M s0 (execGSmul a0 a1 a2) := by
  unfold execGSmul
  with_reducible apply Answers.done; refine glazeRun_keeps _ _ _ _ ?_ ?_; assumption; intros; refine glazeNext_keeps _ ?_; assumption

theorem execGRmax_keeps {M : Part → Prop} {s0 a2 : State} (a0) (a1) (h : Keeps M s0 a2) (k_ctr : ¬M .ctr := by assumption) (k_arrays : ¬M .arrays := by assumption) : Answers M s0 (execGRmax a0 a1 a2) := by
  unfold execGRmax
  with_reducible apply Answers.done; refine glazeRun_keeps _ _ _ _ ?_ ?_; assumption; intros; refine reduceWith_keeps _ _ _ _ ?_
  assumption

theorem execGSetext_keeps {M : Part → Prop} {s0 a2 : State} (a0) (a1) (h : Keeps M s0 a2) (k_ctr : ¬M .ctr := by assumption) (k_arrays : ¬M .arrays := by assumption) : Answers M s0 (execGSetext a0 a1 a2) := by
  unfold execGSetext
  with_reducible apply Answers.done; refine glazeRun_keeps _ _ _ _ ?_ ?_; assumption; intros; refine glazeNext_keeps _ ?_; assumption

theorem execGCmplt_keeps {M : Part → Prop} {s0 a2 : State} (a0) (a1) (h : Keeps M s0 a2) (k_ctr : ¬M .ctr := by assumption) (k_arrays : ¬M .arrays := by assumption) : Answers M s0 (execGCmplt a0 a1 a2) := by
  unfold execGCmplt
  with_reducible apply Answers.done; refine glazeRun_keeps _ _ _ _ ?_ ?_; assumption; intros; refine arith_keeps _ _ _ ?_; assumption

theorem execGRcp_keeps {M : Part → Prop} {s0 a2 : State} (a0) (a1) (h : Keeps M s0 a2) (k_ctr : ¬M .ctr := by assumption) (k_arrays : ¬M .arrays := by assumption) : Answers M s0 (execGRcp a0 a1 a2) := by
  unfold execGRcp
  with_reducible apply Answers.done; refine glazeRun_keeps _ _ _ _ ?_ ?_; assumption; intros; refine arith_keeps _ _ _ ?_; assumption

theorem stageTile_keeps {M : Part → Prop} {s0 a3 : State} (a0) (a1) (a2) (h : Keeps M s0 a3) (k_slots : ¬M .slots := by assumption) : Keeps M s0 (stageTile a0 a1 a2 a3) := by
  unfold stageTile
  refine putStaged_keeps _ _ _ ?_; refine modStream_keeps _ _ _ ?_; assumption

theorem execGTout_keeps {M : Part → Prop} {s0 a2 : State} (a0) (a1) (h : Keeps M s0 a2) (k_led : ¬M .led := by assumption) (k_ctr : ¬M .ctr := by assumption) (k_slots : ¬M .slots := by assumption) (k_arrays : ¬M .arrays := by assumption) : Answers M s0 (execGTout a0 a1 a2) := by
  unfold execGTout
  with_reducible apply Answers.done; refine glazeRun_keeps _ _ _ _ ?_ ?_; assumption; intros; split; refine glazeAbandon_keeps _ ?_
  assumption; refine Keeps.ite (fun _ => ?_) (fun _ => ?_); assumption; (with_reducible refine Keeps.letAny (fun x hx => ?_); subst hx)
  refine glazeNext_keeps _ ?_; refine stageTile_keeps _ _ _ ?_; assumption

theorem execGSt_keeps {M : Part → Prop} {s0 s : State} (a n) (h : Keeps M s0 s) (k_led : ¬M .led := by assumption) (k_ctr : ¬M .ctr := by assumption) (k_slots : ¬M .slots := by assumption) (k_arrays : ¬M .arrays := by assumption) : Answers M s0 (execGSt a n s) := by
  refine Answers.done (glazeRun_keeps _ _ _ _ h (fun c s hs => ?_))
  refine Keeps.ite (fun _ => glazeAbandon_keeps _ hs) (fun _ => Keeps.ite (fun _ => hs) (fun _ => ?_))
  split
  · have h1 : ∀ ws : List ((Nat × Nat) × Word), Keeps M s0 (setArray c.a (ws.foldl (fun x' e =>
        acmPut c.t.slot (acmRow c e.1.1) e.1.2 e.2 x') (arrayOf s c.a)) s) :=
      fun ws => hs.setTbf _ (by rw [foldl_tbf]; intros; rfl)
    exact glazeNext_keeps _ (Keeps.ite (fun _ => h1 _) (fun _ => count_keeps _ _ _ (h1 _)))
  · exact glazeNext_keeps _ (countConversions_keeps _ _ hs)
  · exact glazeNext_keeps _ (countConversions_keeps _ _ (setArray_keeps _ _ (fun i => wf_storeCells id _ _ (tbfs_get _ i)) hs))

theorem execGSli_keeps {M : Part → Prop} {s0 a2 : State} (a0) (a1) (h : Keeps M s0 a2) (k_ctr : ¬M .ctr := by assumption) (k_arrays : ¬M .arrays := by assumption) : Answers M s0 (execGSli a0 a1 a2) := by
  unfold execGSli
  with_reducible apply Answers.done; refine glazeRun_keeps _ _ _ _ ?_ ?_; assumption; intros; refine glazeNext_keeps _ ?_; assumption

theorem execGSel_keeps {M : Part → Prop} {s0 a2 : State} (a0) (a1) (h : Keeps M s0 a2) (k_ctr : ¬M .ctr := by assumption) (k_arrays : ¬M .arrays := by assumption) : Answers M s0 (execGSel a0 a1 a2) := by
  unfold execGSel
  with_reducible apply Answers.done; refine glazeRun_keeps _ _ _ _ ?_ ?_; assumption; intros; refine arith_keeps _ _ _ ?_; assumption

theorem execGCvti_keeps {M : Part → Prop} {s0 a2 : State} (a0) (a1) (h : Keeps M s0 a2) (k_ctr : ¬M .ctr := by assumption) (k_arrays : ¬M .arrays := by assumption) : Answers M s0 (execGCvti a0 a1 a2) := by
  unfold execGCvti
  with_reducible apply Answers.done; refine glazeRun_keeps _ _ _ _ ?_ ?_; assumption; intros
  (with_reducible refine Keeps.letAny (fun x hx => ?_); subst hx); refine elementWise_keeps _ _ _ ?_
  refine Keeps.ite (fun _ => ?_) (fun _ => ?_); assumption; refine count_keeps _ _ _ ?_; assumption

theorem execGFma_keeps {M : Part → Prop} {s0 a2 : State} (a0) (a1) (h : Keeps M s0 a2) (k_ctr : ¬M .ctr := by assumption) (k_arrays : ¬M .arrays := by assumption) : Answers M s0 (execGFma a0 a1 a2) := by
  unfold execGFma
  with_reducible apply Answers.done; refine glazeRun_keeps _ _ _ _ ?_ ?_; assumption; intros; refine arith_keeps _ _ _ ?_; assumption

theorem execGRamax_keeps {M : Part → Prop} {s0 a2 : State} (a0) (a1) (h : Keeps M s0 a2) (k_ctr : ¬M .ctr := by assumption) (k_arrays : ¬M .arrays := by assumption) : Answers M s0 (execGRamax a0 a1 a2) := by
  unfold execGRamax
  with_reducible apply Answers.done; refine glazeRun_keeps _ _ _ _ ?_ ?_; assumption; intros; refine reduceWith_keeps _ _ _ _ ?_
  assumption

theorem execGSfrom_keeps {M : Part → Prop} {s0 a2 : State} (a0) (a1) (h : Keeps M s0 a2) (k_ctr : ¬M .ctr := by assumption) (k_arrays : ¬M .arrays := by assumption) : Answers M s0 (execGSfrom a0 a1 a2) := by
  unfold execGSfrom
  with_reducible apply Answers.done; refine glazeRun_keeps _ _ _ _ ?_ ?_; assumption; intros; refine glazeNext_keeps _ ?_; assumption

theorem execGRsum_keeps {M : Part → Prop} {s0 a2 : State} (a0) (a1) (h : Keeps M s0 a2) (k_ctr : ¬M .ctr := by assumption) (k_arrays : ¬M .arrays := by assumption) : Answers M s0 (execGRsum a0 a1 a2) := by
  unfold execGRsum
  with_reducible apply Answers.done; refine glazeRun_keeps _ _ _ _ ?_ ?_; assumption; intros; refine reduceWith_keeps _ _ _ _ ?_
  assumption

theorem execGExp2_keeps {M : Part → Prop} {s0 a2 : State} (a0) (a1) (h : Keeps M s0 a2) (k_ctr : ¬M .ctr := by assumption) (k_arrays : ¬M .arrays := by assumption) : Answers M s0 (execGExp2 a0 a1 a2) := by
  unfold execGExp2
  with_reducible apply Answers.done; refine glazeRun_keeps _ _ _ _ ?_ ?_; assumption; intros; refine arith_keeps _ _ _ ?_; assumption

theorem execGAnd_keeps {M : Part → Prop} {s0 a2 : State} (a0) (a1) (h : Keeps M s0 a2) (k_ctr : ¬M .ctr := by assumption) (k_arrays : ¬M .arrays := by assumption) : Answers M s0 (execGAnd a0 a1 a2) := by
  unfold execGAnd
  with_reducible apply Answers.done; refine glazeRun_keeps _ _ _ _ ?_ ?_; assumption; intros; refine elementWise_keeps _ _ _ ?_
  assumption

theorem execGNeg_keeps {M : Part → Prop} {s0 a2 : State} (a0) (a1) (h : Keeps M s0 a2) (k_ctr : ¬M .ctr := by assumption) (k_arrays : ¬M .arrays := by assumption) : Answers M s0 (execGNeg a0 a1 a2) := by
  unfold execGNeg
  with_reducible apply Answers.done; refine glazeRun_keeps _ _ _ _ ?_ ?_; assumption; intros; refine arith_keeps _ _ _ ?_; assumption

theorem execGEnd_keeps {M : Part → Prop} {s0 a2 : State} (a0) (a1) (h : Keeps M s0 a2) (k_ctr : ¬M .ctr := by assumption) (k_slots : ¬M .slots := by assumption) (k_arrays : ¬M .arrays := by assumption) : Answers M s0 (execGEnd a0 a1 a2) := by
  unfold execGEnd
  with_reducible apply Answers.done; refine glazeRun_keeps _ _ _ _ ?_ ?_; assumption; intros
  (with_reducible refine Keeps.letAny (fun x hx => ?_); subst hx); refine startProgram_keeps _ _ ?_; refine modStation_keeps _ _ _ ?_
  refine dropThread_keeps _ _ ?_; refine count_keeps _ _ _ ?_; refine Keeps.ite (fun _ => ?_) (fun _ => ?_); assumption
  refine count_keeps _ _ _ ?_; assumption

theorem execGAdd_keeps {M : Part → Prop} {s0 a2 : State} (a0) (a1) (h : Keeps M s0 a2) (k_ctr : ¬M .ctr := by assumption) (k_arrays : ¬M .arrays := by assumption) : Answers M s0 (execGAdd a0 a1 a2) := by
  unfold execGAdd
  with_reducible apply Answers.done; refine glazeRun_keeps _ _ _ _ ?_ ?_; assumption; intros; refine arith_keeps _ _ _ ?_; assumption

theorem execGMul_keeps {M : Part → Prop} {s0 a2 : State} (a0) (a1) (h : Keeps M s0 a2) (k_ctr : ¬M .ctr := by assumption) (k_arrays : ¬M .arrays := by assumption) : Answers M s0 (execGMul a0 a1 a2) := by
  unfold execGMul
  with_reducible apply Answers.done; refine glazeRun_keeps _ _ _ _ ?_ ?_; assumption; intros; refine arith_keeps _ _ _ ?_; assumption

theorem execGAbs_keeps {M : Part → Prop} {s0 a2 : State} (a0) (a1) (h : Keeps M s0 a2) (k_ctr : ¬M .ctr := by assumption) (k_arrays : ¬M .arrays := by assumption) : Answers M s0 (execGAbs a0 a1 a2) := by
  unfold execGAbs
  with_reducible apply Answers.done; refine glazeRun_keeps _ _ _ _ ?_ ?_; assumption; intros; refine arith_keeps _ _ _ ?_; assumption

theorem execGLd_keeps {M : Part → Prop} {s0 s : State} (a n) (h : Keeps M s0 s) (k_led : ¬M .led := by assumption) (k_ctr : ¬M .ctr := by assumption) (k_slots : ¬M .slots := by assumption) (k_arrays : ¬M .arrays := by assumption) : Answers M s0 (execGLd a n s) := by
  refine Answers.done (glazeRun_keeps _ _ _ _ h (fun c s hs => ?_))
  refine Keeps.ite (fun _ => glazeAbandon_keeps _ hs) (fun _ => Keeps.ite (fun _ => hs) (fun _ => ?_))
  exact glazeNext_keeps _ (hs.setTbf _ (foldl_tbf (fun _ _ => putRow_tbf _ _ _ _) _ _))

theorem execGRmin_keeps {M : Part → Prop} {s0 a2 : State} (a0) (a1) (h : Keeps M s0 a2) (k_ctr : ¬M .ctr := by assumption) (k_arrays : ¬M .arrays := by assumption) : Answers M s0 (execGRmin a0 a1 a2) := by
  unfold execGRmin
  with_reducible apply Answers.done; refine glazeRun_keeps _ _ _ _ ?_ ?_; assumption; intros; refine reduceWith_keeps _ _ _ _ ?_
  assumption

theorem execGTanh_keeps {M : Part → Prop} {s0 a2 : State} (a0) (a1) (h : Keeps M s0 a2) (k_ctr : ¬M .ctr := by assumption) (k_arrays : ¬M .arrays := by assumption) : Answers M s0 (execGTanh a0 a1 a2) := by
  unfold execGTanh
  with_reducible apply Answers.done; refine glazeRun_keeps _ _ _ _ ?_ ?_; assumption; intros; refine arith_keeps _ _ _ ?_; assumption

theorem execGLoop_keeps {M : Part → Prop} {s0 s : State} (a n) (h : Keeps M s0 s) (k_ctr : ¬M .ctr := by assumption) (k_arrays : ¬M .arrays := by assumption) : Answers M s0 (execGLoop a n s) := by
  refine Answers.done (glazeRun_keeps _ _ _ _ h (fun c s hs => ?_))
  by_cases k : (c.t.scalars.getD (gSa c.w) 0).toNat = 0
  · simp only [k, if_true]; exact glazeNext_keeps _ hs
  · simp only [k, if_false]; exact glazeNext_keeps _ hs

theorem execGMin_keeps {M : Part → Prop} {s0 a2 : State} (a0) (a1) (h : Keeps M s0 a2) (k_ctr : ¬M .ctr := by assumption) (k_arrays : ¬M .arrays := by assumption) : Answers M s0 (execGMin a0 a1 a2) := by
  unfold execGMin
  with_reducible apply Answers.done; refine glazeRun_keeps _ _ _ _ ?_ ?_; assumption; intros; refine arith_keeps _ _ _ ?_; assumption

theorem execGShl_keeps {M : Part → Prop} {s0 a2 : State} (a0) (a1) (h : Keeps M s0 a2) (k_ctr : ¬M .ctr := by assumption) (k_arrays : ¬M .arrays := by assumption) : Answers M s0 (execGShl a0 a1 a2) := by
  unfold execGShl
  with_reducible apply Answers.done; refine glazeRun_keeps _ _ _ _ ?_ ?_; assumption; intros; refine elementWise_keeps _ _ _ ?_
  assumption

theorem execGCvtf_keeps {M : Part → Prop} {s0 a2 : State} (a0) (a1) (h : Keeps M s0 a2) (k_ctr : ¬M .ctr := by assumption) (k_arrays : ¬M .arrays := by assumption) : Answers M s0 (execGCvtf a0 a1 a2) := by
  unfold execGCvtf
  with_reducible apply Answers.done; refine glazeRun_keeps _ _ _ _ ?_ ?_; assumption; intros; refine elementWise_keeps _ _ _ ?_
  assumption

theorem execGXor_keeps {M : Part → Prop} {s0 a2 : State} (a0) (a1) (h : Keeps M s0 a2) (k_ctr : ¬M .ctr := by assumption) (k_arrays : ¬M .arrays := by assumption) : Answers M s0 (execGXor a0 a1 a2) := by
  unfold execGXor
  with_reducible apply Answers.done; refine glazeRun_keeps _ _ _ _ ?_ ?_; assumption; intros; refine elementWise_keeps _ _ _ ?_
  assumption

theorem execGShr_keeps {M : Part → Prop} {s0 a2 : State} (a0) (a1) (h : Keeps M s0 a2) (k_ctr : ¬M .ctr := by assumption) (k_arrays : ¬M .arrays := by assumption) : Answers M s0 (execGShr a0 a1 a2) := by
  unfold execGShr
  with_reducible apply Answers.done; refine glazeRun_keeps _ _ _ _ ?_ ?_; assumption; intros; refine elementWise_keeps _ _ _ ?_
  assumption

theorem execGMov_keeps {M : Part → Prop} {s0 a2 : State} (a0) (a1) (h : Keeps M s0 a2) (k_ctr : ¬M .ctr := by assumption) (k_arrays : ¬M .arrays := by assumption) : Answers M s0 (execGMov a0 a1 a2) := by
  unfold execGMov
  with_reducible apply Answers.done; refine glazeRun_keeps _ _ _ _ ?_ ?_; assumption; intros; refine arith_keeps _ _ _ ?_; assumption

theorem execGlazeWordLimit_keeps {M : Part → Prop} {s0 a2 : State} (a0) (a1) (h : Keeps M s0 a2) (k_led : ¬M .led := by assumption) (k_ctr : ¬M .ctr := by assumption) (k_slots : ¬M .slots := by assumption) (k_arrays : ¬M .arrays := by assumption) : Answers M s0 (execGlazeWordLimit a0 a1 a2) := by
  unfold execGlazeWordLimit
  with_reducible apply Answers.done; split; assumption; refine Keeps.ite (fun _ => ?_) (fun _ => ?_); refine glazeAbandon_keeps _ ?_
  assumption; assumption

theorem execGLog2_keeps {M : Part → Prop} {s0 a2 : State} (a0) (a1) (h : Keeps M s0 a2) (k_ctr : ¬M .ctr := by assumption) (k_arrays : ¬M .arrays := by assumption) : Answers M s0 (execGLog2 a0 a1 a2) := by
  unfold execGLog2
  with_reducible apply Answers.done; refine glazeRun_keeps _ _ _ _ ?_ ?_; assumption; intros; refine arith_keeps _ _ _ ?_; assumption

theorem execGErf_keeps {M : Part → Prop} {s0 a2 : State} (a0) (a1) (h : Keeps M s0 a2) (k_ctr : ¬M .ctr := by assumption) (k_arrays : ¬M .arrays := by assumption) : Answers M s0 (execGErf a0 a1 a2) := by
  unfold execGErf
  with_reducible apply Answers.done; refine glazeRun_keeps _ _ _ _ ?_ ?_; assumption; intros; refine arith_keeps _ _ _ ?_; assumption

theorem execGRssq_keeps {M : Part → Prop} {s0 a2 : State} (a0) (a1) (h : Keeps M s0 a2) (k_ctr : ¬M .ctr := by assumption) (k_arrays : ¬M .arrays := by assumption) : Answers M s0 (execGRssq a0 a1 a2) := by
  unfold execGRssq
  with_reducible apply Answers.done; refine glazeRun_keeps _ _ _ _ ?_ ?_; assumption; intros; refine reduceWith_keeps _ _ _ _ ?_
  assumption

theorem execGSadd_keeps {M : Part → Prop} {s0 a2 : State} (a0) (a1) (h : Keeps M s0 a2) (k_ctr : ¬M .ctr := by assumption) (k_arrays : ¬M .arrays := by assumption) : Answers M s0 (execGSadd a0 a1 a2) := by
  unfold execGSadd
  with_reducible apply Answers.done; refine glazeRun_keeps _ _ _ _ ?_ ?_; assumption; intros; refine glazeNext_keeps _ ?_; assumption

theorem execGSub_keeps {M : Part → Prop} {s0 a2 : State} (a0) (a1) (h : Keeps M s0 a2) (k_ctr : ¬M .ctr := by assumption) (k_arrays : ¬M .arrays := by assumption) : Answers M s0 (execGSub a0 a1 a2) := by
  unfold execGSub
  with_reducible apply Answers.done; refine glazeRun_keeps _ _ _ _ ?_ ?_; assumption; intros; refine arith_keeps _ _ _ ?_; assumption

theorem execGOr_keeps {M : Part → Prop} {s0 a2 : State} (a0) (a1) (h : Keeps M s0 a2) (k_ctr : ¬M .ctr := by assumption) (k_arrays : ¬M .arrays := by assumption) : Answers M s0 (execGOr a0 a1 a2) := by
  unfold execGOr
  with_reducible apply Answers.done; refine glazeRun_keeps _ _ _ _ ?_ ?_; assumption; intros; refine elementWise_keeps _ _ _ ?_
  assumption

theorem execGRsqrt_keeps {M : Part → Prop} {s0 a2 : State} (a0) (a1) (h : Keeps M s0 a2) (k_ctr : ¬M .ctr := by assumption) (k_arrays : ¬M .arrays := by assumption) : Answers M s0 (execGRsqrt a0 a1 a2) := by
  unfold execGRsqrt
  with_reducible apply Answers.done; refine glazeRun_keeps _ _ _ _ ?_ ?_; assumption; intros; refine arith_keeps _ _ _ ?_; assumption

end Sys2Proof.Machine
end

