-- ==== Sys2Proof/Laws/KeepsTrain.lean ====
section
/-! SUPPORT. The queue and the invariant are kept by the operations of Machine/Train.lean. -/

set_option Elab.async false

namespace Sys2Proof.Machine

theorem countStash_keeps {M : Part → Prop} {s0 a5 : State} (a0) (a1) (a2) (a3) (a4) (h : Keeps M s0 a5) (k_ctr : ¬M .ctr := by assumption) : Keeps M s0 (countStash a0 a1 a2 a3 a4 a5) := by
  unfold countStash
  refine Keeps.ite (fun _ => ?_) (fun _ => ?_); assumption; refine countStation_keeps _ _ _ _ ?_; refine count_keeps _ _ _ ?_
  assumption

theorem startStashRead_keeps {M : Part → Prop} {s0 a4 : State} (a0) (a1) (a2) (a3) (h : Keeps M s0 a4) (k_slots : ¬M .slots := by assumption) (k_engines : ¬M .engines := by assumption) : Keeps M s0 (startStashRead a0 a1 a2 a3 a4) := by
  unfold startStashRead
  (with_reducible refine Keeps.letAny (fun x hx => ?_); subst hx); split; assumption; split; assumption
  refine Keeps.ite (fun _ => ?_) (fun _ => ?_); assumption; (with_reducible refine Keeps.letAny (fun x hx => ?_); subst hx)
  refine enqueue_keeps _ _ _ _ _ _ ?_; refine modTrain_keeps _ _ ?_; assumption

theorem putGa_keeps {M : Part → Prop} {s0 a3 : State} (a0) (a1) (a2) (h : Keeps M s0 a3) (k_slots : ¬M .slots := by assumption) : Keeps M s0 (putGa a0 a1 a2 a3) := by
  unfold putGa
  refine modTrain_keeps _ _ ?_; assumption

theorem admitGa_keeps {M : Part → Prop} {s0 a3 : State} (a0) (a1) (a2) (h : Keeps M s0 a3) (k_ctr : ¬M .ctr := by assumption) (k_slots : ¬M .slots := by assumption) : Keeps M s0 (admitGa a0 a1 a2 a3) := by
  unfold admitGa
  refine count_keeps _ _ _ ?_; refine putGa_keeps _ _ _ ?_; assumption

theorem execLossItem_keeps {M : Part → Prop} {s0 a3 : State} (a0) (a1) (a2) (h : Keeps M s0 a3) (k_fab : ¬M .fab := by assumption) (k_slots : ¬M .slots := by assumption) : Answers M s0 (execLossItem a0 a1 a2 a3) := by
  unfold execLossItem
  with_reducible apply Answers.done; split; assumption; split; assumption; refine Keeps.ite (fun _ => ?_) (fun _ => ?_); assumption
  with_reducible refine Keeps.letIn ?_ (fun s hs => ?_); (with_reducible refine Keeps.letAny (fun x hx => ?_); subst hx)
  refine modTrain_keeps _ _ ?_; refine addCredit_keeps _ _ _ ?_; refine dropArrived_keeps _ _ _ _ _ _ ?_; assumption
  refine Keeps.ite (fun _ => ?_) (fun _ => ?_); refine addCredit_keeps _ _ _ ?_; refine dropArrived_keeps _ _ _ _ _ _ ?_; assumption
  assumption

theorem execMoveOperation_keeps {M : Part → Prop} {s0 a4 : State} (a0) (a1) (a2) (a3) (h : Keeps M s0 a4) (k_led : ¬M .led := by assumption) (k_ctr : ¬M .ctr := by assumption) (k_fab : ¬M .fab := by assumption) (k_slots : ¬M .slots := by assumption) (k_mem : ¬M .mem := by assumption) (k_engines : ¬M .engines := by assumption) (k_net : ¬M .net := by assumption) : Answers M s0 (execMoveOperation a0 a1 a2 a3 a4) := by
  unfold execMoveOperation
  with_reducible apply Answers.done; refine fireKind_keeps _ _ _ _ _ _ ?_ ?_; intros; split; refine enqueueDesc_keeps _ _ _ _ _ ?_
  assumption; refine finishFlight_keeps _ _ _ _ _ ?_; assumption; assumption

theorem putStash_keeps {M : Part → Prop} {s0 a7 : State} (a0) (a1) (a2) (a3) (a4) (a5) (a6) (h : Keeps M s0 a7) (k_fresh : ¬M .fresh := by assumption) (k_ctr : ¬M .ctr := by assumption) (k_slots : ¬M .slots := by assumption) (k_mem : ¬M .mem := by assumption) (k_flash : ¬M .flash := by assumption) (k_secures : ¬M .secures := by assumption) : Keeps M s0 (putStash a0 a1 a2 a3 a4 a5 a6 a7) := by
  unfold putStash
  (with_reducible refine Keeps.letAny (fun x hx => ?_); subst hx); split; dsimp -zeta only; refine failTag_keeps _ _ _ ?_
  refine leaveFlight_keeps _ _ _ _ ?_; assumption; split; dsimp -zeta only; refine failTag_keeps _ _ _ ?_
  refine leaveFlight_keeps _ _ _ _ ?_; assumption; (with_reducible refine Keeps.letAny (fun x hx => ?_); subst hx)
  refine Keeps.ite (fun _ => ?_) (fun _ => ?_); dsimp -zeta only; refine failTag_keeps _ _ _ ?_; refine leaveFlight_keeps _ _ _ _ ?_
  assumption; (with_reducible refine Keeps.letAny (fun x hx => ?_); subst hx); split; dsimp -zeta only; refine failTag_keeps _ _ _ ?_
  refine leaveFlight_keeps _ _ _ _ ?_; assumption; (with_reducible refine Keeps.letAny (fun x hx => ?_); subst hx)
  refine Keeps.ite (fun _ => ?_) (fun _ => ?_); dsimp -zeta only; refine failTag_keeps _ _ _ ?_; refine leaveFlight_keeps _ _ _ _ ?_
  refine Keeps.ite (fun _ => ?_) (fun _ => ?_); refine saggarHit_keeps _ _ ?_; assumption; assumption
  with_reducible refine Keeps.letIn ?_ (fun s hs => ?_); refine countStash_keeps _ _ _ _ _ ?_; refine modTrain_keeps _ _ ?_
  refine countStash_keeps _ _ _ _ _ ?_; refine countStash_keeps _ _ _ _ _ ?_; refine countStash_keeps _ _ _ _ _ ?_
  with_reducible refine Keeps.foldl (fun s x hs => ?_) _ ?_; refine raiseGeneration_keeps _ _ ?_; assumption
  refine writeData_keeps _ _ _ ?_; assumption; refine finishFlight_keeps _ _ _ _ _ ?_; assumption

theorem excessGa_keeps {M : Part → Prop} {s0 a4 : State} (a0) (a1) (a2) (a3) (h : Keeps M s0 a4) (k_led : ¬M .led := by assumption) (k_ctr : ¬M .ctr := by assumption) (k_slots : ¬M .slots := by assumption) : Keeps M s0 (excessGa a0 a1 a2 a3 a4) := by
  unfold excessGa
  refine failTag_keeps _ _ _ ?_; refine event_keeps _ _ _ ?_; refine count_keeps _ _ _ ?_; assumption

theorem drainGa_keeps {M : Part → Prop} {s0 a3 : State} (a0) (a1) (a2) (h : Keeps M s0 a3) (k_ctr : ¬M .ctr := by assumption) (k_slots : ¬M .slots := by assumption) (k_arrays : ¬M .arrays := by assumption) : Keeps M s0 (drainGa a0 a1 a2 a3) := by
  unfold drainGa
  (with_reducible refine Keeps.letAny (fun x hx => ?_); subst hx); split; assumption; refine Keeps.ite (fun _ => ?_) (fun _ => ?_)
  assumption; (with_reducible refine Keeps.letAny (fun x hx => ?_); subst hx); refine reported_keeps _ _ ?_ ?_
  refine count_keeps _ _ _ ?_; refine putGa_keeps _ _ _ ?_; refine modArray_keeps _ _ ?_ ?_; intros; with_reducible assumption
  refine stageTile_keeps _ _ _ ?_; refine Keeps.ite (fun _ => ?_) (fun _ => ?_); assumption; refine count_keeps _ _ _ ?_; assumption
  refine modArray_keeps _ _ ?_ ?_; intros; with_reducible assumption; refine stageTile_keeps _ _ _ ?_
  refine Keeps.ite (fun _ => ?_) (fun _ => ?_); assumption; refine count_keeps _ _ _ ?_; assumption

theorem addTile_keeps {M : Part → Prop} {s0 s : State} (slot g e bytes) (h : Keeps M s0 s) (k_ctr : ¬M .ctr := by assumption) (k_arrays : ¬M .arrays := by assumption) : Keeps M s0 (addTile slot g e bytes s) := by
  unfold addTile
  have hx : ∀ (ws : List ((Nat × Nat) × Word)) (y : ArrayState), (ws.foldl (fun x w => acmPut slot w.1.1 w.1.2 w.2 x) y).tbf = y.tbf :=
    fun ws y => by rw [foldl_tbf]; intros; rfl
  exact Keeps.ite (fun _ => h.setTbf _ (hx _ _)) (fun _ => count_keeps _ _ _ (h.setTbf _ (hx _ _)))

theorem execGaAdmit_keeps {M : Part → Prop} {s0 a4 : State} (a0) (a1) (a2) (a3) (h : Keeps M s0 a4) (k_led : ¬M .led := by assumption) (k_ctr : ¬M .ctr := by assumption) (k_fab : ¬M .fab := by assumption) (k_slots : ¬M .slots := by assumption) (k_arrays : ¬M .arrays := by assumption) (k_engines : ¬M .engines := by assumption) (k_net : ¬M .net := by assumption) : Answers M s0 (execGaAdmit a0 a1 a2 a3 a4) := by
  unfold execGaAdmit
  with_reducible apply Answers.done; split; assumption; split; assumption
  (with_reducible refine Keeps.letAny (fun x hx => ?_); subst hx); split; refine Keeps.ite (fun _ => ?_) (fun _ => ?_); assumption
  (with_reducible refine Keeps.letAny (fun x hx => ?_); subst hx); refine Keeps.ite (fun _ => ?_) (fun _ => ?_)
  refine excessGa_keeps _ _ _ _ ?_; refine spend_keeps _ _ _ _ ?_; assumption; refine drainGa_keeps _ _ _ ?_
  refine admitGa_keeps _ _ _ ?_; refine addTile_keeps _ _ _ _ ?_; refine spend_keeps _ _ _ _ ?_; assumption
  refine drainGa_keeps _ _ _ ?_; assumption

theorem execGlazeProgramStart_keeps {M : Part → Prop} {s0 a4 : State} (a0) (a1) (a2) (a3) (h : Keeps M s0 a4) (k_led : ¬M .led := by assumption) (k_ctr : ¬M .ctr := by assumption) (k_fab : ¬M .fab := by assumption) (k_slots : ¬M .slots := by assumption) (k_arrays : ¬M .arrays := by assumption) (k_mem : ¬M .mem := by assumption) (k_engines : ¬M .engines := by assumption) (k_net : ¬M .net := by assumption) : Answers M s0 (execGlazeProgramStart a0 a1 a2 a3 a4) := by
  unfold execGlazeProgramStart
  with_reducible apply Answers.done; refine fireKind_keeps _ _ _ _ _ _ ?_ ?_; intros; refine startProgram_keeps _ _ ?_; assumption
  assumption

theorem stashReads_keeps {M : Part → Prop} {s0 a1 : State} (a0) (h : Keeps M s0 a1) (k_slots : ¬M .slots := by assumption) (k_engines : ¬M .engines := by assumption) : Keeps M s0 (stashReads a0 a1) := by
  unfold stashReads
  split; assumption; (with_reducible refine Keeps.letAny (fun x hx => ?_); subst hx)
  with_reducible refine Keeps.foldl (fun s x hs => ?_) _ ?_; split; assumption
  (with_reducible refine Keeps.letAny (fun x hx => ?_); subst hx); refine Keeps.ite (fun _ => ?_) (fun _ => ?_)
  refine startStashRead_keeps _ _ _ _ ?_; assumption; assumption; assumption

theorem stageAnswer_keeps {M : Part → Prop} {s0 a4 : State} (a0) (a1) (a2) (a3) (h : Keeps M s0 a4) (k_serves : ¬M .serves := by assumption) : Keeps M s0 (stageAnswer a0 a1 a2 a3 a4) := by
  unfold stageAnswer
  split; assumption; split; (with_reducible refine Keeps.letAny (fun x hx => ?_); subst hx); refine modServe_keeps _ _ ?_; assumption
  assumption

theorem execForward_keeps {M : Part → Prop} {s0 a4 : State} (a0) (a1) (a2) (a3) (h : Keeps M s0 a4) (k_led : ¬M .led := by assumption) (k_ctr : ¬M .ctr := by assumption) (k_fab : ¬M .fab := by assumption) (k_slots : ¬M .slots := by assumption) (k_mem : ¬M .mem := by assumption) (k_engines : ¬M .engines := by assumption) (k_net : ¬M .net := by assumption) : Answers M s0 (execForward a0 a1 a2 a3 a4) := by
  unfold execForward
  with_reducible apply Answers.done; refine fireKind_keeps _ _ _ _ _ _ ?_ ?_; intros; refine Keeps.ite (fun _ => ?_) (fun _ => ?_)
  refine finishFlight_keeps _ _ _ _ _ ?_; assumption; refine finishFlight_keeps _ _ _ _ _ ?_; assumption; assumption

theorem execStashGet_keeps {M : Part → Prop} {s0 a4 : State} (a0) (a1) (a2) (a3) (h : Keeps M s0 a4) (k_led : ¬M .led := by assumption) (k_ctr : ¬M .ctr := by assumption) (k_fab : ¬M .fab := by assumption) (k_slots : ¬M .slots := by assumption) (k_mem : ¬M .mem := by assumption) (k_engines : ¬M .engines := by assumption) (k_net : ¬M .net := by assumption) : Answers M s0 (execStashGet a0 a1 a2 a3 a4) := by
  unfold execStashGet
  with_reducible apply Answers.done; refine fireKind_keeps _ _ _ _ _ _ ?_ ?_; intros; refine finishFlight_keeps _ _ _ _ _ ?_
  assumption; assumption

theorem execTokenEmit_keeps {M : Part → Prop} {s0 a4 : State} (a0) (a1) (a2) (a3) (h : Keeps M s0 a4) (k_led : ¬M .led := by assumption) (k_ctr : ¬M .ctr := by assumption) (k_fab : ¬M .fab := by assumption) (k_slots : ¬M .slots := by assumption) (k_mem : ¬M .mem := by assumption) (k_engines : ¬M .engines := by assumption) (k_net : ¬M .net := by assumption) : Answers M s0 (execTokenEmit a0 a1 a2 a3 a4) := by
  unfold execTokenEmit
  with_reducible apply Answers.done; refine fireKind_keeps _ _ _ _ _ _ ?_ ?_; intros
  (with_reducible refine Keeps.letAny (fun x hx => ?_); subst hx); refine finishFlight_keeps _ _ _ _ _ ?_; assumption; assumption

theorem execOperationComplete_keeps {M : Part → Prop} {s0 a4 : State} (a0) (a1) (a2) (a3) (h : Keeps M s0 a4) (k_led : ¬M .led := by assumption) (k_ctr : ¬M .ctr := by assumption) (k_slots : ¬M .slots := by assumption) (k_arrays : ¬M .arrays := by assumption) (k_serves : ¬M .serves := by assumption) : Answers M s0 (execOperationComplete a0 a1 a2 a3 a4) := by
  unfold execOperationComplete
  (with_reducible refine Answers.letAny (fun x hx => ?_); subst hx); with_reducible apply Answers.done; split
  (with_reducible refine Keeps.letAny (fun x hx => ?_); subst hx); refine Keeps.ite (fun _ => ?_) (fun _ => ?_)
  refine completeOp_keeps _ _ _ _ ?_; refine excessGa_keeps _ _ _ _ ?_; assumption; refine drainGa_keeps _ _ _ ?_
  refine admitGa_keeps _ _ _ ?_; refine completeOp_keeps _ _ _ _ ?_; assumption; refine completeOp_keeps _ _ _ _ ?_
  refine stageAnswer_keeps _ _ _ _ ?_; assumption; assumption

theorem execScalarEmit_keeps {M : Part → Prop} {s0 a4 : State} (a0) (a1) (a2) (a3) (h : Keeps M s0 a4) (k_led : ¬M .led := by assumption) (k_ctr : ¬M .ctr := by assumption) (k_fab : ¬M .fab := by assumption) (k_slots : ¬M .slots := by assumption) (k_mem : ¬M .mem := by assumption) (k_engines : ¬M .engines := by assumption) (k_net : ¬M .net := by assumption) : Answers M s0 (execScalarEmit a0 a1 a2 a3 a4) := by
  unfold execScalarEmit
  with_reducible apply Answers.done; refine fireKind_keeps _ _ _ _ _ _ ?_ ?_; intros
  (with_reducible refine Keeps.letAny (fun x hx => ?_); subst hx); refine finishFlight_keeps _ _ _ _ _ ?_; assumption; assumption

theorem execStashPut_keeps {M : Part → Prop} {s0 a4 : State} (a0) (a1) (a2) (a3) (h : Keeps M s0 a4) (k_fresh : ¬M .fresh := by assumption) (k_led : ¬M .led := by assumption) (k_ctr : ¬M .ctr := by assumption) (k_fab : ¬M .fab := by assumption) (k_slots : ¬M .slots := by assumption) (k_mem : ¬M .mem := by assumption) (k_engines : ¬M .engines := by assumption) (k_flash : ¬M .flash := by assumption) (k_net : ¬M .net := by assumption) (k_secures : ¬M .secures := by assumption) : Answers M s0 (execStashPut a0 a1 a2 a3 a4) := by
  unfold execStashPut
  with_reducible apply Answers.done; refine fireKind_keeps _ _ _ _ _ _ ?_ ?_; intros; refine putStash_keeps _ _ _ _ _ _ _ ?_
  assumption; assumption

end Sys2Proof.Machine
end

