-- ==== Sys2Proof/Laws/KeepsCloses.lean ====
section
/-! SUPPORT. The queue and the invariant are kept by the operations of Machine/Closes.lean. -/

set_option Elab.async false

namespace Sys2Proof.Machine

theorem checkSentinels_keeps {M : Part → Prop} {s0 a1 : State} (a0) (h : Keeps M s0 a1) (k_led : ¬M .led := by assumption) (k_ctr : ¬M .ctr := by assumption) (k_slots : ¬M .slots := by assumption) : Keeps M s0 (checkSentinels a0 a1) := by
  unfold checkSentinels
  (with_reducible refine Keeps.letAny (fun x hx => ?_); subst hx); refine Keeps.ite (fun _ => ?_) (fun _ => ?_)
  refine Keeps.ite (fun _ => ?_) (fun _ => ?_); assumption; with_reducible refine Keeps.letIn ?_ (fun s hs => ?_)
  refine modTrain_keeps _ _ ?_; assumption; refine Keeps.ite (fun _ => ?_) (fun _ => ?_); refine pendVoid_keeps _ _ _ ?_
  refine count_keeps _ _ _ ?_; refine event_keeps _ _ _ ?_; refine modTrain_keeps _ _ ?_; assumption; assumption
  (with_reducible refine Keeps.letAny (fun x hx => ?_); subst hx); refine Keeps.ite (fun _ => ?_) (fun _ => ?_)
  refine pendVoid_keeps _ _ _ ?_; refine count_keeps _ _ _ ?_; refine event_keeps _ _ _ ?_; refine formCoefficients_keeps _ _ ?_
  refine modTrain_keeps _ _ ?_; refine Keeps.ite (fun _ => ?_) (fun _ => ?_); assumption
  with_reducible refine Keeps.letIn ?_ (fun s hs => ?_); refine modTrain_keeps _ _ ?_; assumption
  refine Keeps.ite (fun _ => ?_) (fun _ => ?_); refine pendVoid_keeps _ _ _ ?_; refine count_keeps _ _ _ ?_
  refine event_keeps _ _ _ ?_; refine modTrain_keeps _ _ ?_; assumption; assumption; refine formCoefficients_keeps _ _ ?_
  refine modTrain_keeps _ _ ?_; refine Keeps.ite (fun _ => ?_) (fun _ => ?_); assumption
  with_reducible refine Keeps.letIn ?_ (fun s hs => ?_); refine modTrain_keeps _ _ ?_; assumption
  refine Keeps.ite (fun _ => ?_) (fun _ => ?_); refine pendVoid_keeps _ _ _ ?_; refine count_keeps _ _ _ ?_
  refine event_keeps _ _ _ ?_; refine modTrain_keeps _ _ ?_; assumption; assumption

theorem takeVoid_keeps {M : Part → Prop} {s0 a4 : State} (a0) (a1) (a2) (a3) (h : Keeps M s0 a4) (k_fresh : ¬M .fresh := by assumption) (k_out : ¬M .out := by assumption) (k_led : ¬M .led := by assumption) (k_ctr : ¬M .ctr := by assumption) (k_beat : ¬M .beat := by assumption) (k_fab : ¬M .fab := by assumption) (k_slots : ¬M .slots := by assumption) (k_arrays : ¬M .arrays := by assumption) (k_mem : ¬M .mem := by assumption) (k_engines : ¬M .engines := by assumption) (k_colls : ¬M .colls := by assumption) (k_secures : ¬M .secures := by assumption) (k_host : ¬M .host := by assumption) : Keeps M s0 (takeVoid a0 a1 a2 a3 a4) := by
  unfold takeVoid
  (with_reducible refine Keeps.letAny (fun x hx => ?_); subst hx); refine Keeps.ite (fun _ => ?_) (fun _ => ?_); dsimp -zeta only
  refine Keeps.ite (fun _ => ?_) (fun _ => ?_); refine awaitNotice_keeps _ _ _ ?_; refine restoreOlder_keeps _ _ ?_
  refine modTrain_keeps _ _ ?_; refine Keeps.ite (fun _ => ?_) (fun _ => ?_); refine sendNotice_keeps _ _ _ ?_
  refine count_keeps _ _ _ ?_; refine ledgerStep_keeps _ ?_; assumption; refine count_keeps _ _ _ ?_; refine ledgerStep_keeps _ ?_
  assumption; refine restoreOlder_keeps _ _ ?_; refine modTrain_keeps _ _ ?_; refine Keeps.ite (fun _ => ?_) (fun _ => ?_)
  refine sendNotice_keeps _ _ _ ?_; refine count_keeps _ _ _ ?_; refine ledgerStep_keeps _ ?_; assumption; refine count_keeps _ _ _ ?_
  refine ledgerStep_keeps _ ?_; assumption; refine Keeps.ite (fun _ => ?_) (fun _ => ?_); dsimp -zeta only
  refine Keeps.ite (fun _ => ?_) (fun _ => ?_); refine awaitNotice_keeps _ _ _ ?_; refine repairVoid_keeps _ _ ?_
  refine modTrain_keeps _ _ ?_; refine Keeps.ite (fun _ => ?_) (fun _ => ?_); refine sendNotice_keeps _ _ _ ?_
  refine count_keeps _ _ _ ?_; refine ledgerStep_keeps _ ?_; assumption; refine count_keeps _ _ _ ?_; refine ledgerStep_keeps _ ?_
  assumption; refine repairVoid_keeps _ _ ?_; refine modTrain_keeps _ _ ?_; refine Keeps.ite (fun _ => ?_) (fun _ => ?_)
  refine sendNotice_keeps _ _ _ ?_; refine count_keeps _ _ _ ?_; refine ledgerStep_keeps _ ?_; assumption; refine count_keeps _ _ _ ?_
  refine ledgerStep_keeps _ ?_; assumption; with_reducible refine Keeps.letIn ?_ (fun s hs => ?_)
  refine Keeps.ite (fun _ => ?_) (fun _ => ?_); (with_reducible refine Keeps.letAny (fun x hx => ?_); subst hx)
  refine modTrain_keeps _ _ ?_; refine raiseAttempt_keeps _ ?_; refine discardStep_keeps _ ?_; refine modTrain_keeps _ _ ?_
  refine Keeps.ite (fun _ => ?_) (fun _ => ?_); refine sendNotice_keeps _ _ _ ?_; refine count_keeps _ _ _ ?_
  refine ledgerStep_keeps _ ?_; assumption; refine count_keeps _ _ _ ?_; refine ledgerStep_keeps _ ?_; assumption
  refine Keeps.ite (fun _ => ?_) (fun _ => ?_); refine raiseAttempt_keeps _ ?_; refine discardStep_keeps _ ?_
  refine modTrain_keeps _ _ ?_; refine Keeps.ite (fun _ => ?_) (fun _ => ?_); refine sendNotice_keeps _ _ _ ?_
  refine count_keeps _ _ _ ?_; refine ledgerStep_keeps _ ?_; assumption; refine count_keeps _ _ _ ?_; refine ledgerStep_keeps _ ?_
  assumption; refine noteReplay_keeps _ _ ?_; refine raiseAttempt_keeps _ ?_; refine discardStep_keeps _ ?_
  refine modTrain_keeps _ _ ?_; refine Keeps.ite (fun _ => ?_) (fun _ => ?_); refine sendNotice_keeps _ _ _ ?_
  refine count_keeps _ _ _ ?_; refine ledgerStep_keeps _ ?_; assumption; refine count_keeps _ _ _ ?_; refine ledgerStep_keeps _ ?_
  assumption; refine Keeps.ite (fun _ => ?_) (fun _ => ?_); refine raiseAttempt_keeps _ ?_; refine discardStep_keeps _ ?_
  refine modTrain_keeps _ _ ?_; refine Keeps.ite (fun _ => ?_) (fun _ => ?_); refine sendNotice_keeps _ _ _ ?_
  refine count_keeps _ _ _ ?_; refine ledgerStep_keeps _ ?_; assumption; refine count_keeps _ _ _ ?_; refine ledgerStep_keeps _ ?_
  assumption; assumption

theorem advanceGroups_keeps {M : Part → Prop} {s0 a1 : State} (a0) (h : Keeps M s0 a1) (k_kilns : ¬M .kilns := by assumption) : Keeps M s0 (advanceGroups a0 a1) := by
  unfold advanceGroups
  (with_reducible refine Keeps.letAny (fun x hx => ?_); subst hx); with_reducible refine Keeps.upd ?_; assumption

theorem checkReplay_keeps {M : Part → Prop} {s0 a3 : State} (a0) (a1) (a2) (h : Keeps M s0 a3) (_h2 : Keeps M s0 a2) (k_fresh : ¬M .fresh := by assumption) (k_out : ¬M .out := by assumption) (k_led : ¬M .led := by assumption) (k_ctr : ¬M .ctr := by assumption) (k_beat : ¬M .beat := by assumption) (k_fab : ¬M .fab := by assumption) (k_slots : ¬M .slots := by assumption) (k_arrays : ¬M .arrays := by assumption) (k_mem : ¬M .mem := by assumption) (k_engines : ¬M .engines := by assumption) (k_colls : ¬M .colls := by assumption) (k_secures : ¬M .secures := by assumption) (k_host : ¬M .host := by assumption) : Keeps M s0 (checkReplay a0 a1 a2 a3) := by
  unfold checkReplay
  refine Keeps.ite (fun _ => ?_) (fun _ => ?_); assumption; (with_reducible refine Keeps.letAny (fun x hx => ?_); subst hx); split
  refine count_keeps _ _ _ ?_; refine event_keeps _ _ _ ?_; refine modTrain_keeps _ _ ?_; refine modSecure_keeps _ _ ?_; assumption
  with_reducible refine Keeps.letIn ?_ (fun s hs => ?_); refine restoreOlder_keeps _ _ ?_; refine count_keeps _ _ _ ?_
  refine event_keeps _ _ _ ?_; refine modTrain_keeps _ _ ?_; refine modSecure_keeps _ _ ?_; assumption
  refine Keeps.ite (fun _ => ?_) (fun _ => ?_); refine awaitNotice_keeps _ _ _ ?_; refine restoreOlder_keeps _ _ ?_
  refine sendNotice_keeps _ _ _ ?_; refine count_keeps _ _ _ ?_; refine event_keeps _ _ _ ?_; refine modTrain_keeps _ _ ?_
  refine modSecure_keeps _ _ ?_; assumption; assumption; refine count_keeps _ _ _ ?_; refine modTrain_keeps _ _ ?_
  refine modSecure_keeps _ _ ?_; assumption

theorem securePoint_keeps {M : Part → Prop} {s0 a3 : State} (a0) (a1) (a2) (h : Keeps M s0 a3) (k_ctr : ¬M .ctr := by assumption) (k_secures : ¬M .secures := by assumption) : Keeps M s0 (securePoint a0 a1 a2 a3) := by
  unfold securePoint
  refine Keeps.ite (fun _ => ?_) (fun _ => ?_); assumption; (with_reducible refine Keeps.letAny (fun x hx => ?_); subst hx)
  refine Keeps.ite (fun _ => ?_) (fun _ => ?_); assumption; refine Keeps.ite (fun _ => ?_) (fun _ => ?_)
  refine Keeps.ite (fun _ => ?_) (fun _ => ?_); refine count_keeps _ _ _ ?_; assumption; refine modSecure_keeps _ _ ?_; assumption
  refine takePoint_keeps _ _ _ ?_; assumption

theorem commitStep_keeps {M : Part → Prop} {s0 a2 : State} (a0) (a1) (h : Keeps M s0 a2) (k_fresh : ¬M .fresh := by assumption) (k_out : ¬M .out := by assumption) (k_led : ¬M .led := by assumption) (k_ctr : ¬M .ctr := by assumption) (k_beat : ¬M .beat := by assumption) (k_fab : ¬M .fab := by assumption) (k_slots : ¬M .slots := by assumption) (k_arrays : ¬M .arrays := by assumption) (k_kilns : ¬M .kilns := by assumption) (k_mem : ¬M .mem := by assumption) (k_engines : ¬M .engines := by assumption) (k_colls : ¬M .colls := by assumption) (k_secures : ¬M .secures := by assumption) (k_refresh : ¬M .refresh := by assumption) (k_host : ¬M .host := by assumption) : Keeps M s0 (commitStep a0 a1 a2) := by
  unfold commitStep
  with_reducible refine Keeps.letIn ?_ (fun s hs => ?_); refine refreshCommit_keeps _ _ ?_; refine securePoint_keeps _ _ _ ?_
  refine checkReplay_keeps _ _ _ ?_ ?_; refine modSecure_keeps _ _ ?_; refine Keeps.ite (fun _ => ?_) (fun _ => ?_)
  refine gather_keeps _ _ ?_; refine gather_keeps _ _ ?_; refine count_keeps _ _ _ ?_; refine modSlot_keeps _ _ ?_
  refine modTrain_keeps _ _ ?_; refine advanceGroups_keeps _ ?_; with_reducible refine Keeps.foldl (fun s x hs => ?_) _ ?_
  refine ledgerStep_keeps _ ?_; assumption; refine closeKilnPages_keeps _ ?_; refine commitCarries_keeps _ _ ?_; assumption
  refine gather_keeps _ _ ?_; refine count_keeps _ _ _ ?_; refine modSlot_keeps _ _ ?_; refine modTrain_keeps _ _ ?_
  refine advanceGroups_keeps _ ?_; with_reducible refine Keeps.foldl (fun s x hs => ?_) _ ?_; refine ledgerStep_keeps _ ?_; assumption
  refine closeKilnPages_keeps _ ?_; refine commitCarries_keeps _ _ ?_; assumption; assumption
  refine Keeps.ite (fun _ => ?_) (fun _ => ?_); refine checkReplay_keeps _ _ _ ?_ ?_; refine modSecure_keeps _ _ ?_
  refine Keeps.ite (fun _ => ?_) (fun _ => ?_); refine gather_keeps _ _ ?_; refine gather_keeps _ _ ?_; refine count_keeps _ _ _ ?_
  refine modSlot_keeps _ _ ?_; refine modTrain_keeps _ _ ?_; refine advanceGroups_keeps _ ?_
  with_reducible refine Keeps.foldl (fun s x hs => ?_) _ ?_; refine ledgerStep_keeps _ ?_; assumption; refine closeKilnPages_keeps _ ?_
  refine commitCarries_keeps _ _ ?_; assumption; refine gather_keeps _ _ ?_; refine count_keeps _ _ _ ?_; refine modSlot_keeps _ _ ?_
  refine modTrain_keeps _ _ ?_; refine advanceGroups_keeps _ ?_; with_reducible refine Keeps.foldl (fun s x hs => ?_) _ ?_
  refine ledgerStep_keeps _ ?_; assumption; refine closeKilnPages_keeps _ ?_; refine commitCarries_keeps _ _ ?_; assumption; assumption
  assumption

theorem closeTraining_keeps {M : Part → Prop} {s0 a2 : State} (a0) (a1) (h : Keeps M s0 a2) (k_fresh : ¬M .fresh := by assumption) (k_out : ¬M .out := by assumption) (k_led : ¬M .led := by assumption) (k_ctr : ¬M .ctr := by assumption) (k_beat : ¬M .beat := by assumption) (k_fab : ¬M .fab := by assumption) (k_slots : ¬M .slots := by assumption) (k_arrays : ¬M .arrays := by assumption) (k_kilns : ¬M .kilns := by assumption) (k_mem : ¬M .mem := by assumption) (k_engines : ¬M .engines := by assumption) (k_colls : ¬M .colls := by assumption) (k_secures : ¬M .secures := by assumption) (k_refresh : ¬M .refresh := by assumption) (k_host : ¬M .host := by assumption) : Keeps M s0 (closeTraining a0 a1 a2) := by
  unfold closeTraining
  (with_reducible refine Keeps.letAny (fun x hx => ?_); subst hx); split; refine takeVoid_keeps _ _ _ _ ?_
  refine modSlotBeat_keeps _ _ ?_; refine checkSentinels_keeps _ ?_; assumption
  (with_reducible refine Keeps.letAny (fun x hx => ?_); subst hx); refine Keeps.ite (fun _ => ?_) (fun _ => ?_)
  refine commitStep_keeps _ _ ?_; refine Keeps.ite (fun _ => ?_) (fun _ => ?_); refine modTrain_keeps _ _ ?_
  refine modSlotBeat_keeps _ _ ?_; refine checkSentinels_keeps _ ?_; assumption; refine modSlotBeat_keeps _ _ ?_
  refine checkSentinels_keeps _ ?_; assumption; refine Keeps.ite (fun _ => ?_) (fun _ => ?_); refine modTrain_keeps _ _ ?_
  refine modSlotBeat_keeps _ _ ?_; refine checkSentinels_keeps _ ?_; assumption; refine modSlotBeat_keeps _ _ ?_
  refine checkSentinels_keeps _ ?_; assumption

theorem passArray_keeps {M : Part → Prop} {s0 a1 : State} (a0) (h : Keeps M s0 a1) (k_fab : ¬M .fab := by assumption) (k_arrays : ¬M .arrays := by assumption) : Keeps M s0 (passArray a0 a1) := by
  unfold passArray
  split; assumption; with_reducible refine Keeps.letIn ?_ (fun s hs => ?_); refine modArray_keeps _ _ ?_ ?_; intros
  with_reducible assumption; refine modFab_keeps _ ?_; assumption; refine Keeps.ite (fun _ => ?_) (fun _ => ?_)
  refine modFab_keeps _ ?_; assumption; assumption

theorem raiseFaults_keeps {M : Part → Prop} {s0 a2 : State} (a0) (a1) (h : Keeps M s0 a2) (k_led : ¬M .led := by assumption) (k_ctr : ¬M .ctr := by assumption) : Keeps M s0 (raiseFaults a0 a1 a2) := by
  unfold raiseFaults
  refine eventsTogether_keeps _ ?_; with_reducible refine Keeps.foldl (fun s x hs => ?_) _ ?_; refine count_keeps _ _ _ ?_; assumption
  assumption

theorem stopStreams_keeps {M : Part → Prop} {s0 a1 : State} (a0) (h : Keeps M s0 a1) (k_fab : ¬M .fab := by assumption) (k_slots : ¬M .slots := by assumption) : Keeps M s0 (stopStreams a0 a1) := by
  unfold stopStreams
  with_reducible refine Keeps.foldl (fun s x hs => ?_) _ ?_; refine stopStream_keeps _ _ _ ?_; assumption; assumption

theorem dropUnpaired_keeps {M : Part → Prop} {s0 a2 : State} (a0) (a1) (h : Keeps M s0 a2) (k_ctr : ¬M .ctr := by assumption) (k_fab : ¬M .fab := by assumption) (k_slots : ¬M .slots := by assumption) (k_net : ¬M .net := by assumption) : Keeps M s0 (dropUnpaired a0 a1 a2) := by
  unfold dropUnpaired
  (with_reducible refine Keeps.letAny (fun x hx => ?_); subst hx); with_reducible refine Keeps.foldl (fun s x hs => ?_) _ ?_
  (with_reducible refine Keeps.letAny (fun x hx => ?_); subst hx); refine Keeps.ite (fun _ => ?_) (fun _ => ?_); assumption
  (with_reducible refine Keeps.letAny (fun x hx => ?_); subst hx); with_reducible refine Keeps.foldl (fun s x hs => ?_) _ ?_; split
  refine returnCredit_keeps _ _ ?_; assumption; assumption; refine putUnit_keeps _ _ _ ?_; refine count_keeps _ _ _ ?_; assumption
  assumption

theorem closeServing_keeps {M : Part → Prop} {s0 a2 : State} (a0) (a1) (h : Keeps M s0 a2) (k_fresh : ¬M .fresh := by assumption) (k_led : ¬M .led := by assumption) (k_ctr : ¬M .ctr := by assumption) (k_fab : ¬M .fab := by assumption) (k_slots : ¬M .slots := by assumption) (k_arrays : ¬M .arrays := by assumption) (k_mem : ¬M .mem := by assumption) (k_engines : ¬M .engines := by assumption) (k_net : ¬M .net := by assumption) (k_serves : ¬M .serves := by assumption) : Keeps M s0 (closeServing a0 a1 a2) := by
  unfold closeServing
  (with_reducible refine Keeps.letAny (fun x hx => ?_); subst hx); refine modSlotBeat_keeps _ _ ?_; refine modServe_keeps _ _ ?_
  refine retireRequests_keeps _ _ ?_; refine dropUnpaired_keeps _ _ ?_; refine markNotReady_keeps _ _ _ ?_
  refine Keeps.ite (fun _ => ?_) (fun _ => ?_); refine modServe_keeps _ _ ?_; refine stopStreams_keeps _ ?_
  refine Keeps.ite (fun _ => ?_) (fun _ => ?_); refine raiseFaults_keeps _ _ ?_; assumption; refine count_keeps _ _ _ ?_
  refine raiseFaults_keeps _ _ ?_; assumption; refine Keeps.ite (fun _ => ?_) (fun _ => ?_); refine raiseFaults_keeps _ _ ?_
  assumption; refine count_keeps _ _ _ ?_; refine raiseFaults_keeps _ _ ?_; assumption

theorem stretch_keeps {M : Part → Prop} {s0 a2 : State} (a0) (a1) (h : Keeps M s0 a2) (k_led : ¬M .led := by assumption) (k_ctr : ¬M .ctr := by assumption) (k_slots : ¬M .slots := by assumption) : Keeps M s0 (stretch a0 a1 a2) := by
  unfold stretch
  (with_reducible refine Keeps.letAny (fun x hx => ?_); subst hx); refine count_keeps _ _ _ ?_; refine modSlotBeat_keeps _ _ ?_
  refine event_keeps _ _ _ ?_; refine Keeps.ite (fun _ => ?_) (fun _ => ?_); refine count_keeps _ _ _ ?_; assumption; assumption

theorem execVerdictApply_keeps {M : Part → Prop} {s0 a1 : State} (a0) (h : Keeps M s0 a1) (k_fresh : ¬M .fresh := by assumption) (k_out : ¬M .out := by assumption) (k_led : ¬M .led := by assumption) (k_ctr : ¬M .ctr := by assumption) (k_beat : ¬M .beat := by assumption) (k_fab : ¬M .fab := by assumption) (k_slots : ¬M .slots := by assumption) (k_arrays : ¬M .arrays := by assumption) (k_kilns : ¬M .kilns := by assumption) (k_mem : ¬M .mem := by assumption) (k_engines : ¬M .engines := by assumption) (k_net : ¬M .net := by assumption) (k_colls : ¬M .colls := by assumption) (k_secures : ¬M .secures := by assumption) (k_serves : ¬M .serves := by assumption) (k_refresh : ¬M .refresh := by assumption) (k_host : ¬M .host := by assumption) : Answers M s0 (execVerdictApply a0 a1) := by
  unfold execVerdictApply
  with_reducible apply Answers.done; split; assumption; (with_reducible refine Keeps.letAny (fun x hx => ?_); subst hx)
  refine Keeps.ite (fun _ => ?_) (fun _ => ?_); assumption; refine Keeps.ite (fun _ => ?_) (fun _ => ?_)
  refine closeServing_keeps _ _ ?_; assumption; refine Keeps.ite (fun _ => ?_) (fun _ => ?_); refine modSlotBeat_keeps _ _ ?_
  refine stopStreams_keeps _ ?_; refine raiseFaults_keeps _ _ ?_; assumption
  (with_reducible refine Keeps.letAny (fun x hx => ?_); subst hx); refine Keeps.ite (fun _ => ?_) (fun _ => ?_)
  refine stretch_keeps _ _ ?_; assumption; (with_reducible refine Keeps.letAny (fun x hx => ?_); subst hx)
  refine closeTraining_keeps _ _ ?_; split; refine stopStreams_keeps _ ?_; refine eventsTogether_keeps _ ?_
  with_reducible refine Keeps.foldl (fun s x hs => ?_) _ ?_; refine count_keeps _ _ _ ?_; assumption
  refine Keeps.ite (fun _ => ?_) (fun _ => ?_); refine count_keeps _ _ _ ?_; assumption; assumption; refine pendVoid_keeps _ _ _ ?_
  refine stopStreams_keeps _ ?_; refine eventsTogether_keeps _ ?_; with_reducible refine Keeps.foldl (fun s x hs => ?_) _ ?_
  refine count_keeps _ _ _ ?_; assumption; refine Keeps.ite (fun _ => ?_) (fun _ => ?_); refine count_keeps _ _ _ ?_; assumption
  assumption

theorem reloadAgain_keeps {M : Part → Prop} {s0 a2 : State} (a0) (a1) (h : Keeps M s0 a2) (k_engines : ¬M .engines := by assumption) (k_serves : ¬M .serves := by assumption) : Keeps M s0 (reloadAgain a0 a1 a2) := by
  unfold reloadAgain
  with_reducible refine Keeps.foldl (fun s x hs => ?_) _ ?_; refine startReload_keeps _ _ _ _ ?_; assumption; assumption

theorem handOver_keeps {M : Part → Prop} {s0 a1 : State} (a0) (h : Keeps M s0 a1) (k_ctr : ¬M .ctr := by assumption) (k_fab : ¬M .fab := by assumption) (k_arrays : ¬M .arrays := by assumption) : Keeps M s0 (handOver a0 a1) := by
  unfold handOver
  (with_reducible refine Keeps.letAny (fun x hx => ?_); subst hx); refine modFab_keeps _ ?_
  with_reducible refine Keeps.foldl (fun s x hs => ?_) _ ?_; split; assumption
  with_reducible refine Keeps.foldl (fun s x hs => ?_) _ ?_; refine count_keeps _ _ _ ?_; refine count_keeps _ _ _ ?_; assumption
  refine count_keeps _ _ _ ?_; refine count_keeps _ _ _ ?_; assumption; with_reducible refine Keeps.foldl (fun s x hs => ?_) _ ?_
  refine Keeps.ite (fun _ => ?_) (fun _ => ?_); refine count_keeps _ _ _ ?_; assumption; assumption
  with_reducible refine Keeps.foldl (fun s x hs => ?_) _ ?_; refine count_keeps _ _ _ ?_; assumption
  with_reducible refine Keeps.foldl (fun s x hs => ?_) _ ?_; refine passArray_keeps _ ?_; assumption; assumption

theorem switchSet_keeps {M : Part → Prop} {s0 a2 : State} (a0) (a1) (h : Keeps M s0 a2) (k_fresh : ¬M .fresh := by assumption) (k_out : ¬M .out := by assumption) (k_led : ¬M .led := by assumption) (k_ctr : ¬M .ctr := by assumption) (k_slots : ¬M .slots := by assumption) (k_mem : ¬M .mem := by assumption) (k_flash : ¬M .flash := by assumption) (k_net : ¬M .net := by assumption) (k_colls : ¬M .colls := by assumption) (k_secures : ¬M .secures := by assumption) (k_keeper : ¬M .keeper := by assumption) : Keeps M s0 (switchSet a0 a1 a2) := by
  unfold switchSet
  (with_reducible refine Keeps.letAny (fun x hx => ?_); subst hx); split; assumption
  with_reducible refine Keeps.letIn ?_ (fun s hs => ?_); refine Keeps.ite (fun _ => ?_) (fun _ => ?_)
  (with_reducible refine Keeps.letAny (fun x hx => ?_); subst hx); refine resumeKilns_keeps _ ?_; refine modTrain_keeps _ _ ?_
  refine modSlotBeat_keeps _ _ ?_; assumption; refine modSlotBeat_keeps _ _ ?_; assumption
  refine Keeps.ite (fun _ => ?_) (fun _ => ?_); refine runRings_keeps _ ?_; refine Keeps.ite (fun _ => ?_) (fun _ => ?_)
  (with_reducible refine Keeps.letAny (fun x hx => ?_); subst hx); refine resumeKilns_keeps _ ?_; refine modTrain_keeps _ _ ?_
  refine modSlotBeat_keeps _ _ ?_; assumption; refine modSlotBeat_keeps _ _ ?_; assumption; assumption

theorem execCloseWindowOpen_keeps {M : Part → Prop} {s0 a1 : State} (a0) (h : Keeps M s0 a1) (k_fab : ¬M .fab := by assumption) (k_slots : ¬M .slots := by assumption) : Answers M s0 (execCloseWindowOpen a0 a1) := by
  unfold execCloseWindowOpen
  with_reducible apply Answers.done; split; assumption; refine Keeps.ite (fun _ => ?_) (fun _ => ?_); assumption
  (with_reducible refine Keeps.letAny (fun x hx => ?_); subst hx); refine Keeps.ite (fun _ => ?_) (fun _ => ?_)
  refine modFab_keeps _ ?_; refine modSlotBeat_keeps _ _ ?_; assumption; refine modSlotBeat_keeps _ _ ?_; assumption

theorem setGate_keeps {M : Part → Prop} {s0 a2 : State} (a0) (a1) (h : Keeps M s0 a2) (k_arrays : ¬M .arrays := by assumption) : Keeps M s0 (setGate a0 a1 a2) := by
  unfold setGate
  refine Keeps.ite (fun _ => ?_) (fun _ => ?_); assumption; refine modArray_keeps _ _ ?_ ?_; intros
  (first | exact wf_storeBytes _ _ _ (by assumption) | exact wf_clearBytes _ _ _ (by assumption) | (split <;> assumption) | simp_all)
  assumption

theorem execReportCutoff_keeps {M : Part → Prop} {s0 a1 : State} (a0) (h : Keeps M s0 a1) (k_slots : ¬M .slots := by assumption) (k_mem : ¬M .mem := by assumption) (k_serves : ¬M .serves := by assumption) : Answers M s0 (execReportCutoff a0 a1) := by
  unfold execReportCutoff
  with_reducible apply Answers.done; split; assumption; (with_reducible refine Keeps.letAny (fun x hx => ?_); subst hx)
  refine Keeps.ite (fun _ => ?_) (fun _ => ?_); assumption; (with_reducible refine Keeps.letAny (fun x hx => ?_); subst hx)
  refine Keeps.ite (fun _ => ?_) (fun _ => ?_); refine modSlotBeat_keeps _ _ ?_; with_reducible refine Keeps.updMem ?_; assumption
  refine cutoffAnswers_keeps _ _ ?_; refine modSlotBeat_keeps _ _ ?_; with_reducible refine Keeps.updMem ?_; assumption

theorem gateArrays_keeps {M : Part → Prop} {s0 a2 : State} (a0) (a1) (h : Keeps M s0 a2) (k_ctr : ¬M .ctr := by assumption) (k_arrays : ¬M .arrays := by assumption) : Keeps M s0 (gateArrays a0 a1 a2) := by
  unfold gateArrays
  with_reducible refine Keeps.foldl (fun s x hs => ?_) _ ?_; refine setGate_keeps _ _ ?_; refine Keeps.ite (fun _ => ?_) (fun _ => ?_)
  refine count_keeps _ _ _ ?_; assumption; assumption; assumption

theorem stepStart_keeps {M : Part → Prop} {s0 a1 : State} (a0) (h : Keeps M s0 a1) (k_slots : ¬M .slots := by assumption) (k_mem : ¬M .mem := by assumption) : Keeps M s0 (stepStart a0 a1) := by
  unfold stepStart
  (with_reducible refine Keeps.letAny (fun x hx => ?_); subst hx); with_reducible refine Keeps.updMem ?_; refine modTrain_keeps _ _ ?_
  assumption

theorem emptyGas_keeps {M : Part → Prop} {s0 s : State} (slot r) (h : Keeps M s0 s) (k_fresh : ¬M .fresh := by assumption) (k_slots : ¬M .slots := by assumption) (k_arrays : ¬M .arrays := by assumption) : Keeps M s0 (emptyGas slot r s) := by
  unfold emptyGas
  refine Keeps.foldl (fun s g hs => modArray_keeps _ _ (fun x hx => ?_) (draw_keeps hs)) _ (modTrain_keeps _ _ h)
  exact hx

theorem placePrefetch_keeps {M : Part → Prop} {s0 a2 : State} (a0) (a1) (h : Keeps M s0 a2) (k_engines : ¬M .engines := by assumption) : Keeps M s0 (placePrefetch a0 a1 a2) := by
  unfold placePrefetch
  (with_reducible refine Keeps.letAny (fun x hx => ?_); subst hx); with_reducible refine Keeps.foldl (fun s x hs => ?_) _ ?_
  (with_reducible refine Keeps.letAny (fun x hx => ?_); subst hx); split; refine Keeps.ite (fun _ => ?_) (fun _ => ?_)
  refine enqueueDesc_keeps _ _ _ _ _ ?_; assumption; assumption; assumption; assumption

theorem openTraining_keeps {M : Part → Prop} {s0 a2 : State} (a0) (a1) (h : Keeps M s0 a2) (k_fresh : ¬M .fresh := by assumption) (k_out : ¬M .out := by assumption) (k_led : ¬M .led := by assumption) (k_ctr : ¬M .ctr := by assumption) (k_slots : ¬M .slots := by assumption) (k_arrays : ¬M .arrays := by assumption) (k_mem : ¬M .mem := by assumption) (k_engines : ¬M .engines := by assumption) (k_flash : ¬M .flash := by assumption) (k_net : ¬M .net := by assumption) (k_colls : ¬M .colls := by assumption) (k_secures : ¬M .secures := by assumption) (k_keeper : ¬M .keeper := by assumption) : Keeps M s0 (openTraining a0 a1 a2) := by
  unfold openTraining
  with_reducible refine Keeps.letIn ?_ (fun s hs => ?_); refine placePrefetch_keeps _ _ ?_; refine resumeKilns_keeps _ ?_
  refine switchSet_keeps _ _ ?_; refine Keeps.ite (fun _ => ?_) (fun _ => ?_); refine stepStart_keeps _ ?_
  refine emptyGas_keeps _ _ ?_; assumption; assumption; refine stashReads_keeps _ ?_; assumption

theorem openSlot_keeps {M : Part → Prop} {s0 a2 : State} (a0) (a1) (h : Keeps M s0 a2) (k_fresh : ¬M .fresh := by assumption) (k_out : ¬M .out := by assumption) (k_dict : ¬M .dict := by assumption) (k_led : ¬M .led := by assumption) (k_ctr : ¬M .ctr := by assumption) (k_fab : ¬M .fab := by assumption) (k_slots : ¬M .slots := by assumption) (k_arrays : ¬M .arrays := by assumption) (k_mem : ¬M .mem := by assumption) (k_engines : ¬M .engines := by assumption) (k_flash : ¬M .flash := by assumption) (k_net : ¬M .net := by assumption) (k_colls : ¬M .colls := by assumption) (k_secures : ¬M .secures := by assumption) (k_keeper : ¬M .keeper := by assumption) (k_serves : ¬M .serves := by assumption) (k_host : ¬M .host := by assumption) : Keeps M s0 (openSlot a0 a1 a2) := by
  unfold openSlot
  with_reducible refine Keeps.letIn ?_ (fun s hs => ?_); refine reloadAgain_keeps _ _ ?_; refine enterRequests_keeps _ _ _ ?_
  with_reducible refine Keeps.updMem ?_; refine count_keeps _ _ _ ?_; refine modFab_keeps _ ?_; refine modSlot_keeps _ _ ?_
  refine modSlotBeat_keeps _ _ ?_; refine handOver_keeps _ ?_; refine gateArrays_keeps _ _ ?_
  refine Keeps.ite (fun _ => ?_) (fun _ => ?_); refine takeValues_keeps ?_; assumption; assumption
  refine Keeps.ite (fun _ => ?_) (fun _ => ?_); refine Keeps.ite (fun _ => ?_) (fun _ => ?_); refine openTraining_keeps _ _ ?_
  refine count_keeps _ _ _ ?_; refine modFab_keeps _ ?_; refine modSlot_keeps _ _ ?_; refine modSlotBeat_keeps _ _ ?_
  refine handOver_keeps _ ?_; refine gateArrays_keeps _ _ ?_; refine Keeps.ite (fun _ => ?_) (fun _ => ?_); refine takeValues_keeps ?_
  assumption; assumption; refine count_keeps _ _ _ ?_; refine modFab_keeps _ ?_; refine modSlot_keeps _ _ ?_
  refine modSlotBeat_keeps _ _ ?_; refine handOver_keeps _ ?_; refine gateArrays_keeps _ _ ?_
  refine Keeps.ite (fun _ => ?_) (fun _ => ?_); refine takeValues_keeps ?_; assumption; assumption; assumption

theorem execBeatOpen_keeps {M : Part → Prop} {s0 a1 : State} (a0) (h : Keeps M s0 a1) (k_fresh : ¬M .fresh := by assumption) (k_out : ¬M .out := by assumption) (k_dict : ¬M .dict := by assumption) (k_led : ¬M .led := by assumption) (k_ctr : ¬M .ctr := by assumption) (k_beat : ¬M .beat := by assumption) (k_fab : ¬M .fab := by assumption) (k_slots : ¬M .slots := by assumption) (k_arrays : ¬M .arrays := by assumption) (k_mem : ¬M .mem := by assumption) (k_engines : ¬M .engines := by assumption) (k_flash : ¬M .flash := by assumption) (k_power : ¬M .power := by assumption) (k_net : ¬M .net := by assumption) (k_colls : ¬M .colls := by assumption) (k_secures : ¬M .secures := by assumption) (k_keeper : ¬M .keeper := by assumption) (k_serves : ¬M .serves := by assumption) (k_host : ¬M .host := by assumption) : Answers M s0 (execBeatOpen a0 a1) := by
  unfold execBeatOpen
  with_reducible apply Answers.done; split; refine Keeps.ite (fun _ => ?_) (fun _ => ?_); refine openFabric_keeps ?_; assumption
  assumption; split; assumption; refine Keeps.ite (fun _ => ?_) (fun _ => ?_); refine openSlot_keeps _ _ ?_; assumption; assumption

theorem execReplayStart_keeps {M : Part → Prop} {s0 a1 : State} (a0) (h : Keeps M s0 a1) (k_fresh : ¬M .fresh := by assumption) (k_out : ¬M .out := by assumption) (k_led : ¬M .led := by assumption) (k_ctr : ¬M .ctr := by assumption) (k_slots : ¬M .slots := by assumption) (k_arrays : ¬M .arrays := by assumption) (k_mem : ¬M .mem := by assumption) (k_engines : ¬M .engines := by assumption) (k_flash : ¬M .flash := by assumption) (k_net : ¬M .net := by assumption) (k_colls : ¬M .colls := by assumption) (k_secures : ¬M .secures := by assumption) (k_keeper : ¬M .keeper := by assumption) (k_host : ¬M .host := by assumption) : Answers M s0 (execReplayStart a0 a1) := by
  unfold execReplayStart
  with_reducible apply Answers.done; split; assumption; (with_reducible refine Keeps.letAny (fun x hx => ?_); subst hx); split
  refine Keeps.ite (fun _ => ?_) (fun _ => ?_); refine openTraining_keeps _ _ ?_; refine modSlotBeat_keeps _ _ ?_
  refine setTrainState_keeps _ _ ?_; assumption; assumption; assumption

end Sys2Proof.Machine
end

