-- ==== Sys2Proof/Laws/KeepsCounters.lean ====
section
/-! SUPPORT. The queue and the invariant are kept by the operations of Machine/Counters.lean. -/

set_option Elab.async false

namespace Sys2Proof.Machine

theorem clearEffect_keeps {M : Part → Prop} {s0 a0 : State}  (h : Keeps M s0 a0) (k_ctr : ¬M .ctr := by assumption) : Keeps M s0 (clearEffect a0).2 := by
  unfold clearEffect
  refine checked_keeps _ _ ?_ ?_; assumption; intros; with_reducible refine Keeps.updCtr ?_; assumption

theorem capture_keeps {M : Part → Prop} {s0 s : State} (h : Keeps M s0 s) (k_ctr : ¬M .ctr := by assumption) : Keeps M s0 (capture s) := by
  refine h.next rfl (fun i => ?_) (fun p m => by cases p <;> first | rfl | exact absurd m (by assumption))
  unfold capture; dsimp only; split
  · exact ⟨i.home, i.cached, i.tbf, i.timer, fits_nil, fits_nil, fits_nil, fits_nil, i.commands, i.events, i.steps⟩
  · exact ⟨i.home, i.cached, i.tbf, i.timer, i.live, i.live, i.station, i.station, i.commands, i.events, i.steps⟩

theorem execCounterCapture_keeps {M : Part → Prop} {s0 a0 : State}  (h : Keeps M s0 a0) (k_out : ¬M .out := by assumption) (k_ctr : ¬M .ctr := by assumption) (k_host : ¬M .host := by assumption) : Answers M s0 (execCounterCapture a0) := by
  unfold execCounterCapture
  with_reducible apply Answers.done; refine Keeps.ite (fun _ => ?_) (fun _ => ?_)
  with_reducible refine Keeps.letIn ?_ (fun s hs => ?_); with_reducible refine Keeps.foldl (fun s x hs => ?_) _ ?_
  refine Keeps.ite (fun _ => ?_) (fun _ => ?_); refine signal_keeps _ _ ?_; assumption; assumption
  with_reducible refine Keeps.updCtr ?_; refine count_keeps _ _ _ ?_; assumption; refine Keeps.ite (fun _ => ?_) (fun _ => ?_)
  refine capture_keeps ?_; with_reducible refine Keeps.foldl (fun s x hs => ?_) _ ?_; refine Keeps.ite (fun _ => ?_) (fun _ => ?_)
  refine signal_keeps _ _ ?_; assumption; assumption; with_reducible refine Keeps.updCtr ?_; refine count_keeps _ _ _ ?_; assumption
  assumption; assumption

end Sys2Proof.Machine
end

