-- ==== Sys2Proof/Laws/KeepsSupply.lean ====
section
/-! SUPPORT. The queue and the invariant are kept by the operations of Machine/Supply.lean. -/

set_option Elab.async false

namespace Sys2Proof.Machine

theorem programAll_keeps {M : Part → Prop} {s0 s : State} (n : Nat) (h : Keeps M s0 s) (k_ctr : ¬M .ctr := by assumption) (k_flash : ¬M .flash := by assumption) (k_power : ¬M .power := by assumption) : Keeps M s0 (programAll n s) := by
  induction n generalizing s with
  | zero => exact h
  | succ n ih => exact ih (modPower_keeps _ (programNext_keeps h))

theorem loadTestEffect_keeps {M : Part → Prop} {s0 a0 : State}  (h : Keeps M s0 a0) (k_out : ¬M .out := by assumption) (k_power : ¬M .power := by assumption) (k_host : ¬M .host := by assumption) : Keeps M s0 (loadTestEffect a0).2 := by
  unfold loadTestEffect
  refine checked_keeps _ _ ?_ ?_; assumption; intros; refine supplySignal_keeps _ ?_ ?_; refine startTest_keeps ?_; assumption
  assumption

theorem execCableShort_keeps {M : Part → Prop} {s0 a1 : State} (a0) (h : Keeps M s0 a1) (k_led : ¬M .led := by assumption) (k_ctr : ¬M .ctr := by assumption) (k_power : ¬M .power := by assumption) (k_net : ¬M .net := by assumption) : Answers M s0 (execCableShort a0 a1) := by
  unfold execCableShort
  with_reducible apply Answers.done; refine Keeps.ite (fun _ => ?_) (fun _ => ?_); assumption
  with_reducible refine Keeps.foldl (fun s x hs => ?_) _ ?_; refine Keeps.ite (fun _ => ?_) (fun _ => ?_); refine linkDown_keeps _ ?_
  assumption; assumption; refine modPower_keeps _ ?_; assumption

theorem execInputLow_keeps {M : Part → Prop} {s0 a0 : State}  (h : Keeps M s0 a0) (k_out : ¬M .out := by assumption) (k_led : ¬M .led := by assumption) (k_ctr : ¬M .ctr := by assumption) (k_power : ¬M .power := by assumption) (k_host : ¬M .host := by assumption) : Answers M s0 (execInputLow a0) := by
  unfold execInputLow
  with_reducible apply Answers.done; refine Keeps.ite (fun _ => ?_) (fun _ => ?_); refine supplySignal_keeps _ ?_ ?_
  refine event_keeps _ _ _ ?_; refine modPower_keeps _ ?_; assumption; assumption; assumption

theorem stopDie_keeps {M : Part → Prop} {s0 a0 : State}  (h : Keeps M s0 a0) (k_fab : ¬M .fab := by assumption) (k_slots : ¬M .slots := by assumption) (k_arrays : ¬M .arrays := by assumption) (k_engines : ¬M .engines := by assumption) (k_net : ¬M .net := by assumption) (k_colls : ¬M .colls := by assumption) (k_secures : ¬M .secures := by assumption) (k_admissions : ¬M .admissions := by assumption) (k_serves : ¬M .serves := by assumption) (k_refresh : ¬M .refresh := by assumption) (k_host : ¬M .host := by assumption) : Keeps M s0 (stopDie a0) := by
  unfold stopDie
  with_reducible refine Keeps.updGen ?_ (fun hm => by first | exact hm | exact tbfs_kmap (fun _ _ => rfl) hm | exact fits_filter _ hm | exact wf_clearBytes _ _ _ hm | exact tbfs_nil) (fun hm => by first | exact hm | exact tbfs_kmap (fun _ _ => rfl) hm | exact fits_filter _ hm | exact wf_clearBytes _ _ _ hm | exact tbfs_nil) (fun hm => by first | exact hm | exact tbfs_kmap (fun _ _ => rfl) hm | exact fits_filter _ hm | exact wf_clearBytes _ _ _ hm | exact tbfs_nil) (fun hm => by first | exact hm | exact tbfs_kmap (fun _ _ => rfl) hm | exact fits_filter _ hm | exact wf_clearBytes _ _ _ hm | exact tbfs_nil) (fun hm => by first | exact hm | exact tbfs_kmap (fun _ _ => rfl) hm | exact fits_filter _ hm | exact wf_clearBytes _ _ _ hm | exact tbfs_nil) (fun hm => by first | exact hm | exact tbfs_kmap (fun _ _ => rfl) hm | exact fits_filter _ hm | exact wf_clearBytes _ _ _ hm | exact tbfs_nil) (fun hm => by first | exact hm | exact tbfs_kmap (fun _ _ => rfl) hm | exact fits_filter _ hm | exact wf_clearBytes _ _ _ hm | exact tbfs_nil)
  assumption

theorem declareLoss_keeps {M : Part → Prop} {s0 a1 : State} (a0) (h : Keeps M s0 a1) (k_out : ¬M .out := by assumption) (k_fab : ¬M .fab := by assumption) (k_slots : ¬M .slots := by assumption) (k_arrays : ¬M .arrays := by assumption) (k_engines : ¬M .engines := by assumption) (k_power : ¬M .power := by assumption) (k_net : ¬M .net := by assumption) (k_colls : ¬M .colls := by assumption) (k_secures : ¬M .secures := by assumption) (k_admissions : ¬M .admissions := by assumption) (k_serves : ¬M .serves := by assumption) (k_refresh : ¬M .refresh := by assumption) (k_host : ¬M .host := by assumption) : Keeps M s0 (declareLoss a0 a1) := by
  unfold declareLoss
  refine Keeps.ite (fun _ => ?_) (fun _ => ?_); assumption; refine stopDie_keeps ?_; refine supplySignal_keeps _ ?_ ?_
  refine modPower_keeps _ ?_; assumption; assumption

theorem openSwitch_keeps {M : Part → Prop} {s0 a0 : State}  (h : Keeps M s0 a0) (k_out : ¬M .out := by assumption) (k_fab : ¬M .fab := by assumption) (k_slots : ¬M .slots := by assumption) (k_arrays : ¬M .arrays := by assumption) (k_engines : ¬M .engines := by assumption) (k_power : ¬M .power := by assumption) (k_net : ¬M .net := by assumption) (k_colls : ¬M .colls := by assumption) (k_secures : ¬M .secures := by assumption) (k_admissions : ¬M .admissions := by assumption) (k_serves : ¬M .serves := by assumption) (k_refresh : ¬M .refresh := by assumption) (k_host : ¬M .host := by assumption) : Keeps M s0 (openSwitch a0) := by
  unfold openSwitch
  refine declareLoss_keeps _ ?_; refine modPower_keeps _ ?_; assumption

theorem execInputLoss_keeps {M : Part → Prop} {s0 a1 : State} (a0) (h : Keeps M s0 a1) (k_out : ¬M .out := by assumption) (k_fab : ¬M .fab := by assumption) (k_slots : ¬M .slots := by assumption) (k_arrays : ¬M .arrays := by assumption) (k_engines : ¬M .engines := by assumption) (k_power : ¬M .power := by assumption) (k_net : ¬M .net := by assumption) (k_colls : ¬M .colls := by assumption) (k_secures : ¬M .secures := by assumption) (k_admissions : ¬M .admissions := by assumption) (k_serves : ¬M .serves := by assumption) (k_refresh : ¬M .refresh := by assumption) (k_host : ¬M .host := by assumption) : Answers M s0 (execInputLoss a0 a1) := by
  unfold execInputLoss
  with_reducible apply Answers.done; refine declareLoss_keeps _ ?_; assumption

theorem execInputOvervoltage_keeps {M : Part → Prop} {s0 a0 : State}  (h : Keeps M s0 a0) (k_out : ¬M .out := by assumption) (k_fab : ¬M .fab := by assumption) (k_slots : ¬M .slots := by assumption) (k_arrays : ¬M .arrays := by assumption) (k_engines : ¬M .engines := by assumption) (k_power : ¬M .power := by assumption) (k_net : ¬M .net := by assumption) (k_colls : ¬M .colls := by assumption) (k_secures : ¬M .secures := by assumption) (k_admissions : ¬M .admissions := by assumption) (k_serves : ¬M .serves := by assumption) (k_refresh : ¬M .refresh := by assumption) (k_host : ¬M .host := by assumption) : Answers M s0 (execInputOvervoltage a0) := by
  unfold execInputOvervoltage
  with_reducible apply Answers.done; refine openSwitch_keeps ?_; assumption

theorem execHoldupQuiesceEnd_keeps {M : Part → Prop} {s0 a0 : State}  (h : Keeps M s0 a0) (k_led : ¬M .led := by assumption) (k_ctr : ¬M .ctr := by assumption) (k_power : ¬M .power := by assumption) : Answers M s0 (execHoldupQuiesceEnd a0) := by
  unfold execHoldupQuiesceEnd
  with_reducible apply Answers.done; refine Keeps.ite (fun _ => ?_) (fun _ => ?_); refine event_keeps _ _ _ ?_
  refine modPower_keeps _ ?_; assumption; assumption

theorem execLoadTestDone_keeps {M : Part → Prop} {s0 a1 : State} (a0) (h : Keeps M s0 a1) (k_out : ¬M .out := by assumption) (k_led : ¬M .led := by assumption) (k_ctr : ¬M .ctr := by assumption) (k_power : ¬M .power := by assumption) (k_host : ¬M .host := by assumption) : Answers M s0 (execLoadTestDone a0 a1) := by
  unfold execLoadTestDone
  with_reducible refine Answers.letIn ?_ (fun s hs => ?_); refine Keeps.ite (fun _ => ?_) (fun _ => ?_)
  refine supplySignal_keeps _ ?_ ?_; (with_reducible refine Keeps.letAny (fun x hx => ?_); subst hx)
  refine Keeps.ite (fun _ => ?_) (fun _ => ?_); refine event_keeps _ _ _ ?_; refine modPower_keeps _ ?_
  refine Keeps.ite (fun _ => ?_) (fun _ => ?_); refine event_keeps _ _ _ ?_; refine modPower_keeps _ ?_; refine modPower_keeps _ ?_
  assumption; refine modPower_keeps _ ?_; assumption; refine Keeps.ite (fun _ => ?_) (fun _ => ?_); refine event_keeps _ _ _ ?_
  refine modPower_keeps _ ?_; refine modPower_keeps _ ?_; assumption; refine modPower_keeps _ ?_; assumption; assumption; assumption
  with_reducible apply Answers.done; assumption

theorem execInputHigh_keeps {M : Part → Prop} {s0 a1 : State} (a0) (h : Keeps M s0 a1) (k_power : ¬M .power := by assumption) : Answers M s0 (execInputHigh a0 a1) := by
  unfold execInputHigh
  with_reducible apply Answers.done; refine modPower_keeps _ ?_; assumption

theorem execLoadTest_keeps {M : Part → Prop} {s0 a0 : State}  (h : Keeps M s0 a0) (k_out : ¬M .out := by assumption) (k_power : ¬M .power := by assumption) (k_host : ¬M .host := by assumption) : Answers M s0 (execLoadTest a0) := by
  unfold execLoadTest
  (with_reducible refine Answers.letAny (fun x hx => ?_); subst hx); with_reducible apply Answers.done
  refine Keeps.ite (fun _ => ?_) (fun _ => ?_); refine supplySignal_keeps _ ?_ ?_; refine startTest_keeps ?_; assumption; assumption
  assumption

theorem execHoldupProgramDone_keeps {M : Part → Prop} {s0 a0 : State}  (h : Keeps M s0 a0) (k_ctr : ¬M .ctr := by assumption) (k_flash : ¬M .flash := by assumption) (k_power : ¬M .power := by assumption) : Answers M s0 (execHoldupProgramDone a0) := by
  unfold execHoldupProgramDone
  with_reducible apply Answers.done; refine Keeps.ite (fun _ => ?_) (fun _ => ?_); refine modPower_keeps _ ?_
  refine programAll_keeps _ ?_; assumption; assumption

theorem execInputLowClear_keeps {M : Part → Prop} {s0 a0 : State}  (h : Keeps M s0 a0) (k_out : ¬M .out := by assumption) (k_power : ¬M .power := by assumption) (k_host : ¬M .host := by assumption) : Answers M s0 (execInputLowClear a0) := by
  unfold execInputLowClear
  with_reducible apply Answers.done; refine Keeps.ite (fun _ => ?_) (fun _ => ?_); refine supplySignal_keeps _ ?_ ?_
  refine modPower_keeps _ ?_; assumption; assumption; assumption

theorem smbusWrite_keeps {M : Part → Prop} {s0 a3 : State} (a0) (a1) (a2) (h : Keeps M s0 a3) : Keeps M s0 (smbusWrite a0 a1 a2 a3).1 := by
  unfold smbusWrite
  dsimp only; assumption

theorem execOvercurrent_keeps {M : Part → Prop} {s0 a0 : State}  (h : Keeps M s0 a0) (k_out : ¬M .out := by assumption) (k_fab : ¬M .fab := by assumption) (k_slots : ¬M .slots := by assumption) (k_arrays : ¬M .arrays := by assumption) (k_engines : ¬M .engines := by assumption) (k_power : ¬M .power := by assumption) (k_net : ¬M .net := by assumption) (k_colls : ¬M .colls := by assumption) (k_secures : ¬M .secures := by assumption) (k_admissions : ¬M .admissions := by assumption) (k_serves : ¬M .serves := by assumption) (k_refresh : ¬M .refresh := by assumption) (k_host : ¬M .host := by assumption) : Answers M s0 (execOvercurrent a0) := by
  unfold execOvercurrent
  with_reducible apply Answers.done; refine openSwitch_keeps ?_; assumption

theorem execBankExhausted_keeps {M : Part → Prop} {s0 a0 : State}  (h : Keeps M s0 a0) (k_power : ¬M .power := by assumption) : Answers M s0 (execBankExhausted a0) := by
  unfold execBankExhausted
  with_reducible apply Answers.done; refine Keeps.ite (fun _ => ?_) (fun _ => ?_); refine modPower_keeps _ ?_; assumption; assumption

end Sys2Proof.Machine
end

