-- ==== Sys2Proof/Laws/KeepsReset.lean ====
section
/-! SUPPORT. The queue and the invariant are kept by the operations of Machine/Reset.lean. -/

set_option Elab.async false

namespace Sys2Proof.Machine

theorem releaseSite_keeps {M : Part → Prop} {s0 a1 : State} (a0) (h : Keeps M s0 a1) (k_led : ¬M .led := by assumption) (k_ctr : ¬M .ctr := by assumption) (k_fab : ¬M .fab := by assumption) : Keeps M s0 (releaseSite a0 a1) := by
  unfold releaseSite
  refine Keeps.ite (fun _ => ?_) (fun _ => ?_); assumption; (with_reducible refine Keeps.letAny (fun x hx => ?_); subst hx); split
  refine event_keeps _ _ _ ?_; refine modFab_keeps _ ?_; assumption; refine Keeps.ite (fun _ => ?_) (fun _ => ?_)
  refine event_keeps _ _ _ ?_; refine count_keeps _ _ _ ?_; refine modFab_keeps _ ?_; refine event_keeps _ _ _ ?_
  refine modFab_keeps _ ?_; assumption; refine modFab_keeps _ ?_; refine event_keeps _ _ _ ?_; refine modFab_keeps _ ?_; assumption

theorem releaseSites_keeps {M : Part → Prop} {s0 a1 : State} (a0) (h : Keeps M s0 a1) (k_led : ¬M .led := by assumption) (k_ctr : ¬M .ctr := by assumption) (k_fab : ¬M .fab := by assumption) : Keeps M s0 (releaseSites a0 a1) := by
  unfold releaseSites
  with_reducible refine Keeps.foldl (fun s x hs => ?_) _ ?_; refine releaseSite_keeps _ ?_; assumption
  with_reducible refine Keeps.foldl (fun s x hs => ?_) _ ?_; refine releaseSite_keeps _ ?_; assumption; assumption

theorem clearFabric_keeps {M : Part → Prop} {s0 a0 : State}  (h : Keeps M s0 a0) (k_fresh : ¬M .fresh := by assumption) (k_out : ¬M .out := by assumption) (k_led : ¬M .led := by assumption) (k_ctr : ¬M .ctr := by assumption) (k_fab : ¬M .fab := by assumption) (k_slots : ¬M .slots := by assumption) (k_arrays : ¬M .arrays := by assumption) (k_mem : ¬M .mem := by assumption) (k_engines : ¬M .engines := by assumption) (k_colls : ¬M .colls := by assumption) (k_secures : ¬M .secures := by assumption) (k_admissions : ¬M .admissions := by assumption) (k_serves : ¬M .serves := by assumption) (k_refresh : ¬M .refresh := by assumption) (k_host : ¬M .host := by assumption) : Keeps M s0 (clearFabric a0) := by
  unfold clearFabric
  (with_reducible refine Keeps.letAny (fun x hx => ?_); subst hx)
  with_reducible refine Keeps.updGen ?_ (fun hm => by first | exact hm | exact tbfs_kmap (fun _ _ => rfl) hm | exact fits_filter _ hm | exact wf_clearBytes _ _ _ hm | exact tbfs_nil) (fun hm => by first | exact hm | exact tbfs_kmap (fun _ _ => rfl) hm | exact fits_filter _ hm | exact wf_clearBytes _ _ _ hm | exact tbfs_nil) (fun hm => by first | exact hm | exact tbfs_kmap (fun _ _ => rfl) hm | exact fits_filter _ hm | exact wf_clearBytes _ _ _ hm | exact tbfs_nil) (fun hm => by first | exact hm | exact tbfs_kmap (fun _ _ => rfl) hm | exact fits_filter _ hm | exact wf_clearBytes _ _ _ hm | exact tbfs_nil) (fun hm => by first | exact hm | exact tbfs_kmap (fun _ _ => rfl) hm | exact fits_filter _ hm | exact wf_clearBytes _ _ _ hm | exact tbfs_nil) (fun hm => by first | exact hm | exact tbfs_kmap (fun _ _ => rfl) hm | exact fits_filter _ hm | exact wf_clearBytes _ _ _ hm | exact tbfs_nil) (fun hm => by first | exact hm | exact tbfs_kmap (fun _ _ => rfl) hm | exact fits_filter _ hm | exact wf_clearBytes _ _ _ hm | exact tbfs_nil)
  with_reducible refine Keeps.foldl (fun s x hs => ?_) _ ?_; refine Keeps.ite (fun _ => ?_) (fun _ => ?_); assumption
  (with_reducible refine Keeps.letAny (fun x hx => ?_); subst hx); refine Keeps.ite (fun _ => ?_) (fun _ => ?_)
  refine setAdmission_keeps _ _ ?_; refine freeSlot_keeps _ ?_; assumption; refine freeSlot_keeps _ ?_; assumption; assumption

theorem undoShadow_keeps {M : Part → Prop} {s0 a0 : State}  (h : Keeps M s0 a0) (k_mem : ¬M .mem := by assumption) : Keeps M s0 (undoShadow a0) := by
  unfold undoShadow
  with_reducible refine Keeps.foldl (fun s x hs => ?_) _ ?_; split
  with_reducible refine Keeps.updHome ?_ (fun hm => by first | exact wf_storeByte _ _ _ hm | exact wf_storeBytes _ _ _ hm | exact wf_storeBytes _ _ _ (wf_clearBytes _ _ _ hm) | exact wf_copyRange _ _ _ _ hm | exact wf_storeAll _ _ (wf_clearBytes _ _ _ hm))
  assumption; assumption; assumption

theorem trainLinks_keeps {M : Part → Prop} {s0 a0 : State}  (h : Keeps M s0 a0) (k_net : ¬M .net := by assumption) : Keeps M s0 (trainLinks a0) := by
  unfold trainLinks
  with_reducible refine Keeps.foldl (fun s x hs => ?_) _ ?_; with_reducible refine Keeps.letIn ?_ (fun s hs => ?_)
  refine setPortMode_keeps _ _ ?_; refine Keeps.ite (fun _ => ?_) (fun _ => ?_); assumption; refine enableLink_keeps _ _ ?_; assumption
  refine Keeps.ite (fun _ => ?_) (fun _ => ?_); refine Keeps.ite (fun _ => ?_) (fun _ => ?_); assumption
  refine enableLink_keeps _ _ ?_; assumption; assumption; assumption

theorem clearModule_keeps {M : Part → Prop} {s0 s : State} (cls) (h : Keeps M s0 s) (k_dict : ¬M .dict := by assumption) (k_led : ¬M .led := by assumption) (k_ctr : ¬M .ctr := by assumption) (k_beat : ¬M .beat := by assumption) (k_fab : ¬M .fab := by assumption) (k_slots : ¬M .slots := by assumption) (k_arrays : ¬M .arrays := by assumption) (k_kilns : ¬M .kilns := by assumption) (k_mem : ¬M .mem := by assumption) (k_engines : ¬M .engines := by assumption) (k_flash : ¬M .flash := by assumption) (k_power : ¬M .power := by assumption) (k_net : ¬M .net := by assumption) (k_colls : ¬M .colls := by assumption) (k_secures : ¬M .secures := by assumption) (k_keeper : ¬M .keeper := by assumption) (k_admissions : ¬M .admissions := by assumption) (k_serves : ¬M .serves := by assumption) (k_refresh : ¬M .refresh := by assumption) (k_host : ¬M .host := by assumption) (k_sys : ¬M .sys := by assumption) : Keeps M s0 (clearModule cls s) := by
  have h1 : Keeps M s0 (if s.power.journalLost then undoShadow s else s) := Keeps.ite (fun _ => undoShadow_keeps h) (fun _ => h)
  unfold clearModule
  refine trainLinks_keeps (h1.next rfl (fun i => ?_) (fun p m => by cases p <;> first | rfl | exact absurd m (by assumption)))
  refine ⟨Memory.wf_filter _ _ i.home, ?_, tbfs_nil, Nat.zero_le 3, fits_nil, fits_nil, fits_nil, fits_nil, ring_nil _, ring_nil _, i.steps⟩
  show Memory.wf (if cls = 3 then [] else _) = true
  split
  · rfl
  · exact Memory.wf_filter _ _ i.cached

theorem runImage_keeps {M : Part → Prop} {s0 a3 : State} (a0) (a1) (a2) (h : Keeps M s0 a3) (k_host : ¬M .host := by assumption) (k_sys : ¬M .sys := by assumption) : Keeps M s0 (runImage a0 a1 a2 a3) := by
  unfold runImage
  refine modHost_keeps _ ?_; refine modSys_keeps _ ?_; assumption

theorem refuseImage_keeps {M : Part → Prop} {s0 a1 : State} (a0) (h : Keeps M s0 a1) (k_sys : ¬M .sys := by assumption) : Keeps M s0 (refuseImage a0 a1) := by
  unfold refuseImage
  refine modSys_keeps _ ?_; assumption

theorem trySlot_keeps {M : Part → Prop} {s0 a2 : State} (a0) (a1) (h : Keeps M s0 a2) (k_host : ¬M .host := by assumption) (k_sys : ¬M .sys := by assumption) : Keeps M s0 (trySlot a0 a1 a2).1 := by
  unfold trySlot
  (with_reducible refine Keeps.letAnyFst (fun x hx => ?_); subst hx); with_reducible refine Keeps.iteFst (fun hc => ?_) (fun hc => ?_)
  dsimp only; assumption; split; dsimp only; refine runImage_keeps _ _ _ ?_; refine setImage_keeps _ _ ?_; assumption; dsimp only
  refine refuseImage_keeps _ ?_; refine setImage_keeps _ _ ?_; assumption

theorem bootRecovery_keeps {M : Part → Prop} {s0 a0 : State}  (h : Keeps M s0 a0) (k_host : ¬M .host := by assumption) (k_sys : ¬M .sys := by assumption) : Keeps M s0 (bootRecovery a0) := by
  unfold bootRecovery
  split; refine runImage_keeps _ _ _ ?_; assumption; refine modHost_keeps _ ?_; refine modSys_keeps _ ?_; refine refuseImage_keeps _ ?_
  assumption

theorem boot_keeps {M : Part → Prop} {s0 a0 : State}  (h : Keeps M s0 a0) (k_host : ¬M .host := by assumption) (k_sys : ¬M .sys := by assumption) : Keeps M s0 (boot a0) := by
  unfold boot
  split; (with_reducible refine Keeps.letAny (fun x hx => ?_); subst hx); refine Keeps.ite (fun _ => ?_) (fun _ => ?_)
  refine trySlot_keeps _ _ ?_; assumption; (with_reducible refine Keeps.letAny (fun x hx => ?_); subst hx)
  refine Keeps.ite (fun _ => ?_) (fun _ => ?_); refine trySlot_keeps _ _ ?_; refine trySlot_keeps _ _ ?_; assumption
  refine bootRecovery_keeps ?_; refine trySlot_keeps _ _ ?_; refine trySlot_keeps _ _ ?_; assumption; refine modHost_keeps _ ?_
  refine modSys_keeps _ ?_; assumption; refine bootRecovery_keeps ?_; assumption; split; refine Keeps.ite (fun _ => ?_) (fun _ => ?_)
  refine runImage_keeps _ _ _ ?_; assumption; refine bootRecovery_keeps ?_; assumption; refine bootRecovery_keeps ?_
  refine refuseImage_keeps _ ?_; assumption

theorem failUnits_keeps {M : Part → Prop} {s0 a2 : State} (a0) (a1) (h : Keeps M s0 a2) (k_mem : ¬M .mem := by assumption) : Keeps M s0 (failUnits a0 a1 a2) := by
  unfold failUnits
  with_reducible refine Keeps.updMem ?_; assumption

theorem releaseLinks_keeps {M : Part → Prop} {s0 a1 : State} (a0) (h : Keeps M s0 a1) (k_out : ¬M .out := by assumption) (k_net : ¬M .net := by assumption) : Keeps M s0 (releaseLinks a0 a1) := by
  unfold releaseLinks
  with_reducible refine Keeps.foldl (fun s x hs => ?_) _ ?_; refine Keeps.ite (fun _ => ?_) (fun _ => ?_); assumption
  refine Keeps.ite (fun _ => ?_) (fun _ => ?_); refine sendFrame_keeps _ _ _ _ ?_; refine modLink_keeps _ _ ?_; assumption
  refine modLink_keeps _ _ ?_; assumption; assumption

theorem execResetStretchEnd_keeps {M : Part → Prop} {s0 a1 : State} (a0) (h : Keeps M s0 a1) (k_fresh : ¬M .fresh := by assumption) (k_out : ¬M .out := by assumption) (k_dict : ¬M .dict := by assumption) (k_led : ¬M .led := by assumption) (k_ctr : ¬M .ctr := by assumption) (k_beat : ¬M .beat := by assumption) (k_fab : ¬M .fab := by assumption) (k_slots : ¬M .slots := by assumption) (k_arrays : ¬M .arrays := by assumption) (k_kilns : ¬M .kilns := by assumption) (k_mem : ¬M .mem := by assumption) (k_engines : ¬M .engines := by assumption) (k_flash : ¬M .flash := by assumption) (k_power : ¬M .power := by assumption) (k_net : ¬M .net := by assumption) (k_colls : ¬M .colls := by assumption) (k_secures : ¬M .secures := by assumption) (k_keeper : ¬M .keeper := by assumption) (k_admissions : ¬M .admissions := by assumption) (k_serves : ¬M .serves := by assumption) (k_refresh : ¬M .refresh := by assumption) (k_host : ¬M .host := by assumption) (k_sys : ¬M .sys := by assumption) : Answers M s0 (execResetStretchEnd a0 a1) := by
  unfold execResetStretchEnd
  with_reducible apply Answers.done; split; assumption; refine Keeps.ite (fun _ => ?_) (fun _ => ?_); assumption
  with_reducible refine Keeps.letIn ?_ (fun s hs => ?_); with_reducible refine Keeps.letIn ?_ (fun s hs => ?_)
  with_reducible refine Keeps.letIn ?_ (fun s hs => ?_); with_reducible refine Keeps.letIn ?_ (fun s hs => ?_)
  refine releaseLinks_keeps _ ?_; refine failUnits_keeps _ _ ?_; refine failUnits_keeps _ _ ?_; refine boot_keeps ?_
  refine modPower_keeps _ ?_; refine Keeps.ite (fun _ => ?_) (fun _ => ?_); refine modSys_keeps _ ?_; refine clearModule_keeps _ ?_
  refine modSys_keeps _ ?_; assumption; refine clearModule_keeps _ ?_; refine modSys_keeps _ ?_; assumption
  refine releaseSites_keeps _ ?_; assumption; refine Keeps.ite (fun _ => ?_) (fun _ => ?_); refine boot_keeps ?_
  refine modPower_keeps _ ?_; refine Keeps.ite (fun _ => ?_) (fun _ => ?_); refine modSys_keeps _ ?_; refine clearModule_keeps _ ?_
  refine modSys_keeps _ ?_; assumption; refine clearModule_keeps _ ?_; refine modSys_keeps _ ?_; assumption; assumption
  refine Keeps.ite (fun _ => ?_) (fun _ => ?_); refine modHost_keeps _ ?_; refine modPower_keeps _ ?_
  refine Keeps.ite (fun _ => ?_) (fun _ => ?_); refine modSys_keeps _ ?_; refine clearModule_keeps _ ?_; refine modSys_keeps _ ?_
  assumption; refine clearModule_keeps _ ?_; refine modSys_keeps _ ?_; assumption; assumption
  refine Keeps.ite (fun _ => ?_) (fun _ => ?_); refine releaseSites_keeps _ ?_; refine clearFabric_keeps ?_; refine modSys_keeps _ ?_
  assumption; assumption

theorem requestReset_keeps {M : Part → Prop} {s0 a3 : State} (a0) (a1) (a2) (h : Keeps M s0 a3) (k_fresh : ¬M .fresh := by assumption) (k_out : ¬M .out := by assumption) (k_led : ¬M .led := by assumption) (k_ctr : ¬M .ctr := by assumption) (k_fab : ¬M .fab := by assumption) (k_slots : ¬M .slots := by assumption) (k_arrays : ¬M .arrays := by assumption) (k_mem : ¬M .mem := by assumption) (k_engines : ¬M .engines := by assumption) (k_net : ¬M .net := by assumption) (k_colls : ¬M .colls := by assumption) (k_secures : ¬M .secures := by assumption) (k_admissions : ¬M .admissions := by assumption) (k_serves : ¬M .serves := by assumption) (k_refresh : ¬M .refresh := by assumption) (k_host : ¬M .host := by assumption) (k_sys : ¬M .sys := by assumption) : Keeps M s0 (requestReset a0 a1 a2 a3) := by
  unfold requestReset
  (with_reducible refine Keeps.letAny (fun x hx => ?_); subst hx); refine Keeps.ite (fun _ => ?_) (fun _ => ?_); assumption; split
  dsimp -zeta only; refine modSys_keeps _ ?_; refine Keeps.ite (fun _ => ?_) (fun _ => ?_); refine clearFabric_keeps ?_; assumption
  refine stopDie_keeps ?_; assumption; refine Keeps.ite (fun _ => ?_) (fun _ => ?_); assumption; dsimp -zeta only
  refine modSys_keeps _ ?_; refine Keeps.ite (fun _ => ?_) (fun _ => ?_); refine clearFabric_keeps ?_; assumption
  refine stopDie_keeps ?_; assumption

theorem execWatchdogMiss_keeps {M : Part → Prop} {s0 a1 : State} (a0) (h : Keeps M s0 a1) (k_fresh : ¬M .fresh := by assumption) (k_out : ¬M .out := by assumption) (k_led : ¬M .led := by assumption) (k_ctr : ¬M .ctr := by assumption) (k_fab : ¬M .fab := by assumption) (k_slots : ¬M .slots := by assumption) (k_arrays : ¬M .arrays := by assumption) (k_mem : ¬M .mem := by assumption) (k_engines : ¬M .engines := by assumption) (k_net : ¬M .net := by assumption) (k_colls : ¬M .colls := by assumption) (k_secures : ¬M .secures := by assumption) (k_admissions : ¬M .admissions := by assumption) (k_serves : ¬M .serves := by assumption) (k_refresh : ¬M .refresh := by assumption) (k_host : ¬M .host := by assumption) (k_sys : ¬M .sys := by assumption) : Answers M s0 (execWatchdogMiss a0 a1) := by
  unfold execWatchdogMiss
  with_reducible apply Answers.done; refine Keeps.ite (fun _ => ?_) (fun _ => ?_); refine Keeps.ite (fun _ => ?_) (fun _ => ?_)
  assumption; refine requestReset_keeps _ _ _ ?_; refine modSys_keeps _ ?_; assumption; assumption

theorem clearFunction_keeps {M : Part → Prop} {s0 a1 : State} (a0) (h : Keeps M s0 a1) (k_dict : ¬M .dict := by assumption) (k_host : ¬M .host := by assumption) : Keeps M s0 (clearFunction a0 a1) := by
  unfold clearFunction
  refine modDict_keeps _ ?_; refine modHost_keeps _ ?_; assumption

theorem imageEffect_keeps {M : Part → Prop} {s0 a1 : State} (a0) (h : Keeps M s0 a1) (k_sys : ¬M .sys := by assumption) : Keeps M s0 (imageEffect a0 a1).2 := by
  unfold imageEffect
  (with_reducible refine Keeps.letAnySnd (fun x hx => ?_); subst hx); split; dsimp only; refine modSys_keeps _ ?_
  refine setImage_keeps _ _ ?_; assumption; dsimp -zeta only; refine setImage_keeps _ _ ?_; refine refuseImage_keeps _ ?_; assumption
  dsimp -zeta only; refine setImage_keeps _ _ ?_; refine refuseImage_keeps _ ?_; assumption; dsimp -zeta only
  refine setImage_keeps _ _ ?_; refine refuseImage_keeps _ ?_; assumption

theorem nonceEffect_keeps {M : Part → Prop} {s0 a2 : State} (a0) (a1) (h : Keeps M s0 a2) (k_sys : ¬M .sys := by assumption) : Keeps M s0 (nonceEffect a0 a1 a2).2 := by
  unfold nonceEffect
  refine checked_keeps _ _ ?_ ?_; assumption; intros; refine modSys_keeps _ ?_; assumption

theorem resetFunction_keeps {M : Part → Prop} {s0 a1 : State} (a0) (h : Keeps M s0 a1) (k_fresh : ¬M .fresh := by assumption) (k_out : ¬M .out := by assumption) (k_dict : ¬M .dict := by assumption) (k_led : ¬M .led := by assumption) (k_ctr : ¬M .ctr := by assumption) (k_fab : ¬M .fab := by assumption) (k_slots : ¬M .slots := by assumption) (k_arrays : ¬M .arrays := by assumption) (k_mem : ¬M .mem := by assumption) (k_engines : ¬M .engines := by assumption) (k_colls : ¬M .colls := by assumption) (k_secures : ¬M .secures := by assumption) (k_admissions : ¬M .admissions := by assumption) (k_serves : ¬M .serves := by assumption) (k_refresh : ¬M .refresh := by assumption) (k_host : ¬M .host := by assumption) : Keeps M s0 (resetFunction a0 a1) := by
  unfold resetFunction
  with_reducible refine Keeps.letIn ?_ (fun s hs => ?_); refine Keeps.ite (fun _ => ?_) (fun _ => ?_); refine modAdmission_keeps _ _ ?_
  with_reducible refine Keeps.foldl (fun s x hs => ?_) _ ?_; refine Keeps.ite (fun _ => ?_) (fun _ => ?_); refine modSlot_keeps _ _ ?_
  assumption; refine Keeps.ite (fun _ => ?_) (fun _ => ?_); refine freeSlot_keeps _ ?_; assumption; assumption; assumption
  with_reducible refine Keeps.foldl (fun s x hs => ?_) _ ?_; refine Keeps.ite (fun _ => ?_) (fun _ => ?_); refine modSlot_keeps _ _ ?_
  assumption; refine Keeps.ite (fun _ => ?_) (fun _ => ?_); refine freeSlot_keeps _ ?_; assumption; assumption; assumption
  refine clearFunction_keeps _ ?_; assumption

theorem execThermTripRecover_keeps {M : Part → Prop} {s0 a0 : State}  (h : Keeps M s0 a0) (k_fresh : ¬M .fresh := by assumption) (k_out : ¬M .out := by assumption) (k_led : ¬M .led := by assumption) (k_ctr : ¬M .ctr := by assumption) (k_fab : ¬M .fab := by assumption) (k_slots : ¬M .slots := by assumption) (k_arrays : ¬M .arrays := by assumption) (k_mem : ¬M .mem := by assumption) (k_engines : ¬M .engines := by assumption) (k_power : ¬M .power := by assumption) (k_net : ¬M .net := by assumption) (k_colls : ¬M .colls := by assumption) (k_secures : ¬M .secures := by assumption) (k_admissions : ¬M .admissions := by assumption) (k_serves : ¬M .serves := by assumption) (k_refresh : ¬M .refresh := by assumption) (k_host : ¬M .host := by assumption) (k_sys : ¬M .sys := by assumption) : Answers M s0 (execThermTripRecover a0) := by
  unfold execThermTripRecover
  with_reducible apply Answers.done; refine Keeps.ite (fun _ => ?_) (fun _ => ?_)
  with_reducible refine Keeps.letIn ?_ (fun s hs => ?_); refine requestReset_keeps _ _ _ ?_; refine modSys_keeps _ ?_
  refine modPower_keeps _ ?_; assumption; refine modSys_keeps _ ?_; assumption; assumption

theorem clearVfs_keeps {M : Part → Prop} {s0 a0 : State}  (h : Keeps M s0 a0) (k_fresh : ¬M .fresh := by assumption) (k_out : ¬M .out := by assumption) (k_dict : ¬M .dict := by assumption) (k_led : ¬M .led := by assumption) (k_ctr : ¬M .ctr := by assumption) (k_fab : ¬M .fab := by assumption) (k_slots : ¬M .slots := by assumption) (k_arrays : ¬M .arrays := by assumption) (k_mem : ¬M .mem := by assumption) (k_engines : ¬M .engines := by assumption) (k_colls : ¬M .colls := by assumption) (k_secures : ¬M .secures := by assumption) (k_admissions : ¬M .admissions := by assumption) (k_serves : ¬M .serves := by assumption) (k_refresh : ¬M .refresh := by assumption) (k_host : ¬M .host := by assumption) : Keeps M s0 (clearVfs a0) := by
  unfold clearVfs
  refine modHost_keeps _ ?_; with_reducible refine Keeps.foldl (fun s x hs => ?_) _ ?_; refine resetFunction_keeps _ ?_; assumption
  assumption

theorem execPerst_keeps {M : Part → Prop} {s0 a0 : State}  (h : Keeps M s0 a0) (k_fresh : ¬M .fresh := by assumption) (k_out : ¬M .out := by assumption) (k_dict : ¬M .dict := by assumption) (k_led : ¬M .led := by assumption) (k_ctr : ¬M .ctr := by assumption) (k_fab : ¬M .fab := by assumption) (k_slots : ¬M .slots := by assumption) (k_arrays : ¬M .arrays := by assumption) (k_mem : ¬M .mem := by assumption) (k_engines : ¬M .engines := by assumption) (k_flash : ¬M .flash := by assumption) (k_net : ¬M .net := by assumption) (k_colls : ¬M .colls := by assumption) (k_secures : ¬M .secures := by assumption) (k_admissions : ¬M .admissions := by assumption) (k_serves : ¬M .serves := by assumption) (k_refresh : ¬M .refresh := by assumption) (k_host : ¬M .host := by assumption) (k_sys : ¬M .sys := by assumption) : Answers M s0 (execPerst a0) := by
  unfold execPerst
  with_reducible refine Answers.letIn ?_ (fun s hs => ?_); refine Keeps.ite (fun _ => ?_) (fun _ => ?_)
  refine failHostRequests_keeps ?_; refine modHost_keeps _ ?_; refine clearFunction_keeps _ ?_; refine clearVfs_keeps ?_; assumption
  refine requestReset_keeps _ _ _ ?_; refine failHostRequests_keeps ?_; refine modHost_keeps _ ?_; refine clearFunction_keeps _ ?_
  refine clearVfs_keeps ?_; assumption; with_reducible apply Answers.done; assumption

theorem execImageProgramDone_keeps {M : Part → Prop} {s0 a0 : State}  (h : Keeps M s0 a0) (k_sys : ¬M .sys := by assumption) : Answers M s0 (execImageProgramDone a0) := by
  unfold execImageProgramDone
  (with_reducible refine Answers.letAny (fun x hx => ?_); subst hx); with_reducible apply Answers.done
  refine Keeps.ite (fun _ => ?_) (fun _ => ?_); refine setImage_keeps _ _ ?_; refine modSys_keeps _ ?_; assumption; assumption

theorem resetEffect_keeps {M : Part → Prop} {s0 a3 : State} (a0) (a1) (a2) (h : Keeps M s0 a3) (k_fresh : ¬M .fresh := by assumption) (k_out : ¬M .out := by assumption) (k_led : ¬M .led := by assumption) (k_ctr : ¬M .ctr := by assumption) (k_fab : ¬M .fab := by assumption) (k_slots : ¬M .slots := by assumption) (k_arrays : ¬M .arrays := by assumption) (k_mem : ¬M .mem := by assumption) (k_engines : ¬M .engines := by assumption) (k_net : ¬M .net := by assumption) (k_colls : ¬M .colls := by assumption) (k_secures : ¬M .secures := by assumption) (k_admissions : ¬M .admissions := by assumption) (k_serves : ¬M .serves := by assumption) (k_refresh : ¬M .refresh := by assumption) (k_host : ¬M .host := by assumption) (k_sys : ¬M .sys := by assumption) : Keeps M s0 (resetEffect a0 a1 a2 a3).2 := by
  unfold resetEffect
  refine checked_keeps _ _ ?_ ?_; assumption; intros; refine requestReset_keeps _ _ _ ?_; assumption

theorem imageBegin_keeps {M : Part → Prop} {s0 a0 : State}  (h : Keeps M s0 a0) (k_sys : ¬M .sys := by assumption) : Keeps M s0 (imageBegin a0).2 := by
  unfold imageBegin
  refine checked_keeps _ _ ?_ ?_; assumption; intros; refine setImage_keeps _ _ ?_; assumption

theorem execVfEnable_keeps {M : Part → Prop} {s0 a1 : State} (a0) (h : Keeps M s0 a1) (k_host : ¬M .host := by assumption) : Answers M s0 (execVfEnable a0 a1) := by
  unfold execVfEnable
  with_reducible apply Answers.done; refine Keeps.ite (fun _ => ?_) (fun _ => ?_); refine modHost_keeps _ ?_; assumption; assumption

theorem execFunctionLevelReset_keeps {M : Part → Prop} {s0 a1 : State} (a0) (h : Keeps M s0 a1) (k_fresh : ¬M .fresh := by assumption) (k_out : ¬M .out := by assumption) (k_dict : ¬M .dict := by assumption) (k_led : ¬M .led := by assumption) (k_ctr : ¬M .ctr := by assumption) (k_fab : ¬M .fab := by assumption) (k_slots : ¬M .slots := by assumption) (k_arrays : ¬M .arrays := by assumption) (k_mem : ¬M .mem := by assumption) (k_engines : ¬M .engines := by assumption) (k_colls : ¬M .colls := by assumption) (k_secures : ¬M .secures := by assumption) (k_admissions : ¬M .admissions := by assumption) (k_serves : ¬M .serves := by assumption) (k_refresh : ¬M .refresh := by assumption) (k_host : ¬M .host := by assumption) : Answers M s0 (execFunctionLevelReset a0 a1) := by
  unfold execFunctionLevelReset
  with_reducible apply Answers.done; refine Keeps.ite (fun _ => ?_) (fun _ => ?_); refine clearFunction_keeps _ ?_
  refine clearVfs_keeps ?_; assumption; refine Keeps.ite (fun _ => ?_) (fun _ => ?_); refine resetFunction_keeps _ ?_; assumption
  assumption

theorem execPerstRelease_keeps {M : Part → Prop} {s0 a0 : State}  (h : Keeps M s0 a0) (k_host : ¬M .host := by assumption) : Answers M s0 (execPerstRelease a0) := by
  unfold execPerstRelease
  with_reducible apply Answers.done; refine modHost_keeps _ ?_; assumption

theorem execThermTrip_keeps {M : Part → Prop} {s0 a1 : State} (a0) (h : Keeps M s0 a1) (k_fab : ¬M .fab := by assumption) (k_slots : ¬M .slots := by assumption) (k_arrays : ¬M .arrays := by assumption) (k_engines : ¬M .engines := by assumption) (k_power : ¬M .power := by assumption) (k_net : ¬M .net := by assumption) (k_colls : ¬M .colls := by assumption) (k_secures : ¬M .secures := by assumption) (k_admissions : ¬M .admissions := by assumption) (k_serves : ¬M .serves := by assumption) (k_refresh : ¬M .refresh := by assumption) (k_host : ¬M .host := by assumption) (k_sys : ¬M .sys := by assumption) : Answers M s0 (execThermTrip a0 a1) := by
  unfold execThermTrip
  with_reducible apply Answers.done; refine Keeps.ite (fun _ => ?_) (fun _ => ?_); assumption; refine modSys_keeps _ ?_
  refine modPower_keeps _ ?_; refine stopDie_keeps ?_; assumption

theorem execStoreDrainDone_keeps {M : Part → Prop} {s0 a0 : State}  (h : Keeps M s0 a0) (k_ctr : ¬M .ctr := by assumption) (k_flash : ¬M .flash := by assumption) (k_power : ¬M .power := by assumption) (k_sys : ¬M .sys := by assumption) : Answers M s0 (execStoreDrainDone a0) := by
  unfold execStoreDrainDone
  with_reducible apply Answers.done; refine Keeps.ite (fun _ => ?_) (fun _ => ?_)
  with_reducible refine Keeps.letIn ?_ (fun s hs => ?_); refine modFlash_keeps _ ?_; refine programAll_keeps _ ?_; assumption
  refine modSys_keeps _ ?_; assumption; assumption

theorem execVfDisable_keeps {M : Part → Prop} {s0 a0 : State}  (h : Keeps M s0 a0) (k_fresh : ¬M .fresh := by assumption) (k_out : ¬M .out := by assumption) (k_dict : ¬M .dict := by assumption) (k_led : ¬M .led := by assumption) (k_ctr : ¬M .ctr := by assumption) (k_fab : ¬M .fab := by assumption) (k_slots : ¬M .slots := by assumption) (k_arrays : ¬M .arrays := by assumption) (k_mem : ¬M .mem := by assumption) (k_engines : ¬M .engines := by assumption) (k_colls : ¬M .colls := by assumption) (k_secures : ¬M .secures := by assumption) (k_admissions : ¬M .admissions := by assumption) (k_serves : ¬M .serves := by assumption) (k_refresh : ¬M .refresh := by assumption) (k_host : ¬M .host := by assumption) : Answers M s0 (execVfDisable a0) := by
  unfold execVfDisable
  with_reducible apply Answers.done; refine clearVfs_keeps ?_; assumption

theorem execPowerLossRecord_keeps {M : Part → Prop} {s0 a3 : State} (a0) (a1) (a2) (h : Keeps M s0 a3) (k_fresh : ¬M .fresh := by assumption) (k_out : ¬M .out := by assumption) (k_dict : ¬M .dict := by assumption) (k_led : ¬M .led := by assumption) (k_ctr : ¬M .ctr := by assumption) (k_fab : ¬M .fab := by assumption) (k_slots : ¬M .slots := by assumption) (k_arrays : ¬M .arrays := by assumption) (k_mem : ¬M .mem := by assumption) (k_engines : ¬M .engines := by assumption) (k_power : ¬M .power := by assumption) (k_net : ¬M .net := by assumption) (k_colls : ¬M .colls := by assumption) (k_secures : ¬M .secures := by assumption) (k_admissions : ¬M .admissions := by assumption) (k_serves : ¬M .serves := by assumption) (k_refresh : ¬M .refresh := by assumption) (k_host : ¬M .host := by assumption) (k_sys : ¬M .sys := by assumption) : Answers M s0 (execPowerLossRecord a0 a1 a2 a3) := by
  unfold execPowerLossRecord
  with_reducible apply Answers.done; refine Keeps.ite (fun _ => ?_) (fun _ => ?_)
  (with_reducible refine Keeps.letAny (fun x hx => ?_); subst hx); refine Keeps.ite (fun _ => ?_) (fun _ => ?_)
  refine modSys_keeps _ ?_; refine modPower_keeps _ ?_; refine modDict_keeps _ ?_; assumption
  with_reducible refine Keeps.letIn ?_ (fun s hs => ?_); refine requestReset_keeps _ _ _ ?_; refine modPower_keeps _ ?_
  refine modSys_keeps _ ?_; refine modPower_keeps _ ?_; refine modDict_keeps _ ?_; assumption; refine modSys_keeps _ ?_; assumption
  assumption

theorem execPowerOnReset_keeps {M : Part → Prop} {s0 a0 : State}  (h : Keeps M s0 a0) (k_fresh : ¬M .fresh := by assumption) (k_out : ¬M .out := by assumption) (k_led : ¬M .led := by assumption) (k_ctr : ¬M .ctr := by assumption) (k_fab : ¬M .fab := by assumption) (k_slots : ¬M .slots := by assumption) (k_arrays : ¬M .arrays := by assumption) (k_mem : ¬M .mem := by assumption) (k_engines : ¬M .engines := by assumption) (k_power : ¬M .power := by assumption) (k_net : ¬M .net := by assumption) (k_colls : ¬M .colls := by assumption) (k_secures : ¬M .secures := by assumption) (k_admissions : ¬M .admissions := by assumption) (k_serves : ¬M .serves := by assumption) (k_refresh : ¬M .refresh := by assumption) (k_host : ¬M .host := by assumption) (k_sys : ¬M .sys := by assumption) : Answers M s0 (execPowerOnReset a0) := by
  unfold execPowerOnReset
  with_reducible apply Answers.done; refine Keeps.ite (fun _ => ?_) (fun _ => ?_)
  with_reducible refine Keeps.letIn ?_ (fun s hs => ?_); refine requestReset_keeps _ _ _ ?_; refine modPower_keeps _ ?_
  refine modSys_keeps _ ?_; assumption; refine modSys_keeps _ ?_; assumption; refine requestReset_keeps _ _ _ ?_; assumption

theorem advanceEffect_keeps {M : Part → Prop} {s0 a1 : State} (a0) (h : Keeps M s0 a1) (k_sys : ¬M .sys := by assumption) : Keeps M s0 (advanceEffect a0 a1).2 := by
  unfold advanceEffect
  refine checked_keeps _ _ ?_ ?_; assumption; intros; refine modSys_keeps _ ?_; assumption

theorem execSysrst_keeps {M : Part → Prop} {s0 a0 : State}  (h : Keeps M s0 a0) (k_fresh : ¬M .fresh := by assumption) (k_out : ¬M .out := by assumption) (k_led : ¬M .led := by assumption) (k_ctr : ¬M .ctr := by assumption) (k_fab : ¬M .fab := by assumption) (k_slots : ¬M .slots := by assumption) (k_arrays : ¬M .arrays := by assumption) (k_mem : ¬M .mem := by assumption) (k_engines : ¬M .engines := by assumption) (k_net : ¬M .net := by assumption) (k_colls : ¬M .colls := by assumption) (k_secures : ¬M .secures := by assumption) (k_admissions : ¬M .admissions := by assumption) (k_serves : ¬M .serves := by assumption) (k_refresh : ¬M .refresh := by assumption) (k_host : ¬M .host := by assumption) (k_sys : ¬M .sys := by assumption) : Answers M s0 (execSysrst a0) := by
  unfold execSysrst
  with_reducible apply Answers.done; refine Keeps.ite (fun _ => ?_) (fun _ => ?_); assumption; refine requestReset_keeps _ _ _ ?_
  assumption

theorem execAttestationSigned_keeps {M : Part → Prop} {s0 a1 : State} (a0) (h : Keeps M s0 a1) (k_fresh : ¬M .fresh := by assumption) (k_sys : ¬M .sys := by assumption) : Answers M s0 (execAttestationSigned a0 a1) := by
  unfold execAttestationSigned
  with_reducible apply Answers.done; split; assumption; (with_reducible refine Keeps.letAny (fun x hx => ?_); subst hx)
  refine Keeps.ite (fun _ => ?_) (fun _ => ?_); assumption; refine draw_keeps ?_; refine modSys_keeps _ ?_; assumption

end Sys2Proof.Machine
end

