-- ==== Sys2Proof/Laws/KeepsHost.lean ====
section
/-! SUPPORT. The queue and the invariant are kept by the operations of Machine/Host.lean. -/

set_option Elab.async false

namespace Sys2Proof.Machine

theorem pcieRetrainEffect_keeps {M : Part → Prop} {s0 a0 : State}  (h : Keeps M s0 a0) (k_host : ¬M .host := by assumption) : Keeps M s0 (pcieRetrainEffect a0).2 := by
  unfold pcieRetrainEffect
  refine checked_keeps _ _ ?_ ?_; assumption; intros; refine modHost_keeps _ ?_; assumption

theorem abortRead_keeps {M : Part → Prop} {s0 a2 : State} (a0) (a1) (h : Keeps M s0 a2) (k_out : ¬M .out := by assumption) (k_led : ¬M .led := by assumption) (k_ctr : ¬M .ctr := by assumption) : Keeps M s0 (abortRead a0 a1 a2) := by
  unfold abortRead
  (with_reducible refine Keeps.letAny (fun x hx => ?_); subst hx); refine emit_keeps _ ?_; refine count_keeps _ _ _ ?_
  refine event_keeps _ _ _ ?_; assumption

theorem refusedEffect_keeps {M : Part → Prop} {s0 a1 : State} (a0) (h : Keeps M s0 a1) (k_host : ¬M .host := by assumption) : Keeps M s0 (refusedEffect a0 a1).2 := by
  unfold refusedEffect
  dsimp only; refine modHost_keeps _ ?_; assumption

theorem landPages_keeps {M : Part → Prop} {s0 a3 : State} (a0) (a1) (a2) (h : Keeps M s0 a3) (k_mem : ¬M .mem := by assumption) : Keeps M s0 (landPages a0 a1 a2 a3).1 := by
  unfold landPages
  with_reducible refine Keeps.foldlFst (fun s x hs => ?_) _ ?_; with_reducible refine Keeps.iteFst (fun hc => ?_) (fun hc => ?_); split
  dsimp only; refine refillLand_keeps _ _ _ ?_; assumption; dsimp only; refine refillFail_keeps _ _ ?_; assumption; dsimp only
  refine refillLand_keeps _ _ _ ?_; assumption; dsimp only; assumption

theorem execBar4Read_keeps {M : Part → Prop} {s0 a4 : State} (a0) (a1) (a2) (a3) (h : Keeps M s0 a4) (k_fresh : ¬M .fresh := by assumption) (k_out : ¬M .out := by assumption) (k_led : ¬M .led := by assumption) (k_ctr : ¬M .ctr := by assumption) (k_mem : ¬M .mem := by assumption) (k_flash : ¬M .flash := by assumption) : Answers M s0 (execBar4Read a0 a1 a2 a3 a4) := by
  unfold execBar4Read
  with_reducible apply Answers.done; refine Keeps.ite (fun _ => ?_) (fun _ => ?_); assumption; split; refine emit_keeps _ ?_
  assumption; (with_reducible refine Keeps.letAny (fun x hx => ?_); subst hx); refine Keeps.ite (fun _ => ?_) (fun _ => ?_)
  refine abortRead_keeps _ _ ?_; assumption; refine Keeps.ite (fun _ => ?_) (fun _ => ?_)
  (with_reducible refine Keeps.letAny (fun x hx => ?_); subst hx); refine Keeps.ite (fun _ => ?_) (fun _ => ?_)
  refine accessPages_keeps _ _ ?_; assumption; (with_reducible refine Keeps.letAny (fun x hx => ?_); subst hx)
  refine Keeps.ite (fun _ => ?_) (fun _ => ?_); dsimp -zeta only; refine emit_keeps _ ?_; refine landPages_keeps _ _ _ ?_
  refine accessPages_keeps _ _ ?_; assumption; refine abortRead_keeps _ _ ?_; refine landPages_keeps _ _ _ ?_
  refine accessPages_keeps _ _ ?_; assumption; refine Keeps.ite (fun _ => ?_) (fun _ => ?_); split; refine abortRead_keeps _ _ ?_
  assumption; refine emit_keeps _ ?_; assumption; dsimp -zeta only; refine emit_keeps _ ?_; assumption

theorem windowEffect_keeps {M : Part → Prop} {s0 a3 : State} (a0) (a1) (a2) (h : Keeps M s0 a3) (k_host : ¬M .host := by assumption) : Keeps M s0 (windowEffect a0 a1 a2 a3).2 := by
  unfold windowEffect
  (with_reducible refine Keeps.letAnySnd (fun x hx => ?_); subst hx); refine checked_keeps _ _ ?_ ?_; assumption; intros
  refine modHost_keeps _ ?_; assumption

theorem execBar4Write_keeps {M : Part → Prop} {s0 a3 : State} (a0) (a1) (a2) (h : Keeps M s0 a3) (k_fresh : ¬M .fresh := by assumption) (k_out : ¬M .out := by assumption) (k_led : ¬M .led := by assumption) (k_ctr : ¬M .ctr := by assumption) (k_mem : ¬M .mem := by assumption) (k_flash : ¬M .flash := by assumption) (k_secures : ¬M .secures := by assumption) (k_host : ¬M .host := by assumption) : Answers M s0 (execBar4Write a0 a1 a2 a3) := by
  unfold execBar4Write
  with_reducible apply Answers.done; refine Keeps.ite (fun _ => ?_) (fun _ => ?_); assumption; split; assumption
  (with_reducible refine Keeps.letAny (fun x hx => ?_); subst hx); refine Keeps.ite (fun _ => ?_) (fun _ => ?_); assumption
  refine Keeps.ite (fun _ => ?_) (fun _ => ?_); (with_reducible refine Keeps.letAny (fun x hx => ?_); subst hx)
  refine Keeps.ite (fun _ => ?_) (fun _ => ?_); dsimp -zeta only; with_reducible refine Keeps.foldl (fun s x hs => ?_) _ ?_
  refine raiseGeneration_keeps _ _ ?_; assumption; refine applyWrite_keeps _ _ _ ?_; refine accessPages_keeps _ _ ?_; assumption
  refine accessPages_keeps _ _ ?_; assumption; refine Keeps.ite (fun _ => ?_) (fun _ => ?_)
  (with_reducible refine Keeps.letAny (fun x hx => ?_); subst hx); refine Keeps.ite (fun _ => ?_) (fun _ => ?_); assumption; split
  dsimp -zeta only; with_reducible refine Keeps.foldl (fun s x hs => ?_) _ ?_; refine raiseGeneration_keeps _ _ ?_; assumption
  refine applyWrite_keeps _ _ _ ?_; refine Keeps.fst (by assumption) ?_; refine admitStore_keeps _ _ _ ?_; assumption
  refine modHost_keeps _ ?_; refine Keeps.fst (by assumption) ?_; refine admitStore_keeps _ _ _ ?_; assumption; dsimp -zeta only
  with_reducible refine Keeps.foldl (fun s x hs => ?_) _ ?_; refine raiseGeneration_keeps _ _ ?_; assumption
  refine applyWrite_keeps _ _ _ ?_; assumption

theorem execPcieLinkUp_keeps {M : Part → Prop} {s0 a2 : State} (a0) (a1) (h : Keeps M s0 a2) (k_host : ¬M .host := by assumption) : Answers M s0 (execPcieLinkUp a0 a1 a2) := by
  unfold execPcieLinkUp
  with_reducible apply Answers.done; refine Keeps.ite (fun _ => ?_) (fun _ => ?_); refine modHost_keeps _ ?_; assumption; assumption

theorem execPcieLinkDown_keeps {M : Part → Prop} {s0 a0 : State}  (h : Keeps M s0 a0) (k_fresh : ¬M .fresh := by assumption) (k_out : ¬M .out := by assumption) (k_led : ¬M .led := by assumption) (k_ctr : ¬M .ctr := by assumption) (k_slots : ¬M .slots := by assumption) (k_arrays : ¬M .arrays := by assumption) (k_mem : ¬M .mem := by assumption) (k_engines : ¬M .engines := by assumption) (k_flash : ¬M .flash := by assumption) (k_secures : ¬M .secures := by assumption) (k_serves : ¬M .serves := by assumption) (k_host : ¬M .host := by assumption) : Answers M s0 (execPcieLinkDown a0) := by
  unfold execPcieLinkDown
  with_reducible apply Answers.done; refine failHostRequests_keeps ?_; refine modHost_keeps _ ?_; assumption

theorem execBootDoorbell_keeps {M : Part → Prop} {s0 a2 : State} (a0) (a1) (h : Keeps M s0 a2) (k_out : ¬M .out := by assumption) (k_host : ¬M .host := by assumption) (k_sys : ¬M .sys := by assumption) : Answers M s0 (execBootDoorbell a0 a1 a2) := by
  unfold execBootDoorbell
  (with_reducible refine Answers.letAny (fun x hx => ?_); subst hx); with_reducible apply Answers.done
  refine Keeps.ite (fun _ => ?_) (fun _ => ?_); assumption; (with_reducible refine Keeps.letAny (fun x hx => ?_); subst hx)
  refine Keeps.ite (fun _ => ?_) (fun _ => ?_); refine setBootStatus_keeps _ ?_; refine setBootStatus_keeps _ ?_
  refine modHost_keeps _ ?_; assumption; (with_reducible refine Keeps.letAny (fun x hx => ?_); subst hx); split
  refine setBootStatus_keeps _ ?_; refine runImage_keeps _ _ _ ?_; refine setBootStatus_keeps _ ?_; refine setBootStatus_keeps _ ?_
  refine modHost_keeps _ ?_; assumption; refine setBootStatus_keeps _ ?_; refine modHost_keeps _ ?_; refine refuseImage_keeps _ ?_
  refine setBootStatus_keeps _ ?_; refine setBootStatus_keeps _ ?_; refine modHost_keeps _ ?_; assumption

end Sys2Proof.Machine
end

