-- ==== Sys2Proof/Laws/KeepsEpoch.lean ====
section
/-! SUPPORT. The queue and the invariant are kept by the operations of Machine/Epoch.lean. -/

set_option Elab.async false

namespace Sys2Proof.Machine

theorem putObject_keeps {M : Part → Prop} {s0 a3 : State} (a0) (a1) (a2) (h : Keeps M s0 a3) (k_dict : ¬M .dict := by assumption) (k_flash : ¬M .flash := by assumption) : Keeps M s0 (putObject a0 a1 a2 a3) := by
  unfold putObject
  with_reducible refine Keeps.letIn ?_ (fun s hs => ?_); refine modDict_keeps _ ?_; assumption
  refine Keeps.ite (fun _ => ?_) (fun _ => ?_); refine journalled_keeps ?_; refine modDict_keeps _ ?_; refine modDict_keeps _ ?_
  assumption; assumption

theorem takeOver_keeps {M : Part → Prop} {s0 a1 : State} (a0) (h : Keeps M s0 a1) (k_fresh : ¬M .fresh := by assumption) (k_out : ¬M .out := by assumption) (k_dict : ¬M .dict := by assumption) (k_led : ¬M .led := by assumption) (k_ctr : ¬M .ctr := by assumption) (k_fab : ¬M .fab := by assumption) (k_slots : ¬M .slots := by assumption) (k_arrays : ¬M .arrays := by assumption) (k_mem : ¬M .mem := by assumption) (k_engines : ¬M .engines := by assumption) (k_flash : ¬M .flash := by assumption) (k_net : ¬M .net := by assumption) (k_colls : ¬M .colls := by assumption) (k_secures : ¬M .secures := by assumption) (k_host : ¬M .host := by assumption) : Keeps M s0 (takeOver a0 a1) := by
  unfold takeOver
  (with_reducible refine Keeps.letAny (fun x hx => ?_); subst hx); refine Keeps.ite (fun _ => ?_) (fun _ => ?_)
  refine acceptRestore_keeps _ _ _ _ ?_; refine event_keeps _ _ _ ?_; refine count_keeps _ _ _ ?_
  refine Keeps.ite (fun _ => ?_) (fun _ => ?_); refine event_keeps _ _ _ ?_; with_reducible refine Keeps.foldl (fun s x hs => ?_) _ ?_
  refine Keeps.ite (fun _ => ?_) (fun _ => ?_); refine event_keeps _ _ _ ?_; refine modLink_keeps _ _ ?_; assumption; assumption
  refine modNet_keeps _ ?_; refine putObject_keeps _ _ _ ?_; refine modSlot_keeps _ _ ?_; assumption
  refine Keeps.ite (fun _ => ?_) (fun _ => ?_); split; refine startRoute_keeps _ _ ?_; refine putObject_keeps _ _ _ ?_
  with_reducible refine Keeps.foldl (fun s x hs => ?_) _ ?_; refine Keeps.ite (fun _ => ?_) (fun _ => ?_); refine event_keeps _ _ _ ?_
  refine modLink_keeps _ _ ?_; assumption; assumption; refine modNet_keeps _ ?_; refine putObject_keeps _ _ _ ?_
  refine modSlot_keeps _ _ ?_; assumption; with_reducible refine Keeps.foldl (fun s x hs => ?_) _ ?_
  refine Keeps.ite (fun _ => ?_) (fun _ => ?_); refine event_keeps _ _ _ ?_; refine modLink_keeps _ _ ?_; assumption; assumption
  refine modNet_keeps _ ?_; refine putObject_keeps _ _ _ ?_; refine modSlot_keeps _ _ ?_; assumption
  with_reducible refine Keeps.foldl (fun s x hs => ?_) _ ?_; refine Keeps.ite (fun _ => ?_) (fun _ => ?_); refine event_keeps _ _ _ ?_
  refine modLink_keeps _ _ ?_; assumption; assumption; refine modNet_keeps _ ?_; refine putObject_keeps _ _ _ ?_
  refine modSlot_keeps _ _ ?_; assumption; refine event_keeps _ _ _ ?_; refine count_keeps _ _ _ ?_
  refine Keeps.ite (fun _ => ?_) (fun _ => ?_); refine event_keeps _ _ _ ?_; with_reducible refine Keeps.foldl (fun s x hs => ?_) _ ?_
  refine Keeps.ite (fun _ => ?_) (fun _ => ?_); refine event_keeps _ _ _ ?_; refine modLink_keeps _ _ ?_; assumption; assumption
  refine modNet_keeps _ ?_; refine putObject_keeps _ _ _ ?_; refine modSlot_keeps _ _ ?_; assumption
  refine Keeps.ite (fun _ => ?_) (fun _ => ?_); split; refine startRoute_keeps _ _ ?_; refine putObject_keeps _ _ _ ?_
  with_reducible refine Keeps.foldl (fun s x hs => ?_) _ ?_; refine Keeps.ite (fun _ => ?_) (fun _ => ?_); refine event_keeps _ _ _ ?_
  refine modLink_keeps _ _ ?_; assumption; assumption; refine modNet_keeps _ ?_; refine putObject_keeps _ _ _ ?_
  refine modSlot_keeps _ _ ?_; assumption; with_reducible refine Keeps.foldl (fun s x hs => ?_) _ ?_
  refine Keeps.ite (fun _ => ?_) (fun _ => ?_); refine event_keeps _ _ _ ?_; refine modLink_keeps _ _ ?_; assumption; assumption
  refine modNet_keeps _ ?_; refine putObject_keeps _ _ _ ?_; refine modSlot_keeps _ _ ?_; assumption
  with_reducible refine Keeps.foldl (fun s x hs => ?_) _ ?_; refine Keeps.ite (fun _ => ?_) (fun _ => ?_); refine event_keeps _ _ _ ?_
  refine modLink_keeps _ _ ?_; assumption; assumption; refine modNet_keeps _ ?_; refine putObject_keeps _ _ _ ?_
  refine modSlot_keeps _ _ ?_; assumption

theorem commitValue_keeps {M : Part → Prop} {s0 a3 : State} (a0) (a1) (a2) (h : Keeps M s0 a3) (_h0 : Keeps M s0 a0) (k_fresh : ¬M .fresh := by assumption) (k_out : ¬M .out := by assumption) (k_dict : ¬M .dict := by assumption) (k_led : ¬M .led := by assumption) (k_ctr : ¬M .ctr := by assumption) (k_beat : ¬M .beat := by assumption) (k_fab : ¬M .fab := by assumption) (k_slots : ¬M .slots := by assumption) (k_arrays : ¬M .arrays := by assumption) (k_mem : ¬M .mem := by assumption) (k_engines : ¬M .engines := by assumption) (k_flash : ¬M .flash := by assumption) (k_net : ¬M .net := by assumption) (k_colls : ¬M .colls := by assumption) (k_secures : ¬M .secures := by assumption) (k_serves : ¬M .serves := by assumption) (k_refresh : ¬M .refresh := by assumption) (k_host : ¬M .host := by assumption) : Keeps M s0 (commitValue a0 a1 a2 a3) := by
  unfold commitValue
  (with_reducible refine Keeps.letAny (fun x hx => ?_); subst hx); refine Keeps.ite (fun _ => ?_) (fun _ => ?_)
  refine Keeps.ite (fun _ => ?_) (fun _ => ?_); refine substitute_keeps _ ?_; assumption; refine returnHome_keeps _ ?_; assumption
  refine Keeps.ite (fun _ => ?_) (fun _ => ?_); refine Keeps.ite (fun _ => ?_) (fun _ => ?_); refine takeMaster_keeps _ ?_; assumption
  assumption; refine Keeps.ite (fun _ => ?_) (fun _ => ?_); refine Keeps.ite (fun _ => ?_) (fun _ => ?_); assumption
  refine keeperChanged_keeps ?_; assumption; refine Keeps.ite (fun _ => ?_) (fun _ => ?_)
  with_reducible refine Keeps.foldl (fun s x hs => ?_) _ ?_; refine takeOver_keeps _ ?_; assumption; assumption
  refine Keeps.ite (fun _ => ?_) (fun _ => ?_); with_reducible refine Keeps.upd ?_; assumption; assumption

theorem stagingEffect_keeps {M : Part → Prop} {s0 a1 : State} (a0) (h : Keeps M s0 a1) (k_dict : ¬M .dict := by assumption) (k_flash : ¬M .flash := by assumption) (k_serves : ¬M .serves := by assumption) (k_refresh : ¬M .refresh := by assumption) : Keeps M s0 (stagingEffect a0 a1).2 := by
  unfold stagingEffect
  (with_reducible refine Keeps.letAnySnd (fun x hx => ?_); subst hx); split; refine checked_keeps _ _ ?_ ?_; assumption; intros
  refine modDict_keeps _ ?_; assumption; refine checked_keeps _ _ ?_ ?_; assumption; intros; refine armRefresh_keeps _ ?_
  refine journalled_keeps ?_; refine modDict_keeps _ ?_; assumption; refine checked_keeps _ _ ?_ ?_; assumption; intros
  refine modDict_keeps _ ?_; assumption

theorem renewDigests_keeps {M : Part → Prop} {s0 a0 : State}  (h : Keeps M s0 a0) (k_dict : ¬M .dict := by assumption) : Keeps M s0 (renewDigests a0) := by
  unfold renewDigests
  refine modDict_keeps _ ?_; assumption

theorem execEpochCommit_keeps {M : Part → Prop} {s0 a0 : State}  (h : Keeps M s0 a0) (k_fresh : ¬M .fresh := by assumption) (k_out : ¬M .out := by assumption) (k_dict : ¬M .dict := by assumption) (k_led : ¬M .led := by assumption) (k_ctr : ¬M .ctr := by assumption) (k_beat : ¬M .beat := by assumption) (k_fab : ¬M .fab := by assumption) (k_slots : ¬M .slots := by assumption) (k_arrays : ¬M .arrays := by assumption) (k_mem : ¬M .mem := by assumption) (k_engines : ¬M .engines := by assumption) (k_flash : ¬M .flash := by assumption) (k_net : ¬M .net := by assumption) (k_colls : ¬M .colls := by assumption) (k_secures : ¬M .secures := by assumption) (k_serves : ¬M .serves := by assumption) (k_refresh : ¬M .refresh := by assumption) (k_host : ¬M .host := by assumption) (k_sys : ¬M .sys := by assumption) : Answers M s0 (execEpochCommit a0) := by
  unfold execEpochCommit
  (with_reducible refine Answers.letAny (fun x hx => ?_); subst hx); with_reducible apply Answers.done
  refine Keeps.ite (fun _ => ?_) (fun _ => ?_); assumption; with_reducible refine Keeps.letIn ?_ (fun s hs => ?_)
  refine Keeps.ite (fun _ => ?_) (fun _ => ?_); refine event_keeps _ _ _ ?_; refine count_keeps _ _ _ ?_; refine event_keeps _ _ _ ?_
  refine count_keeps _ _ _ ?_; refine rePace_keeps _ ?_ ?_; refine renewDigests_keeps ?_
  with_reducible refine Keeps.foldl (fun s x hs => ?_) _ ?_; refine commitValue_keeps _ _ _ ?_ ?_; assumption; assumption
  with_reducible refine Keeps.foldl (fun s x hs => ?_) _ ?_; refine putObject_keeps _ _ _ ?_; assumption; refine modDict_keeps _ ?_
  refine modSys_keeps _ ?_; assumption; assumption; refine event_keeps _ _ _ ?_; refine count_keeps _ _ _ ?_
  refine rePace_keeps _ ?_ ?_; refine renewDigests_keeps ?_; with_reducible refine Keeps.foldl (fun s x hs => ?_) _ ?_
  refine commitValue_keeps _ _ _ ?_ ?_; assumption; assumption; with_reducible refine Keeps.foldl (fun s x hs => ?_) _ ?_
  refine putObject_keeps _ _ _ ?_; assumption; refine modDict_keeps _ ?_; refine modSys_keeps _ ?_; assumption; assumption
  refine signal_keeps _ _ ?_; assumption

theorem stageValue_keeps {M : Part → Prop} {s0 a3 : State} (a0) (a1) (a2) (h : Keeps M s0 a3) (k_dict : ¬M .dict := by assumption) : Keeps M s0 (stageValue a0 a1 a2 a3).2 := by
  unfold stageValue
  (with_reducible refine Keeps.letAnySnd (fun x hx => ?_); subst hx); refine checked_keeps _ _ ?_ ?_; assumption; intros
  refine modDict_keeps _ ?_; assumption

end Sys2Proof.Machine
end

