-- ==== Sys2Proof/Laws/KeepsWrites.lean ====
section
/-! SUPPORT. The queue and the invariant are kept by the operations of Machine/Writes.lean. -/

set_option Elab.async false

namespace Sys2Proof.Machine

theorem storeValue_keeps {M : Part → Prop} {s0 a3 : State} (a0) (a1) (a2) (h : Keeps M s0 a3) (k_dict : ¬M .dict := by assumption) (k_flash : ¬M .flash := by assumption) : Keeps M s0 (storeValue a0 a1 a2 a3) := by
  unfold storeValue
  with_reducible refine Keeps.letIn ?_ (fun s hs => ?_); refine modDict_keeps _ ?_; assumption
  refine Keeps.ite (fun _ => ?_) (fun _ => ?_); refine journalled_keeps ?_; refine modDict_keeps _ ?_; refine modDict_keeps _ ?_
  assumption; assumption

theorem unlockEffect_keeps {M : Part → Prop} {s0 a2 : State} (a0) (a1) (h : Keeps M s0 a2) (k_dict : ¬M .dict := by assumption) : Keeps M s0 (unlockEffect a0 a1 a2).2 := by
  unfold unlockEffect
  (with_reducible refine Keeps.letAnySnd (fun x hx => ?_); subst hx); with_reducible refine Keeps.iteSnd (fun hc => ?_) (fun hc => ?_)
  dsimp only; refine modDict_keeps _ ?_; refine modDict_keeps _ ?_; assumption; dsimp only; refine modDict_keeps _ ?_; assumption

theorem lockEffect_keeps {M : Part → Prop} {s0 a1 : State} (a0) (h : Keeps M s0 a1) (k_dict : ¬M .dict := by assumption) : Keeps M s0 (lockEffect a0 a1).2 := by
  unfold lockEffect
  dsimp only; refine modDict_keeps _ ?_; assumption

theorem restoreDefaults_keeps {M : Part → Prop} {s0 a1 : State} (a0) (h : Keeps M s0 a1) (k_dict : ¬M .dict := by assumption) (k_flash : ¬M .flash := by assumption) (k_host : ¬M .host := by assumption) : Keeps M s0 (restoreDefaults a0 a1).2 := by
  unfold restoreDefaults
  (with_reducible refine Keeps.letAnySnd (fun x hx => ?_); subst hx); refine checked_keeps _ _ ?_ ?_; assumption; intros
  with_reducible refine Keeps.letIn ?_ (fun s hs => ?_); refine modHost_keeps _ ?_
  with_reducible refine Keeps.foldl (fun s x hs => ?_) _ ?_; (with_reducible refine Keeps.letAny (fun x hx => ?_); subst hx)
  refine Keeps.ite (fun _ => ?_) (fun _ => ?_); assumption; refine storeValue_keeps _ _ _ ?_; assumption; assumption
  refine modDict_keeps _ ?_; assumption

theorem retrainEffect_keeps {M : Part → Prop} {s0 a1 : State} (a0) (h : Keeps M s0 a1) (k_net : ¬M .net := by assumption) : Keeps M s0 (retrainEffect a0 a1).2 := by
  unfold retrainEffect
  refine checked_keeps _ _ ?_ ?_; assumption; intros; refine Keeps.ite (fun _ => ?_) (fun _ => ?_); refine retrain_keeps _ ?_
  assumption; assumption

theorem commandEffect_keeps {M : Part → Prop} {s0 a4 : State} (a0) (a1) (a2) (a3) (h : Keeps M s0 a4) (k_fresh : ¬M .fresh := by assumption) (k_out : ¬M .out := by assumption) (k_dict : ¬M .dict := by assumption) (k_led : ¬M .led := by assumption) (k_ctr : ¬M .ctr := by assumption) (k_fab : ¬M .fab := by assumption) (k_slots : ¬M .slots := by assumption) (k_arrays : ¬M .arrays := by assumption) (k_mem : ¬M .mem := by assumption) (k_engines : ¬M .engines := by assumption) (k_flash : ¬M .flash := by assumption) (k_power : ¬M .power := by assumption) (k_net : ¬M .net := by assumption) (k_colls : ¬M .colls := by assumption) (k_secures : ¬M .secures := by assumption) (k_admissions : ¬M .admissions := by assumption) (k_serves : ¬M .serves := by assumption) (k_refresh : ¬M .refresh := by assumption) (k_host : ¬M .host := by assumption) (k_sys : ¬M .sys := by assumption) : Keeps M s0 (commandEffect a0 a1 a2 a3 a4).2 := by
  unfold commandEffect
  (with_reducible refine Keeps.letAnySnd (fun x hx => ?_); subst hx); split; refine resetEffect_keeps _ _ _ ?_; assumption
  refine advanceEffect_keeps _ ?_; assumption; refine imageEffect_keeps _ ?_; assumption; refine nonceEffect_keeps _ _ ?_; assumption
  refine unlockEffect_keeps _ _ ?_; assumption; refine lockEffect_keeps _ ?_; assumption; refine restoreDefaults_keeps _ ?_; assumption
  refine loadTestEffect_keeps ?_; assumption; refine pcieRetrainEffect_keeps ?_; assumption; refine stagingEffect_keeps _ ?_
  assumption; refine cargoEffect_keeps _ _ ?_; assumption; refine restoreEffect_keeps _ ?_; assumption; refine handoverEffect_keeps ?_
  assumption; refine clearEffect_keeps ?_; assumption; refine selftestEffect_keeps _ ?_; assumption; refine markFailedEffect_keeps _ ?_
  assumption; refine retrainEffect_keeps _ ?_; assumption; (with_reducible refine Keeps.letAnySnd (fun x hx => ?_); subst hx); split
  refine admitEffect_keeps _ _ ?_; assumption; refine releaseEffect_keeps _ _ ?_; assumption; refine cancelEffect_keeps _ ?_
  assumption

theorem stageWrite_keeps {M : Part → Prop} {s0 a3 : State} (a0) (a1) (a2) (h : Keeps M s0 a3) (k_dict : ¬M .dict := by assumption) : Keeps M s0 (stageWrite a0 a1 a2 a3).2 := by
  unfold stageWrite
  split; refine stageValue_keeps _ _ _ ?_; assumption; with_reducible refine Keeps.iteSnd (fun hc => ?_) (fun hc => ?_); dsimp only
  assumption; with_reducible refine Keeps.iteSnd (fun hc => ?_) (fun hc => ?_); dsimp only; assumption; dsimp only; assumption

theorem writeValue_keeps {M : Part → Prop} {s0 a3 : State} (a0) (a1) (a2) (h : Keeps M s0 a3) (k_dict : ¬M .dict := by assumption) (k_flash : ¬M .flash := by assumption) : Keeps M s0 (writeValue a0 a1 a2 a3).2 := by
  unfold writeValue
  split; dsimp only; refine storeValue_keeps _ _ _ ?_; assumption; dsimp only; assumption

theorem writeEffect_keeps {M : Part → Prop} {s0 a4 : State} (a0) (a1) (a2) (a3) (h : Keeps M s0 a4) (k_fresh : ¬M .fresh := by assumption) (k_out : ¬M .out := by assumption) (k_dict : ¬M .dict := by assumption) (k_led : ¬M .led := by assumption) (k_ctr : ¬M .ctr := by assumption) (k_fab : ¬M .fab := by assumption) (k_slots : ¬M .slots := by assumption) (k_arrays : ¬M .arrays := by assumption) (k_mem : ¬M .mem := by assumption) (k_engines : ¬M .engines := by assumption) (k_flash : ¬M .flash := by assumption) (k_power : ¬M .power := by assumption) (k_net : ¬M .net := by assumption) (k_colls : ¬M .colls := by assumption) (k_secures : ¬M .secures := by assumption) (k_admissions : ¬M .admissions := by assumption) (k_serves : ¬M .serves := by assumption) (k_refresh : ¬M .refresh := by assumption) (k_host : ¬M .host := by assumption) (k_sys : ¬M .sys := by assumption) : Keeps M s0 (writeEffect a0 a1 a2 a3 a4).2 := by
  unfold writeEffect
  with_reducible refine Keeps.iteSnd (fun hc => ?_) (fun hc => ?_); refine windowEffect_keeps _ _ _ ?_; assumption
  with_reducible refine Keeps.iteSnd (fun hc => ?_) (fun hc => ?_); dsimp only; refine modHost_keeps _ ?_; assumption; split
  refine commandEffect_keeps _ _ _ _ ?_; assumption; refine stageWrite_keeps _ _ _ ?_; assumption; refine writeValue_keeps _ _ _ ?_
  assumption

theorem challengeEffect_keeps {M : Part → Prop} {s0 a1 : State} (a0) (h : Keeps M s0 a1) (k_fresh : ¬M .fresh := by assumption) (k_dict : ¬M .dict := by assumption) : Keeps M s0 (challengeEffect a0 a1).2 := by
  unfold challengeEffect
  (with_reducible refine Keeps.letAnySnd (fun x hx => ?_); subst hx); dsimp only; refine modDict_keeps _ ?_; refine draw_keeps ?_
  assumption

end Sys2Proof.Machine
end

