-- ==== Sys2Proof/Laws/KeepsFrames.lean ====
section
/-! SUPPORT. The queue and the invariant are kept by the operations of Machine/Frames.lean. -/

set_option Elab.async false

namespace Sys2Proof.Machine

theorem modSession_keeps {M : Part → Prop} {s0 a2 : State} (a0) (a1) (h : Keeps M s0 a2) (k_dict : ¬M .dict := by assumption) : Keeps M s0 (modSession a0 a1 a2) := by
  unfold modSession
  refine modDict_keeps _ ?_; assumption

theorem endSession_keeps {M : Part → Prop} {s0 a1 : State} (a0) (h : Keeps M s0 a1) (k_dict : ¬M .dict := by assumption) : Keeps M s0 (endSession a0 a1) := by
  unfold endSession
  refine modDict_keeps _ ?_; assumption

theorem respond_keeps {M : Part → Prop} {s0 a4 : State} (a0) (a1) (a2) (a3) (h : Keeps M s0 a4) (k_out : ¬M .out := by assumption) (k_dict : ¬M .dict := by assumption) : Keeps M s0 (respond a0 a1 a2 a3 a4) := by
  unfold respond
  (with_reducible refine Keeps.letAny (fun x hx => ?_); subst hx); refine emit_keeps _ ?_; refine modSession_keeps _ _ ?_; assumption

theorem faultAnswer_keeps {M : Part → Prop} {s0 a4 : State} (a0) (a1) (a2) (a3) (h : Keeps M s0 a4) (k_out : ¬M .out := by assumption) (k_resp : ¬M .resp := by assumption) (k_dict : ¬M .dict := by assumption) (k_led : ¬M .led := by assumption) : Keeps M s0 (faultAnswer a0 a1 a2 a3 a4) := by
  unfold faultAnswer
  (with_reducible refine Keeps.letAny (fun x hx => ?_); subst hx); refine respond_keeps _ _ _ _ ?_; with_reducible refine Keeps.upd ?_
  refine commandRecord_keeps _ ?_; assumption

theorem runEntries_keeps {M : Part → Prop} {s0 s : State} (who) (as : List Ask) (room) (h : Keeps M s0 s) (k_fresh : ¬M .fresh := by assumption) (k_out : ¬M .out := by assumption) (k_resp : ¬M .resp := by assumption) (k_dict : ¬M .dict := by assumption) (k_led : ¬M .led := by assumption) (k_ctr : ¬M .ctr := by assumption) (k_fab : ¬M .fab := by assumption) (k_slots : ¬M .slots := by assumption) (k_arrays : ¬M .arrays := by assumption) (k_mem : ¬M .mem := by assumption) (k_engines : ¬M .engines := by assumption) (k_flash : ¬M .flash := by assumption) (k_power : ¬M .power := by assumption) (k_net : ¬M .net := by assumption) (k_colls : ¬M .colls := by assumption) (k_secures : ¬M .secures := by assumption) (k_admissions : ¬M .admissions := by assumption) (k_serves : ¬M .serves := by assumption) (k_refresh : ¬M .refresh := by assumption) (k_host : ¬M .host := by assumption) (k_sys : ¬M .sys := by assumption) : Keeps M s0 (runEntries who as room s).2 := by
  induction as generalizing s room with
  | nil => exact h
  | cons a rest ih => exact ih _ (runEntry_keeps _ _ _ h)

theorem runFrame_keeps {M : Part → Prop} {s0 a3 : State} (a0) (a1) (a2) (h : Keeps M s0 a3) (k_fresh : ¬M .fresh := by assumption) (k_out : ¬M .out := by assumption) (k_resp : ¬M .resp := by assumption) (k_dict : ¬M .dict := by assumption) (k_led : ¬M .led := by assumption) (k_ctr : ¬M .ctr := by assumption) (k_fab : ¬M .fab := by assumption) (k_slots : ¬M .slots := by assumption) (k_arrays : ¬M .arrays := by assumption) (k_mem : ¬M .mem := by assumption) (k_engines : ¬M .engines := by assumption) (k_flash : ¬M .flash := by assumption) (k_power : ¬M .power := by assumption) (k_net : ¬M .net := by assumption) (k_colls : ¬M .colls := by assumption) (k_secures : ¬M .secures := by assumption) (k_admissions : ¬M .admissions := by assumption) (k_serves : ¬M .serves := by assumption) (k_refresh : ¬M .refresh := by assumption) (k_host : ¬M .host := by assumption) (k_sys : ¬M .sys := by assumption) : Keeps M s0 (runFrame a0 a1 a2 a3) := by
  unfold runFrame
  (with_reducible refine Keeps.letAny (fun x hx => ?_); subst hx); refine Keeps.ite (fun _ => ?_) (fun _ => ?_)
  refine faultAnswer_keeps _ _ _ _ ?_; assumption; split; refine faultAnswer_keeps _ _ _ _ ?_; assumption
  (with_reducible refine Keeps.letAny (fun x hx => ?_); subst hx); refine respond_keeps _ _ _ _ ?_; refine runEntries_keeps _ _ _ ?_
  assumption

theorem takeFrame'_keeps {M : Part → Prop} {s0 a3 : State} (a0) (a1) (a2) (h : Keeps M s0 a3) (k_fresh : ¬M .fresh := by assumption) (k_out : ¬M .out := by assumption) (k_resp : ¬M .resp := by assumption) (k_dict : ¬M .dict := by assumption) (k_led : ¬M .led := by assumption) (k_ctr : ¬M .ctr := by assumption) (k_fab : ¬M .fab := by assumption) (k_slots : ¬M .slots := by assumption) (k_arrays : ¬M .arrays := by assumption) (k_mem : ¬M .mem := by assumption) (k_engines : ¬M .engines := by assumption) (k_flash : ¬M .flash := by assumption) (k_power : ¬M .power := by assumption) (k_net : ¬M .net := by assumption) (k_colls : ¬M .colls := by assumption) (k_secures : ¬M .secures := by assumption) (k_admissions : ¬M .admissions := by assumption) (k_serves : ¬M .serves := by assumption) (k_refresh : ¬M .refresh := by assumption) (k_host : ¬M .host := by assumption) (k_sys : ¬M .sys := by assumption) : Keeps M s0 (takeFrame' a0 a1 a2 a3) := by
  unfold takeFrame'
  split; (with_reducible refine Keeps.letAny (fun x hx => ?_); subst hx); with_reducible refine Keeps.upd ?_; refine emit_keeps _ ?_
  assumption; (with_reducible refine Keeps.letAny (fun x hx => ?_); subst hx); refine Keeps.ite (fun _ => ?_) (fun _ => ?_)
  refine count_keeps _ _ _ ?_; assumption; with_reducible refine Keeps.letIn ?_ (fun s hs => ?_); split; refine runFrame_keeps _ _ _ ?_
  refine modSession_keeps _ _ ?_; assumption; refine Keeps.ite (fun _ => ?_) (fun _ => ?_); refine emit_keeps _ ?_
  refine modSession_keeps _ _ ?_; assumption; refine Keeps.ite (fun _ => ?_) (fun _ => ?_); refine count_keeps _ _ _ ?_
  refine modSession_keeps _ _ ?_; assumption; refine runFrame_keeps _ _ _ ?_; refine modSession_keeps _ _ ?_; assumption
  refine Keeps.ite (fun _ => ?_) (fun _ => ?_); refine endSession_keeps _ ?_; refine modSession_keeps _ _ ?_; assumption; assumption

theorem execPeerAccessFrame_keeps {M : Part → Prop} {s0 a3 : State} (a0) (a1) (a2) (h : Keeps M s0 a3) (k_fresh : ¬M .fresh := by assumption) (k_out : ¬M .out := by assumption) (k_resp : ¬M .resp := by assumption) (k_dict : ¬M .dict := by assumption) (k_led : ¬M .led := by assumption) (k_ctr : ¬M .ctr := by assumption) (k_fab : ¬M .fab := by assumption) (k_slots : ¬M .slots := by assumption) (k_arrays : ¬M .arrays := by assumption) (k_mem : ¬M .mem := by assumption) (k_engines : ¬M .engines := by assumption) (k_flash : ¬M .flash := by assumption) (k_power : ¬M .power := by assumption) (k_net : ¬M .net := by assumption) (k_colls : ¬M .colls := by assumption) (k_secures : ¬M .secures := by assumption) (k_admissions : ¬M .admissions := by assumption) (k_serves : ¬M .serves := by assumption) (k_refresh : ¬M .refresh := by assumption) (k_host : ¬M .host := by assumption) (k_sys : ¬M .sys := by assumption) : Answers M s0 (execPeerAccessFrame a0 a1 a2 a3) := by
  unfold execPeerAccessFrame
  with_reducible apply Answers.done; refine Keeps.ite (fun _ => ?_) (fun _ => ?_); assumption
  refine Keeps.ite (fun _ => ?_) (fun _ => ?_); with_reducible refine takeFrame'_keeps _ _ _ ?_; assumption; split
  refine sendFrame_keeps _ _ _ _ ?_; assumption; assumption

theorem modMailbox_keeps {M : Part → Prop} {s0 a2 : State} (a0) (a1) (h : Keeps M s0 a2) (k_dict : ¬M .dict := by assumption) : Keeps M s0 (modMailbox a0 a1 a2) := by
  unfold modMailbox
  refine modDict_keeps _ ?_; assumption

theorem execMailboxDoorbell_keeps {M : Part → Prop} {s0 a3 : State} (a0) (a1) (a2) (h : Keeps M s0 a3) (k_fresh : ¬M .fresh := by assumption) (k_out : ¬M .out := by assumption) (k_resp : ¬M .resp := by assumption) (k_dict : ¬M .dict := by assumption) (k_led : ¬M .led := by assumption) (k_ctr : ¬M .ctr := by assumption) (k_fab : ¬M .fab := by assumption) (k_slots : ¬M .slots := by assumption) (k_arrays : ¬M .arrays := by assumption) (k_mem : ¬M .mem := by assumption) (k_engines : ¬M .engines := by assumption) (k_flash : ¬M .flash := by assumption) (k_power : ¬M .power := by assumption) (k_net : ¬M .net := by assumption) (k_colls : ¬M .colls := by assumption) (k_secures : ¬M .secures := by assumption) (k_admissions : ¬M .admissions := by assumption) (k_serves : ¬M .serves := by assumption) (k_refresh : ¬M .refresh := by assumption) (k_host : ¬M .host := by assumption) (k_sys : ¬M .sys := by assumption) : Answers M s0 (execMailboxDoorbell a0 a1 a2 a3) := by
  unfold execMailboxDoorbell
  with_reducible apply Answers.done; refine Keeps.ite (fun _ => ?_) (fun _ => ?_); assumption
  (with_reducible refine Keeps.letAny (fun x hx => ?_); subst hx); refine Keeps.ite (fun _ => ?_) (fun _ => ?_)
  refine modMailbox_keeps _ _ ?_; assumption; (with_reducible refine Keeps.letAny (fun x hx => ?_); subst hx)
  refine signal_keeps _ _ ?_; refine emit_keeps _ ?_; refine modMailbox_keeps _ _ ?_; refine runEntries_keeps _ _ _ ?_
  refine modMailbox_keeps _ _ ?_; assumption

theorem execSessionProof_keeps {M : Part → Prop} {s0 a2 : State} (a0) (a1) (h : Keeps M s0 a2) (k_fresh : ¬M .fresh := by assumption) (k_out : ¬M .out := by assumption) (k_resp : ¬M .resp := by assumption) (k_dict : ¬M .dict := by assumption) : Answers M s0 (execSessionProof a0 a1 a2) := by
  unfold execSessionProof
  with_reducible apply Answers.done; refine Keeps.ite (fun _ => ?_) (fun _ => ?_); assumption; split
  (with_reducible refine Keeps.letAny (fun x hx => ?_); subst hx); with_reducible refine Keeps.upd ?_; refine emit_keeps _ ?_
  assumption; with_reducible refine Keeps.letIn ?_ (fun s hs => ?_); (with_reducible refine Keeps.letAny (fun x hx => ?_); subst hx)
  with_reducible refine Keeps.upd ?_; refine emit_keeps _ ?_; refine modDict_keeps _ ?_; refine draw_keeps ?_; refine draw_keeps ?_
  refine draw_keeps ?_; refine modDict_keeps _ ?_; assumption; refine Keeps.ite (fun _ => ?_) (fun _ => ?_)
  (with_reducible refine Keeps.letAny (fun x hx => ?_); subst hx); with_reducible refine Keeps.upd ?_; refine emit_keeps _ ?_
  refine modDict_keeps _ ?_; assumption; assumption

theorem execSessionIdleTimeout_keeps {M : Part → Prop} {s0 a1 : State} (a0) (h : Keeps M s0 a1) (k_dict : ¬M .dict := by assumption) : Answers M s0 (execSessionIdleTimeout a0 a1) := by
  unfold execSessionIdleTimeout
  with_reducible apply Answers.done; refine Keeps.ite (fun _ => ?_) (fun _ => ?_); refine endSession_keeps _ ?_; assumption; assumption

theorem execSessionClose_keeps {M : Part → Prop} {s0 a1 : State} (a0) (h : Keeps M s0 a1) (k_dict : ¬M .dict := by assumption) : Answers M s0 (execSessionClose a0 a1) := by
  unfold execSessionClose
  with_reducible apply Answers.done; refine Keeps.ite (fun _ => ?_) (fun _ => ?_); refine endSession_keeps _ ?_; assumption; assumption

theorem execVoaRequestFrame_keeps {M : Part → Prop} {s0 a2 : State} (a0) (a1) (h : Keeps M s0 a2) (k_fresh : ¬M .fresh := by assumption) (k_out : ¬M .out := by assumption) (k_resp : ¬M .resp := by assumption) (k_dict : ¬M .dict := by assumption) (k_led : ¬M .led := by assumption) (k_ctr : ¬M .ctr := by assumption) (k_fab : ¬M .fab := by assumption) (k_slots : ¬M .slots := by assumption) (k_arrays : ¬M .arrays := by assumption) (k_mem : ¬M .mem := by assumption) (k_engines : ¬M .engines := by assumption) (k_flash : ¬M .flash := by assumption) (k_power : ¬M .power := by assumption) (k_net : ¬M .net := by assumption) (k_colls : ¬M .colls := by assumption) (k_secures : ¬M .secures := by assumption) (k_admissions : ¬M .admissions := by assumption) (k_serves : ¬M .serves := by assumption) (k_refresh : ¬M .refresh := by assumption) (k_host : ¬M .host := by assumption) (k_sys : ¬M .sys := by assumption) : Answers M s0 (execVoaRequestFrame a0 a1 a2) := by
  unfold execVoaRequestFrame
  with_reducible apply Answers.done; refine Keeps.ite (fun _ => ?_) (fun _ => ?_); with_reducible refine takeFrame'_keeps _ _ _ ?_
  assumption; assumption

theorem execSessionOpen_keeps {M : Part → Prop} {s0 a4 : State} (a0) (a1) (a2) (a3) (h : Keeps M s0 a4) (k_fresh : ¬M .fresh := by assumption) (k_out : ¬M .out := by assumption) (k_resp : ¬M .resp := by assumption) (k_dict : ¬M .dict := by assumption) : Answers M s0 (execSessionOpen a0 a1 a2 a3 a4) := by
  unfold execSessionOpen
  with_reducible apply Answers.done; refine Keeps.ite (fun _ => ?_) (fun _ => ?_); assumption; split
  (with_reducible refine Keeps.letAny (fun x hx => ?_); subst hx); with_reducible refine Keeps.upd ?_; refine emit_keeps _ ?_
  refine modDict_keeps _ ?_; refine draw_keeps ?_; assumption; (with_reducible refine Keeps.letAny (fun x hx => ?_); subst hx)
  with_reducible refine Keeps.upd ?_; refine emit_keeps _ ?_; assumption

end Sys2Proof.Machine
end

