-- ==== Sys2Proof/Laws/KeepsRouteLoad.lean ====
section
/-! SUPPORT. The queue and the invariant are kept by the operations of Machine/RouteLoad.lean. -/

set_option Elab.async false

namespace Sys2Proof.Machine

theorem underClosedSet_keeps {M : Part → Prop} {s0 a0 : State}  (h : Keeps M s0 a0) (k_dict : ¬M .dict := by assumption) : Keeps M s0 (underClosedSet a0) := by
  unfold underClosedSet
  refine modDict_keeps _ ?_; assumption

theorem reserveFrames_keeps {M : Part → Prop} {s0 a2 : State} (a0) (a1) (h : Keeps M s0 a2) (k_fresh : ¬M .fresh := by assumption) (k_out : ¬M .out := by assumption) (k_led : ¬M .led := by assumption) (k_ctr : ¬M .ctr := by assumption) (k_mem : ¬M .mem := by assumption) (k_flash : ¬M .flash := by assumption) (k_secures : ¬M .secures := by assumption) : Keeps M s0 (reserveFrames a0 a1 a2) := by
  unfold reserveFrames
  with_reducible refine Keeps.foldl (fun s x hs => ?_) _ ?_; (with_reducible refine Keeps.letAny (fun x hx => ?_); subst hx)
  refine modSecure_keeps _ _ ?_; with_reducible refine Keeps.upd ?_; assumption; refine roomFor_keeps _ _ _ ?_; assumption

theorem withLoaded_keeps {M : Part → Prop} {s0 a0 : State}  (h : Keeps M s0 a0) (k_slots : ¬M .slots := by assumption) : Keeps M s0 (withLoaded a0) := by
  unfold withLoaded
  with_reducible refine Keeps.foldl (fun s x hs => ?_) _ ?_; refine Keeps.ite (fun _ => ?_) (fun _ => ?_); refine modSlot_keeps _ _ ?_
  assumption; assumption; assumption

theorem execRouteLoad_keeps {M : Part → Prop} {s0 a2 : State} (a0) (a1) (h : Keeps M s0 a2) (k_fresh : ¬M .fresh := by assumption) (k_out : ¬M .out := by assumption) (_k_dict : ¬M .dict := by assumption) (k_led : ¬M .led := by assumption) (k_ctr : ¬M .ctr := by assumption) (k_slots : ¬M .slots := by assumption) (k_mem : ¬M .mem := by assumption) (k_flash : ¬M .flash := by assumption) (k_secures : ¬M .secures := by assumption) (k_admissions : ¬M .admissions := by assumption) (k_host : ¬M .host := by assumption) : Answers M s0 (execRouteLoad a0 a1 a2) := by
  unfold execRouteLoad
  (with_reducible refine Answers.letAny (fun x hx => ?_); subst hx); with_reducible refine Answers.ite (fun hc => ?_) (fun hc => ?_)
  with_reducible apply Answers.done; assumption; (with_reducible refine Answers.letAny (fun x hx => ?_); subst hx); split
  with_reducible refine Answers.letIn ?_ (fun s hs => ?_); refine modSlot_keeps _ _ ?_; refine reserveFrames_keeps _ _ ?_; assumption
  with_reducible apply Answers.done; assumption; with_reducible apply Answers.done; refine giveSlot_keeps _ ?_
  refine setSlot_keeps _ _ ?_; refine refuse_keeps _ _ _ ?_; assumption

end Sys2Proof.Machine
end

