-- ==== Sys2Proof/Laws/ObjTable.lean ====
section
/-! SUPPORT. The object table: what a look-up finds, and that no two rows give one object. -/

namespace Sys2Proof.Machine

/-- What every row of an index below the counters and the client blocks shares, the row of each of its objects has. -/
theorem objRow_shares {P : ObjRow → Prop} {index sub : Nat} (rows : ∀ r ∈ objRows, r.index = index → P r) (noCtr : ctrRow index = none)
    (noClient : ¬(0x4000 ≤ index ∧ index ≤ 0x43FF)) {r : ObjRow} (h : objRow index sub = some r) : P r := by
  unfold objRow at h
  split at h
  · rename_i x e
    have p := List.find?_some e
    split at h
    · cases h
    · cases h; exact rows _ (List.mem_of_find?_eq_some e) (by simp at p; exact p.1.1)
  · rw [noCtr] at h; unfold clientRow at h; rw [if_neg noClient] at h; cases h

/-- Rows in ascending order: a row ends before the next of its index begins. -/
def rowsAscend : List ObjRow → Bool
  | [] => true
  | [_] => true
  | a :: b :: r => (decide (a.index < b.index) || (a.index == b.index && decide (a.last < b.first))) && decide (b.first ≤ b.last) && rowsAscend (b :: r)

theorem rowsAscend_head {a : ObjRow} {l : List ObjRow} (h : rowsAscend (a :: l) = true) {b : ObjRow} (hb : b ∈ l) :
    a.index < b.index ∨ (a.index = b.index ∧ a.last < b.first) := by
  induction l generalizing a with
  | nil => cases hb
  | cons c r ih =>
    simp only [rowsAscend, Bool.and_eq_true, Bool.or_eq_true, decide_eq_true_eq, beq_iff_eq] at h
    obtain ⟨⟨h1, h2⟩, h3⟩ := h
    rcases List.mem_cons.mp hb with e | e
    · subst e; exact h1
    · have := ih h3 e
      rcases h1 with k | ⟨k, k'⟩ <;> rcases this with j | ⟨j, j'⟩ <;> omega

theorem rowsAscend_unique {l : List ObjRow} (h : rowsAscend l = true) {a b : ObjRow} (ha : a ∈ l) (hb : b ∈ l) (e : a.index = b.index)
    {k : Nat} (h1 : a.first ≤ k) (h2 : k ≤ a.last) (h3 : b.first ≤ k) (h4 : k ≤ b.last) : a = b := by
  induction l with
  | nil => cases ha
  | cons c r ih =>
    have hr : rowsAscend r = true := by
      cases r with
      | nil => rfl
      | cons d r => simp only [rowsAscend, Bool.and_eq_true] at h; exact h.2
    rcases List.mem_cons.mp ha with x | x <;> rcases List.mem_cons.mp hb with y | y
    · rw [x, y]
    · subst x; have := rowsAscend_head h y; omega
    · subst y; have := rowsAscend_head h x; omega
    · exact ih hr x y

theorem objRows_ascend : rowsAscend objRows = true := by decide +kernel

/-- No two rows of the table give one object. -/
theorem objRows_unique {a b : ObjRow} (ha : a ∈ objRows) (hb : b ∈ objRows) (e : a.index = b.index) {k : Nat} (h1 : a.first ≤ k)
    (h2 : k ≤ a.last) (h3 : b.first ≤ k) (h4 : k ≤ b.last) : a = b := rowsAscend_unique objRows_ascend ha hb e h1 h2 h3 h4

/-- An instance of a row is found as an object of that row. -/
theorem objRow_of_instance {r : ObjRow} {k : Nat} (hr : r ∈ objRows) (hk : k ∈ instances r) : objRow r.index k = some r := by
  simp only [instances, List.mem_filter, List.mem_map, List.mem_range, Bool.or_eq_true, bne_iff_ne, ne_eq] at hk
  obtain ⟨⟨i, hi, e⟩, hs⟩ := hk
  have h1 : r.first ≤ k := by omega
  have h2 : k ≤ r.last := by omega
  unfold objRow
  split
  · rename_i x hx
    have p := List.find?_some hx
    simp at p
    have : x = r := objRows_unique (List.mem_of_find?_eq_some hx) hr p.1.1 p.1.2 p.2 h1 h2
    rw [this, if_neg]
    rintro ⟨a, b⟩; rcases hs with c | c
    · exact c a
    · simp [c] at b
  · rename_i hx
    have := List.find?_eq_none.mp hx r hr
    simp [h1, h2] at this

end Sys2Proof.Machine
end

