-- ==== Sys2Proof/WellFormed.lean ====
section
/-! DEFINITION. The commands whose operands lie in the ranges the spec gives the things they name. A command outside them names
nothing of the module and its meaning leaves the state as it is. -/

namespace Sys2Proof

/-- A requester that exists: one of 64 clients on one of four transports (R79, R87). -/
def Who.ok (w : Who) : Bool := w.client < 64 && w.transport < 4

/-- A local lane that exists: of the L ports 4, 8 and 9 and the sides behind them, and the lanes of a network (R98, R102). -/
def LocalLane.ok (p : LocalLane) : Bool := p.array < 256 && p.port < 10 && (p.lane < 4 || p.lane == 16)

/-- A timeline that exists: the fabric's, or a slot's. -/
def Timeline.ok : Timeline → Bool
  | .fabric => true
  | .slot s => s < 4

/-- The route slots a timeline names. -/
def Timeline.slots : Timeline → List Nat
  | .fabric => []
  | .slot s => [s]

/-- The route slots a command names. -/
def Instr.slots : Instr → List Nat
  | .beatOpen tl => tl.slots
  | .beatMark _ _ => []
  | .initialMarkTimeout => []
  | .markUpstreamTimeout => []
  | .markMasterTimeout => []
  | .beatMasterRepeat => []
  | .latencyMeasure _ => []
  | .latencyProbe _ => []
  | .latencyReply _ => []
  | .upReport _ _ _ => []
  | .governedAdditionApply => []
  | .closeWindowOpen slot => [slot]
  | .reportCutoff slot => [slot]
  | .verdictApply slot => [slot]
  | .replayStart slot => [slot]
  | .counterCapture => []
  | .objectRead _ _ _ _ _ => []
  | .objectWrite _ _ _ _ => []
  | .domainReadSegment _ _ _ _ _ _ => []
  | .domainWriteSegment _ _ _ _ _ => []
  | .domainWriteLastSegment _ _ _ _ _ => []
  | .sessionOpen _ _ _ _ => []
  | .sessionProof _ _ => []
  | .sessionClose _ => []
  | .sessionIdleTimeout _ => []
  | .expertChallenge _ => []
  | .expertUnlock _ _ => []
  | .lockExpert _ _ => []
  | .restoreDefaultsBasic _ => []
  | .restoreDefaultsAll _ => []
  | .stagingOpen _ => []
  | .stagingClose _ => []
  | .stagingDiscard _ => []
  | .epochCommit => []
  | .repairSetCommit => []
  | .slotForward _ _ _ _ _ => []
  | .arraySiteFail _ => []
  | .selftestSlice _ _ => []
  | .selftestNow _ _ _ => []
  | .markArrayFailed _ _ _ => []
  | .stageSubstitution _ _ => []
  | .stageReturn _ _ => []
  | .switchFault _ => []
  | .tileArrive slot _ _ => [slot]
  | .joinRefill slot _ _ _ => [slot]
  | .queueCreditReturn slot _ => [slot]
  | .mmoIssue slot _ _ _ => [slot]
  | .glazeProgramStart slot _ _ _ => [slot]
  | .moveOperation slot _ _ _ => [slot]
  | .stashPut slot _ _ _ => [slot]
  | .stashGet slot _ _ _ => [slot]
  | .kilnUpdate slot _ _ _ => [slot]
  | .exchangeContribute slot _ _ _ => [slot]
  | .forward slot _ _ _ => [slot]
  | .scalarEmit slot _ _ _ => [slot]
  | .tokenEmit slot _ _ _ => [slot]
  | .operationComplete slot _ _ _ => [slot]
  | .tokenArrive slot _ _ => [slot]
  | .steerDataArrive slot _ _ _ => [slot]
  | .mergeDataArrive slot _ _ _ _ => [slot]
  | .steerOutput _ _ => []
  | .streamRestart slot _ => [slot]
  | .routeStart slot => [slot]
  | .routeStartFrame _ _ slot _ => [slot]
  | .tileStep _ _ => []
  | .outputDrain _ _ => []
  | .latePoint _ _ => []
  | .gAdd _ _ => []
  | .gSub _ _ => []
  | .gMul _ _ => []
  | .gFma _ _ => []
  | .gMin _ _ => []
  | .gMax _ _ => []
  | .gAbs _ _ => []
  | .gNeg _ _ => []
  | .gCmplt _ _ => []
  | .gCmpeq _ _ => []
  | .gSel _ _ => []
  | .gAnd _ _ => []
  | .gOr _ _ => []
  | .gXor _ _ => []
  | .gShl _ _ => []
  | .gShr _ _ => []
  | .gMov _ _ => []
  | .gCvti _ _ => []
  | .gCvtf _ _ => []
  | .gPack _ _ => []
  | .gUnpack _ _ => []
  | .gExp2 _ _ => []
  | .gLog2 _ _ => []
  | .gRcp _ _ => []
  | .gRsqrt _ _ => []
  | .gTanh _ _ => []
  | .gErf _ _ => []
  | .gRsum _ _ => []
  | .gRmax _ _ => []
  | .gRmin _ _ => []
  | .gRamax _ _ => []
  | .gRssq _ _ => []
  | .gLd _ _ => []
  | .gSt _ _ => []
  | .gTout _ _ => []
  | .gSli _ _ => []
  | .gSadd _ _ => []
  | .gSmul _ _ => []
  | .gSfrom _ _ => []
  | .gSetext _ _ => []
  | .gLoop _ _ => []
  | .gEnd _ _ => []
  | .glazeWordLimit _ _ => []
  | .gaAdmit slot _ _ _ => [slot]
  | .lossItem slot _ _ => [slot]
  | .cargoCreate _ _ => []
  | .cargoFree _ _ => []
  | .cargoPin _ _ => []
  | .cargoUnpin _ _ => []
  | .cargoSetActions _ _ => []
  | .cargoFlush _ _ => []
  | .cargoMarkOutOfDate _ _ => []
  | .cargoCommandDone _ _ => []
  | .scrubPass _ _ _ => []
  | .writehomeRetry _ _ => []
  | .cargoReadFail _ _ => []
  | .transferIssue _ => []
  | .requestIssue _ _ => []
  | .requestLand _ _ _ _ => []
  | .writeAcknowledge _ _ _ => []
  | .droverAccess _ _ _ slot _ _ _ _ _ _ => [slot]
  | .flashPageRead _ _ _ => []
  | .flashProgram => []
  | .mapCheckpoint => []
  | .garbageCollection => []
  | .staticWearLevelling => []
  | .readDisturbRelocation _ => []
  | .blockRetire _ => []
  | .bankSample _ => []
  | .loadTest => []
  | .loadTestNow _ _ => []
  | .loadTestDone _ => []
  | .storeAdmit _ => []
  | .inputLow => []
  | .inputLowClear => []
  | .inputLoss _ => []
  | .inputHigh _ => []
  | .inputOvervoltage => []
  | .overcurrent => []
  | .holdupQuiesceEnd => []
  | .holdupProgramDone => []
  | .powerLossRecord _ _ _ => []
  | .laneFail _ _ => []
  | .spareLaneTrained _ => []
  | .spareLaneJoin _ => []
  | .flitSend _ _ => []
  | .flitReceive _ _ _ _ _ => []
  | .retryRequest _ _ => []
  | .linkRetrain _ => []
  | .linkUp _ => []
  | .identityFrame _ _ _ => []
  | .laneControlFrame _ _ _ => []
  | .digestFrame _ _ _ => []
  | .peerAccessFrame _ _ _ => []
  | .sumReport _ => []
  | .normReport _ => []
  | .ringPartialArrive slot _ _ _ _ => [slot]
  | .lateFoldDecide slot _ _ _ => [slot]
  | .lateTileLand slot _ _ _ _ _ _ => [slot]
  | .portModeChipLink _ _ => []
  | .portModeEthernet _ _ _ => []
  | .datagramReceive _ _ => []
  | .retrainLinkNow _ _ _ => []
  | .backgroundCopy slot _ _ => [slot]
  | .buddySend slot => [slot]
  | .buddyReceive _ slot _ _ _ _ => [slot]
  | .buddySlotComplete slot => [slot]
  | .flashCheckpoint slot => [slot]
  | .restoreRequest _ _ => []
  | .restoreStart slot => [slot]
  | .firmwareHandover _ _ => []
  | .handoverServiceMove _ => []
  | .admissionRequest _ _ _ => []
  | .slotGive slot => [slot]
  | .routeLoad slot _ => [slot]
  | .routeResident slot => [slot]
  | .cancelAdmission _ _ _ => []
  | .releaseSlot _ _ _ => []
  | .releaseTakeEffect slot => [slot]
  | .requestPost _ slot _ _ => [slot]
  | .coneRelease slot _ => [slot]
  | .resultReleaseWrite _ slot _ => [slot]
  | .refreshCopy _ => []
  | .bankSwap slot => [slot]
  | .clearCounters _ _ => []
  | .bootDoorbell _ _ => []
  | .bar4WindowSet _ _ _ => []
  | .bar4Read _ _ _ _ => []
  | .bar4Write _ _ _ => []
  | .readRefusedWindows _ => []
  | .pcieRetrainNow _ _ => []
  | .vfEnable _ => []
  | .vfDisable => []
  | .functionLevelReset _ => []
  | .pcieLinkDown => []
  | .powerOnReset => []
  | .perst => []
  | .sysrst => []
  | .watchdogMiss _ => []
  | .resetFabric _ => []
  | .resetWarm _ => []
  | .resetCold _ => []
  | .storeDrainDone => []
  | .resetStretchEnd _ => []
  | .thermTrip _ => []
  | .thermTripRecover => []
  | .advanceAntiRollback _ _ => []
  | .firmwareImageWrite _ _ _ _ => []
  | .imageProgramDone => []
  | .attestationNonce _ _ => []
  | .attestationSigned _ => []
  | .cableShort _ => []
  | .mailboxDoorbell _ _ _ => []
  | .voaRequestFrame _ _ => []
  | .managementEchoRequest _ _ => []
  | .managementLinkUp => []
  | .managementLinkDown => []
  | .autoNegotiationDone _ => []
  | .ethernetPortDown _ => []
  | .pcieLinkUp _ _ => []
  | .perstRelease => []
  | .msixUnmask _ _ => []
  | .selftestDone _ => []
  | .coefficientBlockDone slot => [slot]
  | .bankExhausted => []

/-- The operands lie in their ranges. -/
def Instr.wellFormed : Instr → Bool
  | .beatOpen tl => tl.ok
  | .beatMark link _ => link < 64
  | .initialMarkTimeout => true
  | .markUpstreamTimeout => true
  | .markMasterTimeout => true
  | .beatMasterRepeat => true
  | .latencyMeasure link => link < 64
  | .latencyProbe link => link < 64
  | .latencyReply link => link < 64
  | .upReport link _ _ => link < 64
  | .governedAdditionApply => true
  | .closeWindowOpen slot => slot < 4
  | .reportCutoff slot => slot < 4
  | .verdictApply slot => slot < 4
  | .replayStart slot => slot < 4
  | .counterCapture => true
  | .objectRead who index sub _ _ => who.ok && index < 65536 && sub < 256
  | .objectWrite who index sub _ => who.ok && index < 65536 && sub < 256
  | .domainReadSegment who index sub _ _ _ => who.ok && index < 65536 && sub < 256
  | .domainWriteSegment who index sub _ _ => who.ok && index < 65536 && sub < 256
  | .domainWriteLastSegment who index sub _ _ => who.ok && index < 65536 && sub < 256
  | .sessionOpen _ transport client _ => transport < 4 && client < 64
  | .sessionProof _ _ => true
  | .sessionClose _ => true
  | .sessionIdleTimeout _ => true
  | .expertChallenge who => who.ok
  | .expertUnlock who _ => who.ok
  | .lockExpert who _ => who.ok
  | .restoreDefaultsBasic who => who.ok
  | .restoreDefaultsAll who => who.ok
  | .stagingOpen who => who.ok
  | .stagingClose who => who.ok
  | .stagingDiscard who => who.ok
  | .epochCommit => true
  | .repairSetCommit => true
  | .slotForward array net port _ _ => array < 256 && net < 3 && port < 10
  | .arraySiteFail site => site < 272
  | .selftestSlice site _ => site < 272
  | .selftestNow who array _ => who.ok && array < 256
  | .markArrayFailed who array _ => who.ok && array < 256
  | .stageSubstitution who array => who.ok && array < 256
  | .stageReturn who array => who.ok && array < 256
  | .switchFault array => array < 256
  | .tileArrive slot place _ => slot < 4 && place.ok
  | .joinRefill slot station queue _ => slot < 4 && station < 4096 && queue < 8
  | .queueCreditReturn slot _ => slot < 4
  | .mmoIssue slot station op _ => slot < 4 && station < 4096 && op < 64
  | .glazeProgramStart slot station op _ => slot < 4 && station < 4096 && op < 64
  | .moveOperation slot station op _ => slot < 4 && station < 4096 && op < 64
  | .stashPut slot station op _ => slot < 4 && station < 4096 && op < 64
  | .stashGet slot station op _ => slot < 4 && station < 4096 && op < 64
  | .kilnUpdate slot station op _ => slot < 4 && station < 4096 && op < 64
  | .exchangeContribute slot station op _ => slot < 4 && station < 4096 && op < 64
  | .forward slot station op _ => slot < 4 && station < 4096 && op < 64
  | .scalarEmit slot station op _ => slot < 4 && station < 4096 && op < 64
  | .tokenEmit slot station op _ => slot < 4 && station < 4096 && op < 64
  | .operationComplete slot station op _ => slot < 4 && station < 4096 && op < 64
  | .tokenArrive slot array lane => slot < 4 && array < 256 && (lane < 4 || lane == 16)
  | .steerDataArrive slot array unit _ => slot < 4 && array < 256 && unit < 8
  | .mergeDataArrive slot array unit input _ => slot < 4 && array < 256 && unit < 8 && input < 4
  | .steerOutput array unit => array < 256 && unit < 16
  | .streamRestart slot stream => slot < 4 && stream < 4096
  | .routeStart slot => slot < 4
  | .routeStartFrame link _ slot _ => link < 64 && slot < 4
  | .tileStep array _ => array < 256
  | .outputDrain array _ => array < 256
  | .latePoint array _ => array < 256
  | .gAdd array thread => array < 256 && thread < 16
  | .gSub array thread => array < 256 && thread < 16
  | .gMul array thread => array < 256 && thread < 16
  | .gFma array thread => array < 256 && thread < 16
  | .gMin array thread => array < 256 && thread < 16
  | .gMax array thread => array < 256 && thread < 16
  | .gAbs array thread => array < 256 && thread < 16
  | .gNeg array thread => array < 256 && thread < 16
  | .gCmplt array thread => array < 256 && thread < 16
  | .gCmpeq array thread => array < 256 && thread < 16
  | .gSel array thread => array < 256 && thread < 16
  | .gAnd array thread => array < 256 && thread < 16
  | .gOr array thread => array < 256 && thread < 16
  | .gXor array thread => array < 256 && thread < 16
  | .gShl array thread => array < 256 && thread < 16
  | .gShr array thread => array < 256 && thread < 16
  | .gMov array thread => array < 256 && thread < 16
  | .gCvti array thread => array < 256 && thread < 16
  | .gCvtf array thread => array < 256 && thread < 16
  | .gPack array thread => array < 256 && thread < 16
  | .gUnpack array thread => array < 256 && thread < 16
  | .gExp2 array thread => array < 256 && thread < 16
  | .gLog2 array thread => array < 256 && thread < 16
  | .gRcp array thread => array < 256 && thread < 16
  | .gRsqrt array thread => array < 256 && thread < 16
  | .gTanh array thread => array < 256 && thread < 16
  | .gErf array thread => array < 256 && thread < 16
  | .gRsum array thread => array < 256 && thread < 16
  | .gRmax array thread => array < 256 && thread < 16
  | .gRmin array thread => array < 256 && thread < 16
  | .gRamax array thread => array < 256 && thread < 16
  | .gRssq array thread => array < 256 && thread < 16
  | .gLd array thread => array < 256 && thread < 16
  | .gSt array thread => array < 256 && thread < 16
  | .gTout array thread => array < 256 && thread < 16
  | .gSli array thread => array < 256 && thread < 16
  | .gSadd array thread => array < 256 && thread < 16
  | .gSmul array thread => array < 256 && thread < 16
  | .gSfrom array thread => array < 256 && thread < 16
  | .gSetext array thread => array < 256 && thread < 16
  | .gLoop array thread => array < 256 && thread < 16
  | .gEnd array thread => array < 256 && thread < 16
  | .glazeWordLimit array thread => array < 256 && thread < 16
  | .gaAdmit slot _ _ microBatch => slot < 4 && microBatch < 4096
  | .lossItem slot array stream => slot < 4 && array < 256 && stream < 4096
  | .cargoCreate who request => who.ok && request.length == 64
  | .cargoFree who request => who.ok && request.length == 64
  | .cargoPin who request => who.ok && request.length == 64
  | .cargoUnpin who request => who.ok && request.length == 64
  | .cargoSetActions who request => who.ok && request.length == 64
  | .cargoFlush who request => who.ok && request.length == 64
  | .cargoMarkOutOfDate who request => who.ok && request.length == 64
  | .cargoCommandDone client _ => client < 64
  | .scrubPass kind _ _ => kind < 256
  | .writehomeRetry _ _ => true
  | .cargoReadFail array _ => array < 256
  | .transferIssue array => array < 256
  | .requestIssue array _ => array < 256
  | .requestLand array _ _ _ => array < 256
  | .writeAcknowledge array _ _ => array < 256
  | .droverAccess array core thread slot _ _ _ _ _ _ => array < 256 && core < 2 && thread < 16 && slot < 4
  | .flashPageRead _ _ _ => true
  | .flashProgram => true
  | .mapCheckpoint => true
  | .garbageCollection => true
  | .staticWearLevelling => true
  | .readDisturbRelocation _ => true
  | .blockRetire _ => true
  | .bankSample _ => true
  | .loadTest => true
  | .loadTestNow who _ => who.ok
  | .loadTestDone _ => true
  | .storeAdmit _ => true
  | .inputLow => true
  | .inputLowClear => true
  | .inputLoss _ => true
  | .inputHigh _ => true
  | .inputOvervoltage => true
  | .overcurrent => true
  | .holdupQuiesceEnd => true
  | .holdupProgramDone => true
  | .powerLossRecord _ _ _ => true
  | .laneFail link lane => link < 64 && (lane < 4 || lane == 16)
  | .spareLaneTrained link => link < 64
  | .spareLaneJoin link => link < 64
  | .flitSend link channel => link < 64 && channel < 64
  | .flitReceive link _ _ _ _ => link < 64
  | .retryRequest link _ => link < 64
  | .linkRetrain link => link < 64
  | .linkUp link => link < 64
  | .identityFrame link device peerLink => link < 64 && device < 32768 && peerLink < 64
  | .laneControlFrame link lane kind => link < 64 && (lane < 4 || lane == 16) && kind < 256
  | .digestFrame link _ _ => link < 64
  | .peerAccessFrame link dest _ => link < 64 && dest < 65536
  | .sumReport _ => true
  | .normReport _ => true
  | .ringPartialArrive slot record _ ring _ => slot < 4 && record < 16 && ring < 16
  | .lateFoldDecide slot record _ ring => slot < 4 && record < 16 && ring < 16
  | .lateTileLand slot record _ ring _ _ _ => slot < 4 && record < 16 && ring < 16
  | .portModeChipLink who link => who.ok && link < 64
  | .portModeEthernet who link _ => who.ok && link < 64
  | .datagramReceive link _ => link < 64
  | .retrainLinkNow who link _ => who.ok && link < 64
  | .backgroundCopy slot _ _ => slot < 4
  | .buddySend slot => slot < 4
  | .buddyReceive device slot _ _ _ _ => device < 32768 && slot < 4
  | .buddySlotComplete slot => slot < 4
  | .flashCheckpoint slot => slot < 4
  | .restoreRequest who _ => who.ok
  | .restoreStart slot => slot < 4
  | .firmwareHandover who _ => who.ok
  | .handoverServiceMove _ => true
  | .admissionRequest who client request => who.ok && client < 64 && request.length == 64
  | .slotGive slot => slot < 4
  | .routeLoad slot _ => slot < 4
  | .routeResident slot => slot < 4
  | .cancelAdmission who client _ => who.ok && client < 64
  | .releaseSlot who client _ => who.ok && client < 64
  | .releaseTakeEffect slot => slot < 4
  | .requestPost client slot _ _ => client < 64 && slot < 4
  | .coneRelease slot _ => slot < 4
  | .resultReleaseWrite client slot _ => client < 64 && slot < 4
  | .refreshCopy _ => true
  | .bankSwap slot => slot < 4
  | .clearCounters who _ => who.ok
  | .bootDoorbell _ _ => true
  | .bar4WindowSet who window _ => who.ok && window < 64
  | .bar4Read function _ _ _ => function < 64
  | .bar4Write function _ _ => function < 64
  | .readRefusedWindows who => who.ok
  | .pcieRetrainNow who _ => who.ok
  | .vfEnable k => k < 64
  | .vfDisable => true
  | .functionLevelReset function => function < 64
  | .pcieLinkDown => true
  | .powerOnReset => true
  | .perst => true
  | .sysrst => true
  | .watchdogMiss core => core < 8
  | .resetFabric who => who.ok
  | .resetWarm who => who.ok
  | .resetCold who => who.ok
  | .storeDrainDone => true
  | .resetStretchEnd _ => true
  | .thermTrip sensor => sensor < 88
  | .thermTripRecover => true
  | .advanceAntiRollback who _ => who.ok
  | .firmwareImageWrite who _ _ _ => who.ok
  | .imageProgramDone => true
  | .attestationNonce who _ => who.ok
  | .attestationSigned client => client < 64
  | .cableShort connector => connector < 16
  | .mailboxDoorbell function _ _ => function < 64
  | .voaRequestFrame _ _ => true
  | .managementEchoRequest kind _ => kind < 256
  | .managementLinkUp => true
  | .managementLinkDown => true
  | .autoNegotiationDone link => link < 64
  | .ethernetPortDown link => link < 64
  | .pcieLinkUp _ _ => true
  | .perstRelease => true
  | .msixUnmask function vector => function < 64 && vector < 2048
  | .selftestDone array => array < 256
  | .coefficientBlockDone slot => slot < 4
  | .bankExhausted => true

end Sys2Proof
end

