-- ==== Sys2Proof/Laws/PerInstr.lean ====
section
/-! SUPPORT. A lemma per command for the family Slots: a well-formed command names route slots that exist. -/

namespace Sys2Proof.Laws.Slots

/-- Every route slot that a well-formed command names is one of the four. -/
def Statement (i : Instr) : Prop := i.wellFormed = true → i.slots.all (fun n => n < 4) = true

theorem one_slot {n : Nat} (h : n < 4) : ([n].all (fun n => n < 4)) = true := by simp [h]

theorem beatOpen : ∀ a, Statement (.beatOpen a) := by
  intro a
  cases a with
  | fabric => exact fun _ => rfl
  | slot n => exact fun h => one_slot (of_decide_eq_true h)
theorem beatMark : ∀ a b, Statement (.beatMark a b) := fun _ _ _ => rfl
theorem initialMarkTimeout : Statement (.initialMarkTimeout) := fun _ => rfl
theorem markUpstreamTimeout : Statement (.markUpstreamTimeout) := fun _ => rfl
theorem markMasterTimeout : Statement (.markMasterTimeout) := fun _ => rfl
theorem beatMasterRepeat : Statement (.beatMasterRepeat) := fun _ => rfl
theorem latencyMeasure : ∀ a, Statement (.latencyMeasure a) := fun _ _ => rfl
theorem latencyProbe : ∀ a, Statement (.latencyProbe a) := fun _ _ => rfl
theorem latencyReply : ∀ a, Statement (.latencyReply a) := fun _ _ => rfl
theorem upReport : ∀ a b c, Statement (.upReport a b c) := fun _ _ _ _ => rfl
theorem governedAdditionApply : Statement (.governedAdditionApply) := fun _ => rfl
theorem closeWindowOpen : ∀ a, Statement (.closeWindowOpen a) := by
  intro a h; have h : (decide (a < 4)) = true := h; exact one_slot (by simp at h; omega)
theorem reportCutoff : ∀ a, Statement (.reportCutoff a) := by
  intro a h; have h : (decide (a < 4)) = true := h; exact one_slot (by simp at h; omega)
theorem verdictApply : ∀ a, Statement (.verdictApply a) := by
  intro a h; have h : (decide (a < 4)) = true := h; exact one_slot (by simp at h; omega)
theorem replayStart : ∀ a, Statement (.replayStart a) := by
  intro a h; have h : (decide (a < 4)) = true := h; exact one_slot (by simp at h; omega)
theorem counterCapture : Statement (.counterCapture) := fun _ => rfl
theorem objectRead : ∀ a b c d e, Statement (.objectRead a b c d e) := fun _ _ _ _ _ _ => rfl
theorem objectWrite : ∀ a b c d, Statement (.objectWrite a b c d) := fun _ _ _ _ _ => rfl
theorem domainReadSegment : ∀ a b c d e f, Statement (.domainReadSegment a b c d e f) := fun _ _ _ _ _ _ _ => rfl
theorem domainWriteSegment : ∀ a b c d e, Statement (.domainWriteSegment a b c d e) := fun _ _ _ _ _ _ => rfl
theorem domainWriteLastSegment : ∀ a b c d e, Statement (.domainWriteLastSegment a b c d e) := fun _ _ _ _ _ _ => rfl
theorem sessionOpen : ∀ a b c d, Statement (.sessionOpen a b c d) := fun _ _ _ _ _ => rfl
theorem sessionProof : ∀ a b, Statement (.sessionProof a b) := fun _ _ _ => rfl
theorem sessionClose : ∀ a, Statement (.sessionClose a) := fun _ _ => rfl
theorem sessionIdleTimeout : ∀ a, Statement (.sessionIdleTimeout a) := fun _ _ => rfl
theorem expertChallenge : ∀ a, Statement (.expertChallenge a) := fun _ _ => rfl
theorem expertUnlock : ∀ a b, Statement (.expertUnlock a b) := fun _ _ _ => rfl
theorem lockExpert : ∀ a b, Statement (.lockExpert a b) := fun _ _ _ => rfl
theorem restoreDefaultsBasic : ∀ a, Statement (.restoreDefaultsBasic a) := fun _ _ => rfl
theorem restoreDefaultsAll : ∀ a, Statement (.restoreDefaultsAll a) := fun _ _ => rfl
theorem stagingOpen : ∀ a, Statement (.stagingOpen a) := fun _ _ => rfl
theorem stagingClose : ∀ a, Statement (.stagingClose a) := fun _ _ => rfl
theorem stagingDiscard : ∀ a, Statement (.stagingDiscard a) := fun _ _ => rfl
theorem epochCommit : Statement (.epochCommit) := fun _ => rfl
theorem repairSetCommit : Statement (.repairSetCommit) := fun _ => rfl
theorem slotForward : ∀ a b c d e, Statement (.slotForward a b c d e) := fun _ _ _ _ _ _ => rfl
theorem arraySiteFail : ∀ a, Statement (.arraySiteFail a) := fun _ _ => rfl
theorem selftestSlice : ∀ a b, Statement (.selftestSlice a b) := fun _ _ _ => rfl
theorem selftestNow : ∀ a b c, Statement (.selftestNow a b c) := fun _ _ _ _ => rfl
theorem markArrayFailed : ∀ a b c, Statement (.markArrayFailed a b c) := fun _ _ _ _ => rfl
theorem stageSubstitution : ∀ a b, Statement (.stageSubstitution a b) := fun _ _ _ => rfl
theorem stageReturn : ∀ a b, Statement (.stageReturn a b) := fun _ _ _ => rfl
theorem switchFault : ∀ a, Statement (.switchFault a) := fun _ _ => rfl
theorem tileArrive : ∀ a b c, Statement (.tileArrive a b c) := by
  intro a b c h; have h : (decide (a < 4) && b.ok) = true := h; exact one_slot (by simp at h; omega)
theorem joinRefill : ∀ a b c d, Statement (.joinRefill a b c d) := by
  intro a b c d h; have h : (decide (a < 4) && decide (b < 4096) && decide (c < 8)) = true := h; exact one_slot (by simp at h; omega)
theorem queueCreditReturn : ∀ a b, Statement (.queueCreditReturn a b) := by
  intro a b h; have h : (decide (a < 4)) = true := h; exact one_slot (by simp at h; omega)
theorem mmoIssue : ∀ a b c d, Statement (.mmoIssue a b c d) := by
  intro a b c d h; have h : (decide (a < 4) && decide (b < 4096) && decide (c < 64)) = true := h; exact one_slot (by simp at h; omega)
theorem glazeProgramStart : ∀ a b c d, Statement (.glazeProgramStart a b c d) := by
  intro a b c d h; have h : (decide (a < 4) && decide (b < 4096) && decide (c < 64)) = true := h; exact one_slot (by simp at h; omega)
theorem moveOperation : ∀ a b c d, Statement (.moveOperation a b c d) := by
  intro a b c d h; have h : (decide (a < 4) && decide (b < 4096) && decide (c < 64)) = true := h; exact one_slot (by simp at h; omega)
theorem stashPut : ∀ a b c d, Statement (.stashPut a b c d) := by
  intro a b c d h; have h : (decide (a < 4) && decide (b < 4096) && decide (c < 64)) = true := h; exact one_slot (by simp at h; omega)
theorem stashGet : ∀ a b c d, Statement (.stashGet a b c d) := by
  intro a b c d h; have h : (decide (a < 4) && decide (b < 4096) && decide (c < 64)) = true := h; exact one_slot (by simp at h; omega)
theorem kilnUpdate : ∀ a b c d, Statement (.kilnUpdate a b c d) := by
  intro a b c d h; have h : (decide (a < 4) && decide (b < 4096) && decide (c < 64)) = true := h; exact one_slot (by simp at h; omega)
theorem exchangeContribute : ∀ a b c d, Statement (.exchangeContribute a b c d) := by
  intro a b c d h; have h : (decide (a < 4) && decide (b < 4096) && decide (c < 64)) = true := h; exact one_slot (by simp at h; omega)
theorem forward : ∀ a b c d, Statement (.forward a b c d) := by
  intro a b c d h; have h : (decide (a < 4) && decide (b < 4096) && decide (c < 64)) = true := h; exact one_slot (by simp at h; omega)
theorem scalarEmit : ∀ a b c d, Statement (.scalarEmit a b c d) := by
  intro a b c d h; have h : (decide (a < 4) && decide (b < 4096) && decide (c < 64)) = true := h; exact one_slot (by simp at h; omega)
theorem tokenEmit : ∀ a b c d, Statement (.tokenEmit a b c d) := by
  intro a b c d h; have h : (decide (a < 4) && decide (b < 4096) && decide (c < 64)) = true := h; exact one_slot (by simp at h; omega)
theorem operationComplete : ∀ a b c d, Statement (.operationComplete a b c d) := by
  intro a b c d h; have h : (decide (a < 4) && decide (b < 4096) && decide (c < 64)) = true := h; exact one_slot (by simp at h; omega)
theorem tokenArrive : ∀ a b c, Statement (.tokenArrive a b c) := by
  intro a b c h; have h : (decide (a < 4) && decide (b < 256) && (decide (c < 4) || c == 16)) = true := h; exact one_slot (by simp at h; omega)
theorem steerDataArrive : ∀ a b c d, Statement (.steerDataArrive a b c d) := by
  intro a b c d h; have h : (decide (a < 4) && decide (b < 256) && decide (c < 8)) = true := h; exact one_slot (by simp at h; omega)
theorem mergeDataArrive : ∀ a b c d e, Statement (.mergeDataArrive a b c d e) := by
  intro a b c d e h; have h : (decide (a < 4) && decide (b < 256) && decide (c < 8) && decide (d < 4)) = true := h; exact one_slot (by simp at h; omega)
theorem steerOutput : ∀ a b, Statement (.steerOutput a b) := fun _ _ _ => rfl
theorem streamRestart : ∀ a b, Statement (.streamRestart a b) := by
  intro a b h; have h : (decide (a < 4) && decide (b < 4096)) = true := h; exact one_slot (by simp at h; omega)
theorem routeStart : ∀ a, Statement (.routeStart a) := by
  intro a h; have h : (decide (a < 4)) = true := h; exact one_slot (by simp at h; omega)
theorem routeStartFrame : ∀ a b c d, Statement (.routeStartFrame a b c d) := by
  intro a b c d h; have h : (decide (a < 64) && decide (c < 4)) = true := h; exact one_slot (by simp at h; omega)
theorem tileStep : ∀ a b, Statement (.tileStep a b) := fun _ _ _ => rfl
theorem outputDrain : ∀ a b, Statement (.outputDrain a b) := fun _ _ _ => rfl
theorem latePoint : ∀ a b, Statement (.latePoint a b) := fun _ _ _ => rfl
theorem gAdd : ∀ a b, Statement (.gAdd a b) := fun _ _ _ => rfl
theorem gSub : ∀ a b, Statement (.gSub a b) := fun _ _ _ => rfl
theorem gMul : ∀ a b, Statement (.gMul a b) := fun _ _ _ => rfl
theorem gFma : ∀ a b, Statement (.gFma a b) := fun _ _ _ => rfl
theorem gMin : ∀ a b, Statement (.gMin a b) := fun _ _ _ => rfl
theorem gMax : ∀ a b, Statement (.gMax a b) := fun _ _ _ => rfl
theorem gAbs : ∀ a b, Statement (.gAbs a b) := fun _ _ _ => rfl
theorem gNeg : ∀ a b, Statement (.gNeg a b) := fun _ _ _ => rfl
theorem gCmplt : ∀ a b, Statement (.gCmplt a b) := fun _ _ _ => rfl
theorem gCmpeq : ∀ a b, Statement (.gCmpeq a b) := fun _ _ _ => rfl
theorem gSel : ∀ a b, Statement (.gSel a b) := fun _ _ _ => rfl
theorem gAnd : ∀ a b, Statement (.gAnd a b) := fun _ _ _ => rfl
theorem gOr : ∀ a b, Statement (.gOr a b) := fun _ _ _ => rfl
theorem gXor : ∀ a b, Statement (.gXor a b) := fun _ _ _ => rfl
theorem gShl : ∀ a b, Statement (.gShl a b) := fun _ _ _ => rfl
theorem gShr : ∀ a b, Statement (.gShr a b) := fun _ _ _ => rfl
theorem gMov : ∀ a b, Statement (.gMov a b) := fun _ _ _ => rfl
theorem gCvti : ∀ a b, Statement (.gCvti a b) := fun _ _ _ => rfl
theorem gCvtf : ∀ a b, Statement (.gCvtf a b) := fun _ _ _ => rfl
theorem gPack : ∀ a b, Statement (.gPack a b) := fun _ _ _ => rfl
theorem gUnpack : ∀ a b, Statement (.gUnpack a b) := fun _ _ _ => rfl
theorem gExp2 : ∀ a b, Statement (.gExp2 a b) := fun _ _ _ => rfl
theorem gLog2 : ∀ a b, Statement (.gLog2 a b) := fun _ _ _ => rfl
theorem gRcp : ∀ a b, Statement (.gRcp a b) := fun _ _ _ => rfl
theorem gRsqrt : ∀ a b, Statement (.gRsqrt a b) := fun _ _ _ => rfl
theorem gTanh : ∀ a b, Statement (.gTanh a b) := fun _ _ _ => rfl
theorem gErf : ∀ a b, Statement (.gErf a b) := fun _ _ _ => rfl
theorem gRsum : ∀ a b, Statement (.gRsum a b) := fun _ _ _ => rfl
theorem gRmax : ∀ a b, Statement (.gRmax a b) := fun _ _ _ => rfl
theorem gRmin : ∀ a b, Statement (.gRmin a b) := fun _ _ _ => rfl
theorem gRamax : ∀ a b, Statement (.gRamax a b) := fun _ _ _ => rfl
theorem gRssq : ∀ a b, Statement (.gRssq a b) := fun _ _ _ => rfl
theorem gLd : ∀ a b, Statement (.gLd a b) := fun _ _ _ => rfl
theorem gSt : ∀ a b, Statement (.gSt a b) := fun _ _ _ => rfl
theorem gTout : ∀ a b, Statement (.gTout a b) := fun _ _ _ => rfl
theorem gSli : ∀ a b, Statement (.gSli a b) := fun _ _ _ => rfl
theorem gSadd : ∀ a b, Statement (.gSadd a b) := fun _ _ _ => rfl
theorem gSmul : ∀ a b, Statement (.gSmul a b) := fun _ _ _ => rfl
theorem gSfrom : ∀ a b, Statement (.gSfrom a b) := fun _ _ _ => rfl
theorem gSetext : ∀ a b, Statement (.gSetext a b) := fun _ _ _ => rfl
theorem gLoop : ∀ a b, Statement (.gLoop a b) := fun _ _ _ => rfl
theorem gEnd : ∀ a b, Statement (.gEnd a b) := fun _ _ _ => rfl
theorem glazeWordLimit : ∀ a b, Statement (.glazeWordLimit a b) := fun _ _ _ => rfl
theorem gaAdmit : ∀ a b c d, Statement (.gaAdmit a b c d) := by
  intro a b c d h; have h : (decide (a < 4) && decide (d < 4096)) = true := h; exact one_slot (by simp at h; omega)
theorem lossItem : ∀ a b c, Statement (.lossItem a b c) := by
  intro a b c h; have h : (decide (a < 4) && decide (b < 256) && decide (c < 4096)) = true := h; exact one_slot (by simp at h; omega)
theorem cargoCreate : ∀ a b, Statement (.cargoCreate a b) := fun _ _ _ => rfl
theorem cargoFree : ∀ a b, Statement (.cargoFree a b) := fun _ _ _ => rfl
theorem cargoPin : ∀ a b, Statement (.cargoPin a b) := fun _ _ _ => rfl
theorem cargoUnpin : ∀ a b, Statement (.cargoUnpin a b) := fun _ _ _ => rfl
theorem cargoSetActions : ∀ a b, Statement (.cargoSetActions a b) := fun _ _ _ => rfl
theorem cargoFlush : ∀ a b, Statement (.cargoFlush a b) := fun _ _ _ => rfl
theorem cargoMarkOutOfDate : ∀ a b, Statement (.cargoMarkOutOfDate a b) := fun _ _ _ => rfl
theorem cargoCommandDone : ∀ a b, Statement (.cargoCommandDone a b) := fun _ _ _ => rfl
theorem scrubPass : ∀ a b c, Statement (.scrubPass a b c) := fun _ _ _ _ => rfl
theorem writehomeRetry : ∀ a b, Statement (.writehomeRetry a b) := fun _ _ _ => rfl
theorem cargoReadFail : ∀ a b, Statement (.cargoReadFail a b) := fun _ _ _ => rfl
theorem transferIssue : ∀ a, Statement (.transferIssue a) := fun _ _ => rfl
theorem requestIssue : ∀ a b, Statement (.requestIssue a b) := fun _ _ _ => rfl
theorem requestLand : ∀ a b c d, Statement (.requestLand a b c d) := fun _ _ _ _ _ => rfl
theorem writeAcknowledge : ∀ a b c, Statement (.writeAcknowledge a b c) := fun _ _ _ _ => rfl
theorem droverAccess : ∀ a b c d e f g h1 i j, Statement (.droverAccess a b c d e f g h1 i j) := by
  intro a b c d e f g h1 i j h; have h : (decide (a < 256) && decide (b < 2) && decide (c < 16) && decide (d < 4)) = true := h; exact one_slot (by simp at h; omega)
theorem flashPageRead : ∀ a b c, Statement (.flashPageRead a b c) := fun _ _ _ _ => rfl
theorem flashProgram : Statement (.flashProgram) := fun _ => rfl
theorem mapCheckpoint : Statement (.mapCheckpoint) := fun _ => rfl
theorem garbageCollection : Statement (.garbageCollection) := fun _ => rfl
theorem staticWearLevelling : Statement (.staticWearLevelling) := fun _ => rfl
theorem readDisturbRelocation : ∀ a, Statement (.readDisturbRelocation a) := fun _ _ => rfl
theorem blockRetire : ∀ a, Statement (.blockRetire a) := fun _ _ => rfl
theorem bankSample : ∀ a, Statement (.bankSample a) := fun _ _ => rfl
theorem loadTest : Statement (.loadTest) := fun _ => rfl
theorem loadTestNow : ∀ a b, Statement (.loadTestNow a b) := fun _ _ _ => rfl
theorem loadTestDone : ∀ a, Statement (.loadTestDone a) := fun _ _ => rfl
theorem storeAdmit : ∀ a, Statement (.storeAdmit a) := fun _ _ => rfl
theorem inputLow : Statement (.inputLow) := fun _ => rfl
theorem inputLowClear : Statement (.inputLowClear) := fun _ => rfl
theorem inputLoss : ∀ a, Statement (.inputLoss a) := fun _ _ => rfl
theorem inputHigh : ∀ a, Statement (.inputHigh a) := fun _ _ => rfl
theorem inputOvervoltage : Statement (.inputOvervoltage) := fun _ => rfl
theorem overcurrent : Statement (.overcurrent) := fun _ => rfl
theorem holdupQuiesceEnd : Statement (.holdupQuiesceEnd) := fun _ => rfl
theorem holdupProgramDone : Statement (.holdupProgramDone) := fun _ => rfl
theorem powerLossRecord : ∀ a b c, Statement (.powerLossRecord a b c) := fun _ _ _ _ => rfl
theorem laneFail : ∀ a b, Statement (.laneFail a b) := fun _ _ _ => rfl
theorem spareLaneTrained : ∀ a, Statement (.spareLaneTrained a) := fun _ _ => rfl
theorem spareLaneJoin : ∀ a, Statement (.spareLaneJoin a) := fun _ _ => rfl
theorem flitSend : ∀ a b, Statement (.flitSend a b) := fun _ _ _ => rfl
theorem flitReceive : ∀ a b c d e, Statement (.flitReceive a b c d e) := fun _ _ _ _ _ _ => rfl
theorem retryRequest : ∀ a b, Statement (.retryRequest a b) := fun _ _ _ => rfl
theorem linkRetrain : ∀ a, Statement (.linkRetrain a) := fun _ _ => rfl
theorem linkUp : ∀ a, Statement (.linkUp a) := fun _ _ => rfl
theorem identityFrame : ∀ a b c, Statement (.identityFrame a b c) := fun _ _ _ _ => rfl
theorem laneControlFrame : ∀ a b c, Statement (.laneControlFrame a b c) := fun _ _ _ _ => rfl
theorem digestFrame : ∀ a b c, Statement (.digestFrame a b c) := fun _ _ _ _ => rfl
theorem peerAccessFrame : ∀ a b c, Statement (.peerAccessFrame a b c) := fun _ _ _ _ => rfl
theorem sumReport : ∀ a, Statement (.sumReport a) := fun _ _ => rfl
theorem normReport : ∀ a, Statement (.normReport a) := fun _ _ => rfl
theorem ringPartialArrive : ∀ a b c d e, Statement (.ringPartialArrive a b c d e) := by
  intro a b c d e h; have h : (decide (a < 4) && decide (b < 16) && decide (d < 16)) = true := h; exact one_slot (by simp at h; omega)
theorem lateFoldDecide : ∀ a b c d, Statement (.lateFoldDecide a b c d) := by
  intro a b c d h; have h : (decide (a < 4) && decide (b < 16) && decide (d < 16)) = true := h; exact one_slot (by simp at h; omega)
theorem lateTileLand : ∀ a b c d e f g, Statement (.lateTileLand a b c d e f g) := by
  intro a b c d e f g h; have h : (decide (a < 4) && decide (b < 16) && decide (d < 16)) = true := h; exact one_slot (by simp at h; omega)
theorem portModeChipLink : ∀ a b, Statement (.portModeChipLink a b) := fun _ _ _ => rfl
theorem portModeEthernet : ∀ a b c, Statement (.portModeEthernet a b c) := fun _ _ _ _ => rfl
theorem datagramReceive : ∀ a b, Statement (.datagramReceive a b) := fun _ _ _ => rfl
theorem retrainLinkNow : ∀ a b c, Statement (.retrainLinkNow a b c) := fun _ _ _ _ => rfl
theorem backgroundCopy : ∀ a b c, Statement (.backgroundCopy a b c) := by
  intro a b c h; have h : (decide (a < 4)) = true := h; exact one_slot (by simp at h; omega)
theorem buddySend : ∀ a, Statement (.buddySend a) := by
  intro a h; have h : (decide (a < 4)) = true := h; exact one_slot (by simp at h; omega)
theorem buddyReceive : ∀ a b c d e f, Statement (.buddyReceive a b c d e f) := by
  intro a b c d e f h; have h : (decide (a < 32768) && decide (b < 4)) = true := h; exact one_slot (by simp at h; omega)
theorem buddySlotComplete : ∀ a, Statement (.buddySlotComplete a) := by
  intro a h; have h : (decide (a < 4)) = true := h; exact one_slot (by simp at h; omega)
theorem flashCheckpoint : ∀ a, Statement (.flashCheckpoint a) := by
  intro a h; have h : (decide (a < 4)) = true := h; exact one_slot (by simp at h; omega)
theorem restoreRequest : ∀ a b, Statement (.restoreRequest a b) := fun _ _ _ => rfl
theorem restoreStart : ∀ a, Statement (.restoreStart a) := by
  intro a h; have h : (decide (a < 4)) = true := h; exact one_slot (by simp at h; omega)
theorem firmwareHandover : ∀ a b, Statement (.firmwareHandover a b) := fun _ _ _ => rfl
theorem handoverServiceMove : ∀ a, Statement (.handoverServiceMove a) := fun _ _ => rfl
theorem admissionRequest : ∀ a b c, Statement (.admissionRequest a b c) := fun _ _ _ _ => rfl
theorem slotGive : ∀ a, Statement (.slotGive a) := by
  intro a h; have h : (decide (a < 4)) = true := h; exact one_slot (by simp at h; omega)
theorem routeLoad : ∀ a b, Statement (.routeLoad a b) := by
  intro a b h; have h : (decide (a < 4)) = true := h; exact one_slot (by simp at h; omega)
theorem routeResident : ∀ a, Statement (.routeResident a) := by
  intro a h; have h : (decide (a < 4)) = true := h; exact one_slot (by simp at h; omega)
theorem cancelAdmission : ∀ a b c, Statement (.cancelAdmission a b c) := fun _ _ _ _ => rfl
theorem releaseSlot : ∀ a b c, Statement (.releaseSlot a b c) := fun _ _ _ _ => rfl
theorem releaseTakeEffect : ∀ a, Statement (.releaseTakeEffect a) := by
  intro a h; have h : (decide (a < 4)) = true := h; exact one_slot (by simp at h; omega)
theorem requestPost : ∀ a b c d, Statement (.requestPost a b c d) := by
  intro a b c d h; have h : (decide (a < 64) && decide (b < 4)) = true := h; exact one_slot (by simp at h; omega)
theorem coneRelease : ∀ a b, Statement (.coneRelease a b) := by
  intro a b h; have h : (decide (a < 4)) = true := h; exact one_slot (by simp at h; omega)
theorem resultReleaseWrite : ∀ a b c, Statement (.resultReleaseWrite a b c) := by
  intro a b c h; have h : (decide (a < 64) && decide (b < 4)) = true := h; exact one_slot (by simp at h; omega)
theorem refreshCopy : ∀ a, Statement (.refreshCopy a) := fun _ _ => rfl
theorem bankSwap : ∀ a, Statement (.bankSwap a) := by
  intro a h; have h : (decide (a < 4)) = true := h; exact one_slot (by simp at h; omega)
theorem clearCounters : ∀ a b, Statement (.clearCounters a b) := fun _ _ _ => rfl
theorem bootDoorbell : ∀ a b, Statement (.bootDoorbell a b) := fun _ _ _ => rfl
theorem bar4WindowSet : ∀ a b c, Statement (.bar4WindowSet a b c) := fun _ _ _ _ => rfl
theorem bar4Read : ∀ a b c d, Statement (.bar4Read a b c d) := fun _ _ _ _ _ => rfl
theorem bar4Write : ∀ a b c, Statement (.bar4Write a b c) := fun _ _ _ _ => rfl
theorem readRefusedWindows : ∀ a, Statement (.readRefusedWindows a) := fun _ _ => rfl
theorem pcieRetrainNow : ∀ a b, Statement (.pcieRetrainNow a b) := fun _ _ _ => rfl
theorem vfEnable : ∀ a, Statement (.vfEnable a) := fun _ _ => rfl
theorem vfDisable : Statement (.vfDisable) := fun _ => rfl
theorem functionLevelReset : ∀ a, Statement (.functionLevelReset a) := fun _ _ => rfl
theorem pcieLinkDown : Statement (.pcieLinkDown) := fun _ => rfl
theorem powerOnReset : Statement (.powerOnReset) := fun _ => rfl
theorem perst : Statement (.perst) := fun _ => rfl
theorem sysrst : Statement (.sysrst) := fun _ => rfl
theorem watchdogMiss : ∀ a, Statement (.watchdogMiss a) := fun _ _ => rfl
theorem resetFabric : ∀ a, Statement (.resetFabric a) := fun _ _ => rfl
theorem resetWarm : ∀ a, Statement (.resetWarm a) := fun _ _ => rfl
theorem resetCold : ∀ a, Statement (.resetCold a) := fun _ _ => rfl
theorem storeDrainDone : Statement (.storeDrainDone) := fun _ => rfl
theorem resetStretchEnd : ∀ a, Statement (.resetStretchEnd a) := fun _ _ => rfl
theorem thermTrip : ∀ a, Statement (.thermTrip a) := fun _ _ => rfl
theorem thermTripRecover : Statement (.thermTripRecover) := fun _ => rfl
theorem advanceAntiRollback : ∀ a b, Statement (.advanceAntiRollback a b) := fun _ _ _ => rfl
theorem firmwareImageWrite : ∀ a b c d, Statement (.firmwareImageWrite a b c d) := fun _ _ _ _ _ => rfl
theorem imageProgramDone : Statement (.imageProgramDone) := fun _ => rfl
theorem attestationNonce : ∀ a b, Statement (.attestationNonce a b) := fun _ _ _ => rfl
theorem attestationSigned : ∀ a, Statement (.attestationSigned a) := fun _ _ => rfl
theorem cableShort : ∀ a, Statement (.cableShort a) := fun _ _ => rfl
theorem mailboxDoorbell : ∀ a b c, Statement (.mailboxDoorbell a b c) := fun _ _ _ _ => rfl
theorem voaRequestFrame : ∀ a b, Statement (.voaRequestFrame a b) := fun _ _ _ => rfl
theorem managementEchoRequest : ∀ a b, Statement (.managementEchoRequest a b) := fun _ _ _ => rfl
theorem managementLinkUp : Statement (.managementLinkUp) := fun _ => rfl
theorem managementLinkDown : Statement (.managementLinkDown) := fun _ => rfl
theorem autoNegotiationDone : ∀ a, Statement (.autoNegotiationDone a) := fun _ _ => rfl
theorem ethernetPortDown : ∀ a, Statement (.ethernetPortDown a) := fun _ _ => rfl
theorem pcieLinkUp : ∀ a b, Statement (.pcieLinkUp a b) := fun _ _ _ => rfl
theorem perstRelease : Statement (.perstRelease) := fun _ => rfl
theorem msixUnmask : ∀ a b, Statement (.msixUnmask a b) := fun _ _ _ => rfl
theorem selftestDone : ∀ a, Statement (.selftestDone a) := fun _ _ => rfl
theorem coefficientBlockDone : ∀ a, Statement (.coefficientBlockDone a) := by
  intro a h; have h : (decide (a < 4)) = true := h; exact one_slot (by simp at h; omega)
theorem bankExhausted : Statement (.bankExhausted) := fun _ => rfl

end Sys2Proof.Laws.Slots
end

