-- ==== Sys2Proof/Tests/Slice0.lean ====
section
/-! SUPPORT. The model's own tests: a concrete state and operands for the hypotheses of every statement (for each clause of a statement its
own), commands outside the ranges that WellFormed checks, and small tests of meanings, their expected results from the spec's worked
examples, from published check values or by hand from the rule named. -/

set_option Elab.async false
open Sys2Proof Sys2Proof.Machine

namespace Sys2Proof.Tests

/-- The client 0 of the mailbox, with expert level unlocked. -/
def who0 : Who := ⟨0, 0, 0⟩
def expert (s : State) : State := { s with dict := { s.dict with unlocked := [who0] } }

/-- A state with one more object value stored and in use. -/
def withObj (index sub : Nat) (b : Bytes) (s : State) : State :=
  { s with dict := { s.dict with objs := kput s.dict.objs (objKey index sub) b, inUse := kput s.dict.inUse (objKey index sub) b } }

/-- A local training route without stations, of one step of two beats. -/
def plan0 : BeatPlan := { BeatPlan.parse [] with isLocal := true, period := 4096, stepLength := 2, stretchLimit := 4, voidGap := 8, lagLimit := 512 }
def route0 : Route := { Route.parse ⟨none, none, [], none, none, none, 0, none, none, [], [], [], [], [], [], []⟩ 0 0 0 [] with plan := plan0 }
def slot0 : Slot := { Slot.free with state := 2, owner := 0, route := some route0, started := true }

/-- The state after reset with a slot. -/
def withSlot (x : Slot) (s : State) : State := { s with slots := kput s.slots 0 x }
def withLink (l : Nat) (x : Link) (s : State) : State := { s with net := { s.net with links := kput s.net.links l x } }
def upLink : Link := { Link.reset with state := 2, peer := 5, peerLink := 3 }

/-- A key with the exponent 1, so that a signature is its own encoded message: the signature of 32 zero bytes, client 0 and transport 1. -/
def key0 : Bytes := List.replicate 384 255 ++ [0, 0, 0, 1]
def signature0 : Bytes := be 384 0x1e810e4bff2c526e3e04606bbf6c39550d0e8dc896093967399f4fc91b27324973fd982a6ec151338993ad14aa21d8d1af51c56d9a6be3aa651024f86420b5d20b611ff88f142064c6d2de6e6b740b92ba1f5ceebf5c238faba087c8e4aac794827166c45537e289c80aa1dcf8720d0688d90df32715d9822671c0cbc8a9530e6862bcd353d8cbe59e506e715dccb0848b5059c2acf42a29924c015e3a7ec7efcf2a55c762f00c60921b20a1a0c57204af4c6cbaa322cd1fa578f4c41f02a9b1e5de1ce85e459625c3155b85fbe278cd88d377a115cbf385f9bf173857ff293e07909bea212369cb2a813535387f1c4cd66e95297520e24dfea41255e883ec37b0082c168dd2104152a2fc41d7643a81bbbf6270b6243f3b4ba0dc026b90f52c55a7a436410891ef3324bbd309298804d760972744fbbac5180a2c7bcb500c9534e17f4b6f77ab72255e463dc925190eb88557ee27ac7e60125799fca45f422d5f8fe01af85ffcd00e4bcc1feefcfa6ae5d1bff3ff7039c664591c51032bdabc

set_option maxRecDepth 20000
set_option linter.unusedVariables false

theorem signature0_verifies : pssVerify key0 (zeroBytes 32 ++ le 1 0 ++ le 1 1) signature0 = true := by decide +kernel

def running : State := State.reset
def staging1 (s : State) : State := { s with dict := { s.dict with staging := ⟨1, [], 0⟩ } }
def beating (n : Nat) (s : State) : State := { s with beat := { s.beat with state := n } }
/-- Two slots of the fabric's tables: output 0 of array 17 takes lane 0 of its east input. -/
def route1 : Route := { route0 with slotTables := [⟨17, 0, 0, 0, [1]⟩] }

def route2 : Route := { route0 with
  slotTables := [⟨17, 0, 0, 0, [5]⟩], stations := [⟨{ Station.parse [] with place := 17 }, [], [], []⟩], streams := [⟨3, 0, 0, 0, 0, 0, none, none, none, []⟩] }

/-- Client 1 is enrolled with the key and has read its challenge. -/
def challenged : State := withObj 0x2A01 1 [1] (withObj 0x1287 1 [1] (withObj 0x1286 1 (sha256 key0)
  { State.reset with dict := { Dict.reset with challenges := [(1, zeroBytes 32 ++ le 1 0, 0)] }, host := { HostPort.reset with vfs := 1 } }))

/-- An open set, whose expected digest is that of the configuration after its commit. -/
def closable : State := { State.reset with dict := { Dict.reset with
  objs := [(objKey 0x1502 0, le 8 4096), (objKey 0x1503 0, configDigest [])], staging := ⟨1, [], 0⟩ } }

theorem kget_closable (k : Nat) (h : k ≠ objKey 0x1502 0) (h' : k ≠ objKey 0x1503 0) : kget closable.dict.objs k = none := by
  simp [closable, kget, h.symm, h'.symm]

theorem flatMap_same {α β : Type} (f g : α → List β) : ∀ l : List α, (∀ a ∈ l, f a = g a) → l.flatMap f = l.flatMap g
  | [], _ => rfl
  | a :: l, h => by
    rw [List.flatMap_cons, List.flatMap_cons, h a (by simp), flatMap_same f g l fun b hb => h b (by simp [hb])]

theorem closable_digest : configDigest (afterCommit closable) = stored closable 0x1503 0 := by
  have e : afterCommit closable = closable.dict.objs := rfl
  rw [e]
  have v : stored closable 0x1503 0 = configDigest [] := by
    have : (rowOf 0x1503 0).index = 0x1503 := by decide +kernel
    simp [stored, valueIn, closable, kget, objKey, this]
  rw [v]
  unfold configDigest digestRecords
  have f : ∀ r ∈ objRows, inDigest closable.dict.objs r = inDigest [] r := by
    intro r _
    have g : sealedIn closable.dict.objs r.index = sealedIn [] r.index := by
      unfold sealedIn
      split
      · next k _ => rw [kget_closable _ (by unfold objKey; omega) (by unfold objKey; omega)]; simp [kget]
      · rfl
    unfold inDigest; rw [g]
  rw [List.filter_congr (q := fun r => inDigest [] r && (!false || moduleScope r.index)) (fun r h => by rw [f r h])]
  refine congrArg sha256 ?_
  refine flatMap_same _ _ _ fun r hr => flatMap_same _ _ _ fun sub hs => ?_
  have hi : r.index ≠ 0x1502 ∧ r.index ≠ 0x1503 := by
    have := (by decide +kernel : ∀ r ∈ objRows.filter (fun r => inDigest [] r && (!false || moduleScope r.index)), r.index ≠ 0x1502 ∧ r.index ≠ 0x1503)
    exact this r hr
  have hb : sub < 256 := by
    have := (by decide +kernel : ∀ r ∈ objRows, r.last < 256) r (List.mem_filter.mp hr).1
    obtain ⟨h, -⟩ := List.mem_filter.mp hs
    obtain ⟨a, ha, rfl⟩ := List.mem_map.mp h
    have := List.mem_range.mp ha
    omega
  have hk := kget_closable (objKey r.index sub) (by unfold objKey; omega) (by unfold objKey; omega)
  simp [digestRecord, domainDigest, valueIn, hk, kget]


/-! The parts of a small local training route that every load check lets pass: one Wheel station on array 17 with one scalar-emit
operation, a beat plan of eight beats with four sets, one due entry and one span. -/

def loadHead : Bytes := le 1 1 ++ le 1 0 ++ le 1 4 ++ le 1 16 ++ le 4 4096 ++ le 4 0 ++ le 2 8 ++ le 2 0 ++ zeroBytes 32 ++ zeroBytes 16
def loadDirectory : Bytes := zeroBytes 8 ++ le 4 192 ++ le 4 32 ++ le 4 224 ++ le 4 16 ++ zeroBytes 8 ++ le 4 240 ++ le 4 48 ++ zeroBytes 88
def loadSets : Bytes := [0, 1, 2, 3].flatMap (fun k => le 1 k ++ le 1 k ++ le 2 (2 * k) ++ zeroBytes 4)
def loadPipeline : Bytes := le 1 1 ++ le 1 0 ++ le 2 1 ++ le 4 4096 ++ le 4 0 ++ List.replicate 8 255 ++ zeroBytes 12 ++
  (le 1 0 ++ le 1 0x10 ++ le 2 0 ++ le 2 0 ++ le 2 0 ++ le 2 2 ++ zeroBytes 4 ++ le 1 1 ++ zeroBytes 1)
def loadPlan : Bytes := loadHead ++ loadDirectory ++ loadSets ++ (le 2 0 ++ le 2 1 ++ zeroBytes 12) ++ loadPipeline
def loadMap : Bytes := zeroBytes 4 ++ le 2 17 ++ le 2 17 ++ le 1 255 ++ zeroBytes 3 ++ le 1 1 ++ le 1 1 ++ le 1 0 ++ le 1 1
def loadFiring : Bytes := (le 1 8 ++ le 1 0 ++ le 1 1 ++ le 1 1 ++ zeroBytes 60) ++ (zeroBytes 2 ++ le 1 1 ++ zeroBytes 3 ++ le 2 1 ++ zeroBytes 8)
def loadCounter : Bytes := zeroBytes 4 ++ le 2 1 ++ le 2 0 ++ le 2 1 ++ zeroBytes 6
def loadAlloc : Bytes := zeroBytes 136 ++ (zeroBytes 4 ++ le 2 1 ++ zeroBytes 2) ++ zeroBytes 1904
def loadParts : RouteParts :=
  ⟨some loadMap, some loadFiring, [(0, loadCounter)], some [], some [], some loadAlloc, 0, some [], some loadPlan, [], [], [], [], [], [], []⟩

/-- A cargo's attributes: its pages and its tier. A live cargo of client 0 with one page of zeros, in record 0. -/
def attrOf (pages tier : Nat) : Bytes := zeroBytes 16 ++ le 4 pages ++ le 1 tier ++ zeroBytes 43
def cargo0 : Cargo := ⟨1, 0, 0, attrOf 1 1, [⟨0, 1, 0, 0⟩], false⟩
def withCargo (c : Cargo) (s : State) : State := { s with mem := { s.mem with cargoes := kput s.mem.cargoes 0 c } }
/-- A request of client 0 for the image of 4 zero bytes in that cargo, slot 0. -/
def request0 : Bytes := le 4 0 ++ le 4 0 ++ le 4 4 ++ zeroBytes 4 ++ sha256 (zeroBytes 4) ++ zeroBytes 16
def loading : State := withCargo cargo0 (withSlot { Slot.free with state := 1, owner := 0 }
  { State.reset with admissions := [(0, ⟨2, 0, request0, 0, 0⟩)] })

/-- A station on array 17 with a tile queue 0 of two entries, a scalar queue 1 and a join queue 2; streams 3 and 4 lead to it. -/
def queue0 : QueueRec := { QueueRec.parse [] with depth := 2, size := 1 }
def queue1 : QueueRec := { QueueRec.parse [] with queue := 1, kind := 2, depth := 32 }
def queue2 : QueueRec := { QueueRec.parse [] with queue := 2, kind := 1, depth := 2, base := 1, size := 1, spill := 1 }
def opOf (kind outputs : Nat) : OpEntry := { OpEntry.parse [] with kind := kind, window := 1, inputs := [⟨0, 0, 0, 0⟩], outputs := outputs }
def stationA (o : OpEntry) : StationRec := ⟨{ Station.parse [] with place := 17, outputs := 2 }, [o], [queue0, queue1, queue2], []⟩
def stream3 : StreamRow := ⟨3, 0, 0, 0, 0, 0, none, none, none, []⟩
def stream4 : StreamRow := ⟨4, 0, 1, 1, 0, 1, none, none, none, []⟩
def routeA (o : OpEntry) : Route := { route0 with
  stations := [stationA o], streams := [stream3, stream4] }
def header0 (tag : Word) (stream length : Nat) : Bytes := mkHeader tag stream 0 0 0 length ⟨0, false, 1, 1, 1, 1, 1⟩
def entry0 (tag : Word) : Entry := ⟨tag, header0 tag 3 1, 0, 1, [], 1, false, 0, none⟩
def stream0 : StreamState := ⟨1, [], false, [], false⟩
/-- Slot 0 runs a route at an open beat. -/
def onRoute (r : Route) (x : StationState) (s : State) : State :=
  withSlot { slot0 with route := some r, beat := { SlotBeat.idle with phase := 1 }, stations := [(0, x)], train := { Training.none with state := 1 },
                        streams := [(3, stream0), (4, stream0)] } s
/-- Words and flits that have come to the end of a stream's path in slot 0. -/
def brought (array net lane : Nat) (items : List Bytes) (s : State) : State :=
  { s with fab := { s.fab with delivered := kput s.fab.delivered (portKey 0 array net (4 * channels net) lane) items } }
def tile0 (h : Bytes) (s : State) : State := brought 17 0 0 (records 8 h) s
/-- A station that draws a join queue, and the route whose stream 3 leads to it. -/
def joinOp : OpEntry := { opOf 0 1 with inputs := [⟨2, 0, 0, 0xFFFFFFFF⟩] }
def joinStation : StationRec := { stationA joinOp with counters := [{ CounterRec.parse [] with inner := 1, outer := 1 }] }
def joinRoute : Route := { routeA joinOp with stations := [joinStation], streams := [{ stream3 with queue := 2 }, stream4] }
def spilled0 (tag : Word) (address : Nat) : Entry := { entry0 tag with spilled := true, address := address }
def joining (es : List Entry) : State := onRoute joinRoute { StationState.fresh with queues := [(2, es)] } State.reset
def servingA : Route := { routeA (opOf 0 1) with plan := { plan0 with policy := 2, stepLength := 0 } }
/-- A route of slot tables in its open beat, with items that wait at inputs. -/
def switching (r : Route) (lanes : KMap (List Bytes)) : State :=
  withSlot { slot0 with route := some r, beat := { SlotBeat.idle with phase := 1 } } { State.reset with fab := { Fabric.reset with lanes := lanes } }
def edgeRoute : Route := { route0 with
  slotTables := [⟨0, 0, 0, 0, [5]⟩], stations := [⟨{ Station.parse [] with place := 0 }, [], [], []⟩]
  streams := [{ stream3 with peer := some 9 }] }
def staged (words : Nat) : StreamState := { stream0 with staging := [⟨⟨zeroBytes 32, []⟩, words, 0⟩] }
def unitRow0 (merge : Bool) : UnitRow := ⟨17, merge, 0, 0, [3, 4], [3, 4]⟩
def withUnit (number : Nat) (u : UnitState) (s : State) : State := { s with fab := { s.fab with units := kput s.fab.units (unitKey 17 number) u } }
def unitRoute (merge : Bool) : Route := { routeA (opOf 0 1) with units := [unitRow0 merge] }
def tokenRoute (merge : Bool) : Route := { routeA (opOf 9 1) with units := [unitRow0 merge] }
def idleUnit : UnitState := ⟨0, [], [], [], []⟩
/-- A gradient accumulator of array 17 with one source, station 0, and one micro-batch. -/
def ga0 : Bytes := zeroBytes 2 ++ le 2 17 ++ zeroBytes 6 ++ le 1 1 ++ zeroBytes 1 ++ le 2 1 ++ zeroBytes 34
def gaRoute : Route := { routeA (opOf 0 1) with mmos := [{ MmoDesc.parse [] with mode := 2, delivery := 2 }], gas := [ga0] }
def flight0 : Flight := ⟨0, 0, [], none, [], true, []⟩
def fabricRoute : Route := { route0 with plan := { plan0 with isLocal := false }, streams := [⟨3, 0, 0, 0, 0, 0, some 9, none, some 1, [5]⟩] }
def waitingRoute (s : State) : State := withSlot { slot0 with route := some fabricRoute, started := false } s

/-! A Glaze program of one instruction word on array 17, whose slot has the first blocks and pages of the array. -/

def thread0 (w : BitVec 64) : Thread := ⟨0, 0, 0, 0, [w], 0, [], List.replicate 16 0, 16, 128, 0, []⟩
def glazeRoute : Route := { routeA (opOf 1 1) with alloc := List.replicate 18 ⟨16, 0, 4, false⟩ }
def glazing (w : BitVec 64) : State :=
  onRoute glazeRoute StationState.fresh { State.reset with arrays := [(17, { ArrayState.reset with threads := [(0, thread0 w)] })] }
def owned (s : State) : State := modArray 17 (fun x => { x with owners := [(0, 1)] }) s
/-- An instruction word of an opcode, the rest of its bits as given. -/
def wordOf (opcode rest : Nat) : BitVec 64 := BitVec.ofNat 64 (opcode * 2 ^ 58 + rest)
def ctxOf (w : BitVec 64) (s : State) : GCtx := ⟨17, 0, thread0 w, w, routeSetting s 0 0x3201 == 1⟩

theorem witness_Issues : ∀ op : Nat, op < 64 →
    Issues op 17 0 (ctxOf (wordOf op 0) (glazing (wordOf op 0))) (glazing (wordOf op 0)) := by
  intro op h
  have e : ∀ op < 64, gOpcode (wordOf op 0) = op := by decide +kernel
  exact ⟨rfl, rfl, rfl, rfl, e op h, (by decide : (0 : Nat) < 2 ^ 20), rfl, rfl, ⟨(by decide : (16 : Nat) ≤ 16), (by decide : (128 : Nat) ≤ 128)⟩⟩

/-- An MMO of one step in flight on array 17, delivering to output 0. -/
def mmoDesc0 : MmoDesc := { MmoDesc.parse [] with m := 1, n := 1, k := 1, mt := 1, nt := 1, kt := 1 }
def mmo0 (d : MmoDesc) (position : Nat) : Mmo :=
  ⟨0, 0, 0, 0, d, 1, 1, position, 0, 0, false, false, false, false, false, [], [], [], [], [], none, false, none, 0, 0, 0, []⟩
def tiling (m : Mmo) : State :=
  onRoute (routeA (opOf 0 1)) { StationState.fresh with flight := [{ flight0 with finished := false }] }
    { State.reset with arrays := [(17, { ArrayState.reset with mmos := [(0, m)] })] }

/-- A transfer of one row of 64 bytes on the engine of array 17, from or to the cargo of record 0. -/
def desc0 : Descriptor := { Descriptor.parse [] with rows := 1, rowLength := 64, dest := 0xFFFFFFFF, pair := 0xFFFF }
def request (state : Nat) : Request := ⟨0, 0, 64, state, [], 0⟩
def transfer0 (d : Descriptor) (state : Nat) : Transfer := ⟨0, 0, 0, 0, .prefetch 0 false, d, none, [request state], [], 0, false, false, false⟩
def withEngine (queue outstanding : List Transfer) (s : State) : State :=
  withCargo cargo0 { s with engines := [(17, { Engine.reset with queue := queue, outstanding := outstanding })] }
def farCargo : Cargo := { cargo0 with attr := zeroBytes 16 ++ le 4 1 ++ [2, 2] ++ zeroBytes 26, pages := [⟨0, 2, 0, 0⟩] }
def stashedCargo : Cargo := { cargo0 with attr := zeroBytes 16 ++ le 4 1 ++ [3] ++ zeroBytes 27 }
/-- A cargo request of client 0 for record 0; its first byte is the operation's code. -/
def ask0 (attr : Bytes) : Bytes := zeroBytes 16 ++ attr
def attr0 : Bytes := zeroBytes 16 ++ le 4 1 ++ [2, 0, 0, 255] ++ zeroBytes 4 ++ le 4 1 ++ zeroBytes 4 ++ [255, 255, 255, 255] ++ zeroBytes 8
def farAttr : Bytes := zeroBytes 16 ++ le 4 1 ++ [2, 2, 0, 255] ++ zeroBytes 4 ++ le 4 1 ++ [0, 0, 1, 0] ++ [255, 255, 255, 255] ++ zeroBytes 8

/-- A copy of page 0 of the exact cargo in record 0 that has landed, out of date. -/
def copy0 (l : Landing) (waiting : Bool) (refetched : Nat) : CopyRecord := ⟨l, [(0, none)], desc0, 17, 0, refetched, false, waiting⟩
def withCopy (c : CopyRecord) (s : State) : State :=
  withCargo { cargo0 with attr := zeroBytes 16 ++ le 4 1 ++ [0, 1] ++ zeroBytes 26 } { s with mem := { s.mem with copies := [c] } }
/-- A step of an MMO whose operand A comes from a cargo by windows. -/
def windowDesc : MmoDesc := { mmoDesc0 with a := { mmoDesc0.a with kind := 2 } }
def landed0 : Mmo := { mmo0 windowDesc 0 with landed := [(0, 0)] }
def engineAt (t : Transfer) (s : State) : State := { s with engines := [(17, { Engine.reset with queue := [t] })] }
def lossRoute : Route := { routeA (opOf 8 1) with plan := { plan0 with pipeline := zeroBytes 12 ++ le 2 3 ++ zeroBytes 6 ++ le 2 1 } }
def stashBytes : Bytes := le 2 3 ++ zeroBytes 2 ++ le 2 1 ++ zeroBytes 2 ++ le 4 64 ++ zeroBytes 12
def stashRoute : Route := { routeA (opOf 3 1) with stash := [(0, stashBytes)], manifest := [⟨0, 1, true, true, 0, 1, false⟩] }
def reloading : Route := { route0 with imageLength := 4, digest := sha256 (zeroBytes 4) }

/-! States of the supply, of resets, of the host port, of the flash store, and of a VOA session. -/

def power0 (p : Power) : State := { State.reset with power := p }
def find0 : BootFindings := ⟨0, 0, [], [], [], [], false⟩
def resetting (cls : Nat) (drained : Bool) : State := { State.reset with sys := { Sys.reset with resetting := some (cls, 2), drained := drained } }
/-- The PCIe link is up and window 0 of function 0 shows the page of the cargo in record 0. -/
def window0 : Bytes := le 4 0 ++ le 4 0 ++ le 4 1 ++ [3, 0, 0, 0]
def windowed (c : Cargo) : State := withCargo c { State.reset with host := { HostPort.reset with link := 5, windows := [(0, window0)] } }
def bootable : State :=
  { State.reset with sys := { Sys.reset with straps := 8 }, host := { HostPort.reset with module := 0, bootStatus := 4 } }
/-- A frame of one entry that reads 1000.00. -/
def readEntry : Bytes := [1, 0] ++ le 2 0x1000 ++ zeroBytes 6
def mailFrame : Bytes := frameHeader 0 0 0 1 10 0 ++ readEntry
def plainFrame (kind : Nat) : Bytes := frameHeader kind 7 2 1 10 0 ++ readEntry
/-- Its tag under the empty session key. -/
def sessionFrame (kind : Nat) : Bytes :=
  plainFrame kind ++ be 16 (if kind = 0 then 88020279300775097469425235987793173895 else 154009028692584402999502328018559813095)
theorem sessionFrame_tag : sessionTag [] (plainFrame 0) = be 16 88020279300775097469425235987793173895 := by decide +kernel
theorem sessionFrame_tag6 : sessionTag [] (plainFrame 6) = be 16 154009028692584402999502328018559813095 := by decide +kernel
def session0 (last : Nat) : Session := ⟨7, 1, 1, 0, [], [], some last, [], 0⟩
def withSession (last : Nat) : State := { State.reset with dict := { Dict.reset with sessions := [session0 last] } }
def ask1 : Ask := ⟨1, 0x1000, 0, 0, 0, [], false⟩
/-- Set 0 is in use and `n` others are retired. -/
def crowded (n : Nat) : Flash := { Flash.reset with sets := (0, ⟨2, 0, 0, 0⟩) :: (List.range n).map (fun k => (k + 1, ⟨3, 0, 0, 0⟩)) }

theorem crowded_erased (n : Nat) : erasedSets (crowded n) = blockSets - (n + 1) := by
  have e : ((List.range n).map (fun k => (k + 1, (⟨3, 0, 0, 0⟩ : BlockSet)))).filter (fun e => e.2.state != 0) =
      (List.range n).map (fun k => (k + 1, (⟨3, 0, 0, 0⟩ : BlockSet))) := by
    apply List.filter_eq_self.mpr
    intro a h
    obtain ⟨k, -, rfl⟩ := List.mem_map.mp h
    rfl
  unfold erasedSets crowded
  rw [List.filter_cons_of_pos (by decide), e]
  simp

theorem crowded_least (n : Nat) (s : State) (h : s.flash = crowded n) : leastSet s (fun x _ => (validPages s.flash x).length) = some 0 := by
  have e : ((List.range n).map (fun k => (k + 1, (⟨3, 0, 0, 0⟩ : BlockSet)))).filter (fun e => e.2.state == 2) = [] := by
    apply List.filter_eq_nil_iff.mpr
    intro a h
    obtain ⟨k, -, rfl⟩ := List.mem_map.mp h
    exact fun h => nomatch (show false = true from h)
  unfold leastSet
  rw [h]
  unfold crowded
  rw [List.filter_cons_of_pos (by decide), e]
  rfl

/-! Links, flits, ports and requests. -/

def linked (l : Nat) (x : Link) : State := withLink l x State.reset
def flit0 : Flit := ⟨1, true, true, 0, 5, 0, 0, [1], none⟩
def flitFields (sequence : Nat) : Bytes := [0x10, 0] ++ le 2 sequence ++ zeroBytes 10
def flitStart (sequence : Nat) : Bytes := flitFields sequence ++ le 2 (crc16 (flitFields sequence)).toNat
def passRoute : Route := { route0 with linkTables := [⟨0, 5, [9, 255, 255, 255]⟩] }
def takeRoute : Route := { route0 with streams := [⟨3, 0, 0, 0, 0, 0, none, some 9, some 0, [0]⟩] }
/-- A Port record of station 0 with one slot of the ring, on the path given. -/
def port0 (path : Byte) : Bytes := [0, 0, path, 0, 0, 0, 1, 0] ++ zeroBytes 24
def serving (path : Byte) : Route := { route0 with plan := { plan0 with policy := 2, stepLength := 0, ports := [port0 path] } }
def query0 (deadline phase : Nat) : Query := ⟨0, 0, 0, 0, [], 0, deadline, 0, 0, 0, phase, 0, none, none, false, false, false, 0⟩
def serves (path : Byte) (x : Serve) (s : State) : State :=
  withSlot { slot0 with route := some (serving path) } { s with serves := [(0, x)] }
def asked (path : Byte) (q : Query) : State := serves path { Serve.none with requests := [q] } State.reset
def datagram0 (fcs : Bool) : Datagram := ⟨fcs, true, 64, 0, zeroBytes 16, zeroBytes 16, 0, 0, []⟩
def directPort (s : State) : State := withObj 0x2F40 0 [1] (withLink 62 { Link.reset with state := 5, port := 2 } s)
def refresh0 : Bytes := zeroBytes 12 ++ le 4 1 ++ le 4 1 ++ le 4 2 ++ zeroBytes 8

/-! Rings, secure points and restores. -/

/-- A collective record of a group of three with one ring, one piece of 128 elements a chunk, of rank 2, closing at beat 1. -/
def collBytes (op : Byte) : Bytes := [op, 0, 0, 1] ++ le 2 3 ++ le 2 2 ++ le 4 384 ++ zeroBytes 2 ++ le 2 1 ++ zeroBytes 48 ++ zeroBytes 16
def ringRoute (op : Byte) : Route :=
  { route0 with plan := { plan0 with collective := collBytes op, sets := [⟨0, 2, 0⟩] } }
def ringing (op : Byte) (offset : Nat) (t : Training) (q : Coll) (s : State) : State :=
  withSlot { slot0 with route := some (ringRoute op), beat := { SlotBeat.idle with phase := 1, offset := offset }, train := t }
    { s with colls := [(0, q)] }
def steps (step : Nat) : Training := { Training.none with state := 1, step := step }
def held0 (sent : Bool) : HeldPage := ⟨0, 0, false, 0, [], sent, false⟩
def point0 (pages : List HeldPage) : SecurePoint := ⟨1, 0, true, pages, [], [], [], false, false, false, 0, 0⟩
def secured0 : Secured := ⟨1, 4, true, 0, [], [], [], [], none⟩
def securing (x : Secure) (s : State) : State := { s with secures := [(0, x)] }
def kept (s : State) : State := withObj 0x2904 0 (le 8 1) (withObj 0x2901 0 (le 2 5) (withLink 0 upLink s))
def storeCargo : Cargo := { cargo0 with attr := attrOf 4 3, pages := [⟨0, 3, 0, 0⟩, ⟨0, 3, 0, 1⟩, ⟨0, 3, 0, 2⟩, ⟨0, 3, 0, 3⟩] }
def checkpointing : State :=
  withObj 0x290D 0 (le 4 0) (withCargo storeCargo (withSlot slot0 (securing { Secure.none with point := some (point0 [held0 false]) }
    { State.reset with power := { Power.reset with admissible := 100, tested := true } })))
def firstStore : State := (admitStore 0 [1] true checkpointing).1
theorem admitted (n : Nat) (pages : List Nat) (s : State) (h : (admitStore n pages true s).2 = true) :
    admitStore n pages true s = ((admitStore n pages true s).1, true) := Prod.ext rfl h
/-- A handover of core services that has begun, with those that other cores carry and those that have moved. -/
def handing (carriers : List (Nat × Nat)) (moved : List Nat) (count : Nat) (rollback : Option Nat := none) : State :=
  { State.reset with sys := { Sys.reset with handover := 1, carriers := carriers, moved := moved, rollback := rollback }, beat := { Beat.reset with count := count } }
/-- A route with a due entry for every tag, and a transfer of it in a beat of a step. -/
def dueRoute : Route := { route0 with plan := { plan0 with due := [⟨0, 0, 0, 0⟩] } }
def dueServing : Route := { serving 1 with plan := { (serving 1).plan with due := [⟨0, 0, 0, 0⟩] } }
def duing (offset period : Nat) : State :=
  withCargo stashedCargo (withEngine [] [transfer0 desc0 0]
    (withSlot { slot0 with route := some dueRoute, beat := { SlotBeat.idle with phase := 1, offset := offset, period := period } } State.reset))
def farWindow : State :=
  let s := windowed farCargo
  { s with mem := { s.mem with cache := [⟨15, 0, 0, 0, 0, false, false, 0, 0, false, false, true, false, none⟩] } }
/-- Whether a store is admitted depends on the supply, on the flash store and on the values in use. -/
theorem admitStore_snd (n : Nat) (pages : List Nat) (t2 : Bool) (s u : State) (p : u.power = s.power) (y : u.sys = s.sys) (f : u.flash = s.flash)
    (d : u.dict = s.dict) : (admitStore n pages t2 u).2 = (admitStore n pages t2 s).2 := by
  have e (s : State) : (admitStore n pages t2 s).2 = if pages = [] then true else
      !decide (s.flash.state = 2 ∨ (decide (pages.length ≤ admissiblePages s - outstandingPages s.flash) = false ∧ setting s 0x2701 0 = 0)) := by
    unfold admitStore
    dsimp only
    by_cases h : pages = []
    · rw [if_pos h, if_pos h]
    · rw [if_neg h, if_neg h, apply_ite Prod.snd, apply_ite Prod.snd, ite_self]
      split
      · next h => simp_all
      · next h => simp_all; omega
  have a : admissiblePages u = admissiblePages s := by simp only [admissiblePages, powered, p, y]; rfl
  have v : setting u 0x2701 0 = setting s 0x2701 0 := by simp only [setting, inUse, d]
  rw [e, e, f, a, v]

theorem foldl_cache {α : Type} (g : State → α → State) (k : ∀ u x, u.mem.cache = [] → (g u x).mem.cache = []) :
    ∀ (l : List α) (u : State), u.mem.cache = [] → (l.foldl g u).mem.cache = []
  | [], _, h => h
  | x :: l, u, h => foldl_cache g k l _ (k u x h)

theorem writeCargo_cache (i a : Nat) (data : Bytes) (s : State) (h : s.mem.cache = []) : (writeCargo i a data s).mem.cache = [] := by
  unfold writeCargo
  refine foldl_cache _ (fun u x h => ?_) _ _ (foldl_cache _ (fun u x h => ?_) _ _ h)
  · dsimp only
    split
    · rw [h]; rfl
    · exact h
  · unfold copyOnWrite
    refine foldl_cache _ (fun u x h => ?_) _ _ h
    unfold copyHeld
    dsimp only
    split
    · split
      · exact h
      · exact h
    · exact h

/-- The pages of the first checkpoint are written to a cargo whose bytes stand nowhere else, and its header page finds room. -/
theorem stored0 (data : Bytes) (h : data.length = pageBytes) : (writeData 0 pageBytes data firstStore).mem.cache = [] ∧
    (admitStore 0 [0] true (writeData 0 pageBytes data firstStore)).2 = true := by
  have w : writeData 0 pageBytes data firstStore = writeCargo 0 pageBytes data (touchT3 0 1 firstStore) := by
    unfold writeData
    dsimp only
    rw [h]
    rfl
  have k := writeCargo_keeps (M := (· ∉ [Part.mem, .secures])) 0 pageBytes data (Keeps.refl _ (touchT3 0 1 firstStore)) (by simp) (by simp)
  rw [w]
  refine ⟨writeCargo_cache _ _ _ _ (by decide +kernel), ?_⟩
  rw [admitStore_snd 0 [0] true (touchT3 0 1 firstStore) _ (k.parts .power (by simp)) (k.parts .sys (by simp)) (k.parts .flash (by simp)) (k.parts .dict (by simp))]
  decide +kernel

theorem loadedPage : (loadBytes [] (pageAddress 0 0) pageBytes).length = pageBytes := by
  unfold loadBytes
  rw [List.length_map, List.length_range]
theorem second0 : ∃ v, admitStore 0 [0] true (writeData 0 pageBytes (loadBytes [] (pageAddress 0 0) pageBytes) firstStore) = (v, true) :=
  ⟨_, admitted _ _ _ (stored0 _ loadedPage).2⟩
theorem one_page (g : HeldPage × Nat → State → State) (h : HeldPage) (u : State) : [h].zipIdx.foldl (fun s e => g e s) u = g (h, 0) u := rfl
theorem admitted_at {n k a : Nat} {s : State} {d : Bytes} (e : k = 0) (m : n = 0) (w : s = writeData 0 a d firstStore) (b : a = pageBytes)
    (c : d = loadBytes [] (pageAddress 0 0) pageBytes) : admitStore n [k] true s = (second0.choose, true) := by
  rw [e, m, w, b, c]; exact second0.choose_spec
theorem frames_at {a : Nat} {s : State} {d : Bytes} (w : s = writeData 0 a d firstStore) (b : a = pageBytes)
    (c : d = loadBytes [] (pageAddress 0 0) pageBytes) : ∀ f ∈ s.mem.cache, f.dirty = false := by
  rw [w, b, c, (stored0 _ loadedPage).1]; simp

/-! Witnesses: theorem witness_<statement>_<clause>. -/

theorem witness_StepRunsTheFrontCommand_1 :
    ∃ (c : Instr) (rest : List Instr) (s : State),
      s.pending = c :: rest :=
  ⟨.counterCapture, [], { State.reset with pending := [.counterCapture] },
   by decide +kernel⟩

theorem witness_StepsAlwaysAnswerAndTakeOneCommand_2 :
    ∃ (c : Instr) (rest : List Instr) (s t : State),
      s.pending = c :: rest ∧ step s = .next t :=
  ⟨.managementLinkUp, [], { State.reset with pending := [.managementLinkUp] }, _,
   rfl, rfl⟩

theorem witness_StepsAlwaysAnswerAndTakeOneCommand_3 :
    ∃ (s : State),
      s.pending = [] :=
  ⟨State.reset,
   by decide +kernel⟩

theorem witness_EveryStepKeepsTheInvariant_1 :
    ∃ (s t : State),
      s.Inv ∧ step s = .next t :=
  ⟨State.reset, _,
   ⟨rfl, rfl, (fun _ h => nomatch h), by decide, (fun _ h => nomatch h), (fun _ h => nomatch h), (fun _ h => nomatch h), (fun _ h => nomatch h), (fun _ h => nomatch h), (fun _ h => nomatch h), (fun _ h => nomatch h)⟩,
   rfl⟩

theorem witness_CommandsTouchOnlyTheirParts_1 :
    ∃ (c : Instr) (s t : State),
      exec c s = .next t :=
  ⟨.counterCapture, State.reset, _,
   rfl⟩

theorem witness_BeatOpenStartsTheNextBeat_1 :
    ∃ (s : State),
      firmwareRuns s = true :=
  ⟨State.reset,
   by decide +kernel⟩

theorem witness_BeatOpenStartsTheNextBeat_2 :
    ∃ (k : Nat) (r : Route) (s : State),
      routeOf s k = some r ∧ alive s = true ∧ (slotOf s k).started = true ∧ mayOpen s k r = true :=
  ⟨0, route0, withSlot slot0 State.reset,
   by decide +kernel⟩

theorem witness_MarksAreAcceptedByTerm_1 :
    ∃ (link : Nat) (p : Bytes) (s : State),
      let count := field p 0 8
      let device := field p 8 2
      let term := field p 28 4
      let mine := s.beat.state = 0 ∨ s.beat.term < term ∨ (term = s.beat.term ∧ (s.beat.sender = some device ∨ (s.beat.state = 3 ∧ device < deviceNumber s)))
      firmwareRuns s = true ∧ linkIsUp s link = true ∧ (link = setting s 0x110C 0 ∨ link = setting s 0x110C 1) ∧ field p 26 1 ≤ 13 ∧
      p.length = 32 + 16 * field p 26 1 ∧ ¬ mine :=
  ⟨0, le 8 9 ++ le 2 7 ++ zeroBytes 18 ++ le 4 0,
   withLink 0 upLink (beating 1 { State.reset with beat := { Beat.reset with term := 1 } }),
   by decide +kernel⟩

theorem witness_MarksAreAcceptedByTerm_2 :
    ∃ (link : Nat) (p : Bytes) (s : State),
      let count := field p 0 8
      let device := field p 8 2
      let term := field p 28 4
      let mine := s.beat.state = 0 ∨ s.beat.term < term ∨ (term = s.beat.term ∧ (s.beat.sender = some device ∨ (s.beat.state = 3 ∧ device < deviceNumber s)))
      firmwareRuns s = true ∧ linkIsUp s link = true ∧ (link = setting s 0x110C 0 ∨ link = setting s 0x110C 1) ∧ field p 26 1 ≤ 13 ∧
      p.length = 32 + 16 * field p 26 1 ∧ mine ∧ s.beat.state ≠ 0 ∧ count < s.beat.count :=
  ⟨0, le 8 8 ++ le 2 7 ++ zeroBytes 18 ++ le 4 2,
   withLink 0 upLink (beating 1 { State.reset with beat := { Beat.reset with term := 1, count := 9 } }),
   by decide +kernel⟩

theorem witness_MarksAreAcceptedByTerm_3 :
    ∃ (link : Nat) (p : Bytes) (s : State),
      let count := field p 0 8
      let device := field p 8 2
      let term := field p 28 4
      let mine := s.beat.state = 0 ∨ s.beat.term < term ∨ (term = s.beat.term ∧ (s.beat.sender = some device ∨ (s.beat.state = 3 ∧ device < deviceNumber s)))
      firmwareRuns s = true ∧ linkIsUp s link = true ∧ (link = setting s 0x110C 0 ∨ link = setting s 0x110C 1) ∧ field p 26 1 ≤ 13 ∧
      p.length = 32 + 16 * field p 26 1 ∧ mine ∧ (s.beat.state = 0 ∨ s.beat.count ≤ count) :=
  ⟨0, le 8 9 ++ le 2 7 ++ zeroBytes 18 ++ le 4 2,
   withLink 0 upLink (beating 1 { State.reset with beat := { Beat.reset with term := 1, count := 9 } }),
   by decide +kernel⟩

theorem witness_MarksTimeOutAndLinksAreMeasured_1 :
    ∃ (s : State),
      firmwareRuns s = true ∧ s.beat.state = 0 ∧ 32 ≤ s.beat.sinceReset ∧ deviceNumber s = setting s 0x1104 0 :=
  ⟨withObj 0x1104 0 (le 2 0) (withObj 0x2805 0 (le 2 0) { State.reset with beat := { Beat.reset with sinceReset := 32 } }),
   by decide +kernel⟩

theorem witness_MarksTimeOutAndLinksAreMeasured_2 :
    ∃ (s : State),
      firmwareRuns s = true ∧ s.beat.state ≠ 3 ∧ 8 ≤ s.beat.silent ∧ s.beat.switched = false :=
  ⟨{ State.reset with beat := { Beat.reset with state := 1, silent := 8 } },
   by decide +kernel⟩

theorem witness_MarksTimeOutAndLinksAreMeasured_3 :
    ∃ (s : State),
      firmwareRuns s = true ∧ (s.beat.state = 1 ∨ s.beat.state = 2) ∧ 32 ≤ s.beat.silentBoth ∧ s.beat.heard = true :=
  ⟨{ State.reset with beat := { Beat.reset with state := 2, silentBoth := 32, heard := true } },
   by decide +kernel⟩

theorem witness_MarksTimeOutAndLinksAreMeasured_4 :
    ∃ (s : State),
      firmwareRuns s = true ∧ s.beat.state = 1 ∧ s.beat.heard = false ∧ 1024 ≤ s.beat.masterless :=
  ⟨{ State.reset with beat := { Beat.reset with state := 1, masterless := 1024 } },
   by decide +kernel⟩

theorem witness_MarksTimeOutAndLinksAreMeasured_5 :
    ∃ (l : Nat) (s : State),
      firmwareRuns s = true ∧ linkIsUp s l = true :=
  ⟨0, withLink 0 upLink State.reset,
   by decide +kernel⟩

theorem witness_MarksTimeOutAndLinksAreMeasured_6 :
    ∃ (l : Nat) (s : State),
      firmwareRuns s = true ∧ linkIsUp s l = true :=
  ⟨63, withLink 63 upLink State.reset,
   by decide +kernel⟩

theorem witness_MarksTimeOutAndLinksAreMeasured_7 :
    ∃ (l sent : Nat) (s : State),
      firmwareRuns s = true ∧ kget s.beat.probes l = some sent :=
  ⟨0, 5, { State.reset with clock := 9, beat := { Beat.reset with probes := [(0, 5)] } },
   by decide +kernel⟩

theorem witness_MarksTimeOutAndLinksAreMeasured_8 :
    ∃ (l : Nat) (ns : List VoidNotice) (q : Option Nat) (s : State),
      firmwareRuns s = true ∧ linkIsUp s l = true :=
  ⟨0, [], none, withLink 0 upLink State.reset,
   by decide +kernel⟩

theorem witness_MarksTimeOutAndLinksAreMeasured_9 :
    ∃ (add start : Nat) (s : State),
      let b := { s.beat with governed := add, announced := (add, start) :: s.beat.announced.filter (fun e => s.beat.count < e.2) }
      firmwareRuns s = true ∧ ((s.beat.announced.filter (fun e => e.2 ≤ s.beat.count)).getLast? = some (add, start)) ∧
      s.clock ≠ s.beat.opened :=
  ⟨64, 3, { State.reset with beat := { Beat.reset with count := 3, opened := 1, announced := [(64, 3)] } },
   by decide +kernel⟩

theorem witness_MarksTimeOutAndLinksAreMeasured_10 :
    ∃ (add start : Nat) (s : State),
      let b := { s.beat with governed := add, announced := (add, start) :: s.beat.announced.filter (fun e => s.beat.count < e.2) }
      firmwareRuns s = true ∧ ((s.beat.announced.filter (fun e => e.2 ≤ s.beat.count)).getLast? = some (add, start)) ∧
      s.clock = s.beat.opened :=
  ⟨64, 3, { State.reset with beat := { Beat.reset with count := 3, announced := [(64, 3)] } },
   by decide +kernel⟩

theorem witness_CloseWindowFixesAndReportsTheDueSet_1 :
    ∃ (k : Nat) (r : Route) (s : State),
      routeOf s k = some r ∧ (slotOf s k).beat.phase = 1 ∧ alive s = true :=
  ⟨0, route0, withSlot { slot0 with beat := { SlotBeat.idle with phase := 1 } } State.reset,
   by decide +kernel⟩

theorem witness_CloseWindowFixesAndReportsTheDueSet_2 :
    ∃ (k : Nat) (r : Route) (s : State),
      routeOf s k = some r ∧ (slotOf s k).beat.phase = 2 ∧ alive s = true :=
  ⟨0, route0, withSlot { slot0 with beat := { SlotBeat.idle with phase := 2 } } State.reset,
   by decide +kernel⟩

theorem witness_VerdictsVoidCommitAndReplay_1 :
    ∃ (k : Nat) (r : Route) (s : State),
      routeOf s k = some r ∧ (slotOf s k).beat.phase = 3 ∧ alive s = true ∧ r.training = true ∧ (slotOf s k).train.state = 1 ∧
      (slotOf s k).beat.faults = [] ∧ k ∉ s.fab.stopped ∧ (slotOf s k).beat.stopping = [] ∧ (secureOf s k).checking = none ∧
      (slotOf s k).train.voided = none ∧ (slotOf s k).train.lossPending = false ∧ (slotOf s k).train.normPending = false ∧
      (slotOf s k).beat.late = true ∧ r.plan.policy = 0 ∧ (slotOf s k).beat.increments < r.plan.stretchLimit ∧
      (r.fabric = true ∨ shared s r = true → (slotOf s k).beat.lag + 64 ≤ r.plan.lagLimit) :=
  ⟨0, route0,
   withSlot { slot0 with beat := { SlotBeat.idle with phase := 3, late := true, offset := 0 }, train := { Training.none with state := 1 }, route := some { route0 with plan := { plan0 with policy := 0 } } } State.reset,
   by decide +kernel⟩

theorem witness_VerdictsVoidCommitAndReplay_2 :
    ∃ (k : Nat) (r : Route) (s : State),
      routeOf s k = some r ∧ (slotOf s k).beat.phase = 3 ∧ alive s = true ∧ r.training = true ∧ (slotOf s k).train.state = 1 ∧
      (slotOf s k).beat.faults = [] ∧ k ∉ s.fab.stopped ∧ (slotOf s k).beat.stopping = [] ∧ (secureOf s k).checking = none ∧
      (slotOf s k).train.voided = none ∧ (slotOf s k).train.lossPending = false ∧ (slotOf s k).train.normPending = false ∧
      (slotOf s k).beat.late = true ∧ r.plan.policy ≠ 0 ∧ phaseOf s k r ≠ 3 ∧ (slotOf s k).train.attempt + 1 < routeSetting s k 0x2302 :=
  ⟨0, { route0 with plan := { plan0 with policy := 1 } },
   withSlot { slot0 with beat := { SlotBeat.idle with phase := 3, late := true, offset := 0 }, train := { Training.none with state := 1 }, route := some { route0 with plan := { plan0 with policy := 1 } } } State.reset,
   by decide +kernel⟩

theorem witness_VerdictsVoidCommitAndReplay_3 :
    ∃ (k : Nat) (r : Route) (s : State),
      routeOf s k = some r ∧ (slotOf s k).beat.phase = 3 ∧ alive s = true ∧ r.training = true ∧ (slotOf s k).train.state = 1 ∧
      (slotOf s k).beat.faults = [] ∧ k ∉ s.fab.stopped ∧ (slotOf s k).beat.stopping = [] ∧ (secureOf s k).checking = none ∧
      (slotOf s k).train.voided = none ∧ (slotOf s k).train.lossPending = false ∧ (slotOf s k).train.normPending = false ∧
      (slotOf s k).beat.late = false ∧ (slotOf s k).beat.offset + 1 = r.plan.stepLength :=
  ⟨0, route0,
   withSlot { slot0 with beat := { SlotBeat.idle with phase := 3, late := false, offset := 1 }, train := { Training.none with state := 1 }, route := some { route0 with plan := { plan0 with policy := 0 } } } State.reset,
   by decide +kernel⟩

theorem witness_VerdictsVoidCommitAndReplay_4 :
    ∃ (k : Nat) (r : Route) (s : State),
      routeOf s k = some r ∧ (slotOf s k).beat.phase = 3 ∧ alive s = true ∧ r.training = true ∧ (slotOf s k).train.state = 1 ∧
      (slotOf s k).beat.faults = [] ∧ k ∉ s.fab.stopped ∧ (slotOf s k).beat.stopping = [] ∧ (secureOf s k).checking = none ∧
      (slotOf s k).train.voided = none ∧ (slotOf s k).train.lossPending = false ∧ (slotOf s k).train.normPending = false ∧
      (slotOf s k).beat.late = false ∧ (slotOf s k).beat.offset + 1 ≠ r.plan.stepLength :=
  ⟨0, route0,
   withSlot { slot0 with beat := { SlotBeat.idle with phase := 3, late := false, offset := 0 }, train := { Training.none with state := 1 }, route := some { route0 with plan := { plan0 with policy := 0 } } } State.reset,
   by decide +kernel⟩

theorem witness_VerdictsVoidCommitAndReplay_5 :
    ∃ (k v : Nat) (r : Route) (s : State),
      routeOf s k = some r ∧ (slotOf s k).train.replayBeat = some v ∧ (slotOf s k).train.state = 2 ∧ v ≤ routeCount s k r ∧
      (slotOf s k).beat.phase = 1 ∧ s.clock = (slotOf s k).beat.opened ∧ alive s = true :=
  ⟨0, 4, route0,
   withSlot { slot0 with beat := { SlotBeat.idle with phase := 1, count := 4 }, train := { Training.none with state := 2, replayBeat := some 4 } } State.reset,
   by decide +kernel⟩

theorem witness_EventsAreRecordedAndCountersCaptured_1 :
    ∃ (code : Nat) (p : At) (detail : Bytes) (s : State),
      detail.length ≤ 12 :=
  ⟨1, nowhere, zeroBytes 12, State.reset,
   by decide +kernel⟩

theorem witness_EventsAreRecordedAndCountersCaptured_3 :
    ∃ (s : State),
      firmwareRuns s = true ∧ s.beat.count % max 1 (setting s 0x3C01 0) = 0 :=
  ⟨State.reset,
   by decide +kernel⟩

theorem witness_EventsAreRecordedAndCountersCaptured_4 :
    ∃ (s : State),
      firmwareRuns s = true ∧ s.beat.count % max 1 (setting s 0x3C01 0) ≠ 0 :=
  ⟨withObj 0x3C01 0 (le 2 2) { State.reset with beat := { Beat.reset with count := 1 } },
   by decide +kernel⟩

theorem witness_EntriesReadWriteOrStage_1 :
    ∃ (who : Who) (index sub length : Nat) (flag : Bool) (s : State),
      let v := (if flag = true ∧ (rowOf index sub).access = .rwe then stagedValue s index sub else none).getD (objValue s who index sub)
      Passes who ⟨1, index, sub, 0, length, [], flag⟩ s ∧ index ≠ 0x1281 ∧ index ≠ 0x1411 ∧ v.length ≤ 1024 :=
  ⟨who0, 0x1100, 0, 0, false, State.reset,
   ⟨by decide +kernel, by decide +kernel, by decide +kernel, by decide +kernel, by decide +kernel⟩, by decide +kernel⟩

theorem witness_EntriesReadWriteOrStage_2 :
    ∃ (who : Who) (index sub offset length : Nat) (flag : Bool) (s : State),
      let d := ((if flag = true ∧ (rowOf index sub).access = .rwe then stagedValue s index sub else none).map Domain.of).getD (domainOf s who.client index sub)
      Passes who ⟨3, index, sub, offset, length, [], flag⟩ s ∧ offset ≤ d.length ∧
      (d.bytes offset (min length (d.length - offset))).length ≤ 1024 :=
  ⟨who0, 0x2F42, 63, 15, 1, false, State.reset,
   ⟨by decide +kernel, by decide +kernel, by decide +kernel, by decide +kernel, by decide +kernel⟩, by decide +kernel⟩

theorem witness_EntriesReadWriteOrStage_3 :
    ∃ (who : Who) (index sub : Nat) (b : Bytes) (s : State),
      Passes who (writeOf index sub b) s ∧ index ≠ 0x1410 ∧ index ≠ 0x1420 ∧
      ((rowOf index sub).access = .rw ∨ (rowOf index sub).access = .rwf) ∧ chapterStatus s index sub b = stOk :=
  ⟨who0, 0x1304, 0, le 1 90, expert State.reset,
   ⟨by decide +kernel, by decide +kernel, by decide +kernel, by decide +kernel, by decide +kernel⟩, by decide +kernel⟩

theorem witness_EntriesReadWriteOrStage_4 :
    ∃ (who : Who) (index sub : Nat) (b : Bytes) (s : State),
      Passes who (writeOf index sub b) s ∧ (rowOf index sub).access = .rwe ∧ index ≠ 0x1410 ∧ index ≠ 0x1420 ∧
      chapterStatus s index sub b = stOk ∧ s.dict.staging.state = 1 ∧
      ((kget s.dict.staging.values (objKey index sub)).isSome = true ∨ s.dict.staging.values.length < 1024) ∧
      (rowOf index sub).ty ≠ .domain :=
  ⟨who0, 0x2301, 0, [1], staging1 (expert State.reset),
   ⟨by decide +kernel, by decide +kernel, by decide +kernel, by decide +kernel, by decide +kernel⟩, by decide +kernel⟩

theorem witness_EntriesReadWriteOrStage_5 :
    ∃ (who : Who) (index sub offset : Nat) (b v : Bytes) (s : State),
      let a : Ask := ⟨4, index, sub, offset, b.length, b, false⟩
      let others := s.dict.partials.filter (fun p => !(p.who == who && p.key == objKey index sub))
      Passes who a s ∧ assembled s who a = some v ∧ v.length ≤ domainLimit (rowOf index sub) ∧ index ≠ 0x1220 ∧
      ((rowOf index sub).access = .rwe → s.dict.staging.state = 1) :=
  ⟨who0, 0x6401, 0, 0, [1], [1], staging1 (expert State.reset),
   ⟨by decide +kernel, by decide +kernel, by decide +kernel, by decide +kernel, by decide +kernel⟩, by decide +kernel⟩

theorem witness_EntriesReadWriteOrStage_6 :
    ∃ (who : Who) (index sub offset : Nat) (b v : Bytes) (s : State),
      let a : Ask := ⟨5, index, sub, offset, b.length, b, false⟩
      reaches s who = true ∧ entryStatus s who a = stOk ∧ notServed s index = false ∧ assembled s who a = some v ∧
      valueLegal (rowOf index sub) v = true ∧ v.length ≤ domainLimit (rowOf index sub) ∧ lengthLegal (rowOf index sub) v = true ∧
      (rowOf index sub).access = .rw ∧ index ≠ 0x1410 ∧ index ≠ 0x1420 ∧ index ≠ 0x1220 ∧ chapterStatus (begun who a s) index sub v = stOk :=
  ⟨who0, 0x2F42, 63, 0, zeroBytes 16, zeroBytes 16, State.reset,
   by decide +kernel⟩

theorem witness_EntriesReadWriteOrStage_7 :
    ∃ (who : Who) (index sub : Nat) (b : Bytes) (s : State),
      reaches s who = true ∧ entryStatus s who (writeOf index sub b) ≠ stOk :=
  ⟨who0, 0x1000, 0, [], State.reset,
   by decide +kernel⟩

theorem witness_SessionsAndExpertLevelAreUnlockedByProof_1 :
    ∃ (conn transport client : Nat) (key : Bytes) (s : State),
      firmwareRuns s = true ∧ (transport = 1 ∨ transport = 2) ∧ s.dict.sessions.length < 16 ∧ sha256 key = stored s 0x1286 client ∧
      client < 64 ∧ stored s 0x2A01 client = [1] :=
  ⟨7, 1, 0, [], withObj 0x1286 0 (sha256 []) State.reset,
   by decide +kernel, by decide +kernel, by decide +kernel, rfl, by decide +kernel⟩

theorem witness_SessionsAndExpertLevelAreUnlockedByProof_2 :
    ∃ (conn : Nat) (signature : Bytes) (o : Opening) (s : State),
      firmwareRuns s = true ∧ (s.dict.openings.find? (fun o => o.conn == conn) = some o) ∧ s.dict.sessions.length < 16 ∧
      pssVerify o.owner (o.nonce ++ le 1 o.client ++ le 1 o.transport) signature = true ∧ stored s 0x2A01 o.client = [1] :=
  ⟨7, signature0, ⟨7, 1, 0, key0, zeroBytes 32⟩,
   { State.reset with dict := { Dict.reset with openings := [⟨7, 1, 0, key0, zeroBytes 32⟩] } },
   by decide +kernel, by decide +kernel, by decide +kernel, signature0_verifies, by decide +kernel⟩

theorem witness_SessionsAndExpertLevelAreUnlockedByProof_3 :
    ∃ (id : Nat) (s : State),
      firmwareRuns s = true :=
  ⟨1, State.reset,
   by decide +kernel⟩

theorem witness_SessionsAndExpertLevelAreUnlockedByProof_4 :
    ∃ (x : Session) (s : State),
      firmwareRuns s = true ∧ x ∈ s.dict.sessions ∧ x.lastFrame + setting s 0x1288 0 * 1700000000 ≤ s.clock :=
  ⟨⟨1, 7, 1, 0, [], [], none, [], 0⟩,
   withObj 0x1288 0 (le 2 1) { State.reset with clock := 1700000000, dict := { Dict.reset with sessions := [⟨1, 7, 1, 0, [], [], none, [], 0⟩] } },
   by decide +kernel⟩

theorem witness_SessionsAndExpertLevelAreUnlockedByProof_5 :
    ∃ (who : Who) (s : State),
      Passes who (readOf 0x1281 0) s :=
  ⟨who0, State.reset,
   ⟨by decide +kernel, by decide +kernel, by decide +kernel, by decide +kernel, by decide +kernel⟩⟩

theorem witness_SessionsAndExpertLevelAreUnlockedByProof_6 :
    ∃ (who : Who) (b c : Bytes) (issued : Nat) (s : State),
      Passes who (lastOf 0x1282 0 b) s ∧ kget s.dict.challenges who.client = some (c, issued) ∧ s.clock ≤ issued + 10 * 1700000000 ∧
      sha256 (b.take 388) = stored s 0x1286 who.client ∧ stored s 0x1287 who.client = [1] ∧
      ((who.transport = 1 ∨ who.transport = 2) → ∃ x ∈ s.dict.sessions, x.id = who.session ∧ x.owner = b.take 388) ∧
      pssVerify (b.take 388) (c ++ le 1 who.client) (b.drop 388) = true ∧ who ∉ s.dict.unlocked :=
  ⟨⟨1, 0, 0⟩, key0 ++ signature0, zeroBytes 32 ++ le 1 0, 0, challenged,
   ⟨by decide +kernel, by decide +kernel, by decide +kernel, by decide +kernel, by decide +kernel⟩, by decide +kernel, by decide +kernel,
   rfl, by decide +kernel, by decide +kernel, signature0_verifies, by decide +kernel⟩

theorem witness_SessionsAndExpertLevelAreUnlockedByProof_7 :
    ∃ (who : Who) (b : Bytes) (s : State),
      Passes who (writeOf 0x1284 0 b) s :=
  ⟨who0, [1], State.reset,
   ⟨by decide +kernel, by decide +kernel, by decide +kernel, by decide +kernel, by decide +kernel⟩⟩

theorem witness_DefaultsAreRestoredAndStaged_1 :
    ∃ (who : Who) (both : Bool) (s : State),
      let v : Bytes := if both then [2] else [1]
      Passes who (writeOf 0x1285 0 v) s ∧ s.dict.staging.state = 1 ∧ (∀ k ∈ slotNumbers, (slotOf s k).state = 0) ∧
      leNat (dfltBytes (rowOf 0x2503 0) 0) ≤ cacheCapacity s ∧
      ((((restorable both s).filter (fun e => e.1.access == .rwe)).foldl (fun m e => kput m (objKey e.1.index e.2) (dfltBytes e.1 e.2)) s.dict.staging.values).length ≤ 1024) :=
  ⟨who0, true, staging1 (expert State.reset),
   ⟨by decide +kernel, by decide +kernel, by decide +kernel, by decide +kernel, by decide +kernel⟩, by decide +kernel⟩

theorem witness_StagingSetsCloseAndComeIntoForce_1 :
    ∃ (who : Who) (s : State),
      Passes who (writeOf 0x1501 0 [1]) s ∧ s.dict.staging.state = 0 :=
  ⟨who0, State.reset,
   ⟨by decide +kernel, by decide +kernel, by decide +kernel, by decide +kernel, by decide +kernel⟩, by decide +kernel⟩

theorem witness_StagingSetsCloseAndComeIntoForce_2 :
    ∃ (who : Who) (s : State),
      Passes who (writeOf 0x1501 0 [2]) s ∧ s.dict.staging.state = 1 ∧ s.beat.count + 4096 ≤ leNat (stored s 0x1502 0) ∧
      stagedRefused s = false ∧ configDigest (afterCommit s) = stored s 0x1503 0 :=
  ⟨who0, closable,
   ⟨by decide +kernel, by decide +kernel, by decide +kernel, by decide +kernel, by decide +kernel⟩, by decide +kernel, by decide +kernel,
   by decide +kernel, closable_digest⟩

theorem witness_StagingSetsCloseAndComeIntoForce_3 :
    ∃ (who : Who) (s : State),
      Passes who (writeOf 0x1501 0 [3]) s ∧
      (s.dict.staging.state = 1 ∨ (s.dict.staging.state = 2 ∧ s.beat.count + 1024 ≤ s.dict.staging.commit)) :=
  ⟨who0, staging1 State.reset,
   ⟨by decide +kernel, by decide +kernel, by decide +kernel, by decide +kernel, by decide +kernel⟩, by decide +kernel⟩

theorem witness_StagingSetsCloseAndComeIntoForce_4 :
    ∃ (who : Who) (a : Nat) (s : State),
      Passes who (writeOf 0x2004 a [1]) s ∧ s.dict.staging.state = 1 ∧ s.dict.staging.values.length < 1024 ∧
      siteFailed s (256 + clusterOf a) = false ∧ spareTaken s a = false :=
  ⟨who0, 5, staging1 (expert State.reset),
   ⟨by decide +kernel, by decide +kernel, by decide +kernel, by decide +kernel, by decide +kernel⟩, by decide +kernel⟩

theorem witness_StagingSetsCloseAndComeIntoForce_5 :
    ∃ (who : Who) (a : Nat) (s : State),
      Passes who (writeOf 0x2004 a [0]) s ∧ s.dict.staging.state = 1 ∧ s.dict.staging.values.length < 1024 ∧ siteFailed s a = false :=
  ⟨who0, 5, staging1 (expert State.reset),
   ⟨by decide +kernel, by decide +kernel, by decide +kernel, by decide +kernel, by decide +kernel⟩, by decide +kernel⟩

theorem witness_StagingSetsCloseAndComeIntoForce_6 :
    ∃ (s : State),
      s.dict.staging.state = 2 ∧ firmwareRuns s = true ∧ s.clock = s.beat.opened ∧
      (s.beat.before < s.dict.staging.commit ∧ s.dict.staging.commit ≤ s.beat.count ∨ s.sys.lateSet = true ∧ s.beat.state ≠ 0 ∧ s.dict.staging.commit < s.beat.count) ∧
      (∀ e ∈ s.dict.staging.values, e.1 / 256 ≠ 0x2984) :=
  ⟨{ State.reset with dict := { Dict.reset with staging := ⟨2, [], 1⟩ }, beat := { Beat.reset with count := 1 } },
   by decide +kernel⟩

theorem witness_StagingSetsCloseAndComeIntoForce_7 :
    ∃ (p : RepairSet) (rest : List RepairSet) (s : State),
      s.fab.repairs = p :: rest ∧ s.clock = s.beat.opened ∧ s.beat.before < p.commit ∧ p.commit ≤ s.beat.count :=
  ⟨⟨1, [3]⟩, [], { State.reset with fab := { Fabric.reset with repairs := [⟨1, [3]⟩] }, beat := { Beat.reset with count := 1 } },
   by decide +kernel⟩

theorem witness_SlotTablesForwardItems_1 :
    ∃ (array net port : Nat) (corrected lost : Bool) (s : State),
      (∀ e ∈ residents s, entryAt s e.1 e.2 array net port (slotIndex s e.1) % 16 = 0 ∨ (slotOf s e.1).beat.phase = 0 ∨ (net = 2 ∧ controlClosed s e.1 = true)) ∧
      (corrected = true → lost = true) :=
  ⟨17, 0, 0, false, false, State.reset,
   by decide +kernel⟩

theorem witness_SlotTablesForwardItems_2 :
    ∃ (array net port slot n : Nat) (r : Route) (s : State),
      let lane := n / 16
      let ps := (portsOf net).filter (fun p => entryAt s slot r array net p (slotIndex s slot) == n)
      let ts := ps.map (fun p => targetOf slot array net p lane)
      let inside := ∀ p ∈ ps, localOutput net p = true ∨ (neighbour array (direction net p)).isSome = true
      slotRead s array net port = some (slot, r, n) ∧ alive s = true ∧ inputItem s slot r array net (n % 16) lane = none :=
  ⟨17, 0, 0, 0, 1, route1, switching route1 [],
   by decide +kernel⟩

theorem witness_SlotTablesForwardItems_3 :
    ∃ (array net port slot n : Nat) (r : Route) (s : State) (x : _),
      let lane := n / 16
      let ps := (portsOf net).filter (fun p => entryAt s slot r array net p (slotIndex s slot) == n)
      let ts := ps.map (fun p => targetOf slot array net p lane)
      let inside := ∀ p ∈ ps, localOutput net p = true ∨ (neighbour array (direction net p)).isSome = true
      slotRead s array net port = some (slot, r, n) ∧ alive s = true ∧ inputItem s slot r array net (n % 16) lane = some x ∧
      (∃ y ∈ ts, hasRoom s y = false) :=
  ⟨17, 0, 0, 0, 1, route1, switching route1 (kput [(laneKey 17 0 1 0, [[1]])] (laneKey 1 0 (arrivalInput 0 0) 0) (List.replicate 4 [])),
   (none, [1]),
   by decide +kernel⟩

theorem witness_SlotTablesForwardItems_4 :
    ∃ (array net port slot n : Nat) (r : Route) (s : State) (item : _),
      let lane := n / 16
      let ps := (portsOf net).filter (fun p => entryAt s slot r array net p (slotIndex s slot) == n)
      let ts := ps.map (fun p => targetOf slot array net p lane)
      let inside := ∀ p ∈ ps, localOutput net p = true ∨ (neighbour array (direction net p)).isSome = true
      slotRead s array net port = some (slot, r, n) ∧ alive s = true ∧ inputItem s slot r array net (n % 16) lane = some (none, item) ∧
      (∀ y ∈ ts, hasRoom s y = true) :=
  ⟨17, 0, 0, 0, 1, route1, switching route1 [(laneKey 17 0 1 0, [[1]])], [1],
   by decide +kernel⟩

theorem witness_SlotTablesForwardItems_5 :
    ∃ (array net port slot n : Nat) (r : Route) (s : State) (m item : _),
      let lane := n / 16
      let ps := (portsOf net).filter (fun p => entryAt s slot r array net p (slotIndex s slot) == n)
      let ts := ps.map (fun p => targetOf slot array net p lane)
      let inside := ∀ p ∈ ps, localOutput net p = true ∨ (neighbour array (direction net p)).isSome = true
      slotRead s array net port = some (slot, r, n) ∧ alive s = true ∧ inputItem s slot r array net (n % 16) lane = some (some m, item) ∧
      (∀ y ∈ ts, hasRoom s y = true) :=
  ⟨17, 0, 0, 0, 5, route2,
   withSlot { slot0 with route := some route2, beat := { SlotBeat.idle with phase := 1 }, streams := [(3, staged 0)] } State.reset, 3,
   zeroBytes 8,
   by decide +kernel⟩

theorem witness_SlotTablesForwardItems_6 :
    ∃ (array net port slot n : Nat) (r : Route) (s : State) (p m item o x : _),
      let lane := n / 16
      let ps := (portsOf net).filter (fun p => entryAt s slot r array net p (slotIndex s slot) == n)
      let ts := ps.map (fun p => targetOf slot array net p lane)
      let inside := ∀ p ∈ ps, localOutput net p = true ∨ (neighbour array (direction net p)).isSome = true
      let u := place item (targetOf slot array net p lane) (takeInput slot array net (n % 16) lane m s)
      slotRead s array net port = some (slot, r, n) ∧ alive s = true ∧ ps = [p] ∧ localOutput net p = false ∧
      neighbour array (direction net p) = none ∧ inputItem s slot r array net (n % 16) lane = some (m, item) ∧
      ownerAt r array (direction net p) lane = some o ∧ o.peer.isSome = true ∧ arrivedTile u slot r o = some x :=
  ⟨0, 0, 0, 0, 5, edgeRoute,
   withSlot { slot0 with route := some edgeRoute, beat := { SlotBeat.idle with phase := 1 }, streams := [(3, staged 3)] } { State.reset with fab := { Fabric.reset with delivered := [(portKey 0 0 0 0 0, List.replicate 3 (zeroBytes 8))] } },
   0, some 3, zeroBytes 8, { stream3 with peer := some 9 }, ⟨zeroBytes 32, []⟩,
   by decide +kernel⟩

theorem witness_SlotTablesForwardItems_7 :
    ∃ (array net port slot n : Nat) (r : Route) (s : State),
      slotRead s array net port = some (slot, r, n) ∧ alive s = true :=
  ⟨17, 0, 0, 0, 1, route1, switching route1 [],
   by decide +kernel⟩

theorem witness_SitesAreTestedFailedAndReplaced_1 :
    ∃ (site : Nat) (s : State),
      alive s = true ∧ site < 272 ∧ siteFailed s site = false :=
  ⟨256, State.reset,
   by decide +kernel⟩

theorem witness_SitesAreTestedFailedAndReplaced_2 :
    ∃ (a : Nat) (s : State),
      alive s = true ∧ a ∉ s.fab.faultySwitches :=
  ⟨5, State.reset,
   by decide +kernel⟩

theorem witness_SitesAreTestedFailedAndReplaced_3 :
    ∃ (who : Who) (a : Nat) (s : State),
      Passes who (writeOf 0x3004 a [1]) s :=
  ⟨who0, 5, expert State.reset,
   ⟨by decide +kernel, by decide +kernel, by decide +kernel, by decide +kernel, by decide +kernel⟩⟩

theorem witness_SitesAreTestedFailedAndReplaced_4 :
    ∃ (site : Nat) (s : State) (fault : Bool),
      let p := kgetD (0, 0) s.fab.slices site
      alive s = true ∧ setting s 0x3001 0 ≠ 0 ∧ site < 272 ∧ siteGated s site = true ∧ s.beat.count < p.2 :=
  ⟨271, { State.reset with fab := { Fabric.reset with slices := [(271, 0, 5)] } }, true,
   by decide +kernel⟩

theorem witness_SitesAreTestedFailedAndReplaced_5 :
    ∃ (site : Nat) (s : State),
      let p := kgetD (0, 0) s.fab.slices site
      alive s = true ∧ setting s 0x3001 0 ≠ 0 ∧ site < 272 ∧ siteGated s site = true ∧ p.2 ≤ s.beat.count :=
  ⟨271, State.reset,
   by decide +kernel⟩

theorem witness_SitesAreTestedFailedAndReplaced_6 :
    ∃ (site : Nat) (s : State),
      alive s = true ∧ setting s 0x3001 0 ≠ 0 ∧ site < 272 ∧ siteGated s site = true ∧ siteFailed s site = false ∧
      (kgetD (0, 0) s.fab.slices site).2 ≤ s.beat.count :=
  ⟨0, State.reset,
   by decide +kernel⟩

theorem witness_SitesAreTestedFailedAndReplaced_7 :
    ∃ (who : Who) (a : Nat) (s : State),
      Passes who (writeOf 0x3002 a [1]) s ∧ kgetD 0 s.fab.selftest a ≠ 1 ∧ slotsOn s a = [] :=
  ⟨who0, 5, expert State.reset,
   ⟨by decide +kernel, by decide +kernel, by decide +kernel, by decide +kernel, by decide +kernel⟩, by decide +kernel⟩

theorem witness_SitesAreTestedFailedAndReplaced_8 :
    ∃ (a : Nat) (s : State),
      alive s = true ∧ kgetD 0 s.fab.selftest a = 1 :=
  ⟨5, { State.reset with fab := { Fabric.reset with selftest := [(5, 1)] } },
   by decide +kernel⟩

theorem witness_ItemsLeaveAndStashedTilesComeBack_1 :
    ∃ (slot n op i base : Nat) (t : Word) (r : Route) (st : StationRec) (e : Entry) (b : Bytes) (area : Nat × Nat) (s : State),
      let u := putStash slot n op t r st [e] s
      stashRecord r n (hdrStream e.header) = some b ∧ tagMicro e.tag < stashOnDie b ∧
      stashArea s r n b (tagMicro e.tag) = some (i, area) ∧
      fitTile area e.payload.length (stashUsed s slot n (stashStream b) (tagMicro e.tag)) = some base ∧
      (kgetD Cargo.free s.mem.cargoes i).state = 1 ∧ base + e.payload.length ≤ (kgetD Cargo.free s.mem.cargoes i).pageCount * pageBytes :=
  ⟨0, 0, 0, 0, 0, 0, stashRoute, stationA (opOf 3 1), { entry0 0 with payload := [7] }, stashBytes, (0, 64),
   withCargo { cargo0 with attr := attrOf 1 0 } (onRoute stashRoute StationState.fresh State.reset),
   by decide +kernel⟩

theorem witness_ContributionsAreStaged_1 :
    ∃ (slot k e : Nat) (x : CollRec) (v : Word) (s : State),
      e < x.elements ∧ kgetD 0 (collOf s slot).decided (pieceKey k (x.pieceOf e).1 (x.pieceOf e).2) = 0 :=
  ⟨0, 0, 127, { CollRec.parse [] with elements := 128, rings := 1, group := 2 }, 0, State.reset,
   by decide +kernel⟩

theorem witness_TilesArriveAndCreditsReturn_1 :
    ∃ (slot : Nat) (place : LocalLane) (damage : Bytes) (x : Tile) (r : Route) (o : StreamRow) (st : StationRec) (q : QueueRec) (s : State),
      let c : Instr := .tileArrive slot place damage
      let h := spoil damage x.header
      let s' := takeTile slot r o x s
      let es := kgetD [] (stationOf s slot o.dest).queues o.queue
      let ok := hdrOk h = true ∧ x.payload.length ≤ q.part
      let now := st.info.kind = 4 ∨ (hdrStep h = (slotOf s slot).train.step % 65536 ∧ hdrAttempt h = (slotOf s slot).train.attempt % 16)
      let direct := q.kind = 1 → (es.filter (fun e => !e.spilled && e.address != partAddress q (q.depth - 1))).length < q.depth - 1 ∧ (∀ e ∈ es, e.spilled = false)
      let part := freePart (stationOf s slot o.dest).flight q es (if q.kind = 1 then q.depth - 1 else q.depth)
      routeOf s slot = some r ∧ ownerAt r place.array place.port place.lane = some o ∧ o.peer = none ∧
      (∀ w ∈ r.units, o.number ∉ w.inputs) ∧ o.number ∉ lossStreams r ∧ r.emitted o 8 = false ∧ arrivedTile s slot r o = some x ∧
      r.station o.dest = some st ∧ st.queue o.queue = some q ∧ (streamOf s slot o.number).stopped = false ∧ ¬ ok :=
  ⟨0, ⟨17, 4, 0⟩, [1], ⟨header0 0 3 0, []⟩, routeA (opOf 0 1), stream3, stationA (opOf 0 1), queue0,
   tile0 (header0 0 3 0) (onRoute (routeA (opOf 0 1)) StationState.fresh State.reset),
   by decide +kernel⟩

theorem witness_TilesArriveAndCreditsReturn_2 :
    ∃ (slot : Nat) (place : LocalLane) (damage : Bytes) (x : Tile) (r : Route) (o : StreamRow) (st : StationRec) (q : QueueRec) (s : State),
      let c : Instr := .tileArrive slot place damage
      let h := spoil damage x.header
      let s' := takeTile slot r o x s
      let es := kgetD [] (stationOf s slot o.dest).queues o.queue
      let ok := hdrOk h = true ∧ x.payload.length ≤ q.part
      let now := st.info.kind = 4 ∨ (hdrStep h = (slotOf s slot).train.step % 65536 ∧ hdrAttempt h = (slotOf s slot).train.attempt % 16)
      let direct := q.kind = 1 → (es.filter (fun e => !e.spilled && e.address != partAddress q (q.depth - 1))).length < q.depth - 1 ∧ (∀ e ∈ es, e.spilled = false)
      let part := freePart (stationOf s slot o.dest).flight q es (if q.kind = 1 then q.depth - 1 else q.depth)
      routeOf s slot = some r ∧ ownerAt r place.array place.port place.lane = some o ∧ o.peer = none ∧
      (∀ w ∈ r.units, o.number ∉ w.inputs) ∧ o.number ∉ lossStreams r ∧ r.emitted o 8 = false ∧ arrivedTile s slot r o = some x ∧
      r.station o.dest = some st ∧ st.queue o.queue = some q ∧ (streamOf s slot o.number).stopped = false ∧ ok ∧ ¬ now :=
  ⟨0, ⟨17, 4, 0⟩, [], ⟨mkHeader 0 3 1 0 0 0 ⟨0, false, 1, 1, 1, 1, 1⟩, []⟩, routeA (opOf 0 1), stream3, stationA (opOf 0 1), queue0,
   tile0 (mkHeader 0 3 1 0 0 0 ⟨0, false, 1, 1, 1, 1, 1⟩) (onRoute (routeA (opOf 0 1)) StationState.fresh State.reset),
   by decide +kernel⟩

theorem witness_TilesArriveAndCreditsReturn_3 :
    ∃ (slot : Nat) (place : LocalLane) (damage : Bytes) (x : Tile) (r : Route) (o : StreamRow) (st : StationRec) (q : QueueRec) (s : State),
      let c : Instr := .tileArrive slot place damage
      let h := spoil damage x.header
      let s' := takeTile slot r o x s
      let es := kgetD [] (stationOf s slot o.dest).queues o.queue
      let ok := hdrOk h = true ∧ x.payload.length ≤ q.part
      let now := st.info.kind = 4 ∨ (hdrStep h = (slotOf s slot).train.step % 65536 ∧ hdrAttempt h = (slotOf s slot).train.attempt % 16)
      let direct := q.kind = 1 → (es.filter (fun e => !e.spilled && e.address != partAddress q (q.depth - 1))).length < q.depth - 1 ∧ (∀ e ∈ es, e.spilled = false)
      let part := freePart (stationOf s slot o.dest).flight q es (if q.kind = 1 then q.depth - 1 else q.depth)
      routeOf s slot = some r ∧ ownerAt r place.array place.port place.lane = some o ∧ o.peer = none ∧
      (∀ w ∈ r.units, o.number ∉ w.inputs) ∧ o.number ∉ lossStreams r ∧ r.emitted o 8 = false ∧ arrivedTile s slot r o = some x ∧
      r.station o.dest = some st ∧ st.queue o.queue = some q ∧ (streamOf s slot o.number).stopped = false ∧ ok ∧ now ∧
      retiredTile s slot r (hdrTag h) = true :=
  ⟨0, ⟨17, 4, 0⟩, [], ⟨header0 0x40000000 3 0, []⟩, servingA, stream3, stationA (opOf 0 1), queue0,
   tile0 (header0 0x40000000 3 0) (onRoute servingA StationState.fresh State.reset),
   by decide +kernel⟩

theorem witness_TilesArriveAndCreditsReturn_4 :
    ∃ (slot : Nat) (place : LocalLane) (damage : Bytes) (x : Tile) (r : Route) (o : StreamRow) (st : StationRec) (q : QueueRec) (s : State) (k : _),
      let c : Instr := .tileArrive slot place damage
      let h := spoil damage x.header
      let s' := takeTile slot r o x s
      let es := kgetD [] (stationOf s slot o.dest).queues o.queue
      let ok := hdrOk h = true ∧ x.payload.length ≤ q.part
      let now := st.info.kind = 4 ∨ (hdrStep h = (slotOf s slot).train.step % 65536 ∧ hdrAttempt h = (slotOf s slot).train.attempt % 16)
      let direct := q.kind = 1 → (es.filter (fun e => !e.spilled && e.address != partAddress q (q.depth - 1))).length < q.depth - 1 ∧ (∀ e ∈ es, e.spilled = false)
      let part := freePart (stationOf s slot o.dest).flight q es (if q.kind = 1 then q.depth - 1 else q.depth)
      routeOf s slot = some r ∧ ownerAt r place.array place.port place.lane = some o ∧ o.peer = none ∧
      (∀ w ∈ r.units, o.number ∉ w.inputs) ∧ o.number ∉ lossStreams r ∧ r.emitted o 8 = false ∧ arrivedTile s slot r o = some x ∧
      r.station o.dest = some st ∧ st.queue o.queue = some q ∧ (streamOf s slot o.number).stopped = false ∧ ok ∧ now ∧
      retiredTile s slot r (hdrTag h) = false ∧ direct ∧ part = some k :=
  ⟨0, ⟨17, 4, 0⟩, [], ⟨header0 0 3 0, []⟩, routeA (opOf 0 1), stream3, stationA (opOf 0 1), queue0,
   tile0 (header0 0 3 0) (onRoute (routeA (opOf 0 1)) StationState.fresh State.reset), 0,
   by decide +kernel⟩

theorem witness_TilesArriveAndCreditsReturn_5 :
    ∃ (slot : Nat) (place : LocalLane) (damage : Bytes) (x : Tile) (r : Route) (o : StreamRow) (st : StationRec) (q : QueueRec) (s : State),
      let c : Instr := .tileArrive slot place damage
      let h := spoil damage x.header
      let s' := takeTile slot r o x s
      let es := kgetD [] (stationOf s slot o.dest).queues o.queue
      let ok := hdrOk h = true ∧ x.payload.length ≤ q.part
      let now := st.info.kind = 4 ∨ (hdrStep h = (slotOf s slot).train.step % 65536 ∧ hdrAttempt h = (slotOf s slot).train.attempt % 16)
      let direct := q.kind = 1 → (es.filter (fun e => !e.spilled && e.address != partAddress q (q.depth - 1))).length < q.depth - 1 ∧ (∀ e ∈ es, e.spilled = false)
      let part := freePart (stationOf s slot o.dest).flight q es (if q.kind = 1 then q.depth - 1 else q.depth)
      routeOf s slot = some r ∧ ownerAt r place.array place.port place.lane = some o ∧ o.peer = none ∧
      (∀ w ∈ r.units, o.number ∉ w.inputs) ∧ o.number ∉ lossStreams r ∧ r.emitted o 8 = false ∧ arrivedTile s slot r o = some x ∧
      r.station o.dest = some st ∧ st.queue o.queue = some q ∧ (streamOf s slot o.number).stopped = false ∧ ok ∧ now ∧
      retiredTile s slot r (hdrTag h) = false ∧ direct ∧ part = none :=
  ⟨0, ⟨17, 4, 0⟩, [], ⟨header0 0 3 0, []⟩, routeA (opOf 0 1), stream3, stationA (opOf 0 1), queue0,
   tile0 (header0 0 3 0) (onRoute (routeA (opOf 0 1)) { StationState.fresh with queues := [(0, [entry0 0, { entry0 0 with address := 2048 }])] } State.reset),
   by decide +kernel⟩

theorem witness_TilesArriveAndCreditsReturn_6 :
    ∃ (slot : Nat) (place : LocalLane) (damage : Bytes) (x : Tile) (r : Route) (o : StreamRow) (st : StationRec) (q : QueueRec) (s : State),
      let c : Instr := .tileArrive slot place damage
      let h := spoil damage x.header
      let s' := takeTile slot r o x s
      let es := kgetD [] (stationOf s slot o.dest).queues o.queue
      let ok := hdrOk h = true ∧ x.payload.length ≤ q.part
      let now := st.info.kind = 4 ∨ (hdrStep h = (slotOf s slot).train.step % 65536 ∧ hdrAttempt h = (slotOf s slot).train.attempt % 16)
      let direct := q.kind = 1 → (es.filter (fun e => !e.spilled && e.address != partAddress q (q.depth - 1))).length < q.depth - 1 ∧ (∀ e ∈ es, e.spilled = false)
      let part := freePart (stationOf s slot o.dest).flight q es (if q.kind = 1 then q.depth - 1 else q.depth)
      routeOf s slot = some r ∧ ownerAt r place.array place.port place.lane = some o ∧ o.peer = none ∧
      (∀ w ∈ r.units, o.number ∉ w.inputs) ∧ o.number ∉ lossStreams r ∧ r.emitted o 8 = false ∧ arrivedTile s slot r o = some x ∧
      r.station o.dest = some st ∧ st.queue o.queue = some q ∧ (streamOf s slot o.number).stopped = false ∧ ok ∧ now ∧
      retiredTile s slot r (hdrTag h) = false ∧ ¬ direct ∧ spillUsed es + roundUp x.payload.length 256 ≤ q.spill * pageBytes ∧
      (es.filter (·.spilled)).length < 4096 :=
  ⟨0, ⟨17, 4, 0⟩, [], ⟨header0 0 3 0, []⟩, joinRoute, { stream3 with queue := 2 }, joinStation, queue2,
   tile0 (header0 0 3 0) (joining [{ entry0 0 with address := 4096 }]),
   by decide +kernel⟩

theorem witness_TilesArriveAndCreditsReturn_7 :
    ∃ (slot : Nat) (place : LocalLane) (damage w : Bytes) (rest : List Bytes) (r : Route) (o : StreamRow) (st : StationRec) (q : QueueRec) (s : State),
      let item := BitVec.ofNat 64 (leNat w)
      let items := kgetD [] (stationOf s slot o.dest).scalars o.queue
      routeOf s slot = some r ∧ ownerAt r place.array place.port place.lane = some o ∧ o.peer = none ∧
      (∀ w ∈ r.units, o.number ∉ w.inputs) ∧ o.number ∉ lossStreams r ∧ r.emitted o 8 = true ∧ arrivedAt s slot r o 0 0 = w :: rest ∧
      r.station o.dest = some st ∧ st.queue o.queue = some q ∧ q.kind = 2 ∧ (streamOf s slot o.number).stopped = false ∧
      retiredTile s slot r (itemTag item) = false ∧ items.length < 32 :=
  ⟨0, ⟨17, 4, 1⟩, [], zeroBytes 8, [], routeA (opOf 8 3), stream4, stationA (opOf 8 3), queue1,
   brought 17 0 1 [zeroBytes 8] (onRoute (routeA (opOf 8 3)) { StationState.fresh with scalars := [(1, List.replicate 31 0)] } State.reset),
   by decide +kernel⟩

theorem witness_TilesArriveAndCreditsReturn_8 :
    ∃ (slot : Nat) (place : LocalLane) (damage w : Bytes) (rest : List Bytes) (r : Route) (o : StreamRow) (st : StationRec) (q : QueueRec) (s : State),
      let item := BitVec.ofNat 64 (leNat w)
      let items := kgetD [] (stationOf s slot o.dest).scalars o.queue
      routeOf s slot = some r ∧ ownerAt r place.array place.port place.lane = some o ∧ o.peer = none ∧
      (∀ w ∈ r.units, o.number ∉ w.inputs) ∧ o.number ∉ lossStreams r ∧ r.emitted o 8 = true ∧ arrivedAt s slot r o 0 0 = w :: rest ∧
      r.station o.dest = some st ∧ st.queue o.queue = some q ∧ q.kind = 2 ∧ (streamOf s slot o.number).stopped = false ∧
      retiredTile s slot r (itemTag item) = false ∧ 32 ≤ items.length :=
  ⟨0, ⟨17, 4, 1⟩, [], zeroBytes 8, [], routeA (opOf 8 3), stream4, stationA (opOf 8 3), queue1,
   brought 17 0 1 [zeroBytes 8] (onRoute (routeA (opOf 8 3)) { StationState.fresh with scalars := [(1, List.replicate 32 0)] } State.reset),
   by decide +kernel⟩

theorem witness_TilesArriveAndCreditsReturn_9 :
    ∃ (slot n j : Nat) (r : Route) (st : StationRec) (q : QueueRec) (k : Nat) (e : Entry) (s : State) (part : _),
      let es := kgetD [] (stationOf s slot n).queues j
      routeOf s slot = some r ∧ r.station n = some st ∧ st.queue j = some q ∧ es[k]? = some e ∧ firstIndex (·.spilled) es = some k ∧
      freePart (stationOf s slot n).flight q es (q.depth - 1) = some part :=
  ⟨0, 0, 2, joinRoute, joinStation, queue2, 0, spilled0 0 0, joining [spilled0 0 0], 0,
   by decide +kernel⟩

theorem witness_TilesArriveAndCreditsReturn_10 :
    ∃ (slot n j : Nat) (r : Route) (st : StationRec) (q : QueueRec) (k : Nat) (e : Entry) (s : State),
      let es := kgetD [] (stationOf s slot n).queues j
      routeOf s slot = some r ∧ r.station n = some st ∧ st.queue j = some q ∧ es[k]? = some e ∧
      (firstIndex (fun x => x.spilled && x.tag == e.tag) es = some k) ∧ firstIndex (·.spilled) es ≠ some k ∧
      (stationOf s slot n).refill = none ∧ calledFor s slot st j k = true :=
  ⟨0, 0, 2, joinRoute, joinStation, queue2, 1, spilled0 0 256, joining [spilled0 5 0, spilled0 0 256],
   by decide +kernel⟩

theorem witness_TilesArriveAndCreditsReturn_11 :
    ∃ (slot : Nat) (w : Word) (r : Route) (o : StreamRow) (s : State),
      let x := streamOf s slot o.number
      let c := min (x.credits + bits w.toNat 15 0) (r.depthOf o)
      let go := if x.stopped then 0 else min c x.waiting.length
      routeOf s slot = some r ∧ r.stream (bits w.toNat 27 16) = some o ∧ (slot, w) ∈ s.fab.words :=
  ⟨0, 3#32 <<< 16, routeA (opOf 0 1), stream3,
   let x := onRoute (routeA (opOf 0 1)) StationState.fresh State.reset; { x with fab := { x.fab with words := [(0, 3#32 <<< 16)] } },
   by decide +kernel⟩

theorem witness_TokensPairWithTilesAtUnits_1 :
    ∃ (slot array lane unit choice : Nat) (a b : Bytes) (rest : List Bytes) (r : Route) (o : StreamRow) (u : UnitState) (s : State),
      let w0 := BitVec.ofNat 32 (leNat a)
      let w1 := BitVec.ofNat 32 (leNat b)
      let c : Instr := .tokenArrive slot array lane
      let s' := dropArrived slot r o 2 0 2 s
      let input := if unit < 8 then 0 else choice
      routeOf s slot = some r ∧ (r.streams.find? (fun o => o.lane == lane && r.emitted o 9 && r.endOf o == (array, 4)) = some o) ∧
      arrivedAt s slot r o 2 0 = a :: b :: rest ∧ unit < 16 ∧ bits w1.toNat 31 28 = (if unit < 8 then 1 else 2) ∧
      bits w1.toNat 27 24 = unit % 8 ∧ bits w1.toNat 7 0 = choice ∧ getUnit s array unit = some u ∧ u.slot = slot ∧
      retiredTile s slot r w0 = false ∧ faultyChoice unit choice = true :=
  ⟨0, 17, 0, 0, 4, le 4 9, le 4 0x10000004, [], tokenRoute false, stream3, idleUnit,
   brought 17 2 0 [le 4 9, le 4 0x10000004] (withUnit 0 idleUnit (onRoute (tokenRoute false) StationState.fresh State.reset)),
   by decide +kernel⟩

theorem witness_TokensPairWithTilesAtUnits_2 :
    ∃ (slot array lane unit choice : Nat) (a b : Bytes) (rest : List Bytes) (r : Route) (o : StreamRow) (u : UnitState) (s : State) (k : _),
      let w0 := BitVec.ofNat 32 (leNat a)
      let w1 := BitVec.ofNat 32 (leNat b)
      let c : Instr := .tokenArrive slot array lane
      let s' := dropArrived slot r o 2 0 2 s
      let input := if unit < 8 then 0 else choice
      routeOf s slot = some r ∧ (r.streams.find? (fun o => o.lane == lane && r.emitted o 9 && r.endOf o == (array, 4)) = some o) ∧
      arrivedAt s slot r o 2 0 = a :: b :: rest ∧ unit < 16 ∧ bits w1.toNat 31 28 = (if unit < 8 then 1 else 2) ∧
      bits w1.toNat 27 24 = unit % 8 ∧ bits w1.toNat 7 0 = choice ∧ getUnit s array unit = some u ∧ u.slot = slot ∧
      retiredTile s slot r w0 = false ∧ faultyChoice unit choice = false ∧
      (firstIndex (fun t => hdrTag t.header == w0) (kgetD [] u.data input) = some k) :=
  ⟨0, 17, 0, 0, 1, le 4 9, le 4 0x10000001, [], tokenRoute false, stream3, { idleUnit with data := [(0, [⟨header0 9 3 0, []⟩])] },
   brought 17 2 0 [le 4 9, le 4 0x10000001] (withUnit 0 { idleUnit with data := [(0, [⟨header0 9 3 0, []⟩])] } (onRoute (tokenRoute false) StationState.fresh State.reset)),
   0,
   by decide +kernel⟩

theorem witness_TokensPairWithTilesAtUnits_3 :
    ∃ (slot array lane unit choice : Nat) (a b : Bytes) (rest : List Bytes) (r : Route) (o : StreamRow) (u : UnitState) (s : State),
      let w0 := BitVec.ofNat 32 (leNat a)
      let w1 := BitVec.ofNat 32 (leNat b)
      let c : Instr := .tokenArrive slot array lane
      let s' := dropArrived slot r o 2 0 2 s
      let input := if unit < 8 then 0 else choice
      routeOf s slot = some r ∧ (r.streams.find? (fun o => o.lane == lane && r.emitted o 9 && r.endOf o == (array, 4)) = some o) ∧
      arrivedAt s slot r o 2 0 = a :: b :: rest ∧ unit < 16 ∧ bits w1.toNat 31 28 = (if unit < 8 then 1 else 2) ∧
      bits w1.toNat 27 24 = unit % 8 ∧ bits w1.toNat 7 0 = choice ∧ getUnit s array unit = some u ∧ u.slot = slot ∧
      retiredTile s slot r w0 = false ∧ faultyChoice unit choice = false ∧
      (firstIndex (fun t => hdrTag t.header == w0) (kgetD [] u.data input) = none) :=
  ⟨0, 17, 0, 8, 1, le 4 9, le 4 0x20000001, [], tokenRoute true, stream3, idleUnit,
   brought 17 2 0 [le 4 9, le 4 0x20000001] (withUnit 8 idleUnit (onRoute (tokenRoute true) StationState.fresh State.reset)),
   by decide +kernel⟩

theorem witness_TokensPairWithTilesAtUnits_4 :
    ∃ (array unit input n : Nat) (merge : Bool) (damage : Bytes) (x : Tile) (u : UnitState) (r : Route) (w : UnitRow) (o : StreamRow) (s : State),
      let number := if merge then 8 + unit else unit
      let c : Instr := if merge then .mergeDataArrive u.slot array unit input damage else .steerDataArrive u.slot array unit damage
      let h := spoil damage x.header
      let s' := takeTile u.slot r o x s
      unit < 8 ∧ (merge = true → input < 4) ∧ (merge = false → input = 0) ∧ getUnit s array number = some u ∧ routeOf s u.slot = some r ∧
      unitRow r array number = some w ∧ w.inputs[input]? = some n ∧ r.stream n = some o ∧ arrivedTile s u.slot r o = some x ∧
      (streamOf s u.slot o.number).stopped = false ∧ hdrOk h = false :=
  ⟨17, 0, 1, 4, true, [1], ⟨header0 9 4 0, []⟩, idleUnit, unitRoute true, unitRow0 true, stream4,
   brought 17 0 1 (records 8 (header0 9 4 0)) (withUnit 8 idleUnit (onRoute (unitRoute true) StationState.fresh State.reset)),
   by decide +kernel⟩

theorem witness_TokensPairWithTilesAtUnits_5 :
    ∃ (array unit input n : Nat) (merge : Bool) (damage : Bytes) (x : Tile) (u : UnitState) (r : Route) (w : UnitRow) (o : StreamRow) (s : State) (k : _),
      let number := if merge then 8 + unit else unit
      let c : Instr := if merge then .mergeDataArrive u.slot array unit input damage else .steerDataArrive u.slot array unit damage
      let h := spoil damage x.header
      let s' := takeTile u.slot r o x s
      unit < 8 ∧ (merge = true → input < 4) ∧ (merge = false → input = 0) ∧ getUnit s array number = some u ∧ routeOf s u.slot = some r ∧
      unitRow r array number = some w ∧ w.inputs[input]? = some n ∧ r.stream n = some o ∧ arrivedTile s u.slot r o = some x ∧
      (streamOf s u.slot o.number).stopped = false ∧ hdrOk h = true ∧ hdrStep h = (slotOf s u.slot).train.step % 65536 ∧
      hdrAttempt h = (slotOf s u.slot).train.attempt % 16 ∧ retiredTile s u.slot r (hdrTag h) = false ∧
      (firstIndex (fun y => y.tag == hdrTag h && (number < 8 || y.choice == input)) u.tokens = some k) :=
  ⟨17, 0, 1, 4, true, [], ⟨header0 9 4 0, []⟩, { idleUnit with tokens := [⟨9, 1⟩] }, unitRoute true, unitRow0 true, stream4,
   brought 17 0 1 (records 8 (header0 9 4 0)) (withUnit 8 { idleUnit with tokens := [⟨9, 1⟩] } (onRoute (unitRoute true) StationState.fresh State.reset)),
   0,
   by decide +kernel⟩

theorem witness_TokensPairWithTilesAtUnits_6 :
    ∃ (array unit input n : Nat) (merge : Bool) (damage : Bytes) (x : Tile) (u : UnitState) (r : Route) (w : UnitRow) (o : StreamRow) (s : State),
      let number := if merge then 8 + unit else unit
      let c : Instr := if merge then .mergeDataArrive u.slot array unit input damage else .steerDataArrive u.slot array unit damage
      let h := spoil damage x.header
      let s' := takeTile u.slot r o x s
      unit < 8 ∧ (merge = true → input < 4) ∧ (merge = false → input = 0) ∧ getUnit s array number = some u ∧ routeOf s u.slot = some r ∧
      unitRow r array number = some w ∧ w.inputs[input]? = some n ∧ r.stream n = some o ∧ arrivedTile s u.slot r o = some x ∧
      (streamOf s u.slot o.number).stopped = false ∧ hdrOk h = true ∧ hdrStep h = (slotOf s u.slot).train.step % 65536 ∧
      hdrAttempt h = (slotOf s u.slot).train.attempt % 16 ∧ retiredTile s u.slot r (hdrTag h) = false ∧
      (firstIndex (fun y => y.tag == hdrTag h && (number < 8 || y.choice == input)) u.tokens = none) :=
  ⟨17, 0, 0, 3, false, [], ⟨header0 9 3 0, []⟩, idleUnit, unitRoute false, unitRow0 false, stream3,
   tile0 (header0 9 3 0) (withUnit 0 idleUnit (onRoute (unitRoute false) StationState.fresh State.reset)),
   by decide +kernel⟩

theorem witness_TokensPairWithTilesAtUnits_7 :
    ∃ (array unit input : Nat) (k : Token) (t : Tile) (u : UnitState) (s : State),
      (¬ (unit < 8 ∧ k.choice = 255)) :=
  ⟨17, 8, 0, ⟨9, 255⟩, ⟨[], []⟩, ⟨0, [], [], [], []⟩, State.reset,
   by decide +kernel⟩

theorem witness_TokensPairWithTilesAtUnits_8 :
    ∃ (array unit choice i k : Nat) (t : Tile) (u : UnitState) (r : Route) (w : UnitRow) (o : StreamRow) (s : State),
      getUnit s array unit = some u ∧ firstIndex (pairMay s u array unit) u.paired = some k ∧ u.paired[k]? = some (choice, t) ∧
      pairOutput s u array unit (choice, t) = some (r, w, o) ∧ w.inputs[if unit < 8 then 0 else choice]? = some i :=
  ⟨17, 0, 1, 3, 0, ⟨[], []⟩, { idleUnit with paired := [(1, ⟨[], []⟩)] }, unitRoute false, unitRow0 false, stream4,
   withUnit 0 { idleUnit with paired := [(1, ⟨[], []⟩)] } (onRoute (unitRoute false) StationState.fresh State.reset),
   by decide +kernel⟩

theorem witness_OperationsCompleteAndContribute_1 :
    ∃ (slot n op : Nat) (t : Word) (s : State),
      (∀ f ∈ (stationOf s slot n).flight, ¬ (f.op = op ∧ f.tag = t ∧ f.finished = true)) :=
  ⟨0, 0, 0, 0, State.reset,
   (fun _ h => nomatch h)⟩

theorem witness_OperationsCompleteAndContribute_2 :
    ∃ (slot n op : Nat) (t : Word) (f : Flight) (s : State),
      ((stationOf s slot n).flight.find? (fun f => f.op == op && f.tag == t && f.finished) = some f) ∧
      (∀ r st o g, routeOf s slot = some r → r.station n = some st → st.ops[op]? = some o → gaFor r st.info.place (mmoDesc r o) = some g → o.kind ≠ 0) :=
  ⟨0, 0, 0, 0, flight0, withSlot { Slot.free with stations := [(0, { StationState.fresh with flight := [flight0] })] } State.reset,
   by decide +kernel, (fun r _ _ _ h => nomatch (show none = some r from h))⟩

theorem witness_OperationsCompleteAndContribute_3 :
    ∃ (slot n op : Nat) (t : Word) (f : Flight) (r : Route) (st : StationRec) (o : OpEntry) (g : GaRec) (s : State),
      ((stationOf s slot n).flight.find? (fun f => f.op == op && f.tag == t && f.finished) = some f) ∧ routeOf s slot = some r ∧
      r.station n = some st ∧ st.ops[op]? = some o ∧ o.kind = 0 ∧ gaFor r st.info.place (mmoDesc r o) = some g ∧
      gaExcess s slot g (tagMicro t, sourceOf g n) = false :=
  ⟨0, 0, 0, 0, flight0, gaRoute, stationA (opOf 0 1), opOf 0 1, ga0,
   onRoute gaRoute { StationState.fresh with flight := [flight0] } State.reset,
   by decide +kernel⟩

theorem witness_OperationsCompleteAndContribute_4 :
    ∃ (slot ga source micro q k : Nat) (r : Route) (g : GaRec) (st : StationRec) (e : Entry) (s : State),
      routeOf s slot = some r ∧ (r.gas.find? (fun g => gaNumber g == ga) = some g) ∧ gaTile s slot r g source micro = some (q, k, e) ∧
      r.station (gaOwner g) = some st ∧ routeFires s slot = true ∧ isNext s slot g (micro, source) = true ∧
      gaExcess s slot g (micro, source) = false :=
  ⟨0, 0, 0, 0, 2, 0, gaRoute, ga0, stationA (opOf 0 1), entry0 0x10000000,
   onRoute gaRoute { StationState.fresh with queues := [(2, [entry0 0x10000000])] } State.reset,
   by decide +kernel⟩

theorem witness_OperationsCompleteAndContribute_5 :
    ∃ (slot array stream : Nat) (w : Bytes) (rest : List Bytes) (r : Route) (o : StreamRow) (s : State),
      let item := BitVec.ofNat 64 (leNat w)
      routeOf s slot = some r ∧ r.stream stream = some o ∧ arrivedAt s slot r o 0 0 = w :: rest ∧ stream ∈ lossStreams r ∧
      (r.endOf o).1 = array ∧ (slotOf s slot).train.lossItems.length < lossCount r ∧ (slotOf s slot).train.state = 1 :=
  ⟨0, 17, 3, zeroBytes 8, [], lossRoute, stream3, brought 17 0 0 [zeroBytes 8] (onRoute lossRoute StationState.fresh State.reset),
   by decide +kernel⟩

theorem witness_StreamsRestartAndKilnsGoOn_1 :
    ∃ (slot n : Nat) (r : Route) (s : State),
      routeOf s slot = some r ∧ (streamOf s slot n).stopped = true ∧ (slotOf s slot).beat.phase = 1 ∧
      (r.training = true → (slotOf s slot).train.state = 1 ∧ (slotOf s slot).beat.offset = 0) ∧
      ((streamOf s slot n).reload = false ∨ imageMatches s r = true) :=
  ⟨0, 3, reloading,
   withCargo cargo0 (withSlot { slot0 with route := some reloading, beat := { SlotBeat.idle with phase := 1 }, train := { Training.none with state := 1 }, streams := [(3, ⟨1, [], true, [], true⟩)] } State.reset),
   by decide +kernel⟩

theorem witness_StreamsRestartAndKilnsGoOn_2 :
    ∃ (slot n : Nat) (r : Route) (s : State),
      routeOf s slot = some r ∧ (streamOf s slot n).stopped = true ∧ (slotOf s slot).beat.phase = 1 ∧
      (r.training = true → (slotOf s slot).train.state = 1 ∧ (slotOf s slot).beat.offset = 0) ∧ (streamOf s slot n).reload = true ∧
      imageMatches s r = false :=
  ⟨0, 3, route0,
   withSlot { slot0 with beat := { SlotBeat.idle with phase := 1 }, train := { Training.none with state := 1 }, streams := [(3, ⟨1, [], true, [], true⟩)] } State.reset,
   by decide +kernel⟩

theorem witness_StreamsRestartAndKilnsGoOn_3 :
    ∃ (slot : Nat) (s : State),
      (slotOf s slot).train.norm.isSome = true ∧ (slotOf s slot).train.normPending = false ∧
      (slotOf s slot).train.coefficientsReady = false :=
  ⟨0, withSlot { slot0 with train := { Training.none with norm := some 0 } } State.reset,
   by decide +kernel⟩

theorem witness_AdmissionsTakeSlotsInOrder_1 :
    ∃ (who : Who) (n : Nat) (b : Bytes) (s : State),
      let a := lastOf (0x4001 + 16 * n) 0 b
      let u := modAdmission n (fun x => { x with request := b, beat := s.beat.count }) (begun who a s)
      n < 64 ∧ Passes who (lastOf (0x4001 + 16 * n) 0 b) s ∧ (admissionOf s n).state ≠ 1 ∧ (admissionOf s n).state ≠ 2 ∧
      admLength b ≠ 0 ∧ (admSlot b < 4 ∨ admSlot b = 255) ∧ field b 13 1 ≤ 1 ∧ zeroAt b 14 2 = true ∧ zeroAt b 48 16 = true ∧
      (∃ e, cargoOf s (admHandle b) = some e ∧ e.2.client = n) ∧ (slotsHeld s n).length < setting s 0x2A03 n :=
  ⟨who0, 0, request0, withCargo cargo0 (expert State.reset),
   by decide +kernel, ⟨by decide +kernel, by decide +kernel, by decide +kernel, by decide +kernel, by decide +kernel⟩, by decide +kernel,
   by decide +kernel, by decide +kernel, by decide +kernel, by decide +kernel, by decide +kernel, by decide +kernel,
   ⟨(0, cargo0), rfl, rfl⟩, by decide +kernel⟩

theorem witness_AdmissionsTakeSlotsInOrder_4 :
    ∃ (who : Who) (n : Nat) (s : State),
      n < 64 ∧ Passes who (writeOf (0x4006 + 16 * n) 0 [1]) s ∧ (admissionOf s n).state = 1 :=
  ⟨who0, 0, expert { State.reset with admissions := [(0, ⟨1, 0, request0, 0, 0⟩)] },
   by decide +kernel, ⟨by decide +kernel, by decide +kernel, by decide +kernel, by decide +kernel, by decide +kernel⟩, by decide +kernel⟩

theorem witness_AdmissionsTakeSlotsInOrder_5 :
    ∃ (k : Nat) (s : State),
      k < 4 ∧ (slotOf s k).state = 0 :=
  ⟨3, State.reset,
   by decide +kernel⟩

theorem witness_RoutesLoadOrAreRefused_1 :
    ∃ (k : Nat) (p : RouteParts) (s : State),
      let n := (slotOf s k).owner
      let q := (admissionOf s n).request
      let r := withExtents s (Route.parse p (admHandle q) (admPage q) (admLength q) (admDigest q))
      let st := loadStatus (withLoaded s) k n q p r
      (slotOf s k).state = 1 ∧ (slotOf s k).route = none ∧ firmwareRuns s = true ∧ st = stOk :=
  ⟨0, loadParts, loading,
   by decide +kernel⟩

theorem witness_RoutesLoadOrAreRefused_2 :
    ∃ (k : Nat) (p : RouteParts) (s : State),
      let n := (slotOf s k).owner
      let q := (admissionOf s n).request
      let r := withExtents s (Route.parse p (admHandle q) (admPage q) (admLength q) (admDigest q))
      let st := loadStatus (withLoaded s) k n q p r
      (slotOf s k).state = 1 ∧ (slotOf s k).route = none ∧ firmwareRuns s = true ∧ st ≠ stOk :=
  ⟨0, loadParts, withSlot { Slot.free with state := 1, owner := 0 } State.reset,
   by decide +kernel⟩

theorem witness_RoutesStartAndTheirSlotsAreFreed_1 :
    ∃ (k : Nat) (r : Route) (s : State),
      (slotOf s k).route = some r ∧ (slotOf s k).state = 1 ∧ (r.fabric = true ∨ shared s r = true → s.clock = s.beat.opened) :=
  ⟨3, route0, { State.reset with slots := [(3, { Slot.free with state := 1, route := some route0 })] },
   by decide +kernel⟩

theorem witness_RoutesStartAndTheirSlotsAreFreed_2 :
    ∃ (k : Nat) (r : Route) (s : State),
      routeOf s k = some r ∧ r.plan.isLocal = false ∧ (slotOf s k).started = false ∧
      (setting s 0x2983 0 = 1 → cutDevice r = deviceNumber s) ∧ startRefusal s k r = stOk :=
  ⟨0, fabricRoute, waitingRoute (beating 2 State.reset),
   by decide +kernel⟩

theorem witness_RoutesStartAndTheirSlotsAreFreed_3 :
    ∃ (k : Nat) (r : Route) (s : State),
      routeOf s k = some r ∧ r.plan.isLocal = false ∧ (slotOf s k).started = false ∧
      (setting s 0x2983 0 = 1 → cutDevice r = deviceNumber s) ∧ startRefusal s k r ≠ stOk :=
  ⟨0, fabricRoute, waitingRoute State.reset,
   by decide +kernel⟩

theorem witness_RoutesStartAndTheirSlotsAreFreed_4 :
    ∃ (link k : Nat) (f : Bytes) (len : Nat) (r : Route) (s : State),
      ((residents s).filter (fun e => e.2.fabric && !(slotOf s e.1).started && (startLinks e.2).contains link) = [(k, r)]) ∧
      f = r.plan.fabricId ∧ len = r.plan.stepLength :=
  ⟨5, 0, zeroBytes 32, 2, { fabricRoute with plan := { fabricRoute.plan with fabricId := zeroBytes 32 } },
   withSlot { slot0 with route := some { fabricRoute with plan := { fabricRoute.plan with fabricId := zeroBytes 32 } }, started := false } State.reset,
   by decide +kernel⟩

theorem witness_RoutesStartAndTheirSlotsAreFreed_5 :
    ∃ (link k : Nat) (f : Bytes) (len : Nat) (r : Route) (s : State),
      ((residents s).filter (fun e => e.2.fabric && !(slotOf s e.1).started && (startLinks e.2).contains link) = [(k, r)]) ∧
      (¬ (f = r.plan.fabricId ∧ len = r.plan.stepLength)) :=
  ⟨5, 0, zeroBytes 32, 3, fabricRoute, waitingRoute State.reset,
   by decide +kernel⟩

theorem witness_RoutesStartAndTheirSlotsAreFreed_6 :
    ∃ (link k : Nat) (f : Bytes) (len : Nat) (r : Route) (s : State) (j : _),
      ((residents s).filter (fun e => e.2.fabric && !(slotOf s e.1).started && (startLinks e.2).contains link) = [(k, r)]) ∧ j ≠ k :=
  ⟨5, 0, zeroBytes 32, 3, fabricRoute, waitingRoute State.reset, 1,
   by decide +kernel⟩

theorem witness_RoutesStartAndTheirSlotsAreFreed_7 :
    ∃ (who : Who) (n k : Nat) (s : State),
      n < 64 ∧ k < 4 ∧ Passes who (writeOf (0x4005 + 16 * n) 0 (le 1 k)) s ∧ (slotOf s k).state = 2 ∧ (slotOf s k).owner = n ∧
      flowNames s k = false ∧ takeoverNames s k = false :=
  ⟨who0, 0, 3, expert { State.reset with slots := [(3, slot0)] },
   by decide +kernel, by decide +kernel, ⟨by decide +kernel, by decide +kernel, by decide +kernel, by decide +kernel, by decide +kernel⟩,
   by decide +kernel⟩

theorem witness_RoutesStartAndTheirSlotsAreFreed_8 :
    ∃ (k : Nat) (s : State),
      (slotOf s k).state = 3 ∧ ((slotOf s k).beat.phase = 0 ∨ (slotOf s k).beat.phase = 4) :=
  ⟨3, { State.reset with slots := [(3, { slot0 with state := 3 })] },
   by decide +kernel⟩

theorem witness_GlazeFunctionsPackingAndUnpacking_1 :
    ∃ (a n : Nat) (c : GCtx) (s : State),
      Issues 0x14 a n c s :=
  ⟨17, 0, ctxOf (wordOf 0x14 0) ((glazing (wordOf 0x14 0))), (glazing (wordOf 0x14 0)),
   ⟨rfl, rfl, rfl, rfl, by decide +kernel, by decide +kernel, by decide +kernel, rfl, by decide +kernel⟩⟩

theorem witness_GlazeLoadsAndStores_1 :
    ∃ (a n : Nat) (c : GCtx) (s : State),
      let f := formatFor s c.t.slot (gFormat c.w)
      let x := arrayOf s a
      Issues 0x28 a n c s ∧ addressFault s c f = true :=
  ⟨17, 0, ctxOf (wordOf 0x28 0x1FFFF) ((glazing (wordOf 0x28 0x1FFFF))), (glazing (wordOf 0x28 0x1FFFF)),
   ⟨rfl, rfl, rfl, rfl, by decide +kernel, by decide +kernel, by decide +kernel, rfl, by decide +kernel⟩, by decide +kernel⟩

theorem witness_GlazeLoadsAndStores_2 :
    ∃ (a n : Nat) (c : GCtx) (s : State),
      let f := formatFor s c.t.slot (gFormat c.w)
      let x := arrayOf s a
      Issues 0x28 a n c s ∧ addressFault s c f = false ∧ gTarget c.w = 1 ∧ acmOwned x c = true :=
  ⟨17, 0, ctxOf (wordOf 0x28 (2 ^ 17)) (owned (glazing (wordOf 0x28 (2 ^ 17)))), owned (glazing (wordOf 0x28 (2 ^ 17))),
   ⟨rfl, rfl, rfl, rfl, by decide +kernel, by decide +kernel, by decide +kernel, rfl, by decide +kernel⟩, by decide +kernel⟩

theorem witness_GlazeLoadsAndStores_3 :
    ∃ (a n : Nat) (c : GCtx) (s : State),
      let f := formatFor s c.t.slot (gFormat c.w)
      let x := arrayOf s a
      Issues 0x28 a n c s ∧ addressFault s c f = false ∧ (gTarget c.w = 1 → acmOwned x c = false) :=
  ⟨17, 0, ctxOf (wordOf 0x28 0) ((glazing (wordOf 0x28 0))), (glazing (wordOf 0x28 0)),
   ⟨rfl, rfl, rfl, rfl, by decide +kernel, by decide +kernel, by decide +kernel, rfl, by decide +kernel⟩, by decide +kernel⟩

theorem witness_GlazeLoadsAndStores_4 :
    ∃ (a n : Nat) (c : GCtx) (s : State),
      let f := formatFor s c.t.slot (gFormat c.w)
      let x := arrayOf s a
      Issues 0x29 a n c s ∧ addressFault s c f = true :=
  ⟨17, 0, ctxOf (wordOf 0x29 0x1FFFF) ((glazing (wordOf 0x29 0x1FFFF))), (glazing (wordOf 0x29 0x1FFFF)),
   ⟨rfl, rfl, rfl, rfl, by decide +kernel, by decide +kernel, by decide +kernel, rfl, by decide +kernel⟩, by decide +kernel⟩

theorem witness_GlazeLoadsAndStores_5 :
    ∃ (a n : Nat) (c : GCtx) (s : State),
      let f := formatFor s c.t.slot (gFormat c.w)
      let x := arrayOf s a
      Issues 0x29 a n c s ∧ addressFault s c f = false ∧ gTarget c.w = 1 ∧ acmOwned x c = true :=
  ⟨17, 0, ctxOf (wordOf 0x29 (2 ^ 17)) (owned (glazing (wordOf 0x29 (2 ^ 17)))), owned (glazing (wordOf 0x29 (2 ^ 17))),
   ⟨rfl, rfl, rfl, rfl, by decide +kernel, by decide +kernel, by decide +kernel, rfl, by decide +kernel⟩, by decide +kernel⟩

theorem witness_GlazeLoadsAndStores_6 :
    ∃ (a n : Nat) (c : GCtx) (s : State),
      let f := formatFor s c.t.slot (gFormat c.w)
      let x := arrayOf s a
      Issues 0x29 a n c s ∧ addressFault s c f = false ∧ gTarget c.w = 1 ∧ acmOwned x c = false :=
  ⟨17, 0, ctxOf (wordOf 0x29 (2 ^ 17)) ((glazing (wordOf 0x29 (2 ^ 17)))), (glazing (wordOf 0x29 (2 ^ 17))),
   ⟨rfl, rfl, rfl, rfl, by decide +kernel, by decide +kernel, by decide +kernel, rfl, by decide +kernel⟩, by decide +kernel⟩

theorem witness_GlazeLoadsAndStores_7 :
    ∃ (a n : Nat) (c : GCtx) (s : State),
      let f := formatFor s c.t.slot (gFormat c.w)
      let x := arrayOf s a
      Issues 0x29 a n c s ∧ addressFault s c f = false ∧ gTarget c.w = 0 :=
  ⟨17, 0, ctxOf (wordOf 0x29 0) ((glazing (wordOf 0x29 0))), (glazing (wordOf 0x29 0)),
   ⟨rfl, rfl, rfl, rfl, by decide +kernel, by decide +kernel, by decide +kernel, rfl, by decide +kernel⟩, by decide +kernel⟩

theorem witness_GlazeOutputTilesAreStagedAndSent_1 :
    ∃ (a n : Nat) (c : GCtx) (o : StreamRow) (s : State),
      Issues 0x29 a n c s ∧ gTarget c.w = 2 ∧ ((slotOf s c.t.slot).route.bind (fun r => r.output c.t.station (gStream c.w)) = some o) ∧
      addressFault s c (formatFor s c.t.slot (gFormat c.w)) = false :=
  ⟨17, 0, ctxOf (wordOf 0x29 (2 ^ 18)) ((glazing (wordOf 0x29 (2 ^ 18)))), ⟨3, 0, 0, 0, 0, 0, none, none, none, []⟩,
   (glazing (wordOf 0x29 (2 ^ 18))),
   ⟨rfl, rfl, rfl, rfl, by decide +kernel, by decide +kernel, by decide +kernel, rfl, by decide +kernel⟩, by decide +kernel⟩

theorem witness_GlazeOutputTilesAreStagedAndSent_2 :
    ∃ (a n : Nat) (c : GCtx) (s : State),
      Issues 0x2A a n c s ∧ ((slotOf s c.t.slot).route.bind (fun r => r.output c.t.station (gStream c.w)) = none) :=
  ⟨17, 0, ctxOf (wordOf 0x2A (7 * 2 ^ 43)) ((glazing (wordOf 0x2A (7 * 2 ^ 43)))), (glazing (wordOf 0x2A (7 * 2 ^ 43))),
   ⟨rfl, rfl, rfl, rfl, by decide +kernel, by decide +kernel, by decide +kernel, rfl, by decide +kernel⟩, by decide +kernel⟩

theorem witness_GlazeOutputTilesAreStagedAndSent_3 :
    ∃ (a n : Nat) (c : GCtx) (r : Route) (o : StreamRow) (s : State),
      Issues 0x2A a n c s ∧ (slotOf s c.t.slot).route = some r ∧ r.output c.t.station (gStream c.w) = some o ∧
      (creditsLeft s c.t.slot r o = 0 ∨ (streamOf s c.t.slot o.number).stopped = true) :=
  ⟨17, 0, ctxOf (wordOf 0x2A 0) (withSlot { slot0 with route := some glazeRoute } (glazing (wordOf 0x2A 0))), glazeRoute, stream3,
   withSlot { slot0 with route := some glazeRoute } (glazing (wordOf 0x2A 0)),
   ⟨rfl, rfl, rfl, rfl, by decide +kernel, by decide +kernel, by decide +kernel, rfl, by decide +kernel⟩, by decide +kernel⟩

theorem witness_GlazeOutputTilesAreStagedAndSent_4 :
    ∃ (a n : Nat) (c : GCtx) (r : Route) (o : StreamRow) (s : State),
      let b := kgetD ([], 0) c.t.staging (gStream c.w)
      let s0 := (c.t.scalars.getD 0 0).toNat
      let dim := fun k => (c.t.scalars.getD k 0).toNat % 65536
      let tag := BitVec.ofNat 32 (s0 / 65536 * 65536 + (s0 + bits c.w.toNat 15 0) % 65536)
      let h := mkHeader tag o.number (slotOf s c.t.slot).train.attempt ((slotOf s c.t.slot).train.step % 65536) c.t.station b.2
      Issues 0x2A a n c s ∧ (slotOf s c.t.slot).route = some r ∧ r.output c.t.station (gStream c.w) = some o ∧
      creditsLeft s c.t.slot r o ≠ 0 ∧ (streamOf s c.t.slot o.number).stopped = false :=
  ⟨17, 0, ctxOf (wordOf 0x2A 0) (glazing (wordOf 0x2A 0)), glazeRoute, stream3, glazing (wordOf 0x2A 0),
   ⟨rfl, rfl, rfl, rfl, by decide +kernel, by decide +kernel, by decide +kernel, rfl, by decide +kernel⟩, by decide +kernel⟩

theorem witness_GlazeScalarsExtentsAndLoops_1 :
    ∃ (a n op : Nat) (ins : Instr) (v : Word) (c : GCtx) (s : State),
      Issues op a n c s ∧
      ((ins = .gSli a n ∧ op = 0x30 ∧ v = BitVec.ofNat 32 (gImm c.w)) ∨ (ins = .gSadd a n ∧ op = 0x31 ∧ v = c.t.scalars.getD (gSa c.w) 0 + c.t.scalars.getD (gSb c.w) 0 + (BitVec.ofNat 16 (gImm c.w)).signExtend 32) ∨ (ins = .gSmul a n ∧ op = 0x32 ∧ v = c.t.scalars.getD (gSa c.w) 0 * BitVec.ofNat 32 (gImm c.w % 65536)) ∨ (ins = .gSfrom a n ∧ op = 0x33 ∧ v = regGet (arrayOf s a) (gVa c.w) (bits c.w.toNat 3 0) (bits c.w.toNat 10 4))) :=
  ⟨17, 0, 0x30, .gSli 17 0, 0, ctxOf (wordOf 0x30 0) (glazing (wordOf 0x30 0)), glazing (wordOf 0x30 0),
   ⟨rfl, rfl, rfl, rfl, by decide +kernel, by decide +kernel, by decide +kernel, rfl, by decide +kernel⟩,
   .inl ⟨rfl, rfl, by decide +kernel⟩⟩

theorem witness_GlazeScalarsExtentsAndLoops_2 :
    ∃ (xs : List Word) (d k : Nat) (v : Word),
      d < xs.length :=
  ⟨[0], 0, 0, 1,
   by decide +kernel⟩

theorem witness_GlazeScalarsExtentsAndLoops_3 :
    ∃ (a n : Nat) (c : GCtx) (s : State),
      Issues 0x34 a n c s :=
  ⟨17, 0, ctxOf (wordOf 0x34 0x7FF) ((glazing (wordOf 0x34 0x7FF))), (glazing (wordOf 0x34 0x7FF)),
   ⟨rfl, rfl, rfl, rfl, by decide +kernel, by decide +kernel, by decide +kernel, rfl, by decide +kernel⟩⟩

theorem witness_GlazeScalarsExtentsAndLoops_4 :
    ∃ (a n : Nat) (c : GCtx) (s : State),
      let body := bits c.w.toNat 5 0
      let k := (c.t.scalars.getD (gSa c.w) 0).toNat
      Issues 0x35 a n c s :=
  ⟨17, 0, ctxOf (wordOf 0x35 1) ((glazing (wordOf 0x35 1))), (glazing (wordOf 0x35 1)),
   ⟨rfl, rfl, rfl, rfl, by decide +kernel, by decide +kernel, by decide +kernel, rfl, by decide +kernel⟩⟩

theorem witness_GlazeProgramsEndOrAreAbandoned_1 :
    ∃ (a n : Nat) (c : GCtx) (s : State),
      Issues 0x36 a n c s :=
  ⟨17, 0, ctxOf (wordOf 0x36 0) ((glazing (wordOf 0x36 0))), (glazing (wordOf 0x36 0)),
   ⟨rfl, rfl, rfl, rfl, by decide +kernel, by decide +kernel, by decide +kernel, rfl, by decide +kernel⟩⟩

theorem witness_GlazeProgramsEndOrAreAbandoned_2 :
    ∃ (a n : Nat) (t : Thread) (s : State),
      kget (arrayOf s a).threads n = some t ∧ 2 ^ 20 ≤ t.executed :=
  ⟨17, 0, { thread0 0 with executed := 2 ^ 20 },
   { State.reset with arrays := [(17, { ArrayState.reset with threads := [(0, { thread0 0 with executed := 2 ^ 20 })] })] },
   by decide +kernel⟩

theorem witness_TileStepsWalkTheirMmo_1 :
    ∃ (a n : Nat) (m : Mmo) (r : Route) (f : Flight) (s : State),
      let pos := m.position
      let want := [0, 1].filter (fun k => (m.operand k).kind == 2)
      let tile := stepAt' m.desc pos
      let c := consumeAll (want.map (fun k => Landing.staging a (stagingAddress s m k pos))) s
      let there := (∀ k ∈ want, windowLanded m k pos = true) ∧ tileFree m tile.1 tile.2.1 = true
      kget (arrayOf s a).mmos n = some m ∧ routeOf s m.slot = some r ∧
      ((stationOf s m.slot m.station).flight.find? (fun f => f.op == m.op && f.tag == m.tag) = some f) ∧ m.position < stepCount m.desc ∧
      arrayWorks s a m.slot = true ∧ stepSkipped m pos = true :=
  ⟨17, 0, { mmo0 mmoDesc0 0 with meff := 0 }, routeA (opOf 0 1), { flight0 with finished := false },
   tiling { mmo0 mmoDesc0 0 with meff := 0 },
   by decide +kernel⟩

theorem witness_TileStepsWalkTheirMmo_2 :
    ∃ (a n : Nat) (m : Mmo) (r : Route) (f : Flight) (s : State),
      let pos := m.position
      let want := [0, 1].filter (fun k => (m.operand k).kind == 2)
      let tile := stepAt' m.desc pos
      let c := consumeAll (want.map (fun k => Landing.staging a (stagingAddress s m k pos))) s
      let there := (∀ k ∈ want, windowLanded m k pos = true) ∧ tileFree m tile.1 tile.2.1 = true
      kget (arrayOf s a).mmos n = some m ∧ routeOf s m.slot = some r ∧
      ((stationOf s m.slot m.station).flight.find? (fun f => f.op == m.op && f.tag == m.tag) = some f) ∧ m.position < stepCount m.desc ∧
      arrayWorks s a m.slot = true ∧ stepSkipped m pos = false ∧ (∃ k ∈ want, windowPlaced s a n k pos m = false) :=
  ⟨17, 0, mmo0 windowDesc 0, routeA (opOf 0 1), { flight0 with finished := false }, tiling (mmo0 windowDesc 0),
   by decide +kernel⟩

theorem witness_TileStepsWalkTheirMmo_3 :
    ∃ (a n : Nat) (m : Mmo) (r : Route) (f : Flight) (s : State),
      let pos := m.position
      let want := [0, 1].filter (fun k => (m.operand k).kind == 2)
      let tile := stepAt' m.desc pos
      let c := consumeAll (want.map (fun k => Landing.staging a (stagingAddress s m k pos))) s
      let there := (∀ k ∈ want, windowLanded m k pos = true) ∧ tileFree m tile.1 tile.2.1 = true
      kget (arrayOf s a).mmos n = some m ∧ routeOf s m.slot = some r ∧
      ((stationOf s m.slot m.station).flight.find? (fun f => f.op == m.op && f.tag == m.tag) = some f) ∧ m.position < stepCount m.desc ∧
      arrayWorks s a m.slot = true ∧ stepSkipped m pos = false ∧ (∀ k ∈ want, windowPlaced s a n k pos m = true) ∧ ¬ there :=
  ⟨17, 0, mmo0 windowDesc 0, routeA (opOf 0 1), { flight0 with finished := false },
   engineAt { transfer0 desc0 0 with origin := .window 0 0 0 } (tiling (mmo0 windowDesc 0)),
   by decide +kernel⟩

theorem witness_TileStepsWalkTheirMmo_4 :
    ∃ (a n : Nat) (m : Mmo) (r : Route) (f : Flight) (s : State),
      let pos := m.position
      let want := [0, 1].filter (fun k => (m.operand k).kind == 2)
      let tile := stepAt' m.desc pos
      let c := consumeAll (want.map (fun k => Landing.staging a (stagingAddress s m k pos))) s
      let there := (∀ k ∈ want, windowLanded m k pos = true) ∧ tileFree m tile.1 tile.2.1 = true
      kget (arrayOf s a).mmos n = some m ∧ routeOf s m.slot = some r ∧
      ((stationOf s m.slot m.station).flight.find? (fun f => f.op == m.op && f.tag == m.tag) = some f) ∧ m.position < stepCount m.desc ∧
      arrayWorks s a m.slot = true ∧ stepSkipped m pos = false ∧ there ∧ c.2 = .wait :=
  ⟨17, 0, landed0, routeA (opOf 0 1), { flight0 with finished := false }, withCopy (copy0 (.staging 17 0) true 0) (tiling landed0),
   by decide +kernel⟩

theorem witness_TileStepsWalkTheirMmo_5 :
    ∃ (a n : Nat) (m : Mmo) (r : Route) (f : Flight) (s : State),
      let pos := m.position
      let want := [0, 1].filter (fun k => (m.operand k).kind == 2)
      let tile := stepAt' m.desc pos
      let c := consumeAll (want.map (fun k => Landing.staging a (stagingAddress s m k pos))) s
      let there := (∀ k ∈ want, windowLanded m k pos = true) ∧ tileFree m tile.1 tile.2.1 = true
      kget (arrayOf s a).mmos n = some m ∧ routeOf s m.slot = some r ∧
      ((stationOf s m.slot m.station).flight.find? (fun f => f.op == m.op && f.tag == m.tag) = some f) ∧ m.position < stepCount m.desc ∧
      arrayWorks s a m.slot = true ∧ stepSkipped m pos = false ∧ there ∧ c.2 = .fail :=
  ⟨17, 0, landed0, routeA (opOf 0 1), { flight0 with finished := false }, withCopy (copy0 (.staging 17 0) false 200) (tiling landed0),
   by decide +kernel⟩

theorem witness_TileStepsWalkTheirMmo_6 :
    ∃ (a n : Nat) (m : Mmo) (r : Route) (f : Flight) (s : State),
      let pos := m.position
      let want := [0, 1].filter (fun k => (m.operand k).kind == 2)
      let tile := stepAt' m.desc pos
      let c := consumeAll (want.map (fun k => Landing.staging a (stagingAddress s m k pos))) s
      let there := (∀ k ∈ want, windowLanded m k pos = true) ∧ tileFree m tile.1 tile.2.1 = true
      kget (arrayOf s a).mmos n = some m ∧ routeOf s m.slot = some r ∧
      ((stationOf s m.slot m.station).flight.find? (fun f => f.op == m.op && f.tag == m.tag) = some f) ∧ m.position < stepCount m.desc ∧
      arrayWorks s a m.slot = true ∧ stepSkipped m pos = false ∧ there ∧ c.2 = .ok :=
  ⟨17, 0, landed0, routeA (opOf 0 1), { flight0 with finished := false }, tiling landed0,
   by decide +kernel⟩

theorem witness_TileStepsWalkTheirMmo_7 :
    ∃ (a n : Nat) (m : Mmo) (r : Route) (f : Flight) (s : State) (u : _),
      let pos := m.position
      let want := [0, 1].filter (fun k => (m.operand k).kind == 2)
      let tile := stepAt' m.desc pos
      let c := consumeAll (want.map (fun k => Landing.staging a (stagingAddress s m k pos))) s
      let there := (∀ k ∈ want, windowLanded m k pos = true) ∧ tileFree m tile.1 tile.2.1 = true
      let rows := validRowsOf m.desc m.meff tile.1
      let span := min m.desc.kt (m.keff - tile.2.2 * m.desc.kt)
      let total := passesOf (classOf u m) (splitOf u m) m.desc span
      let run := (runsNow u a m rows span (total - m.pass) m.pass (max u.clock (arrayOf u a).cells.streams)).length
      kget (arrayOf s a).mmos n = some m ∧ routeOf s m.slot = some r ∧
      ((stationOf s m.slot m.station).flight.find? (fun f => f.op == m.op && f.tag == m.tag) = some f) ∧ m.position < stepCount m.desc ∧
      arrayWorks s a m.slot = true :=
  ⟨17, 0, landed0, routeA (opOf 0 1), { flight0 with finished := false }, tiling landed0, tiling landed0,
   by decide +kernel⟩

theorem witness_OutputsDrainAndMmosEnd_1 :
    ∃ (a n i j : Nat) (m : Mmo) (r : Route) (o : StreamRow) (s : State),
      let program := (((r.station m.station).bind (fun st => st.ops[m.op]?)).map (·.program)).getD 0
      let index := i * ceilDiv m.desc.n m.desc.nt + j
      let tag := BitVec.ofNat 32 (m.tag.toNat / 65536 * 65536 + (tagIndex m.tag + index) % 65536)
      let row := rowBytes (formatFor s m.slot m.desc.formatC) m.desc.nt
      let payload := (drainRows s a r m program (decide (m.keff = 0)) i j).flatMap (·.1) ++ zeroBytes ((m.desc.mt - validRowsOf m.desc m.meff i) * row)
      kget (arrayOf s a).mmos n = some m ∧ routeOf s m.slot = some r ∧ m.desc.delivery = 0 ∧ nextDrain m = some (i, j) ∧
      r.output m.station m.desc.output = some o ∧ (streamOf s m.slot o.number).stopped = false :=
  ⟨17, 0, 0, 0, mmo0 mmoDesc0 1, routeA (opOf 0 1), ⟨3, 0, 0, 0, 0, 0, none, none, none, []⟩, tiling (mmo0 mmoDesc0 1),
   by decide +kernel⟩

theorem witness_OutputsDrainAndMmosEnd_2 :
    ∃ (a n i j : Nat) (m : Mmo) (r : Route) (s : State),
      kget (arrayOf s a).mmos n = some m ∧ routeOf s m.slot = some r ∧ m.desc.delivery ≠ 2 ∧ nextDrain m = some (i, j) :=
  ⟨17, 0, 0, 0, mmo0 { mmoDesc0 with delivery := 1 } 1, routeA (opOf 0 1),
   onRoute (routeA (opOf 0 1)) StationState.fresh (tiling (mmo0 { mmoDesc0 with delivery := 1 } 1)),
   by decide +kernel⟩

theorem witness_OutputsDrainAndMmosEnd_3 :
    ∃ (a n : Nat) (m : Mmo) (r : Route) (s : State),
      kget (arrayOf s a).mmos n = some m ∧ routeOf s m.slot = some r ∧ mmoOver m = true ∧ (m.desc.delivery = 2 ∨ nextDrain m = none) :=
  ⟨17, 0, mmo0 { mmoDesc0 with delivery := 2 } 1, routeA (opOf 0 1), tiling (mmo0 { mmoDesc0 with delivery := 2 } 1),
   by decide +kernel⟩

theorem witness_TransfersIssueLandAndAcknowledge_1 :
    ∃ (a : Nat) (t : Transfer) (rest : List Transfer) (s : State),
      let ok := (engineOf s a).outstanding.length < arrayLimit ∧ (∀ p, pairOf (engineOf s a) t.desc = some p → 0 < p.2.credits) ∧ engineFree s a t.slot = true ∧ draining (engineOf s a) t = false ∧ holdClear s t.slot t.hold = true
      (engineOf s a).queue = t :: rest ∧ ok :=
  ⟨17, transfer0 desc0 0, [], withEngine [transfer0 desc0 0] [] State.reset,
   by decide +kernel,
   ⟨by decide +kernel, (fun p h => nomatch (show none = some p from h)), by decide +kernel, by decide +kernel, by decide +kernel⟩⟩

theorem witness_TransfersIssueLandAndAcknowledge_2 :
    ∃ (a : Nat) (t : Transfer) (rest : List Transfer) (s : State),
      let ok := (engineOf s a).outstanding.length < arrayLimit ∧ (∀ p, pairOf (engineOf s a) t.desc = some p → 0 < p.2.credits) ∧ engineFree s a t.slot = true ∧ draining (engineOf s a) t = false ∧ holdClear s t.slot t.hold = true
      (engineOf s a).queue = t :: rest ∧ ¬ ok :=
  ⟨17, transfer0 desc0 0, [], withEngine [transfer0 desc0 0] [] { State.reset with fab := { Fabric.reset with holders := [(17, 1)] } },
   by decide +kernel, (fun h => absurd h.2.2.1 (by decide +kernel))⟩

theorem witness_TransfersIssueLandAndAcknowledge_3 :
    ∃ (a : Nat) (t : Transfer) (s : State),
      t.desc.runAhead = false ∧ leavesExtent t.desc = true :=
  ⟨17, transfer0 { desc0 with sourceOffset := 65473, sourcePages := 1 } 0, withEngine [] [] State.reset,
   by decide +kernel⟩

theorem witness_TransfersIssueLandAndAcknowledge_4 :
    ∃ (a : Nat) (t : Transfer) (s : State),
      let u := issueHead a t s
      (t.desc.runAhead = true ∨ leavesExtent t.desc = false) ∧ t.desc.pair = 0xFFFF ∧ storePages s t.desc = [] :=
  ⟨17, transfer0 desc0 0, withEngine [transfer0 desc0 0] [] State.reset,
   by decide +kernel⟩

theorem witness_TransfersIssueLandAndAcknowledge_5 :
    ∃ (a id k : Nat) (t : Transfer) (q : Request) (s : State),
      let p := (if t.desc.kind = 1 then q.dest else q.address) / pageBytes
      let u := unitOf s (t.desc.cargoHandle % 65536) p
      let ok := requestsAt s u < unitLimit s u.1 ∧ granuleBusy (engineOf s a) t q = false ∧ inCluster s a t q = true ∧ (t.desc.kind = 1 ∨ updateClear s t (t.desc.cargoHandle % 65536) p = true)
      let c := checkPage s t q
      let g := grantAll (partitionsOf c.1 t q) a c.1
      findTransfer (engineOf s a) id = some t ∧ (t.requests.zipIdx.find? (fun x => x.1.state == 0) = some (q, k)) ∧ ¬ ok :=
  ⟨17, 0, 0, transfer0 { desc0 with flags := 4 } 0, request 0, withEngine [] [transfer0 { desc0 with flags := 4 } 0] State.reset,
   by decide +kernel⟩

theorem witness_TransfersIssueLandAndAcknowledge_6 :
    ∃ (a id k : Nat) (t : Transfer) (q : Request) (s : State),
      let p := (if t.desc.kind = 1 then q.dest else q.address) / pageBytes
      let u := unitOf s (t.desc.cargoHandle % 65536) p
      let ok := requestsAt s u < unitLimit s u.1 ∧ granuleBusy (engineOf s a) t q = false ∧ inCluster s a t q = true ∧ (t.desc.kind = 1 ∨ updateClear s t (t.desc.cargoHandle % 65536) p = true)
      let c := checkPage s t q
      let g := grantAll (partitionsOf c.1 t q) a c.1
      findTransfer (engineOf s a) id = some t ∧ (t.requests.zipIdx.find? (fun x => x.1.state == 0) = some (q, k)) ∧ ok ∧ c.2 = .wait :=
  ⟨17, 0, 0, transfer0 desc0 0, request 0, withCopy (copy0 (.page 0 0) true 0) (withEngine [] [transfer0 desc0 0] State.reset),
   by decide +kernel⟩

theorem witness_TransfersIssueLandAndAcknowledge_7 :
    ∃ (a id k : Nat) (t : Transfer) (q : Request) (s : State),
      let p := (if t.desc.kind = 1 then q.dest else q.address) / pageBytes
      let u := unitOf s (t.desc.cargoHandle % 65536) p
      let ok := requestsAt s u < unitLimit s u.1 ∧ granuleBusy (engineOf s a) t q = false ∧ inCluster s a t q = true ∧ (t.desc.kind = 1 ∨ updateClear s t (t.desc.cargoHandle % 65536) p = true)
      let c := checkPage s t q
      let g := grantAll (partitionsOf c.1 t q) a c.1
      findTransfer (engineOf s a) id = some t ∧ (t.requests.zipIdx.find? (fun x => x.1.state == 0) = some (q, k)) ∧ ok ∧ c.2 = .fail :=
  ⟨17, 0, 0, transfer0 desc0 0, request 0, withCopy (copy0 (.page 0 0) false 200) (withEngine [] [transfer0 desc0 0] State.reset),
   by decide +kernel⟩

theorem witness_TransfersIssueLandAndAcknowledge_8 :
    ∃ (a id k : Nat) (t : Transfer) (q : Request) (s : State),
      let p := (if t.desc.kind = 1 then q.dest else q.address) / pageBytes
      let u := unitOf s (t.desc.cargoHandle % 65536) p
      let ok := requestsAt s u < unitLimit s u.1 ∧ granuleBusy (engineOf s a) t q = false ∧ inCluster s a t q = true ∧ (t.desc.kind = 1 ∨ updateClear s t (t.desc.cargoHandle % 65536) p = true)
      let c := checkPage s t q
      let g := grantAll (partitionsOf c.1 t q) a c.1
      findTransfer (engineOf s a) id = some t ∧ (t.requests.zipIdx.find? (fun x => x.1.state == 0) = some (q, k)) ∧ ok ∧ c.2 = .ok :=
  ⟨17, 0, 0, transfer0 desc0 0, request 0, withEngine [] [transfer0 desc0 0] State.reset,
   by decide +kernel⟩

theorem witness_TransfersIssueLandAndAcknowledge_9 :
    ∃ (n a : Nat) (s : State),
      let port := kgetD PartitionPort.idle s.mem.ports n
      let moved := if port.cycle = s.clock then port.moved else 0
      let g := grantAt n a s
      moved < 2 ∧ (∀ x ∈ port.waiting, x ≠ a → waitsAt s n x = true → (a + 256 - port.next) % 256 ≤ (x + 256 - port.next) % 256) :=
  ⟨0, 17, State.reset,
   by decide +kernel⟩

theorem witness_TransfersIssueLandAndAcknowledge_10 :
    ∃ (n a : Nat) (s : State),
      let port := kgetD PartitionPort.idle s.mem.ports n
      let moved := if port.cycle = s.clock then port.moved else 0
      let g := grantAt n a s
      (2 ≤ moved ∨ (∃ x ∈ port.waiting, x ≠ a ∧ waitsAt s n x = true ∧ (x + 256 - port.next) % 256 < (a + 256 - port.next) % 256)) :=
  ⟨0, 17, { State.reset with mem := { State.reset.mem with ports := [(0, ⟨0, 2, 0, []⟩)] } },
   by decide +kernel⟩

theorem witness_TransfersIssueLandAndAcknowledge_11 :
    ∃ (a k : Nat) (t : Transfer) (q : Request) (s : State),
      t.desc.kind = 0 ∧ t.desc.runAhead = false ∧ (cargoAt s t.desc.source).2.state = 1 ∧ (cargoAt s t.desc.source).2.farCached = false ∧
      (cargoAt s t.desc.source).2.tier ≤ 2 ∧ unmapped s (cargoAt s t.desc.source).1 (q.address / pageBytes) = false :=
  ⟨17, 0, transfer0 desc0 0, request 0, withEngine [] [] State.reset,
   by decide +kernel⟩

theorem witness_TransfersIssueLandAndAcknowledge_12 :
    ∃ (a id k : Nat) (d : Bytes) (t : Transfer) (q : Request) (s : State),
      findTransfer (engineOf s a) id = some t ∧ t.requests[k]? = some q ∧ q.state = 1 ∧ t.desc.kind = 0 ∧ t.cancelled = false ∧
      t.resolved = false ∧ (cargoAt s t.desc.source).2.farCached = false ∧ (cargoAt s t.desc.source).2.tier ≠ 4 ∧
      (∀ core thread, t.origin ≠ .drover core thread) :=
  ⟨17, 0, 0, zeroBytes 64, transfer0 desc0 1, request 1, withEngine [] [transfer0 desc0 1] State.reset,
   by decide +kernel, by decide +kernel, by decide +kernel, by decide +kernel, by decide +kernel, by decide +kernel, by decide +kernel,
   by decide +kernel, (fun _ _ h => nomatch h)⟩

theorem witness_TransfersIssueLandAndAcknowledge_13 :
    ∃ (a id k : Nat) (t : Transfer) (q : Request) (s : State),
      findTransfer (engineOf s a) id = some t ∧ t.requests[k]? = some q ∧ q.state = 1 ∧ t.desc.kind = 1 :=
  ⟨17, 0, 0, transfer0 { desc0 with kind := 1, source := 0xFFFFFFFF, dest := 0 } 1, request 1,
   withEngine [] [transfer0 { desc0 with kind := 1, source := 0xFFFFFFFF, dest := 0 } 1] State.reset,
   by decide +kernel⟩

theorem witness_DroversAndLateReads_1 :
    ∃ (a core thread slot offset length : Nat) (store : Bool) (handle : Nat) (data : Bytes) (tag : Word) (r : Route) (m : ManifestEntry) (s : State),
      routeOf s slot = some r ∧ (r.manifest.find? (fun m => m.handle == handle && (if store then m.write else m.read)) = some m) ∧
      core < 2 ∧ thread < 16 ∧ length ≠ 0 ∧ length ≤ 256 ∧ (kgetD ⟨0, []⟩ (engineOf s a).drovers (core * 16 + thread)).state ≠ 2 ∧
      (engineOf s a).outstanding.length < arrayLimit ∧
      (((engineOf s a).outstanding.filter (fun t => match t.origin with | .drover _ _ => true | _ => false)).length < setting s 0x3601 0) ∧
      engineFree s a slot = true :=
  ⟨17, 1, 15, 0, 0, 256, false, 0, [], 0, { routeA (opOf 1 1) with manifest := [⟨0, 0, true, false, 0, 1, false⟩] },
   ⟨0, 0, true, false, 0, 1, false⟩,
   withCargo cargo0 (onRoute { routeA (opOf 1 1) with manifest := [⟨0, 0, true, false, 0, 1, false⟩] } StationState.fresh State.reset),
   by decide +kernel⟩

theorem witness_DroversAndLateReads_2 :
    ∃ (a id : Nat) (t : Transfer) (r : Route) (s : State),
      let m := lateMargin s (cargoAt s t.desc.source).2
      let b := (slotOf s t.slot).beat
      let mine := r.plan.due.filter (fun d => ((BitVec.ofNat 32 t.desc.tag ^^^ d.value) &&& d.mask) == 0)
      let passed := ∃ d ∈ mine, d.beat < b.offset ∨ (d.beat = b.offset ∧ b.phase ≠ 0 ∧ b.opened + (b.period - 64 - m) ≤ s.clock)
      findTransfer (engineOf s a) id = some t ∧ t.desc.kind ≠ 1 ∧ (cargoAt s t.desc.source).2.tier ≠ 0 ∧ t.resolved = false ∧
      t.cancelled = false ∧ routeOf s t.slot = some r ∧ r.training = true ∧ (∀ k, t.origin ≠ .prefetch k true) ∧
      t.step = (slotOf s t.slot).train.step ∧ passed :=
  ⟨17, 0, transfer0 desc0 0, dueRoute, duing 1 4096,
   by decide +kernel, by decide +kernel, by decide +kernel, by decide +kernel, by decide +kernel, by decide +kernel, by decide +kernel,
   (fun _ h => nomatch h), by decide +kernel⟩

theorem witness_DroversAndLateReads_3 :
    ∃ (a id : Nat) (t : Transfer) (r : Route) (s : State),
      let m := lateMargin s (cargoAt s t.desc.source).2
      let b := (slotOf s t.slot).beat
      let mine := r.plan.due.filter (fun d => ((BitVec.ofNat 32 t.desc.tag ^^^ d.value) &&& d.mask) == 0)
      let passed := ∃ d ∈ mine, d.beat < b.offset ∨ (d.beat = b.offset ∧ b.phase ≠ 0 ∧ b.opened + (b.period - 64 - m) ≤ s.clock)
      findTransfer (engineOf s a) id = some t ∧ t.desc.kind ≠ 1 ∧ (cargoAt s t.desc.source).2.tier ≠ 0 ∧ t.resolved = false ∧
      t.cancelled = false ∧ routeOf s t.slot = some r ∧ r.training = true ∧ (∀ k, t.origin ≠ .prefetch k true) ∧
      t.step = (slotOf s t.slot).train.step ∧ ¬ passed :=
  ⟨17, 0, transfer0 desc0 0, dueRoute, duing 0 4096,
   by decide +kernel, by decide +kernel, by decide +kernel, by decide +kernel, by decide +kernel, by decide +kernel, by decide +kernel,
   (fun _ h => nomatch h), by decide +kernel⟩

theorem witness_DroversAndLateReads_4 :
    ∃ (a id : Nat) (t : Transfer) (r : Route) (s : State),
      findTransfer (engineOf s a) id = some t ∧ t.desc.kind ≠ 1 ∧ (cargoAt s t.desc.source).2.tier ≠ 0 ∧ t.resolved = false ∧
      t.cancelled = false ∧ routeOf s t.slot = some r ∧ r.training = false ∧ (∀ k next, t.origin ≠ .prefetch k next) ∧
      (∃ d ∈ r.plan.due, ((BitVec.ofNat 32 t.desc.tag ^^^ d.value) &&& d.mask) = 0 ∧ ∃ q ∈ (serveOf s t.slot).requests, q.line = tagMicro (BitVec.ofNat 32 t.desc.tag) ∧ q.phase = 1 ∧ pastLate s t.slot (lateMargin s (cargoAt s t.desc.source).2) (slotOf s t.slot).beat.count (q.entry + d.beat) = true) :=
  ⟨17, 0, { transfer0 desc0 0 with origin := .move 0 0 0 }, dueServing,
   withCargo stashedCargo (withEngine [] [{ transfer0 desc0 0 with origin := .move 0 0 0 }] (withSlot { slot0 with route := some dueServing, beat := { SlotBeat.idle with phase := 1, count := 5 } } { State.reset with serves := [(0, { Serve.none with requests := [query0 5 1] })] })),
   by decide +kernel, by decide +kernel, by decide +kernel, by decide +kernel, by decide +kernel, by decide +kernel, by decide +kernel,
   (fun _ _ h => nomatch h), by decide +kernel⟩

theorem witness_DroversAndLateReads_5 :
    ∃ (a id : Nat) (t : Transfer) (s : State),
      let c := cargoAt s t.desc.source
      let v := (t.requests.filter (fun q => q.state == 1)).foldl (fun s q => refillFail c.1 (q.address / pageBytes) s) s
      findTransfer (engineOf s a) id = some t ∧ t.desc.kind ≠ 1 ∧ t.resolved = false ∧ t.cancelled = false ∧
      3 ≤ (cargoAt s t.desc.source).2.tier :=
  ⟨17, 0, transfer0 desc0 0, withCargo stashedCargo (withEngine [] [transfer0 desc0 0] State.reset),
   by decide +kernel⟩

theorem witness_DroversAndLateReads_6 :
    ∃ (a : Nat) (t : Transfer) (s : State),
      let c := (cargoAt s t.desc.source).2
      let late := t.requests.filter (fun q => t.requests.any (fun x => x.state != 2 && x.address / pageBytes == q.address / pageBytes))
      c.lateAction = 0 :=
  ⟨17, transfer0 desc0 0, withCargo cargo0 State.reset,
   by decide +kernel⟩

theorem witness_DroversAndLateReads_7 :
    ∃ (a : Nat) (t : Transfer) (s : State),
      let c := (cargoAt s t.desc.source).2
      let late := t.requests.filter (fun q => t.requests.any (fun x => x.state != 2 && x.address / pageBytes == q.address / pageBytes))
      c.lateAction = 0 :=
  ⟨17, transfer0 desc0 0, withCargo cargo0 State.reset,
   by decide +kernel⟩

theorem witness_DroversAndLateReads_8 :
    ∃ (a : Nat) (t : Transfer) (s : State) (failed : Bool),
      let c := (cargoAt s t.desc.source).2
      let late := t.requests.filter (fun q => t.requests.any (fun x => x.state != 2 && x.address / pageBytes == q.address / pageBytes))
      c.lateAction = 2 :=
  ⟨17, transfer0 desc0 0, withCargo { cargo0 with attr := zeroBytes 16 ++ le 4 1 ++ [1, 0, 2] ++ zeroBytes 25 } State.reset, false,
   by decide +kernel⟩

theorem witness_CargoOperationsActOnTheirPages_1 :
    ∃ (who : Who) (b : Bytes) (i : Nat) (c : Cargo) (ps : List Nat) (s : State),
      let q := cargoAsk 3 b
      let a := lastOf 0x2510 0 q
      Passes who a s ∧ OnCargo who q i c ps s ∧ c.state ≠ 2 ∧ c.farCached = true ∧
      (((s.mem.cache.filter (fun f => f.pinned)).length + ps.length - (s.mem.cache.filter (fun f => f.pinned && f.cargo == i && field q 8 4 ≤ f.page && f.page < field q 8 4 + ps.length)).length) * 100 ≤ setting s 0x3502 0 * cacheCapacity s) :=
  ⟨who0, ask0 (zeroBytes 48), 0, farCargo, [0], expert (withCargo farCargo State.reset),
   ⟨by decide +kernel, by decide +kernel, by decide +kernel, by decide +kernel, by decide +kernel⟩,
   ⟨by decide +kernel, by decide +kernel, by decide +kernel, by decide +kernel, ⟨1, by decide +kernel, by decide +kernel, by decide +kernel⟩⟩,
   by decide +kernel⟩

theorem witness_CargoOperationsActOnTheirPages_2 :
    ∃ (who : Who) (b : Bytes) (i : Nat) (c : Cargo) (ps : List Nat) (s : State),
      let a := lastOf 0x2510 0 (cargoAsk 4 b)
      c.state ≠ 2 ∧ c.farCached = true ∧ Passes who a s ∧ OnCargo who (cargoAsk 4 b) i c ps s :=
  ⟨who0, ask0 (zeroBytes 48), 0, farCargo, [0], expert (withCargo farCargo State.reset),
   by decide +kernel, by decide +kernel, ⟨by decide +kernel, by decide +kernel, by decide +kernel, by decide +kernel, by decide +kernel⟩,
   ⟨by decide +kernel, by decide +kernel, by decide +kernel, by decide +kernel, ⟨1, by decide +kernel, by decide +kernel, by decide +kernel⟩⟩⟩

theorem witness_CargoOperationsActOnTheirPages_3 :
    ∃ (who : Who) (b : Bytes) (i : Nat) (c : Cargo) (ps : List Nat) (s : State),
      let a := lastOf 0x2510 0 (cargoAsk 6 b)
      c.state ≠ 2 ∧ c.farCached = true ∧ Passes who a s ∧ OnCargo who (cargoAsk 6 b) i c ps s :=
  ⟨who0, ask0 (zeroBytes 48), 0, farCargo, [0], expert (withCargo farCargo State.reset),
   by decide +kernel, by decide +kernel, ⟨by decide +kernel, by decide +kernel, by decide +kernel, by decide +kernel, by decide +kernel⟩,
   ⟨by decide +kernel, by decide +kernel, by decide +kernel, by decide +kernel, ⟨1, by decide +kernel, by decide +kernel, by decide +kernel⟩⟩⟩

theorem witness_CargoOperationsActOnTheirPages_4 :
    ∃ (who : Who) (b : Bytes) (i : Nat) (c : Cargo) (ps : List Nat) (s : State),
      let a := lastOf 0x2510 0 (cargoAsk 7 b)
      c.state ≠ 2 ∧ c.farCached = true ∧ Passes who a s ∧ OnCargo who (cargoAsk 7 b) i c ps s :=
  ⟨who0, ask0 (zeroBytes 48), 0, farCargo, [0], expert (withCargo farCargo State.reset),
   by decide +kernel, by decide +kernel, ⟨by decide +kernel, by decide +kernel, by decide +kernel, by decide +kernel, by decide +kernel⟩,
   ⟨by decide +kernel, by decide +kernel, by decide +kernel, by decide +kernel, ⟨1, by decide +kernel, by decide +kernel, by decide +kernel⟩⟩⟩

theorem witness_CargoOperationsActOnTheirPages_5 :
    ∃ (who : Who) (b : Bytes) (i : Nat) (c : Cargo) (ps : List Nat) (s : State),
      let q := cargoAsk 5 b
      let a := lastOf 0x2510 0 q
      let attr := slice q 16 48
      Passes who a s ∧ OnCargo who q i c ps s ∧ slice attr 0 22 = slice c.attr 0 22 ∧ slice attr 28 8 = slice c.attr 28 8 ∧
      slice attr 40 8 = slice c.attr 40 8 ∧
      firstStatus (attrChecks s who.client attr [broken c, (manifestReads s (field q 4 4), stState)]) = stOk :=
  ⟨who0, ask0 (farAttr), 0, { farCargo with attr := farAttr }, [0], expert (withCargo { farCargo with attr := farAttr } State.reset),
   ⟨by decide +kernel, by decide +kernel, by decide +kernel, by decide +kernel, by decide +kernel⟩,
   ⟨by decide +kernel, by decide +kernel, by decide +kernel, by decide +kernel, ⟨1, by decide +kernel, by decide +kernel, by decide +kernel⟩⟩,
   by decide +kernel⟩

theorem witness_CargoesAreCreatedFreedAndScrubbed_1 :
    ∃ (who : Who) (b : Bytes) (s : State),
      let q := cargoAsk 1 b
      let a := lastOf 0x2510 0 q
      let attr := slice q 16 48
      let i := lowestFree s
      Passes who a s ∧ (progressOf s who.client).2 ≠ 1 ∧ zeroAt q 1 3 = true ∧ field q 4 4 = 0xFFFFFFFF ∧
      firstStatus (attrChecks s who.client attr [] ++ createChecks s ⟨1, who.client, 0, attr, [], false⟩) = stOk :=
  ⟨who0, zeroBytes 4 ++ [255, 255, 255, 255] ++ zeroBytes 8 ++ attr0, expert State.reset,
   ⟨by decide +kernel, by decide +kernel, by decide +kernel, by decide +kernel, by decide +kernel⟩, by decide +kernel⟩

theorem witness_CargoesAreCreatedFreedAndScrubbed_2 :
    ∃ (who : Who) (b : Bytes) (i : Nat) (c : Cargo) (ps : List Nat) (s : State),
      let q := cargoAsk 2 b
      let a := lastOf 0x2510 0 q
      Passes who a s ∧ OnCargo who q i c ps s ∧ manifestNames s (field q 4 4) = false ∧ holdsImage s (field q 4 4) = false :=
  ⟨who0, ask0 (zeroBytes 48), 0, cargo0, [0], expert (withCargo cargo0 State.reset),
   ⟨by decide +kernel, by decide +kernel, by decide +kernel, by decide +kernel, by decide +kernel⟩,
   ⟨by decide +kernel, by decide +kernel, by decide +kernel, by decide +kernel, ⟨1, by decide +kernel, by decide +kernel, by decide +kernel⟩⟩,
   by decide +kernel⟩

theorem witness_CargoesAreCreatedFreedAndScrubbed_4 :
    ∃ (n h : Nat) (s : State),
      let u := workOn n (kgetD [] s.mem.working n) s
      firmwareRuns s = true ∧ progressOf s n = (h, 1) :=
  ⟨0, 7, { State.reset with mem := { State.reset.mem with progress := [(0, (7, 1))] } },
   by decide +kernel⟩

theorem witness_CargoesAreCreatedFreedAndScrubbed_5 :
    ∃ (stack frame : Nat) (f : CacheFrame) (s : State),
      powered s = true ∧
      (s.mem.cache.find? (fun f => f.stack == stack && f.frame == frame && f.dirty && f.retry.any (fun b => decide (b < s.beat.count))) = some f) :=
  ⟨15, 0, ⟨15, 0, 0, 0, 0, true, false, 0, 0, false, false, true, false, some 0⟩,
   { State.reset with beat := { Beat.reset with count := 1 }, mem := { State.reset.mem with cache := [⟨15, 0, 0, 0, 0, true, false, 0, 0, false, false, true, false, some 0⟩] } },
   by decide +kernel⟩

theorem witness_CargoesAreCreatedFreedAndScrubbed_6 :
    ∃ (kind unit : Nat) (fs : List ScrubFinding) (s : State),
      let k := kind * 256 + unit
      powered s = true ∧ scrubPeriods s ≤ kgetD 0 s.mem.scrubbed k :=
  ⟨0, 15, [], { State.reset with mem := { State.reset.mem with scrubbed := [(15, 1)] } },
   by decide +kernel⟩

theorem witness_CargoesAreCreatedFreedAndScrubbed_7 :
    ∃ (kind unit : Nat) (fs : List ScrubFinding) (s : State),
      let k := kind * 256 + unit
      powered s = true ∧ kgetD 0 s.mem.scrubbed k < scrubPeriods s ∧ (∀ f ∈ fs, f.correctable = true) :=
  ⟨0, 15, [⟨true, 0, 0, 0, 0⟩], State.reset,
   by decide +kernel⟩

theorem witness_CargoesAreCreatedFreedAndScrubbed_8 :
    ∃ (kind unit : Nat) (f : ScrubFinding) (s : State),
      powered s = true ∧ f.correctable = false ∧ f.owner = 1 ∧ kgetD 0 s.mem.scrubbed (kind * 256 + unit) < scrubPeriods s :=
  ⟨0, 15, ⟨false, 0, 1, 0, 0⟩, withCargo cargo0 State.reset,
   by decide +kernel⟩

theorem witness_FlashIsProgrammedAndMaintained_1 :
    ∃ (page die b : Nat) (s : State),
      let x := setOf s.flash b
      nextCommitted s.flash = some page ∧ nextDie s.flash = some (die, b) :=
  ⟨7, 95, 95, { State.reset with flash := { Flash.reset with stores := [⟨0, 0, [], [], [7]⟩], openSets := [(95, 95)], nextDie := 95 } },
   by decide +kernel⟩

theorem witness_FlashIsProgrammedAndMaintained_2 :
    ∃ (die b : Nat) (s : State),
      nextDie s.flash = some (die, b) :=
  ⟨95, 95, { State.reset with flash := { Flash.reset with openSets := [(95, 95)], nextDie := 95 } },
   by decide +kernel⟩

theorem witness_FlashIsProgrammedAndMaintained_3 :
    ∃ (s : State),
      (nextCommitted s.flash = none ∨ nextDie s.flash = none) :=
  ⟨State.reset,
   by decide +kernel⟩

theorem witness_FlashIsProgrammedAndMaintained_4 :
    ∃ (s : State),
      journalLimit s ≤ s.flash.journal :=
  ⟨{ State.reset with flash := { Flash.reset with journal := 2 ^ 40 } },
   by decide +kernel⟩

theorem witness_FlashIsProgrammedAndMaintained_5 :
    ∃ (page retries b k : Nat) (bad : Bool) (s : State),
      kget s.flash.map page = some (b, k) :=
  ⟨7, 3, 95, 5, true, { State.reset with flash := { Flash.reset with map := [(7, (95, 5))] } },
   by decide +kernel⟩

theorem witness_FlashIsProgrammedAndMaintained_7 :
    ∃ (b : Nat) (s : State),
      s.power.sequence = 0 ∧ erasedSets s.flash < 4096 ∧ (leastSet s (fun x _ => (validPages s.flash x).length) = some b) :=
  ⟨0, { State.reset with flash := crowded 143361 },
   by decide +kernel, (crowded_erased 143361 ▸ by decide), crowded_least 143361 _ rfl⟩

theorem witness_FlashIsProgrammedAndMaintained_8 :
    ∃ (b : Nat) (s : State),
      let es := (s.flash.sets.filter (fun e => e.2.state != 3)).map (fun e => e.2.erases)
      s.power.sequence = 0 ∧
      setting s 0x3701 0 < es.foldl max 0 - (if s.flash.sets.length < blockSets then 0 else es.foldl min (es.foldl max 0)) ∧
      (leastSet s (fun _ x => x.erases) = some b) :=
  ⟨1, { State.reset with flash := { Flash.reset with sets := [(1, ⟨2, 0, 0, 0⟩), (2, ⟨0, 1000000, 0, 0⟩)] } },
   by decide +kernel⟩

theorem witness_FlashIsProgrammedAndMaintained_9 :
    ∃ (b : Nat) (s : State),
      s.power.sequence = 0 ∧ setting s 0x3702 0 ≤ (setOf s.flash b).reads ∧ (setOf s.flash b).state ≠ 3 :=
  ⟨1, { State.reset with flash := { Flash.reset with sets := [(1, ⟨2, 0, 2 ^ 40, 0⟩)] } },
   by decide +kernel⟩

theorem witness_FlashIsProgrammedAndMaintained_10 :
    ∃ (b : Nat) (s : State),
      s.power.sequence ≠ 0 :=
  ⟨1, power0 { Power.reset with sequence := 1 },
   by decide +kernel⟩

theorem witness_FlashIsProgrammedAndMaintained_11 :
    ∃ (b : Nat) (s : State),
      validPages s.flash b = [] :=
  ⟨0, State.reset,
   by decide +kernel⟩

theorem witness_FlashIsProgrammedAndMaintained_12 :
    ∃ (b : Nat) (s : State),
      b < blockSets ∧ (setOf s.flash b).state ≠ 3 :=
  ⟨147455, State.reset,
   by decide +kernel⟩

theorem witness_BankIsSampledAndTested_2 :
    ∃ (s : State),
      s.power.input = 0 ∧ s.power.testing = false ∧ s.power.reached55 = true ∧
      (s.power.tested = false ∨ s.power.lastTest + setting s 0x130E 0 * 1700000000 ≤ s.clock) :=
  ⟨power0 { Power.reset with reached55 := true },
   by decide +kernel⟩

theorem witness_BankIsSampledAndTested_3 :
    ∃ (s : State),
      s.power.input ≠ 0 :=
  ⟨power0 { Power.reset with input := 1 },
   by decide +kernel⟩

theorem witness_BankIsSampledAndTested_4 :
    ∃ (who : Who) (s : State),
      Passes who (writeOf 0x130D 0 [1]) s ∧ s.power.testing = false ∧ s.power.input = 0 :=
  ⟨who0, expert State.reset,
   ⟨by decide +kernel, by decide +kernel, by decide +kernel, by decide +kernel, by decide +kernel⟩, by decide +kernel⟩

theorem witness_BankIsSampledAndTested_5 :
    ∃ (d : Word) (s : State),
      s.power.testing = true :=
  ⟨0, power0 { Power.reset with testing := true },
   by decide +kernel⟩

theorem witness_InputLossRunsTheHoldUpSequence_1 :
    ∃ (s : State),
      s.power.input = 0 :=
  ⟨State.reset,
   by decide +kernel⟩

theorem witness_InputLossRunsTheHoldUpSequence_2 :
    ∃ (s : State),
      s.power.input = 1 :=
  ⟨power0 { Power.reset with input := 1 },
   by decide +kernel⟩

theorem witness_InputLossRunsTheHoldUpSequence_4 :
    ∃ (pin : Bool) (s : State),
      s.power.input ≠ 2 ∧ s.power.sequence = 0 :=
  ⟨true, power0 { Power.reset with input := 1 },
   by decide +kernel⟩

theorem witness_InputLossRunsTheHoldUpSequence_5 :
    ∃ (c : Instr) (s : State),
      (c = .inputOvervoltage ∨ c = .overcurrent) ∧ s.power.input ≠ 2 ∧ s.power.sequence = 0 :=
  ⟨.overcurrent, State.reset,
   by decide +kernel⟩

theorem witness_InputLossRunsTheHoldUpSequence_7 :
    ∃ (s : State),
      s.power.sequence = 1 :=
  ⟨power0 { Power.reset with sequence := 1 },
   by decide +kernel⟩

theorem witness_InputLossRunsTheHoldUpSequence_8 :
    ∃ (s : State),
      s.power.sequence = 2 :=
  ⟨power0 { Power.reset with sequence := 2 },
   by decide +kernel⟩

theorem witness_InputLossRunsTheHoldUpSequence_9 :
    ∃ (s : State),
      1 ≤ s.power.sequence ∧ s.power.sequence ≤ 3 :=
  ⟨power0 { Power.reset with sequence := 3 },
   by decide +kernel⟩

theorem witness_InputLossRunsTheHoldUpSequence_10 :
    ∃ (e v : Word) (back : Bool) (s : State),
      s.power.sequence = 3 :=
  ⟨0, 0, true, power0 { Power.reset with sequence := 3 },
   by decide +kernel⟩

theorem witness_InputLossRunsTheHoldUpSequence_12 :
    ∃ (k : Nat) (s : State),
      k < 16 ∧ k ∉ s.power.cableOff :=
  ⟨15, State.reset,
   by decide +kernel⟩

theorem witness_ResetClassesClearWhatTheyName_1 :
    ∃ (s : State),
      ((∃ c, s.sys.resetting = some c ∧ 2 ≤ c.1) ∨ s.power.tripped = true) ∧ s.sys.drained = false ∧ s.power.sequence = 0 :=
  ⟨resetting 2 false,
   .inl ⟨(2, 2), rfl, by decide⟩, by decide +kernel⟩

theorem witness_ResetClassesClearWhatTheyName_2 :
    ∃ (f : BootFindings) (s : State),
      s.sys.drained = false :=
  ⟨find0, State.reset,
   by decide +kernel⟩

theorem witness_ResetClassesClearWhatTheyName_3 :
    ∃ (f : BootFindings) (source : Nat) (s : State),
      s.sys.resetting = some (1, source) ∧ s.sys.drained = true ∧ f.failedSites = [] :=
  ⟨find0, 2, resetting 1 true,
   by decide +kernel⟩

theorem witness_ResetClassesClearWhatTheyName_4 :
    ∃ (f : BootFindings) (cls source : Nat) (s : State),
      s.sys.resetting = some (cls, source) ∧ (cls = 2 ∨ cls = 3) ∧ s.sys.drained = true ∧ s.power.journalLost = false ∧
      (f.railsFail = true → cls = 2) ∧ f.failedStacks = [] ∧ f.failedPackages = [] ∧ f.failedSites = [] :=
  ⟨find0, 3, 2, resetting 3 true,
   by decide +kernel⟩

theorem witness_ResetsAndTripsBeginByTheirSources_1 :
    ∃ (source cls core : Nat) (s : State),
      let t := requestReset source cls core s
      s.power.sequence = 0 ∧ (∀ c, s.sys.resetting = some c → c.1 < cls) :=
  ⟨2, 3, 255, resetting 2 true,
   by decide +kernel, (fun _ h => (Option.some.inj h) ▸ by decide)⟩

theorem witness_ResetsAndTripsBeginByTheirSources_2 :
    ∃ (source cls core : Nat) (s : State),
      let t := requestReset source cls core s
      s.power.sequence ≠ 0 :=
  ⟨2, 3, 255, power0 { Power.reset with sequence := 3 },
   by decide +kernel⟩

theorem witness_ResetsAndTripsBeginByTheirSources_3 :
    ∃ (source cls core : Nat) (s : State) (c : _),
      let t := requestReset source cls core s
      s.sys.resetting = some c ∧ cls ≤ c.1 :=
  ⟨2, 2, 255, resetting 2 true, (2, 2),
   by decide +kernel⟩

theorem witness_ResetsAndTripsBeginByTheirSources_4 :
    ∃ (s : State),
      s.power.sequence ≠ 4 :=
  ⟨power0 { Power.reset with sequence := 3 },
   by decide +kernel⟩

theorem witness_ResetsAndTripsBeginByTheirSources_5 :
    ∃ (s : State),
      s.power.sequence = 4 :=
  ⟨power0 { Power.reset with sequence := 4 },
   by decide +kernel⟩

theorem witness_ResetsAndTripsBeginByTheirSources_6 :
    ∃ (s : State),
      s.sys.resetting = none ∧ s.sys.released + 170000 ≤ s.clock :=
  ⟨{ State.reset with clock := 170000 },
   by decide +kernel⟩

theorem witness_ResetsAndTripsBeginByTheirSources_7 :
    ∃ (core : Nat) (s : State),
      (core ≤ 6 ∨ (core = 7 ∧ ∃ e ∈ s.sys.carriers, e.2 = 7)) ∧ firmwareRuns s = true ∧ s.sys.resetting = none :=
  ⟨3, State.reset,
   by decide +kernel⟩

theorem witness_ResetsAndTripsBeginByTheirSources_8 :
    ∃ (who : Who) (v : Nat) (c : Instr) (s : State),
      ((c = .resetFabric who ∧ v = 1) ∨ (c = .resetWarm who ∧ v = 2) ∨ (c = .resetCold who ∧ v = 3)) ∧
      Passes who (writeOf 0x1200 2 (le 1 v)) s ∧ s.power.input = 0 ∧ s.sys.resetting = none ∧
      (who.client = 0 ∨ ∀ k ∈ slotNumbers, (slotOf s k).state = 0 ∨ (slotOf s k).owner = who.client) :=
  ⟨who0, 3, .resetCold who0, expert State.reset,
   by decide +kernel, ⟨by decide +kernel, by decide +kernel, by decide +kernel, by decide +kernel, by decide +kernel⟩, by decide +kernel⟩

theorem witness_ResetsAndTripsBeginByTheirSources_9 :
    ∃ (k : Nat) (s : State),
      k < 88 ∧ s.power.tripped = false :=
  ⟨87, State.reset,
   by decide +kernel⟩

theorem witness_ResetsAndTripsBeginByTheirSources_10 :
    ∃ (s : State),
      s.power.tripped = true ∧ (s.power.sequence = 0 ∧ s.sys.drained = true ∨ s.power.sequence = 4) :=
  ⟨power0 { Power.reset with tripped := true, sequence := 4 },
   by decide +kernel⟩

theorem witness_ImagesAreVerifiedAndReportsSigned_1 :
    ∃ (who : Who) (b : Bytes) (s : State),
      let mark (x : ImageSlot) : ImageSlot := if x.state = 1 ∧ x.version < leNat b then { x with state := 3 } else x
      Passes who (writeOf 0x1215 0 b) s ∧ s.sys.fuses ≤ leNat b ∧ leNat b ≤ 64 ∧ leNat b ≤ s.sys.runningVersion :=
  ⟨who0, [0], expert { State.reset with sys := { Sys.reset with runningVersion := 0 } },
   ⟨by decide +kernel, by decide +kernel, by decide +kernel, by decide +kernel, by decide +kernel⟩, by decide +kernel⟩

theorem witness_ImagesAreVerifiedAndReportsSigned_2 :
    ∃ (who : Who) (offset : Nat) (b v : Bytes) (s : State),
      let a : Ask := ⟨4, 0x1220, 0, offset, b.length, b, false⟩
      Passes who a s ∧ assembled s who a = some v ∧ v.length ≤ domainLimit (rowOf 0x1220 0) ∧ s.sys.handover ≠ 1 :=
  ⟨who0, 0, [1, 2], [1, 2], expert State.reset,
   ⟨by decide +kernel, by decide +kernel, by decide +kernel, by decide +kernel, by decide +kernel⟩, by decide +kernel⟩

theorem witness_ImagesAreVerifiedAndReportsSigned_3 :
    ∃ (who : Who) (offset : Nat) (b v : Bytes) (s : State),
      let a : Ask := ⟨5, 0x1220, 0, offset, b.length, b, false⟩
      let r := verifyImage s 0 v
      reaches s who = true ∧ entryStatus s who a = stOk ∧ assembled s who a = some v ∧ v.length ≤ domainLimit (rowOf 0x1220 0) ∧
      valueLegal (rowOf 0x1220 0) v = true ∧ lengthLegal (rowOf 0x1220 0) v = true :=
  ⟨who0, 0, [1, 2], [1, 2], expert State.reset,
   by decide +kernel⟩

theorem witness_ImagesAreVerifiedAndReportsSigned_4 :
    ∃ (s : State),
      firmwareRuns s = true ∧ (slotImage s (inactiveSlot s)).state = 4 ∧ s.sys.fuses ≤ (slotImage s (inactiveSlot s)).version :=
  ⟨{ State.reset with sys := { Sys.reset with slotB := ⟨4, 0, zeroBytes 32, []⟩ } },
   by decide +kernel⟩

theorem witness_ImagesAreVerifiedAndReportsSigned_5 :
    ∃ (who : Who) (nonce : Bytes) (s : State),
      Passes who (writeOf 0x1230 0 nonce) s :=
  ⟨who0, zeroBytes 32, State.reset,
   ⟨by decide +kernel, by decide +kernel, by decide +kernel, by decide +kernel, by decide +kernel⟩⟩

theorem witness_ImagesAreVerifiedAndReportsSigned_6 :
    ∃ (n : Nat) (nonce : Bytes) (s : State),
      firmwareRuns s = true ∧ kget s.sys.nonces n = some nonce :=
  ⟨0, zeroBytes 32, { State.reset with sys := { Sys.reset with nonces := [(0, zeroBytes 32)] } },
   by decide +kernel⟩

theorem witness_TheHostPortTrainsAndItsFunctionsReset_1 :
    ∃ (rate width : Nat) (s : State),
      5 ≤ rate ∧ rate ≤ setting s 0x1402 0 ∧ rate ≤ 7 ∧ (width = 4 ∨ width = 8 ∨ width = 16) ∧ s.host.perst = false ∧ powered s = true :=
  ⟨5, 16, State.reset,
   by decide +kernel⟩

theorem witness_TheHostPortTrainsAndItsFunctionsReset_2 :
    ∃ (s : State),
      (∀ e ∈ s.engines, ∀ t ∈ e.2.outstanding, waitsInPort s t false = false ∧ waitsInPort s t true = false) :=
  ⟨withEngine [] [transfer0 desc0 1] State.reset,
   by decide +kernel⟩

theorem witness_TheHostPortTrainsAndItsFunctionsReset_3 :
    ∃ (a : Nat) (t : Transfer) (s : State),
      s.engines = [(a, engineOf s a)] ∧ (engineOf s a).outstanding = [t] ∧ waitsInPort s t false = true :=
  ⟨17, transfer0 desc0 1,
   withCargo { cargo0 with attr := zeroBytes 16 ++ le 4 1 ++ [4] ++ zeroBytes 27 } (withEngine [] [transfer0 desc0 1] State.reset),
   by decide +kernel⟩

theorem witness_TheHostPortTrainsAndItsFunctionsReset_4 :
    ∃ (who : Who) (b : Bytes) (s : State),
      Passes who (writeOf 0x1403 0 b) s ∧ hostOutstanding s = false :=
  ⟨who0, [1], expert { State.reset with host := { HostPort.reset with link := 5 } },
   ⟨by decide +kernel, by decide +kernel, by decide +kernel, by decide +kernel, by decide +kernel⟩, by decide +kernel⟩

theorem witness_TheHostPortTrainsAndItsFunctionsReset_7 :
    ∃ (k : Nat) (s : State),
      k ≤ 63 ∧ s.host.vfs = 0 ∧ s.host.module ≠ 0 :=
  ⟨63, State.reset,
   by decide +kernel⟩

theorem witness_TheHostPortTrainsAndItsFunctionsReset_9 :
    ∃ (f : Nat) (s : State),
      1 ≤ f ∧ f ≤ s.host.vfs :=
  ⟨4, { State.reset with host := { HostPort.reset with vfs := 4 } },
   by decide +kernel⟩

theorem witness_TheHostPortTrainsAndItsFunctionsReset_10 :
    ∃ (f v : Nat) (s : State),
      (f = 0 ∧ v < 2048 ∨ 0 < f ∧ f ≤ s.host.vfs ∧ v < 32) :=
  ⟨4, 31, { State.reset with host := { HostPort.reset with vfs := 4 } },
   by decide +kernel⟩

theorem witness_TheBootAndCargoWindowsServeTheHost_1 :
    ∃ (value : Word) (segment : Bytes) (s : State),
      let n := value.toNat % 2 ^ 24
      let image := (if s.host.bootStatus = 4 then [] else s.host.bootImage) ++ padTo n segment
      s.sys.straps / 4 % 4 = 2 ∧ s.host.module = 0 ∧ s.host.bootStatus ≠ 1 ∧ s.host.bootStatus ≠ 2 ∧ bits value.toNat 30 24 = 0 ∧
      s.sys.resetting = none ∧ powered s = true :=
  ⟨0x80000004, [1, 2, 3, 4], bootable,
   by decide +kernel⟩

theorem witness_TheBootAndCargoWindowsServeTheHost_2 :
    ∃ (who : Who) (w i : Nat) (c : Cargo) (b : Bytes) (s : State),
      Passes who (lastOf 0x1410 w b) s ∧ cargoOf s (winHandle b) = some (i, c) ∧ c.client = who.client ∧ c.state ≠ 2 ∧ field b 12 1 ≤ 3 ∧
      zeroAt b 13 3 = true ∧ winHandle b ≠ 0xFFFFFFFF ∧ winFirst b + winPages b ≤ c.pageCount ∧
      winPages b * pageBytes ≤ apertureBytes s who.client :=
  ⟨who0, 0, 0, cargo0, window0, expert (withCargo cargo0 State.reset),
   ⟨by decide +kernel, by decide +kernel, by decide +kernel, by decide +kernel, by decide +kernel⟩, by decide +kernel⟩

theorem witness_TheBootAndCargoWindowsServeTheHost_3 :
    ∃ (who : Who) (s : State),
      Passes who (readOf 0x1411 0) s :=
  ⟨who0, State.reset,
   ⟨by decide +kernel, by decide +kernel, by decide +kernel, by decide +kernel, by decide +kernel⟩⟩

theorem witness_TheBootAndCargoWindowsServeTheHost_4 :
    ∃ (f offset length : Nat) (data : Option Bytes) (s : State),
      hasFunction s f = true ∧ 5 ≤ s.host.link ∧ offset < 64 * apertureBytes s f ∧ windowAt s f offset length false = none :=
  ⟨0, 0, 4, none, { State.reset with host := { HostPort.reset with link := 5 } },
   by decide +kernel⟩

theorem witness_TheBootAndCargoWindowsServeTheHost_5 :
    ∃ (f offset length w i a : Nat) (data : Option Bytes) (s : State),
      let c := kgetD Cargo.free s.mem.cargoes i
      hasFunction s f = true ∧ 5 ≤ s.host.link ∧ offset < 64 * apertureBytes s f ∧ windowAt s f offset length false = some (w, i, a) ∧
      c.state ≠ 2 ∧ (∀ p ∈ pagesOf a length, unmapped s i p = false) ∧ c.farCached = false ∧ c.tier ≠ 4 :=
  ⟨0, 65532, 4, 0, 0, 65532, none, windowed cargo0,
   by decide +kernel⟩

theorem witness_TheBootAndCargoWindowsServeTheHost_6 :
    ∃ (f offset length w i a : Nat) (data : Option Bytes) (s : State) (b : _),
      let c := kgetD Cargo.free s.mem.cargoes i
      hasFunction s f = true ∧ 5 ≤ s.host.link ∧ offset < 64 * apertureBytes s f ∧ windowAt s f offset length false = some (w, i, a) ∧
      c.state ≠ 2 ∧ (∀ p ∈ pagesOf a length, unmapped s i p = false) ∧ c.farCached = false ∧ c.tier = 4 ∧ data = some b :=
  ⟨0, 65532, 4, 0, 0, 65532, some [1, 2, 3, 4],
   withObj 0x1431 0 (le 4 1) (withObj 0x1430 0 (zeroBytes 8) (windowed { cargo0 with attr := attrOf 1 4, pages := [⟨0, 4, 0, 0⟩] })),
   [1, 2, 3, 4],
   by decide +kernel⟩

theorem witness_TheBootAndCargoWindowsServeTheHost_7 :
    ∃ (f offset length w i a : Nat) (data : Option Bytes) (s : State),
      let c := kgetD Cargo.free s.mem.cargoes i
      hasFunction s f = true ∧ 5 ≤ s.host.link ∧ offset < 64 * apertureBytes s f ∧ windowAt s f offset length false = some (w, i, a) ∧
      c.state ≠ 2 ∧ c.farCached = true ∧
      (∀ p ∈ pagesOf a length, fetchesHome s i p = false ∧ (frameOf s i p).all (fun x => !x.refilling) = true) :=
  ⟨0, 65535, 1, 0, 0, 65535, none, farWindow,
   by decide +kernel⟩

theorem witness_TheBootAndCargoWindowsServeTheHost_8 :
    ∃ (f offset length w i a : Nat) (data : Option Bytes) (s : State),
      let c := kgetD Cargo.free s.mem.cargoes i
      hasFunction s f = true ∧ 5 ≤ s.host.link ∧ offset < 64 * apertureBytes s f ∧ windowAt s f offset length false = some (w, i, a) ∧
      (c.state = 2 ∨ (c.farCached = false ∧ ((∃ p ∈ pagesOf a length, unmapped s i p = true) ∨ c.tier = 4 ∧ data = none))) :=
  ⟨0, 65535, 1, 0, 0, 65535, none, windowed { cargo0 with state := 2 },
   by decide +kernel⟩

theorem witness_TheBootAndCargoWindowsServeTheHost_9 :
    ∃ (f offset w i a : Nat) (data : Bytes) (s : State),
      let c := kgetD Cargo.free s.mem.cargoes i
      hasFunction s f = true ∧ 5 ≤ s.host.link ∧ offset < 64 * apertureBytes s f ∧ data ≠ [] ∧
      windowAt s f offset data.length true = some (w, i, a) ∧
      (c.state = 2 ∨ (c.farCached = false ∧ c.tier = 4 ∧ ∃ p ∈ pagesOf a data.length, unmapped s i p = true)) :=
  ⟨0, 65535, 0, 0, 65535, [9], windowed { cargo0 with state := 2 },
   by decide +kernel⟩

theorem witness_TheBootAndCargoWindowsServeTheHost_10 :
    ∃ (f offset w i a : Nat) (data : Bytes) (s : State),
      let c := kgetD Cargo.free s.mem.cargoes i
      hasFunction s f = true ∧ 5 ≤ s.host.link ∧ offset < 64 * apertureBytes s f ∧ data ≠ [] ∧
      windowAt s f offset data.length true = some (w, i, a) ∧ c.state ≠ 2 ∧ c.tier ≠ 3 ∧ c.tier ≠ 4 ∧ c.farCached = false ∧
      (∀ p, frameOf s i p = none) :=
  ⟨0, 65535, 0, 0, 65535, [9], windowed cargo0,
   by decide +kernel, by decide +kernel, by decide +kernel, by decide +kernel, by decide +kernel, by decide +kernel, by decide +kernel,
   by decide +kernel, by decide +kernel, (fun _ => rfl)⟩

theorem witness_TheBootAndCargoWindowsServeTheHost_11 :
    ∃ (f offset : Nat) (data : Bytes) (s : State),
      windowAt s f offset data.length true = none :=
  ⟨0, 65536, [9], windowed cargo0,
   by decide +kernel⟩

theorem witness_RequestFramesRunTheirEntries_1 :
    ∃ (f : Nat) (value : Word) (frame : Bytes) (asks : List Ask) (s : State),
      let r := runEntries ⟨f, 0, 0⟩ asks 4056 (modMailbox f (fun m => { m with request := frame, status := 0 }) s)
      let b := frameHeader 1 0 0 asks.length r.1.length f ++ r.1
      hasFunction s f = true ∧ firmwareRuns s = true ∧ doorbellStatus f value frame = 0 ∧
      parseEntries (fStaged frame) (fEntries frame) (slice frame 24 (fPayload frame)) = some asks :=
  ⟨0, 34, mailFrame, [ask1], State.reset,
   by decide +kernel, by decide +kernel, by decide +kernel, rfl⟩

theorem witness_RequestFramesRunTheirEntries_2 :
    ∃ (f : Nat) (value : Word) (frame : Bytes) (s : State),
      hasFunction s f = true ∧ firmwareRuns s = true ∧ doorbellStatus f value frame ≠ 0 :=
  ⟨0, 24, mailFrame, State.reset,
   by decide +kernel⟩

theorem witness_RequestFramesRunTheirEntries_4 :
    ∃ (ins : Instr) (conn transport : Nat) (frame : Bytes) (asks : List Ask) (x : Session) (s : State),
      let r := runEntries ⟨x.client, transport, x.id⟩ asks 1432 (modSession x.id (fun y => { y with lastFrame := s.clock }) s)
      let plain := frameHeader 1 x.id (fSequence frame) asks.length r.1.length x.client ++ r.1
      let b := plain ++ sessionTag x.key plain
      OnSession ins conn transport frame x s ∧ (x.lastSeq.all (fun q => decide (q < fSequence frame)) = true) ∧
      headerFault frame = false ∧ fClient frame = x.client ∧ fPayload frame = frame.length - 40 ∧
      parseEntries (fStaged frame) (fEntries frame) (slice frame 24 (frame.length - 40)) = some asks :=
  ⟨.voaRequestFrame 1 (sessionFrame 0), 1, 1, sessionFrame 0, [ask1], session0 1, withSession 1,
   ⟨.inl ⟨rfl, rfl⟩, by decide +kernel, rfl, by decide +kernel, sessionFrame_tag⟩, by decide +kernel, by decide +kernel,
   by decide +kernel, by decide +kernel, rfl⟩

theorem witness_RequestFramesRunTheirEntries_5 :
    ∃ (ins : Instr) (conn transport q : Nat) (frame : Bytes) (x : Session) (s : State),
      let u := modSession x.id (fun y => { y with lastFrame := s.clock }) s
      OnSession ins conn transport frame x s ∧ fKind frame ≠ 6 ∧ x.lastSeq = some q ∧ fSequence frame = q :=
  ⟨.voaRequestFrame 1 (sessionFrame 0), 1, 1, 2, sessionFrame 0, session0 2, withSession 2,
   ⟨.inl ⟨rfl, rfl⟩, by decide +kernel, rfl, by decide +kernel, sessionFrame_tag⟩, by decide +kernel⟩

theorem witness_RequestFramesRunTheirEntries_6 :
    ∃ (ins : Instr) (conn transport q : Nat) (frame : Bytes) (x : Session) (s : State),
      let u := modSession x.id (fun y => { y with lastFrame := s.clock }) s
      OnSession ins conn transport frame x s ∧ fKind frame ≠ 6 ∧ x.lastSeq = some q ∧ fSequence frame < q :=
  ⟨.voaRequestFrame 1 (sessionFrame 0), 1, 1, 3, sessionFrame 0, session0 3, withSession 3,
   ⟨.inl ⟨rfl, rfl⟩, by decide +kernel, rfl, by decide +kernel, sessionFrame_tag⟩, by decide +kernel⟩

theorem witness_RequestFramesRunTheirEntries_7 :
    ∃ (ins : Instr) (conn transport : Nat) (frame : Bytes) (x : Session) (s : State),
      OnSession ins conn transport frame x s ∧ fKind frame = 6 :=
  ⟨.voaRequestFrame 1 (sessionFrame 6), 1, 1, sessionFrame 6, session0 1, withSession 1,
   ⟨.inl ⟨rfl, rfl⟩, by decide +kernel, rfl, by decide +kernel, sessionFrame_tag6⟩, by decide +kernel⟩

theorem witness_RequestFramesRunTheirEntries_8 :
    ∃ (conn : Nat) (frame : Bytes) (s : State),
      firmwareRuns s = true ∧ (s.dict.sessions.find? (fun x => x.id == fSession frame && x.transport == 1) = none) :=
  ⟨1, plainFrame 0, State.reset,
   by decide +kernel⟩

theorem witness_RequestFramesRunTheirEntries_9 :
    ∃ (conn : Nat) (frame : Bytes) (x : Session) (s : State),
      firmwareRuns s = true ∧ (s.dict.sessions.find? (fun x => x.id == fSession frame && x.transport == 1) = some x) ∧
      40 ≤ frame.length ∧ sessionTag x.key (frame.take (frame.length - 16)) ≠ frame.drop (frame.length - 16) :=
  ⟨1, plainFrame 0 ++ zeroBytes 16, session0 1, withSession 1,
   by decide +kernel⟩

theorem witness_RequestFramesRunTheirEntries_10 :
    ∃ (link dest l : Nat) (frame : Bytes) (s : State),
      firmwareRuns s = true ∧ linkIsUp s link = true ∧ dest ≠ deviceNumber s ∧ peerLinkTo s dest = some l :=
  ⟨0, 5, 0, [], withLink 0 upLink State.reset,
   by decide +kernel⟩

theorem witness_LinksTrainLoseLanesAndNameThemselves_1 :
    ∃ (l lane : Nat) (s : State),
      let x := linkOf s l
      linkIsUp s l = true ∧ (lane < 4 ∧ lane ∉ x.failed ∨ lane = 16 ∧ x.spare = true) ∧ x.state = 2 ∧ 3 < lanesInUse x :=
  ⟨0, 3, linked 0 upLink,
   by decide +kernel⟩

theorem witness_LinksTrainLoseLanesAndNameThemselves_2 :
    ∃ (l lane : Nat) (s : State),
      let x := linkOf s l
      linkIsUp s l = true ∧ (lane < 4 ∧ lane ∉ x.failed ∨ lane = 16 ∧ x.spare = true) ∧ lanesInUse x ≤ 3 :=
  ⟨0, 3, linked 0 { upLink with failed := [0] },
   by decide +kernel⟩

theorem witness_LinksTrainLoseLanesAndNameThemselves_3 :
    ∃ (l : Nat) (s : State),
      (linkOf s l).spareStep = 1 :=
  ⟨0, linked 0 { upLink with spareStep := 1 },
   by decide +kernel⟩

theorem witness_LinksTrainLoseLanesAndNameThemselves_4 :
    ∃ (l : Nat) (s : State),
      (linkOf s l).spareStep = 2 ∧ (linkOf s l).state = 3 ∧ s.clock = s.beat.opened :=
  ⟨0, linked 0 { upLink with state := 3, spareStep := 2 },
   by decide +kernel⟩

theorem witness_LinksTrainLoseLanesAndNameThemselves_5 :
    ∃ (l lane : Nat) (s : State),
      linkIsUp s l = true :=
  ⟨63, 3, linked 63 upLink,
   by decide +kernel⟩

theorem witness_LinksTrainLoseLanesAndNameThemselves_6 :
    ∃ (l : Nat) (s : State),
      (linkOf s l).state = 4 ∧ mayTrain s l = true :=
  ⟨0, linked 0 { upLink with state := 4 },
   by decide +kernel⟩

theorem witness_LinksTrainLoseLanesAndNameThemselves_7 :
    ∃ (who : Who) (l : Nat) (b : Bytes) (s : State),
      Passes who (writeOf 0x3804 l b) s ∧ linkNamed s l = false ∧ mayTrain s l = true :=
  ⟨who0, 5, [1], expert (linked 5 upLink),
   ⟨by decide +kernel, by decide +kernel, by decide +kernel, by decide +kernel, by decide +kernel⟩, by decide +kernel⟩

theorem witness_LinksTrainLoseLanesAndNameThemselves_8 :
    ∃ (l : Nat) (s : State),
      l < 64 ∧ (linkOf s l).state = 1 ∧ mayTrain s l = true :=
  ⟨63, State.reset,
   by decide +kernel⟩

theorem witness_LinksTrainLoseLanesAndNameThemselves_9 :
    ∃ (l device peerLink : Nat) (s : State),
      linkIsUp s l = true :=
  ⟨0, 7, 9, linked 0 upLink,
   by decide +kernel⟩

theorem witness_LinksTrainLoseLanesAndNameThemselves_10 :
    ∃ (l beat : Nat) (d own : Bytes) (s : State),
      linkIsUp s l = true ∧ digestAt s beat = some own ∧ own = d :=
  ⟨0, 9, [1], [1], withLink 0 upLink { State.reset with net := { Net.reset with digests := [(9, [1])] } },
   by decide +kernel⟩

theorem witness_LinksTrainLoseLanesAndNameThemselves_11 :
    ∃ (l beat : Nat) (d own : Bytes) (s : State),
      linkIsUp s l = true ∧ digestAt s beat = some own ∧ own ≠ d :=
  ⟨0, 9, [2], [1], withLink 0 upLink { State.reset with net := { Net.reset with digests := [(9, [1])] } },
   by decide +kernel⟩

theorem witness_LinksTrainLoseLanesAndNameThemselves_12 :
    ∃ (l beat : Nat) (d : Bytes) (s : State),
      digestAt s beat = none :=
  ⟨0, 4, [1], { State.reset with dict := { Dict.reset with lastCommit := 5 } },
   by decide +kernel⟩

theorem witness_FlitsAreNumberedCreditedAndResent_1 :
    ∃ (l c : Nat) (f : Flit) (rest : List Flit) (s : State),
      let x := linkOf s l
      linkIsUp s l = true ∧ x.quietUntil ≤ s.clock ∧ x.resend = none ∧ x.retry.length < 512 ∧
      (x.control = f :: rest ∨ x.control = [] ∧ kgetD [] x.queues c = f :: rest ∧ ¬(c = 63 ∧ othersReady s l = true) ∧ creditLeft s l c ≠ 0) :=
  ⟨0, 0, flit0, [], linked 0 { upLink with control := [flit0] },
   by decide +kernel⟩

theorem witness_FlitsAreNumberedCreditedAndResent_2 :
    ∃ (l c : Nat) (s : State),
      let x := linkOf s l
      let idle (s : State) : State := { modLink l (fun x => { x with owed := owedAfter x }) s with out := s.out ++ [.flit l (flitHeader ⟨if x.owed = [] then 0 else 2, false, false, 0, 0, 0, 0, [], none⟩ x.txSeq (x.rxSeq + 4095) (owedCredit x)) []] }
      linkIsUp s l = true ∧ x.quietUntil ≤ s.clock ∧ x.resend = none ∧
      (512 ≤ x.retry.length ∨ (x.control = [] ∧ (kgetD [] x.queues c = [] ∨ (c = 63 ∧ othersReady s l = true)))) :=
  ⟨0, 0, linked 0 upLink,
   by decide +kernel⟩

theorem witness_FlitsAreNumberedCreditedAndResent_3 :
    ∃ (l c : Nat) (s : State),
      let x := linkOf s l
      let idle (s : State) : State := { modLink l (fun x => { x with owed := owedAfter x }) s with out := s.out ++ [.flit l (flitHeader ⟨if x.owed = [] then 0 else 2, false, false, 0, 0, 0, 0, [], none⟩ x.txSeq (x.rxSeq + 4095) (owedCredit x)) []] }
      linkIsUp s l = true ∧ x.quietUntil ≤ s.clock ∧ x.resend = none ∧ x.retry.length < 512 ∧ x.control = [] ∧ kgetD [] x.queues c ≠ [] ∧
      (¬(c = 63 ∧ othersReady s l = true)) ∧ creditLeft s l c = 0 :=
  ⟨0, 0, linked 0 { upLink with queues := [(0, [flit0])] },
   by decide +kernel⟩

theorem witness_FlitsAreNumberedCreditedAndResent_4 :
    ∃ (l c q : Nat) (f : Flit) (s : State),
      let x := linkOf s l
      linkIsUp s l = true ∧ x.quietUntil ≤ s.clock ∧ x.resend = some q ∧ (x.retry.find? (fun e => e.1 == q) = some (q, f)) :=
  ⟨0, 0, 7, flit0, linked 0 { upLink with resend := some 7, retry := [(7, flit0)] },
   by decide +kernel⟩

theorem witness_FlitsAreNumberedCreditedAndResent_5 :
    ∃ (l x y : Nat) (h p : Bytes) (s : State),
      linkIsUp s l = true ∧ flitOk h = false :=
  ⟨0, 3, 1, [], [], linked 0 upLink,
   by decide +kernel⟩

theorem witness_FlitsAreNumberedCreditedAndResent_6 :
    ∃ (l x y : Nat) (h p : Bytes) (s : State),
      linkIsUp s l = true ∧ flitOk h = true ∧ (field h 0 1 / 16 = 1 ∨ field h 0 1 / 16 = 3) ∧ field h 2 2 % 4096 ≠ (linkOf s l).rxSeq :=
  ⟨0, 0, 0, flitStart 1, [], linked 0 upLink,
   by decide +kernel⟩

theorem witness_FlitsAreNumberedCreditedAndResent_7 :
    ∃ (l x y : Nat) (h p : Bytes) (s : State),
      linkIsUp s l = true ∧ flitOk h = true ∧ (field h 0 1 / 16 = 1 ∨ field h 0 1 / 16 = 3) ∧ field h 2 2 % 4096 = (linkOf s l).rxSeq :=
  ⟨0, 0, 0, flitStart 0, [], linked 0 upLink,
   by decide +kernel⟩

theorem witness_FlitsAreNumberedCreditedAndResent_8 :
    ∃ (l out : Nat) (r : Route) (h p : Bytes) (s : State),
      let c := field h 1 1 % 64
      field h 8 2 % 32768 ≠ deviceNumber s ∧ routeOf s (field h 10 1 % 4) = some r ∧
      routeLink r (field h 10 1 / 32) (field h 8 2 % 32768) (sideOf l) = some out :=
  ⟨0, 9, passRoute, zeroBytes 8 ++ le 2 5 ++ zeroBytes 6, [],
   withSlot { slot0 with route := some passRoute } (withObj 0x2805 0 (le 2 0) State.reset),
   by decide +kernel⟩

theorem witness_FlitsAreNumberedCreditedAndResent_9 :
    ∃ (l slot : Nat) (r : Route) (o : StreamRow) (h p : Bytes) (s : State),
      let c := field h 1 1 % 64
      let b := (if bit (field h 0 1) 0 then [] else kgetD [] (linkOf s l).parts c) ++ p.take (field h 6 2)
      field h 8 2 % 32768 = deviceNumber s ∧ slot = field h 10 1 % 4 ∧ bit (field h 0 1) 1 = true ∧ routeOf s slot = some r :=
  ⟨0, 0, takeRoute, ⟨3, 0, 0, 0, 0, 0, none, some 9, some 0, [0]⟩, [2] ++ zeroBytes 7 ++ le 2 5 ++ zeroBytes 6, [],
   withSlot { slot0 with route := some takeRoute } (withObj 0x2805 0 (le 2 5) State.reset),
   by decide +kernel⟩

theorem witness_FlitsAreNumberedCreditedAndResent_10 :
    ∃ (l q : Nat) (s : State),
      let x := linkOf s l
      let n := if x.askedSeq = some (q % 4096) then x.asked + 1 else 1
      linkIsUp s l = true ∧ n < setting s 0x3802 0 :=
  ⟨0, 5, linked 0 upLink,
   by decide +kernel⟩

theorem witness_FlitsAreNumberedCreditedAndResent_11 :
    ∃ (l q : Nat) (s : State),
      let x := linkOf s l
      let n := if x.askedSeq = some (q % 4096) then x.asked + 1 else 1
      linkIsUp s l = true ∧ setting s 0x3802 0 ≤ n :=
  ⟨0, 5, linked 0 { upLink with askedSeq := some 5, asked := 1000000 },
   by decide +kernel⟩

theorem witness_EthernetPortsNegotiateAndTakeDatagrams_1 :
    ∃ (who : Who) (l v : Nat) (ins : Instr) (s : State),
      ((ins = .portModeChipLink who l ∧ v = 0) ∨ (ins = .portModeEthernet who l v ∧ (v = 1 ∨ v = 2))) ∧
      Passes who (writeOf 0x2F20 l (le 1 v)) s ∧ linkNamed s l = false ∧ portNames s l = false :=
  ⟨who0, 62, 1, .portModeEthernet who0 62 1, State.reset,
   by decide +kernel, ⟨by decide +kernel, by decide +kernel, by decide +kernel, by decide +kernel, by decide +kernel⟩, by decide +kernel⟩

theorem witness_EthernetPortsNegotiateAndTakeDatagrams_2 :
    ∃ (l : Nat) (s : State),
      let v := leNat (stored s 0x2F20 l)
      (l = 62 ∨ l = 63) ∧ changes s 0x2F20 l = true ∧ leNat (stored s 0x2807 l) = 1 :=
  ⟨62, let s := withObj 0x2807 62 [1] State.reset; { s with dict := { s.dict with objs := kput s.dict.objs (objKey 0x2F20 62) [1] } },
   by decide +kernel⟩

theorem witness_EthernetPortsNegotiateAndTakeDatagrams_3 :
    ∃ (l : Nat) (s : State),
      (linkOf s l).state = 5 :=
  ⟨62, linked 62 { upLink with state := 5, port := 1 },
   by decide +kernel⟩

theorem witness_EthernetPortsNegotiateAndTakeDatagrams_4 :
    ∃ (s : State),
      firmwareRuns s = true :=
  ⟨State.reset,
   by decide +kernel⟩

theorem witness_EthernetPortsNegotiateAndTakeDatagrams_5 :
    ∃ (k : Nat) (b : Bytes) (s : State),
      s.net.management = 1 ∧ k < 4 ∧ firmwareRuns s = true :=
  ⟨3, [1], { State.reset with net := { Net.reset with management := 1 } },
   by decide +kernel⟩

theorem witness_EthernetPortsNegotiateAndTakeDatagrams_6 :
    ∃ (l : Nat) (d : Datagram) (s : State),
      (linkOf s l).state = 5 ∧ (linkOf s l).port = 2 ∧ alive s = true ∧ d.fcsOk = false :=
  ⟨62, datagram0 false, directPort State.reset,
   by decide +kernel⟩

theorem witness_EthernetPortsNegotiateAndTakeDatagrams_7 :
    ∃ (l f slot : Nat) (d : Datagram) (r : Route) (p : Bytes) (s : State) (i : _),
      (linkOf s l).state = 5 ∧ (linkOf s l).port = 2 ∧ alive s = true ∧ d.fcsOk = true ∧ d.protoOk = true ∧ 64 ≤ d.length ∧
      d.length ≤ 9018 ∧ ((List.range 64).find? (fun f => flowMatches s l f d) = some f) ∧ slot = setting s 0x2F47 f / 2 ^ 14 ∧
      routeOf s slot = some r ∧ r.training = false ∧ portRecord r (setting s 0x2F47 f % 4096) = some p ∧ portPath p + 61 = l ∧
      nextLine s slot p = some i :=
  ⟨62, 0, 0, datagram0 true, serving 1, port0 1, directPort (serves 1 Serve.none State.reset), 0,
   by decide +kernel⟩

theorem witness_EthernetPortsNegotiateAndTakeDatagrams_8 :
    ∃ (l f slot : Nat) (d : Datagram) (r : Route) (p : Bytes) (s : State),
      (linkOf s l).state = 5 ∧ (linkOf s l).port = 2 ∧ alive s = true ∧ d.fcsOk = true ∧ d.protoOk = true ∧ 64 ≤ d.length ∧
      d.length ≤ 9018 ∧ ((List.range 64).find? (fun f => flowMatches s l f d) = some f) ∧ slot = setting s 0x2F47 f / 2 ^ 14 ∧
      routeOf s slot = some r ∧ r.training = false ∧ portRecord r (setting s 0x2F47 f % 4096) = some p ∧ portPath p + 61 = l ∧
      nextLine s slot p = none :=
  ⟨62, 0, 0, datagram0 true, serving 1, port0 1, directPort (asked 1 (query0 5 0)),
   by decide +kernel⟩

theorem witness_RequestsAreAnsweredAndBanksSwap_1 :
    ∃ (n slot offset : Nat) (data : Bytes) (r : Route) (p : Bytes) (s : State),
      let i := offset / 0x2000
      let u := modServe slot (fun x => { x with region := storeBytes x.region offset data }) s
      let h := loadBytes (serveOf u slot).region (i * 0x2000) 32
      regionOpen s n slot = true ∧ offset < 0x2000000 ∧ data ≠ [] ∧ routeOf s slot = some r ∧
      (¬(offset % 0x2000 ≤ 24 ∧ 28 ≤ offset % 0x2000 + data.length)) :=
  ⟨0, 0, 28, [1], serving 0, port0 0, serves 0 Serve.none State.reset,
   by decide +kernel⟩

theorem witness_RequestsAreAnsweredAndBanksSwap_2 :
    ∃ (n slot offset : Nat) (data : Bytes) (r : Route) (p : Bytes) (s : State),
      let i := offset / 0x2000
      let u := modServe slot (fun x => { x with region := storeBytes x.region offset data }) s
      let h := loadBytes (serveOf u slot).region (i * 0x2000) 32
      regionOpen s n slot = true ∧ offset < 0x2000000 ∧ data ≠ [] ∧ routeOf s slot = some r ∧ offset % 0x2000 ≤ 24 ∧
      28 ≤ offset % 0x2000 + data.length ∧ (r.plan.ports.find? (fun p => portPath p == 0 && inRing p i) = some p) ∧
      lineFree u slot i = true :=
  ⟨0, 0, 24, [1, 0, 0, 0], serving 0, port0 0, serves 0 Serve.none State.reset,
   by decide +kernel⟩

theorem witness_RequestsAreAnsweredAndBanksSwap_3 :
    ∃ (n slot offset : Nat) (data : Bytes) (r : Route) (p : Bytes) (s : State),
      let i := offset / 0x2000
      let u := modServe slot (fun x => { x with region := storeBytes x.region offset data }) s
      let h := loadBytes (serveOf u slot).region (i * 0x2000) 32
      regionOpen s n slot = true ∧ offset < 0x2000000 ∧ data ≠ [] ∧ routeOf s slot = some r ∧ offset % 0x2000 ≤ 24 ∧
      28 ≤ offset % 0x2000 + data.length ∧ (r.plan.ports.find? (fun p => portPath p == 0 && inRing p i) = some p) ∧
      lineFree u slot i = false :=
  ⟨0, 0, 24, [1, 0, 0, 0], serving 0, port0 0, asked 0 (query0 5 0),
   by decide +kernel⟩

theorem witness_RequestsAreAnsweredAndBanksSwap_4 :
    ∃ (slot line port flow : Nat) (p h b : Bytes) (s : State),
      let t := admitQuery slot line port flow p h b s
      malformed h b.length = false ∧
      (∀ q : Query, q.deadline = s.clock + qBudget h → q.egress = egressOf s p → entersLate s slot q ((slotOf s slot).beat.opened + (slotOf s slot).beat.length) = false) :=
  ⟨0, 0, 0, 0, port0 0, zeroBytes 4 ++ le 4 1000 ++ zeroBytes 24, [], State.reset,
   by decide +kernel, (fun _ _ _ => rfl)⟩

theorem witness_RequestsAreAnsweredAndBanksSwap_5 :
    ∃ (slot line port flow : Nat) (p h b : Bytes) (s : State),
      let t := admitQuery slot line port flow p h b s
      malformed h b.length = true ∧ portOf s slot (field p 0 2) = some p ∧ portPath p = 0 :=
  ⟨0, 0, 0, 0, port0 0, [], [], serves 0 Serve.none State.reset,
   by decide +kernel⟩

theorem witness_RequestsAreAnsweredAndBanksSwap_6 :
    ∃ (slot line : Nat) (q : Query) (p : Bytes) (s : State),
      let d := coneRule s slot q (portEarly p)
      queryOf s slot line = some q ∧ portOf s slot q.station = some p ∧ q.decided = false ∧ q.phase ≠ 0 ∧ d.2.2.1 ≤ s.clock :=
  ⟨0, 0, query0 0 1, port0 0, asked 0 (query0 0 1),
   by decide +kernel⟩

theorem witness_RequestsAreAnsweredAndBanksSwap_7 :
    ∃ (slot line : Nat) (q : Query) (p : Bytes) (s : State),
      let d := coneRule s slot q (portEarly p)
      queryOf s slot line = some q ∧ portOf s slot q.station = some p ∧ q.decided = false ∧ q.phase ≠ 0 ∧ s.clock < d.2.2.1 :=
  ⟨0, 0, query0 5 1, port0 0, asked 0 (query0 5 1),
   by decide +kernel⟩

theorem witness_RequestsAreAnsweredAndBanksSwap_8 :
    ∃ (n slot : Nat) (v : BitVec 64) (s : State),
      let line := bits v.toNat 43 32
      let b := kgetD [] (serveOf s slot).lines line
      regionOpen s n slot = true ∧ field b 4 1 = 1 ∧ field b 0 4 = v.toNat % 2 ^ 32 :=
  ⟨0, 0, 7, serves 0 { Serve.none with lines := [(0, le 4 7 ++ [1])] } State.reset,
   by decide +kernel⟩

theorem witness_RequestsAreAnsweredAndBanksSwap_9 :
    ∃ (n slot : Nat) (v : BitVec 64) (s : State),
      let line := bits v.toNat 43 32
      let b := kgetD [] (serveOf s slot).lines line
      regionOpen s n slot = true ∧ (¬(field b 4 1 = 1 ∧ field b 0 4 = v.toNat % 2 ^ 32)) :=
  ⟨0, 0, 7, serves 0 Serve.none State.reset,
   by decide +kernel⟩

theorem witness_RequestsAreAnsweredAndBanksSwap_10 :
    ∃ (k p : Nat) (e : Bytes) (s : State),
      let idle := 1 - (serveOf s (refServing e)).bank
      let src := refSource e % 65536
      let dst := refBank e idle % 65536
      s.refresh.entries[k]? = some e ∧ s.refresh.state = 2 ∧ (kget s.refresh.steps k).isSome = true ∧
      (∀ q ∈ (serveOf s (refServing e)).requests, ¬(q.phase = 1 ∧ q.bank = idle)) ∧ alive s = true ∧ src ≠ dst ∧
      refFirst e + refPages e ≤ 2 ^ 28 ∧ p < refPages e ∧ kget (kgetD [] s.refresh.copied k) p = none ∧
      (src, refFirst e + p) ∉ s.mem.openPages ∧ (kgetD Cargo.free s.mem.cargoes dst).tier = 0 ∧
      (kgetD Cargo.free s.mem.cargoes dst).farCached = false ∧ (∀ x, frameOf s dst x = none) :=
  ⟨0, 0, refresh0, { State.reset with refresh := { State.reset.refresh with state := 2, entries := [refresh0], steps := [(0, 1)] } },
   by decide +kernel, by decide +kernel, by decide +kernel, by decide +kernel, by decide +kernel, by decide +kernel, by decide +kernel,
   by decide +kernel, by decide +kernel, by decide +kernel, by decide +kernel, by decide +kernel, (fun _ => rfl)⟩

theorem witness_RequestsAreAnsweredAndBanksSwap_11 :
    ∃ (slot : Nat) (s : State),
      let b := (slotOf s slot).beat
      s.refresh.swapDue = true ∧ (∃ e ∈ s.refresh.entries, refServing e = slot) ∧ b.phase = 1 ∧ s.clock = b.opened ∧ s.refresh.state = 3 :=
  ⟨0,
   withSlot { slot0 with beat := { SlotBeat.idle with phase := 1 } } { State.reset with refresh := { State.reset.refresh with state := 3, entries := [refresh0], swapDue := true } },
   by decide +kernel⟩

theorem witness_RequestsAreAnsweredAndBanksSwap_12 :
    ∃ (slot : Nat) (s : State),
      let b := (slotOf s slot).beat
      s.refresh.swapDue = true ∧ (∃ e ∈ s.refresh.entries, refServing e = slot) ∧ b.phase = 1 ∧ s.clock = b.opened ∧
      s.refresh.state ≠ 3 ∧ s.refresh.late = false :=
  ⟨0,
   withSlot { slot0 with beat := { SlotBeat.idle with phase := 1 } } { State.reset with refresh := { State.reset.refresh with state := 2, entries := [refresh0], swapDue := true } },
   by decide +kernel⟩

theorem witness_RequestsAreAnsweredAndBanksSwap_13 :
    ∃ (slot : Nat) (s : State),
      (s.refresh.state ≠ 3 ∧ s.refresh.late = true ∨ s.clock ≠ (slotOf s slot).beat.opened) :=
  ⟨0, { State.reset with refresh := { State.reset.refresh with state := 2, late := true } },
   by decide +kernel⟩

theorem witness_NormsFormRingsReduceAndLatePiecesFold_1 :
    ∃ (b : Bytes) (slot n : Nat) (r : Route) (s : State),
      slot = field b 6 1 % 4 ∧ routeOf s slot = some r ∧ field b 10 1 = 0 ∧ reportCurrent s slot b = true ∧ n = field b 11 1 ∧ 1 ≤ n ∧
      n ≤ 16 :=
  ⟨zeroBytes 11 ++ [16], 0, 16, ringRoute 0, ringing 0 0 (steps 0) (Coll.none) State.reset,
   by decide +kernel⟩

theorem witness_NormsFormRingsReduceAndLatePiecesFold_2 :
    ∃ (b : Bytes) (slot : Nat) (r : Route) (s : State),
      slot = field b 6 1 % 4 ∧ routeOf s slot = some r ∧ field b 10 1 = 1 ∧ reportCurrent s slot b = true ∧
      (slotOf s slot).train.norm = none :=
  ⟨zeroBytes 10 ++ [1], 0, ringRoute 0, ringing 0 0 (steps 0) (Coll.none) State.reset,
   by decide +kernel⟩

theorem witness_NormsFormRingsReduceAndLatePiecesFold_3 :
    ∃ (slot k c i : Nat) (vs : Bytes) (r : Route) (x : CollRec) (s : State),
      let q := collOf s slot
      let p := pieceKey k c i
      routeOf s slot = some r ∧ r.collectives[k]? = some x ∧ c < x.group ∧ i < x.rings ∧ x.op ≠ 3 ∧ (slotOf s slot).train.state = 1 ∧
      x.op ≠ 1 ∧ x.rank ≠ (c + 1) % x.group ∧ kget q.partials p = none ∧ kgetD 0 q.decided p = 0 :=
  ⟨0, 0, 0, 0, [], ringRoute 0, CollRec.parse (collBytes 0), ringing 0 0 (steps 0) (Coll.none) State.reset,
   by decide +kernel⟩

theorem witness_NormsFormRingsReduceAndLatePiecesFold_4 :
    ∃ (slot k c i : Nat) (vs : Bytes) (r : Route) (x : CollRec) (s : State) (v : List Word),
      let q := collOf s slot
      let p := pieceKey k c i
      routeOf s slot = some r ∧ r.collectives[k]? = some x ∧ c < x.group ∧ i < x.rings ∧ x.op ≠ 3 ∧ (slotOf s slot).train.state = 1 ∧
      x.op ≠ 1 ∧ x.rank ≠ (c + 1) % x.group ∧ kget q.partials p = none ∧ (kgetD 0 q.decided p = 1 ∨ kgetD 0 q.decided p = 2) ∧
      ringOpen s slot r = true ∧ c ≠ x.rank ∧ 0 < x.piece ∧
      (kgetD [] q.own p = [] ∧ v = ringWords x.sum vs ∨ (kgetD [] q.own p).length = x.piece ∧ v = List.zipWith (sumAdd x.sum) (ringWords x.sum vs) (kgetD [] q.own p)) :=
  ⟨0, 0, 0, 0, [], ringRoute 0, CollRec.parse (collBytes 0), ringing 0 0 (steps 0) ({ Coll.none with decided := [(0, 1)] }) State.reset,
   [],
   by decide +kernel⟩

theorem witness_NormsFormRingsReduceAndLatePiecesFold_5 :
    ∃ (slot k c i : Nat) (vs : Bytes) (r : Route) (x : CollRec) (s : State),
      let q := collOf s slot
      let p := pieceKey k c i
      routeOf s slot = some r ∧ r.collectives[k]? = some x ∧ c < x.group ∧ i < x.rings ∧ x.op ≠ 3 ∧ (slotOf s slot).train.state = 1 ∧
      x.op ≠ 0 ∧ (x.op = 1 ∨ x.rank = (c + 1) % x.group) ∧ c ≠ x.rank ∧ p ∉ q.gathered :=
  ⟨0, 0, 0, 0, [], ringRoute 1, CollRec.parse (collBytes 1), ringing 1 0 (steps 0) (Coll.none) State.reset,
   by decide +kernel⟩

theorem witness_NormsFormRingsReduceAndLatePiecesFold_7 :
    ∃ (slot k c i : Nat) (r : Route) (x : CollRec) (s : State),
      let q := collOf s slot
      let p := pieceKey k c i
      routeOf s slot = some r ∧ r.collectives[k]? = some x ∧ c < x.group ∧ i < x.rings ∧ x.op ≠ 3 ∧ x.op ≠ 1 ∧
      (slotOf s slot).train.state = 1 ∧ (slotOf s slot).train.attempt = 0 ∧ kgetD 0 q.decided p = 0 ∧ kget q.carries p = none ∧
      present q x k c i = true :=
  ⟨0, 0, 0, 0, ringRoute 0, CollRec.parse (collBytes 0),
   ringing 0 0 (steps 0) ({ Coll.none with staged := (List.range 384).map (fun e => (e, 0)) }) State.reset,
   by decide +kernel⟩

theorem witness_NormsFormRingsReduceAndLatePiecesFold_8 :
    ∃ (slot k c i : Nat) (r : Route) (x : CollRec) (s : State),
      let q := collOf s slot
      let p := pieceKey k c i
      routeOf s slot = some r ∧ r.collectives[k]? = some x ∧ c < x.group ∧ i < x.rings ∧ x.op ≠ 3 ∧ x.op ≠ 1 ∧
      (slotOf s slot).train.state = 1 ∧ (slotOf s slot).train.attempt = 0 ∧ kgetD 0 q.decided p = 0 ∧ kget q.carries p = none ∧
      present q x k c i = false ∧ (closePointPassed s slot x = false ∨ routeSetting s slot 0x2981 ≠ 1) :=
  ⟨0, 0, 0, 0, ringRoute 0, CollRec.parse (collBytes 0),
   withSlot { slot0 with route := some (ringRoute 0), beat := { SlotBeat.idle with phase := 1, period := 4096 }, train := steps 0 } { State.reset with colls := [(0, Coll.none)] },
   by decide +kernel⟩

theorem witness_NormsFormRingsReduceAndLatePiecesFold_9 :
    ∃ (slot k c i : Nat) (r : Route) (x : CollRec) (s : State),
      let q := collOf s slot
      let p := pieceKey k c i
      routeOf s slot = some r ∧ r.collectives[k]? = some x ∧ c < x.group ∧ i < x.rings ∧ x.op ≠ 3 ∧ x.op ≠ 1 ∧
      (slotOf s slot).train.state = 1 ∧ (slotOf s slot).train.attempt = 0 ∧ kgetD 0 q.decided p = 0 ∧ kget q.carries p = none ∧
      present q x k c i = false ∧ closePointPassed s slot x = true ∧ routeSetting s slot 0x2981 = 1 ∧ stalenessLimit s slot r x ≠ 0 :=
  ⟨0, 0, 0, 0, ringRoute 0, CollRec.parse (collBytes 0), ringing 0 127 (steps 0) (Coll.none) (withObj 0x2981 0 [1] State.reset),
   by decide +kernel⟩

theorem witness_NormsFormRingsReduceAndLatePiecesFold_10 :
    ∃ (slot k c i : Nat) (r : Route) (x : CollRec) (s : State),
      (ringOpen s slot r = false ∨ kgetD 0 (collOf s slot).decided (pieceKey k c i) = 0) :=
  ⟨0, 0, 0, 0, ringRoute 0, CollRec.parse (collBytes 0), State.reset,
   by decide +kernel⟩

theorem witness_NormsFormRingsReduceAndLatePiecesFold_11 :
    ∃ (slot k c i first step : Nat) (vs : Bytes) (r : Route) (x : CollRec) (s : State),
      let q := collOf s slot
      let p := pieceKey k c i
      routeOf s slot = some r ∧ r.collectives[k]? = some x ∧ c < x.group ∧ i < x.rings ∧ x.op ≠ 3 ∧
      first + (ringWords x.sum vs).length ≤ x.piece ∧ step = (slotOf s slot).train.step ∧
      (kgetD 0 q.decided p = 2 ∨ kgetD 0 q.decided p = 4) :=
  ⟨0, 0, 0, 0, 127, 0, [0, 0, 0, 0], ringRoute 0, CollRec.parse (collBytes 0),
   ringing 0 0 (steps 0) ({ Coll.none with decided := [(0, 2)] }) State.reset,
   by decide +kernel⟩

theorem witness_NormsFormRingsReduceAndLatePiecesFold_12 :
    ∃ (slot k c i first step : Nat) (vs : Bytes) (r : Route) (x : CollRec) (s : State),
      let q := collOf s slot
      let p := pieceKey k c i
      routeOf s slot = some r ∧ r.collectives[k]? = some x ∧ c < x.group ∧ i < x.rings ∧ x.op ≠ 3 ∧
      first + (ringWords x.sum vs).length ≤ x.piece ∧ step < (slotOf s slot).train.step ∧
      stalenessLimit s slot r x < (slotOf s slot).train.step - step :=
  ⟨0, 0, 0, 0, 127, 0, [0, 0, 0, 0], ringRoute 0, CollRec.parse (collBytes 0), ringing 0 0 (steps 2) (Coll.none) State.reset,
   by decide +kernel⟩

theorem witness_NormsFormRingsReduceAndLatePiecesFold_13 :
    ∃ (slot k c i first step : Nat) (vs : Bytes) (r : Route) (x : CollRec) (s : State) (y : _),
      let q := collOf s slot
      let p := pieceKey k c i
      routeOf s slot = some r ∧ r.collectives[k]? = some x ∧ c < x.group ∧ i < x.rings ∧ x.op ≠ 3 ∧
      first + (ringWords x.sum vs).length ≤ x.piece ∧ step < (slotOf s slot).train.step ∧
      (slotOf s slot).train.step - step ≤ stalenessLimit s slot r x ∧ kget q.carries p = some y ∧ y.spent = false ∧ y.landed < y.folded :=
  ⟨0, 0, 0, 0, 127, 0, [0, 0, 0, 0], ringRoute 0, CollRec.parse (collBytes 0),
   ringing 0 0 (steps 1) ({ Coll.none with carries := [(0, ⟨0, [], 2, 1, false⟩)] }) State.reset, ⟨0, [], 2, 1, false⟩,
   by decide +kernel⟩

theorem witness_HeldPagesAreCopiedSentAndKept_1 :
    ∃ (slot tier unit f : Nat) (p : SecurePoint) (h : HeldPage) (e : PageEntry) (s : State),
      let x := secureOf s slot
      x.point = some p ∧
      (p.pages.find? (fun h => !h.copied && h.held && (kgetD Cargo.free s.mem.cargoes h.record).tier == tier && ((pageOf s h.record h.page).any (fun e => e.unit == unit))) = some h) ∧
      kget x.reserve (pageNumber h.record h.page) = some f ∧ pageOf s h.record h.page = some e :=
  ⟨0, 1, 0, 5, point0 [held0 false], held0 false, ⟨0, 1, 0, 0⟩,
   withCargo cargo0 (securing { Secure.none with point := some (point0 [held0 false]), reserve := [(0, 5)] } State.reset),
   by decide +kernel⟩

theorem witness_HeldPagesAreCopiedSentAndKept_2 :
    ∃ (slot l : Nat) (r : Route) (p : SecurePoint) (s : State) (h : _),
      let pages := p.pages.map (fun g => if g.record = h.record ∧ g.page = h.page then { g with sent := true } else g)
      (secureOf s slot).point = some p ∧ routeOf s slot = some r ∧ controlLink s (keeperOf s) = some l ∧ keeperOf s ≠ 0xFFFF ∧
      buddyLink s l = true ∧ (p.pages.find? (fun h => h.copied && !h.sent) = some h) :=
  ⟨0, 0, route0, point0 [{ held0 false with copied := true }],
   kept (withSlot slot0 (securing { Secure.none with point := some (point0 [{ held0 false with copied := true }]) } State.reset)),
   { held0 false with copied := true },
   by decide +kernel⟩

theorem witness_HeldPagesAreCopiedSentAndKept_3 :
    ∃ (slot l : Nat) (r : Route) (p : SecurePoint) (s : State),
      (secureOf s slot).point = some p ∧ routeOf s slot = some r ∧ controlLink s (keeperOf s) = some l ∧ keeperOf s ≠ 0xFFFF ∧
      buddyLink s l = true ∧ (∀ h ∈ p.pages, h.sent = true) ∧ p.headerSent = false :=
  ⟨0, 0, route0, point0 [held0 true],
   kept (withSlot slot0 (securing { Secure.none with point := some (point0 [held0 true]) } State.reset)),
   by decide +kernel⟩

theorem witness_HeldPagesAreCopiedSentAndKept_4 :
    ∃ (device slot step page area : Nat) (b : Bytes) (s : State),
      let cur := kgetD 1 s.keeper.current area
      let k := area * 2 + (1 - cur)
      let x := kgetD ⟨[], []⟩ s.keeper.slots k
      firmwareRuns s = true ∧ ((List.range 4).find? (fun k => setting s 0x2903 k == device && device != 0xFFFF) = some area) :=
  ⟨5, 0, 0, 0, 3, [], withObj 0x2903 3 (le 2 5) State.reset,
   by decide +kernel⟩

theorem witness_HeldPagesAreCopiedSentAndKept_5 :
    ∃ (slot : Nat) (p : SecurePoint) (s : State),
      (secureOf s slot).point = some p ∧ keeperOf s ≠ 0xFFFF ∧ p.buddyDone = false ∧ p.headerSent = true :=
  ⟨0, { point0 [] with headerSent := true },
   kept (securing { Secure.none with point := some { point0 [] with headerSent := true } } State.reset),
   by decide +kernel⟩

theorem witness_HeldPagesAreCopiedSentAndKept_6 :
    ∃ (slot : Nat) (r : Route) (p : SecurePoint) (s : State),
      (secureOf s slot).point = some p ∧ routeOf s slot = some r ∧ p.checkpoint = true ∧ p.flashDone = false ∧
      checkpointCargo s p.pages.length = none :=
  ⟨0, route0, point0 [], withSlot slot0 (securing { Secure.none with point := some (point0 []) } State.reset),
   by decide +kernel⟩

theorem witness_HeldPagesAreCopiedSentAndKept_7 :
    ∃ (slot : Nat) (r : Route) (p : SecurePoint) (s : State) (i c u v : _),
      let half := (secureOf s slot).checkpoints % 2 * (p.pages.length + 1)
      let logical (k : Nat) : Nat := ((c.pages[half + k]?).map (·.frame)).getD 0
      let w := p.pages.zipIdx.foldl (fun s e => writeData i ((half + 1 + e.2) * pageBytes) (loadBytes e.1.contents (pageAddress e.1.record e.1.page) pageBytes) s) u
      (secureOf s slot).point = some p ∧ routeOf s slot = some r ∧ p.checkpoint = true ∧ p.flashDone = false ∧
      checkpointCargo s p.pages.length = some (i, c) ∧ 0 < p.pages.length ∧ p.pages.length ≤ 4096 ∧
      (admitStore (slotOf s slot).owner ((List.range p.pages.length).map (fun k => logical (k + 1))) true s = (u, true)) ∧
      (∀ f ∈ w.mem.cache, f.dirty = false) ∧ admitStore (slotOf s slot).owner [logical 0] true w = (v, true) :=
  ⟨0, route0, point0 [held0 false], checkpointing, 0, storeCargo, firstStore, second0.choose,
   by decide +kernel, by decide +kernel, by decide +kernel, by decide +kernel, by decide +kernel, by decide +kernel, by decide +kernel,
   admitted _ _ _ (by decide +kernel),
   frames_at (one_page (fun e s => writeData 0 _ _ s) (held0 false) firstStore) (by decide +kernel) rfl,
   admitted_at (by decide +kernel) rfl (one_page (fun e s => writeData 0 _ _ s) (held0 false) firstStore) (by decide +kernel) rfl⟩

theorem witness_RestoresAndHandoversRunTheirSteps_1 :
    ∃ (who : Who) (b : Bytes) (r : Route) (s : State),
      Passes who (lastOf 0x290F 0 b) s ∧ field b 0 1 < 4 ∧ field b 1 1 ≤ 5 ∧ zeroAt b 16 8 = true ∧ s.beat.count + 65536 ≤ field b 8 8 ∧
      routeOf s (field b 0 1) = some r ∧ r.training = true :=
  ⟨who0, zeroBytes 8 ++ le 8 65536 ++ zeroBytes 8, route0, expert (withSlot slot0 State.reset),
   ⟨by decide +kernel, by decide +kernel, by decide +kernel, by decide +kernel, by decide +kernel⟩, by decide +kernel⟩

theorem witness_RestoresAndHandoversRunTheirSteps_3 :
    ∃ (slot : Nat) (q : Restoring) (s : State),
      (secureOf s slot).restoring = some q ∧ s.beat.count < q.start :=
  ⟨0, ⟨1, 1, 1, none⟩, securing { Secure.none with restoring := some ⟨1, 1, 1, none⟩ } State.reset,
   by decide +kernel⟩

theorem witness_RestoresAndHandoversRunTheirSteps_4 :
    ∃ (slot : Nat) (q : Restoring) (s : State) (e : _),
      (secureOf s slot).restoring = some q ∧ q.start ≤ s.beat.count ∧ s.beat.before < q.start ∧
      chooseState s slot q.source q.step = some e ∧ sourceReachable s q.source = true :=
  ⟨0, ⟨4, 1, 1, none⟩,
   withSlot slot0 (securing { Secure.none with restoring := some ⟨4, 1, 1, none⟩, held := [secured0] } { State.reset with beat := { Beat.reset with count := 1 } }),
   secured0,
   by decide +kernel⟩

theorem witness_RestoresAndHandoversRunTheirSteps_5 :
    ∃ (slot : Nat) (q : Restoring) (s : State),
      (secureOf s slot).restoring = some q ∧ q.start ≤ s.beat.count ∧
      (chooseState s slot q.source q.step = none ∨ sourceReachable s q.source = false ∨ q.start ≤ s.beat.before) :=
  ⟨0, ⟨4, 1, 0, none⟩, securing { Secure.none with restoring := some ⟨4, 1, 0, none⟩ } State.reset,
   by decide +kernel⟩

theorem witness_RestoresAndHandoversRunTheirSteps_6 :
    ∃ (who : Who) (b : Bytes) (s : State),
      Passes who (writeOf 0x29C0 0 b) s ∧ (slotImage s (inactiveSlot s)).state = 1 ∧ s.power.input = 0 ∧ s.power.holdup = 2 ∧
      7 ∉ s.sys.failedCores :=
  ⟨who0, [1],
   expert { State.reset with power := { Power.reset with holdup := 2 }, sys := { Sys.reset with slotB := ⟨1, 0, zeroBytes 32, []⟩ } },
   ⟨by decide +kernel, by decide +kernel, by decide +kernel, by decide +kernel, by decide +kernel⟩, by decide +kernel⟩

theorem witness_RestoresAndHandoversRunTheirSteps_7 :
    ∃ (ok : Bool) (c k : Nat) (rest : List (Nat × Nat)) (s : State),
      let order := [6, 2, 1, 3, 0, 4, 5]
      let y := { s.sys with carriers := [], movedAt := s.beat.count }
      let new := slotImage s (inactiveSlot s)
      firmwareRuns s = true ∧ s.sys.handover = 1 ∧ s.clock = s.beat.opened ∧ s.sys.carriers = [] ∧
      (s.sys.rollback = none ∧ order.find? (fun n => !s.sys.moved.contains n) = some c ∨ s.sys.rollback ≠ none ∧ s.sys.moved.getLast? = some c) :=
  ⟨true, 6, 0, [], handing [] [] 0,
   by decide +kernel⟩

theorem witness_RestoresAndHandoversRunTheirSteps_8 :
    ∃ (ok : Bool) (c k : Nat) (rest : List (Nat × Nat)) (s : State),
      let order := [6, 2, 1, 3, 0, 4, 5]
      let y := { s.sys with carriers := [], movedAt := s.beat.count }
      let new := slotImage s (inactiveSlot s)
      firmwareRuns s = true ∧ s.sys.handover = 1 ∧ s.clock = s.beat.opened ∧ s.sys.carriers = (c, k) :: rest ∧
      s.beat.count ≤ s.sys.movedAt :=
  ⟨true, 6, 7, [], handing [(6, 7)] [] 0,
   by decide +kernel⟩

theorem witness_RestoresAndHandoversRunTheirSteps_9 :
    ∃ (ok : Bool) (c k : Nat) (rest : List (Nat × Nat)) (s : State),
      let order := [6, 2, 1, 3, 0, 4, 5]
      let y := { s.sys with carriers := [], movedAt := s.beat.count }
      let new := slotImage s (inactiveSlot s)
      firmwareRuns s = true ∧ s.sys.handover = 1 ∧ s.clock = s.beat.opened ∧ s.sys.carriers = (c, k) :: rest ∧
      s.sys.movedAt < s.beat.count ∧ s.sys.rollback = none ∧ ok = true ∧
      ((order.find? (fun n => !(s.sys.moved ++ [c]).contains n)).isSome = true) :=
  ⟨true, 6, 7, [], handing [(6, 7)] [] 1,
   by decide +kernel⟩

theorem witness_RestoresAndHandoversRunTheirSteps_10 :
    ∃ (ok : Bool) (c k : Nat) (rest : List (Nat × Nat)) (s : State),
      let order := [6, 2, 1, 3, 0, 4, 5]
      let y := { s.sys with carriers := [], movedAt := s.beat.count }
      let new := slotImage s (inactiveSlot s)
      firmwareRuns s = true ∧ s.sys.handover = 1 ∧ s.clock = s.beat.opened ∧ s.sys.carriers = (c, k) :: rest ∧
      s.sys.movedAt < s.beat.count ∧ s.sys.rollback = none ∧ ok = true ∧ (order.find? (fun n => !(s.sys.moved ++ [c]).contains n) = none) :=
  ⟨true, 5, 7, [], handing [(5, 7)] [6, 2, 1, 3, 0, 4] 1,
   by decide +kernel⟩

theorem witness_RestoresAndHandoversRunTheirSteps_11 :
    ∃ (ok : Bool) (c k : Nat) (rest : List (Nat × Nat)) (s : State),
      let order := [6, 2, 1, 3, 0, 4, 5]
      let y := { s.sys with carriers := [], movedAt := s.beat.count }
      let new := slotImage s (inactiveSlot s)
      firmwareRuns s = true ∧ s.sys.handover = 1 ∧ s.clock = s.beat.opened ∧ s.sys.carriers = (c, k) :: rest ∧
      s.sys.movedAt < s.beat.count ∧ s.sys.rollback = none ∧ ok = false ∧ s.sys.moved ≠ [] :=
  ⟨false, 2, 7, [], handing [(2, 7)] [6] 1,
   by decide +kernel⟩

theorem witness_RestoresAndHandoversRunTheirSteps_12 :
    ∃ (ok : Bool) (c k : Nat) (rest : List (Nat × Nat)) (s : State),
      let order := [6, 2, 1, 3, 0, 4, 5]
      let y := { s.sys with carriers := [], movedAt := s.beat.count }
      let new := slotImage s (inactiveSlot s)
      firmwareRuns s = true ∧ s.sys.handover = 1 ∧ s.clock = s.beat.opened ∧ s.sys.carriers = (c, k) :: rest ∧
      s.sys.movedAt < s.beat.count ∧ s.sys.rollback ≠ none ∧ s.sys.moved.filter (· != c) ≠ [] :=
  ⟨true, 2, 7, [], handing [(2, 7)] [6, 2] 1 (some 0),
   by decide +kernel⟩

theorem witness_RestoresAndHandoversRunTheirSteps_13 :
    ∃ (ok : Bool) (c k : Nat) (rest : List (Nat × Nat)) (s : State),
      let order := [6, 2, 1, 3, 0, 4, 5]
      let y := { s.sys with carriers := [], movedAt := s.beat.count }
      let new := slotImage s (inactiveSlot s)
      firmwareRuns s = true ∧ s.sys.handover = 1 ∧ s.clock = s.beat.opened ∧ s.sys.carriers = (c, k) :: rest ∧
      s.sys.movedAt < s.beat.count ∧
      (s.sys.rollback = none ∧ ok = false ∧ s.sys.moved = [] ∨ s.sys.rollback ≠ none ∧ s.sys.moved.filter (· != c) = []) :=
  ⟨false, 6, 7, [], handing [(6, 7)] [] 1,
   by decide +kernel⟩

theorem witness_VendorIndexesAreRefused_1 :
    ∃ (who : Who) (a : Ask) (s : State),
      0x7000 ≤ a.index ∧ a.index ≤ 0x7FFF ∧ noSession s who = false :=
  ⟨who0, readOf 0x7FFF 0, State.reset,
   by decide +kernel⟩

theorem witness_VendorIndexesAreRefused_2 :
    ∃ (who : Who) (index sub offset length : Nat) (b : Bytes) (flag : Bool) (ins : Instr) (s : State),
      0x7000 ≤ index ∧ index ≤ 0x7FFF ∧ reaches s who = true ∧ noSession s who = false ∧
      ins ∈ [.objectRead who index sub length flag, .objectWrite who index sub b, .domainReadSegment who index sub offset length flag, .domainWriteSegment who index sub offset b, .domainWriteLastSegment who index sub offset b] :=
  ⟨who0, 0x7000, 0, 0, 0, [], false, .objectRead who0 0x7000 0 0 false, State.reset,
   by decide +kernel⟩

theorem witness_CountersAreClearedAtTheNextCapture_1 :
    ∃ (who : Who) (b : Bytes) (s : State),
      Passes who (writeOf 0x2C02 0 b) s :=
  ⟨who0, [1], State.reset,
   ⟨by decide +kernel, by decide +kernel, by decide +kernel, by decide +kernel, by decide +kernel⟩⟩

theorem witness_CountersAreClearedAtTheNextCapture_2 :
    ∃ (who : Who) (b : Bytes) (s : State),
      who.client ≠ 0 ∧ noSession s who = false ∧ s.ctr.clearPending = false :=
  ⟨⟨1, 0, 0⟩, [1], State.reset,
   by decide +kernel⟩

theorem witness_CountersAreClearedAtTheNextCapture_3 :
    ∃ (who : Who) (b : Bytes) (s : State),
      reaches s who = true ∧ s.ctr.clearPending = true :=
  ⟨who0, [1], { State.reset with ctr := { State.reset.ctr with clearPending := true } },
   by decide +kernel⟩

theorem witness_CountersAreClearedAtTheNextCapture_4 :
    ∃ (s : State),
      s.ctr.clearPending = true ∧ firmwareRuns s = true ∧ s.beat.count % max 1 (setting s 0x3C01 0) = 0 :=
  ⟨{ State.reset with ctr := { State.reset.ctr with clearPending := true } },
   by decide +kernel⟩

/-! Firing: an operation of each kind at station 0 that the firing rule lets fire for the tag 0. -/

def fireOp (kind : Nat) : OpEntry := { opOf kind 1 with inputs := [⟨0, 0, 0, 0⟩] }
def fireStation (kind : Nat) : StationRec := { stationA (fireOp kind) with counters := [{ CounterRec.parse [] with inner := 1, outer := 1 }] }
def fireRoute (kind : Nat) : Route :=
  { routeA (fireOp kind) with stations := [fireStation kind], mmos := [mmoDesc0], plan := { plan0 with collective := collBytes 0 } }
def fireFrom (kind : Nat) (e : Entry) : State :=
  withSlot { slot0 with
    route := some (fireRoute kind)
    beat := { SlotBeat.idle with phase := 1 }
    stations := [(0, { StationState.fresh with queues := [(0, [e])], results := [(0, 7)] })]
    streams := [(3, stream0), (4, stream0)]
    train := { Training.none with state := 1, stash := [⟨0, 3, 0, header0 0 3 1, 0, 0, 1, false, none, false, 1⟩] } } State.reset
def firing (kind : Nat) : State := fireFrom kind (entry0 0)
/-- What the operation would draw. -/
def fireEntries (kind : Nat) (s : State) : List Entry := (readyNow s 0 (fireRoute kind) (fireStation kind) (fireOp kind) 0).getD []

theorem witness_Fires : ∀ k < 10, MayFire k 0 0 0 0 (fireRoute k) (fireStation k) (fireOp k) (fireEntries k (firing k)) (firing k) := by
  intro k h
  have e : ∀ k < 10, stationMay (firing k) 0 (fireStation k) = true ∧ chosen (firing k) 0 (fireRoute k) (fireStation k) = some (0, 0) ∧
      readyNow (firing k) 0 (fireRoute k) (fireStation k) (fireOp k) 0 = some (fireEntries k (firing k)) := by decide +kernel
  exact ⟨rfl, rfl, rfl, rfl, (e k h).1, (e k h).2.1, (e k h).2.2⟩

/-- What these firings draw lies in no buffer half, so nothing of it is checked. -/
theorem witness_Fires_unchecked : ∀ k < 10, fireEntries k (firing k) ≠ [] ∧ entryLandings (firing k) 0 0 k (fireEntries k (firing k)) = [] := by
  decide +kernel

/-- An entry in the buffer half that a copy of a cargo has landed in. -/
def halfEntry : Entry := { entry0 0 with half := some (17, 0, 0) }
def fireHalf (waiting : Bool) (refetched : Nat) : State := withCopy (copy0 (.half 17 0 0) waiting refetched) (fireFrom 7 halfEntry)

theorem witness_Fires_half : ∀ s ∈ [fireHalf true 0, fireHalf false 200],
    MayFire 7 0 0 0 0 (fireRoute 7) (fireStation 7) (fireOp 7) (fireEntries 7 s) s := by
  have e : ∀ s ∈ [fireHalf true 0, fireHalf false 200], routeOf s 0 = some (fireRoute 7) ∧ stationMay s 0 (fireStation 7) = true ∧
      chosen s 0 (fireRoute 7) (fireStation 7) = some (0, 0) ∧
      readyNow s 0 (fireRoute 7) (fireStation 7) (fireOp 7) 0 = some (fireEntries 7 s) := by decide +kernel
  exact fun s h => ⟨(e s h).1, rfl, rfl, rfl, (e s h).2.1, (e s h).2.2.1, (e s h).2.2.2⟩

theorem witness_Fires_checked :
    (firingCheck 0 0 7 (fireEntries 7 (fireFrom 7 halfEntry)) (fireFrom 7 halfEntry)).2 = .ok ∧
    (drawAll 0 (fireRoute 7) (fireStation 7) 7 0 (fireOp 7).inputs (fireFrom 7 halfEntry)).isSome = true ∧
    (firingCheck 0 0 7 (fireEntries 7 (fireHalf true 0)) (fireHalf true 0)).2 = .wait ∧
    (firingCheck 0 0 7 (fireEntries 7 (fireHalf false 200)) (fireHalf false 200)).2 = .fail := by decide +kernel

/-! Well-formed commands: for each range that WellFormed checks, a command outside it, which the check refuses. -/

def refusedAll (l : List Instr) : Bool := l.all (fun i => !i.wellFormed)
def beyond (client transport : Nat) : Who := ⟨client, transport, 0⟩

theorem test_wellFormed_refuses_requesters_and_slots :
    refusedAll [.beatOpen (.slot 4), .closeWindowOpen 4, .reportCutoff 4, .routeLoad 4 loadParts, .slotGive 4, .releaseTakeEffect 4, .bankSwap 4,
      .expertChallenge (beyond 64 0), .expertChallenge (beyond 0 4), .stagingOpen (beyond 64 3), .restoreDefaultsAll (beyond 0 4),
      .sessionOpen 0 4 0 [], .sessionOpen 0 0 64 [], .objectRead who0 65536 0 0 false, .objectRead who0 0 256 0 false,
      .objectWrite who0 65536 0 [], .domainReadSegment who0 0 256 0 0 false, .domainWriteSegment who0 65536 0 0 [],
      .domainWriteLastSegment who0 0 256 0 [], .cancelAdmission who0 64 [], .releaseSlot who0 64 [], .admissionRequest who0 0 [],
      .admissionRequest who0 64 (zeroBytes 64), .cargoCommandDone 64 true, .attestationSigned 64, .requestPost 64 0 0 [],
      .requestPost 0 4 0 [], .resultReleaseWrite 64 0 0, .resultReleaseWrite 0 4 0] = true := by decide

theorem test_wellFormed_refuses_the_fabric :
    refusedAll [.slotForward 256 0 0 false false, .slotForward 0 3 0 false false, .slotForward 0 0 10 false false, .arraySiteFail 272, .selftestSlice 272 true,
      .selftestNow who0 256 [], .markArrayFailed who0 256 [], .stageSubstitution who0 256, .stageReturn who0 256, .switchFault 256,
      .tileArrive 4 ⟨0, 0, 0⟩ [], .tileArrive 0 ⟨256, 0, 0⟩ [], .tileArrive 0 ⟨0, 10, 0⟩ [], .tileArrive 0 ⟨0, 0, 4⟩ [], .joinRefill 4 0 0 none, .joinRefill 0 4096 0 none,
      .joinRefill 0 0 8 none, .mmoIssue 4 0 0 0, .mmoIssue 0 4096 0 0, .mmoIssue 0 0 64 0, .forward 0 0 64 0, .scalarEmit 0 4096 0 0,
      .tokenEmit 4 0 0 0, .operationComplete 0 0 64 0, .tokenArrive 4 0 0, .tokenArrive 0 256 0, .tokenArrive 0 0 5, .steerDataArrive 0 256 0 [],
      .steerDataArrive 4 0 0 [], .steerDataArrive 0 0 8 [], .mergeDataArrive 0 0 0 4 [], .steerOutput 0 16,
      .streamRestart 0 4096, .lossItem 0 0 4096, .gaAdmit 0 0 0 4096, .tileStep 256 0, .outputDrain 256 0, .latePoint 256 0, .gAdd 256 0,
      .gAdd 0 16, .gEnd 256 0, .gLd 0 16, .glazeWordLimit 0 16, .transferIssue 256, .requestIssue 256 0, .cargoReadFail 256 0] = true := by decide

theorem test_wellFormed_refuses_memory_links_and_host :
    refusedAll [.cargoCreate who0 [], .cargoFree (beyond 64 0) (zeroBytes 64), .scrubPass 256 0 [], .droverAccess 0 2 0 0 false 0 0 0 [] 0,
      .droverAccess 0 0 16 0 false 0 0 0 [] 0, .droverAccess 0 0 0 4 false 0 0 0 [] 0, .beatMark 64 [], .latencyProbe 64, .linkUp 64,
      .flitSend 64 0, .flitSend 0 64, .laneFail 0 4, .laneFail 0 17, .laneControlFrame 0 0 256, .identityFrame 0 32768 0,
      .identityFrame 0 0 64, .peerAccessFrame 0 65536 [], .portModeChipLink who0 64, .datagramReceive 64 (datagram0 true),
      .autoNegotiationDone 64, .ethernetPortDown 64, .ringPartialArrive 0 16 0 0 [], .ringPartialArrive 0 0 0 16 [],
      .lateFoldDecide 4 0 0 0, .buddyReceive 32768 0 0 0 [] none, .buddySend 4, .bar4WindowSet who0 64 [], .bar4Read 64 0 0 none,
      .bar4Write 64 0 [], .vfEnable 64, .functionLevelReset 64, .msixUnmask 64 0, .msixUnmask 0 2048, .mailboxDoorbell 64 0 [],
      .watchdogMiss 8, .thermTrip 88, .cableShort 16, .managementEchoRequest 256 [], .coefficientBlockDone 4] = true := by decide

theorem test_wellFormed_admits_the_ends :
    ([.beatOpen (.slot 3), .expertChallenge (beyond 63 3), .slotForward 255 2 9 true true, .tileArrive 3 ⟨255, 9, 16⟩ [], .arraySiteFail 271, .joinRefill 3 4095 7 none, .mmoIssue 3 4095 63 0,
      .gAdd 255 15, .laneFail 63 16, .identityFrame 63 32767 63, .thermTrip 87, .cableShort 15, .vfEnable 63] : List Instr).all
      (fun i => i.wellFormed) = true := by decide

/-! Check values of the algorithms that the spec takes from standards: CRC-16 with initial value FFFFh (R121, R338) and SHA-256. -/

/-- The published check value of CRC-16/CCITT-FALSE over the digits 1 to 9. -/
theorem test_crc16 : crc16 [0x31, 0x32, 0x33, 0x34, 0x35, 0x36, 0x37, 0x38, 0x39] = 0x29B1 := by decide +kernel
/-- FIPS 180-4, the message "abc". -/
theorem test_sha256_abc : sha256 [0x61, 0x62, 0x63] = be 32 0xba7816bf8f01cfea414140de5dae2223b00361a396177a9cb410ff61f20015ad := by
  decide +kernel

/-! Worked examples of the spec. -/

/-- 03_object_dictionary.md: 1100.00 reads 4 and 2200.00 reads 256. -/
theorem test_counts_of_instances : stored State.reset 0x1100 0 = [4] ∧ leNat (stored State.reset 0x2200 0) = 256 := by decide +kernel
/-- 02_beats.md: one request on a beat of 4,096 cycles adds 256; the module's input power lies above its limit. -/
def overPower : State := { State.reset with power := { Power.reset with inputPower := 0x7F000000 } }
theorem test_governor_step : (govern overPower).beat.requested = 256 := by decide +kernel
/-- The cycles of the blocks and cell passes of a tile step together. -/
def stepCycles (cls split : Nat) (d : MmoDesc) (rows kspan : Nat) : Nat :=
  sumNat ((List.range (passesOf cls split d kspan)).map (fun u => passCycles cls d rows kspan (passAt cls split d u)))
/-- 06_wheel.md: the forward product streams for 3,072 cycles, dX and dW for 6,144 each. -/
theorem test_wheel_cycles :
    stepCycles 2 1 { mmoDesc0 with nt := 512 } 192 1024 = 3072 ∧ stepCycles 1 1 { mmoDesc0 with mode := 1, nt := 1024 } 192 512 = 6144 ∧
    stepCycles 1 1 { mmoDesc0 with mode := 2, mt := 1024, nt := 512 } 192 192 = 6144 := by decide
/-- 07_tiling.md: with 20 free blocks the automatic shape is reordered to 256 × 128 with K whole. -/
def reordered : Option (Nat × Nat × Nat × Nat × Bool) :=
  match issueCheck ⟨1, 64, 64, 64⟩ false true false
      { MmoDesc.parse [] with m := 640, n := 1024, k := 1024, allowReorder := true, size := 256, formatA := 1, formatB := 1, formatC := 1,
                              a := { (MmoDesc.parse []).a with kind := 0 }, b := { (MmoDesc.parse []).b with kind := 1 } }
      400 1024 128 (List.range 20) 0 with
  | .ok (d, e) => some (d.mt, d.nt, d.kt, d.order, e)
  | .error _ => none
theorem test_reorder : reordered = some (256, 128, 1024, 0, true) := by decide +kernel
/-- 07_tiling.md: a computed step of that walk takes 2,048 cycles with 256 valid rows and 1,152 with 144. -/
theorem test_step_cycles : stepCycles 1 1 { mmoDesc0 with mt := 256, nt := 128 } 256 1024 = 2048 ∧
    stepCycles 1 1 { mmoDesc0 with mt := 256, nt := 128 } 144 1024 = 1152 := by decide
/-- 08_glaze.md: the user format U0 and the block of 16 values with the largest 3.0; a row of 128 elements takes 104 bytes. -/
def userTable : Bytes := [1, 1, 4, 1, 7, 0, 8, 1] ++ zeroBytes 248
def u0Row : Bytes :=
  ((formatOf userTable 0x10).map (fun f => (packRow f 0 ⟨false, 0, 0, 0⟩ true 0 0
    ([0x40400000#32, 0xBF333333#32, 0x3C23D70A#32].map f32 ++ List.replicate 13 (fnat 0))).1)).getD []
theorem test_user_format : leNat (u0Row.take 3) % 2 ^ 18 = 0b001111 * 2 ^ 12 + 0b111011 * 2 ^ 6 + 0b011111 ∧ u0Row.getLast? = some 0x78 ∧
    (formatOf userTable 0x10).map (fun f => rowBytes f 128) = some 104 := by decide +kernel
/-- Within 1 of a number. -/
def near (x y : Rat) : Bool := decide (x - y < 1) && decide (y - x < 1)
/-- 10_update.md: the coefficient block of group 37: k.lr = 1.390909 × 10⁻⁴ to seven digits, k.wd = 0.1, k.clip = 0.3125; the two
corrections are left out, since 0.9 to the power 118,001 is too long for a test. -/
def curve0 : Bytes := le 2 3 ++ zeroBytes 14 ++ (le 8 0 ++ le 4 0) ++ (le 8 2000 ++ le 4 0x3F800000) ++ (le 8 200000 ++ le 4 0x3DCCCCCD)
def group0 : Bytes := [0, 5, 0, 0] ++ le 2 0 ++ le 2 0xFFFF ++ le 4 0x399D4952 ++ le 4 0x3F666666 ++ le 4 0x3F733333 ++ le 4 0x322BCC77 ++ le 4 0x3DCCCCCD
def coefficients0 : Bytes := coefficientRecord (padTo 64 group0) curve0 118000 120000 0x404CCCCD 0x3F800000
theorem test_coefficients : field coefficients0 4 4 = 0x3DCCCCCD ∧ field coefficients0 44 4 = 0x3EA00000 ∧ near (ratOf (BitVec.ofNat 32 (field coefficients0 0 4)) * 10 ^ 10) 1390909 = true := by decide +kernel
/-- 13_flash_store.md: 55.8 V and 0.86 F under a journal limit of 64 MiB give 957,404 pages by the
procedure of R324; the example rounds on its way and writes 957,403. -/
theorem test_admissible : admissibleUnder (64 * 2 ^ 20) (power0 { Power.reset with bankVolts := 0x425F3333, capacitance := 0x3F5C28F6 }) = 957404 := by
  decide +kernel
/-- 12_streaming.md: a row of 1,000 bytes at 1,500 touches two T1 blocks, at 0 one. -/
theorem test_blocks_touched : (cutRow 2048 false false (1500, 0, 1000)).length = 2 ∧ (cutRow 2048 false false (0, 0, 1000)).length = 1 := by decide
/-- 11_memory_tiers.md: page 17 of a cargo cached on stacks 12 to 15 is cached on stack 13. -/
theorem test_cache_stack : cacheStack { cargo0 with attr := zeroBytes 34 ++ le 2 0xF000 ++ zeroBytes 12 } 17 = 13 := by decide
/-- 16_securing_state.md: with a mean of 2,500,000 steps and a cost of 0.05, τ is 500. -/
theorem test_cadence : cadenceTau { State.reset with keeper := { Keeper.reset with mean := 0x4A189680#32 } } 0x3D4CCCCD#32 = 500 := by decide +kernel
/-- 17_sharing.md: 63 steps of 122,880 cycles and one of 155,648 give 123,392 / 122,880 = 1.0042 to four digits. -/
def slowed : State := withSlot { slot0 with train := { Training.none with stepCycles := 155648 :: List.replicate 63 122880, solo := 122880 } } State.reset
theorem test_slow_down : near (ratOf (BitVec.ofNat 32 (slowDown slowed 0)) * 10000) 10042 = true := by decide +kernel
/-- 18_serving.md: of the requests, A releases its primary at 2,220 and under early release at 1,920; B its fallback at 1,540; E enters
no beat before its release point, and A enters beat 1. -/
def requestA (d : Nat) : Query := { query0 d 1 with egress := 170, primary := some ([1], some 1919), fallback := some ([2], some 1279) }
def closes0 : State := withSlot { slot0 with route := some { serving 1 with plan := { (serving 1).plan with period := 640 } } }
  { State.reset with serves := [(0, { Serve.none with closes := [1919, 1279, 639] })] }
theorem test_serving_release : coneRule closes0 0 (requestA 2390) false = (0, stOk, 2220, 2, [1]) ∧
    (coneRule closes0 0 (requestA 2390) true).2.2.1 = 1920 ∧ coneRule closes0 0 (requestA 1710) false = (1, stOk, 1540, 3, [2]) := by decide +kernel
theorem test_serving_entry : entersLate closes0 0 (requestA 1200) 1280 = true ∧ entersLate closes0 0 (requestA 2390) 640 = false := by decide +kernel
/-- 05_firing.md: the token of T with choice 1 pairs at once with the tile T that waits, and the tile T + 1 goes on waiting. -/
def tileT (t : Word) : Tile := ⟨header0 t 3 1, [1]⟩
def waitingTiles : State := brought 17 2 0 [le 4 5, le 4 0x10000001]
  (withUnit 0 { idleUnit with data := [(0, [tileT 5, tileT 6])] } (onRoute (tokenRoute false) StationState.fresh State.reset))
theorem test_steering : (match exec (.tokenArrive 0 17 0) waitingTiles with
    | .next t => (getUnit t 17 0).map (fun u => (u.paired, kgetD [] u.data 0, u.tokens)) | _ => none) = some ([(1, tileT 5)], [tileT 6], []) := by
  decide +kernel
/-- 19_counters.md: ctr.wheel.WAIT_ACC of array 183 is 5224.B7, and EVT_CFG_DIVERGE has the code 0E03h. -/
theorem test_codes : capturedValue { State.reset with ctr := { State.reset.ctr with captured := [(0x5224 * 256 + 0xB7, 9)] } } 0x5224 0xB7 = 9 ∧
    evtCfgDiverge = 0x0E03 := by decide +kernel

/-! Arithmetic (R147, R186, R195): rounding to nearest with ties to even, wrapping INT32, both halves of packed BF16. -/

theorem test_add_rounds_to_even : add32 0x3F800000 0x33800000 = 0x3F800000 ∧ add32 0x3F800001 0x33800000 = 0x3F800002 := by decide +kernel
theorem test_fma_rounds_once : fma32 0x3F800001 0x3F800001 0xBF800002 = 0x28800000 := by decide +kernel
/-- Lane (0, 0) of v0 after one instruction on v1 and v2 of a word of an opcode in an element mode. -/
def laneAfter (i : Instr) (op mode : Nat) (a b : Word) : Option Word :=
  let w := wordOf op (1 * 2 ^ 48 + 2 * 2 ^ 43 + mode * 2 ^ 36)
  match exec i (modArray 17 (fun x => regPut 1 0 0 a (regPut 2 0 0 b { x with threads := [(0, { thread0 w with rows := 1, lanes := 1 })] })) (glazing w)) with
  | .next t => some (regGet (arrayOf t 17) 0 0 0)
  | _ => none
theorem test_glaze_add_wraps : laneAfter (.gAdd 17 0) 0x00 2 0xFFFFFFFF 2 = some 1 := by decide +kernel
theorem test_glaze_add_packed : laneAfter (.gAdd 17 0) 0x00 1 0x3F804000 0x3F803F80 = some 0x40004040 := by decide +kernel
theorem test_glaze_sub : laneAfter (.gSub 17 0) 0x01 0 0x40400000 0x3F800000 = some 0x40000000 := by decide +kernel
theorem test_glaze_min_nan : laneAfter (.gMin 17 0) 0x04 0 0x7FC00000 0x3F800000 = some nan32 := by decide +kernel
theorem test_glaze_cmplt : laneAfter (.gCmplt 17 0) 0x08 2 0xFFFFFFFF 0 = some 1 := by decide +kernel
theorem test_glaze_shr : laneAfter (.gShr 17 0) 0x0F 0 0x80000000 31 = some 1 := by decide +kernel
theorem test_glaze_exp2 : laneAfter (.gExp2 17 0) 0x18 0 0xFF800000 0 = some 0 ∧ laneAfter (.gExp2 17 0) 0x18 0 0x43800000 0 = some 0x7F800000 := by decide +kernel
theorem test_glaze_cvtf : laneAfter (.gCvtf 17 0) 0x12 0 0xFFFFFFFF 0 = some 0xBF800000 := by decide +kernel

/-! Single commands. -/

def after (i : Instr) (s : State) : State := match exec i s with | .next t => t | _ => s

theorem test_beat_open_counts : (after (.beatOpen .fabric) State.reset).beat.count = 1 := by decide +kernel
theorem test_vendor_index : (after (.objectRead who0 0x7000 0 0 false) State.reset).resp.status = stAccess := by decide +kernel
theorem test_unknown_object : (after (.objectRead who0 0x0FFF 0 0 false) State.reset).resp.status = stNoObject := by decide +kernel
theorem test_expert_object : (after (.objectWrite who0 0x1215 0 [0]) State.reset).resp.status = stLevel := by decide +kernel
theorem test_ethernet_bad_fcs : (after (.datagramReceive 62 (datagram0 false)) (directPort State.reset)).serves = [] := by decide +kernel
theorem test_lane_fail_degrades : (linkOf (after (.laneFail 0 3) (linked 0 upLink)) 0).failed = [3] := by decide +kernel
theorem test_sysrst_resets : (after .sysrst { State.reset with clock := 170000 }).sys.resetting.isSome = true := by decide +kernel
theorem test_idle_tick : (match step State.reset with | .next t => t.clock | _ => 0) = 1 := by decide +kernel

end Sys2Proof.Tests
end

section
/-! Every access to 7000-7FFF is refused (R72): the checks of R94 end in ST_ACCESS, and a refused entry leaves its record and its answer. -/

namespace Sys2Proof.Machine

/-! A refused entry (R79, R91, R94, R96). -/

/-- A refused entry answers its status without data; only a broken segment changes the dictionary, by what it aborts. -/
theorem entryResult_of_refused {s : State} {who : Who} {a : Ask} (h : entryStatus s who a ≠ stOk) :
    entryResult who a s =
      (entryStatus s who a, [], if segmentBroken a then dropPartial who (objKey a.index a.sub) s else s) := by
  unfold entryResult
  split
  case h_1 hOk => exact absurd hOk h
  case h_2 => rfl

theorem runEntry_of_refused {s : State} {who : Who} {a : Ask} {room : Nat} (h : entryStatus s who a ≠ stOk) :
    runEntry who a room s =
      { commandRecord (entryRecord s who a (entryStatus s who a))
          (if segmentBroken a then dropPartial who (objKey a.index a.sub) s else s) with
        resp := ⟨entryStatus s who a, []⟩ } := by
  have hRecorded : (entryStatus s who a != 0) = true := bne_iff_ne.mpr h
  simp [runEntry, entryResult_of_refused h, hRecorded]

@[simp] theorem dropPartial_objs (who : Who) (key : Nat) (s : State) : (dropPartial who key s).dict.objs = s.dict.objs := rfl

theorem Keeps.sameBut {ps : List Part} {s t : State} (h : Keeps (· ∉ ps) s t) : SameBut ps s t := ⟨h.queue, h.parts⟩

/-- A refused entry leaves every object value, and every part but the dictionary, the ledger and the response. -/
theorem runEntry_of_refused_frame {s : State} {who : Who} {a : Ask} {room : Nat} (h : entryStatus s who a ≠ stOk) :
    (runEntry who a room s).dict.objs = s.dict.objs ∧ SameBut [.dict, .led, .resp] s (runEntry who a room s) := by
  rw [runEntry_of_refused h]
  constructor
  · show (if segmentBroken a then dropPartial who (objKey a.index a.sub) s else s).dict.objs = s.dict.objs
    split <;> simp
  · have hDropped : Keeps (· ∉ [Part.dict, .led, .resp]) s
        (if segmentBroken a then dropPartial who (objKey a.index a.sub) s else s) :=
      .ite (fun _ => dropPartial_keeps _ _ (.refl _ s) (by simp)) (fun _ => .refl _ s)
    exact (commandRecord_keeps _ hDropped (by simp)).upd (k_resp := .inr (by simp)) |>.sameBut

/-! The range 7000-7FFF (R72). -/

theorem vendorIndex_iff (index : Nat) : vendorIndex index = true ↔ 0x7000 ≤ index ∧ index ≤ 0x7FFF := by simp [vendorIndex]

theorem accessRefused_of_vendorIndex {a : Ask} (h : vendorIndex a.index = true) (s : State) (who : Who) (r : ObjRow) :
    accessRefused s who a r = true := by simp [accessRefused, h]

/-- No command stands in the range, so none of it is ever running. -/
theorem commandRuns_of_vendorIndex {index : Nat} (h : vendorIndex index = true) (s : State) (who : Who) (sub : Nat) :
    commandRuns s who index sub = false := by
  obtain ⟨hLow, hHigh⟩ := (vendorIndex_iff index).mp h
  have hNoBlock : ¬(0x4000 ≤ index ∧ index ≤ 0x43FF) := by omega
  unfold commandRuns
  split
  case h_12 => exact if_neg hNoBlock
  all_goals omega

/-- Of the checks of R94 before the access check none refuses: no command runs in the range, the session is open, and ST_NO_OBJECT and
ST_NO_SUB spare the range. -/
theorem entryStatus_of_vendorIndex {s : State} {who : Who} {a : Ask} (h : vendorIndex a.index = true)
    (hSession : noSession s who = false) : entryStatus s who a = stAccess := by
  have hNotImage : a.index ≠ 0x1220 := by have := (vendorIndex_iff _).mp h; omega
  simp [entryStatus, firstStatus, commandRuns_of_vendorIndex h, accessRefused_of_vendorIndex h, h, hSession, hNotImage]

/-- Each of the five operations of R90 is one entry at its index. -/
theorem exec_entry {who : Who} {index sub offset length : Nat} {b : Bytes} {flag : Bool} {ins : Instr}
    (h : ins ∈ [.objectRead who index sub length flag, .objectWrite who index sub b, .domainReadSegment who index sub offset length flag,
      .domainWriteSegment who index sub offset b, .domainWriteLastSegment who index sub offset b]) (s : State) :
    ∃ a : Ask, a.index = index ∧ exec ins s = ask who a s := by
  simp only [List.mem_cons, List.not_mem_nil, or_false] at h
  obtain rfl | rfl | rfl | rfl | rfl := h <;> exact ⟨_, rfl, rfl⟩

end Sys2Proof.Machine

open Sys2Proof Sys2Proof.Machine

/-- Settles O58: the index alone decides the status, and a refused entry leaves the object values. -/
theorem vendorIndexesAreRefused : Obligations.VendorIndexesAreRefused := by
  unfold Obligations.VendorIndexesAreRefused
  constructor
  · intro who a s hLow hHigh hSession
    exact entryStatus_of_vendorIndex ((vendorIndex_iff _).mpr ⟨hLow, hHigh⟩) hSession
  · intro who index sub offset length b flag ins s hLow hHigh hReaches hSession hIns
    obtain ⟨a, rfl, hExec⟩ := exec_entry hIns s
    have hStatus : entryStatus s who a = stAccess := entryStatus_of_vendorIndex ((vendorIndex_iff _).mpr ⟨hLow, hHigh⟩) hSession
    have hRefused : entryStatus s who a ≠ stOk := by rw [hStatus]; decide
    refine ⟨runEntry who a 1024 s, ?_, ?_, runEntry_of_refused_frame hRefused⟩
    · simp [hExec, ask, done, hReaches]
    · rw [runEntry_of_refused hRefused, hStatus]
end

section
/-! The counters are cleared at the capture after a write of 2C02.00 (R449): what the write passes and answers, and what the capture leaves. -/

namespace Sys2Proof.Machine

/-! A write of a whole value (R74, R94). -/

/-- A write that passes its checks answers what its effect answers; only an effect of ST_OK is `answered`. -/
theorem askWrite_of_passes {who : Who} {index sub : Nat} {b : Bytes} {s t : State} (h : Passes who (writeOf index sub b) s)
    (hEffect : writeEffect who index sub b s = (stOk, t)) : askWrite who index sub b s = .next (answered who (writeOf index sub b) s t) := by
  have hLegal : valueLegal (rowOf index sub) b = true := h.legal rfl
  have hServed : notServed s index = false := h.served
  have hWhole : writeWhole who (writeOf index sub b) b s = (stOk, [], t) := by
    simp [writeWhole, writeOf, hLegal, hServed, hEffect]
  have hResult : entryResult who (writeOf index sub b) s = (stOk, [], t) := by
    unfold entryResult
    rw [h.status]
    exact hWhole
  show ask who (writeOf index sub b) s = _
  have hWrites : (writeOf index sub b).writes = true := rfl
  simp [ask, done, h.reached, runEntry, hResult, hWrites, answered]

/-- A running command refuses a further write of it before any other check. -/
theorem entryStatus_of_commandRuns {s : State} {who : Who} {a : Ask} (hActs : a.acts = true)
    (hRuns : commandRuns s who a.index a.sub = true) : entryStatus s who a = stBusy := by
  simp [entryStatus, firstStatus, hActs, hRuns]

theorem commandRuns_of_entryStatus_ok {s : State} {who : Who} {a : Ask} (hActs : a.acts = true) (h : entryStatus s who a = stOk) :
    commandRuns s who a.index a.sub = false := by
  cases hRuns : commandRuns s who a.index a.sub with
  | false => rfl
  | true =>
    rw [entryStatus_of_commandRuns hActs hRuns] at h
    exact absurd h (by decide)

/-- ST_ACCESS is the answer where no check before it refuses. -/
theorem entryStatus_of_accessRefused {s : State} {who : Who} {a : Ask} (hRuns : commandRuns s who a.index a.sub = false)
    (hImage : a.index ≠ 0x1220) (hSession : noSession s who = false) (hIndex : indexKnown a.index = true)
    (hRow : (objRow a.index a.sub).isSome = true) (hAccess : accessRefused s who a (rowOf a.index a.sub) = true) :
    entryStatus s who a = stAccess := by
  have hSub : (objRow a.index a.sub).isNone = false := by rw [← Option.not_isSome, hRow]; rfl
  simp [entryStatus, firstStatus, hRuns, hImage, hSession, hIndex, hSub, hAccess]

/-- Clients other than 0 write their own blocks and what every client has for itself, nothing else (R95). -/
theorem accessRefused_of_notPerClient {who : Who} {a : Ask} (hClient : who.client ≠ 0) (hWrites : a.writes = true)
    (hBlock : blockOf a.index = none) (hShared : perClient a.index a.sub = false) (s : State) (r : ObjRow) :
    accessRefused s who a r = true := by
  simp [accessRefused, hClient, hWrites, hBlock, hShared]

/-! The write of 2C02.00 (R449). -/

theorem commandRuns_clearCounters (s : State) (who : Who) (sub : Nat) : commandRuns s who 0x2C02 sub = s.ctr.clearPending := rfl

theorem rowOf_clearCounters_access : (rowOf 0x2C02 0).access = .wo := by decide +kernel

theorem writeEffect_clearCounters (who : Who) (b : Bytes) (s : State) : writeEffect who 0x2C02 0 b s = clearEffect s := by
  simp [writeEffect, rowOf_clearCounters_access, commandEffect]

theorem clearEffect_of_not_pending {s : State} (h : s.ctr.clearPending = false) :
    clearEffect s = (stOk, { s with ctr := { s.ctr with clearPending := true } }) := by
  simp [clearEffect, checked, firstStatus, h, stOk]

theorem exec_clearCounters (who : Who) (b : Bytes) (s : State) :
    exec (.clearCounters who b) s = askWrite who 0x2C02 0 b s := rfl

/-! The capture (R447, R449). -/

/-- A capture that a clear precedes empties every counter, captured and running. -/
theorem capture_ctr_of_clearPending {s : State} (h : s.ctr.clearPending = true) :
    (capture s).ctr = { s.ctr with
      live := [], captured := [], station := [], stationCaptured := [], clearPending := false, captureBeat := s.beat.count } := by
  simp [capture, h]

@[simp] theorem capture_led (s : State) : (capture s).led = s.led := rfl

/-- One cause of the beat is signalled, where its function exists (R469). -/
def signalCause (s : State) (c : Nat × Nat) : State := if hasFunction s c.1 then signal c.1 c.2 s else s

/-- The causes are taken from the list before they are signalled. -/
def causesTaken (s : State) : State := { s with ctr := { s.ctr with causes := [] } }

/-- What the last cycle of a beat does before the counters are captured: gated arrays are counted, causes are signalled. -/
def beforeCapture (s : State) : State :=
  let counted := count 0x5012 0 (gatedArrays s) s
  counted.ctr.causes.foldl signalCause (causesTaken counted)

theorem exec_counterCapture {s : State} (hRuns : firmwareRuns s = true) :
    exec .counterCapture s = .next (if (beforeCapture s).beat.count % max 1 (setting (beforeCapture s) 0x3C01 0) = 0
      then capture (beforeCapture s) else beforeCapture s) := by
  show execCounterCapture s = _
  unfold execCounterCapture
  rw [if_pos hRuns]
  rfl

/-- Signalling moves only the messages sent and the pending bits. -/
theorem foldl_signalCause_keeps (causes : List (Nat × Nat)) (s : State) :
    Keeps (· ∉ [Part.out, .host]) s (causes.foldl signalCause s) :=
  .foldl (fun _ _ h => .ite (fun _ => signal_keeps _ _ h (by simp) (by simp)) (fun _ => h)) causes (.refl _ s)

/-- The clear goes on waiting until the capture, and the dictionary, the beat and the ledgers stand. -/
theorem beforeCapture_frame (s : State) :
    (beforeCapture s).ctr.clearPending = s.ctr.clearPending ∧ (beforeCapture s).dict = s.dict ∧ (beforeCapture s).beat = s.beat ∧
      (beforeCapture s).led = s.led := by
  obtain ⟨-, -, hParts⟩ := foldl_signalCause_keeps (count 0x5012 0 (gatedArrays s) s).ctr.causes
    (causesTaken (count 0x5012 0 (gatedArrays s) s))
  have hCtr : (beforeCapture s).ctr = (causesTaken (count 0x5012 0 (gatedArrays s) s)).ctr := hParts .ctr (by simp)
  exact ⟨by rw [hCtr]; rfl, hParts .dict (by simp), hParts .beat (by simp), hParts .led (by simp)⟩

theorem exec_counterCapture_of_due {s : State} (hRuns : firmwareRuns s = true)
    (hDue : s.beat.count % max 1 (setting s 0x3C01 0) = 0) :
    exec .counterCapture s = .next (capture (beforeCapture s)) := by
  obtain ⟨-, hDict, hBeat, -⟩ := beforeCapture_frame s
  have hSetting : setting (beforeCapture s) 0x3C01 0 = setting s 0x3C01 0 := by simp only [setting, inUse, hDict]
  rw [exec_counterCapture hRuns, hBeat, hSetting, if_pos hDue]

/-! The counts of the ledgers' records (R96, R452, R454). -/

theorem objValue_commandCount (s : State) (who : Who) : objValue s who 0x1289 0 = le 8 s.led.commands := rfl
theorem objValue_stepCount (s : State) (who : Who) : objValue s who 0x2C03 0 = le 8 s.led.steps := rfl
theorem objValue_eventCount (s : State) (who : Who) : objValue s who 0x2C04 0 = le 8 s.led.events := rfl

end Sys2Proof.Machine

open Sys2Proof Sys2Proof.Machine

/-- Settles O59: a clear that waits is the running command of 2C02.00, and the capture that takes it empties the counters alone. -/
theorem countersAreClearedAtTheNextCapture : Obligations.CountersAreClearedAtTheNextCapture := by
  unfold Obligations.CountersAreClearedAtTheNextCapture
  refine ⟨?accepted, ?refused, ?busy, ?captured⟩
  case accepted =>
    intro who b s hPasses
    have hIdle : s.ctr.clearPending = false :=
      (commandRuns_clearCounters s who 0).symm.trans (commandRuns_of_entryStatus_ok (a := writeOf 0x2C02 0 b) rfl hPasses.status)
    rw [exec_clearCounters]
    exact askWrite_of_passes hPasses ((writeEffect_clearCounters who b s).trans (clearEffect_of_not_pending hIdle))
  case refused =>
    intro who b s hClient hSession hIdle
    have hIndex : indexKnown 0x2C02 = true := by decide +kernel
    have hRow : (objRow 0x2C02 0).isSome = true := by decide +kernel
    exact entryStatus_of_accessRefused (a := writeOf 0x2C02 0 b) ((commandRuns_clearCounters s who 0).trans hIdle) (by simp [writeOf])
      hSession hIndex hRow (accessRefused_of_notPerClient hClient rfl rfl rfl s _)
  case busy =>
    intro who b s hReaches hPending
    have hStatus : entryStatus s who (writeOf 0x2C02 0 b) = stBusy :=
      entryStatus_of_commandRuns rfl ((commandRuns_clearCounters s who 0).trans hPending)
    have hRefused : entryStatus s who (writeOf 0x2C02 0 b) ≠ stOk := by rw [hStatus]; decide
    obtain ⟨-, -, hParts⟩ := runEntry_of_refused_frame (room := 1024) hRefused
    refine ⟨runEntry who (writeOf 0x2C02 0 b) 1024 s, ?_, ?_, hParts .ctr (by simp)⟩
    · show ask who (writeOf 0x2C02 0 b) s = _
      simp [ask, done, hReaches]
    · rw [runEntry_of_refused hRefused, hStatus]
  case captured =>
    intro s hPending hRuns hDue
    obtain ⟨hWaits, -, -, hLed⟩ := beforeCapture_frame s
    have hCtr := capture_ctr_of_clearPending (hWaits.trans hPending)
    refine ⟨capture (beforeCapture s), exec_counterCapture_of_due hRuns hDue, ?_, ?_, by rw [hCtr], hLed, ?_⟩
    · intro index inst
      rw [capturedValue, hCtr]
      rfl
    · intro k
      rw [hCtr]
      exact ⟨rfl, rfl, rfl⟩
    · intro who
      simp only [objValue_commandCount, objValue_stepCount, objValue_eventCount, capture_led, hLed, and_self]
end

section
/-! The machine as a whole: every command answers a state that keeps the queue, the invariant, and the parts that it may not change. -/

namespace Sys2Proof.Machine

/-- The parts that a command may change: beside those listed for it, the end of a warm or cold reset clears the fabric timer and the
Kilns' groups (R479). -/
def mayChange : Instr → List Part
  | .resetStretchEnd findings => .beat :: .kilns :: touches (.resetStretchEnd findings)
  | c => touches c

theorem mayChange_of_ne {c : Instr} (h : ∀ findings, c ≠ .resetStretchEnd findings) : mayChange c = touches c := by
  unfold mayChange
  split
  case h_1 findings => exact absurd rfl (h findings)
  case h_2 => rfl

/-- A set of parts that avoids those a command may change is kept by it, with the queue and the invariant. -/
theorem exec_answers {M : Part → Prop} {c : Instr} (hM : ∀ p ∈ mayChange c, ¬M p) (s : State) : Answers M s (exec c s) := by
  have k {p : Part} (h : (mayChange c).contains p = true) : ¬M p := hM p (List.contains_iff_mem.mp h)
  cases c <;> dsimp only [mayChange, touches] at k
  case beatOpen => exact execBeatOpen_keeps _ (.refl M s) (k rfl) (k rfl) (k rfl) (k rfl) (k rfl) (k rfl) (k rfl) (k rfl) (k rfl) (k rfl) (k rfl) (k rfl) (k rfl) (k rfl) (k rfl) (k rfl) (k rfl) (k rfl) (k rfl)
  case beatMark => exact execBeatMark_keeps _ _ (.refl M s) (k rfl) (k rfl) (k rfl) (k rfl) (k rfl) (k rfl) (k rfl) (k rfl) (k rfl)
  case initialMarkTimeout => exact execInitialMarkTimeout_keeps (.refl M s) (k rfl)
  case markUpstreamTimeout => exact execMarkUpstreamTimeout_keeps (.refl M s) (k rfl) (k rfl) (k rfl)
  case markMasterTimeout => exact execMarkMasterTimeout_keeps (.refl M s) (k rfl) (k rfl) (k rfl)
  case beatMasterRepeat => exact execBeatMasterRepeat_keeps (.refl M s) (k rfl) (k rfl) (k rfl)
  case latencyMeasure => exact execLatencyMeasure_keeps _ (.refl M s) (k rfl) (k rfl) (k rfl)
  case latencyProbe => exact execLatencyProbe_keeps _ (.refl M s) (k rfl) (k rfl)
  case latencyReply => exact execLatencyReply_keeps _ (.refl M s) (k rfl)
  case upReport => exact execUpReport_keeps _ _ _ (.refl M s) (k rfl)
  case governedAdditionApply => exact execGovernedAdditionApply_keeps (.refl M s) (k rfl) (k rfl)
  case closeWindowOpen => exact execCloseWindowOpen_keeps _ (.refl M s) (k rfl) (k rfl)
  case reportCutoff => exact execReportCutoff_keeps _ (.refl M s) (k rfl) (k rfl) (k rfl)
  case verdictApply => exact execVerdictApply_keeps _ (.refl M s) (k rfl) (k rfl) (k rfl) (k rfl) (k rfl) (k rfl) (k rfl) (k rfl) (k rfl) (k rfl) (k rfl) (k rfl) (k rfl) (k rfl) (k rfl) (k rfl) (k rfl)
  case replayStart => exact execReplayStart_keeps _ (.refl M s) (k rfl) (k rfl) (k rfl) (k rfl) (k rfl) (k rfl) (k rfl) (k rfl) (k rfl) (k rfl) (k rfl) (k rfl) (k rfl) (k rfl)
  case counterCapture => exact execCounterCapture_keeps (.refl M s) (k rfl) (k rfl) (k rfl)
  case objectRead => exact execObjectRead_keeps _ _ _ _ _ (.refl M s) (k rfl) (k rfl) (k rfl) (k rfl) (k rfl) (k rfl) (k rfl) (k rfl) (k rfl) (k rfl) (k rfl) (k rfl) (k rfl) (k rfl) (k rfl) (k rfl) (k rfl) (k rfl) (k rfl) (k rfl) (k rfl)
  case objectWrite => exact execObjectWrite_keeps _ _ _ _ (.refl M s) (k rfl) (k rfl) (k rfl) (k rfl) (k rfl) (k rfl) (k rfl) (k rfl) (k rfl) (k rfl) (k rfl) (k rfl) (k rfl) (k rfl) (k rfl) (k rfl) (k rfl) (k rfl) (k rfl) (k rfl) (k rfl)
  case domainReadSegment => exact execDomainReadSegment_keeps _ _ _ _ _ _ (.refl M s) (k rfl) (k rfl) (k rfl) (k rfl) (k rfl) (k rfl) (k rfl) (k rfl) (k rfl) (k rfl) (k rfl) (k rfl) (k rfl) (k rfl) (k rfl) (k rfl) (k rfl) (k rfl) (k rfl) (k rfl) (k rfl)
  case domainWriteSegment => exact execDomainWriteSegment_keeps _ _ _ _ _ (.refl M s) (k rfl) (k rfl) (k rfl) (k rfl) (k rfl) (k rfl) (k rfl) (k rfl) (k rfl) (k rfl) (k rfl) (k rfl) (k rfl) (k rfl) (k rfl) (k rfl) (k rfl) (k rfl) (k rfl) (k rfl) (k rfl)
  case domainWriteLastSegment => exact execDomainWriteLastSegment_keeps _ _ _ _ _ (.refl M s) (k rfl) (k rfl) (k rfl) (k rfl) (k rfl) (k rfl) (k rfl) (k rfl) (k rfl) (k rfl) (k rfl) (k rfl) (k rfl) (k rfl) (k rfl) (k rfl) (k rfl) (k rfl) (k rfl) (k rfl) (k rfl)
  case sessionOpen => exact execSessionOpen_keeps _ _ _ _ (.refl M s) (k rfl) (k rfl) (k rfl) (k rfl)
  case sessionProof => exact execSessionProof_keeps _ _ (.refl M s) (k rfl) (k rfl) (k rfl) (k rfl)
  case sessionClose => exact execSessionClose_keeps _ (.refl M s) (k rfl)
  case sessionIdleTimeout => exact execSessionIdleTimeout_keeps _ (.refl M s) (k rfl)
  case expertChallenge => exact execExpertChallenge_keeps _ (.refl M s) (k rfl) (k rfl) (k rfl) (k rfl) (k rfl) (k rfl) (k rfl) (k rfl) (k rfl) (k rfl) (k rfl) (k rfl) (k rfl) (k rfl) (k rfl) (k rfl) (k rfl) (k rfl) (k rfl) (k rfl) (k rfl)
  case expertUnlock => exact execExpertUnlock_keeps _ _ (.refl M s) (k rfl) (k rfl) (k rfl) (k rfl) (k rfl) (k rfl) (k rfl) (k rfl) (k rfl) (k rfl) (k rfl) (k rfl) (k rfl) (k rfl) (k rfl) (k rfl) (k rfl) (k rfl) (k rfl) (k rfl) (k rfl)
  case lockExpert => exact execLockExpert_keeps _ _ (.refl M s) (k rfl) (k rfl) (k rfl) (k rfl) (k rfl) (k rfl) (k rfl) (k rfl) (k rfl) (k rfl) (k rfl) (k rfl) (k rfl) (k rfl) (k rfl) (k rfl) (k rfl) (k rfl) (k rfl) (k rfl) (k rfl)
  case restoreDefaultsBasic => exact execRestoreDefaultsBasic_keeps _ (.refl M s) (k rfl) (k rfl) (k rfl) (k rfl) (k rfl) (k rfl) (k rfl) (k rfl) (k rfl) (k rfl) (k rfl) (k rfl) (k rfl) (k rfl) (k rfl) (k rfl) (k rfl) (k rfl) (k rfl) (k rfl) (k rfl)
  case restoreDefaultsAll => exact execRestoreDefaultsAll_keeps _ (.refl M s) (k rfl) (k rfl) (k rfl) (k rfl) (k rfl) (k rfl) (k rfl) (k rfl) (k rfl) (k rfl) (k rfl) (k rfl) (k rfl) (k rfl) (k rfl) (k rfl) (k rfl) (k rfl) (k rfl) (k rfl) (k rfl)
  case stagingOpen => exact execStagingOpen_keeps _ (.refl M s) (k rfl) (k rfl) (k rfl) (k rfl) (k rfl) (k rfl) (k rfl) (k rfl) (k rfl) (k rfl) (k rfl) (k rfl) (k rfl) (k rfl) (k rfl) (k rfl) (k rfl) (k rfl) (k rfl) (k rfl) (k rfl)
  case stagingClose => exact execStagingClose_keeps _ (.refl M s) (k rfl) (k rfl) (k rfl) (k rfl) (k rfl) (k rfl) (k rfl) (k rfl) (k rfl) (k rfl) (k rfl) (k rfl) (k rfl) (k rfl) (k rfl) (k rfl) (k rfl) (k rfl) (k rfl) (k rfl) (k rfl)
  case stagingDiscard => exact execStagingDiscard_keeps _ (.refl M s) (k rfl) (k rfl) (k rfl) (k rfl) (k rfl) (k rfl) (k rfl) (k rfl) (k rfl) (k rfl) (k rfl) (k rfl) (k rfl) (k rfl) (k rfl) (k rfl) (k rfl) (k rfl) (k rfl) (k rfl) (k rfl)
  case epochCommit => exact execEpochCommit_keeps (.refl M s) (k rfl) (k rfl) (k rfl) (k rfl) (k rfl) (k rfl) (k rfl) (k rfl) (k rfl) (k rfl) (k rfl) (k rfl) (k rfl) (k rfl) (k rfl) (k rfl) (k rfl) (k rfl) (k rfl)
  case repairSetCommit => exact execRepairSetCommit_keeps (.refl M s) (k rfl) (k rfl) (k rfl) (k rfl) (k rfl) (k rfl) (k rfl)
  case slotForward => exact execSlotForward_keeps _ _ _ _ _ (.refl M s) (k rfl) (k rfl) (k rfl) (k rfl)
  case arraySiteFail => exact execArraySiteFail_keeps _ (.refl M s) (k rfl) (k rfl) (k rfl)
  case selftestSlice => exact execSelftestSlice_keeps _ _ (.refl M s) (k rfl) (k rfl) (k rfl)
  case selftestNow => exact execSelftestNow_keeps _ _ _ (.refl M s) (k rfl) (k rfl) (k rfl) (k rfl) (k rfl) (k rfl) (k rfl) (k rfl) (k rfl) (k rfl) (k rfl) (k rfl) (k rfl) (k rfl) (k rfl) (k rfl) (k rfl) (k rfl) (k rfl) (k rfl) (k rfl)
  case markArrayFailed => exact execMarkArrayFailed_keeps _ _ _ (.refl M s) (k rfl) (k rfl) (k rfl) (k rfl) (k rfl) (k rfl) (k rfl) (k rfl) (k rfl) (k rfl) (k rfl) (k rfl) (k rfl) (k rfl) (k rfl) (k rfl) (k rfl) (k rfl) (k rfl) (k rfl) (k rfl)
  case stageSubstitution => exact execStageSubstitution_keeps _ _ (.refl M s) (k rfl) (k rfl) (k rfl) (k rfl) (k rfl) (k rfl) (k rfl) (k rfl) (k rfl) (k rfl) (k rfl) (k rfl) (k rfl) (k rfl) (k rfl) (k rfl) (k rfl) (k rfl) (k rfl) (k rfl) (k rfl)
  case stageReturn => exact execStageReturn_keeps _ _ (.refl M s) (k rfl) (k rfl) (k rfl) (k rfl) (k rfl) (k rfl) (k rfl) (k rfl) (k rfl) (k rfl) (k rfl) (k rfl) (k rfl) (k rfl) (k rfl) (k rfl) (k rfl) (k rfl) (k rfl) (k rfl) (k rfl)
  case switchFault => exact execSwitchFault_keeps _ (.refl M s) (k rfl) (k rfl) (k rfl)
  case tileArrive => exact execTileArrive_keeps _ _ _ (.refl M s) (k rfl) (k rfl) (k rfl) (k rfl) (k rfl) (k rfl) (k rfl) (k rfl)
  case joinRefill => exact execJoinRefill_keeps _ _ _ _ (.refl M s) (k rfl) (k rfl) (k rfl)
  case queueCreditReturn => exact execQueueCreditReturn_keeps _ _ (.refl M s) (k rfl) (k rfl)
  case mmoIssue => exact execMmoIssue_keeps _ _ _ _ (.refl M s) (k rfl) (k rfl) (k rfl) (k rfl) (k rfl) (k rfl) (k rfl) (k rfl)
  case glazeProgramStart => exact execGlazeProgramStart_keeps _ _ _ _ (.refl M s) (k rfl) (k rfl) (k rfl) (k rfl) (k rfl) (k rfl) (k rfl) (k rfl)
  case moveOperation => exact execMoveOperation_keeps _ _ _ _ (.refl M s) (k rfl) (k rfl) (k rfl) (k rfl) (k rfl) (k rfl) (k rfl)
  case stashPut => exact execStashPut_keeps _ _ _ _ (.refl M s) (k rfl) (k rfl) (k rfl) (k rfl) (k rfl) (k rfl) (k rfl) (k rfl) (k rfl) (k rfl)
  case stashGet => exact execStashGet_keeps _ _ _ _ (.refl M s) (k rfl) (k rfl) (k rfl) (k rfl) (k rfl) (k rfl) (k rfl)
  case kilnUpdate => exact execKilnUpdate_keeps _ _ _ _ (.refl M s) (k rfl) (k rfl) (k rfl) (k rfl) (k rfl) (k rfl) (k rfl) (k rfl) (k rfl) (k rfl)
  case exchangeContribute => exact execExchangeContribute_keeps _ _ _ _ (.refl M s) (k rfl) (k rfl) (k rfl) (k rfl) (k rfl) (k rfl) (k rfl) (k rfl)
  case forward => exact execForward_keeps _ _ _ _ (.refl M s) (k rfl) (k rfl) (k rfl) (k rfl) (k rfl) (k rfl) (k rfl)
  case scalarEmit => exact execScalarEmit_keeps _ _ _ _ (.refl M s) (k rfl) (k rfl) (k rfl) (k rfl) (k rfl) (k rfl) (k rfl)
  case tokenEmit => exact execTokenEmit_keeps _ _ _ _ (.refl M s) (k rfl) (k rfl) (k rfl) (k rfl) (k rfl) (k rfl) (k rfl)
  case operationComplete => exact execOperationComplete_keeps _ _ _ _ (.refl M s) (k rfl) (k rfl) (k rfl) (k rfl) (k rfl)
  case tokenArrive => exact execTokenArrive_keeps _ _ _ (.refl M s) (k rfl) (k rfl) (k rfl) (k rfl)
  case steerDataArrive => exact execSteerDataArrive_keeps _ _ _ _ (.refl M s) (k rfl) (k rfl) (k rfl) (k rfl)
  case mergeDataArrive => exact execMergeDataArrive_keeps _ _ _ _ _ (.refl M s) (k rfl) (k rfl) (k rfl) (k rfl)
  case steerOutput => exact execSteerOutput_keeps _ _ (.refl M s) (k rfl) (k rfl) (k rfl)
  case streamRestart => exact execStreamRestart_keeps _ _ (.refl M s) (k rfl) (k rfl) (k rfl) (k rfl)
  case routeStart => exact execRouteStart_keeps _ (.refl M s) (k rfl) (k rfl) (k rfl) (k rfl) (k rfl)
  case routeStartFrame => exact execRouteStartFrame_keeps _ _ _ _ (.refl M s) (k rfl) (k rfl) (k rfl) (k rfl)
  case tileStep => exact execTileStep_keeps _ _ (.refl M s) (k rfl) (k rfl) (k rfl) (k rfl) (k rfl) (k rfl) (k rfl)
  case outputDrain => exact execOutputDrain_keeps _ _ (.refl M s) (k rfl) (k rfl) (k rfl) (k rfl) (k rfl) (k rfl) (k rfl) (k rfl) (k rfl) (k rfl)
  case latePoint => exact execLatePoint_keeps _ _ (.refl M s) (k rfl) (k rfl) (k rfl) (k rfl) (k rfl) (k rfl) (k rfl) (k rfl) (k rfl) (k rfl) (k rfl)
  case gAdd => exact execGAdd_keeps _ _ (.refl M s) (k rfl) (k rfl)
  case gSub => exact execGSub_keeps _ _ (.refl M s) (k rfl) (k rfl)
  case gMul => exact execGMul_keeps _ _ (.refl M s) (k rfl) (k rfl)
  case gFma => exact execGFma_keeps _ _ (.refl M s) (k rfl) (k rfl)
  case gMin => exact execGMin_keeps _ _ (.refl M s) (k rfl) (k rfl)
  case gMax => exact execGMax_keeps _ _ (.refl M s) (k rfl) (k rfl)
  case gAbs => exact execGAbs_keeps _ _ (.refl M s) (k rfl) (k rfl)
  case gNeg => exact execGNeg_keeps _ _ (.refl M s) (k rfl) (k rfl)
  case gCmplt => exact execGCmplt_keeps _ _ (.refl M s) (k rfl) (k rfl)
  case gCmpeq => exact execGCmpeq_keeps _ _ (.refl M s) (k rfl) (k rfl)
  case gSel => exact execGSel_keeps _ _ (.refl M s) (k rfl) (k rfl)
  case gAnd => exact execGAnd_keeps _ _ (.refl M s) (k rfl) (k rfl)
  case gOr => exact execGOr_keeps _ _ (.refl M s) (k rfl) (k rfl)
  case gXor => exact execGXor_keeps _ _ (.refl M s) (k rfl) (k rfl)
  case gShl => exact execGShl_keeps _ _ (.refl M s) (k rfl) (k rfl)
  case gShr => exact execGShr_keeps _ _ (.refl M s) (k rfl) (k rfl)
  case gMov => exact execGMov_keeps _ _ (.refl M s) (k rfl) (k rfl)
  case gCvti => exact execGCvti_keeps _ _ (.refl M s) (k rfl) (k rfl)
  case gCvtf => exact execGCvtf_keeps _ _ (.refl M s) (k rfl) (k rfl)
  case gPack => exact execGPack_keeps _ _ (.refl M s) (k rfl) (k rfl)
  case gUnpack => exact execGUnpack_keeps _ _ (.refl M s) (k rfl) (k rfl)
  case gExp2 => exact execGExp2_keeps _ _ (.refl M s) (k rfl) (k rfl)
  case gLog2 => exact execGLog2_keeps _ _ (.refl M s) (k rfl) (k rfl)
  case gRcp => exact execGRcp_keeps _ _ (.refl M s) (k rfl) (k rfl)
  case gRsqrt => exact execGRsqrt_keeps _ _ (.refl M s) (k rfl) (k rfl)
  case gTanh => exact execGTanh_keeps _ _ (.refl M s) (k rfl) (k rfl)
  case gErf => exact execGErf_keeps _ _ (.refl M s) (k rfl) (k rfl)
  case gRsum => exact execGRsum_keeps _ _ (.refl M s) (k rfl) (k rfl)
  case gRmax => exact execGRmax_keeps _ _ (.refl M s) (k rfl) (k rfl)
  case gRmin => exact execGRmin_keeps _ _ (.refl M s) (k rfl) (k rfl)
  case gRamax => exact execGRamax_keeps _ _ (.refl M s) (k rfl) (k rfl)
  case gRssq => exact execGRssq_keeps _ _ (.refl M s) (k rfl) (k rfl)
  case gLd => exact execGLd_keeps _ _ (.refl M s) (k rfl) (k rfl) (k rfl) (k rfl)
  case gSt => exact execGSt_keeps _ _ (.refl M s) (k rfl) (k rfl) (k rfl) (k rfl)
  case gTout => exact execGTout_keeps _ _ (.refl M s) (k rfl) (k rfl) (k rfl) (k rfl)
  case gSli => exact execGSli_keeps _ _ (.refl M s) (k rfl) (k rfl)
  case gSadd => exact execGSadd_keeps _ _ (.refl M s) (k rfl) (k rfl)
  case gSmul => exact execGSmul_keeps _ _ (.refl M s) (k rfl) (k rfl)
  case gSfrom => exact execGSfrom_keeps _ _ (.refl M s) (k rfl) (k rfl)
  case gSetext => exact execGSetext_keeps _ _ (.refl M s) (k rfl) (k rfl)
  case gLoop => exact execGLoop_keeps _ _ (.refl M s) (k rfl) (k rfl)
  case gEnd => exact execGEnd_keeps _ _ (.refl M s) (k rfl) (k rfl) (k rfl)
  case glazeWordLimit => exact execGlazeWordLimit_keeps _ _ (.refl M s) (k rfl) (k rfl) (k rfl) (k rfl)
  case gaAdmit => exact execGaAdmit_keeps _ _ _ _ (.refl M s) (k rfl) (k rfl) (k rfl) (k rfl) (k rfl) (k rfl) (k rfl)
  case lossItem => exact execLossItem_keeps _ _ _ (.refl M s) (k rfl) (k rfl)
  case cargoCreate => exact execCargoCreate_keeps _ _ (.refl M s) (k rfl) (k rfl) (k rfl) (k rfl) (k rfl) (k rfl) (k rfl) (k rfl) (k rfl) (k rfl) (k rfl) (k rfl) (k rfl) (k rfl) (k rfl) (k rfl) (k rfl) (k rfl) (k rfl) (k rfl) (k rfl)
  case cargoFree => exact execCargoFree_keeps _ _ (.refl M s) (k rfl) (k rfl) (k rfl) (k rfl) (k rfl) (k rfl) (k rfl) (k rfl) (k rfl) (k rfl) (k rfl) (k rfl) (k rfl) (k rfl) (k rfl) (k rfl) (k rfl) (k rfl) (k rfl) (k rfl) (k rfl)
  case cargoPin => exact execCargoPin_keeps _ _ (.refl M s) (k rfl) (k rfl) (k rfl) (k rfl) (k rfl) (k rfl) (k rfl) (k rfl) (k rfl) (k rfl) (k rfl) (k rfl) (k rfl) (k rfl) (k rfl) (k rfl) (k rfl) (k rfl) (k rfl) (k rfl) (k rfl)
  case cargoUnpin => exact execCargoUnpin_keeps _ _ (.refl M s) (k rfl) (k rfl) (k rfl) (k rfl) (k rfl) (k rfl) (k rfl) (k rfl) (k rfl) (k rfl) (k rfl) (k rfl) (k rfl) (k rfl) (k rfl) (k rfl) (k rfl) (k rfl) (k rfl) (k rfl) (k rfl)
  case cargoSetActions => exact execCargoSetActions_keeps _ _ (.refl M s) (k rfl) (k rfl) (k rfl) (k rfl) (k rfl) (k rfl) (k rfl) (k rfl) (k rfl) (k rfl) (k rfl) (k rfl) (k rfl) (k rfl) (k rfl) (k rfl) (k rfl) (k rfl) (k rfl) (k rfl) (k rfl)
  case cargoFlush => exact execCargoFlush_keeps _ _ (.refl M s) (k rfl) (k rfl) (k rfl) (k rfl) (k rfl) (k rfl) (k rfl) (k rfl) (k rfl) (k rfl) (k rfl) (k rfl) (k rfl) (k rfl) (k rfl) (k rfl) (k rfl) (k rfl) (k rfl) (k rfl) (k rfl)
  case cargoMarkOutOfDate => exact execCargoMarkOutOfDate_keeps _ _ (.refl M s) (k rfl) (k rfl) (k rfl) (k rfl) (k rfl) (k rfl) (k rfl) (k rfl) (k rfl) (k rfl) (k rfl) (k rfl) (k rfl) (k rfl) (k rfl) (k rfl) (k rfl) (k rfl) (k rfl) (k rfl) (k rfl)
  case cargoCommandDone => exact execCargoCommandDone_keeps _ _ (.refl M s) (k rfl) (k rfl) (k rfl) (k rfl) (k rfl) (k rfl)
  case scrubPass => exact execScrubPass_keeps _ _ _ (.refl M s) (k rfl) (k rfl) (k rfl)
  case writehomeRetry => exact execWritehomeRetry_keeps _ _ (.refl M s) (k rfl) (k rfl) (k rfl) (k rfl) (k rfl)
  case cargoReadFail => exact execCargoReadFail_keeps _ _ (.refl M s) (k rfl) (k rfl) (k rfl) (k rfl) (k rfl) (k rfl) (k rfl) (k rfl) (k rfl) (k rfl) (k rfl)
  case transferIssue => exact execTransferIssue_keeps _ (.refl M s) (k rfl) (k rfl) (k rfl) (k rfl) (k rfl) (k rfl) (k rfl)
  case requestIssue => exact execRequestIssue_keeps _ _ (.refl M s) (k rfl) (k rfl) (k rfl) (k rfl) (k rfl) (k rfl) (k rfl) (k rfl) (k rfl) (k rfl) (k rfl)
  case requestLand => exact execRequestLand_keeps _ _ _ _ (.refl M s) (k rfl) (k rfl) (k rfl) (k rfl) (k rfl) (k rfl) (k rfl) (k rfl) (k rfl)
  case writeAcknowledge => exact execWriteAcknowledge_keeps _ _ _ (.refl M s) (k rfl) (k rfl) (k rfl) (k rfl) (k rfl)
  case droverAccess => exact execDroverAccess_keeps _ _ _ _ _ _ _ _ _ _ (.refl M s) (k rfl) (k rfl) (k rfl) (k rfl) (k rfl) (k rfl) (k rfl)
  case flashPageRead => exact execFlashPageRead_keeps _ _ _ (.refl M s) (k rfl) (k rfl)
  case flashProgram => exact execFlashProgram_keeps (.refl M s) (k rfl) (k rfl)
  case mapCheckpoint => exact execMapCheckpoint_keeps (.refl M s) (k rfl)
  case garbageCollection => exact execGarbageCollection_keeps (.refl M s) (k rfl) (k rfl)
  case staticWearLevelling => exact execStaticWearLevelling_keeps (.refl M s) (k rfl) (k rfl)
  case readDisturbRelocation => exact execReadDisturbRelocation_keeps _ (.refl M s) (k rfl) (k rfl)
  case blockRetire => exact execBlockRetire_keeps _ (.refl M s) (k rfl) (k rfl) (k rfl)
  case bankSample => exact execBankSample_keeps _ (.refl M s) (k rfl)
  case loadTest => exact execLoadTest_keeps (.refl M s) (k rfl) (k rfl) (k rfl)
  case loadTestNow => exact execLoadTestNow_keeps _ _ (.refl M s) (k rfl) (k rfl) (k rfl) (k rfl) (k rfl) (k rfl) (k rfl) (k rfl) (k rfl) (k rfl) (k rfl) (k rfl) (k rfl) (k rfl) (k rfl) (k rfl) (k rfl) (k rfl) (k rfl) (k rfl) (k rfl)
  case loadTestDone => exact execLoadTestDone_keeps _ (.refl M s) (k rfl) (k rfl) (k rfl) (k rfl) (k rfl)
  case storeAdmit => exact execStoreAdmit_keeps _ (.refl M s) (k rfl)
  case inputLow => exact execInputLow_keeps (.refl M s) (k rfl) (k rfl) (k rfl) (k rfl) (k rfl)
  case inputLowClear => exact execInputLowClear_keeps (.refl M s) (k rfl) (k rfl) (k rfl)
  case inputLoss => exact execInputLoss_keeps _ (.refl M s) (k rfl) (k rfl) (k rfl) (k rfl) (k rfl) (k rfl) (k rfl) (k rfl) (k rfl) (k rfl) (k rfl) (k rfl) (k rfl)
  case inputHigh => exact execInputHigh_keeps _ (.refl M s) (k rfl)
  case inputOvervoltage => exact execInputOvervoltage_keeps (.refl M s) (k rfl) (k rfl) (k rfl) (k rfl) (k rfl) (k rfl) (k rfl) (k rfl) (k rfl) (k rfl) (k rfl) (k rfl) (k rfl)
  case overcurrent => exact execOvercurrent_keeps (.refl M s) (k rfl) (k rfl) (k rfl) (k rfl) (k rfl) (k rfl) (k rfl) (k rfl) (k rfl) (k rfl) (k rfl) (k rfl) (k rfl)
  case holdupQuiesceEnd => exact execHoldupQuiesceEnd_keeps (.refl M s) (k rfl) (k rfl) (k rfl)
  case holdupProgramDone => exact execHoldupProgramDone_keeps (.refl M s) (k rfl) (k rfl) (k rfl)
  case powerLossRecord => exact execPowerLossRecord_keeps _ _ _ (.refl M s) (k rfl) (k rfl) (k rfl) (k rfl) (k rfl) (k rfl) (k rfl) (k rfl) (k rfl) (k rfl) (k rfl) (k rfl) (k rfl) (k rfl) (k rfl) (k rfl) (k rfl) (k rfl) (k rfl)
  case laneFail => exact execLaneFail_keeps _ _ (.refl M s) (k rfl) (k rfl) (k rfl) (k rfl)
  case spareLaneTrained => exact execSpareLaneTrained_keeps _ (.refl M s) (k rfl)
  case spareLaneJoin => exact execSpareLaneJoin_keeps _ (.refl M s) (k rfl) (k rfl)
  case flitSend => exact execFlitSend_keeps _ _ (.refl M s) (k rfl) (k rfl) (k rfl)
  case flitReceive => exact execFlitReceive_keeps _ _ _ _ _ (.refl M s) (k rfl) (k rfl) (k rfl) (k rfl) (k rfl)
  case retryRequest => exact execRetryRequest_keeps _ _ (.refl M s) (k rfl) (k rfl) (k rfl)
  case linkRetrain => exact execLinkRetrain_keeps _ (.refl M s) (k rfl)
  case linkUp => exact execLinkUp_keeps _ (.refl M s) (k rfl) (k rfl)
  case identityFrame => exact execIdentityFrame_keeps _ _ _ (.refl M s) (k rfl) (k rfl) (k rfl) (k rfl) (k rfl)
  case laneControlFrame => exact execLaneControlFrame_keeps _ _ _ (.refl M s) (k rfl) (k rfl) (k rfl)
  case digestFrame => exact execDigestFrame_keeps _ _ _ (.refl M s) (k rfl) (k rfl) (k rfl)
  case peerAccessFrame => exact execPeerAccessFrame_keeps _ _ _ (.refl M s) (k rfl) (k rfl) (k rfl) (k rfl) (k rfl) (k rfl) (k rfl) (k rfl) (k rfl) (k rfl) (k rfl) (k rfl) (k rfl) (k rfl) (k rfl) (k rfl) (k rfl) (k rfl) (k rfl) (k rfl) (k rfl)
  case sumReport => exact execSumReport_keeps _ (.refl M s) (k rfl) (k rfl) (k rfl) (k rfl) (k rfl) (k rfl) (k rfl)
  case normReport => exact execNormReport_keeps _ (.refl M s) (k rfl) (k rfl)
  case ringPartialArrive => exact execRingPartialArrive_keeps _ _ _ _ _ (.refl M s) (k rfl) (k rfl) (k rfl) (k rfl) (k rfl) (k rfl) (k rfl) (k rfl) (k rfl) (k rfl) (k rfl)
  case lateFoldDecide => exact execLateFoldDecide_keeps _ _ _ _ (.refl M s) (k rfl) (k rfl) (k rfl) (k rfl) (k rfl) (k rfl) (k rfl) (k rfl) (k rfl) (k rfl) (k rfl)
  case lateTileLand => exact execLateTileLand_keeps _ _ _ _ _ _ _ (.refl M s) (k rfl) (k rfl)
  case portModeChipLink => exact execPortModeChipLink_keeps _ _ (.refl M s) (k rfl) (k rfl) (k rfl) (k rfl) (k rfl) (k rfl) (k rfl) (k rfl) (k rfl) (k rfl) (k rfl) (k rfl) (k rfl) (k rfl) (k rfl) (k rfl) (k rfl) (k rfl) (k rfl) (k rfl) (k rfl)
  case portModeEthernet => exact execPortModeEthernet_keeps _ _ _ (.refl M s) (k rfl) (k rfl) (k rfl) (k rfl) (k rfl) (k rfl) (k rfl) (k rfl) (k rfl) (k rfl) (k rfl) (k rfl) (k rfl) (k rfl) (k rfl) (k rfl) (k rfl) (k rfl) (k rfl) (k rfl) (k rfl)
  case datagramReceive => exact execDatagramReceive_keeps _ _ (.refl M s) (k rfl) (k rfl) (k rfl) (k rfl)
  case retrainLinkNow => exact execRetrainLinkNow_keeps _ _ _ (.refl M s) (k rfl) (k rfl) (k rfl) (k rfl) (k rfl) (k rfl) (k rfl) (k rfl) (k rfl) (k rfl) (k rfl) (k rfl) (k rfl) (k rfl) (k rfl) (k rfl) (k rfl) (k rfl) (k rfl) (k rfl) (k rfl)
  case backgroundCopy => exact execBackgroundCopy_keeps _ _ _ (.refl M s) (k rfl) (k rfl) (k rfl)
  case buddySend => exact execBuddySend_keeps _ (.refl M s) (k rfl) (k rfl) (k rfl) (k rfl)
  case buddyReceive => exact execBuddyReceive_keeps _ _ _ _ _ _ (.refl M s) (k rfl)
  case buddySlotComplete => exact execBuddySlotComplete_keeps _ (.refl M s) (k rfl) (k rfl) (k rfl)
  case flashCheckpoint => exact execFlashCheckpoint_keeps _ (.refl M s) (k rfl) (k rfl) (k rfl) (k rfl) (k rfl) (k rfl) (k rfl) (k rfl)
  case restoreRequest => exact execRestoreRequest_keeps _ _ (.refl M s) (k rfl) (k rfl) (k rfl) (k rfl) (k rfl) (k rfl) (k rfl) (k rfl) (k rfl) (k rfl) (k rfl) (k rfl) (k rfl) (k rfl) (k rfl) (k rfl) (k rfl) (k rfl) (k rfl) (k rfl) (k rfl)
  case restoreStart => exact execRestoreStart_keeps _ (.refl M s) (k rfl) (k rfl) (k rfl) (k rfl) (k rfl) (k rfl) (k rfl) (k rfl) (k rfl) (k rfl) (k rfl)
  case firmwareHandover => exact execFirmwareHandover_keeps _ _ (.refl M s) (k rfl) (k rfl) (k rfl) (k rfl) (k rfl) (k rfl) (k rfl) (k rfl) (k rfl) (k rfl) (k rfl) (k rfl) (k rfl) (k rfl) (k rfl) (k rfl) (k rfl) (k rfl) (k rfl) (k rfl) (k rfl)
  case handoverServiceMove => exact execHandoverServiceMove_keeps _ (.refl M s) (k rfl) (k rfl) (k rfl)
  case admissionRequest => exact execAdmissionRequest_keeps _ _ _ (.refl M s) (k rfl) (k rfl) (k rfl) (k rfl) (k rfl) (k rfl) (k rfl) (k rfl) (k rfl) (k rfl) (k rfl) (k rfl) (k rfl) (k rfl) (k rfl) (k rfl) (k rfl) (k rfl) (k rfl) (k rfl) (k rfl)
  case slotGive => exact execSlotGive_keeps _ (.refl M s) (k rfl) (k rfl) (k rfl) (k rfl)
  case routeLoad => exact execRouteLoad_keeps _ _ (.refl M s) (k rfl) (k rfl) (k rfl) (k rfl) (k rfl) (k rfl) (k rfl) (k rfl) (k rfl) (k rfl) (k rfl)
  case routeResident => exact execRouteResident_keeps _ (.refl M s) (k rfl) (k rfl) (k rfl) (k rfl) (k rfl) (k rfl) (k rfl)
  case cancelAdmission => exact execCancelAdmission_keeps _ _ _ (.refl M s) (k rfl) (k rfl) (k rfl) (k rfl) (k rfl) (k rfl) (k rfl) (k rfl) (k rfl) (k rfl) (k rfl) (k rfl) (k rfl) (k rfl) (k rfl) (k rfl) (k rfl) (k rfl) (k rfl) (k rfl) (k rfl)
  case releaseSlot => exact execReleaseSlot_keeps _ _ _ (.refl M s) (k rfl) (k rfl) (k rfl) (k rfl) (k rfl) (k rfl) (k rfl) (k rfl) (k rfl) (k rfl) (k rfl) (k rfl) (k rfl) (k rfl) (k rfl) (k rfl) (k rfl) (k rfl) (k rfl) (k rfl) (k rfl)
  case releaseTakeEffect => exact execReleaseTakeEffect_keeps _ (.refl M s) (k rfl) (k rfl) (k rfl) (k rfl) (k rfl) (k rfl) (k rfl) (k rfl) (k rfl) (k rfl) (k rfl) (k rfl) (k rfl) (k rfl) (k rfl)
  case requestPost => exact execRequestPost_keeps _ _ _ _ (.refl M s) (k rfl) (k rfl) (k rfl) (k rfl)
  case coneRelease => exact execConeRelease_keeps _ _ (.refl M s) (k rfl) (k rfl) (k rfl) (k rfl)
  case resultReleaseWrite => exact execResultReleaseWrite_keeps _ _ _ (.refl M s) (k rfl) (k rfl)
  case refreshCopy => exact execRefreshCopy_keeps _ (.refl M s) (k rfl) (k rfl) (k rfl) (k rfl) (k rfl)
  case bankSwap => exact execBankSwap_keeps _ (.refl M s) (k rfl) (k rfl) (k rfl) (k rfl)
  case clearCounters => exact execClearCounters_keeps _ _ (.refl M s) (k rfl) (k rfl) (k rfl) (k rfl) (k rfl) (k rfl) (k rfl) (k rfl) (k rfl) (k rfl) (k rfl) (k rfl) (k rfl) (k rfl) (k rfl) (k rfl) (k rfl) (k rfl) (k rfl) (k rfl) (k rfl)
  case bootDoorbell => exact execBootDoorbell_keeps _ _ (.refl M s) (k rfl) (k rfl) (k rfl)
  case bar4WindowSet => exact execBar4WindowSet_keeps _ _ _ (.refl M s) (k rfl) (k rfl) (k rfl) (k rfl) (k rfl) (k rfl) (k rfl) (k rfl) (k rfl) (k rfl) (k rfl) (k rfl) (k rfl) (k rfl) (k rfl) (k rfl) (k rfl) (k rfl) (k rfl) (k rfl) (k rfl)
  case bar4Read => exact execBar4Read_keeps _ _ _ _ (.refl M s) (k rfl) (k rfl) (k rfl) (k rfl) (k rfl) (k rfl)
  case bar4Write => exact execBar4Write_keeps _ _ _ (.refl M s) (k rfl) (k rfl) (k rfl) (k rfl) (k rfl) (k rfl) (k rfl) (k rfl)
  case readRefusedWindows => exact execReadRefusedWindows_keeps _ (.refl M s) (k rfl) (k rfl) (k rfl) (k rfl) (k rfl) (k rfl) (k rfl) (k rfl) (k rfl) (k rfl) (k rfl) (k rfl) (k rfl) (k rfl) (k rfl) (k rfl) (k rfl) (k rfl) (k rfl) (k rfl) (k rfl)
  case pcieRetrainNow => exact execPcieRetrainNow_keeps _ _ (.refl M s) (k rfl) (k rfl) (k rfl) (k rfl) (k rfl) (k rfl) (k rfl) (k rfl) (k rfl) (k rfl) (k rfl) (k rfl) (k rfl) (k rfl) (k rfl) (k rfl) (k rfl) (k rfl) (k rfl) (k rfl) (k rfl)
  case vfEnable => exact execVfEnable_keeps _ (.refl M s) (k rfl)
  case vfDisable => exact execVfDisable_keeps (.refl M s) (k rfl) (k rfl) (k rfl) (k rfl) (k rfl) (k rfl) (k rfl) (k rfl) (k rfl) (k rfl) (k rfl) (k rfl) (k rfl) (k rfl) (k rfl) (k rfl)
  case functionLevelReset => exact execFunctionLevelReset_keeps _ (.refl M s) (k rfl) (k rfl) (k rfl) (k rfl) (k rfl) (k rfl) (k rfl) (k rfl) (k rfl) (k rfl) (k rfl) (k rfl) (k rfl) (k rfl) (k rfl) (k rfl)
  case pcieLinkDown => exact execPcieLinkDown_keeps (.refl M s) (k rfl) (k rfl) (k rfl) (k rfl) (k rfl) (k rfl) (k rfl) (k rfl) (k rfl) (k rfl) (k rfl) (k rfl)
  case powerOnReset => exact execPowerOnReset_keeps (.refl M s) (k rfl) (k rfl) (k rfl) (k rfl) (k rfl) (k rfl) (k rfl) (k rfl) (k rfl) (k rfl) (k rfl) (k rfl) (k rfl) (k rfl) (k rfl) (k rfl) (k rfl) (k rfl)
  case perst => exact execPerst_keeps (.refl M s) (k rfl) (k rfl) (k rfl) (k rfl) (k rfl) (k rfl) (k rfl) (k rfl) (k rfl) (k rfl) (k rfl) (k rfl) (k rfl) (k rfl) (k rfl) (k rfl) (k rfl) (k rfl) (k rfl)
  case sysrst => exact execSysrst_keeps (.refl M s) (k rfl) (k rfl) (k rfl) (k rfl) (k rfl) (k rfl) (k rfl) (k rfl) (k rfl) (k rfl) (k rfl) (k rfl) (k rfl) (k rfl) (k rfl) (k rfl) (k rfl)
  case watchdogMiss => exact execWatchdogMiss_keeps _ (.refl M s) (k rfl) (k rfl) (k rfl) (k rfl) (k rfl) (k rfl) (k rfl) (k rfl) (k rfl) (k rfl) (k rfl) (k rfl) (k rfl) (k rfl) (k rfl) (k rfl) (k rfl)
  case resetFabric => exact execResetFabric_keeps _ (.refl M s) (k rfl) (k rfl) (k rfl) (k rfl) (k rfl) (k rfl) (k rfl) (k rfl) (k rfl) (k rfl) (k rfl) (k rfl) (k rfl) (k rfl) (k rfl) (k rfl) (k rfl) (k rfl) (k rfl) (k rfl) (k rfl)
  case resetWarm => exact execResetWarm_keeps _ (.refl M s) (k rfl) (k rfl) (k rfl) (k rfl) (k rfl) (k rfl) (k rfl) (k rfl) (k rfl) (k rfl) (k rfl) (k rfl) (k rfl) (k rfl) (k rfl) (k rfl) (k rfl) (k rfl) (k rfl) (k rfl) (k rfl)
  case resetCold => exact execResetCold_keeps _ (.refl M s) (k rfl) (k rfl) (k rfl) (k rfl) (k rfl) (k rfl) (k rfl) (k rfl) (k rfl) (k rfl) (k rfl) (k rfl) (k rfl) (k rfl) (k rfl) (k rfl) (k rfl) (k rfl) (k rfl) (k rfl) (k rfl)
  case storeDrainDone => exact execStoreDrainDone_keeps (.refl M s) (k rfl) (k rfl) (k rfl) (k rfl)
  case resetStretchEnd => exact execResetStretchEnd_keeps _ (.refl M s) (k rfl) (k rfl) (k rfl) (k rfl) (k rfl) (k rfl) (k rfl) (k rfl) (k rfl) (k rfl) (k rfl) (k rfl) (k rfl) (k rfl) (k rfl) (k rfl) (k rfl) (k rfl) (k rfl) (k rfl) (k rfl) (k rfl) (k rfl)
  case thermTrip => exact execThermTrip_keeps _ (.refl M s) (k rfl) (k rfl) (k rfl) (k rfl) (k rfl) (k rfl) (k rfl) (k rfl) (k rfl) (k rfl) (k rfl) (k rfl) (k rfl)
  case thermTripRecover => exact execThermTripRecover_keeps (.refl M s) (k rfl) (k rfl) (k rfl) (k rfl) (k rfl) (k rfl) (k rfl) (k rfl) (k rfl) (k rfl) (k rfl) (k rfl) (k rfl) (k rfl) (k rfl) (k rfl) (k rfl) (k rfl)
  case advanceAntiRollback => exact execAdvanceAntiRollback_keeps _ _ (.refl M s) (k rfl) (k rfl) (k rfl) (k rfl) (k rfl) (k rfl) (k rfl) (k rfl) (k rfl) (k rfl) (k rfl) (k rfl) (k rfl) (k rfl) (k rfl) (k rfl) (k rfl) (k rfl) (k rfl) (k rfl) (k rfl)
  case firmwareImageWrite => exact execFirmwareImageWrite_keeps _ _ _ _ (.refl M s) (k rfl) (k rfl) (k rfl) (k rfl) (k rfl) (k rfl) (k rfl) (k rfl) (k rfl) (k rfl) (k rfl) (k rfl) (k rfl) (k rfl) (k rfl) (k rfl) (k rfl) (k rfl) (k rfl) (k rfl) (k rfl)
  case imageProgramDone => exact execImageProgramDone_keeps (.refl M s) (k rfl)
  case attestationNonce => exact execAttestationNonce_keeps _ _ (.refl M s) (k rfl) (k rfl) (k rfl) (k rfl) (k rfl) (k rfl) (k rfl) (k rfl) (k rfl) (k rfl) (k rfl) (k rfl) (k rfl) (k rfl) (k rfl) (k rfl) (k rfl) (k rfl) (k rfl) (k rfl) (k rfl)
  case attestationSigned => exact execAttestationSigned_keeps _ (.refl M s) (k rfl) (k rfl)
  case cableShort => exact execCableShort_keeps _ (.refl M s) (k rfl) (k rfl) (k rfl) (k rfl)
  case mailboxDoorbell => exact execMailboxDoorbell_keeps _ _ _ (.refl M s) (k rfl) (k rfl) (k rfl) (k rfl) (k rfl) (k rfl) (k rfl) (k rfl) (k rfl) (k rfl) (k rfl) (k rfl) (k rfl) (k rfl) (k rfl) (k rfl) (k rfl) (k rfl) (k rfl) (k rfl) (k rfl)
  case voaRequestFrame => exact execVoaRequestFrame_keeps _ _ (.refl M s) (k rfl) (k rfl) (k rfl) (k rfl) (k rfl) (k rfl) (k rfl) (k rfl) (k rfl) (k rfl) (k rfl) (k rfl) (k rfl) (k rfl) (k rfl) (k rfl) (k rfl) (k rfl) (k rfl) (k rfl) (k rfl)
  case managementEchoRequest => exact execManagementEchoRequest_keeps _ _ (.refl M s) (k rfl)
  case managementLinkUp => exact execManagementLinkUp_keeps (.refl M s) (k rfl)
  case managementLinkDown => exact execManagementLinkDown_keeps (.refl M s) (k rfl)
  case autoNegotiationDone => exact execAutoNegotiationDone_keeps _ (.refl M s) (k rfl)
  case ethernetPortDown => exact execEthernetPortDown_keeps _ (.refl M s) (k rfl)
  case pcieLinkUp => exact execPcieLinkUp_keeps _ _ (.refl M s) (k rfl)
  case perstRelease => exact execPerstRelease_keeps (.refl M s) (k rfl)
  case msixUnmask => exact execMsixUnmask_keeps _ _ (.refl M s) (k rfl) (k rfl)
  case selftestDone => exact execSelftestDone_keeps _ (.refl M s) (k rfl)
  case coefficientBlockDone => exact execCoefficientBlockDone_keeps _ (.refl M s) (k rfl) (k rfl) (k rfl) (k rfl) (k rfl) (k rfl)
  case bankExhausted => exact execBankExhausted_keeps (.refl M s) (k rfl)

/-- A command answers a state that agrees with the one before it on every part that it may not change. -/
theorem exec_keeps (c : Instr) (s : State) : ∃ t, exec c s = .next t ∧ Keeps (· ∉ mayChange c) s t :=
  exec_answers (fun _ hp => not_not_intro hp) s

theorem keeps_of_exec {c : Instr} {s t : State} (h : exec c s = .next t) : Keeps (· ∉ mayChange c) s t := by
  obtain ⟨u, hu, hKeeps⟩ := exec_keeps c s
  obtain rfl : u = t := by simpa [hu] using h
  exact hKeeps

/-- Every command but the end of a reset leaves what is not listed for it. -/
theorem sameBut_of_exec {c : Instr} {s t : State} (hc : ∀ findings, c ≠ .resetStretchEnd findings) (h : exec c s = .next t) :
    SameBut (touches c) s t := mayChange_of_ne hc ▸ (keeps_of_exec h).sameBut

theorem SameBut.mono {ps qs : List Part} {s t : State} (h : SameBut ps s t) (hSub : ps ⊆ qs) : SameBut qs s t :=
  ⟨h.1, fun p hp => h.2 p (fun hq => hp (hSub hq))⟩

theorem step_of_idle {s : State} (h : s.pending = []) : step s = .next { s with clock := s.clock + 1 } := by simp [step, h]

theorem step_of_pending {c : Instr} {rest : List Instr} {s : State} (h : s.pending = c :: rest) :
    step s = exec c { s with pending := rest } := by simp [step, h]

/-- The queue and the clock are no concern of the invariant. -/
theorem inv_of_idle {s : State} (h : s.Inv) : State.Inv { s with clock := s.clock + 1 } :=
  ⟨h.home, h.cached, h.tbf, h.timer, h.live, h.captured, h.station, h.stationCaptured, h.commands, h.events, h.steps⟩
theorem inv_of_taken {s : State} (rest : List Instr) (h : s.Inv) : State.Inv { s with pending := rest } :=
  ⟨h.home, h.cached, h.tbf, h.timer, h.live, h.captured, h.station, h.stationCaptured, h.commands, h.events, h.steps⟩

/-- What a step can be: a tick of the clock on an empty queue, or the front command over the rest of it. -/
theorem step_cases {s t : State} (h : step s = .next t) :
    (s.pending = [] ∧ t = { s with clock := s.clock + 1 }) ∨
      ∃ c rest, s.pending = c :: rest ∧ exec c { s with pending := rest } = .next t := by
  cases hQueue : s.pending with
  | nil =>
    rw [step_of_idle hQueue] at h
    injection h with h
    exact .inl ⟨rfl, hQueue ▸ h.symm⟩
  | cons c rest => exact .inr ⟨c, rest, rfl, by rw [← step_of_pending hQueue]; exact h⟩

/-! The end of a cold reset. -/

theorem clearModule_beat (cls : Nat) (s : State) : (clearModule cls s).beat = Beat.reset := by
  unfold clearModule
  exact (trainLinks_keeps (M := (· = .beat)) (.refl _ _) (by simp)).parts .beat rfl

/-- A cold reset whose stretch is to end, in beat 1, and the findings of a release order whose rails do not ramp. -/
def stretched : State :=
  { State.reset with beat := { Beat.reset with count := 1 }, sys := { Sys.reset with resetting := some (3, 1), drained := true } }
def railsFailed : BootFindings := ⟨0, 0, [], [], [], [], true⟩

theorem stretched_resetting : stretched.sys.resetting = some (3, 1) := rfl
theorem stretched_drained : stretched.sys.drained = true := rfl

/-- Where the rails do not ramp the module stands cleared, its fabric timer too. -/
theorem exec_resetStretchEnd_railsFail {s : State} (hClass : s.sys.resetting = some (3, 1)) (hDrained : s.sys.drained = true) :
    ∃ t, exec (.resetStretchEnd railsFailed) s = .next t ∧ t.beat = Beat.reset := by
  refine ⟨_, rfl, ?_⟩
  simp [hClass, hDrained, railsFailed, clearModule_beat]

/-! The state after reset. -/

theorem reset_inv : State.reset.Inv where
  home := rfl
  cached := rfl
  tbf := tbfs_nil
  timer := Nat.zero_le 3
  live := fits_nil
  captured := fits_nil
  station := fits_nil
  stationCaptured := fits_nil
  commands := ring_nil _
  events := ring_nil _
  steps := ring_nil _

end Sys2Proof.Machine

open Sys2Proof Sys2Proof.Machine

/-- Settles O1, by the equation of a step with a command waiting. -/
theorem stepRunsTheFrontCommand : Obligations.StepRunsTheFrontCommand := by
  unfold Obligations.StepRunsTheFrontCommand
  intro c rest s h
  exact step_of_pending h

/-- Settles O2: each command answers, and keeps the queue that is left. -/
theorem stepsAlwaysAnswerAndTakeOneCommand : Obligations.StepsAlwaysAnswerAndTakeOneCommand := by
  unfold Obligations.StepsAlwaysAnswerAndTakeOneCommand
  refine ⟨?answers, ?takes, fun s h => step_of_idle h⟩
  case answers =>
    intro s
    cases hQueue : s.pending with
    | nil => exact ⟨_, step_of_idle hQueue⟩
    | cons c rest =>
      obtain ⟨t, ht, -⟩ := exec_keeps c { s with pending := rest }
      exact ⟨t, (step_of_pending hQueue).trans ht⟩
  case takes =>
    intro c rest s t hQueue hStep
    exact (keeps_of_exec ((step_of_pending hQueue).symm.trans hStep)).queue

/-- Settles O3: a tick of the clock keeps the invariant, and so does each command. -/
theorem everyStepKeepsTheInvariant : Obligations.EveryStepKeepsTheInvariant := by
  unfold Obligations.EveryStepKeepsTheInvariant
  intro s t hInv hStep
  obtain ⟨-, rfl⟩ | ⟨c, rest, -, hExec⟩ := step_cases hStep
  · exact inv_of_idle hInv
  · exact (keeps_of_exec hExec).inv (inv_of_taken rest hInv)

/-- Settles O4: nothing is stored, counted or recorded at reset. -/
theorem resetSatisfiesTheInvariant : Obligations.ResetSatisfiesTheInvariant := by
  unfold Obligations.ResetSatisfiesTheInvariant
  exact reset_inv

/-- Refutes O5: RESET_STRETCH_END of a cold reset sets the beat count 1 back to 0, and the fabric timer is not listed for it. -/
theorem not_commandsTouchOnlyTheirParts : ¬ Obligations.CommandsTouchOnlyTheirParts := by
  unfold Obligations.CommandsTouchOnlyTheirParts
  intro h
  obtain ⟨t, hExec, hBeat⟩ := exec_resetStretchEnd_railsFail stretched_resetting stretched_drained
  obtain ⟨-, hParts⟩ := h (.resetStretchEnd railsFailed) stretched t hExec
  have hSame : t.beat = stretched.beat := hParts .beat (by decide)
  have hCount : Beat.reset = stretched.beat := hBeat.symm.trans hSame
  exact absurd (congrArg Beat.count hCount) (by decide)

/-- Settles O6: at reset every table is empty. -/
theorem resetLeavesTheModuleFree : Obligations.ResetLeavesTheModuleFree := by
  unfold Obligations.ResetLeavesTheModuleFree
  exact ⟨rfl, rfl, rfl, fun _ _ => rfl, rfl, rfl, rfl, rfl, rfl, rfl, fun _ _ => rfl, fun _ => ⟨rfl, rfl⟩, fun _ => rfl, rfl⟩
end

section
/-! The opening of a beat (R45, R47, R51, R56, R60, R75): what a fabric beat's opening leaves of the timer, and the beat that a slot opens. -/

namespace Sys2Proof.Machine

/-- A part of the state that a fold's steps leave is left by the fold. -/
theorem foldl_field {α β : Type} {f : State → α → State} {g : State → β} (hf : ∀ s x, g (f s x) = g s) (l : List α) (s : State) :
    g (l.foldl f s) = g s := by
  induction l generalizing s with
  | nil => rfl
  | cons x l ih => exact (ih (f s x)).trans (hf s x)

@[simp] theorem sendUp_beat (l kind : Nat) (b : Bytes) (s : State) : (sendUp l kind b s).beat = s.beat :=
  (sendUp_keeps _ _ _ (.refl (· = .beat) s) (by simp) (by simp)).parts .beat rfl
/-- A frame of one kind on each of several links. -/
theorem sendUps_beat (kind : Nat) (b : State → Bytes) (links : List Nat) (s : State) :
    (links.foldl (fun s l => sendUp l kind (b s) s) s).beat = s.beat := foldl_field (fun _ _ => sendUp_beat _ _ _ _) links s
@[simp] theorem pendVoid_beat (slot mark cause : Nat) (s : State) : (pendVoid slot mark cause s).beat = s.beat := rfl
@[simp] theorem raiseAttempt_beat (slot : Nat) (s : State) : (raiseAttempt slot s).beat = s.beat :=
  (raiseAttempt_keeps _ (.refl (· = .beat) s) (by simp) (by simp) (by simp) (by simp) (by simp)).parts .beat rfl
@[simp] theorem takeValues_beat (s : State) : (takeValues s).beat = s.beat :=
  (takeValues_keeps (.refl (· = .beat) s) (by simp) (by simp) (by simp)).parts .beat rfl
@[simp] theorem senseAgain_beat (s : State) : (senseAgain s).beat = s.beat := rfl
@[simp] theorem voidFabricSteps_beat (s : State) : (voidFabricSteps s).beat = s.beat :=
  (voidFabricSteps_keeps (.refl (· = .beat) s) (by simp)).parts .beat rfl

/-- The fabric timer without the governor's and the mark tree's notes: what only the opening of a beat and a mark that is accepted change. -/
def Beat.timing (b : Beat) : Beat :=
  { b with requested := 0, lastRequest := none, quiet := 0, announced := [], notices := [], upNotices := [], upRequest := none
           ceilingBeat := none }

section
variable {b c : Beat} (h : c.timing = b.timing)
include h
theorem count_of_timing : c.count = b.count := by simpa only [Beat.timing] using congrArg Beat.count h
theorem adopt_of_timing : c.adopt = b.adopt := by simpa only [Beat.timing] using congrArg Beat.adopt h
theorem opened_of_timing : c.opened = b.opened := by simpa only [Beat.timing] using congrArg Beat.opened h
theorem sinceReset_of_timing : c.sinceReset = b.sinceReset := by simpa only [Beat.timing] using congrArg Beat.sinceReset h
theorem state_of_timing : c.state = b.state := by simpa only [Beat.timing] using congrArg Beat.state h
theorem term_of_timing : c.term = b.term := by simpa only [Beat.timing] using congrArg Beat.term h
theorem nextCount_of_timing : nextCount c = nextCount b := by rw [nextCount, nextCount, adopt_of_timing h, count_of_timing h]
end

theorem request_timing (add counter : Nat) (s : State) : (request add counter s).beat.timing = s.beat.timing := rfl

theorem ceilingEvent_timing (s : State) : (ceilingEvent s).beat.timing = s.beat.timing := by
  unfold ceilingEvent
  split
  · rw [event_beat]
    rfl
  · rfl

/-- The governor changes its requests, not the timing of the beat. -/
theorem govern_timing (s : State) : (govern s).beat.timing = s.beat.timing := by
  have hQuiet : (modBeat (fun b => { b with quiet := 0 }) s).beat.timing = s.beat.timing := rfl
  unfold govern
  dsimp only
  split
  · split <;> split
    · rw [request_timing, ceilingEvent_timing, hQuiet]
    · rw [ceilingEvent_timing, hQuiet]
    · rw [request_timing, hQuiet]
    · exact hQuiet
  · split
    · split
      · exact request_timing _ _ _
      · rfl
    · exact hQuiet

theorem sendUpReport_timing (s : State) : (sendUpReport s).beat.timing = s.beat.timing := by
  unfold sendUpReport
  dsimp only
  split
  · rfl
  · split
    · rw [sendUp_beat]
      rfl
    · rfl

theorem sendNotice_timing (slot step attempt : Nat) (s : State) : (sendNotice slot step attempt s).beat.timing = s.beat.timing := by
  show Beat.timing (if s.beat.state = 3 then _ else _) = _
  split <;> rfl

theorem noteReplay_timing (slot mark : Nat) (s : State) : (noteReplay slot mark s).beat.timing = s.beat.timing := by
  unfold noteReplay
  dsimp only
  split
  · rfl
  · rw [raiseAttempt_beat, sendNotice_timing, count_beat, event_beat]

/-- A notice changes the timer by the notice that a replay too late sends on, no more. -/
theorem applyNotice_timing (mark : Nat) (n : VoidNotice) (s : State) : (applyNotice mark n s).beat.timing = s.beat.timing := by
  unfold applyNotice
  split
  case h_1 => rfl
  case h_2 =>
    dsimp only
    split
    · rfl
    split
    · rfl
    split
    · rfl
    split
    · rfl
    split
    · rfl
    split
    · exact noteReplay_timing _ _ _
    · rfl

theorem applyNotices_timing (mark : State → Nat) (ns : List VoidNotice) (s : State) :
    (ns.foldl (fun s n => applyNotice (mark s) n s) s).beat.timing = s.beat.timing :=
  foldl_field (g := fun s => s.beat.timing) (fun _ _ => applyNotice_timing _ _ _) ns s

theorem announceAddition_timing (s : State) : (announceAddition s).beat.timing = s.beat.timing := by
  unfold announceAddition
  dsimp only
  split <;> rfl

theorem sendMark_timing (s : State) : (sendMark s).beat.timing = s.beat.timing := by
  unfold sendMark
  dsimp only
  have hDrop (u : State) : (modBeat (fun b => { b with notices := b.notices.drop 13 }) u).beat.timing = u.beat.timing := rfl
  rw [applyNotices_timing (fun s => s.beat.count), hDrop, sendUps_beat 0 (fun _ => _), announceAddition_timing]

/-! The opening of a fabric beat, in three parts: before the count moves, the move, and what leaves at cycle 0. -/

/-- What comes before the count moves. -/
def beforeOpening (s : State) : State :=
  let s := sendUpReport (govern s)
  takeValues (if s.beat.adopt.isSome then voidFabricSteps s else s)

/-- The count moves; the wheels' shares of the beat that closes are kept. -/
def moveCount (s : State) : State :=
  let closed := s.beat.length
  let s := modBeat (fun b => { b with
    before := b.count, count := nextCount b, adopt := none, opened := s.clock
    length := ((fabricPeriod s : Int) - correctionOf s.beat).toNat, correction := b.correction - correctionOf s.beat
    marks := if b.silent = 0 then b.marks else 0
    silent := b.silent + 1, silentBoth := b.silentBoth + 1, sinceReset := min 32 (b.sinceReset + 1)
    masterless := if b.state = 1 && !b.heard then b.masterless + 1 else 0 }) s
  { s with arrays := kmap (fun k a => { a with
    wheelActive := 0, wheelFraction := fraction a.wheelActive closed
    pipeFraction := fraction (Config.pipeCycles s.beat.before k) (2 * closed) }) s.arrays }

/-- Clients that wait for admission are counted. -/
def countWaiting (s : State) : State := s.admissions.foldl (fun s e => if e.2.state = 1 then count 0x5800 e.1 1 s else s) s

/-- The configuration's digest goes out once in 4,096 beats (R347, R401). -/
def sendDigests (s : State) : State :=
  if s.beat.count % 4096 = 0 then
    (List.range 64).foldl (fun s l => sendUp l 4 (s.dict.digest ++ le 8 s.beat.count) s)
      (modNet (fun n => { n with digests := kput n.digests s.beat.count s.dict.digest }) s)
  else s

/-- What follows the move of the count: counters, digests, the sensors, and the master's mark. -/
def afterOpening (s : State) : State :=
  let s := senseAgain (sendDigests (countWaiting s))
  if s.beat.state = 3 then sendMark s else s

theorem openFabric_eq (s : State) : openFabric s = afterOpening (moveCount (beforeOpening s)) := by
  unfold openFabric afterOpening moveCount beforeOpening sendDigests countWaiting
  with_reducible rfl

theorem beforeOpening_timing (s : State) : (beforeOpening s).beat.timing = s.beat.timing := by
  have hGoverned : (sendUpReport (govern s)).beat.timing = s.beat.timing := (sendUpReport_timing _).trans (govern_timing s)
  unfold beforeOpening
  dsimp only
  rw [takeValues_beat]
  split
  · rw [voidFabricSteps_beat]
    exact hGoverned
  · exact hGoverned

theorem takeValues_dict (s : State) : (takeValues s).dict = { s.dict with inUse := s.dict.objs } := by
  have hLink (s : State) (l : Nat) (v : Nat) : (enableLink l v s).dict = s.dict :=
    (enableLink_keeps _ _ (.refl (· = .dict) s) (by simp)).parts .dict rfl
  have hPort (s : State) (l : Nat) (v : Nat) : (setPortMode l v s).dict = s.dict :=
    (setPortMode_keeps _ _ (.refl (· = .dict) s) (by simp)).parts .dict rfl
  unfold takeValues
  dsimp only
  rw [foldl_field (g := State.dict) (fun s l => hPort s l _), foldl_field (g := State.dict) (fun s l => hLink s l _)]
  rfl

/-- Before the count moves, nothing but the values in use changes of the dictionary, and the clock stands. -/
theorem beforeOpening_frame (s : State) :
    (beforeOpening s).dict = { s.dict with inUse := s.dict.objs } ∧ (beforeOpening s).clock = s.clock := by
  have hGoverned : Keeps (fun p => p = .dict ∨ p = .clock) s (sendUpReport (govern s)) :=
    sendUpReport_keeps (govern_keeps (.refl _ s) (by simp) (by simp) (by simp)) (by simp) (by simp) (by simp)
  have hVoided : Keeps (fun p => p = .dict ∨ p = .clock) s (if (sendUpReport (govern s)).beat.adopt.isSome then
      voidFabricSteps (sendUpReport (govern s)) else sendUpReport (govern s)) :=
    .ite (fun _ => voidFabricSteps_keeps hGoverned (by simp)) (fun _ => hGoverned)
  constructor
  · rw [beforeOpening, takeValues_dict, hVoided.parts .dict (.inl rfl)]
  · refine Eq.trans ((takeValues_keeps (.refl (· = .clock) _) (by simp) (by simp) (by simp)).parts .clock rfl) ?_
    exact hVoided.parts .clock (.inr rfl)

theorem countWaiting_keeps {M : Part → Prop} {s0 s : State} (h : Keeps M s0 s) (hCtr : ¬M .ctr) : Keeps M s0 (countWaiting s) :=
  .foldl (fun _ _ h => .ite (fun _ => count_keeps _ _ _ h) (fun _ => h)) _ h

theorem sendDigests_keeps {M : Part → Prop} {s0 s : State} (h : Keeps M s0 s) (hOut : ¬M .out) (hNet : ¬M .net) :
    Keeps M s0 (sendDigests s) :=
  .ite (fun _ => .foldl (fun _ _ h => sendUp_keeps _ _ _ h) _ (modNet_keeps _ h)) (fun _ => h)

/-- Up to the mark of the master, what follows the move of the count leaves the timer and the dictionary. -/
theorem sensed_keeps (s : State) : Keeps (fun p => p = .beat ∨ p = .dict) s (senseAgain (sendDigests (countWaiting s))) :=
  senseAgain_keeps (sendDigests_keeps (countWaiting_keeps (.refl _ s) (by simp)) (by simp) (by simp)) (by simp) (by simp)

theorem afterOpening_timing (s : State) : (afterOpening s).beat.timing = s.beat.timing := by
  have hSensed := congrArg Beat.timing ((sensed_keeps s).parts .beat (.inl rfl))
  unfold afterOpening
  dsimp only
  split
  · exact (sendMark_timing _).trans hSensed
  · exact hSensed

theorem afterOpening_dict (s : State) : (afterOpening s).dict = s.dict := by
  have hSensed : Keeps (· = .dict) s (senseAgain (sendDigests (countWaiting s))) :=
    ⟨(sensed_keeps s).queue, (sensed_keeps s).inv, fun p hp => (sensed_keeps s).parts p (.inr hp)⟩
  exact (Keeps.ite (fun _ => sendMark_keeps hSensed (by simp) (by simp) (by simp) (by simp) (by simp) (by simp) (by simp) (by simp)
    (by simp)) (fun _ => hSensed)).parts .dict rfl

theorem moveCount_count (s : State) : (moveCount s).beat.count = nextCount s.beat := rfl
theorem moveCount_opened (s : State) : (moveCount s).beat.opened = s.clock := rfl
theorem moveCount_sinceReset (s : State) : (moveCount s).beat.sinceReset = min 32 (s.beat.sinceReset + 1) := rfl
theorem moveCount_state (s : State) : (moveCount s).beat.state = s.beat.state := rfl
theorem moveCount_term (s : State) : (moveCount s).beat.term = s.beat.term := rfl

/-! The opening of a slot's beat. -/

/-- The slot's beat has opened; what a training or a serving route does at its cycle 0 is still to come. -/
def slotOpened (slot : Nat) (r : Route) (s : State) : State :=
  let s := if s.beat.state = 0 then takeValues s else s
  let b := openedBeat s slot r
  let s := handOver slot (gateArrays slot r s)
  let s := modSlotBeat slot (fun _ => { b with phase := 1 }) s
  let s := modSlot slot (fun x => { x with stations := kmap (fun _ y => { y with quota := [] }) x.stations }) s
  let s := modFab (fun f => { f with
    stopped := f.stopped.filter (· != slot), badEntries := f.badEntries.filter (fun e => e.1 != slot)
    failing := f.failing.filter (fun e => e.1 != slot) }) s
  count 0x5803 (slotOf s slot).owner 1 s

/-- What a slot's route does at cycle 0 of its beat. -/
def cycleZero (slot : Nat) (r : Route) (s : State) : State :=
  if r.training then (if (slotOf s slot).train.state = 1 then openTraining slot r s else s)
  else reloadAgain slot r (enterRequests slot s.clock r { s with mem := { s.mem with noted := s.mem.noted.filter (fun k => k.1 != slot) } })

theorem openSlot_eq (slot : Nat) (r : Route) (s : State) : openSlot slot r s = cycleZero slot r (slotOpened slot r s) := by
  unfold openSlot cycleZero slotOpened
  with_reducible rfl

theorem cycleZero_eq {slot state clock : Nat} {s : State} (r : Route) (hState : (slotOf s slot).train.state = state)
    (hClock : s.clock = clock) : cycleZero slot r s =
      if r.training then (if state = 1 then openTraining slot r s else s)
      else reloadAgain slot r (enterRequests slot clock r { s with mem := { s.mem with noted := s.mem.noted.filter (fun e => e.1 != slot) } }) := by
  subst hState hClock
  rfl

/-- Values taken, arrays gated and handed over leave the slots, the timer and the clock. -/
theorem openingArrays_keeps (slot : Nat) (r : Route) (s : State) :
    Keeps (fun p => p = .slots ∨ p = .clock) s (handOver slot (gateArrays slot r (if s.beat.state = 0 then takeValues s else s))) :=
  handOver_keeps _ (gateArrays_keeps _ _ (.ite (fun _ => takeValues_keeps (.refl _ s) (by simp) (by simp) (by simp)) (fun _ => .refl _ s))
    (by simp) (by simp)) (by simp) (by simp) (by simp)

theorem slotOpened_clock (slot : Nat) (r : Route) (s : State) : (slotOpened slot r s).clock = s.clock := by
  have hClock : (handOver slot (gateArrays slot r (if s.beat.state = 0 then takeValues s else s))).clock = s.clock :=
    (openingArrays_keeps slot r s).parts .clock (.inr rfl)
  unfold slotOpened
  dsimp only
  rw [count_clock, modFab_clock, modSlot_clock, modSlotBeat_eq, modSlot_clock, hClock]

theorem slotOf_slotOpened (slot : Nat) (r : Route) (s : State) : slotOf (slotOpened slot r s) slot =
    { slotOf s slot with
      beat := { openedBeat (if s.beat.state = 0 then takeValues s else s) slot r with phase := 1 }
      stations := kmap (fun _ y => { y with quota := [] }) (slotOf s slot).stations } := by
  have hSlots := (openingArrays_keeps slot r s).parts .slots (.inl rfl)
  have hSlot : slotOf (handOver slot (gateArrays slot r (if s.beat.state = 0 then takeValues s else s))) slot = slotOf s slot :=
    congrArg (fun m => kgetD Slot.free m slot) hSlots
  unfold slotOpened
  dsimp only
  rw [slotOf_count, slotOf_modFab, slotOf_modSlot_same, modSlotBeat_eq, slotOf_modSlot_same, hSlot]


/-- A route's first beat stands at offset 0. -/
theorem offsetAtOpening_of_first {s : State} {slot : Nat} (r : Route) (h : (slotOf s slot).beat.phase = 0) :
    offsetAtOpening s slot r = 0 := by simp [offsetAtOpening, h]

theorem openedBeat_lag (s : State) (slot : Nat) (r : Route) (h : (openedBeat s slot r).offset = 0) : (openedBeat s slot r).lag = 0 := by
  have hOffset : offsetAtOpening s slot r = 0 := h
  simp [openedBeat, hOffset]

end Sys2Proof.Machine

open Sys2Proof Sys2Proof.Machine

/-- Settles O7: the count moves between two parts that leave the timing; a slot's beat is `openedBeat`, whatever values are taken. -/
theorem beatOpenStartsTheNextBeat : Obligations.BeatOpenStartsTheNextBeat := by
  unfold Obligations.BeatOpenStartsTheNextBeat
  constructor
  · intro s hRuns
    have hExec : exec (.beatOpen .fabric) s = .next (afterOpening (moveCount (beforeOpening s))) := by
      rw [← openFabric_eq]
      show execBeatOpen .fabric s = _
      simp [execBeatOpen, hRuns, done]
    have hBefore := beforeOpening_timing s
    obtain ⟨hDict, hClock⟩ := beforeOpening_frame s
    have hAfter := afterOpening_timing (moveCount (beforeOpening s))
    have hMoved : (afterOpening (moveCount (beforeOpening s))).dict = (beforeOpening s).dict := afterOpening_dict _
    refine ⟨_, hExec, ?_, adopt_of_timing hAfter, ?_, ?_, ?_, ?_, ?_, ?_, sameBut_of_exec (by simp) hExec⟩
    · rw [count_of_timing hAfter, moveCount_count, nextCount_of_timing hBefore, nextCount]
    · rw [opened_of_timing hAfter, moveCount_opened, hClock]
    · rw [sinceReset_of_timing hAfter, moveCount_sinceReset, sinceReset_of_timing hBefore]
    · rw [state_of_timing hAfter, moveCount_state, state_of_timing hBefore]
    · rw [term_of_timing hAfter, moveCount_term, term_of_timing hBefore]
    · rw [hMoved, hDict]
    · rw [hMoved, hDict]
  · intro k r s hRoute hAlive hStarted hMay
    have hExec : exec (.beatOpen (.slot k)) s = .next (openSlot k r s) := by
      show execBeatOpen (.slot k) s = _
      simp [execBeatOpen, hRoute, hAlive, hStarted, hMay, done]
    generalize hTaken : (if s.beat.state = 0 then takeValues s else s) = s'
    have hKept : Keeps (fun p => p = .slots ∨ p = .beat ∨ p = .clock) s s' := by
      rw [← hTaken]
      exact .ite (fun _ => takeValues_keeps (.refl _ s) (by simp) (by simp) (by simp)) (fun _ => .refl _ s)
    have hSlot : slotOf s' k = slotOf s k := congrArg (fun m => kgetD Slot.free m k) (hKept.parts .slots (.inl rfl))
    have hBeat : s'.beat = s.beat := hKept.parts .beat (.inr (.inl rfl))
    have hClock : s'.clock = s.clock := hKept.parts .clock (.inr (.inr rfl))
    have hOpened := slotOf_slotOpened k r s
    rw [hTaken] at hOpened
    have hState : (slotOf (slotOpened k r s) k).train.state = (slotOf s k).train.state := by rw [hOpened]
    refine ⟨slotOpened k r s, ?_⟩
    rw [hExec, openSlot_eq, cycleZero_eq r hState (slotOpened_clock k r s), hOpened]
    refine ⟨rfl, hClock, rfl, rfl, rfl, rfl, ?_, ?_, ?_, openedBeat_lag s' k r, rfl⟩
    · intro hLocal hDue
      show countAtOpening s' (slotOf s' k) r = s.beat.count
      simp [countAtOpening, hLocal, hBeat, hClock, hSlot, hDue]
    · intro hLocal hPhase
      show countAtOpening s' (slotOf s' k) r = (slotOf s k).beat.count + 1
      simp [countAtOpening, hLocal, hSlot, hPhase]
    · intro hPhase
      exact offsetAtOpening_of_first r (hSlot ▸ hPhase)
end

section
/-! Beat marks (R47, R51): what a mark that is accepted leaves of the fabric timer. -/

namespace Sys2Proof.Machine

theorem acceptsMark_iff (s : State) (device term : Nat) : acceptsMark s device term = true ↔
    s.beat.state = 0 ∨ s.beat.term < term ∨
      (term = s.beat.term ∧ (s.beat.sender = some device ∨ (s.beat.state = 3 ∧ device < deviceNumber s))) := by
  simp [acceptsMark, or_assoc]

section
variable {b c : Beat} (h : c.timing = b.timing)
include h
theorem sender_of_timing : c.sender = b.sender := by simpa only [Beat.timing] using congrArg Beat.sender h
theorem heard_of_timing : c.heard = b.heard := by simpa only [Beat.timing] using congrArg Beat.heard h
theorem silentBoth_of_timing : c.silentBoth = b.silentBoth := by simpa only [Beat.timing] using congrArg Beat.silentBoth h
theorem marks_of_timing : c.marks = b.marks := by simpa only [Beat.timing] using congrArg Beat.marks h
end

/-- What following a sender leaves: its term and number, and a count of marks begun anew by a module that was FREE or MASTER. -/
structure Follows (device term : Nat) (b c : Beat) : Prop where
  term : c.term = term
  sender : c.sender = some device
  heard : c.heard = true
  count : c.count = b.count
  adopt : c.adopt = b.adopt
  state : c.state = if b.state = 0 ∨ b.state = 3 then 1 else b.state
  marks : c.marks = if b.state = 0 ∨ b.state = 3 then 0 else b.marks

theorem follow_beat (device term : Nat) (s : State) : Follows device term s.beat (follow device term s).beat := by
  by_cases hMaster : s.beat.state = 3
  · constructor <;> simp [follow, hMaster]
  · constructor <;> simp [follow, hMaster]

/-- The timer as an accepted mark leaves it, from the one that follows its sender. -/
def markedBeat (count add start silent : Nat) (offset : Int) (free : Bool) (own : Nat) (b : Beat) : Beat :=
  let m := min 16 (b.marks + 1)
  { b with
    marks := m, state := if b.state = 1 ∧ m = 16 then 2 else b.state, silent := silent
    silentBoth := 0, switched := false, offset := offset, correction := offset
    announced := if b.announced.getLast? = some (add, start) then b.announced else b.announced ++ [(add, start)]
    count := if free then count else b.count
    adopt := if !free && decide (own < count) then some count else b.adopt }

/-- The module follows the sender and the mark goes on down the tree. -/
def markSent (link count device elapsed add start term : Nat) (ns : List VoidNotice) (s : State) : State :=
  let s := follow device term s
  (downstreamLinks s (some link)).foldl
    (fun u l => sendUp l 0 (markPayload count device (elapsed + kgetD 0 s.beat.latency link) add start term ns) u) s

theorem markSent_beat (link count device elapsed add start term : Nat) (ns : List VoidNotice) (s : State) :
    (markSent link count device elapsed add start term ns s).beat = (follow device term s).beat := sendUps_beat 0 (fun _ => _) _ _

theorem useMark_timing (link count device elapsed add start term : Nat) (ns : List VoidNotice) (s : State) :
    ∃ silent offset, (useMark link count device elapsed add start term ns s).beat.timing =
      (markedBeat count add start silent offset (s.beat.state == 0) s.beat.count (follow device term s).beat).timing := by
  have hEvent (c : Prop) [Decidable c] (d : Bytes) (s : State) : (if c then event evtBeatCountJump nowhere d s else s).beat = s.beat := by
    split
    · exact event_beat ..
    · rfl
  let v := markSent link count device elapsed add start term ns s
  refine ⟨if link = upstreamLink v then 0 else v.beat.silent,
    (v.beat.opened : Int) - ((v.clock : Int) - kgetD 0 (follow device term s).beat.latency link - elapsed), ?_⟩
  refine Eq.trans ?_ (congrArg (fun b => (markedBeat count add start _ _ _ _ b).timing)
    (markSent_beat link count device elapsed add start term ns s))
  unfold useMark
  dsimp only
  rw [applyNotices_timing (fun _ => count), hEvent]
  rfl

/-- What an accepted mark leaves of the timer (R47, R51). -/
theorem useMark_frame {device term : Nat} {s : State} (link count elapsed add start : Nat) (ns : List VoidNotice) :
    ∀ b, (useMark link count device elapsed add start term ns s).beat = b → b.term = term ∧ b.sender = some device ∧ b.heard = true ∧
      b.silentBoth = 0 ∧ b.marks = (if s.beat.state = 0 ∨ s.beat.state = 3 then 1 else min 16 (s.beat.marks + 1)) ∧
      b.count = (if s.beat.state = 0 then count else s.beat.count) ∧
      b.adopt = (if s.beat.state ≠ 0 ∧ s.beat.count < count then some count else s.beat.adopt) ∧
      b.state = (if s.beat.state = 2 ∨ (s.beat.state = 1 ∧ 15 ≤ s.beat.marks) then 2
        else if s.beat.state = 1 ∨ s.beat.state = 0 ∨ s.beat.state = 3 then 1 else s.beat.state) := by
  rintro _ rfl
  obtain ⟨silent, offset, hTiming⟩ := useMark_timing link count device elapsed add start term ns s
  have hFollow := follow_beat device term s
  refine ⟨(term_of_timing hTiming).trans hFollow.term, (sender_of_timing hTiming).trans hFollow.sender,
    (heard_of_timing hTiming).trans hFollow.heard, silentBoth_of_timing hTiming, ?_, ?_, ?_, ?_⟩
  · rw [marks_of_timing hTiming]
    show min 16 ((follow device term s).beat.marks + 1) = _
    rw [hFollow.marks]
    split <;> rfl
  · rw [count_of_timing hTiming]
    show (if (s.beat.state == 0) = true then count else (follow device term s).beat.count) = _
    simp [hFollow.count]
  · rw [adopt_of_timing hTiming]
    show (if _ then some count else (follow device term s).beat.adopt) = _
    simp [hFollow.adopt]
  · rw [state_of_timing hTiming]
    show (if (follow device term s).beat.state = 1 ∧ min 16 ((follow device term s).beat.marks + 1) = 16 then 2
      else (follow device term s).beat.state) = _
    rw [hFollow.state, hFollow.marks]
    by_cases hFree : s.beat.state = 0 ∨ s.beat.state = 3
    · rw [if_pos hFree, if_pos hFree, if_neg (by omega), if_neg (by omega), if_pos (by omega)]
    · rw [if_neg hFree, if_neg hFree]
      by_cases hLocked : s.beat.state = 2 ∨ s.beat.state = 1 ∧ 15 ≤ s.beat.marks
      · rw [if_pos hLocked]
        split <;> omega
      · rw [if_neg hLocked, if_neg (by omega)]
        split <;> omega

end Sys2Proof.Machine

open Sys2Proof Sys2Proof.Machine

/-- Settles O8: a mark is discarded, followed, or used, by `acceptsMark` and its count. -/
theorem marksAreAcceptedByTerm : Obligations.MarksAreAcceptedByTerm := by
  unfold Obligations.MarksAreAcceptedByTerm
  intro link p s hRuns hUp hUpstream hNotices hLength count device term mine
  have hGuard : ¬(firmwareRuns s = false ∨ linkIsUp s link = false ∨ (link ≠ setting s 0x110C 0 ∧ link ≠ setting s 0x110C 1) ∨
      p.length < 32 + 16 * field p 26 1 ∨ 13 < field p 26 1) := by
    rintro (h | h | ⟨h0, h1⟩ | h | h)
    · simp [hRuns] at h
    · simp [hUp] at h
    · exact hUpstream.elim h0 h1
    · omega
    · omega
  have hAccepts : acceptsMark s device term = true ↔ mine := acceptsMark_iff s device term
  refine ⟨?stale, ?behind, ?used⟩
  case stale =>
    intro hMine
    show execBeatMark link p s = _
    have hRefused : acceptsMark s device term = false := by simpa using (not_congr hAccepts).mpr hMine
    simp only [execBeatMark, if_neg hGuard, device, term] at hRefused ⊢
    rw [if_pos hRefused]
    rfl
  case behind =>
    intro hMine hState hBehind
    have hExec : exec (.beatMark link p) s = .next (staleMark device term (follow device term s)) := by
      show execBeatMark link p s = _
      have hAccepted : ¬acceptsMark s device term = false := by simpa using hAccepts.mpr hMine
      simp only [execBeatMark, if_neg hGuard, device, term, count] at hAccepted hBehind ⊢
      rw [if_neg hAccepted, if_pos ⟨hState, hBehind⟩]
      rfl
    have hFollow := follow_beat device term s
    have hBeat : (staleMark device term (follow device term s)).beat = (follow device term s).beat := event_beat ..
    refine ⟨_, hExec, ?_, ?_, ?_, ?_, ?_, ?_, (staleMark_keeps _ _ (follow_keeps _ _ (.refl _ s) (by simp)) (by simp) (by simp)).sameBut⟩
    · rw [hBeat, hFollow.count]
    · rw [hBeat, hFollow.adopt]
    · rw [hBeat, hFollow.term]
    · rw [hBeat, hFollow.sender]
    · rw [hBeat, hFollow.marks]
      simp [hState]
    · simp [staleMark, event_led, follow]
  case used =>
    intro hMine hAhead
    have hExec : exec (.beatMark link p) s = .next (useMark link count device (field p 10 4) (field p 14 4) (field p 18 8) term
        ((List.range (field p 26 1)).map (fun i => noticeOf (slice p (32 + 16 * i) 16))) s) := by
      show execBeatMark link p s = _
      have hAccepted : ¬acceptsMark s device term = false := by simpa using hAccepts.mpr hMine
      have hNotBehind : ¬(s.beat.state ≠ 0 ∧ count < s.beat.count) := by omega
      simp only [execBeatMark, if_neg hGuard, device, term, count] at hAccepted hNotBehind ⊢
      rw [if_neg hAccepted, if_neg hNotBehind]
      rfl
    obtain ⟨hTerm, hSender, hHeard, hSilent, hMarks, hCount, hAdopt, hTimer⟩ := useMark_frame (device := device) (term := term) (s := s)
      link count (field p 10 4) (field p 14 4) (field p 18 8) _ _ rfl
    exact ⟨_, hExec, hTerm, hSender, hHeard, hSilent, hMarks, hCount, hAdopt, hTimer, sameBut_of_exec (by simp) hExec⟩
end

section
/-! The timeouts of the mark tree (R47, R50), the latency of links (R49), reports on the way up (R61, R64), and the addition in force. -/

namespace Sys2Proof.Machine

theorem le_foldl_max (l : List Nat) (n : Nat) : n ≤ l.foldl max n := by
  induction l generalizing n with
  | nil => exact Nat.le_refl n
  | cons x l ih => exact Nat.le_trans (Nat.le_max_left n x) (ih (max n x))

theorem le_foldl_max_of_mem {l : List Nat} {x : Nat} (n : Nat) (h : x ∈ l) : x ≤ l.foldl max n := by
  induction l generalizing n with
  | nil => simp at h
  | cons y l ih =>
    rcases List.mem_cons.mp h with rfl | h
    · exact Nat.le_trans (Nat.le_max_right n x) (le_foldl_max l _)
    · exact ih _ h

theorem sendUp_of_up {l : Nat} {s : State} (h : linkIsUp s l = true) (kind : Nat) (b : Bytes) :
    sendUp l kind b s = sendFrame l kind (linkOf s l).peer b s := by simp [sendUp, h]

theorem sendFrame_out (l kind dest : Nat) (b : Bytes) (s : State) : (sendFrame l kind dest b s).out = s.out ++ [.control l kind b] := rfl

/-- A largest request that goes up covers the one that has just come and the module's own (R64). -/
theorem le_askedMax (asked : KMap Nat) (link a own : Nat) :
    a ≤ ((kput asked link a).map (·.2)).foldl max own ∧ own ≤ ((kput asked link a).map (·.2)).foldl max own :=
  ⟨le_foldl_max_of_mem own (List.mem_map.mpr ⟨(link, a), mem_of_kget (by simp), rfl⟩), le_foldl_max _ own⟩

/-- The timer once a report from below is taken: by the master into its marks, by any other module into its own report. -/
def reportedBeat (l : Nat) (ns : List VoidNotice) (q : Option Nat) (b : Beat) : Beat :=
  let asked := match q with | some a => kput b.asked l a | none => b.asked
  if b.state = 3 then { b with asked := asked, notices := b.notices ++ ns }
  else { b with
    asked := asked, upNotices := b.upNotices ++ ns
    upRequest := if q.isSome then some ((asked.map (·.2)).foldl max b.requested) else b.upRequest }

theorem exec_upReport {l : Nat} {s : State} (ns : List VoidNotice) (q : Option Nat) (hRuns : firmwareRuns s = true)
    (hUp : linkIsUp s l = true) : exec (.upReport l ns q) s = .next { s with beat := reportedBeat l ns q s.beat } := by
  have hGuard : ¬(firmwareRuns s = false ∨ linkIsUp s l = false) := by simp [hRuns, hUp]
  show execUpReport l ns q s = _
  rw [execUpReport, if_neg hGuard]
  cases q <;> by_cases hMaster : s.beat.state = 3 <;> simp [reportedBeat, hMaster, modBeat, done]

/-- A new period leaves the timer but its length. -/
theorem rePace_beat {before s : State} (h : s.clock = s.beat.opened) :
    (rePace before s).beat = { s.beat with length := ((s.beat.length : Int) + fabricPeriod s - fabricPeriod before).toNat } := by
  unfold rePace
  rw [if_neg (not_not_intro h)]
  exact foldl_field (g := State.beat) (fun s e => by split <;> rfl) _ _

theorem rePace_of_later {before s : State} (h : s.clock ≠ s.beat.opened) : rePace before s = s := if_pos h

/-- No master is heard any more: the module falls to LOCKING with EVT_BEAT_MASTER. -/
def masterLost (s : State) : State :=
  event evtBeatMaster nowhere [] (modBeat (fun b => { b with state := 1, marks := 0, heard := false, masterless := 0 }) s)

theorem masterLost_beat (s : State) : (masterLost s).beat = { s.beat with state := 1, marks := 0, heard := false, masterless := 0 } :=
  event_beat ..
theorem masterLost_events (s : State) : (masterLost s).led.events = (s.led.events + 1) % 2 ^ 64 := by simp [masterLost, event_led]
theorem setting_masterLost (s : State) (index sub : Nat) : setting (masterLost s) index sub = setting s index sub := setting_event ..
theorem deviceNumber_masterLost (s : State) : deviceNumber (masterLost s) = deviceNumber s := setting_masterLost s 0x2805 0

end Sys2Proof.Machine

open Sys2Proof Sys2Proof.Machine

/-- Settles O9: each timeout, answer and report is its command under its condition. -/
theorem marksTimeOutAndLinksAreMeasured : Obligations.MarksTimeOutAndLinksAreMeasured := by
  unfold Obligations.MarksTimeOutAndLinksAreMeasured
  refine ⟨⟨?initial, ?upstream, ?master, ?again⟩, ⟨?measure, ?probe, ?reply⟩, ?report, ?apply⟩
  case initial =>
    intro s hRuns hState hSince hDevice
    show execInitialMarkTimeout s = _
    rw [execInitialMarkTimeout, if_pos ⟨hRuns, hState, hSince, hDevice⟩]
    rfl
  case upstream =>
    intro s hRuns hState hSilent hSwitched
    show execMarkUpstreamTimeout s = _
    rw [execMarkUpstreamTimeout, if_pos ⟨hRuns, hState, hSilent, hSwitched⟩]
    rfl
  case again =>
    intro s hRuns hState hHeard hMasterless
    show execBeatMasterRepeat s = _
    rw [execBeatMasterRepeat, if_pos ⟨hRuns, hState, hHeard, hMasterless⟩]
    rfl
  case master =>
    intro s hRuns hState hSilent hHeard
    have hExec : exec .markMasterTimeout s = .next (if deviceNumber s = setting s 0x1105 0 then
        takeMaster (s.beat.term + 1) (masterLost s) else masterLost s) := by
      rw [← deviceNumber_masterLost s, ← setting_masterLost s 0x1105, ← congrArg Beat.term (masterLost_beat s)]
      show execMarkMasterTimeout s = _
      rw [execMarkMasterTimeout, if_pos ⟨hRuns, hState, hSilent, hHeard⟩]
      rfl
    refine ⟨_, hExec, ?_, ?_, ?_, ?_, (sameBut_of_exec (by simp) hExec).mono (by simp [touches])⟩
    · rw [← masterLost_events]
      split <;> rfl
    · have hCount : (masterLost s).beat.count = s.beat.count := by rw [masterLost_beat]
      split <;> exact hCount
    · intro hDeputy
      rw [if_pos hDeputy, ← deviceNumber_masterLost s]
      exact ⟨rfl, rfl, rfl⟩
    · intro hOther
      rw [if_neg hOther, masterLost_beat]
      exact ⟨rfl, rfl, rfl, rfl⟩
  case measure =>
    intro l s hRuns hUp
    have hExec : exec (.latencyMeasure l) s = .next (sendProbe l s) := by
      show execLatencyMeasure l s = _
      simp [execLatencyMeasure, hRuns, done]
    have hProbe : sendProbe l s = sendFrame l 2 (linkOf s l).peer (le 8 s.clock) (modBeat (fun b => { b with probes := kput b.probes l s.clock }) s) := by
      unfold sendProbe
      rw [if_pos hUp]
      exact sendUp_of_up (by exact hUp) _ _
    rw [hProbe] at hExec
    exact ⟨_, hExec, rfl, sendFrame_out .., sameBut_of_exec (by simp) hExec⟩
  case probe =>
    intro l s hRuns hUp
    have hExec : exec (.latencyProbe l) s = .next (sendFrame l 3 (linkOf s l).peer [] s) := by
      show execLatencyProbe l s = _
      simp [execLatencyProbe, hRuns, done, sendUp_of_up hUp]
    exact ⟨_, hExec, sendFrame_out .., sameBut_of_exec (by simp) hExec⟩
  case reply =>
    intro l sent s hRuns hSent
    show execLatencyReply l s = _
    simp [execLatencyReply, hSent, hRuns, done, modBeat]
  case report =>
    intro l ns q s hRuns hUp
    have hExec := exec_upReport ns q hRuns hUp
    refine ⟨_, hExec, ?_, ?_, ?_, ?_, ?_, ?_, ?_, sameBut_of_exec (by simp) hExec⟩
    · rintro a rfl
      simp only [reportedBeat]
      split <;> exact kget_kput_same ..
    · rintro rfl
      simp only [reportedBeat]
      split <;> rfl
    · intro hMaster
      simp [reportedBeat, hMaster]
    · intro hOther
      refine ⟨by simp [reportedBeat, hOther], by simp [reportedBeat, hOther], ?_⟩
      rintro a rfl
      exact ⟨_, by simp [reportedBeat, hOther], le_askedMax s.beat.asked l a s.beat.requested⟩
    all_goals simp only [reportedBeat]; split <;> rfl
  case apply =>
    intro add start s hRuns hLast b
    have hExec : exec .governedAdditionApply s = .next (rePace s { s with beat := b }) := by
      show execGovernedAdditionApply s = _
      simp only [execGovernedAdditionApply, hLast, hRuns]
      rfl
    constructor
    · intro hLater
      rw [hExec, rePace_of_later (s := { s with beat := b }) hLater]
    · intro hOpened
      have hBeat := rePace_beat (before := s) (s := { s with beat := b }) hOpened
      refine ⟨_, hExec, ?_, ?_, sameBut_of_exec (by simp) hExec⟩
      · rw [hBeat]
      · rw [hBeat]
        show (Int.toNat _ : Int) = _
        rw [Int.ofNat_toNat, Int.max_comm]
end

section
/-! The close window of a slot's beat (R42, R56-R58): what is fixed at its opening and reported at its cutoff. -/

namespace Sys2Proof.Machine

@[simp] theorem slotBeat_modSlotBeat (k : Nat) (f : SlotBeat → SlotBeat) (s : State) :
    (slotOf (modSlotBeat k f s) k).beat = f (slotOf s k).beat := by rw [modSlotBeat_eq, slotOf_modSlot_same]
@[simp] theorem slotTrain_modSlotBeat (k j : Nat) (f : SlotBeat → SlotBeat) (s : State) :
    (slotOf (modSlotBeat k f s) j).train = (slotOf s j).train := by
  rw [modSlotBeat_eq]
  by_cases h : k = j
  · rw [h, slotOf_modSlot_same]
  · rw [slotOf_modSlot_other s _ h]

theorem slotOf_modSlotBeat_other {k j : Nat} (f : SlotBeat → SlotBeat) (s : State) (h : j ≠ k) :
    slotOf (modSlotBeat k f s) j = slotOf s j := slotOf_modSlot_other s _ h.symm

/-- Slots are read from their table alone. -/
theorem slotOf_congr {s t : State} (h : t.slots = s.slots) (k : Nat) : slotOf t k = slotOf s k := congrArg (kgetD Slot.free · k) h

/-- Entries of steering and merge units that are due and unpaired as the window opens (R135). -/
def dueMarks (s : State) (k : Nat) (r : Route) : List (Nat × Nat × Word) :=
  (slotUnits s k r).flatMap (fun u => ((unpairedTags u.2.2.1).filter (dueHere s k r u.2.2.2)).map (fun t => (u.1, u.2.1, t)))

/-- The window of a slot's beat has opened. -/
def windowOpened (k : Nat) (r : Route) (s : State) : State :=
  modSlotBeat k (fun b => { b with phase := 2, due := dueSet s k r, marked := dueMarks s k r, late := false }) s

theorem exec_closeWindowOpen {k : Nat} {r : Route} {s : State} (hRoute : routeOf s k = some r) (hPhase : (slotOf s k).beat.phase = 1)
    (hAlive : alive s = true) : exec (.closeWindowOpen k) s = .next (if switchAhead s k r then
      modFab (fun f => { f with stopped := k :: f.stopped.filter (· != k) }) (windowOpened k r s) else windowOpened k r s) := by
  have hGuard : ¬((slotOf s k).beat.phase ≠ 1 ∨ alive s = false) := by simp [hPhase, hAlive]
  show execCloseWindowOpen k s = _
  rw [execCloseWindowOpen, hRoute]
  dsimp only
  rw [if_neg hGuard]
  rfl

/-- The report of a slot at the cutoff: late, and the faults that stand. -/
def cutoffLate (s : State) (k : Nat) (r : Route) : Bool :=
  (slotOf s k).beat.late || (slotOf s k).beat.due.any (fun d => (r.station d.1).any (fun st => !tagDone s k r st d.2))

theorem cutoffLate_iff (s : State) (k : Nat) (r : Route) : cutoffLate s k r = true ↔
    (slotOf s k).beat.late = true ∨ ∃ d ∈ (slotOf s k).beat.due, ∃ st, r.station d.1 = some st ∧ tagDone s k r st d.2 = false := by
  simp [cutoffLate, Option.any_eq_true]

/-- Streams of a slot whose table words were lost. -/
def hitStreams (s : State) (k : Nat) : List Nat := (s.mem.saggarHits.filter (fun h => h.1 == k)).map (·.2)

theorem mem_hitStreams (s : State) (k n : Nat) : n ∈ hitStreams s k ↔ (k, n) ∈ s.mem.saggarHits := by simp [hitStreams]

/-- A serving route's answers are judged at the cutoff; slots and memory are not concerned. -/
theorem cutoffAnswers_frame (k close : Nat) (s : State) :
    (cutoffAnswers k close s).slots = s.slots ∧ (cutoffAnswers k close s).mem = s.mem := by
  have h := cutoffAnswers_keeps k close (.refl (fun p => p = .slots ∨ p = .mem) s) (by simp)
  exact ⟨h.parts .slots (.inl rfl), h.parts .mem (.inr rfl)⟩

/-- A unit holds a faulty choice, or an entry marked at the window's opening that is still unpaired (R135). -/
def unpairedDue (s : State) (k : Nat) (r : Route) : Bool :=
  (slotUnits s k r).any (fun u => u.2.2.1.faulty != [] || (slotOf s k).beat.marked.any (fun m => m.1 == u.1 && m.2.1 == u.2.1 &&
    (unpairedTags u.2.2.1).contains m.2.2))

def cutoffFaults (s : State) (k : Nat) (r : Route) : List Nat :=
  (if unpairedDue s k r then [fltUnpaired] else []) ++ (if hitStreams s k = [] then [] else [fltSaggar])

/-- The slot has reported. -/
def cutoffReported (k : Nat) (r : Route) (s : State) : State :=
  modSlotBeat k (fun b => { b with
      phase := 3, late := cutoffLate s k r, stopping := b.stopping ++ (hitStreams s k).map (fun n => (n, true))
      faults := b.faults ++ (cutoffFaults s k r).filter (fun f => !b.faults.contains f) })
    { s with mem := { s.mem with saggarHits := s.mem.saggarHits.filter (fun h => h.1 != k) } }

theorem cutoffReported_beat (k : Nat) (r : Route) (s : State) : (slotOf (cutoffReported k r s) k).beat = { (slotOf s k).beat with
    phase := 3, late := cutoffLate s k r, stopping := (slotOf s k).beat.stopping ++ (hitStreams s k).map (fun n => (n, true))
    faults := (slotOf s k).beat.faults ++ (cutoffFaults s k r).filter (fun f => !(slotOf s k).beat.faults.contains f) } :=
  slotBeat_modSlotBeat _ _ _

theorem exec_reportCutoff {k : Nat} {r : Route} {s : State} (hRoute : routeOf s k = some r) (hPhase : (slotOf s k).beat.phase = 2)
    (hAlive : alive s = true) : exec (.reportCutoff k) s = .next (if r.training then cutoffReported k r s
      else cutoffAnswers k ((slotOf s k).beat.opened + (slotOf s k).beat.length - 1) (cutoffReported k r s)) := by
  have hGuard : ¬((slotOf s k).beat.phase ≠ 2 ∨ alive s = false) := by simp [hPhase, hAlive]
  show execReportCutoff k s = _
  rw [execReportCutoff, hRoute]
  dsimp only
  rw [if_neg hGuard]
  rfl

end Sys2Proof.Machine

open Sys2Proof Sys2Proof.Machine

/-- Settles O10. -/
theorem closeWindowFixesAndReportsTheDueSet : Obligations.CloseWindowFixesAndReportsTheDueSet := by
  unfold Obligations.CloseWindowFixesAndReportsTheDueSet
  constructor
  · intro k r s hRoute hPhase hAlive
    have hExec := exec_closeWindowOpen hRoute hPhase hAlive
    have hSlots (j : Nat) : slotOf (if switchAhead s k r then modFab (fun f => { f with stopped := k :: f.stopped.filter (· != k) })
        (windowOpened k r s) else windowOpened k r s) j = slotOf (windowOpened k r s) j := by split <;> rfl
    refine ⟨_, hExec, ?_, ?_, ?_, sameBut_of_exec (by simp) hExec⟩
    · rw [hSlots, windowOpened, slotBeat_modSlotBeat]
    · intro j hj
      rw [hSlots, windowOpened, slotOf_modSlotBeat_other _ _ hj]
    · intro hAhead
      rw [if_pos hAhead]
      exact List.mem_cons_self
  · intro k r s hRoute hPhase hAlive
    have hExec := exec_reportCutoff hRoute hPhase hAlive
    obtain ⟨t, ht⟩ : ∃ t, (if r.training then cutoffReported k r s else cutoffAnswers k
        ((slotOf s k).beat.opened + (slotOf s k).beat.length - 1) (cutoffReported k r s)) = t := ⟨_, rfl⟩
    obtain ⟨hSlots, hMem⟩ : t.slots = (cutoffReported k r s).slots ∧ t.mem = (cutoffReported k r s).mem := by
      rw [← ht]
      split
      · exact ⟨rfl, rfl⟩
      · exact cutoffAnswers_frame _ _ _
    rw [ht] at hExec
    have hSlot := slotOf_congr hSlots
    refine ⟨t, hExec, ?_, ?_, ?_, ?_, ?_, ?_, sameBut_of_exec (by simp) hExec⟩
    · rw [hSlot, cutoffReported_beat]
    · rw [hSlot, cutoffReported_beat]
      exact cutoffLate_iff s k r
    · rintro ⟨n, hn⟩
      have hHit : hitStreams s k ≠ [] := List.ne_nil_of_mem ((mem_hitStreams s k n).mpr hn)
      rw [hSlot, cutoffReported_beat]
      by_cases hOld : fltSaggar ∈ (slotOf s k).beat.faults <;> simp [cutoffFaults, hHit, hOld]
    · intro n hn
      rw [hSlot, cutoffReported_beat]
      simp [mem_hitStreams, hn]
    · intro n
      simp [hMem, cutoffReported, modSlotBeat]
    · intro j hj
      rw [hSlot, cutoffReported, slotOf_modSlotBeat_other _ _ hj]
      rfl
end

section
/-! The verdict of a training beat (R58-R61, R231, R232): a stretch, a void, a commit, and the replay of a void step. -/

namespace Sys2Proof.Machine

theorem SameBut.trans {ps : List Part} {s t u : State} (h : SameBut ps s t) (h' : SameBut ps t u) : SameBut ps s u :=
  ⟨h'.1.trans h.1, fun p hp => Part.same_trans (h.2 p hp) (h'.2 p hp)⟩

/-! What a verdict uses leaves of a slot. -/

theorem routeSetting_congr {s t : State} {k : Nat} (hSettings : (slotOf t k).train.settings = (slotOf s k).train.settings)
    (hDict : t.dict = s.dict) (index : Nat) : routeSetting t k index = routeSetting s k index := by
  simp only [routeSetting, routeValue, inUse, hSettings, hDict]

theorem shared_congr {s t : State} (h : t.slots = s.slots) (r : Route) : shared t r = shared s r := by
  have hRoute (i : Nat) : routeOf t i = routeOf s i := by simp only [routeOf, slotOf_congr h]
  simp only [shared, residents, hRoute]

theorem phaseOf_congr {s t : State} {k : Nat} (h : (slotOf t k).beat.set = (slotOf s k).beat.set) (r : Route) :
    phaseOf t k r = phaseOf s k r := by simp only [phaseOf, setOf', h]

theorem stopStreams_of_none {k : Nat} {s : State} (h : (slotOf s k).beat.stopping = []) : stopStreams k s = s := by
  simp [stopStreams, h]

theorem eventsTogether_nil (s : State) : eventsTogether [] s = s := rfl
theorem eventsTogether_single (code : Nat) (p : At) (d : Bytes) (s : State) : eventsTogether [(code, p, d)] s = event code p d s := rfl

/-- What a void empties of a route's training (R139). -/
def emptiedTrain (t : Training) : Training :=
  { t with stash := [], gas := [], updated := [], lossItems := [], lossPending := false, normPending := false
           norm := none, stepLoss := none, groups := [] }

/-- Streams after a flush: full credit, and no tile but one of which something has left. -/
def creditedStreams (r : Route) (m : KMap StreamState) : KMap StreamState :=
  kmap (fun n y => { y with
    credits := ((r.stream n).map (fun o => r.depthOf o)).getD 0
    staging := if (r.stream n).any (fun o => r.emitted o 8 || r.emitted o 9) then [] else (y.staging.take 1).filter tileBegun, waiting := [] }) m

theorem flushRoute_slots {k : Nat} {r : Route} {s : State} (h : (slotOf s k).route = some r) :
    (flushRoute k s).slots = (modSlot k (fun x => { x with
      stations := [], streams := creditedStreams r x.streams, train := emptiedTrain x.train }) s).slots := by
  have hPurged : (purgeItems k r (voidTransfers k s)).slots = s.slots :=
    (purgeItems_keeps k r (voidTransfers_keeps k (.refl (· = .slots) s) (by simp) (by simp)) (by simp)).parts .slots rfl
  have hAbandoned (u : State) : (abandonWork k u).slots = u.slots :=
    (abandonWork_keeps k (.refl (· = .slots) u) (by simp) (by simp) (by simp)).parts .slots rfl
  unfold flushRoute
  rw [h]
  dsimp only
  rw [hAbandoned]
  simp only [modSlot, setSlot, slotOf_congr hPurged, hPurged]
  rfl

/-- A void leaves the beat of its slot, what identifies the attempt, and every other slot. -/
theorem discardStep_slot {k : Nat} {r : Route} {s : State} (h : (slotOf s k).route = some r) :
    (slotOf (discardStep k s) k).beat = (slotOf s k).beat ∧ (slotOf (discardStep k s) k).train = emptiedTrain (slotOf s k).train ∧
      ∀ j, j ≠ k → slotOf (discardStep k s) j = slotOf s j := by
  have hClosed : (closeKilnPages k s).slots = s.slots := (closeKilnPages_keeps k (.refl (· = .slots) s) (by simp)).parts .slots rfl
  have hSlot := slotOf_congr hClosed
  have hFlushed : (discardStep k s).slots = (modSlot k (fun x => { x with
      stations := [], streams := creditedStreams r x.streams, train := emptiedTrain x.train }) (closeKilnPages k s)).slots :=
    flushRoute_slots ((congrArg Slot.route (hSlot k)).trans h)
  refine ⟨?_, ?_, ?_⟩
  · rw [slotOf_congr hFlushed, slotOf_modSlot_same, hSlot]
  · rw [slotOf_congr hFlushed, slotOf_modSlot_same, hSlot]
  · intro j hj
    rw [slotOf_congr hFlushed, slotOf_modSlot_other _ _ hj.symm, hSlot]

theorem discardStep_dict (k : Nat) (s : State) : (discardStep k s).dict = s.dict :=
  (discardStep_keeps k (.refl (· = .dict) s) (by simp) (by simp) (by simp) (by simp) (by simp) (by simp) (by simp)).parts .dict rfl

@[simp] theorem slotOf_signal (f v : Nat) (s : State) (k : Nat) : slotOf (signal f v s) k = slotOf s k :=
  slotOf_congr ((signal_keeps f v (.refl (· = .slots) s) (by simp) (by simp)).parts .slots rfl) k

theorem slotOf_setTrainState {k state : Nat} {s : State} (h : (slotOf s k).train.state ≠ state) :
    slotOf (setTrainState k state s) k = { slotOf s k with train := { (slotOf s k).train with state := state } } ∧
      ∀ j, j ≠ k → slotOf (setTrainState k state s) j = slotOf s j := by
  unfold setTrainState
  rw [if_neg h, modTrain_eq]
  constructor
  · rw [slotOf_signal, slotOf_modSlot_same]
  · intro j hj
    rw [slotOf_signal, slotOf_modSlot_other _ _ hj.symm]

/-- Another attempt of the step is left: it is awaited (R232). -/
theorem raiseAttempt_slot {k : Nat} {s : State} (h : (slotOf s k).train.attempt + 1 < routeSetting s k 0x2302)
    (hState : (slotOf s k).train.state ≠ 2) :
    slotOf (raiseAttempt k s) k = { slotOf s k with train := { (slotOf s k).train with
      attempt := (slotOf s k).train.attempt + 1, replayBeat := none, state := 2 } } ∧
    ∀ j, j ≠ k → slotOf (raiseAttempt k s) j = slotOf s j := by
  generalize hu : modTrain k (fun t => { t with attempt := (slotOf s k).train.attempt + 1, replayBeat := none }) s = u
  have hSame : slotOf u k = { slotOf s k with train := { (slotOf s k).train with
      attempt := (slotOf s k).train.attempt + 1, replayBeat := none } } := by
    rw [← hu, modTrain_eq, slotOf_modSlot_same]
  have hOther : ∀ j, j ≠ k → slotOf u j = slotOf s j := fun j hj => by rw [← hu, modTrain_eq, slotOf_modSlot_other _ _ hj.symm]
  have hLimit : ¬routeSetting u k 0x2302 ≤ (slotOf s k).train.attempt + 1 := by
    rw [routeSetting_congr (s := s) (by rw [hSame]) (by rw [← hu]; rfl)]
    omega
  have hRaised : raiseAttempt k s = count 0x5101 k 1 (setTrainState k 2 u) := by
    unfold raiseAttempt
    dsimp only
    rw [hu, if_neg hLimit]
  obtain ⟨hSet, hRest⟩ := slotOf_setTrainState (state := 2) (s := u) (k := k) (by rw [hSame]; exact hState)
  constructor
  · rw [hRaised, slotOf_count, hSet, hSame]
  · intro j hj
    rw [hRaised, slotOf_count, hRest j hj, hOther j hj]

/-! A void that is raised here (R61, R139, R232). -/

/-- The void is recorded, counted and told, and is no longer pending. -/
def voidNoted (k mark cause : Nat) (r : Route) (s : State) : State :=
  let t := (slotOf s k).train
  let s := ledgerStep (le 6 t.step ++ le 1 6 ++ le 1 (t.attempt % 16 * 4 + k) ++ le 8 s.beat.count ++ le 2 cause) s
  let s := count 0x5142 k 1 s
  let s := if r.fabric && mark == 0 then sendNotice k t.step t.attempt s else s
  modTrain k (fun t => { t with voided := none }) s

/-- The attempt is discarded and the next one awaited: its beat is known at once on a local route. -/
def voidRaised (k mark : Nat) (r : Route) (s : State) : State :=
  let s := raiseAttempt k (discardStep k s)
  if (slotOf s k).train.state ≠ 2 then s
  else if r.plan.isLocal then
    let v := (slotOf s k).beat.count + routeSetting s k 0x3301
    modTrain k (fun t => { t with replayBeat := some v }) s
  else if mark = 0 then s
  else noteReplay k (mark - 1) s

theorem takeVoid_eq {k mark cause : Nat} {r : Route} {s : State} (hChecking : (secureOf s k).checking = none)
    (hPhase : phaseOf s k r ≠ 3) : takeVoid k mark cause r s = voidRaised k mark r (voidNoted k mark cause r s) := by
  have hPhase' : ¬(phaseOf s k r == 3) = true := by simpa using hPhase
  unfold takeVoid voidRaised voidNoted
  dsimp only
  rw [if_neg (by simp [hChecking]), if_neg hPhase']

/-- Recording and telling a void leaves the slot but for what was pending, and the values in use. -/
theorem voidNoted_slot (k mark cause : Nat) (r : Route) (s : State) :
    slotOf (voidNoted k mark cause r s) k = { slotOf s k with train := { (slotOf s k).train with voided := none } } ∧
      (∀ j, j ≠ k → slotOf (voidNoted k mark cause r s) j = slotOf s j) ∧ (voidNoted k mark cause r s).dict = s.dict := by
  have hTold (b : Bytes) (step attempt : Nat) : Keeps (fun p => p = .slots ∨ p = .dict) s (if r.fabric && mark == 0 then
      sendNotice k step attempt (count 0x5142 k 1 (ledgerStep b s)) else count 0x5142 k 1 (ledgerStep b s)) := by
    have hCounted : Keeps (fun p => p = .slots ∨ p = .dict) s (count 0x5142 k 1 (ledgerStep b s)) :=
      count_keeps _ _ _ (ledgerStep_keeps _ (.refl _ s) (by simp) (by simp) (by simp)) (by simp)
    exact .ite (fun _ => sendNotice_keeps _ _ _ hCounted (by simp)) (fun _ => hCounted)
  have hSlots (b : Bytes) (step attempt j : Nat) := slotOf_congr ((hTold b step attempt).parts .slots (.inl rfl)) j
  refine ⟨?_, ?_, (hTold _ _ _).parts .dict (.inr rfl)⟩
  · unfold voidNoted
    dsimp only
    rw [modTrain_eq, slotOf_modSlot_same, hSlots]
  · intro j hj
    unfold voidNoted
    dsimp only
    rw [modTrain_eq, slotOf_modSlot_other _ _ hj.symm, hSlots]

/-- With attempts left, the next one of the same step is awaited. -/
theorem voidRaised_slot {k : Nat} {r : Route} {s : State} (hRoute : (slotOf s k).route = some r) (hState : (slotOf s k).train.state = 1)
    (hAttempt : (slotOf s k).train.attempt + 1 < routeSetting s k 0x2302) :
    (slotOf (voidRaised k 0 r s) k).beat = (slotOf s k).beat ∧ (slotOf (voidRaised k 0 r s) k).train =
      { emptiedTrain (slotOf s k).train with
        attempt := (slotOf s k).train.attempt + 1, state := 2
        replayBeat := if r.plan.isLocal then some ((slotOf s k).beat.count + routeSetting s k 0x3301) else none } ∧
    ∀ j, j ≠ k → slotOf (voidRaised k 0 r s) j = slotOf s j := by
  obtain ⟨hBeat, hTrain, hOthers⟩ := discardStep_slot hRoute
  have hSettings (i : Nat) : routeSetting (discardStep k s) k i = routeSetting s k i :=
    routeSetting_congr (by rw [hTrain]; rfl) (discardStep_dict k s) i
  obtain ⟨hRaised, hRest⟩ := raiseAttempt_slot (k := k) (s := discardStep k s) (by rw [hTrain, hSettings]; exact hAttempt)
    (by rw [hTrain]; exact fun h => by simp [emptiedTrain, hState] at h)
  have hSettings' (i : Nat) : routeSetting (raiseAttempt k (discardStep k s)) k i = routeSetting s k i := by
    rw [← hSettings]
    exact routeSetting_congr (by rw [hRaised]) ((raiseAttempt_keeps k (.refl (· = .dict) _) (by simp) (by simp) (by simp) (by simp)
      (by simp)).parts .dict rfl) i
  unfold voidRaised
  dsimp only
  rw [if_neg (by simp [hRaised])]
  split
  case isTrue hLocal =>
    refine ⟨?_, ?_, ?_⟩
    · rw [modTrain_eq, slotOf_modSlot_same, hRaised]
      exact hBeat
    · rw [modTrain_eq, slotOf_modSlot_same, hRaised, hSettings', hTrain, hBeat]
      simp [emptiedTrain]
    · intro j hj
      rw [modTrain_eq, slotOf_modSlot_other _ _ hj.symm, hRest j hj, hOthers j hj]
  case isFalse hFabric =>
    rw [if_pos rfl, hRaised]
    refine ⟨hBeat, by simp [hTrain, emptiedTrain], ?_⟩
    intro j hj
    rw [hRest j hj, hOthers j hj]

/-! The commit (R231). -/

/-- The carries, the pages of the Kilns, the two records of the commit and the groups' counts. -/
def commitRecorded (k : Nat) (r : Route) (s : State) : State :=
  let s := closeKilnPages k (commitCarries k r s)
  advanceGroups k ((commitRecords s k).foldl (fun s b => ledgerStep b s) s)

/-- How a commit moves the training of its slot: its numbers, and what the step's beat-by-beat state was left at. -/
structure CommitsTraining (f : Training → Training) : Prop where
  lastCommitted : ∀ t, (f t).lastCommitted = t.step
  step : ∀ t, (f t).step = (t.step + 1) % 2 ^ 48
  attempt : ∀ t, (f t).attempt = 0
  committed : ∀ t, (f t).committed = t.committed + 1
  state : ∀ t, (f t).state = t.state

/-- The step's numbers move and what belonged to it is emptied. -/
def commitMoved (k : Nat) (f : Training → Training) (s : State) : State :=
  modSlot k (fun x => { x with stations := kmap (fun _ y => { y with
    fired := [], completed := [], failed := [], skipped := [], bounds := [], results := [] }) x.stations }) (modTrain k f s)

/-- The commit is counted, its causes gathered, and the secured states told. -/
def commitCounted (k cycles : Nat) (s : State) : State :=
  let s := gather 0 (4 + k) (count 0x5100 k 1 s)
  let owner := (slotOf s k).owner
  let s := if 0 < owner ∧ owner < 64 then gather owner (4 + k) s else s
  modSecure k (fun x => { x with
    sinceRestore := x.sinceRestore + 1
    point := x.point.map (fun p => { p with extra := p.extra + (cycles - p.planned) }) }) s

/-- The commit without the check of a replay and what follows it. -/
def committed (k : Nat) (r : Route) (f : Training → Training) (s : State) : State :=
  commitCounted k (s.clock + 1 - (slotOf s k).train.stepOpened) (commitMoved k f (commitRecorded k r s))

theorem commitStep_eq (k : Nat) (r : Route) (s : State) : ∃ f, CommitsTraining f ∧ commitStep k r s =
    let u := checkReplay k (slotOf s k).train.step s (committed k r f s)
    if (slotOf u k).train.state ≠ 1 then u
    else refreshCommit k (slotOf s k).train.step (securePoint k (slotOf s k).train.step r u) := by
  apply Exists.intro
  apply And.intro
  rotate_left
  · unfold commitStep committed commitCounted commitMoved commitRecorded
    with_reducible rfl
  · exact ⟨fun _ => rfl, fun _ => rfl, fun _ => rfl, fun _ => rfl, fun _ => rfl⟩

theorem commitRecorded_slots (k : Nat) (r : Route) (s : State) : (commitRecorded k r s).slots = s.slots :=
  (advanceGroups_keeps k (.foldl (fun _ _ h => ledgerStep_keeps _ h (by simp) (by simp) (by simp)) _
    (closeKilnPages_keeps k (commitCarries_keeps k r (.refl (· = .slots) s) (by simp)) (by simp))) (by simp)).parts .slots rfl

theorem releasePoint_checking (k j : Nat) (s : State) : (secureOf (releasePoint k s) j).checking = (secureOf s j).checking := by
  unfold releasePoint
  by_cases h : k = j
  · rw [h, secureOf_modSecure_same]
  · rw [secureOf_modSecure_other _ _ h]

theorem dropState_checking (k j : Nat) (e : Secured) (s : State) : (secureOf (dropState k e s) j).checking = (secureOf s j).checking := by
  unfold dropState
  split
  · exact releasePoint_checking k j s
  · by_cases h : k = j
    · rw [h, secureOf_modSecure_same]
    · rw [secureOf_modSecure_other _ _ h]

/-- A record of the step ledger counts itself and drops secured states that it overwrites; a replay under way is not concerned. -/
theorem ledgerStep_frame (b : Bytes) (s : State) : (ledgerStep b s).led.steps = (s.led.steps + 1) % 2 ^ 64 ∧
    ∀ j, (secureOf (ledgerStep b s) j).checking = (secureOf s j).checking := by
  unfold ledgerStep
  split
  · exact ⟨rfl, fun _ => rfl⟩
  · dsimp only
    constructor
    · refine congrArg (fun n => (n + 1) % 2 ^ 64) ?_
      refine foldl_field (g := fun s => s.led.steps) (fun s e => ?_) _ s
      rw [event_led]
      show (dropState _ e s).led.steps = _
      exact congrArg Ledgers.steps ((dropState_keeps _ e (.refl (· = .led) s) (by simp)).parts .led rfl)
    · intro j
      refine foldl_field (g := fun s => (secureOf s j).checking) (fun s e => ?_) _ s
      rw [secureOf_event]
      exact dropState_checking _ j e s

theorem commitRecorded_frame (k : Nat) (r : Route) (s : State) : (commitRecorded k r s).led.steps = (s.led.steps + 2) % 2 ^ 64 ∧
    ∀ j, (secureOf (commitRecorded k r s) j).checking = (secureOf s j).checking := by
  have hClosed : Keeps (fun p => p = .led ∨ p = .secures) s (closeKilnPages k (commitCarries k r s)) :=
    closeKilnPages_keeps k (commitCarries_keeps k r (.refl _ s) (by simp)) (by simp)
  have hLed : (closeKilnPages k (commitCarries k r s)).led = s.led := hClosed.parts .led (.inl rfl)
  have hSecures : (closeKilnPages k (commitCarries k r s)).secures = s.secures := hClosed.parts .secures (.inr rfl)
  have hTwo (a b : Bytes) (u : State) : (ledgerStep b (ledgerStep a u)).led.steps = (u.led.steps + 2) % 2 ^ 64 := by
    rw [(ledgerStep_frame b _).1, (ledgerStep_frame a _).1]
    omega
  constructor
  · refine Eq.trans (hTwo _ _ _) ?_
    rw [hLed]
  · intro j
    refine Eq.trans ((ledgerStep_frame _ _).2 j) (Eq.trans ((ledgerStep_frame _ _).2 j) ?_)
    rw [secureOf, hSecures, secureOf]

theorem commitCounted_frame (k cycles : Nat) (s : State) : (commitCounted k cycles s).slots = s.slots ∧ (commitCounted k cycles s).led = s.led ∧
    (secureOf (commitCounted k cycles s) k).checking = (secureOf s k).checking := by
  unfold commitCounted
  dsimp only
  rw [secureOf_modSecure_same]
  split <;> simp [secureOf]

theorem commitMoved_led (k : Nat) (f : Training → Training) (s : State) : (commitMoved k f s).led = s.led := rfl
theorem secureOf_commitMoved (k : Nat) (f : Training → Training) (s : State) (j : Nat) : secureOf (commitMoved k f s) j = secureOf s j := rfl

theorem committed_frame (k : Nat) (r : Route) (f : Training → Training) (s : State) :
    (slotOf (committed k r f s) k).beat = (slotOf s k).beat ∧ (slotOf (committed k r f s) k).train = f (slotOf s k).train ∧
      (∀ j, j ≠ k → slotOf (committed k r f s) j = slotOf s j) ∧ (committed k r f s).led.steps = (s.led.steps + 2) % 2 ^ 64 ∧
      (secureOf (committed k r f s) k).checking = (secureOf s k).checking := by
  have hRecorded := slotOf_congr (commitRecorded_slots k r s)
  obtain ⟨hSteps, hChecking⟩ := commitRecorded_frame k r s
  obtain ⟨hSlots, hLed, hSame⟩ := commitCounted_frame k (s.clock + 1 - (slotOf s k).train.stepOpened) (commitMoved k f (commitRecorded k r s))
  have hSlot := slotOf_congr hSlots
  refine ⟨?_, ?_, ?_, ?_, ?_⟩
  · rw [committed, hSlot, commitMoved, slotOf_modSlot_same, modTrain_eq, slotOf_modSlot_same, hRecorded]
  · rw [committed, hSlot, commitMoved, slotOf_modSlot_same, modTrain_eq, slotOf_modSlot_same, hRecorded]
  · intro j hj
    rw [committed, hSlot, commitMoved, slotOf_modSlot_other _ _ hj.symm, modTrain_eq, slotOf_modSlot_other _ _ hj.symm, hRecorded]
  · rw [committed, hLed, commitMoved_led, hSteps]
  · rw [committed, hSame, secureOf_commitMoved, hChecking]

theorem checkReplay_of_none {k step : Nat} {before s : State} (h : (secureOf s k).checking = none) : checkReplay k step before s = s := by
  simp [checkReplay, h]

theorem refreshCommit_steps (k step : Nat) (s : State) : (refreshCommit k step s).led.steps = s.led.steps := by
  have hFail (s : State) : (failRefresh s).led.steps = s.led.steps := by
    unfold failRefresh
    split
    · rw [event_led]
    · rfl
  have hCount (c : Prop) [Decidable c] (i n : Nat) (s : State) : (if c then s else count 0x513E i n s).led = s.led := by
    split
    · rfl
    · rw [count_led]
  unfold refreshCommit
  dsimp only
  split
  · rfl
  · split
    · rw [hFail, hCount]
    · rw [hCount]

/-- The commit of a step that no restore replays. -/
theorem commitStep_frame {k : Nat} {s : State} (r : Route) (hChecking : (secureOf s k).checking = none)
    (hState : (slotOf s k).train.state = 1) : ∃ f, CommitsTraining f ∧
      (slotOf (commitStep k r s) k).beat = (slotOf s k).beat ∧ (slotOf (commitStep k r s) k).train = f (slotOf s k).train ∧
      (∀ j, j ≠ k → slotOf (commitStep k r s) j = slotOf s j) ∧ (commitStep k r s).led.steps = (s.led.steps + 2) % 2 ^ 64 := by
  obtain ⟨f, hf, hCommit⟩ := commitStep_eq k r s
  obtain ⟨hBeat, hTrain, hOthers, hSteps, hSame⟩ := committed_frame k r f s
  rw [checkReplay_of_none (hSame.trans hChecking)] at hCommit
  dsimp only at hCommit
  rw [if_neg (by rw [hTrain, hf.state, hState]; simp)] at hCommit
  have hPoint : Keeps (fun p => p = .slots ∨ p = .led) (committed k r f s) (securePoint k (slotOf s k).train.step r (committed k r f s)) :=
    securePoint_keeps _ _ _ (.refl _ _) (by simp) (by simp)
  have hSlots : (commitStep k r s).slots = (committed k r f s).slots := by
    rw [hCommit]
    exact ((refreshCommit_keeps _ _ (.refl (· = .slots) _) (by simp) (by simp) (by simp)).parts .slots rfl).trans (hPoint.parts .slots (.inl rfl))
  have hSlot := slotOf_congr hSlots
  refine ⟨f, hf, by rw [hSlot, hBeat], by rw [hSlot, hTrain], fun j hj => by rw [hSlot, hOthers j hj], ?_⟩
  rw [hCommit, refreshCommit_steps, ← hSteps]
  exact congrArg Ledgers.steps (hPoint.parts .led (.inr rfl))

/-! The verdict (R58-R62). -/

theorem checkSentinels_of_none {k : Nat} {s : State} (hLoss : (slotOf s k).train.lossPending = false)
    (hNorm : (slotOf s k).train.normPending = false) : checkSentinels k s = s := by simp [checkSentinels, hLoss, hNorm]

/-- The phase U of a step ends before a set that is not of it, and with the step. -/
def endsPhaseU (k : Nat) (r : Route) (s : State) : State :=
  let ends := r.plan.sets.any (fun e => e.start == nextOffset (slotOf s k) r && e.phase != 3)
  if (slotOf s k).train.uPhase = 1 ∧ (ends = true ∨ (slotOf s k).beat.offset + 1 = r.plan.stepLength) then
    modTrain k (fun t => { t with uPhase := 2 }) s else s

theorem closeTraining_eq {k : Nat} {s : State} (r : Route) (hLoss : (slotOf s k).train.lossPending = false)
    (hNorm : (slotOf s k).train.normPending = false) : closeTraining k r s =
    let u := modSlotBeat k (fun b => { b with phase := 4 }) s
    match (slotOf s k).train.voided with
    | some v => takeVoid k v.1 v.2 r u
    | none => if (slotOf s k).beat.offset + 1 = r.plan.stepLength then commitStep k r (endsPhaseU k r u) else endsPhaseU k r u := by
  unfold closeTraining
  rw [checkSentinels_of_none hLoss hNorm]
  dsimp only
  rw [slotTrain_modSlotBeat]
  cases (slotOf s k).train.voided with
  | some v => rfl
  | none => simp only [slotBeat_modSlotBeat, slotTrain_modSlotBeat, endsPhaseU]

theorem endsPhaseU_frame (k : Nat) (r : Route) (s : State) : (slotOf (endsPhaseU k r s) k).beat = (slotOf s k).beat ∧
    (∃ u, (slotOf (endsPhaseU k r s) k).train = { (slotOf s k).train with uPhase := u }) ∧
    (∀ j, j ≠ k → slotOf (endsPhaseU k r s) j = slotOf s j) ∧ SameBut [.slots] s (endsPhaseU k r s) ∧
    (endsPhaseU k r s).secures = s.secures ∧ (endsPhaseU k r s).led = s.led := by
  have hSame : ∃ u, (slotOf s k).train = { (slotOf s k).train with uPhase := u } := ⟨(slotOf s k).train.uPhase, rfl⟩
  have hMod := modTrain_keeps k (fun t => { t with uPhase := 2 }) (.refl (· ∉ [Part.slots]) s) (by simp)
  unfold endsPhaseU
  dsimp only
  split
  · rw [modTrain_eq, slotOf_modSlot_same]
    exact ⟨rfl, ⟨2, rfl⟩, fun j hj => slotOf_modSlot_other _ _ hj.symm, hMod.sameBut, rfl, rfl⟩
  · exact ⟨rfl, hSame, fun _ _ => rfl, (Keeps.refl _ s).sameBut, rfl, rfl⟩

/-- The event of an overrun, whose first in the beat is counted (R59, R66). -/
def overrunRaised (k : Nat) (s : State) : State :=
  event fltOverrun (atSlot k) [] (if (slotOf s k).beat.increments == 0 then count 0x5140 k 1 s else s)

/-- The verdict of a running training beat without a fault: a stretch, or the close of the beat, void where it is late. -/
theorem exec_verdictApply {k : Nat} {r : Route} {s : State} (hRoute : routeOf s k = some r) (hPhase : (slotOf s k).beat.phase = 3)
    (hAlive : alive s = true) (hTraining : r.training = true) (hState : (slotOf s k).train.state = 1)
    (hFaults : (slotOf s k).beat.faults = []) (hOpen : k ∉ s.fab.stopped) (hStopping : (slotOf s k).beat.stopping = []) :
    let stretching := r.plan.policy = 0 ∧ (slotOf s k).beat.late = true ∧ (slotOf s k).beat.increments < r.plan.stretchLimit
    let lagging := (r.fabric || shared s r) = true ∧ r.plan.lagLimit < (slotOf s k).beat.lag + 64
    (stretching → ¬lagging → exec (.verdictApply k) s = .next (stretch k r s)) ∧
    (¬stretching → (slotOf s k).beat.late = true → exec (.verdictApply k) s =
      .next (closeTraining k r (pendVoid k 0 fltOverrun (overrunRaised k s)))) ∧
    ((slotOf s k).beat.late = false → exec (.verdictApply k) s = .next (closeTraining k r s)) := by
  intro stretching lagging
  have hGuard : ¬((slotOf s k).beat.phase ≠ 3 ∨ alive s = false) := by simp [hPhase, hAlive]
  have hTrains : ¬r.training = false := by simp [hTraining]
  have hRunning : ¬(slotOf s k).train.state ≠ 1 := not_not_intro hState
  have hDrain : (s.fab.stopped.contains k && pathBusy s k r) = false := by simp [hOpen]
  have hUnstopped (u : State) (hu : u.slots = s.slots) : stopStreams k u = u :=
    stopStreams_of_none (by rw [slotOf_congr hu, hStopping])
  refine ⟨?_, ?_, ?_⟩
  · intro hStretch hLag
    show execVerdictApply k s = _
    rw [execVerdictApply, hRoute]
    dsimp only
    rw [if_neg hGuard, if_neg hTrains, if_neg hRunning, if_pos ⟨⟨hStretch.1, hStretch.2.1, hFaults, hStretch.2.2⟩, hLag⟩]
    rfl
  · intro hStretch hLate
    have hNot : ¬(r.plan.policy = 0 ∧ (slotOf s k).beat.late = true ∧ (slotOf s k).beat.faults = [] ∧
        (slotOf s k).beat.increments < r.plan.stretchLimit) := fun h => hStretch ⟨h.1, h.2.1, h.2.2.2⟩
    show execVerdictApply k s = _
    rw [execVerdictApply, hRoute]
    dsimp only
    rw [if_neg hGuard, if_neg hTrains, if_neg hRunning, if_neg (fun h => hNot h.1)]
    have hLagging (p : Prop) [Decidable p] (a b : List Nat) : (if (r.plan.policy = 0 ∧ (slotOf s k).beat.late = true ∧
        (slotOf s k).beat.faults = [] ∧ (slotOf s k).beat.increments < r.plan.stretchLimit) ∧ p then a else b) = b :=
      if_neg (fun h => hNot h.1)
    rw [hLagging, hDrain, hFaults, hLate]
    simp only [Bool.true_and, Bool.false_eq_true, if_false, if_true, List.append_nil, List.map_cons, List.map_nil, List.foldl_nil]
    rw [eventsTogether_single, hUnstopped]
    · rfl
    · rw [event_slots]
      split <;> rfl
  · intro hLate
    show execVerdictApply k s = _
    rw [execVerdictApply, hRoute]
    dsimp only
    rw [if_neg hGuard, if_neg hTrains, if_neg hRunning, if_neg (by simp [hLate]), hDrain, hFaults, hLate]
    simp [eventsTogether_nil, hUnstopped, done]

theorem stretch_frame (k : Nat) (r : Route) (s : State) :
    (slotOf (stretch k r s) k).beat = { (slotOf s k).beat with
      phase := 1, increments := (slotOf s k).beat.increments + 1, length := (slotOf s k).beat.length + 64
      lag := (slotOf s k).beat.lag + (if r.fabric || shared s r then 64 else 0) } ∧
    (slotOf (stretch k r s) k).train = (slotOf s k).train ∧ (stretch k r s).led.events = (s.led.events + 1) % 2 ^ 64 ∧
    ∀ j, j ≠ k → slotOf (stretch k r s) j = slotOf s j := by
  generalize hu : overrunRaised k s = u
  have hSlots : u.slots = s.slots := by
    rw [← hu, overrunRaised, event_slots]
    split <;> rfl
  have hEvents : u.led.events = (s.led.events + 1) % 2 ^ 64 := by
    rw [← hu, overrunRaised, event_led]
    split <;> rfl
  have hStretch : stretch k r s = count 0x5141 k 1 (modSlotBeat k (fun b => { b with
      increments := b.increments + 1, length := b.length + 64, lag := if r.fabric || shared u r then b.lag + 64 else b.lag, phase := 1 }) u) := by
    rw [← hu]
    rfl
  have hSlot := slotOf_congr hSlots
  rw [hStretch]
  refine ⟨?_, ?_, hEvents, ?_⟩
  · rw [slotOf_count, slotBeat_modSlotBeat, hSlot, shared_congr hSlots]
    split <;> rfl
  · rw [slotOf_count, slotTrain_modSlotBeat, hSlot]
  · intro j hj
    rw [slotOf_count, slotOf_modSlotBeat_other _ _ hj, hSlot]

/-- The slot as the close of a beat that overran finds it: the beat over, the void pending. -/
def overrunClosed (k : Nat) (s : State) : State :=
  modSlotBeat k (fun b => { b with phase := 4 }) (pendVoid k 0 fltOverrun (overrunRaised k s))

theorem overrunRaised_keeps (k : Nat) (s : State) {M : Part → Prop} (hLed : ¬M .led) (hCtr : ¬M .ctr) : Keeps M s (overrunRaised k s) :=
  event_keeps _ _ _ (.ite (fun _ => count_keeps _ _ _ (.refl _ s) hCtr) (fun _ => .refl _ s)) hLed hCtr

theorem slotOf_pendVoid {k : Nat} {s : State} (mark cause : Nat) (h : (slotOf s k).train.voided = none) :
    slotOf (pendVoid k mark cause s) k = { slotOf s k with train := { (slotOf s k).train with voided := some (mark, cause) } } := by
  rw [pendVoid, modTrain_eq, slotOf_modSlot_same]
  simp [h]

theorem overrunClosed_frame {k : Nat} {s : State} (h : (slotOf s k).train.voided = none) :
    slotOf (overrunClosed k s) k = { slotOf s k with
      beat := { (slotOf s k).beat with phase := 4 }, train := { (slotOf s k).train with voided := some (0, fltOverrun) } } ∧
    (∀ j, j ≠ k → slotOf (overrunClosed k s) j = slotOf s j) ∧ (overrunClosed k s).dict = s.dict ∧
    (overrunClosed k s).secures = s.secures := by
  have hSlot := slotOf_congr ((overrunRaised_keeps k s (M := (· = .slots)) (by simp) (by simp)).parts .slots rfl)
  have hKeeps : Keeps (fun p => p = .dict ∨ p = .secures) s (overrunClosed k s) :=
    modSlotBeat_keeps _ _ (pendVoid_keeps _ _ _ (overrunRaised_keeps k s (by simp) (by simp)) (by simp)) (by simp)
  refine ⟨?_, ?_, hKeeps.parts .dict (.inl rfl), hKeeps.parts .secures (.inr rfl)⟩
  · rw [overrunClosed, modSlotBeat_eq, slotOf_modSlot_same, slotOf_pendVoid 0 fltOverrun (by rw [hSlot, h]), hSlot]
  · intro j hj
    rw [overrunClosed, slotOf_modSlotBeat_other _ _ hj, pendVoid, modTrain_eq, slotOf_modSlot_other _ _ hj.symm, hSlot]

/-- A beat that overran and may not stretch is void, and its step is tried again (R61, R232). -/
theorem closeTraining_of_overrun {k : Nat} {r : Route} {s : State} (hRoute : (slotOf s k).route = some r)
    (hState : (slotOf s k).train.state = 1) (hChecking : (secureOf s k).checking = none) (hVoided : (slotOf s k).train.voided = none)
    (hLoss : (slotOf s k).train.lossPending = false) (hNorm : (slotOf s k).train.normPending = false) (hPhase : phaseOf s k r ≠ 3)
    (hAttempt : (slotOf s k).train.attempt + 1 < routeSetting s k 0x2302) :
    ∀ t, closeTraining k r (pendVoid k 0 fltOverrun (overrunRaised k s)) = t →
      (slotOf t k).beat = { (slotOf s k).beat with phase := 4 } ∧ (slotOf t k).train = { emptiedTrain (slotOf s k).train with
        voided := none, attempt := (slotOf s k).train.attempt + 1, state := 2
        replayBeat := if r.plan.isLocal then some ((slotOf s k).beat.count + routeSetting s k 0x3301) else none } ∧
      ∀ j, j ≠ k → slotOf t j = slotOf s j := by
  rintro _ rfl
  obtain ⟨hSame, hOthers, hDict, hSecures⟩ := overrunClosed_frame hVoided
  obtain ⟨hNoted, hNotedOthers, hNotedDict⟩ := voidNoted_slot k 0 fltOverrun r (overrunClosed k s)
  rw [hSame] at hNoted
  have hSlot := slotOf_congr ((overrunRaised_keeps k s (M := (· = .slots)) (by simp) (by simp)).parts .slots rfl) k
  have hPending := slotOf_pendVoid (s := overrunRaised k s) 0 fltOverrun (by rw [hSlot, hVoided])
  have hClose : closeTraining k r (pendVoid k 0 fltOverrun (overrunRaised k s)) =
      voidRaised k 0 r (voidNoted k 0 fltOverrun r (overrunClosed k s)) := by
    rw [closeTraining_eq r (by rw [hPending, hSlot, hLoss]) (by rw [hPending, hSlot, hNorm]), hPending]
    refine takeVoid_eq (s := overrunClosed k s) ?_ ?_
    · rw [secureOf, hSecures, ← secureOf, hChecking]
    · rw [phaseOf_congr (s := s) (by rw [hSame])]
      exact hPhase
  have hSettings (i : Nat) : routeSetting (voidNoted k 0 fltOverrun r (overrunClosed k s)) k i = routeSetting s k i :=
    routeSetting_congr (by rw [hNoted]) (hNotedDict.trans hDict) i
  obtain ⟨hBeat, hTrain, hRest⟩ := voidRaised_slot (k := k) (r := r) (s := voidNoted k 0 fltOverrun r (overrunClosed k s))
    (by rw [hNoted, hRoute]) (by rw [hNoted, hState]) (by rw [hNoted, hSettings]; exact hAttempt)
  rw [hClose]
  refine ⟨by rw [hBeat, hNoted], ?_, fun j hj => by rw [hRest j hj, hNotedOthers j hj, hOthers j hj]⟩
  rw [hTrain, hNoted, hSettings]
  simp [emptiedTrain]

theorem route_of_routeOf {s : State} {k : Nat} {r : Route} (h : routeOf s k = some r) : (slotOf s k).route = some r := by
  unfold routeOf at h
  split at h
  · exact h
  · cases h

end Sys2Proof.Machine

open Sys2Proof Sys2Proof.Machine

/-- Settles O11: the verdict closes the beat, and by what is pending then voids, commits, or only ends it. -/
theorem verdictsVoidCommitAndReplay : Obligations.VerdictsVoidCommitAndReplay := by
  unfold Obligations.VerdictsVoidCommitAndReplay
  constructor
  · intro k r s hRoute hPhase hAlive hTraining hState hFaults hOpen hStopping hChecking hVoided hLoss hNorm
    obtain ⟨hStretch, hVoid, hClose⟩ := exec_verdictApply hRoute hPhase hAlive hTraining hState hFaults hOpen hStopping
    have hEnds := endsPhaseU_frame k r (modSlotBeat k (fun b => { b with phase := 4 }) s)
    refine ⟨?stretched, ?void, ?commit, ?ends⟩
    case stretched =>
      intro hLate hPolicy hLimit hLag
      have hExec := hStretch ⟨hPolicy, hLate, hLimit⟩ (by
        rintro ⟨hLags, hOver⟩
        have hShared : r.fabric = true ∨ shared s r = true := by simpa using hLags
        exact absurd (hLag hShared) (by omega))
      obtain ⟨hBeat, hTrain, hEvents, hOthers⟩ := stretch_frame k r s
      exact ⟨_, hExec, hBeat, hTrain, hEvents, hOthers, (stretch_keeps k r (.refl (· ∉ [Part.led, .ctr, .slots]) s)
        (by simp) (by simp) (by simp)).sameBut⟩
    case void =>
      intro hLate hPolicy hSet hAttempt
      have hExec := hVoid (fun h => hPolicy h.1) hLate
      obtain ⟨hBeat, hTrain, hOthers⟩ := closeTraining_of_overrun (route_of_routeOf hRoute) hState hChecking hVoided hLoss hNorm hSet hAttempt _ rfl
      refine ⟨_, hExec, ?_, ?_, ?_, ?_, ?_, ?_, hOthers, sameBut_of_exec (by simp) hExec⟩
      · rw [hBeat]
      · rw [hTrain]
      · rw [hTrain]
        rfl
      · rw [hTrain]
      · intro hLocal
        rw [hTrain]
        simp [hLocal]
      · intro hFabric
        rw [hTrain]
        have hLocal : r.plan.isLocal = false := by simpa [Route.fabric] using hFabric
        simp [hLocal]
    case commit =>
      intro hLate hLast
      have hExec := hClose hLate
      obtain ⟨hBeat, ⟨u, hTrain⟩, hOthers, -, hSecures, hLed⟩ := hEnds
      rw [closeTraining_eq r hLoss hNorm, hVoided] at hExec
      dsimp only at hExec
      rw [if_pos hLast] at hExec
      rw [slotBeat_modSlotBeat] at hBeat
      rw [slotTrain_modSlotBeat] at hTrain
      obtain ⟨f, hf, hCommitBeat, hCommitTrain, hCommitOthers, hSteps⟩ := commitStep_frame
        (s := endsPhaseU k r (modSlotBeat k (fun b => { b with phase := 4 }) s)) r (by rw [secureOf, hSecures]; exact hChecking)
        (by rw [hTrain]; exact hState)
      refine ⟨_, hExec, ?_, ?_, ?_, ?_, ?_, ?_, ?_, sameBut_of_exec (by simp) hExec⟩
      · rw [hCommitBeat, hBeat]
      · rw [hCommitTrain, hf.lastCommitted, hTrain]
      · rw [hCommitTrain, hf.step, hTrain]
      · rw [hCommitTrain, hf.attempt]
      · rw [hCommitTrain, hf.committed, hTrain]
      · rw [hSteps, hLed]
        rfl
      · intro j hj
        rw [hCommitOthers j hj, hOthers j hj, slotOf_modSlotBeat_other _ _ hj]
    case ends =>
      intro hLate hLast
      have hExec := hClose hLate
      obtain ⟨hBeat, ⟨u, hTrain⟩, hOthers, hFrame, -, -⟩ := hEnds
      rw [closeTraining_eq r hLoss hNorm, hVoided] at hExec
      dsimp only at hExec
      rw [if_neg hLast] at hExec
      rw [slotBeat_modSlotBeat] at hBeat
      rw [slotTrain_modSlotBeat] at hTrain
      refine ⟨_, hExec, hBeat, by rw [hTrain], fun j hj => ?_, ?_⟩
      · rw [hOthers j hj, slotOf_modSlotBeat_other _ _ hj]
      · exact SameBut.trans (modSlotBeat_keeps k _ (.refl (· ∉ [Part.slots]) s) (by simp)).sameBut hFrame
  · intro k v r s hRoute hReplay hState hDue hPhase hOpened hAlive
    obtain ⟨hStarted, hOthers⟩ := slotOf_setTrainState (k := k) (state := 1) (s := s) (by rw [hState]; simp)
    refine ⟨modSlotBeat k (fun b => { b with offset := 0, lag := 0 }) (setTrainState k 1 s), ?_, ?_, ?_, ?_, ?_⟩
    · show execReplayStart k s = _
      rw [execReplayStart, hRoute]
      dsimp only
      rw [hReplay]
      dsimp only
      rw [if_pos ⟨hState, hDue, hPhase, hOpened, hAlive⟩]
      rfl
    · rw [slotTrain_modSlotBeat, hStarted]
    · rw [slotBeat_modSlotBeat, hStarted]
    · intro j hj
      rw [slotOf_modSlotBeat_other _ _ hj, hOthers j hj]
    · exact (modSlotBeat_keeps _ _ (setTrainState_keeps k 1 (.refl (· ∉ [Part.slots, .out, .host]) s) (by simp) (by simp) (by simp))
        (by simp)).sameBut
end

section
/-! Entries of the dictionary read, write, stage or wait (R74-R76, R91, R94, R96). -/

namespace Sys2Proof.Machine

/-! What an entry answers, from what its result is. -/

/-- A read that is answered leaves no record. -/
theorem ask_of_read {who : Who} {a : Ask} {d : Bytes} {s t : State} (hReach : reaches s who = true) (hReads : a.writes = false)
    (hRoom : d.length ≤ 1024) (hResult : entryResult who a s = (stOk, d, t)) : ask who a s = .next { t with resp := ⟨stOk, d⟩ } := by
  have hFits : ¬1024 < d.length := by omega
  simp [ask, done, hReach, runEntry, hResult, hReads, hFits, stOk]

theorem ask_of_write {who : Who} {a : Ask} {s t : State} (hReach : reaches s who = true) (hWrites : a.writes = true)
    (hResult : entryResult who a s = (stOk, [], t)) : ask who a s = .next (answered who a s t) := by
  simp [ask, done, hReach, runEntry, hResult, hWrites, answered]

theorem entryResult_read {who : Who} {index sub length : Nat} {flag : Bool} {s : State}
    (h : entryStatus s who ⟨1, index, sub, 0, length, [], flag⟩ = stOk) (hServed : notServed s index = false) :
    entryResult who ⟨1, index, sub, 0, length, [], flag⟩ s = readEntry who ⟨1, index, sub, 0, length, [], flag⟩ s := by
  unfold entryResult
  rw [h]
  simp [stOk, hServed]

theorem entryResult_readSegment {who : Who} {index sub offset length : Nat} {flag : Bool} {s : State}
    (h : entryStatus s who ⟨3, index, sub, offset, length, [], flag⟩ = stOk) (hServed : notServed s index = false) :
    entryResult who ⟨3, index, sub, offset, length, [], flag⟩ s = readSegment who ⟨3, index, sub, offset, length, [], flag⟩ s := by
  unfold entryResult
  rw [h]
  simp [stOk, hServed]

/-- The two operations that write a segment of a domain. -/
theorem entryResult_writeSegment {who : Who} {a : Ask} {s : State} (hOp : a.op = 4 ∨ a.op = 5) (h : entryStatus s who a = stOk) :
    entryResult who a s = writeSegment who a s := by
  obtain ⟨op, index, sub, offset, length, data, staged⟩ := a
  unfold entryResult
  rw [h]
  obtain rfl | rfl : op = 4 ∨ op = 5 := hOp <;> rfl

theorem writeWhole_of_effect {who : Who} {a : Ask} {b : Bytes} {s t : State} (hLegal : valueLegal (rowOf a.index a.sub) b = true)
    (hServed : notServed s a.index = false) (hEffect : writeEffect who a.index a.sub b s = (stOk, t)) :
    writeWhole who a b s = (stOk, [], t) := by simp [writeWhole, hLegal, hServed, hEffect]

/-! A value is stored (R74, R75, R81). -/

@[simp] theorem journalled_dict (s : State) : (journalled s).dict = s.dict :=
  (journalled_keeps (.refl (· = .dict) s) (by simp)).parts .dict rfl

/-- What the dictionary holds once a value is stored: the value, and in the store that of a P object. -/
theorem storeValue_dict (index sub : Nat) (v : Bytes) (s : State) : (storeValue index sub v s).dict =
    { s.dict with
      objs := kput s.dict.objs (objKey index sub) v
      store := if (rowOf index sub).persist then kput s.dict.store (objKey index sub) v else s.dict.store } := by
  unfold storeValue
  dsimp only
  split
  · rw [journalled_dict]
    rfl
  · rfl

theorem storeValue_flash {index sub : Nat} (h : (rowOf index sub).persist = false) (v : Bytes) (s : State) :
    (storeValue index sub v s).flash = s.flash := by
  unfold storeValue
  dsimp only
  rw [if_neg (by simp [h])]
  rfl

theorem writeEffect_of_stored {index sub : Nat} {b : Bytes} {s : State} (who : Who)
    (hAccess : (rowOf index sub).access = .rw ∨ (rowOf index sub).access = .rwf) (hWindow : index ≠ 0x1410) (hRelease : index ≠ 0x1420)
    (hStatus : chapterStatus s index sub b = stOk) : writeEffect who index sub b s = (stOk, storeValue index sub b s) := by
  have hValue : writeValue index sub b s = (stOk, storeValue index sub b s) := by
    unfold writeValue
    rw [hStatus]
    rfl
  unfold writeEffect
  rw [if_neg hWindow, if_neg hRelease, ← hValue]
  obtain h | h := hAccess <;> rw [h]

/-! A value is staged (R76). -/

theorem stageValue_of_room {index sub : Nat} {s : State} (b : Bytes) (hOpen : s.dict.staging.state = 1)
    (hRoom : (kget s.dict.staging.values (objKey index sub)).isSome = true ∨ s.dict.staging.values.length < 1024)
    (hType : (rowOf index sub).ty ≠ .domain) : stageValue index sub b s = (stOk,
      { s with dict := { s.dict with staging := { s.dict.staging with values := kput s.dict.staging.values (objKey index sub) b } } }) := by
  have hFits : ((kget s.dict.staging.values (objKey index sub)).isNone && decide (1024 ≤ s.dict.staging.values.length)) = false := by
    obtain h | h := hRoom
    · rw [← Option.not_isSome, h]; rfl
    · simp [h]
  have hType' : ((rowOf index sub).ty == .domain) = false := beq_eq_false_iff_ne.mpr hType
  have hState : (s.dict.staging.state != 1) = false := by simp [hOpen]
  unfold stageValue
  dsimp only
  rw [hType', hState, hFits]
  simp [checked, firstStatus, stOk, modDict]

theorem writeEffect_of_staged {index sub : Nat} {b : Bytes} {s : State} (who : Who) (hAccess : (rowOf index sub).access = .rwe)
    (hWindow : index ≠ 0x1410) (hRelease : index ≠ 0x1420) (hStatus : chapterStatus s index sub b = stOk) :
    writeEffect who index sub b s = stageValue index sub b s := by
  have hStage : stageWrite index sub b s = stageValue index sub b s := by
    unfold stageWrite
    rw [hStatus]
    rfl
  unfold writeEffect
  rw [if_neg hWindow, if_neg hRelease, hAccess, ← hStage]

/-! A segment of a domain (R91). -/

/-- A segment that continues its domain within the limits either waits for the last or is the last. -/
theorem writeSegment_of_assembled {who : Who} {a : Ask} {v : Bytes} {s : State} (h : assembled s who a = some v)
    (hLength : v.length ≤ domainLimit (rowOf a.index a.sub)) (hLast : a.op = 5 → lengthLegal (rowOf a.index a.sub) v = true)
    (hImage : a.index ≠ 0x1220) (hOpen : a.op = 4 → (rowOf a.index a.sub).access = .rwe → s.dict.staging.state = 1) :
    writeSegment who a s = if a.op = 4 then
      (stOk, [], modDict (fun d => { d with partials := d.partials ++ [⟨who, objKey a.index a.sub, v⟩] }) (begun who a s))
      else writeWhole who a v (begun who a s) := by
  have hLegal : ¬(domainLimit (rowOf a.index a.sub) < v.length ∨ (a.op = 5 ∧ lengthLegal (rowOf a.index a.sub) v = false)) := by
    rintro (hLong | ⟨hOp, hNot⟩)
    · omega
    · rw [hLast hOp] at hNot
      cases hNot
  have hSet : ¬((rowOf a.index a.sub).access = .rwe ∧ (begun who a s).dict.staging.state ≠ 1 ∧ a.op = 4) :=
    fun ⟨hAccess, hState, hOp⟩ => hState (hOpen hOp hAccess)
  have hNoImage : ¬(a.index = 0x1220 ∧ a.offset = 0) := fun h => hImage h.1
  unfold writeSegment
  rw [h]
  dsimp only
  rw [if_neg hLegal]
  rw [begun] at hSet ⊢
  rw [if_neg hSet, if_neg hNoImage]

end Sys2Proof.Machine

open Sys2Proof Sys2Proof.Machine

/-- Settles O13: what each entry of a request reads, stores, stages or leaves waiting. -/
theorem entriesReadWriteOrStage : Obligations.EntriesReadWriteOrStage := by
  unfold Obligations.EntriesReadWriteOrStage
  refine ⟨?read, ?readSegment, ?write, ?stage, ?segment, ?last, ?refused⟩
  case read =>
    intro who index sub length flag s hPasses hChallenge hRefused
    refine fun hRoom => ask_of_read hPasses.reached rfl hRoom ?_
    rw [entryResult_read hPasses.status hPasses.served]
    simp [readEntry, hChallenge, hRefused]
  case readSegment =>
    intro who index sub offset length flag s hPasses
    refine fun hOffset hRoom => ask_of_read hPasses.reached rfl hRoom ?_
    rw [entryResult_readSegment hPasses.status hPasses.served]
    exact if_neg (Nat.not_lt.mpr hOffset)
  case write =>
    intro who index sub b s hPasses hWindow hRelease hAccess hStatus
    refine ⟨storeValue index sub b s, askWrite_of_passes hPasses (writeEffect_of_stored who hAccess hWindow hRelease hStatus),
      ?_, ?_, ?_, ?_, ?_, fun hNot => storeValue_flash hNot b s, ?_⟩
    · simp [storeValue_dict]
    · simp [storeValue_dict]
    · intro k hk
      simp [storeValue_dict, kget_kput_other _ _ hk.symm]
    · intro hPersists
      simp [storeValue_dict, hPersists]
    · rintro k (hk | hNot)
      · rw [storeValue_dict]
        split
        · exact kget_kput_other _ _ hk.symm
        · rfl
      · simp [storeValue_dict, hNot]
    · exact (storeValue_keeps index sub b (.refl (· ∉ [Part.dict, .flash]) s) (by simp) (by simp)).sameBut
  case stage =>
    intro who index sub b s hPasses hAccess hWindow hRelease hStatus hOpen hRoom hType
    refine askWrite_of_passes hPasses ?_
    rw [writeEffect_of_staged who hAccess hWindow hRelease hStatus, stageValue_of_room b hOpen hRoom hType]
  case segment =>
    intro who index sub offset b v s a hPasses hAssembled hLength hImage hOpen others
    refine ask_of_write hPasses.reached rfl ?_
    rw [entryResult_writeSegment (.inl rfl) hPasses.status,
      writeSegment_of_assembled hAssembled hLength (fun h => absurd (show 4 = 5 from h) (by decide)) hImage (fun _ => hOpen)]
    rfl
  case last =>
    intro who index sub offset b v s a hReach hStatus hServed hAssembled hLegal hLength hLengthLegal hAccess hWindow hRelease hImage hChapter
    refine ⟨storeValue index sub v (begun who a s), ask_of_write hReach rfl ?_, ?_, ?_⟩
    · rw [entryResult_writeSegment (.inr rfl) hStatus,
        writeSegment_of_assembled hAssembled hLength (fun _ => hLengthLegal) hImage (fun h => absurd (show 5 = 4 from h) (by decide)),
        if_neg (show ¬5 = 4 by decide)]
      exact writeWhole_of_effect hLegal hServed (writeEffect_of_stored who (.inl hAccess) hWindow hRelease hChapter)
    · simp [storeValue_dict]
    · rw [storeValue_dict]
      rfl
  case refused =>
    intro who index sub b s hReach hStatus
    show ask who (writeOf index sub b) s = _
    rw [ask, if_pos hReach, done, runEntry_of_refused hStatus]
    rfl
end

section
/-! Sessions and expert level: opened by proof, ended by a close, an idle time or a lock (R77-R79, R88). -/

namespace Sys2Proof.Machine

/-! A domain written in a single last segment, and commands. -/

theorem length_padTo (n : Nat) (b : Bytes) : (padTo n b).length = n := by
  simp only [padTo, zeroBytes, List.length_append, List.length_take, List.length_replicate]
  omega

theorem checked_of_ok {cs : List (Bool × Nat)} (h : firstStatus cs = stOk) (s : State) (f : State → State) :
    checked cs s f = (stOk, f s) := by
  unfold checked
  rw [h]
  rfl

theorem checked_of_status {cs : List (Bool × Nat)} {st : Nat} (h : firstStatus cs = st) (hNot : st ≠ stOk) (s : State)
    (f : State → State) : checked cs s f = (st, s) := by
  unfold checked
  rw [h]
  split
  case h_1 => exact absurd rfl hNot
  case h_2 => rfl

/-- What a write that a chapter's command answers for does. -/
theorem writeEffect_of_command {index sub : Nat} (who : Who) (b : Bytes) (s : State) (hAccess : (rowOf index sub).access = .wo)
    (hWindow : index ≠ 0x1410) (hRelease : index ≠ 0x1420) :
    writeEffect who index sub b s = commandEffect who index sub b s := by
  unfold writeEffect
  rw [if_neg hWindow, if_neg hRelease, hAccess]

/-- A domain that is written in one last segment takes effect over what a write of it had begun. -/
theorem askDomain_of_passes {who : Who} {index sub : Nat} {b : Bytes} {s t : State} (h : Passes who (lastOf index sub b) s)
    (hImage : index ≠ 0x1220) (hEffect : writeEffect who index sub b (begun who (lastOf index sub b) s) = (stOk, t)) :
    askDomain who index sub b s = .next (answered who (lastOf index sub b) s t) := by
  obtain ⟨hLength, hLegal⟩ := h.fits rfl
  refine ask_of_write (a := lastOf index sub b) h.reached rfl ?_
  rw [entryResult_writeSegment (.inr rfl) h.status,
    writeSegment_of_assembled (v := b) rfl hLength (fun _ => hLegal) hImage (fun h => absurd (show 5 = 4 from h) (by decide)),
    if_neg (show ¬(lastOf index sub b).op = 4 from by simp [lastOf])]
  exact writeWhole_of_effect (h.legal rfl) h.served hEffect

/-! Sessions (R88). -/

theorem openStatus_of_proven {s : State} {client : Nat} {key : Bytes} (hRoom : s.dict.sessions.length < 16)
    (hKey : sha256 key = stored s 0x1286 client) (hClient : client < 64) (hEnabled : stored s 0x2A01 client = [1]) :
    openStatus s client key = stOk := by
  have hFull : ¬16 ≤ s.dict.sessions.length := by omega
  have hRange : ¬63 < client := by omega
  simp [openStatus, firstStatus, hFull, hKey, hRange, hEnabled]

/-- The challenge of a session: a fresh nonce. -/
def sessionNonce (s : State) : Bytes := padTo 32 (Config.random (drawn s) 32)

theorem exec_sessionOpen {s : State} {transport client : Nat} {key : Bytes} (conn : Nat) (hRuns : firmwareRuns s = true)
    (hTransport : transport = 1 ∨ transport = 2) (hStatus : openStatus s client key = stOk) :
    exec (.sessionOpen conn transport client key) s = .next
      { emit (.frame conn (frameHeader 3 0 0 0 32 client ++ sessionNonce s)) (modDict (fun d => { d with
          openings := d.openings.filter (fun o => o.conn != conn) ++ [⟨conn, transport, client, key, sessionNonce s⟩] }) (draw s)) with
        resp := ⟨stOk, sessionNonce s⟩ } := by
  have hGuard : ¬(firmwareRuns s = false ∨ (transport ≠ 1 ∧ transport ≠ 2)) := by
    rintro (h | ⟨h1, h2⟩)
    · rw [hRuns] at h
      cases h
    · exact hTransport.elim h1 h2
  show execSessionOpen conn transport client key s = _
  rw [execSessionOpen, if_neg hGuard, hStatus]
  rfl

/-- The session that a proof opens: a fresh identifier and a fresh key. -/
def openedSession (conn : Nat) (o : Opening) (s : State) : Session :=
  ⟨freshId (s.dict.sessions.map (·.id)) 18 (leNat (padTo 4 (Config.random (drawn s) 4))), conn, o.transport, o.client,
    padTo 32 (Config.random (drawn s + 1) 32), o.owner, none, [], s.clock⟩

/-- The accept: the session, and its key encrypted to the requester's key. -/
def acceptBody (conn : Nat) (o : Opening) (s : State) : Bytes :=
  le 4 (openedSession conn o s).id ++
    oaepEncrypt o.owner (openedSession conn o s).key (padTo 32 (Config.random (drawn s + 2) 32))

theorem exec_sessionProof {conn : Nat} {signature : Bytes} {o : Opening} {s : State} (hRuns : firmwareRuns s = true)
    (hOpening : s.dict.openings.find? (fun o => o.conn == conn) = some o) (hRoom : s.dict.sessions.length < 16)
    (hProof : pssVerify o.owner (o.nonce ++ le 1 o.client ++ le 1 o.transport) signature = true)
    (hEnabled : stored s 0x2A01 o.client = [1]) :
    exec (.sessionProof conn signature) s = .next
      { emit (.frame conn (frameHeader 5 (openedSession conn o s).id 0 0 (acceptBody conn o s).length o.client ++ acceptBody conn o s))
          (modDict (fun d => { d with sessions := d.sessions ++ [openedSession conn o s] }) (draw (draw (draw
            (modDict (fun d => { d with openings := d.openings.filter (fun x => x.conn != conn) }) s))))) with
        resp := ⟨stOk, acceptBody conn o s⟩ } := by
  generalize hu : modDict (fun d => { d with openings := d.openings.filter (fun x => x.conn != conn) }) s = u
  have hSessions : u.dict.sessions = s.dict.sessions := by rw [← hu]; rfl
  have hValue (i k : Nat) : stored u i k = stored s i k := by rw [← hu]; rfl
  have hFull : ¬16 ≤ s.dict.sessions.length := by omega
  have hStatus : firstStatus [(decide (16 ≤ u.dict.sessions.length), stBusy),
      (!pssVerify o.owner (o.nonce ++ le 1 o.client ++ le 1 o.transport) signature, stAuth),
      (stored u 0x2A01 o.client != [1], stAccess)] = stOk := by
    rw [hSessions, hValue, hProof]
    simp [firstStatus, hFull, hEnabled]
  show execSessionProof conn signature s = _
  rw [execSessionProof, if_neg (by simp [hRuns]), hOpening]
  dsimp only
  rw [hu, hStatus, if_neg (show ¬stOk ≠ 0 from not_not_intro rfl), ← hu]
  rfl

theorem endSession_dict (id : Nat) (s : State) : (endSession id s).dict.sessions = s.dict.sessions.filter (fun x => x.id != id) ∧
    (∀ w, w ∈ (endSession id s).dict.unlocked ↔ w ∈ s.dict.unlocked ∧ ¬((w.transport = 1 ∨ w.transport = 2) ∧ w.session = id)) ∧
    (endSession id s).dict.objs = s.dict.objs := by
  refine ⟨rfl, fun w => ?_, rfl⟩
  simp only [endSession, modDict, List.mem_filter, Bool.not_eq_true', Bool.and_eq_false_iff, Bool.or_eq_false_iff, beq_eq_false_iff_ne,
    Classical.not_and_iff_not_or_not, not_or, ne_eq]

theorem endSession_sameBut (id : Nat) (s : State) : SameBut [.dict] s (endSession id s) :=
  (endSession_keeps id (.refl (· ∉ [Part.dict]) s) (by simp)).sameBut

/-! Expert level (R77-R79). -/

/-- A response to a challenge that still lives, signed by the client's own enrolled key, unlocks the requester. -/
theorem unlockEffect_of_signed {who : Who} {b c : Bytes} {issued : Nat} {s : State}
    (hChallenge : kget s.dict.challenges who.client = some (c, issued)) (hAge : s.clock ≤ issued + 10 * 1700000000)
    (hKey : sha256 (b.take 388) = stored s 0x1286 who.client) (hEnrolled : stored s 0x1287 who.client = [1])
    (hOwner : (who.transport = 1 ∨ who.transport = 2) → ∃ x ∈ s.dict.sessions, x.id = who.session ∧ x.owner = b.take 388)
    (hSigned : pssVerify (b.take 388) (c ++ le 1 who.client) (b.drop 388) = true) (hLocked : who ∉ s.dict.unlocked) :
    unlockEffect who b s = (stOk, { s with dict := { s.dict with
      challenges := kdel s.dict.challenges who.client, unlocked := s.dict.unlocked ++ [who] } }) := by
  have hSame : (who.transport != 1 && who.transport != 2 ||
      s.dict.sessions.any (fun x => x.id == who.session && x.owner == b.take 388)) = true := by
    by_cases hSession : who.transport = 1 ∨ who.transport = 2
    · obtain ⟨x, hx, hId, hOwn⟩ := hOwner hSession
      have hAny : s.dict.sessions.any (fun x => x.id == who.session && x.owner == b.take 388) = true :=
        List.any_eq_true.mpr ⟨x, hx, by simp [hId, hOwn]⟩
      rw [hAny, Bool.or_true]
    · obtain ⟨h1, h2⟩ := not_or.mp hSession
      simp [h1, h2]
  have hNamed : (sha256 (b.take 388) == stored s 0x1286 who.client && stored s 0x1287 who.client == [1]) = true := by
    simp [hKey, hEnrolled]
  have hLives : decide (s.clock ≤ issued + challengeCycles) = true := decide_eq_true hAge
  unfold unlockEffect
  rw [hChallenge]
  dsimp only
  rw [hNamed, hSame, hSigned, hLives]
  simp [modDict, hLocked]

theorem rowOf_unlock_access : (rowOf 0x1282 0).access = .wo := by decide +kernel
theorem rowOf_lock_access : (rowOf 0x1284 0).access = .wo := by decide +kernel

/-- The challenge that a read of 1281.00 draws. -/
theorem challengeEffect_eq (who : Who) (s : State) : challengeEffect who s = (sessionNonce s,
    { draw s with dict := { s.dict with challenges := kput s.dict.challenges who.client (sessionNonce s, s.clock) } }) := rfl

end Sys2Proof.Machine

open Sys2Proof Sys2Proof.Machine

/-- Settles O14: what each frame and each write of a session or of expert level leaves. -/
theorem sessionsAndExpertLevelAreUnlockedByProof : Obligations.SessionsAndExpertLevelAreUnlockedByProof := by
  unfold Obligations.SessionsAndExpertLevelAreUnlockedByProof
  refine ⟨⟨?opened, ?proven, ?closed, ?idle⟩, ?challenge, ?unlocked, ?locked⟩
  case opened =>
    intro conn transport client key s hRuns hTransport hRoom hKey hClient hEnabled
    have hExec := exec_sessionOpen conn hRuns hTransport (openStatus_of_proven hRoom hKey hClient hEnabled)
    exact ⟨sessionNonce s, _, hExec, length_padTo 32 _, rfl, rfl, (sameBut_of_exec (by simp) hExec).mono (by simp [touches])⟩
  case proven =>
    intro conn signature o s hRuns hOpening hRoom hProof hEnabled
    have hExec := exec_sessionProof hRuns hOpening hRoom hProof hEnabled
    exact ⟨openedSession conn o s, padTo 32 (Config.random (drawn s + 2) 32), _, hExec, rfl, rfl, rfl, rfl, rfl, length_padTo 32 _, rfl,
      rfl, rfl, (sameBut_of_exec (by simp) hExec).mono (by simp [touches])⟩
  case closed =>
    intro id s hRuns
    have hExec : exec (.sessionClose id) s = .next (endSession id s) := congrArg done (if_pos hRuns)
    obtain ⟨hSessions, hUnlocked, hObjs⟩ := endSession_dict id s
    exact ⟨_, hExec, hSessions, hUnlocked, hObjs, endSession_sameBut id s⟩
  case idle =>
    intro x s hRuns hOpen hIdle
    have hExec : exec (.sessionIdleTimeout x.id) s = .next (endSession x.id s) :=
      congrArg done (if_pos ⟨hRuns, List.any_eq_true.mpr ⟨x, hOpen, by simp [idleCycles, hIdle]⟩⟩)
    obtain ⟨hSessions, hUnlocked, hObjs⟩ := endSession_dict x.id s
    exact ⟨_, hExec, hSessions, hUnlocked, hObjs, endSession_sameBut x.id s⟩
  case challenge =>
    intro who s hPasses
    have hRead : entryResult who (readOf 0x1281 0) s = (stOk, sessionNonce s,
        { draw s with dict := { s.dict with challenges := kput s.dict.challenges who.client (sessionNonce s, s.clock) } }) := by
      rw [readOf, entryResult_read hPasses.status hPasses.served]
      rfl
    have hLength : (sessionNonce s).length = 32 := length_padTo 32 _
    have hExec : exec (.expertChallenge who) s = _ := ask_of_read hPasses.reached rfl (by omega) hRead
    exact ⟨sessionNonce s, _, hExec, hLength, rfl, rfl,
      (draw_keeps (.refl (· ∉ [Part.dict, .resp, .fresh]) s) (by simp)).upd (k_dict := .inr (by simp)) (k_resp := .inr (by simp))
        |>.sameBut⟩
  case unlocked =>
    intro who b c issued s hPasses hChallenge hAge hKey hEnrolled hOwner hSigned hLocked
    refine askDomain_of_passes hPasses (by decide) ?_
    rw [writeEffect_of_command who b _ rowOf_unlock_access (by decide) (by decide)]
    exact unlockEffect_of_signed (s := begun who (lastOf 0x1282 0 b) s) hChallenge hAge hKey hEnrolled hOwner hSigned hLocked
  case locked =>
    intro who b s hPasses
    refine askWrite_of_passes hPasses ?_
    rw [writeEffect_of_command who b _ rowOf_lock_access (by decide) (by decide)]
    rfl
end

section
/-! Staging sets and repair sets: opened, closed, discarded and in force (R115, R116, R402, R403). -/

namespace Sys2Proof.Machine

/-! The row of an object that passes its checks. -/

theorem objRow_isSome_of_entryStatus {s : State} {who : Who} {a : Ask} (h : entryStatus s who a = stOk) (hVendor : vendorIndex a.index = false) :
    (objRow a.index a.sub).isSome = true := by
  refine Option.isSome_iff_ne_none.mpr (fun hNone => ?_)
  have hNoRow : (objRow a.index a.sub).isNone = true := by rw [hNone]; rfl
  simp only [entryStatus, firstStatus, hNoRow, hVendor] at h
  split at h
  · cases h
  · split at h
    · cases h
    · split at h
      · cases h
      · cases h

/-- What every row of an index shares, the row of an object that passed its checks has. -/
theorem rowOf_shares {P : ObjRow → Prop} {s : State} {who : Who} {a : Ask} {index sub : Nat} (h : entryStatus s who a = stOk)
    (hIndex : a.index = index) (hSub : a.sub = sub) (hRows : ∀ r ∈ objRows, r.index = index → P r) (hVendor : vendorIndex index = false)
    (hNoCounter : ctrRow index = none) (hNoClient : ¬(0x4000 ≤ index ∧ index ≤ 0x43FF)) : P (rowOf index sub) := by
  subst hIndex hSub
  obtain ⟨r, hRow⟩ := Option.isSome_iff_exists.mp (objRow_isSome_of_entryStatus h hVendor)
  rw [rowOf, hRow]
  exact objRow_shares hRows hNoCounter hNoClient hRow

/-! The writes of 1501.00 (R402). -/

theorem rowOf_staging_access : (rowOf 0x1501 0).access = .wo := by decide +kernel

theorem writeEffect_staging (who : Who) (v : Byte) (s : State) : writeEffect who 0x1501 0 [v] s = stagingEffect (leNat [v]) s :=
  writeEffect_of_command who [v] s rowOf_staging_access (by decide) (by decide)

theorem stagingEffect_open {s : State} (h : s.dict.staging.state = 0) :
    stagingEffect 1 s = (stOk, { s with dict := { s.dict with staging := ⟨1, [], 0⟩ } }) :=
  checked_of_ok (by simp [firstStatus, h]) _ _

theorem stagingEffect_discard {s : State}
    (h : s.dict.staging.state = 1 ∨ (s.dict.staging.state = 2 ∧ s.beat.count + 1024 ≤ s.dict.staging.commit)) :
    stagingEffect 3 s = (stOk, { s with dict := { s.dict with staging := ⟨0, [], 0⟩ } }) := by
  refine checked_of_ok ?_ _ _
  obtain hOpen | ⟨hClosed, hEarly⟩ := h
  · simp [firstStatus, hOpen]
  · have hLate : ¬s.dict.staging.commit < s.beat.count + 1024 := by omega
    simp [firstStatus, hClosed, hLate]

/-- The state in which the set is closed, before the refresh list is armed. -/
def setClosed (s : State) : State :=
  journalled (modDict (fun d => { d with staging := { d.staging with state := 2, commit := leNat (stored s 0x1502 0) } }) s)

theorem stagingEffect_close {s : State} (hOpen : s.dict.staging.state = 1) (hAhead : s.beat.count + 4096 ≤ leNat (stored s 0x1502 0))
    (hRefused : stagedRefused s = false) (hDigest : configDigest (afterCommit s) = stored s 0x1503 0) :
    stagingEffect 2 s = (stOk, armRefresh ((staged s 0x2B10 0).getD []) (setClosed s)) := by
  have hLate : ¬leNat (stored s 0x1502 0) < s.beat.count + 4096 := by omega
  have hChecks : firstStatus [(s.dict.staging.state != 1, stState), (decide (leNat (stored s 0x1502 0) < s.beat.count + 4096), stEpoch),
      (stagedRefused s, stState), (configDigest (afterCommit s) != stored s 0x1503 0, stDigest)] = stOk := by
    simp [firstStatus, hOpen, hLate, hRefused, hDigest]
  unfold stagingEffect
  dsimp only
  rw [checked_of_ok hChecks]
  rfl

theorem setClosed_keeps (v : Bytes) (s : State) {M : Part → Prop} (hDict : ¬M .dict) (hFlash : ¬M .flash) (hServes : ¬M .serves)
    (hRefresh : ¬M .refresh) : Keeps M s (armRefresh v (setClosed s)) :=
  armRefresh_keeps _ (journalled_keeps (modDict_keeps _ (.refl _ s) hDict) hFlash) hServes hRefresh

theorem armRefresh_dict (v : Bytes) (s : State) : (armRefresh v s).dict = s.dict :=
  (armRefresh_keeps v (.refl (· = .dict) s) (by simp) (by simp)).parts .dict rfl

/-! A substitution and a return are staged (R115). -/

theorem rows_substitution : ∀ r ∈ objRows, r.index = 0x2004 → r.access = .rwe ∧ r.ty ≠ .domain := by decide +kernel

theorem substitution_staged {who : Who} {array : Nat} {b : Bytes} {s : State} (h : Passes who (writeOf 0x2004 array b) s)
    (hOpen : s.dict.staging.state = 1) (hRoom : s.dict.staging.values.length < 1024) (hStatus : substitutionStatus s array (leNat b) = stOk) :
    askWrite who 0x2004 array b s = .next (answered who (writeOf 0x2004 array b) s { s with dict := { s.dict with
      staging := { s.dict.staging with values := kput s.dict.staging.values (objKey 0x2004 array) b } } }) := by
  obtain ⟨hAccess, hType⟩ := rowOf_shares (P := fun r => r.access = .rwe ∧ r.ty ≠ .domain) (index := 0x2004) (sub := array) h.status rfl rfl rows_substitution (by decide)
    (by decide +kernel) (by decide)
  refine askWrite_of_passes h ?_
  rw [writeEffect_of_staged who hAccess (by decide) (by decide) hStatus, stageValue_of_room b hOpen (.inr hRoom) hType]

/-! A substitution takes effect (R116). -/

theorem onSpare_congr {s t : State} (h : t.fab.states = s.fab.states) (a : Nat) : onSpare t a = onSpare s a := by simp only [onSpare, h]

theorem freshSite_fab (a : Nat) (s : State) : (freshSite a s).fab = s.fab :=
  (freshSite_keeps a (.refl (· = .fab) s) (by simp) (by simp) (by simp) (by simp)).parts .fab rfl

/-- The fabric with array `a` where it was, or on its spare. -/
theorem substitute_fab (a : Nat) (s : State) : (substitute a s).fab =
    if onSpare s a = true ∨ siteFailed s (256 + clusterOf a) = true then s.fab else { s.fab with states := kput s.fab.states a 1 } := by
  unfold substitute
  split
  case isTrue h => simp [h]
  case isFalse h =>
    split
    case isTrue hFailed => simp [hFailed]
    case isFalse hSite =>
      rw [if_neg (by simp [h, hSite])]
      simp [freshSite_fab, modFab]

theorem substitute_failedSites (a : Nat) (s : State) : (substitute a s).fab.failedSites = s.fab.failedSites := by
  rw [substitute_fab]
  split <;> rfl

theorem substitute_repairs (a : Nat) (s : State) : (substitute a s).fab.repairs = s.fab.repairs := by
  rw [substitute_fab]
  split <;> rfl

theorem onSpare_substitute_other {a b : Nat} (h : a ≠ b) (s : State) : onSpare (substitute a s) b = onSpare s b := by
  rw [onSpare, substitute_fab, onSpare]
  split
  · rfl
  · rw [kgetD_kput_other _ _ _ h]
    rfl

theorem onSpare_substitute_same {a : Nat} {s : State} (h : onSpare s a = true ∨ siteFailed s (256 + clusterOf a) = false) :
    onSpare (substitute a s) a = true := by
  rw [onSpare, substitute_fab]
  split
  case isTrue hStays =>
    obtain hOn | hSite := h
    · exact hOn
    · rw [hSite] at hStays
      exact hStays.elim id (fun hFailed => absurd hFailed (by simp))
  case isFalse => simp

theorem onSpare_substitute_of_onSpare {b : Nat} {s : State} (a : Nat) (h : onSpare s b = true) : onSpare (substitute a s) b = true := by
  by_cases hSame : a = b
  · rw [hSame]
    exact onSpare_substitute_same (.inl h)
  · rw [onSpare_substitute_other hSame, h]

/-- A repair set moves every array of it whose spare serves, and no other. -/
theorem foldl_substitute (arrays : List Nat) (s : State) :
    (arrays.foldl (fun s a => substitute a s) s).fab.repairs = s.fab.repairs ∧
    (∀ a, a ∈ arrays ∧ siteFailed s (256 + clusterOf a) = false ∨ onSpare s a = true →
      onSpare (arrays.foldl (fun s a => substitute a s) s) a = true) ∧
    (∀ a, a ∉ arrays → onSpare (arrays.foldl (fun s a => substitute a s) s) a = onSpare s a) := by
  induction arrays generalizing s with
  | nil => exact ⟨rfl, fun a h => h.elim (fun h => absurd h.1 (by simp)) id, fun _ _ => rfl⟩
  | cons x xs ih =>
    obtain ⟨hRepairs, hMoved, hOthers⟩ := ih (substitute x s)
    have hSite (site : Nat) : siteFailed (substitute x s) site = siteFailed s site := by simp only [siteFailed, substitute_failedSites]
    refine ⟨hRepairs.trans (substitute_repairs x s), fun a h => hMoved a ?_, fun a h => ?_⟩
    · obtain ⟨hMem, hServes⟩ | hOn := h
      · obtain rfl | hTail := List.mem_cons.mp hMem
        · exact .inr (onSpare_substitute_same (.inr hServes))
        · exact .inl ⟨hTail, (hSite _).trans hServes⟩
      · exact .inr (onSpare_substitute_of_onSpare x hOn)
    · obtain ⟨hNe, hTail⟩ := not_or.mp (fun hMem => h (List.mem_cons.mpr hMem))
      exact (hOthers a hTail).trans (onSpare_substitute_other (Ne.symm hNe) s)

/-! The commit of a closed set (R403). -/

/-- The dictionary with a value in force. -/
theorem putObject_dict (index sub : Nat) (v : Bytes) (s : State) : (putObject index sub v s).dict = { s.dict with
    objs := kput s.dict.objs (objKey index sub) v, inUse := kput s.dict.inUse (objKey index sub) v
    store := if (rowOf index sub).persist then kput s.dict.store (objKey index sub) v else s.dict.store } := by
  unfold putObject
  dsimp only
  split
  · rw [journalled_dict]
    rfl
  · rfl

/-- The values of a set come into force, one after another. -/
def putValues (values : KMap Bytes) (s : State) : State := values.foldl (fun s e => putObject (e.1 / 256) (e.1 % 256) e.2 s) s

theorem objKey_div_mod (key : Nat) : objKey (key / 256) (key % 256) = key := by
  unfold objKey
  omega

theorem putValues_keeps (values : KMap Bytes) (s : State) {M : Part → Prop} (hDict : ¬M .dict) (hFlash : ¬M .flash) :
    Keeps M s (putValues values s) := .foldl (fun _ _ h => putObject_keeps _ _ _ h hDict hFlash) values (.refl M s)

/-- An object that the set does not name keeps its values; the staging set and the last commit stand. -/
theorem putValues_dict (values : KMap Bytes) (s : State) :
    (putValues values s).dict.staging = s.dict.staging ∧ (putValues values s).dict.lastCommit = s.dict.lastCommit ∧
    (∀ key, (∀ e ∈ values, e.1 ≠ key) → kget (putValues values s).dict.objs key = kget s.dict.objs key ∧
      kget (putValues values s).dict.inUse key = kget s.dict.inUse key) := by
  induction values generalizing s with
  | nil => exact ⟨rfl, rfl, fun _ _ => ⟨rfl, rfl⟩⟩
  | cons e es ih =>
    obtain ⟨hStaging, hCommit, hValues⟩ := ih (putObject (e.1 / 256) (e.1 % 256) e.2 s)
    rw [putObject_dict] at hStaging hCommit hValues
    refine ⟨hStaging, hCommit, fun key hKey => ?_⟩
    obtain ⟨hObj, hUse⟩ := hValues key (fun x hx => hKey x (List.mem_cons_of_mem _ hx))
    have hOther : objKey (e.1 / 256) (e.1 % 256) ≠ key := by
      rw [objKey_div_mod]
      exact hKey e List.mem_cons_self
    exact ⟨hObj.trans (kget_kput_other _ _ hOther), hUse.trans (kget_kput_other _ _ hOther)⟩

/-- The value staged last for an object is the one in force. -/
theorem putValues_last {pre post : KMap Bytes} {key : Nat} {v : Bytes} (h : ∀ e ∈ post, e.1 ≠ key) (s : State) :
    kget (putValues (pre ++ (key, v) :: post) s).dict.objs key = some v ∧
      kget (putValues (pre ++ (key, v) :: post) s).dict.inUse key = some v := by
  have hSplit : putValues (pre ++ (key, v) :: post) s = putValues post (putObject (key / 256) (key % 256) v (putValues pre s)) := by
    simp [putValues]
  obtain ⟨-, -, hValues⟩ := putValues_dict post (putObject (key / 256) (key % 256) v (putValues pre s))
  obtain ⟨hObj, hUse⟩ := hValues key h
  rw [putObject_dict, objKey_div_mod] at hObj hUse
  rw [hSplit]
  exact ⟨hObj.trans (kget_kput_same _ _ _), hUse.trans (kget_kput_same _ _ _)⟩

/-- What a value does as it comes into force leaves the dictionary and the mark of a set left over, but for a takeover. -/
theorem commitValue_keeps_dict {key : Nat} (h : key / 256 ≠ 0x2984) (before : State) (v : Bytes) {s t : State}
    (hKeeps : Keeps (fun p => p = .dict ∨ p = .sys) s t) : Keeps (fun p => p = .dict ∨ p = .sys) s (commitValue before key v t) := by
  unfold commitValue
  dsimp only
  refine .ite (fun _ => .ite (fun _ => ?_) (fun _ => ?_)) (fun _ => .ite (fun _ => .ite (fun _ => ?_) (fun _ => hKeeps))
    (fun _ => .ite (fun _ => .ite (fun _ => hKeeps) (fun _ => ?_)) (fun _ => .ite (fun h' => absurd h' h) (fun _ => .ite (fun _ => ?_)
      (fun _ => hKeeps)))))
  · exact substitute_keeps _ hKeeps (by simp) (by simp) (by simp) (by simp) (by simp) (by simp) (by simp)
  · exact returnHome_keeps _ hKeeps (by simp) (by simp) (by simp) (by simp) (by simp)
  · exact takeMaster_keeps _ hKeeps (by simp)
  · exact keeperChanged_keeps hKeeps (by simp)
  · exact hKeeps.upd (k_refresh := .inr (by simp))

/-- The set is gone and its values in force, with what they do at once. -/
def setInForce (s : State) : State :=
  let t := modDict (fun d => { d with staging := ⟨0, [], 0⟩, lastCommit := s.beat.count }) (modSys (fun y => { y with lateSet := false }) s)
  s.dict.staging.values.foldl (fun t e => commitValue s e.1 e.2 t) (putValues s.dict.staging.values t)

/-- The digests are renewed, the beats take the new period, and the commit is told. -/
def commitTold (before s : State) : State :=
  let s := event evtEpochCommit nowhere [] (count 0x5020 0 1 (rePace before (renewDigests s)))
  let s := if before.sys.lateSet && decide (before.dict.staging.commit < before.beat.count) then
    event evtEpochLate nowhere [] (count 0x5022 0 1 s) else s
  signal 0 2 s

theorem exec_epochCommit {s : State} (h : epochNow s = true) : exec .epochCommit s = .next (commitTold s (setInForce s)) := by
  show execEpochCommit s = _
  have hGuard : ¬epochNow s = false := by simp [h]
  unfold execEpochCommit commitTold setInForce putValues
  dsimp only
  rw [if_neg hGuard, done]

/-- As the values of a set without takeovers come into force, they leave the dictionary. -/
theorem foldl_commitValue_keeps_dict (before : State) (values : KMap Bytes) (h : ∀ e ∈ values, e.1 / 256 ≠ 0x2984) {s t : State}
    (hKeeps : Keeps (fun p => p = .dict ∨ p = .sys) s t) :
    Keeps (fun p => p = .dict ∨ p = .sys) s (values.foldl (fun t e => commitValue before e.1 e.2 t) t) := by
  induction values generalizing t with
  | nil => exact hKeeps
  | cons e es ih =>
    exact ih (fun x hx => h x (List.mem_cons_of_mem _ hx)) (commitValue_keeps_dict (h e List.mem_cons_self) before e.2 hKeeps)

theorem setInForce_frame {s : State} (h : ∀ e ∈ s.dict.staging.values, e.1 / 256 ≠ 0x2984) :
    (setInForce s).sys.lateSet = false ∧ (setInForce s).dict = (putValues s.dict.staging.values
      (modDict (fun d => { d with staging := ⟨0, [], 0⟩, lastCommit := s.beat.count }) (modSys (fun y => { y with lateSet := false }) s))).dict := by
  unfold setInForce
  dsimp only
  generalize hu : modDict _ (modSys _ s) = u
  have hLate : u.sys.lateSet = false := by
    rw [← hu]
    rfl
  have hFold := foldl_commitValue_keeps_dict s s.dict.staging.values h (.refl _ (putValues s.dict.staging.values u))
  have hPut : (putValues s.dict.staging.values u).sys = u.sys :=
    (putValues_keeps s.dict.staging.values u (by simp) (by simp) (M := (· = .sys))).parts .sys rfl
  have hSys : (s.dict.staging.values.foldl (fun t e => commitValue s e.1 e.2 t) (putValues s.dict.staging.values u)).sys = _ :=
    hFold.parts .sys (.inr rfl)
  exact ⟨by rw [hSys, hPut, hLate], hFold.parts .dict (.inl rfl)⟩

/-- A new pace moves beats alone, whatever the state that stood before. -/
theorem rePace_keeps_parts {M : Part → Prop} {s t : State} (before : State) (h : Keeps M s t) (hBeat : ¬M .beat) (hSlots : ¬M .slots) :
    Keeps M s (rePace before t) := by
  unfold rePace
  refine .ite (fun _ => h) (fun _ => .foldl (fun _ _ hSlot => .ite (fun _ => ?_) (fun _ => hSlot)) _ (modBeat_keeps _ (fun _ hState => hState) h hBeat))
  exact modSlotBeat_keeps _ _ hSlot hSlots

theorem commitTold_frame (before s : State) : (commitTold before s).sys = s.sys ∧
    (commitTold before s).dict = { s.dict with digest := configDigest s.dict.objs, moduleDig := moduleDigest s.dict.objs } := by
  have hKeeps : Keeps (fun p => p = .dict ∨ p = .sys) (renewDigests s) (commitTold before s) := by
    have hPaced : Keeps (fun p => p = .dict ∨ p = .sys) (renewDigests s) (rePace before (renewDigests s)) :=
      rePace_keeps_parts before (.refl _ _) (by simp) (by simp)
    have hTold := event_keeps evtEpochCommit nowhere [] (count_keeps 0x5020 0 1 hPaced (by simp)) (by simp) (by simp)
    exact signal_keeps _ _ (.ite (fun _ => event_keeps _ _ _ (count_keeps _ _ _ hTold (by simp)) (by simp) (by simp)) (fun _ => hTold))
      (by simp) (by simp)
  exact ⟨hKeeps.parts .sys (.inr rfl), hKeeps.parts .dict (.inl rfl)⟩

theorem commitNow_iff (s : State) (commit : Nat) :
    commitNow s commit = true ↔ s.clock = s.beat.opened ∧ commit ≤ s.beat.count ∧ s.beat.before < commit := by
  simp [commitNow, and_assoc]

theorem epochNow_of_due {s : State} (hClosed : s.dict.staging.state = 2) (hRuns : firmwareRuns s = true) (hOpened : s.clock = s.beat.opened)
    (hDue : s.beat.before < s.dict.staging.commit ∧ s.dict.staging.commit ≤ s.beat.count ∨
      s.sys.lateSet = true ∧ s.beat.state ≠ 0 ∧ s.dict.staging.commit < s.beat.count) : epochNow s = true := by
  unfold epochNow
  obtain ⟨hBefore, hCount⟩ | ⟨hLate, hState, hPast⟩ := hDue
  · have hNow : commitNow s s.dict.staging.commit = true := (commitNow_iff s _).mpr ⟨hOpened, hCount, hBefore⟩
    simp [hClosed, hRuns, hNow]
  · simp [hClosed, hRuns, hLate, hState, hOpened, hPast]

end Sys2Proof.Machine

open Sys2Proof Sys2Proof.Machine

/-- Settles O16: the checks that a write of 1501.00 passes, what a substitution stages, and what each commit puts in force. -/
theorem stagingSetsCloseAndComeIntoForce : Obligations.StagingSetsCloseAndComeIntoForce := by
  unfold Obligations.StagingSetsCloseAndComeIntoForce
  refine ⟨⟨?opens, ?closes, ?discards, ?substitution, ?returned⟩, ?commit, ?repair⟩
  case opens =>
    intro who s hPasses hNone
    exact askWrite_of_passes hPasses ((writeEffect_staging who 1 s).trans (stagingEffect_open hNone))
  case closes =>
    intro who s hPasses hOpen hAhead hRefused hDigest
    refine ⟨_, askWrite_of_passes hPasses ((writeEffect_staging who 2 s).trans (stagingEffect_close hOpen hAhead hRefused hDigest)), ?_,
      (setClosed_keeps _ s (by simp) (by simp) (by simp) (by simp)).sameBut⟩
    rw [armRefresh_dict, setClosed, journalled_dict]
    rfl
  case discards =>
    intro who s hPasses hState
    exact askWrite_of_passes hPasses ((writeEffect_staging who 3 s).trans (stagingEffect_discard hState))
  case substitution =>
    intro who a s hPasses hOpen hRoom hSite hSpare
    exact substitution_staged hPasses hOpen hRoom (by simp [substitutionStatus, firstStatus, leNat, hSite, hSpare])
  case returned =>
    intro who a s hPasses hOpen hRoom hSite
    exact substitution_staged hPasses hOpen hRoom (by simp [substitutionStatus, firstStatus, leNat, hSite])
  case commit =>
    intro s hClosed hRuns hOpened hDue hNoTakeover
    have hExec := exec_epochCommit (epochNow_of_due hClosed hRuns hOpened hDue)
    obtain ⟨hLate, hDict⟩ := setInForce_frame hNoTakeover
    obtain ⟨hSys, hTold⟩ := commitTold_frame s (setInForce s)
    generalize hu : modDict (fun d => { d with staging := ⟨0, [], 0⟩, lastCommit := s.beat.count })
      (modSys (fun y => { y with lateSet := false }) s) = u at hDict
    obtain ⟨hStaging, hCommit, hOthers⟩ := putValues_dict s.dict.staging.values u
    rw [hDict] at hTold
    refine ⟨_, hExec, ?_, ?_, ?_, ?_, ?_, ?_, sameBut_of_exec (by simp) hExec⟩
    · rw [hTold]
      exact hStaging.trans (by rw [← hu]; rfl)
    · rw [hTold]
      exact hCommit.trans (by rw [← hu]; rfl)
    · rw [hSys, hLate]
    · intro pre post key v hValues hLast
      rw [hTold, hValues]
      exact putValues_last hLast u
    · intro key hNone
      rw [hTold]
      exact (hOthers key hNone).1.trans (by rw [← hu]; rfl)
    · rw [hTold]
  case repair =>
    intro p rest s hRepairs hOpened hBefore hCount
    have hExec : exec .repairSetCommit s = .next (p.arrays.foldl (fun s a => substitute a s) (modFab (fun f => { f with repairs := rest }) s)) := by
      show execRepairSetCommit s = _
      rw [execRepairSetCommit, hRepairs]
      exact congrArg done (if_pos ((commitNow_iff s _).mpr ⟨hOpened, hCount, hBefore⟩))
    obtain ⟨hRest, hMoved, hOthers⟩ := foldl_substitute p.arrays (modFab (fun f => { f with repairs := rest }) s)
    exact ⟨_, hExec, hRest, fun a hMem hSite => hMoved a (.inl ⟨hMem, hSite⟩), hOthers, sameBut_of_exec (by simp) hExec⟩
end

section
/-! Items pass the switches of the die by the slot tables (R102-R107, R140). -/

namespace Sys2Proof.Machine

/-! Items at lanes and ports. -/

theorem kgetD_kmodD {α : Type} [DecidableEq α] (d : α) (m : KMap α) (j k : Nat) (f : α → α) :
    kgetD d (kmodD d m j f) k = if k = j then f (kgetD d m k) else kgetD d m k := by
  by_cases h : j = k
  · rw [h, kgetD_kmodD_same, if_pos rfl]
  · rw [kgetD_kmodD_other _ _ _ h, if_neg (Ne.symm h)]

/-- An output adds its item to its target, and moves nothing of the rest of the fabric. -/
theorem place_items (item : Bytes) (x : Target) (s : State) (k : Nat) :
    laneItems (place item x s) k = laneItems s k ++ intoBuffer item k x ∧
      deliveredItems (place item x s) k = deliveredItems s k ++ intoPort item k x := by
  cases x with
  | buffer j =>
    refine ⟨?_, (List.append_nil _).symm⟩
    show kgetD [] (kmodD [] s.fab.lanes j (· ++ [item])) k = _
    rw [kgetD_kmodD, laneItems, intoBuffer]
    by_cases h : j = k
    · simp [h]
    · simp [h, Ne.symm h]
  | port j =>
    refine ⟨(List.append_nil _).symm, ?_⟩
    show kgetD [] (kmodD [] s.fab.delivered j (· ++ [item])) k = _
    rw [kgetD_kmodD, deliveredItems, intoPort]
    by_cases h : j = k
    · simp [h]
    · simp [h, Ne.symm h]

theorem takeTile_lanes (slot : Nat) (r : Route) (o : StreamRow) (t : Tile) (s : State) : (takeTile slot r o t s).fab.lanes = s.fab.lanes := by
  simp only [takeTile, dropArrived, modFab]

theorem laneItems_leaveRing (slot array side lane : Nat) (r : Route) (s : State) (k : Nat) :
    laneItems (leaveRing slot array side lane r s) k = laneItems s k := by
  unfold leaveRing
  split
  · rfl
  · split
    · rfl
    · rw [laneItems, queueFlits, modLink_eq, modNet_fab, takeTile_lanes, laneItems]

/-- The output lies in the die: a local port, or one that has a neighbour. -/
def PortInside (net array p : Nat) : Prop := localOutput net p = true ∨ (neighbour array (direction net p)).isSome = true

/-- What one output forwards: its item, and out of the die the tile that is whole with it. -/
theorem forwardTo_items (slot array net lane : Nat) (r : Route) (item : Bytes) (p : Nat) (s : State) (k : Nat) :
    laneItems (forwardTo slot array net lane r item p s) k = laneItems s k ++ intoBuffer item k (targetOf slot array net p lane) ∧
    (PortInside net array p → deliveredItems (forwardTo slot array net lane r item p s) k =
      deliveredItems s k ++ intoPort item k (targetOf slot array net p lane) ∧
      (forwardTo slot array net lane r item p s).net = s.net) := by
  obtain ⟨hLane, hPort⟩ := place_items item (targetOf slot array net p lane) s k
  unfold forwardTo
  dsimp only
  constructor
  · split
    · exact hLane
    · rw [laneItems_leaveRing, hLane]
  · intro hInside
    rw [PortInside] at hInside
    rw [if_pos hInside]
    exact ⟨hPort, (place_keeps item _ (.refl (· = .net) s) (by simp)).parts .net rfl⟩

theorem foldl_forwardTo_items (slot array net lane : Nat) (r : Route) (item : Bytes) (ports : List Nat) (s : State) :
    let t := ports.foldl (fun s p => forwardTo slot array net lane r item p s) s
    let targets := ports.map (fun p => targetOf slot array net p lane)
    (∀ k, laneItems t k = laneItems s k ++ targets.flatMap (intoBuffer item k)) ∧
    ((∀ p ∈ ports, PortInside net array p) →
      (∀ k, deliveredItems t k = deliveredItems s k ++ targets.flatMap (intoPort item k)) ∧ t.net = s.net) := by
  induction ports generalizing s with
  | nil => simp
  | cons p ps ih =>
    obtain ⟨hLanes, hInside⟩ := ih (forwardTo slot array net lane r item p s)
    constructor
    · intro k
      refine (hLanes k).trans ?_
      rw [(forwardTo_items slot array net lane r item p s k).1]
      simp
    · intro hAll
      obtain ⟨hDelivered, hNet⟩ := hInside (fun x hx => hAll x (List.mem_cons_of_mem _ hx))
      have hFirst (k : Nat) := (forwardTo_items slot array net lane r item p s k).2 (hAll p List.mem_cons_self)
      refine ⟨fun k => ?_, hNet.trans (hFirst 0).2⟩
      refine (hDelivered k).trans ?_
      rw [(hFirst k).1]
      simp

theorem foldl_forwardTo_keeps {M : Part → Prop} {s t : State} (slot array net lane : Nat) (r : Route) (item : Bytes) (ports : List Nat)
    (h : Keeps M s t) (hFab : ¬M .fab) (hNet : ¬M .net) :
    Keeps M s (ports.foldl (fun s p => forwardTo slot array net lane r item p s) t) :=
  .foldl (fun _ _ h => forwardTo_keeps _ _ _ _ _ _ _ h hFab hNet) ports h

/-- A tile that an output makes whole at the ring port of its link leaves the die (R140). -/
theorem forwardTo_of_ring {slot array net lane p : Nat} {r : Route} {item : Bytes} {s : State} {o : StreamRow} {x : Tile}
    (hOut : localOutput net p = false) (hEdge : neighbour array (direction net p) = none)
    (hOwner : ownerAt r array (direction net p) lane = some o) (hPeer : o.peer.isSome = true)
    (hTile : arrivedTile (place item (targetOf slot array net p lane) s) slot r o = some x) :
    forwardTo slot array net lane r item p s =
      let u := place item (targetOf slot array net p lane) s
      queueFlits (o.links.headD 0) (o.channel.getD 0) (cutFlits (o.channel.getD 0) (o.peer.getD 0) slot (setOf' u slot) (x.header ++ x.payload))
        (takeTile slot r o x u) := by
  have hRing : ¬(localOutput net p = true ∨ (neighbour array (direction net p)).isSome = true) := by simp [hOut, hEdge]
  have hFound : ((ownerAt r array (direction net p) lane).bind (fun o => if o.peer.isSome then some o else none)) = some o := by
    simp [hOwner, hPeer]
  unfold forwardTo leaveRing
  dsimp only
  rw [if_neg hRing, hFound]
  dsimp only
  rw [hTile]

/-- Neither an item taken nor one placed moves a slot to another set. -/
theorem setOf'_placed (item : Bytes) (x : Target) (slot array net input lane k : Nat) (stream : Option Nat) (s : State) :
    setOf' (place item x (takeInput slot array net input lane stream s)) k = setOf' s k := by
  have hPlaced : (place item x (takeInput slot array net input lane stream s)).slots = (takeInput slot array net input lane stream s).slots :=
    (place_keeps item x (.refl (· = .slots) _) (by simp)).parts .slots rfl
  rw [setOf', slotOf_congr hPlaced, setOf']
  cases stream with
  | none => rfl
  | some m =>
    show (slotOf (modStream slot m _ s) k).beat.set = _
    unfold modStream
    by_cases h : slot = k
    · rw [h, slotOf_modSlot_same]
    · rw [slotOf_modSlot_other _ _ h]

theorem takeInput_none (slot array net input lane : Nat) (s : State) :
    (∀ k, laneItems (takeInput slot array net input lane none s) k =
      if k = laneKey array net input lane then (laneItems s k).drop 1 else laneItems s k) ∧
    (∀ k, deliveredItems (takeInput slot array net input lane none s) k = deliveredItems s k) := by
  refine ⟨fun k => ?_, fun _ => rfl⟩
  show kgetD [] (kmodD [] s.fab.lanes _ (·.drop 1)) k = _
  rw [kgetD_kmodD]
  rfl

theorem takeInput_none_keeps {M : Part → Prop} {s t : State} (slot array net input lane : Nat) (h : Keeps M s t) (hFab : ¬M .fab) :
    Keeps M s (takeInput slot array net input lane none t) := by
  unfold takeInput
  exact modFab_keeps _ h hFab

/-! The slot that an output reads (R102, R103). -/

theorem slotRead_eq_none {s : State} {array net port : Nat} (h : ∀ e ∈ residents s, entryAt s e.1 e.2 array net port (slotIndex s e.1) % 16 = 0 ∨
    (slotOf s e.1).beat.phase = 0 ∨ (net = 2 ∧ controlClosed s e.1 = true)) : slotRead s array net port = none := by
  unfold slotRead
  refine List.findSome?_eq_none_iff.mpr (fun e he => ?_)
  exact if_pos (h e he)

theorem exec_slotForward_of_idle {s : State} {array net port : Nat} {corrected lost : Bool} (h : slotRead s array net port = none)
    (hLost : corrected = true → lost = true) : exec (.slotForward array net port corrected lost) s = .next s := by
  show execSlotForward array net port corrected lost s = _
  unfold execSlotForward
  cases lost with
  | true => simp [done, h]
  | false =>
    have hClean : corrected = false := by simpa using hLost
    simp [done, forwardSlot, h, hClean]

/-- The outputs that forward the same entry in this slot. -/
def namedPorts (s : State) (slot : Nat) (r : Route) (array net n : Nat) : List Nat :=
  (portsOf net).filter (fun p => entryAt s slot r array net p (slotIndex s slot) == n)

theorem exec_slotForward {s : State} {array net port slot n : Nat} {r : Route} (hRead : slotRead s array net port = some (slot, r, n))
    (hAlive : alive s = true) : exec (.slotForward array net port false false) s = .next (match inputItem s slot r array net (n % 16) (n / 16) with
      | none => count 0x5201 array 1 s
      | some (stream, item) =>
        if (namedPorts s slot r array net n).all (fun p => hasRoom s (targetOf slot array net p (n / 16))) then
          (namedPorts s slot r array net n).foldl (fun s p => forwardTo slot array net (n / 16) r item p s)
            (takeInput slot array net (n % 16) (n / 16) stream s)
        else count 0x5200 array 1 s) := by
  show execSlotForward array net port false false s = _
  unfold execSlotForward
  rw [if_neg (by simp [hAlive]), if_neg (by simp), if_neg (by simp), forwardSlot, hRead]
  rfl

/-! An entry that cannot be corrected (R58, R107, R123). -/

theorem mem_stopping_saggarStop (slot stream : Nat) (reload : Bool) (s : State) :
    fltSaggar ∈ (slotOf (saggarStop slot stream reload s) slot).beat.faults ∧
      (stream, reload) ∈ (slotOf (saggarStop slot stream reload s) slot).beat.stopping ∧
      (∀ x ∈ (slotOf s slot).beat.stopping, x ∈ (slotOf (saggarStop slot stream reload s) slot).beat.stopping) := by
  rw [saggarStop, slotBeat_modSlotBeat]
  refine ⟨?_, ?_, ?_⟩
  · dsimp only
    split
    case isTrue h => simpa using h
    case isFalse => simp
  · dsimp only
    split
    case isTrue h => simpa using h
    case isFalse => simp
  · intro x hx
    dsimp only
    split
    · exact hx
    · exact List.mem_append_left _ hx

/-- A mark of the fault, and a stop of every stream whose lane the entry forwards. -/
theorem foldl_saggarStop (slot : Nat) (rows : List StreamRow) (s : State) (hFault : fltSaggar ∈ (slotOf s slot).beat.faults) :
    let t := rows.foldl (fun s o => saggarStop slot o.number true s) s
    fltSaggar ∈ (slotOf t slot).beat.faults ∧ (∀ o ∈ rows, (o.number, true) ∈ (slotOf t slot).beat.stopping) ∧
      (∀ x ∈ (slotOf s slot).beat.stopping, x ∈ (slotOf t slot).beat.stopping) ∧ (∀ k, setOf' t k = setOf' s k) := by
  induction rows generalizing s with
  | nil => exact ⟨hFault, by simp, fun _ h => h, fun _ => rfl⟩
  | cons o rows ih =>
    obtain ⟨hMarked, hStops, hKept⟩ := mem_stopping_saggarStop slot o.number true s
    obtain ⟨hFaults, hRest, hStay, hSet⟩ := ih (saggarStop slot o.number true s) hMarked
    refine ⟨hFaults, fun x hx => ?_, fun x hx => hStay x (hKept x hx), fun k => (hSet k).trans ?_⟩
    · obtain rfl | hTail := List.mem_cons.mp hx
      · exact hStay _ hStops
      · exact hRest x hTail
    · by_cases h : slot = k
      · rw [setOf', ← h, saggarStop, slotBeat_modSlotBeat, setOf']
      · rw [setOf', saggarStop, slotOf_modSlotBeat_other _ _ (Ne.symm h), setOf']

/-- The entry of the set in force marked lost, and the fault of the route. -/
def entryLost (slot array net port : Nat) (s : State) : State :=
  modSlotBeat slot (fun b => { b with faults := if b.faults.contains fltSaggar then b.faults else b.faults ++ [fltSaggar] })
    (modFab (fun f => { f with badEntries := f.badEntries ++ [(slot, setOf' s slot, array, net, port, slotIndex s slot)] }) s)

theorem foldl_saggarStop_fab (slot : Nat) (rows : List StreamRow) (s : State) :
    (rows.foldl (fun s o => saggarStop slot o.number true s) s).fab = s.fab :=
  foldl_field (f := fun s o => saggarStop slot o.number true s) (g := State.fab) (fun _ _ => rfl) rows s

theorem loseEntry_eq (slot : Nat) (r : Route) (array net port n : Nat) (s : State) : loseEntry slot r array net port n s =
    (laneOwners r (setOf' s slot) array net (n % 16) (n / 16)).foldl (fun s o => saggarStop slot o.number true s)
      (entryLost slot array net port s) := rfl

theorem entryLost_frame (slot array net port : Nat) (s : State) : fltSaggar ∈ (slotOf (entryLost slot array net port s) slot).beat.faults ∧
    (∀ k, setOf' (entryLost slot array net port s) k = setOf' s k) ∧
    (entryLost slot array net port s).fab.badEntries = s.fab.badEntries ++ [(slot, setOf' s slot, array, net, port, slotIndex s slot)] := by
  refine ⟨?_, fun k => ?_, rfl⟩
  · rw [entryLost, slotBeat_modSlotBeat]
    dsimp only
    split
    case isTrue h => simpa using h
    case isFalse => simp
  · by_cases h : slot = k
    · rw [setOf', ← h, entryLost, slotBeat_modSlotBeat]
      rfl
    · rw [setOf', entryLost, slotOf_modSlotBeat_other _ _ (Ne.symm h)]
      rfl

theorem entryAt_of_badEntries {s t : State} (hSet : ∀ k, setOf' t k = setOf' s k) {x : Nat × Nat × Nat × Nat × Nat × Nat}
    (hBad : t.fab.badEntries = s.fab.badEntries ++ [x]) (k : Nat) (r : Route) (a m p i : Nat) :
    entryAt t k r a m p i = if (k, setOf' s k, a, m, p, i) = x then 0 else entryAt s k r a m p i := by
  unfold entryAt
  rw [hBad, hSet]
  by_cases h : (k, setOf' s k, a, m, p, i) = x
  · simp [h]
  · rw [if_neg h]
    simp only [slotTable, hSet, List.contains_append]
    simp [h]

end Sys2Proof.Machine

open Sys2Proof Sys2Proof.Machine

/-- Settles O17: what the entry that an output reads does to its lane, its targets and its link, or, lost, to its route. -/
theorem slotTablesForwardItems : Obligations.SlotTablesForwardItems := by
  unfold Obligations.SlotTablesForwardItems
  refine ⟨?idle, ?forwards, ?errors⟩
  case idle =>
    intro array net port corrected lost s hIdle hLost
    exact exec_slotForward_of_idle (slotRead_eq_none hIdle) hLost
  case forwards =>
    intro array net port slot n r s hRead hAlive lane ps ts inside
    have hExec := exec_slotForward hRead hAlive
    have hTargets : (namedPorts s slot r array net n).all (fun p => hasRoom s (targetOf slot array net p (n / 16))) = ts.all (hasRoom s) := by
      simp only [ts, List.all_map]
      rfl
    have hPassed (stream : Option Nat) (item : Bytes) (hItem : inputItem s slot r array net (n % 16) lane = some (stream, item))
        (hRoom : ∀ y ∈ ts, hasRoom s y = true) : exec (.slotForward array net port false false) s =
          .next (ps.foldl (fun s p => forwardTo slot array net lane r item p s) (takeInput slot array net (n % 16) lane stream s)) := by
      rw [hExec, hItem]
      dsimp only
      rw [hTargets, if_pos (List.all_eq_true.mpr hRoom)]
      rfl
    refine ⟨?empty, ?full, ?lane, ?stream, ?ring⟩
    case empty =>
      intro hNone
      rw [hExec, hNone]
    case full =>
      rintro ⟨stream, item⟩ hItem ⟨y, hy, hFull⟩
      rw [hExec, hItem]
      dsimp only
      rw [hTargets, if_neg]
      intro hAll
      rw [List.all_eq_true.mp hAll y hy] at hFull
      cases hFull
    case lane =>
      intro item hItem hRoom
      obtain ⟨hLanes, hInside⟩ := foldl_forwardTo_items slot array net lane r item ps (takeInput slot array net (n % 16) lane none s)
      obtain ⟨hTaken, hDelivered⟩ := takeInput_none slot array net (n % 16) lane s
      refine ⟨_, hPassed none item hItem hRoom, fun k => ?_, fun h => ⟨fun k => ?_, ?_⟩, ?_⟩
      · rw [hLanes, hTaken]
      · rw [(hInside h).1, hDelivered]
      · rw [(hInside h).2]
        rfl
      · exact (foldl_forwardTo_keeps slot array net lane r item ps
          (takeInput_none_keeps slot array net (n % 16) lane (.refl (· ∉ [Part.fab, .net]) s) (by simp)) (by simp) (by simp)).sameBut
    case stream =>
      intro m item hItem hRoom
      obtain ⟨hLanes, hInside⟩ := foldl_forwardTo_items slot array net lane r item ps (takeInput slot array net (n % 16) lane (some m) s)
      refine ⟨_, hPassed (some m) item hItem hRoom, fun k => ?_, fun h => ⟨fun k => ?_, ?_⟩, ?_, ?_⟩
      · rw [hLanes]
        rfl
      · rw [(hInside h).1]
        rfl
      · rw [(hInside h).2]
        rfl
      · exact (foldl_forwardTo_keeps slot array net lane r item ps (.refl (· = .slots) _) (by simp) (by simp)).parts .slots rfl
      · exact (foldl_forwardTo_keeps slot array net lane r item ps
          (takeInput_keeps _ _ _ _ _ _ (.refl (· ∉ [Part.fab, .slots, .net]) s) (by simp) (by simp)) (by simp) (by simp)).sameBut
    case ring =>
      intro p m item o x hOne hOut hEdge hItem hOwner hPeer u hTile
      have hPort : targetOf slot array net p lane = .port (portKey slot array net p lane) := by simp [targetOf, hOut, hEdge]
      have hRoom : ∀ y ∈ ts, hasRoom s y = true := by
        intro y hy
        rw [show ts = [targetOf slot array net p lane] by simp only [ts, hOne, List.map_cons, List.map_nil]] at hy
        rw [List.mem_singleton.mp hy, hPort]
        rfl
      rw [hPassed m item hItem hRoom, hOne]
      show Host.Outcome.next (forwardTo slot array net lane r item p (takeInput slot array net (n % 16) lane m s)) = _
      rw [forwardTo_of_ring hOut hEdge hOwner hPeer hTile]
      dsimp only
      rw [setOf'_placed]
  case errors =>
    intro array net port slot n r s hRead hAlive
    constructor
    · show execSlotForward array net port true false s = execSlotForward array net port false false (count 0x5202 array 1 s)
      have hStill : ¬alive (count 0x5202 array 1 s) = false := by
        rw [show alive (count 0x5202 array 1 s) = alive s from rfl, hAlive]
        simp
      unfold execSlotForward
      rw [if_neg (by simp [hAlive]), if_neg (by simp), if_pos rfl, if_neg hStill, if_neg (by simp), if_neg (by simp)]
    · intro corrected
      obtain ⟨hFault, hSet, hBad⟩ := entryLost_frame slot array net port s
      obtain ⟨hFaults, hStops, -, hSets⟩ := foldl_saggarStop slot (laneOwners r (setOf' s slot) array net (n % 16) (n / 16)) _ hFault
      have hEntries := entryAt_of_badEntries (s := s) (t := loseEntry slot r array net port n s) (fun k => (hSets k).trans (hSet k))
        ((congrArg Fabric.badEntries (foldl_saggarStop_fab slot _ _)).trans hBad)
      refine ⟨loseEntry slot r array net port n s, ?_, hFaults, hStops, ?_, ?_, ?_⟩
      · show execSlotForward array net port corrected true s = _
        unfold execSlotForward
        rw [if_neg (by simp [hAlive]), if_pos rfl, hRead]
        rfl
      · rw [hEntries, if_pos rfl]
      · intro k q a m p i hOther
        rw [hEntries, if_neg]
        intro hSame
        simp only [Prod.mk.injEq] at hSame
        obtain ⟨rfl, -, rfl, rfl, rfl, rfl⟩ := hSame
        exact hOther rfl
      · exact (loseEntry_keeps slot r array net port n (.refl (· ∉ [Part.fab, .slots]) s) (by simp) (by simp)).sameBut
end

section
/-! Sites of arrays: tested, failed and staged for their spares (R113-R115, R117, R118). -/

namespace Sys2Proof.Machine

/-! The repair set that takes a failed array (R115). -/

/-- The automatic repair stages, and moves nothing else of the fabric. -/
theorem autoRepair_fab (a : Nat) (s : State) : ∃ sets, (autoRepair a s).fab = { s.fab with repairs := sets } := by
  unfold autoRepair
  split
  · exact ⟨s.fab.repairs, rfl⟩
  · exact ⟨_, rfl⟩

theorem autoRepair_led (a : Nat) (s : State) : (autoRepair a s).led = s.led :=
  (autoRepair_keeps a (.refl (· = .led) s) (by simp)).parts .led rfl

/-- Where its spare is free, the array stands in a repair set from now on. -/
theorem autoRepair_repairs {a : Nat} {s : State} (hFlag : flagSet s 0x3005 0 = true) (hHome : onSpare s a = false)
    (hSpare : spareTaken s a = false) (hSite : siteFailed s (256 + clusterOf a) = false) :
    (∃ p ∈ (autoRepair a s).fab.repairs, a ∈ p.arrays) ∧
      (s.fab.repairs = [] → (autoRepair a s).fab.repairs = [⟨s.beat.count + 64, [a]⟩]) := by
  cases hRepair : inRepair s a with
  | true =>
    have hStays : autoRepair a s = s := if_pos (by simp [hRepair])
    obtain ⟨p, hp, hMem⟩ := List.any_eq_true.mp hRepair
    rw [hStays]
    refine ⟨⟨p, hp, by simpa using hMem⟩, fun hNone => ?_⟩
    rw [hNone] at hp
    cases hp
  | false =>
    have hGuard : ¬(flagSet s 0x3005 0 = false ∨ onSpare s a = true ∨ spareTaken s a = true ∨ siteFailed s (256 + clusterOf a) = true ∨
        inRepair s a = true) := by simp [hFlag, hHome, hSpare, hSite, hRepair]
    unfold autoRepair
    rw [if_neg hGuard]
    dsimp only [modFab]
    cases hLast : s.fab.repairs.getLast? with
    | none => exact ⟨⟨_, List.mem_singleton_self _, List.mem_singleton_self _⟩, fun _ => rfl⟩
    | some p =>
      dsimp only
      constructor
      · split
        · exact ⟨_, List.mem_append_right _ (List.mem_singleton_self _), List.mem_append_right _ (List.mem_singleton_self _)⟩
        · exact ⟨_, List.mem_append_right _ (List.mem_singleton_self _), List.mem_singleton_self _⟩
      · intro hNone
        rw [hNone] at hLast
        cases hLast

theorem spareTaken_congr {s t : State} {a : Nat} (hStates : ∀ b, b ≠ a → onSpare t b = onSpare s b) (hDict : t.dict = s.dict)
    (hRepairs : t.fab.repairs = s.fab.repairs) : spareTaken t a = spareTaken s a := by
  unfold spareTaken
  refine List.any_congr rfl (fun b => ?_)
  by_cases h : b = a
  · simp [h]
  · simp only [hStates b h, movePending, staged, inRepair, hDict, hRepairs]

/-! A site fails (R113). -/

/-- The site listed and told. -/
def siteListed (site : Nat) (s : State) : State :=
  event evtArrayFault (atInst site) [] (modFab (fun f => { f with failedSites := f.failedSites ++ [site] }) s)

/-- The array that the site held is FAILED. -/
def arrayLost (site a : Nat) (s : State) : State :=
  let running := ((residents s).filter (fun e => (slotOf s e.1).beat.phase != 0)).map (fun e => (e.1, a))
  modFab (fun f => { f with states := kput f.states a (2 + kgetD 0 f.states a % 2), failing := f.failing ++ running }) (siteListed site s)

theorem failSite_of_none {site : Nat} {s : State} (hSite : site < 272) (hNew : siteFailed s site = false) (h : arrayAt s site = none) :
    failSite site s = siteListed site s := by
  have hGuard : ¬(272 ≤ site ∨ siteFailed s site = true) := by simp [hNew, hSite]
  unfold failSite
  rw [if_neg hGuard, h]
  rfl

theorem failSite_of_some {site a : Nat} {s : State} (hSite : site < 272) (hNew : siteFailed s site = false) (h : arrayAt s site = some a) :
    failSite site s = if site < 256 then autoRepair a (arrayLost site a s) else arrayLost site a s := by
  have hGuard : ¬(272 ≤ site ∨ siteFailed s site = true) := by simp [hNew, hSite]
  unfold failSite
  rw [if_neg hGuard, h]
  rfl

theorem siteListed_fab (site : Nat) (s : State) : (siteListed site s).fab = { s.fab with failedSites := s.fab.failedSites ++ [site] } := by
  rw [siteListed, event_fab]
  rfl

theorem siteListed_events (site : Nat) (s : State) : (siteListed site s).led.events = (s.led.events + 1) % 2 ^ 64 := by
  rw [siteListed, event_led]
  rfl

theorem arrayLost_frame (site a : Nat) (s : State) : ∃ failing, (arrayLost site a s).fab = { s.fab with
    failedSites := s.fab.failedSites ++ [site], states := kput s.fab.states a (2 + kgetD 0 s.fab.states a % 2), failing := failing } := by
  unfold arrayLost
  dsimp only [modFab]
  rw [siteListed_fab]
  exact ⟨_, rfl⟩

/-- The array of a site and what becomes of it with the site. -/
theorem failSite_fab {site : Nat} {s : State} (hSite : site < 272) (hNew : siteFailed s site = false) :
    ∃ states failing sets, (failSite site s).fab = { s.fab with
      failedSites := s.fab.failedSites ++ [site], states := states, failing := failing, repairs := sets } ∧
      (∀ a, arrayAt s site = some a → states = kput s.fab.states a (2 + kgetD 0 s.fab.states a % 2)) ∧
      (arrayAt s site = none → states = s.fab.states ∧ sets = s.fab.repairs) := by
  cases hArray : arrayAt s site with
  | none =>
    rw [failSite_of_none hSite hNew hArray]
    exact ⟨_, _, _, siteListed_fab site s, fun a h => absurd h (by simp), fun _ => ⟨rfl, rfl⟩⟩
  | some a =>
    obtain ⟨failing, hLost⟩ := arrayLost_frame site a s
    rw [failSite_of_some hSite hNew hArray]
    have hStates : ∀ b, some a = some b → kput s.fab.states a (2 + kgetD 0 s.fab.states a % 2) =
        kput s.fab.states b (2 + kgetD 0 s.fab.states b % 2) := by
      intro b h
      cases h
      rfl
    split
    · obtain ⟨sets, hSets⟩ := autoRepair_fab a (arrayLost site a s)
      exact ⟨_, failing, sets, by rw [hSets, hLost], hStates, fun h => absurd h (by simp)⟩
    · exact ⟨_, failing, s.fab.repairs, hLost, hStates, fun h => absurd h (by simp)⟩

theorem failSite_events {site : Nat} {s : State} (hSite : site < 272) (hNew : siteFailed s site = false) :
    (failSite site s).led.events = (s.led.events + 1) % 2 ^ 64 := by
  cases hArray : arrayAt s site with
  | none => rw [failSite_of_none hSite hNew hArray, siteListed_events]
  | some a =>
    rw [failSite_of_some hSite hNew hArray]
    split
    · rw [autoRepair_led]
      exact siteListed_events site s
    · exact siteListed_events site s

/-- An array that stood on its own site is staged for its spare, where that is free. -/
theorem failSite_repairs {site a : Nat} {s : State} (hArray : arrayAt s site = some a) (hOwn : site < 256) (hNew : siteFailed s site = false)
    (hFlag : flagSet s 0x3005 0 = true) (hSpare : spareTaken s a = false) (hFree : siteFailed s (256 + clusterOf a) = false) :
    (∃ p ∈ (failSite site s).fab.repairs, a ∈ p.arrays) ∧
      (s.fab.repairs = [] → (failSite site s).fab.repairs = [⟨s.beat.count + 64, [a]⟩]) := by
  obtain ⟨failing, hLost⟩ := arrayLost_frame site a s
  have hHome : onSpare s a = false ∧ site = a := by
    unfold arrayAt at hArray
    rw [if_pos hOwn] at hArray
    split at hArray
    case isTrue => cases hArray
    case isFalse hOn =>
      cases hArray
      exact ⟨by simpa using hOn, rfl⟩
  obtain ⟨hHome, hSame⟩ := hHome
  have hOthers : ∀ b, b ≠ a → onSpare (arrayLost site a s) b = onSpare s b := by
    intro b hb
    rw [onSpare, hLost]
    exact congrArg (fun n => n % 2 == 1) (kgetD_kput_other _ _ _ hb.symm)
  have hStill : onSpare (arrayLost site a s) a = false := by
    rw [onSpare, hLost]
    show (kgetD 0 (kput _ _ _) a % 2 == 1) = false
    rw [kgetD_kput_same, ← hHome, onSpare]
    congr 1
    omega
  have hDict : (arrayLost site a s).dict = s.dict := by
    show (siteListed site s).dict = s.dict
    rw [siteListed, event_dict]
    rfl
  have hBeat : (arrayLost site a s).beat = s.beat := by
    show (siteListed site s).beat = s.beat
    rw [siteListed, event_beat]
    rfl
  have hTaken := spareTaken_congr hOthers hDict (by rw [hLost])
  have hFree' : siteFailed (arrayLost site a s) (256 + clusterOf a) = false := by
    have hNot : 256 + clusterOf a ≠ site := by omega
    unfold siteFailed at hFree ⊢
    rw [hLost]
    simpa [hNot] using hFree
  have hFlag' : flagSet (arrayLost site a s) 0x3005 0 = true := by
    rw [← hFlag]
    simp only [flagSet, setting, inUse, hDict]
  obtain ⟨hStaged, hFirst⟩ := autoRepair_repairs hFlag' hStill (hTaken.trans hSpare) hFree'
  rw [failSite_of_some (by omega) hNew hArray, if_pos hOwn]
  refine ⟨hStaged, fun hNone => ?_⟩
  rw [hFirst (by rw [hLost]; exact hNone), hBeat]

/-! Self-tests (R113, R114, R118). -/

/-- A self-test that runs takes the failure of its site as its result; nothing else of the fabric moves. -/
theorem testFails_fab (site : Nat) (s : State) : ∃ m, (testFails site s).fab = { s.fab with selftest := m } ∧
    (∀ a, arrayAt s site = some a → kgetD 0 s.fab.selftest a = 1 → kgetD 0 m a = 3) := by
  unfold testFails
  cases hArray : arrayAt s site with
  | none => exact ⟨s.fab.selftest, rfl, fun a h => absurd h (by simp)⟩
  | some a =>
    dsimp only
    split
    case isTrue hRuns =>
      refine ⟨kput s.fab.selftest a 3, rfl, fun b h _ => ?_⟩
      cases h
      simp
    case isFalse hIdle =>
      refine ⟨s.fab.selftest, rfl, fun b h hRuns => ?_⟩
      cases h
      exact absurd hRuns hIdle

theorem arrayAt_congr {s t : State} (h : t.fab.states = s.fab.states) (site : Nat) : arrayAt t site = arrayAt s site := by
  have hOn : onSpare t = onSpare s := funext (onSpare_congr h)
  rw [arrayAt, hOn, arrayAt]

theorem testFails_keeps_parts (site : Nat) (s : State) :
    (testFails site s).led = s.led ∧ (testFails site s).dict = s.dict ∧ (testFails site s).beat = s.beat := by
  have hKeeps : Keeps (fun p => p = .led ∨ p = .dict ∨ p = .beat) s (testFails site s) :=
    testFails_keeps site (.refl _ s) (by simp) (by simp)
  exact ⟨hKeeps.parts .led (.inl rfl), hKeeps.parts .dict (.inr (.inl rfl)), hKeeps.parts .beat (.inr (.inr rfl))⟩

/-- The command of a gated beat's slice, where the site is due. -/
theorem exec_selftestSlice {site : Nat} {s : State} (fault : Bool) (hAlive : alive s = true) (hOn : setting s 0x3001 0 ≠ 0) (hSite : site < 272)
    (hGated : siteGated s site = true) (hDue : (kgetD (0, 0) s.fab.slices site).2 ≤ s.beat.count) :
    exec (.selftestSlice site fault) s = .next (
      if fault then failSite site (count 0x5019 0 1 (modFab (fun f => { f with
        slices := kdel f.slices site
        selftest := (arrayAt s site).elim f.selftest (fun a => kput f.selftest a 3) }) s))
      else if (kgetD (0, 0) s.fab.slices site).1 + 1 < 32 then modFab (fun f => { f with
        slices := kput f.slices site ((kgetD (0, 0) s.fab.slices site).1 + 1, s.beat.count + 1) }) s
      else modFab (fun f => { f with
        slices := kput f.slices site (0, s.beat.count + 1), lastPass := kput f.lastPass site s.beat.count
        selftest := (arrayAt s site).elim f.selftest (fun a => if kgetD 0 f.selftest a = 1 then f.selftest else kput f.selftest a 2) }) s) := by
  have hGuard : ¬(alive s = false ∨ setting s 0x3001 0 = 0 ∨ 272 ≤ site ∨ siteGated s site = false ∨
      s.beat.count < (kgetD (0, 0) s.fab.slices site).2) := by
    simp only [hAlive, hOn, hGated, not_or]
    exact ⟨by simp, by simp, by omega, by simp, by omega⟩
  show execSelftestSlice site fault s = _
  unfold execSelftestSlice
  dsimp only
  rw [if_neg hGuard]
  cases arrayAt s site <;> rfl

theorem rows_selftest : ∀ r ∈ objRows, r.index = 0x3002 → r.access = .wo := by decide +kernel
theorem rows_markFailed : ∀ r ∈ objRows, r.index = 0x3004 → r.access = .wo := by decide +kernel

/-- A command of one array takes its effect. -/
theorem askWrite_of_command {who : Who} {index sub : Nat} {b : Bytes} {s t : State} (h : Passes who (writeOf index sub b) s)
    (hRows : ∀ r ∈ objRows, r.index = index → r.access = .wo) (hVendor : vendorIndex index = false) (hNoCounter : ctrRow index = none)
    (hNoClient : ¬(0x4000 ≤ index ∧ index ≤ 0x43FF)) (hWindow : index ≠ 0x1410) (hRelease : index ≠ 0x1420)
    (hEffect : commandEffect who index sub b s = (stOk, t)) :
    askWrite who index sub b s = .next (answered who (writeOf index sub b) s t) := by
  have hAccess : (rowOf index sub).access = .wo :=
    rowOf_shares (P := fun r => r.access = .wo) (index := index) (sub := sub) h.status rfl rfl hRows hVendor hNoCounter hNoClient
  exact askWrite_of_passes h ((writeEffect_of_command who b s hAccess hWindow hRelease).trans hEffect)

end Sys2Proof.Machine

open Sys2Proof Sys2Proof.Machine

/-- Settles O18: what a failed site, a faulty switch and each self-test leave of the fabric. -/
theorem sitesAreTestedFailedAndReplaced : Obligations.SitesAreTestedFailedAndReplaced := by
  unfold Obligations.SitesAreTestedFailedAndReplaced
  refine ⟨⟨?fails, ?switched, ?marked⟩, ?slice, ?faulty, ?now, ?done⟩
  case fails =>
    intro site s hAlive hSite hNew
    have hExec : exec (.arraySiteFail site) s = .next (failSite site (testFails site s)) := congrArg done (if_pos hAlive)
    obtain ⟨m, hFab, hTest⟩ := testFails_fab site s
    obtain ⟨hLed, hDict, hBeat⟩ := testFails_keeps_parts site s
    have hArray (x : Nat) : arrayAt (testFails site s) x = arrayAt s x := arrayAt_congr (by rw [hFab]) x
    have hNew' : siteFailed (testFails site s) site = false := by
      rw [siteFailed, hFab]
      exact hNew
    obtain ⟨states, failing, sets, hFailed, hStates, hNone⟩ := failSite_fab hSite hNew'
    rw [hArray] at hStates hNone
    rw [hFab] at hFailed hStates hNone
    refine ⟨_, hExec, by rw [hFailed], ?_, ?_, ?_, ?_, (sameBut_of_exec (by simp) hExec).mono (by simp [touches])⟩
    · rw [failSite_events hSite hNew', hLed]
    · intro a ha
      rw [hFailed, arrayFailed, hFailed, hStates a ha]
      refine ⟨by simp, fun b hb => kgetD_kput_other _ _ _ hb.symm, hTest a ha⟩
    · intro ha
      rw [hFailed]
      exact hNone ha
    · intro a ha hOwn hFlag hSpare hFree
      have hStaged := failSite_repairs (s := testFails site s) ((hArray site).trans ha) hOwn hNew'
        (by rw [← hFlag]; simp only [flagSet, setting, inUse, hDict])
        ((spareTaken_congr (fun b _ => by simp only [onSpare, hFab]) hDict (by rw [hFab])).trans hSpare)
        (by rw [siteFailed, hFab]; exact hFree)
      rw [hFab, hBeat] at hStaged
      exact hStaged
  case switched =>
    intro a s hAlive hNew
    have hContains : s.fab.faultySwitches.contains a = false := by simpa using hNew
    show execSwitchFault a s = _
    unfold execSwitchFault
    rw [if_pos hAlive]
    simp only [modFab, hContains]
    rfl
  case marked =>
    intro who a s hPasses
    exact askWrite_of_command hPasses rows_markFailed (by decide) (by decide +kernel) (by decide) (by decide) (by decide) rfl
  case slice =>
    intro site s hAlive hOn hSite hGated p
    constructor
    · intro hEarly fault
      exact congrArg done (if_pos (.inr (.inr (.inr (.inr hEarly)))))
    · intro hDue
      have hExec := exec_selftestSlice false hAlive hOn hSite hGated hDue
      rw [if_neg (by simp)] at hExec
      by_cases hMore : p.1 < 31
      · rw [if_pos (show p.1 + 1 < 32 by omega)] at hExec
        refine ⟨_, hExec, (modFab_keeps _ (.refl (· ∉ [Part.fab]) s) (by simp)).sameBut, ?_, ?_, rfl, rfl, fun _ => ⟨rfl, rfl⟩,
          fun h => absurd hMore (by omega)⟩
        · rw [if_pos hMore]
          exact kgetD_kput_same _ _ _ _
        · exact fun j hj => ⟨kget_kput_other _ _ hj.symm, rfl⟩
      · rw [if_neg (show ¬p.1 + 1 < 32 by omega)] at hExec
        refine ⟨_, hExec, (modFab_keeps _ (.refl (· ∉ [Part.fab]) s) (by simp)).sameBut, ?_, ?_, rfl, rfl, fun h => absurd h hMore,
          fun _ => ⟨kgetD_kput_same _ _ _ _, fun a ha hIdle => ?_⟩⟩
        · rw [if_neg hMore]
          exact kgetD_kput_same _ _ _ _
        · exact fun j hj => ⟨kget_kput_other _ _ hj.symm, kget_kput_other _ _ hj.symm⟩
        · simp [modFab, ha, hIdle]
  case faulty =>
    intro site s hAlive hOn hSite hGated hNew hDue
    have hExec := exec_selftestSlice true hAlive hOn hSite hGated hDue
    rw [if_pos rfl] at hExec
    generalize hu : count 0x5019 0 1 (modFab _ s) = u at hExec
    have hNew' : siteFailed u site = false := by
      rw [← hu]
      exact hNew
    obtain ⟨_, _, _, hFailed, -, -⟩ := failSite_fab hSite hNew'
    refine ⟨_, hExec, ?_, ?_, (sameBut_of_exec (by simp) hExec).mono (by simp [touches])⟩
    · rw [hFailed, ← hu]
      rfl
    · rw [failSite_events hSite hNew', ← hu]
      rfl
  case now =>
    intro who a s hPasses hIdle hFree
    refine askWrite_of_command hPasses rows_selftest (by decide) (by decide +kernel) (by decide) (by decide) (by decide) ?_
    exact checked_of_ok (by simp [firstStatus, hIdle, hFree]) _ _
  case done =>
    intro a s hAlive hRuns
    show execSelftestDone a s = _
    unfold execSelftestDone
    rw [hRuns]
    dsimp only
    rw [if_pos hAlive]
    rfl
end

section
/-! Firing: what an operation consumes, reserves and records, whatever its kind (R126, R127, R129, R307). -/

namespace Sys2Proof.Machine

/-! Stations and streams of a slot. -/

@[simp] theorem stationOf_modStation_same (i n : Nat) (f : StationState → StationState) (s : State) :
    stationOf (modStation i n f s) i n = f (stationOf s i n) := by
  rw [stationOf, modStation, slotOf_modSlot_same]
  exact kgetD_kmodD_same _ _ _ _

theorem stationOf_modStation_other {n m : Nat} (i : Nat) (f : StationState → StationState) (s : State) (h : m ≠ n) :
    stationOf (modStation i n f s) i m = stationOf s i m := by
  rw [stationOf, modStation, slotOf_modSlot_same]
  exact kgetD_kmodD_other _ _ _ h.symm

theorem slotOf_modStation_other {i j : Nat} (n : Nat) (f : StationState → StationState) (s : State) (h : j ≠ i) :
    slotOf (modStation i n f s) j = slotOf s j := slotOf_modSlot_other _ _ h.symm

@[simp] theorem streamOf_modStation (i n : Nat) (f : StationState → StationState) (s : State) (m : Nat) :
    streamOf (modStation i n f s) i m = streamOf s i m := by
  rw [streamOf, modStation, slotOf_modSlot_same, streamOf]

@[simp] theorem slotRoute_modStation (i n : Nat) (f : StationState → StationState) (s : State) :
    (slotOf (modStation i n f s) i).route = (slotOf s i).route := by rw [modStation, slotOf_modSlot_same]

@[simp] theorem slotTrain_modStation (i n : Nat) (f : StationState → StationState) (s : State) :
    (slotOf (modStation i n f s) i).train = (slotOf s i).train := by rw [modStation, slotOf_modSlot_same]

@[simp] theorem slotBeat_modStation (i n : Nat) (f : StationState → StationState) (s : State) :
    (slotOf (modStation i n f s) i).beat = (slotOf s i).beat := by rw [modStation, slotOf_modSlot_same]

theorem streamOf_modStream (i n : Nat) (f : StreamState → StreamState) (s : State) (m : Nat) :
    streamOf (modStream i n f s) i m = if m = n then f (streamOf s i n) else streamOf s i m := by
  rw [streamOf, modStream, slotOf_modSlot_same]
  by_cases h : m = n
  · rw [h, if_pos rfl]
    exact kgetD_kput_same _ _ _ _
  · rw [if_neg h]
    exact kgetD_kput_other _ _ _ (Ne.symm h)

@[simp] theorem stationOf_modStream (i n : Nat) (f : StreamState → StreamState) (s : State) (m : Nat) :
    stationOf (modStream i n f s) i m = stationOf s i m := by
  rw [stationOf, modStream, slotOf_modSlot_same, stationOf]

@[simp] theorem slotRoute_modStream (i n : Nat) (f : StreamState → StreamState) (s : State) :
    (slotOf (modStream i n f s) i).route = (slotOf s i).route := by rw [modStream, slotOf_modSlot_same]

@[simp] theorem slotTrain_modStream (i n : Nat) (f : StreamState → StreamState) (s : State) :
    (slotOf (modStream i n f s) i).train = (slotOf s i).train := by rw [modStream, slotOf_modSlot_same]

@[simp] theorem slotBeat_modStream (i n : Nat) (f : StreamState → StreamState) (s : State) :
    (slotOf (modStream i n f s) i).beat = (slotOf s i).beat := by rw [modStream, slotOf_modSlot_same]

theorem slotOf_modStream_other {i j : Nat} (n : Nat) (f : StreamState → StreamState) (s : State) (h : j ≠ i) :
    slotOf (modStream i n f s) j = slotOf s j := slotOf_modSlot_other _ _ h.symm

theorem stationOf_congr {s t : State} (h : t.slots = s.slots) (k n : Nat) : stationOf t k n = stationOf s k n := by
  rw [stationOf, slotOf_congr h, stationOf]

theorem streamOf_congr {s t : State} (h : t.slots = s.slots) (k n : Nat) : streamOf t k n = streamOf s k n := by
  rw [streamOf, slotOf_congr h, streamOf]

/-! What a firing reserves and records. -/

theorem foldl_add (xs : List Nat) (n : Nat) : xs.foldl (· + ·) n = n + xs.foldl (· + ·) 0 := by
  induction xs generalizing n with
  | nil => rfl
  | cons x xs ih =>
    rw [List.foldl_cons, ih, List.foldl_cons, ih (0 + x)]
    omega

theorem sumNat_cons (x : Nat) (xs : List Nat) : sumNat (x :: xs) = x + sumNat xs := by
  show (x :: xs).foldl (· + ·) 0 = x + xs.foldl (· + ·) 0
  rw [List.foldl_cons, foldl_add, Nat.zero_add]

/-- The credits of needs, by stream. -/
def creditsOf (r : Route) (n : Nat) (need : Needs) : List (Nat × Nat) :=
  need.filterMap (fun e => (r.output n e.1).map (fun w => (w.number, e.2)))

/-- Credits of one stream among those of needs. -/
def creditsOn (m : Nat) (taken : List (Nat × Nat)) : Nat := sumNat ((taken.filter (fun e => e.1 == m)).map (·.2))

theorem creditsOn_cons (m : Nat) (e : Nat × Nat) (taken : List (Nat × Nat)) :
    creditsOn m (e :: taken) = (if e.1 = m then e.2 else 0) + creditsOn m taken := by
  unfold creditsOn
  by_cases h : e.1 = m
  · rw [if_pos h, List.filter_cons_of_pos (by simp [h]), List.map_cons, sumNat_cons]
  · rw [if_neg h, List.filter_cons_of_neg (by simp [h]), Nat.zero_add]

/-- The reservation takes credits, and moves nothing else of the slots. -/
theorem reserve_frame (slot : Nat) (r : Route) (n : Nat) (need : Needs) (s : State) :
    (∀ m, (streamOf (reserve slot r n need s) slot m).credits = (streamOf s slot m).credits - creditsOn m (creditsOf r n need)) ∧
    (∀ m, stationOf (reserve slot r n need s) slot m = stationOf s slot m) ∧
    (slotOf (reserve slot r n need s) slot).route = (slotOf s slot).route ∧
    (∀ k, k ≠ slot → slotOf (reserve slot r n need s) k = slotOf s k) := by
  induction need generalizing s with
  | nil => exact ⟨fun _ => rfl, fun _ => rfl, rfl, fun _ _ => rfl⟩
  | cons e need ih =>
    have hReserve (s : State) : reserve slot r n (e :: need) s = reserve slot r n need (match r.output n e.1 with
      | some o => modStream slot o.number (fun x => { x with credits := x.credits - e.2 }) s
      | none => s) := rfl
    rw [hReserve]
    cases hOut : r.output n e.1 with
    | none =>
      have hNone : creditsOf r n (e :: need) = creditsOf r n need := by simp [creditsOf, hOut]
      rw [hNone]
      exact ih s
    | some o =>
      have hSome : creditsOf r n (e :: need) = (o.number, e.2) :: creditsOf r n need := by simp [creditsOf, hOut]
      obtain ⟨hCredits, hStations, hRoute, hOthers⟩ := ih (modStream slot o.number (fun x => { x with credits := x.credits - e.2 }) s)
      refine ⟨fun m => ?_, fun m => ?_, ?_, fun k hk => ?_⟩
      · rw [hSome, creditsOn_cons]
        refine (hCredits m).trans ?_
        rw [streamOf_modStream]
        by_cases h : m = o.number
        · rw [if_pos h, if_pos h.symm, h]
          dsimp only
          omega
        · rw [if_neg h, if_neg (Ne.symm h), Nat.zero_add]
      · exact (hStations m).trans (stationOf_modStream _ _ _ _ _)
      · exact hRoute.trans (slotRoute_modStream _ _ _ _)
      · exact (hOthers k hk).trans (slotOf_modStream_other _ _ _ hk)

/-- The value of the first scalar item that a firing has drawn. -/
def scalarDrawn (st : StationRec) (o : OpEntry) (es : List Entry) : Option Word :=
  ((es.zip o.inputs).find? (fun e => (st.queue e.2.queue).any (fun q => q.kind == 2))).map (fun e => BitVec.ofNat 32 (leNat e.1.payload))

/-- A firing as its station records it. -/
def firingRecorded (slot n op : Nat) (t : Word) (r : Route) (st : StationRec) (o : OpEntry) (need : Needs) (es : List Entry) (s : State) : State :=
  modStation slot n (fun x => { x with
    flight := x.flight ++ [⟨op, t, es, scalarDrawn st o es, [], false, creditsOf r n need⟩]
    fired := x.fired ++ [(op, t)]
    quota := kput x.quota op (kgetD 0 x.quota op + 1)
    next := (op + 1) % 64 }) (reserve slot r n need s)

theorem fired_firingRecorded (slot n op : Nat) (t : Word) (r : Route) (st : StationRec) (o : OpEntry) (need : Needs) (es : List Entry) (s : State) :
    Fired slot n op t es (creditsOf r n need) s (firingRecorded slot n op t r st o need es s) := by
  obtain ⟨hCredits, hStations, hRoute, hOthers⟩ := reserve_frame slot r n need s
  unfold firingRecorded
  refine ⟨⟨scalarDrawn st o es, ?_⟩, ?_, ?_, ?_, ?_, fun m => ?_, ?_, fun m hm => ?_, fun k hk => ?_⟩
  · rw [stationOf_modStation_same, hStations]
  · rw [stationOf_modStation_same, hStations]
  · rw [stationOf_modStation_same, hStations]
    exact kgetD_kput_same _ _ _ _
  · rw [stationOf_modStation_same]
  · rw [stationOf_modStation_same, hStations]
  · rw [streamOf_modStation]
    exact hCredits m
  · rw [slotRoute_modStation, hRoute]
  · rw [stationOf_modStation_other _ _ _ hm, hStations]
  · rw [slotOf_modStation_other _ _ _ hk, hOthers k hk]

/-! The firing of a kind (R127, R307). -/

theorem readyFor_drawAll {s : State} {slot : Nat} {r : Route} {st : StationRec} {o : OpEntry} {t : Word} {es : List Entry}
    (h : readyNow s slot r st o t = some es) : ∃ v, drawAll slot r st o.kind t o.inputs s = some (es, v) := by
  unfold readyNow readyFor at h
  split at h
  · split at h
    · obtain ⟨⟨_, v⟩, hDraw, rfl⟩ := Option.map_eq_some_iff.mp h
      exact ⟨v, hDraw⟩
    · cases h
  · cases h

/-- What a firing comes to, by what its check finds. -/
theorem fireKind_of_mayFire {kind slot n op : Nat} {t : Word} {r : Route} {st : StationRec} {o : OpEntry} {es : List Entry} {s : State}
    (h : MayFire kind slot n op t r st o es s) (f : Route → StationRec → OpEntry → List Entry → State → State) :
    fireKind kind slot n op t f s = (match (firingCheck slot n kind es s).2 with
      | .wait => (firingCheck slot n kind es s).1
      | .fail => modStation slot n (fun x => { x with fired := x.fired ++ [(op, t)] }) (failTag slot n t (firingCheck slot n kind es s).1)
      | .ok => match drawAll slot r st kind t o.inputs (firingCheck slot n kind es s).1 with
        | none => (firingCheck slot n kind es s).1
        | some (ds, v) =>
          f r st o ds (firingRecorded slot n op t r st o (if opReserves kind then opNeeds s slot r st o t else []) ds v)) := by
  obtain ⟨hRoute, hStation, hEntry, hKind, hMay, hChosen, hReady⟩ := h
  have hFound : (routeOf s slot).bind (fun r => (r.station n).bind (fun st => (st.ops[op]?).map (fun o => (r, st, o)))) = some (r, st, o) := by
    simp [hRoute, hStation, hEntry]
  have hGuard : ¬(o.kind ≠ kind ∨ stationMay s slot st = false ∨ chosen s slot r st ≠ some (op, t)) := by simp [hKind, hMay, hChosen]
  unfold fireKind
  rw [hFound]
  dsimp only
  rw [if_neg hGuard, hReady]
  rfl

/-- A command that is a firing of a kind fires by the rule, whatever the kind's effect. -/
theorem fires_of_fireKind {c : Nat → Nat → Nat → Word → Instr} {kind : Nat}
    {effect : Nat → Nat → Nat → Word → Route → StationRec → OpEntry → List Entry → State → State}
    (hExec : ∀ slot n op t s, exec (c slot n op t) s = .next (fireKind kind slot n op t (effect slot n op t) s)) : Fires c kind effect := by
  intro slot n op t r st o es s hMay x
  have hKind : o.kind = kind := hMay.kind
  have hFire := fireKind_of_mayFire hMay (effect slot n op t)
  refine ⟨?fires, ?drawn, ?waits, ?fails⟩
  case fires =>
    intro ds v hOk hDraw
    refine ⟨firingRecorded slot n op t r st o (if opReserves kind then opNeeds s slot r st o t else []) ds v, ?_, ?_⟩
    · rw [creditsTaken, hKind]
      exact fired_firingRecorded _ _ _ _ _ _ _ _ _ _
    · rw [hExec, hFire, show (firingCheck slot n kind es s).2 = .ok from hOk]
      dsimp only
      rw [show drawAll slot r st kind t o.inputs (firingCheck slot n kind es s).1 = some (ds, v) from hDraw]
  case drawn =>
    intro hNone
    have hCheck : firingCheck slot n kind es s = (s, .ok) := by
      rw [firingCheck, hNone]
      rfl
    refine ⟨hCheck, ?_⟩
    rw [← hKind]
    exact readyFor_drawAll hMay.ready
  case waits =>
    intro hWait
    rw [hExec, hFire, show (firingCheck slot n kind es s).2 = .wait from hWait]
  case fails =>
    intro hFail
    rw [hExec, hFire, show (firingCheck slot n kind es s).2 = .fail from hFail]

/-- An element of a contribution whose piece is not decided is staged (R353). -/
theorem stageElement_staged {slot k e : Nat} {x : CollRec} {s : State} (v : Word) (hElement : e < x.elements)
    (hDecided : kgetD 0 (collOf s slot).decided (pieceKey k (x.pieceOf e).1 (x.pieceOf e).2) = 0) :
    kget (collOf (stageElement slot k x e v s) slot).staged (elementKey k e) = some v := by
  have hGuard : ¬x.elements ≤ e := by omega
  unfold stageElement
  rw [if_neg hGuard]
  dsimp only
  rw [if_pos hDecided, collOf, modColl, kgetD_kmodD_same]
  exact kget_kput_same _ _ _

end Sys2Proof.Machine

open Sys2Proof Sys2Proof.Machine

/-- Settles O19: each command is the firing of its kind, and a firing consumes, reserves and records by the rule. -/
theorem operationsFireByTheFiringRule : Obligations.OperationsFireByTheFiringRule :=
  ⟨fires_of_fireKind fun _ _ _ _ _ => rfl, fires_of_fireKind fun _ _ _ _ _ => rfl, fires_of_fireKind fun _ _ _ _ _ => rfl,
    fires_of_fireKind fun _ _ _ _ _ => rfl, fires_of_fireKind fun _ _ _ _ _ => rfl⟩

/-- Settles O21: a contribution fires by the rule, and an element of it is staged while its piece is not decided. -/
theorem contributionsAreStaged : Obligations.ContributionsAreStaged :=
  ⟨fires_of_fireKind fun _ _ _ _ _ => rfl, fun _ _ _ _ v _ hElement hDecided => stageElement_staged v hElement hDecided⟩
end

section
/-! Forwards and emits (R131, R132, R140), and tiles of the Stash (R213-R216). -/

namespace Sys2Proof.Machine

theorem countStash_zero (slot n a k : Nat) (s : State) : countStash slot n a k 0 s = s := if_pos rfl

theorem countStash_slots (slot n a k c : Nat) (s : State) : (countStash slot n a k c s).slots = s.slots :=
  (countStash_keeps slot n a k c (.refl (· = .slots) s) (by simp)).parts .slots rfl

theorem countStash_mem (slot n a k c : Nat) (s : State) : (countStash slot n a k c s).mem = s.mem :=
  (countStash_keeps slot n a k c (.refl (· = .mem) s) (by simp)).parts .mem rfl

theorem writeData_slots (i offset : Nat) (data : Bytes) (s : State) : (writeData i offset data s).slots = s.slots :=
  (writeData_keeps i offset data (.refl (· = .slots) s) (by simp) (by simp) (by simp) (by simp)).parts .slots rfl

/-- The generations of pages leave their bytes and every slot. -/
theorem foldl_raiseGeneration (i : Nat) (pages : List Nat) (s : State) :
    (pages.foldl (fun s p => raiseGeneration i p s) s).mem.home = s.mem.home ∧
      (pages.foldl (fun s p => raiseGeneration i p s) s).slots = s.slots :=
  ⟨foldl_field (f := fun s p => raiseGeneration i p s) (g := fun s => s.mem.home) (fun _ _ => rfl) pages s,
    foldl_field (f := fun s p => raiseGeneration i p s) (g := State.slots) (fun _ _ => rfl) pages s⟩

/-- The bytes of a put tile in its cargo, before it is listed. -/
def tileStored (i base : Nat) (payload : Bytes) (s : State) : State :=
  (pagesOf base payload.length).foldl (fun s q => raiseGeneration i q s) (writeData i base payload s)

/-- A tile whose micro-batch lies on die is stored as it is (R214). -/
theorem putStash_onDie {slot n op i base : Nat} {t : Word} {r : Route} {st : StationRec} {e : Entry} {b : Bytes} {area : Nat × Nat} {s : State}
    (hRecord : stashRecord r n (hdrStream e.header) = some b) (hDie : tagMicro e.tag < stashOnDie b)
    (hArea : stashArea s r n b (tagMicro e.tag) = some (i, area))
    (hFit : fitTile area e.payload.length (stashUsed s slot n (stashStream b) (tagMicro e.tag)) = some base)
    (hLive : (kgetD Cargo.free s.mem.cargoes i).state = 1)
    (hRoom : base + e.payload.length ≤ (kgetD Cargo.free s.mem.cargoes i).pageCount * pageBytes) :
    putStash slot n op t r st [e] s = finishFlight slot n op t [] (countStash slot n (Station.array st.info) 0 1
      (modTrain slot (fun tr => { tr with stash := tr.stash ++
        [⟨n, stashStream b, e.tag, e.header, i, base, e.payload.length, false, none, false, hdrUses e.header⟩] })
        (tileStored i base e.payload s))) := by
  have hStays : ¬(stashOnDie b ≤ tagMicro e.tag) := by omega
  have hFormat : ¬(decide (stashOnDie b ≤ tagMicro e.tag) = true ∧ stashFormat b = 0xFF) := by simp [hStays]
  have hCargo : ¬((kgetD Cargo.free s.mem.cargoes i).state ≠ 1 ∨
      (kgetD Cargo.free s.mem.cargoes i).pageCount * pageBytes < base + e.payload.length) := by
    rw [hLive]
    omega
  unfold putStash
  dsimp only [List.head?]
  rw [hRecord]
  dsimp only
  rw [if_neg hFormat]
  simp only [hStays, decide_false, Bool.false_eq_true, if_false, hArea, Option.bind_some, hFit, Option.map_some]
  rw [if_neg hCargo]
  simp only [noCounts, countStash_zero]
  rfl

end Sys2Proof.Machine

open Sys2Proof Sys2Proof.Machine

/-- Settles O20: each command is the firing of its kind, and a tile that lies on die is listed with the bytes of its cargo written. -/
theorem itemsLeaveAndStashedTilesComeBack : Obligations.ItemsLeaveAndStashedTilesComeBack := by
  unfold Obligations.ItemsLeaveAndStashedTilesComeBack
  refine ⟨⟨fires_of_fireKind fun _ _ _ _ _ => rfl, fires_of_fireKind fun _ _ _ _ _ => rfl, fires_of_fireKind fun _ _ _ _ _ => rfl⟩,
    fires_of_fireKind fun _ _ _ _ _ => rfl, ?_⟩
  intro slot n op i base t r st e b area s hRecord hDie hArea hFit hLive hRoom u
  have hPut : u = _ := putStash_onDie (op := op) (t := t) (st := st) hRecord hDie hArea hFit hLive hRoom
  obtain ⟨hHome, hSlots⟩ := foldl_raiseGeneration i (pagesOf base e.payload.length) (writeData i base e.payload s)
  constructor
  · rw [hPut, finishFlight, slotTrain_modStation, slotOf_congr (countStash_slots _ _ _ _ _ _), modTrain_eq, slotOf_modSlot_same, tileStored,
      slotOf_congr hSlots, slotOf_congr (writeData_slots _ _ _ _)]
  · rw [hPut]
    show (countStash _ _ _ _ _ _).mem.home = _
    rw [countStash_mem]
    exact hHome
end

section
/-! Steering and merge units: tokens pair with tiles (R132-R135). -/

namespace Sys2Proof.Machine

/-- The two words of a token stream that stand at an array's control port reach its units. -/
theorem exec_tokenArrive {slot array lane : Nat} {a b : Bytes} {rest : List Bytes} {r : Route} {o : StreamRow} {s : State}
    (hRoute : routeOf s slot = some r) (hStream : r.streams.find? (fun o => o.lane == lane && r.emitted o 9 && r.endOf o == (array, 4)) = some o)
    (hArrived : arrivedAt s slot r o 2 0 = a :: b :: rest) : exec (.tokenArrive slot array lane) s =
      .next (takeToken array (BitVec.ofNat 32 (leNat a)) (BitVec.ofNat 32 (leNat b)) slot s (dropArrived slot r o 2 0 2 s)) := by
  show execTokenArrive slot array lane s = _
  unfold execTokenArrive
  simp only [hRoute, Option.bind_some, hStream, Option.map_some, hArrived]
  rfl

/-- A token whose words name a unit of its route is faulty, pairs, or waits. -/
theorem takeToken_of_unit {array unit choice input slot : Nat} {w0 w1 : Word} {u : UnitState} {s : State} (s' : State) (hUnit : unit < 16)
    (hKind : bits w1.toNat 31 28 = if unit < 8 then 1 else 2) (hNumber : bits w1.toNat 27 24 = unit % 8) (hChoice : bits w1.toNat 7 0 = choice)
    (hInput : input = if unit < 8 then 0 else choice) (hState : getUnit s array unit = some u) (hSlot : u.slot = slot)
    (hOpen : ∀ r, routeOf s slot = some r → retiredTile s slot r w0 = false) :
    takeToken array w0 w1 slot s s' =
      if faultyChoice unit choice = true then putUnit array unit { u with faulty := u.faulty ++ [w0] } s'
      else match firstIndex (fun t => hdrTag t.header == w0) (kgetD [] u.data input) with
        | some k => pairUnit array unit input ⟨w0, choice⟩ ((kgetD [] u.data input).getD k ⟨[], []⟩)
            { u with data := kput u.data input ((kgetD [] u.data input).eraseIdx k) } s'
        | none => if u.tokens.length < 32 then putUnit array unit { u with tokens := u.tokens ++ [⟨w0, choice⟩] } s' else s := by
  have hNamed : bits w1.toNat 27 24 + (if bits w1.toNat 31 28 = 2 then 8 else 0) = unit := by
    rw [hKind, hNumber]
    split
    case isTrue => simp; omega
    case isFalse => simp; omega
  have hGuard : ¬(bits w1.toNat 31 28 ≠ 1 ∧ bits w1.toNat 31 28 ≠ 2 ∨ 8 ≤ bits w1.toNat 27 24) := by
    rw [hKind, hNumber]
    split <;> simp <;> omega
  have hRetired : ¬(u.slot ≠ slot ∨ (routeOf s slot).any (fun r => retiredTile s slot r w0) = true) := by
    rintro (hNot | hAny)
    · exact hNot hSlot
    · cases hRoute : routeOf s slot with
      | none => simp [hRoute] at hAny
      | some r => simp [hRoute, hOpen r hRoute] at hAny
  unfold takeToken
  dsimp only
  rw [if_neg hGuard, hNamed, hState]
  dsimp only
  rw [if_neg hRetired, hChoice, ← hInput] <;> rfl

/-- A tile that is whole at a unit's input is checked, pairs with its token, or waits. -/
theorem arriveData_of_tile {array number input n : Nat} {damage : Bytes} {x : Tile} {u : UnitState} {r : Route} {w : UnitRow} {o : StreamRow}
    {s : State} (hState : getUnit s array number = some u) (hRoute : routeOf s u.slot = some r) (hRow : unitRow r array number = some w)
    (hInput : w.inputs[input]? = some n) (hStream : r.stream n = some o) (hTile : arrivedTile s u.slot r o = some x)
    (hOpen : (streamOf s u.slot o.number).stopped = false) :
    (hdrOk (spoil damage x.header) = false →
      arriveData u.slot array number input damage s = badHeader u.slot array w.station o.number (takeTile u.slot r o x s)) ∧
    (hdrOk (spoil damage x.header) = true → hdrStep (spoil damage x.header) = (slotOf s u.slot).train.step % 65536 →
      hdrAttempt (spoil damage x.header) = (slotOf s u.slot).train.attempt % 16 → retiredTile s u.slot r (hdrTag (spoil damage x.header)) = false →
      arriveData u.slot array number input damage s =
        match firstIndex (fun y => y.tag == hdrTag (spoil damage x.header) && (number < 8 || y.choice == input)) u.tokens with
        | some k => pairUnit array number input (u.tokens.getD k ⟨0, 0⟩) ⟨spoil damage x.header, x.payload⟩
            { u with tokens := u.tokens.eraseIdx k } (takeTile u.slot r o x s)
        | none => if (kgetD [] u.data input).length < 8 then putUnit array number
            { u with data := kput u.data input (kgetD [] u.data input ++ [⟨spoil damage x.header, x.payload⟩]) } (takeTile u.slot r o x s) else s) := by
  have hMine : (getUnit s array number).filter (fun y => y.slot == u.slot) = some u := by simp [hState]
  have hFound : (routeOf s u.slot).bind (fun r => (unitRow r array number).bind (fun w => (w.inputs[input]?).bind (fun n =>
      (r.stream n).bind (fun o => (arrivedTile s u.slot r o).map (fun t => (r, w, o, t)))))) = some (r, w, o, x) := by
    simp [hRoute, hRow, hInput, hStream, hTile]
  constructor
  · intro hBad
    unfold arriveData
    rw [hMine]
    dsimp only
    rw [hFound]
    dsimp only
    rw [if_neg (by simp [hOpen]), if_pos hBad]
  · intro hOk hStep hAttempt hRetired
    unfold arriveData
    rw [hMine]
    dsimp only
    rw [hFound]
    dsimp only
    rw [if_neg (by simp [hOpen]), if_neg (by simp [hOk]), if_neg (by simp [hStep, hAttempt]), if_neg (by simp [hRetired])] <;> rfl

theorem exec_steerOutput {array unit choice i k : Nat} {t : Tile} {u : UnitState} {r : Route} {w : UnitRow} {o : StreamRow} {s : State}
    (hState : getUnit s array unit = some u) (hFirst : firstIndex (pairMay s u array unit) u.paired = some k)
    (hPair : u.paired[k]? = some (choice, t)) (hOutput : pairOutput s u array unit (choice, t) = some (r, w, o))
    (hInput : w.inputs[if unit < 8 then 0 else choice]? = some i) :
    exec (.steerOutput array unit) s = .next (returnCredit u.slot i (putUnit array unit { u with paired := u.paired.eraseIdx k }
      (putStaged u.slot o.number ⟨renumber t.header o.number w.station, t.payload⟩
        (modStream u.slot o.number (fun x => { x with credits := x.credits - 1 }) s)))) := by
  have hGot : u.paired.getD k (0, ⟨[], []⟩) = (choice, t) := by rw [List.getD_eq_getElem?_getD, hPair, Option.getD_some]
  show execSteerOutput array unit s = _
  unfold execSteerOutput
  rw [hState]
  dsimp only
  rw [hFirst]
  dsimp only
  rw [hGot, hOutput]
  dsimp only
  rw [hInput]
  rfl

end Sys2Proof.Machine

open Sys2Proof Sys2Proof.Machine

/-- Settles O23: what a token and a tile find at their unit, and the pair that leaves. -/
theorem tokensPairWithTilesAtUnits : Obligations.TokensPairWithTilesAtUnits := by
  unfold Obligations.TokensPairWithTilesAtUnits
  refine ⟨?token, ?tile, ?pair, ?output⟩
  case token =>
    intro slot array lane unit choice a b rest r o u s hRoute hStream hArrived w0 w1 c s' hUnit hKind hNumber hChoice hState hSlot hRetired input
    have hOpen : ∀ q, routeOf s slot = some q → retiredTile s slot q w0 = false := by
      intro q hq
      rw [hRoute] at hq
      cases hq
      exact hRetired
    have hExec : exec c s = .next (takeToken array w0 w1 slot s s') := exec_tokenArrive hRoute hStream hArrived
    rw [takeToken_of_unit (input := input) s' hUnit hKind hNumber hChoice rfl hState hSlot hOpen] at hExec
    refine ⟨fun hFaulty => ?_, fun hGood k hFirst => ?_, fun hGood hNone => ?_⟩
    · rw [hExec, if_pos hFaulty]
    · rw [hExec, if_neg (by simp [hGood]), hFirst]
    · rw [hExec, if_neg (by simp [hGood]), hNone]
  case tile =>
    intro array unit input n merge damage x u r w o s hUnit hMerge hSteer number c hState hRoute hRow hInput hStream hTile hOpen h s'
    have hExec : exec c s = .next (arriveData u.slot array number input damage s) := by
      cases merge with
      | true => exact congrArg done (if_pos ⟨hUnit, hMerge rfl⟩)
      | false =>
        have hZero : input = 0 := hSteer rfl
        subst hZero
        exact congrArg done (if_pos hUnit)
    obtain ⟨hBad, hGood⟩ := arriveData_of_tile (damage := damage) hState hRoute hRow hInput hStream hTile hOpen
    refine ⟨fun hNot => by rw [hExec, hBad hNot], fun hOk hStep hAttempt hRetired => ?_⟩
    rw [hGood hOk hStep hAttempt hRetired] at hExec
    refine ⟨fun k hFirst => ?_, fun hNone => ?_⟩
    · rw [hExec, hFirst]
    · rw [hExec, hNone]
  case pair =>
    intro array unit input k t u s hKept
    exact if_neg hKept
  case output =>
    intro array unit choice i k t u r w o s hState hFirst hPair hOutput hInput
    exact exec_steerOutput hState hFirst hPair hOutput hInput
end

section
/-! Operations complete, gradient accumulators are admitted, and losses are summed (R129, R222, R223, R229). -/

namespace Sys2Proof.Machine

/-! Credit that comes back (R128). -/

/-- A stream is as it was but for its credits, or has sent what waited for them. -/
theorem addCredit_frame (slot stream n : Nat) (s : State) :
    (∀ m, stationOf (addCredit slot stream n s) slot m = stationOf s slot m) ∧
    (slotOf (addCredit slot stream n s) slot).train = (slotOf s slot).train ∧
    (∀ m, (streamOf (addCredit slot stream n s) slot m).stopped = (streamOf s slot m).stopped ∧
      ((streamOf s slot m).waiting = [] ∨ (streamOf s slot m).stopped = true →
        (streamOf (addCredit slot stream n s) slot m).staging = (streamOf s slot m).staging ∧
        (streamOf (addCredit slot stream n s) slot m).waiting = (streamOf s slot m).waiting)) := by
  unfold addCredit
  split
  · exact ⟨fun _ => rfl, rfl, fun _ => ⟨rfl, fun _ => ⟨rfl, rfl⟩⟩⟩
  · split
    · exact ⟨fun _ => rfl, rfl, fun _ => ⟨rfl, fun _ => ⟨rfl, rfl⟩⟩⟩
    · refine ⟨fun m => stationOf_modStream _ _ _ _ _, slotTrain_modStream _ _ _ _, fun m => ?_⟩
      rw [streamOf_modStream]
      by_cases h : m = stream
      · rw [if_pos h, ← h]
        refine ⟨rfl, ?_⟩
        rintro (hWaits | hStopped)
        · simp [hWaits]
        · simp [hStopped]
      · rw [if_neg h]
        exact ⟨rfl, fun _ => ⟨rfl, rfl⟩⟩

/-- Returned credits, one after another. -/
theorem foldl_addCredit_frame (slot : Nat) (es : List (Nat × Nat)) (s : State) :
    let t := es.foldl (fun s e => addCredit slot e.1 e.2 s) s
    (∀ m, stationOf t slot m = stationOf s slot m) ∧
    (∀ m, (streamOf t slot m).stopped = (streamOf s slot m).stopped ∧
      ((streamOf s slot m).waiting = [] ∨ (streamOf s slot m).stopped = true →
        (streamOf t slot m).staging = (streamOf s slot m).staging ∧ (streamOf t slot m).waiting = (streamOf s slot m).waiting)) := by
  induction es generalizing s with
  | nil => exact ⟨fun _ => rfl, fun _ => ⟨rfl, fun _ => ⟨rfl, rfl⟩⟩⟩
  | cons e es ih =>
    obtain ⟨hStations, hStreams⟩ := ih (addCredit slot e.1 e.2 s)
    obtain ⟨hStation, -, hStream⟩ := addCredit_frame slot e.1 e.2 s
    refine ⟨fun m => (hStations m).trans (hStation m), fun m => ?_⟩
    obtain ⟨hStopped, hStays⟩ := hStream m
    obtain ⟨hStopped', hStays'⟩ := hStreams m
    refine ⟨hStopped'.trans hStopped, fun hIdle => ?_⟩
    obtain ⟨hStaging, hWaiting⟩ := hStays hIdle
    obtain ⟨hStaging', hWaiting'⟩ := hStays' (by rw [hWaiting, hStopped]; exact hIdle)
    exact ⟨hStaging'.trans hStaging, hWaiting'.trans hWaiting⟩

/-! An operation completes (R129). -/

/-- The flight entry is released: its station keeps the other entries, and its streams their tiles. -/
theorem leaveFlight_frame (slot n op : Nat) (t : Word) (s : State) :
    stationOf (leaveFlight slot n op t s) slot n = { stationOf s slot n with
      flight := (stationOf s slot n).flight.filter (fun f => !(f.op == op && f.tag == t)) } ∧
    (∀ m, (streamOf s slot m).waiting = [] ∨ (streamOf s slot m).stopped = true →
      (streamOf (leaveFlight slot n op t s) slot m).staging = (streamOf s slot m).staging) := by
  unfold leaveFlight
  dsimp only
  generalize (stationOf s slot n).flight.filter (fun f => f.op == op && f.tag == t) = mine
  generalize hu : modStation slot n (fun x => { x with flight := x.flight.filter (fun f => !(f.op == op && f.tag == t)) }) s = u
  have hStation : stationOf u slot n = { stationOf s slot n with
      flight := (stationOf s slot n).flight.filter (fun f => !(f.op == op && f.tag == t)) } := by
    rw [← hu, stationOf_modStation_same]
  have hStream (m : Nat) : streamOf u slot m = streamOf s slot m := by rw [← hu, streamOf_modStation]
  rw [← List.foldl_flatMap (f := fun f : Flight => f.reserved) (g := fun s e => addCredit slot e.1 e.2 s)]
  obtain ⟨hStations, hStreams⟩ := foldl_addCredit_frame slot (mine.flatMap (fun f => f.reserved)) u
  refine ⟨(hStations n).trans hStation, fun m hIdle => ?_⟩
  have hStays := ((hStreams m).2 (by rw [hStream]; exact hIdle)).1
  rw [hStream] at hStays
  exact hStays

/-- A reserved tile leaves: its station keeps what it has but for the credit reserved, and its stream takes it unless it is stopped. -/
theorem sendReserved_frame (slot n op : Nat) (t : Word) (stream : Nat) (x : Tile) (s : State) :
    (∃ f : Flight → Flight, (∀ y, (f y).op = y.op ∧ (f y).tag = y.tag ∧ (¬(y.op == op && y.tag == t) = true → f y = y)) ∧
      stationOf (sendReserved slot n op t stream x s) slot n = { stationOf s slot n with flight := (stationOf s slot n).flight.map f }) ∧
    (∀ m, (streamOf (sendReserved slot n op t stream x s) slot m).stopped = (streamOf s slot m).stopped ∧
      (streamOf (sendReserved slot n op t stream x s) slot m).waiting = (streamOf s slot m).waiting ∧
      (streamOf (sendReserved slot n op t stream x s) slot m).staging = (streamOf s slot m).staging ++
        (if m = stream ∧ (streamOf s slot m).stopped = false then [⟨x, 0, 0⟩] else [])) := by
  constructor
  · refine ⟨fun f => if f.op == op && f.tag == t then
      { f with reserved := f.reserved.map (fun e => if e.1 = stream then (e.1, e.2 - 1) else e) } else f, fun y => ?_, ?_⟩
    · dsimp only
      split
      · exact ⟨rfl, rfl, fun h => absurd ‹_› h⟩
      · exact ⟨rfl, rfl, fun _ => rfl⟩
    · rw [sendReserved, putStaged, stationOf_modStream, stationOf_modStation_same]
  · intro m
    rw [sendReserved, putStaged, streamOf_modStream, streamOf_modStation, streamOf_modStation]
    by_cases h : m = stream
    · rw [if_pos h, h]
      cases hStopped : (streamOf s slot stream).stopped <;> simp [hStopped]
    · rw [if_neg h]
      simp [h]

/-- The outputs of a firing leave one after another. -/
theorem foldl_sendReserved_frame (slot n op : Nat) (t : Word) (outputs : List (Nat × Tile)) (s : State) :
    let u := outputs.foldl (fun s e => sendReserved slot n op t e.1 e.2 s) s
    (stationOf u slot n).flight.filter (fun g => !(g.op == op && g.tag == t)) =
      (stationOf s slot n).flight.filter (fun g => !(g.op == op && g.tag == t)) ∧
    (stationOf u slot n).failed = (stationOf s slot n).failed ∧ (stationOf u slot n).completed = (stationOf s slot n).completed ∧
    (∀ m, (streamOf u slot m).stopped = (streamOf s slot m).stopped ∧ (streamOf u slot m).waiting = (streamOf s slot m).waiting ∧
      (streamOf u slot m).staging = (streamOf s slot m).staging ++
        (if (streamOf s slot m).stopped = false then (outputs.filter (fun e => e.1 == m)).map (fun e => ⟨e.2, 0, 0⟩) else [])) := by
  induction outputs generalizing s with
  | nil => exact ⟨rfl, rfl, rfl, fun m => ⟨rfl, rfl, by simp⟩⟩
  | cons e es ih =>
    obtain ⟨hFlight, hFailed, hCompleted, hStreams⟩ := ih (sendReserved slot n op t e.1 e.2 s)
    obtain ⟨⟨f, hf, hStation⟩, hStream⟩ := sendReserved_frame slot n op t e.1 e.2 s
    rw [hStation] at hFlight hFailed hCompleted
    refine ⟨hFlight.trans ?_, hFailed, hCompleted, fun m => ?_⟩
    · dsimp only
      generalize (stationOf s slot n).flight = fs
      induction fs with
      | nil => rfl
      | cons y ys ihFlight =>
        obtain ⟨hOp, hTag, hSame⟩ := hf y
        rw [List.map_cons, List.filter_cons, List.filter_cons, ihFlight, hOp, hTag]
        split
        case isTrue hKept => rw [hSame (by rw [Bool.not_eq_true'] at hKept; simp [hKept])]
        case isFalse => rfl
    · obtain ⟨hStopped, hWaiting, hStaging⟩ := hStream m
      obtain ⟨hStopped', hWaiting', hStaging'⟩ := hStreams m
      refine ⟨hStopped'.trans hStopped, hWaiting'.trans hWaiting, hStaging'.trans ?_⟩
      rw [hStaging, hStopped, List.append_assoc]
      congr 1
      by_cases h : e.1 = m
      · cases (streamOf s slot m).stopped <;> simp [h]
      · simp [h, Ne.symm h]

theorem reported_slot (slot : Nat) (before s : State) : (slotOf (reported slot before s) slot).stations = (slotOf s slot).stations ∧
    (slotOf (reported slot before s) slot).streams = (slotOf s slot).streams ∧ (slotOf (reported slot before s) slot).train = (slotOf s slot).train := by
  unfold reported
  dsimp only
  split
  · rw [modSlotBeat_eq, slotOf_modSlot_same]
    exact ⟨rfl, rfl, rfl⟩
  · exact ⟨rfl, rfl, rfl⟩

theorem stationOf_reported (slot : Nat) (before s : State) (n : Nat) : stationOf (reported slot before s) slot n = stationOf s slot n := by
  rw [stationOf, (reported_slot slot before s).1, stationOf]

theorem streamOf_reported (slot : Nat) (before s : State) (n : Nat) : streamOf (reported slot before s) slot n = streamOf s slot n := by
  rw [streamOf, (reported_slot slot before s).2.1, streamOf]

/-- What the completion of an operation whose unit has finished leaves of its station and of the streams of its slot. -/
theorem completeOp_frame {slot n op : Nat} {t : Word} {f : Flight} {s : State}
    (hEnded : (stationOf s slot n).flight.find? (fun f => f.op == op && f.tag == t && f.finished) = some f) :
    (stationOf (completeOp slot n op t s) slot n).flight = (stationOf s slot n).flight.filter (fun g => !(g.op == op && g.tag == t)) ∧
    (stationOf (completeOp slot n op t s) slot n).completed =
      (if (stationOf s slot n).failed.contains t then (stationOf s slot n).completed else (stationOf s slot n).completed ++ [(op, t)]) ∧
    (∀ m, (streamOf s slot m).waiting = [] ∨ (streamOf s slot m).stopped = true →
      (streamOf (completeOp slot n op t s) slot m).staging = (streamOf s slot m).staging ++
        (if (streamOf s slot m).stopped = false then (f.outputs.filter (fun e => e.1 == m)).map (fun e => ⟨e.2, 0, 0⟩) else [])) := by
  obtain ⟨hFlight, hFailed, hCompleted, hStreams⟩ := foldl_sendReserved_frame slot n op t f.outputs s
  generalize hu : f.outputs.foldl (fun s e => sendReserved slot n op t e.1 e.2 s) s = u at hFlight hFailed hCompleted hStreams
  obtain ⟨hStation, hStaging⟩ := leaveFlight_frame slot n op t u
  have hComplete : completeOp slot n op t s = reported slot s (modStation slot n (fun x => { x with
      completed := if x.failed.contains t then x.completed else x.completed ++ [(op, t)] }) (leaveFlight slot n op t u)) := by
    unfold completeOp
    rw [hEnded]
    dsimp only
    rw [hu]
  refine ⟨?_, ?_, fun m hIdle => ?_⟩
  · rw [hComplete, stationOf_reported, stationOf_modStation_same, hStation]
    exact hFlight
  · rw [hComplete, stationOf_reported, stationOf_modStation_same, hStation]
    dsimp only
    rw [hFailed, hCompleted]
  · obtain ⟨hStopped, hWaiting, hOut⟩ := hStreams m
    rw [hComplete, streamOf_reported, streamOf_modStation, hStaging m (by rw [hWaiting, hStopped]; exact hIdle), hOut]

theorem stageAnswer_slots (slot n op : Nat) (t : Word) (s : State) : (stageAnswer slot n op t s).slots = s.slots :=
  (stageAnswer_keeps slot n op t (.refl (· = .slots) s) (by simp)).parts .slots rfl

/-- The accumulator that an MMO of a station delivers into, with its route. -/
def operationGa (slot n op : Nat) (s : State) : Option (Route × GaRec) :=
  (routeOf s slot).bind (fun r => (r.station n).bind (fun st => (st.ops[op]?).bind (fun o =>
    if o.kind = 0 then (gaFor r st.info.place (mmoDesc r o)).map (fun g => (r, g)) else none)))

theorem exec_operationComplete_of_ended {slot n op : Nat} {t : Word} {f : Flight} {s : State}
    (hEnded : (stationOf s slot n).flight.find? (fun f => f.op == op && f.tag == t && f.finished) = some f) :
    exec (.operationComplete slot n op t) s = .next (match operationGa slot n op s with
      | some (r, g) =>
        if gaExcess s slot g (tagMicro t, sourceOf g n) then completeOp slot n op t (excessGa slot g n t s)
        else drainGa slot r g (admitGa slot g (tagMicro t, sourceOf g n) (completeOp slot n op t s))
      | none => completeOp slot n op t (stageAnswer slot n op t s)) := by
  have hAny : (stationOf s slot n).flight.any (fun f => f.op == op && f.tag == t && f.finished) = true :=
    List.any_eq_true.mpr ⟨f, List.mem_of_find?_eq_some hEnded, List.find?_some (p := fun f : Flight => f.op == op && f.tag == t && f.finished) hEnded⟩
  show execOperationComplete slot n op t s = _
  unfold execOperationComplete
  dsimp only
  rw [hAny, ← operationGa]
  cases operationGa slot n op s <;> rfl

theorem exec_operationComplete_of_running {slot n op : Nat} {t : Word} {s : State}
    (h : ∀ f ∈ (stationOf s slot n).flight, ¬(f.op = op ∧ f.tag = t ∧ f.finished = true)) :
    exec (.operationComplete slot n op t) s = .next s := by
  have hAny : (stationOf s slot n).flight.any (fun f => f.op == op && f.tag == t && f.finished) = false := by
    refine List.any_eq_false.mpr (fun f hf => ?_)
    simpa [and_assoc] using h f hf
  show execOperationComplete slot n op t s = _
  unfold execOperationComplete
  dsimp only
  rw [hAny]
  cases (routeOf s slot).bind (fun r => (r.station n).bind (fun st => (st.ops[op]?).bind (fun o =>
    if o.kind = 0 then (gaFor r st.info.place (mmoDesc r o)).map (fun g => (r, g)) else none))) <;> rfl

/-! The loss collector (R229). -/

theorem length_insertLoss (x : Nat × Nat × Word) (items : List (Nat × Nat × Word)) : (insertLoss x items).length = items.length + 1 := by
  induction items with
  | nil => rfl
  | cons y ys ih =>
    unfold insertLoss
    split
    · rfl
    · rw [List.length_cons, ih, List.length_cons]

/-- The item taken from its lane, its credit on its way back. -/
def lossTaken (slot stream : Nat) (r : Route) (o : StreamRow) (s : State) : State :=
  addCredit slot stream 1 (dropArrived slot r o 0 0 1 s)

theorem lossTaken_frame (slot stream : Nat) (r : Route) (o : StreamRow) (s : State) :
    (slotOf (lossTaken slot stream r o s) slot).train = (slotOf s slot).train ∧
      (lossTaken slot stream r o s).fab = (dropArrived slot r o 0 0 1 s).fab :=
  ⟨(addCredit_frame slot stream 1 _).2.1, (addCredit_keeps slot stream 1 (.refl (· = .fab) _) (by simp)).parts .fab rfl⟩

/-- An item of the loss is summed with those of its step. -/
def lossSummed (slot : Nat) (r : Route) (items : List (Nat × Nat × Word)) : State → State :=
  modTrain slot (fun t => { t with
    lossItems := items
    stepLoss := if items.length = lossCount r then some (BitVec.ofNat 64 (items.foldl (fun x e => add64 x (widen64 e.2.2)) 0)) else t.stepLoss
    lossPending := t.lossPending || decide (items.length = lossCount r) })

theorem exec_lossItem {slot array stream : Nat} {w : Bytes} {rest : List Bytes} {r : Route} {o : StreamRow} {s : State}
    (hRoute : routeOf s slot = some r) (hStream : r.stream stream = some o) (hArrived : arrivedAt s slot r o 0 0 = w :: rest)
    (hLoss : stream ∈ lossStreams r) (hArray : (r.endOf o).1 = array) (hRoom : (slotOf s slot).train.lossItems.length < lossCount r)
    (hState : (slotOf s slot).train.state = 1) : exec (.lossItem slot array stream) s = .next (lossSummed slot r
      (insertLoss (tagMicro (itemTag (BitVec.ofNat 64 (leNat w))), stream, itemValue (BitVec.ofNat 64 (leNat w))) (slotOf s slot).train.lossItems)
      (lossTaken slot stream r o s)) := by
  have hFound : (routeOf s slot).bind (fun r => (r.stream stream).map (fun o => (r, o))) = some (r, o) := by simp [hRoute, hStream]
  have hFull : ¬lossCount r ≤ (slotOf s slot).train.lossItems.length := by omega
  obtain ⟨hTrain, -⟩ := lossTaken_frame slot stream r o s
  show execLossItem slot array stream s = _
  unfold execLossItem
  rw [hFound]
  dsimp only
  rw [hArrived]
  dsimp only
  rw [if_neg (by simp [hLoss, hArray]), ← lossTaken, hTrain, if_neg (by simp [hFull, hState])]
  rfl

end Sys2Proof.Machine

open Sys2Proof Sys2Proof.Machine

/-- Settles O24: what an operation that ends leaves of its station and its streams, and what an accumulator and the loss collector take. -/
theorem operationsCompleteAndContribute : Obligations.OperationsCompleteAndContribute := by
  unfold Obligations.OperationsCompleteAndContribute
  refine ⟨?running, ?completes, ?contributes, ?admitted, ?loss⟩
  case running => exact fun slot n op t s h => exec_operationComplete_of_running h
  case completes =>
    intro slot n op t f s hEnded hNoGa
    have hExec := exec_operationComplete_of_ended hEnded
    have hNone : operationGa slot n op s = none := by
      unfold operationGa
      cases hRoute : routeOf s slot with
      | none => rfl
      | some r =>
        cases hStation : r.station n with
        | none => simp [hStation]
        | some st =>
          cases hOp : st.ops[op]? with
          | none => simp [hStation, hOp]
          | some o =>
            cases hGa : gaFor r st.info.place (mmoDesc r o) with
            | none => simp [hStation, hOp, hGa]
            | some g => simp [hStation, hOp, hNoGa r st o g hRoute hStation hOp hGa]
    rw [hNone] at hExec
    have hSlots := stageAnswer_slots slot n op t s
    obtain ⟨hFlight, hCompleted, hStaging⟩ := completeOp_frame (s := stageAnswer slot n op t s) (by rw [stationOf_congr hSlots]; exact hEnded)
    rw [stationOf_congr hSlots] at hFlight hCompleted
    refine ⟨_, hExec, hFlight, ?_, ?_, ?_, ?_, sameBut_of_exec (by simp) hExec⟩
    · intro hGood
      rw [hCompleted, if_neg (by simpa using hGood)]
    · intro hFailed
      rw [hCompleted, if_pos (by simpa using hFailed)]
    · intro m hOpen hIdle
      have hStage := hStaging m
      rw [streamOf_congr hSlots, if_pos hOpen] at hStage
      exact hStage (.inl hIdle)
    · intro m hStopped
      have hStage := hStaging m
      rw [streamOf_congr hSlots, hStopped] at hStage
      simpa using hStage (.inr rfl)
  case contributes =>
    intro slot n op t f r st o g s hEnded hRoute hStation hOp hKind hGa hNew
    have hFound : operationGa slot n op s = some (r, g) := by simp [operationGa, hRoute, hStation, hOp, hKind, hGa]
    rw [exec_operationComplete_of_ended hEnded, hFound]
    dsimp only
    rw [if_neg (by simp [hNew])]
  case admitted =>
    intro slot ga source micro q k r g st e s hRoute hGa hTile hOwner hFires hNext hNew
    show execGaAdmit slot ga source micro s = _
    unfold execGaAdmit
    rw [hRoute]
    dsimp only
    rw [hGa]
    dsimp only
    rw [hTile, hOwner]
    dsimp only
    rw [if_neg (by simp [hFires, hNext]), if_neg (by simp [hNew])]
    rfl
  case loss =>
    intro slot array stream w rest r o s hRoute hStream hArrived hLoss hArray hRoom hState item
    have hExec := exec_lossItem hRoute hStream hArrived hLoss hArray hRoom hState
    obtain ⟨hTrain, hFab⟩ := lossTaken_frame slot stream r o s
    have hLength := length_insertLoss (tagMicro (itemTag item), stream, itemValue item) (slotOf s slot).train.lossItems
    refine ⟨_, hExec, ?_, ?_, ?_, hFab, (sameBut_of_exec (by simp) hExec).mono (by simp [touches])⟩
    · rw [lossSummed, modTrain_eq, slotOf_modSlot_same]
    · intro hLast
      have hAll : (insertLoss (tagMicro (itemTag item), stream, itemValue item) (slotOf s slot).train.lossItems).length = lossCount r := by
        rw [hLength, hLast]
      rw [lossSummed, modTrain_eq, slotOf_modSlot_same]
      exact ⟨if_pos hAll, by simp [item, hAll]⟩
    · intro hMore
      have hSome : ¬(insertLoss (tagMicro (itemTag item), stream, itemValue item) (slotOf s slot).train.lossItems).length = lossCount r := by
        rw [hLength]
        omega
      rw [lossSummed, modTrain_eq, slotOf_modSlot_same]
      dsimp only
      rw [if_neg hSome, hTrain]
end

section
/-! Stopped streams restart (R123), and Kilns go on once their coefficients are there (R249). -/

namespace Sys2Proof.Machine

theorem clearStopped_slots (slot : Nat) (s : State) : (clearStopped slot s).slots = s.slots :=
  (clearStopped_keeps slot (.refl (· = .slots) s) (by simp)).parts .slots rfl

/-- A training route whose reload fails is halted. -/
def reloadFailed (slot : Nat) (r : Route) (s : State) : State :=
  if r.training then count 0x5105 slot 1 (modTrain slot (fun t => { t with state := 3 }) s) else s

theorem exec_streamRestart {slot n : Nat} {r : Route} {s : State} (hRoute : routeOf s slot = some r) (hStopped : (streamOf s slot n).stopped = true)
    (hPhase : (slotOf s slot).beat.phase = 1) (hFirst : r.training = true → (slotOf s slot).train.state = 1 ∧ (slotOf s slot).beat.offset = 0) :
    exec (.streamRestart slot n) s = .next (if (streamOf s slot n).reload = false ∨ imageMatches s r = true then
      clearStopped slot (modStream slot n (fun y => { y with stopped := false, reload := false }) s)
    else event evtReloadFail (atSlot slot) [] (reloadFailed slot r s)) := by
  have hGuard : ¬((streamOf s slot n).stopped = false ∨
      (r.training = true ∧ ((slotOf s slot).train.state ≠ 1 ∨ (slotOf s slot).beat.offset ≠ 0)) ∨ (slotOf s slot).beat.phase ≠ 1) := by
    rintro (h | ⟨hTraining, hLater⟩ | h)
    · rw [hStopped] at h
      cases h
    · obtain ⟨hState, hOffset⟩ := hFirst hTraining
      exact hLater.elim (fun h => h hState) (fun h => h hOffset)
    · exact h hPhase
  show execStreamRestart slot n s = _
  unfold execStreamRestart
  rw [hRoute]
  dsimp only
  rw [if_neg hGuard]
  rfl

theorem reloadFailed_frame (slot : Nat) (r : Route) (s : State) : (∀ n, streamOf (reloadFailed slot r s) slot n = streamOf s slot n) ∧
    (slotOf (reloadFailed slot r s) slot).train = (if r.training then { (slotOf s slot).train with state := 3 } else (slotOf s slot).train) ∧
    (reloadFailed slot r s).led = s.led := by
  unfold reloadFailed
  split
  · refine ⟨fun n => ?_, ?_, rfl⟩
    · rw [streamOf, slotOf_count, modTrain_eq, slotOf_modSlot_same, streamOf]
    · rw [slotOf_count, modTrain_eq, slotOf_modSlot_same]
  · exact ⟨fun _ => rfl, rfl, rfl⟩

end Sys2Proof.Machine

open Sys2Proof Sys2Proof.Machine

/-- Settles O25: what the restart of a stream finds, and the Kilns that go on with the coefficients. -/
theorem streamsRestartAndKilnsGoOn : Obligations.StreamsRestartAndKilnsGoOn := by
  unfold Obligations.StreamsRestartAndKilnsGoOn
  constructor
  · intro slot n r s hRoute hStopped hPhase hFirst
    have hExec := exec_streamRestart hRoute hStopped hPhase hFirst
    refine ⟨fun hWhole => ?_, fun hReload hLost => ?_⟩
    · rw [if_pos hWhole] at hExec
      have hStream := streamOf_congr (clearStopped_slots slot (modStream slot n (fun y => { y with stopped := false, reload := false }) s)) slot
      refine ⟨_, hExec, ?_, ?_, fun m hm => ?_, ?_⟩
      · rw [hStream, streamOf_modStream, if_pos rfl]
      · rw [hStream, streamOf_modStream, if_pos rfl]
      · rw [hStream, streamOf_modStream, if_neg hm]
      · exact (clearStopped_keeps slot (modStream_keeps slot n _ (.refl (· ∉ [Part.slots, .serves]) s) (by simp)) (by simp)).sameBut
    · rw [if_neg (by simp [hReload, hLost])] at hExec
      obtain ⟨hStreams, hTrain, hLed⟩ := reloadFailed_frame slot r s
      refine ⟨_, hExec, ?_, ?_, fun hTraining => ?_, fun hServing => ?_, sameBut_of_exec (by simp) hExec⟩
      · rw [event_led, hLed]
      · rw [streamOf_congr (event_slots _ _ _ _), hStreams, hStopped]
      · rw [slotOf_event, hTrain, if_pos hTraining]
      · rw [slotOf_event, hTrain, if_neg (by simp [hServing])]
  · intro slot s hNorm hPending hReady
    exact congrArg done (if_pos ⟨hNorm, hPending, hReady⟩)
end

section
/-! Admission: requests take slots, queue, or are refused (R412-R415). -/

namespace Sys2Proof.Machine

/-! The objects of a client's block (R424). -/

theorem objRows_below_clients : ∀ r ∈ objRows, ¬(0x4000 ≤ r.index ∧ r.index ≤ 0x43FF) := by decide +kernel
theorem ctrRows_above_clients : ∀ c ∈ ctrRows, 0x4400 ≤ c.base := by decide +kernel

theorem objRow_of_client {index : Nat} (sub : Nat) (h : 0x4000 ≤ index ∧ index ≤ 0x43FF) :
    objRow index sub = clientRows.find? (fun r => r.index == index % 16 && r.first ≤ sub && sub ≤ r.last) := by
  have hNoRow : objRows.find? (fun r => r.index == index && r.first ≤ sub && sub ≤ r.last) = none := by
    refine List.find?_eq_none.mpr (fun r hr hFound => objRows_below_clients r hr ?_)
    obtain ⟨⟨hIndex, -⟩, -⟩ : (r.index = index ∧ r.first ≤ sub) ∧ sub ≤ r.last := by simpa using hFound
    rw [hIndex]
    exact h
  have hNoCounter : ctrRow index = none := by
    refine List.find?_eq_none.mpr (fun c hc hFound => ?_)
    have hBase := ctrRows_above_clients c hc
    have hLow : c.base ≤ index := by simpa using (Bool.and_eq_true_iff.mp hFound).1
    omega
  unfold objRow
  rw [hNoRow, hNoCounter]
  dsimp only
  rw [clientRow, if_pos h]

/-- The three objects of a client's block that only act. -/
theorem rowOf_client_access {index offset : Nat} (hBlock : 0x4000 ≤ index ∧ index ≤ 0x43FF) (hOffset : index % 16 = offset)
    (hActs : offset = 1 ∨ offset = 5 ∨ offset = 6) : (rowOf index 0).access = .wo := by
  rw [rowOf, objRow_of_client 0 hBlock, hOffset]
  obtain rfl | rfl | rfl := hActs <;> rfl

theorem writeEffect_client {index : Nat} (who : Who) (b : Bytes) (s : State) (hBlock : 0x4000 ≤ index ∧ index ≤ 0x43FF)
    (hActs : index % 16 = 1 ∨ index % 16 = 5 ∨ index % 16 = 6) : writeEffect who index 0 b s = (match index % 16 with
      | 1 => admitEffect ((index - 0x4000) / 16) b s
      | 5 => releaseEffect ((index - 0x4000) / 16) (leNat b) s
      | _ => cancelEffect ((index - 0x4000) / 16) s) := by
  rw [writeEffect_of_command who b s (rowOf_client_access hBlock rfl hActs) (by omega) (by omega)]
  unfold commandEffect
  split
  case h_18 => rfl
  all_goals omega

/-! Requests (R412-R414). -/

/-- The request is noted. -/
def requestNoted (n : Nat) (b : Bytes) (s : State) : State := modAdmission n (fun a => { a with request := b, beat := s.beat.count }) s

theorem admitEffect_of_legal {n : Nat} {b : Bytes} {s : State} (hQueued : (admissionOf s n).state ≠ 1) (hLoads : (admissionOf s n).state ≠ 2)
    (hLength : admLength b ≠ 0) (hSlot : admSlot b < 4 ∨ admSlot b = 255) (hFlags : field b 13 1 ≤ 1) (hZero : zeroAt b 14 2 = true)
    (hZero' : zeroAt b 48 16 = true) (hCargo : ∃ e, cargoOf s (admHandle b) = some e ∧ e.2.client = n)
    (hRoom : (slotsHeld s n).length < setting s 0x2A03 n) : admitEffect n b s = (stOk, match openSlots (requestNoted n b s) b with
      | k :: _ => startLoad n k (requestNoted n b s)
      | [] => if admQueue b then setAdmission n { admissionOf (requestNoted n b s) n with state := 1 } (requestNoted n b s)
        else refuse n 0xFF stCapacity (requestNoted n b s)) := by
  obtain ⟨e, hFound, hClient⟩ := hCargo
  have hGood : (cargoOf s (admHandle b)).any (fun e => e.2.client == n) = true := by simp [hFound, hClient]
  have hFull : ¬setting s 0x2A03 n ≤ (slotsHeld s n).length := by omega
  have hSlot' : (decide (4 ≤ admSlot b) && admSlot b != 0xFF) = false := by
    obtain h | h := hSlot
    · simp [Nat.not_le.mpr h]
    · simp [h]
  have hFlags' : ¬1 < field b 13 1 := by omega
  unfold admitEffect
  dsimp only
  rw [hGood, hSlot', hZero, hZero', checked_of_ok (by simp [firstStatus, hQueued, hLoads, hLength, hFlags', hFull])]
  rfl

theorem cancelEffect_of_queued {n : Nat} {s : State} (h : (admissionOf s n).state = 1) :
    cancelEffect n s = (stOk, setAdmission n { admissionOf s n with state := 0 } s) :=
  checked_of_ok (by simp [firstStatus, h]) _ _

/-! What an admission and a refusal leave. -/

theorem setAdmission_admissions (n : Nat) (a : Admission) (s : State) :
    (setAdmission n a s).admissions = kmodD Admission.none s.admissions n (fun _ => a) := by
  have hSignal (f v : Nat) (t : State) : (signal f v t).admissions = t.admissions :=
    (signal_keeps f v (.refl (· = .admissions) t) (by simp) (by simp)).parts .admissions rfl
  unfold setAdmission
  dsimp only
  split
  · rw [hSignal]
    rfl
  · rfl

@[simp] theorem admissionOf_setAdmission_same (n : Nat) (a : Admission) (s : State) : admissionOf (setAdmission n a s) n = a := by
  rw [admissionOf, setAdmission_admissions, kgetD_kmodD_same]

theorem admissionOf_setAdmission_other {n m : Nat} (a : Admission) (s : State) (h : m ≠ n) :
    admissionOf (setAdmission n a s) m = admissionOf s m := by
  rw [admissionOf, setAdmission_admissions, kgetD_kmodD_other _ _ _ h.symm, admissionOf]

theorem setAdmission_slots (n : Nat) (a : Admission) (s : State) : (setAdmission n a s).slots = s.slots :=
  (setAdmission_keeps n a (.refl (· = .slots) s) (by simp) (by simp) (by simp)).parts .slots rfl

theorem setAdmission_led (n : Nat) (a : Admission) (s : State) : (setAdmission n a s).led = s.led :=
  (setAdmission_keeps n a (.refl (· = .led) s) (by simp) (by simp) (by simp)).parts .led rfl

theorem startLoad_frame (n k : Nat) (s : State) :
    admissionOf (startLoad n k s) n = { admissionOf s n with state := 2, slot := k } ∧
    slotOf (startLoad n k s) k = { Slot.free with state := 1, owner := n } ∧
    (∀ j, j ≠ k → slotOf (startLoad n k s) j = slotOf s j) ∧ (∀ m, m ≠ n → admissionOf (startLoad n k s) m = admissionOf s m) := by
  unfold startLoad
  refine ⟨admissionOf_setAdmission_same _ _ _, ?_, fun j hj => ?_, fun m hm => admissionOf_setAdmission_other _ _ hm⟩
  · rw [slotOf_congr (setAdmission_slots _ _ _)]
    exact slotOf_modSlot_same s k (fun _ => { Slot.free with state := 1, owner := n })
  · rw [slotOf_congr (setAdmission_slots _ _ _)]
    exact slotOf_modSlot_other s (fun _ => { Slot.free with state := 1, owner := n }) hj.symm

theorem refuse_frame (n k status : Nat) (s : State) : admissionOf (refuse n k status s) n = { admissionOf s n with state := 4, refusal := status } ∧
    (refuse n k status s).slots = s.slots ∧ (refuse n k status s).led.events = (s.led.events + 1) % 2 ^ 64 := by
  unfold refuse
  refine ⟨?_, ?_, ?_⟩
  · rw [admissionOf, event_admissions, count_admissions]
    exact admissionOf_setAdmission_same _ _ _
  · rw [event_slots, count_slots, setAdmission_slots]
  · rw [event_led]
    dsimp only
    rw [count_led, setAdmission_led]

end Sys2Proof.Machine

open Sys2Proof Sys2Proof.Machine

/-- Settles O26: a request's slot, its place in the queue or its refusal, and what a free slot gives. -/
theorem admissionsTakeSlotsInOrder : Obligations.AdmissionsTakeSlotsInOrder := by
  unfold Obligations.AdmissionsTakeSlotsInOrder
  refine ⟨?request, ?load, ?refusal, ?cancel, ?give⟩
  case request =>
    intro who n b s hClient hPasses hQueued hLoads hLength hSlot hFlags hZero hZero' hCargo hRoom a u
    have hOffset : (0x4001 + 16 * n) % 16 = 1 := by omega
    have hBlock : (0x4001 + 16 * n - 0x4000) / 16 = n := by omega
    refine askDomain_of_passes hPasses (by omega) ?_
    rw [writeEffect_client who b _ (by omega) (.inl hOffset), hOffset, hBlock]
    exact admitEffect_of_legal (s := begun who a s) hQueued hLoads hLength hSlot hFlags hZero hZero' hCargo hRoom
  case load =>
    intro n k s
    obtain ⟨hAdmission, hSlot, hSlots, hOthers⟩ := startLoad_frame n k s
    rw [hAdmission, hSlot]
    exact ⟨rfl, rfl, rfl, rfl, hSlots, hOthers⟩
  case refusal =>
    intro n k status s
    obtain ⟨hAdmission, hSlots, hEvents⟩ := refuse_frame n k status s
    rw [hAdmission]
    exact ⟨rfl, rfl, hSlots, hEvents⟩
  case cancel =>
    intro who n s hClient hPasses hQueued
    have hOffset : (0x4006 + 16 * n) % 16 = 6 := by omega
    have hBlock : (0x4006 + 16 * n - 0x4000) / 16 = n := by omega
    refine askWrite_of_passes hPasses ?_
    rw [writeEffect_client who [1] _ (by omega) (.inr (.inr hOffset)), hOffset, hBlock]
    exact cancelEffect_of_queued hQueued
  case give =>
    intro k s hSlot hFree
    exact congrArg done (if_neg (by simp [hFree, hSlot]))
end

section
/-! Routes become resident and start, and what a release frees (R64, R128, R140, R369, R415-R417). -/

namespace Sys2Proof.Machine

/-! A route becomes resident (R128, R415, R417). -/

/-- The streams of a route as it becomes resident: at full credit. -/
def residentStreams (r : Route) : KMap StreamState :=
  r.streams.foldl (fun m o => kput m o.number { StreamState.fresh with credits := r.depthOf o }) []

theorem kgetD_foldl_kput_other {α β : Type} (key : α → Nat) (f : α → β) (d : β) (n : Nat) (rows : List α) (m : KMap β)
    (h : ∀ x ∈ rows, key x ≠ n) : kgetD d (rows.foldl (fun m o => kput m (key o) (f o)) m) n = kgetD d m n := by
  induction rows generalizing m with
  | nil => rfl
  | cons x xs ih =>
    rw [List.foldl_cons, ih _ (fun y hy => h y (List.mem_cons_of_mem _ hy))]
    exact kgetD_kput_other _ _ _ (h x List.mem_cons_self)

/-- Of rows of one key, all alike, the value is that of the key. -/
theorem kgetD_foldl_kput {α β : Type} (key : α → Nat) (f : α → β) (d : β) (rows : List α) (m : KMap β) {o : α} (hMem : o ∈ rows)
    (hSame : ∀ x ∈ rows, key x = key o → x = o) : kgetD d (rows.foldl (fun m o => kput m (key o) (f o)) m) (key o) = f o := by
  induction rows generalizing m with
  | nil => cases hMem
  | cons x xs ih =>
    rw [List.foldl_cons]
    by_cases hLater : ∃ y ∈ xs, key y = key o
    · obtain ⟨y, hy, hKey⟩ := hLater
      have hIs : y = o := hSame y (List.mem_cons_of_mem _ hy) hKey
      exact ih _ (hIs ▸ hy) (fun z hz => hSame z (List.mem_cons_of_mem _ hz))
    · have hOthers : ∀ y ∈ xs, key y ≠ key o := fun y hy hKey => hLater ⟨y, hy, hKey⟩
      have hFirst : o = x := (List.mem_cons.mp hMem).resolve_right (fun h => hOthers o h rfl)
      rw [kgetD_foldl_kput_other key f d _ xs _ hOthers, hFirst]
      exact kgetD_kput_same _ _ _ _

/-- Setting a route up gives its slot its streams; units and buffer pairs lie elsewhere. -/
theorem setUpRoute_slot (k : Nat) (r : Route) (s : State) : slotOf (setUpRoute k r s) k = { slotOf s k with streams := residentStreams r } ∧
    ∀ j, j ≠ k → slotOf (setUpRoute k r s) j = slotOf s j := by
  generalize hu : modSlot k (fun x => { x with streams := residentStreams r }) s = u
  have hUnits : (r.units.foldl (fun s u => putUnit u.array (u.number + if u.merge then 8 else 0) ⟨k, [], [], [], []⟩ s) u).slots = u.slots :=
    foldl_field (f := fun s (u : UnitRow) => putUnit u.array (u.number + if u.merge then 8 else 0) ⟨k, [], [], [], []⟩ s) (g := State.slots)
      (fun _ _ => rfl) r.units u
  have hSlots : (setUpRoute k r s).slots = u.slots := by
    rw [← hUnits, ← hu]
    exact foldl_field (f := fun s (e : Nat × PairRec) => modEngine e.1 (fun g => { g with
      pairs := kput g.pairs e.2.pair ⟨k, e.2.base, e.2.half, e.2.station, e.2.input, 2, 0, (0, 0), (none, none)⟩ }) s) (g := State.slots)
      (fun _ _ => rfl) r.pairs _
  constructor
  · rw [slotOf_congr hSlots, ← hu, slotOf_modSlot_same]
  · intro j hj
    rw [slotOf_congr hSlots, ← hu, slotOf_modSlot_other _ _ hj.symm]

/-- The train state of a slot as it is set, whatever it was. -/
theorem setTrainState_slot (k n : Nat) (s : State) :
    slotOf (setTrainState k n s) k = { slotOf s k with train := { (slotOf s k).train with state := n } } ∧
      ∀ j, j ≠ k → slotOf (setTrainState k n s) j = slotOf s j := by
  by_cases h : (slotOf s k).train.state = n
  · have hSame : setTrainState k n s = s := if_pos h
    rw [hSame, ← h]
    exact ⟨rfl, fun _ _ => rfl⟩
  · exact slotOf_setTrainState h

theorem startRoute_slot (k : Nat) (r : Route) (s : State) :
    slotOf (startRoute k r s) k = { slotOf s k with
      started := true, train := if r.training then { (slotOf s k).train with state := 1 } else (slotOf s k).train } ∧
    ∀ j, j ≠ k → slotOf (startRoute k r s) j = slotOf s j := by
  unfold startRoute
  dsimp only
  split
  · obtain ⟨hSame, hOthers⟩ := setTrainState_slot k 1 (modSlot k (fun x => { x with started := true }) s)
    refine ⟨by rw [hSame, slotOf_modSlot_same], fun j hj => by rw [hOthers j hj, slotOf_modSlot_other _ _ hj.symm]⟩
  · exact ⟨slotOf_modSlot_same _ _ _, fun j hj => slotOf_modSlot_other _ _ hj.symm⟩

/-- The slot of a route that has become resident, at the beginning of its training. -/
def residenceTaken (k : Nat) (r : Route) (s : State) : State :=
  modSlot k (fun x => { x with state := 2, train := { Training.none with
    solo := if r.training then r.plan.stepLength * effectivePeriod s k r else 0 } }) (setUpRoute k r s)

/-- The residence noted for its client. -/
def residenceNoted (k owner : Nat) (s : State) : State :=
  count 0x5806 owner 1 (setAdmission owner { admissionOf s owner with state := 3, slot := k } s)

theorem exec_routeResident {k : Nat} {r : Route} {s : State} (hRoute : (slotOf s k).route = some r) (hState : (slotOf s k).state = 1)
    (hBeat : r.fabric = true ∨ shared s r = true → s.clock = s.beat.opened) : exec (.routeResident k) s = .next
      (if r.plan.isLocal then startRoute k r (residenceNoted k (slotOf s k).owner (residenceTaken k r s))
        else residenceNoted k (slotOf s k).owner (residenceTaken k r s)) := by
  have hGuard : ¬((slotOf s k).state ≠ 1 ∨ ((r.fabric = true ∨ shared s r = true) ∧ s.clock ≠ s.beat.opened)) := by
    rintro (h | ⟨h, hNot⟩)
    · exact h hState
    · exact hNot (hBeat h)
  show execRouteResident k s = _
  unfold execRouteResident
  dsimp only
  rw [hRoute]
  dsimp only
  rw [if_neg hGuard]
  rfl

theorem residenceNoted_frame (k owner : Nat) (s : State) : (∀ j, slotOf (residenceNoted k owner s) j = slotOf s j) ∧
    admissionOf (residenceNoted k owner s) owner = { admissionOf s owner with state := 3, slot := k } := by
  unfold residenceNoted
  refine ⟨fun j => ?_, ?_⟩
  · rw [slotOf_count, slotOf_congr (setAdmission_slots _ _ _)]
  · rw [admissionOf, count_admissions]
    exact admissionOf_setAdmission_same _ _ _

theorem residenceTaken_slot (k : Nat) (r : Route) (s : State) : slotOf (residenceTaken k r s) k = { slotOf s k with
    streams := residentStreams r, state := 2
    train := { Training.none with solo := if r.training then r.plan.stepLength * effectivePeriod s k r else 0 } } := by
  rw [residenceTaken, slotOf_modSlot_same, (setUpRoute_slot k r s).1]

theorem startRoute_admissions (k : Nat) (r : Route) (s : State) : (startRoute k r s).admissions = s.admissions :=
  (startRoute_keeps k r (.refl (· = .admissions) s) (by simp) (by simp) (by simp)).parts .admissions rfl

/-- What a route that becomes resident finds of its slot and its client. -/
theorem resident_frame {k : Nat} {r : Route} {s t : State} (hRoute : (slotOf s k).route = some r)
    (h : t = if r.plan.isLocal then startRoute k r (residenceNoted k (slotOf s k).owner (residenceTaken k r s))
      else residenceNoted k (slotOf s k).owner (residenceTaken k r s)) :
    (slotOf t k).state = 2 ∧ (slotOf t k).route = some r ∧ (slotOf t k).streams = residentStreams r ∧
    (slotOf t k).started = (r.plan.isLocal || (slotOf s k).started) ∧
    (slotOf t k).train.step = 0 ∧ (slotOf t k).train.state = (if r.plan.isLocal = true ∧ r.training = true then 1 else 0) ∧
    (admissionOf t (slotOf s k).owner).state = 3 ∧ (admissionOf t (slotOf s k).owner).slot = k := by
  obtain ⟨hSlots, hAdmission⟩ := residenceNoted_frame k (slotOf s k).owner (residenceTaken k r s)
  have hTaken := residenceTaken_slot k r s
  rw [← hSlots] at hTaken
  cases hLocal : r.plan.isLocal with
  | false =>
    rw [hLocal, if_neg (by simp)] at h
    rw [h, hTaken, hAdmission]
    exact ⟨rfl, hRoute, rfl, by simp, rfl, by simp [Training.none], rfl, rfl⟩
  | true =>
    rw [hLocal, if_pos rfl] at h
    have hStarted := (startRoute_slot k r (residenceNoted k (slotOf s k).owner (residenceTaken k r s))).1
    rw [hTaken, ← h] at hStarted
    have hSame : admissionOf t (slotOf s k).owner = _ := (congrArg (fun m => kgetD Admission.none m (slotOf s k).owner)
      (h ▸ startRoute_admissions k r _)).trans hAdmission
    rw [hStarted, hSame]
    refine ⟨rfl, hRoute, rfl, by simp, ?_, ?_, rfl, rfl⟩
    · split <;> rfl
    · cases r.training <;> simp [Training.none]

/-! A fabric route starts (R140, R369). -/

/-- The start frames that go to the route's peers. -/
def startsSent (k : Nat) (r : Route) (s : State) : State :=
  (startLinks r).foldl (fun v l => sendUp l 7 (r.plan.fabricId ++ le 1 k ++ le 2 r.plan.stepLength) v) s

theorem exec_routeStart {k : Nat} {r : Route} {s : State} (hRoute : routeOf s k = some r) (hFabric : r.plan.isLocal = false)
    (hNew : (slotOf s k).started = false) (hOwn : setting s 0x2983 0 = 1 → cutDevice r = deviceNumber s) :
    (startRefusal s k r = stOk → exec (.routeStart k) s = .next
      (if (startLinks r).all (fun l => (slotOf (startsSent k r s) k).startPeers.contains l) then startRoute k r (startsSent k r s)
        else startsSent k r s)) ∧
    (startRefusal s k r ≠ stOk → exec (.routeStart k) s =
      .next (modAdmission (slotOf s k).owner (fun a => { a with refusal := startRefusal s k r }) s)) := by
  have hGuard : ¬(r.plan.isLocal = true ∨ (slotOf s k).started = true ∨ (setting s 0x2983 0 = 1 ∧ cutDevice r ≠ deviceNumber s)) := by
    rintro (h | h | ⟨hSpare, hNot⟩)
    · rw [hFabric] at h
      cases h
    · rw [hNew] at h
      cases h
    · exact hNot (hOwn hSpare)
  constructor
  · intro hOk
    show execRouteStart k s = _
    unfold execRouteStart
    rw [hRoute]
    dsimp only
    rw [if_neg hGuard, hOk]
    rfl
  · intro hRefused
    show execRouteStart k s = _
    unfold execRouteStart
    rw [hRoute]
    dsimp only
    rw [if_neg hGuard]
    split
    case h_1 hOk => exact absurd hOk hRefused
    case h_2 => rfl

/-- The status that a peer's start frame finds (R140, R369). -/
def frameStatus (j k : Nat) (f : Bytes) (len : Nat) (r : Route) : Nat :=
  firstStatus [(decide (j ≠ k), stState), (f != r.plan.fabricId || len != r.plan.stepLength, stDigest)]

/-- The peer at a link has sent its start. -/
def peerStarted (link k : Nat) (s : State) : State :=
  modSlot k (fun x => { x with startPeers := if x.startPeers.contains link then x.startPeers else x.startPeers ++ [link] }) s

theorem exec_routeStartFrame {link k j len : Nat} {f : Bytes} {r : Route} {s : State}
    (hMine : (residents s).filter (fun e => e.2.fabric && !(slotOf s e.1).started && (startLinks e.2).contains link) = [(k, r)]) :
    exec (.routeStartFrame link f j len) s = .next (if frameStatus j k f len r ≠ 0 then
        modAdmission (slotOf s k).owner (fun a => { a with refusal := frameStatus j k f len r }) s
      else if (startRefusal (peerStarted link k s) k r != 0 ||
          (setting (peerStarted link k s) 0x2983 0 == 1 && cutDevice r != deviceNumber (peerStarted link k s))) = false ∧
          (startLinks r).all (fun l => (slotOf (peerStarted link k s) k).startPeers.contains l) then startRoute k r (peerStarted link k s)
        else peerStarted link k s) := by
  show execRouteStartFrame link f j len s = _
  unfold execRouteStartFrame
  rw [hMine]
  rfl

theorem startRefusal_peerStarted (link k : Nat) (r : Route) (s : State) (j : Nat) :
    startRefusal (peerStarted link k s) j r = startRefusal s j r := rfl

theorem peers_peerStarted (link k : Nat) (s : State) : link ∈ (slotOf (peerStarted link k s) k).startPeers ∧
    (∀ l ∈ (slotOf s k).startPeers, l ∈ (slotOf (peerStarted link k s) k).startPeers) := by
  rw [peerStarted, slotOf_modSlot_same]
  dsimp only
  split
  case isTrue h => exact ⟨by simpa using h, fun _ hl => hl⟩
  case isFalse => exact ⟨by simp, fun _ hl => List.mem_append_left _ hl⟩

/-! A release (R416). -/

theorem releaseEffect_of_running {n k : Nat} {s : State} (hSlot : k < 4) (hState : (slotOf s k).state = 2) (hOwner : (slotOf s k).owner = n)
    (hFlow : flowNames s k = false) (hTakeover : takeoverNames s k = false) :
    releaseEffect n k s = (stOk, modSlot k (fun x => { x with state := 3 }) s) := by
  have hRange : ¬4 ≤ k := by omega
  exact checked_of_ok (by simp [firstStatus, hRange, hState, hOwner, hFlow, hTakeover]) _ _

/-- The cargoes of `t` are those of `s`: their bytes, and whether each is live. -/
def SameCargoes (s t : State) : Prop :=
  t.mem.home = s.mem.home ∧ ∀ i, (kgetD Cargo.free t.mem.cargoes i).state = (kgetD Cargo.free s.mem.cargoes i).state

theorem SameCargoes.trans {s t u : State} (h : SameCargoes s t) (h' : SameCargoes t u) : SameCargoes s u :=
  ⟨h'.1.trans h.1, fun i => (h'.2 i).trans (h.2 i)⟩

theorem sameCargoes_of_mem {s t : State} (h : t.mem = s.mem) : SameCargoes s t := ⟨by rw [h], fun _ => by rw [h]⟩

theorem SameCargoes.foldl {α : Type} {f : State → α → State} (hf : ∀ s x, SameCargoes s (f s x)) (l : List α) (s : State) :
    SameCargoes s (l.foldl f s) := by
  induction l generalizing s with
  | nil => exact sameCargoes_of_mem rfl
  | cons x xs ih => exact (hf s x).trans (ih (f s x))

theorem sameCargoes_raiseGeneration (i p : Nat) (s : State) : SameCargoes s (raiseGeneration i p s) := by
  refine ⟨rfl, fun j => ?_⟩
  rw [raiseGeneration, modCargo]
  dsimp only
  rw [kgetD_kmodD]
  by_cases h : j = i
  · rw [if_pos h]
    split <;> rfl
  · rw [if_neg h]

theorem sameCargoes_closePages (t : Transfer) (s : State) : SameCargoes s (closePages t s) := by
  unfold closePages
  dsimp only
  split
  · exact sameCargoes_of_mem rfl
  · exact .foldl (fun s p => sameCargoes_raiseGeneration _ _ { s with mem := { s.mem with
      openPages := s.mem.openPages.filter (· != (t.desc.dest % 65536, p)) } }) _ s

theorem sameCargoes_voidTransfers (k : Nat) (s : State) : SameCargoes s (voidTransfers k s) := by
  unfold voidTransfers
  exact (SameCargoes.foldl (f := fun s (e : Nat × Engine) => (e.2.outstanding.filter (fun t => t.slot == k && !t.cancelled)).foldl
    (fun s t => closePages t s) s) (fun s e => .foldl (fun s t => sameCargoes_closePages t s) _ s) s.engines s).trans (sameCargoes_of_mem rfl)

theorem sameCargoes_closeKilnPages (k : Nat) (s : State) : SameCargoes s (closeKilnPages k s) := by
  unfold closeKilnPages
  split
  · exact sameCargoes_of_mem rfl
  · exact .foldl (fun s (p : Nat × Nat) => sameCargoes_raiseGeneration _ _ { s with mem := { s.mem with
      openPages := s.mem.openPages.filter (· != p) } }) _ s

theorem sameCargoes_flushRoute (k : Nat) (s : State) : SameCargoes s (flushRoute k s) := by
  cases hRoute : (slotOf s k).route with
  | none =>
    have hSame : flushRoute k s = s := by rw [flushRoute, hRoute]
    rw [hSame]
    exact sameCargoes_of_mem rfl
  | some r =>
    have hPurged : (purgeItems k r (voidTransfers k s)).mem = (voidTransfers k s).mem :=
      (purgeItems_keeps k r (.refl (· = .mem) _) (by simp)).parts .mem rfl
    have hAbandoned (u : State) : (abandonWork k u).mem = u.mem :=
      (abandonWork_keeps k (.refl (· = .mem) u) (by simp) (by simp) (by simp)).parts .mem rfl
    have hHome : (flushRoute k s).mem.home = (purgeItems k r (voidTransfers k s)).mem.home := by
      unfold flushRoute
      rw [hRoute]
      dsimp only
      rw [hAbandoned]
      rfl
    have hCargoes : (flushRoute k s).mem.cargoes = (purgeItems k r (voidTransfers k s)).mem.cargoes := by
      unfold flushRoute
      rw [hRoute]
      dsimp only
      rw [hAbandoned]
      rfl
    have hVoid := sameCargoes_voidTransfers k s
    refine ⟨by rw [hHome, hPurged]; exact hVoid.1, fun i => ?_⟩
    rw [hCargoes, hPurged]
    exact hVoid.2 i

theorem sameCargoes_discardStep (k : Nat) (s : State) : SameCargoes s (discardStep k s) :=
  ((sameCargoes_closeKilnPages k s).trans (sameCargoes_flushRoute k _)).trans (sameCargoes_of_mem rfl)

/-- A discarded step leaves the other slots as they stand, whatever its own slot holds. -/
theorem discardStep_others (k : Nat) (s : State) {j : Nat} (hj : j ≠ k) : slotOf (discardStep k s) j = slotOf s j := by
  cases hRoute : (slotOf s k).route with
  | some r => exact (discardStep_slot hRoute).2.2 j hj
  | none =>
    have hClosed : closeKilnPages k s = s := by
      have hNone : routeOf s k = none := by
        rw [routeOf, hRoute]
        exact ite_self _
      rw [closeKilnPages, hNone]
    have hFlushed : flushRoute k s = s := by rw [flushRoute, hRoute]
    have hVoid : discardStep k s = collVoid k s := by rw [discardStep, hClosed, hFlushed]
    rw [hVoid]
    rfl

/-! What a freed slot gives back, in its steps (R416). -/

/-- The step that the route leaves behind. -/
def stepLeft (k : Nat) (s : State) : State := discardStep k { s with slots := kmod s.slots k (fun x => { x with state := 2 }) }

/-- A refresh of the route fails. -/
def refreshLeft (k : Nat) (s : State) : State :=
  if (slotOf s k).route.any (·.training) && s.refresh.entries.any (fun e => field e 1 1 == k) then failRefresh s else s

/-- What the memories, the units and the ledgers hold for the route. -/
def memoriesFreed (k : Nat) (s : State) : State := { s with
  arrays := kmap (fun a x => { x with
    acm := x.acm.filter (fun e => e.1 / 4096 / 128 != k)
    stale := (List.range 128).foldl (fun m b => if (x.acm.any (fun e => e.1 / 4096 == k * 128 + b)) then kput m (k * 128 + b) (drawn s) else m) x.stale
    regs := if (residents s).any (fun e => e.1 != k && e.2.programs.any (fun p => e.2.arrayOf p.station == a)) then x.regs else [] }) s.arrays
  fresh := s.fresh + 1
  engines := kmap (fun _ e => { e with pairs := e.pairs.filter (fun p => p.2.slot != k) }) s.engines
  mem := { s.mem with copies := s.mem.copies.filter (fun c => c.slot != k), saggarHits := s.mem.saggarHits.filter (fun h => h.1 != k) }
  colls := kdel s.colls k, secures := kdel s.secures k, serves := kdel s.serves k
  ctr := { s.ctr with station := s.ctr.station.filter (fun e => e.1 / 64 / 4096 != k)
                      stationCaptured := s.ctr.stationCaptured.filter (fun e => e.1 / 64 / 4096 != k) } }

/-- The paths of the route's streams. -/
def pathsPurged (k : Nat) (s : State) : State :=
  ((slotOf s k).route.elim [] (fun r => r.streams.map (fun o => (r, o)))).foldl (fun s e => purgePath k e.1 e.2 s) s

/-- What the fabric holds for the route. -/
def fabricFreed (k : Nat) (s : State) : State := modFab (fun f => { f with
  delivered := f.delivered.filter (fun e => e.1 / 196608 != k), failing := f.failing.filter (fun e => e.1 != k)
  units := f.units.filter (fun u => u.2.slot != k), stopped := f.stopped.filter (· != k)
  badEntries := f.badEntries.filter (fun e => e.1 != k), words := f.words.filter (fun w => w.1 != k)
  holders := f.holders.filter (fun h => h.2 != k), nextHolders := f.nextHolders.filter (fun h => h.2 != k) }) s

/-- The slot itself, with the signal that its train state has changed. -/
def slotFreed (k : Nat) (s : State) : State :=
  if (slotOf s k).train.state != 0 then signal 0 (8 + k) (setSlot k Slot.free s) else setSlot k Slot.free s

theorem freeSlot_eq (k : Nat) (s : State) :
    freeSlot k s = slotFreed k (fabricFreed k (pathsPurged k (memoriesFreed k (refreshLeft k (stepLeft k s))))) := by
  unfold freeSlot slotFreed fabricFreed pathsPurged memoriesFreed refreshLeft stepLeft
  with_reducible rfl

theorem slotFreed_keeps_parts (k : Nat) (s : State) : (slotFreed k s).fab = s.fab ∧ (slotFreed k s).mem = s.mem ∧
    (slotFreed k s).colls = s.colls ∧ (slotFreed k s).secures = s.secures ∧ (slotFreed k s).serves = s.serves ∧
    (slotFreed k s).admissions = s.admissions ∧ (slotFreed k s).slots = kputD Slot.free s.slots k Slot.free := by
  unfold slotFreed
  split
  · unfold signal
    dsimp only
    split <;> exact ⟨rfl, rfl, rfl, rfl, rfl, rfl, rfl⟩
  · exact ⟨rfl, rfl, rfl, rfl, rfl, rfl, rfl⟩

theorem pathsPurged_parts (k : Nat) (s : State) (p : Part) (h : p ≠ .fab) : Part.same p s (pathsPurged k s) := by
  have hKeeps : Keeps (· ≠ .fab) s (pathsPurged k s) :=
    .foldl (fun u x hu => purgePath_keeps k x.1 x.2 hu (by simp)) _ (.refl _ s)
  exact hKeeps.parts p h

theorem refreshLeft_parts (k : Nat) (s : State) : (refreshLeft k s).slots = s.slots ∧ (refreshLeft k s).mem = s.mem ∧
    (refreshLeft k s).admissions = s.admissions := by
  unfold refreshLeft failRefresh
  split
  · split
    · exact ⟨by rw [event_slots], by rw [event_mem], by rw [event_admissions]⟩
    · exact ⟨rfl, rfl, rfl⟩
  · exact ⟨rfl, rfl, rfl⟩

theorem stepLeft_others (k : Nat) (s : State) {j : Nat} (hj : j ≠ k) : slotOf (stepLeft k s) j = slotOf s j := by
  rw [stepLeft, discardStep_others _ _ hj]
  unfold slotOf kgetD kmod
  dsimp only
  cases kget s.slots k with
  | none => rfl
  | some v => exact congrArg (Option.getD · Slot.free) (kget_kput_other _ _ hj.symm)

/-- What a freed slot leaves: nothing of its route, and every cargo, other slot and admission. -/
theorem freeSlot_frees (k : Nat) (s : State) : slotOf (freeSlot k s) k = Slot.free ∧ (∀ j, j ≠ k → slotOf (freeSlot k s) j = slotOf s j) ∧
    kget (freeSlot k s).colls k = none ∧ kget (freeSlot k s).secures k = none ∧ kget (freeSlot k s).serves k = none ∧
    (∀ h ∈ (freeSlot k s).fab.holders, h.2 ≠ k) ∧ (∀ u ∈ (freeSlot k s).fab.units, u.2.slot ≠ k) ∧
    SameCargoes s (freeSlot k s) ∧ (freeSlot k s).admissions = s.admissions := by
  rw [freeSlot_eq]
  generalize hLeft : stepLeft k s = u0
  generalize hRefresh : refreshLeft k u0 = u1
  generalize hFreed : memoriesFreed k u1 = u2
  generalize hPurged : pathsPurged k u2 = u3
  obtain ⟨hFab, hMem, hColls, hSecures, hServes, hAdmissions, hSlots⟩ := slotFreed_keeps_parts k (fabricFreed k u3)
  have hPaths := pathsPurged_parts k u2
  rw [hPurged] at hPaths
  obtain ⟨hSlots1, hMem1, hAdmissions1⟩ := refreshLeft_parts k u0
  rw [hRefresh] at hSlots1 hMem1 hAdmissions1
  have hSlots3 : u3.slots = u0.slots := by
    rw [hPaths .slots (by simp), ← hSlots1, ← hFreed]
    rfl
  have hAdmissions0 : u0.admissions = s.admissions :=
    hLeft ▸ (discardStep_keeps k (.refl (· = .admissions) _) (by simp) (by simp) (by simp) (by simp) (by simp) (by simp) (by simp)).parts
      .admissions rfl
  refine ⟨?_, fun j hj => ?_, ?_, ?_, ?_, ?_, ?_, ?_, ?_⟩
  · rw [slotOf, hSlots, kgetD_kputD_same]
  · rw [slotOf, hSlots, kgetD_kputD_other _ _ _ hj.symm]
    calc kgetD Slot.free u3.slots j = slotOf u0 j := by rw [hSlots3, slotOf]
      _ = slotOf s j := by rw [← hLeft, stepLeft_others k s hj]
  · rw [hColls]
    exact (congrArg (kget · k) ((hPaths .colls (by simp)).trans (hFreed ▸ rfl))).trans (kget_kdel_same u1.colls k)
  · rw [hSecures]
    exact (congrArg (kget · k) ((hPaths .secures (by simp)).trans (hFreed ▸ rfl))).trans (kget_kdel_same u1.secures k)
  · rw [hServes]
    exact (congrArg (kget · k) ((hPaths .serves (by simp)).trans (hFreed ▸ rfl))).trans (kget_kdel_same u1.serves k)
  · rw [hFab]
    intro h hh
    simpa using (List.mem_filter.mp hh).2
  · rw [hFab]
    intro u hu
    simpa using (List.mem_filter.mp hu).2
  · have hLeftCargoes : SameCargoes s u0 := hLeft ▸ sameCargoes_discardStep k _
    have hFreedCargoes : SameCargoes u1 u2 := by
      rw [← hFreed]
      exact ⟨rfl, fun _ => rfl⟩
    exact (hLeftCargoes.trans (sameCargoes_of_mem hMem1)).trans (hFreedCargoes.trans
      (sameCargoes_of_mem (hMem.trans (hPaths .mem (by simp)))))
  · rw [hAdmissions, ← hAdmissions0, ← hAdmissions1]
    exact (hPaths .admissions (by simp)).trans (hFreed ▸ rfl)

/-- What the client of a released slot holds: no route in it. -/
def clientReleased (k owner : Nat) (s : State) : State :=
  if (admissionOf s owner).state = 3 ∧ (admissionOf s owner).slot = k then
    setAdmission owner { admissionOf s owner with state := 0 } s else s

/-- A release that has taken effect, noted and counted. -/
def releaseTaken (k owner : Nat) (s : State) : State :=
  event evtRelease ⟨k, owner, 0xFFFF⟩ [] (count 0x5808 owner 1 (clientReleased k owner (freeSlot k s)))

theorem exec_releaseTakeEffect {k : Nat} {s : State} (hState : (slotOf s k).state = 3)
    (hClosed : (slotOf s k).beat.phase = 0 ∨ (slotOf s k).beat.phase = 4) :
    exec (.releaseTakeEffect k) s = .next (releaseTaken k (slotOf s k).owner s) := congrArg done (if_pos ⟨hState, hClosed⟩)

theorem clientReleased_parts (k owner : Nat) (s : State) : (clientReleased k owner s).slots = s.slots ∧
    (clientReleased k owner s).mem = s.mem ∧ (clientReleased k owner s).fab = s.fab ∧ (clientReleased k owner s).colls = s.colls ∧
    (clientReleased k owner s).secures = s.secures ∧ (clientReleased k owner s).serves = s.serves := by
  have hPart (p : Part) (h : p ≠ .admissions ∧ p ≠ .led ∧ p ≠ .out ∧ p ≠ .host) : Part.same p s (clientReleased k owner s) := by
    unfold clientReleased
    split
    · exact (setAdmission_keeps owner _ (.refl (fun p => p ≠ .admissions ∧ p ≠ .led ∧ p ≠ .out ∧ p ≠ .host) s)
        (by simp) (by simp) (by simp)).parts p h
    · exact (Keeps.refl (fun p => p ≠ .admissions ∧ p ≠ .led ∧ p ≠ .out ∧ p ≠ .host) s).parts p h
  exact ⟨hPart .slots (by simp), hPart .mem (by simp), hPart .fab (by simp), hPart .colls (by simp), hPart .secures (by simp),
    hPart .serves (by simp)⟩

theorem clientReleased_state {k owner : Nat} {s : State} (hState : (admissionOf s owner).state = 3) (hSlot : (admissionOf s owner).slot = k) :
    (admissionOf (clientReleased k owner s) owner).state = 0 := by
  rw [clientReleased, if_pos ⟨hState, hSlot⟩, admissionOf_setAdmission_same]

theorem releaseTaken_parts (k owner : Nat) (s : State) : (releaseTaken k owner s).slots = (freeSlot k s).slots ∧
    (releaseTaken k owner s).mem = (freeSlot k s).mem ∧ (releaseTaken k owner s).fab = (freeSlot k s).fab ∧
    (releaseTaken k owner s).colls = (freeSlot k s).colls ∧ (releaseTaken k owner s).secures = (freeSlot k s).secures ∧
    (releaseTaken k owner s).serves = (freeSlot k s).serves ∧
    (releaseTaken k owner s).admissions = (clientReleased k owner (freeSlot k s)).admissions := by
  obtain ⟨hSlots, hMem, hFab, hColls, hSecures, hServes⟩ := clientReleased_parts k owner (freeSlot k s)
  unfold releaseTaken
  generalize clientReleased k owner (freeSlot k s) = u at *
  exact ⟨by rw [event_slots, count_slots, hSlots], by rw [event_mem, count_mem, hMem], by rw [event_fab, count_fab, hFab],
    by rw [event_colls, count_colls, hColls], by rw [event_secures, count_secures, hSecures], by rw [event_serves, count_serves, hServes],
    by rw [event_admissions, count_admissions]⟩

end Sys2Proof.Machine

open Sys2Proof Sys2Proof.Machine

/-- Settles O28: what a route finds at its residence is `resident_frame`, a start frame finds `frameStatus`, and what a release
frees is `freeSlot_frees`, step by step of `freeSlot`. -/
theorem routesStartAndTheirSlotsAreFreed : Obligations.RoutesStartAndTheirSlotsAreFreed := by
  unfold Obligations.RoutesStartAndTheirSlotsAreFreed
  refine ⟨⟨?resident, ?start, ?frame⟩, ?release, ?takes⟩
  case resident =>
    intro k r s hRoute hState hBeat
    have hExec := exec_routeResident hRoute hState hBeat
    refine ⟨_, hExec, ?_⟩
    generalize ht : (if r.plan.isLocal then startRoute k r (residenceNoted k (slotOf s k).owner (residenceTaken k r s))
      else residenceNoted k (slotOf s k).owner (residenceTaken k r s)) = t
    rw [ht] at hExec
    obtain ⟨hResident, hRouteNow, hStreams, hStarted, hStep, hTrain, hAdmitted, hSlot⟩ := resident_frame hRoute ht.symm
    refine ⟨?_, hResident, hStarted, hAdmitted, hSlot, ?_, ?_, ?_, sameBut_of_exec (by simp) hExec⟩
    · rw [routeOf, if_pos (.inl hResident), hRouteNow]
    · intro o ho hSame
      rw [streamOf, hStreams]
      exact kgetD_foldl_kput StreamRow.number (fun o => { StreamState.fresh with credits := r.depthOf o }) _ _ _ ho hSame
    · intro hLocal hTraining
      rw [hTrain, if_pos ⟨hLocal, hTraining⟩]
    · intro hFabric
      exact ⟨hStep, by rw [hTrain, hFabric, if_neg (by simp)]⟩
  case start =>
    intro k r s hRoute hFabric hNew hOwn
    obtain ⟨hStarts, hRefused⟩ := exec_routeStart hRoute hFabric hNew hOwn
    refine ⟨fun hOk => (hStarts hOk).trans (congrArg Host.Outcome.next ?_), hRefused⟩
    simp only [List.all_eq_true, List.contains_iff_mem]
    rfl
  case frame =>
    intro link k f len r s hMine
    refine ⟨?_, ?_, ?_⟩
    · intro hSet hLength
      have hStatus : frameStatus k k f len r = 0 := by simp [frameStatus, firstStatus, hSet, hLength, stOk]
      have hExec := exec_routeStartFrame (j := k) (f := f) (len := len) hMine
      rw [hStatus, if_neg (by simp)] at hExec
      obtain ⟨hLink, hPeers⟩ := peers_peerStarted link k s
      refine ⟨_, hExec, ?_, ?_, ?_, sameBut_of_exec (by simp) hExec⟩
      · split
        · rwa [(startRoute_slot _ _ _).1]
        · exact hLink
      · split
        · rwa [(startRoute_slot _ _ _).1]
        · exact hPeers
      · intro hOk hOwn hAll
        have hReady : (startRefusal (peerStarted link k s) k r != 0 ||
            (setting (peerStarted link k s) 0x2983 0 == 1 && cutDevice r != deviceNumber (peerStarted link k s))) = false ∧
            (startLinks r).all (fun l => (slotOf (peerStarted link k s) k).startPeers.contains l) = true := by
          have hSetting : setting (peerStarted link k s) 0x2983 0 = setting s 0x2983 0 := rfl
          refine ⟨?_, ?_⟩
          · rw [startRefusal_peerStarted, hOk, hSetting]
            simp [stOk, hOwn]
          · rw [List.all_eq_true]
            intro l hl
            rw [List.contains_iff_mem]
            exact (hAll l hl).elim (fun h => h ▸ hLink) (hPeers l)
        rw [if_pos hReady, (startRoute_slot _ _ _).1]
    · intro hDiffers
      have hStatus : frameStatus k k f len r = stDigest := by
        have hNot : (f != r.plan.fabricId || len != r.plan.stepLength) = true := by
          simpa [Decidable.or_iff_not_imp_left] using hDiffers
        simp [frameStatus, firstStatus, hNot]
      have hExec := exec_routeStartFrame (j := k) (f := f) (len := len) hMine
      rwa [hStatus, if_pos (by decide)] at hExec
    · intro j hj
      have hStatus : frameStatus j k f len r = stState := by simp [frameStatus, firstStatus, hj]
      have hExec := exec_routeStartFrame (j := j) (f := f) (len := len) hMine
      rwa [hStatus, if_pos (by decide)] at hExec
  case release =>
    intro who n k s hClient hSlot hPasses hState hOwner hFlow hTakeover
    have hOffset : (0x4005 + 16 * n) % 16 = 5 := by omega
    have hBlock : (0x4005 + 16 * n - 0x4000) / 16 = n := by omega
    have hValue : leNat (le 1 k) = k := by
      simp only [le, leNat, BitVec.toNat_ofNat]
      omega
    refine askWrite_of_passes hPasses ?_
    rw [writeEffect_client who _ _ (by omega) (.inr (.inl hOffset)), hOffset, hBlock, hValue]
    exact releaseEffect_of_running hSlot hState hOwner hFlow hTakeover
  case takes =>
    intro k s hState hClosed
    have hExec := exec_releaseTakeEffect hState hClosed
    obtain ⟨hFree, hOthers, hColl, hSecure, hServe, hHolders, hUnits, hCargoes, hAdmissions⟩ := freeSlot_frees k s
    obtain ⟨hSlots, hMem, hFab, hColls, hSecures, hServes, hReleased⟩ := releaseTaken_parts k (slotOf s k).owner s
    refine ⟨_, hExec, ?_, ?_, ?_, ?_, ?_, ?_, ?_, ?_, ?_, ?_, sameBut_of_exec (by simp) hExec⟩
    · exact (slotOf_congr hSlots k).trans hFree
    · exact fun j hj => (slotOf_congr hSlots j).trans (hOthers j hj)
    · exact (congrArg (kget · k) hColls).trans hColl
    · exact (congrArg (kget · k) hSecures).trans hSecure
    · exact (congrArg (kget · k) hServes).trans hServe
    · rw [hFab]
      exact hHolders
    · rw [hFab]
      exact hUnits
    · rw [hMem]
      exact hCargoes.1
    · rw [hMem]
      exact hCargoes.2
    · intro hRuns hHere
      have hSame : admissionOf (freeSlot k s) (slotOf s k).owner = admissionOf s (slotOf s k).owner :=
        congrArg (kgetD Admission.none · (slotOf s k).owner) hAdmissions
      have hNow : admissionOf (releaseTaken k (slotOf s k).owner s) (slotOf s k).owner =
          admissionOf (clientReleased k (slotOf s k).owner (freeSlot k s)) (slotOf s k).owner :=
        congrArg (kgetD Admission.none · (slotOf s k).owner) hReleased
      rw [hNow]
      exact clientReleased_state (by rw [hSame, hRuns]) (by rw [hSame, hHere])
end

section
/-! Glaze instructions over the lanes of their extent (R186, R192-R196). -/

namespace Sys2Proof.Machine

/-! Registers of an array. -/

/-- An array differs in its tile registers alone. -/
def OnlyRegs (x y : ArrayState) : Prop := ∃ m, y = { x with regs := m }

theorem OnlyRegs.refl (x : ArrayState) : OnlyRegs x x := ⟨x.regs, rfl⟩

theorem OnlyRegs.put {x y : ArrayState} (h : OnlyRegs x y) (v r l : Nat) (w : Word) : OnlyRegs x (regPut v r l w y) := by
  obtain ⟨m, rfl⟩ := h
  exact ⟨_, rfl⟩

theorem regGet_regPut (x : ArrayState) (v r l : Nat) (w : Word) {v' r' l' : Nat} (hr : r < 16) (hl : l < 128) (hr' : r' < 16) (hl' : l' < 128) :
    regGet (regPut v r l w x) v' r' l' = if v' = v ∧ r' = r ∧ l' = l then w else regGet x v' r' l' := by
  unfold regGet regPut
  split
  case isTrue h =>
    obtain ⟨rfl, rfl, rfl⟩ := h
    exact kgetD_kputD_same _ _ _ _
  case isFalse h => exact kgetD_kputD_other _ _ _ (by omega)

theorem ite_of_iff {α : Type} {P Q : Prop} [Decidable P] [Decidable Q] (h : P ↔ Q) (x y : α) : (if P then x else y) = if Q then x else y :=
  ite_congr (propext h) (fun _ => rfl) (fun _ => rfl)

theorem exists_of_cons {α : Type} {p : α → Prop} {e : α} {es : List α} : (∃ y ∈ e :: es, p y) ↔ p e ∨ ∃ y ∈ es, p y := by
  simp only [List.mem_cons, or_and_right, exists_or, exists_eq_left]

/-- Register writes that all agree with one function of register, row and lane: a written lane holds its value, any other what it held. -/
theorem regGet_foldl_regPut {α : Type} (v r l : α → Nat) (w : α → Word) (g : Nat → Nat → Nat → Word) (es : List α) (x : ArrayState)
    (hRange : ∀ e ∈ es, r e < 16 ∧ l e < 128) (hValue : ∀ e ∈ es, w e = g (v e) (r e) (l e)) {v' r' l' : Nat} (hr' : r' < 16) (hl' : l' < 128) :
    regGet (es.foldl (fun x e => regPut (v e) (r e) (l e) (w e) x) x) v' r' l' =
      if ∃ e ∈ es, v' = v e ∧ r' = r e ∧ l' = l e then g v' r' l' else regGet x v' r' l' := by
  induction es generalizing x with
  | nil => simp
  | cons e es ih =>
    obtain ⟨hr, hl⟩ := hRange e List.mem_cons_self
    rw [List.foldl_cons, ih _ (fun y hy => hRange y (List.mem_cons_of_mem _ hy)) (fun y hy => hValue y (List.mem_cons_of_mem _ hy)),
      regGet_regPut x _ _ _ _ hr hl hr' hl']
    have hSplit := exists_of_cons (p := fun y => v' = v y ∧ r' = r y ∧ l' = l y) (e := e) (es := es)
    by_cases hLater : ∃ y ∈ es, v' = v y ∧ r' = r y ∧ l' = l y
    · rw [if_pos hLater, if_pos (hSplit.mpr (.inr hLater))]
    · rw [if_neg hLater]
      by_cases hHere : v' = v e ∧ r' = r e ∧ l' = l e
      · rw [if_pos hHere, if_pos (hSplit.mpr (.inl hHere)), hValue e List.mem_cons_self, hHere.1, hHere.2.1, hHere.2.2]
      · rw [if_neg hHere, if_neg (fun h => (hSplit.mp h).elim hHere hLater)]

theorem OnlyRegs.foldl {α : Type} {f : ArrayState → α → ArrayState} (hf : ∀ x y e, OnlyRegs x y → OnlyRegs x (f y e)) (es : List α)
    {x y : ArrayState} (h : OnlyRegs x y) : OnlyRegs x (es.foldl f y) := by
  induction es generalizing y with
  | nil => exact h
  | cons e es ih => exact ih (hf x y e h)

theorem OnlyRegs.foldl_regPut {α : Type} (v r l : α → Nat) (w : α → Word) (es : List α) {x y : ArrayState} (h : OnlyRegs x y) :
    OnlyRegs x (es.foldl (fun x e => regPut (v e) (r e) (l e) (w e) x) y) := .foldl (fun _ _ e hy => hy.put (v e) (r e) (l e) (w e)) es h

/-! The thread that issues an instruction (R188). -/

theorem arrayOf_congr {s t : State} (h : t.arrays = s.arrays) (a : Nat) : arrayOf t a = arrayOf s a := by
  unfold arrayOf
  rw [h]

theorem arrayOf_setArray (a b : Nat) (x : ArrayState) (s : State) : arrayOf (setArray a x s) b = if b = a then x else arrayOf s b := by
  unfold arrayOf setArray
  split
  case isTrue h =>
    subst h
    exact kgetD_kputD_same _ _ _ _
  case isFalse h => exact kgetD_kputD_other _ _ _ (Ne.symm h)

theorem glazeRun_of_issues {op a n : Nat} {c : GCtx} {s : State} (h : Issues op a n c s) (f : GCtx → State → State) :
    glazeRun op a n f s = f c s := by
  obtain ⟨hArray, hNumber, hThread, hWord, hOpcode, hRuns, hMay, hFlush, -⟩ := h
  obtain ⟨a', n', t, w, flush⟩ := c
  dsimp only at *
  subst hArray hNumber hFlush
  unfold glazeRun
  rw [hThread]
  dsimp only
  rw [hWord]
  dsimp only
  rw [if_pos ⟨hOpcode, hRuns, hMay⟩]

/-- The thread of an array stands at its next word; of the array nothing else has changed. -/
theorem arrayOf_glazeNext (c : GCtx) (s : State) (b : Nat) : arrayOf (glazeNext c s) b =
    if b = c.a then { arrayOf s c.a with threads := kput (arrayOf s c.a).threads c.n c.t.next } else arrayOf s b := by
  rw [glazeNext, arrayOf_count, setThread]
  split
  case isTrue h =>
    subst h
    exact arrayOf_modArray_same (s := s) c.a _
  case isFalse h => exact arrayOf_modArray_other (s := s) _ (Ne.symm h)

/-- An instruction that leaves its array with other tile registers, and the state otherwise but for counters, lets its thread go on. -/
theorem goesOn_of_regs {c : GCtx} {s u : State} {y : ArrayState} (hy : OnlyRegs (arrayOf s c.a) y)
    (hArrays : ∀ b, arrayOf u b = if b = c.a then y else arrayOf s b) (hSlots : u.slots = s.slots) : GoesOn c s (glazeNext c u) := by
  obtain ⟨m, rfl⟩ := hy
  have hHere : arrayOf (glazeNext c u) c.a =
      { arrayOf s c.a with regs := m, threads := kput (arrayOf s c.a).threads c.n c.t.next } := by
    rw [arrayOf_glazeNext, if_pos rfl, hArrays, if_pos rfl]
  refine ⟨?_, fun k hk => ?_, ?_, ?_, fun b hb => ?_, hSlots⟩
  · rw [hHere, kget_kput_same]
  · rw [hHere, kget_kput_other _ _ (Ne.symm hk)]
  · rw [hHere]
  · rw [hHere]
  · rw [arrayOf_glazeNext, if_neg hb, hArrays, if_neg hb]

theorem regGet_glazeNext {c : GCtx} {s u : State} {y : ArrayState} (hArrays : ∀ b, arrayOf u b = if b = c.a then y else arrayOf s b)
    (v r l : Nat) : regGet (arrayOf (glazeNext c u) c.a) v r l = regGet y v r l := by
  rw [arrayOf_glazeNext, if_pos rfl, hArrays, if_pos rfl]
  rfl

/-! Element-wise instructions. -/

theorem mem_positions {c : GCtx} {p : Nat × Nat} : p ∈ c.positions ↔ p.1 < c.t.rows ∧ p.2 < c.t.lanes := by
  obtain ⟨r, l⟩ := p
  simp [GCtx.positions]

/-- The state whose counter rises, unless by nothing. -/
def countUnless (index inst k : Nat) (s : State) : State := if k = 0 then s else count index inst k s

theorem arrayOf_countUnless (index inst k : Nat) (s : State) (b : Nat) : arrayOf (countUnless index inst k s) b = arrayOf s b := by
  unfold countUnless
  split <;> simp

theorem slots_countUnless (index inst k : Nat) (s : State) : (countUnless index inst k s).slots = s.slots := by
  unfold countUnless
  split <;> rfl

/-- The array after an element-wise instruction. -/
def lanesWritten (f : Nat → Nat → Word → Word → Word → Word) (c : GCtx) (x : ArrayState) : ArrayState :=
  (c.positions.map (fun p => (p, f p.1 p.2 (regGet x (gVa c.w) p.1 p.2) (sourceB c x p.1 p.2) (regGet x (gVc c.w) p.1 p.2)))).foldl
    (fun x e => regPut (gVd c.w) e.1.1 e.1.2 e.2 x) x

theorem lanesWritten_onlyRegs (f : Nat → Nat → Word → Word → Word → Word) (c : GCtx) (x : ArrayState) : OnlyRegs x (lanesWritten f c x) := by
  unfold lanesWritten
  exact OnlyRegs.foldl_regPut (fun _ => gVd c.w) (fun e : (Nat × Nat) × Word => e.1.1) (fun e => e.1.2) (fun e => e.2) _ (.refl x)

theorem regGet_lanesWritten (f : Nat → Nat → Word → Word → Word → Word) {c : GCtx} (x : ArrayState) (hExtent : c.t.rows ≤ 16 ∧ c.t.lanes ≤ 128)
    (v : Nat) {r l : Nat} (hr : r < 16) (hl : l < 128) : regGet (lanesWritten f c x) v r l =
      if v = gVd c.w ∧ r < c.t.rows ∧ l < c.t.lanes then f r l (regGet x (gVa c.w) r l) (sourceB c x r l) (regGet x (gVc c.w) r l)
      else regGet x v r l := by
  have hPut := regGet_foldl_regPut (fun _ => gVd c.w) (fun e : (Nat × Nat) × Word => e.1.1) (fun e => e.1.2) (fun e => e.2)
    (fun _ r l => f r l (regGet x (gVa c.w) r l) (sourceB c x r l) (regGet x (gVc c.w) r l))
    (c.positions.map (fun p => (p, f p.1 p.2 (regGet x (gVa c.w) p.1 p.2) (sourceB c x p.1 p.2) (regGet x (gVc c.w) p.1 p.2)))) x
    (v' := v) (r' := r) (l' := l)
    (by simp only [List.forall_mem_map, mem_positions]; omega) (by intro e he; obtain ⟨p, -, rfl⟩ := List.mem_map.mp he; rfl) hr hl
  have hMem : (∃ e ∈ c.positions.map (fun p => (p, f p.1 p.2 (regGet x (gVa c.w) p.1 p.2) (sourceB c x p.1 p.2) (regGet x (gVc c.w) p.1 p.2))),
      v = gVd c.w ∧ r = e.1.1 ∧ l = e.1.2) ↔ v = gVd c.w ∧ r < c.t.rows ∧ l < c.t.lanes := by
    constructor
    · rintro ⟨e, he, hV, rfl, rfl⟩
      obtain ⟨p, hp, rfl⟩ := List.mem_map.mp he
      exact ⟨hV, mem_positions.mp hp⟩
    · rintro ⟨hV, hInside⟩
      exact ⟨_, List.mem_map_of_mem (a := (r, l)) (mem_positions.mpr hInside), hV, rfl, rfl⟩
  rw [lanesWritten, hPut]
  exact ite_of_iff hMem _ _

/-- What an element-wise instruction does is `lanesWritten`, with a count of its own. -/
theorem elementWise_eq (nans : Bool) (f : Nat → Nat → Word → Word → Word → Word) (c : GCtx) (s : State) :
    ∃ k, elementWise nans f c s = glazeNext c (countUnless 0x5249 c.a k (setArray c.a (lanesWritten f c (arrayOf s c.a)) s)) := ⟨_, rfl⟩

/-- An instruction whose run leaves its array as `y`, other in its tile registers alone, and no slot changed. -/
theorem goesOn_of_run {ins : Nat → Nat → Instr} {op : Nat} {F : GCtx → State → State} {a n : Nat} {c : GCtx} {s u : State} {y : ArrayState}
    (hIns : ∀ a n s, exec (ins a n) s = done (glazeRun op a n F s)) (hNot : ∀ a n findings, ins a n ≠ .resetStretchEnd findings)
    (h : Issues op a n c s) (hF : F c s = glazeNext c u) (hOnly : OnlyRegs (arrayOf s c.a) y)
    (hArrays : ∀ b, arrayOf u b = if b = c.a then y else arrayOf s b) (hSlots : u.slots = s.slots) :
    exec (ins a n) s = .next (glazeNext c u) ∧ GoesOn c s (glazeNext c u) ∧
      (∀ v r l, regGet (arrayOf (glazeNext c u) a) v r l = regGet y v r l) ∧ SameBut (touches (ins a n)) s (glazeNext c u) := by
  have hExec : exec (ins a n) s = .next (glazeNext c u) := by rw [hIns, glazeRun_of_issues h, hF, done]
  refine ⟨hExec, goesOn_of_regs hOnly hArrays hSlots, fun v r l => ?_, sameBut_of_exec (hNot a n) hExec⟩
  rw [← h.array, regGet_glazeNext hArrays]

/-- An instruction whose run leaves its array with other tile registers, given lane by lane, computes these. -/
theorem computes_of_run {ins : Nat → Nat → Instr} {op : Nat} {g : GCtx → State → Nat → Nat → Word} {F : GCtx → State → State}
    (hIns : ∀ a n s, exec (ins a n) s = done (glazeRun op a n F s)) (hNot : ∀ a n findings, ins a n ≠ .resetStretchEnd findings)
    (hRun : ∀ a n c s, Issues op a n c s → ∃ u y, F c s = glazeNext c u ∧ OnlyRegs (arrayOf s c.a) y ∧
      (∀ b, arrayOf u b = if b = c.a then y else arrayOf s b) ∧ u.slots = s.slots ∧
      ∀ v r l, r < 16 → l < 128 → regGet y v r l =
        if v = gVd c.w ∧ r < c.t.rows ∧ l < c.t.lanes then g c s r l else regGet (arrayOf s a) v r l) : Computes ins op g := by
  intro a n c s h
  obtain ⟨u, y, hF, hOnly, hArrays, hSlots, hRegs⟩ := hRun a n c s h
  obtain ⟨hExec, hGoes, hSame, hParts⟩ := goesOn_of_run hIns hNot h hF hOnly hArrays hSlots
  exact ⟨_, hExec, hGoes, fun v r l hr hl => (hSame v r l).trans (hRegs v r l hr hl), hParts⟩

/-- An element-wise instruction computes its function of the sources of each lane. -/
theorem computes_elementWise {ins : Nat → Nat → Instr} {op : Nat} (nans : Bool) (f : GCtx → Nat → Nat → Word → Word → Word → Word)
    (hIns : ∀ a n s, exec (ins a n) s = done (glazeRun op a n (fun c => elementWise nans (f c) c) s))
    (hNot : ∀ a n findings, ins a n ≠ .resetStretchEnd findings) :
    Computes ins op (fun c s r l => f c r l (sourceA c s r l) (sourceB c (arrayOf s c.a) r l) (sourceC c s r l)) := by
  refine computes_of_run hIns hNot (fun a n c s h => ?_)
  obtain ⟨k, hEq⟩ := elementWise_eq nans (f c) c s
  refine ⟨_, _, hEq, lanesWritten_onlyRegs (f c) c _, fun b => ?_, slots_countUnless _ _ _ _, fun v r l hr hl => ?_⟩
  · rw [arrayOf_countUnless, arrayOf_setArray]
  · rw [regGet_lanesWritten (f c) _ h.extent v hr hl, ← h.array]
    rfl

/-- An arithmetic instruction computes its function in the element mode. -/
theorem computes_arith {ins : Nat → Nat → Instr} {op : Nat} (f g : Word → Word → Word → Word)
    (hIns : ∀ a n s, exec (ins a n) s = done (glazeRun op a n (arith f g) s)) (hNot : ∀ a n findings, ins a n ≠ .resetStretchEnd findings) :
    Computes ins op (lane f g) := computes_elementWise true (fun c _ _ => laneOp (gMode c.w) c.flush f g) hIns hNot

/-- The conversion to INT32, lane by lane (R195). -/
theorem cvti_eq (x : Word) : (cvti x).1 = match f32 x with
    | .nan _ => 0
    | .inf neg => if neg then 0x80000000#32 else 0x7FFFFFFF#32
    | .fin neg m e => BitVec.ofInt 32 (max int32Min (min int32Max (nearestInt neg m e))) := by
  unfold cvti
  cases f32 x with
  | nan => rfl
  | inf neg => cases neg <;> decide
  | fin neg m e =>
    have hClamp : (clampInt int32Min int32Max (nearestInt neg m e)).1 = max int32Min (min int32Max (nearestInt neg m e)) := by
      unfold clampInt int32Min int32Max
      split
      · omega
      · split <;> omega
    exact congrArg (BitVec.ofInt 32) hClamp

theorem computes_cvti : Computes .gCvti 0x11 (fun c s r l => match f32 (flush32 c.flush (sourceA c s r l)) with
    | .nan _ => 0
    | .inf neg => if neg then 0x80000000#32 else 0x7FFFFFFF#32
    | .fin neg m e => BitVec.ofInt 32 (max int32Min (min int32Max (nearestInt neg m e)))) := by
  refine computes_of_run (F := fun c s => elementWise false (fun _ _ x _ _ => (cvti (flush32 c.flush x)).1) c (countUnless 0x524A c.a
    (sumNat (c.positions.map (fun p => (cvti (flush32 c.flush (regGet (arrayOf s c.a) (gVa c.w) p.1 p.2))).2))) s))
    (fun _ _ _ => by unfold countUnless; rfl) (by simp) (fun a n c s h => ?_)
  generalize sumNat (c.positions.map (fun p => (cvti (flush32 c.flush (regGet (arrayOf s c.a) (gVa c.w) p.1 p.2))).2)) = clamped
  obtain ⟨k, hEq⟩ := elementWise_eq false (fun _ _ x _ _ => (cvti (flush32 c.flush x)).1) c (countUnless 0x524A c.a clamped s)
  rw [arrayOf_countUnless] at hEq
  refine ⟨_, _, hEq, lanesWritten_onlyRegs (fun _ _ x _ _ => (cvti (flush32 c.flush x)).1) c _, fun b => ?_, ?_, fun v r l hr hl => ?_⟩
  · rw [arrayOf_countUnless, arrayOf_setArray, arrayOf_countUnless]
  · rw [slots_countUnless]
    exact slots_countUnless 0x524A c.a clamped s
  · rw [regGet_lanesWritten _ _ h.extent v hr hl, ← h.array, cvti_eq]
    rfl

end Sys2Proof.Machine

open Sys2Proof Sys2Proof.Machine

/-- Settles O29: each instruction is element-wise over its extent (`computes_elementWise`), the arithmetic ones in their element mode. -/
theorem glazeLanesComputeOverTheirExtent : Obligations.GlazeLanesComputeOverTheirExtent := by
  unfold Obligations.GlazeLanesComputeOverTheirExtent
  refine ⟨⟨?_, ?_, ?_, ?_, ?_, ?_⟩, ⟨?_, ?_, ?_, computes_cvti, ?_⟩, ?_, ?_, ?_, ?_, ?_, ?_, ?_, ?_⟩
  · exact computes_arith _ _ (fun _ _ _ => rfl) (by simp)
  · exact computes_arith _ _ (fun _ _ _ => rfl) (by simp)
  · exact computes_arith _ _ (fun _ _ _ => rfl) (by simp)
  · exact computes_arith _ _ (fun _ _ _ => rfl) (by simp)
  · exact computes_arith _ _ (fun _ _ _ => rfl) (by simp)
  · exact computes_arith _ _ (fun _ _ _ => rfl) (by simp)
  · exact computes_arith _ _ (fun _ _ _ => rfl) (by simp)
  · exact computes_arith _ _ (fun _ _ _ => rfl) (by simp)
  · exact computes_arith _ _ (fun _ _ _ => rfl) (by simp)
  · exact computes_elementWise false (fun _ _ _ x _ _ => toF32 (fint x.toInt)) (fun _ _ _ => rfl) (by simp)
  · exact computes_arith _ _ (fun _ _ _ => rfl) (by simp)
  · exact computes_arith _ _ (fun _ _ _ => rfl) (by simp)
  · exact computes_arith _ _ (fun _ _ _ => rfl) (by simp)
  · exact computes_elementWise false (fun _ _ _ x y _ => x &&& y) (fun _ _ _ => rfl) (by simp)
  · exact computes_elementWise false (fun _ _ _ x y _ => x ||| y) (fun _ _ _ => rfl) (by simp)
  · exact computes_elementWise false (fun _ _ _ x y _ => x ^^^ y) (fun _ _ _ => rfl) (by simp)
  · exact computes_elementWise false (fun _ _ _ x y _ => x <<< (y.toNat % 32)) (fun _ _ _ => rfl) (by simp)
  · exact computes_elementWise false (fun _ _ _ x y _ => x >>> (y.toNat % 32)) (fun _ _ _ => rfl) (by simp)
end

section
/-! Glaze functions of one operand, PACK and UNPACK (R192, R196). -/

namespace Sys2Proof.Machine

theorem arrayOf_countConversions (a : Nat) (k : Counts) (s : State) (b : Nat) : arrayOf (countConversions a k s) b = arrayOf s b := by
  unfold countConversions
  dsimp only
  split <;> split <;> split <;> split <;> simp

theorem slots_countConversions (a : Nat) (k : Counts) (s : State) : (countConversions a k s).slots = s.slots := by
  unfold countConversions
  dsimp only
  split <;> split <;> split <;> split <;> simp

/-! PACK. -/

/-- The element of PACK with the counts of its rounding. -/
def packOne (c : GCtx) (s : State) (r e : Nat) : Nat × Counts :=
  let w := flush32 c.flush (if e < 128 then regGet (arrayOf s c.a) (gVa c.w) r e else sourceB c (arrayOf s c.a) r (e - 128))
  let k := narrow bf16 (rndAt (roundingOf s c.t.slot (gRounding c.w) (c.t.scalars.getD 0 0)) ((c.t.scalars.getD 12 0).toNat + r)
    ((c.t.scalars.getD 13 0).toNat + e)) (toInfinity s c.t.slot) (f32 w)
  (k.bits, ⟨if k.saturated then 1 else 0, 0, if fisNan (f32 w) then 1 else 0, 0⟩)

theorem packOne_fst (c : GCtx) (s : State) (r e : Nat) : (packOne c s r e).1 = packElement c s r e := rfl

/-- The pairs of elements that PACK puts into the lanes of its extent. -/
def packPairs (c : GCtx) (s : State) : List ((Nat × Nat) × (Nat × Counts) × (Nat × Counts)) :=
  c.positions.map (fun p => (p, packOne c s p.1 (2 * p.2), packOne c s p.1 (2 * p.2 + 1)))

/-- The array after PACK. -/
def packed (c : GCtx) (s : State) : ArrayState :=
  (packPairs c s).foldl (fun x e => regPut (gVd c.w) e.1.1 e.1.2 (packHalves e.2.1.1 e.2.2.1) x) (arrayOf s c.a)

theorem packed_onlyRegs (c : GCtx) (s : State) : OnlyRegs (arrayOf s c.a) (packed c s) := by
  unfold packed
  exact OnlyRegs.foldl_regPut (fun _ => gVd c.w) (fun e : (Nat × Nat) × (Nat × Counts) × (Nat × Counts) => e.1.1) (fun e => e.1.2)
    (fun e => packHalves e.2.1.1 e.2.2.1) _ (.refl _)

theorem regGet_packed {c : GCtx} (s : State) (hExtent : c.t.rows ≤ 16 ∧ c.t.lanes ≤ 128) (v : Nat) {r l : Nat} (hr : r < 16) (hl : l < 128) :
    regGet (packed c s) v r l = if v = gVd c.w ∧ r < c.t.rows ∧ l < c.t.lanes then
      packHalves (packElement c s r (2 * l)) (packElement c s r (2 * l + 1)) else regGet (arrayOf s c.a) v r l := by
  have hPut := regGet_foldl_regPut (fun _ => gVd c.w) (fun e : (Nat × Nat) × (Nat × Counts) × (Nat × Counts) => e.1.1) (fun e => e.1.2)
    (fun e => packHalves e.2.1.1 e.2.2.1) (fun _ r l => packHalves (packElement c s r (2 * l)) (packElement c s r (2 * l + 1)))
    (packPairs c s) (arrayOf s c.a) (v' := v) (r' := r) (l' := l)
    (by simp only [packPairs, List.forall_mem_map, mem_positions]; omega)
    (by intro e he; obtain ⟨p, -, rfl⟩ := List.mem_map.mp he; rfl) hr hl
  have hMem : (∃ e ∈ packPairs c s, v = gVd c.w ∧ r = e.1.1 ∧ l = e.1.2) ↔ v = gVd c.w ∧ r < c.t.rows ∧ l < c.t.lanes := by
    constructor
    · rintro ⟨e, he, hV, rfl, rfl⟩
      obtain ⟨p, hp, rfl⟩ := List.mem_map.mp he
      exact ⟨hV, mem_positions.mp hp⟩
    · rintro ⟨hV, hInside⟩
      exact ⟨_, List.mem_map_of_mem (a := (r, l)) (mem_positions.mpr hInside), hV, rfl, rfl⟩
  rw [packed, hPut]
  exact ite_of_iff hMem _ _

/-- A run of PACK. -/
def packRun (c : GCtx) (s : State) : State :=
  let k := (packPairs c s).foldl (fun k e => addCounts k (addCounts e.2.1.2 e.2.2.2)) noCounts
  glazeNext c (countConversions c.a { k with nan := 0 } (countUnless 0x5249 c.a k.nan (setArray c.a (packed c s) s)))

theorem exec_gPack (a n : Nat) (s : State) : exec (.gPack a n) s = done (glazeRun 0x13 a n packRun s) := by
  show execGPack a n s = _
  unfold execGPack packRun packPairs packed packOne countUnless
  rfl

theorem computes_pack : Computes .gPack 0x13 (fun c s r l => packHalves (packElement c s r (2 * l)) (packElement c s r (2 * l + 1))) := by
  refine computes_of_run exec_gPack (by simp) (fun a n c s h => ⟨_, packed c s, rfl, packed_onlyRegs c s, fun b => ?_, ?_, fun v r l hr hl => ?_⟩)
  · rw [arrayOf_countConversions, arrayOf_countUnless, arrayOf_setArray]
  · rw [slots_countConversions, slots_countUnless]
    rfl
  · rw [regGet_packed s h.extent v hr hl, h.array]

/-! UNPACK. -/

/-- Element `e` of a row of UNPACK, exact. -/
def unpackElement (c : GCtx) (x : ArrayState) (r e : Nat) : Word :=
  fixResult c.flush (flush32 c.flush (halfToWord (if e % 2 = 0 then lowHalf (regGet x (gVa c.w) r (e / 2)) else
    highHalf (regGet x (gVa c.w) r (e / 2)))))

/-- The elements of the extent as UNPACK takes them: row, element, value. -/
def unpackElements (c : GCtx) (x : ArrayState) : List (Nat × Nat × Word) :=
  c.positions.flatMap (fun p =>
    let w := regGet x (gVa c.w) p.1 p.2
    let one (h : Nat) := fixResult c.flush (flush32 c.flush (halfToWord h))
    [(p.1, 2 * p.2, one (lowHalf w)), (p.1, 2 * p.2 + 1, one (highHalf w))])

theorem mem_unpackElements {c : GCtx} {x : ArrayState} {e : Nat × Nat × Word} :
    e ∈ unpackElements c x ↔ e.1 < c.t.rows ∧ e.2.1 < 2 * c.t.lanes ∧ e.2.2 = unpackElement c x e.1 e.2.1 := by
  obtain ⟨r, k, w⟩ := e
  have hEven (l : Nat) : unpackElement c x r (2 * l) = fixResult c.flush (flush32 c.flush (halfToWord (lowHalf (regGet x (gVa c.w) r l)))) := by
    rw [unpackElement, if_pos (by omega), show 2 * l / 2 = l by omega]
  have hOdd (l : Nat) : unpackElement c x r (2 * l + 1) =
      fixResult c.flush (flush32 c.flush (halfToWord (highHalf (regGet x (gVa c.w) r l)))) := by
    rw [unpackElement, if_neg (by omega), show (2 * l + 1) / 2 = l by omega]
  simp only [unpackElements, List.mem_flatMap, List.mem_cons, List.not_mem_nil, or_false, Prod.exists, mem_positions, Prod.mk.injEq]
  constructor
  · rintro ⟨r', l, ⟨hRow, hLane⟩, ⟨rfl, rfl, rfl⟩ | ⟨rfl, rfl, rfl⟩⟩
    · exact ⟨hRow, by omega, (hEven l).symm⟩
    · exact ⟨hRow, by omega, (hOdd l).symm⟩
  · rintro ⟨hRow, hLane, rfl⟩
    refine ⟨r, k / 2, ⟨hRow, by omega⟩, ?_⟩
    rcases Nat.mod_two_eq_zero_or_one k with h | h
    · obtain ⟨l, rfl⟩ : ∃ l, k = 2 * l := ⟨k / 2, by omega⟩
      exact .inl ⟨rfl, by omega, by rw [hEven, show 2 * l / 2 = l by omega]⟩
    · obtain ⟨l, rfl⟩ : ∃ l, k = 2 * l + 1 := ⟨k / 2, by omega⟩
      exact .inr ⟨rfl, by omega, by rw [hOdd, show (2 * l + 1) / 2 = l by omega]⟩

/-- The array after UNPACK: elements 0-127 in vd, 128-255 in vd + 1. -/
def unpacked (c : GCtx) (x : ArrayState) : ArrayState :=
  (unpackElements c x).foldl (fun x e => regPut (gVd c.w + e.2.1 / 128) e.1 (e.2.1 % 128) e.2.2 x) x

theorem unpacked_onlyRegs (c : GCtx) (x : ArrayState) : OnlyRegs x (unpacked c x) := by
  unfold unpacked
  exact OnlyRegs.foldl_regPut (fun e : Nat × Nat × Word => gVd c.w + e.2.1 / 128) (fun e => e.1) (fun e => e.2.1 % 128) (fun e => e.2.2) _ (.refl x)

/-- The element of UNPACK that a lane of vd or vd + 1 takes. -/
def unpackPlace (c : GCtx) (v l : Nat) : Nat := if v = gVd c.w then l else 128 + l

theorem regGet_unpacked {c : GCtx} (x : ArrayState) (hExtent : c.t.rows ≤ 16 ∧ c.t.lanes ≤ 128) (v : Nat) {r l : Nat} (hr : r < 16) (hl : l < 128) :
    regGet (unpacked c x) v r l =
      if r < c.t.rows ∧ (v = gVd c.w ∧ l < 2 * c.t.lanes ∨ v = gVd c.w + 1 ∧ 128 + l < 2 * c.t.lanes) then
        unpackElement c x r (unpackPlace c v l) else regGet x v r l := by
  have hPut := regGet_foldl_regPut (fun e : Nat × Nat × Word => gVd c.w + e.2.1 / 128) (fun e => e.1) (fun e => e.2.1 % 128) (fun e => e.2.2)
    (fun v r l => unpackElement c x r (unpackPlace c v l)) (unpackElements c x) x (v' := v) (r' := r) (l' := l) ?range ?value hr hl
  case range =>
    intro e he
    obtain ⟨hRow, -, -⟩ := mem_unpackElements.mp he
    omega
  case value =>
    intro e he
    obtain ⟨-, hLane, hValue⟩ := mem_unpackElements.mp he
    have hPlace : unpackPlace c (gVd c.w + e.2.1 / 128) (e.2.1 % 128) = e.2.1 := by
      unfold unpackPlace
      split <;> omega
    rw [hPlace, hValue]
  have hMem : (∃ e ∈ unpackElements c x, v = gVd c.w + e.2.1 / 128 ∧ r = e.1 ∧ l = e.2.1 % 128) ↔
      r < c.t.rows ∧ (v = gVd c.w ∧ l < 2 * c.t.lanes ∨ v = gVd c.w + 1 ∧ 128 + l < 2 * c.t.lanes) := by
    constructor
    · rintro ⟨e, he, hV, rfl, hL⟩
      obtain ⟨hRow, hLane, -⟩ := mem_unpackElements.mp he
      exact ⟨hRow, by omega⟩
    · rintro ⟨hRow, ⟨hV, hLane⟩ | ⟨hV, hLane⟩⟩
      · exact ⟨(r, l, unpackElement c x r l), mem_unpackElements.mpr ⟨hRow, hLane, rfl⟩, by dsimp only; omega, rfl, by dsimp only; omega⟩
      · exact ⟨(r, 128 + l, unpackElement c x r (128 + l)), mem_unpackElements.mpr ⟨hRow, hLane, rfl⟩, by dsimp only; omega, rfl, by dsimp only; omega⟩
  rw [unpacked, hPut]
  exact ite_of_iff hMem _ _

/-- A run of UNPACK. -/
def unpackRun (c : GCtx) (s : State) : State :=
  glazeNext c (setArray c.a (unpacked c (arrayOf s c.a)) (countUnless 0x5249 c.a
    (sumNat ((unpackElements c (arrayOf s c.a)).map (fun e => if isNan32 e.2.2 then 1 else 0))) s))

theorem exec_gUnpack (a n : Nat) (s : State) : exec (.gUnpack a n) s = done (glazeRun 0x14 a n unpackRun s) := by
  show execGUnpack a n s = _
  unfold execGUnpack unpackRun unpacked unpackElements countUnless
  rfl

end Sys2Proof.Machine

open Sys2Proof Sys2Proof.Machine

/-- Settles O30: the functions are element-wise; PACK and UNPACK write the registers that `regGet_packed` and `regGet_unpacked` say. -/
theorem glazeFunctionsPackingAndUnpacking : Obligations.GlazeFunctionsPackingAndUnpacking := by
  unfold Obligations.GlazeFunctionsPackingAndUnpacking
  refine ⟨⟨?_, ?_, ?_, ?_, ?_, ?_⟩, computes_pack, fun a n c s h => ?_⟩
  · exact computes_arith _ _ (fun _ _ _ => rfl) (by simp)
  · exact computes_arith _ _ (fun _ _ _ => rfl) (by simp)
  · exact computes_arith _ _ (fun _ _ _ => rfl) (by simp)
  · exact computes_arith _ _ (fun _ _ _ => rfl) (by simp)
  · exact computes_arith _ _ (fun _ _ _ => rfl) (by simp)
  · exact computes_arith _ _ (fun _ _ _ => rfl) (by simp)
  · obtain ⟨hExec, hGoes, hSame, hParts⟩ := goesOn_of_run exec_gUnpack (by simp) h rfl (unpacked_onlyRegs c (arrayOf s c.a))
      (fun b => by rw [arrayOf_setArray, arrayOf_countUnless]) (slots_countUnless _ _ _ _)
    refine ⟨_, hExec, hGoes, fun v r l hr hl => ?_, hParts⟩
    rw [hSame, regGet_unpacked _ h.extent v hr hl, h.array]
    dsimp only [unpackElement, unpackPlace, sourceA]
    rw [h.array]
end

section
/-! Glaze reductions along both axes (R194, R197, R198). -/

namespace Sys2Proof.Machine

theorem putRow_onlyRegs (v r : Nat) (f : Nat → Word) {x y : ArrayState} (h : OnlyRegs x y) : OnlyRegs x (putRow v r f y) :=
  .foldl (fun _ _ l hy => hy.put v r l (f l)) _ h

theorem regGet_putRow (v : Nat) {r : Nat} (f : Nat → Word) (x : ArrayState) (hr : r < 16) (v' : Nat) {r' l' : Nat} (hr' : r' < 16) (hl' : l' < 128) :
    regGet (putRow v r f x) v' r' l' = if v' = v ∧ r' = r then f l' else regGet x v' r' l' := by
  have hPut := regGet_foldl_regPut (fun _ : Nat => v) (fun _ => r) (fun l => l) f (fun _ _ l => f l) (List.range 128) x
    (v' := v') (r' := r') (l' := l') (fun l hl => ⟨hr, List.mem_range.mp hl⟩) (fun _ _ => rfl) hr' hl'
  rw [putRow, hPut]
  refine ite_of_iff ⟨?_, fun h => ⟨l', List.mem_range.mpr hl', h.1, h.2, rfl⟩⟩ _ _
  rintro ⟨-, -, hV, hR, -⟩
  exact ⟨hV, hR⟩

/-- Rows of one register, all as one function of row and lane gives them. -/
theorem regGet_foldl_putRow {α : Type} (v : Nat) (row : α → Nat) (f : α → Nat → Word) (g : Nat → Nat → Word) (es : List α) (x : ArrayState)
    (hRange : ∀ e ∈ es, row e < 16) (hValue : ∀ e ∈ es, ∀ l, f e l = g (row e) l) (v' : Nat) {r' l' : Nat} (hr' : r' < 16) (hl' : l' < 128) :
    regGet (es.foldl (fun x e => putRow v (row e) (f e) x) x) v' r' l' =
      if v' = v ∧ ∃ e ∈ es, r' = row e then g r' l' else regGet x v' r' l' := by
  induction es generalizing x with
  | nil => simp
  | cons e es ih =>
    rw [List.foldl_cons, ih _ (fun y hy => hRange y (List.mem_cons_of_mem _ hy)) (fun y hy => hValue y (List.mem_cons_of_mem _ hy)),
      regGet_putRow v (f e) x (hRange e List.mem_cons_self) v' hr' hl']
    have hSplit := exists_of_cons (p := fun y => r' = row y) (e := e) (es := es)
    by_cases hLater : v' = v ∧ ∃ y ∈ es, r' = row y
    · rw [if_pos hLater, if_pos ⟨hLater.1, hSplit.mpr (.inr hLater.2)⟩]
    · rw [if_neg hLater]
      by_cases hHere : v' = v ∧ r' = row e
      · rw [if_pos hHere, if_pos ⟨hHere.1, hSplit.mpr (.inl hHere.2)⟩, hValue e List.mem_cons_self, hHere.2]
      · rw [if_neg hHere, if_neg (fun h => (hSplit.mp h.2).elim (fun hr => hHere ⟨h.1, hr⟩) (fun hy => hLater ⟨h.1, hy⟩))]

/-- The result of an element column: element `r` of each lane that a reduction along axis 1 reads. -/
def columnResult (d : Reduce) (g : List Word → Word) (c : GCtx) (x : ArrayState) (r l : Nat) : Word :=
  g ((List.range 16).map (fun k => (laneElements (gMode c.w) d c x k l).getD r 0))

/-- The result of a row. -/
def rowResult (d : Reduce) (g : List Word → Word) (c : GCtx) (x : ArrayState) (r : Nat) : Word :=
  g ((List.range 128).flatMap (fun k => laneElements (gMode c.w) d c x r k))

/-- The results of a reduction along axis 1, with their rows and lanes. -/
def columnResults (d : Reduce) (g : List Word → Word) (c : GCtx) (x : ArrayState) : List (Nat × Nat × Word) :=
  (List.range 128).flatMap (fun l =>
    let cols := (List.range 16).map (fun r => laneElements (gMode c.w) d c x r l)
    if gMode c.w = 1 then
      [(0, l, g (cols.map (fun e => e.getD 0 0))), (1, l, g (cols.map (fun e => e.getD 1 0)))]
    else [(0, l, g (cols.map (fun e => e.getD 0 0)))])

theorem mem_columnResults {d : Reduce} {g : List Word → Word} {c : GCtx} {x : ArrayState} {e : Nat × Nat × Word} :
    e ∈ columnResults d g c x ↔
      e.2.1 < 128 ∧ (e.1 = 0 ∨ (e.1 = 1 ∧ gMode c.w = 1)) ∧ e.2.2 = columnResult d g c x e.1 e.2.1 := by
  obtain ⟨r, l, w⟩ := e
  have hResult (r l : Nat) : g (((List.range 16).map (fun r => laneElements (gMode c.w) d c x r l)).map (fun e => e.getD r 0)) =
      columnResult d g c x r l := by rw [List.map_map]; rfl
  simp only [columnResults, List.mem_flatMap, List.mem_range, hResult]
  constructor
  · rintro ⟨l', hl, h⟩
    split at h
    case isTrue hMode =>
      rcases List.mem_cons.mp h with h | h
      · cases h
        exact ⟨hl, .inl rfl, rfl⟩
      · cases List.mem_singleton.mp h
        exact ⟨hl, .inr ⟨rfl, hMode⟩, rfl⟩
    case isFalse =>
      cases List.mem_singleton.mp h
      exact ⟨hl, .inl rfl, rfl⟩
  · rintro ⟨hl, hRow, rfl⟩
    refine ⟨l, hl, ?_⟩
    rcases hRow with rfl | ⟨rfl, hMode⟩
    · split <;> exact List.mem_cons_self
    · rw [if_pos hMode]
      exact List.mem_cons_of_mem _ List.mem_cons_self

/-- The array after a reduction along axis 1, and along axis 0. -/
def columnsReduced (d : Reduce) (g : List Word → Word) (c : GCtx) (x : ArrayState) : ArrayState :=
  (columnResults d g c x).foldl (fun x e => regPut (gVd c.w) e.1 e.2.1 e.2.2 x)
    ((List.range 16).foldl (fun x r => putRow (gVd c.w) r (fun _ => 0) x) x)

def rowsReduced (d : Reduce) (g : List Word → Word) (c : GCtx) (x : ArrayState) : ArrayState :=
  ((List.range 16).map (fun r => (r, 0, rowResult d g c x r))).foldl (fun x (e : Nat × Nat × Word) =>
    putRow (gVd c.w) e.1 (fun l => if l = 0 || gBit c.w 28 then e.2.2 else 0) x) x

def reduced (d : Reduce) (g : List Word → Word) (c : GCtx) (x : ArrayState) : ArrayState :=
  if gBit c.w 29 then columnsReduced d g c x else rowsReduced d g c x

theorem regGet_columnsReduced (d : Reduce) (g : List Word → Word) (c : GCtx) (x : ArrayState) (v : Nat) {r l : Nat} (hr : r < 16) (hl : l < 128) :
    regGet (columnsReduced d g c x) v r l = if v ≠ gVd c.w then regGet x v r l
      else if r = 0 ∨ (r = 1 ∧ gMode c.w = 1) then columnResult d g c x r l else 0 := by
  have hZero := regGet_foldl_putRow (gVd c.w) (fun r : Nat => r) (fun _ _ => 0) (fun _ _ => 0) (List.range 16) x
    (fun r hr => List.mem_range.mp hr) (fun _ _ _ => rfl) v hr hl
  have hPut := regGet_foldl_regPut (fun _ => gVd c.w) (fun e : Nat × Nat × Word => e.1) (fun e => e.2.1) (fun e => e.2.2)
    (fun _ r l => columnResult d g c x r l) (columnResults d g c x)
    ((List.range 16).foldl (fun x r => putRow (gVd c.w) r (fun _ => 0) x) x) (v' := v) (r' := r) (l' := l) ?range ?value hr hl
  case range =>
    intro e he
    obtain ⟨hLane, hRow, -⟩ := mem_columnResults.mp he
    omega
  case value => exact fun e he => (mem_columnResults.mp he).2.2
  have hMem : (∃ e ∈ columnResults d g c x, v = gVd c.w ∧ r = e.1 ∧ l = e.2.1) ↔ v = gVd c.w ∧ (r = 0 ∨ (r = 1 ∧ gMode c.w = 1)) := by
    constructor
    · rintro ⟨e, he, hV, rfl, rfl⟩
      exact ⟨hV, (mem_columnResults.mp he).2.1⟩
    · rintro ⟨hV, hRow⟩
      exact ⟨(r, l, columnResult d g c x r l), mem_columnResults.mpr ⟨hl, hRow, rfl⟩, hV, rfl, rfl⟩
  rw [columnsReduced, hPut, hZero]
  by_cases hV : v = gVd c.w
  · rw [if_neg (not_not_intro hV), if_pos (⟨hV, r, List.mem_range.mpr hr, rfl⟩ : v = gVd c.w ∧ ∃ e ∈ List.range 16, r = e)]
    exact ite_of_iff (hMem.trans (and_iff_right hV)) _ _
  · rw [if_pos hV, if_neg (fun h => hV (hMem.mp h).1), if_neg (fun h => hV h.1)]

theorem regGet_rowsReduced (d : Reduce) (g : List Word → Word) (c : GCtx) (x : ArrayState) (v : Nat) {r l : Nat} (hr : r < 16) (hl : l < 128) :
    regGet (rowsReduced d g c x) v r l = if v ≠ gVd c.w then regGet x v r l
      else if l = 0 ∨ gBit c.w 28 then rowResult d g c x r else 0 := by
  have hPut := regGet_foldl_putRow (gVd c.w) (fun e : Nat × Nat × Word => e.1) (fun e l => if l = 0 || gBit c.w 28 then e.2.2 else 0)
    (fun r l => if l = 0 || gBit c.w 28 then rowResult d g c x r else 0) ((List.range 16).map (fun r => (r, 0, rowResult d g c x r))) x
    ?range ?value v hr hl
  case range =>
    intro e he
    obtain ⟨r, hr, rfl⟩ := List.mem_map.mp he
    exact List.mem_range.mp hr
  case value =>
    intro e he l
    obtain ⟨r, -, rfl⟩ := List.mem_map.mp he
    rfl
  rw [rowsReduced, hPut]
  by_cases hV : v = gVd c.w
  · rw [if_neg (not_not_intro hV), if_pos ⟨hV, _, List.mem_map_of_mem (List.mem_range.mpr hr), rfl⟩]
    exact ite_of_iff (by simp) _ _
  · rw [if_pos hV, if_neg (fun h => hV h.1)]

theorem reduced_onlyRegs (d : Reduce) (g : List Word → Word) (c : GCtx) (x : ArrayState) : OnlyRegs x (reduced d g c x) := by
  unfold reduced
  split
  · unfold columnsReduced
    exact OnlyRegs.foldl_regPut (fun _ => gVd c.w) (fun e : Nat × Nat × Word => e.1) (fun e => e.2.1) (fun e => e.2.2) _
      (.foldl (fun _ _ r hy => putRow_onlyRegs _ r _ hy) _ (.refl x))
  · exact .foldl (fun _ _ (e : Nat × Nat × Word) hy => putRow_onlyRegs _ e.1 _ hy) _ (.refl x)

/-- What a reduction does is `reduced`, with a count of its own. -/
theorem reduceWith_eq (d : Reduce) (g : List Word → Word) (nans : Bool) (c : GCtx) (s : State) :
    ∃ k, reduceWith d g nans c s = glazeNext c (countUnless 0x5249 c.a k (setArray c.a (reduced d g c (arrayOf s c.a)) s)) := by
  refine ⟨if nans && gMode c.w != 2 then sumNat ((if gBit c.w 29 then columnResults d g c (arrayOf s c.a) else
    (List.range 16).map (fun r => (r, 0, rowResult d g c (arrayOf s c.a) r))).map (fun e => if isNan32 e.2.2 then 1 else 0)) else 0, ?_⟩
  unfold reduceWith reduced columnsReduced rowsReduced columnResults rowResult countUnless
  by_cases h : gBit c.w 29 = true
  · simp only [h, if_true]
  · simp only [h, Bool.false_eq_true, if_false]

theorem reducesBy_of_run {ins : Nat → Nat → Instr} {op : Nat} (nans : Bool) (d : GCtx → Reduce) (g : GCtx → List Word → Word)
    (hIns : ∀ a n s, exec (ins a n) s = done (glazeRun op a n (fun c => reduceWith (d c) (g c) nans c) s))
    (hNot : ∀ a n findings, ins a n ≠ .resetStretchEnd findings) : ReducesBy ins op d g := by
  intro a n c s h
  obtain ⟨k, hEq⟩ := reduceWith_eq (d c) (g c) nans c s
  obtain ⟨hExec, hGoes, hSame, hParts⟩ := goesOn_of_run hIns hNot h hEq (reduced_onlyRegs (d c) (g c) c (arrayOf s c.a))
    (fun b => by rw [arrayOf_countUnless, arrayOf_setArray]) (slots_countUnless _ _ _ _)
  refine ⟨_, hExec, hGoes, fun v r l hr hl => ?_, hParts⟩
  rw [hSame, reduced, h.array]
  by_cases hAxis : gBit c.w 29 = true
  · simp only [hAxis, if_true]
    exact regGet_columnsReduced (d c) (g c) c (arrayOf s a) v hr hl
  · simp only [hAxis, Bool.false_eq_true, if_false]
    exact regGet_rowsReduced (d c) (g c) c (arrayOf s a) v hr hl

end Sys2Proof.Machine

open Sys2Proof Sys2Proof.Machine

/-- Settles O31: each reduction is `reduceWith`, whose array is `reduced`. -/
theorem glazeReductions : Obligations.GlazeReductions := by
  unfold Obligations.GlazeReductions
  refine ⟨?_, ?_, ?_, ?_, ?_, fun _ _ _ _ _ => rfl⟩
  · exact reducesBy_of_run true _ _ (fun _ _ _ => rfl) (by simp)
  · exact reducesBy_of_run true _ _ (fun _ _ _ => rfl) (by simp)
  · exact reducesBy_of_run true _ _ (fun _ _ _ => rfl) (by simp)
  · exact reducesBy_of_run false _ _ (fun _ _ _ => rfl) (by simp)
  · exact reducesBy_of_run true _ _ (fun _ _ _ => rfl) (by simp)
end

section
/-! Glaze LD and ST (R199, R200, R207). -/

namespace Sys2Proof.Machine

/-! LD. -/

/-- The words of a stored row as LD takes them. -/
def loadedWords (c : GCtx) (s : State) (r : Nat) : List Word :=
  let f := formatFor s c.t.slot (gFormat c.w)
  if gTarget c.w = 1 then (List.range 128).map (fun l => acmGet (arrayOf s c.a) c.t.slot (acmRow c r) l)
  else loadedRow c f (loadBytes (arrayOf s c.a).tbf (rowAddress c r) (if rawRow c then 512 else rowBytes f (c.full f)))

/-- The array after LD. -/
def rowsLoaded (c : GCtx) (s : State) : ArrayState :=
  (List.range 16).foldl (fun x r =>
    let ws := if r < c.t.rows then loadedWords c s r else []
    putRow (gVd c.w) r (fun l => if l < c.t.lanes then ws.getD l 0 else 0) x) (arrayOf s c.a)

theorem rowsLoaded_onlyRegs (c : GCtx) (s : State) : OnlyRegs (arrayOf s c.a) (rowsLoaded c s) :=
  .foldl (fun _ _ r hy => putRow_onlyRegs _ r _ hy) _ (.refl _)

theorem regGet_rowsLoaded (c : GCtx) (s : State) (v : Nat) {r l : Nat} (hr : r < 16) (hl : l < 128) :
    regGet (rowsLoaded c s) v r l = if v ≠ gVd c.w then regGet (arrayOf s c.a) v r l
      else if r < c.t.rows ∧ l < c.t.lanes then (loadedWords c s r).getD l 0 else 0 := by
  have hPut := regGet_foldl_putRow (gVd c.w) (fun r : Nat => r)
    (fun r l => if l < c.t.lanes then (if r < c.t.rows then loadedWords c s r else []).getD l 0 else 0)
    (fun r l => if l < c.t.lanes then (if r < c.t.rows then loadedWords c s r else []).getD l 0 else 0) (List.range 16) (arrayOf s c.a)
    (fun r hr => List.mem_range.mp hr) (fun _ _ _ => rfl) v hr hl
  rw [rowsLoaded, hPut]
  by_cases hV : v = gVd c.w
  · rw [if_neg (not_not_intro hV), if_pos ⟨hV, r, List.mem_range.mpr hr, rfl⟩]
    by_cases hRow : r < c.t.rows <;> simp [hRow]
  · rw [if_pos hV, if_neg (fun h => hV h.1)]

theorem getD_loadedWords_acm {c : GCtx} {s : State} (hTarget : gTarget c.w = 1) (r : Nat) {l : Nat} (hl : l < 128) :
    (loadedWords c s r).getD l 0 = acmGet (arrayOf s c.a) c.t.slot (acmRow c r) l := by
  rw [loadedWords, if_pos hTarget, List.getD_eq_getElem?_getD, List.getElem?_map, List.getElem?_range hl]
  rfl

/-- A run of LD. -/
def loadRun (c : GCtx) (s : State) : State :=
  if addressFault s c (formatFor s c.t.slot (gFormat c.w)) then glazeAbandon c s
  else if gTarget c.w = 1 ∧ acmOwned (arrayOf s c.a) c = true then s
  else glazeNext c (setArray c.a (rowsLoaded c s) s)

theorem exec_gLd (a n : Nat) (s : State) : exec (.gLd a n) s = done (glazeRun 0x28 a n loadRun s) := by
  show execGLd a n s = _
  unfold execGLd loadRun rowsLoaded loadedWords
  rfl

/-! Storage after writes of single bytes. -/

theorem loadByte_foldl_other {cells : List (Nat × Byte)} {i : Nat} (h : ∀ e ∈ cells, e.1 ≠ i) (m : Memory) :
    loadByte (cells.foldl (fun m e => storeByte m e.1 e.2) m) i = loadByte m i := by
  induction cells generalizing m with
  | nil => rfl
  | cons e es ih =>
    rw [List.foldl_cons, ih (fun y hy => h y (List.mem_cons_of_mem _ hy)), loadByte_storeByte_other _ _ (h e List.mem_cons_self)]

/-- A byte that some write names, and no write otherwise, holds it. -/
theorem loadByte_foldl_of_agree {cells : List (Nat × Byte)} {i : Nat} {b : Byte} (hSome : ∃ e ∈ cells, e.1 = i)
    (hAll : ∀ e ∈ cells, e.1 = i → e.2 = b) (m : Memory) : loadByte (cells.foldl (fun m e => storeByte m e.1 e.2) m) i = b := by
  induction cells generalizing m with
  | nil => simp at hSome
  | cons e es ih =>
    rw [List.foldl_cons]
    by_cases hLater : ∃ y ∈ es, y.1 = i
    · exact ih hLater (fun y hy => hAll y (List.mem_cons_of_mem _ hy)) _
    · have hHere : e.1 = i := (exists_of_cons.mp hSome).resolve_right hLater
      rw [loadByte_foldl_other (fun y hy h => hLater ⟨y, hy, h⟩), ← hAll e List.mem_cons_self hHere, hHere, loadByte_storeByte_same]

/-! The bytes of a stored row. -/

theorem length_le (k n : Nat) : (le k n).length = k := by
  induction k generalizing n with
  | zero => rfl
  | succ k ih => rw [le, List.length_cons, ih]

theorem length_packRow (f : EFmt) (seed : Nat) (c : RndCtx) (toInf : Bool) (row col : Nat) (vs : List FVal) :
    (packRow f seed c toInf row col vs).1.length =
      ceilDiv (vs.length * f.width) 32 * 4 + (if f.block = 0 then 0 else ceilDiv vs.length f.block) := by
  unfold packRow packPlaced packWith
  dsimp only
  rw [List.length_append, length_le, List.length_map, List.length_map, List.length_range]

theorem length_storedValues (c : GCtx) (f : EFmt) (ws : List Word) (hLength : ws.length = c.t.lanes) : (storedValues c f ws).length = c.inside f := by
  have hPairs (ws : List Word) : (ws.flatMap (fun w => [f32 (halfToWord (lowHalf w)), f32 (halfToWord (highHalf w))])).length = 2 * ws.length := by
    induction ws with
    | nil => rfl
    | cons w ws ih =>
      rw [List.flatMap_cons, List.length_append, ih, List.length_cons, List.length_cons, List.length_cons, List.length_nil]
      omega
  unfold storedValues GCtx.inside
  cases hInt : f.int with
  | true => simp [hLength]
  | false =>
    by_cases hMode : gMode c.w = 1
    · simp only [Bool.false_eq_true, if_false, hMode, if_true, hPairs, hLength, and_self]
    · simp [hMode, hLength]

theorem inside_le_full (c : GCtx) (f : EFmt) (h : c.t.lanes ≤ 128) : c.inside f ≤ c.full f := by
  unfold GCtx.inside GCtx.full
  split <;> omega

theorem fst_lt_of_mem_zipIdx {α : Type} {xs : List α} {e : α × Nat} (h : e ∈ xs.zipIdx) : e.2 < xs.length := by
  have := List.snd_lt_of_mem_zipIdx h
  omega

/-- What a stored row writes lies inside what the access touches. -/
theorem storeRow_inside {c : GCtx} {f : EFmt} {old : Nat → Byte} {packed : Bytes} (hLanes : c.t.lanes ≤ 128) (hRaw : rawRow c = false)
    (hLength : packed.length = ceilDiv (c.inside f * f.width) 32 * 4 + (if f.block = 0 then 0 else ceilDiv (c.inside f) f.block)) :
    ∀ e ∈ storeRow c f old packed, e.1 < touched c f := by
  have hWidth : c.inside f * f.width ≤ c.full f * f.width := Nat.mul_le_mul_right _ (inside_le_full c f hLanes)
  have hElements : c.inside f * f.width / 8 ≤ touched c f ∧ (c.inside f * f.width % 8 ≠ 0 → c.inside f * f.width / 8 < touched c f) := by
    unfold touched rowBytes ceilDiv
    rw [hRaw, if_neg (by simp)]
    generalize c.inside f * f.width = N at hWidth ⊢
    generalize c.full f * f.width = M at hWidth ⊢
    generalize (c.full f + f.block - 1) / f.block = blocks
    split <;> omega
  intro e he
  unfold storeRow at he
  simp only [List.mem_append, List.mem_map] at he
  rcases he with (⟨p, hp, rfl⟩ | he) | ⟨p, hp, rfl⟩
  · have := fst_lt_of_mem_zipIdx hp
    rw [List.length_take] at this
    dsimp only
    omega
  · split at he
    case isTrue => cases he
    case isFalse hRest =>
      cases List.mem_singleton.mp he
      exact hElements.2 hRest
  · have hScale := fst_lt_of_mem_zipIdx hp
    rw [List.length_drop, hLength, Nat.add_sub_cancel_left] at hScale
    have hBlock : f.block ≠ 0 := by
      intro h
      rw [if_pos h] at hScale
      omega
    have hBlocks : ceilDiv (c.inside f) f.block ≤ ceilDiv (c.full f) f.block :=
      Nat.div_le_div_right (by have := inside_le_full c f hLanes; omega)
    rw [if_neg hBlock] at hScale
    unfold touched rowBytes
    rw [hRaw, if_neg (by simp), if_neg hBlock, if_neg hBlock]
    dsimp only
    omega

theorem length_words (ws : List Word) : (ws.flatMap (fun w => le 4 w.toNat)).length = 4 * ws.length := by
  induction ws with
  | nil => rfl
  | cons w ws ih =>
    rw [List.flatMap_cons, List.length_append, ih, length_le, List.length_cons]
    omega

theorem getElem?_words (ws : List Word) {l j : Nat} (hj : j < 4) : (ws.flatMap (fun w => le 4 w.toNat))[4 * l + j]? =
    (ws[l]?).bind (fun w => (le 4 w.toNat)[j]?) := by
  induction ws generalizing l with
  | nil => simp
  | cons w ws ih =>
    rw [List.flatMap_cons]
    cases l with
    | zero => rw [List.getElem?_append_left (by rw [length_le]; omega)]; simp
    | succ l =>
      rw [List.getElem?_append_right (by rw [length_le]; omega), length_le, show 4 * (l + 1) + j - 4 = 4 * l + j by omega, ih]
      rfl

/-- The words that ST takes from a row. -/
def storedWords (c : GCtx) (x : ArrayState) (r : Nat) : List Word := (List.range c.t.lanes).map (fun l => regGet x (gVa c.w) r l)

theorem stRow_raw {s : State} {c : GCtx} {f : EFmt} {x : ArrayState} {m : Memory} {r : Nat} (hRaw : rawRow c = true) : (stRow s c f x m r).1 =
    ((storedWords c x r).flatMap (fun w => le 4 w.toNat)).zipIdx.map (fun e => (rowAddress c r + e.2, e.1)) := by
  unfold stRow storedWords
  dsimp only
  rw [if_pos hRaw]

/-- A row of ST writes its own bytes alone. -/
theorem stRow_inside (s : State) {c : GCtx} (f : EFmt) (x : ArrayState) (m : Memory) (r : Nat) (hLanes : c.t.lanes ≤ 128) :
    ∀ e ∈ (stRow s c f x m r).1, rowAddress c r ≤ e.1 ∧ e.1 < rowAddress c r + touched c f := by
  intro e he
  cases hRaw : rawRow c with
  | true =>
    rw [stRow_raw hRaw] at he
    obtain ⟨p, hp, rfl⟩ := List.mem_map.mp he
    have hIndex := fst_lt_of_mem_zipIdx hp
    rw [length_words, storedWords, List.length_map, List.length_range] at hIndex
    rw [touched, if_pos hRaw]
    exact ⟨Nat.le_add_right _ _, Nat.add_lt_add_left hIndex _⟩
  | false =>
    unfold stRow at he
    dsimp only at he
    rw [hRaw, if_neg (by simp)] at he
    obtain ⟨p, hp, rfl⟩ := List.mem_map.mp he
    refine ⟨Nat.le_add_right _ _, Nat.add_lt_add_left (storeRow_inside hLanes hRaw ?_ p hp) _⟩
    rw [length_packRow, length_storedValues c f _ (by simp)]

/-! ST. -/

/-- The TBF after ST. -/
def tbfStored (c : GCtx) (s : State) : Memory :=
  (((List.range c.t.rows).map (stRow s c (formatFor s c.t.slot (gFormat c.w)) (arrayOf s c.a) (arrayOf s c.a).tbf)).flatMap (·.1)).foldl
    (fun m e => storeByte m e.1 e.2) (arrayOf s c.a).tbf

theorem mem_storedCells {c : GCtx} {s : State} {f : EFmt} {x : ArrayState} {m : Memory} {e : Nat × Byte} :
    e ∈ ((List.range c.t.rows).map (stRow s c f x m)).flatMap (·.1) ↔ ∃ r, r < c.t.rows ∧ e ∈ (stRow s c f x m r).1 := by
  constructor
  · intro h
    obtain ⟨p, hp, he⟩ := List.mem_flatMap.mp h
    obtain ⟨r, hr, rfl⟩ := List.mem_map.mp hp
    exact ⟨r, List.mem_range.mp hr, he⟩
  · rintro ⟨r, hr, he⟩
    exact List.mem_flatMap.mpr ⟨_, List.mem_map_of_mem (List.mem_range.mpr hr), he⟩

theorem loadByte_tbfStored_other {c : GCtx} {s : State} {i : Nat} (hLanes : c.t.lanes ≤ 128)
    (h : ∀ r, r < c.t.rows → i < rowAddress c r ∨ rowAddress c r + touched c (formatFor s c.t.slot (gFormat c.w)) ≤ i) :
    loadByte (tbfStored c s) i = loadByte (arrayOf s c.a).tbf i := by
  refine loadByte_foldl_other (fun e he hIs => ?_) _
  obtain ⟨r, hr, he⟩ := mem_storedCells.mp he
  have := stRow_inside s _ _ _ r hLanes e he
  have := h r hr
  omega

/-- Rows of whole words, at 512 bytes or more from each other, hold their words. -/
theorem loadBytes_tbfStored {c : GCtx} {s : State} (hLanes : c.t.lanes ≤ 128) (hRaw : rawRow c = true) (hStride : 512 ≤ gStride c) {r l : Nat}
    (hr : r < c.t.rows) (hl : l < c.t.lanes) :
    loadBytes (tbfStored c s) (rowAddress c r + 4 * l) 4 = le 4 (regGet (arrayOf s c.a) (gVa c.w) r l).toNat := by
  generalize hWord : regGet (arrayOf s c.a) (gVa c.w) r l = w
  have hFound (j : Nat) (hj : j < 4) : ((storedWords c (arrayOf s c.a) r).flatMap (fun w => le 4 w.toNat))[4 * l + j]? = (le 4 w.toNat)[j]? := by
    rw [getElem?_words _ hj, storedWords, List.getElem?_map, List.getElem?_range hl]
    exact congrArg (fun w : Word => (le 4 w.toNat)[j]?) hWord
  show (List.range 4).map (fun i => loadByte (tbfStored c s) (rowAddress c r + 4 * l + i)) = _
  refine List.ext_getElem (by rw [length_le]; rfl) (fun j hj hj' => ?_)
  have hLt : j < 4 := by rwa [length_le] at hj'
  have hByte := (hFound j hLt).trans (List.getElem?_eq_getElem hj')
  have hLoad : loadByte (tbfStored c s) (rowAddress c r + 4 * l + j) = (le 4 w.toNat)[j] := by
    refine loadByte_foldl_of_agree ?_ (fun e he hAt => ?_) _
    · refine ⟨(rowAddress c r + (4 * l + j), (le 4 w.toNat)[j]), mem_storedCells.mpr ⟨r, hr, ?_⟩, (Nat.add_assoc _ _ _).symm⟩
      rw [stRow_raw hRaw]
      exact List.mem_map.mpr ⟨((le 4 w.toNat)[j], 4 * l + j), List.mem_zipIdx_iff_getElem?.mpr hByte, rfl⟩
    · obtain ⟨r', hr', he⟩ := mem_storedCells.mp he
      have hInside := stRow_inside s (formatFor s c.t.slot (gFormat c.w)) (arrayOf s c.a) (arrayOf s c.a).tbf r' hLanes e he
      rw [touched, if_pos hRaw] at hInside
      have hRow : r' = r := by
        rcases Nat.lt_trichotomy r' r with hLt | hEq | hGt
        · have : (r' + 1) * gStride c ≤ r * gStride c := Nat.mul_le_mul_right _ hLt
          rw [Nat.add_one_mul] at this
          unfold rowAddress at *
          omega
        · exact hEq
        · have : (r + 1) * gStride c ≤ r' * gStride c := Nat.mul_le_mul_right _ hGt
          rw [Nat.add_one_mul] at this
          unfold rowAddress at *
          omega
      rw [hRow, stRow_raw hRaw] at he
      obtain ⟨⟨b, k⟩, hp, rfl⟩ := List.mem_map.mp he
      have hIndex : k = 4 * l + j := by
        dsimp only at hAt
        omega
      have hThere := List.mem_zipIdx_iff_getElem?.mp hp
      rw [hIndex] at hThere
      exact Option.some.inj (hThere.symm.trans hByte)
  rw [List.getElem_map, List.getElem_range]
  exact hLoad

/-! Accumulator words that ST writes. -/

/-- The array after ST into its accumulators. -/
def acmStored (c : GCtx) (x : ArrayState) : ArrayState :=
  (c.positions.map (fun p => (p, regGet x (gVa c.w) p.1 p.2))).foldl (fun x' e => acmPut c.t.slot (acmRow c e.1.1) e.1.2 e.2 x') x

/-- Words put at keys: any other key holds what it held. -/
theorem kget_foldl_kput_other {α β : Type} (key : α → Nat) (val : α → β) {es : List α} {k : Nat} (h : ∀ e ∈ es, key e ≠ k) (m : KMap β) :
    kget (es.foldl (fun m e => kput m (key e) (val e)) m) k = kget m k := by
  induction es generalizing m with
  | nil => rfl
  | cons e es ih =>
    rw [List.foldl_cons, ih (fun y hy => h y (List.mem_cons_of_mem _ hy)), kget_kput_other _ _ (h e List.mem_cons_self)]

theorem kget_foldl_kput_of_agree {α β : Type} (key : α → Nat) (val : α → β) {es : List α} {k : Nat} {b : β} (hSome : ∃ e ∈ es, key e = k)
    (hAll : ∀ e ∈ es, key e = k → val e = b) (m : KMap β) : kget (es.foldl (fun m e => kput m (key e) (val e)) m) k = some b := by
  induction es generalizing m with
  | nil => simp at hSome
  | cons e es ih =>
    rw [List.foldl_cons]
    by_cases hLater : ∃ y ∈ es, key y = k
    · exact ih hLater (fun y hy => hAll y (List.mem_cons_of_mem _ hy)) _
    · have hHere : key e = k := (exists_of_cons.mp hSome).resolve_right hLater
      rw [kget_foldl_kput_other key val (fun y hy h => hLater ⟨y, hy, h⟩), ← hAll e List.mem_cons_self hHere, hHere, kget_kput_same]

theorem acmStored_eq (c : GCtx) (x : ArrayState) : acmStored c x = { x with
    acm := c.positions.foldl (fun m p => kput m (acmKey c.t.slot (acmRow c p.1) p.2) (regGet x (gVa c.w) p.1 p.2)) x.acm } := by
  have hFold (ps : List (Nat × Nat)) (y : ArrayState) :
      (ps.map (fun p => (p, regGet x (gVa c.w) p.1 p.2))).foldl (fun x' e => acmPut c.t.slot (acmRow c e.1.1) e.1.2 e.2 x') y = { y with
        acm := ps.foldl (fun m p => kput m (acmKey c.t.slot (acmRow c p.1) p.2) (regGet x (gVa c.w) p.1 p.2)) y.acm } := by
    induction ps generalizing y with
    | nil => rfl
    | cons p ps ih =>
      rw [List.map_cons, List.foldl_cons, ih, List.foldl_cons]
      rfl
  exact hFold c.positions x

theorem kget_acmStored_other {c : GCtx} {x : ArrayState} {k : Nat}
    (h : ∀ r l, r < c.t.rows → l < c.t.lanes → k ≠ acmKey c.t.slot (acmRow c r) l) : kget (acmStored c x).acm k = kget x.acm k := by
  rw [acmStored_eq]
  exact kget_foldl_kput_other _ _ (fun p hp => (h p.1 p.2 (mem_positions.mp hp).1 (mem_positions.mp hp).2).symm) _

theorem acmKey_eq (slot row lane : Nat) : acmKey slot row lane = slot * 524288 + row * 128 + lane := by
  unfold acmKey
  omega

theorem acmGet_acmStored {c : GCtx} {x : ArrayState} (hLanes : c.t.lanes ≤ 128) (hStride : gStride c = 512) {r l : Nat} (hr : r < c.t.rows)
    (hl : l < c.t.lanes) : acmGet (acmStored c x) c.t.slot (acmRow c r) l = regGet x (gVa c.w) r l := by
  have hRow (r : Nat) : acmRow c r = gOffset c.w % 4096 + gBase c / 512 + r := by
    rw [acmRow, hStride, Nat.add_mul_div_right _ _ (by omega), Nat.add_assoc]
  have hStored : kget (acmStored c x).acm (acmKey c.t.slot (acmRow c r) l) = some (regGet x (gVa c.w) r l) := by
    rw [acmStored_eq]
    refine kget_foldl_kput_of_agree (fun p : Nat × Nat => acmKey c.t.slot (acmRow c p.1) p.2) _ ⟨(r, l), mem_positions.mpr ⟨hr, hl⟩, rfl⟩
      (fun p hp hKey => ?_) _
    obtain ⟨-, hLane⟩ := mem_positions.mp hp
    rw [acmKey_eq, acmKey_eq, hRow, hRow] at hKey
    have hR : p.1 = r := by omega
    have hL : p.2 = l := by omega
    rw [hR, hL]
  rw [acmGet, hStored]

theorem exec_gSt {a n : Nat} {c : GCtx} {s : State} (h : Issues 0x29 a n c s) :
    (addressFault s c (formatFor s c.t.slot (gFormat c.w)) = true → exec (.gSt a n) s = .next (glazeAbandon c s)) ∧
    (addressFault s c (formatFor s c.t.slot (gFormat c.w)) = false → gTarget c.w = 1 →
      (acmOwned (arrayOf s c.a) c = true → exec (.gSt a n) s = .next s) ∧
      (acmOwned (arrayOf s c.a) c = false → ∃ k, exec (.gSt a n) s =
        .next (glazeNext c (countUnless 0x522D c.a k (setArray c.a (acmStored c (arrayOf s c.a)) s))))) ∧
    (addressFault s c (formatFor s c.t.slot (gFormat c.w)) = false → gTarget c.w = 0 → ∃ k, exec (.gSt a n) s =
      .next (glazeNext c (countConversions c.a k (setArray c.a { arrayOf s c.a with tbf := tbfStored c s } s)))) := by
  refine ⟨fun hFault => ?_, fun hFault hTarget => ⟨fun hOwned => ?_, fun hOwned => ?_⟩, fun hFault hTarget => ?_⟩
  · show done (glazeRun 0x29 a n _ s) = _
    rw [glazeRun_of_issues h]
    dsimp only
    rw [hFault]
    rfl
  · show done (glazeRun 0x29 a n _ s) = _
    rw [glazeRun_of_issues h]
    dsimp only
    rw [hFault, hTarget, if_neg (by simp), if_pos ⟨rfl, hOwned⟩, done]
  · refine ⟨if gFormat c.w = 0 then sumNat ((c.positions.map (fun p => (p, regGet (arrayOf s c.a) (gVa c.w) p.1 p.2))).map
      (fun e => if isNan32 e.2 then 1 else 0)) else 0, ?_⟩
    show done (glazeRun 0x29 a n _ s) = _
    rw [glazeRun_of_issues h]
    dsimp only
    rw [hFault, hTarget, if_neg (by simp), if_neg (by simp [hOwned])]
    rfl
  · refine ⟨((List.range c.t.rows).map (stRow s c (formatFor s c.t.slot (gFormat c.w)) (arrayOf s c.a) (arrayOf s c.a).tbf)).foldl
      (fun k e => addCounts k e.2) noCounts, ?_⟩
    show done (glazeRun 0x29 a n _ s) = _
    rw [glazeRun_of_issues h]
    dsimp only
    rw [hFault, hTarget, if_neg (by simp), if_neg (by simp)]
    rfl

end Sys2Proof.Machine

open Sys2Proof Sys2Proof.Machine

/-- Settles O32: LD leaves the registers that `regGet_rowsLoaded` says, ST the accumulators of `acmStored` or the bytes of
`tbfStored`. -/
theorem glazeLoadsAndStores : Obligations.GlazeLoadsAndStores := by
  unfold Obligations.GlazeLoadsAndStores
  refine ⟨fun a n c s h => ?_, fun a n c s h => ?_⟩
  · have hRun : exec (.gLd a n) s = done (loadRun c s) := by rw [exec_gLd, glazeRun_of_issues h]
    dsimp only
    rw [← h.array]
    refine ⟨fun hFault => ?_, fun hFault hTarget hOwned => ?_, fun hFault hFree => ?_⟩
    · rw [h.array, hRun, loadRun, if_pos hFault, done]
    · rw [h.array, hRun, loadRun, if_neg (by simp [hFault]), if_pos ⟨hTarget, hOwned⟩, done]
    · have hGoes : loadRun c s = glazeNext c (setArray c.a (rowsLoaded c s) s) := by
        rw [loadRun, if_neg (by simp [hFault]), if_neg (by rintro ⟨hTarget, hOwned⟩; simp [hFree hTarget] at hOwned)]
      obtain ⟨hExec, hGoes, hSame, hParts⟩ := goesOn_of_run exec_gLd (by simp) h hGoes (rowsLoaded_onlyRegs c s)
        (fun b => arrayOf_setArray _ _ _ _) (setArray_slots _ _ _)
      rw [h.array]
      refine ⟨_, hExec, hGoes, fun v r l hr hl => ?_, hParts⟩
      rw [hSame, regGet_rowsLoaded c s v hr hl, h.array]
      by_cases hTarget : gTarget c.w = 1
      · rw [if_pos hTarget, getD_loadedWords_acm hTarget r hl, h.array]
      · rw [if_neg hTarget, loadedWords, if_neg hTarget, h.array]
  · obtain ⟨hAbandons, hAcm, hTbf⟩ := exec_gSt h
    rw [h.array] at hAcm
    refine ⟨hAbandons, fun hFault hTarget => (hAcm hFault hTarget).1, fun hFault hTarget hOwned => ?_, fun hFault hTarget => ?_⟩
    · obtain ⟨k, hExec⟩ := (hAcm hFault hTarget).2 hOwned
      have hArray : arrayOf (glazeNext c (countUnless 0x522D a k (setArray a (acmStored c (arrayOf s a)) s))) a =
          { acmStored c (arrayOf s a) with threads := kput (acmStored c (arrayOf s a)).threads n c.t.next } := by
        rw [arrayOf_glazeNext, if_pos h.array.symm, arrayOf_countUnless, h.array, h.number, arrayOf_setArray, if_pos rfl]
      refine ⟨_, hExec, ?_, ?_, ?_, fun i hi => ?_, fun hStride r l hr hl => ?_, sameBut_of_exec (by simp) hExec⟩
      · rw [hArray, kget_kput_same]
      · rw [hArray, acmStored_eq]
      · rw [hArray, acmStored_eq]
      · rw [hArray]
        exact kget_acmStored_other hi
      · rw [hArray]
        exact acmGet_acmStored h.extent.2 hStride hr hl
    · obtain ⟨k, hExec⟩ := hTbf hFault hTarget
      have hArray : arrayOf (glazeNext c (countConversions c.a k (setArray c.a { arrayOf s c.a with tbf := tbfStored c s } s))) a =
          { arrayOf s a with tbf := tbfStored c s, threads := kput (arrayOf s a).threads n c.t.next } := by
        rw [arrayOf_glazeNext, if_pos h.array.symm, arrayOf_countConversions, h.array, h.number, arrayOf_setArray, if_pos rfl]
      refine ⟨_, hExec, ?_, ?_, ?_, fun i hi => ?_, fun hRaw hStride r l hr hl => ?_, sameBut_of_exec (by simp) hExec⟩
      · rw [hArray, kget_kput_same]
      · rw [hArray]
      · rw [hArray]
      · rw [hArray]
        exact (loadByte_tbfStored_other h.extent.2 hi).trans (by rw [h.array])
      · rw [hArray]
        exact (loadBytes_tbfStored h.extent.2 hRaw hStride hr hl).trans (by rw [h.array])
end

section
/-! Glaze scalars, extents and loops, and the end of a program (R188, R192-R194, R200, R207). -/

namespace Sys2Proof.Machine

/-! Scalars, extents and loops. -/

theorem getD_setNth {α : Type} (d : α) (xs : List α) (i k : Nat) (v : α) (h : i < xs.length) :
    (setNth xs i v).getD k d = if k = i then v else xs.getD k d := by
  induction xs generalizing i k with
  | nil => simp at h
  | cons x xs ih =>
    cases i with
    | zero => cases k <;> simp [setNth]
    | succ i =>
      cases k with
      | zero => simp [setNth]
      | succ k => simpa [setNth] using ih i k (Nat.lt_of_succ_lt_succ h)

/-- An instruction that changes its thread alone: memories and registers stay, and the thread goes on. -/
theorem goesOn_of_thread {ins : Nat → Nat → Instr} {op : Nat} {F : GCtx → State → State} {a n : Nat} {c c' : GCtx} {s : State}
    (hIns : ∀ a n s, exec (ins a n) s = done (glazeRun op a n F s)) (hNot : ∀ a n findings, ins a n ≠ .resetStretchEnd findings)
    (h : Issues op a n c s) (hF : F c s = glazeNext c' s) (hArray : c'.a = c.a) :
    exec (ins a n) s = .next (glazeNext c' s) ∧ GoesOn c' s (glazeNext c' s) ∧
      (arrayOf (glazeNext c' s) a).regs = (arrayOf s a).regs ∧ SameBut (touches (ins a n)) s (glazeNext c' s) := by
  have hExec : exec (ins a n) s = .next (glazeNext c' s) := by rw [hIns, glazeRun_of_issues h, hF, done]
  refine ⟨hExec, goesOn_of_regs (.refl _) (fun b => ?_) rfl, ?_, sameBut_of_exec (hNot a n) hExec⟩
  · split
    case isTrue hb => rw [hb]
    case isFalse => rfl
  · rw [arrayOf_glazeNext, if_pos (by rw [hArray, h.array]), hArray, h.array]

/-- A scalar instruction writes one scalar register. -/
theorem goesOn_of_scalar {ins : Nat → Nat → Instr} {op : Nat} {value : GCtx → State → Word} {a n : Nat} {c : GCtx} {s : State}
    (hIns : ∀ a n s, exec (ins a n) s = done (glazeRun op a n (fun c s => glazeNext (setScalar c (value c s)) s) s))
    (hNot : ∀ a n findings, ins a n ≠ .resetStretchEnd findings) (h : Issues op a n c s) :
    ∃ t, exec (ins a n) s = .next t ∧ GoesOn { c with t := { c.t with scalars := setNth c.t.scalars (gSd c.w) (value c s) } } s t ∧
      (arrayOf t a).regs = (arrayOf s a).regs ∧ SameBut (touches (ins a n)) s t :=
  ⟨_, goesOn_of_thread hIns hNot h (c' := setScalar c (value c s)) rfl rfl⟩

/-- The extent that SETEXT gives. -/
def extentSet (c : GCtx) : GCtx :=
  { c with t := { c.t with rows := bits c.w.toNat 3 0 + 1, lanes := bits c.w.toNat 10 4 + 1 } }

theorem bits_lt (x hi lo : Nat) : bits x hi lo < 2 ^ (hi + 1 - lo) := by
  unfold bits
  exact Nat.mod_lt _ (Nat.two_pow_pos _)

/-- A loop entered, or skipped where it is to run no time. -/
def loopEntered (c : GCtx) : GCtx :=
  if (c.t.scalars.getD (gSa c.w) 0).toNat = 0 then { c with t := { c.t with pc := c.t.pc + bits c.w.toNat 5 0 } }
  else { c with t := { c.t with
    loops := (c.t.pc + 1, c.t.pc + 1 + bits c.w.toNat 5 0, (c.t.scalars.getD (gSa c.w) 0).toNat) :: c.t.loops } }

theorem exec_gLoop (a n : Nat) (s : State) : exec (.gLoop a n) s = done (glazeRun 0x35 a n (fun c => glazeNext (loopEntered c)) s) := by
  show execGLoop a n s = _
  unfold execGLoop loopEntered
  dsimp only
  congr 2
  funext c
  split <;> rfl

/-! The end of a program. -/

/-- The program's thread ends: what it has staged is discarded and counted. -/
def programEnded (c : GCtx) (s : State) : State :=
  dropThread c.a c.n (count 0x5248 c.a 1 (countUnless 0x524E c.a c.t.staging.length s))

/-- The result of a program, with its operation finished. -/
def resultLeft (c : GCtx) : State → State := modStation c.t.slot c.t.station (fun x =>
  { x with results := kput x.results c.t.tag.toNat (c.t.scalars.getD 15 0)
           flight := x.flight.map (fun f => if f.op == c.t.op && f.tag == c.t.tag then
             { f with finished := true, scalar := some (c.t.scalars.getD 15 0) } else f) })

theorem exec_gEnd {a n : Nat} {c : GCtx} {s : State} (h : Issues 0x36 a n c s) :
    exec (.gEnd a n) s = .next (startProgram c.t.slot c.t.station (resultLeft c (programEnded c s))) := by
  show done (glazeRun 0x36 a n _ s) = _
  rw [glazeRun_of_issues h]
  unfold programEnded resultLeft countUnless done
  rfl

theorem arrayOf_dropThread (a n : Nat) (s : State) : arrayOf (dropThread a n s) a =
    { arrayOf s a with threads := kdel (arrayOf s a).threads n } := arrayOf_modArray_same (s := s) a _

/-- An abandoned program: its thread and its flight entry are gone, and its tag has failed. -/
def programAbandoned (c : GCtx) (s : State) : State :=
  failTag c.t.slot c.t.station c.t.tag (event evtGlazeFault (atSlotInst c.t.slot c.a) [] (count 0x524F c.a 1
    (leaveFlight c.t.slot c.t.station c.t.op c.t.tag (dropThread c.a c.n s))))

theorem glazeAbandon_eq (c : GCtx) (s : State) : glazeAbandon c s = startProgram c.t.slot c.t.station (programAbandoned c s) := rfl

theorem programEnded_slots (c : GCtx) (s : State) : (programEnded c s).slots = s.slots := by
  unfold programEnded
  exact slots_countUnless _ _ _ _

theorem ctrStation_countUnless (index inst k : Nat) (s : State) : (countUnless index inst k s).ctr.station = s.ctr.station := by
  unfold countUnless
  split <;> rfl

theorem arrayOf_programEnded (c : GCtx) (s : State) : arrayOf (programEnded c s) c.a =
    { arrayOf s c.a with threads := kdel (arrayOf s c.a).threads c.n } := by
  rw [programEnded, arrayOf_dropThread, arrayOf_count, arrayOf_countUnless]

theorem stationOf_resultLeft (c : GCtx) (s : State) : stationOf (resultLeft c s) c.t.slot c.t.station = { stationOf s c.t.slot c.t.station with
    results := kput (stationOf s c.t.slot c.t.station).results c.t.tag.toNat (c.t.scalars.getD 15 0)
    flight := (stationOf s c.t.slot c.t.station).flight.map (fun f => if f.op = c.t.op ∧ f.tag = c.t.tag then
      { f with finished := true, scalar := some (c.t.scalars.getD 15 0) } else f) } := by
  rw [resultLeft, stationOf_modStation_same]
  simp only [Bool.and_eq_true, beq_iff_eq]

theorem programEnded_sameBut (c : GCtx) (s : State) : SameBut [.arrays, .slots, .ctr] s (resultLeft c (programEnded c s)) := by
  have hCount : Keeps (· ∉ [Part.arrays, .slots, .ctr]) s (countUnless 0x524E c.a c.t.staging.length s) := by
    unfold countUnless
    split
    · exact .refl _ s
    · exact count_keeps _ _ _ (.refl _ s) (by simp)
  exact (modStation_keeps _ _ _ (dropThread_keeps c.a c.n (count_keeps 0x5248 c.a 1 hCount (by simp)) (by simp)) (by simp)).sameBut

theorem programAbandoned_parts (c : GCtx) (s : State) : (programAbandoned c s).led.events = (s.led.events + 1) % 2 ^ 64 ∧
    kget (arrayOf (programAbandoned c s) c.a).threads c.n = none := by
  generalize hLeft : leaveFlight c.t.slot c.t.station c.t.op c.t.tag (dropThread c.a c.n s) = u
  have hParts : Keeps (fun p => p = .led ∨ p = .arrays) (dropThread c.a c.n s) u :=
    hLeft ▸ leaveFlight_keeps _ _ _ _ (.refl _ _) (by simp)
  have hLed : u.led = s.led := hParts.parts .led (.inl rfl)
  have hArrays : u.arrays = (dropThread c.a c.n s).arrays := hParts.parts .arrays (.inr rfl)
  constructor
  · have hEvents : (programAbandoned c s).led = (event evtGlazeFault (atSlotInst c.t.slot c.a) [] (count 0x524F c.a 1 u)).led := by
      rw [programAbandoned, hLeft]
      rfl
    rw [hEvents, event_led, count_led, hLed]
  · have hArray : arrayOf (programAbandoned c s) c.a = arrayOf (dropThread c.a c.n s) c.a := by
      rw [programAbandoned, hLeft, failTag, modStation, arrayOf_modSlot, arrayOf_event, arrayOf_count, arrayOf_congr hArrays]
    rw [hArray, arrayOf_dropThread, kget_kdel_same]

/-- The station of an abandoned program: its tag has failed, its operation has left, what has completed stays. -/
theorem stationOf_programAbandoned (c : GCtx) (s : State) :
    c.t.tag ∈ (stationOf (programAbandoned c s) c.t.slot c.t.station).failed ∧
    (stationOf (programAbandoned c s) c.t.slot c.t.station).flight =
      (stationOf s c.t.slot c.t.station).flight.filter (fun f => !(f.op == c.t.op && f.tag == c.t.tag)) ∧
    (stationOf (programAbandoned c s) c.t.slot c.t.station).completed = (stationOf s c.t.slot c.t.station).completed := by
  have hLeft := (leaveFlight_frame c.t.slot c.t.station c.t.op c.t.tag (dropThread c.a c.n s)).1
  have hDropped : stationOf (dropThread c.a c.n s) c.t.slot c.t.station = stationOf s c.t.slot c.t.station :=
    stationOf_congr (t := dropThread c.a c.n s) rfl _ _
  rw [hDropped] at hLeft
  have hNoted : stationOf (event evtGlazeFault (atSlotInst c.t.slot c.a) [] (count 0x524F c.a 1
      (leaveFlight c.t.slot c.t.station c.t.op c.t.tag (dropThread c.a c.n s)))) c.t.slot c.t.station = _ :=
    (stationOf_congr (by rw [event_slots, count_slots]) _ _).trans hLeft
  rw [programAbandoned, failTag, stationOf_modStation_same, hNoted]
  split
  case isTrue h => exact ⟨by simpa using h, rfl, rfl⟩
  case isFalse => exact ⟨by simp, rfl, rfl⟩

end Sys2Proof.Machine

open Sys2Proof Sys2Proof.Machine

/-- Settles O34: the instructions change their thread alone, by `goesOn_of_thread`. -/
theorem glazeScalarsExtentsAndLoops : Obligations.GlazeScalarsExtentsAndLoops := by
  unfold Obligations.GlazeScalarsExtentsAndLoops
  refine ⟨?scalars, fun xs d k v h => getD_setNth 0 xs d k v h, ?extent, ?loop⟩
  case scalars =>
    rintro a n op ins v c s h (⟨rfl, rfl, rfl⟩ | ⟨rfl, rfl, rfl⟩ | ⟨rfl, rfl, rfl⟩ | ⟨rfl, rfl, rfl⟩)
    · exact goesOn_of_scalar (value := fun c _ => BitVec.ofNat 32 (gImm c.w)) (fun _ _ _ => rfl) (by simp) h
    · exact goesOn_of_scalar (value := fun c _ =>
        c.t.scalars.getD (gSa c.w) 0 + c.t.scalars.getD (gSb c.w) 0 + (BitVec.ofNat 16 (gImm c.w)).signExtend 32)
        (fun _ _ _ => rfl) (by simp) h
    · exact goesOn_of_scalar (value := fun c _ => c.t.scalars.getD (gSa c.w) 0 * BitVec.ofNat 32 (gImm c.w % 65536))
        (fun _ _ _ => rfl) (by simp) h
    · rw [← h.array]
      have h' : Issues 0x33 c.a n c s := by rw [h.array]; exact h
      exact goesOn_of_scalar (value := fun c s => regGet (arrayOf s c.a) (gVa c.w) (bits c.w.toNat 3 0) (bits c.w.toNat 10 4))
        (fun _ _ _ => rfl) (by simp) h'
  case extent =>
    intro a n c s h
    obtain ⟨hExec, hGoes, hRegs, hParts⟩ := goesOn_of_thread (ins := .gSetext) (F := fun c => glazeNext (extentSet c)) (fun _ _ _ => rfl)
      (by simp) h (c' := extentSet c) rfl rfl
    have hRows : bits c.w.toNat 3 0 < 16 := bits_lt _ _ _
    have hLanes : bits c.w.toNat 10 4 < 128 := bits_lt _ _ _
    have hThread := hGoes.thread
    rw [show (extentSet c).a = a from h.array, show (extentSet c).n = n from h.number] at hThread
    exact ⟨_, _, hExec, hThread, rfl, rfl, hRows, hLanes, rfl, hRegs, hParts⟩
  case loop =>
    intro a n c s h
    dsimp only
    have hArray : (loopEntered c).a = c.a := by
      unfold loopEntered
      split <;> rfl
    obtain ⟨hExec, hGoes, hRegs, hParts⟩ := goesOn_of_thread exec_gLoop (by simp) h rfl hArray
    refine ⟨_, hExec, hRegs, hParts, fun hNone => ?_, fun hSome => ?_⟩
    · rw [loopEntered, if_pos hNone] at hGoes
      rw [loopEntered, if_pos hNone]
      exact hGoes
    · rw [loopEntered, if_neg hSome] at hGoes
      rw [loopEntered, if_neg hSome]
      exact hGoes

/-- Settles O35: END ends the thread and leaves the result at the station; an abandoned program is `programAbandoned`. -/
theorem glazeProgramsEndOrAreAbandoned : Obligations.GlazeProgramsEndOrAreAbandoned := by
  unfold Obligations.GlazeProgramsEndOrAreAbandoned
  refine ⟨fun a n c s h => ?_, fun a n t s hThread hLong => ?_, fun c s => ?_⟩
  · have hArray : arrayOf (resultLeft c (programEnded c s)) a = { arrayOf s a with threads := kdel (arrayOf s a).threads n } := by
      have hEnded := arrayOf_programEnded c s
      rwa [h.array, h.number] at hEnded
    have hStation : stationOf (programEnded c s) c.t.slot c.t.station = stationOf s c.t.slot c.t.station :=
      stationOf_congr (programEnded_slots c s) _ _
    refine ⟨_, exec_gEnd h, ?_, ?_, ?_, ?_, ?_, programEnded_sameBut c s⟩
    · rw [hArray, kget_kdel_same]
    · rw [hArray]
    · rw [resultFor, stationOf_resultLeft, kget_kput_same]
    · rw [stationOf_resultLeft, hStation]
    · exact ctrStation_countUnless _ _ _ s
  · show done _ = _
    rw [hThread]
    dsimp only
    rw [if_pos hLong, done]
  · obtain ⟨hEvents, hThread⟩ := programAbandoned_parts c s
    obtain ⟨hFailed, hFlight, hCompleted⟩ := stationOf_programAbandoned c s
    refine ⟨_, glazeAbandon_eq c s, hThread, hFailed, hEvents, fun f hf hMine => ?_, hCompleted⟩
    rw [hFlight] at hf
    have hOther := (List.mem_filter.mp hf).2
    simp [hMine.1, hMine.2] at hOther
end

section
/-! The tile steps of an MMO (R146-R150, R159, R178-R181). -/

namespace Sys2Proof.Machine

/-! Passes of the cells. -/

theorem arrays_countUnless (index inst k : Nat) (s : State) : (countUnless index inst k s).arrays = s.arrays := by
  unfold countUnless
  split <;> rfl

/-- Of the arrays of two states only `a` may differ, and there not the TBF. -/
def SameTbf (a : Nat) (s t : State) : Prop := (arrayOf t a).tbf = (arrayOf s a).tbf ∧ ∀ b, b ≠ a → arrayOf t b = arrayOf s b

theorem SameTbf.trans {a : Nat} {s t u : State} (h : SameTbf a s t) (h' : SameTbf a t u) : SameTbf a s u :=
  ⟨h'.1.trans h.1, fun b hb => (h'.2 b hb).trans (h.2 b hb)⟩

theorem tbf_foldl_acmPut {α : Type} (slot : Nat) (row lane : α → Nat) (w : α → Word) (es : List α) (x : ArrayState) :
    (es.foldl (fun x e => acmPut slot (row e) (lane e) (w e) x) x).tbf = x.tbf := by
  induction es generalizing x with
  | nil => rfl
  | cons e es ih =>
    rw [List.foldl_cons, ih]
    rfl

theorem tbf_ite {x y : ArrayState} (c : Bool) (h : y.tbf = x.tbf) : (if c then x else y).tbf = x.tbf := by
  split
  · rfl
  · exact h

/-- A pass writes accumulators, owners and cells of its array, and counts. -/
theorem computePass_eq (a n : Nat) (r : Route) (m : Mmo) (x y : List (List FVal)) (i j p u : Nat) (s : State) :
    ∃ k k1 k2 k3 k4 k5 z, computePass a n r m x y i j p u s = countUnless 0x5220 a k (countUnless 0x5229 a k1 (countUnless 0x522A a k2
      (countUnless 0x522B a k3 (countUnless 0x522D a k4 (countUnless 0x522E a k5 (setArray a z s)))))) ∧ z.tbf = (arrayOf s a).tbf := by
  exact ⟨_, _, _, _, _, _, _, rfl, tbf_ite _ (tbf_foldl_acmPut m.slot (fun e : (Nat × Nat) × Word × Word × Nat => e.1.1) (fun e => e.1.2)
    (fun e => e.2.2.1) _ _)⟩

theorem sameTbf_computePass (a n : Nat) (r : Route) (m : Mmo) (x y : List (List FVal)) (i j p u : Nat) (s : State) :
    SameTbf a s (computePass a n r m x y i j p u s) := by
  obtain ⟨k, k1, k2, k3, k4, k5, z, hEq, hTbf⟩ := computePass_eq a n r m x y i j p u s
  rw [hEq]
  refine ⟨?_, fun b hb => ?_⟩
  · simp only [arrayOf_countUnless, arrayOf_setArray, if_true, hTbf]
  · simp only [arrayOf_countUnless, arrayOf_setArray, if_neg hb]

theorem SameTbf.foldl {α : Type} {a : Nat} {f : State → α → State} (hf : ∀ s x, SameTbf a s (f s x)) (l : List α) (s : State) :
    SameTbf a s (l.foldl f s) := by
  induction l generalizing s with
  | nil => exact ⟨rfl, fun _ _ => rfl⟩
  | cons x xs ih => exact (hf s x).trans (ih (f s x))

/-- Without a handover to another slot everything that is left of a tile step runs. -/
theorem length_runsNow {s : State} {a : Nat} {m : Mmo} (h : passes s a m.slot = false) (rows span fuel u start : Nat) :
    (runsNow s a m rows span fuel u start).length = fuel := by
  induction fuel generalizing u start with
  | zero => rfl
  | succ fuel ih =>
    rw [runsNow, h, if_neg (by simp), List.length_cons, ih]

/-! A tile step computed. -/

/-- The passes of a tile step, and those that run now. -/
def stepTotal (m : Mmo) (pos : Nat) (u : State) : Nat :=
  passesOf (classOf u m) (splitOf u m) m.desc (min m.desc.kt (m.keff - (stepAt' m.desc pos).2.2 * m.desc.kt))

def stepRuns (a : Nat) (m : Mmo) (pos : Nat) (u : State) : List Nat :=
  runsNow u a m (validRowsOf m.desc m.meff (stepAt' m.desc pos).1) (min m.desc.kt (m.keff - (stepAt' m.desc pos).2.2 * m.desc.kt))
    (stepTotal m pos u - m.pass) m.pass (max u.clock (arrayOf u a).cells.streams)

/-- The last pass of a tile step has run. -/
def stepEnded (a : Nat) (m : Mmo) (pos : Nat) (u : State) : Bool := decide (stepTotal m pos u ≤ m.pass + (stepRuns a m pos u).length)

/-- The MMO after the passes that run now: at its next step where they were the last. -/
def stepMmo (a : Nat) (m : Mmo) (pos : Nat) (u : State) : Mmo :=
  let i := (stepAt' m.desc pos).1
  let j := (stepAt' m.desc pos).2.1
  if stepEnded a m pos u then
    { m with written := if m.written.contains (i, j) then m.written else m.written ++ [(i, j)]
             computed := m.computed + 1, position := pos + 1, pass := 0 }
  else { m with pass := m.pass + (stepRuns a m pos u).length }

/-- The MMO entered in its array. -/
def mmoEntered (a n : Nat) (m : Mmo) : State → State := modArray a (fun x => { x with mmos := kput x.mmos n m })

/-- A tile step that has ended is counted, and one at an edge of the matrix again. -/
def stepCounted (a : Nat) (ended : Bool) (edge : Prop) [Decidable edge] (s : State) : State :=
  if ended then count 0x5231 a 1 (if edge then count 0x5235 a 1 s else s) else s

theorem computeStep_eq (a n : Nat) (r : Route) (m : Mmo) (es : List Entry) (pos : Nat) (u : State) :
    ∃ (v : State) (edge : Prop) (_ : Decidable edge), SameTbf a u v ∧
      computeStep a n r m es pos u = stepCounted a (stepEnded a m pos u) edge (mmoEntered a n (stepMmo a m pos u) v) := by
  rcases hTile : stepAt' m.desc pos with ⟨i, j, p⟩
  refine ⟨(stepRuns a m pos u).foldl (fun s q => computePass a n r m (operandWindow u a m es 0 pos)
    ((List.range (validColsOf m.desc j)).map (fun c => (operandWindow u a m es 1 pos).map (fun row => row.getD c (.fin false 0 0)))) i j p q s) u,
    (validRowsOf m.desc m.meff i < m.desc.mt || validColsOf m.desc j < m.desc.nt ||
      min m.desc.kt (m.keff - p * m.desc.kt) < m.desc.kt) = true, inferInstance, ?_, ?_⟩
  · exact .foldl (fun s q => sameTbf_computePass a n r m _ _ _ _ _ q s) _ u
  · unfold computeStep stepCounted stepMmo stepEnded stepRuns stepTotal mmoEntered
    dsimp only
    rw [hTile]

theorem arrayOf_stepCounted (a : Nat) (ended : Bool) (edge : Prop) [Decidable edge] (s : State) (b : Nat) :
    arrayOf (stepCounted a ended edge s) b = arrayOf s b := by
  unfold stepCounted
  split
  · split <;> simp
  · rfl

theorem computeStep_arrays (a n : Nat) (r : Route) (m : Mmo) (es : List Entry) (pos : Nat) (u : State) :
    kget (arrayOf (computeStep a n r m es pos u) a).mmos n = some (stepMmo a m pos u) ∧ SameTbf a u (computeStep a n r m es pos u) := by
  obtain ⟨v, edge, hDecidable, hSame, hEq⟩ := computeStep_eq a n r m es pos u
  have hHere : arrayOf (computeStep a n r m es pos u) a = { arrayOf v a with mmos := kput (arrayOf v a).mmos n (stepMmo a m pos u) } := by
    rw [hEq, arrayOf_stepCounted, mmoEntered, arrayOf_modArray_same]
  refine ⟨by rw [hHere, kget_kput_same], by rw [hHere]; exact hSame.1, fun b hb => ?_⟩
  rw [hEq, arrayOf_stepCounted, mmoEntered, arrayOf_modArray_other _ _ (Ne.symm hb)]
  exact hSame.2 b hb

/-! The step of the walk. -/

/-- The cargo operands of an MMO. -/
def windowedOperands (m : Mmo) : List Nat := [0, 1].filter (fun k => (m.operand k).kind == 2)

/-- The landings that a tile step consumes. -/
def stepLandings (a : Nat) (m : Mmo) (s : State) : State × Consume :=
  consumeAll ((windowedOperands m).map (fun k => Landing.staging a (stagingAddress s m k m.position))) s

/-- What a tile step does once its landings are in. -/
def stepTaken (a n : Nat) (r : Route) (m : Mmo) (f : Flight) (s u : State) : State :=
  let v := computeStep a n r m f.inputs m.position (countUnless 0x5236 a (if m.pass = 0 then edgeGranules s m m.position else 0) u)
  if setting v 0x3602 0 = 1 then
    match nextStep m (stepCount m.desc + 1) (m.position + 1) with
    | some next => placeWindows a n next true v
    | none => v
  else v

theorem exec_tileStep {a n : Nat} {m : Mmo} {r : Route} {f : Flight} {s : State} (hMmo : kget (arrayOf s a).mmos n = some m)
    (hRoute : routeOf s m.slot = some r)
    (hFlight : (stationOf s m.slot m.station).flight.find? (fun f => f.op == m.op && f.tag == m.tag) = some f)
    (hMore : m.position < stepCount m.desc) (hWorks : arrayWorks s a m.slot = true) :
    exec (.tileStep a n) s = .next (if stepSkipped m m.position then
        count 0x5232 a 1 (modArray a (fun x => { x with mmos := kput x.mmos n { m with position := m.position + 1, skipped := m.skipped + 1 } }) s)
      else runStep a n r m f s) := by
  have hGuard : ¬(stepCount m.desc ≤ m.position ∨ arrayWorks s a m.slot = false) := by
    rintro (h | h)
    · omega
    · rw [hWorks] at h
      cases h
  show execTileStep a n s = _
  unfold execTileStep
  rw [hMmo]
  dsimp only
  rw [hRoute, hFlight]
  dsimp only
  rw [if_neg hGuard, done]

theorem runStep_eq (a n : Nat) (r : Route) (m : Mmo) (f : Flight) (s : State) : runStep a n r m f s =
    if (windowedOperands m).any (fun k => !windowPlaced s a n k m.position m) then placeWindows a n m.position false s
    else if (windowedOperands m).all (fun k => windowLanded m k m.position) &&
        tileFree m (stepAt' m.desc m.position).1 (stepAt' m.desc m.position).2.1 then
      match (stepLandings a m s).2 with
      | .wait => (stepLandings a m s).1
      | .fail => failTag m.slot m.station m.tag (leaveFlight m.slot m.station m.op m.tag (abandonMmo a n (stepLandings a m s).1))
      | .ok => stepTaken a n r m f s (stepLandings a m s).1
    else s := rfl

/-- The windows that have landed are under way too. -/
theorem windowPlaced_of_landed {m : Mmo} {k pos : Nat} (h : windowLanded m k pos = true) (s : State) (a n : Nat) :
    windowPlaced s a n k pos m = true := by simp [windowPlaced, h]

theorem runStep_of_unplaced {a n : Nat} {r : Route} {m : Mmo} {f : Flight} {s : State}
    (h : ∃ k ∈ windowedOperands m, windowPlaced s a n k m.position m = false) : runStep a n r m f s = placeWindows a n m.position false s := by
  have hAny : (windowedOperands m).any (fun k => !windowPlaced s a n k m.position m) = true := by simpa using h
  rw [runStep_eq, if_pos hAny]

/-- The windows of a tile step are in, and the accumulator blocks of its tile are free. -/
def StepReady (m : Mmo) : Prop :=
  (∀ k ∈ windowedOperands m, windowLanded m k m.position = true) ∧
    tileFree m (stepAt' m.desc m.position).1 (stepAt' m.desc m.position).2.1 = true

theorem runStep_of_unready {a n : Nat} {r : Route} {m : Mmo} {f : Flight} {s : State}
    (hPlaced : ∀ k ∈ windowedOperands m, windowPlaced s a n k m.position m = true) (h : ¬StepReady m) : runStep a n r m f s = s := by
  have hAny : ¬(windowedOperands m).any (fun k => !windowPlaced s a n k m.position m) = true := by simpa using hPlaced
  have hNot : ¬((windowedOperands m).all (fun k => windowLanded m k m.position) &&
      tileFree m (stepAt' m.desc m.position).1 (stepAt' m.desc m.position).2.1) = true := by
    rw [Bool.and_eq_true, List.all_eq_true]
    exact h
  rw [runStep_eq, if_neg hAny, if_neg hNot]

theorem runStep_of_ready (a n : Nat) (r : Route) {m : Mmo} (f : Flight) (s : State) (h : StepReady m) : runStep a n r m f s =
    match (stepLandings a m s).2 with
    | .wait => (stepLandings a m s).1
    | .fail => failTag m.slot m.station m.tag (leaveFlight m.slot m.station m.op m.tag (abandonMmo a n (stepLandings a m s).1))
    | .ok => stepTaken a n r m f s (stepLandings a m s).1 := by
  have hAny : ¬(windowedOperands m).any (fun k => !windowPlaced s a n k m.position m) = true := by
    simpa using fun k hk => windowPlaced_of_landed (h.1 k hk) s a n
  have hThere : ((windowedOperands m).all (fun k => windowLanded m k m.position) &&
      tileFree m (stepAt' m.desc m.position).1 (stepAt' m.desc m.position).2.1) = true := by
    rw [Bool.and_eq_true, List.all_eq_true]
    exact h
  rw [runStep_eq, if_neg hAny, if_pos hThere]

/-- The landings that a tile step consumes change neither an array nor a slot. -/
theorem stepLandings_parts (a : Nat) (m : Mmo) (s : State) :
    (stepLandings a m s).1.arrays = s.arrays ∧ (stepLandings a m s).1.slots = s.slots := by
  have h : Keeps (fun p => p = .arrays ∨ p = .slots) s (stepLandings a m s).1 :=
    consumeAll_keeps _ (.refl _ s) (by simp) (by simp) (by simp) (by simp)
  exact ⟨h.parts .arrays (.inl rfl), h.parts .slots (.inr rfl)⟩

theorem stepMmo_of_ended {a : Nat} {m : Mmo} {pos : Nat} {u : State} (h : stepTotal m pos u ≤ m.pass + (stepRuns a m pos u).length) :
    (stepMmo a m pos u).position = pos + 1 ∧ (stepMmo a m pos u).pass = 0 ∧ (stepMmo a m pos u).computed = m.computed + 1 ∧
      ((stepAt' m.desc pos).1, (stepAt' m.desc pos).2.1) ∈ (stepMmo a m pos u).written := by
  rw [stepMmo, stepEnded, if_pos (decide_eq_true h)]
  refine ⟨rfl, rfl, rfl, ?_⟩
  dsimp only
  split
  case isTrue hThere => simpa using hThere
  case isFalse => simp

theorem stepMmo_of_unended {a : Nat} {m : Mmo} {pos : Nat} {u : State} (h : m.pass + (stepRuns a m pos u).length < stepTotal m pos u) :
    stepMmo a m pos u = { m with pass := m.pass + (stepRuns a m pos u).length } := by
  rw [stepMmo, stepEnded, if_neg (by simpa using h)]

theorem stepMmo_drained (a : Nat) (m : Mmo) (pos : Nat) (u : State) : (stepMmo a m pos u).drained = m.drained := by
  unfold stepMmo
  split <;> rfl

end Sys2Proof.Machine

open Sys2Proof Sys2Proof.Machine

/-- Settles O36: a step that is not skipped is `runStep`; the passes of a computed one change their array alone, its TBF excepted, and
leave the MMO as `stepMmo`. -/
theorem tileStepsWalkTheirMmo : Obligations.TileStepsWalkTheirMmo := by
  unfold Obligations.TileStepsWalkTheirMmo
  intro a n m r f s hMmo hRoute hFlight hMore hWorks
  have hExec := exec_tileStep hMmo hRoute hFlight hMore hWorks
  dsimp only
  refine ⟨fun hSkipped => ?_, fun hRuns hUnplaced => ?_, fun hRuns hPlaced hUnready => ?_, fun hRuns hReady hWait => ?_,
    fun hRuns hReady hFail => ?_, fun hRuns hReady hOk => ?_, fun u => ⟨fun hStays => length_runsNow hStays _ _ _ _ _, ?_⟩⟩
  · rw [hExec, if_pos hSkipped]
  · rw [hExec, hRuns, if_neg (by simp)]
    exact congrArg Host.Outcome.next (runStep_of_unplaced hUnplaced)
  · rw [hExec, hRuns, if_neg (by simp)]
    exact congrArg Host.Outcome.next (runStep_of_unready hPlaced hUnready)
  · rw [hExec, hRuns, if_neg (by simp), runStep_of_ready a n r f s hReady, show (stepLandings a m s).2 = .wait from hWait]
    rfl
  · rw [hExec, hRuns, if_neg (by simp), runStep_of_ready a n r f s hReady, show (stepLandings a m s).2 = .fail from hFail]
    rfl
  · obtain ⟨hArrays, hSlots⟩ := stepLandings_parts a m s
    refine ⟨countUnless 0x5236 a (if m.pass = 0 then edgeGranules s m m.position else 0) (stepLandings a m s).1, ?_, ?_, ?_⟩
    · rw [arrays_countUnless, hArrays]
    · rw [slots_countUnless, hSlots]
    · rw [hExec, hRuns, if_neg (by simp), runStep_of_ready a n r f s hReady, show (stepLandings a m s).2 = .ok from hOk]
      unfold stepTaken
      dsimp only
      cases nextStep m (stepCount m.desc + 1) (m.position + 1) <;> rfl
  · obtain ⟨hEntered, hTbf, hOthers⟩ := computeStep_arrays a n r m f.inputs m.position u
    exact ⟨_, hEntered, stepMmo_drained a m _ u, stepMmo_of_ended, stepMmo_of_unended, hTbf, hOthers,
      (computeStep_keeps a n r m f.inputs m.position (.refl _ u) (by simp) (by simp)).sameBut⟩
end

section
/-! The drains of an MMO's output tiles and its end (R154, R168, R176, R178, R180, R182). -/

namespace Sys2Proof.Machine

/-! Tile headers. -/

theorem leNat_le (k n : Nat) : leNat (le k n) = n % 256 ^ k := by
  induction k generalizing n with
  | zero => simp [le, leNat, Nat.mod_one]
  | succ k ih =>
    rw [le, leNat, ih, BitVec.toNat_ofNat]
    calc n % 2 ^ 8 + 256 * (n / 256 % 256 ^ k) = n % (256 * 256 ^ k) := Nat.mod_mul.symm
      _ = n % 256 ^ (k + 1) := by rw [Nat.pow_succ']

/-- The header that `mkHeader` makes reads back as the tag and the shape it was made of. -/
theorem hdr_mkHeader (tag : Word) (stream attempt step station length : Nat) (f : TileShape) :
    hdrTag (mkHeader tag stream attempt step station length f) = tag ∧
    hdrRows (mkHeader tag stream attempt step station length f) = f.rows % 65536 ∧
    hdrCols (mkHeader tag stream attempt step station length f) = f.cols % 65536 := by
  have hTag : field (mkHeader tag stream attempt step station length f) 0 4 = leNat (le 4 tag.toNat) := by
    simp [mkHeader, field, slice, le]
  have hRows : field (mkHeader tag stream attempt step station length f) 8 2 = leNat (le 2 f.rows) := by
    simp [mkHeader, field, slice, le]
  have hCols : field (mkHeader tag stream attempt step station length f) 10 2 = leNat (le 2 f.cols) := by
    simp [mkHeader, field, slice, le]
  refine ⟨?_, ?_, ?_⟩
  · rw [hdrTag, hTag, leNat_le, Nat.mod_eq_of_lt (by have := tag.isLt; omega), BitVec.ofNat_toNat]
    exact BitVec.setWidth_eq tag
  · exact hRows.trans (leNat_le 2 _)
  · exact hCols.trans (leNat_le 2 _)

/-! A drained tile. -/

theorem kget_foldl_kdel {α : Type} (key : Nat → Nat) {bs : List Nat} {b : Nat} (h : b ∈ bs) (m : KMap α) :
    kget (bs.foldl (fun o b => kdel o (key b)) m) (key b) = none := by
  induction bs generalizing m with
  | nil => cases h
  | cons c cs ih =>
    rw [List.foldl_cons]
    by_cases hLater : b ∈ cs
    · exact ih hLater _
    · have hHere : b = c := (List.mem_cons.mp h).resolve_right hLater
      have hKept (cs : List Nat) (m : KMap α) (hNone : kget m (key b) = none) : kget (cs.foldl (fun o b => kdel o (key b)) m) (key b) = none := by
        induction cs generalizing m with
        | nil => exact hNone
        | cons d ds ihd =>
          rw [List.foldl_cons]
          refine ihd _ ?_
          by_cases hd : key d = key b
          · rw [hd, kget_kdel_same]
          · rw [kget_kdel_other _ hd, hNone]
      exact hKept cs _ (by rw [hHere, kget_kdel_same])

theorem arrayOf_drainedTile (a n : Nat) (r : Route) (m : Mmo) (i j : Nat) (s : State) : arrayOf (drainedTile a n r m i j s) a =
    { arrayOf s a with
      mmos := kput (arrayOf s a).mmos n { m with drained := m.drained ++ [(i, j)], zeroFilled := m.zeroFilled || decide (m.keff = 0) }
      owners := (ownBlocks r a m i j).foldl (fun o b => kdel o (m.slot * 128 + b)) (arrayOf s a).owners } := by
  rw [drainedTile, arrayOf_modArray_same]
  split <;> rfl

theorem slots_drainedTile (a n : Nat) (r : Route) (m : Mmo) (i j : Nat) (s : State) : (drainedTile a n r m i j s).slots = s.slots := by
  unfold drainedTile
  dsimp only
  split <;> rfl

/-- The payload of a drained tile of a stream, and its header. -/
def drainedPayload (s : State) (a : Nat) (r : Route) (m : Mmo) (program i j : Nat) : Bytes :=
  (drainRows s a r m program (decide (m.keff = 0)) i j).flatMap (·.1) ++
    zeroBytes ((m.desc.mt - validRowsOf m.desc m.meff i) * rowBytes (formatFor s m.slot m.desc.formatC) m.desc.nt)

def drainedTag (m : Mmo) (i j : Nat) : Word :=
  BitVec.ofNat 32 (m.tag.toNat / 65536 * 65536 + (tagIndex m.tag + (i * ceilDiv m.desc.n m.desc.nt + j)) % 65536)

def drainedHeader (s : State) (m : Mmo) (o : StreamRow) (i j length : Nat) : Bytes :=
  outHeader s m.slot m.station o.number (drainedTag m i j) length
    ⟨m.desc.formatC + (if validRowsOf m.desc m.meff i < m.desc.mt ∨ validColsOf m.desc j < m.desc.nt then 64 else 0),
      i * ceilDiv m.desc.n m.desc.nt + j + 1 == ceilDiv m.desc.m m.desc.mt * ceilDiv m.desc.n m.desc.nt, m.desc.mt, m.desc.nt,
      validRowsOf m.desc m.meff i, validColsOf m.desc j, 0⟩

/-- The tile staged in the TBF behind the operands' buffers. -/
def tileStaged (s : State) (a : Nat) (m : Mmo) (b : Bytes) : State → State := modArray a (fun x => { x with
  tbf := storeBytes x.tbf (outputAddress s m + m.drained.length % 2 * (m.desc.mt * rowBytes (formatFor s m.slot m.desc.formatC) m.desc.nt)) b })

theorem deliverTile_stream {a n : Nat} {r : Route} {m : Mmo} {program i j : Nat} {o : StreamRow} {s : State} (hStream : m.desc.delivery = 0)
    (hOutput : r.output m.station m.desc.output = some o) : ∃ k, deliverTile a n r m program i j s = drainedTile a n r m i j
      (sendReserved m.slot m.station m.op m.tag o.number
        ⟨drainedHeader s m o i j (drainedPayload s a r m program i j).length, drainedPayload s a r m program i j⟩
        (tileStaged s a m (drainedPayload s a r m program i j) (countUnless 0x522C a k s))) := by
  refine ⟨sumNat ((drainRows s a r m program (decide (m.keff = 0)) i j).map (fun e => e.2.sat)), ?_⟩
  have hRows : ¬(m.desc.delivery = 3 ∧ m.desc.c.transposed = true) := by
    rw [hStream]
    simp
  unfold deliverTile
  dsimp only
  rw [if_neg hRows, hStream, hOutput]
  rfl

/-- What a tile of a stream leaves as it drains. -/
theorem drained_stream {a n : Nat} {r : Route} {m : Mmo} {program i j k : Nat} {o : StreamRow} {s t : State}
    (hOpen : (streamOf s m.slot o.number).stopped = false)
    (h : t = drainedTile a n r m i j (sendReserved m.slot m.station m.op m.tag o.number
        ⟨drainedHeader s m o i j (drainedPayload s a r m program i j).length, drainedPayload s a r m program i j⟩
        (tileStaged s a m (drainedPayload s a r m program i j) (countUnless 0x522C a k s)))) :
    arrayOf t a = { arrayOf s a with
      tbf := storeBytes (arrayOf s a).tbf (outputAddress s m + m.drained.length % 2 *
        (m.desc.mt * rowBytes (formatFor s m.slot m.desc.formatC) m.desc.nt)) (drainedPayload s a r m program i j)
      mmos := kput (arrayOf s a).mmos n { m with drained := m.drained ++ [(i, j)], zeroFilled := m.zeroFilled || decide (m.keff = 0) }
      owners := (ownBlocks r a m i j).foldl (fun o b => kdel o (m.slot * 128 + b)) (arrayOf s a).owners } ∧
    (streamOf t m.slot o.number).staging = (streamOf s m.slot o.number).staging ++
      [⟨⟨drainedHeader s m o i j (drainedPayload s a r m program i j).length, drainedPayload s a r m program i j⟩, 0, 0⟩] := by
  generalize drainedHeader s m o i j (drainedPayload s a r m program i j).length = header at *
  generalize drainedPayload s a r m program i j = payload at *
  generalize hu : tileStaged s a m payload (countUnless 0x522C a k s) = u at h
  have hArray : arrayOf u a = { arrayOf s a with tbf := storeBytes (arrayOf s a).tbf (outputAddress s m + m.drained.length % 2 *
      (m.desc.mt * rowBytes (formatFor s m.slot m.desc.formatC) m.desc.nt)) payload } := by
    rw [← hu, tileStaged, arrayOf_modArray_same, arrayOf_countUnless]
  have hSlots : u.slots = s.slots := by
    rw [← hu]
    exact slots_countUnless _ _ _ s
  constructor
  · rw [h, arrayOf_drainedTile, sendReserved, putStaged, modStream, arrayOf_modSlot, modStation, arrayOf_modSlot, hArray]
  · rw [h, streamOf_congr (slots_drainedTile _ _ _ _ _ _ _), ((sendReserved_frame _ _ _ _ _ _ _).2 o.number).2.2, streamOf_congr hSlots,
      if_pos ⟨rfl, hOpen⟩]

/-! The end of an MMO. -/

/-- An array differs in its accumulators alone. -/
def OnlyAcm (x y : ArrayState) : Prop := ∃ m, y = { x with acm := m }

theorem OnlyAcm.refl (x : ArrayState) : OnlyAcm x x := ⟨x.acm, rfl⟩

theorem OnlyAcm.put {x y : ArrayState} (h : OnlyAcm x y) (slot row lane : Nat) (w : Word) : OnlyAcm x (acmPut slot row lane w y) := by
  obtain ⟨m, rfl⟩ := h
  exact ⟨_, rfl⟩

theorem OnlyAcm.foldl {α : Type} {f : ArrayState → α → ArrayState} (hf : ∀ x y e, OnlyAcm x y → OnlyAcm x (f y e)) (es : List α)
    {x y : ArrayState} (h : OnlyAcm x y) : OnlyAcm x (es.foldl f y) := by
  induction es generalizing y with
  | nil => exact h
  | cons e es ih => exact ih (hf x y e h)

theorem OnlyAcm.ite {x y z : ArrayState} {c : Prop} [Decidable c] (hy : OnlyAcm x y) (hz : OnlyAcm x z) : OnlyAcm x (if c then y else z) := by
  split
  · exact hy
  · exact hz

theorem zeroResident_onlyAcm (a : Nat) (r : Route) (m : Mmo) (s : State) : OnlyAcm (arrayOf s a) (arrayOf (zeroResident a r m s) a) := by
  rw [zeroResident, arrayOf_modArray_same]
  exact .foldl (fun _ _ _ h => .foldl (fun _ _ _ h => .ite h (.foldl (fun _ _ _ h => .foldl (fun _ _ _ h =>
    .ite h (h.put _ _ _ _)) _ h) _ h)) _ h) _ (.refl _)

/-- What a whole-stream result sends as its MMO ends. -/
def resultSent (a : Nat) (r : Route) (m : Mmo) (s : State) : State :=
  if m.desc.delivery = 1 then
    match r.output m.station m.desc.output with
    | none => s
    | some o =>
      let f := formatFor s m.slot m.desc.formatC
      let payload := loadBytes (arrayOf s a).tbf (outputAddress s m) (m.meff * rowBytes f m.desc.n)
      let h := outHeader s m.slot m.station o.number m.tag payload.length ⟨m.desc.formatC, true, m.meff, m.desc.n, m.meff, m.desc.n, 0⟩
      sendReserved m.slot m.station m.op m.tag o.number ⟨h, payload⟩ s
  else s

/-- The zeros that an ACM-resident output still lacks. -/
def zerosLeft (a : Nat) (r : Route) (m : Mmo) (s : State) : State := if zeroDue s a r m then zeroResident a r m s else s

/-- The MMO leaves its array. -/
def mmoLeft (a n : Nat) (m : Mmo) (s : State) : State := modArray a (fun x => { x with
  mmos := kdel x.mmos n
  owners := if m.desc.delivery = 2 ∧ m.contribution.isNone then
    x.owners.filter (fun o => !(m.blocks.any (fun b => m.slot * 128 + b == o.1))) else x.owners }) s

theorem endMmo_eq (a n : Nat) (r : Route) (m : Mmo) (s : State) : endMmo a n r m s =
    finishFlight m.slot m.station m.op m.tag [] (mmoLeft a n m (writeRecord a (completionRecord (zerosLeft a r m (resultSent a r m s)) m 0
      ((zerosLeft a r m (resultSent a r m s)).clock - m.issuedAt)) (zerosLeft a r m (resultSent a r m s)))) := by
  unfold endMmo zerosLeft resultSent mmoLeft
  rfl

/-- A result that is sent changes no array, no clock, and nothing that identifies the step or the beat. -/
theorem resultSent_parts (a : Nat) (r : Route) (m : Mmo) (s : State) : (resultSent a r m s).arrays = s.arrays ∧
    (resultSent a r m s).clock = s.clock ∧ (slotOf (resultSent a r m s) m.slot).beat = (slotOf s m.slot).beat ∧
    (slotOf (resultSent a r m s) m.slot).train = (slotOf s m.slot).train := by
  unfold resultSent
  split
  · split
    · exact ⟨rfl, rfl, rfl, rfl⟩
    · refine ⟨rfl, rfl, ?_, ?_⟩
      · rw [sendReserved, putStaged, slotBeat_modStream, slotBeat_modStation]
      · rw [sendReserved, putStaged, slotTrain_modStream, slotTrain_modStation]
  · exact ⟨rfl, rfl, rfl, rfl⟩

theorem zerosLeft_parts (a : Nat) (r : Route) (m : Mmo) (s : State) : OnlyAcm (arrayOf s a) (arrayOf (zerosLeft a r m s) a) ∧
    (zerosLeft a r m s).clock = s.clock ∧ (zerosLeft a r m s).slots = s.slots := by
  unfold zerosLeft
  split
  · exact ⟨zeroResident_onlyAcm a r m s, rfl, rfl⟩
  · exact ⟨.refl _, rfl, rfl⟩

theorem completionRecord_congr {s t : State} {m : Mmo} (hTrain : (slotOf t m.slot).train = (slotOf s m.slot).train)
    (hBeat : (slotOf t m.slot).beat = (slotOf s m.slot).beat) (status cycles : Nat) :
    completionRecord t m status cycles = completionRecord s m status cycles := by
  unfold completionRecord stepOf
  rw [hTrain, hBeat]

/-- The array of an ended MMO: its record written, the MMO gone. -/
theorem arrayOf_endMmo (a n : Nat) (r : Route) (m : Mmo) (s : State) : kget (arrayOf (endMmo a n r m s) a).mmos n = none ∧
    (arrayOf (endMmo a n r m s) a).written = (arrayOf s a).written + 1 ∧
    kget (arrayOf (endMmo a n r m s) a).records ((arrayOf s a).written % 1024) =
      some (padTo 48 (completionRecord s m 0 (s.clock - m.issuedAt))) := by
  obtain ⟨hArrays, hClock, hBeat, hTrain⟩ := resultSent_parts a r m s
  obtain ⟨hAcm, hClock', hSlots⟩ := zerosLeft_parts a r m (resultSent a r m s)
  rw [endMmo_eq]
  generalize zerosLeft a r m (resultSent a r m s) = v at *
  rw [arrayOf_congr hArrays] at hAcm
  obtain ⟨acm, hAcm⟩ := hAcm
  have hRecord (cycles : Nat) : completionRecord v m 0 cycles = completionRecord s m 0 cycles :=
    completionRecord_congr (by rw [slotOf_congr hSlots, hTrain]) (by rw [slotOf_congr hSlots, hBeat]) 0 cycles
  rw [finishFlight, modStation, arrayOf_modSlot, mmoLeft, arrayOf_modArray_same, writeRecord, arrayOf_modArray_same, hAcm, hRecord, hClock',
    hClock]
  exact ⟨kget_kdel_same _ _, rfl, kget_kput_same _ _ _⟩

theorem finished_of_endMmo (a n : Nat) (r : Route) (m : Mmo) (s : State) {f : Flight}
    (hf : f ∈ (stationOf (endMmo a n r m s) m.slot m.station).flight) (hOp : f.op = m.op) (hTag : f.tag = m.tag) : f.finished = true := by
  rw [endMmo_eq, finishFlight, stationOf_modStation_same] at hf
  obtain ⟨y, -, rfl⟩ := List.mem_map.mp hf
  split at hOp
  case isTrue h => rw [if_pos h]
  case isFalse h =>
    rw [if_neg h] at hTag
    exact absurd (by simp [hOp, hTag]) h

end Sys2Proof.Machine

open Sys2Proof Sys2Proof.Machine

/-- Settles O37: a drained tile of a stream is `drained_stream`, the end of an MMO `arrayOf_endMmo`. -/
theorem outputsDrainAndMmosEnd : Obligations.OutputsDrainAndMmosEnd := by
  unfold Obligations.OutputsDrainAndMmosEnd
  refine ⟨?stream, ?drains, ?ended, ?ends⟩
  case stream =>
    intro a n i j m r o s hMmo hRoute hStream hNext hOutput hOpen
    dsimp only
    have hExec : exec (.outputDrain a n) s = .next (deliverTile a n r m
        ((((r.station m.station).bind (fun st => st.ops[m.op]?)).map (·.program)).getD 0) i j s) := by
      show execOutputDrain a n s = _
      unfold execOutputDrain
      rw [hMmo]
      dsimp only
      rw [hRoute]
      dsimp only
      rw [if_pos (by rw [hStream]; decide), hNext, done]
    obtain ⟨k, hTile⟩ := deliverTile_stream (a := a) (n := n) (s := s)
      (program := (((r.station m.station).bind (fun st => st.ops[m.op]?)).map (·.program)).getD 0) (i := i) (j := j) hStream hOutput
    obtain ⟨hArray, hStaging⟩ := drained_stream hOpen hTile
    obtain ⟨hTag, hRows, hCols⟩ := hdr_mkHeader (drainedTag m i j) o.number (slotOf s m.slot).train.attempt
      ((slotOf s m.slot).train.step % 65536) m.station (drainedPayload s a r m
        ((((r.station m.station).bind (fun st => st.ops[m.op]?)).map (·.program)).getD 0) i j).length
      ⟨m.desc.formatC + (if validRowsOf m.desc m.meff i < m.desc.mt ∨ validColsOf m.desc j < m.desc.nt then 64 else 0),
        i * ceilDiv m.desc.n m.desc.nt + j + 1 == ceilDiv m.desc.m m.desc.mt * ceilDiv m.desc.n m.desc.nt, m.desc.mt, m.desc.nt,
        validRowsOf m.desc m.meff i, validColsOf m.desc j, 0⟩
    refine ⟨_, { m with drained := m.drained ++ [(i, j)], zeroFilled := m.zeroFilled || decide (m.keff = 0) }, _, hExec, ?_, rfl, rfl, ?_, ?_, fun b hb => ?_, hTag, hRows, hCols, hStaging, sameBut_of_exec (by simp) hExec⟩
    · rw [hArray, kget_kput_same]
    · rw [hArray]
    · rw [hArray]
      rfl
    · rw [hArray]
      exact kget_foldl_kdel (fun b => m.slot * 128 + b) hb _
  case drains =>
    intro a n i j m r s hMmo hRoute hDrains hNext
    show execOutputDrain a n s = _
    unfold execOutputDrain
    rw [hMmo]
    dsimp only
    rw [hRoute]
    dsimp only
    rw [if_pos hDrains, hNext, done]
  case ended =>
    intro a n m r s hMmo hRoute hOver hOut
    show execOutputDrain a n s = _
    unfold execOutputDrain
    rw [hMmo]
    dsimp only
    rw [hRoute]
    dsimp only
    by_cases hResident : m.desc.delivery = 2
    · rw [if_neg (not_not_intro hResident), if_pos hOver, done]
    · rw [if_pos hResident, hOut.resolve_left hResident]
      dsimp only
      rw [if_pos hOver, done]
  case ends =>
    intro a n r m s
    obtain ⟨hGone, hWritten, hRecord⟩ := arrayOf_endMmo a n r m s
    exact ⟨hGone, hWritten, hRecord, fun f hf hOp hTag => finished_of_endMmo a n r m s hf hOp hTag⟩
end

section
/-! Transfers: their issue, requests, landings and acknowledgements (R26, R109, R294-R309, R312). -/

namespace Sys2Proof.Machine

/-! Issue of transfers. -/

theorem exec_transferIssue {a : Nat} {t : Transfer} {rest : List Transfer} {s : State} (hQueue : (engineOf s a).queue = t :: rest) :
    exec (.transferIssue a) s = .next (if (engineOf s a).outstanding.length < arrayLimit ∧
        (pairOf (engineOf s a) t.desc).elim true (fun q => 0 < q.2.credits) = true ∧ engineFree s a t.slot = true ∧
        draining (engineOf s a) t = false ∧ holdClear s t.slot t.hold = true then issueHead a t s else s) := by
  show execTransferIssue a s = _
  unfold execTransferIssue
  dsimp only
  rw [hQueue]
  rfl

theorem pairFree_iff {p : Option (Nat × Pair)} : p.elim true (fun q => decide (0 < q.2.credits)) = true ↔ ∀ q, p = some q → 0 < q.2.credits := by
  cases p with
  | none => simp
  | some q => simp

/-- A transfer that leaves its extent does not issue (R308). -/
def extentLeft (a : Nat) (t : Transfer) (s : State) : State :=
  event evtExtent ⟨t.slot, 0xFF, a⟩ [] (count 0x5282 a 1 (dropQueued a t.id s))

theorem issueHead_outside {a : Nat} {t : Transfer} {s : State} (hDemand : t.desc.runAhead = false) (hLeaves : leavesExtent t.desc = true) :
    issueHead a t s = failOrigin a t (extentLeft a t s) := by
  unfold issueHead
  dsimp only
  rw [hDemand, hLeaves, if_pos (by decide)]
  rfl

theorem engineOf_extentLeft (a : Nat) (t : Transfer) (s : State) : engineOf (extentLeft a t s) a =
    { engineOf s a with queue := (engineOf s a).queue.filter (fun x => x.id != t.id) } := by
  rw [extentLeft, engineOf_event, engineOf_count, dropQueued, engineOf_modEngine_same]

/-- A transfer issued, into no buffer pair and as no store. -/
def transferIssued (a : Nat) (t : Transfer) (s : State) : State :=
  count 0x527A a 1 (count 0x527C a (sumNat (t.desc.segments.map (fun x => x.2.2))) (count 0x527D a (costOf (sizeFor s t.desc) t.desc)
    (modEngine a (fun e => { e with outstanding := e.outstanding ++ [{ t with half := 0 }] }) (dropQueued a t.id s))))

theorem issueHead_plain {a : Nat} {t : Transfer} {s : State} (hInside : t.desc.runAhead = true ∨ leavesExtent t.desc = false)
    (hPair : t.desc.pair = 0xFFFF) (hStore : storePages s t.desc = []) : issueHead a t s = transferIssued a t s := by
  have hGuard : ¬(!t.desc.runAhead && leavesExtent t.desc) = true := by
    rcases hInside with h | h <;> simp [h]
  have hStore' : storePages (dropQueued a t.id s) t.desc = [] := hStore
  have hPairs : pairOf (engineOf s a) t.desc = none := if_pos hPair
  unfold issueHead
  dsimp only
  rw [if_neg hGuard, hStore', hPairs]
  unfold admitStore
  dsimp only
  rw [if_pos rfl]
  dsimp only
  rw [if_neg (by simp)]
  have hRequests : t.requests.map (fun q => { q with dest := q.dest + Option.elim (none : Option (Nat × Pair)) 0 (fun q => (q.2.base + q.2.fill * q.2.half) * 4096) }) =
      t.requests := List.map_id _
  simp only [Option.elim] at hRequests ⊢
  rw [hRequests]
  rfl

theorem transferIssued_engine (a : Nat) (t : Transfer) (s : State) : engineOf (transferIssued a t s) a = { engineOf s a with
    queue := (engineOf s a).queue.filter (fun x => x.id != t.id), outstanding := (engineOf s a).outstanding ++ [{ t with half := 0 }] } := by
  rw [transferIssued, engineOf_count, engineOf_count, engineOf_count, engineOf_modEngine_same, dropQueued, engineOf_modEngine_same]

theorem transferIssued_slots (a : Nat) (t : Transfer) (s : State) : (transferIssued a t s).slots = s.slots := by
  rw [transferIssued, count_slots, count_slots, count_slots, modEngine_slots, dropQueued, modEngine_slots]

/-! Issue of requests. -/

/-- A request may go to its controller. -/
def MayIssueRequest (a : Nat) (t : Transfer) (q : Request) (s : State) : Prop :=
  let p := (if t.desc.kind = 1 then q.dest else q.address) / pageBytes
  let u := unitOf s (t.desc.cargoHandle % 65536) p
  requestsAt s u < unitLimit s u.1 ∧ granuleBusy (engineOf s a) t q = false ∧ inCluster s a t q = true ∧
    (t.desc.kind = 1 ∨ updateClear s t (t.desc.cargoHandle % 65536) p = true)

theorem exec_requestIssue {a id k : Nat} {t : Transfer} {q : Request} {s : State} (hTransfer : findTransfer (engineOf s a) id = some t)
    (hRequest : t.requests.zipIdx.find? (fun x => x.1.state == 0) = some (q, k)) :
    (¬MayIssueRequest a t q s → exec (.requestIssue a id) s = .next s) ∧
    (MayIssueRequest a t q s → exec (.requestIssue a id) s = .next (match (checkPage s t q).2 with
      | .wait => (checkPage s t q).1
      | .fail => failOrigin a t (giveUp a t (checkPage s t q).1)
      | .ok =>
        if (grantAll (partitionsOf (checkPage s t q).1 t q) a (checkPage s t q).1).2 then
          serveRequest a t k q (grantAll (partitionsOf (checkPage s t q).1 t q) a (checkPage s t q).1).1
        else (grantAll (partitionsOf (checkPage s t q).1 t q) a (checkPage s t q).1).1)) := by
  constructor
  · intro hNot
    show execRequestIssue a id s = _
    unfold execRequestIssue
    dsimp only
    rw [hTransfer]
    dsimp only
    rw [hRequest]
    exact congrArg done (if_neg hNot)
  · intro hMay
    show execRequestIssue a id s = _
    unfold execRequestIssue
    dsimp only
    rw [hTransfer]
    dsimp only
    rw [hRequest]
    refine (congrArg done (if_pos hMay)).trans ?_
    rcases hPage : checkPage s t q with ⟨u, c⟩
    cases c <;> rfl

/-! Grants of a partition (R109). -/

/-- The port of a partition in the present cycle. -/
def portNow (n : Nat) (s : State) : PartitionPort :=
  if (kgetD PartitionPort.idle s.mem.ports n).cycle = s.clock then kgetD PartitionPort.idle s.mem.ports n
  else { kgetD PartitionPort.idle s.mem.ports n with cycle := s.clock, moved := 0 }

theorem portNow_eq (n : Nat) (s : State) : portNow n s = ⟨s.clock,
    if (kgetD PartitionPort.idle s.mem.ports n).cycle = s.clock then (kgetD PartitionPort.idle s.mem.ports n).moved else 0,
    (kgetD PartitionPort.idle s.mem.ports n).next, (kgetD PartitionPort.idle s.mem.ports n).waiting⟩ := by
  unfold portNow
  split
  case isTrue h => rw [← h]
  case isFalse => rfl

/-- Another site that waits at the partition comes before the array. -/
def sitesAhead (n a : Nat) (s : State) : Bool := (portNow n s).waiting.any (fun x =>
  x != a && waitsAt s n x && decide ((x + 256 - (portNow n s).next) % 256 < (a + 256 - (portNow n s).next) % 256))

theorem sitesAhead_iff {n a : Nat} {s : State} : sitesAhead n a s = true ↔ ∃ x ∈ (kgetD PartitionPort.idle s.mem.ports n).waiting,
    x ≠ a ∧ waitsAt s n x = true ∧ (x + 256 - (kgetD PartitionPort.idle s.mem.ports n).next) % 256 <
      (a + 256 - (kgetD PartitionPort.idle s.mem.ports n).next) % 256 := by
  rw [sitesAhead, portNow_eq]
  simp [and_assoc]

theorem grantAt_granted {n a : Nat} {s : State} (hMoved : (portNow n s).moved < 2) (hTurn : sitesAhead n a s = false) :
    grantAt n a s = ({ s with mem := { s.mem with ports := kput s.mem.ports n { portNow n s with
      moved := (portNow n s).moved + 1, next := (a + 1) % 256, waiting := (portNow n s).waiting.filter (· != a) } } }, true) :=
  if_pos ⟨hMoved, hTurn⟩

theorem sameBut_mem (s : State) (m : Mem) : SameBut [.mem] s { s with mem := m } := by
  refine ⟨rfl, fun p hp => ?_⟩
  cases p
  case mem => simp at hp
  all_goals rfl

theorem grantAt_waits {n a : Nat} {s : State} (h : ¬((portNow n s).moved < 2 ∧ sitesAhead n a s = false)) :
    ∃ u : State, grantAt n a s = ({ u with mem := { u.mem with ports := kput u.mem.ports n { portNow n s with
      waiting := if (portNow n s).waiting.contains a then (portNow n s).waiting else (portNow n s).waiting ++ [a] } } }, false) := by
  refine ⟨if (kgetD PartitionPort.idle s.mem.ports n).cycle == s.clock && (kgetD PartitionPort.idle s.mem.ports n).waiting.contains a then s
    else count 0x5204 a 1 s, if_neg h⟩

/-! Reads and acknowledgements. -/

/-- A read of a live cargo of the tiers T0 to T2 that no cache holds is sampled at once. -/
theorem serveRequest_read {a k : Nat} {t : Transfer} {q : Request} {s : State} (hRead : t.desc.kind = 0) (hDemand : t.desc.runAhead = false)
    (hLive : (cargoAt s t.desc.source).2.state = 1) (hHome : (cargoAt s t.desc.source).2.farCached = false)
    (hTier : (cargoAt s t.desc.source).2.tier ≤ 2) (hMapped : unmapped s (cargoAt s t.desc.source).1 (q.address / pageBytes) = false) :
    serveRequest a t k q s = setRequest a t.id k (fun x => { x with
        state := 1, data := sample s (cargoAt s t.desc.source).1 q.address q.length })
      (noteGeneration a t.id (cargoAt s t.desc.source).1 (q.address / pageBytes) (count 0x527B a 1 s)) := by
  have hThere : hostAway s (cargoAt s t.desc.source).1 (q.address / pageBytes) = false := by
    have hNear : ((cargoAt s t.desc.source).2.tier == 4) = false := by
      rw [beq_eq_false_iff_ne]
      omega
    have hCargo : kgetD Cargo.free s.mem.cargoes (cargoAt s t.desc.source).1 = (cargoAt s t.desc.source).2 := rfl
    rw [hostAway, hCargo, hNear, Bool.false_and]
  have hNotHost : (cargoAt s t.desc.source).2.tier ≠ 4 := by omega
  have hSample (g : State) (hMem : g.mem = s.mem) (i x n : Nat) : sample g i x n = sample s i x n := by
    have hFrame (i x : Nat) : frameOf g i x = frameOf s i x := by rw [frameOf, hMem, frameOf]
    unfold sample cargoBytes
    simp only [hFrame, hMem]
  unfold serveRequest
  dsimp only
  rw [if_neg (by simp [hDemand]), if_neg (by simp [hRead, hLive]), if_neg (by simp [hMapped]), if_neg (by simp [hThere]), if_neg (by simp [hRead])]
  rw [if_neg (c := t.desc.kind ≠ 1 ∧ (cargoAt s t.desc.source).2.farCached = true) (by simp [hHome])]
  dsimp only
  rw [if_neg (c := true = true ∧ t.desc.kind ≠ 0 ∧ (cargoAt s t.desc.dest).2.farCached = true) (by simp [hRead]), if_neg (by simp [hRead])]
  rw [if_neg (c := (decide (t.desc.kind = 1) && t.desc.writeBehind && _) = true) (by simp [hRead]), if_neg (by simp [hRead]),
    if_neg (by simp [hNotHost])]
  split
  case h_1 hWrite _ => rw [hRead] at hWrite; cases hWrite
  case h_2 hWrite _ => rw [hRead] at hWrite; cases hWrite
  case h_3 =>
    dsimp only
    rw [hSample (noteGeneration a t.id (cargoAt s t.desc.source).1 (q.address / pageBytes) (count 0x527B a 1 s)) rfl, if_neg (by simp [hRead])]

/-- The bytes that a landing read has found enter the TBF. -/
def readLanded (a id k : Nat) (t : Transfer) (q : Request) (s : State) : State :=
  finishIfDone a id (setRequest a id k (fun x => { x with state := 2, data := q.data })
    (modArray a (fun x => { x with tbf := storeBytes x.tbf q.dest (q.data ++ zeroBytes q.pad) }) (clearOverwritten a t q s)))

theorem exec_requestLand {a id k : Nat} {d : Bytes} {t : Transfer} {q : Request} {s : State} (hTransfer : findTransfer (engineOf s a) id = some t)
    (hRequest : t.requests[k]? = some q) (hIssued : q.state = 1) (hRead : t.desc.kind = 0) (hRuns : t.cancelled = false)
    (hOpen : t.resolved = false) (hHome : (cargoAt s t.desc.source).2.farCached = false) (hTier : (cargoAt s t.desc.source).2.tier ≠ 4)
    (hOrigin : ∀ core thread, t.origin ≠ .drover core thread) : exec (.requestLand a id k d) s = .next (readLanded a id k t q s) := by
  have hDeliver (u : State) : deliver a t q q.data u =
      modArray a (fun x => { x with tbf := storeBytes x.tbf q.dest (q.data ++ zeroBytes q.pad) }) u := by
    unfold deliver
    split
    case h_1 core thread h => exact absurd h (hOrigin core thread)
    case h_2 => exact if_pos hRead
  show execRequestLand a id k d s = _
  unfold execRequestLand
  rw [hTransfer]
  dsimp only
  rw [hRequest]
  dsimp only
  rw [if_neg (by simp [hIssued, hRead])]
  simp only [hHome, hTier, hRuns, hOpen, hRead, Bool.false_eq_true, false_and, if_false, Bool.or_self, hDeliver]
  rfl

theorem exec_writeAcknowledge {a id k : Nat} {t : Transfer} {q : Request} {s : State} (hTransfer : findTransfer (engineOf s a) id = some t)
    (hRequest : t.requests[k]? = some q) (hIssued : q.state = 1) (hWrite : t.desc.kind = 1) : exec (.writeAcknowledge a id k) s = .next
      (finishIfDone a id (setRequest a id k (fun x => { x with state := 2 })
        (acknowledgePage t k (t.desc.dest % 65536) (q.dest / pageBytes) s))) := by
  show execWriteAcknowledge a id k s = _
  unfold execWriteAcknowledge
  rw [hTransfer]
  dsimp only
  rw [hRequest]
  dsimp only
  rw [if_neg (by simp [hIssued, hWrite]), done]

theorem getElem?_setNth {α : Type} (xs : List α) (i : Nat) (v : α) (h : i < xs.length) : (setNth xs i v)[i]? = some v := by
  induction xs generalizing i with
  | nil => simp at h
  | cons x xs ih =>
    cases i with
    | zero => rfl
    | succ i =>
      rw [setNth, List.getElem?_cons_succ]
      exact ih i (Nat.lt_of_succ_lt_succ h)

theorem raiseGeneration_page {j p : Nat} {e : PageEntry} {s : State} (h : (kgetD Cargo.free s.mem.cargoes j).pages[p]? = some e) :
    (kgetD Cargo.free (raiseGeneration j p s).mem.cargoes j).pages[p]? = some { e with generation := (e.generation + 1) % 2 ^ 64 } := by
  rw [raiseGeneration, modCargo]
  dsimp only
  rw [kgetD_kmodD_same, h]
  exact getElem?_setNth _ _ _ (List.getElem?_eq_some_iff.mp h).1

/-- A page with requests of the write still to come stays open; the last one closes it and raises its generation (R305). -/
def moreOf (t : Transfer) (k p : Nat) : Bool := t.requests.zipIdx.any (fun e => e.2 != k && e.1.state != 2 && e.1.dest / pageBytes == p)

theorem acknowledgePage_more {t : Transfer} {k j p : Nat} {s : State} (h : moreOf t k p = true) : acknowledgePage t k j p s =
    { s with mem := { s.mem with openPages := if s.mem.openPages.contains (j, p) then s.mem.openPages else s.mem.openPages ++ [(j, p)] } } := by
  have hMore : t.requests.zipIdx.any (fun e => e.2 != k && e.1.state != 2 && e.1.dest / pageBytes == p) = true := h
  unfold acknowledgePage
  rw [hMore]
  rfl

theorem acknowledgePage_last {t : Transfer} {k j p : Nat} {s : State} (h : moreOf t k p = false) : acknowledgePage t k j p s =
    raiseGeneration j p { s with mem := { s.mem with openPages := s.mem.openPages.filter (· != (j, p)) } } := by
  have hMore : t.requests.zipIdx.any (fun e => e.2 != k && e.1.state != 2 && e.1.dest / pageBytes == p) = false := h
  unfold acknowledgePage
  rw [hMore]
  rfl

end Sys2Proof.Machine

open Sys2Proof Sys2Proof.Machine

/-- Settles O38: the issue of a transfer is `exec_transferIssue`, of a request `exec_requestIssue`, the grant of a partition `grantAt`,
a read `serveRequest_read`, and a page's acknowledgement opens or closes it. -/
theorem transfersIssueLandAndAcknowledge : Obligations.TransfersIssueLandAndAcknowledge := by
  unfold Obligations.TransfersIssueLandAndAcknowledge
  refine ⟨⟨?issue, ?outside, ?plain, ?request, ?grant, ?read⟩, ?land, ?acknowledge, ?page⟩
  case issue =>
    intro a t rest s hQueue
    dsimp only
    rw [exec_transferIssue hQueue]
    simp only [pairFree_iff]
    exact ⟨fun hOk => by rw [if_pos hOk], fun hNot => by rw [if_neg hNot]⟩
  case outside =>
    intro a t s hDemand hLeaves
    have hEngine := engineOf_extentLeft a t s
    refine ⟨_, issueHead_outside hDemand hLeaves, ?_, ?_, fun x hx => ?_⟩
    · rw [extentLeft, event_led, count_led]
      rfl
    · rw [hEngine]
    · rw [hEngine] at hx
      simpa using (List.mem_filter.mp hx).2
  case plain =>
    intro a t s hInside hPair hStore
    dsimp only
    rw [issueHead_plain hInside hPair hStore, transferIssued_engine]
    exact ⟨rfl, transferIssued_slots a t s, rfl⟩
  case request =>
    intro a id k t q s hTransfer hRequest
    obtain ⟨hNot, hMay⟩ := exec_requestIssue hTransfer hRequest
    dsimp only
    refine ⟨hNot, fun hOk hWait => ?_, fun hOk hFail => ?_, fun hOk hGoes => ?_⟩
    · rw [hMay hOk, hWait]
    · rw [hMay hOk, hFail]
    · rw [hMay hOk, hGoes]
  case grant =>
    intro n a s
    dsimp only
    have hMoved : (portNow n s).moved = if (kgetD PartitionPort.idle s.mem.ports n).cycle = s.clock then
        (kgetD PartitionPort.idle s.mem.ports n).moved else 0 := by rw [portNow_eq]
    rw [← hMoved]
    refine ⟨fun hFew hTurn => ?_, fun hLater => ?_⟩
    · have hFirst : sitesAhead n a s = false := by
        rw [Bool.eq_false_iff]
        intro h
        obtain ⟨x, hx, hOther, hWaits, hLess⟩ := sitesAhead_iff.mp h
        exact absurd (hTurn x hx hOther hWaits) (by omega)
      rw [grantAt_granted hFew hFirst]
      refine ⟨rfl, ?_, sameBut_mem s _⟩
      rw [kget_kput_same, portNow_eq]
    · have hNot : ¬((portNow n s).moved < 2 ∧ sitesAhead n a s = false) := by
        rintro ⟨hFew, hFirst⟩
        rcases hLater with hMany | hAhead
        · omega
        · rw [sitesAhead_iff.mpr hAhead] at hFirst
          cases hFirst
      obtain ⟨u, hEq⟩ := grantAt_waits hNot
      have hParts := (grantAt_keeps n a (.refl (· ∉ [Part.mem, .ctr]) s) (by simp) (by simp)).sameBut
      rw [hEq] at hParts ⊢
      refine ⟨rfl, ?_, hParts⟩
      dsimp only
      rw [kgetD_kput_same]
      dsimp only
      split
      case isTrue h => simpa using h
      case isFalse => simp
  case read =>
    intro a k t q s hRead hDemand hLive hHome hTier hMapped
    exact serveRequest_read hRead hDemand hLive hHome hTier hMapped
  case land =>
    intro a id k d t q s hTransfer hRequest hIssued hRead hRuns hOpen hHome hTier hOrigin
    exact exec_requestLand hTransfer hRequest hIssued hRead hRuns hOpen hHome hTier hOrigin
  case acknowledge =>
    intro a id k t q s hTransfer hRequest hIssued hWrite
    exact exec_writeAcknowledge hTransfer hRequest hIssued hWrite
  case page =>
    intro t k j p s
    refine ⟨fun hMore => ?_, fun hLast => ?_, ?_⟩
    · rw [acknowledgePage_more hMore]
      refine ⟨?_, rfl⟩
      dsimp only
      split
      case isTrue h => simpa using h
      case isFalse => simp
    · rw [acknowledgePage_last hLast]
      refine ⟨?_, fun e he => raiseGeneration_page he⟩
      simp [raiseGeneration, modCargo]
    · cases h : moreOf t k p with
      | true => rw [acknowledgePage_more h]
      | false => rw [acknowledgePage_last h, raiseGeneration, modCargo]
end

section
/-! Drover accesses, late points and failed reads (R285-R288, R311). -/

namespace Sys2Proof.Machine

/-! Drover accesses. -/

/-- The transfer of a drover's access. -/
def droverTransfer (a core thread slot offset length : Nat) (store : Bool) (handle : Nat) (data : Bytes) (tag : Word) (m : ManifestEntry)
    (s : State) : Transfer :=
  let pages := if m.pages = 0 then (cargoAt s handle).2.pageCount - m.first else m.pages
  let d : Descriptor := ⟨if store then 1 else 0, 0, 1, length, if store then noHandle else handle, if store then handle else noHandle,
    if store then 0 else offset, if store then offset else 0, 0, 0, tag.toNat, 0xFFFF,
    if store then 0 else m.first, if store then 0 else pages, if store then m.first else 0, if store then pages else 0⟩
  ⟨(engineOf s a).nextId, slot, (slotOf s slot).train.attempt, (slotOf s slot).train.step, .drover core thread, d, none,
    [⟨d.sourceOffset, d.destOffset, length, 0, padTo length data, 0⟩], [], 0, false, false, false⟩

/-- The access placed before the queue, its thread waiting for it. -/
def droverPlaced (a core thread : Nat) (t : Transfer) (s : State) : State :=
  modEngine a (fun e => { e with queue := t :: e.queue })
    (modEngine a (fun e => { e with nextId := e.nextId + 1, drovers := kput e.drovers (core * 16 + thread) ⟨2, []⟩ }) (count 0x5288 a 1 s))

theorem exec_droverAccess {a core thread slot offset length : Nat} {store : Bool} {handle : Nat} {data : Bytes} {tag : Word} {r : Route}
    {m : ManifestEntry} {s : State} (hRoute : routeOf s slot = some r)
    (hNamed : r.manifest.find? (fun m => m.handle == handle && (if store then m.write else m.read)) = some m)
    (hCore : core < 2) (hThread : thread < 16) (hSome : length ≠ 0) (hShort : length ≤ 256)
    (hIdle : (kgetD ⟨0, []⟩ (engineOf s a).drovers (core * 16 + thread)).state ≠ 2) (hRoom : (engineOf s a).outstanding.length < arrayLimit)
    (hFew : ((engineOf s a).outstanding.filter (fun t => match t.origin with | .drover _ _ => true | _ => false)).length < setting s 0x3601 0)
    (hFree : engineFree s a slot = true) : exec (.droverAccess a core thread slot store handle offset length data tag) s =
      .next (issueHead a (droverTransfer a core thread slot offset length store handle data tag m s)
        (droverPlaced a core thread (droverTransfer a core thread slot offset length store handle data tag m s) s)) := by
  show execDroverAccess a core thread slot store handle offset length data tag s = _
  unfold execDroverAccess
  dsimp only
  rw [hRoute]
  dsimp only
  rw [hNamed]
  dsimp only
  rw [if_neg]
  · rfl
  · rintro (h | h | h | h | h | h | h | h)
    · omega
    · omega
    · exact hSome h
    · omega
    · exact hIdle h
    · omega
    · exact absurd h (Nat.not_le.mpr hFew)
    · rw [hFree] at h
      cases h

theorem engineOf_droverPlaced (a core thread : Nat) (t : Transfer) (s : State) : engineOf (droverPlaced a core thread t s) a =
    { engineOf s a with queue := t :: (engineOf s a).queue, nextId := (engineOf s a).nextId + 1
                        drovers := kput (engineOf s a).drovers (core * 16 + thread) ⟨2, []⟩ } := by
  rw [droverPlaced, engineOf_modEngine_same, engineOf_modEngine_same, engineOf_count]

/-! Late points (R285). -/

/-- A prefetch that is late is counted. -/
def prefetchCounted (a : Nat) (t : Transfer) (s : State) : State := match t.origin with | .prefetch _ _ => count 0x5283 a 1 s | _ => s

theorem exec_latePoint {a id : Nat} {t : Transfer} {s : State} (hTransfer : findTransfer (engineOf s a) id = some t) (hRead : t.desc.kind ≠ 1)
    (hFar : (cargoAt s t.desc.source).2.tier ≠ 0) (hOpen : t.resolved = false) (hRuns : t.cancelled = false) :
    (dueNow s t (lateMargin s (cargoAt s t.desc.source).2) = true →
      exec (.latePoint a id) s = .next (resolveRead a t false (prefetchCounted a t s))) ∧
    (dueNow s t (lateMargin s (cargoAt s t.desc.source).2) = false → exec (.latePoint a id) s = .next s) := by
  constructor
  · intro hDue
    show execLatePoint a id s = _
    unfold execLatePoint
    rw [hTransfer]
    dsimp only
    rw [if_neg (by simp [hRead, hFar, hOpen, hRuns, hDue])]
    rfl
  · intro hDue
    show execLatePoint a id s = _
    unfold execLatePoint
    rw [hTransfer]
    exact congrArg done (if_pos (by simp [hDue]))

theorem tagStep_of_own {t : Transfer} (h : ∀ k, t.origin ≠ .prefetch k true) : tagStep t = t.step := by
  unfold tagStep
  split
  case h_1 k hOrigin => exact absurd hOrigin (h k)
  case h_2 => rfl

/-- In a training route a tag of the present step is due once the late point of a due entry of it has passed. -/
theorem dueNow_training {t : Transfer} {r : Route} {s : State} (hRoute : routeOf s t.slot = some r) (hTraining : r.training = true)
    (hStep : tagStep t = (slotOf s t.slot).train.step) (m : Nat) : dueNow s t m = true ↔
      ∃ d ∈ r.plan.due.filter (fun d => ((BitVec.ofNat 32 t.desc.tag ^^^ d.value) &&& d.mask) == 0),
        d.beat < (slotOf s t.slot).beat.offset ∨ (d.beat = (slotOf s t.slot).beat.offset ∧ (slotOf s t.slot).beat.phase ≠ 0 ∧
          (slotOf s t.slot).beat.opened + ((slotOf s t.slot).beat.period - 64 - m) ≤ s.clock) := by
  unfold dueNow
  rw [hRoute]
  dsimp only
  rw [if_pos hTraining, hStep, List.any_eq_true]
  refine exists_congr (fun d => and_congr_right (fun _ => ?_))
  simp [pastLate, and_assoc]

theorem dueNow_serving {t : Transfer} {r : Route} {s : State} (hRoute : routeOf s t.slot = some r) (hTraining : r.training = false) {m : Nat}
    (hDue : ∃ d ∈ r.plan.due, ((BitVec.ofNat 32 t.desc.tag ^^^ d.value) &&& d.mask) = 0 ∧ ∃ q ∈ (serveOf s t.slot).requests,
      q.line = tagMicro (BitVec.ofNat 32 t.desc.tag) ∧ q.phase = 1 ∧
        pastLate s t.slot m (slotOf s t.slot).beat.count (q.entry + d.beat) = true) : dueNow s t m = true := by
  obtain ⟨d, hd, hMine, q, hq, hLine, hPhase, hPast⟩ := hDue
  unfold dueNow
  rw [hRoute]
  dsimp only
  rw [hTraining, if_neg (by simp), List.any_eq_true]
  refine ⟨d, List.mem_filter.mpr ⟨hd, by simp [hMine]⟩, ?_⟩
  rw [List.any_eq_true]
  exact ⟨q, hq, by simp [hLine, hPhase, hPast]⟩

/-! Failed reads. -/

theorem exec_cargoReadFail {a id : Nat} {t : Transfer} {s : State} (hTransfer : findTransfer (engineOf s a) id = some t) (hRead : t.desc.kind ≠ 1)
    (hOpen : t.resolved = false) (hRuns : t.cancelled = false) (hTier : 3 ≤ (cargoAt s t.desc.source).2.tier) :
    exec (.cargoReadFail a id) s = .next (failRead a t s) := by
  show execCargoReadFail a id s = _
  unfold execCargoReadFail
  rw [hTransfer]
  exact congrArg done (if_pos ⟨hRead, hOpen, hRuns, hTier⟩)

theorem resolveRead_of_wait {a : Nat} {t : Transfer} {s : State} (h : (cargoAt s t.desc.source).2.lateAction = 0) (failed : Bool) :
    resolveRead a t failed s = if failed then failOrigin a t (giveUp a t (count 0x5438 (cargoAt s t.desc.source).2.client 1 s))
      else count 0x5438 (cargoAt s t.desc.source).2.client 1 s := by
  unfold resolveRead
  dsimp only
  rw [h]
  rfl

theorem resolveRead_of_zeros {a : Nat} {t : Transfer} {s : State} (h : (cargoAt s t.desc.source).2.lateAction = 2) (failed : Bool) :
    resolveRead a t failed s = noteLate t (cargoAt s t.desc.source).2 2 (count 0x543A (cargoAt s t.desc.source).2.client 1
      (settleRead a t ((t.requests.filter (fun q => t.requests.any (fun x => x.state != 2 && x.address / pageBytes == q.address / pageBytes))).foldl
        (fun s q => deliver a t q (zeroBytes q.length) s) s))) := by
  unfold resolveRead
  dsimp only
  rw [h]
  rfl

end Sys2Proof.Machine

open Sys2Proof Sys2Proof.Machine

/-- Settles O39: a drover's access is `exec_droverAccess`, the late point is `dueNow`, a failed read goes to `resolveRead`. -/
theorem droversAndLateReads : Obligations.DroversAndLateReads := by
  unfold Obligations.DroversAndLateReads
  refine ⟨?drover, ?training, ?serving, ?fails, ?resolves⟩
  case drover =>
    intro a core thread slot offset length store handle data tag r m s hRoute hNamed hCore hThread hSome hShort hIdle hRoom hFew hFree
    have hEngine := engineOf_droverPlaced a core thread (droverTransfer a core thread slot offset length store handle data tag m s) s
    refine ⟨_, _, exec_droverAccess hRoute hNamed hCore hThread hSome hShort hIdle hRoom hFew hFree, rfl, rfl, rfl, rfl, fun h => ?_,
      fun h => ?_, ?_, ?_, ?_⟩
    · simp [droverTransfer, h]
    · simp [droverTransfer, h]
    · rw [hEngine]
    · rw [hEngine]
    · rw [hEngine]
      dsimp only
      rw [kgetD_kput_same]
  case training =>
    intro a id t r s hTransfer hRead hFar hOpen hRuns hRoute hTraining hOwn hStep
    dsimp only
    obtain ⟨hLate, hWaits⟩ := exec_latePoint hTransfer hRead hFar hOpen hRuns
    have hDue := dueNow_training hRoute hTraining ((tagStep_of_own hOwn).trans hStep) (lateMargin s (cargoAt s t.desc.source).2)
    exact ⟨fun hPassed => hLate (hDue.mpr hPassed), fun hNot => hWaits (Bool.eq_false_iff.mpr (fun h => hNot (hDue.mp h)))⟩
  case serving =>
    intro a id t r s hTransfer hRead hFar hOpen hRuns hRoute hServing hOrigin hDue
    have hCounted : prefetchCounted a t s = s := by
      unfold prefetchCounted
      split
      case h_1 k next h => exact absurd h (hOrigin k next)
      case h_2 => rfl
    rw [(exec_latePoint hTransfer hRead hFar hOpen hRuns).1 (dueNow_serving hRoute hServing hDue), hCounted]
  case fails =>
    intro a id t s hTransfer hRead hOpen hRuns hTier
    exact exec_cargoReadFail hTransfer hRead hOpen hRuns hTier
  case resolves =>
    intro a t s
    dsimp only
    refine ⟨fun h => ?_, fun h => ?_, fun failed h => resolveRead_of_zeros h failed⟩
    · rw [resolveRead_of_wait h]
      rfl
    · rw [resolveRead_of_wait h]
      rfl
end

section
/-! Operations on cargoes (R271-R281). -/

namespace Sys2Proof.Machine

/-! Requests to 2510.00. -/

theorem cargoRows_access : ∀ r ∈ objRows, r.index = 0x2510 → r.access = .wo := by decide +kernel

theorem field_cargoAsk (code : Byte) (b : Bytes) : field (cargoAsk code b) 0 1 = code.toNat := by
  simp [field, slice, cargoAsk, leNat]

/-- A request to 2510.00 that passes the checks of an entry is answered with its operation's effect. -/
theorem askCargo_of_effect {who : Who} {code : Byte} {b : Bytes} {s t : State} (h : Passes who (lastOf 0x2510 0 (cargoAsk code b)) s)
    (hEffect : cargoEffect who.client (cargoAsk code b) (begun who (lastOf 0x2510 0 (cargoAsk code b)) s) = (stOk, t)) :
    askCargo who code b s = .next (answered who (lastOf 0x2510 0 (cargoAsk code b)) s t) := by
  refine askDomain_of_passes (b := cargoAsk code b) h (by decide) ?_
  have hAccess : (rowOf 0x2510 0).access = .wo := by decide +kernel
  rw [writeEffect_of_command who _ _ hAccess (by decide) (by decide)]
  exact hEffect

/-- An operation on a cargo that passes its checks has its effect on the record and the pages named. -/
theorem onCargo_of_passes {who : Who} {q : Bytes} {i : Nat} {c : Cargo} {ps : List Nat} {s : State} (h : OnCargo who q i c ps s)
    {more : Nat → Cargo → List (Bool × Nat)} (hMore : firstStatus (more i c) = stOk) (f : Nat → Cargo → List Nat → State → State) :
    onCargo who.client q more f s = (stOk, f i c ps s) := by
  obtain ⟨hFree, hFound, hMine, hZero, n, hCount, hInside, hPages⟩ := h
  have hRange : ¬c.pageCount < field q 8 4 + n := by omega
  unfold onCargo
  dsimp only
  rw [hFound]
  dsimp only
  rw [← hCount, ← hPages, checked_of_ok (by simp [firstStatus, hFree, hMine, hZero, hRange, hMore])]

theorem length_of_onCargo {who : Who} {q : Bytes} {i : Nat} {c : Cargo} {ps : List Nat} {s : State} (h : OnCargo who q i c ps s) :
    ps.length = if field q 12 4 = 0 then c.pageCount - field q 8 4 else field q 12 4 := by
  obtain ⟨n, hCount, -, hPages⟩ := h.pages
  rw [hPages, List.length_map, List.length_range, hCount]

/-- The checks that a broken cargo and one that is not far-cached fail. -/
theorem cachedChecks_ok {c : Cargo} (hState : c.state ≠ 2) (hCached : c.farCached = true) : firstStatus [broken c, notCached c] = stOk := by
  simp [firstStatus, broken, notCached, hState, hCached]

theorem pinEffect_of_passes {who : Who} {q : Bytes} {i : Nat} {c : Cargo} {ps : List Nat} {s : State} (h : OnCargo who q i c ps s)
    (hState : c.state ≠ 2) (hCached : c.farCached = true)
    (hRoom : ((s.mem.cache.filter (fun f => f.pinned)).length + ps.length - (s.mem.cache.filter (fun f => f.pinned && f.cargo == i &&
      field q 8 4 ≤ f.page && f.page < field q 8 4 + ps.length)).length) * 100 ≤ setting s 0x3502 0 * cacheCapacity s) :
    pinEffect who.client q s = (stOk, setProgress who.client (progressOf s who.client).1 1
      (workOn who.client (ps.map (fun p => (i, p, true))) s)) := by
  refine onCargo_of_passes h ?_ _
  rw [length_of_onCargo h] at hRoom
  simp [firstStatus, broken, notCached, hState, hCached, Nat.not_lt.mpr hRoom]

theorem unpinEffect_of_passes {who : Who} {q : Bytes} {i : Nat} {c : Cargo} {ps : List Nat} {s : State} (h : OnCargo who q i c ps s)
    (hState : c.state ≠ 2) (hCached : c.farCached = true) :
    unpinEffect who.client q s = (stOk, setProgress who.client (progressOf s who.client).1 2
      (ps.foldl (fun v p => modFrame i p (fun f => { f with pinned := false }) v) s)) :=
  onCargo_of_passes h (cachedChecks_ok hState hCached) _

theorem flushEffect_of_passes {who : Who} {q : Bytes} {i : Nat} {c : Cargo} {ps : List Nat} {s : State} (h : OnCargo who q i c ps s)
    (hState : c.state ≠ 2) (hCached : c.farCached = true) :
    flushEffect who.client q s = (stOk, setProgress who.client (progressOf s who.client).1 1
      (workOn who.client (ps.map (fun p => (i, p, false))) s)) :=
  onCargo_of_passes h (cachedChecks_ok hState hCached) _

theorem markEffect_of_passes {who : Who} {q : Bytes} {i : Nat} {c : Cargo} {ps : List Nat} {s : State} (h : OnCargo who q i c ps s)
    (hState : c.state ≠ 2) (hCached : c.farCached = true) :
    markEffect who.client q s = (stOk, setProgress who.client (progressOf s who.client).1 2 (ps.foldl (fun v p => markPage i p v) s)) :=
  onCargo_of_passes h (cachedChecks_ok hState hCached) _

theorem setActionsEffect_of_passes {who : Who} {q : Bytes} {i : Nat} {c : Cargo} {ps : List Nat} {s : State} (h : OnCargo who q i c ps s)
    (hHome : slice (slice q 16 48) 0 22 = slice c.attr 0 22) (hUnits : slice (slice q 16 48) 28 8 = slice c.attr 28 8)
    (hBus : slice (slice q 16 48) 40 8 = slice c.attr 40 8)
    (hChecks : firstStatus (attrChecks s who.client (slice q 16 48) [broken c, (manifestReads s (field q 4 4), stState)]) = stOk) :
    setActionsEffect who.client q s = (stOk, setProgress who.client (progressOf s who.client).1 2
      (modCargo i (fun c => { c with attr := slice q 16 48 }) s)) := by
  unfold setActionsEffect
  refine onCargo_of_passes h ?_ _
  rw [hHome, hUnits, hBus]
  simpa [firstStatus] using hChecks

/-- What is given up of a partial write is no part of what an operation on a cargo asks. -/
theorem onCargo_begun {who : Who} {q : Bytes} {i : Nat} {c : Cargo} {ps : List Nat} {s : State} (h : OnCargo who q i c ps s) (a : Ask) :
    OnCargo who q i c ps (begun who a s) := ⟨h.free, h.found, h.mine, h.zero, h.pages⟩

end Sys2Proof.Machine

open Sys2Proof Sys2Proof.Machine

/-- Settles O40: each operation of 2510.00 on an existing cargo, by its checks and its effect on the pages named. -/
theorem cargoOperationsActOnTheirPages : Obligations.CargoOperationsActOnTheirPages := by
  unfold Obligations.CargoOperationsActOnTheirPages
  refine ⟨?pin, ?others, ?actions⟩
  case pin =>
    intro who b i c ps s q a hPasses hOn hState hCached hRoom
    exact askCargo_of_effect hPasses (pinEffect_of_passes (onCargo_begun hOn a) hState hCached hRoom)
  case others =>
    intro who b i c ps s hState hCached
    refine ⟨fun hPasses hOn => ?unpin, fun hPasses hOn => ?flush, fun hPasses hOn => ?mark⟩
    case unpin => exact askCargo_of_effect hPasses (unpinEffect_of_passes (onCargo_begun hOn _) hState hCached)
    case flush => exact askCargo_of_effect hPasses (flushEffect_of_passes (onCargo_begun hOn _) hState hCached)
    case mark => exact askCargo_of_effect hPasses (markEffect_of_passes (onCargo_begun hOn _) hState hCached)
  case actions =>
    intro who b i c ps s q a attr hPasses hOn hHome hUnits hBus hChecks
    exact askCargo_of_effect hPasses (setActionsEffect_of_passes (onCargo_begun hOn a) hHome hUnits hBus hChecks)
end

section
/-! Cargoes: their create and free, the end of their commands, write-homes and the patrol scrub (R268-R281). -/

namespace Sys2Proof.Machine

/-! Storage ranges. -/

theorem kget_filter_key {α : Type} (p : Nat → Bool) (m : KMap α) (k : Nat) :
    kget (m.filter (fun e => p e.1)) k = if p k then kget m k else none := by
  induction m with
  | nil => simp
  | cons e r ih =>
    obtain ⟨j, v⟩ := e
    rw [List.filter_cons, kget_cons]
    by_cases hKey : j = k
    · subst hKey
      by_cases hKept : p j = true
      · simp [hKept, kget_cons]
      · simp [hKept, ih]
    · by_cases hKept : p j = true
      · simp [hKept, kget_cons, hKey, ih]
      · simp [hKept, hKey, ih]

theorem loadByte_clearBytes (m : Memory) (a n k : Nat) :
    loadByte (clearBytes m a n) k = if a ≤ k ∧ k < a + n then 0 else loadByte m k := by
  unfold loadByte clearBytes kgetD
  rw [kget_filter_key (fun k => k < a || a + n ≤ k)]
  by_cases h : a ≤ k ∧ k < a + n
  · rw [if_neg (by simp; omega), if_pos h]
    rfl
  · rw [if_pos (by simp; omega), if_neg h]

theorem kget_of_mem {α : Type} {m : KMap α} {k : Nat} {v : α} (hWf : KMap.wf m = true) (h : (k, v) ∈ m) : kget m k = some v := by
  induction m with
  | nil => simp at h
  | cons e r ih =>
    obtain ⟨j, w⟩ := e
    obtain ⟨hAbove, hRest⟩ := (wf_cons j w r).mp hWf
    rw [kget_cons]
    rcases List.mem_cons.mp h with hHere | hLater
    · cases hHere
      exact if_pos rfl
    · rw [if_neg (Nat.ne_of_lt (hAbove _ hLater))]
      exact ih hRest hLater

/-- A range copied from storage in canonical form reads in its destination as in its source. -/
theorem loadByte_copyRange {src : Memory} (dst : Memory) {a n k : Nat} (hWf : Memory.wf src = true) (hLow : a ≤ k) (hHigh : k < a + n) :
    loadByte (copyRange src dst a n) k = loadByte src k := by
  have hKeys := ((Memory.wf_iff src).mp hWf).1
  have hFound : ∀ e ∈ rangeOf src a n, e.1 = k → e.2 = loadByte src k := by
    intro e he hKey
    obtain ⟨j, v⟩ := e
    have := kget_of_mem hKeys (List.mem_filter.mp he).1
    subst hKey
    simp [loadByte, kgetD, this]
  by_cases hSome : ∃ e ∈ rangeOf src a n, e.1 = k
  · exact loadByte_foldl_of_agree hSome hFound _
  · have hNone : kget src k = none := by
      refine Option.eq_none_iff_forall_not_mem.mpr (fun v hv => hSome ⟨(k, v), List.mem_filter.mpr ⟨mem_of_kget hv, ?_⟩, rfl⟩)
      simp [hLow, hHigh]
    rw [copyRange, loadByte_foldl_other (fun e he hKey => hSome ⟨e, he, hKey⟩), loadByte_clearBytes, if_pos ⟨hLow, hHigh⟩]
    simp [loadByte, kgetD, hNone]

/-! A write-home (R281). -/

/-- A page's home takes the cached bytes, and its frame is clean. -/
def homeWritten (f : CacheFrame) (s : State) : State :=
  count 0x5434 f.stack 1 (modFrame f.cargo f.page (fun x => { x with dirty := false, retry := none })
    { s with mem := { s.mem with home := copyRange s.mem.cached s.mem.home (pageAddress f.cargo f.page) pageBytes } })

/-- A write-home that is not admitted is left for a later beat. -/
def putOff (f : CacheFrame) (s : State) : State := modFrame f.cargo f.page (fun x => { x with retry := some s.beat.count }) s

/-- A page of T3 asks for its store, unless one names it. -/
def storeAsked (client page : Nat) (s : State) : State × Bool :=
  if s.flash.stores.any (fun x => x.admitted.contains page || x.waiting.contains page) then (s, true) else admitStore client [page] false s

theorem writeHomeFrame_eq (f : CacheFrame) (s : State) : writeHomeFrame f s =
    if (kgetD Cargo.free s.mem.cargoes f.cargo).tier = 3 then
      let page := ((pageOf s f.cargo f.page).map (·.frame)).getD 0
      let r := storeAsked (kgetD Cargo.free s.mem.cargoes f.cargo).client page s
      if r.2 = true ∧ pageAdmitted r.1 page = true then (homeWritten f (touchT3 f.cargo f.page r.1), true) else (putOff f r.1, false)
    else if (kgetD Cargo.free s.mem.cargoes f.cargo).tier = 4 then
      if hostAway s f.cargo f.page then (putOff f s, false)
      else (homeWritten f (touchT3 f.cargo f.page (emit (.hostWrite (pageBus s f.cargo f.page)
        (loadBytes s.mem.cached (pageAddress f.cargo f.page) pageBytes)) s)), true)
    else (homeWritten f (touchT3 f.cargo f.page s), true) := by
  unfold writeHomeFrame homeWritten storeAsked putOff
  with_reducible rfl

theorem touchT3_of_tier {i : Nat} (p : Nat) {s : State} (h : (kgetD Cargo.free s.mem.cargoes i).tier ≠ 3) : touchT3 i p s = s := by
  unfold touchT3
  cases pageOf s i p with
  | none => rfl
  | some e => exact if_neg h

theorem writeHomeFrame_elsewhere {f : CacheFrame} {s : State} (h3 : (kgetD Cargo.free s.mem.cargoes f.cargo).tier ≠ 3)
    (h4 : (kgetD Cargo.free s.mem.cargoes f.cargo).tier ≠ 4) : writeHomeFrame f s = (homeWritten f s, true) := by
  rw [writeHomeFrame_eq, if_neg h3, if_neg h4, touchT3_of_tier _ h3]

theorem writeHomeFrame_host {f : CacheFrame} {s : State} (h4 : (kgetD Cargo.free s.mem.cargoes f.cargo).tier = 4)
    (hHere : hostAway s f.cargo f.page = false) : writeHomeFrame f s = (homeWritten f (emit (.hostWrite (pageBus s f.cargo f.page)
      (loadBytes s.mem.cached (pageAddress f.cargo f.page) pageBytes)) s), true) := by
  have h3 : (kgetD Cargo.free s.mem.cargoes f.cargo).tier ≠ 3 := by omega
  rw [writeHomeFrame_eq, if_neg h3, if_pos h4, hHere, if_neg (by decide), touchT3_of_tier _ (s := emit _ s) h3]

theorem loadByte_homeWritten {f : CacheFrame} {s : State} (hWf : Memory.wf s.mem.cached = true) {k : Nat} (hk : k < pageBytes) :
    loadByte (homeWritten f s).mem.home (pageAddress f.cargo f.page + k) = loadByte s.mem.cached (pageAddress f.cargo f.page + k) :=
  loadByte_copyRange _ hWf (Nat.le_add_right _ _) (Nat.add_lt_add_left hk _)

theorem clean_of_homeWritten {f : CacheFrame} {s : State} {x : CacheFrame} (hx : x ∈ (homeWritten f s).mem.cache) (hCargo : x.cargo = f.cargo)
    (hPage : x.page = f.page) : x.dirty = false := by
  obtain ⟨y, -, rfl⟩ := List.mem_map.mp hx
  by_cases h : (y.cargo == f.cargo && y.page == f.page) = true
  · rw [if_pos h]
  · rw [if_neg h] at hCargo hPage
    exact absurd (by simp [hCargo, hPage]) h

/-! What is given up of a partial write matters to no check of a create. -/

section
variable (who : Who) (key : Nat)

theorem gather_dropPartial (f v : Nat) (s : State) : gather f v (dropPartial who key s) = dropPartial who key (gather f v s) := by
  unfold gather
  rw [apply_ite (dropPartial who key)]
  rfl

theorem event_dropPartial (code : Nat) (p : At) (b : Bytes) (s : State) :
    event code p b (dropPartial who key s) = dropPartial who key (event code p b s) := by
  unfold event
  dsimp only
  rw [apply_ite (dropPartial who key), ← gather_dropPartial, ← gather_dropPartial]
  rfl

theorem admitStore_dropPartial (client : Nat) (pages : List Nat) (t2 : Bool) (s : State) :
    admitStore client pages t2 (dropPartial who key s) = Prod.map (dropPartial who key) id (admitStore client pages t2 s) := by
  unfold admitStore
  dsimp only
  rw [apply_ite (Prod.map (dropPartial who key) id), apply_ite (Prod.map (dropPartial who key) id),
    apply_ite (Prod.map (dropPartial who key) id), Prod.map_apply, Prod.map_apply, Prod.map_apply, Prod.map_apply, ← event_dropPartial]
  rfl

theorem touchT3_dropPartial (i p : Nat) (s : State) : touchT3 i p (dropPartial who key s) = dropPartial who key (touchT3 i p s) := by
  unfold touchT3
  have hPage : pageOf (dropPartial who key s) i p = pageOf s i p := rfl
  rw [hPage]
  cases pageOf s i p with
  | none => rfl
  | some e =>
    dsimp only
    rw [apply_ite (dropPartial who key)]
    rfl

theorem storeAsked_dropPartial (client page : Nat) (s : State) :
    storeAsked client page (dropPartial who key s) = Prod.map (dropPartial who key) id (storeAsked client page s) := by
  unfold storeAsked
  rw [apply_ite (Prod.map (dropPartial who key) id), ← admitStore_dropPartial]
  rfl

theorem emit_dropPartial (o : Out) (s : State) : emit o (dropPartial who key s) = dropPartial who key (emit o s) := rfl

theorem writeHomeFrame_dropPartial (f : CacheFrame) (s : State) :
    writeHomeFrame f (dropPartial who key s) = Prod.map (dropPartial who key) id (writeHomeFrame f s) := by
  rw [writeHomeFrame_eq, writeHomeFrame_eq]
  simp only [storeAsked_dropPartial, emit_dropPartial, Prod.map_fst, Prod.map_snd, id, touchT3_dropPartial,
    apply_ite (Prod.map (dropPartial who key) id), Prod.map_apply]
  rfl

theorem evict_dropPartial (stack : Nat) (s : State) :
    evict stack (dropPartial who key s) = Prod.map (dropPartial who key) id (evict stack s) := by
  have hVictim : victim (dropPartial who key s) stack = victim s stack := rfl
  unfold evict
  rw [hVictim]
  cases victim s stack with
  | none => rfl
  | some f =>
    dsimp only
    rw [writeHomeFrame_dropPartial]
    by_cases hDirty : f.dirty = true
    · rw [if_pos hDirty, if_pos hDirty, apply_ite (Prod.map (dropPartial who key) id)]
      rfl
    · rw [if_neg hDirty, if_neg hDirty]
      rfl

theorem makeRoom_dropPartial (stack need fuel : Nat) (s : State) :
    makeRoom stack need fuel (dropPartial who key s) = Prod.map (dropPartial who key) id (makeRoom stack need fuel s) := by
  induction fuel generalizing s with
  | zero => rfl
  | succ fuel ih =>
    rw [makeRoom, makeRoom, evict_dropPartial]
    simp only [Prod.map_fst, Prod.map_snd, id, ih, apply_ite (Prod.map (dropPartial who key) id)]
    rfl

theorem roomFor_dropPartial (tier : Nat) (saggar : Bool) (needs : List (Nat × Nat)) (s : State) :
    roomFor tier saggar needs (dropPartial who key s) = Prod.map (dropPartial who key) id (roomFor tier saggar needs s) := by
  unfold roomFor
  refine List.foldl_hom (Prod.map (dropPartial who key) id) (fun r e => ?_) (init := (s, true))
  simp only [Prod.map_fst, Prod.map_snd, id, makeRoom_dropPartial, apply_ite (Prod.map (dropPartial who key) id)]
  rfl

theorem createChecks_dropPartial (c : Cargo) (s : State) : createChecks (dropPartial who key s) c = createChecks s c := by
  unfold createChecks
  rw [roomFor_dropPartial]
  rfl

end

/-! Create and free (R271-R277). -/

theorem createEffect_of_passes {client : Nat} {q : Bytes} {s : State} (hFree : (progressOf s client).2 ≠ 1) (hZero : zeroAt q 1 3 = true)
    (hHandle : field q 4 4 = 0xFFFFFFFF) (hChecks : firstStatus (attrChecks s client (slice q 16 48) [] ++
      createChecks s ⟨1, client, 0, slice q 16 48, [], false⟩) = stOk) :
    createEffect client q s = (stOk, createCargo client (slice q 16 48) s) := by
  unfold createEffect
  refine checked_of_ok ?_ _ _
  simpa [firstStatus, hFree, hZero, hHandle] using hChecks

@[simp] theorem journalled_mem (s : State) : (journalled s).mem = s.mem :=
  (journalled_keeps (.refl (· = .mem) s) (by simp)).parts .mem rfl

@[simp] theorem journalled_host (s : State) : (journalled s).host = s.host :=
  (journalled_keeps (.refl (· = .host) s) (by simp)).parts .host rfl

theorem journalled_map (s : State) : (journalled s).flash.map = s.flash.map := by
  unfold journalled
  rw [apply_ite (modFlash _)]
  split <;> rfl

theorem mem_ite_journalled (p : Prop) [Decidable p] (s : State) : (if p then journalled s else s).mem = s.mem := by
  rw [apply_ite State.mem, journalled_mem, ite_self]

theorem foldl_grows {α β : Type} (size : α → Nat) {step : α → β → α} (h : ∀ x b, size (step x b) = size x + 1) (l : List β) (x : α) :
    size (l.foldl step x) = size x + l.length := by
  induction l generalizing x with
  | nil => rfl
  | cons b l ih => rw [List.foldl_cons, ih, h, List.length_cons, Nat.add_assoc, Nat.add_comm 1]

theorem allocPages_length (s : State) (c : Cargo) : (allocPages s c).2.length = c.pageCount := by
  unfold allocPages
  dsimp only
  by_cases hHost : c.tier = 4
  · rw [if_pos hHost, List.length_map, List.length_range]
  · rw [if_neg hHost, List.length_reverse,
      foldl_grows (fun x : Nat × KMap (List Nat) × List PageEntry => x.2.2.length) (fun _ _ => rfl), List.length_range]
    exact Nat.zero_add _

/-- What a create leaves at its record (R271, R276, R277). -/
theorem createCargo_frame (client : Nat) (attr : Bytes) (s : State) : let t := createCargo client attr s; let i := lowestFree s
    (∃ ps, ps.length = (⟨1, client, 0, attr, [], false⟩ : Cargo).pageCount ∧ kgetD Cargo.free t.mem.cargoes i =
      { state := 1, client := client, reuse := ((kgetD Cargo.free s.mem.cargoes i).reuse + 1) % 256, attr := attr, pages := ps
        zeroing := decide (field attr 20 1 ≤ 2) }) ∧
    (∀ k, k < cargoSpan → loadByte t.mem.home (i * cargoSpan + k) = 0 ∧ loadByte t.mem.cached (i * cargoSpan + k) = 0) ∧
    (progressOf t client).2 = (if field attr 20 1 ≤ 2 then 1 else 2) := by
  unfold createCargo
  dsimp only [setProgress, progressOf]
  rw [mem_ite_journalled]
  dsimp only
  refine ⟨⟨_, allocPages_length _ _, kgetD_kputD_same _ _ _ _⟩, fun k hk => ?_, ?_⟩
  · have hInside := And.intro (Nat.le_add_right (lowestFree s * cargoSpan) k) (Nat.add_lt_add_left hk (lowestFree s * cargoSpan))
    rw [loadByte_clearBytes, if_pos hInside, loadByte_clearBytes, if_pos hInside]
    exact ⟨rfl, rfl⟩
  · rw [kgetD_kput_same]
    simp

theorem freeEffect_of_passes {who : Who} {q : Bytes} {i : Nat} {c : Cargo} {ps : List Nat} {s : State} (h : OnCargo who q i c ps s)
    (hNamed : manifestNames s (field q 4 4) = false) (hImage : holdsImage s (field q 4 4) = false) :
    freeEffect who.client q s = (stOk, freeCargo who.client i s) :=
  onCargo_of_passes h (by simp [firstStatus, hNamed, hImage]) _

/-- The flash store forgets where the pages of a T3 cargo stand. -/
def mapForgotten (c : Cargo) (s : State) : State :=
  if c.tier = 3 then journalled (modFlash (fun f => { f with map := f.map.filter (fun e => !c.pages.any (fun p => p.frame == e.1)) }) s) else s

theorem mapForgotten_mem (c : Cargo) (s : State) : (mapForgotten c s).mem = s.mem := by
  unfold mapForgotten
  rw [apply_ite State.mem, journalled_mem]
  exact ite_self _

theorem kget_mapForgotten {c : Cargo} {p : PageEntry} (s : State) (hTier : c.tier = 3) (hp : p ∈ c.pages) :
    kget (mapForgotten c s).flash.map p.frame = none := by
  rw [mapForgotten, if_pos hTier, journalled_map]
  refine (kget_filter_key (fun k => !c.pages.any (fun p => p.frame == k)) s.flash.map p.frame).trans (if_neg ?_)
  simp only [Bool.not_eq_true', Bool.not_eq_false, List.any_eq_true]
  exact ⟨p, hp, beq_self_eq_true _⟩

/-- The record, the contents and the frames of a cargo are given back. -/
def recordFreed (i : Nat) (m : Mem) : Mem :=
  { m with
    cargoes := kmodD Cargo.free m.cargoes i (fun c => { Cargo.free with reuse := c.reuse })
    home := clearBytes m.home (i * cargoSpan) cargoSpan, cached := clearBytes m.cached (i * cargoSpan) cargoSpan
    cache := m.cache.filter (fun f => f.cargo != i) }

theorem freeCargo_eq (n i : Nat) (s : State) : freeCargo n i s =
    let u := mapForgotten (kgetD Cargo.free s.mem.cargoes i) s
    setProgress n (progressOf s n).1 2 (modHost (fun h => { h with
      windows := h.windows.filter (fun e => field e.2 0 4 % 65536 != i)
      windowsSet := h.windowsSet.filter (fun e => field e.2 0 4 % 65536 != i) }) { u with mem := recordFreed i s.mem }) := by
  unfold freeCargo
  dsimp only
  rw [← mapForgotten]
  simp only [mapForgotten_mem]
  rfl

/-- What a free leaves (R276, R465). -/
theorem freeCargo_frame (n i : Nat) (s : State) : let t := freeCargo n i s
    (kgetD Cargo.free t.mem.cargoes i).state = 0 ∧
    (kgetD Cargo.free t.mem.cargoes i).reuse = (kgetD Cargo.free s.mem.cargoes i).reuse ∧
    (∀ j, j ≠ i → kgetD Cargo.free t.mem.cargoes j = kgetD Cargo.free s.mem.cargoes j) ∧
    (∀ k, k < cargoSpan → loadByte t.mem.home (i * cargoSpan + k) = 0) ∧
    (∀ k, k < i * cargoSpan ∨ (i + 1) * cargoSpan ≤ k → loadByte t.mem.home k = loadByte s.mem.home k) ∧
    (∀ f ∈ t.mem.cache, f.cargo ≠ i) ∧ (∀ w ∈ t.host.windows ++ t.host.windowsSet, field w.2 0 4 % 65536 ≠ i) ∧
    ((kgetD Cargo.free s.mem.cargoes i).tier = 3 → ∀ p ∈ (kgetD Cargo.free s.mem.cargoes i).pages, kget t.flash.map p.frame = none) ∧
    (progressOf t n).2 = 2 := by
  rw [freeCargo_eq]
  dsimp only [setProgress, progressOf, modHost, recordFreed]
  refine ⟨?state, ?reuse, ?others, ?zero, ?outside, ?frames, ?windows, fun hTier p hp => kget_mapForgotten s hTier hp, ?progress⟩
  case state => rw [kgetD_kmodD_same]; rfl
  case reuse => rw [kgetD_kmodD_same]
  case others => exact fun j hj => kgetD_kmodD_other _ _ _ hj.symm
  case zero =>
    intro k hk
    rw [loadByte_clearBytes, if_pos ⟨Nat.le_add_right _ _, Nat.add_lt_add_left hk _⟩]
  case outside =>
    intro k hk
    rw [Nat.add_mul, Nat.one_mul] at hk
    rw [loadByte_clearBytes, if_neg (by omega)]
  case frames => exact fun f hf => by simpa using (List.mem_filter.mp hf).2
  case windows =>
    intro w hw
    rcases List.mem_append.mp hw with hw | hw <;> simpa using (List.mem_filter.mp hw).2
  case progress => rw [kgetD_kput_same]

/-! The end of a command (R277). -/

/-- A command whose work is over ends, and one that has pages left goes on. -/
def commandEnded (n h : Nat) (ok : Bool) (s : State) : State :=
  if (kget s.mem.working n).isSome then s
  else
    let s := setProgress n h (if ok then 2 else 3) s
    match cargoOf s h with
    | some (i, _) => if ok then modCargo i (fun c => { c with zeroing := false }) s else s
    | none => s

theorem exec_commandDone {n h : Nat} {ok : Bool} {s : State} (hRuns : firmwareRuns s = true) (hBusy : progressOf s n = (h, 1)) :
    exec (.cargoCommandDone n ok) s = .next (commandEnded n h ok (if ok then workOn n (kgetD [] s.mem.working n) s
      else { s with mem := { s.mem with working := kdel s.mem.working n } })) := by
  show execCargoCommandDone n ok s = _
  unfold execCargoCommandDone
  rw [hBusy]
  show done (if firmwareRuns s = false then s else commandEnded n h ok _) = _
  rw [hRuns]
  rfl

theorem commandEnded_eq (n h : Nat) (ok : Bool) (s : State) : ∃ m, commandEnded n h ok s = { s with mem := m } := by
  unfold commandEnded
  split
  · exact ⟨s.mem, rfl⟩
  · dsimp only
    split
    · cases ok <;> exact ⟨_, rfl⟩
    · exact ⟨_, rfl⟩

theorem commandEnded_mem (n h : Nat) (ok : Bool) (s : State) : SameBut [.mem] s (commandEnded n h ok s) := by
  obtain ⟨m, hEq⟩ := commandEnded_eq n h ok s
  rw [hEq]
  exact sameBut_mem s m

theorem commandEnded_frame {n h : Nat} (ok : Bool) {s : State} (hNone : (kget s.mem.working n).isSome = false) :
    progressOf (commandEnded n h ok s) n = (h, if ok then 2 else 3) ∧ (commandEnded n h ok s).mem.working = s.mem.working := by
  have hProgress : progressOf (setProgress n h (if ok then 2 else 3) s) n = (h, if ok then 2 else 3) := kgetD_kput_same _ _ _ _
  unfold commandEnded
  rw [hNone, if_neg (by decide)]
  dsimp only
  split
  · cases ok
    · exact ⟨hProgress, rfl⟩
    · exact ⟨hProgress, rfl⟩
  · exact ⟨hProgress, rfl⟩

/-- The zeroing of a cargo is over once its command has ended well. -/
theorem commandEnded_zeroed {n h i : Nat} {c : Cargo} {s : State} (hNone : (kget s.mem.working n).isSome = false)
    (hCargo : cargoOf s h = some (i, c)) : (kgetD Cargo.free (commandEnded n h true s).mem.cargoes i).zeroing = false := by
  have hStill : cargoOf (setProgress n h 2 s) h = some (i, c) := hCargo
  unfold commandEnded
  rw [hNone, if_neg (by decide)]
  dsimp only
  rw [if_pos rfl, hStill]
  dsimp only
  rw [if_pos rfl, modCargo, kgetD_kmodD_same]

/-! The patrol scrub (R268, R269). -/

theorem exec_scrubPass {kind unit : Nat} {fs : List ScrubFinding} {s : State} (hPower : powered s = true)
    (hDue : kgetD 0 s.mem.scrubbed (kind * 256 + unit) < scrubPeriods s) : exec (.scrubPass kind unit fs) s = .next (
      let v := fs.foldl (fun s f => if f.correctable then count (saggarCounter kind) unit 1 s else saggarLost kind unit f s) s
      count (saggarCounter kind + 2) unit 1
        { v with mem := { v.mem with scrubbed := kput v.mem.scrubbed (kind * 256 + unit) (scrubPeriods v) } }) :=
  congrArg Host.Outcome.next (if_neg (by simp [hPower, hDue]))

theorem exec_scrubPass_early {kind unit : Nat} (fs : List ScrubFinding) {s : State}
    (hEarly : scrubPeriods s ≤ kgetD 0 s.mem.scrubbed (kind * 256 + unit)) : exec (.scrubPass kind unit fs) s = .next s :=
  congrArg Host.Outcome.next (if_pos (.inr hEarly))

theorem saggarLost_owned {f : ScrubFinding} (kind unit : Nat) (s : State) (h : f.owner = 1) : saggarLost kind unit f s =
    breakCargo f.which (event evtSaggarUncorr (atInst unit) (le 4 f.frame ++ le 1 f.owner) (count (saggarCounter kind + 1) unit 1 s)) := by
  unfold saggarLost
  rw [h]
  rfl

theorem foldl_lost {kind unit : Nat} {f : ScrubFinding} (hLost : f.correctable = false) (hOwner : f.owner = 1) (s : State) :
    [f].foldl (fun s f => if f.correctable then count (saggarCounter kind) unit 1 s else saggarLost kind unit f s) s =
      breakCargo f.which (event evtSaggarUncorr (atInst unit) (le 4 f.frame ++ le 1 f.owner) (count (saggarCounter kind + 1) unit 1 s)) := by
  rw [← saggarLost_owned kind unit s hOwner]
  exact if_neg (by simp [hLost])

theorem breakCargo_state {i : Nat} {s : State} (h : (kgetD Cargo.free s.mem.cargoes i).state ≠ 0) :
    (kgetD Cargo.free (breakCargo i s).mem.cargoes i).state = 2 := by
  rw [breakCargo, modCargo, kgetD_kmodD_same, if_neg h]

/-- Corrected words are counted, and nothing else. -/
theorem foldl_corrected {kind unit : Nat} {fs : List ScrubFinding} (h : ∀ f ∈ fs, f.correctable = true) (s : State) :
    fs.foldl (fun s f => if f.correctable then count (saggarCounter kind) unit 1 s else saggarLost kind unit f s) s =
      fs.foldl (fun v _ => count (saggarCounter kind) unit 1 v) s := by
  induction fs generalizing s with
  | nil => rfl
  | cons f fs ih =>
    rw [List.foldl_cons, List.foldl_cons, if_pos (h f List.mem_cons_self)]
    exact ih (fun x hx => h x (List.mem_cons_of_mem _ hx)) _

theorem foldl_counts {α : Type} (index unit : Nat) (fs : List α) (s : State) :
    ∃ c, fs.foldl (fun v _ => count index unit 1 v) s = { s with ctr := c } := by
  induction fs generalizing s with
  | nil => exact ⟨s.ctr, rfl⟩
  | cons f fs ih => exact ih _

end Sys2Proof.Machine

open Sys2Proof Sys2Proof.Machine

/-- Settles O41: creates and frees at their records, the end of a command, a retried write-home, and the scrub's passes and findings. -/
theorem cargoesAreCreatedFreedAndScrubbed : Obligations.CargoesAreCreatedFreedAndScrubbed := by
  unfold Obligations.CargoesAreCreatedFreedAndScrubbed
  refine ⟨⟨?create, ?free, ?freed⟩, ?ended, ?retry, ?scrub, ?broken⟩
  case create =>
    intro who b s q a attr i hPasses hFree hZero hHandle hChecks
    have hChecks' : firstStatus (attrChecks (begun who a s) who.client attr [] ++
        createChecks (begun who a s) ⟨1, who.client, 0, attr, [], false⟩) = stOk := by
      rw [begun, createChecks_dropPartial]
      exact hChecks
    obtain ⟨⟨ps, hLength, hRecord⟩, hZeros, hProgress⟩ := createCargo_frame who.client attr (begun who a s)
    refine ⟨createCargo who.client attr (begun who a s),
      askCargo_of_effect hPasses (createEffect_of_passes (s := begun who a s) hFree hZero hHandle hChecks'), ?_⟩
    have hRecord' : kgetD Cargo.free (createCargo who.client attr (begun who a s)).mem.cargoes i = _ := hRecord
    rw [hRecord']
    exact ⟨rfl, rfl, rfl, rfl, hLength, hZeros, hProgress⟩
  case free =>
    intro who b i c ps s q a hPasses hOn hNamed hImage
    exact askCargo_of_effect hPasses (freeEffect_of_passes (onCargo_begun hOn a) hNamed hImage)
  case freed => exact freeCargo_frame
  case ended =>
    intro n h s hRuns hBusy u
    have hDone := exec_commandDone (ok := true) hRuns hBusy
    refine ⟨?failed, fun hLeft => ?_, fun hNone => ⟨commandEnded n h true u, hDone, (commandEnded_frame true hNone).1, fun i c hCargo =>
      commandEnded_zeroed hNone hCargo, commandEnded_mem n h true u⟩⟩
    case failed =>
      have hGone : (kget (kdel s.mem.working n) n).isSome = false := by rw [kget_kdel_same]; rfl
      refine ⟨_, exec_commandDone (ok := false) hRuns hBusy, (commandEnded_frame false hGone).1, ?_, ?_⟩
      · rw [(commandEnded_frame false hGone).2]
        exact kget_kdel_same _ _
      · exact (sameBut_mem s _).trans (commandEnded_mem n h false _)
    · rw [hDone, commandEnded]
      exact congrArg _ (if_pos hLeft)
  case retry =>
    intro stack frame f s hPower hFound
    refine ⟨?runs, fun h3 hHere _ hCached => ?written⟩
    case runs =>
      show execWritehomeRetry stack frame s = _
      unfold execWritehomeRetry
      rw [hFound]
      exact congrArg done (if_pos hPower)
    case written =>
      by_cases h4 : (kgetD Cargo.free s.mem.cargoes f.cargo).tier = 4
      · rw [writeHomeFrame_host h4 hHere]
        exact ⟨fun k hk => loadByte_homeWritten (s := emit _ s) hCached hk, fun _ => ⟨_, rfl⟩, fun x => clean_of_homeWritten⟩
      · rw [writeHomeFrame_elsewhere h3 h4]
        exact ⟨fun k hk => loadByte_homeWritten hCached hk, fun h => absurd h h4, fun x => clean_of_homeWritten⟩
  case scrub =>
    intro kind unit fs s hPower k
    refine ⟨exec_scrubPass_early fs, fun hDue hAll => ?_⟩
    rw [exec_scrubPass hPower hDue, foldl_corrected hAll]
    obtain ⟨c, hCounted⟩ := foldl_counts (saggarCounter kind) unit fs s
    rw [hCounted]
    rfl
  case broken =>
    intro kind unit f s hPower hLost hOwner hDue
    have hExec := exec_scrubPass (fs := [f]) hPower hDue
    rw [foldl_lost hLost hOwner] at hExec
    refine ⟨_, hExec, ?_, fun hState => ?_, ?_, sameBut_of_exec (by simp) hExec⟩
    · show (event _ _ _ _).led.events = _
      rw [event_led]
      rfl
    · refine breakCargo_state (s := event _ _ _ _) ?_
      rw [event_mem]
      exact hState
    · show (event _ _ _ _).mem.home = _
      rw [event_mem]
      rfl
end

section
/-! The flash store: programming, its journal, and the maintenance of its block sets (R315-R327). -/

namespace Sys2Proof.Machine

/-! The die that takes the next program (R319, R321). -/

theorem nextDie_source {f : Flash} {die b : Nat} (h : nextDie f = some (die, b)) :
    die < 96 ∧ (kget f.openSets die = some b ∨ kget f.openSets die = none ∧ pickErased f die = some b) := by
  obtain ⟨k, -, hFound⟩ := List.exists_of_findSome?_eq_some h
  obtain ⟨b', hSet, hPair⟩ := Option.map_eq_some_iff.mp hFound
  obtain ⟨rfl, rfl⟩ := Prod.mk.inj hPair
  refine ⟨Nat.mod_lt _ (by decide), ?_⟩
  cases hOpen : kget f.openSets ((f.nextDie + k) % 96) with
  | none =>
    rw [hOpen] at hSet
    exact .inr ⟨rfl, hSet⟩
  | some c =>
    rw [hOpen] at hSet
    exact .inl hSet

/-! The journal (R320). -/

theorem journalled_flash (s : State) : ∃ d sh, (journalled s).flash = { s.flash with
    journal := (if journalLimit s ≤ s.flash.journal then 0 else s.flash.journal) + Config.journalRecord, dirty := d, shadow := sh } := by
  unfold journalled
  by_cases h : journalLimit s ≤ s.flash.journal
  · rw [if_pos h, if_pos h]
    exact ⟨_, _, rfl⟩
  · rw [if_neg h, if_neg h]
    exact ⟨_, _, rfl⟩

/-! A page is programmed (R318-R320). -/

/-- A page stands at the next location of a set of a die. -/
def pageLocated (page die b : Nat) (f : Flash) : Flash :=
  let x := setOf f b
  let full := x.next + 1 = 1024
  let f := putSet b { x with state := if full then 2 else 1, next := x.next + 1 } f
  { f with
    openSets := if full then kdel f.openSets die else kput f.openSets die b
    nextDie := (die + 1) % 96
    map := kput f.map page (b, x.next), dirty := f.dirty + 1 }

theorem programPage_of_die {page die b : Nat} {s : State} (h : nextDie s.flash = some (die, b)) : programPage page s =
    count 0x5701 (channelOf b) 1 { journalled s with flash := pageLocated page die b (journalled s).flash } := by
  unfold programPage
  rw [h]
  rfl

theorem programPage_full {page : Nat} {s : State} (h : nextDie s.flash = none) : programPage page s = s := by
  unfold programPage
  rw [h]

theorem setOf_putSet_same (b : Nat) (x : BlockSet) (f : Flash) : setOf (putSet b x f) b = x := kgetD_kputD_same _ _ _ _

/-- What programming a page leaves in the flash store. -/
theorem programPage_frame {page die b : Nat} {s : State} (h : nextDie s.flash = some (die, b)) : let f := (programPage page s).flash
    f.nextDie = (die + 1) % 96 ∧ f.map = kput s.flash.map page (b, (setOf s.flash b).next) ∧
    setOf f b = { setOf s.flash b with state := if (setOf s.flash b).next + 1 = 1024 then 2 else 1, next := (setOf s.flash b).next + 1 } ∧
    f.journal = (if journalLimit s ≤ s.flash.journal then 0 else s.flash.journal) + Config.journalRecord ∧ f.stores = s.flash.stores := by
  obtain ⟨d, sh, hJournal⟩ := journalled_flash s
  rw [programPage_of_die h]
  dsimp only [count]
  rw [hJournal]
  exact ⟨rfl, rfl, setOf_putSet_same _ _ _, rfl, rfl⟩

theorem programPage_reserve (page : Nat) (s : State) :
    (programPage page s).flash.bad = s.flash.bad ∧ (programPage page s).flash.state = s.flash.state := by
  cases h : nextDie s.flash with
  | none =>
    rw [programPage_full h]
    exact ⟨rfl, rfl⟩
  | some e =>
    obtain ⟨die, b⟩ := e
    obtain ⟨d, sh, hJournal⟩ := journalled_flash s
    rw [programPage_of_die h]
    dsimp only [count]
    rw [hJournal]
    exact ⟨rfl, rfl⟩

/-! A page is read (R317). -/

/-- A read counts against the page's block set; what else it does is counted. -/
theorem exec_flashPageRead {page b k : Nat} (retries : Nat) (bad : Bool) {s : State} (hMap : kget s.flash.map page = some (b, k)) :
    ∃ t, exec (.flashPageRead page retries bad) s = .next t ∧
      t.flash = putSet b { setOf s.flash b with reads := (setOf s.flash b).reads + 1 } s.flash := by
  show ∃ t, execFlashPageRead page retries bad s = _ ∧ _
  unfold execFlashPageRead
  rw [hMap]
  dsimp only
  refine ⟨_, rfl, ?_⟩
  simp only [apply_ite State.flash, modFlash, count_flash, ite_self]

/-! A store gives up a programmed page. -/

theorem sumNat_filter_of_zero {α : Type} (size : α → Nat) {p : α → Bool} (h : ∀ x, p x = false → size x = 0) (l : List α) :
    sumNat ((l.filter p).map size) = sumNat (l.map size) := by
  induction l with
  | nil => rfl
  | cons x l ih =>
    rw [List.filter_cons, List.map_cons, sumNat_cons]
    cases hp : p x with
    | true => rw [if_pos rfl, List.map_cons, sumNat_cons, ih]
    | false => rw [if_neg (by decide), ih, h x hp, Nat.zero_add]

/-- The oldest committed page leaves the first store that has committed it, and nothing else of the stores changes. -/
theorem sumNat_go (rest : FlashStore → Nat) (hRest : ∀ x c, rest { x with committed := c } = rest x) {page : Nat} {stores : List FlashStore}
    (h : (stores.flatMap (·.committed)).head? = some page) :
    sumNat ((dropProgrammed.go page stores).map (fun x => rest x + x.committed.length)) + 1 =
      sumNat (stores.map (fun x => rest x + x.committed.length)) := by
  induction stores with
  | nil => simp at h
  | cons x r ih =>
    rw [dropProgrammed.go]
    by_cases hHere : x.committed.contains page = true
    · have hMem : page ∈ x.committed := List.contains_iff_mem.mp hHere
      have hLength := List.length_erase_of_mem hMem
      have hPos := List.length_pos_of_mem hMem
      rw [if_pos hHere, List.map_cons, List.map_cons, sumNat_cons, sumNat_cons, hRest]
      dsimp only
      omega
    · have hEmpty : x.committed = [] := by
        cases hCommitted : x.committed with
        | nil => rfl
        | cons p ps =>
          rw [List.flatMap_cons, hCommitted, List.cons_append, List.head?_cons] at h
          rw [hCommitted, Option.some.inj h] at hHere
          exact absurd (List.contains_iff_mem.mpr List.mem_cons_self) hHere
      rw [List.flatMap_cons, hEmpty, List.nil_append] at h
      have := ih h
      rw [if_neg hHere, List.map_cons, List.map_cons, sumNat_cons, sumNat_cons]
      omega

/-- A store that leaves has no page admitted or committed. -/
theorem empty_of_done {x : FlashStore} (hx : (!(x.waiting.isEmpty && x.admitted.isEmpty && x.committed.isEmpty)) = false) :
    x.admitted = [] ∧ x.committed = [] := by
  simp only [Bool.not_eq_false', Bool.and_eq_true, List.isEmpty_iff] at hx
  exact ⟨hx.1.2, hx.2⟩

theorem outstandingPages_dropProgrammed {page : Nat} {f : Flash} (h : nextCommitted f = some page) :
    outstandingPages (dropProgrammed page f) + 1 = outstandingPages f := by
  unfold outstandingPages dropProgrammed
  dsimp only
  rw [sumNat_filter_of_zero (fun x : FlashStore => x.admitted.length + x.committed.length),
    sumNat_go (fun x => x.admitted.length) (fun _ _ => rfl) h]
  intro x hx
  obtain ⟨hAdmitted, hCommitted⟩ := empty_of_done hx
  rw [hAdmitted, hCommitted]
  rfl

theorem programNext_of_page {page die b : Nat} {s : State} (hPage : nextCommitted s.flash = some page) (hDie : nextDie s.flash = some (die, b)) :
    programNext s = modFlash (dropProgrammed page) (programPage page s) := by
  unfold programNext
  rw [hPage, hDie]
  rfl

theorem programNext_idle {s : State} (h : nextCommitted s.flash = none ∨ nextDie s.flash = none) : programNext s = s := by
  unfold programNext
  cases hPage : nextCommitted s.flash with
  | none => rfl
  | some page => rw [h.resolve_left (by simp [hPage])]; rfl

/-! Block sets (R321, R322). -/

theorem eraseSet_of_empty {b : Nat} {s : State} (h : validPages s.flash b = []) :
    setOf (eraseSet b s).flash b = ⟨0, (setOf s.flash b).erases + 1, 0, 0⟩ ∧
    (∀ c, c ≠ b → setOf (eraseSet b s).flash c = setOf s.flash c) ∧ (eraseSet b s).flash.map = s.flash.map := by
  have hFlash : (eraseSet b s).flash.sets = kputD BlockSet.fresh s.flash.sets b ⟨0, (setOf s.flash b).erases + 1, 0, 0⟩ ∧
      (eraseSet b s).flash.map = s.flash.map := by
    unfold eraseSet
    dsimp only
    rw [if_neg (not_not_intro h)]
    exact ⟨rfl, rfl⟩
  obtain ⟨hSets, hMap⟩ := hFlash
  refine ⟨?_, fun c hc => ?_, hMap⟩
  · rw [setOf, hSets, kgetD_kputD_same]
  · rw [setOf, hSets, kgetD_kputD_other _ _ _ hc.symm, setOf]

/-- The pages of a set that fails stand elsewhere, and the bad block table names it. -/
def setRetired (b : Nat) (s : State) : State :=
  modFlash (fun f => { putSet b { setOf f b with state := 3 } f with bad := f.bad ++ [b] })
    ((validPages s.flash b).foldl (fun s p => programPage p s) (closeSet b s))

/-- The reserve is judged by the sets that are left of it. -/
def reserveJudged (left : Nat) (s : State) : State :=
  let s := if left < 1024 ∧ s.flash.state = 0 then event evtFlashReserveLow nowhere [] (modFlash (fun f => { f with state := 1 }) s) else s
  if left < 256 ∧ s.flash.state = 1 then event evtFlashReadOnly nowhere [] (modFlash (fun f => { f with state := 2 }) s) else s

theorem exec_blockRetire {b : Nat} {s : State} (hSet : b < blockSets) (hState : (setOf s.flash b).state ≠ 3) :
    exec (.blockRetire b) s = .next (
      let u := event evtBlockRetired (atInst (channelOf b)) (le 4 b) (count 0x502B 0 1 (setRetired b s))
      reserveJudged (16384 - u.flash.bad.length) u) :=
  congrArg done (if_neg (by omega))

theorem setRetired_frame (b : Nat) (s : State) : let f := (setRetired b s).flash
    (setOf f b).state = 3 ∧ f.bad = s.flash.bad ++ [b] ∧ f.state = s.flash.state := by
  have hBad := foldl_field (g := fun s => s.flash.bad) (fun s p => (programPage_reserve p s).1) (validPages s.flash b) (closeSet b s)
  have hState := foldl_field (g := fun s => s.flash.state) (fun s p => (programPage_reserve p s).2) (validPages s.flash b) (closeSet b s)
  refine ⟨?_, congrArg (· ++ [b]) hBad, hState⟩
  unfold setRetired setOf
  dsimp only [modFlash, putSet]
  rw [kgetD_kputD_same]

/-- The state of the store by what is left of its reserve. -/
def reserveState (left state : Nat) : Nat :=
  let state := if left < 1024 ∧ state = 0 then 1 else state
  if left < 256 ∧ state = 1 then 2 else state

theorem reserveState_enough {left : Nat} (h : 1024 ≤ left) : reserveState left 0 = 0 := by
  unfold reserveState
  simp [Nat.not_lt.mpr h]

theorem reserveState_low {left : Nat} (h : 256 ≤ left) (h' : left < 1024) : reserveState left 0 = 1 := by
  unfold reserveState
  simp [Nat.not_lt.mpr h, h']

theorem reserveState_few {left state : Nat} (h : left < 256) (hState : state ≤ 1) : reserveState left state = 2 := by
  have hLow : left < 1024 := by omega
  unfold reserveState
  obtain rfl | rfl : state = 0 ∨ state = 1 := by omega
  · simp [h, hLow]
  · simp [h]

theorem reserveJudged_flash (left : Nat) (s : State) :
    (reserveJudged left s).flash = { s.flash with state := reserveState left s.flash.state } := by
  unfold reserveJudged reserveState
  by_cases hLow : left < 1024 ∧ s.flash.state = 0
  · rw [if_pos hLow, if_pos hLow]
    dsimp only
    rw [event_flash, apply_ite State.flash, event_flash]
    by_cases hFew : left < 256
    · rw [if_pos ⟨hFew, rfl⟩, if_pos ⟨hFew, rfl⟩]
      dsimp only [modFlash]
      rw [event_flash]
    · rw [if_neg (fun h => hFew h.1), if_neg (fun h => hFew h.1), event_flash]
      rfl
  · rw [if_neg hLow, if_neg hLow]
    dsimp only
    rw [apply_ite State.flash, event_flash]
    by_cases hFew : left < 256 ∧ s.flash.state = 1
    · rw [if_pos hFew, if_pos hFew]
      rfl
    · rw [if_neg hFew, if_neg hFew]

end Sys2Proof.Machine

open Sys2Proof Sys2Proof.Machine

/-- Settles O42: what programming a page, reading one and retiring a set leave, and when each kind of maintenance moves which set. -/
theorem flashIsProgrammedAndMaintained : Obligations.FlashIsProgrammedAndMaintained := by
  unfold Obligations.FlashIsProgrammedAndMaintained
  refine ⟨⟨?program, ?die, ?idle, ?checkpoint, ?read, fun _ _ => rfl⟩, ?collect, ?level, ?disturb, ?held, ?erase, ?retire⟩
  case program =>
    intro page die b s hPage hDie x
    obtain ⟨hNext, hMap, hSet, hJournal, hStores⟩ := programPage_frame (page := page) hDie
    have hExec : exec .flashProgram s = .next (programNext s) := rfl
    have hCommitted : nextCommitted (programPage page s).flash = some page := by
      rw [nextCommitted, hStores]
      exact hPage
    have hLeft := outstandingPages_dropProgrammed hCommitted
    rw [programNext_of_page hPage hDie] at hExec
    refine ⟨_, hExec, hNext, ?_, fun p hp => ?_, hSet, hJournal, ?_, (sameBut_of_exec (by simp) hExec).mono (by simp [touches])⟩
    · show kget (programPage page s).flash.map page = _
      rw [hMap, kget_kput_same]
    · show kget (programPage page s).flash.map p = _
      rw [hMap, kget_kput_other _ _ hp.symm]
    · refine hLeft.trans ?_
      rw [outstandingPages, hStores, outstandingPages]
  case die => exact fun die b s hDie => nextDie_source hDie
  case idle => exact fun s h => congrArg done (programNext_idle h)
  case checkpoint => exact fun s h => congrArg done (if_pos h)
  case read =>
    intro page retries b k bad s hMap
    obtain ⟨t, hExec, hFlash⟩ := exec_flashPageRead retries bad hMap
    refine ⟨t, hExec, ?_, ?_, (sameBut_of_exec (by simp) hExec).mono (by simp [touches])⟩
    · rw [hFlash]
      exact setOf_putSet_same _ _ _
    · rw [hFlash]
      rfl
  case collect =>
    intro b s hSequence hFew hLeast
    show execGarbageCollection s = _
    unfold execGarbageCollection
    rw [if_pos ⟨by simp [maintaining, hSequence], hFew⟩, hLeast]
    rfl
  case level =>
    intro b s hSequence es hSpread hLeast
    show execStaticWearLevelling s = _
    unfold execStaticWearLevelling
    dsimp only
    rw [if_pos ⟨by simp [maintaining, hSequence], hSpread⟩, hLeast]
    rfl
  case disturb =>
    intro b s hSequence hReads hState
    exact congrArg done (if_pos ⟨by simp [maintaining, hSequence], hReads, hState⟩)
  case held =>
    intro b s hSequence
    have hHeld : ¬maintaining s = true := by simpa [maintaining] using hSequence
    exact ⟨congrArg done (if_neg (fun h => hHeld h.1)), congrArg done (if_neg (fun h => hHeld h.1)), congrArg done (if_neg (fun h => hHeld h.1))⟩
  case erase => exact fun b s => eraseSet_of_empty
  case retire =>
    intro b s hSet hState
    have hExec := exec_blockRetire hSet hState
    obtain ⟨hRetired, hBad, hKept⟩ := setRetired_frame b s
    refine ⟨_, hExec, ?_, ?_, ?_, ?_, ?_, (sameBut_of_exec (by simp) hExec).mono (by simp [touches])⟩
    all_goals dsimp only; rw [reserveJudged_flash, event_flash, count_flash]
    · exact hRetired
    · exact hBad
    all_goals
      dsimp only
      rw [hBad, hKept, List.length_append, List.length_singleton]
    · intro hMany hSound
      rw [hSound, reserveState_enough (by omega)]
    · intro hLow hMany hSound
      rw [hSound, reserveState_low (by omega) (by omega)]
    · intro hFew hSound
      exact reserveState_few (by omega) hSound
end

section
/-! The hold-up bank and the input: samples and load tests, the loss of the input, and the hold-up sequence to its record
(R323, R324, R327-R330, R499-R503, R511). -/

namespace Sys2Proof.Machine

/-! A change of the supply signals vector 3 of the host port, and nothing else. -/

theorem supplySignal_sameBut (before s : State) : SameBut [.out, .host] s (supplySignal before s) := by
  unfold supplySignal
  split
  · exact (signal_keeps 0 3 (.refl (· ∉ [Part.out, Part.host]) s) (by simp) (by simp)).sameBut
  · exact (Keeps.refl (· ∉ [Part.out, Part.host]) s).sameBut

@[simp] theorem supplySignal_power (before s : State) : (supplySignal before s).power = s.power :=
  (supplySignal_sameBut before s).2 .power (by simp)

@[simp] theorem supplySignal_led (before s : State) : (supplySignal before s).led = s.led :=
  (supplySignal_sameBut before s).2 .led (by simp)

@[simp] theorem supplySignal_mem (before s : State) : (supplySignal before s).mem = s.mem :=
  (supplySignal_sameBut before s).2 .mem (by simp)

@[simp] theorem supplySignal_flash (before s : State) : (supplySignal before s).flash = s.flash :=
  (supplySignal_sameBut before s).2 .flash (by simp)

/-! A sample of the bank (R323, R324). -/

/-- The voltage sampled is kept, and the admissible pages are computed with it. -/
def bankSampled (volts : Word) (s : State) : State :=
  let u := modPower (fun p => { p with
    bankVolts := volts, reached55 := p.reached55 || !flt (f32 volts) (fnat 55) && !fisNan (f32 volts) }) s
  modPower (fun p => { p with admissible := admissibleUnder (journalLimit u) u }) u

/-! The load test (R323). -/

theorem exec_loadTest {s : State} (hInput : s.power.input = 0) (hIdle : s.power.testing = false) (hReached : s.power.reached55 = true)
    (hDue : s.power.tested = false ∨ s.power.lastTest + setting s 0x130E 0 * 1700000000 ≤ s.clock) :
    exec .loadTest s = .next (supplySignal s (startTest s)) :=
  congrArg done (if_pos ⟨hInput, hIdle, hReached, hDue⟩)

theorem exec_loadTest_lost {s : State} (hInput : s.power.input ≠ 0) : exec .loadTest s = .next s :=
  congrArg done (if_neg (fun h => hInput h.1))

theorem startTest_power (before s : State) :
    (supplySignal before (startTest s)).power = { s.power with testing := true, holdup := 1, lastTest := s.clock } := supplySignal_power _ _

theorem loadTestEffect_of_idle {s : State} (hIdle : s.power.testing = false) (hInput : s.power.input = 0) :
    loadTestEffect s = (stOk, supplySignal s (startTest s)) :=
  checked_of_ok (by simp [firstStatus, hIdle, hInput]) _ _

theorem rows_loadTest : ∀ r ∈ objRows, r.index = 0x130D → r.access = .wo := by decide +kernel

/-- The capacitance that a drop of the bank's voltage gives. -/
def capacitanceOf (drop : Word) : Word := toF32 (fdiv (f32 (f32OfRat (4 / 5))) (f32 drop))

/-- A bank is weak below the capacitance of 1310.00. -/
def bankWeak (drop : Word) (s : State) : Bool := flt (f32 (capacitanceOf drop)) (f32 (BitVec.ofNat 32 (setting s 0x1310 0)))

/-- The bank as a test leaves it before it is judged. -/
def bankMeasured (drop : Word) (s : State) : State :=
  modPower (fun p => { p with testing := false, tested := true, capacitance := capacitanceOf drop, holdup := 2 }) s

/-- A weak bank is reported. -/
def bankJudged (drop : Word) (s : State) : State :=
  if bankWeak drop s then event evtHoldupWeak nowhere [] (modPower (fun p => { p with holdup := 3 }) (bankMeasured drop s)) else bankMeasured drop s

/-- A bank that admits no page has failed. -/
def bankTested (drop : Word) (s : State) : State :=
  let u := bankJudged drop s
  if admissibleUnder (journalLimit s) { s with power := { s.power with capacitance := capacitanceOf drop } } = 0 then
    event evtHoldupFail nowhere [] (modPower (fun p => { p with holdup := 4 }) u) else u

theorem bankJudged_frame (drop : Word) (s : State) :
    (bankJudged drop s).power = { s.power with
      testing := false, tested := true, capacitance := capacitanceOf drop, holdup := if bankWeak drop s then 3 else 2 } ∧
    (bankJudged drop s).flash = s.flash ∧ (bankJudged drop s).dict = s.dict ∧
    (bankWeak drop s = true → (bankJudged drop s).led.events = (s.led.events + 1) % 2 ^ 64) ∧
    (bankWeak drop s = false → (bankJudged drop s).led = s.led) := by
  unfold bankJudged
  cases bankWeak drop s with
  | true =>
    rw [if_pos rfl, if_pos rfl, event_power, event_flash, event_dict, event_led]
    exact ⟨rfl, rfl, rfl, fun _ => rfl, fun h => absurd h (by decide)⟩
  | false =>
    rw [if_neg (by decide), if_neg (by decide)]
    exact ⟨rfl, rfl, rfl, fun h => absurd h (by decide), fun _ => rfl⟩

/-- What can be admitted depends on the bank, the flash store and the values in use. -/
theorem admissibleUnder_congr {limit : Nat} {s t : State} (hVolts : t.power.bankVolts = s.power.bankVolts)
    (hCapacitance : t.power.capacitance = s.power.capacitance) (hFlash : t.flash = s.flash) (hDict : t.dict = s.dict) :
    admissibleUnder limit t = admissibleUnder limit s := by
  unfold admissibleUnder deratedEnergy setting inUse
  rw [hVolts, hCapacitance, hFlash, hDict]

theorem exec_loadTestDone {drop : Word} {s : State} (hTest : s.power.testing = true) :
    exec (.loadTestDone drop) s = .next (supplySignal s (bankTested drop s)) := by
  obtain ⟨hPower, hFlash, hDict, -⟩ := bankJudged_frame drop s
  have hLimit : journalLimit (bankJudged drop s) = journalLimit s := by
    unfold journalLimit setting inUse
    rw [hDict]
  have hSame : admissibleUnder (journalLimit (bankJudged drop s)) (bankJudged drop s) =
      admissibleUnder (journalLimit s) { s with power := { s.power with capacitance := capacitanceOf drop } } := by
    rw [hLimit]
    exact admissibleUnder_congr (by rw [hPower]) (by rw [hPower]) hFlash hDict
  have hExec : exec (.loadTestDone drop) s = .next (supplySignal s
      (if admissibleUnder (journalLimit (bankJudged drop s)) (bankJudged drop s) = 0 then
        event evtHoldupFail nowhere [] (modPower (fun p => { p with holdup := 4 }) (bankJudged drop s)) else bankJudged drop s)) :=
    congrArg done (if_pos hTest)
  rw [hExec, hSame]
  rfl

/-- What a load test leaves of the bank and of the event ledger. -/
theorem bankTested_frame (drop : Word) (s : State) :
    let none := admissibleUnder (journalLimit s) { s with power := { s.power with capacitance := capacitanceOf drop } } = 0
    (bankTested drop s).power = { s.power with
      testing := false, tested := true, capacitance := capacitanceOf drop, holdup := if none then 4 else if bankWeak drop s then 3 else 2 } ∧
    ((bankTested drop s).power.holdup = 2 → (bankTested drop s).led = s.led) ∧
    ((bankTested drop s).power.holdup = 3 → (bankTested drop s).led.events = (s.led.events + 1) % 2 ^ 64) := by
  obtain ⟨hPower, -, -, hWeak, hSound⟩ := bankJudged_frame drop s
  unfold bankTested
  dsimp only
  by_cases hNone : admissibleUnder (journalLimit s) { s with power := { s.power with capacitance := capacitanceOf drop } } = 0
  · rw [if_pos hNone, if_pos hNone, event_power]
    dsimp only [modPower]
    rw [hPower]
    exact ⟨rfl, fun h => absurd h (by decide), fun h => absurd h (by decide)⟩
  · rw [if_neg hNone, if_neg hNone, hPower]
    refine ⟨rfl, fun h => hSound ?_, fun h => hWeak ?_⟩
    · cases hBank : bankWeak drop s with
      | true => rw [hBank] at h; exact absurd h (by simp)
      | false => rfl
    · cases hBank : bankWeak drop s with
      | true => rfl
      | false => rw [hBank] at h; exact absurd h (by simp)

end Sys2Proof.Machine

open Sys2Proof Sys2Proof.Machine

/-- Settles O43: what a sample and a load test leave of the bank, and when a test starts. -/
theorem bankIsSampledAndTested : Obligations.BankIsSampledAndTested := by
  unfold Obligations.BankIsSampledAndTested
  refine ⟨?sample, ?starts, ?lost, ?asked, ?tested⟩
  case sample =>
    intro v s
    have hExec : exec (.bankSample v) s = .next (bankSampled v s) := rfl
    exact ⟨_, hExec, rfl, fun h => by simp [bankSampled, modPower, h], rfl, (sameBut_of_exec (by simp) hExec).mono (by simp [touches])⟩
  case starts =>
    intro s hInput hIdle hReached hDue
    have hExec := exec_loadTest hInput hIdle hReached hDue
    exact ⟨_, hExec, startTest_power s s, sameBut_of_exec (by simp) hExec⟩
  case lost => exact fun s hInput => exec_loadTest_lost hInput
  case asked =>
    intro who s hPasses hIdle hInput
    exact ⟨_, askWrite_of_command hPasses rows_loadTest (by decide) (by decide +kernel) (by decide) (by decide) (by decide)
      (loadTestEffect_of_idle hIdle hInput), startTest_power s s⟩
  case tested =>
    intro d s hTest
    have hExec := exec_loadTestDone (drop := d) hTest
    obtain ⟨hPower, hLed, hEvent⟩ := bankTested_frame d s
    refine ⟨_, hExec, ?_⟩
    rw [supplySignal_power, supplySignal_led]
    refine ⟨by rw [hPower], by rw [hPower], by rw [hPower]; rfl, ?_, hLed, hEvent, sameBut_of_exec (by simp) hExec⟩
    rw [hPower]
    rfl
end

section
/-! The input and its loss, and the hold-up sequence to its record (R327-R329, R499-R503, R511). -/

namespace Sys2Proof.Machine

/-! The loss of the input (R327, R500, R503). -/

theorem linkIsUp_of_none {s : State} (h : s.net = Net.reset) (l : Nat) : linkIsUp s l = false := by
  rw [linkIsUp, linkOf, h]
  rfl

theorem nothingRuns_stopDie (s : State) : NothingRuns (stopDie s) := ⟨rfl, rfl, rfl, rfl, rfl, rfl, rfl, linkIsUp_of_none rfl⟩

/-- The supply as a loss of the input is declared. -/
def lossNoted (cause : Nat) (s : State) : State := modPower (fun p => { p with
    input := 2, holdup := 5, sequence := 1, cause := cause, beatAtLoss := s.beat.count
    pagesAtLoss := outstandingPages s.flash, programmed := 0, journalLost := false, testing := false }) s

theorem declareLoss_of_running {s : State} (cause : Nat) (hInput : s.power.input ≠ 2) (hIdle : s.power.sequence = 0) :
    declareLoss cause s = stopDie (supplySignal s (lossNoted cause s)) := if_neg (by simp [hInput, hIdle])

theorem declareLoss_frame {s : State} (cause : Nat) (hInput : s.power.input ≠ 2) (hIdle : s.power.sequence = 0) :
    (declareLoss cause s).power = { s.power with
      input := 2, holdup := 5, sequence := 1, cause := cause, beatAtLoss := s.beat.count
      pagesAtLoss := outstandingPages s.flash, programmed := 0, journalLost := false, testing := false } ∧
    NothingRuns (declareLoss cause s) ∧ (declareLoss cause s).mem = s.mem ∧ (declareLoss cause s).flash = s.flash := by
  rw [declareLoss_of_running cause hInput hIdle]
  exact ⟨supplySignal_power _ _, nothingRuns_stopDie _, supplySignal_mem _ _, supplySignal_flash _ _⟩

theorem admissiblePages_of_lost {s : State} (h : s.power.input ≠ 0) : admissiblePages s = 0 := if_pos (.inl h)

theorem exec_switchOpened {c : Instr} (s : State) (h : c = .inputOvervoltage ∨ c = .overcurrent) : exec c s = .next (openSwitch s) := by
  rcases h with rfl | rfl <;> rfl

theorem openSwitch_frame {s : State} (hInput : s.power.input ≠ 2) (hIdle : s.power.sequence = 0) :
    (openSwitch s).power.switchOpen = true ∧ (openSwitch s).power.input = 2 ∧ (openSwitch s).power.sequence = 1 ∧
    (openSwitch s).power.cause = 1 ∧ (openSwitch s).power.pagesAtLoss = outstandingPages s.flash ∧ NothingRuns (openSwitch s) := by
  obtain ⟨hPower, hNothing, -⟩ := declareLoss_frame (s := modPower (fun p => { p with switchOpen := true }) s) 1 hInput hIdle
  unfold openSwitch
  rw [hPower]
  exact ⟨rfl, rfl, rfl, rfl, rfl, hNothing⟩

theorem smbusRead_of_supplied {offset n : Nat} {s : State} (h : s.power.input ≠ 2 ∨ (1 ≤ s.power.sequence ∧ s.power.sequence ≤ 3)) :
    smbusRead 0x50 offset n s = some ((List.range n).map (fun k => s.sys.fru.getD ((offset + k) % 2048) 0)) := by
  refine if_pos ⟨rfl, ?_⟩
  simpa [managementPowered] using h

/-! The committed pages are programmed (R327). -/

/-- The pages that the stores have committed. -/
def committedPages (f : Flash) : Nat := sumNat (f.stores.map (fun x => 0 + x.committed.length))

theorem committedPages_eq (f : Flash) : committedPages f = (f.stores.flatMap (·.committed)).length := by
  unfold committedPages
  induction f.stores with
  | nil => rfl
  | cons x r ih => rw [List.map_cons, sumNat_cons, ih, List.flatMap_cons, List.length_append, Nat.zero_add]

theorem nextCommitted_of_none {f : Flash} (h : committedPages f = 0) : nextCommitted f = none := by
  rw [committedPages_eq, List.length_eq_zero_iff] at h
  rw [nextCommitted, h]
  rfl

theorem committedPages_dropProgrammed {page : Nat} {f : Flash} (h : nextCommitted f = some page) :
    committedPages (dropProgrammed page f) + 1 = committedPages f := by
  unfold committedPages dropProgrammed
  dsimp only
  rw [sumNat_filter_of_zero (fun x : FlashStore => 0 + x.committed.length), sumNat_go (fun _ => 0) (fun _ _ => rfl) h]
  intro x hx
  rw [(empty_of_done hx).2]
  rfl

theorem programNext_power (s : State) : (programNext s).power = s.power :=
  (programNext_keeps (.refl (· = .power) s) (by simp) (by simp)).parts .power rfl

/-- A page is programmed, or no page waits, or no die has room. -/
theorem programNext_counts (s : State) : (nextCommitted s.flash = none ∨ nextDie s.flash = none) ∧ programNext s = s ∨
    outstandingPages (programNext s).flash + 1 = outstandingPages s.flash ∧ committedPages (programNext s).flash + 1 = committedPages s.flash := by
  cases hPage : nextCommitted s.flash with
  | none => exact .inl ⟨.inl rfl, programNext_idle (.inl hPage)⟩
  | some page =>
    cases hDie : nextDie s.flash with
    | none => exact .inl ⟨.inr rfl, programNext_idle (.inr hDie)⟩
    | some e =>
      obtain ⟨die, b⟩ := e
      obtain ⟨-, -, -, -, hStores⟩ := programPage_frame (page := page) hDie
      have hStill : nextCommitted (programPage page s).flash = some page := by
        rw [nextCommitted, hStores]
        exact hPage
      have hOutstanding := outstandingPages_dropProgrammed hStill
      have hCommitted := committedPages_dropProgrammed hStill
      rw [outstandingPages, outstandingPages, hStores] at hOutstanding
      rw [committedPages, committedPages, hStores] at hCommitted
      rw [programNext_of_page hPage hDie]
      exact .inr ⟨hOutstanding, hCommitted⟩

/-- One step of the drain: a page is programmed, and counted. -/
def programCounted (s : State) : State := modPower (fun p => { p with
  programmed := p.programmed + (outstandingPages s.flash - outstandingPages (programNext s).flash) }) (programNext s)

theorem programCounted_power (s : State) : (programCounted s).power = { s.power with
    programmed := s.power.programmed + (outstandingPages s.flash - outstandingPages (programNext s).flash) } := by
  unfold programCounted modPower
  dsimp only
  rw [programNext_power]

theorem programCounted_flash (s : State) : (programCounted s).flash = (programNext s).flash := rfl

theorem programAll_succ (n : Nat) (s : State) : programAll (n + 1) s = programAll n (programCounted s) := rfl

theorem programAll_idle (n : Nat) {s : State} (h : nextCommitted s.flash = none ∨ nextDie s.flash = none) :
    (programAll n s).flash = s.flash := by
  induction n generalizing s with
  | zero => rfl
  | succ n ih =>
    have hSame : (programCounted s).flash = s.flash := by rw [programCounted_flash, programNext_idle h]
    rw [programAll_succ, ih (by rw [hSame]; exact h), hSame]

/-- Every page programmed is counted (R327). -/
theorem programAll_counts (n : Nat) (s : State) :
    (programAll n s).power.programmed + outstandingPages (programAll n s).flash = s.power.programmed + outstandingPages s.flash ∧
    (programAll n s).power.input = s.power.input := by
  induction n generalizing s with
  | zero => exact ⟨rfl, rfl⟩
  | succ n ih =>
    obtain ⟨hSum, hInput⟩ := ih (programCounted s)
    have hFewer : outstandingPages (programNext s).flash ≤ outstandingPages s.flash := by
      rcases programNext_counts s with ⟨-, hSame⟩ | ⟨hOutstanding, -⟩
      · exact Nat.le_of_eq (congrArg (fun u => outstandingPages u.flash) hSame)
      · omega
    rw [programAll_succ]
    refine ⟨hSum.trans ?_, hInput.trans (by rw [programCounted_power])⟩
    rw [programCounted_power, programCounted_flash]
    dsimp only
    omega

/-- As many steps as pages are committed leave none, or no die with room (R327). -/
theorem programAll_done {n : Nat} {s : State} (h : committedPages s.flash ≤ n) :
    nextCommitted (programAll n s).flash = none ∨ nextDie (programAll n s).flash = none := by
  induction n generalizing s with
  | zero => exact .inl (nextCommitted_of_none (Nat.le_zero.mp h))
  | succ n ih =>
    rcases programNext_counts s with ⟨hIdle, -⟩ | ⟨-, hCommitted⟩
    · rw [programAll_idle _ hIdle]
      exact hIdle
    · refine ih (s := programCounted s) ?_
      rw [programCounted_flash]
      omega

theorem exec_holdupProgramDone {s : State} (h : s.power.sequence = 2) : exec .holdupProgramDone s =
    .next (modPower (fun p => { p with sequence := 3 }) (programAll (s.flash.stores.flatMap (·.committed)).length s)) :=
  congrArg done (if_pos h)

/-! The power-loss record (R329). -/

/-- The record is kept, and the sequence is over. -/
def lossRecorded (e v : Word) (s : State) : State :=
  let k := objKey 0x1311 0
  let b := lossRecord s e v
  modSys (fun y => { y with resetting := none }) (modPower (fun p => { p with sequence := 4 })
    (modDict (fun d => { d with store := kput d.store k b, objs := kput d.objs k b, inUse := kput d.inUse k b }) s))

/-- The module starts cold with its stores drained. -/
def coldStarted (s : State) : State := modSys (fun y => { y with drained := true }) (requestReset 0 3 255 s)

theorem exec_powerLossRecord {e v : Word} {back : Bool} {s : State} (h : s.power.sequence = 3) : exec (.powerLossRecord e v back) s =
    .next (if back = false ∨ s.power.tripped = true then lossRecorded e v s
      else coldStarted (modPower (fun p => { p with sequence := 0 }) (lossRecorded e v s))) := by
  show execPowerLossRecord e v back s = _
  unfold execPowerLossRecord
  rw [if_pos h]
  rfl

theorem lossRecorded_frame (e v : Word) (s : State) :
    kget (lossRecorded e v s).dict.store (objKey 0x1311 0) = some (lossRecord s e v) ∧
    kget (lossRecorded e v s).dict.objs (objKey 0x1311 0) = some (lossRecord s e v) ∧ (lossRecorded e v s).power = { s.power with sequence := 4 } ∧
    (lossRecorded e v s).sys.resetting = none ∧ (lossRecorded e v s).flash = s.flash ∧ (lossRecorded e v s).mem = s.mem :=
  ⟨kget_kput_same _ _ _, kget_kput_same _ _ _, rfl, rfl, rfl, rfl⟩

/-- What a cold reset stops at its request (R478, R479). -/
theorem requestReset_begins {source cls core : Nat} {s : State} (hIdle : s.power.sequence = 0)
    (hWeaker : ∀ c, s.sys.resetting = some c → c.1 < cls) : requestReset source cls core s = modSys (fun y => { y with
      resetting := some (cls, source), drained := cls == 1, lastSource := source, lastClass := cls, watchdogCore := core })
      (if cls = 1 then clearFabric s else stopDie s) := by
  unfold requestReset
  dsimp only
  rw [if_neg (not_not_intro hIdle)]
  cases hRunning : s.sys.resetting with
  | none => rfl
  | some c =>
    have := hWeaker c hRunning
    exact if_neg (Nat.not_le.mpr this)

theorem coldStarted_frame {s : State} (hIdle : s.power.sequence = 0) (hNone : s.sys.resetting = none) :
    (coldStarted s).sys = { s.sys with resetting := some (3, 0), drained := true, lastSource := 0, lastClass := 3, watchdogCore := 255 } ∧
    (coldStarted s).power = s.power ∧ (coldStarted s).dict = s.dict ∧ (coldStarted s).flash = s.flash ∧ (coldStarted s).mem = s.mem ∧
    NothingRuns (coldStarted s) := by
  unfold coldStarted
  rw [requestReset_begins hIdle (by simp [hNone]), if_neg (by decide)]
  exact ⟨rfl, rfl, rfl, rfl, rfl, nothingRuns_stopDie s⟩

/-- The fields of the record. -/
theorem lossRecord_fields (s : State) (e v : Word) : (lossRecord s e v).length = 64 ∧
    field (lossRecord s e v) 0 8 = s.power.beatAtLoss % 2 ^ 64 ∧ field (lossRecord s e v) 8 1 = s.power.cause % 256 ∧
    field (lossRecord s e v) 16 4 = s.power.pagesAtLoss % 2 ^ 32 ∧ field (lossRecord s e v) 20 4 = s.power.programmed % 2 ^ 32 ∧
    field (lossRecord s e v) 28 4 = e.toNat := by
  have hBeat : field (lossRecord s e v) 0 8 = leNat (le 8 s.power.beatAtLoss) := by simp [lossRecord, padTo, zeroBytes, field, slice, le]
  have hCause : field (lossRecord s e v) 8 1 = leNat (le 1 s.power.cause) := by simp [lossRecord, padTo, zeroBytes, field, slice, le]
  have hPages : field (lossRecord s e v) 16 4 = leNat (le 4 s.power.pagesAtLoss) := by simp [lossRecord, padTo, zeroBytes, field, slice, le]
  have hProgrammed : field (lossRecord s e v) 20 4 = leNat (le 4 s.power.programmed) := by
    simp [lossRecord, padTo, zeroBytes, field, slice, le]
  have hEnergy : field (lossRecord s e v) 28 4 = leNat (le 4 e.toNat) := by simp [lossRecord, padTo, zeroBytes, field, slice, le]
  refine ⟨length_padTo 64 _, hBeat.trans (leNat_le 8 _), hCause.trans (leNat_le 1 _), hPages.trans (leNat_le 4 _),
    hProgrammed.trans (leNat_le 4 _), hEnergy.trans ((leNat_le 4 _).trans (Nat.mod_eq_of_lt e.isLt))⟩

/-! A short circuit of a cable supply (R499). -/

theorem linkDown_same (l : Nat) (s : State) : (linkOf (linkDown l s) l).state = 4 := by
  unfold linkDown
  by_cases h : (linkOf s l).state = 4
  · rw [if_pos h, h]
  · rw [if_neg h, linkOf_event, linkOf_count, linkOf_modLink_same]

theorem linkDown_other {l m : Nat} (s : State) (h : m ≠ l) : linkOf (linkDown l s) m = linkOf s m := by
  unfold linkDown
  split
  · rfl
  · rw [linkOf_event, linkOf_count, linkOf_modLink_other _ _ h.symm]

theorem linkDown_power (l : Nat) (s : State) : (linkDown l s).power = s.power :=
  (linkDown_keeps l (.refl (· = .power) s) (by simp) (by simp) (by simp)).parts .power rfl

/-- A link that is up or in training goes down. -/
def linkKept (l : Nat) (s : State) : State := if linkIsUp s l || (linkOf s l).state == 1 then linkDown l s else s

theorem linkKept_same (l : Nat) (s : State) (h : linkIsUp s l = true) : (linkOf (linkKept l s) l).state = 4 := by
  rw [linkKept, if_pos (by rw [h]; rfl)]
  exact linkDown_same l s

theorem linkKept_other {l m : Nat} (s : State) (h : m ≠ l) : linkOf (linkKept l s) m = linkOf s m := by
  unfold linkKept
  split
  · exact linkDown_other s h
  · rfl

theorem linkKept_power (l : Nat) (s : State) : (linkKept l s).power = s.power := by
  unfold linkKept
  split
  · exact linkDown_power l s
  · rfl

theorem linkKept_down {m : Nat} (l : Nat) {s : State} (h : (linkOf s m).state = 4) : (linkOf (linkKept l s) m).state = 4 := by
  by_cases hSame : m = l
  · subst hSame
    rw [linkKept, if_neg (by simp [linkIsUp, h])]
    exact h
  · rw [linkKept_other _ hSame, h]

theorem foldl_linkKept_down {m : Nat} (ls : List Nat) {s : State} (h : (linkOf s m).state = 4) :
    (linkOf (ls.foldl (fun s l => linkKept l s) s) m).state = 4 := by
  induction ls generalizing s with
  | nil => exact h
  | cons l ls ih => exact ih (linkKept_down l h)

/-- Each of several links that is up goes down, and no other changes. -/
theorem foldl_linkKept (ls : List Nat) (s : State) :
    (∀ l ∈ ls, linkIsUp s l = true → (linkOf (ls.foldl (fun s l => linkKept l s) s) l).state = 4) ∧
    (∀ m, m ∉ ls → linkOf (ls.foldl (fun s l => linkKept l s) s) m = linkOf s m) := by
  induction ls generalizing s with
  | nil => exact ⟨fun _ h => absurd h (by simp), fun _ _ => rfl⟩
  | cons l ls ih =>
    obtain ⟨hDown, hOthers⟩ := ih (linkKept l s)
    refine ⟨fun m hm hUp => ?_, fun m hm => ?_⟩
    · by_cases hSame : m = l
      · subst hSame
        exact foldl_linkKept_down ls (linkKept_same m s hUp)
      · refine hDown m ((List.mem_cons.mp hm).resolve_left hSame) ?_
        rw [linkIsUp, linkKept_other _ hSame]
        exact hUp
    · rw [List.mem_cons, not_or] at hm
      exact (hOthers m hm.2).trans (linkKept_other _ hm.1)

theorem exec_cableShort {k : Nat} {s : State} (hk : k < 16) (hOn : k ∉ s.power.cableOff) : exec (.cableShort k) s =
    .next (([0, 1, 2, 3].map (fun j => 4 * k + j)).foldl (fun s l => linkKept l s)
      (modPower (fun p => { p with cableOff := p.cableOff ++ [k] }) s)) := by
  show execCableShort k s = _
  unfold execCableShort
  rw [if_neg (by simp [hOn]; omega)]
  rfl

end Sys2Proof.Machine

open Sys2Proof Sys2Proof.Machine

/-- Settles O44: the levels of the input and its loss, the hold-up sequence to its record, and a short circuit of a cable supply. -/
theorem inputLossRunsTheHoldUpSequence : Obligations.InputLossRunsTheHoldUpSequence := by
  unfold Obligations.InputLossRunsTheHoldUpSequence
  refine ⟨⟨?low, ?clear, fun _ _ => rfl, ?loss, ?opened, ?eeprom⟩, ?quiesce, ?programmed, ?exhausted, ?recorded, ?fields, ?cable⟩
  case low =>
    intro s hInput
    have hExec : exec .inputLow s = .next (supplySignal s (event evtInputLow nowhere [] (modPower (fun p => { p with input := 1 }) s))) :=
      congrArg done (if_pos hInput)
    refine ⟨_, hExec, ?_, ?_, sameBut_of_exec (by simp) hExec⟩
    · rw [supplySignal_power, event_power]
      rfl
    · rw [supplySignal_led, event_led]
      rfl
  case clear =>
    intro s hInput
    have hExec : exec .inputLowClear s = .next (supplySignal s (modPower (fun p => { p with input := 0 }) s)) := congrArg done (if_pos hInput)
    exact ⟨_, hExec, supplySignal_power _ _, sameBut_of_exec (by simp) hExec⟩
  case loss =>
    intro pin s hInput hIdle
    have hExec : exec (.inputLoss pin) s = .next (declareLoss (if pin then 0 else 1) s) := rfl
    obtain ⟨hPower, hNothing, hMem, hFlash⟩ := declareLoss_frame (if pin then 0 else 1) hInput hIdle
    exact ⟨_, hExec, hPower, admissiblePages_of_lost (by rw [hPower]; simp), hNothing, hMem, hFlash, sameBut_of_exec (by simp) hExec⟩
  case opened =>
    intro c s hc hInput hIdle
    have hExec := exec_switchOpened s hc
    obtain ⟨hOpen, hLost, hSequence, hCause, hPages, hNothing⟩ := openSwitch_frame hInput hIdle
    exact ⟨_, hExec, hOpen, hLost, hSequence, hCause, hPages, hNothing, sameBut_of_exec (by rcases hc with rfl | rfl <;> simp) hExec⟩
  case eeprom => exact fun offset n data s => ⟨smbusRead_of_supplied, rfl⟩
  case quiesce => exact fun s h => congrArg done (if_pos h)
  case programmed =>
    intro s hSequence
    have hExec := exec_holdupProgramDone hSequence
    obtain ⟨hSum, hInput⟩ := programAll_counts (s.flash.stores.flatMap (·.committed)).length s
    exact ⟨_, hExec, rfl, hSum, programAll_done (Nat.le_of_eq (committedPages_eq _)), hInput,
      (sameBut_of_exec (by simp) hExec).mono (by simp [touches])⟩
  case exhausted => exact fun s h h' => congrArg done (if_pos ⟨h, h'⟩)
  case recorded =>
    intro e v back s hSequence
    have hExec := exec_powerLossRecord (e := e) (v := v) (back := back) hSequence
    obtain ⟨hStore, hObject, hPower, hResetting, hFlash, hMem⟩ := lossRecorded_frame e v s
    by_cases hEnds : back = false ∨ s.power.tripped = true
    · rw [if_pos hEnds] at hExec
      refine ⟨_, hExec, hStore, hObject, fun _ => ⟨by rw [hPower], hResetting⟩, fun hBack hCool => ?_, hFlash, hMem, sameBut_of_exec (by simp) hExec⟩
      simp [hBack, hCool] at hEnds
    · rw [if_neg hEnds] at hExec
      obtain ⟨hSys, hPower', hDict', hFlash', hMem', -⟩ :=
        coldStarted_frame (s := modPower (fun p => { p with sequence := 0 }) (lossRecorded e v s)) rfl hResetting
      refine ⟨_, hExec, ?_, ?_, fun hBack => absurd (.inl hBack) hEnds, fun _ _ => ⟨by rw [hPower']; rfl, by rw [hSys], by rw [hSys]⟩,
        hFlash'.trans hFlash, hMem'.trans hMem, sameBut_of_exec (by simp) hExec⟩
      · rw [hDict']
        exact hStore
      · rw [hDict']
        exact hObject
  case fields => exact fun s e v => lossRecord_fields s e v
  case cable =>
    intro k s hk hOn
    have hExec := exec_cableShort hk hOn
    obtain ⟨hDown, hOthers⟩ := foldl_linkKept ([0, 1, 2, 3].map (fun j => 4 * k + j)) (modPower (fun p => { p with cableOff := p.cableOff ++ [k] }) s)
    refine ⟨_, hExec, ?_, fun j hj hUp => hDown _ ?_ hUp, fun l hl => hOthers l ?_, sameBut_of_exec (by simp) hExec⟩
    · exact foldl_field (g := State.power) (fun s l => linkKept_power l s) _ _
    · refine List.mem_map.mpr ⟨j, ?_, rfl⟩
      simp; omega
    · simp; omega
end

section
/-! Resets and thermal trips begin by their sources (R473-R480, R506, R507). -/

namespace Sys2Proof.Machine

/-! What a fabric reset clears (R480): the array states that the fabric keeps stand through it. -/

/-- Two states hold the same of which arrays stand on which sites. -/
def SameSites (s t : State) : Prop := t.fab.states = s.fab.states

theorem SameSites.trans {s t u : State} (h : SameSites s t) (h' : SameSites t u) : SameSites s u := Eq.trans h' h

theorem sameSites_of_fab {s t : State} (h : t.fab = s.fab) : SameSites s t := congrArg Fabric.states h

theorem SameSites.foldl {α : Type} {f : State → α → State} (hf : ∀ s x, SameSites s (f s x)) (l : List α) (s : State) :
    SameSites s (l.foldl f s) := foldl_field (g := fun s => s.fab.states) (fun s x => hf s x) l s

theorem sameSites_purgePath (k : Nat) (r : Route) (o : StreamRow) (s : State) : SameSites s (purgePath k r o s) := rfl

theorem sameSites_flushRoute (k : Nat) (s : State) : SameSites s (flushRoute k s) := by
  cases hRoute : (slotOf s k).route with
  | none =>
    have hSame : flushRoute k s = s := by rw [flushRoute, hRoute]
    rw [hSame]
    exact sameSites_of_fab rfl
  | some r =>
    have hVoid : (voidTransfers k s).fab = s.fab := (voidTransfers_keeps k (.refl (· = .fab) s) (by simp) (by simp)).parts .fab rfl
    have hAbandoned (u : State) : (abandonWork k u).fab = u.fab :=
      (abandonWork_keeps k (.refl (· = .fab) u) (by simp) (by simp) (by simp)).parts .fab rfl
    have hPurged : SameSites (voidTransfers k s) (purgeItems k r (voidTransfers k s)) := .foldl (fun s o => sameSites_purgePath k r o s) _ _
    have hLast : SameSites (purgeItems k r (voidTransfers k s)) (flushRoute k s) := by
      unfold flushRoute SameSites
      rw [hRoute]
      dsimp only
      rw [hAbandoned]
      rfl
    exact ((sameSites_of_fab hVoid).trans hPurged).trans hLast

theorem sameSites_discardStep (k : Nat) (s : State) : SameSites s (discardStep k s) := by
  have hClosed : (closeKilnPages k s).fab = s.fab := (closeKilnPages_keeps k (.refl (· = .fab) s) (by simp)).parts .fab rfl
  have hFlushed := sameSites_flushRoute k (closeKilnPages k s)
  unfold discardStep
  generalize flushRoute k (closeKilnPages k s) = u at hFlushed ⊢
  exact ((sameSites_of_fab hClosed).trans hFlushed).trans rfl

theorem sameSites_stepLeft (k : Nat) (s : State) : SameSites s (stepLeft k s) :=
  SameSites.trans (t := { s with slots := kmod s.slots k (fun x => { x with state := 2 }) }) rfl (sameSites_discardStep k _)

theorem sameSites_freeSlot (k : Nat) (s : State) : SameSites s (freeSlot k s) := by
  have hRefresh (u : State) : (refreshLeft k u).fab = u.fab := by
    unfold refreshLeft failRefresh
    split
    · split
      · rw [event_fab]
      · rfl
    · rfl
  have hPaths (u : State) : SameSites u (pathsPurged k u) :=
    SameSites.foldl (fun s (e : Route × StreamRow) => sameSites_purgePath k e.1 e.2 s) _ u
  have hLeft := (sameSites_stepLeft k s).trans (sameSites_of_fab (hRefresh _))
  rw [freeSlot_eq]
  generalize refreshLeft k (stepLeft k s) = u at hLeft ⊢
  have hPurged := (hLeft.trans (rfl : SameSites u (memoriesFreed k u))).trans (hPaths _)
  generalize pathsPurged k (memoriesFreed k u) = v at hPurged ⊢
  exact (hPurged.trans (rfl : SameSites v (fabricFreed k v))).trans (sameSites_of_fab (slotFreed_keeps_parts k _).1)

/-- A slot is freed, and the admission of its owner. -/
def slotCleared (k : Nat) (s : State) : State :=
  if (slotOf s k).state = 0 then s
  else
    let owner := (slotOf s k).owner
    let s := freeSlot k s
    if (admissionOf s owner).slot = k ∧ 2 ≤ (admissionOf s owner).state ∧ (admissionOf s owner).state ≤ 3 then
      setAdmission owner { admissionOf s owner with state := 0 } s else s

theorem slotCleared_frame (k : Nat) (s : State) : (slotOf (slotCleared k s) k).state = 0 ∧
    (∀ j, j ≠ k → slotOf (slotCleared k s) j = slotOf s j) ∧ SameCargoes s (slotCleared k s) ∧ SameSites s (slotCleared k s) := by
  unfold slotCleared
  by_cases hFree : (slotOf s k).state = 0
  · rw [if_pos hFree]
    exact ⟨hFree, fun _ _ => rfl, sameCargoes_of_mem rfl, rfl⟩
  · obtain ⟨hSlot, hOthers, -, -, -, -, -, hCargoes, -⟩ := freeSlot_frees k s
    have hSites := sameSites_freeSlot k s
    rw [if_neg hFree]
    dsimp only
    generalize freeSlot k s = u at hSlot hOthers hCargoes hSites ⊢
    split
    · have hMem := (setAdmission_keeps (slotOf s k).owner { admissionOf u (slotOf s k).owner with state := 0 } (.refl (· = .mem) u)
        (by simp) (by simp) (by simp)).parts .mem rfl
      have hFab := (setAdmission_keeps (slotOf s k).owner { admissionOf u (slotOf s k).owner with state := 0 } (.refl (· = .fab) u)
        (by simp) (by simp) (by simp)).parts .fab rfl
      refine ⟨?_, fun j hj => ?_, hCargoes.trans (sameCargoes_of_mem hMem), hSites.trans (sameSites_of_fab hFab)⟩
      · rw [slotOf_congr (setAdmission_slots _ _ _), hSlot]
        rfl
      · rw [slotOf_congr (setAdmission_slots _ _ _), hOthers j hj]
    · exact ⟨by rw [hSlot]; rfl, hOthers, hCargoes, hSites⟩

theorem slotCleared_free {j : Nat} (k : Nat) {s : State} (h : (slotOf s j).state = 0) : (slotOf (slotCleared k s) j).state = 0 := by
  obtain ⟨hSlot, hOthers, -⟩ := slotCleared_frame k s
  by_cases hSame : j = k
  · rw [hSame, hSlot]
  · rw [hOthers j hSame, h]

theorem foldl_slotCleared_free {j : Nat} (ks : List Nat) {s : State} (h : (slotOf s j).state = 0) :
    (slotOf (ks.foldl (fun s k => slotCleared k s) s) j).state = 0 := by
  induction ks generalizing s with
  | nil => exact h
  | cons k ks ih => exact ih (slotCleared_free k h)

theorem foldl_slotCleared (ks : List Nat) (s : State) : (∀ k ∈ ks, (slotOf (ks.foldl (fun s k => slotCleared k s) s) k).state = 0) ∧
    SameCargoes s (ks.foldl (fun s k => slotCleared k s) s) ∧ SameSites s (ks.foldl (fun s k => slotCleared k s) s) := by
  refine ⟨?_, .foldl (fun s k => (slotCleared_frame k s).2.2.1) ks s, .foldl (fun s k => (slotCleared_frame k s).2.2.2) ks s⟩
  induction ks generalizing s with
  | nil => exact fun _ h => absurd h (by simp)
  | cons k ks ih =>
    intro j hj
    rcases List.mem_cons.mp hj with rfl | hLater
    · exact foldl_slotCleared_free ks (slotCleared_frame j s).1
    · exact ih (slotCleared k s) j hLater

/-- What the arrays, the engines and the fabric hold is gone. -/
def fabricCleared (keeps : KMap Secure) (s : State) : State := { s with
  arrays := [], engines := [], secures := keeps
  fab := { s.fab with
    failing := [], lanes := [], delivered := [], badEntries := [], stopped := [], words := [], units := [], holders := [], nextHolders := [] }
  mem := { s.mem with openPages := [], copies := [], saggarHits := [], noted := [], ports := [] } }

theorem clearFabric_eq (s : State) : clearFabric s = fabricCleared (keptSecures s) (slotNumbers.foldl (fun s k => slotCleared k s) s) := by
  unfold clearFabric fabricCleared slotCleared
  with_reducible rfl

theorem clearFabric_frame (s : State) : (∀ k ∈ slotNumbers, (slotOf (clearFabric s) k).state = 0) ∧ (clearFabric s).arrays = [] ∧
    (clearFabric s).engines = [] ∧ (clearFabric s).fab.states = s.fab.states ∧ (clearFabric s).mem.home = s.mem.home := by
  obtain ⟨hFree, hCargoes, hSites⟩ := foldl_slotCleared slotNumbers s
  rw [clearFabric_eq]
  generalize slotNumbers.foldl (fun s k => slotCleared k s) s = u at hFree hCargoes hSites ⊢
  exact ⟨hFree, rfl, rfl, hSites, hCargoes.1⟩

/-! Requests for a reset (R473-R477). -/

/-- What is noted of a reset that begins. -/
def resetNoted (source cls core : Nat) (y : Sys) : Sys :=
  { y with resetting := some (cls, source), drained := cls == 1, lastSource := source, lastClass := cls, watchdogCore := core }

theorem requestReset_fabric {source core : Nat} {s : State} (hIdle : s.power.sequence = 0) (hWeaker : ∀ c, s.sys.resetting = some c → c.1 < 1) :
    requestReset source 1 core s = modSys (resetNoted source 1 core) (clearFabric s) := requestReset_begins hIdle hWeaker

theorem requestReset_module {source cls core : Nat} {s : State} (hIdle : s.power.sequence = 0)
    (hWeaker : ∀ c, s.sys.resetting = some c → c.1 < cls) (hClass : cls ≠ 1) :
    requestReset source cls core s = modSys (resetNoted source cls core) (stopDie s) :=
  (requestReset_begins hIdle hWeaker).trans (congrArg (modSys (resetNoted source cls core)) (if_neg hClass))

theorem requestReset_held {source cls core : Nat} {s : State} (h : s.power.sequence ≠ 0) : requestReset source cls core s = s := if_pos h

theorem requestReset_absorbed {source cls core : Nat} {s : State} {c : Nat × Nat} (hRunning : s.sys.resetting = some c) (h : cls ≤ c.1) :
    requestReset source cls core s = s := by
  unfold requestReset
  dsimp only
  rw [hRunning]
  by_cases hHeld : s.power.sequence = 0
  · rw [if_neg (not_not_intro hHeld)]
    exact if_pos h
  · rw [if_pos hHeld]

theorem clearFabric_sys (s : State) : (clearFabric s).sys = s.sys :=
  (clearFabric_keeps (.refl (· = .sys) s) (by simp) (by simp) (by simp) (by simp) (by simp) (by simp) (by simp) (by simp) (by simp) (by simp)
    (by simp) (by simp) (by simp) (by simp) (by simp)).parts .sys rfl

theorem clearFabric_net (s : State) : (clearFabric s).net = s.net :=
  (clearFabric_keeps (.refl (· = .net) s) (by simp) (by simp) (by simp) (by simp) (by simp) (by simp) (by simp) (by simp) (by simp) (by simp)
    (by simp) (by simp) (by simp) (by simp) (by simp)).parts .net rfl

theorem requestReset_sys {source cls core : Nat} {s : State} (hIdle : s.power.sequence = 0)
    (hWeaker : ∀ c, s.sys.resetting = some c → c.1 < cls) : (requestReset source cls core s).sys = resetNoted source cls core s.sys := by
  by_cases hClass : cls = 1
  · subst hClass
    rw [requestReset_fabric hIdle hWeaker, modSys]
    exact congrArg (resetNoted source 1 core) (clearFabric_sys s)
  · rw [requestReset_module hIdle hWeaker hClass]
    rfl

theorem nothingRuns_stopped (f : Sys → Sys) (s : State) : NothingRuns (modSys f (stopDie s)) := nothingRuns_stopDie s

/-- The parts of the module that a fabric reset, and the parts that a stronger one may change. -/
theorem requestReset_sameBut (source cls core : Nat) (s : State) : SameBut [.fresh, .out, .led, .ctr, .mem, .fab, .slots, .arrays, .engines,
    .net, .colls, .secures, .admissions, .serves, .refresh, .host, .sys] s (requestReset source cls core s) :=
  (requestReset_keeps source cls core (.refl (· ∉ [Part.fresh, .out, .led, .ctr, .mem, .fab, .slots, .arrays, .engines, .net, .colls, .secures,
    .admissions, .serves, .refresh, .host, .sys]) s) (by simp) (by simp) (by simp) (by simp) (by simp) (by simp) (by simp) (by simp) (by simp)
    (by simp) (by simp) (by simp) (by simp) (by simp) (by simp) (by simp) (by simp)).sameBut

theorem stopped_sameBut (f : Sys → Sys) (s : State) : SameBut [.fab, .slots, .arrays, .engines, .net, .colls, .secures, .admissions, .serves,
    .refresh, .host, .sys] s (modSys f (stopDie s)) := by
  have hStopped := stopDie_keeps (.refl (· ∉ [Part.fab, .slots, .arrays, .engines, .net, .colls, .secures, .admissions, .serves, .refresh, .host,
    .sys]) s) (by simp) (by simp) (by simp) (by simp) (by simp) (by simp) (by simp) (by simp) (by simp) (by simp) (by simp)
  exact (modSys_keeps f hStopped (by simp)).sameBut

theorem rowOf_reset_access : (rowOf 0x1200 2).access = .wo := by decide +kernel

theorem resetEffect_of_legal {client transport v : Nat} {s : State} (hLow : 1 ≤ v) (hHigh : v ≤ 3) (hInput : s.power.input = 0)
    (hNone : s.sys.resetting = none) (hMine : client = 0 ∨ ∀ k ∈ slotNumbers, (slotOf s k).state = 0 ∨ (slotOf s k).owner = client) :
    resetEffect client transport v s = (stOk, requestReset (if transport = 2 then 5 else 4) v 255 s) := by
  have hRange : ¬(v = 0 ∨ 3 < v) := by omega
  have hOthers : (client != 0 && slotNumbers.any (fun k => (slotOf s k).state != 0 && (slotOf s k).owner != client)) = false := by
    rcases hMine with h | h
    · simp [h]
    · refine Bool.and_eq_false_iff.mpr (.inr (List.any_eq_false.mpr (fun k hk hBoth => ?_)))
      rcases h k hk with hFree | hOwner
      · simp [hFree] at hBoth
      · simp [hOwner] at hBoth
  refine checked_of_ok ?_ _ _
  rw [hOthers]
  simp [firstStatus, hRange, hInput, hNone]

/-- A command asks for its class. -/
theorem askReset {who : Who} {v : Nat} {s : State} (hPasses : Passes who (writeOf 0x1200 2 (le 1 v)) s) (hLow : 1 ≤ v) (hHigh : v ≤ 3)
    (hInput : s.power.input = 0) (hNone : s.sys.resetting = none)
    (hMine : who.client = 0 ∨ ∀ k ∈ slotNumbers, (slotOf s k).state = 0 ∨ (slotOf s k).owner = who.client) :
    askWrite who 0x1200 2 (le 1 v) s = .next (answered who (writeOf 0x1200 2 (le 1 v)) s
      (requestReset (if who.transport = 2 then 5 else 4) v 255 s)) := by
  have hValue : leNat (le 1 v) = v := (leNat_le 1 v).trans (Nat.mod_eq_of_lt (by omega))
  refine askWrite_of_passes hPasses ?_
  rw [writeEffect_of_command who _ s rowOf_reset_access (by decide) (by decide)]
  show resetEffect who.client who.transport (leNat (le 1 v)) s = _
  rw [hValue]
  exact resetEffect_of_legal hLow hHigh hInput hNone hMine

/-- A core that misses its watchdog has failed. -/
def coreFailed (core : Nat) (y : Sys) : Sys := { y with failedCores := if y.failedCores.contains core then y.failedCores else y.failedCores ++ [core] }

theorem mem_coreFailed (core : Nat) (y : Sys) : core ∈ (coreFailed core y).failedCores := by
  unfold coreFailed
  dsimp only
  split
  case isTrue h => exact List.contains_iff_mem.mp h
  case isFalse h => exact List.mem_append_right _ (List.mem_singleton.mpr rfl)

theorem exec_watchdogMiss {core : Nat} {s : State} (hCore : core ≤ 6 ∨ (core = 7 ∧ ∃ e ∈ s.sys.carriers, e.2 = 7)) (hRuns : firmwareRuns s = true) :
    exec (.watchdogMiss core) s = .next (requestReset 3 (setting s 0x1203 2) core (modSys (coreFailed core) s)) := by
  show execWatchdogMiss core s = _
  unfold execWatchdogMiss
  rw [if_pos (by simpa using hCore), if_neg (by simp [hRuns])]
  rfl

theorem exec_sysrst {s : State} (hNone : s.sys.resetting = none) (hQuiet : s.sys.released + 170000 ≤ s.clock) :
    exec .sysrst s = .next (requestReset 2 (setting s 0x1203 1) 255 s) :=
  congrArg done (if_neg (by simp [hNone]; omega))

/-! Thermal trips (R506, R507). -/

theorem exec_thermTrip {k : Nat} {s : State} (hk : k < 88) (hCool : s.power.tripped = false) : exec (.thermTrip k) s =
    .next (modSys (fun y => { y with drained := false }) (modPower (fun p => { p with tripped := true }) (stopDie s))) :=
  congrArg done (if_neg (by simp [hCool]; omega))

/-- The trip is over, and nothing of the sequence or of a reset is left. -/
def tripReleased (s : State) : State :=
  modSys (fun y => { y with resetting := none }) (modPower (fun p => { p with tripped := false, sequence := 0 }) s)

theorem exec_thermTripRecover {s : State} (hTripped : s.power.tripped = true)
    (hDone : s.power.sequence = 0 ∧ s.sys.drained = true ∨ s.power.sequence = 4) :
    exec .thermTripRecover s = .next (coldStarted (tripReleased s)) := by
  show execThermTripRecover s = _
  unfold execThermTripRecover
  rw [if_pos ⟨hTripped, hDone⟩]
  rfl

/-- The supervisor's counts begin again with the supply (R473, R482, R496). -/
def supplyReturned (s : State) : State :=
  modPower (fun p => { p with sequence := 0 }) (modSys (fun y => { y with resets := (0, 0, 0), resetting := none }) s)

theorem exec_powerOnReset_off {s : State} (h : s.power.sequence = 4) : exec .powerOnReset s = .next (coldStarted (supplyReturned s)) := by
  show execPowerOnReset s = _
  unfold execPowerOnReset
  rw [if_pos h]
  rfl

end Sys2Proof.Machine

open Sys2Proof Sys2Proof.Machine

/-- Settles O46: what a reset of each class holds from its request on, which sources begin one, and a thermal trip with its end. -/
theorem resetsAndTripsBeginByTheirSources : Obligations.ResetsAndTripsBeginByTheirSources := by
  unfold Obligations.ResetsAndTripsBeginByTheirSources
  refine ⟨⟨?request, ?running, ?off, ?sysrst, ?watchdog, ?command⟩, ?trip, ?recover⟩
  case request =>
    intro source cls core s t
    refine ⟨fun hIdle hWeaker => ?_, requestReset_held, fun c hRunning h => requestReset_absorbed hRunning h⟩
    have hSys := requestReset_sys (source := source) (core := core) hIdle hWeaker
    refine ⟨congrArg Sys.resetting hSys, congrArg Sys.lastSource hSys, congrArg Sys.lastClass hSys, congrArg Sys.watchdogCore hSys,
      congrArg Sys.drained hSys, fun hClass => ?module, fun hClass => ?fabric⟩
    case module =>
      have hEq : t = modSys (resetNoted source cls core) (stopDie s) := requestReset_module hIdle hWeaker hClass
      rw [hEq]
      exact ⟨nothingRuns_stopped _ s, stopped_sameBut _ s⟩
    case fabric =>
      subst hClass
      have hSame := requestReset_sameBut source 1 core s
      have hEq : t = modSys (resetNoted source 1 core) (clearFabric s) := requestReset_fabric hIdle hWeaker
      obtain ⟨hSlots, hArrays, hEngines, hStates, hHome⟩ := clearFabric_frame s
      have hNet := clearFabric_net s
      generalize clearFabric s = u at hEq hSlots hArrays hEngines hStates hHome hNet
      refine ⟨?_, ?_, ?_, ?_, ?_, hSame, ?_⟩
      all_goals rw [hEq]
      · exact hSlots
      · exact hArrays
      · exact hEngines
      · exact hStates
      · exact hHome
      · exact hNet
  case running => exact fun s h => congrArg done (if_neg h)
  case off =>
    intro s h
    have hExec := exec_powerOnReset_off h
    obtain ⟨hSys, hPower, -, -, -, hNothing⟩ := coldStarted_frame (s := supplyReturned s) rfl rfl
    exact ⟨_, hExec, by rw [hPower]; rfl, by rw [hSys]; rfl, by rw [hSys], hNothing, sameBut_of_exec (by simp) hExec⟩
  case sysrst => exact fun s hNone hQuiet => exec_sysrst hNone hQuiet
  case watchdog =>
    intro core s hCore hRuns hNone
    have hExec := exec_watchdogMiss hCore hRuns
    have hIdle : s.power.sequence = 0 := by
      have hPowered : powered s = true := (Bool.and_eq_true_iff.mp hRuns).1
      simpa using (Bool.and_eq_true_iff.mp (Bool.and_eq_true_iff.mp hPowered).1).2
    have hSys := requestReset_sys (source := 3) (cls := setting s 0x1203 2) (core := core) (s := modSys (coreFailed core) s) hIdle
      (fun c hc => absurd (hNone.symm.trans hc) (by simp))
    exact ⟨_, hExec, congrArg Sys.resetting hSys, congrArg Sys.watchdogCore hSys, (congrArg Sys.failedCores hSys) ▸ mem_coreFailed core s.sys,
      sameBut_of_exec (by simp) hExec⟩
  case command =>
    intro who v c s hCommand hPasses hInput hNone hMine
    rcases hCommand with ⟨rfl, rfl⟩ | ⟨rfl, rfl⟩ | ⟨rfl, rfl⟩
    · exact askReset hPasses (by decide) (by decide) hInput hNone hMine
    · exact askReset hPasses (by decide) (by decide) hInput hNone hMine
    · exact askReset hPasses (by decide) (by decide) hInput hNone hMine
  case trip =>
    intro k s hk hCool
    have hExec := exec_thermTrip hk hCool
    exact ⟨_, hExec, rfl, rfl, nothingRuns_stopDie s, rfl, rfl, sameBut_of_exec (by simp) hExec⟩
  case recover =>
    intro s hTripped hDone
    have hExec := exec_thermTripRecover hTripped hDone
    obtain ⟨hSys, hPower, -⟩ := coldStarted_frame (s := tripReleased s) rfl rfl
    exact ⟨_, hExec, hPower.trans rfl, by rw [hSys], by rw [hSys], by rw [hSys], sameBut_of_exec (by simp) hExec⟩
end

section
/-! Images and attestation: anti-rollback, the image that is written, and the signed report (R486, R491, R492, R494). -/

namespace Sys2Proof.Machine

/-! The image slots. -/

theorem slotImage_setImage_same (k : Nat) (x : ImageSlot) (s : State) : slotImage (setImage k x s) k = x := by
  unfold slotImage setImage modSys
  dsimp only
  by_cases h : k = 0
  · rw [if_pos h, if_pos h]
  · rw [if_neg h, if_neg h]

/-- What a slot's new image leaves of the system part. -/
theorem setImage_sys (k : Nat) (x : ImageSlot) (s : State) : (setImage k x s).sys.active = s.sys.active ∧
    (setImage k x s).sys.fuses = s.sys.fuses ∧ (setImage k x s).sys.verifyResult = s.sys.verifyResult ∧
    (setImage k x s).sys.writing = s.sys.writing := by
  unfold setImage modSys
  dsimp only
  split <;> exact ⟨rfl, rfl, rfl, rfl⟩

theorem setImage_sameBut (k : Nat) (x : ImageSlot) (s : State) : SameBut [.sys] s (setImage k x s) :=
  (modSys_keeps _ (.refl (· ∉ [Part.sys]) s) (by simp)).sameBut

theorem slotImage_setImage_other (k : Nat) (x : ImageSlot) (s : State) : slotImage (setImage k x s) (1 - k) = slotImage s (1 - k) ∨ 2 ≤ k := by
  unfold slotImage setImage modSys
  dsimp only
  match k with
  | 0 => exact .inl rfl
  | 1 => exact .inl rfl
  | k + 2 => exact .inr (by omega)

theorem inactiveSlot_le (s : State) : inactiveSlot s ≤ 1 := Nat.sub_le _ _

/-! The anti-rollback counter (R492). -/

theorem rows_advance : ∀ r ∈ objRows, r.index = 0x1215 → r.access = .wo := by decide +kernel

theorem advanceEffect_of_permitted {v : Nat} {s : State} (hLow : s.sys.fuses ≤ v) (hHigh : v ≤ 64) (hRuns : v ≤ s.sys.runningVersion) :
    advanceEffect v s = (stOk, modSys (fun y => { y with fuses := v, slotA := belowCounter v y.slotA, slotB := belowCounter v y.slotB }) s) := by
  have hRange : ¬(v < s.sys.fuses ∨ 64 < v) := by omega
  exact checked_of_ok (by simp [firstStatus, hRange, Nat.not_lt.mpr hRuns]) _ _

/-! The image that is written (R491). -/

/-- A first segment empties the inactive slot. -/
def imageOpened (who : Who) (a : Ask) (s : State) : State :=
  if a.offset = 0 then (imageBegin (begun who a s)).2 else begun who a s

theorem rowOf_image_access : (rowOf 0x1220 0).access = .wo := by decide +kernel

theorem writeSegment_image {who : Who} {op offset length : Nat} {b v : Bytes} {flag : Bool} {s : State}
    (h : assembled s who ⟨op, 0x1220, 0, offset, length, b, flag⟩ = some v) (hLength : v.length ≤ domainLimit (rowOf 0x1220 0))
    (hLast : op = 5 → lengthLegal (rowOf 0x1220 0) v = true) :
    writeSegment who ⟨op, 0x1220, 0, offset, length, b, flag⟩ s = if op = 4 then
      (stOk, [], modDict (fun d => { d with partials := d.partials ++ [⟨who, objKey 0x1220 0, v⟩] })
        (imageOpened who ⟨op, 0x1220, 0, offset, length, b, flag⟩ s))
      else writeWhole who ⟨op, 0x1220, 0, offset, length, b, flag⟩ v (imageOpened who ⟨op, 0x1220, 0, offset, length, b, flag⟩ s) := by
  have hLegal : ¬(domainLimit (rowOf 0x1220 0) < v.length ∨ (op = 5 ∧ lengthLegal (rowOf 0x1220 0) v = false)) := by
    rintro (hLong | ⟨hOp, hNot⟩)
    · omega
    · rw [hLast hOp] at hNot
      cases hNot
  have hOpened : (if (0x1220 = 0x1220 ∧ offset = 0) then (imageBegin (begun who ⟨op, 0x1220, 0, offset, length, b, flag⟩ s)).2
      else begun who ⟨op, 0x1220, 0, offset, length, b, flag⟩ s) = imageOpened who ⟨op, 0x1220, 0, offset, length, b, flag⟩ s :=
    ite_of_iff (by simp) _ _
  unfold writeSegment
  rw [h]
  dsimp only
  rw [begun] at hOpened
  dsimp only at hOpened
  rw [if_neg hLegal, if_neg (by simp [rowOf_image_access]), hOpened]

/-- The emptied slot, or nothing, is all that an opened image changes. -/
theorem imageOpened_frame (who : Who) (a : Ask) (s : State) : let u := imageOpened who a s
    u.dict = (begun who a s).dict ∧ u.sys.active = s.sys.active ∧ u.sys.fuses = s.sys.fuses ∧ u.sys.verifyResult = s.sys.verifyResult ∧
    SameBut [.sys] (begun who a s) u ∧ (a.offset ≠ 0 → u.sys = s.sys) := by
  unfold imageOpened imageBegin checked
  by_cases hFirst : a.offset = 0
  · rw [if_pos hFirst]
    split
    · obtain ⟨hActive, hFuses, hResult, -⟩ := setImage_sys (inactiveSlot (begun who a s)) ⟨0, 0, zeroBytes 32, []⟩ (begun who a s)
      exact ⟨(setImage_sameBut _ _ _).2 .dict (by simp), hActive, hFuses, hResult, setImage_sameBut _ _ _, fun h => absurd hFirst h⟩
    · exact ⟨rfl, rfl, rfl, rfl, (Keeps.refl (· ∉ [Part.sys]) _).sameBut, fun h => absurd hFirst h⟩
  · rw [if_neg hFirst]
    exact ⟨rfl, rfl, rfl, rfl, (Keeps.refl (· ∉ [Part.sys]) _).sameBut, fun _ => rfl⟩

theorem imageOpened_emptied {who : Who} {a : Ask} {s : State} (hFirst : a.offset = 0) (hIdle : s.sys.handover ≠ 1) :
    slotImage (imageOpened who a s) (inactiveSlot s) = ⟨0, 0, zeroBytes 32, []⟩ := by
  rw [imageOpened, if_pos hFirst, imageBegin, checked_of_ok (by simp [firstStatus, begun, dropPartial, modDict, hIdle])]
  exact slotImage_setImage_same (inactiveSlot s) _ (begun who a s)

theorem begun_sameBut (who : Who) (a : Ask) (s : State) : SameBut [.dict] s (begun who a s) :=
  (dropPartial_keeps who (objKey a.index a.sub) (.refl (· ∉ [Part.dict]) s) (by simp)).sameBut

theorem imageOpened_sameBut (who : Who) (a : Ask) (s : State) : SameBut [.dict, .sys] s (imageOpened who a s) := by
  obtain ⟨-, -, -, -, hSame, -⟩ := imageOpened_frame who a s
  exact ((begun_sameBut who a s).mono (by simp)).trans (hSame.mono (by simp))

/-- What an image that passes, and one that fails its check, leave. -/
def imageTaken (v : Bytes) (s : State) : State :=
  modSys (fun y => { y with writing := v }) (setImage (inactiveSlot s) ⟨4, imageVersion v, imageDigest v, []⟩ s)
def imageRefused (r : Nat) (s : State) : State := setImage (inactiveSlot s) ⟨slotStateOf r, 0, zeroBytes 32, []⟩ (refuseImage r s)

theorem imageEffect_eq (v : Bytes) (s : State) : imageEffect v s = if verifyImage s 0 v = 0 then (stOk, imageTaken v s)
    else (imageRefusal (verifyImage s 0 v), imageRefused (verifyImage s 0 v) s) := by
  unfold imageEffect
  dsimp only
  split
  case h_1 h => rw [h]; rfl
  case h_2 h => rw [h]; rfl
  case h_3 h => rw [h]; rfl
  case h_4 h0 h1 h4 =>
    rw [if_neg h0, imageRefusal, if_neg h1, if_neg h4]
    rfl

/-- The check of an image depends on the anti-rollback counter alone. -/
theorem verifyImage_congr {s t : State} (h : t.sys.fuses = s.sys.fuses) (kind : Nat) (v : Bytes) : verifyImage t kind v = verifyImage s kind v := by
  unfold verifyImage
  rw [h]

theorem imageTaken_frame (v : Bytes) (s : State) : slotImage (imageTaken v s) (inactiveSlot s) = ⟨4, imageVersion v, imageDigest v, []⟩ ∧
    (imageTaken v s).sys.writing = v ∧ (imageTaken v s).sys.verifyResult = s.sys.verifyResult ∧ SameBut [.sys] s (imageTaken v s) := by
  obtain ⟨-, -, hResult, -⟩ := setImage_sys (inactiveSlot s) ⟨4, imageVersion v, imageDigest v, []⟩ s
  refine ⟨?_, rfl, hResult, ?_⟩
  · exact slotImage_setImage_same (inactiveSlot s) _ s
  · exact (setImage_sameBut _ _ s).trans (modSys_keeps _ (.refl (· ∉ [Part.sys]) _) (by simp)).sameBut

theorem imageRefused_frame (r : Nat) (s : State) : slotImage (imageRefused r s) (inactiveSlot s) = ⟨slotStateOf r, 0, zeroBytes 32, []⟩ ∧
    (imageRefused r s).sys.verifyResult = r ∧ SameBut [.sys] s (imageRefused r s) := by
  obtain ⟨-, -, hResult, -⟩ := setImage_sys (inactiveSlot s) ⟨slotStateOf r, 0, zeroBytes 32, []⟩ (refuseImage r s)
  refine ⟨slotImage_setImage_same _ _ _, hResult, ?_⟩
  exact (modSys_keeps (fun y => { y with verifyResult := r }) (.refl (· ∉ [Part.sys]) s) (by simp)).sameBut.trans (setImage_sameBut _ _ _)

/-- An entry of any status that writes is recorded and answered with it. -/
theorem ask_of_result {who : Who} {a : Ask} {s t : State} {st : Nat} (hReach : reaches s who = true) (hWrites : a.writes = true)
    (hResult : entryResult who a s = (st, [], t)) :
    ask who a s = .next { commandRecord (entryRecord s who a st) t with resp := ⟨st, []⟩ } := by
  simp [ask, done, hReach, runEntry, hResult, hWrites]

/-- A whole image is checked, and taken or refused. -/
theorem writeWhole_image {who : Who} {a : Ask} {v : Bytes} (u : State) (hIndex : a.index = 0x1220) (hSub : a.sub = 0)
    (hLegal : valueLegal (rowOf 0x1220 0) v = true) : writeWhole who a v u = (if verifyImage u 0 v = 0 then stOk else imageRefusal (verifyImage u 0 v),
      [], if verifyImage u 0 v = 0 then imageTaken v u else imageRefused (verifyImage u 0 v) u) := by
  have hServed : notServed u 0x1220 = false := by simp [notServed]
  have hEffect : writeEffect who 0x1220 0 v u = imageEffect v u :=
    writeEffect_of_command who v u rowOf_image_access (by decide) (by decide)
  unfold writeWhole
  rw [hIndex, hSub, if_neg (by simp [hLegal]), if_neg (by simp [hServed]), hEffect, imageEffect_eq]
  dsimp only
  split <;> rfl

theorem exec_imageProgramDone {s : State} (hRuns : firmwareRuns s = true) (hState : (slotImage s (inactiveSlot s)).state = 4) :
    exec .imageProgramDone s = .next (setImage (inactiveSlot s) (belowCounter s.sys.fuses { slotImage s (inactiveSlot s) with
      state := 1, image := s.sys.writing }) (modSys (fun y => { y with writing := [] }) s)) :=
  congrArg done (if_pos ⟨hState, hRuns⟩)

theorem belowCounter_of_new {v : Nat} {x : ImageSlot} (h : v ≤ x.version) : belowCounter v x = x := if_neg (fun hOld => Nat.not_lt.mpr h hOld.2)

/-! Attestation (R494). -/

theorem rows_nonce : ∀ r ∈ objRows, r.index = 0x1230 → r.access = .wo := by decide +kernel

theorem firstStatus_cons_ok {b : Bool} {st : Nat} {cs : List (Bool × Nat)} (hStatus : st ≠ stOk) (h : firstStatus ((b, st) :: cs) = stOk) :
    b = false := by
  cases b with
  | false => rfl
  | true => exact absurd h hStatus

/-- A command that passes its checks is not running already (R94). -/
theorem commandRuns_of_status {s : State} {who : Who} {a : Ask} (hActs : a.acts = true) (h : entryStatus s who a = stOk) :
    commandRuns s who a.index a.sub = false := by
  have hFirst := firstStatus_cons_ok (by decide) h
  rw [hActs, Bool.true_and, Bool.or_eq_false_iff] at hFirst
  exact hFirst.1

theorem nonceEffect_of_idle {n : Nat} {nonce : Bytes} {s : State} (h : (kget s.sys.nonces n).isSome = false) :
    nonceEffect n nonce s = (stOk, modSys (fun y => { y with nonces := kput y.nonces n nonce }) s) :=
  checked_of_ok (by rw [h]; rfl) _ _

/-- The report is signed, and the nonce is spent. -/
def reportSigned (n : Nat) (nonce : Bytes) (s : State) : State := draw (modSys (fun y => { y with
  nonces := kdel y.nonces n
  reports := kput y.reports n (reportBody s n nonce ++ padTo 384 (Config.sign (reportBody s n nonce) (drawn s))) }) s)

theorem exec_attestationSigned {n : Nat} {nonce : Bytes} {s : State} (hRuns : firmwareRuns s = true) (hNonce : kget s.sys.nonces n = some nonce) :
    exec (.attestationSigned n) s = .next (reportSigned n nonce s) := by
  show execAttestationSigned n s = _
  unfold execAttestationSigned
  rw [hNonce]
  dsimp only
  rw [if_neg (by simp [hRuns])]
  rfl

theorem reportBody_fields (s : State) (n : Nat) (nonce : Bytes) : field (reportBody s n nonce) 8 8 = s.beat.count % 2 ^ 64 ∧
    field (reportBody s n nonce) 18 1 = n % 256 ∧ slice (reportBody s n nonce) 32 32 = padTo 32 nonce ∧
    slice (reportBody s n nonce) 64 s.sys.runningDigest.length = s.sys.runningDigest := by
  have hCount : field (reportBody s n nonce) 8 8 = leNat (le 8 s.beat.count) := by simp [reportBody, field, slice, le]
  have hClient : field (reportBody s n nonce) 18 1 = leNat (le 1 n) := by simp [reportBody, field, slice, le]
  have hNonce : slice (reportBody s n nonce) 32 32 = (padTo 32 nonce).take 32 := by
    simp [reportBody, slice, le, zeroBytes, length_padTo, List.take_of_length_le]
  have hDigest : slice (reportBody s n nonce) 64 s.sys.runningDigest.length = s.sys.runningDigest := by
    simp [reportBody, slice, le, zeroBytes, length_padTo]
  exact ⟨hCount.trans (leNat_le 8 _), hClient.trans (leNat_le 1 _), hNonce.trans (List.take_of_length_le (Nat.le_of_eq (length_padTo 32 _))),
    hDigest⟩

end Sys2Proof.Machine

open Sys2Proof Sys2Proof.Machine

/-- Settles O47: the anti-rollback counter, each segment of an image with its check, its programming, and the signed report. -/
theorem imagesAreVerifiedAndReportsSigned : Obligations.ImagesAreVerifiedAndReportsSigned := by
  unfold Obligations.ImagesAreVerifiedAndReportsSigned
  refine ⟨?advance, ?segment, ?last, ?programmed, ?nonce, ?signed⟩
  case advance =>
    intro who b s hPasses hLow hHigh hRuns mark
    exact askWrite_of_command hPasses rows_advance (by decide) (by decide +kernel) (by decide) (by decide) (by decide)
      (advanceEffect_of_permitted hLow hHigh hRuns)
  case segment =>
    intro who offset b v s a hPasses hValue hLength hIdle
    have hWrite := writeSegment_image hValue hLength (fun h => absurd (show 4 = 5 from h) (by decide))
    rw [if_pos rfl] at hWrite
    have hExec : exec (.firmwareImageWrite who offset b false) s = _ :=
      ask_of_write (a := a) hPasses.reached rfl ((entryResult_writeSegment (.inl rfl) hPasses.status).trans hWrite)
    obtain ⟨hDict, -, -, -, -, hLater⟩ := imageOpened_frame who a s
    refine ⟨_, hExec, ?_, fun hFirst => imageOpened_emptied hFirst hIdle, fun hOffset => hLater hOffset, ?_⟩
    · exact congrArg (fun d : Dict => { d with partials := d.partials.append [⟨who, objKey 0x1220 0, v⟩] }) hDict
    · exact (imageOpened_sameBut who a s).trans ((modDict_keeps _ (.refl (· ∉ [Part.dict]) _) (by simp)).sameBut.mono (by simp))
  case last =>
    intro who offset b v s a r hReach hStatus hValue hLength hLegal hLegal'
    have hWrite := writeSegment_image hValue hLength (fun _ => hLegal')
    rw [if_neg (by decide)] at hWrite
    obtain ⟨-, hActive, hFuses, hResult, -⟩ := imageOpened_frame who a s
    have hOpened := imageOpened_sameBut who a s
    have hCheck : verifyImage (imageOpened who a s) 0 v = r := verifyImage_congr hFuses 0 v
    have hSlot : inactiveSlot (imageOpened who a s) = inactiveSlot s := by rw [inactiveSlot, hActive, inactiveSlot]
    have hResponse := ask_of_result (a := a) hReach rfl ((entryResult_writeSegment (.inr rfl) hStatus).trans
      (hWrite.trans (writeWhole_image (imageOpened who a s) rfl rfl hLegal)))
    rw [hCheck] at hResponse
    refine ⟨_, hResponse, fun hGood => ?_, fun hBad => ?_, ?_⟩
    · obtain ⟨hImage, hWriting, hKept, -⟩ := imageTaken_frame v (imageOpened who a s)
      rw [if_pos hGood, ← hSlot]
      exact ⟨hImage, hWriting, hKept.trans hResult⟩
    · obtain ⟨hImage, hCode, -⟩ := imageRefused_frame r (imageOpened who a s)
      rw [if_neg hBad, ← hSlot]
      exact ⟨hImage, hCode⟩
    · split
      · exact hOpened.trans ((imageTaken_frame v _).2.2.2.mono (by simp))
      · exact hOpened.trans ((imageRefused_frame r _).2.2.mono (by simp))
  case programmed =>
    intro s hRuns hState hVersion
    have hExec := exec_imageProgramDone hRuns hState
    rw [belowCounter_of_new (x := { slotImage s (inactiveSlot s) with state := 1, image := s.sys.writing }) hVersion] at hExec
    obtain ⟨-, -, -, hWriting⟩ := setImage_sys (inactiveSlot s) { slotImage s (inactiveSlot s) with state := 1, image := s.sys.writing }
      (modSys (fun y => { y with writing := [] }) s)
    refine ⟨_, hExec, hWriting, slotImage_setImage_same _ _ _, ?_, (sameBut_of_exec (by simp) hExec).mono (by simp [touches])⟩
    refine (slotImage_setImage_other _ _ _).resolve_right ?_
    have := inactiveSlot_le s
    omega
  case nonce =>
    intro who nonce s hPasses
    exact askWrite_of_command hPasses rows_nonce (by decide) (by decide +kernel) (by decide) (by decide) (by decide)
      (nonceEffect_of_idle (commandRuns_of_status rfl hPasses.status))
  case signed =>
    intro n nonce s hRuns hNonce
    have hExec := exec_attestationSigned hRuns hNonce
    obtain ⟨hCount, hClient, hCarried, hDigest⟩ := reportBody_fields s n nonce
    exact ⟨reportBody s n nonce, _, hExec, kget_kput_same _ _ _, hCount, hClient, hCarried, hDigest, kget_kdel_same _ _,
      fun m hm => kget_kput_other _ _ hm.symm, (sameBut_of_exec (by simp) hExec).mono (by simp [touches])⟩
end

section
/-! The host port: its link, PERST_N, its functions and their interrupt vectors (R457, R469-R474). -/

namespace Sys2Proof.Machine

/-- What each step of a fold establishes for its own element, and no step ends, holds of every element. -/
theorem foldl_establishes {α : Type} {P : α → State → Prop} {step : State → α → State} (hMakes : ∀ s x, P x (step s x))
    (hKeeps : ∀ s x y, P y s → P y (step s x)) (l : List α) (s : State) : ∀ x ∈ l, P x (l.foldl step s) := by
  have hStays (y : α) (l : List α) (s : State) (h : P y s) : P y (l.foldl step s) := by
    induction l generalizing s with
    | nil => exact h
    | cons x l ih => exact ih _ (hKeeps s x y h)
  induction l generalizing s with
  | nil => exact fun _ h => absurd h (by simp)
  | cons x l ih =>
    intro y hy
    rcases List.mem_cons.mp hy with rfl | hLater
    · exact hStays y l _ (hMakes s y)
    · exact ih _ y hLater

/-! The link (R457, R471, R472). -/

/-- The port with its link down. -/
def linkLost (s : State) : State := modHost (fun h => { h with link := 0, width := 0 }) s

theorem failInPort_idle {a id : Nat} {s : State} (h : ∀ t, findTransfer (engineOf s a) id = some t → waitsInPort s t false = false ∧
    waitsInPort s t true = false) : failInPort a id s = s := by
  unfold failInPort
  cases hFound : findTransfer (engineOf s a) id with
  | none => rfl
  | some t =>
    obtain ⟨hReads, hWrites⟩ := h t hFound
    dsimp only
    rw [if_neg (by simp [hReads]), if_neg (by simp [hWrites])]

theorem mem_outstanding_of_find {s : State} {a id : Nat} {t : Transfer} (h : findTransfer (engineOf s a) id = some t) :
    ∃ e ∈ s.engines, t ∈ e.2.outstanding := by
  cases hEngine : kget s.engines a with
  | none =>
    rw [engineOf, kgetD, hEngine] at h
    cases h
  | some e =>
    rw [engineOf, kgetD, hEngine] at h
    exact ⟨(a, e), mem_of_kget hEngine, List.mem_of_find?_eq_some h⟩

theorem foldl_unchanged {α β : Type} {f : β → α → β} {l : List α} {s : β} (h : ∀ x ∈ l, f s x = s) : l.foldl f s = s := by
  induction l with
  | nil => rfl
  | cons x l ih => rw [List.foldl_cons, h x List.mem_cons_self, ih (fun y hy => h y (List.mem_cons_of_mem _ hy))]

/-- With no transfer waiting in the port, none fails. -/
theorem failHostRequests_idle {s : State} (h : ∀ e ∈ s.engines, ∀ t ∈ e.2.outstanding, waitsInPort s t false = false ∧
    waitsInPort s t true = false) : failHostRequests s = s := by
  refine foldl_unchanged (fun e _ => foldl_unchanged (fun t _ => failInPort_idle (fun u hFound => ?_)))
  obtain ⟨e', he', hu⟩ := mem_outstanding_of_find hFound
  exact h e' he' u hu

theorem failHostRequests_one {a : Nat} {t : Transfer} {s : State} (hEngine : s.engines = [(a, engineOf s a)])
    (hTransfer : (engineOf s a).outstanding = [t]) (hWaits : waitsInPort s t false = true) : failHostRequests s = failRead a t s := by
  have hFound : findTransfer (engineOf s a) t.id = some t := by
    rw [findTransfer, hTransfer, List.find?_cons, beq_self_eq_true]
  unfold failHostRequests
  rw [hEngine, List.foldl_cons, List.foldl_nil, hTransfer, List.foldl_cons, List.foldl_nil, failInPort, hFound]
  exact if_pos hWaits

theorem failHostRequests_parts (s : State) (p : Part) (h : p = .host ∨ p = .dict ∨ p = .sys) : Part.same p s (failHostRequests s) :=
  (failHostRequests_keeps (.refl (fun p => p = .host ∨ p = .dict ∨ p = .sys) s) (by simp) (by simp) (by simp) (by simp) (by simp) (by simp)
    (by simp) (by simp) (by simp) (by simp) (by simp)).parts p h

theorem rows_pcieRetrain : ∀ r ∈ objRows, r.index = 0x1403 → r.access = .wo := by decide +kernel

theorem pcieRetrainEffect_of_idle {s : State} (h : hostOutstanding s = false) :
    pcieRetrainEffect s = (stOk, modHost (fun h => { h with link := 1, width := 0 }) s) :=
  checked_of_ok (by rw [h]; rfl) _ _

/-! Functions (R470, R471). -/

/-- The host port of `t` is that of `s`, but for interrupts that are pending. -/
def SamePort (s t : State) : Prop := ∃ bits, t.host = { s.host with pendingBits := bits }

theorem SamePort.refl (s : State) : SamePort s s := ⟨s.host.pendingBits, rfl⟩

theorem SamePort.trans {s t u : State} (h : SamePort s t) (h' : SamePort t u) : SamePort s u := by
  obtain ⟨b, hb⟩ := h
  obtain ⟨c, hc⟩ := h'
  exact ⟨c, by rw [hc, hb]⟩

theorem samePort_of_host {s t : State} (h : t.host = s.host) : SamePort s t := ⟨s.host.pendingBits, h⟩

theorem samePort_signal (f v : Nat) (s : State) : SamePort s (signal f v s) := by
  unfold signal
  dsimp only
  split
  · exact .refl s
  · exact ⟨_, rfl⟩

theorem samePort_freeSlot (k : Nat) (s : State) : SamePort s (freeSlot k s) := by
  have hLeft : (stepLeft k s).host = s.host := (discardStep_keeps k (.refl (· = .host) _) (by simp) (by simp) (by simp) (by simp) (by simp)
    (by simp) (by simp)).parts .host rfl
  have hRefresh (u : State) : (refreshLeft k u).host = u.host := by
    unfold refreshLeft failRefresh
    split
    · split
      · rw [event_host]
      · rfl
    · rfl
  have hPaths (u : State) : (pathsPurged k u).host = u.host := pathsPurged_parts k u .host (by simp)
  have hFreed (u : State) : SamePort u (slotFreed k u) := by
    unfold slotFreed
    split
    · exact samePort_signal 0 (8 + k) (setSlot k Slot.free u)
    · exact .refl u
  have hRefreshed := (samePort_of_host hLeft).trans (samePort_of_host (hRefresh _))
  rw [freeSlot_eq]
  generalize refreshLeft k (stepLeft k s) = u at hRefreshed ⊢
  have hPurged := (hRefreshed.trans (samePort_of_host rfl : SamePort u (memoriesFreed k u))).trans (samePort_of_host (hPaths _))
  generalize pathsPurged k (memoriesFreed k u) = v at hPurged ⊢
  exact (hPurged.trans (samePort_of_host rfl : SamePort v (fabricFreed k v))).trans (hFreed _)

theorem freeSlot_dict (k : Nat) (s : State) : (freeSlot k s).dict = s.dict :=
  (freeSlot_keeps k (.refl (· = .dict) s) (by simp) (by simp) (by simp) (by simp) (by simp) (by simp) (by simp) (by simp) (by simp) (by simp)
    (by simp) (by simp) (by simp) (by simp)).parts .dict rfl

theorem freeSlot_sys (k : Nat) (s : State) : (freeSlot k s).sys = s.sys :=
  (freeSlot_keeps k (.refl (· = .sys) s) (by simp) (by simp) (by simp) (by simp) (by simp) (by simp) (by simp) (by simp) (by simp) (by simp)
    (by simp) (by simp) (by simp) (by simp)).parts .sys rfl

/-- A slot of a function that is reset: its route is released, or its loading ends. -/
def slotReleased (k : Nat) (s : State) : State :=
  if (slotOf s k).state = 2 then modSlot k (fun x => { x with state := 3 }) s
  else if (slotOf s k).state = 1 then freeSlot k s else s

theorem slotReleased_frame (k : Nat) (s : State) : SamePort s (slotReleased k s) ∧ (slotReleased k s).dict = s.dict ∧
    (slotReleased k s).sys = s.sys ∧ (∀ j, j ≠ k → slotOf (slotReleased k s) j = slotOf s j) ∧
    ((slotOf s k).state = 2 → (slotOf (slotReleased k s) k).state = 3) ∧ ((slotOf s k).state = 1 → (slotOf (slotReleased k s) k).state = 0) := by
  unfold slotReleased
  by_cases hRuns : (slotOf s k).state = 2
  · rw [if_pos hRuns, slotOf_modSlot_same]
    exact ⟨.refl s, rfl, rfl, fun j hj => slotOf_modSlot_other s _ hj.symm, fun _ => rfl, fun h => by omega⟩
  · rw [if_neg hRuns]
    by_cases hLoads : (slotOf s k).state = 1
    · obtain ⟨hSlot, hOthers, -⟩ := freeSlot_frees k s
      rw [if_pos hLoads, hSlot]
      exact ⟨samePort_freeSlot k s, freeSlot_dict k s, freeSlot_sys k s, hOthers, fun h => absurd h hRuns, fun _ => rfl⟩
    · rw [if_neg hLoads]
      exact ⟨.refl s, rfl, rfl, fun _ _ => rfl, fun h => absurd h hRuns, fun h => absurd h hLoads⟩

/-- The slots of a list are released one after another. -/
theorem foldl_slotReleased {ks : List Nat} (hNodup : ks.Nodup) (s : State) : let t := ks.foldl (fun s k => slotReleased k s) s
    SamePort s t ∧ t.dict = s.dict ∧ t.sys = s.sys ∧ (∀ j, j ∉ ks → slotOf t j = slotOf s j) ∧
    (∀ k ∈ ks, (slotOf s k).state = 2 → (slotOf t k).state = 3) ∧ (∀ k ∈ ks, (slotOf s k).state = 1 → (slotOf t k).state = 0) := by
  induction ks generalizing s with
  | nil => exact ⟨.refl s, rfl, rfl, fun _ _ => rfl, fun _ h => absurd h (by simp), fun _ h => absurd h (by simp)⟩
  | cons k ks ih =>
    obtain ⟨hNew, hRest⟩ := List.nodup_cons.mp hNodup
    obtain ⟨hPort, hDict, hSys, hOthers, hRuns, hLoads⟩ := slotReleased_frame k s
    obtain ⟨hPort', hDict', hSys', hOthers', hRuns', hLoads'⟩ := ih hRest (slotReleased k s)
    have hLater (j : Nat) (hj : j ∈ ks) : slotOf (slotReleased k s) j = slotOf s j := hOthers j (fun h => hNew (h ▸ hj))
    refine ⟨hPort.trans hPort', hDict'.trans hDict, hSys'.trans hSys, fun j hj => ?_, fun j hj hState => ?_, fun j hj hState => ?_⟩
    · rw [List.mem_cons, not_or] at hj
      exact (hOthers' j hj.2).trans (hOthers j hj.1)
    · rcases List.mem_cons.mp hj with rfl | hj
      · exact (congrArg Slot.state (hOthers' j hNew)).trans (hRuns hState)
      · exact hRuns' j hj (by rw [hLater j hj]; exact hState)
    · rcases List.mem_cons.mp hj with rfl | hj
      · exact (congrArg Slot.state (hOthers' j hNew)).trans (hLoads hState)
      · exact hLoads' j hj (by rw [hLater j hj]; exact hState)

/-- A function's slots and its request, before what the port holds of it goes. -/
def functionLeft (f : Nat) (s : State) : State :=
  let u := (slotsHeld s f).foldl (fun s k => slotReleased k s) s
  if (admissionOf u f).state = 1 ∨ (admissionOf u f).state = 2 then modAdmission f (fun a => { a with state := 0 }) u else u

theorem resetFunction_eq (f : Nat) (s : State) : resetFunction f s = clearFunction f (functionLeft f s) := by
  unfold resetFunction functionLeft slotReleased
  with_reducible rfl

theorem functionLeft_frame (f : Nat) (s : State) : SamePort s (functionLeft f s) ∧ (functionLeft f s).dict = s.dict ∧
    (functionLeft f s).sys = s.sys ∧ (∀ k ∈ slotsHeld s f, (slotOf s k).state = 2 → (slotOf (functionLeft f s) k).state = 3) ∧
    (∀ k ∈ slotsHeld s f, (slotOf s k).state = 1 → (slotOf (functionLeft f s) k).state = 0) := by
  have hNodup : (slotsHeld s f).Nodup := List.Pairwise.filter _ (by decide)
  obtain ⟨hPort, hDict, hSys, -, hRuns, hLoads⟩ := foldl_slotReleased hNodup s
  unfold functionLeft
  dsimp only
  generalize (slotsHeld s f).foldl (fun s k => slotReleased k s) s = u at hPort hDict hSys hRuns hLoads ⊢
  split
  · exact ⟨hPort, hDict, hSys, hRuns, hLoads⟩
  · exact ⟨hPort, hDict, hSys, hRuns, hLoads⟩

/-- What the reset of a function leaves of the port, the mailboxes and its client's slots (R471). -/
theorem resetFunction_frame (f : Nat) (s : State) : let t := resetFunction f s
    t.host.vfs = s.host.vfs ∧ t.sys = s.sys ∧ t.dict.mailboxes = kdel s.dict.mailboxes f ∧
    t.host.unmasked = s.host.unmasked.filter (fun v => v / 2048 != f) ∧ t.host.windows = s.host.windows.filter (fun e => e.1 / 64 != f) ∧
    t.host.windowsSet = s.host.windowsSet.filter (fun e => e.1 / 64 != f) ∧
    (∀ k ∈ slotsHeld s f, (slotOf s k).state = 2 → (slotOf t k).state = 3) ∧
    (∀ k ∈ slotsHeld s f, (slotOf s k).state = 1 → (slotOf t k).state = 0) := by
  obtain ⟨⟨bits, hHost⟩, hDict, hSys, hRuns, hLoads⟩ := functionLeft_frame f s
  rw [resetFunction_eq]
  generalize functionLeft f s = u at hHost hDict hSys hRuns hLoads ⊢
  unfold clearFunction
  dsimp only [modDict, modHost]
  rw [hHost, hDict]
  exact ⟨rfl, hSys, rfl, rfl, rfl, rfl, hRuns, hLoads⟩

/-- A function whose mailbox is empty and none of whose vectors is unmasked. -/
def FunctionCleared (f : Nat) (s : State) : Prop := kget s.dict.mailboxes f = none ∧ ∀ v ∈ s.host.unmasked, v / 2048 ≠ f

theorem resetFunction_clears (f : Nat) (s : State) : FunctionCleared f (resetFunction f s) := by
  obtain ⟨-, -, hMailboxes, hUnmasked, -⟩ := resetFunction_frame f s
  refine ⟨by rw [hMailboxes, kget_kdel_same], fun v hv => ?_⟩
  rw [hUnmasked] at hv
  simpa using (List.mem_filter.mp hv).2

theorem resetFunction_leaves_cleared (f g : Nat) (s : State) (h : FunctionCleared g s) : FunctionCleared g (resetFunction f s) := by
  obtain ⟨-, -, hMailboxes, hUnmasked, -⟩ := resetFunction_frame f s
  refine ⟨?_, fun v hv => h.2 v ?_⟩
  · rw [hMailboxes]
    by_cases hSame : f = g
    · rw [hSame, kget_kdel_same]
    · rw [kget_kdel_other _ hSame, h.1]
  · rw [hUnmasked] at hv
    exact (List.mem_filter.mp hv).1

theorem clearVfs_frame (s : State) : (clearVfs s).host.vfs = 0 ∧ (clearVfs s).sys = s.sys ∧
    ∀ f, 1 ≤ f → f ≤ s.host.vfs → FunctionCleared f (clearVfs s) := by
  refine ⟨rfl, ?_, fun f hLow hHigh => ?_⟩
  · exact foldl_field (g := State.sys) (fun s k => (resetFunction_frame (k + 1) s).2.1) (List.range s.host.vfs) s
  · have hAll := foldl_establishes (P := fun k s => FunctionCleared (k + 1) s) (step := fun s k => resetFunction (k + 1) s)
      (fun s k => resetFunction_clears (k + 1) s) (fun s k j h => resetFunction_leaves_cleared (k + 1) (j + 1) s h) (List.range s.host.vfs) s
      (f - 1) (List.mem_range.mpr (by omega))
    rw [Nat.sub_add_cancel hLow] at hAll
    exact hAll

/-! PERST_N (R474). -/

/-- The port as PERST_N leaves it, before the class of 1203.00 is added. -/
def portReset (s : State) : State :=
  failHostRequests (modHost (fun h => { h with link := 1, width := 0, perst := true }) (clearFunction 0 (clearVfs s)))

theorem portReset_frame (s : State) : (portReset s).host.perst = true ∧ (portReset s).host.link = 1 ∧ (portReset s).host.width = 0 ∧
    (portReset s).host.vfs = 0 ∧ kget (portReset s).dict.mailboxes 0 = none ∧ (∀ v ∈ (portReset s).host.unmasked, v / 2048 ≠ 0) ∧
    (∀ e ∈ (portReset s).host.windows ++ (portReset s).host.windowsSet, e.1 / 64 ≠ 0) ∧ (portReset s).sys = s.sys := by
  obtain ⟨hVfs, hSys, -⟩ := clearVfs_frame s
  have hParts := failHostRequests_parts (modHost (fun h => { h with link := 1, width := 0, perst := true }) (clearFunction 0 (clearVfs s)))
  have hHost : (portReset s).host = _ := hParts .host (by simp)
  have hDict : (portReset s).dict = _ := hParts .dict (by simp)
  have hSys' : (portReset s).sys = _ := hParts .sys (by simp)
  rw [hHost, hDict, hSys']
  generalize clearVfs s = u at hVfs hSys
  refine ⟨rfl, rfl, rfl, hVfs, kget_kdel_same _ _, fun v hv => ?_, fun e he => ?_, hSys⟩
  · simpa using (List.mem_filter.mp hv).2
  · rcases List.mem_append.mp he with he | he <;> simpa using (List.mem_filter.mp he).2

theorem portReset_sameBut (s : State) : SameBut (touches .perst) s (portReset s) := by
  have hFunctions := clearVfs_keeps (.refl (· ∉ touches .perst) s) (by simp [touches]) (by simp [touches]) (by simp [touches]) (by simp [touches])
    (by simp [touches]) (by simp [touches]) (by simp [touches]) (by simp [touches]) (by simp [touches]) (by simp [touches]) (by simp [touches])
    (by simp [touches]) (by simp [touches]) (by simp [touches]) (by simp [touches]) (by simp [touches])
  have hPort := modHost_keeps (fun h => { h with link := 1, width := 0, perst := true })
    (clearFunction_keeps 0 hFunctions (by simp [touches]) (by simp [touches])) (by simp [touches])
  exact (failHostRequests_keeps hPort (by simp [touches]) (by simp [touches]) (by simp [touches]) (by simp [touches]) (by simp [touches])
    (by simp [touches]) (by simp [touches]) (by simp [touches]) (by simp [touches]) (by simp [touches]) (by simp [touches])).sameBut

theorem exec_perst (s : State) : exec .perst s =
    .next (if setting (portReset s) 0x1203 0 = 0 then portReset s else requestReset 1 (setting (portReset s) 0x1203 0) 255 (portReset s)) := by
  show execPerst s = _
  unfold execPerst portReset done
  with_reducible rfl

/-! Interrupt vectors (R469). -/

/-- A vector is unmasked, and no longer pending. -/
def vectorUnmasked (f v : Nat) (s : State) : State := modHost (fun h => { h with
  unmasked := if h.unmasked.contains (f * 2048 + v) then h.unmasked else h.unmasked ++ [f * 2048 + v]
  pendingBits := h.pendingBits.filter (· != f * 2048 + v) }) s

theorem exec_msixUnmask {f v : Nat} {s : State} (h : f = 0 ∧ v < 2048 ∨ 0 < f ∧ f ≤ s.host.vfs ∧ v < 32) : exec (.msixUnmask f v) s =
    .next (if s.host.pendingBits.contains (f * 2048 + v) then emit (.message f v) (vectorUnmasked f v s) else vectorUnmasked f v s) :=
  congrArg done (if_pos h)

theorem vectorUnmasked_frame (f v : Nat) (s : State) : f * 2048 + v ∈ (vectorUnmasked f v s).host.unmasked ∧
    f * 2048 + v ∉ (vectorUnmasked f v s).host.pendingBits := by
  refine ⟨?_, fun h => by simpa using (List.mem_filter.mp h).2⟩
  unfold vectorUnmasked modHost
  dsimp only
  split
  case isTrue h => exact List.contains_iff_mem.mp h
  case isFalse => exact List.mem_append_right _ (List.mem_singleton.mpr rfl)

end Sys2Proof.Machine

open Sys2Proof Sys2Proof.Machine

/-- Settles O48: the port's link and its failed requests, PERST_N, the reset of functions, and a vector that is unmasked. -/
theorem theHostPortTrainsAndItsFunctionsReset : Obligations.TheHostPortTrainsAndItsFunctionsReset := by
  unfold Obligations.TheHostPortTrainsAndItsFunctionsReset
  refine ⟨?up, ?down, ?waiting, ?retrain, ?perst, fun _ => rfl, ?enable, ?disable, ?functionReset, ?unmask⟩
  case up =>
    intro rate width s hLow hSet hHigh hWidth hReset hPower
    exact congrArg done (if_pos ⟨hLow, hSet, hHigh, hWidth, hReset, hPower⟩)
  case down => exact fun s hIdle => congrArg done (failHostRequests_idle (s := linkLost s) hIdle)
  case waiting => exact fun a t s hEngine hTransfer hWaits => congrArg done (failHostRequests_one (s := linkLost s) hEngine hTransfer hWaits)
  case retrain =>
    intro who b s hPasses hIdle
    exact askWrite_of_command hPasses rows_pcieRetrain (by decide) (by decide +kernel) (by decide) (by decide) (by decide)
      (pcieRetrainEffect_of_idle hIdle)
  case perst =>
    intro s
    obtain ⟨hReset, hLink, hWidth, hVfs, hMailbox, hUnmasked, hWindows, hSys⟩ := portReset_frame s
    exact ⟨portReset s, exec_perst s, hReset, hLink, hWidth, hVfs, hMailbox, hUnmasked, hWindows, hSys, portReset_sameBut s⟩
  case enable => exact fun k s hk hNone hRuns => congrArg done (if_pos ⟨hk, hNone, hRuns⟩)
  case disable =>
    intro s
    have hExec : exec .vfDisable s = .next (clearVfs s) := rfl
    obtain ⟨hVfs, -, hCleared⟩ := clearVfs_frame s
    exact ⟨_, hExec, hVfs, hCleared, sameBut_of_exec (by simp) hExec⟩
  case functionReset =>
    intro f s hLow hHigh
    have hExec : exec (.functionLevelReset f) s = .next (resetFunction f s) := by
      show execFunctionLevelReset f s = _
      unfold execFunctionLevelReset
      rw [if_neg (by omega), if_pos hHigh, done]
    obtain ⟨hVfs, -, hMailboxes, hUnmasked, hWindows, hSet, hRuns, hLoads⟩ := resetFunction_frame f s
    refine ⟨_, hExec, hVfs, ?_, fun v => ?_, fun e => ?_, fun e => ?_, hRuns, hLoads, sameBut_of_exec (by simp) hExec⟩
    · rw [hMailboxes, kget_kdel_same]
    · rw [hUnmasked, List.mem_filter]
      simp
    · rw [hWindows, List.mem_filter]
      simp
    · rw [hSet, List.mem_filter]
      simp
  case unmask =>
    intro f v s hVector
    have hExec := exec_msixUnmask hVector
    obtain ⟨hUnmasked, hTaken⟩ := vectorUnmasked_frame f v s
    refine ⟨_, hExec, ?_, ?_, ?_, (sameBut_of_exec (by simp) hExec).mono (by simp [touches])⟩
    · split <;> exact hUnmasked
    · split <;> exact hTaken
    · by_cases hPending : f * 2048 + v ∈ s.host.pendingBits
      · rw [if_pos (List.contains_iff_mem.mpr hPending), if_pos hPending]
        rfl
      · rw [if_neg (fun h => hPending (List.contains_iff_mem.mp h)), if_neg hPending, List.append_nil]
        rfl
end

section
/-! The boot window and the cargo aperture of BAR4 (R458, R464-R466, R472, R489). -/

namespace Sys2Proof.Machine

/-! The boot doorbell (R464, R489). -/

theorem setBootStatus_frame (k : Nat) (s : State) : (setBootStatus k s).host.bootStatus = k ∧
    (setBootStatus k s).host.bootImage = s.host.bootImage ∧ (setBootStatus k s).host.module = s.host.module ∧
    (setBootStatus k s).sys = s.sys := by
  unfold setBootStatus
  split
  case isTrue h => exact ⟨h, rfl, rfl, rfl⟩
  case isFalse =>
    obtain ⟨bits, hHost⟩ := samePort_signal 0 12 (modHost (fun h => { h with bootStatus := k }) s)
    have hSys : (signal 0 12 (modHost (fun h => { h with bootStatus := k }) s)).sys = s.sys :=
      (signal_keeps 0 12 (.refl (· = .sys) _) (by simp) (by simp)).parts .sys rfl
    rw [hHost]
    exact ⟨rfl, rfl, rfl, hSys⟩

/-- A segment joins the image. -/
def segmentJoined (image : Bytes) (s : State) : State := setBootStatus 1 (modHost (fun h => { h with bootImage := image }) s)

/-- The image is checked after its last segment, and runs or is refused. -/
def bootChecked (image : Bytes) (s : State) : State :=
  match verifyImage s 0 image with
  | 0 => setBootStatus 3 (runImage image 2 1 s)
  | r => setBootStatus 4 (modHost (fun h => { h with bootImage := [] }) (refuseImage r s))

theorem segmentJoined_frame (image : Bytes) (s : State) : (segmentJoined image s).host.bootImage = image ∧
    (segmentJoined image s).host.module = s.host.module ∧ (segmentJoined image s).sys = s.sys := by
  obtain ⟨-, hImage, hModule, hSys⟩ := setBootStatus_frame 1 (modHost (fun h => { h with bootImage := image }) s)
  exact ⟨hImage, hModule, hSys⟩

theorem bootChecked_good {image : Bytes} {s : State} (h : verifyImage s 0 image = 0) : (bootChecked image s).host.bootStatus = 3 ∧
    (bootChecked image s).host.module = 1 ∧ (bootChecked image s).sys.bootResult = 2 ∧
    (bootChecked image s).sys.runningVersion = imageVersion image ∧ (bootChecked image s).sys.runningDigest = imageDigest image := by
  have hRuns : bootChecked image s = setBootStatus 3 (runImage image 2 1 s) := by
    unfold bootChecked
    rw [h]
    rfl
  obtain ⟨hStatus, -, hModule, hSys⟩ := setBootStatus_frame 3 (runImage image 2 1 s)
  rw [hRuns, hSys]
  exact ⟨hStatus, hModule, rfl, rfl, rfl⟩

theorem bootChecked_bad {image : Bytes} {s : State} (h : verifyImage s 0 image ≠ 0) : (bootChecked image s).host.bootStatus = 4 ∧
    (bootChecked image s).host.bootImage = [] ∧ (bootChecked image s).host.module = s.host.module ∧
    (bootChecked image s).sys.verifyResult = verifyImage s 0 image := by
  obtain ⟨hStatus, hImage, hModule, hSys⟩ := setBootStatus_frame 4 (modHost (fun h => { h with bootImage := [] }) (refuseImage (verifyImage s 0 image) s))
  unfold bootChecked
  split
  case h_1 hGood => exact absurd hGood h
  case h_2 =>
    rw [hSys]
    exact ⟨hStatus, hImage, hModule, rfl⟩

/-- The image with a segment of `n` bytes. -/
def imageWith (n : Nat) (segment : Bytes) (s : State) : Bytes := (if s.host.bootStatus = 4 then [] else s.host.bootImage) ++ padTo n segment

theorem exec_bootDoorbell {value : Word} {segment : Bytes} {s : State} (hStraps : s.sys.straps / 4 % 4 = 2) (hModule : s.host.module = 0)
    (hIdle : s.host.bootStatus ≠ 1) (hChecks : s.host.bootStatus ≠ 2) (hBits : bits value.toNat 30 24 = 0) (hNone : s.sys.resetting = none)
    (hPower : powered s = true) : exec (.bootDoorbell value segment) s = .next (
      let image := imageWith (value.toNat % 2 ^ 24) segment s
      if value.msb = false then setBootStatus 0 (segmentJoined image s) else bootChecked image (setBootStatus 2 (segmentJoined image s))) := by
  have hLength : bits value.toNat 23 0 = value.toNat % 2 ^ 24 := rfl
  have hMsb : bit value.toNat 31 = value.msb := by rw [BitVec.msb_eq_getLsbD_last]; rfl
  have hGuard : ¬(s.sys.straps / 4 % 4 ≠ 2 ∨ s.host.module ≠ 0 ∨ s.host.bootStatus = 1 ∨ s.host.bootStatus = 2 ∨
      bits value.toNat 30 24 ≠ 0 ∨ 2 ^ 24 < value.toNat % 2 ^ 24 ∨ s.sys.resetting.isSome = true ∨ powered s = false) := by
    simp [hStraps, hModule, hIdle, hChecks, hBits, hNone, hPower]
    omega
  show execBootDoorbell value segment s = _
  unfold execBootDoorbell
  dsimp only
  rw [hLength, hMsb, if_neg hGuard]
  rfl

/-! Windows (R465). -/

theorem windowEffect_of_mapped {n w i : Nat} {c : Cargo} {b : Bytes} {s : State} (hFound : cargoOf s (winHandle b) = some (i, c))
    (hMine : c.client = n) (hState : c.state ≠ 2) (hFlags : field b 12 1 ≤ 3) (hZero : zeroAt b 13 3 = true) (hMapped : winHandle b ≠ 0xFFFFFFFF)
    (hPages : winFirst b + winPages b ≤ c.pageCount) (hSize : winPages b * pageBytes ≤ apertureBytes s n) :
    windowEffect n w b s = (stOk, modHost (fun x => { x with windowsSet := kput x.windowsSet (n * 64 + w) b }) s) := by
  have hFlags' : ¬3 < field b 12 1 := by omega
  have hPages' : ¬c.pageCount < winFirst b + winPages b := by omega
  have hSize' : ¬apertureBytes s n < winPages b * pageBytes := by omega
  have hMap : (winHandle b != 0xFFFFFFFF) = true := by simpa using hMapped
  unfold windowEffect
  dsimp only
  rw [hFound, hMap, checked_of_ok (by simp [firstStatus, hFlags', hZero, hMine, hPages', hSize', hState])]
  rfl

theorem writeEffect_window (who : Who) (w : Nat) (b : Bytes) (s : State) : writeEffect who 0x1410 w b s = windowEffect who.client w b s :=
  if_pos rfl

/-! Reads of BAR4 (R280, R286, R466). -/

theorem window_in_range {offset bytes : Nat} (h : offset < 64 * bytes) : ¬64 ≤ offset / bytes :=
  Nat.not_le.mpr (Nat.div_lt_of_lt_mul (by rwa [Nat.mul_comm] at h))

/-- A read of a window that answers. -/
def readAnswered (f i a length : Nat) (s : State) : State := emit (.completion f (some (cargoBytes s i a length))) s

/-- A read that reaches a cargo, by its state and its home. -/
def windowRead (f i a length : Nat) (data : Option Bytes) (s : State) : State :=
  let c := kgetD Cargo.free s.mem.cargoes i
  let pages := pagesOf a length
  if c.state = 2 ∨ pages.any (fun p => unmapped s i p && goesHome s i p) = true then abortRead f i s
  else if c.farCached = true then
    let r := accessPages i pages s
    if r.2 = false then r.1
    else
      let x := landPages i pages data r.1
      if x.2 then readAnswered f i a length x.1 else abortRead f i x.1
  else if c.tier = 4 then
    match data with
    | none => abortRead f i s
    | some b => emit (.completion f (some (padTo length b))) s
  else readAnswered f i a length s

section
variable {f offset length : Nat} {data : Option Bytes} {s : State}
variable (hFunction : hasFunction s f = true) (hLink : 5 ≤ s.host.link) (hOffset : offset < 64 * apertureBytes s f)
include hFunction hLink hOffset

theorem portOpen : ¬(hasFunction s f = false ∨ s.host.link < 5 ∨ 64 ≤ offset / apertureBytes s f) := by
  rintro (h | h | h)
  · rw [hFunction] at h
    cases h
  · omega
  · exact window_in_range hOffset h

theorem exec_bar4Read_none (hWindow : windowAt s f offset length false = none) :
    exec (.bar4Read f offset length data) s = .next (emit (.completion f (some (zeroBytes length))) s) := by
  show execBar4Read f offset length data s = _
  unfold execBar4Read
  rw [if_neg (portOpen hFunction hLink hOffset), hWindow]
  rfl

theorem exec_bar4Read {w i a : Nat} (hWindow : windowAt s f offset length false = some (w, i, a)) :
    exec (.bar4Read f offset length data) s = .next (windowRead f i a length data s) := by
  show execBar4Read f offset length data s = _
  unfold execBar4Read
  rw [if_neg (portOpen hFunction hLink hOffset), hWindow]
  rfl

end

theorem noneUnmapped {i a length : Nat} {s : State} (h : ∀ p ∈ pagesOf a length, unmapped s i p = false) :
    (pagesOf a length).any (fun p => unmapped s i p && goesHome s i p) = false :=
  List.any_eq_false.mpr (fun p hp => by simp [h p hp])

theorem windowRead_home {f i a length : Nat} {data : Option Bytes} {s : State} (hState : (kgetD Cargo.free s.mem.cargoes i).state ≠ 2)
    (hMapped : ∀ p ∈ pagesOf a length, unmapped s i p = false) (hCached : (kgetD Cargo.free s.mem.cargoes i).farCached = false) :
    ((kgetD Cargo.free s.mem.cargoes i).tier ≠ 4 → windowRead f i a length data s = readAnswered f i a length s) ∧
    (∀ b, (kgetD Cargo.free s.mem.cargoes i).tier = 4 → data = some b →
      windowRead f i a length data s = emit (.completion f (some (padTo length b))) s) := by
  unfold windowRead
  dsimp only
  rw [if_neg (by simp [hState, noneUnmapped hMapped]), if_neg (by simp [hCached])]
  refine ⟨fun hTier => if_neg hTier, fun b hTier hData => ?_⟩
  rw [if_pos hTier, hData]

theorem windowRead_failed {f i a length : Nat} {data : Option Bytes} {s : State} (h : (kgetD Cargo.free s.mem.cargoes i).state = 2 ∨
    ((kgetD Cargo.free s.mem.cargoes i).farCached = false ∧ ((∃ p ∈ pagesOf a length, unmapped s i p = true) ∨
      (kgetD Cargo.free s.mem.cargoes i).tier = 4 ∧ data = none))) : windowRead f i a length data s = abortRead f i s := by
  unfold windowRead
  dsimp only
  by_cases hAborts : (kgetD Cargo.free s.mem.cargoes i).state = 2 ∨ (pagesOf a length).any (fun p => unmapped s i p && goesHome s i p) = true
  · rw [if_pos hAborts]
  · obtain ⟨hState, hNone⟩ := not_or.mp hAborts
    obtain ⟨hCached, hCause⟩ := h.resolve_left hState
    rcases hCause with ⟨p, hp, hUnmapped⟩ | ⟨hTier, hData⟩
    · exact absurd (List.any_eq_true.mpr ⟨p, hp, by simp [hUnmapped, goesHome, hCached]⟩) hNone
    · rw [if_neg hAborts, if_neg (by simp [hCached]), if_pos hTier, hData]

theorem abortRead_frame (f i : Nat) (s : State) : (abortRead f i s).out = s.out ++ [.completion f none] ∧ (abortRead f i s).mem = s.mem ∧
    (abortRead f i s).led.events = (s.led.events + 1) % 2 ^ 64 ∧ SameBut [.out, .led, .ctr] s (abortRead f i s) := by
  refine ⟨?_, ?_, ?_, ?_⟩
  · unfold abortRead emit
    dsimp only
    rw [count_out, event_out]
  · unfold abortRead emit
    dsimp only
    rw [count_mem, event_mem]
  · unfold abortRead emit
    dsimp only
    rw [count_led, event_led]
  · have hEvent := event_keeps evtCargoFail ⟨0xFF, (kgetD Cargo.free s.mem.cargoes i).client, 0xFFFF⟩
      (le 4 (handleOf i (kgetD Cargo.free s.mem.cargoes i))) (.refl (· ∉ [Part.out, .led, .ctr]) s) (by simp) (by simp)
    exact (emit_keeps (.completion f none) (count_keeps 0x543C (kgetD Cargo.free s.mem.cargoes i).client 1 hEvent (by simp)) (by simp)).sameBut

/-! A read through the T1 cache (R280). -/

/-- A frame but for the time of its last use. -/
def frameKept (f : CacheFrame) : CacheFrame := { f with lastUse := 0 }

/-- What a read of a cargo finds: the contents of cargoes, the frames but for the time of their last use, and the records. -/
structure SameContents (s t : State) : Prop where
  home : t.mem.home = s.mem.home
  cached : t.mem.cached = s.mem.cached
  cargoes : t.mem.cargoes = s.mem.cargoes
  beat : t.beat = s.beat
  out : t.out = s.out
  frames : ∀ i p, (frameOf t i p).map frameKept = (frameOf s i p).map frameKept

theorem SameContents.refl (s : State) : SameContents s s := ⟨rfl, rfl, rfl, rfl, rfl, fun _ _ => rfl⟩

theorem SameContents.trans {s t u : State} (h : SameContents s t) (h' : SameContents t u) : SameContents s u :=
  ⟨h'.home.trans h.home, h'.cached.trans h.cached, h'.cargoes.trans h.cargoes, h'.beat.trans h.beat, h'.out.trans h.out,
    fun i p => (h'.frames i p).trans (h.frames i p)⟩

/-- A frame that serves an access of its page: present, filled, and not out of date. -/
def FrameServes (i p : Nat) (s : State) : Prop :=
  ∃ f, frameOf s i p = some f ∧ f.refilling = false ∧ frameOld s (kgetD Cargo.free s.mem.cargoes i) f = false

theorem frameServes_of_fresh {i p : Nat} {s : State} (hFresh : fetchesHome s i p = false)
    (hFilled : (frameOf s i p).all (fun x => !x.refilling) = true) : FrameServes i p s := by
  unfold fetchesHome at hFresh
  cases hFrame : frameOf s i p with
  | none => rw [hFrame] at hFresh; cases hFresh
  | some f =>
    rw [hFrame] at hFresh hFilled
    have hNot : f.refilling = false := by simpa using hFilled
    exact ⟨f, hFrame, hNot, by simpa [hNot] using hFresh⟩

theorem FrameServes.fetches {i p : Nat} {s : State} (h : FrameServes i p s) : fetchesHome s i p = false := by
  obtain ⟨f, hFrame, -, hOld⟩ := h
  rw [fetchesHome, hFrame]
  simp [hOld]

theorem FrameServes.congr {i p : Nat} {s t : State} (h : FrameServes i p s) (hSame : SameContents s t) : FrameServes i p t := by
  obtain ⟨f, hFrame, hFilled, hOld⟩ := h
  have hMap := hSame.frames i p
  rw [hFrame] at hMap
  cases hFrame' : frameOf t i p with
  | none => rw [hFrame'] at hMap; cases hMap
  | some g =>
    rw [hFrame'] at hMap
    have hEq : frameKept g = frameKept f := Option.some.inj hMap
    refine ⟨g, hFrame', (congrArg CacheFrame.refilling hEq : (frameKept g).refilling = (frameKept f).refilling).trans hFilled, ?_⟩
    have hDate : g.outOfDate = f.outOfDate :=
      (congrArg CacheFrame.outOfDate hEq : (frameKept g).outOfDate = (frameKept f).outOfDate)
    have hFill : g.filled = f.filled := (congrArg CacheFrame.filled hEq : (frameKept g).filled = (frameKept f).filled)
    unfold frameOld at hOld ⊢
    rw [hSame.cargoes, hSame.beat, hDate, hFill]
    exact hOld

theorem cargoBytes_congr {s t : State} (h : SameContents s t) (i a n : Nat) : cargoBytes t i a n = cargoBytes s i a n := by
  unfold cargoBytes
  refine List.map_congr_left (fun k _ => ?_)
  have hThere : (frameOf t i ((a + k) / pageBytes)).isSome = (frameOf s i ((a + k) / pageBytes)).isSome := by
    have := congrArg Option.isSome (h.frames i ((a + k) / pageBytes))
    rwa [Option.isSome_map, Option.isSome_map] at this
  dsimp only
  rw [hThere, h.home, h.cached]

/-- A change of a page's frame that leaves which page it is of shows in the lookup of that page alone. -/
theorem frameOf_modFrame {i p : Nat} {g : CacheFrame → CacheFrame} (hCargo : ∀ f, (g f).cargo = f.cargo) (hPage : ∀ f, (g f).page = f.page)
    (s : State) (j q : Nat) : frameOf (modFrame i p g s) j q = (frameOf s j q).map (fun f => if f.cargo == i && f.page == p then g f else f) := by
  unfold frameOf modFrame modCache
  dsimp only
  rw [List.find?_map]
  refine congrArg (Option.map _) (congrArg (List.find? · s.mem.cache) (funext (fun f => ?_)))
  dsimp only [Function.comp]
  split
  · rw [hCargo, hPage]
  · rfl

theorem sameContents_used (i p now : Nat) (s : State) : SameContents s (modFrame i p (fun f => { f with lastUse := now }) s) := by
  refine ⟨rfl, rfl, rfl, rfl, rfl, fun j q => ?_⟩
  rw [frameOf_modFrame (g := fun f => { f with lastUse := now }) (fun _ => rfl) (fun _ => rfl), Option.map_map]
  refine congrArg (Option.map · _) (funext (fun f => ?_))
  dsimp only [Function.comp]
  split <;> rfl

/-- An access that its frame serves goes on, and leaves what is read. -/
theorem cacheAccess_hit {i p : Nat} {s : State} (h : FrameServes i p s) : (cacheAccess i p s).2 = true ∧ SameContents s (cacheAccess i p s).1 := by
  obtain ⟨f, hFrame, hFilled, hOld⟩ := h
  have hUsed := sameContents_used i p s.beat.count s
  have hOld' : frameOld (modFrame i p (fun f => { f with lastUse := s.beat.count }) s) (kgetD Cargo.free s.mem.cargoes i) f = false := hOld
  unfold cacheAccess
  rw [hFrame]
  dsimp only
  rw [if_neg (by simp [hFilled]), hOld', if_neg (by decide)]
  exact ⟨rfl, hUsed.trans ⟨rfl, rfl, rfl, rfl, rfl, fun _ _ => rfl⟩⟩

/-- An access to pages that their frames serve goes on, and leaves what is read. -/
theorem accessPages_hit {i : Nat} {ps : List Nat} {s : State} (h : ∀ p ∈ ps, FrameServes i p s) :
    (accessPages i ps s).2 = true ∧ SameContents s (accessPages i ps s).1 := by
  unfold accessPages
  induction ps generalizing s with
  | nil => exact ⟨rfl, .refl s⟩
  | cons p ps ih =>
    obtain ⟨hOn, hSame⟩ := cacheAccess_hit (h p List.mem_cons_self)
    have hGuard : ¬(true = false ∨ (fetchesHome s i p = true ∧ hostAway s i p = true)) := by
      simp [(h p List.mem_cons_self).fetches]
    have hPair : cacheAccess i p s = ((cacheAccess i p s).1, true) := Prod.ext rfl hOn
    rw [List.foldl_cons, if_neg hGuard, hPair]
    obtain ⟨hRest, hSame'⟩ := ih (fun q hq => (h q (List.mem_cons_of_mem _ hq)).congr hSame)
    exact ⟨hRest, hSame.trans hSame'⟩

/-- With no fetch under way, nothing lands. -/
theorem landPages_idle {i : Nat} {ps : List Nat} {s : State} (data : Option Bytes) (h : ∀ p ∈ ps, FrameServes i p s) :
    landPages i ps data s = (s, true) := by
  refine foldl_unchanged (fun e he => ?_)
  obtain ⟨f, hFrame, hFilled, -⟩ := h e.1 (List.fst_mem_of_mem_zipIdx he)
  have hLand : refillLand i e.1 none s = s := by
    unfold refillLand
    rw [hFrame]
    exact if_neg (by simp [hFilled])
  rw [hLand, hFrame]
  exact if_neg (by simp [hFilled])

theorem windowRead_cached {f i a length : Nat} (data : Option Bytes) {s : State} (hState : (kgetD Cargo.free s.mem.cargoes i).state ≠ 2)
    (hCached : (kgetD Cargo.free s.mem.cargoes i).farCached = true) (h : ∀ p ∈ pagesOf a length, FrameServes i p s) :
    ∃ u, SameContents s u ∧ windowRead f i a length data s = readAnswered f i a length u := by
  obtain ⟨hOn, hSame⟩ := accessPages_hit h
  have hMapped : (pagesOf a length).any (fun p => unmapped s i p && goesHome s i p) = false :=
    List.any_eq_false.mpr (fun p hp => by simp [goesHome, hCached, (h p hp).fetches])
  refine ⟨(accessPages i (pagesOf a length) s).1, hSame, ?_⟩
  unfold windowRead
  dsimp only
  rw [if_neg (by simp [hState, hMapped]), if_pos hCached, if_neg (by simp [hOn]), landPages_idle data (fun p hp => (h p hp).congr hSame)]
  exact if_pos rfl

/-! Writes of BAR4 (R309, R466). -/

/-- A write that reaches a cargo takes its bytes and raises the generations of its pages. -/
def windowWritten (i a : Nat) (data : Bytes) (s : State) : State :=
  (pagesOf a data.length).foldl (fun s p => raiseGeneration i p s) (applyWrite i a data s)

section
variable {f offset w i a : Nat} {data : Bytes} {s : State}
variable (hFunction : hasFunction s f = true) (hLink : 5 ≤ s.host.link) (hOffset : offset < 64 * apertureBytes s f) (hData : data ≠ [])
  (hWindow : windowAt s f offset data.length true = some (w, i, a))
include hFunction hLink hOffset hData hWindow

theorem exec_bar4Write_refused (h : (kgetD Cargo.free s.mem.cargoes i).state = 2 ∨ ((kgetD Cargo.free s.mem.cargoes i).farCached = false ∧
    (kgetD Cargo.free s.mem.cargoes i).tier = 4 ∧ ∃ p ∈ pagesOf a data.length, unmapped s i p = true)) :
    exec (.bar4Write f offset data) s = .next s := by
  have hGuard : (kgetD Cargo.free s.mem.cargoes i).state = 2 ∨
      (pagesOf a data.length).any (fun p => hostAway s i p && goesHome s i p) = true := by
    rcases h with h | ⟨hCached, hTier, p, hp, hUnmapped⟩
    · exact .inl h
    · exact .inr (List.any_eq_true.mpr ⟨p, hp, by simp [hostAway, goesHome, hCached, hTier, hUnmapped]⟩)
  have hOpen : ¬(hasFunction s f = false ∨ s.host.link < 5 ∨ 64 ≤ offset / apertureBytes s f ∨ data = []) := by
    have hPort := portOpen hFunction hLink hOffset
    rintro (h | h | h | h)
    · exact hPort (.inl h)
    · exact hPort (.inr (.inl h))
    · exact hPort (.inr (.inr h))
    · exact hData h
  show execBar4Write f offset data s = _
  unfold execBar4Write
  rw [if_neg hOpen, hWindow]
  dsimp only
  rw [if_pos hGuard, done]

theorem exec_bar4Write_home (hState : (kgetD Cargo.free s.mem.cargoes i).state ≠ 2) (h3 : (kgetD Cargo.free s.mem.cargoes i).tier ≠ 3)
    (h4 : (kgetD Cargo.free s.mem.cargoes i).tier ≠ 4) (hCached : (kgetD Cargo.free s.mem.cargoes i).farCached = false) :
    exec (.bar4Write f offset data) s = .next (windowWritten i a data s) := by
  have hAway : (pagesOf a data.length).any (fun p => hostAway s i p && goesHome s i p) = false :=
    List.any_eq_false.mpr (fun p _ => by simp [hostAway, h4])
  have hOpen : ¬(hasFunction s f = false ∨ s.host.link < 5 ∨ 64 ≤ offset / apertureBytes s f ∨ data = []) := by
    have hPort := portOpen hFunction hLink hOffset
    rintro (h | h | h | h)
    · exact hPort (.inl h)
    · exact hPort (.inr (.inl h))
    · exact hPort (.inr (.inr h))
    · exact hData h
  show execBar4Write f offset data s = _
  unfold execBar4Write
  rw [if_neg hOpen, hWindow]
  dsimp only
  rw [if_neg (by simp [hState, hAway]), if_neg (by simp [hCached]), if_neg h3, done]
  rfl

end

theorem exec_bar4Write_nowhere {f offset : Nat} {data : Bytes} {s : State} (h : windowAt s f offset data.length true = none) :
    exec (.bar4Write f offset data) s = .next s := by
  show execBar4Write f offset data s = _
  unfold execBar4Write
  rw [h]
  exact congrArg done (ite_self _)

theorem copyOnWrite_kept (i p : Nat) (s : State) : (copyOnWrite i p s).mem.home = s.mem.home ∧ (copyOnWrite i p s).mem.cache = s.mem.cache := by
  have hHeld (k : Nat) (u : State) : (copyHeld k i p u).mem.home = u.mem.home ∧ (copyHeld k i p u).mem.cache = u.mem.cache := by
    unfold copyHeld
    dsimp only
    split
    · split <;> exact ⟨rfl, rfl⟩
    · exact ⟨rfl, rfl⟩
  exact ⟨foldl_field (g := fun s => s.mem.home) (fun u k => (hHeld k u).1) _ s, foldl_field (g := fun s => s.mem.cache) (fun u k => (hHeld k u).2) _ s⟩

/-- One byte of a write of a cargo, in the frame of its page or in its home. -/
def byteWritten (i a : Nat) (s : State) (e : Byte × Nat) : State :=
  if (frameOf s i ((a + e.2) / pageBytes)).isSome then
    { s with mem := { s.mem with
        cached := storeByte s.mem.cached (i * cargoSpan + (a + e.2)) e.1
        cache := s.mem.cache.map (fun f => if f.cargo == i && f.page == (a + e.2) / pageBytes then { f with dirty := true } else f) } }
  else { s with mem := { s.mem with home := storeByte s.mem.home (i * cargoSpan + (a + e.2)) e.1 } }

/-- The pages of a write that are held and not copied are copied first. -/
def pagesCopied (i a n : Nat) (s : State) : State :=
  (List.range (ceilDiv (a % pageBytes + n) pageBytes)).foldl (fun s k => copyOnWrite i (a / pageBytes + k) s) s

theorem writeCargo_eq (i a : Nat) (data : Bytes) (s : State) :
    writeCargo i a data s = data.zipIdx.foldl (byteWritten i a) (pagesCopied i a data.length s) := by
  unfold writeCargo byteWritten pagesCopied
  with_reducible rfl

/-- The bytes that a write of a cargo names, by content address. -/
def writtenCells (i a : Nat) (es : List (Byte × Nat)) : List (Nat × Byte) := es.map (fun e => (i * cargoSpan + (a + e.2), e.1))

theorem foldl_byteWritten {i a : Nat} (es : List (Byte × Nat)) {s : State} (h : ∀ p, frameOf s i p = none) :
    (es.foldl (byteWritten i a) s).mem.home = (writtenCells i a es).foldl (fun m e => storeByte m e.1 e.2) s.mem.home := by
  induction es generalizing s with
  | nil => rfl
  | cons e es ih =>
    have hHome : byteWritten i a s e = { s with mem := { s.mem with home := storeByte s.mem.home (i * cargoSpan + (a + e.2)) e.1 } } := by
      rw [byteWritten, h, if_neg (by simp)]
    rw [List.foldl_cons, hHome]
    exact ih h

/-- A write to a cargo none of whose pages is cached stands in its home. -/
theorem writeCargo_home {i a : Nat} {data : Bytes} {s : State} (h : ∀ p, frameOf s i p = none) :
    (writeCargo i a data s).mem.home = (writtenCells i a data.zipIdx).foldl (fun m e => storeByte m e.1 e.2) s.mem.home := by
  have hCache : (pagesCopied i a data.length s).mem.cache = s.mem.cache :=
    foldl_field (g := fun s => s.mem.cache) (fun s k => (copyOnWrite_kept i (a / pageBytes + k) s).2) _ s
  have hHome : (pagesCopied i a data.length s).mem.home = s.mem.home :=
    foldl_field (g := fun s => s.mem.home) (fun s k => (copyOnWrite_kept i (a / pageBytes + k) s).1) _ s
  rw [writeCargo_eq, foldl_byteWritten _ (fun p => ?_), hHome]
  rw [frameOf, hCache]
  exact h p

/-- A write to a cargo that is neither far-cached nor of T3 or TH is a write of its home. -/
theorem applyWrite_home {i a : Nat} {data : Bytes} {s : State} (h3 : (kgetD Cargo.free s.mem.cargoes i).tier ≠ 3)
    (h4 : (kgetD Cargo.free s.mem.cargoes i).tier ≠ 4) (hCached : (kgetD Cargo.free s.mem.cargoes i).farCached = false) :
    applyWrite i a data s = writeCargo i a data s := by
  unfold applyWrite writeData
  dsimp only
  rw [if_neg (fun h => h4 h.1), foldl_unchanged (fun p _ => ?_)]
  rw [if_neg (by simp [hCached]), touchT3_of_tier p h3]

/-- The bytes of a write, and none beside them, stand in the home of a cargo none of whose pages is cached. -/
theorem windowWritten_frame {i a : Nat} {data : Bytes} {s : State} (h3 : (kgetD Cargo.free s.mem.cargoes i).tier ≠ 3)
    (h4 : (kgetD Cargo.free s.mem.cargoes i).tier ≠ 4) (hCached : (kgetD Cargo.free s.mem.cargoes i).farCached = false)
    (hFrames : ∀ p, frameOf s i p = none) :
    (∀ k, k < data.length → loadByte (windowWritten i a data s).mem.home (i * cargoSpan + a + k) = data.getD k 0) ∧
    (∀ x, (∀ k, k < data.length → x ≠ i * cargoSpan + a + k) → loadByte (windowWritten i a data s).mem.home x = loadByte s.mem.home x) ∧
    (windowWritten i a data s).out = s.out := by
  have hHome : (windowWritten i a data s).mem.home = (writtenCells i a data.zipIdx).foldl (fun m e => storeByte m e.1 e.2) s.mem.home := by
    have hRaised := (SameCargoes.foldl (fun s p => sameCargoes_raiseGeneration i p s) (pagesOf a data.length) (applyWrite i a data s)).1
    exact hRaised.trans (by rw [applyWrite_home h3 h4 hCached, writeCargo_home hFrames])
  have hOut : (windowWritten i a data s).out = s.out := by
    have hWritten := (writeCargo_keeps i a data (.refl (· = .out) s) (by simp) (by simp)).parts .out rfl
    have hRaised : (windowWritten i a data s).out = (applyWrite i a data s).out :=
      foldl_field (g := State.out) (f := fun s p => raiseGeneration i p s) (fun _ _ => rfl) _ _
    rw [hRaised, applyWrite_home h3 h4 hCached]
    exact hWritten
  refine ⟨fun k hk => ?_, fun x hx => ?_, hOut⟩
  · rw [hHome]
    refine loadByte_foldl_of_agree ⟨(i * cargoSpan + (a + k), data[k]), ?_, Nat.add_assoc _ _ _ |>.symm⟩ (fun e he hAt => ?_) _
    · exact List.mem_map.mpr ⟨(data[k], k), List.mem_zipIdx_iff_getElem?.mpr (List.getElem?_eq_getElem hk), rfl⟩
    · obtain ⟨⟨b, j⟩, hThere, rfl⟩ := List.mem_map.mp he
      have hByte := List.mem_zipIdx_iff_getElem?.mp hThere
      dsimp only at hAt hByte ⊢
      have : j = k := by omega
      rw [List.getD_eq_getElem?_getD, ← this, hByte]
      rfl
  · rw [hHome]
    refine loadByte_foldl_other (fun e he hAt => ?_) _
    obtain ⟨⟨b, j⟩, hThere, rfl⟩ := List.mem_map.mp he
    exact hx j (fst_lt_of_mem_zipIdx hThere) (by rw [← hAt, Nat.add_assoc])

theorem configIdentity_function {f : Nat} {s : State} (hLow : 1 ≤ f) (hHigh : f ≤ s.host.vfs) :
    configIdentity s f = (configIdentity s 0).map (fun x => { x with device := x.vfDevice }) := by
  have hThere : hasFunction s f = true := by simp [hasFunction, hHigh]
  have hNotZero : ¬f = 0 := by omega
  unfold configIdentity
  rw [hThere, if_neg (by decide), if_neg hNotZero]
  rfl

end Sys2Proof.Machine

open Sys2Proof Sys2Proof.Machine

/-- Settles O49: the boot doorbell, the cargo windows with their reads and writes, and the configuration space. -/
theorem theBootAndCargoWindowsServeTheHost : Obligations.TheBootAndCargoWindowsServeTheHost := by
  unfold Obligations.TheBootAndCargoWindowsServeTheHost
  refine ⟨?boot, ?window, ?refused, ?nowhere, ?read, ?write, ?lost, ?identity⟩
  case boot =>
    intro value segment s n hStraps hModule hIdle hChecks hBits hNone hPower image
    have hExec := exec_bootDoorbell (segment := segment) hStraps hModule hIdle hChecks hBits hNone hPower
    obtain ⟨hImage, hModule', hSys⟩ := segmentJoined_frame image s
    have hSame := (sameBut_of_exec (by simp) hExec).mono (qs := [.out, .host, .sys]) (by simp [touches])
    have hCheck : verifyImage (setBootStatus 2 (segmentJoined image s)) 0 image = verifyImage s 0 image := by
      refine verifyImage_congr ?_ 0 image
      rw [(setBootStatus_frame 2 _).2.2.2, hSys]
    obtain ⟨-, -, hModule2, -⟩ := setBootStatus_frame 2 (segmentJoined image s)
    refine ⟨_, hExec, hSame, fun hMore => ?_, fun hLast hGood => ?_, fun hLast hBad => ?_⟩
    · obtain ⟨hStatus, hImage0, hModule0, hSys0⟩ := setBootStatus_frame 0 (segmentJoined image s)
      dsimp only
      rw [if_pos hMore]
      exact ⟨hStatus, hImage0.trans hImage, hModule0.trans (hModule'.trans hModule), hSys0.trans hSys⟩
    · dsimp only
      rw [if_neg (by simp [hLast])]
      exact bootChecked_good (hCheck.trans hGood)
    · obtain ⟨hStatus, hEmpty, hKept, hResult⟩ := bootChecked_bad (s := setBootStatus 2 (segmentJoined image s)) (image := image)
        (by rw [hCheck]; exact hBad)
      dsimp only
      rw [if_neg (by simp [hLast])]
      exact ⟨hStatus, hEmpty, hKept.trans (hModule2.trans (hModule'.trans hModule)), hResult.trans hCheck⟩
  case window =>
    intro who w i c b s hPasses hFound hMine hState hFlags hZero hMapped hPages hSize
    refine askDomain_of_passes hPasses (by decide) ?_
    rw [writeEffect_window]
    exact windowEffect_of_mapped (s := begun who (lastOf 0x1410 w b) s) hFound hMine hState hFlags hZero hMapped hPages hSize
  case refused =>
    intro who s hPasses
    have hEntry : entryResult who (readOf 0x1411 0) s = (stOk, le 8 (kgetD 0 s.host.refused who.client),
        modHost (fun h => { h with refused := kdel h.refused who.client }) s) := entryResult_read hPasses.status hPasses.served
    have hExec : exec (.readRefusedWindows who) s = _ :=
      ask_of_read (a := readOf 0x1411 0) hPasses.reached rfl (by rw [length_le]; decide) hEntry
    exact ⟨_, hExec, rfl, rfl,
      ((Keeps.refl (· ∉ [Part.host, .resp]) s).upd (k_host := .inr (by simp)) (k_resp := .inr (by simp))).sameBut⟩
  case nowhere => exact fun f offset length data s hFunction hLink hOffset hWindow => exec_bar4Read_none hFunction hLink hOffset hWindow
  case read =>
    intro f offset length w i a data s hFunction hLink hOffset hWindow c
    have hExec := exec_bar4Read (data := data) hFunction hLink hOffset hWindow
    refine ⟨fun hState hMapped hCached => ?_, fun hState hCached hFresh => ?_, fun hFails => ?_⟩
    · obtain ⟨hHome, hHost⟩ := windowRead_home (f := f) (data := data) hState hMapped hCached
      exact ⟨fun hTier => hExec.trans (congrArg _ (hHome hTier)), fun b hTier hData => hExec.trans (congrArg _ (hHost b hTier hData))⟩
    · obtain ⟨u, hSame, hRead⟩ := windowRead_cached (f := f) data hState hCached (fun p hp => frameServes_of_fresh (hFresh p hp).1 (hFresh p hp).2)
      rw [hRead] at hExec
      refine ⟨_, hExec, ?_, hSame.home, hSame.cached, sameBut_of_exec (by simp) hExec⟩
      rw [readAnswered, cargoBytes_congr hSame, emit, hSame.out]
    · rw [windowRead_failed hFails] at hExec
      exact ⟨_, hExec, abortRead_frame f i s⟩
  case write =>
    intro f offset w i a data s hFunction hLink hOffset hData hWindow c
    refine ⟨exec_bar4Write_refused hFunction hLink hOffset hData hWindow, fun hState h3 h4 hCached hFrames => ?_⟩
    have hExec := exec_bar4Write_home hFunction hLink hOffset hData hWindow hState h3 h4 hCached
    obtain ⟨hBytes, hOthers, hOut⟩ := windowWritten_frame (data := data) (a := a) h3 h4 hCached hFrames
    exact ⟨_, hExec, hBytes, hOthers, hOut, sameBut_of_exec (by simp) hExec⟩
  case lost => exact fun f offset data s => exec_bar4Write_nowhere
  case identity => exact fun s => ⟨rfl, fun f hLow hHigh => configIdentity_function hLow hHigh⟩
end

section
/-! Request frames: the mailbox's doorbell, the frames of a session, and peer access that goes on hop by hop (R88-R92, R348, R462, R463). -/

namespace Sys2Proof.Machine

/-! The parts of the state that sessions and mailboxes are kept in. -/

theorem modSession_sessions (id : Nat) (f : Session → Session) (s : State) :
    (modSession id f s).dict.sessions = s.dict.sessions.map (fun x => if x.id = id then f x else x) := rfl

theorem mailboxOf_modMailbox (f : Nat) (g : Mailbox → Mailbox) (s : State) :
    kgetD Mailbox.empty (modMailbox f g s).dict.mailboxes f = g (kgetD Mailbox.empty s.dict.mailboxes f) := by
  unfold modMailbox
  exact kgetD_kput_same ..

/-- Signalling a vector leaves the dictionary, and sends its message at once where it is unmasked (R469). -/
theorem signal_out (function vector : Nat) (s : State) :
    (signal function vector s).out = s.out ++ (if function * 2048 + vector ∈ s.host.unmasked then [.message function vector] else []) := by
  unfold signal
  by_cases h : function * 2048 + vector ∈ s.host.unmasked
  · rw [if_pos h, if_pos (List.contains_iff_mem.mpr h)]
    rfl
  · rw [if_neg h, if_neg (mt List.contains_iff_mem.mp h), List.append_nil]
    rfl

theorem signal_dict (function vector : Nat) (s : State) : (signal function vector s).dict = s.dict :=
  (signal_keeps function vector (.refl (· = .dict) s) (by simp) (by simp)).parts .dict rfl

/-! The mailbox (R462, R463). -/

/-- The response frame in the mailbox, its count raised, and vector 0 signalled. -/
def mailboxAnswered (f : Nat) (b : Bytes) (s : State) : State :=
  signal f 0 (emit (.mailbox f b) (modMailbox f (fun m => { m with response := b, count := (m.count + 1) % 2 ^ 32 }) s))

theorem mailboxAnswered_mailbox (f : Nat) (b : Bytes) (s : State) :
    kgetD Mailbox.empty (mailboxAnswered f b s).dict.mailboxes f =
      { kgetD Mailbox.empty s.dict.mailboxes f with
        response := b, count := ((kgetD Mailbox.empty s.dict.mailboxes f).count + 1) % 2 ^ 32 } := by
  unfold mailboxAnswered
  rw [signal_dict]
  exact mailboxOf_modMailbox f (fun m => { m with response := b, count := (m.count + 1) % 2 ^ 32 }) s

theorem mailboxAnswered_out (f : Nat) (b : Bytes) (s : State) :
    (mailboxAnswered f b s).out =
      s.out ++ [.mailbox f b] ++ (if f * 2048 ∈ s.host.unmasked then [.message f 0] else []) := by
  unfold mailboxAnswered
  rw [signal_out, Nat.add_zero]
  rfl

theorem mailboxAnswered_frame (f : Nat) (b : Bytes) (s : State) : SameBut [.dict, .out, .host] s (mailboxAnswered f b s) := by
  refine (Keeps.sameBut (ps := [.dict, .out, .host]) ?_)
  exact signal_keeps f 0 (emit_keeps _ (modMailbox_keeps f _ (.refl (· ∉ [Part.dict, .out, .host]) s) (by simp)) (by simp))
    (by simp) (by simp)

theorem execMailboxDoorbell_of_accepted {f : Nat} {value : Word} {frame : Bytes} {asks : List Ask} {s : State}
    (hFunction : hasFunction s f = true) (hRuns : firmwareRuns s = true) (hStatus : doorbellStatus f value frame = 0)
    (hAsks : parseEntries (fStaged frame) (fEntries frame) (slice frame 24 (fPayload frame)) = some asks) :
    let r := runEntries ⟨f, 0, 0⟩ asks 4056 (modMailbox f (fun m => { m with request := frame, status := 0 }) s)
    execMailboxDoorbell f value frame s = .next (mailboxAnswered f (frameHeader 1 0 0 asks.length r.1.length f ++ r.1) r.2) := by
  unfold execMailboxDoorbell
  dsimp only
  rw [if_neg (by simp [hFunction, hRuns]), hStatus, if_neg (by simp), hAsks]
  rfl

theorem execMailboxDoorbell_of_refused {f : Nat} {value : Word} {frame : Bytes} {s : State}
    (hFunction : hasFunction s f = true) (hRuns : firmwareRuns s = true) (hStatus : doorbellStatus f value frame ≠ 0) :
    execMailboxDoorbell f value frame s =
      .next (modMailbox f (fun m => { m with request := frame, status := doorbellStatus f value frame }) s) := by
  unfold execMailboxDoorbell
  dsimp only
  rw [if_neg (by simp [hFunction, hRuns]), if_pos hStatus]
  rfl

/-! Frames of a session (R88, R91, R92). -/

/-- The state in which the frame of a session is taken: its idle time starts again. -/
def heardOf (x : Session) (s : State) : State := modSession x.id (fun y => { y with lastFrame := s.clock }) s

/-- What a frame of a session whose size and tag are good does (R88, R92). -/
def taken (conn : Nat) (x : Session) (frame : Bytes) (s : State) : State :=
  if fKind frame = 6 then endSession x.id (heardOf x s)
  else match x.lastSeq with
    | none => runFrame conn x frame (heardOf x s)
    | some q =>
      if fSequence frame = q then emit (.frame conn x.stored) (heardOf x s)
      else if fSequence frame < q then count 0x5015 0 1 (heardOf x s)
      else runFrame conn x frame (heardOf x s)

theorem takeFrame'_of_tag {conn transport : Nat} {frame : Bytes} {x : Session} {s : State}
    (hSession : s.dict.sessions.find? (fun x => x.id == fSession frame && x.transport == transport) = some x)
    (hSize : 40 ≤ frame.length ∧ frame.length ≤ 1472)
    (hTag : sessionTag x.key (frame.take (frame.length - 16)) = frame.drop (frame.length - 16)) :
    takeFrame' conn transport frame s = taken conn x frame s := by
  unfold takeFrame'
  rw [hSession]
  dsimp only
  rw [if_neg (show ¬ (frame.length < 40 ∨ 1472 < frame.length ∨
    sessionTag x.key (frame.take (frame.length - 16)) ≠ frame.drop (frame.length - 16)) from
    fun h => h.elim (by omega) (·.elim (by omega) (· hTag)))]
  rfl

theorem takeFrame'_of_badTag {conn transport : Nat} {frame : Bytes} {x : Session} {s : State}
    (hSession : s.dict.sessions.find? (fun x => x.id == fSession frame && x.transport == transport) = some x)
    (hTag : sessionTag x.key (frame.take (frame.length - 16)) ≠ frame.drop (frame.length - 16)) :
    takeFrame' conn transport frame s = count 0x5014 0 1 s := by
  unfold takeFrame'
  rw [hSession]
  exact if_pos (.inr (.inr hTag))

theorem takeFrame'_of_unknown {conn transport : Nat} {frame : Bytes} {s : State}
    (hSession : s.dict.sessions.find? (fun x => x.id == fSession frame && x.transport == transport) = none) :
    takeFrame' conn transport frame s = { s with resp := ⟨stAuth, []⟩, out := s.out ++ [.frame conn
      (frameHeader 1 (fSession frame) (fSequence frame) 1 10 (fClient frame) ++ le 1 stAuth ++ zeroBytes 9)] } := by
  unfold takeFrame'
  rw [hSession]
  rfl

/-- The transports carry a frame to its session in the same way (R348). -/
theorem exec_onSession {ins : Instr} {conn transport : Nat} {frame : Bytes} {x : Session} {s : State}
    (h : OnSession ins conn transport frame x s) : exec ins s = .next (taken conn x frame s) := by
  obtain ⟨hArrives, hRuns, hSession, hSize, hTag⟩ := h
  rw [← takeFrame'_of_tag hSession hSize hTag]
  obtain ⟨rfl, rfl⟩ | ⟨link, rfl, rfl, rfl, hUp⟩ := hArrives
  · exact congrArg done (if_pos hRuns)
  · show execPeerAccessFrame link (deviceNumber s) frame s = _
    unfold execPeerAccessFrame
    rw [if_neg (by simp [hRuns, hUp]), if_pos rfl]
    rfl

theorem taken_runs {conn : Nat} {x : Session} {frame : Bytes} {s : State} (hKind : fKind frame ≠ 6)
    (hSequence : x.lastSeq.all (fun q => decide (q < fSequence frame)) = true) :
    taken conn x frame s = runFrame conn x frame (heardOf x s) := by
  unfold taken
  rw [if_neg hKind]
  cases hLast : x.lastSeq with
  | none => rfl
  | some q =>
    have hNew : q < fSequence frame := by simpa [hLast] using hSequence
    dsimp only
    rw [if_neg (by omega), if_neg (by omega)]

theorem kind_of_header {frame : Bytes} (h : headerFault frame = false) : fKind frame = 0 := by
  simp only [headerFault, Bool.or_eq_false_iff, bne_eq_false_iff_eq] at h
  omega

theorem runFrame_of_parsed {conn : Nat} {x : Session} {frame : Bytes} {asks : List Ask} {s : State} (hHeader : headerFault frame = false)
    (hClient : fClient frame = x.client) (hPayload : fPayload frame = frame.length - 40) (hSize : 40 ≤ frame.length)
    (hAsks : parseEntries (fStaged frame) (fEntries frame) (slice frame 24 (frame.length - 40)) = some asks) :
    let r := runEntries ⟨x.client, x.transport, x.id⟩ asks 1432 s
    runFrame conn x frame s =
      respond conn x (fSequence frame) (frameHeader 1 x.id (fSequence frame) asks.length r.1.length x.client ++ r.1) r.2 := by
  have hLength : (slice frame 24 (frame.length - 40)).length = frame.length - 40 := by
    simp [slice]; omega
  unfold runFrame
  dsimp only
  rw [if_neg (by simp [hHeader, hClient]), if_pos (by rw [hPayload, hLength]), hAsks]

theorem respond_out (conn : Nat) (x : Session) (sequence : Nat) (plain : Bytes) (s : State) :
    (respond conn x sequence plain s).out = s.out ++ [.frame conn (plain ++ sessionTag x.key plain)] := rfl

theorem respond_sessions (conn : Nat) (x : Session) (sequence : Nat) (plain : Bytes) (s : State) :
    (respond conn x sequence plain s).dict.sessions = s.dict.sessions.map (fun y => if y.id = x.id then
      { y with lastSeq := some sequence, stored := plain ++ sessionTag x.key plain } else y) := rfl

theorem respond_frame (conn : Nat) (x : Session) (sequence : Nat) (plain : Bytes) (s : State) :
    SameBut [.dict, .out] s (respond conn x sequence plain s) :=
  (respond_keeps conn x sequence plain (.refl (· ∉ [Part.dict, .out]) s) (by simp) (by simp)).sameBut

theorem taken_ended {conn : Nat} {x : Session} {frame : Bytes} {s : State} (hKind : fKind frame = 6) :
    (taken conn x frame s).dict.sessions = s.dict.sessions.filter (fun y => y.id != x.id) ∧ SameBut [.dict] s (taken conn x frame s) := by
  have hTaken : taken conn x frame s = endSession x.id (heardOf x s) := if_pos hKind
  rw [hTaken]
  constructor
  · rw [(endSession_dict x.id _).1]
    unfold heardOf
    rw [modSession_sessions, List.filter_map]
    refine (List.map_congr_left fun y hy => ?_).trans ((List.map_id _).trans (List.filter_congr fun y _ => ?_))
    · have hOther : ¬ y.id = x.id := by
        have h := (List.mem_filter.mp hy).2
        intro hSame
        simp [hSame] at h
      exact if_neg hOther
    · by_cases hSame : y.id = x.id <;> simp [hSame]
  · exact (endSession_keeps x.id (modSession_keeps x.id _ (.refl (· ∉ [Part.dict]) s) (by simp)) (by simp)).sameBut

/-! Peer access hop by hop (R348). -/

theorem execPeerAccessFrame_hop {link dest l : Nat} {frame : Bytes} {s : State} (hRuns : firmwareRuns s = true)
    (hUp : linkIsUp s link = true) (hDest : dest ≠ deviceNumber s) (hOn : peerLinkTo s dest = some l) :
    execPeerAccessFrame link dest frame s = .next (sendFrame l 5 dest frame s) := by
  unfold execPeerAccessFrame
  rw [if_neg (by simp [hRuns, hUp]), if_neg hDest, hOn]
  rfl

theorem linkOf_sendFrame_other {l j : Nat} (kind dest : Nat) (b : Bytes) (s : State) (h : j ≠ l) :
    linkOf (sendFrame l kind dest b s) j = linkOf s j := linkOf_modLink_other _ _ h.symm

end Sys2Proof.Machine

open Sys2Proof Sys2Proof.Machine

/-- Settles O50: each frame is one of the cases of the mailbox's doorbell, of `taken`, or of the hop to the next module. -/
theorem requestFramesRunTheirEntries : Obligations.RequestFramesRunTheirEntries := by
  unfold Obligations.RequestFramesRunTheirEntries
  refine ⟨?mailbox, ?refused, ?entries, ?session, ?repeated, ?ended, ?unknown, ?badTag, ?hop⟩
  case mailbox =>
    intro f value frame asks s hFunction hRuns hStatus hAsks r b
    have hExec := execMailboxDoorbell_of_accepted hFunction hRuns hStatus hAsks
    have hBox := mailboxAnswered_mailbox f b r.2
    exact ⟨_, hExec, congrArg Mailbox.response hBox, congrArg Mailbox.count hBox, mailboxAnswered_out f b r.2,
      mailboxAnswered_frame f b r.2⟩
  case refused => exact fun f value frame s => execMailboxDoorbell_of_refused
  case entries => exact fun who room a rest s => rfl
  case session =>
    intro ins conn transport frame asks x s hOn hSequence hHeader hClient hPayload hAsks r plain b
    have hRun := runFrame_of_parsed (conn := conn) (s := heardOf x s) hHeader hClient hPayload hOn.size.1 hAsks
    have hTransport : x.transport = transport := by
      have h := List.find?_some hOn.session
      simp at h
      exact h.2
    rw [hTransport] at hRun
    have hExec : exec ins s = .next (respond conn x (fSequence frame) plain r.2) := by
      rw [exec_onSession hOn, taken_runs (by rw [kind_of_header hHeader]; omega) hSequence, hRun]
      rfl
    exact ⟨_, hExec, respond_out .., respond_frame .., respond_sessions ..⟩
  case repeated =>
    intro ins conn transport q frame x s hOn hKind hLast u
    rw [exec_onSession hOn]
    unfold taken
    rw [if_neg hKind, hLast]
    constructor
    · intro hSame
      exact congrArg done (if_pos hSame)
    · intro hLower
      exact congrArg done ((if_neg (by omega)).trans (if_pos hLower))
  case ended =>
    intro ins conn transport frame x s hOn hKind
    exact ⟨_, exec_onSession hOn, taken_ended hKind⟩
  case unknown =>
    intro conn frame s hRuns hSession
    exact congrArg done ((if_pos hRuns).trans (takeFrame'_of_unknown hSession))
  case badTag =>
    intro conn frame x s hRuns hSession _ hTag
    exact congrArg done ((if_pos hRuns).trans (takeFrame'_of_badTag hSession hTag))
  case hop =>
    intro link dest l frame s hRuns hUp hDest hOn
    exact ⟨_, execPeerAccessFrame_hop hRuns hUp hDest hOn, sendFrame_out .., fun j hj => linkOf_sendFrame_other 5 dest frame s hj,
      (sendFrame_keeps l 5 dest frame (.refl (· ∉ [Part.out, .net]) s) (by simp) (by simp)).sameBut⟩

end

section
/-! Lanes that fail and are replaced (R333, R337), links that train (R340), and what the ends of a link tell each other
(R341, R347, R383). -/

namespace Sys2Proof.Machine

/-! A control frame waits on its link, and changes nothing else of it. -/

theorem linkOf_sendFrame_same (l kind dest : Nat) (b : Bytes) (s : State) :
    ∃ c, linkOf (sendFrame l kind dest b s) l = { linkOf s l with control := c } := by
  unfold sendFrame
  exact ⟨_, by rw [linkOf_emit, linkOf_modLink_same]⟩

theorem linkOf_sendUp_same (l kind : Nat) (b : Bytes) (s : State) :
    ∃ c, linkOf (sendUp l kind b s) l = { linkOf s l with control := c } := by
  unfold sendUp
  split
  · exact linkOf_sendFrame_same ..
  · exact ⟨_, rfl⟩

theorem linkOf_sendUp_other {l j : Nat} (kind : Nat) (b : Bytes) (s : State) (h : j ≠ l) : linkOf (sendUp l kind b s) j = linkOf s j := by
  unfold sendUp
  split
  · exact linkOf_sendFrame_other kind _ b s h
  · rfl

theorem sendUp_out_of_up {l : Nat} {s : State} (h : linkIsUp s l = true) (kind : Nat) (b : Bytes) :
    (sendUp l kind b s).out = s.out ++ [.control l kind b] := by
  rw [sendUp_of_up h, sendFrame_out]

theorem up_of_three {s : State} {l : Nat} (h : (linkOf s l).state = 3) : linkIsUp s l = true := by simp [linkIsUp, h]

theorem not_down_of_up {s : State} {l : Nat} (h : linkIsUp s l = true) : (linkOf s l).state ≠ 4 := by
  intro hDown
  simp [linkIsUp, hDown] at h

/-- A link that goes down keeps what is not acknowledged, to be sent again from its first flit (R340). -/
theorem linkDown_of_other {l : Nat} {s : State} (h : (linkOf s l).state ≠ 4) :
    linkOf (linkDown l s) l = { linkOf s l with
      state := 4, spareStep := 0, asked := 0, askedSeq := none, resend := (linkOf s l).retry.head?.map (·.1), discarding := false } ∧
    (linkDown l s).led.events = (s.led.events + 1) % 2 ^ 64 := by
  unfold linkDown
  rw [if_neg h, linkOf_event, linkOf_count, linkOf_modLink_same, event_led]
  exact ⟨rfl, rfl⟩

/-! Lanes (R337). -/

/-- A link without a lane that it had. -/
def withoutLane (lane : Nat) (x : Link) : Link := if lane = 16 then { x with spare := false } else { x with failed := x.failed ++ [lane] }

/-- The failure of a lane is counted and reported, and the lane is out of use. -/
def laneNoted (l lane : Nat) (s : State) : State :=
  modLink l (withoutLane lane) (count 0x5506 l 1 (event evtLaneFail (atInst l) (le 1 lane) s))

theorem linkOf_laneNoted_same (l lane : Nat) (s : State) : linkOf (laneNoted l lane s) l = withoutLane lane (linkOf s l) := by
  rw [laneNoted, linkOf_modLink_same, linkOf_count, linkOf_event]

theorem linkOf_laneNoted_other {l j : Nat} (lane : Nat) (s : State) (h : j ≠ l) : linkOf (laneNoted l lane s) j = linkOf s j := by
  rw [laneNoted, linkOf_modLink_other _ _ h.symm, linkOf_count, linkOf_event]

theorem laneNoted_events (l lane : Nat) (s : State) : (laneNoted l lane s).led.events = (s.led.events + 1) % 2 ^ 64 := by
  show (event _ _ _ _).led.events = _
  rw [event_led]

theorem laneNoted_out (l lane : Nat) (s : State) : (laneNoted l lane s).out = s.out := by
  show (event _ _ _ _).out = _
  rw [event_out]

theorem setting_laneNoted (l lane index sub : Nat) (s : State) : setting (laneNoted l lane s) index sub = setting s index sub :=
  setting_event ..

theorem laneNoted_frame (l lane : Nat) (s : State) : SameBut [.led, .ctr, .net] s (laneNoted l lane s) :=
  (modLink_keeps l _ (count_keeps _ _ _ (event_keeps _ _ _ (.refl (· ∉ [Part.led, .ctr, .net]) s) (by simp) (by simp)) (by simp))
    (by simp)).sameBut

/-- The spare lane starts to be trained for a lane that has failed. -/
def spareTrains (s : State) (l lane : Nat) : Bool := flagSet s 0x3803 0 && !spareBusy s l && lane != 16

theorem spareBusy_laneNoted {lane : Nat} (l m : Nat) (s : State) (h : lane ≠ 16) : spareBusy (laneNoted l lane s) m = spareBusy s m := by
  have hSpare (j : Nat) : (linkOf (laneNoted l lane s) j).spare = (linkOf s j).spare ∧
      (linkOf (laneNoted l lane s) j).spareStep = (linkOf s j).spareStep := by
    by_cases hSame : j = l
    · subst hSame
      rw [linkOf_laneNoted_same, withoutLane, if_neg h]
      exact ⟨rfl, rfl⟩
    · rw [linkOf_laneNoted_other lane s hSame]
      exact ⟨rfl, rfl⟩
  simp only [spareBusy, hSpare]

theorem spareTrains_laneNoted (l lane : Nat) (s : State) : spareTrains (laneNoted l lane s) l lane = spareTrains s l lane := by
  by_cases h : lane = 16
  · simp [spareTrains, h]
  · simp only [spareTrains, spareBusy_laneNoted l l s h, flagSet, setting_laneNoted]

/-- The link goes on over three lanes after 4 µs. -/
def onThreeLanes (l lane : Nat) (s : State) : State :=
  modLink l (fun x => { x with state := 3, quietUntil := s.clock + 6800, spareStep := if spareTrains s l lane then 1 else 0 }) (laneNoted l lane s)

theorem laneLost_of_used {l lane : Nat} {s : State} (hUp : linkIsUp s l = true)
    (hLane : lane < 4 ∧ lane ∉ (linkOf s l).failed ∨ lane = 16 ∧ (linkOf s l).spare = true) :
    laneLost l lane s = if lanesInUse (linkOf s l) ≤ 3 then linkDown l (laneNoted l lane s) else onThreeLanes l lane s := by
  have hClock : (laneNoted l lane s).clock = s.clock := (laneNoted_frame l lane s).2 .clock (by simp)
  have hUsed : ¬ (linkIsUp s l = false ∨ (lane = 16 ∧ (linkOf s l).spare = false) ∨
      (lane ≠ 16 ∧ (4 ≤ lane ∨ (linkOf s l).failed.contains lane = true))) := by
    rintro (h | ⟨h, hNot⟩ | ⟨h, hNot⟩)
    · simp [hUp] at h
    · obtain ⟨hLess, -⟩ | ⟨-, hSpare⟩ := hLane
      · omega
      · simp [hSpare] at hNot
    · obtain ⟨hLess, hNew⟩ | ⟨hSame, -⟩ := hLane
      · exact hNot.elim (by omega) (hNew ∘ List.contains_iff_mem.mp)
      · exact h hSame
  unfold onThreeLanes
  rw [← spareTrains_laneNoted, ← hClock]
  unfold laneLost
  dsimp only
  rw [if_neg hUsed]
  rfl

theorem linkOf_onThreeLanes_same (l lane : Nat) (s : State) : linkOf (onThreeLanes l lane s) l = { withoutLane lane (linkOf s l) with
    state := 3, quietUntil := s.clock + 6800, spareStep := if spareTrains s l lane then 1 else 0 } := by
  rw [onThreeLanes, linkOf_modLink_same, linkOf_laneNoted_same]

theorem linkOf_onThreeLanes_other {l j : Nat} (lane : Nat) (s : State) (h : j ≠ l) : linkOf (onThreeLanes l lane s) j = linkOf s j := by
  rw [onThreeLanes, linkOf_modLink_other _ _ h.symm, linkOf_laneNoted_other lane s h]

theorem onThreeLanes_frame (l lane : Nat) (s : State) : SameBut [.led, .ctr, .net] s (onThreeLanes l lane s) :=
  (laneNoted_frame l lane s).trans
    (modLink_keeps l _ (.refl (· ∉ [Part.led, .ctr, .net]) (laneNoted l lane s)) (by simp)).sameBut

theorem execLaneFail_of_fourth {l lane : Nat} {s : State} (hUp : linkIsUp s l = true)
    (hLane : lane < 4 ∧ lane ∉ (linkOf s l).failed ∨ lane = 16 ∧ (linkOf s l).spare = true) (hState : (linkOf s l).state = 2)
    (hLanes : 3 < lanesInUse (linkOf s l)) :
    execLaneFail l lane s = .next (sendUp l 8 (le 1 lane ++ le 1 0) (onThreeLanes l lane s)) := by
  have hThree : (linkOf (onThreeLanes l lane s) l).state = 3 := by rw [linkOf_onThreeLanes_same]
  have hLost : laneLost l lane s = onThreeLanes l lane s := (laneLost_of_used hUp hLane).trans (if_neg (by omega))
  unfold execLaneFail
  dsimp only
  rw [hLost, if_pos ⟨hUp, up_of_three hThree, hThree, by rw [hState]; omega⟩]
  rfl

theorem execLaneFail_of_third {l lane : Nat} {s : State} (hUp : linkIsUp s l = true)
    (hLane : lane < 4 ∧ lane ∉ (linkOf s l).failed ∨ lane = 16 ∧ (linkOf s l).spare = true) (hLanes : lanesInUse (linkOf s l) ≤ 3) :
    execLaneFail l lane s = .next (linkDown l (laneNoted l lane s)) := by
  have hDown : (linkOf (linkDown l (laneNoted l lane s)) l).state = 4 := linkDown_same l _
  have hLost : laneLost l lane s = linkDown l (laneNoted l lane s) := (laneLost_of_used hUp hLane).trans (if_pos hLanes)
  unfold execLaneFail
  dsimp only
  rw [hLost, if_neg (by rw [hDown]; omega)]
  rfl

theorem withoutLane_parts (lane : Nat) (x : Link) :
    (withoutLane lane x).failed = (if lane = 16 then x.failed else x.failed ++ [lane]) ∧
    (withoutLane lane x).spare = (x.spare && lane != 16) ∧ (withoutLane lane x).state = x.state ∧
    (withoutLane lane x).retry = x.retry ∧ (withoutLane lane x).queues = x.queues ∧ (withoutLane lane x).txSeq = x.txSeq ∧
    (withoutLane lane x).rxSeq = x.rxSeq := by
  unfold withoutLane
  by_cases h : lane = 16 <;> simp [h]

/-- What is left of a link after its fourth lane has failed. -/
theorem laneFail_fourth_parts {l lane : Nat} {s : State} (x : Link) (hx : linkOf s l = x) :
    let t := sendUp l 8 (le 1 lane ++ le 1 0) (onThreeLanes l lane s)
    (linkOf t l).state = 3 ∧ (linkOf t l).quietUntil = s.clock + 6800 ∧
      (linkOf t l).failed = (if lane = 16 then x.failed else x.failed ++ [lane]) ∧ (linkOf t l).spare = (x.spare && lane != 16) ∧
      (linkOf t l).spareStep = (if flagSet s 0x3803 0 = true ∧ spareBusy s l = false ∧ lane ≠ 16 then 1 else 0) ∧
      (linkOf t l).retry = x.retry ∧ (linkOf t l).queues = x.queues ∧ (linkOf t l).txSeq = x.txSeq ∧ (linkOf t l).rxSeq = x.rxSeq := by
  intro t
  subst hx
  obtain ⟨c, hLink⟩ := linkOf_sendUp_same l 8 (le 1 lane ++ le 1 0) (onThreeLanes l lane s)
  obtain ⟨hFailed, hSpare, -, hRetry, hQueues, hTx, hRx⟩ := withoutLane_parts lane (linkOf s l)
  have hTrains : (spareTrains s l lane = true) = (flagSet s 0x3803 0 = true ∧ spareBusy s l = false ∧ lane ≠ 16) := by
    simp [spareTrains, and_assoc]
  rw [show linkOf t l = _ from hLink, linkOf_onThreeLanes_same]
  exact ⟨rfl, rfl, hFailed, hSpare, by simp only [hTrains], hRetry, hQueues, hTx, hRx⟩

/-! Links that train (R340, R341). -/

theorem execLinkUp_of_trained {l : Nat} {s : State} (hLink : l < 64) (hState : (linkOf s l).state = 1) (hMay : mayTrain s l = true) :
    execLinkUp l s = .next (sendFrame l 9 0xFFFF (le 2 (deviceNumber s) ++ le 1 l) (modLink l (fun x => { x with
      state := if lanesInUse x ≤ 3 then 3 else 2, peer := 0xFFFF, peerLink := 0xFF }) s)) := by
  unfold execLinkUp
  rw [if_pos ⟨hState, hMay, hLink⟩]
  rfl

/-- The identity of the far end, as the link keeps it (R341, R383). -/
def named (l device peerLink : Nat) (s : State) : State :=
  modLink l (fun x => { x with peer := device, peerLink := peerLink, takenOver := s.net.failedDevices.contains device }) s

/-- The events about a far end that may not be used: an equal device number, and a device that was taken over (R341, R383). -/
def nameReported (l device : Nat) (same lost : Bool) (s : State) : State :=
  let s := if same then event evtDevnumClash (atInst l) (le 2 device) s else s
  if lost then event evtTakenOverPeer (atInst l) (le 2 device) s else s

theorem nameReported_parts (l device : Nat) (same lost : Bool) (s : State) :
    (nameReported l device same lost s).net = s.net ∧ (nameReported l device same lost s).out = s.out ∧
    (nameReported l device same lost s).beat = s.beat ∧ (nameReported l device same lost s).dict = s.dict ∧
    (nameReported l device same lost s).clock = s.clock := by
  cases same <;> cases lost <;> simp [nameReported]

theorem nameReported_events (l device : Nat) (s : State) :
    (nameReported l device false false s).led.events = s.led.events ∧
    (nameReported l device true false s).led.events = (s.led.events + 1) % 2 ^ 64 ∧
    (nameReported l device false true s).led.events = (s.led.events + 1) % 2 ^ 64 := by
  simp [nameReported, event_led]

theorem sendProbe_of_up {l : Nat} {s : State} (h : linkIsUp s l = true) :
    sendProbe l s = sendFrame l 2 (linkOf s l).peer (le 8 s.clock) (modBeat (fun b => { b with probes := kput b.probes l s.clock }) s) := by
  unfold sendProbe
  rw [if_pos h, sendUp_of_up (show linkIsUp (modBeat _ s) l = true from h)]
  rfl

theorem execIdentityFrame_of_up {l device peerLink : Nat} {s : State} (hUp : linkIsUp s l = true) :
    execIdentityFrame l device peerLink s = .next (sendProbe l (nameReported l device (device == deviceNumber s)
      (s.net.failedDevices.contains device) (named l device peerLink s))) := by
  unfold execIdentityFrame
  rw [if_neg (by simp [hUp])]
  rfl

/-- The digests of the two ends differ: the link is listed, counted and reported (R347, R401). -/
def divergenceReported (l : Nat) (s : State) : State :=
  event evtCfgDiverge (atInst l) [] (count 0x5021 0 1
    (modNet (fun n => { n with diverged := if n.diverged.contains l then n.diverged else n.diverged ++ [l] }) s))

theorem divergenceReported_parts (l : Nat) (s : State) : l ∈ (divergenceReported l s).net.diverged ∧
    (divergenceReported l s).net.links = s.net.links ∧ (divergenceReported l s).led.events = (s.led.events + 1) % 2 ^ 64 := by
  unfold divergenceReported
  rw [event_net, event_led]
  refine ⟨?_, rfl, rfl⟩
  show l ∈ if s.net.diverged.contains l then s.net.diverged else s.net.diverged ++ [l]
  split
  · exact List.contains_iff_mem.mp ‹_›
  · simp

end Sys2Proof.Machine

open Sys2Proof Sys2Proof.Machine

/-- Settles O51: what each lane, training and name leaves of its link. -/
theorem linksTrainLoseLanesAndNameThemselves : Obligations.LinksTrainLoseLanesAndNameThemselves := by
  unfold Obligations.LinksTrainLoseLanesAndNameThemselves
  refine ⟨⟨?fails, ?trained, ?joins, ?told⟩, ?retrains, ?now, ?up, ?identity, ?digest, ?noDigest⟩
  case fails =>
    intro l lane s x hUp hLane
    constructor
    · intro hState hLanes
      obtain ⟨h1, h2, h3, h4, h5, h6, h7, h8, h9⟩ := laneFail_fourth_parts (l := l) (lane := lane) x rfl
      have hThree : (linkOf (onThreeLanes l lane s) l).state = 3 := by rw [linkOf_onThreeLanes_same]
      have hSend := sendUp_keeps l 8 (le 1 lane ++ le 1 0)
        (.refl (· ∉ [Part.out, .led, .ctr, .net]) (onThreeLanes l lane s)) (by simp) (by simp)
      refine ⟨_, execLaneFail_of_fourth hUp hLane hState hLanes, h1, h2, h3, h4, h5, h6, h7, h8, h9, ?_, ?_, ?_, ?_⟩
      · exact fun j hj => (linkOf_sendUp_other 8 _ _ hj).trans (linkOf_onThreeLanes_other lane s hj)
      · rw [sendUp_out_of_up (up_of_three hThree)]
        exact congrArg (· ++ _) (laneNoted_out l lane s)
      · rw [(sendUp_keeps l 8 _ (.refl (· = .led) (onThreeLanes l lane s)) (by simp) (by simp)).parts .led rfl]
        exact laneNoted_events l lane s
      · exact ((onThreeLanes_frame l lane s).mono (by simp)).trans hSend.sameBut
    · intro hLanes
      obtain ⟨-, -, hSame, hRetry, -⟩ := withoutLane_parts lane x
      have hNot : (linkOf (laneNoted l lane s) l).state ≠ 4 := by
        rw [linkOf_laneNoted_same, hSame]
        exact not_down_of_up hUp
      obtain ⟨hLink, hEvents⟩ := linkDown_of_other hNot
      rw [linkOf_laneNoted_same] at hLink
      refine ⟨_, execLaneFail_of_third hUp hLane hLanes, congrArg Link.state hLink, congrArg Link.spareStep hLink, ?_, ?_, ?_, ?_, ?_⟩
      · rw [congrArg Link.resend hLink, hRetry]
      · rw [congrArg Link.retry hLink, hRetry]
      · exact fun j hj => (linkDown_other _ hj).trans (linkOf_laneNoted_other lane s hj)
      · rw [hEvents, laneNoted_events]
        omega
      · exact (laneNoted_frame l lane s).trans
          (linkDown_keeps l (.refl (· ∉ [Part.led, .ctr, .net]) _) (by simp) (by simp) (by simp)).sameBut
  case trained => exact fun l s hStep => congrArg done (if_pos hStep)
  case joins =>
    intro l s hStep hState hBeat
    let u := modLink l (fun x => { x with spareStep := 0, spare := true, state := 2 }) s
    have hLinkU : linkOf u l = { linkOf s l with spareStep := 0, spare := true, state := 2 } := linkOf_modLink_same _ l _
    have hExec : exec (.spareLaneJoin l) s = .next (sendUp l 8 (le 1 16 ++ le 1 1) u) := congrArg done (if_pos ⟨hStep, hState, hBeat⟩)
    obtain ⟨c, hLink⟩ := linkOf_sendUp_same l 8 (le 1 16 ++ le 1 1) u
    rw [hLinkU] at hLink
    exact ⟨_, hExec, congrArg Link.state hLink, congrArg Link.spare hLink, congrArg Link.spareStep hLink, (congrArg Link.failed hLink).trans rfl,
      sendUp_out_of_up (by simp [linkIsUp, hLinkU]) 8 _, sameBut_of_exec (by simp) hExec⟩
  case told =>
    intro l lane s hUp
    have hGuard : ¬ linkIsUp s l = false := by simp [hUp]
    refine ⟨congrArg done ((if_neg hGuard).trans (if_pos rfl)), ?_, ?_⟩
    · intro hLane hNew hLanes
      have hUsed : lane < 4 ∧ (linkOf s l).failed.contains lane = false := ⟨hLane, by simpa using hNew⟩
      exact congrArg done ((if_neg hGuard).trans ((if_neg (by omega)).trans ((if_pos hUsed).trans (if_neg (by omega)))))
    · intro hLane hNew hLanes
      have hUsed : lane < 4 ∧ (linkOf s l).failed.contains lane = false := ⟨hLane, by simpa using hNew⟩
      have hExec : exec (.laneControlFrame l lane 0) s =
          .next (linkDown l (modLink l (fun x => { x with failed := x.failed ++ [lane] }) s)) :=
        congrArg done ((if_neg hGuard).trans ((if_neg (by omega)).trans ((if_pos hUsed).trans (if_pos hLanes))))
      have hNot : (linkOf (modLink l (fun x => { x with failed := x.failed ++ [lane] }) s) l).state ≠ 4 := by
        rw [linkOf_modLink_same]
        exact not_down_of_up hUp
      exact ⟨_, hExec, linkDown_same l _, (linkDown_of_other hNot).2, sameBut_of_exec (by simp) hExec⟩
  case retrains => exact fun l s hState hMay => congrArg done (if_pos ⟨hState, hMay⟩)
  case now =>
    intro who l b s hPasses hFree hMay
    have hEffect : commandEffect who 0x3804 l b s = (stOk, retrain l s) := by
      show checked [(linkNamed s l, stState)] s (fun s => if mayTrain s l then retrain l s else s) = _
      rw [checked_of_ok (by simp [firstStatus, hFree]), if_pos hMay]
    have hRows : ∀ r ∈ objRows, r.index = 0x3804 → r.access = .wo := by decide +kernel
    exact askWrite_of_command hPasses hRows (by decide) (by decide +kernel) (by decide) (by decide) (by decide) hEffect
  case up =>
    intro l s hLink hState hMay
    have hExec : exec (.linkUp l) s = .next _ := execLinkUp_of_trained hLink hState hMay
    let u := modLink l (fun x => { x with state := if lanesInUse x ≤ 3 then 3 else 2, peer := 0xFFFF, peerLink := 0xFF }) s
    have hLinkU : linkOf u l =
      { linkOf s l with state := if lanesInUse (linkOf s l) ≤ 3 then 3 else 2, peer := 0xFFFF, peerLink := 0xFF } := linkOf_modLink_same _ l _
    obtain ⟨c, hSent⟩ := linkOf_sendFrame_same l 9 0xFFFF (le 2 (deviceNumber s) ++ le 1 l) u
    rw [hLinkU] at hSent
    exact ⟨_, hExec, congrArg Link.state hSent, congrArg Link.peer hSent, (congrArg Link.retry hSent).trans rfl,
      fun j hj => (linkOf_sendFrame_other 9 _ _ u hj).trans (linkOf_modLink_other _ _ hj.symm), sendFrame_out .., sameBut_of_exec (by simp) hExec⟩
  case identity =>
    intro l device peerLink s hUp
    have hExec : exec (.identityFrame l device peerLink) s = .next _ := execIdentityFrame_of_up hUp
    let u := nameReported l device (device == deviceNumber s) (s.net.failedDevices.contains device) (named l device peerLink s)
    obtain ⟨hNet, hOut, hBeat, hDict, hClock⟩ := nameReported_parts l device (device == deviceNumber s)
      (s.net.failedDevices.contains device) (named l device peerLink s)
    obtain ⟨hNone, hSame, hLost⟩ := nameReported_events l device (named l device peerLink s)
    have hLinks (j : Nat) : linkOf u j = linkOf (named l device peerLink s) j := congrArg (fun n : Net => kgetD Link.reset n.links j) hNet
    have hLinkU : linkOf u l = { linkOf s l with peer := device, peerLink := peerLink, takenOver := s.net.failedDevices.contains device } :=
      (hLinks l).trans (linkOf_modLink_same _ l _)
    have hu (same lost : Bool) (hSame : (device == deviceNumber s) = same) (hLost : s.net.failedDevices.contains device = lost) :
        u = nameReported l device same lost (named l device peerLink s) := by
      subst hSame hLost
      rfl
    have hUpU : linkIsUp u l = true := by simpa [linkIsUp, hLinkU] using hUp
    have hProbe : sendProbe l u = _ := sendProbe_of_up hUpU
    have hLed : (sendProbe l u).led = u.led :=
      (sendProbe_keeps l (.refl (· = .led) u) (by simp) (by simp) (by simp)).parts .led rfl
    have hNumber : deviceNumber (sendProbe l u) = deviceNumber s := by
      have h : (sendProbe l u).dict = s.dict :=
        ((sendProbe_keeps l (.refl (· = .dict) u) (by simp) (by simp) (by simp)).parts .dict rfl).trans hDict
      simp only [deviceNumber, setting, inUse, h]
    obtain ⟨c, hSent⟩ := linkOf_sendFrame_same l 2 (linkOf u l).peer (le 8 u.clock)
      (modBeat (fun b => { b with probes := kput b.probes l u.clock }) u)
    rw [← hProbe, linkOf_modBeat, hLinkU] at hSent
    refine ⟨_, hExec, congrArg Link.peer hSent, congrArg Link.peerLink hSent, ?_, congrArg Link.takenOver hSent, (congrArg Link.state hSent).trans rfl,
      ?_, ?_, ?_, ?_, ?_, ?_, sameBut_of_exec (by simp) hExec⟩
    · show ((linkOf (sendProbe l u) l).peer == deviceNumber (sendProbe l u)) = _
      rw [hNumber, congrArg Link.peer hSent]
    · intro hOther hKept
      rw [congrArg Ledgers.events hLed, hu false false (by simpa using hOther) (by simpa using hKept), hNone]
      rfl
    · intro hClash hKept
      rw [congrArg Ledgers.events hLed, hu true false (by simpa using hClash) (by simpa using hKept), hSame]
      rfl
    · intro hOther hTaken
      rw [congrArg Ledgers.events hLed, hu false true (by simpa using hOther) (by simpa using hTaken), hLost]
      rfl
    · rw [hProbe, sendFrame_out]
      show u.out ++ _ = _
      rw [hOut, hClock]
      rfl
    · rw [hProbe]
      show ({ u.beat with probes := kput u.beat.probes l u.clock } : Beat) = _
      rw [hBeat, hClock]
      rfl
    · intro j hj
      rw [hProbe, linkOf_sendFrame_other 2 _ _ _ hj, linkOf_modBeat, hLinks]
      exact linkOf_modLink_other _ _ hj.symm
  case digest =>
    intro l beat d own s hUp hOwn
    have hRun : execDigestFrame l d beat s = done (if own = d then modNet (fun n => { n with diverged := n.diverged.filter (· != l) }) s
        else divergenceReported l s) := by
      unfold execDigestFrame
      rw [if_neg (by simp [hUp]), hOwn]
      rfl
    refine ⟨fun hSame => hRun.trans (congrArg done (if_pos hSame)), fun hOther => ?_⟩
    have hExec : exec (.digestFrame l d beat) s = .next (divergenceReported l s) := hRun.trans (congrArg done (if_neg hOther))
    obtain ⟨hListed, hLinks, hEvents⟩ := divergenceReported_parts l s
    exact ⟨_, hExec, hListed, hLinks, hEvents, sameBut_of_exec (by simp) hExec⟩
  case noDigest =>
    intro l beat d s hNone
    show execDigestFrame l d beat s = _
    unfold execDigestFrame
    rw [hNone]
    exact congrArg done (ite_self s)

end

section
/-! Flits: what leaves on a flit slot (R338, R339, R343, R345), and what a flit that arrives does (R336, R339, R340, R344). -/

namespace Sys2Proof.Machine

/-! A flit that leaves (R338, R339, R343). -/

/-- A link once it has sent a new flit: the flit has a number, and is kept until it is acknowledged. -/
def numbered (f : Flit) (x : Link) : Link :=
  { x with txSeq := (x.txSeq + 1) % 4096, retry := x.retry ++ [(x.txSeq, f)], owed := owedAfter x }

/-- The link on which a flit has come owes the credit of its place (R343). -/
def creditOwed (f : Flit) (s : State) : State :=
  match f.via with
  | some u => modLink u (fun y => { y with owed := kput y.owed f.channel (kgetD 0 y.owed f.channel + 1) }) s
  | none => s

theorem putFlit_eq (l : Nat) (f : Flit) (s : State) : putFlit l f s =
    count 0x5500 l 1 (emit (.flit l (flitHeader f (linkOf s l).txSeq ((linkOf s l).rxSeq + 4095) (owedCredit (linkOf s l))) f.payload)
      (creditOwed f (modLink l (numbered f) s))) := rfl

theorem creditOwed_out (f : Flit) (s : State) : (creditOwed f s).out = s.out := by
  unfold creditOwed
  split <;> rfl

/-- The link that owes the credit changes in what it owes alone. -/
theorem linkOf_creditOwed (f : Flit) (l : Nat) (s : State) : ∃ o, linkOf (creditOwed f s) l = { linkOf s l with owed := o } ∧
    (f.via = none → o = (linkOf s l).owed) ∧
    (f.via = some l → kgetD 0 o f.channel = kgetD 0 (linkOf s l).owed f.channel + 1) := by
  unfold creditOwed
  cases hVia : f.via with
  | none => exact ⟨_, rfl, fun _ => rfl, fun h => absurd h (by simp)⟩
  | some u =>
    by_cases hSame : u = l
    · subst hSame
      dsimp only
      rw [linkOf_modLink_same]
      exact ⟨_, rfl, fun h => absurd h (by simp), fun _ => kgetD_kput_same ..⟩
    · dsimp only
      rw [linkOf_modLink_other _ _ hSame]
      exact ⟨_, rfl, fun h => absurd h (by simp), fun h => absurd (Option.some.inj h) hSame⟩

theorem putFlit_out (l : Nat) (f : Flit) (s : State) : (putFlit l f s).out =
    s.out ++ [.flit l (flitHeader f (linkOf s l).txSeq ((linkOf s l).rxSeq + 4095) (owedCredit (linkOf s l))) f.payload] := by
  rw [putFlit_eq]
  exact congrArg (· ++ _) (creditOwed_out f _)

theorem linkOf_putFlit_same (l : Nat) (f : Flit) (s : State) :
    ∃ o, linkOf (putFlit l f s) l = { numbered f (linkOf s l) with owed := o } ∧ (f.via = none → o = owedAfter (linkOf s l)) := by
  obtain ⟨o, hLink, hNone, -⟩ := linkOf_creditOwed f l (modLink l (numbered f) s)
  rw [linkOf_modLink_same] at hLink hNone
  exact ⟨o, by rw [putFlit_eq, linkOf_count, linkOf_emit, hLink], hNone⟩

theorem putFlit_owed_via {l u : Nat} {f : Flit} (s : State) (hVia : f.via = some u) (h : u ≠ l) :
    kgetD 0 (linkOf (putFlit l f s) u).owed f.channel = kgetD 0 (linkOf s u).owed f.channel + 1 := by
  obtain ⟨o, hLink, -, hSome⟩ := linkOf_creditOwed f u (modLink l (numbered f) s)
  rw [linkOf_modLink_other _ _ h.symm] at hLink hSome
  rw [putFlit_eq, linkOf_count, linkOf_emit, hLink]
  exact hSome hVia

/-- The control frame, or the channel's flit with one credit, is taken out of what waits on the link (R343, R345). -/
def flitTaken (l c : Nat) (rest : List Flit) (s : State) : State :=
  if (linkOf s l).control ≠ [] then modLink l (fun x => { x with control := rest }) s
  else modLink l (fun x => { x with
    queues := kputD [] x.queues c rest, spent := kput x.spent c (kgetD 0 x.spent c + 1) }) s

/-- Taking a flit leaves the numbers and the owed credits of its link, and every other link. -/
theorem linkOf_flitTaken_same (l c : Nat) (rest : List Flit) (s : State) : ∃ cs qs sp, linkOf (flitTaken l c rest s) l =
      { linkOf s l with control := cs, queues := qs, spent := sp } ∧
    ((linkOf s l).control ≠ [] → cs = rest ∧ qs = (linkOf s l).queues ∧ sp = (linkOf s l).spent) ∧
    ((linkOf s l).control = [] → kgetD [] qs c = rest ∧ kgetD 0 sp c = kgetD 0 (linkOf s l).spent c + 1) := by
  unfold flitTaken
  split
  · rename_i h
    rw [linkOf_modLink_same]
    exact ⟨_, _, _, rfl, fun _ => ⟨rfl, rfl, rfl⟩, fun hNone => absurd hNone h⟩
  · rename_i h
    rw [linkOf_modLink_same]
    exact ⟨_, _, _, rfl, fun hSome => absurd hSome h, fun _ => ⟨kgetD_kputD_same .., kgetD_kput_same ..⟩⟩

theorem linkOf_flitTaken_other {l j : Nat} (c : Nat) (rest : List Flit) (s : State) (h : j ≠ l) :
    linkOf (flitTaken l c rest s) j = linkOf s j := by
  unfold flitTaken
  split <;> exact linkOf_modLink_other _ _ h.symm

theorem flitTaken_out (l c : Nat) (rest : List Flit) (s : State) : (flitTaken l c rest s).out = s.out := by
  unfold flitTaken
  split <;> rfl

/-- The link is up, its quiet time is over, and it has no flit to send again. -/
structure SendsNew (l : Nat) (s : State) : Prop where
  up : linkIsUp s l = true
  quiet : (linkOf s l).quietUntil ≤ s.clock
  resend : (linkOf s l).resend = none

theorem SendsNew.guard {l : Nat} {s : State} (h : SendsNew l s) :
    ¬ (linkIsUp s l = false ∨ s.clock < (linkOf s l).quietUntil) :=
  fun hNot => hNot.elim (by simp [h.up]) (by have := h.quiet; omega)

theorem execFlitSend_of_flit {l c : Nat} {f : Flit} {rest : List Flit} {s : State} (h : SendsNew l s)
    (hRoom : (linkOf s l).retry.length < 512)
    (hFlit : (linkOf s l).control = f :: rest ∨ (linkOf s l).control = [] ∧ kgetD [] (linkOf s l).queues c = f :: rest ∧
      ¬(c = 63 ∧ othersReady s l = true) ∧ creditLeft s l c ≠ 0) :
    execFlitSend l c s = .next (putFlit l f (flitTaken l c rest s)) := by
  unfold execFlitSend
  dsimp only
  rw [if_neg h.guard, h.resend]
  dsimp only
  rw [if_neg (by omega)]
  obtain hControl | ⟨hControl, hQueue, hOthers, hCredit⟩ := hFlit
  · rw [flitTaken, if_pos (by simp [hControl]), hControl]
    rfl
  · rw [flitTaken, if_neg (not_not_intro hControl), hControl]
    dsimp only
    rw [hQueue]
    dsimp only
    rw [if_neg hOthers, if_neg hCredit]
    rfl

theorem execFlitSend_idle {l c : Nat} {s : State} (h : SendsNew l s)
    (hIdle : 512 ≤ (linkOf s l).retry.length ∨
      ((linkOf s l).control = [] ∧ (kgetD [] (linkOf s l).queues c = [] ∨ (c = 63 ∧ othersReady s l = true)))) :
    execFlitSend l c s = .next (sendIdle l s) := by
  unfold execFlitSend
  dsimp only
  rw [if_neg h.guard, h.resend]
  dsimp only
  by_cases hFull : 512 ≤ (linkOf s l).retry.length
  · exact if_pos hFull
  · obtain ⟨hControl, hQueue⟩ := hIdle.resolve_left hFull
    rw [if_neg hFull, hControl]
    dsimp only
    cases hWaits : kgetD [] (linkOf s l).queues c with
    | nil => rfl
    | cons f rest => exact if_pos (hQueue.resolve_left (by simp [hWaits]))

theorem execFlitSend_starved {l c : Nat} {s : State} (h : SendsNew l s) (hRoom : (linkOf s l).retry.length < 512)
    (hControl : (linkOf s l).control = []) (hQueue : kgetD [] (linkOf s l).queues c ≠ [])
    (hOthers : ¬(c = 63 ∧ othersReady s l = true)) (hCredit : creditLeft s l c = 0) :
    execFlitSend l c s = .next (sendIdle l (count (0x5600 + l) c 1 s)) := by
  obtain ⟨f, rest, hWaits⟩ := List.exists_cons_of_ne_nil hQueue
  unfold execFlitSend
  dsimp only
  rw [if_neg h.guard, h.resend]
  dsimp only
  rw [if_neg (by omega), hControl]
  dsimp only
  rw [hWaits]
  dsimp only
  rw [if_neg hOthers, if_pos hCredit]
  rfl

theorem sendIdle_eq (l : Nat) (s : State) : sendIdle l s = { modLink l (fun x => { x with owed := owedAfter x }) s with
    out := s.out ++ [.flit l (flitHeader ⟨if (linkOf s l).owed = [] then 0 else 2, false, false, 0, 0, 0, 0, [], none⟩ (linkOf s l).txSeq
      ((linkOf s l).rxSeq + 4095) (owedCredit (linkOf s l))) []] } := by
  unfold sendIdle
  dsimp only
  rw [ite_of_iff List.isEmpty_iff _ _]
  rfl

/-- A flit sent again keeps its number, and the next one follows it (R339). -/
def resent (l q : Nat) (f : Flit) (s : State) : State :=
  count 0x5500 l 1 (emit (.flit l (flitHeader f q ((linkOf s l).rxSeq + 4095) none) f.payload)
    (modLink l (fun y => { y with resend := (((linkOf s l).retry.dropWhile (fun e => e.1 != q)).drop 1).head?.map (·.1) }) s))

theorem execFlitSend_of_resend {l c q : Nat} {f : Flit} {s : State} (hUp : linkIsUp s l = true)
    (hQuiet : (linkOf s l).quietUntil ≤ s.clock) (hResend : (linkOf s l).resend = some q)
    (hKept : (linkOf s l).retry.find? (fun e => e.1 == q) = some (q, f)) : execFlitSend l c s = .next (resent l q f s) := by
  unfold execFlitSend
  dsimp only
  rw [if_neg (fun hNot => hNot.elim (by simp [hUp]) (by omega)), hResend]
  dsimp only
  rw [hKept]
  rfl

/-! A flit that arrives (R336, R339, R344). -/

theorem live_count_same (index inst n : Nat) (s : State) :
    kgetD 0 (count index inst n s).ctr.live (index * 256 + inst) =
      min (kgetD 0 s.ctr.live (index * 256 + inst) + n) (2 ^ 64 - 1) := by
  unfold count
  exact kgetD_kmodD_same 0 s.ctr.live (index * 256 + inst) (fun x => min (x + n) (2 ^ 64 - 1))

theorem live_count_other {index inst k : Nat} (n : Nat) (s : State) (h : index * 256 + inst ≠ k) :
    kgetD 0 (count index inst n s).ctr.live k = kgetD 0 s.ctr.live k := by
  unfold count
  exact kgetD_kmodD_other 0 s.ctr.live (fun x => min (x + n) (2 ^ 64 - 1)) h

/-- The flit as it stands before its header is judged: its symbols and codewords are counted, and the flit itself (R336). -/
def flitCounted (l x y : Nat) (s : State) : State := count 0x5501 l 1 (count 0x5505 l y (count 0x5504 l x s))

theorem execFlitReceive_of_up {l x y : Nat} {s : State} (h p : Bytes) (hUp : linkIsUp s l = true) :
    execFlitReceive l h p x y s = (
      let u := flitCounted l x y s
      let k := field h 0 1 / 16
      if flitOk h = false then
        let u := count 0x5502 l 1 u
        done (if (linkOf s l).discarding then u
          else count 0x5503 l 1 (emit (.retry l (linkOf s l).rxSeq) (modLink l (fun x => { x with discarding := true }) u)))
      else if k = 0 ∨ k = 2 then done (takeReturns l h u)
      else if k = 4 then done (resendFrom l (field h 2 2 % 4096) (takeReturns l h u))
      else if 5 ≤ k then done u
      else if field h 2 2 % 4096 ≠ (linkOf s l).rxSeq then done (count 0x5502 l 1 (takeReturns l h u))
      else
        let u := modLink l (fun x => { x with rxSeq := (x.rxSeq + 1) % 4096, discarding := false }) (takeReturns l h u)
        done (if k = 1 then takeData l h p u else u)) := by
  have hDecoded : decodeFec l x y s = count 0x5505 l y (count 0x5504 l x s) := if_pos hUp
  have hUpDecoded : linkIsUp (count 0x5505 l y (count 0x5504 l x s)) l = true := hUp
  unfold execFlitReceive receiveFlit
  rw [hDecoded, if_neg (by simp [hUpDecoded])]
  rfl

/-- A flit with a bad header: the link discards until what it asks for comes again (R339). -/
def flitRefused (l x y : Nat) (s : State) : State :=
  if (linkOf s l).discarding then count 0x5502 l 1 (flitCounted l x y s)
  else count 0x5503 l 1 (emit (.retry l (linkOf s l).rxSeq)
    (modLink l (fun x => { x with discarding := true }) (count 0x5502 l 1 (flitCounted l x y s))))

theorem linkOf_flitCounted (l x y j : Nat) (s : State) : linkOf (flitCounted l x y s) j = linkOf s j := by
  rw [flitCounted, linkOf_count, linkOf_count, linkOf_count]

theorem flitCounted_out (l x y : Nat) (s : State) : (flitCounted l x y s).out = s.out := by
  rw [flitCounted, count_out, count_out, count_out]

theorem flitRefused_parts (l x y : Nat) (s : State) :
    linkOf (flitRefused l x y s) l = { linkOf s l with discarding := true } ∧
    (flitRefused l x y s).out = s.out ++ (if (linkOf s l).discarding then [] else [.retry l (linkOf s l).rxSeq]) := by
  unfold flitRefused
  cases h : (linkOf s l).discarding with
  | true =>
    rw [if_pos rfl, if_pos rfl, linkOf_count, linkOf_flitCounted, count_out, flitCounted_out, List.append_nil, ← h]
    exact ⟨rfl, rfl⟩
  | false =>
    rw [if_neg Bool.false_ne_true, if_neg Bool.false_ne_true, linkOf_count, linkOf_emit, linkOf_modLink_same, linkOf_count,
      linkOf_flitCounted, count_out]
    exact ⟨rfl, congrArg (· ++ _) (flitCounted_out l x y s)⟩

theorem flitRefused_counts (l x y : Nat) (s : State) :
    kgetD 0 (flitRefused l x y s).ctr.live (0x5504 * 256 + l) = min (kgetD 0 s.ctr.live (0x5504 * 256 + l) + x) (2 ^ 64 - 1) ∧
    kgetD 0 (flitRefused l x y s).ctr.live (0x5505 * 256 + l) = min (kgetD 0 s.ctr.live (0x5505 * 256 + l) + y) (2 ^ 64 - 1) := by
  have hBase (k : Nat) (h1 : 0x5501 * 256 + l ≠ k) (h2 : 0x5502 * 256 + l ≠ k) (h3 : 0x5503 * 256 + l ≠ k) :
      kgetD 0 (flitRefused l x y s).ctr.live k = kgetD 0 (count 0x5505 l y (count 0x5504 l x s)).ctr.live k := by
    have hHeard : kgetD 0 (count 0x5502 l 1 (flitCounted l x y s)).ctr.live k =
        kgetD 0 (count 0x5505 l y (count 0x5504 l x s)).ctr.live k := (live_count_other 1 _ h2).trans (live_count_other 1 _ h1)
    unfold flitRefused
    split
    · exact hHeard
    · exact (live_count_other 1 _ h3).trans hHeard
  constructor
  · rw [hBase _ (by omega) (by omega) (by omega), live_count_other y _ (by omega), live_count_same]
  · rw [hBase _ (by omega) (by omega) (by omega), live_count_same, live_count_other x _ (by omega)]

/-- The returns in a header change what is kept for a resend and the credits that are spent, and nothing else of the link (R339, R343). -/
theorem linkOf_takeReturns (l : Nat) (h : Bytes) (s : State) : ∃ sp, linkOf (takeReturns l h s) l = { linkOf s l with
    retry := if bit (field h 4 2) 15 then (linkOf s l).retry.filter (fun e => 2048 ≤ seqDistance e.1 (field h 4 2 % 4096))
      else (linkOf s l).retry, spent := sp } := by
  unfold takeReturns
  dsimp only
  by_cases hAck : bit (field h 4 2) 15 = true
  · rw [if_pos hAck, if_pos hAck]
    split
    · rw [linkOf_modLink_same]
      exact ⟨_, rfl⟩
    · rw [linkOf_modLink_same, linkOf_modLink_same]
      exact ⟨_, rfl⟩
  · rw [if_neg hAck, if_neg hAck]
    split
    · exact ⟨_, rfl⟩
    · rw [linkOf_modLink_same]
      exact ⟨_, rfl⟩

theorem takeReturns_out (l : Nat) (h : Bytes) (s : State) : (takeReturns l h s).out = s.out :=
  (takeReturns_keeps l h (.refl (· = .out) s) (by simp)).parts .out rfl

theorem flitCounted_frame (l x y : Nat) (s : State) : SameBut [.ctr, .net] s (flitCounted l x y s) :=
  (count_keeps _ _ _ (count_keeps _ _ _ (count_keeps _ _ _ (.refl (· ∉ [Part.ctr, .net]) s) (by simp)) (by simp)) (by simp)).sameBut

theorem returned_frame (l x y : Nat) (h : Bytes) (s : State) : SameBut [.ctr, .net] s (takeReturns l h (flitCounted l x y s)) :=
  (flitCounted_frame l x y s).trans (takeReturns_keeps l h (.refl (· ∉ [Part.ctr, .net]) _) (by simp)).sameBut

/-- The flit that comes next: its number is taken, and its link takes what follows. -/
def flitInOrder (l x y : Nat) (h : Bytes) (s : State) : State :=
  modLink l (fun x => { x with rxSeq := (x.rxSeq + 1) % 4096, discarding := false }) (takeReturns l h (flitCounted l x y s))

theorem flitRefused_frame (l x y : Nat) (s : State) : SameBut [.out, .ctr, .net] s (flitRefused l x y s) := by
  have hHeard : Keeps (· ∉ [Part.out, .ctr, .net]) s (count 0x5502 l 1 (flitCounted l x y s)) :=
    count_keeps _ _ _ (count_keeps _ _ _ (count_keeps _ _ _ (count_keeps _ _ _ (.refl _ s) (by simp)) (by simp)) (by simp)) (by simp)
  unfold flitRefused
  split
  · exact hHeard.sameBut
  · exact (count_keeps _ _ _ (emit_keeps _ (modLink_keeps l _ hHeard (by simp)) (by simp)) (by simp)).sameBut

/-! Data flits (R344). -/

/-- The credit of a data flit's place is owed to the far end (R343). -/
def placeOwed (l c : Nat) : State → State := modLink l (fun x => { x with owed := kput x.owed c (kgetD 0 x.owed c + 1) })

theorem takeData_forward {l out : Nat} {r : Route} {h p : Bytes} {s : State} (hDest : field h 8 2 % 32768 ≠ deviceNumber s)
    (hRoute : routeOf s (field h 10 1 % 4) = some r)
    (hOut : routeLink r (field h 10 1 / 32) (field h 8 2 % 32768) (sideOf l) = some out) :
    takeData l h p s = count 0x5509 l 1 (queueFlits out (field h 1 1 % 64) [⟨1, bit (field h 0 1) 0, bit (field h 0 1) 1, field h 1 1 % 64,
      field h 8 2 % 32768, field h 10 1 / 32, field h 10 1 % 4, p.take (field h 6 2), some l⟩] s) := by
  unfold takeData
  dsimp only
  rw [if_neg hDest, hRoute]
  dsimp only [Option.bind]
  rw [hOut]

theorem queue_queueFlits (l c : Nat) (fs : List Flit) (s : State) :
    kgetD [] (linkOf (queueFlits l c fs s) l).queues c = kgetD [] (linkOf s l).queues c ++ fs := by
  unfold queueFlits
  rw [linkOf_modLink_same]
  exact kgetD_kmodD_same [] (linkOf s l).queues c (· ++ fs)

/-- The last flit of what a channel brings for this module: the channel starts afresh, and owes the credit of the place. -/
def channelEmptied (l c : Nat) (s : State) : State := modLink l (fun x => { x with parts := kdel x.parts c }) (placeOwed l c s)

theorem channelEmptied_parts (l c : Nat) (s : State) : kget (linkOf (channelEmptied l c s) l).parts c = none ∧
    kgetD 0 (linkOf (channelEmptied l c s) l).owed c = kgetD 0 (linkOf s l).owed c + 1 := by
  unfold channelEmptied placeOwed
  rw [linkOf_modLink_same, linkOf_modLink_same]
  exact ⟨kget_kdel_same .., kgetD_kput_same ..⟩

theorem takeData_whole {l : Nat} {h p : Bytes} {s : State} (hDest : field h 8 2 % 32768 = deviceNumber s)
    (hLast : bit (field h 0 1) 1 = true) :
    takeData l h p s = takeWhole l (field h 1 1 % 64) (field h 10 1 % 4)
      ((if bit (field h 0 1) 0 then [] else kgetD [] (linkOf s l).parts (field h 1 1 % 64)) ++ p.take (field h 6 2))
      (channelEmptied l (field h 1 1 % 64) s) := by
  have hParts : (linkOf (placeOwed l (field h 1 1 % 64) s) l).parts = (linkOf s l).parts := by
    rw [placeOwed, linkOf_modLink_same]
  rw [← hParts]
  unfold takeData
  dsimp only
  rw [if_pos hDest, if_pos hLast]
  rfl

theorem takeWhole_of_stream {l c slot : Nat} {r : Route} {o : StreamRow} {b : Bytes} {s : State} (hRoute : routeOf s slot = some r)
    (hStream : (b.length = 4 ∧ ownStream r l c = some o) ∨ (b.length ≠ 4 ∧ peerStream r l c = some o)) :
    takeWhole l c slot b s = if b.length = 4 then addCredit slot o.number (field b 0 2) s
      else putStaged slot o.number ⟨b.take 32, b.drop 32⟩ s := by
  unfold takeWhole
  rw [hRoute]
  dsimp only
  obtain ⟨hLength, hOwn⟩ | ⟨hLength, hPeer⟩ := hStream
  · rw [if_pos hLength, if_pos hLength, hOwn]
  · rw [if_neg hLength, if_neg hLength, hPeer]

/-! Requests for a resend (R339, R340). -/

/-- How often in a row the far end has asked for a flit. -/
def timesAsked (x : Link) (seq : Nat) : Nat := if x.askedSeq = some seq then x.asked + 1 else 1

/-- The sender goes back to the flit that is asked for. -/
def resendMarked (l seq n : Nat) (s : State) : State := modLink l (fun x => { x with
  askedSeq := some seq, asked := n
  retry := x.retry.filter (fun e => 2048 ≤ seqDistance e.1 ((seq + 4095) % 4096))
  resend := if x.retry.any (fun e => e.1 == seq) then some seq else x.resend }) s

theorem linkOf_resendMarked (l seq n : Nat) (s : State) : (linkOf (resendMarked l seq n s) l).asked = n ∧
    (linkOf (resendMarked l seq n s) l).state = (linkOf s l).state ∧
    ((∃ e ∈ (linkOf s l).retry, e.1 = seq) → (linkOf (resendMarked l seq n s) l).resend = some seq) := by
  unfold resendMarked
  rw [linkOf_modLink_same]
  exact ⟨rfl, rfl, fun ⟨e, hMem, hSame⟩ => if_pos (List.any_eq_true.mpr ⟨e, hMem, by simp [hSame]⟩)⟩

theorem resendFrom_eq (l seq : Nat) (s : State) : resendFrom l seq s =
    if setting s 0x3802 0 ≤ timesAsked (linkOf s l) seq then linkDown l (resendMarked l seq (timesAsked (linkOf s l) seq) s)
    else resendMarked l seq (timesAsked (linkOf s l) seq) s := rfl

end Sys2Proof.Machine

open Sys2Proof Sys2Proof.Machine

/-- Settles O52: each flit that leaves or arrives is one of the cases of its channel, and each case names what its link keeps. -/
theorem flitsAreNumberedCreditedAndResent : Obligations.FlitsAreNumberedCreditedAndResent := by
  unfold Obligations.FlitsAreNumberedCreditedAndResent
  refine ⟨?sent, ?idle, ?again, ?bad, ?taken, ?forward, ?whole, ?asked⟩
  case sent =>
    intro l c f rest s x hUp hQuiet hResend hRoom hFlit
    have hExec : exec (.flitSend l c) s = .next (putFlit l f (flitTaken l c rest s)) :=
      execFlitSend_of_flit ⟨hUp, hQuiet, hResend⟩ hRoom hFlit
    obtain ⟨cs, qs, sp, hTaken, hControl, hData⟩ := linkOf_flitTaken_same l c rest s
    obtain ⟨o, hLink, hOwed⟩ := linkOf_putFlit_same l f (flitTaken l c rest s)
    rw [hTaken] at hLink hOwed
    refine ⟨_, hExec, ?_, congrArg Link.txSeq hLink, congrArg Link.retry hLink, (congrArg Link.rxSeq hLink).trans rfl, ?_, ?_, ?_, ?_,
      sameBut_of_exec (by simp) hExec⟩
    · rw [putFlit_out, hTaken, flitTaken_out]
      rfl
    · intro hSome
      obtain ⟨hRest, hQueues, hSpent⟩ := hControl hSome
      rw [hLink]
      exact ⟨hRest, hQueues, hSpent⟩
    · intro hNone
      rw [hLink]
      exact hData hNone
    · intro hVia
      rw [hLink]
      exact hOwed hVia
    · intro u hVia hOther
      rw [putFlit_owed_via _ hVia hOther, linkOf_flitTaken_other c rest s hOther]
  case idle =>
    intro l c s x idle hUp hQuiet hResend
    constructor
    · intro hIdle
      exact (execFlitSend_idle ⟨hUp, hQuiet, hResend⟩ hIdle).trans (congrArg done (sendIdle_eq l s))
    · intro hRoom hControl hQueue hOthers hCredit
      exact (execFlitSend_starved ⟨hUp, hQuiet, hResend⟩ hRoom hControl hQueue hOthers hCredit).trans
        (congrArg done (sendIdle_eq l _))
  case again =>
    intro l c q f s x hUp hQuiet hResend hKept
    have hExec : exec (.flitSend l c) s = .next (resent l q f s) := execFlitSend_of_resend hUp hQuiet hResend hKept
    have hLink : linkOf (resent l q f s) l = _ := linkOf_modLink_same s l _
    exact ⟨_, hExec, rfl, (congrArg Link.retry hLink).trans rfl, (congrArg Link.txSeq hLink).trans rfl, congrArg Link.resend hLink,
      sameBut_of_exec (by simp) hExec⟩
  case bad =>
    intro l x y h p s hUp hBad
    have hExec : exec (.flitReceive l h p x y) s = .next (flitRefused l x y s) :=
      (execFlitReceive_of_up h p hUp).trans (if_pos hBad)
    obtain ⟨hLink, hOut⟩ := flitRefused_parts l x y s
    obtain ⟨hCorrected, hUncorrectable⟩ := flitRefused_counts l x y s
    exact ⟨_, hExec, hLink, hOut, hCorrected, hUncorrectable, flitRefused_frame l x y s⟩
  case taken =>
    intro l x y h p s hUp hGood hKind
    have hRun : execFlitReceive l h p x y s = if field h 2 2 % 4096 ≠ (linkOf s l).rxSeq
        then done (count 0x5502 l 1 (takeReturns l h (flitCounted l x y s)))
        else done (if field h 0 1 / 16 = 1 then takeData l h p (flitInOrder l x y h s) else flitInOrder l x y h s) :=
      (execFlitReceive_of_up h p hUp).trans ((if_neg (by simp [hGood])).trans
        ((if_neg (by omega)).trans ((if_neg (by omega)).trans (if_neg (by omega)))))
    obtain ⟨sp, hLink⟩ := linkOf_takeReturns l h (flitCounted l x y s)
    rw [linkOf_flitCounted] at hLink
    constructor
    · intro hOther
      refine ⟨_, hRun.trans (if_pos hOther), ?_, ?_, ?_⟩
      · rw [linkOf_count, hLink]
      · rw [count_out, takeReturns_out, flitCounted_out]
      · exact (returned_frame l x y h s).trans (count_keeps _ _ _ (.refl (· ∉ [Part.ctr, .net]) _) (by simp)).sameBut
    · intro hNext
      have hTaken : linkOf (flitInOrder l x y h s) l = _ := linkOf_modLink_same _ l _
      rw [hLink] at hTaken
      refine ⟨flitInOrder l x y h s, congrArg Link.rxSeq hTaken, congrArg Link.discarding hTaken, ?_, ?_,
        hRun.trans (if_neg (not_not_intro hNext))⟩
      · intro hAck e
        rw [congrArg Link.retry hTaken]
        simp [hAck]
      · exact (returned_frame l x y h s).trans (modLink_keeps l _ (.refl (· ∉ [Part.ctr, .net]) _) (by simp)).sameBut
  case forward =>
    intro l out r h p s hDest hRoute hOut c
    rw [takeData_forward hDest hRoute hOut]
    refine ⟨⟨1, bit (field h 0 1) 0, bit (field h 0 1) 1, c, field h 8 2 % 32768, field h 10 1 / 32, field h 10 1 % 4,
      p.take (field h 6 2), some l⟩, ?_, rfl, rfl, rfl, ?_⟩
    · rw [linkOf_count]
      exact queue_queueFlits out c _ s
    · exact (count_keeps _ _ _ (queueFlits_keeps out c _ (.refl (· ∉ [Part.net, .ctr]) s) (by simp)) (by simp)).sameBut
  case whole =>
    intro l slot r o h p s hDest hSlot hLast hRoute c b hStream
    subst hSlot
    obtain ⟨hParts, hOwed⟩ := channelEmptied_parts l c s
    have hFrame : SameBut [.net] s (channelEmptied l c s) :=
      (modLink_keeps l _ (modLink_keeps l _ (.refl (· ∉ [Part.net]) s) (by simp)) (by simp)).sameBut
    have hRouteThen : routeOf (channelEmptied l c s) (field h 10 1 % 4) = some r := hRoute
    exact ⟨_, (takeData_whole hDest hLast).trans (takeWhole_of_stream hRouteThen hStream), hParts, hOwed, hFrame⟩
  case asked =>
    intro l q s x n hUp
    have hRun : execRetryRequest l q s = done (resendFrom l (q % 4096) s) := congrArg done (if_pos hUp)
    rw [resendFrom_eq] at hRun
    obtain ⟨hAsked, hState, hResend⟩ := linkOf_resendMarked l (q % 4096) n s
    constructor
    · intro hFew
      exact ⟨_, hRun.trans (congrArg done (if_neg (Nat.not_le.mpr hFew))), hAsked, hState, hResend,
        (modLink_keeps l _ (.refl (· ∉ [Part.net]) s) (by simp)).sameBut⟩
    · intro hOften
      have hExec : exec (.retryRequest l q) s = .next (linkDown l (resendMarked l (q % 4096) n s)) :=
        hRun.trans (congrArg done (if_pos hOften))
      exact ⟨_, hExec, linkDown_same l _, (linkDown_of_other (by rw [hState]; exact not_down_of_up hUp)).2, sameBut_of_exec (by simp) hExec⟩

end

section
/-! Ethernet ports: their mode (R354), negotiation, the management port (R355, R359), and the datagrams that they take (R356, R431). -/

namespace Sys2Proof.Machine

/-! The mode of a port (R354, R75). -/

theorem rows_portMode : ∀ r ∈ objRows, r.index = 0x2F20 → r.access = .rw := by decide +kernel

/-- A mode is stored for a port that no route names. -/
theorem askWrite_portMode {who : Who} {l : Nat} {b : Bytes} {s : State} (h : Passes who (writeOf 0x2F20 l b) s)
    (hLink : linkNamed s l = false) (hPort : portNames s l = false) :
    askWrite who 0x2F20 l b s = .next (answered who (writeOf 0x2F20 l b) s (storeValue 0x2F20 l b s)) := by
  have hAccess : (rowOf 0x2F20 l).access = .rw := rowOf_shares (P := fun r => r.access = .rw) (index := 0x2F20) (sub := l) h.status rfl rfl
    rows_portMode (by decide) (by decide +kernel) (by decide)
  have hStatus : chapterStatus s 0x2F20 l b = stOk := by
    show firstStatus [(linkNamed s l || portNames s l, stState)] = stOk
    simp [firstStatus, hLink, hPort]
  exact askWrite_of_passes h (writeEffect_of_stored who (.inl hAccess) (by decide) (by decide) hStatus)

/-- A walk that keeps `I` and meets `x` has made `P` true, where the step of `x` makes it true and no other step unmakes it. -/
theorem foldl_reaches {α : Type} [DecidableEq α] {I P : State → Prop} {step : State → α → State} {x : α} {l : List α}
    (hKeeps : ∀ s, ∀ y ∈ l, I s → I (step s y)) (hMakes : ∀ s, I s → P (step s x))
    (hStays : ∀ s, ∀ y ∈ l, y ≠ x → I s → P s → P (step s y)) (hx : x ∈ l) {s : State} (hs : I s) : P (l.foldl step s) := by
  have hKept (m : List α) (hm : m ⊆ l) (s : State) (hs : I s) (hp : P s) : P (m.foldl step s) := by
    induction m generalizing s with
    | nil => exact hp
    | cons y m ih =>
      have hy : y ∈ l := hm List.mem_cons_self
      refine ih (fun z hz => hm (List.mem_cons_of_mem _ hz)) _ (hKeeps s y hy hs) ?_
      by_cases hSame : y = x
      · exact hSame ▸ hMakes s hs
      · exact hStays s y hy hSame hs hp
  have hWalk (m : List α) (hm : m ⊆ l) (hxm : x ∈ m) (s : State) (hs : I s) : P (m.foldl step s) := by
    induction m generalizing s with
    | nil => simp at hxm
    | cons y m ih =>
      have hRest : m ⊆ l := fun z hz => hm (List.mem_cons_of_mem _ hz)
      have hNext := hKeeps s y (hm List.mem_cons_self) hs
      rcases List.mem_cons.mp hxm with rfl | hLater
      · exact hKept m hRest _ hNext (hMakes s hs)
      · exact ih hRest hLater _ hNext
  exact hWalk l (List.Subset.refl l) hx s hs

theorem linkOf_setPortMode_same (l v : Nat) (s : State) : linkOf (setPortMode l v s) l = { Link.reset with
    state := if flagSet s 0x2807 l = false then 0 else if v = 0 then 1 else 5
    port := if flagSet s 0x2807 l = true ∧ v ≠ 0 then 1 else 0, failed := (linkOf s l).failed } := by
  unfold setPortMode
  rw [linkOf_modLink_same]

theorem linkOf_setPortMode_other {l m : Nat} (v : Nat) (s : State) (h : m ≠ l) : linkOf (setPortMode l v s) m = linkOf s m :=
  linkOf_modLink_other _ _ h.symm

/-- Neither a mode nor the enabling of a link changes the dictionary, or the lanes that have failed. -/
theorem setPortMode_keeps_lanes (l v m : Nat) (s : State) :
    (setPortMode l v s).dict = s.dict ∧ (linkOf (setPortMode l v s) m).failed = (linkOf s m).failed := by
  refine ⟨rfl, ?_⟩
  by_cases h : m = l
  · subst h
    rw [linkOf_setPortMode_same]
  · rw [linkOf_setPortMode_other v s h]

theorem failed_modLink {f : Link → Link} (hf : ∀ x, (f x).failed = x.failed) (l m : Nat) (s : State) :
    (linkOf (modLink l f s) m).failed = (linkOf s m).failed := by
  by_cases h : l = m
  · subst h
    rw [linkOf_modLink_same, hf]
  · rw [linkOf_modLink_other _ _ h]

theorem enableLink_keeps_lanes (l v m : Nat) (s : State) :
    (enableLink l v s).dict = s.dict ∧ (linkOf (enableLink l v s) m).failed = (linkOf s m).failed := by
  refine ⟨(enableLink_keeps l v (.refl (· = .dict) s) (by simp)).parts .dict rfl, ?_⟩
  unfold enableLink
  split
  · exact failed_modLink (hf := fun _ => by rfl) l m s
  · split
    · rfl
    · split
      · exact failed_modLink (hf := fun _ => by rfl) l m s
      · exact (setPortMode_keeps_lanes l _ m s).2

/-- The dictionary once the values written are the ones in use (R75). -/
def valuesUsed (s : State) : Dict := { s.dict with inUse := s.dict.objs }

theorem setting_of_valuesUsed {s u : State} (h : u.dict = valuesUsed s) (index sub : Nat) :
    setting u index sub = leNat (stored s index sub) := by
  simp only [setting, inUse, stored, h, valuesUsed]

theorem linkOf_takeValues_port {l : Nat} {s : State} (hRange : l < 64) (hChanges : changes s 0x2F20 l = true)
    (hOn : leNat (stored s 0x2807 l) = 1) :
    linkOf (takeValues s) l = { Link.reset with
      state := if leNat (stored s 0x2F20 l) = 0 then 1 else 5, port := if leNat (stored s 0x2F20 l) = 0 then 0 else 1
      failed := (linkOf s l).failed } := by
  let I (u : State) : Prop := u.dict = valuesUsed s ∧ (linkOf u l).failed = (linkOf s l).failed
  have hEnabled : I (((List.range 64).filter (changes s 0x2807)).foldl (fun s l => enableLink l (setting s 0x2807 l) s)
      (modHost (fun h => { h with windows := h.windowsSet, releaseInts := h.releaseSet })
        (modDict (fun d => { d with inUse := d.objs }) s))) := by
    refine List.foldlRecOn _ _ ⟨rfl, rfl⟩ (fun u hu k _ => ?_)
    obtain ⟨hDict, hFailed⟩ := enableLink_keeps_lanes k (setting u 0x2807 k) l u
    exact ⟨hDict.trans hu.1, hFailed.trans hu.2⟩
  refine foldl_reaches (I := I) (x := l) (step := fun s l => setPortMode l (setting s 0x2F20 l) s) (P := fun u => linkOf u l = _)
    (fun u k _ hu => ?_) (fun u hu => ?_) (fun u k _ hOther _ hu => ?_) (List.mem_filter.mpr ⟨List.mem_range.mpr hRange, hChanges⟩) hEnabled
  · obtain ⟨hDict, hFailed⟩ := setPortMode_keeps_lanes k (setting u 0x2F20 k) l u
    exact ⟨hDict.trans hu.1, hFailed.trans hu.2⟩
  · have hFlag : flagSet u 0x2807 l = true := by
      rw [flagSet, setting_of_valuesUsed hu.1, hOn]
      rfl
    dsimp only
    rw [linkOf_setPortMode_same, hFlag, setting_of_valuesUsed hu.1, hu.2]
    by_cases hMode : leNat (stored s 0x2F20 l) = 0 <;> simp [hMode]
  · exact (linkOf_setPortMode_other _ _ hOther.symm).trans hu

/-! Datagrams (R355, R356, R431). -/

/-- A frame arrives whole, in order and in length at a port that is up. -/
structure FrameTaken (l : Nat) (d : Datagram) (s : State) : Prop where
  direct : (linkOf s l).state = 5
  up : (linkOf s l).port = 2
  alive : alive s = true
  fcs : d.fcsOk = true
  proto : d.protoOk = true
  size : 64 ≤ d.length ∧ d.length ≤ 9018

/-- The flow, the route and the Port record that a datagram is for. -/
structure FlowServed (l f slot : Nat) (d : Datagram) (p : Bytes) (s : State) : Prop where
  flow : (List.range 64).find? (fun f => flowMatches s l f d) = some f
  place : slot = setting s 0x2F47 f / 2 ^ 14
  record : ∃ r, routeOf s slot = some r ∧ r.training = false ∧ portRecord r (setting s 0x2F47 f % 4096) = some p
  path : portPath p + 61 = l

/-- No slot of the ring is free: the datagram is counted and answered at once. -/
def noLineAnswered (l f slot : Nat) (d : Datagram) (p : Bytes) (s : State) : State :=
  count 0x5519 l 1 (emit (.datagram l f (le 2 (resultPort s f d.srcPort) ++
    resultLine (qSequence (d.payload.take 32)) (field (d.payload.take 32) 12 4) 2 stCapacity 0 []))
    (countServe slot (field p 0 2) 6 1 (countServe slot (field p 0 2) 0 1 s)))

theorem execDatagramReceive_of_served {l f slot : Nat} {d : Datagram} {p : Bytes} {s : State} (hFrame : FrameTaken l d s)
    (hFlow : FlowServed l f slot d p s) : execDatagramReceive l d s = done (
      match nextLine s slot p with
      | some i => admitQuery slot i (resultPort s f d.srcPort) f p (d.payload.take 32) (d.payload.drop 32) (count 0x5518 l 1 s)
      | none => noLineAnswered l f slot d p (count 0x5518 l 1 s)) := by
  obtain ⟨hDirect, hUp, hAlive, hFcs, hProto, hSize⟩ := hFrame
  obtain ⟨hFound, rfl, ⟨r, hRoute, hServing, hRecord⟩, hPath⟩ := hFlow
  have hGuard : ¬ ((linkOf s l).state ≠ 5 ∨ (linkOf s l).port ≠ 2 ∨ alive s = false) := by simp [hDirect, hUp, hAlive]
  generalize hu : count 0x5518 l 1 s = u
  have hFoundThen : (List.range 64).find? (fun f => flowMatches u l f d) = some f := by subst hu; exact hFound
  have hSetting : setting u 0x2F47 f = setting s 0x2F47 f := by subst hu; rfl
  have hRouteThen (k : Nat) : routeOf u k = routeOf s k := by subst hu; rfl
  have hLine (k : Nat) : nextLine u k p = nextLine s k p := by subst hu; rfl
  have hPort : resultPort s f d.srcPort = resultPort u f d.srcPort := by subst hu; rfl
  unfold execDatagramReceive
  dsimp only
  rw [if_neg hGuard, hu, if_neg (by simp [hFcs]), if_neg (by omega), if_neg (by simp [hProto]), hFoundThen]
  dsimp only
  rw [hSetting, hRouteThen, hRoute]
  dsimp only [Option.bind]
  rw [if_neg (by simp [hServing]), hRecord]
  dsimp only
  rw [if_neg (not_not_intro hPath), hLine, hPort]
  cases nextLine s (setting s 0x2F47 f / 2 ^ 14) p <;> rfl

theorem noLineAnswered_frame (l f slot : Nat) (d : Datagram) (p : Bytes) (s : State) :
    SameBut [.out, .ctr] s (noLineAnswered l f slot d p s) :=
  (count_keeps _ _ _ (emit_keeps _ (countServe_keeps _ _ _ _ (countServe_keeps _ _ _ _ (.refl (· ∉ [Part.out, .ctr]) s) (by simp)) (by simp))
    (by simp)) (by simp)).sameBut

theorem noLineAnswered_out (l f slot : Nat) (d : Datagram) (p : Bytes) (s : State) : (noLineAnswered l f slot d p s).out =
    s.out ++ [.datagram l f (le 2 (resultPort s f d.srcPort) ++
      resultLine (qSequence (d.payload.take 32)) (field (d.payload.take 32) 12 4) 2 stCapacity 0 [])] := by
  have hOut : (countServe slot (field p 0 2) 6 1 (countServe slot (field p 0 2) 0 1 s)).out = s.out :=
    (countServe_keeps _ _ _ _ (countServe_keeps _ _ _ _ (.refl (· = .out) s) (by simp)) (by simp)).parts .out rfl
  rw [noLineAnswered, count_out]
  exact congrArg (· ++ _) hOut

end Sys2Proof.Machine

open Sys2Proof Sys2Proof.Machine

/-- Settles O53: a mode is stored and taken at the next beat, and a datagram ends at the first check that stops it. -/
theorem ethernetPortsNegotiateAndTakeDatagrams : Obligations.EthernetPortsNegotiateAndTakeDatagrams := by
  unfold Obligations.EthernetPortsNegotiateAndTakeDatagrams
  refine ⟨?stored, ?taken, ?port, ?management, ?echo, ?damaged, ?served⟩
  case stored =>
    intro who l v ins s hIns hPasses hLink hPort
    have hExec : exec ins s = askWrite who 0x2F20 l (le 1 v) s := by
      obtain ⟨rfl, rfl⟩ | ⟨rfl, -⟩ := hIns <;> rfl
    refine ⟨storeValue 0x2F20 l (le 1 v) s, hExec.trans (askWrite_portMode hPasses hLink hPort), ?_, ?_,
      (storeValue_keeps 0x2F20 l (le 1 v) (.refl (· ∉ [Part.dict, .flash]) s) (by simp) (by simp)).sameBut⟩
    · rw [storeValue_dict]
      exact kget_kput_same ..
    · rw [storeValue_dict]
  case taken =>
    intro l s hLink hChanges hOn v
    exact linkOf_takeValues_port (by omega) hChanges hOn
  case port => exact fun l s hState => ⟨congrArg done (if_pos hState), congrArg done (if_pos hState)⟩
  case management => exact fun s hRuns => ⟨congrArg done (if_pos hRuns), rfl⟩
  case echo => exact fun k b s hUp hKind hRuns => congrArg done (if_pos ⟨hUp, hKind, hRuns⟩)
  case damaged =>
    intro l d s hState hPort hAlive hBad
    exact (if_neg (by simp [hState, hPort, hAlive])).trans (if_pos hBad)
  case served =>
    intro l f slot d r p s hState hPort hAlive hFcs hProto hLow hHigh hFound hSlot hRoute hServing hRecord hPath
    have hRun := execDatagramReceive_of_served ⟨hState, hPort, hAlive, hFcs, hProto, hLow, hHigh⟩
      ⟨hFound, hSlot, ⟨r, hRoute, hServing, hRecord⟩, hPath⟩
    constructor
    · intro i hLine
      rw [hLine] at hRun
      exact hRun
    · intro hNone
      rw [hNone] at hRun
      refine ⟨_, hRun, noLineAnswered_out .., ?_⟩
      exact (count_keeps _ _ _ (.refl (· ∉ [Part.out, .ctr]) s) (by simp)).sameBut.trans (noLineAnswered_frame ..)

end

section
/-! The deadline path: requests and the lines that answer them (R428-R431, R434-R440), and the refresh of served weights (R443, R444). -/

namespace Sys2Proof.Machine

theorem serveOf_congr {s t : State} (h : t.serves = s.serves) (k : Nat) : serveOf t k = serveOf s k := congrArg (kgetD Serve.none · k) h

theorem routeOf_congr {s t : State} (h : t.slots = s.slots) (k : Nat) : routeOf t k = routeOf s k := by
  unfold routeOf
  rw [slotOf_congr h]

theorem portOf_congr {s t : State} (h : t.slots = s.slots) (k n : Nat) : portOf t k n = portOf s k n := by
  unfold portOf
  rw [routeOf_congr h]

theorem serveOf_countServe (slot station k n j : Nat) (s : State) : serveOf (countServe slot station k n s) j = serveOf s j :=
  serveOf_congr ((countServe_keeps slot station k n (.refl (· = .serves) s) (by simp)).parts .serves rfl) j

/-! A line of answer is delivered (R437, R439). -/

/-- A line is pushed to host memory in two writes, where its port asks for it. -/
def linePushed (slot line station : Nat) (p b : Bytes) (s : State) : State :=
  if portPush p then
    let base := portPushBase p + (line - portFirst p) * 64
    let s := countServe slot station 12 1 s
    if 5 ≤ s.host.link then emit (.hostWrite base (b.take 8)) (emit (.hostWrite (base + 8) (b.drop 8)) s) else s
  else s

/-- The vector of a line is signalled, where its client asked for it (R469). -/
def lineSignalled (slot line : Nat) (s : State) : State :=
  let owner := (slotOf s slot).owner
  if s.host.releaseInts.contains owner ∧ hasFunction s owner = true then
    signal owner (if owner = 0 then 1024 + 256 * slot + line % 256 else 16 + 4 * slot + line % 4) s
  else s

/-- What follows a line that stands in BAR2: its push to host memory and its vector (R439, R469). -/
def lineAnnounced (slot line station : Nat) (p b : Bytes) (s : State) : State := lineSignalled slot line (linePushed slot line station p b s)

theorem lineAnnounced_keeps {M : Part → Prop} {s0 s : State} (slot line station : Nat) (p b : Bytes) (h : Keeps M s0 s)
    (hOut : ¬M .out) (hCtr : ¬M .ctr) (hHost : ¬M .host) : Keeps M s0 (lineAnnounced slot line station p b s) := by
  have hPushed : Keeps M s0 (linePushed slot line station p b s) := by
    unfold linePushed
    split
    · dsimp only
      split
      · exact emit_keeps _ (emit_keeps _ (countServe_keeps _ _ _ _ h hCtr) hOut) hOut
      · exact countServe_keeps _ _ _ _ h hCtr
    · exact h
  unfold lineAnnounced lineSignalled
  dsimp only
  split
  · exact signal_keeps _ _ hPushed hOut hHost
  · exact hPushed

theorem deliverLine_host {slot line station port flow : Nat} {p b : Bytes} {s : State} (hPort : portOf s slot station = some p)
    (hPath : portPath p = 0) : deliverLine slot line station port flow b s =
      lineAnnounced slot line station p b (modServe slot (fun x => { x with lines := kput x.lines line b }) s) := by
  unfold deliverLine
  rw [hPort]
  exact if_neg (not_not_intro hPath)

theorem serveOf_lineAnnounced (slot line station : Nat) (p b : Bytes) (s : State) (j : Nat) :
    serveOf (lineAnnounced slot line station p b s) j = serveOf s j :=
  serveOf_congr ((lineAnnounced_keeps slot line station p b (.refl (· = .serves) s) (by simp) (by simp) (by simp)).parts .serves rfl) j

theorem deliverLine_lines {slot line station port flow : Nat} {p b : Bytes} {s : State} (hPort : portOf s slot station = some p)
    (hPath : portPath p = 0) : kget (serveOf (deliverLine slot line station port flow b s) slot).lines line = some b := by
  rw [deliverLine_host hPort hPath, serveOf_lineAnnounced, serveOf_modServe_same]
  exact kget_kput_same ..

/-- A line that is delivered leaves the requests as they are. -/
theorem deliverLine_requests (slot line station port flow : Nat) (b : Bytes) (s : State) :
    (serveOf (deliverLine slot line station port flow b s) slot).requests = (serveOf s slot).requests := by
  cases hPort : portOf s slot station with
  | none => unfold deliverLine; rw [hPort]
  | some p =>
    by_cases hPath : portPath p = 0
    · rw [deliverLine_host hPort hPath, serveOf_lineAnnounced, serveOf_modServe_same]
    · have hSent (t : State) (l : Nat) (o : Out) : serveOf (count 0x5519 l 1 (emit o t)) slot = serveOf t slot := by
        rw [serveOf_count, serveOf_emit]
      unfold deliverLine
      rw [hPort]
      dsimp only
      rw [if_pos hPath, hSent, serveOf_modServe_same]

/-! A request is decided (R435). -/

/-- A change of the requests of one line. -/
def onLine (line : Nat) (f : Query → Query) (q : Query) : Query := if q.line = line then f q else q

theorem requests_modQuery (slot line : Nat) (f : Query → Query) (s : State) :
    (serveOf (modQuery slot line f s) slot).requests = (serveOf s slot).requests.map (onLine line f) := by
  unfold modQuery
  rw [serveOf_modServe_same]
  rfl

/-- The request is marked decided and counted, before its line leaves. -/
def decidedAt (slot : Nat) (q : Query) (counter : Nat) (s : State) : State :=
  let s := modQuery slot q.line (fun q => { q with decided := true }) s
  if counter < 13 then countServe slot q.station counter 1 s else s

theorem answer_eq (slot : Nat) (q : Query) (kind status elapsed counter : Nat) (b : Bytes) (s : State) :
    answer slot q kind status elapsed counter b s =
      deliverLine slot q.line q.station q.port q.flow (resultLine q.sequence q.word kind status elapsed b) (decidedAt slot q counter s) := rfl

theorem requests_decidedAt (slot : Nat) (q : Query) (counter : Nat) (s : State) :
    (serveOf (decidedAt slot q counter s) slot).requests =
      (serveOf s slot).requests.map (onLine q.line (fun q => { q with decided := true })) := by
  unfold decidedAt
  dsimp only
  split
  · rw [serveOf_countServe, requests_modQuery]
  · exact requests_modQuery ..

theorem decidedAt_slots (slot : Nat) (q : Query) (counter : Nat) (s : State) : (decidedAt slot q counter s).slots = s.slots := by
  unfold decidedAt
  dsimp only
  split
  · exact (countServe_keeps _ _ _ _ (.refl (· = .slots) (modQuery slot q.line (fun q => { q with decided := true }) s)) (by simp)).parts .slots rfl
  · rfl

theorem answer_requests (slot : Nat) (q : Query) (kind status elapsed counter : Nat) (b : Bytes) (s : State) :
    (serveOf (answer slot q kind status elapsed counter b s) slot).requests =
      (serveOf s slot).requests.map (onLine q.line (fun q => { q with decided := true })) := by
  rw [answer_eq, deliverLine_requests, requests_decidedAt]

theorem answer_lines {slot kind status elapsed counter : Nat} {q : Query} {p b : Bytes} {s : State}
    (hPort : portOf s slot q.station = some p) (hPath : portPath p = 0) :
    kget (serveOf (answer slot q kind status elapsed counter b s) slot).lines q.line =
      some (resultLine q.sequence q.word kind status elapsed b) := by
  rw [answer_eq]
  exact deliverLine_lines ((portOf_congr (decidedAt_slots slot q counter s) slot q.station).trans hPort) hPath

/-- A change that keeps the lines of requests shows in what is found of one. -/
theorem queryOf_of_map {slot line : Nat} {f : Query → Query} (hLine : ∀ q, (f q).line = q.line) {s t : State}
    (h : (serveOf t slot).requests = (serveOf s slot).requests.map f) : queryOf t slot line = (queryOf s slot line).map f := by
  unfold queryOf
  rw [h, List.find?_map]
  exact congrArg (Option.map f) (congrArg (List.find? · _) (funext fun q => congrArg (· == line) (hLine q)))

theorem line_of_queryOf {slot line : Nat} {q : Query} {s : State} (h : queryOf s slot line = some q) : q.line = line := by
  have := List.find?_some h
  simpa using this

theorem execConeRelease_of_due {slot line : Nat} {q : Query} {p : Bytes} {s : State} (hQuery : queryOf s slot line = some q)
    (hPort : portOf s slot q.station = some p) (hOpen : q.decided = false) (hEntered : q.phase ≠ 0) :
    let d := coneRule s slot q (portEarly p)
    execConeRelease slot line s = if s.clock < d.2.2.1 then done s
      else done (answer slot q d.1 d.2.1 (d.2.2.1 - q.arrival) d.2.2.2.1 d.2.2.2.2 s) := by
  unfold execConeRelease
  rw [hQuery]
  dsimp only
  rw [hPort]
  dsimp only
  exact ite_of_iff (by simp [hOpen, hEntered]) _ _

/-! A request arrives (R428-R431). -/

/-- The request of a header and its payload. -/
def arrived (s : State) (line port flow : Nat) (p h payload : Bytes) : Query := {
  line := line, station := field p 0 2, sequence := qSequence h, word := field h 12 4, payload := payload.take (qLength h)
  arrival := s.clock, deadline := s.clock + qBudget h, egress := egressOf s p, port := port, flow := flow, phase := 0, entry := 0
  primary := none, fallback := none, badPrimary := false, badFallback := false, decided := false, bank := 0 }

/-- The request waits in its line, which is no longer free, and is counted. -/
def lineTaken (slot : Nat) (q : Query) (s : State) : State :=
  countServe slot q.station 0 1 (modServe slot (fun x => { x with
    requests := x.requests.filter (fun y => y.line != q.line) ++ [q], released := x.released.filter (· != q.line)
    lines := kmod x.lines q.line (fun b => overwrite b 4 [0]), taken := kput x.taken q.station q.line }) s)

theorem lineTaken_frame (slot : Nat) (q : Query) (s : State) : SameBut [.serves, .ctr] s (lineTaken slot q s) :=
  (countServe_keeps _ _ _ _ (modServe_keeps slot _ (.refl (· ∉ [Part.serves, .ctr]) s) (by simp)) (by simp)).sameBut

theorem lineTaken_parts (slot : Nat) (q : Query) (s : State) : q ∈ (serveOf (lineTaken slot q s) slot).requests ∧
    q.line ∉ (serveOf (lineTaken slot q s) slot).released := by
  unfold lineTaken
  rw [serveOf_countServe, serveOf_modServe_same]
  simp

theorem admitQuery_of_good {slot line port flow : Nat} {p h b : Bytes} {s : State} (hGood : malformed h b.length = false)
    (hEarly : ∀ q : Query, q.deadline = s.clock + qBudget h → q.egress = egressOf s p →
      entersLate s slot q ((slotOf s slot).beat.opened + (slotOf s slot).beat.length) = false) :
    admitQuery slot line port flow p h b s = lineTaken slot (arrived s line port flow p h b) s := by
  generalize hq : arrived s line port flow p h b = q
  have hFrame := lineTaken_frame slot q s
  have hSlots : (lineTaken slot q s).slots = s.slots := hFrame.2 .slots (by simp)
  have hDict : (lineTaken slot q s).dict = s.dict := hFrame.2 .dict (by simp)
  have hNotLate : entersLate (lineTaken slot q s) slot q ((slotOf (lineTaken slot q s) slot).beat.opened +
      (slotOf (lineTaken slot q s) slot).beat.length) = false := by
    have h : entersLate s slot q ((slotOf s slot).beat.opened + (slotOf s slot).beat.length) = false :=
      hEarly q (by rw [← hq]; rfl) (by rw [← hq]; rfl)
    rw [slotOf_congr hSlots]
    unfold entersLate periodOf at h ⊢
    simp only [routeOf_congr hSlots, setting, inUse, hDict] at h ⊢
    exact h
  have hRun : admitQuery slot line port flow p h b s = if malformed h b.length then answerAtOnce slot q stRange 7 (lineTaken slot q s)
      else if entersLate (lineTaken slot q s) slot q ((slotOf (lineTaken slot q s) slot).beat.opened +
        (slotOf (lineTaken slot q s) slot).beat.length) then countServe slot q.station 4 1 (answerAtOnce slot q stLate 5 (lineTaken slot q s))
      else lineTaken slot q s := by
    subst hq
    rfl
  rw [hRun, hGood, hNotLate]
  rfl

theorem admitQuery_of_malformed {slot line port flow : Nat} {p h b : Bytes} {s : State} (hBad : malformed h b.length = true) :
    admitQuery slot line port flow p h b s = answerAtOnce slot (arrived s line port flow p h b) stRange 7
      (lineTaken slot (arrived s line port flow p h b) s) := by
  unfold admitQuery
  dsimp only
  rw [if_pos hBad]
  rfl

theorem answerAtOnce_parts {slot status counter : Nat} {q : Query} {p : Bytes} {s : State} (hMem : q ∈ (serveOf s slot).requests)
    (hPort : portOf s slot q.station = some p) (hPath : portPath p = 0) :
    (∃ x ∈ (serveOf (answerAtOnce slot q status counter s) slot).requests, x.line = q.line ∧ x.phase = 2 ∧ x.decided = true) ∧
    kget (serveOf (answerAtOnce slot q status counter s) slot).lines q.line =
      some (resultLine q.sequence q.word 2 status (s.clock - q.arrival) []) := by
  unfold answerAtOnce
  constructor
  · rw [answer_requests, requests_modQuery, List.map_map]
    refine ⟨_, List.mem_map_of_mem hMem, ?_⟩
    simp [onLine]
  · exact answer_lines hPort hPath

theorem execRequestPost_of_open {n slot offset : Nat} {data : Bytes} {r : Route} {s : State} (hOpen : regionOpen s n slot = true)
    (hOffset : offset < 0x2000000) (hData : data ≠ []) (hRoute : routeOf s slot = some r) :
    let i := offset / 0x2000
    let u := modServe slot (fun x => { x with region := storeBytes x.region offset data }) s
    execRequestPost n slot offset data s = if ¬(offset % 0x2000 ≤ 24 ∧ 28 ≤ offset % 0x2000 + data.length) then done u
      else match r.plan.ports.find? (fun p => portPath p == 0 && inRing p i) with
        | none => done (count 0x5138 slot 1 u)
        | some p =>
          if lineFree u slot i = false then done (countServe slot (field p 0 2) 9 1 u)
          else done (autoRelease slot i p (admitQuery slot i 0 0 p (loadBytes (serveOf u slot).region (i * 0x2000) 32)
            (loadBytes (serveOf u slot).region (i * 0x2000 + 32) (min 8160 (qLength (loadBytes (serveOf u slot).region (i * 0x2000) 32)))) u)) := by
  intro i u
  have hRouteThen : routeOf u slot = some r := hRoute
  unfold execRequestPost
  dsimp only
  rw [if_neg (by simp [hOpen, hOffset, hData]), hRouteThen] <;> rfl

/-! A release (R440). -/

theorem releaseLine_of_current {slot : Nat} {v : BitVec 64} {s : State}
    (h : field (kgetD [] (serveOf s slot).lines (bits v.toNat 43 32)) 4 1 = 1 ∧
      field (kgetD [] (serveOf s slot).lines (bits v.toNat 43 32)) 0 4 = v.toNat % 2 ^ 32) :
    releaseLine slot v s = modServe slot (fun x => { x with
      released := if x.released.contains (bits v.toNat 43 32) then x.released else x.released ++ [bits v.toNat 43 32] }) s := if_pos h

theorem releaseLine_of_other {slot : Nat} {v : BitVec 64} {s : State}
    (h : ¬(field (kgetD [] (serveOf s slot).lines (bits v.toNat 43 32)) 4 1 = 1 ∧
      field (kgetD [] (serveOf s slot).lines (bits v.toNat 43 32)) 0 4 = v.toNat % 2 ^ 32)) :
    SameBut [.ctr] s (releaseLine slot v s) := by
  unfold releaseLine
  dsimp only
  rw [if_neg h]
  split
  · exact (countServe_keeps _ _ _ _ (.refl (· ∉ [Part.ctr]) s) (by simp)).sameBut
  · exact (count_keeps _ _ _ (.refl (· ∉ [Part.ctr]) s) (by simp)).sameBut

/-! The swap of the banks (R444). -/

/-- The requests that enter in a beat read the bank that comes into force in it. -/
def readsSwapped (bank count : Nat) (q : Query) : Query := if q.phase = 1 ∧ q.entry = count then { q with bank := 1 - bank } else q

theorem filter_zipIdx_fst {α : Type} (P : α → Bool) (l : List α) (k : Nat) :
    ((l.zipIdx k).filter (fun e => P e.1)).map (·.1) = l.filter P := by
  induction l generalizing k with
  | nil => rfl
  | cons x l ih =>
    rw [List.zipIdx_cons, List.filter_cons, List.filter_cons]
    split
    · rw [List.map_cons, ih]
    · exact ih _

theorem without_entries (x : Refresh) (slot : Nat) : (x.without slot).entries = x.entries.filter (fun e => refServing e != slot) := by
  have hRest := filter_zipIdx_fst (fun e => refServing e != slot) x.entries 0
  unfold Refresh.without
  dsimp only
  split
  · rename_i h
    rw [← hRest, List.isEmpty_iff.mp h]
    rfl
  · exact hRest

/-- The step whose weights a bank holds. -/
def bankStepOf (x : Refresh) (slot : Nat) : Nat :=
  ((x.entries.zipIdx.find? (fun e => refServing e.1 == slot)).map (fun e => kgetD 0 x.steps e.2)).getD 0

/-- The other bank comes into force, and the refresh has no entry of the slot left. -/
def banksSwapped (slot : Nat) (s : State) : State :=
  { modServe slot (fun v => { v with
      bank := 1 - v.bank, bankStep := bankStepOf s.refresh slot
      requests := v.requests.map (readsSwapped v.bank (slotOf s slot).beat.count) }) s with refresh := s.refresh.without slot }

theorem serveOf_banksSwapped (slot : Nat) (s : State) : serveOf (banksSwapped slot s) slot = { serveOf s slot with
    bank := 1 - (serveOf s slot).bank, bankStep := bankStepOf s.refresh slot
    requests := (serveOf s slot).requests.map (readsSwapped (serveOf s slot).bank (slotOf s slot).beat.count) } :=
  serveOf_modServe_same s slot (fun v => { v with
    bank := 1 - v.bank, bankStep := bankStepOf s.refresh slot
    requests := v.requests.map (readsSwapped v.bank (slotOf s slot).beat.count) })

theorem execBankSwap_of_due {slot : Nat} {s : State} (hDue : s.refresh.swapDue = true) (hEntry : ∃ e ∈ s.refresh.entries, refServing e = slot)
    (hPhase : (slotOf s slot).beat.phase = 1) (hClock : s.clock = (slotOf s slot).beat.opened) :
    execBankSwap slot s = done (if s.refresh.state ≠ 3 then
        if s.refresh.late then s else event evtRefreshLate (atSlot slot) [] { s with refresh := { s.refresh with late := true } }
      else event evtRefreshDone (atSlot slot) (le 6 (bankStepOf s.refresh slot)) (count 0x513D slot 1 (banksSwapped slot s))) := by
  have hAny : s.refresh.entries.any (fun e => refServing e == slot) = true := by simpa using hEntry
  unfold execBankSwap
  dsimp only
  rw [if_neg (by simp [hDue, hAny, hPhase, hClock])]
  rfl

theorem execBankSwap_idle {slot : Nat} {s : State}
    (h : s.refresh.state ≠ 3 ∧ s.refresh.late = true ∨ s.clock ≠ (slotOf s slot).beat.opened) : execBankSwap slot s = .next s := by
  unfold execBankSwap
  dsimp only
  split
  · rfl
  · rename_i hGuard
    obtain ⟨hState, hLate⟩ := h.resolve_right (fun hClock => hGuard (.inr (.inr (.inr hClock))))
    rw [if_pos hState, if_pos hLate]
    rfl

/-! The copy of a page into the bank not in force (R443). -/

/-- From `s` to `t`, of what reads of cargoes find beside the bytes of homes, the page table of cargo `i` alone changes. -/
structure PagesChange (i : Nat) (s t : State) : Prop where
  cached : t.mem.cached = s.mem.cached
  cache : t.mem.cache = s.mem.cache
  others : ∀ j, j ≠ i → kgetD Cargo.free t.mem.cargoes j = kgetD Cargo.free s.mem.cargoes j
  tier : (kgetD Cargo.free t.mem.cargoes i).tier = (kgetD Cargo.free s.mem.cargoes i).tier
  farCached : (kgetD Cargo.free t.mem.cargoes i).farCached = (kgetD Cargo.free s.mem.cargoes i).farCached

theorem PagesChange.refl (i : Nat) (s : State) : PagesChange i s s := ⟨rfl, rfl, fun _ _ => rfl, rfl, rfl⟩

theorem PagesChange.trans {i : Nat} {s t u : State} (h : PagesChange i s t) (h' : PagesChange i t u) : PagesChange i s u :=
  ⟨h'.cached.trans h.cached, h'.cache.trans h.cache, fun j hj => (h'.others j hj).trans (h.others j hj), h'.tier.trans h.tier,
    h'.farCached.trans h.farCached⟩

theorem PagesChange.foldl {α : Type} {i : Nat} {f : State → α → State} (l : List α) {s : State}
    (hf : ∀ u, ∀ x ∈ l, PagesChange i s u → PagesChange i u (f u x)) : PagesChange i s (l.foldl f s) :=
  List.foldlRecOn l f (.refl i s) (fun u hu x hx => hu.trans (hf u x hx hu))

theorem pagesChange_modCargo {i : Nat} {f : Cargo → Cargo} (hTier : ∀ c, (f c).tier = c.tier) (hCached : ∀ c, (f c).farCached = c.farCached)
    (s : State) : PagesChange i s (modCargo i f s) := by
  refine ⟨rfl, rfl, fun j hj => kgetD_kmodD_other Cargo.free s.mem.cargoes f hj.symm, ?_, ?_⟩
  · unfold modCargo
    dsimp only
    rw [kgetD_kmodD_same, hTier]
  · unfold modCargo
    dsimp only
    rw [kgetD_kmodD_same, hCached]

theorem pagesChange_raiseGeneration (i p : Nat) (s : State) : PagesChange i s (raiseGeneration i p s) := by
  refine pagesChange_modCargo (fun c => ?_) (fun c => ?_) s <;> (split <;> rfl)

theorem pagesChange_pointPage (i p frame : Nat) (s : State) : PagesChange i s (pointPage i p frame s) := by
  refine pagesChange_modCargo (fun c => ?_) (fun c => ?_) s <;> (split <;> rfl)

theorem pagesChange_copyOnWrite (i p : Nat) (s : State) : PagesChange i s (copyOnWrite i p s) := by
  refine .foldl _ (fun u k _ _ => ?_)
  unfold copyHeld
  dsimp only
  split
  · split
    · obtain ⟨hCached, hCache, hOthers, hTier, hFar⟩ := pagesChange_pointPage i p _ (modSecure k _ u)
      exact ⟨hCached, hCache, hOthers, hTier, hFar⟩
    · exact .refl i u
  · exact .refl i u

theorem pagesChange_writeCargo {i : Nat} (a : Nat) (data : Bytes) {s : State} (h : ∀ p, frameOf s i p = none) :
    PagesChange i s (writeCargo i a data s) := by
  have hCopied : PagesChange i s (pagesCopied i a data.length s) := .foldl _ (fun u k _ _ => pagesChange_copyOnWrite i (a / pageBytes + k) u)
  rw [writeCargo_eq]
  refine hCopied.trans (.foldl _ (fun u e _ hu => ?_))
  have hNone : frameOf u i ((a + e.2) / pageBytes) = none := by
    rw [frameOf, hu.cache, hCopied.cache]
    exact h _
  unfold byteWritten
  rw [hNone]
  exact ⟨rfl, rfl, fun _ _ => rfl, rfl, rfl⟩

/-- What a copy is made from and into: a T1 cargo none of whose pages is cached. -/
structure BankOpen (dst : Nat) (s : State) : Prop where
  tier : (kgetD Cargo.free s.mem.cargoes dst).tier = 0
  uncached : (kgetD Cargo.free s.mem.cargoes dst).farCached = false
  frames : ∀ p, frameOf s dst p = none

theorem BankOpen.of_pagesChange {dst : Nat} {s t : State} (h : BankOpen dst s) (hSame : PagesChange dst s t) : BankOpen dst t :=
  ⟨hSame.tier.trans h.tier, hSame.farCached.trans h.uncached, fun p => by rw [frameOf, hSame.cache]; exact h.frames p⟩

theorem writeData_bank {dst : Nat} (a : Nat) (data : Bytes) {s : State} (h : BankOpen dst s) : writeData dst a data s = writeCargo dst a data s := by
  unfold writeData
  dsimp only
  rw [foldl_unchanged (fun p _ => ?_)]
  rw [if_neg (by simp [h.uncached]), touchT3_of_tier p (by rw [h.tier]; omega)]

theorem pagesOf_page (p : Nat) : pagesOf (p * pageBytes) pageBytes = [p] := by
  have hLast : (p * 65536 + 65536 - 1) / 65536 = p := by omega
  have hFirst : p * 65536 / 65536 = p := by omega
  have hCount : p + 1 - p = 1 := by omega
  unfold pagesOf pageBytes
  rw [if_neg (by omega), hLast, hFirst, hCount]
  simp

theorem length_cargoBytes (s : State) (i a n : Nat) : (cargoBytes s i a n).length = n := by simp [cargoBytes]

/-- One page of the source is copied into the bank. -/
def pageRefreshed (src dst first : Nat) (s : State) (p : Nat) : State :=
  raiseGeneration dst p (writeData dst (p * pageBytes) (cargoBytes s src ((first + p) * pageBytes) pageBytes) s)

theorem pagesChange_pageRefreshed {dst : Nat} (src first p : Nat) {s : State} (h : BankOpen dst s) :
    PagesChange dst s (pageRefreshed src dst first s p) := by
  unfold pageRefreshed
  rw [writeData_bank _ _ h]
  exact (pagesChange_writeCargo _ _ h.frames).trans (pagesChange_raiseGeneration dst p _)

/-- The bytes of the page stand in the bank, and no byte beside them changes. -/
theorem home_pageRefreshed {dst : Nat} (src first p : Nat) {s : State} (h : BankOpen dst s) :
    loadBytes (pageRefreshed src dst first s p).mem.home (pageAddress dst p) pageBytes = cargoBytes s src ((first + p) * pageBytes) pageBytes ∧
    (∀ x, (x < pageAddress dst p ∨ pageAddress dst p + pageBytes ≤ x) →
      loadByte (pageRefreshed src dst first s p).mem.home x = loadByte s.mem.home x) := by
  generalize hData : cargoBytes s src ((first + p) * pageBytes) pageBytes = data
  have hLength : data.length = pageBytes := by rw [← hData, length_cargoBytes]
  have h3 : (kgetD Cargo.free s.mem.cargoes dst).tier ≠ 3 := by rw [h.tier]; omega
  have h4 : (kgetD Cargo.free s.mem.cargoes dst).tier ≠ 4 := by rw [h.tier]; omega
  have hWritten : pageRefreshed src dst first s p = windowWritten dst (p * pageBytes) data s := by
    rw [pageRefreshed, hData, windowWritten, hLength, pagesOf_page, applyWrite_home h3 h4 h.uncached, writeData_bank _ _ h]
    rfl
  obtain ⟨hThere, hBeside, -⟩ := windowWritten_frame (a := p * pageBytes) (data := data) h3 h4 h.uncached h.frames
  rw [← hWritten] at hThere hBeside
  constructor
  · refine List.ext_getElem (by rw [hLength]; simp [loadBytes]) (fun k hk hk' => ?_)
    have hByte := hThere k hk'
    rw [List.getD_eq_getElem?_getD, List.getElem?_eq_getElem hk'] at hByte
    simpa [loadBytes, pageAddress] using hByte
  · intro x hx
    refine hBeside x (fun k hk hAt => ?_)
    unfold pageAddress at hx
    omega

theorem cargoSpan_pages {i p : Nat} (h : p < 2 ^ 28) :
    i * cargoSpan ≤ pageAddress i p ∧ pageAddress i p + pageBytes ≤ i * cargoSpan + cargoSpan := by
  unfold pageAddress cargoSpan pageBytes
  omega

/-- A step of the walk from `s` leaves the source as `s` has it, and the bank open. -/
structure SourceKept (src dst : Nat) (s u : State) : Prop where
  pages : PagesChange dst s u
  home : ∀ a, a < cargoSpan → loadByte u.mem.home (src * cargoSpan + a) = loadByte s.mem.home (src * cargoSpan + a)
  refresh : u.refresh = s.refresh

theorem cargoSpan_apart {i j x : Nat} (h : i ≠ j) (hx : i * cargoSpan ≤ x ∧ x < i * cargoSpan + cargoSpan) :
    x < j * cargoSpan ∨ j * cargoSpan + cargoSpan ≤ x := by
  unfold cargoSpan at hx ⊢
  omega

theorem SourceKept.step {src dst first p : Nat} {s u : State} (h : SourceKept src dst s u) (hBank : BankOpen dst s) (hOther : src ≠ dst)
    (hp : p < 2 ^ 28) : SourceKept src dst s (pageRefreshed src dst first u p) := by
  have hBankThen := hBank.of_pagesChange h.pages
  obtain ⟨hLow, hHigh⟩ := cargoSpan_pages (i := dst) hp
  refine ⟨h.pages.trans (pagesChange_pageRefreshed src first p hBankThen), fun a ha => ?_, ?_⟩
  · have hApart := cargoSpan_apart (x := src * cargoSpan + a) hOther ⟨by omega, by omega⟩
    rw [(home_pageRefreshed src first p hBankThen).2 _ (by omega), h.home a ha]
  · have hKept : (pageRefreshed src dst first u p).refresh = u.refresh :=
      (raiseGeneration_keeps _ _ (writeData_keeps _ _ _ (.refl (· = .refresh) u) (by simp) (by simp) (by simp) (by simp)) (by simp)).parts .refresh rfl
    rw [hKept, h.refresh]

theorem SourceKept.bytes {src dst a n : Nat} {s u : State} (h : SourceKept src dst s u) (ha : a + n ≤ cargoSpan) :
    cargoBytes u src a n = cargoBytes s src a n := by
  unfold cargoBytes
  refine List.map_congr_left (fun k hk => ?_)
  have hFrame : frameOf u src ((a + k) / pageBytes) = frameOf s src ((a + k) / pageBytes) := by rw [frameOf, h.pages.cache]; rfl
  have hk : k < n := List.mem_range.mp hk
  dsimp only
  rw [hFrame, h.pages.cached]
  split
  · rfl
  · exact h.home (a + k) (by omega)

theorem SourceKept.generation {src dst : Nat} {s u : State} (h : SourceKept src dst s u) (hOther : src ≠ dst) (p : Nat) :
    generationOf u src p = generationOf s src p := by
  unfold generationOf
  rw [h.pages.others src hOther]

/-- A walk over pages of the bank copies each of them from the source as it stood. -/
theorem foldl_pageRefreshed {src dst first : Nat} {todo : List Nat} {s : State} (hBank : BankOpen dst s) (hOther : src ≠ dst)
    (hRange : ∀ p ∈ todo, first + p < 2 ^ 28) :
    SourceKept src dst s (todo.foldl (pageRefreshed src dst first) s) ∧
    ∀ p ∈ todo, loadBytes (todo.foldl (pageRefreshed src dst first) s).mem.home (pageAddress dst p) pageBytes =
      cargoBytes s src ((first + p) * pageBytes) pageBytes := by
  have hStart : SourceKept src dst s s := ⟨.refl dst s, fun _ _ => rfl, rfl⟩
  have hStep (u : State) (p : Nat) (hp : p ∈ todo) (hu : SourceKept src dst s u) : SourceKept src dst s (pageRefreshed src dst first u p) :=
    hu.step hBank hOther (by have := hRange p hp; omega)
  refine ⟨List.foldlRecOn todo _ hStart (fun u hu p hp => hStep u p hp hu), fun p hp => ?_⟩
  have hSource : (first + p) * pageBytes + pageBytes ≤ cargoSpan := by
    have := hRange p hp
    unfold pageBytes cargoSpan
    omega
  refine foldl_reaches (I := SourceKept src dst s) (x := p)
    (P := fun u => loadBytes u.mem.home (pageAddress dst p) pageBytes = cargoBytes s src ((first + p) * pageBytes) pageBytes)
    hStep (fun u hu => ?_) (fun u q _ hNot hu hThere => ?_) hp hStart
  · rw [(home_pageRefreshed src first p (hBank.of_pagesChange hu.pages)).1, hu.bytes hSource]
  · rw [← hThere]
    refine List.map_congr_left (fun k hk => ?_)
    have hk : k < pageBytes := List.mem_range.mp hk
    refine (home_pageRefreshed src first q (hBank.of_pagesChange hu.pages)).2 _ ?_
    unfold pageAddress pageBytes at hk ⊢
    omega

/-- The pages of an entry that are not copied yet, and whose source is not being written. -/
def pagesToCopy (k : Nat) (e : Bytes) (s : State) : List Nat :=
  (List.range (refPages e)).filter (fun p => (kget (kgetD [] s.refresh.copied k) p).isNone &&
    !s.mem.openPages.contains (refSource e % 65536, refFirst e + p))

/-- The refresh once pages of an entry are copied. -/
def refreshCopied (k : Nat) (e : Bytes) (todo : List Nat) (before s : State) : State :=
  let copied := todo.foldl (fun m p => kput m p (generationOf s (refSource e % 65536) (refFirst e + p))) (kgetD [] before.refresh.copied k)
  let x : Refresh := { s.refresh with copied := kput s.refresh.copied k copied }
  { s with refresh := { x with state := if refreshReady x then 3 else 2 } }

theorem execRefreshCopy_of_idle {k : Nat} {e : Bytes} {s : State} (hEntry : s.refresh.entries[k]? = some e) (hState : s.refresh.state = 2)
    (hStep : (kget s.refresh.steps k).isSome = true)
    (hIdle : ∀ q ∈ (serveOf s (refServing e)).requests, ¬(q.phase = 1 ∧ q.bank = 1 - (serveOf s (refServing e)).bank)) (hAlive : alive s = true) :
    execRefreshCopy k s = .next (refreshCopied k e (pagesToCopy k e s) s ((pagesToCopy k e s).foldl
      (pageRefreshed (refSource e % 65536) (refBank e (1 - (serveOf s (refServing e)).bank) % 65536) (refFirst e)) s)) := by
  have hNone : (serveOf s (refServing e)).requests.any (fun q => q.phase == 1 && q.bank == 1 - (serveOf s (refServing e)).bank) = false :=
    List.any_eq_false.mpr (fun q hq => by simpa using hIdle q hq)
  have hSome : (kget s.refresh.steps k).isNone = false := by
    cases h : kget s.refresh.steps k with
    | none => rw [h] at hStep; cases hStep
    | some v => rfl
  unfold execRefreshCopy
  rw [hEntry]
  dsimp only
  rw [if_neg (by simp [hState, hSome, hNone, hAlive])]
  rfl

end Sys2Proof.Machine

open Sys2Proof Sys2Proof.Machine

/-- Settles O54: a request is followed from its line to its answer, and a copied page from its source to its bank. -/
theorem requestsAreAnsweredAndBanksSwap : Obligations.RequestsAreAnsweredAndBanksSwap := by
  unfold Obligations.RequestsAreAnsweredAndBanksSwap
  refine ⟨?posted, ?admitted, ?decided, ?released, ?copied, ?swapped, ?waits⟩
  case posted =>
    intro n slot offset data r p s hOpen hOffset hData hRoute i u h
    have hRun := execRequestPost_of_open hOpen hOffset hData hRoute
    constructor
    · exact fun hNot => hRun.trans (if_pos hNot)
    · intro hLow hHigh hPort
      have hPosts := hRun.trans (if_neg (not_not_intro ⟨hLow, hHigh⟩))
      rw [hPort] at hPosts
      constructor
      · exact fun hFree => hPosts.trans (if_neg (fun hNot => Bool.noConfusion (hFree.symm.trans hNot)))
      · exact fun hTaken => hPosts.trans (if_pos hTaken)
  case admitted =>
    intro slot line port flow p h b s t
    generalize hq : arrived s line port flow p h b = q
    have hTaken := lineTaken_parts slot q s
    constructor
    · intro hGood hEarly
      have ht : t = lineTaken slot q s := by rw [← hq]; exact admitQuery_of_good hGood hEarly
      rw [ht]
      refine ⟨q, hTaken.1, ?_, ?_, ?_, ?_, ?_, ?_, ?_, ?_, lineTaken_frame slot q s⟩
      case refine_8 => rw [show line = q.line by rw [← hq]; rfl]; exact hTaken.2
      all_goals rw [← hq]; rfl
    · intro hBad hPort hPath
      have ht : t = answerAtOnce slot q stRange 7 (lineTaken slot q s) := by rw [← hq]; exact admitQuery_of_malformed hBad
      have hFrame := lineTaken_frame slot q s
      have hStation : q.station = field p 0 2 := by rw [← hq]; rfl
      have hPortThen : portOf (lineTaken slot q s) slot q.station = some p := by
        rw [portOf_congr (hFrame.2 .slots (by simp)), hStation, hPort]
      obtain ⟨⟨x, hMem, hLine, hPhase, hDecided⟩, hLines⟩ :=
        answerAtOnce_parts (status := stRange) (counter := 7) hTaken.1 hPortThen hPath
      have hClock : (lineTaken slot q s).clock - q.arrival = 0 := by
        rw [show (lineTaken slot q s).clock = s.clock from hFrame.2 .clock (by simp), ← hq]
        exact Nat.sub_self _
      have hLineQ : q.line = line := by rw [← hq]; rfl
      rw [hClock, hLineQ] at hLines
      rw [ht]
      refine ⟨⟨x, hMem, hLine.trans hLineQ, hPhase, hDecided⟩, hLines.trans ?_⟩
      rw [← hq]
      rfl
  case decided =>
    intro slot line q p s hQuery hPort d hOpen hEntered
    have hRun := execConeRelease_of_due hQuery hPort hOpen hEntered
    constructor
    · intro hDue
      have hExec : exec (.coneRelease slot line) s = .next (answer slot q d.1 d.2.1 (d.2.2.1 - q.arrival) d.2.2.2.1 d.2.2.2.2 s) :=
        hRun.trans (if_neg (Nat.not_lt.mpr hDue))
      have hLine : q.line = line := line_of_queryOf hQuery
      have hFound := queryOf_of_map (line := line) (f := onLine q.line (fun q => { q with decided := true }))
        (fun x => by unfold onLine; split <;> rfl) (answer_requests slot q d.1 d.2.1 (d.2.2.1 - q.arrival) d.2.2.2.1 d.2.2.2.2 s)
      rw [hQuery] at hFound
      refine ⟨_, _, hExec, hFound, ?_, ?_, sameBut_of_exec (by simp) hExec⟩
      · simp [onLine]
      · intro hPath
        exact hLine ▸ answer_lines hPort hPath
    · exact fun hEarly => hRun.trans (if_pos hEarly)
  case released =>
    intro n slot v s hOpen line b
    have hRun : exec (.resultReleaseWrite n slot v) s = .next (releaseLine slot v s) := congrArg done (if_pos hOpen)
    constructor
    · intro hUsed hSequence
      refine ⟨_, hRun, ?_⟩
      rw [releaseLine_of_current ⟨hUsed, hSequence⟩, serveOf_modServe_same]
      refine ⟨?_, rfl, (modServe_keeps slot _ (.refl (· ∉ [Part.serves]) s) (by simp)).sameBut⟩
      dsimp only
      split
      · exact List.contains_iff_mem.mp ‹_›
      · simp [line]
    · exact fun hNot => ⟨_, hRun, releaseLine_of_other hNot⟩
  case copied =>
    intro k p e s hEntry hState hStep idle src dst hIdle hAlive hOther hRange hp hNew hClosed hTier hUncached hFrames
    have hExec : exec (.refreshCopy k) s = .next _ := execRefreshCopy_of_idle hEntry hState hStep hIdle hAlive
    have hTodo : p ∈ pagesToCopy k e s := by
      refine List.mem_filter.mpr ⟨List.mem_range.mpr hp, ?_⟩
      rw [hNew]
      simpa using hClosed
    obtain ⟨hKept, hPages⟩ := foldl_pageRefreshed (first := refFirst e) (todo := pagesToCopy k e s) ⟨hTier, hUncached, hFrames⟩ hOther
      (fun x hx => by have := List.mem_range.mp (List.mem_filter.mp hx).1; omega)
    refine ⟨_, hExec, ?_, hPages p hTodo, sameBut_of_exec (by simp) hExec⟩
    generalize (pagesToCopy k e s).foldl (pageRefreshed src dst (refFirst e)) s = u at hKept ⊢
    unfold refreshCopied
    dsimp only
    rw [kgetD_kput_same, ← hKept.generation hOther]
    exact kget_foldl_kput_of_agree (fun p => p) (fun p => generationOf u src (refFirst e + p)) ⟨p, hTodo, rfl⟩
      (fun x _ hx => by rw [hx]) _
  case swapped =>
    intro slot s b hDue hEntry hPhase hClock
    have hRun := execBankSwap_of_due hDue hEntry hPhase hClock
    constructor
    · intro hState
      have hExec : exec (.bankSwap slot) s = .next (event evtRefreshDone (atSlot slot) (le 6 (bankStepOf s.refresh slot))
          (count 0x513D slot 1 (banksSwapped slot s))) := hRun.trans (congrArg done (if_neg (not_not_intro hState)))
      refine ⟨_, hExec, ?_, ?_, ?_, ?_, ?_⟩
      · rw [serveOf_event, serveOf_count, serveOf_banksSwapped]
      · rw [serveOf_event, serveOf_count, serveOf_banksSwapped]
        rfl
      · rw [event_refresh]
        exact without_entries s.refresh slot
      · rw [event_led]
        rfl
      · refine (event_keeps _ _ _ (count_keeps _ _ _ ?_ (by simp)) (by simp) (by simp)).sameBut
        exact (modServe_keeps slot _ (.refl (· ∉ [Part.led, .ctr, .serves, .refresh]) s) (by simp)).upd (k_refresh := .inr (by simp))
    · intro hState hLate
      have hExec : exec (.bankSwap slot) s = .next (event evtRefreshLate (atSlot slot) [] { s with refresh := { s.refresh with late := true } }) :=
        hRun.trans (congrArg done ((if_pos hState).trans (if_neg (by simp [hLate]))))
      refine ⟨_, hExec, ?_, ?_, ?_⟩
      · rw [event_refresh]
      · rw [event_led]
      · exact (event_keeps _ _ _ ((Keeps.refl (· ∉ [Part.led, .ctr, .refresh]) s).upd (k_refresh := .inr (by simp)))
          (by simp) (by simp)).sameBut
  case waits => exact fun slot s h => execBankSwap_idle h

end

section
/-! The collective engine: the norm (R351, R352), the ring (R350, R353, R366), and late-fold (R373-R377). -/

namespace Sys2Proof.Machine

theorem collOf_congr {s t : State} (h : t.colls = s.colls) (k : Nat) : collOf t k = collOf s k := congrArg (kgetD Coll.none · k) h

theorem modColl_eq {k : Nat} {f g : Coll → Coll} {s : State} (h : f (collOf s k) = g (collOf s k)) : modColl k f s = modColl k g s := by
  show { s with colls := kmodD Coll.none s.colls k f } = { s with colls := kmodD Coll.none s.colls k g }
  have hTable : kmodD Coll.none s.colls k f = kmodD Coll.none s.colls k g := congrArg (kputD Coll.none s.colls k) h
  rw [hTable]

/-! The norm (R351, R352). -/

/-- N from the sums that rank 0 has heard: one binary64 sum over the ranks in order, its square root, rounded. -/
def normHeard (x : CollRec) (q : Coll) : Word :=
  toF32 (fsqrt (f64 ((x.ranks.flatMap (fun d => ((q.heard.find? (fun e => e.1 == d)).elim [] (·.2)).map (·.2.toNat))).foldl add64 0)))

theorem train_takeNorm (slot : Nat) (n : Word) (next : Nat) (s : State) :
    (slotOf (takeNorm slot n next s) slot).train = { (slotOf s slot).train with norm := some n, normPending := true } := by
  have hTrain : (slotOf (modTrain slot (fun t => { t with norm := some n, normPending := true }) s) slot).train =
      { (slotOf s slot).train with norm := some n, normPending := true } := by rw [modTrain, slotOf_modSlot_same]
  unfold takeNorm
  dsimp only
  split
  · exact hTrain
  · exact hTrain

theorem next_takeNorm {slot next : Nat} (n : Word) (s : State) (h : next ≠ 0) : (secureOf (takeNorm slot n next s) slot).next = next := by
  unfold takeNorm
  dsimp only
  rw [if_neg h, secureOf_modSecure_same]

/-- Rank 0 with every sum forms the norm (R351). -/
theorem formNorm_formed {slot : Nat} {r : Route} {x : CollRec} {s : State} (hRecord : normRecord r = some x)
    (hRank : x.ranks.headD 0 = deviceNumber s) (hHeard : ∀ d ∈ x.ranks, ∃ e ∈ (collOf s slot).heard, e.1 = d)
    (hReported : (collOf s slot).reported = true) (hNew : (slotOf s slot).train.norm = none) :
    (slotOf (formNorm slot r s) slot).train.norm = some (normHeard x (collOf s slot)) ∧
    (slotOf (formNorm slot r s) slot).train.normPending = true := by
  have hAll : x.ranks.all (fun d => (collOf s slot).heard.any (fun e => e.1 == d)) = true := by
    refine List.all_eq_true.mpr (fun d hd => ?_)
    obtain ⟨e, hMem, hSame⟩ := hHeard d hd
    exact List.any_eq_true.mpr ⟨e, hMem, by simp [hSame]⟩
  have hFormed : ∃ u next, formNorm slot r s = takeNorm slot (normHeard x (collOf s slot)) next u := by
    unfold formNorm
    rw [hRecord]
    dsimp only
    rw [if_neg (by simp only [hRank, hAll, hReported, hNew]; simp)]
    exact ⟨_, _, rfl⟩
  obtain ⟨u, next, hFormed⟩ := hFormed
  rw [hFormed, train_takeNorm]
  exact ⟨rfl, rfl⟩

theorem collOf_formNorm (slot : Nat) (r : Route) (s : State) (k : Nat) : collOf (formNorm slot r s) k = collOf s k :=
  collOf_congr ((formNorm_keeps slot r (.refl (· = .colls) s) (by simp) (by simp) (by simp) (by simp) (by simp) (by simp)).parts .colls rfl) k

theorem collOf_hearSums (slot device : Nat) (sums : List (Nat × BitVec 64)) (meas : Word) (held : Bool) (s : State) :
    (collOf (hearSums slot device sums meas held s) slot).heard = (if (collOf s slot).heard.any (fun e => e.1 == device) = true
      then (collOf s slot).heard else (collOf s slot).heard ++ [(device, sums)]) ∧
    (collOf (hearSums slot device sums meas held s) slot).reported = (collOf s slot).reported := by
  unfold hearSums
  rw [collOf_modColl_same]
  split <;> exact ⟨rfl, rfl⟩

/-- The sums that a report lists. -/
def sumsListed (b : Bytes) (n : Nat) : List (Nat × BitVec 64) :=
  (List.range n).map (fun i => (field b (16 + 16 * i) 1, BitVec.ofNat 64 (field b (24 + 16 * i) 8)))

theorem execSumReport_of_current {b : Bytes} {r : Route} {s : State} (hRoute : routeOf s (field b 6 1 % 4) = some r)
    (hKind : field b 10 1 = 0) (hCurrent : reportCurrent s (field b 6 1 % 4) b = true) (hLow : 1 ≤ field b 11 1) (hHigh : field b 11 1 ≤ 16) :
    execSumReport b s = .next (formNorm (field b 6 1 % 4) r (hearSums (field b 6 1 % 4) (field b 8 2) (sumsListed b (field b 11 1))
      (BitVec.ofNat 32 (field b (16 + 16 * field b 11 1) 4)) (bit (field b (20 + 16 * field b 11 1) 1) 0) s)) := by
  unfold execSumReport
  dsimp only
  rw [hRoute]
  dsimp only
  rw [if_neg (by simp [hKind, hCurrent]; omega)]
  rfl

/-! The ring (R350, R353, R366). -/

theorem flatMap_slice (n w : Nat) (b : Bytes) : (List.range n).flatMap (fun i => slice b (w * i) w) = b.take (w * n) := by
  induction n with
  | zero => simp
  | succ n ih =>
    rw [List.range_succ, List.flatMap_append, ih, List.flatMap_singleton, slice, Nat.mul_succ, List.take_add]

/-- Flits carry the bytes that were cut. -/
theorem payload_cutFlits (c dest slot set : Nat) (b : Bytes) : (cutFlits c dest slot set b).flatMap (·.payload) = b := by
  have hEnough : b.length ≤ 240 * max 1 (ceilDiv b.length 240) := by
    unfold ceilDiv
    omega
  unfold cutFlits
  dsimp only
  rw [List.flatMap_map, flatMap_slice, List.take_of_length_le hEnough]

theorem sendRing_parts (slot k c i phase fmt : Nat) (r : Route) (x : CollRec) (vs : List Word) (s : State) :
    ∃ fs, kgetD [] (linkOf (sendRing slot r k c i phase fmt x vs s) (x.links.getD i 0xFF)).queues (ringChannel r (x.links.getD i 0xFF)) =
        kgetD [] (linkOf s (x.links.getD i 0xFF)).queues (ringChannel r (x.links.getD i 0xFF)) ++ fs ∧
      (fs.flatMap (·.payload)).drop 16 = ringBytes fmt vs := by
  unfold sendRing
  dsimp only
  refine ⟨_, queue_queueFlits .., ?_⟩
  rw [payload_cutFlits]
  exact List.drop_left' (by simp [length_le])

/-- The route, the record and the piece that a command of the ring names, in a step that runs. -/
structure OnRing (s : State) (slot k c i : Nat) (r : Route) (x : CollRec) : Prop where
  route : routeOf s slot = some r
  record : r.collectives[k]? = some x
  chunk : c < x.group
  ring : i < x.rings
  sums : x.op ≠ 3

theorem OnRing.bound {s : State} {slot k c i : Nat} {r : Route} {x : CollRec} (h : OnRing s slot k c i r x) :
    (routeOf s slot).bind (fun r => (r.collectives[k]?).map (fun x => (r, x))) = some (r, x) := by
  rw [h.route]
  dsimp only [Option.bind]
  rw [h.record]
  rfl

/-- A piece that arrives belongs to the gathering round. -/
def gathers (x : CollRec) (q : Coll) (p c : Nat) : Bool :=
  x.op == 1 || x.rank == (c + 1) % x.group || 3 ≤ kgetD 0 q.decided p || (kget q.partials p).isSome

/-- A piece of the gathering round is heard, and waits to be passed on but from the rank before its own. -/
def pieceGathered (slot k c i : Nat) (x : CollRec) (vs : Bytes) (s : State) : State :=
  deliverPiece slot x (pieceKey k c i) c i (ringWords x.result vs) (modColl slot (fun q => { q with
    gathered := q.gathered ++ [pieceKey k c i]
    passing := q.passing ++ (if (x.rank + 1) % x.group = c then [] else [(pieceKey k c i, ringWords x.result vs)]) }) s)

/-- The partial of a piece waits for its decision. -/
def partialHeard (slot k c i : Nat) (x : CollRec) (vs : Bytes) (s : State) : State :=
  modColl slot (fun q => { q with partials := kput q.partials (pieceKey k c i) (ringWords x.sum vs) }) s

theorem execRingPartialArrive_of_onRing {slot k c i : Nat} {r : Route} {x : CollRec} {vs : Bytes} {s : State} (h : OnRing s slot k c i r x)
    (hRuns : (slotOf s slot).train.state = 1) : execRingPartialArrive slot k c i vs s =
      if gathers x (collOf s slot) (pieceKey k c i) c then
        if x.op = 0 ∨ c = x.rank ∨ (collOf s slot).gathered.contains (pieceKey k c i) then done s
        else done (passPieces slot r (count 0x5510 x.side x.piece (pieceGathered slot k c i x vs s)))
      else done (goPiece slot r k c i x (partialHeard slot k c i x vs s)) := by
  have hGuard : ¬(x.group ≤ c ∨ x.rings ≤ i ∨ x.op = 3 ∨ (slotOf s slot).train.state ≠ 1) := by
    have := h.chunk
    have := h.ring
    have := h.sums
    omega
  unfold execRingPartialArrive
  rw [h.bound]
  dsimp only
  rw [if_neg hGuard]
  rfl

theorem goPiece_of_waiting {slot k c i : Nat} {r : Route} {x : CollRec} {s : State}
    (h : ringOpen s slot r = false ∨ kgetD 0 (collOf s slot).decided (pieceKey k c i) = 0) : goPiece slot r k c i x s = s := by
  unfold goPiece
  dsimp only
  refine if_pos ?_
  rcases h with hRing | hDecided
  · exact .inr (.inr (.inr hRing))
  · exact .inl hDecided

theorem ringOpen_congr {s t : State} (h : t.slots = s.slots) (slot : Nat) (r : Route) : ringOpen t slot r = ringOpen s slot r := by
  have hPhase : phaseOf t slot r = phaseOf s slot r := phaseOf_congr (by rw [slotOf_congr h]) r
  simp only [ringOpen, hPhase]

/-- What is added of this rank: nothing, or one contribution of the piece's length. -/
theorem addends_of_own {own : List Word} {n : Nat} (hPiece : 0 < n) :
    (own = [] → (List.range (own.length / max 1 n)).map (fun j => (own.drop (j * n)).take n) = []) ∧
    (own.length = n → (List.range (own.length / max 1 n)).map (fun j => (own.drop (j * n)).take n) = [own]) := by
  have hMax : max 1 n = n := by omega
  rw [hMax]
  constructor
  · rintro rfl
    simp
  · intro h
    rw [h, Nat.div_self hPiece]
    simp [← h]

/-- A decided piece with its partial is over: its decision, its partial and its contribution are done with. -/
def pieceDone (slot k c i d : Nat) (x : CollRec) (s : State) : State :=
  count 0x5510 x.side x.piece (modColl slot (fun q => { q with
    decided := kput q.decided (pieceKey k c i) (d + 2), partials := kdel q.partials (pieceKey k c i), own := kdel q.own (pieceKey k c i) }) s)

theorem pieceDone_parts (slot k c i d : Nat) (x : CollRec) (s : State) :
    kgetD 0 (collOf (pieceDone slot k c i d x s) slot).decided (pieceKey k c i) = d + 2 ∧
    kget (collOf (pieceDone slot k c i d x s) slot).partials (pieceKey k c i) = none := by
  unfold pieceDone
  rw [collOf_count, collOf_modColl_same]
  exact ⟨kgetD_kput_same .., kget_kdel_same ..⟩

theorem goPiece_of_decided {slot k c i : Nat} {r : Route} {x : CollRec} {a v : List Word} {s : State}
    (hOpen : ringOpen s slot r = true) (hDecided : kgetD 0 (collOf s slot).decided (pieceKey k c i) = 1 ∨
      kgetD 0 (collOf s slot).decided (pieceKey k c i) = 2) (hLater : x.rank ≠ (c + 1) % x.group) (hOther : c ≠ x.rank) (hPiece : 0 < x.piece)
    (hPartial : kget (collOf s slot).partials (pieceKey k c i) = some a)
    (hSum : kgetD [] (collOf s slot).own (pieceKey k c i) = [] ∧ v = a ∨ (kgetD [] (collOf s slot).own (pieceKey k c i)).length = x.piece ∧
      v = List.zipWith (sumAdd x.sum) a (kgetD [] (collOf s slot).own (pieceKey k c i))) :
    goPiece slot r k c i x s = sendRing slot r k c i 0 x.sum x v
      (pieceDone slot k c i (kgetD 0 (collOf s slot).decided (pieceKey k c i)) x s) := by
  obtain ⟨hNothing, hOne⟩ := addends_of_own (own := kgetD [] (collOf s slot).own (pieceKey k c i)) hPiece
  have hStarts : (x.rank == (c + 1) % x.group) = false := by simpa using hLater
  unfold goPiece
  dsimp only
  rw [if_neg (by simp [hOpen]; omega), hStarts, if_neg Bool.false_ne_true, hPartial]
  dsimp only [Option.map]
  rw [if_neg hOther]
  obtain ⟨hNone, rfl⟩ | ⟨hLength, rfl⟩ := hSum
  · rw [hNothing hNone]
    rfl
  · rw [hOne hLength]
    rfl

/-! Gathered pieces (R353, R366). -/

theorem collOf_deliverPiece (slot : Nat) (x : CollRec) (p c i : Nat) (vs : List Word) (s : State) :
    ∃ a, collOf (deliverPiece slot x p c i vs s) slot = { collOf s slot with arriving := a } := by
  have hWritten : collOf (writePiece slot x c i vs s).1 slot = collOf s slot :=
    collOf_congr ((writePiece_keeps slot x c i vs (.refl (· = .colls) s) (by simp) (by simp) (by simp) (by simp) (by simp) (by simp)
      (by simp)).parts .colls rfl) slot
  unfold deliverPiece
  dsimp only
  split
  · rw [hWritten]
    exact ⟨_, rfl⟩
  · rw [collOf_modColl_same, hWritten]
    exact ⟨_, rfl⟩

/-- What a gathered piece changes of its collective, while its delivery goes its way. -/
theorem pieceGathered_parts (slot k c i : Nat) (x : CollRec) (vs : Bytes) (s : State) :
    (∃ a, collOf (pieceGathered slot k c i x vs s) slot = { collOf s slot with
      gathered := (collOf s slot).gathered ++ [pieceKey k c i]
      passing := (collOf s slot).passing ++ (if (x.rank + 1) % x.group = c then [] else [(pieceKey k c i, ringWords x.result vs)])
      arriving := a }) ∧
    (pieceGathered slot k c i x vs s).net = s.net ∧ (pieceGathered slot k c i x vs s).slots = s.slots := by
  unfold pieceGathered
  generalize hu : modColl slot (fun q => { q with
    gathered := q.gathered ++ [pieceKey k c i]
    passing := q.passing ++ (if (x.rank + 1) % x.group = c then [] else [(pieceKey k c i, ringWords x.result vs)]) }) s = u
  have hKeeps := deliverPiece_keeps slot x (pieceKey k c i) c i (ringWords x.result vs) (.refl (fun p => p = .net ∨ p = .slots) u)
    (by simp) (by simp) (by simp) (by simp) (by simp) (by simp) (by simp) (by simp)
  refine ⟨?_, (hKeeps.parts .net (.inl rfl)).trans (by rw [← hu]; rfl), (hKeeps.parts .slots (.inr rfl)).trans (by rw [← hu]; rfl)⟩
  obtain ⟨a, hColl⟩ := collOf_deliverPiece slot x (pieceKey k c i) c i (ringWords x.result vs) u
  refine ⟨a, ?_⟩
  rw [hColl, ← hu, collOf_modColl_same]

/-- A piece that was gathered goes on to the next rank. -/
def pieceSent (slot : Nat) (r : Route) (s : State) (e : Nat × List Word) : State :=
  match r.collectives[e.1 / 2 ^ 24]? with
  | some x => sendRing slot r (e.1 / 2 ^ 24) (e.1 % 2 ^ 24 / 16) (e.1 % 16) 1 x.result x e.2 s
  | none => s

theorem passPieces_eq (slot : Nat) (r : Route) (s : State) : passPieces slot r s = if ringOpen s slot r = false then s
    else (collOf s slot).passing.foldl (pieceSent slot r) (modColl slot (fun q => { q with passing := [] }) s) := rfl

theorem pieceSent_colls (slot : Nat) (r : Route) (s : State) (e : Nat × List Word) : (pieceSent slot r s e).colls = s.colls := by
  unfold pieceSent
  split
  · exact (sendRing_keeps _ _ _ _ _ _ _ _ _ (.refl (· = .colls) s) (by simp)).parts .colls rfl
  · rfl

theorem collOf_passPieces (slot : Nat) (r : Route) (s : State) :
    ∃ ps, collOf (passPieces slot r s) slot = { collOf s slot with passing := ps } ∧
      (ringOpen s slot r = false → ps = (collOf s slot).passing) := by
  rw [passPieces_eq]
  split
  · exact ⟨_, rfl, fun _ => rfl⟩
  · rename_i hOpen
    refine ⟨[], ?_, fun hNot => absurd hNot hOpen⟩
    rw [collOf_congr (foldl_field (g := State.colls) (pieceSent_colls slot r) _ _), collOf_modColl_same]

/-- Nothing is passed on while the ring is closed, or with nothing to pass. -/
theorem passPieces_net {slot : Nat} {r : Route} {s : State} (h : ringOpen s slot r = false ∨ (collOf s slot).passing = []) :
    (passPieces slot r s).net = s.net := by
  rw [passPieces_eq]
  split
  · rfl
  · rename_i hOpen
    rw [h.resolve_left hOpen]
    rfl

/-! Late-fold (R373-R377). -/

theorem execLateFoldDecide_of_open {slot k c i : Nat} {r : Route} {x : CollRec} {s : State} (h : OnRing s slot k c i r x) (hSum : x.op ≠ 1)
    (hRuns : (slotOf s slot).train.state = 1) (hOpen : kgetD 0 (collOf s slot).decided (pieceKey k c i) = 0) :
    execLateFoldDecide slot k c i s = .next (decidePiece slot r k c i x s) := by
  have hGuard : ¬(x.group ≤ c ∨ x.rings ≤ i ∨ x.op = 3 ∨ kgetD 0 (collOf s slot).decided (pieceKey k c i) ≠ 0 ∨
      (slotOf s slot).train.state ≠ 1) := by
    have := h.chunk
    have := h.ring
    have := h.sums
    omega
  unfold execLateFoldDecide
  rw [h.bound]
  dsimp only
  rw [if_neg hGuard, if_neg hSum]
  rfl

/-- A piece that is present enters with its contribution. -/
def pieceEntered (slot k c i : Nat) (x : CollRec) (s : State) : State :=
  modColl slot (fun q => { q with
    decided := kput q.decided (pieceKey k c i) 1, own := kput q.own (pieceKey k c i) ((contribution q x k c i).filterMap id) }) s

/-- The fold of a piece is written and counted, and what it has of the contribution is late. -/
def pieceFolded (slot k c i : Nat) (x : CollRec) (s : State) : State :=
  let mine : KMap Word := (contribution (collOf s slot) x k c i).zipIdx.foldl (fun m e => match e.1 with
    | some v => kput m e.2 v
    | none => m) []
  modColl slot (fun q => { q with
    decided := kput q.decided (pieceKey k c i) 2, own := kdel q.own (pieceKey k c i), late := kput q.late (pieceKey k c i) mine })
    (writeFold slot k c i 0 (slotOf s slot).train.step x.piece s)

/-- The close point of a piece has passed, and late-fold is on. -/
def foldsNow (s : State) (slot : Nat) (x : CollRec) : Bool := closePointPassed s slot x && routeSetting s slot 0x2981 == 1

/-- Before its close point, a piece that is not present waits. -/
theorem decidePiece_waits {slot k c i : Nat} {r : Route} {x : CollRec} {s : State} (hFirst : (slotOf s slot).train.attempt = 0)
    (h : present (collOf s slot) x k c i = false) (hNot : foldsNow s slot x = false) :
    decidePiece slot r k c i x s = s := by
  unfold foldsNow at hNot
  unfold decidePiece
  simp only [hFirst, h, Bool.not_false, Bool.true_and, hNot]
  exact if_pos ⟨rfl, trivial⟩

section
variable {slot k c i : Nat} {r : Route} {x : CollRec} {s : State}
variable (hFirst : (slotOf s slot).train.attempt = 0) (hCarry : kget (collOf s slot).carries (pieceKey k c i) = none)
include hFirst hCarry

theorem decidePiece_present (h : present (collOf s slot) x k c i = true) :
    decidePiece slot r k c i x s = goPiece slot r k c i x (pieceEntered slot k c i x s) := by
  have hEntered : pieceEntered slot k c i x s = modColl slot (fun q => { q with
      decided := kput q.decided (pieceKey k c i) 1
      own := kput q.own (pieceKey k c i) ((contribution (collOf s slot) x k c i).filterMap id ++ []) }) s := by
    unfold pieceEntered
    exact modColl_eq (by rw [List.append_nil])
  unfold decidePiece
  simp only [hFirst, h, hCarry]
  rw [hEntered] <;> rfl

theorem decidePiece_folded (h : present (collOf s slot) x k c i = false) (hFolds : foldsNow s slot x = true)
    (hLimit : stalenessLimit s slot r x ≠ 0) :
    decidePiece slot r k c i x s = goPiece slot r k c i x (pieceFolded slot k c i x s) := by
  unfold foldsNow at hFolds
  unfold decidePiece
  simp only [hFirst, h, hCarry, Bool.not_false, Bool.true_and, hFolds]
  simp only [Nat.lt_irrefl, decide_false, Bool.false_eq_true, if_false, reduceCtorEq, false_and, if_true, hLimit]
  rfl

end

theorem pieceFolded_parts (slot k c i : Nat) (x : CollRec) {s : State} (hFirst : (slotOf s slot).train.attempt = 0) :
    kgetD 0 (collOf (pieceFolded slot k c i x s) slot).decided (pieceKey k c i) = 2 ∧
    kget (collOf (pieceFolded slot k c i x s) slot).own (pieceKey k c i) = none ∧
    (pieceFolded slot k c i x s).led = (ledgerStep (foldRecord s slot k c i 0 (slotOf s slot).train.step x.piece) s).led := by
  unfold pieceFolded
  dsimp only
  rw [collOf_modColl_same]
  refine ⟨kgetD_kput_same .., kget_kdel_same .., ?_⟩
  unfold writeFold
  rw [if_pos hFirst]
  rfl

/-! Elements that come late (R375). -/

theorem kget_values (first : Nat) (vs : List Word) (m : KMap Word) (j : Nat) :
    kget (vs.zipIdx.foldl (fun m e => kput m (first + e.2) e.1) m) j =
      if first ≤ j ∧ j < first + vs.length then vs[j - first]? else kget m j := by
  by_cases h : first ≤ j ∧ j < first + vs.length
  · have hIndex : j - first < vs.length := by omega
    rw [if_pos h, List.getElem?_eq_getElem hIndex]
    refine kget_foldl_kput_of_agree (fun e : Word × Nat => first + e.2) (fun e => e.1)
      ⟨(vs[j - first], j - first), List.mem_zipIdx_iff_getElem?.mpr (List.getElem?_eq_getElem hIndex), by dsimp only; omega⟩ ?_ m
    intro e he hAt
    have hPlace : e.2 = j - first := by omega
    have hValue := List.mem_zipIdx_iff_getElem?.mp he
    rw [hPlace, List.getElem?_eq_getElem hIndex] at hValue
    exact (Option.some.inj hValue).symm
  · rw [if_neg h]
    refine kget_foldl_kput_other (fun e : Word × Nat => first + e.2) (fun e => e.1) (fun e he hAt => h ?_) m
    have := fst_lt_of_mem_zipIdx he
    omega

/-- Late elements leave of a carry what it counts by, and are counted as landed. -/
theorem foldl_addLate (fmt first : Nat) (es : List (Word × Nat)) (y : Carry) :
    (es.foldl (fun y e => addLate fmt y (first + e.2) e.1) y).landed = y.landed + es.length ∧
    (es.foldl (fun y e => addLate fmt y (first + e.2) e.1) y).step = y.step ∧
    (es.foldl (fun y e => addLate fmt y (first + e.2) e.1) y).folded = y.folded := by
  induction es generalizing y with
  | nil => exact ⟨rfl, rfl, rfl⟩
  | cons e es ih =>
    obtain ⟨hLanded, hStep, hFolded⟩ := ih (addLate fmt y (first + e.2) e.1)
    refine ⟨hLanded.trans ?_, hStep, hFolded⟩
    rw [List.length_cons]
    show y.landed + 1 + es.length = _
    omega

theorem execLateTileLand_of_onRing {slot k c i first step : Nat} {r : Route} {x : CollRec} {vs : Bytes} {s : State} (h : OnRing s slot k c i r x)
    (hFits : first + (ringWords x.sum vs).length ≤ x.piece)
    (hFolded : step = (slotOf s slot).train.step → kgetD 0 (collOf s slot).decided (pieceKey k c i) = 2 ∨
      kgetD 0 (collOf s slot).decided (pieceKey k c i) = 4) :
    execLateTileLand slot k c i first step vs s = .next (landLate slot k c i first step x r (ringWords x.sum vs) s) := by
  have hGuard : ¬(x.group ≤ c ∨ x.rings ≤ i ∨ x.op = 3 ∨ x.piece < first + (ringWords x.sum vs).length ∨
      (step = (slotOf s slot).train.step ∧ kgetD 0 (collOf s slot).decided (pieceKey k c i) ≠ 2 ∧
        kgetD 0 (collOf s slot).decided (pieceKey k c i) ≠ 4)) := by
    have := h.chunk
    have := h.ring
    have := h.sums
    rintro (hNot | hNot | hNot | hNot | ⟨hNow, hNot2, hNot4⟩)
    · omega
    · omega
    · omega
    · omega
    · exact (hFolded hNow).elim hNot2 hNot4
  unfold execLateTileLand
  rw [h.bound]
  dsimp only
  rw [if_neg hGuard]
  rfl

theorem landLate_now {slot k c i first step : Nat} {r : Route} {x : CollRec} {vs : List Word} {s : State}
    (h : step = (slotOf s slot).train.step) :
    landLate slot k c i first step x r vs s = modColl slot (fun q => { q with
      late := kput q.late (pieceKey k c i)
        (vs.zipIdx.foldl (fun m e => kput m (first + e.2) e.1) (kgetD [] q.late (pieceKey k c i))) }) s := by
  unfold landLate
  dsimp only
  rw [if_neg (by omega), if_pos h]

theorem landLate_stale {slot k c i first step : Nat} {r : Route} {x : CollRec} {vs : List Word} {s : State}
    (h : step < (slotOf s slot).train.step) (hStale : stalenessLimit s slot r x < (slotOf s slot).train.step - step) :
    landLate slot k c i first step x r vs s = count 0x511C slot 1 s := by
  unfold landLate
  dsimp only
  rw [if_neg (by omega), if_neg (by omega), if_pos hStale]

theorem landLate_carried {slot k c i first step : Nat} {r : Route} {x : CollRec} {y : Carry} {vs : List Word} {s : State}
    (h : step < (slotOf s slot).train.step) (hLimit : (slotOf s slot).train.step - step ≤ stalenessLimit s slot r x)
    (hCarry : kget (collOf s slot).carries (pieceKey k c i) = some y) (hKept : y.spent = false) (hWaits : y.landed < y.folded) :
    ∃ t, landLate slot k c i first step x r vs s = t ∧ SameBut [.colls] s t ∧
      kget (collOf t slot).carries (pieceKey k c i) = some (vs.zipIdx.foldl (fun y e => addLate x.sum y (first + e.2) e.1) y) := by
  have hOpen : ¬(y.spent || decide (y.folded ≤ y.landed)) = true := by simp [hKept]; omega
  unfold landLate
  dsimp only
  rw [if_neg (by omega), if_neg (by omega), if_neg (by omega), if_neg (by omega)]
  refine ⟨_, rfl, (modColl_keeps slot _ (.refl (· ∉ [Part.colls]) s) (by simp)).sameBut, ?_⟩
  rw [collOf_modColl_same]
  unfold kmod
  rw [hCarry]
  dsimp only
  rw [kget_kput_same, if_neg hOpen]

end Sys2Proof.Machine

open Sys2Proof Sys2Proof.Machine

/-- Settles O55: the norm, the ring and late-fold, each by what its one step leaves of the collective. -/
theorem normsFormRingsReduceAndLatePiecesFold : Obligations.NormsFormRingsReduceAndLatePiecesFold := by
  unfold Obligations.NormsFormRingsReduceAndLatePiecesFold
  refine ⟨?sums, ?report, ?ring, ?sent, ?decide, ?waits, ?late⟩
  case sums =>
    intro b slot n r s hSlot hRoute hKind hCurrent hCount hLow hHigh
    subst hSlot hCount
    have hExec : exec (.sumReport b) s = .next _ := execSumReport_of_current hRoute hKind hCurrent hLow hHigh
    generalize hSums : sumsListed b (field b 11 1) = sums at hExec
    generalize BitVec.ofNat 32 (field b (16 + 16 * field b 11 1) 4) = meas at hExec
    generalize bit (field b (20 + 16 * field b 11 1) 1) 0 = held at hExec
    obtain ⟨hHeard, hReported⟩ := collOf_hearSums (field b 6 1 % 4) (field b 8 2) sums meas held s
    refine ⟨_, hExec, ?_, ?_, sameBut_of_exec (by simp) hExec⟩
    · rw [collOf_formNorm, hHeard, ← hSums]
      rfl
    · intro x hRecord hRank hAll hSent hNew
      rw [collOf_formNorm] at hAll ⊢
      exact formNorm_formed hRecord hRank hAll (hReported.trans hSent) hNew
  case report =>
    intro b slot r s hSlot hRoute hKind hCurrent hNew
    subst hSlot
    have hExec : exec (.normReport b) s = .next (takeNorm (field b 6 1 % 4) (BitVec.ofNat 32 (field b 12 4)) (field b 16 6) s) :=
      congrArg done (if_pos ⟨hKind, hCurrent, by rw [hRoute]; rfl, by rw [hNew]; rfl⟩)
    exact ⟨_, hExec, train_takeNorm .., next_takeNorm _ s, sameBut_of_exec (by simp) hExec⟩
  case ring =>
    intro slot k c i vs r x s hRoute hRecord hChunk hRing hSums hRuns q p
    have hOn : OnRing s slot k c i r x := ⟨hRoute, hRecord, hChunk, hRing, hSums⟩
    have hRun := execRingPartialArrive_of_onRing (vs := vs) hOn hRuns
    have hHeard : collOf (partialHeard slot k c i x vs s) slot = { q with partials := kput q.partials p (ringWords x.sum vs) } :=
      collOf_modColl_same s slot _
    refine ⟨fun hSum hLater hNone hOpen => ?_, fun hSum hLater hNone hDecided hRingOpen hOther hPiece v hv => ?_,
      fun hGather hRound hOther hNew => ?_⟩
    · have hReduce : gathers x q p c = false := by simp [gathers, hSum, hLater, hNone, hOpen]
      have hExec : exec (.ringPartialArrive slot k c i vs) s = .next (goPiece slot r k c i x (partialHeard slot k c i x vs s)) :=
        hRun.trans (if_neg (by rw [hReduce]; exact Bool.false_ne_true))
      rw [goPiece_of_waiting (.inr (by rw [hHeard]; exact hOpen))] at hExec
      exact ⟨_, hExec, hHeard, (modColl_keeps slot _ (.refl (· ∉ [Part.colls]) s) (by simp)).sameBut⟩
    · have hReduce : gathers x q p c = false := by
        simp [gathers, hSum, hLater, hNone]
        omega
      have hExec : exec (.ringPartialArrive slot k c i vs) s = .next (goPiece slot r k c i x (partialHeard slot k c i x vs s)) :=
        hRun.trans (if_neg (by rw [hReduce]; exact Bool.false_ne_true))
      have hGo := goPiece_of_decided (s := partialHeard slot k c i x vs s) (v := v) (ringOpen_congr rfl slot r ▸ hRingOpen)
        (by rw [hHeard]; exact hDecided) hLater hOther hPiece (by rw [hHeard]; exact kget_kput_same ..) (by rw [hHeard]; exact hv)
      rw [hGo, hHeard] at hExec
      obtain ⟨hDone, hOver⟩ := pieceDone_parts slot k c i (kgetD 0 q.decided p) x (partialHeard slot k c i x vs s)
      exact ⟨_, hExec, hDone, hOver, (count_keeps _ _ _ (modColl_keeps slot _ (modColl_keeps slot _
        (.refl (· ∉ [Part.colls, .ctr]) s) (by simp)) (by simp)) (by simp)).sameBut⟩
    · have hGathers : gathers x q p c = true := by
        obtain h | h := hRound <;> simp [gathers, h]
      have hExec : exec (.ringPartialArrive slot k c i vs) s =
          .next (passPieces slot r (count 0x5510 x.side x.piece (pieceGathered slot k c i x vs s))) :=
        hRun.trans ((if_pos hGathers).trans (if_neg (by
          rintro (h | h | h)
          · exact hGather h
          · exact hOther h
          · exact hNew (List.contains_iff_mem.mp h))))
      obtain ⟨⟨a, hColl⟩, hNet, hSlots⟩ := pieceGathered_parts slot k c i x vs s
      obtain ⟨ps, hPassed, hWaits⟩ := collOf_passPieces slot r (count 0x5510 x.side x.piece (pieceGathered slot k c i x vs s))
      have hOpenThen : ringOpen (count 0x5510 x.side x.piece (pieceGathered slot k c i x vs s)) slot r = ringOpen s slot r :=
        ringOpen_congr hSlots slot r
      rw [collOf_count, hColl] at hPassed hWaits
      refine ⟨_, hExec, ?_, ?_, ?_, sameBut_of_exec (by simp) hExec⟩
      · rw [hPassed]
      · intro hLast hNothing
        refine (passPieces_net (.inr ?_)).trans hNet
        rw [collOf_count, hColl, if_pos hLast, show (collOf s slot).passing = [] from hNothing]
        rfl
      · intro hOn hClosed
        refine ⟨?_, (passPieces_net (.inl (hOpenThen.trans hClosed))).trans hNet⟩
        rw [hPassed, hWaits (hOpenThen.trans hClosed), if_neg hOn]
  case sent =>
    intro slot k c i phase fmt r x vs s l ch
    obtain ⟨fs, hQueue, hBytes⟩ := sendRing_parts slot k c i phase fmt r x vs s
    exact ⟨fs, hQueue, hBytes, (sendRing_keeps slot r k c i phase fmt x vs (.refl (· ∉ [Part.net]) s) (by simp)).sameBut⟩
  case decide =>
    intro slot k c i r x s hRoute hRecord hChunk hRing hSums hReduce hRuns hFirst q p hOpen hCarry
    have hRun := execLateFoldDecide_of_open (s := s) ⟨hRoute, hRecord, hChunk, hRing, hSums⟩ hReduce hRuns hOpen
    refine ⟨fun hHere => ?_, fun hAbsent hNot => ?_, fun hAbsent hClosed hOn hLimit => ?_⟩
    · exact hRun.trans (congrArg done (decidePiece_present hFirst hCarry hHere))
    · have hNotNow : foldsNow s slot x = false := by
        obtain h | h := hNot <;> simp [foldsNow, h]
      exact hRun.trans (congrArg done (decidePiece_waits hFirst hAbsent hNotNow))
    · have hFolds : foldsNow s slot x = true := by simp [foldsNow, hClosed, hOn]
      exact ⟨_, hRun.trans (congrArg done (decidePiece_folded hFirst hCarry hAbsent hFolds hLimit)), pieceFolded_parts slot k c i x hFirst⟩
  case waits => exact fun slot k c i r x s h => goPiece_of_waiting h
  case late =>
    intro slot k c i first step vs r x s hRoute hRecord hChunk hRing hSums hFits q p
    have hOn : OnRing s slot k c i r x := ⟨hRoute, hRecord, hChunk, hRing, hSums⟩
    refine ⟨fun hNow hFolded => ?_, fun hEarlier hStale => ?_, fun y hEarlier hLimit hCarry hKept hWaits => ?_⟩
    · have hExec := (execLateTileLand_of_onRing (vs := vs) hOn hFits (fun _ => hFolded)).trans (congrArg done (landLate_now hNow))
      refine ⟨_, hExec, (modColl_keeps slot _ (.refl (· ∉ [Part.colls]) s) (by simp)).sameBut, fun j => ?_⟩
      rw [collOf_modColl_same]
      dsimp only
      rw [kgetD_kput_same, kget_values]
    · exact (execLateTileLand_of_onRing hOn hFits (fun h => absurd h (by omega))).trans (congrArg done (landLate_stale hEarlier hStale))
    · obtain ⟨t, hLand, hSame, hThere⟩ := landLate_carried (first := first) (vs := ringWords x.sum vs) hEarlier hLimit hCarry hKept hWaits
      obtain ⟨hLanded, hStep, hFolded⟩ := foldl_addLate x.sum first (ringWords x.sum vs).zipIdx y
      refine ⟨t, _, (execLateTileLand_of_onRing hOn hFits (fun h => absurd h (by omega))).trans (congrArg done hLand), hThere, ?_, hStep,
        hFolded, hSame⟩
      rw [hLanded, List.length_zipIdx]

end

section
/-! Secured states: the copies of held pages (R388), their way to the keeper and its slots (R389-R392), and the flash checkpoint (R395). -/

namespace Sys2Proof.Machine

theorem secureOf_congr {s t : State} (h : t.secures = s.secures) (k : Nat) : secureOf t k = secureOf s k := congrArg (kgetD Secure.none · k) h

/-! A held page is copied (R388). -/

/-- The page of a point has its snapshot in the frame that its table named before. -/
def snapshotTaken (i page frame : Nat) (h : HeldPage) : HeldPage :=
  if h.record = i ∧ h.page = page then { h with copied := true, frame := frame } else h

/-- The cargo's page moves to the reserve frame, and its former frame holds the snapshot. -/
def pageCopied (slot i page f : Nat) (p : SecurePoint) (e : PageEntry) (s : State) : State :=
  pointPage i page f (modSecure slot (fun x => { x with
    reserve := kdel x.reserve (pageNumber i page), point := some { p with pages := p.pages.map (snapshotTaken i page e.frame) } }) s)

theorem copyHeld_of_held {slot f : Nat} {p : SecurePoint} {h : HeldPage} {e : PageEntry} {s : State} (hPoint : (secureOf s slot).point = some p)
    (hMem : h ∈ p.pages) (hNew : h.copied = false) (hFrame : kget (secureOf s slot).reserve (pageNumber h.record h.page) = some f)
    (hPage : pageOf s h.record h.page = some e) :
    copyHeld slot h.record h.page s = pageCopied slot h.record h.page f p e s := by
  have hAny : p.pages.any (fun g => g.record == h.record && g.page == h.page && !g.copied) = true :=
    List.any_eq_true.mpr ⟨h, hMem, by simp [hNew]⟩
  unfold pageOf at hPage
  unfold copyHeld
  dsimp only
  rw [hPoint, hFrame, hPage]
  dsimp only
  rw [if_pos hAny]
  rfl

theorem pageOf_pointPage {i page frame : Nat} {e : PageEntry} {s : State} (h : pageOf s i page = some e) :
    pageOf (pointPage i page frame s) i page = some { e with frame := frame } := by
  unfold pageOf at h ⊢
  rw [pointPage, modCargo]
  dsimp only
  rw [kgetD_kmodD_same, h]
  exact getElem?_setNth _ _ _ (List.getElem?_eq_some_iff.mp h).1

theorem pageCopied_secures (slot i page f : Nat) (p : SecurePoint) (e : PageEntry) (s : State) :
    (pageCopied slot i page f p e s).secures = (modSecure slot (fun x => { x with
      reserve := kdel x.reserve (pageNumber i page)
      point := some { p with pages := p.pages.map (snapshotTaken i page e.frame) } }) s).secures := rfl

theorem secureOf_pageCopied (slot i page f : Nat) (p : SecurePoint) (e : PageEntry) (s : State) :
    secureOf (pageCopied slot i page f p e s) slot = { secureOf s slot with
      reserve := kdel (secureOf s slot).reserve (pageNumber i page)
      point := some { p with pages := p.pages.map (snapshotTaken i page e.frame) } } := by
  rw [secureOf_congr (pageCopied_secures ..), secureOf_modSecure_same]

theorem secureOf_pageCopied_other {slot j : Nat} (i page f : Nat) (p : SecurePoint) (e : PageEntry) (s : State) (h : slot ≠ j) :
    secureOf (pageCopied slot i page f p e s) j = secureOf s j := by
  rw [secureOf_congr (pageCopied_secures ..), secureOf_modSecure_other _ _ h]

theorem execBackgroundCopy_of_held {slot tier unit f : Nat} {p : SecurePoint} {h : HeldPage} {e : PageEntry} {s : State}
    (hPoint : (secureOf s slot).point = some p)
    (hFound : p.pages.find? (fun h => !h.copied && h.held && (kgetD Cargo.free s.mem.cargoes h.record).tier == tier &&
      ((pageOf s h.record h.page).any (fun e => e.unit == unit))) = some h)
    (hFrame : kget (secureOf s slot).reserve (pageNumber h.record h.page) = some f) (hPage : pageOf s h.record h.page = some e) :
    execBackgroundCopy slot tier unit s = .next (count 0x5122 slot 1 (pageCopied slot h.record h.page f p e s)) := by
  have hNew : h.copied = false := by
    have := List.find?_some hFound
    simp only [Bool.and_eq_true, Bool.not_eq_true'] at this
    exact this.1.1.1
  unfold execBackgroundCopy
  rw [hPoint]
  dsimp only
  rw [hFound]
  dsimp only
  rw [copyHeld_of_held hPoint (List.mem_of_find?_eq_some hFound) hNew hFrame hPage]
  rfl

/-! Pages are released (R389). -/

/-- A page that is held no longer has no snapshot. -/
def snapshotLeft (h : HeldPage) : HeldPage := if h.held then h else { h with copied := false }

theorem snapshotLeft_eq (h : HeldPage) : snapshotLeft h = if h.sent && h.flashed then { h with copied := false } else h := by
  unfold snapshotLeft HeldPage.held
  cases h.sent && h.flashed <;> rfl

theorem secureOf_modKeeper (f : Keeper → Keeper) (s : State) (k : Nat) : secureOf (modKeeper f s) k = secureOf s k := rfl

theorem secureOf_releasePages {slot : Nat} {p : SecurePoint} (f : HeldPage → HeldPage) {s : State} (h : (secureOf s slot).point = some p) :
    ∃ n, secureOf (releasePages slot f s) slot = { secureOf s slot with
      reserve := framesBack ((p.pages.map f).filter (fun h => !h.held)) (secureOf s slot).reserve
      point := some { p with pages := (p.pages.map f).map snapshotLeft, planned := n } } := by
  unfold releasePages
  rw [h]
  dsimp only
  split
  · rw [secureOf_modSecure_same]
    exact ⟨_, rfl⟩
  · rw [secureOf_modKeeper, secureOf_modSecure_same]
    exact ⟨_, rfl⟩

theorem secureOf_modPoint (slot : Nat) (f : SecurePoint → SecurePoint) (s : State) :
    secureOf (modPoint slot f s) slot = { secureOf s slot with point := (secureOf s slot).point.map f } := by
  rw [modPoint, secureOf_modSecure_same]

theorem secureOf_releasePoint (slot : Nat) (s : State) : ∃ m, secureOf (releasePoint slot s) slot = { secureOf s slot with
    point := none, reserve := m } := by
  rw [releasePoint, secureOf_modSecure_same]
  exact ⟨_, rfl⟩

/-- A point that the keeper and the flash have is over; any other stays. -/
theorem secureOf_releaseIfDone {slot : Nat} {p : SecurePoint} {s : State} (h : (secureOf s slot).point = some p) :
    ∃ m, secureOf (releaseIfDone slot s) slot = { secureOf s slot with
      point := if p.buddyDone && p.flashDone then none else some p, reserve := m } := by
  unfold releaseIfDone
  rw [h]
  dsimp only
  split
  · exact secureOf_releasePoint slot s
  · exact ⟨(secureOf s slot).reserve, by rw [← h]⟩

/-! The way to the keeper (R391, R392). -/

/-- The bytes of a secured state leave for the keeper on channel 63. -/
def sentToKeeper (slot l : Nat) (b : Bytes) (s : State) : State := queueFlits l 63 (cutFlits 63 (keeperOf s) slot 0 b) s

theorem queue_sentToKeeper (slot l : Nat) (b : Bytes) (s : State) : kgetD [] (linkOf (sentToKeeper slot l b s) l).queues 63 =
    kgetD [] (linkOf s l).queues 63 ++ cutFlits 63 (keeperOf s) slot 0 b := by
  unfold sentToKeeper
  exact queue_queueFlits l 63 _ s

theorem linkOf_congr {s t : State} (h : t.net = s.net) (l : Nat) : linkOf t l = linkOf s l :=
  congrArg (fun n : Net => kgetD Link.reset n.links l) h

theorem secureOf_sentToKeeper (slot l : Nat) (b : Bytes) (s : State) (k : Nat) : secureOf (sentToKeeper slot l b s) k = secureOf s k := rfl

/-- The page of a point is sent. -/
def pageSent (h g : HeldPage) : HeldPage := if g.record = h.record ∧ g.page = h.page then { g with sent := true } else g

theorem execBuddySend_of_point {slot l : Nat} {r : Route} {p : SecurePoint} {s : State} (hPoint : (secureOf s slot).point = some p)
    (hRoute : routeOf s slot = some r) (hLink : controlLink s (keeperOf s) = some l) (hKeeper : keeperOf s ≠ 0xFFFF)
    (hBuddy : buddyLink s l = true) : execBuddySend slot s = done (
      match p.pages.find? (fun h => h.copied && !h.sent) with
      | some h => count 0x5123 slot pageBytes (releasePages slot (pageSent h)
          (sentToKeeper slot l (loadBytes h.contents (pageAddress h.record h.page) pageBytes) s))
      | none =>
        if p.headerSent = true ∨ p.pages.any (fun h => !h.sent) = true then s
        else modPoint slot (fun p => { p with headerSent := true }) (sentToKeeper slot l (securedHeader s slot r p) s)) := by
  unfold execBuddySend
  rw [hPoint, hRoute, hLink]
  dsimp only
  rw [if_neg (by simp [hKeeper, hBuddy])]
  cases p.pages.find? (fun h => h.copied && !h.sent) <;> rfl

/-- The slot of a keep area in which a state arrives. -/
def keepSlotFor (device slot step : Nat) (x : KeepSlot) : KeepSlot :=
  if field x.header 4 6 == step && field x.header 2 1 == slot && !x.header.isEmpty then x
  else ⟨[], le 2 device ++ le 1 slot ++ [0] ++ le 6 step ++ zeroBytes 86⟩

theorem execBuddyReceive_of_area {device slot step page area : Nat} {b : Bytes} (header : Option Bytes) {s : State}
    (hRuns : firmwareRuns s = true)
    (hArea : (List.range 4).find? (fun k => setting s 0x2903 k == device && device != 0xFFFF) = some area) :
    let cur := kgetD 1 s.keeper.current area
    let k := area * 2 + (1 - cur)
    let x := keepSlotFor device slot step (kgetD ⟨[], []⟩ s.keeper.slots k)
    execBuddyReceive device slot step page b header s =
      match header with
      | none => done (modKeeper (fun q => { q with slots := kput q.slots k { x with pages := kput x.pages page b } }) s)
      | some h => done (if bit (field h 3 1) 0 ∧ field h 12 4 = x.pages.length then
          modKeeper (fun q => { q with current := kput q.current area (1 - cur) })
            (modKeeper (fun q => { q with slots := kput q.slots k { x with header := padTo 96 h } }) s)
          else modKeeper (fun q => { q with slots := kput q.slots k { x with header := padTo 96 h } }) s) := by
  intro cur k x
  unfold execBuddyReceive
  rw [hArea]
  dsimp only
  rw [if_neg (by simp [hRuns])]
  cases header <;> rfl

/-- The state of a point becomes the current one of the keeper, and the one before it the previous. -/
def stateListed (slot : Nat) (p : SecurePoint) (s : State) : State := modSecure slot (fun x => { x with
  last := p.step
  held := ⟨p.step, 2, true, s.beat.count, p.pages.map (fun h => (h.record, h.page, h.contents)), p.carries, p.groups, p.digest, none⟩ ::
    (x.held.filter (fun e => e.source != 3)).map (fun e => if e.source = 2 then { e with source := 3 } else e) }) s

/-- The keeper has the state: it is announced, and the point over where the flash has it too (R392). -/
def slotCompleted (slot : Nat) (p : SecurePoint) (s : State) : State :=
  releaseIfDone slot (modPoint slot (fun p => { p with buddyDone := true })
    (event evtSecured (atSlot slot) (le 8 p.step) (count 0x5120 slot 1 (stateListed slot p s))))

theorem execBuddySlotComplete_of_sent {slot : Nat} {p : SecurePoint} {s : State} (hPoint : (secureOf s slot).point = some p)
    (hKeeper : keeperOf s ≠ 0xFFFF) (hOpen : p.buddyDone = false) (hHeader : p.headerSent = true) :
    execBuddySlotComplete slot s = .next (slotCompleted slot p s) := by
  unfold execBuddySlotComplete
  rw [hPoint]
  dsimp only
  rw [if_neg (by simp [hKeeper, hOpen, hHeader])]
  rfl

theorem slotCompleted_parts {slot : Nat} {p : SecurePoint} {s : State} (hPoint : (secureOf s slot).point = some p) :
    ∃ m, secureOf (slotCompleted slot p s) slot = { secureOf (stateListed slot p s) slot with
      point := if p.flashDone = true then none else some { p with buddyDone := true }, reserve := m } := by
  have hListed : (secureOf (stateListed slot p s) slot).point = some p := by
    rw [stateListed, secureOf_modSecure_same]
    exact hPoint
  have hSecure : secureOf (modPoint slot (fun p => { p with buddyDone := true })
      (event evtSecured (atSlot slot) (le 8 p.step) (count 0x5120 slot 1 (stateListed slot p s)))) slot =
        { secureOf (stateListed slot p s) slot with point := some { p with buddyDone := true } } := by
    rw [secureOf_modPoint, secureOf_event, secureOf_count, hListed]
    rfl
  obtain ⟨m, hDone⟩ := secureOf_releaseIfDone (slot := slot) (p := { p with buddyDone := true }) (congrArg Secure.point hSecure)
  refine ⟨m, ?_⟩
  unfold slotCompleted
  rw [hDone, hSecure, Bool.true_and]

theorem slotCompleted_events (slot : Nat) (p : SecurePoint) (s : State) :
    (slotCompleted slot p s).led.events = (s.led.events + 1) % 2 ^ 64 := by
  have hKept (u : State) : (releaseIfDone slot (modPoint slot (fun p => { p with buddyDone := true }) u)).led = u.led :=
    (releaseIfDone_keeps slot (modPoint_keeps slot _ (.refl (· = .led) u) (by simp)) (by simp)).parts .led rfl
  rw [slotCompleted, hKept, event_led]
  rfl

/-! The flash checkpoint (R395). -/

/-- The flash part of a point is over: its pages need no flash, and the point ends where the buddy has it. -/
def checkpointDone (slot : Nat) (s : State) : State :=
  releaseIfDone slot (releasePages slot (fun h => { h with flashed := true }) (modPoint slot (fun p => { p with flashDone := true }) s))

theorem secureOf_checkpointDone {slot : Nat} {p : SecurePoint} {s : State} (h : (secureOf s slot).point = some p) :
    ∃ m n, secureOf (checkpointDone slot s) slot = { secureOf s slot with
      point := if p.buddyDone = true then none else some { p with
        flashDone := true, pages := (p.pages.map (fun h => { h with flashed := true })).map snapshotLeft, planned := n }, reserve := m } := by
  have hPoint : (secureOf (modPoint slot (fun p => { p with flashDone := true }) s) slot) =
      { secureOf s slot with point := some { p with flashDone := true } } := by
    rw [secureOf_modPoint, h]
    rfl
  obtain ⟨n, hPages⟩ := secureOf_releasePages (slot := slot) (fun h => { h with flashed := true }) (congrArg Secure.point hPoint)
  obtain ⟨m, hDone⟩ := secureOf_releaseIfDone (slot := slot) (congrArg Secure.point hPages)
  refine ⟨m, n, ?_⟩
  unfold checkpointDone
  rw [hDone, hPages, hPoint]
  dsimp only
  rw [Bool.and_true]

theorem flashed_snapshotLeft (ps : List HeldPage) : ∀ h ∈ (ps.map (fun h => { h with flashed := true })).map snapshotLeft, h.flashed = true := by
  intro h hMem
  rw [List.map_map] at hMem
  obtain ⟨g, -, rfl⟩ := List.mem_map.mp hMem
  dsimp only [Function.comp]
  unfold snapshotLeft
  split <;> rfl

/-- A checkpoint that is refused is reported. -/
def checkpointRefused (slot : Nat) (s : State) : State := event evtCkptRefused (atSlot slot) [] (count 0x5126 slot 1 s)

theorem abandonCheckpoint_eq (slot : Nat) (s : State) : abandonCheckpoint slot s = checkpointDone slot (checkpointRefused slot s) := rfl

theorem checkpointDone_keeps {M : Part → Prop} {s0 s : State} (slot : Nat) (h : Keeps M s0 s) (hSecures : ¬M .secures) (hKeeper : ¬M .keeper) :
    Keeps M s0 (checkpointDone slot s) :=
  releaseIfDone_keeps slot (releasePages_keeps slot _ (modPoint_keeps slot _ h hSecures) hSecures hKeeper) hSecures

/-- What the writes of a checkpoint leave of the secured states of a slot: how many checkpoints there have been, and whether the buddy has
the point. -/
structure PointKept (slot : Nat) (s t : State) : Prop where
  checkpoints : (secureOf t slot).checkpoints = (secureOf s slot).checkpoints
  point : (secureOf t slot).point.map (·.buddyDone) = (secureOf s slot).point.map (·.buddyDone)

theorem PointKept.of_secures {slot : Nat} {s t : State} (h : t.secures = s.secures) : PointKept slot s t := by
  constructor <;> rw [secureOf_congr h]

theorem PointKept.trans {slot : Nat} {s t u : State} (h : PointKept slot s t) (h' : PointKept slot t u) : PointKept slot s u :=
  ⟨h'.checkpoints.trans h.checkpoints, h'.point.trans h.point⟩

theorem PointKept.foldl {α : Type} {slot : Nat} {f : State → α → State} (hf : ∀ u x, PointKept slot u (f u x)) (l : List α) (s : State) :
    PointKept slot s (l.foldl f s) :=
  List.foldlRecOn l f (.of_secures rfl) (fun u hu x _ => hu.trans (hf u x))

theorem pointKept_pageCopied {slot k i page f : Nat} {p : SecurePoint} (e : PageEntry) {s : State} (hPoint : (secureOf s k).point = some p) :
    PointKept slot s (pageCopied k i page f p e s) := by
  by_cases h : k = slot
  · subst h
    have hSecure := secureOf_pageCopied k i page f p e s
    constructor
    · rw [hSecure]
    · rw [hSecure, hPoint]
      rfl
  · have hSecure : secureOf (pageCopied k i page f p e s) slot = secureOf s slot := secureOf_pageCopied_other i page f p e s h
    constructor <;> rw [hSecure]

theorem pointKept_copyHeld (slot k i page : Nat) (s : State) : PointKept slot s (copyHeld k i page s) := by
  unfold copyHeld
  dsimp only
  split
  · rename_i p f e hPoint _ _
    split
    · exact pointKept_pageCopied e hPoint
    · exact .of_secures rfl
  · exact .of_secures rfl

theorem pointKept_writeCargo (slot i a : Nat) (data : Bytes) (s : State) : PointKept slot s (writeCargo i a data s) := by
  rw [writeCargo_eq]
  have hCopied : PointKept slot s (pagesCopied i a data.length s) :=
    .foldl (fun u k => .foldl (fun u k => pointKept_copyHeld slot k i _ u) slotNumbers u) _ s
  refine hCopied.trans (.of_secures (foldl_field (g := State.secures) (fun u e => ?_) _ _))
  unfold byteWritten
  split <;> rfl

theorem pointKept_writeData (slot i a : Nat) (data : Bytes) (s : State) : PointKept slot s (writeData i a data s) := by
  unfold writeData
  dsimp only
  refine (PointKept.foldl (fun u p => .of_secures ?_) _ s).trans (pointKept_writeCargo slot i a data _)
  split
  · exact (settlePage_keeps i p (.refl (· = .secures) u) (by simp) (by simp)).parts .secures rfl
  · exact (touchT3_keeps i p (.refl (· = .secures) u) (by simp) (by simp)).parts .secures rfl

theorem pointKept_admitStore {slot client : Nat} {pages : List Nat} {s t : State} {on : Bool} (h : admitStore client pages true s = (t, on)) :
    PointKept slot s t := by
  have hSecures := (admitStore_keeps client pages true (.refl (· = .secures) s) (by simp) (by simp) (by simp)).parts .secures rfl
  rw [h] at hSecures
  exact .of_secures hSecures

/-- The home pages of a checkpoint's half of the cargo. -/
def checkpointPage (c : Cargo) (half k : Nat) : Nat := ((c.pages[half + k]?).map (·.frame)).getD 0

/-- The held pages of a point are written into a half of the checkpoint cargo. -/
def pagesStored (i half : Nat) (p : SecurePoint) (s : State) : State := p.pages.zipIdx.foldl (fun s e =>
  writeData i ((half + 1 + e.2) * pageBytes) (loadBytes e.1.contents (pageAddress e.1.record e.1.page) pageBytes) s) s

/-- The checkpoint is listed with its header, and the one before it is the previous. -/
def checkpointListed (slot header : Nat) (p : SecurePoint) (s : State) : State := modSecure slot (fun x => { x with
  checkpoints := x.checkpoints + 1
  held := (x.held.filter (fun e => e.source != 5)).map (fun e => if e.source = 4 then { e with source := 5 } else e) ++
    [⟨p.step, 4, true, s.beat.count, p.pages.map (fun h => (h.record, h.page, h.contents)), p.carries, p.groups, p.digest, some header⟩] }) s

/-- The header page of a checkpoint is written last, and the checkpoint is listed. -/
def checkpointWritten (slot i half header : Nat) (b : Bytes) (p : SecurePoint) (s : State) : State :=
  checkpointDone slot (count 0x5125 slot 1 (checkpointListed slot header p (writeData i (half * pageBytes) b s)))

/-- The pages of a checkpoint of at most 4,096 pages are one store. -/
theorem stores_of_few {n : Nat} (hSome : 0 < n) (hFew : n ≤ 4096) :
    (List.range (ceilDiv n 4096)).map (fun j => ((List.range n).drop (4096 * j)).take 4096) = [List.range n] := by
  have hOne : ceilDiv n 4096 = 1 := by
    unfold ceilDiv
    omega
  rw [hOne]
  simp [hFew]

section
variable {slot : Nat} {r : Route} {p : SecurePoint} {s : State}
variable (hPoint : (secureOf s slot).point = some p) (hRoute : routeOf s slot = some r) (hCheckpoint : p.checkpoint = true)
  (hOpen : p.flashDone = false)
include hPoint hRoute hCheckpoint hOpen

theorem execFlashCheckpoint_refused (h : checkpointCargo s p.pages.length = none) :
    execFlashCheckpoint slot s = .next (checkpointDone slot (checkpointRefused slot s)) := by
  unfold execFlashCheckpoint
  rw [hPoint, hRoute]
  dsimp only
  rw [if_neg (by simp [hCheckpoint, hOpen]), h]
  rfl

/-- With room for the pages and for the header, and no frame dirty, the checkpoint is written. -/
theorem execFlashCheckpoint_written {i : Nat} {c : Cargo} {u v : State} (hCargo : checkpointCargo s p.pages.length = some (i, c))
    (hSome : 0 < p.pages.length) (hFew : p.pages.length ≤ 4096) {half : Nat}
    (hHalf : (secureOf s slot).checkpoints % 2 * (p.pages.length + 1) = half)
    (hPages : admitStore (slotOf s slot).owner ((List.range p.pages.length).map (fun k => checkpointPage c half (k + 1))) true s = (u, true))
    (hClean : ∀ f ∈ (pagesStored i half p u).mem.cache, f.dirty = false)
    (hHeader : admitStore (slotOf s slot).owner [checkpointPage c half 0] true (pagesStored i half p u) = (v, true)) :
    execFlashCheckpoint slot s = .next (checkpointWritten slot i half (checkpointPage c half 0)
      (padTo pageBytes (securedHeader (pagesStored i half p u) slot r p)) p v) := by
  have hHome (js : List Nat) : js.foldl (fun (x : State × Bool) j =>
      (x.1.mem.cache.filter (fun f => f.cargo == j && f.dirty)).foldl (fun x f =>
        let y := flushPage f.cargo f.page x.1
        (y.1, x.2 && y.2)) x) (pagesStored i half p u, true) = (pagesStored i half p u, true) := by
    have hNone (j : Nat) : (pagesStored i half p u).mem.cache.filter (fun f => f.cargo == j && f.dirty) = [] :=
      List.filter_eq_nil_iff.mpr (fun f hf => by simp [hClean f hf])
    refine foldl_unchanged (fun j _ => ?_)
    dsimp only
    rw [hNone]
    rfl
  unfold pagesStored at hHome hHeader
  unfold checkpointPage at hPages hHeader
  unfold execFlashCheckpoint
  rw [hPoint, hRoute]
  dsimp only
  rw [if_neg (by simp [hCheckpoint, hOpen]), hCargo]
  dsimp only
  rw [stores_of_few hSome hFew, hHalf, List.foldl_cons, List.foldl_nil]
  dsimp only
  rw [if_pos rfl, hPages]
  dsimp only
  rw [if_neg (by simp), hHome]
  dsimp only
  rw [if_pos rfl, hHeader]
  dsimp only
  rw [if_neg (by simp)]
  unfold done checkpointWritten checkpointDone checkpointListed checkpointPage pagesStored
  with_reducible rfl

end

theorem secureOf_checkpointListed (slot header : Nat) (p : SecurePoint) (s : State) :
    (secureOf (checkpointListed slot header p s) slot).point = (secureOf s slot).point ∧
    (secureOf (checkpointListed slot header p s) slot).checkpoints = (secureOf s slot).checkpoints + 1 ∧
    ∃ e ∈ (secureOf (checkpointListed slot header p s) slot).held, e.step = p.step ∧ e.source = 4 ∧ e.carries = p.carries ∧
      e.groups = p.groups ∧ e.header = some header := by
  unfold checkpointListed
  rw [secureOf_modSecure_same]
  exact ⟨rfl, rfl, _, List.mem_append_right _ List.mem_cons_self, rfl, rfl, rfl, rfl, rfl⟩

/-- What a written checkpoint leaves of the secured states, once its pages have been stored. -/
theorem checkpointWritten_parts {slot i half header : Nat} {b : Bytes} {p : SecurePoint} {s v : State}
    (hPoint : (secureOf s slot).point = some p) (hKept : PointKept slot s v) :
    (secureOf (checkpointWritten slot i half header b p v) slot).checkpoints = (secureOf s slot).checkpoints + 1 ∧
    (∃ e ∈ (secureOf (checkpointWritten slot i half header b p v) slot).held, e.step = p.step ∧ e.source = 4 ∧ e.carries = p.carries ∧
      e.groups = p.groups ∧ e.header = some header) ∧
    (p.buddyDone = true → (secureOf (checkpointWritten slot i half header b p v) slot).point = none) := by
  have hStored := hKept.trans (pointKept_writeData slot i (half * pageBytes) b v)
  obtain ⟨hPointThen, hCheckpoints, hListed⟩ := secureOf_checkpointListed slot header p (writeData i (half * pageBytes) b v)
  have hBuddy := hStored.point
  rw [hPoint, ← hPointThen] at hBuddy
  obtain ⟨q, hq, hSame⟩ := Option.map_eq_some_iff.mp hBuddy
  obtain ⟨m, n, hDone⟩ := secureOf_checkpointDone (slot := slot) (p := q)
    (s := count 0x5125 slot 1 (checkpointListed slot header p (writeData i (half * pageBytes) b v))) hq
  rw [secureOf_count] at hDone
  unfold checkpointWritten
  rw [hDone]
  refine ⟨hCheckpoints.trans (by rw [hStored.checkpoints]), hListed, fun hHas => ?_⟩
  exact if_pos (hSame.trans hHas)

end Sys2Proof.Machine

open Sys2Proof Sys2Proof.Machine

/-- Settles O56: each command is one move of a held page, of its point, or of the keep slot that it goes to. -/
theorem heldPagesAreCopiedSentAndKept : Obligations.HeldPagesAreCopiedSentAndKept := by
  unfold Obligations.HeldPagesAreCopiedSentAndKept
  refine ⟨?copied, ?sent, ?received, ?completed, ?checkpoint⟩
  case copied =>
    intro slot tier unit f p h e s x hPoint hFound hFrame hPage
    have hSecure := secureOf_pageCopied slot h.record h.page f p e s
    refine ⟨_, execBackgroundCopy_of_held hPoint hFound hFrame hPage, ?_, ?_, ?_, rfl, rfl, ?_⟩
    · exact pageOf_pointPage (s := modSecure slot _ s) hPage
    · exact congrArg Secure.point hSecure
    · exact congrArg Secure.reserve hSecure
    · exact (count_keeps _ _ _ (pointPage_keeps _ _ _ (modSecure_keeps slot _ (.refl (· ∉ [Part.ctr, .mem, .secures]) s) (by simp)) (by simp))
        (by simp)).sameBut
  case sent =>
    intro slot l r p s hPoint hRoute hLink hKeeper hBuddy
    have hRun := execBuddySend_of_point hPoint hRoute hLink hKeeper hBuddy
    constructor
    · intro h hFound pages
      rw [hFound] at hRun
      dsimp only at hRun
      generalize loadBytes h.contents (pageAddress h.record h.page) pageBytes = b at hRun ⊢
      obtain ⟨n, hSecure⟩ := secureOf_releasePages (s := sentToKeeper slot l b s) (pageSent h)
        ((congrArg Secure.point (secureOf_sentToKeeper ..)).trans hPoint)
      rw [secureOf_sentToKeeper] at hSecure
      have hHeld : pages.filter (fun g => g.sent && g.flashed) = (p.pages.map (pageSent h)).filter (fun g => !g.held) :=
        List.filter_congr (fun g _ => (Bool.not_not _).symm)
      have hNet : (releasePages slot (pageSent h) (sentToKeeper slot l b s)).net = (sentToKeeper slot l b s).net :=
        (releasePages_keeps slot _ (.refl (· = .net) (sentToKeeper slot l b s)) (by simp) (by simp)).parts .net rfl
      refine ⟨_, hRun, ?_, ?_, ?_, ?_⟩
      · rw [linkOf_count, linkOf_congr hNet, queue_sentToKeeper]
      · rw [secureOf_count, hSecure]
        exact ⟨_, rfl, rfl, rfl, List.map_congr_left (fun g _ => snapshotLeft_eq g)⟩
      · rw [secureOf_count, hSecure, hHeld]
      · exact (count_keeps _ _ _ (releasePages_keeps slot _ (queueFlits_keeps l 63 _ (.refl (· ∉ [Part.ctr, .net, .secures, .keeper]) s)
          (by simp)) (by simp) (by simp)) (by simp)).sameBut
    · intro hAll hHeader
      have hNone : p.pages.find? (fun h => h.copied && !h.sent) = none :=
        List.find?_eq_none.mpr (fun h hMem => by simp [hAll h hMem])
      have hSent : p.pages.any (fun h => !h.sent) = false := List.any_eq_false.mpr (fun h hMem => by simp [hAll h hMem])
      rw [hNone] at hRun
      dsimp only at hRun
      rw [if_neg (by simp [hHeader, hSent])] at hRun
      refine ⟨_, hRun, ?_, ?_, ?_⟩
      · rw [← queue_sentToKeeper]
        rfl
      · rw [secureOf_modPoint, secureOf_sentToKeeper, hPoint]
        rfl
      · exact (modPoint_keeps slot _ (queueFlits_keeps l 63 _ (.refl (· ∉ [Part.net, .secures]) s) (by simp)) (by simp)).sameBut
  case received =>
    intro device slot step page area b s hRuns hArea cur k x
    have hOther : k ≠ area * 2 + cur := by omega
    constructor
    · refine ⟨_, execBuddyReceive_of_area none hRuns hArea, ?_, rfl, kget_kput_other _ _ hOther,
        (modKeeper_keeps _ (.refl (· ∉ [Part.keeper]) s) (by simp)).sameBut⟩
      show kget (kgetD ⟨[], []⟩ (kput s.keeper.slots k _) k).pages page = some b
      rw [kgetD_kput_same]
      exact kget_kput_same ..
    · intro h hThere hStep hSlot
      have hSame : keepSlotFor device slot step x = x := if_pos (by simp [hStep, hSlot, hThere])
      have hRun := execBuddyReceive_of_area (device := device) (slot := slot) (step := step) (page := page) (b := b) (some h) hRuns hArea
      dsimp only at hRun
      rw [show keepSlotFor device slot step (kgetD ⟨[], []⟩ s.keeper.slots k) = x from hSame] at hRun
      by_cases hComplete : bit (field h 3 1) 0 = true ∧ field h 12 4 = x.pages.length
      · rw [if_pos hComplete] at hRun ⊢
        exact ⟨_, hRun, kget_kput_same .., rfl, (modKeeper_keeps _ (modKeeper_keeps _ (.refl (· ∉ [Part.keeper]) s) (by simp)) (by simp)).sameBut⟩
      · rw [if_neg hComplete] at hRun ⊢
        exact ⟨_, hRun, kget_kput_same .., rfl, (modKeeper_keeps _ (.refl (· ∉ [Part.keeper]) s) (by simp)).sameBut⟩
  case completed =>
    intro slot p s hPoint hKeeper hOpen hHeader
    have hExec : exec (.buddySlotComplete slot) s = .next _ := execBuddySlotComplete_of_sent hPoint hKeeper hOpen hHeader
    obtain ⟨m, hSecure⟩ := slotCompleted_parts hPoint
    refine ⟨_, hExec, ?_, ?_, ?_, slotCompleted_events slot p s, ?_, (sameBut_of_exec (by simp) hExec).mono (by simp [touches])⟩
    · rw [hSecure, stateListed, secureOf_modSecure_same]
    · rw [hSecure, stateListed, secureOf_modSecure_same]
      exact ⟨_, rfl, rfl, rfl, rfl, rfl, rfl⟩
    · intro e hMem hSource
      rw [hSecure, stateListed, secureOf_modSecure_same]
      refine ⟨_, List.mem_cons_of_mem _ (List.mem_map_of_mem (List.mem_filter.mpr ⟨hMem, by simp [hSource]⟩)), if_pos hSource⟩
    · rw [hSecure]
  case checkpoint =>
    intro slot r p s hPoint hRoute hCheckpoint hOpen
    constructor
    · intro hNone
      have hRefused : (secureOf (checkpointRefused slot s) slot) = secureOf s slot := by
        rw [checkpointRefused, secureOf_event, secureOf_count]
      obtain ⟨m, n, hSecure⟩ := secureOf_checkpointDone (s := checkpointRefused slot s) ((congrArg Secure.point hRefused).trans hPoint)
      refine ⟨_, execFlashCheckpoint_refused hPoint hRoute hCheckpoint hOpen hNone, ?_, ?_, ?_, ?_⟩
      · rw [congrArg Ledgers.events ((checkpointDone_keeps slot (.refl (· = .led) (checkpointRefused slot s)) (by simp) (by simp)).parts .led rfl),
          checkpointRefused, event_led]
        rfl
      · rw [hSecure]
        dsimp only
        split
        · rfl
        · exact ⟨_, rfl, rfl, rfl, flashed_snapshotLeft p.pages⟩
      · rw [hSecure, hRefused]
      · exact (checkpointDone_keeps slot (event_keeps _ _ _ (count_keeps _ _ _ (.refl (· ∉ [Part.led, .ctr, .secures, .keeper]) s) (by simp))
          (by simp) (by simp)) (by simp) (by simp)).sameBut
    · intro i c u v hCargo hSome hFew half logical hPages w hClean hHeader
      have hRun := execFlashCheckpoint_written hPoint hRoute hCheckpoint hOpen hCargo hSome hFew rfl hPages hClean hHeader
      generalize padTo pageBytes (securedHeader (pagesStored i half p u) slot r p) = b at hRun
      have hExec : exec (.flashCheckpoint slot) s = .next _ := hRun
      have hStored : PointKept slot u w := .foldl (fun u e => pointKept_writeData slot i _ _ u) _ u
      obtain ⟨hCheckpoints, hListed, hOver⟩ := checkpointWritten_parts (i := i) (half := half) (header := logical 0) (b := b) hPoint
        (((pointKept_admitStore hPages).trans hStored).trans (pointKept_admitStore hHeader))
      exact ⟨_, hExec, hCheckpoints, hListed, hOver, sameBut_of_exec (by simp) hExec⟩

end

section
/-! Restores (R396) and the firmware handover (R35, R406). -/

namespace Sys2Proof.Machine

/-! A restore is accepted (R396). -/

theorem train_voidAttempt (slot : Nat) (s : State) : (slotOf (voidAttempt slot s) slot).train =
    { (slotOf (discardStep slot s) slot).train with
      attempt := (slotOf (discardStep slot s) slot).train.attempt + 1, voided := none, replayBeat := none } := by
  unfold voidAttempt
  rw [modTrain_eq, slotOf_modSlot_same]

theorem train_setTrainState (slot n : Nat) (s : State) :
    (slotOf (setTrainState slot n s) slot).train = { (slotOf s slot).train with state := n } := by
  rw [(setTrainState_slot slot n s).1]

theorem train_haltRoute (slot : Nat) (s : State) : (slotOf (haltRoute slot s) slot).train = { (slotOf s slot).train with state := 3 } := by
  unfold haltRoute
  rw [slotOf_count, train_setTrainState]

theorem haltRoute_led (slot : Nat) (s : State) : (haltRoute slot s).led = s.led :=
  (haltRoute_keeps slot (.refl (· = .led) s) (by simp) (by simp) (by simp) (by simp)).parts .led rfl

theorem slotOf_releasePoint (slot k : Nat) (s : State) : slotOf (releasePoint slot s) k = slotOf s k := rfl

theorem secureOf_setTrainState (slot n k : Nat) (s : State) : secureOf (setTrainState slot n s) k = secureOf s k :=
  secureOf_congr ((setTrainState_keeps slot n (.refl (· = .secures) s) (by simp) (by simp) (by simp)).parts .secures rfl) k

/-- The restore awaits its start beat; held pages that are not its source are released. -/
def restoreAwaited (slot start : Nat) (e : Secured) (s : State) : State :=
  let s := modSecure slot (fun x => { x with restoring := some ⟨e.source, e.step, start, none⟩, checking := none }) s
  if e.source = 1 then s else releasePoint slot s

theorem slotOf_restoreAwaited (slot start k : Nat) (e : Secured) (s : State) : slotOf (restoreAwaited slot start e s) k = slotOf s k := by
  unfold restoreAwaited
  dsimp only
  split <;> rfl

theorem secureOf_restoreAwaited (slot start : Nat) (e : Secured) (s : State) :
    (secureOf (restoreAwaited slot start e s) slot).restoring = some ⟨e.source, e.step, start, none⟩ ∧
    (e.source ≠ 1 → (secureOf (restoreAwaited slot start e s) slot).point = none) := by
  unfold restoreAwaited
  dsimp only
  split
  · rename_i h
    rw [secureOf_modSecure_same]
    exact ⟨rfl, fun hNot => absurd h hNot⟩
  · obtain ⟨m, hReleased⟩ := secureOf_releasePoint slot
      (modSecure slot (fun x => { x with restoring := some ⟨e.source, e.step, start, none⟩, checking := none }) s)
    rw [hReleased, secureOf_modSecure_same]
    exact ⟨rfl, fun _ => rfl⟩

/-- No such state is held: the route halts. -/
def restoreFailed (slot step : Nat) (s : State) : State := haltRoute slot (event evtRestoreFail (atSlot slot) (le 6 step) (releasePoint slot s))

theorem acceptRestore_eq (slot source step start : Nat) (s : State) : acceptRestore slot source step start s =
    match chooseState (voidAttempt slot s) slot source step with
    | none => restoreFailed slot step (voidAttempt slot s)
    | some e => setTrainState slot 2 (restoreAwaited slot start e (voidAttempt slot s)) := rfl

theorem train_restoreFailed (slot step : Nat) (s : State) :
    (slotOf (restoreFailed slot step s) slot).train = { (slotOf s slot).train with state := 3 } := by
  unfold restoreFailed
  rw [train_haltRoute, slotOf_event, slotOf_releasePoint]

theorem restoreFailed_events (slot step : Nat) (s : State) : (restoreFailed slot step s).led.events = (s.led.events + 1) % 2 ^ 64 := by
  unfold restoreFailed
  rw [haltRoute_led, event_led]
  rfl

theorem restoreEffect_of_passes {b : Bytes} {r : Route} {s : State} (hSlot : field b 0 1 < 4) (hSource : field b 1 1 ≤ 5)
    (hZero : zeroAt b 16 8 = true) (hStart : s.beat.count + 65536 ≤ field b 8 8) (hRoute : routeOf s (field b 0 1) = some r)
    (hTraining : r.training = true) :
    restoreEffect b s = (stOk, acceptRestore (field b 0 1) (field b 1 1) (field b 2 6) (field b 8 8) s) := by
  refine checked_of_ok ?_ s _
  have hLow : ¬ 4 ≤ field b 0 1 := by omega
  have hKnown : ¬ 5 < field b 1 1 := by omega
  have hFar : ¬ field b 8 8 < s.beat.count + 65536 := by omega
  simp [firstStatus, hLow, hKnown, hZero, hFar, hRoute, hTraining]

/-! The start beat of a restore (R396). -/

/-- The state is written back, and the pages of a local snapshot are released. -/
def stateLanded (slot : Nat) (q : Restoring) (e : Secured) (s : State) : State :=
  if q.source = 1 then releasePoint slot (writeState slot e s) else writeState slot e s

/-- The average of the steps between restores takes up the present one. -/
def meanTaken (slot : Nat) (w : State) : State :=
  modKeeper (fun k => { k with mean := averaged w k.mean ((secureOf w slot).sinceRestore : Rat) }) w

/-- The restore is over for the secured states of the slot. -/
def secureRestored (slot : Nat) (e : Secured) (s : State) : State := modSecure slot (fun x => { x with
  restoring := none, restored := e.step, sinceRestore := 0
  checking := if restoredAttempt s slot (e.step + 1) = 1 then some (e.step + 1) else none }) s

/-- The training runs on from the step after the secured one, from the beat that opens next. -/
def trainRestored (slot : Nat) (e : Secured) (a : Nat) (s : State) : State := modTrain slot (fun t => { t with
  step := e.step + 1, attempt := a, lastCommitted := e.step, voided := none
  replayBeat := some (if (routeOf s slot).any (·.plan.isLocal) then (slotOf s slot).beat.count else s.beat.count) }) s

/-- The route runs on from the step after the secured one. -/
def restoreRun (slot : Nat) (e : Secured) (w : State) : State := count 0x5127 slot 1
  (trainRestored slot e (restoredAttempt (meanTaken slot w) slot (e.step + 1)) (secureRestored slot e (meanTaken slot w)))

/-- The restore cannot start: a notice goes up and the route halts. -/
def restoreLate (slot : Nat) (q : Restoring) (s : State) : State :=
  haltRoute slot (sendNotice slot (q.step + 1) 0 (event evtRestoreLate (atSlot slot) []
    (modSecure slot (fun x => { x with restoring := none }) s)))

theorem execRestoreStart_of_ready {slot : Nat} {q : Restoring} {e : Secured} {s : State} (hRestoring : (secureOf s slot).restoring = some q)
    (hDue : q.start ≤ s.beat.count) (hTime : s.beat.before < q.start) (hState : chooseState s slot q.source q.step = some e)
    (hReach : sourceReachable s q.source = true) :
    execRestoreStart slot s = .next (restoreRun slot e (stateLanded slot q e s)) := by
  unfold execRestoreStart
  rw [hRestoring]
  dsimp only
  rw [if_neg (by omega), hState]
  dsimp only
  rw [if_neg (by rw [hReach]; simp; omega)]
  unfold done restoreRun trainRestored secureRestored meanTaken stateLanded
  with_reducible rfl

theorem execRestoreStart_of_late {slot : Nat} {q : Restoring} {s : State} (hRestoring : (secureOf s slot).restoring = some q)
    (hDue : q.start ≤ s.beat.count)
    (hNot : chooseState s slot q.source q.step = none ∨ sourceReachable s q.source = false ∨ q.start ≤ s.beat.before) :
    execRestoreStart slot s = .next (restoreLate slot q s) := by
  unfold execRestoreStart
  rw [hRestoring]
  dsimp only
  rw [if_neg (by omega)]
  cases hState : chooseState s slot q.source q.step with
  | none => rfl
  | some e =>
    dsimp only
    rw [if_pos (hNot.resolve_left (by rw [hState]; exact Option.some_ne_none e))]
    rfl

theorem restoreLate_parts (slot : Nat) (q : Restoring) (s : State) : (slotOf (restoreLate slot q s) slot).train.state = 3 ∧
    (secureOf (restoreLate slot q s) slot).restoring = none ∧ (restoreLate slot q s).led.events = (s.led.events + 1) % 2 ^ 64 ∧
    (restoreLate slot q s).mem = s.mem := by
  unfold restoreLate
  generalize hu : modSecure slot (fun x => { x with restoring := none }) s = u
  have hSecure : (secureOf u slot).restoring = none := by
    rw [← hu, secureOf_modSecure_same]
  have hEvents : (event evtRestoreLate (atSlot slot) [] u).led.events = (s.led.events + 1) % 2 ^ 64 := by
    rw [event_led, ← hu]
    rfl
  generalize hv : event evtRestoreLate (atSlot slot) [] u = v at hEvents
  have hKeeps := haltRoute_keeps slot (sendNotice_keeps slot (q.step + 1) 0 (.refl (fun p => p = .secures ∨ p = .led ∨ p = .mem) v) (by simp))
    (by simp) (by simp) (by simp) (by simp)
  refine ⟨by rw [train_haltRoute], ?_, ?_, ?_⟩
  · rw [secureOf_congr (hKeeps.parts .secures (.inl rfl)), ← hv, secureOf_event, hSecure]
  · rw [hKeeps.parts .led (.inr (.inl rfl)), hEvents]
  · rw [hKeeps.parts .mem (.inr (.inr rfl)), ← hv, event_mem, ← hu]
    rfl

/-- The pages of a state that is written back. -/
def pagesPut (e : Secured) (s : State) : State := e.pages.foldl (fun s p => putPage p.1 p.2.1 p.2.2 s) s

/-- The group records of a state that is written back. -/
def groupsPut (e : Secured) (s : State) : State :=
  { s with kilns := { s.kilns with groups := e.groups.foldl (fun m g => kput m g.1 g.2) s.kilns.groups } }

theorem writeState_eq (slot : Nat) (e : Secured) (s : State) : writeState slot e s =
    groupsPut e (modColl slot (fun _ => { Coll.none with carries := e.carries }) (pagesPut e s)) := by
  unfold writeState groupsPut pagesPut
  with_reducible rfl

theorem pagesPut_kilns (e : Secured) (s : State) : (pagesPut e s).kilns = s.kilns := by
  have hKeeps : Keeps (· = .kilns) s (pagesPut e s) := by
    unfold pagesPut
    with_reducible refine Keeps.foldl (fun u p hu => ?_) _ (.refl _ s)
    exact putPage_keeps _ _ _ hu (by simp) (by simp)
  exact hKeeps.parts .kilns rfl

theorem groupsPut_colls (e : Secured) (s : State) : (groupsPut e s).colls = s.colls := rfl

theorem groupsPut_groups (e : Secured) (s : State) :
    (groupsPut e s).kilns.groups = e.groups.foldl (fun m g => kput m g.1 g.2) s.kilns.groups := rfl

theorem groupsPut_mem (e : Secured) (s : State) : (groupsPut e s).mem = s.mem := rfl

theorem writeState_mem (slot : Nat) (e : Secured) (s : State) : (writeState slot e s).mem = (pagesPut e s).mem := by
  rw [writeState_eq, groupsPut_mem]
  exact (modColl_keeps slot _ (.refl (· = .mem) (pagesPut e s)) (by simp)).parts .mem rfl

/-- What a state that is written back leaves, but for the pages. -/
theorem stateLanded_parts (slot : Nat) (q : Restoring) (e : Secured) (s : State) :
    (stateLanded slot q e s).slots = s.slots ∧ (stateLanded slot q e s).led = s.led ∧ (stateLanded slot q e s).beat = s.beat ∧
    (collOf (stateLanded slot q e s) slot).carries = e.carries ∧
    (stateLanded slot q e s).kilns.groups = e.groups.foldl (fun m g => kput m g.1 g.2) s.kilns.groups ∧
    (stateLanded slot q e s).mem = (pagesPut e s).mem := by
  have hWritten := writeState_keeps slot e (.refl (fun p => p = .slots ∨ p = .led ∨ p = .beat) s) (by simp) (by simp) (by simp) (by simp)
  have hCarries : (collOf (writeState slot e s) slot).carries = e.carries := by
    rw [writeState_eq, collOf_congr (groupsPut_colls ..), collOf_modColl_same]
  have hGroups : (writeState slot e s).kilns.groups = e.groups.foldl (fun m g => kput m g.1 g.2) s.kilns.groups := by
    have hKilns := (modColl_keeps slot (fun _ => { Coll.none with carries := e.carries }) (.refl (· = .kilns) (pagesPut e s))
      (by simp)).parts .kilns rfl
    rw [writeState_eq, groupsPut_groups, hKilns, pagesPut_kilns]
  have hMem := writeState_mem slot e s
  have hSlots := hWritten.parts .slots (.inl rfl)
  have hLed := hWritten.parts .led (.inr (.inl rfl))
  have hBeat := hWritten.parts .beat (.inr (.inr rfl))
  unfold stateLanded
  split
  · exact ⟨hSlots, hLed, hBeat, hCarries, hGroups, hMem⟩
  · exact ⟨hSlots, hLed, hBeat, hCarries, hGroups, hMem⟩

theorem train_trainRestored (slot : Nat) (e : Secured) (a : Nat) (s : State) : (slotOf (trainRestored slot e a s) slot).train =
    { (slotOf s slot).train with
      step := e.step + 1, attempt := a, lastCommitted := e.step, voided := none
      replayBeat := some (if (routeOf s slot).any (·.plan.isLocal) then (slotOf s slot).beat.count else s.beat.count) } := by
  unfold trainRestored
  rw [modTrain_eq, slotOf_modSlot_same]

/-- What stands over the restore in the module before the training is set. -/
theorem secureRestored_kept (slot : Nat) (e : Secured) (w : State) :
    Keeps (fun p => p ≠ .keeper ∧ p ≠ .secures) w (secureRestored slot e (meanTaken slot w)) := by
  unfold secureRestored meanTaken
  exact modSecure_keeps _ _ (modKeeper_keeps _ (.refl _ w) (by simp)) (by simp)

theorem restoreRun_kept (slot : Nat) (e : Secured) (w : State) :
    Keeps (fun p => p = .colls ∨ p = .kilns ∨ p = .mem) w (restoreRun slot e w) := by
  unfold restoreRun trainRestored secureRestored meanTaken
  exact count_keeps _ _ _ (modTrain_keeps _ _ (modSecure_keeps _ _ (modKeeper_keeps _ (.refl _ w) (by simp)) (by simp)) (by simp)) (by simp)

theorem restoreRun_train (slot : Nat) (e : Secured) (w : State) : (slotOf (restoreRun slot e w) slot).train = { (slotOf w slot).train with
    step := e.step + 1, attempt := if (committedRecord w slot (e.step + 1)).isSome then 1 else 0, lastCommitted := e.step, voided := none
    replayBeat := some (if (routeOf w slot).any (·.plan.isLocal) then (slotOf w slot).beat.count else w.beat.count) } := by
  have hKept := secureRestored_kept slot e w
  have hSlots := hKept.parts .slots (by simp)
  have hBeat := hKept.parts .beat (by simp)
  unfold restoreRun
  rw [slotOf_count, train_trainRestored, slotOf_congr hSlots, routeOf_congr hSlots, hBeat]
  rfl

theorem restoreRun_parts (slot : Nat) (e : Secured) (w : State) : (secureOf (restoreRun slot e w) slot).restoring = none ∧
    collOf (restoreRun slot e w) slot = collOf w slot ∧ (restoreRun slot e w).kilns = w.kilns ∧ (restoreRun slot e w).mem = w.mem := by
  have hKept := restoreRun_kept slot e w
  refine ⟨?_, collOf_congr (hKept.parts .colls (.inl rfl)) slot, hKept.parts .kilns (.inr (.inl rfl)), hKept.parts .mem (.inr (.inr rfl))⟩
  unfold restoreRun trainRestored secureRestored
  rw [secureOf_count, modTrain_eq, secureOf_modSlot, secureOf_modSecure_same]

/-- Storage given cells in their canonical form, all of it cleared before, reads as the cells. -/
theorem loadByte_cells {cells : Memory} (hWf : KMap.wf cells = true) {m : Memory} {a : Nat} (hClear : loadByte m a = 0) :
    loadByte (cells.foldl (fun m e => storeByte m e.1 e.2) m) a = loadByte cells a := by
  cases hCell : kget cells a with
  | none =>
    have hOther : ∀ e ∈ cells, e.1 ≠ a := by
      intro e he hAt
      have hThere := kget_of_mem hWf (show (a, e.2) ∈ cells by rw [← hAt]; exact he)
      rw [hCell] at hThere
      cases hThere
    rw [loadByte_foldl_other hOther, hClear, loadByte, kgetD, hCell]
    rfl
  | some v =>
    rw [loadByte_foldl_of_agree ⟨(a, v), mem_of_kget hCell, rfl⟩ (b := v) (fun e he hAt => ?_), loadByte, kgetD, hCell]
    · rfl
    · have hThere := kget_of_mem hWf (show (a, e.2) ∈ cells by rw [← show e.1 = a from hAt]; exact he)
      rw [hCell] at hThere
      exact (Option.some.inj hThere).symm

/-- A page that is written back reads as its cells, where no frame of it is cached. -/
theorem loadByte_putPage {i p : Nat} {cells : Memory} {s : State} (hFrame : frameOf s i p = none) (hWf : KMap.wf cells = true) {a : Nat}
    (hLow : pageAddress i p ≤ a) (hHigh : a < pageAddress i p + pageBytes) :
    loadByte (putPage i p cells s).mem.home a = loadByte cells a := by
  obtain ⟨hHome, hCache⟩ := copyOnWrite_kept i p s
  have hNone : frameOf (copyOnWrite i p s) i p = none := by
    rw [frameOf, hCache]
    exact hFrame
  have hPut : (putPage i p cells s).mem.home =
      cells.foldl (fun m e => storeByte m e.1 e.2) (clearBytes s.mem.home (pageAddress i p) pageBytes) := by
    unfold putPage
    dsimp only
    rw [hNone, ← hHome]
    rfl
  rw [hPut]
  exact loadByte_cells hWf ((loadByte_clearBytes ..).trans (if_pos ⟨hLow, hHigh⟩))

/-! The firmware handover (R35, R406). -/

/-- A service of the handover is due to move now. -/
structure HandoverDue (s : State) : Prop where
  runs : firmwareRuns s = true
  handover : s.sys.handover = 1
  boundary : s.clock = s.beat.opened

theorem execHandoverServiceMove_of_due (ok : Bool) {s : State} (h : HandoverDue s) : execHandoverServiceMove ok s = done (
    match inTransit s with
    | some c => if s.beat.count ≤ s.sys.movedAt then s else serviceBack c ok s
    | none => match nextService s with
      | some c => modSys (fun y => { y with carriers := [(c, carrierOf c)], movedAt := s.beat.count }) s
      | none => s) := by
  unfold execHandoverServiceMove
  rw [if_neg (by simp [h.runs, h.handover, h.boundary])] <;> rfl

theorem inTransit_of_carriers {s : State} {c k : Nat} {rest : List (Nat × Nat)} (h : s.sys.carriers = (c, k) :: rest) :
    inTransit s = some c := by rw [inTransit, h]; rfl

/-- The service as it is back at its core, before the next one is looked for. -/
def coreBack (c : Nat) (ok : Bool) (s : State) : State := modSys (fun y => { y with
  carriers := [], movedAt := s.beat.count
  rollback := if y.rollback = none ∧ ok = false then some c else y.rollback
  moved := if y.rollback.isSome then y.moved.filter (· != c) else if ok then y.moved ++ [c] else y.moved }) s

/-- Nothing is in transit after the step of `s` in which a service has come back. -/
def transitOver (s : State) : Sys := { s.sys with carriers := [], movedAt := s.beat.count }

theorem coreBack_forward {c : Nat} {ok : Bool} {s : State} (h : s.sys.rollback = none) (hOk : ok = true) :
    coreBack c ok s = { s with sys := { transitOver s with moved := s.sys.moved ++ [c] } } := by
  unfold coreBack transitOver modSys
  simp [h, hOk]

theorem coreBack_failed {c : Nat} {ok : Bool} {s : State} (h : s.sys.rollback = none) (hFailed : ok = false) :
    coreBack c ok s = { s with sys := { transitOver s with rollback := some c } } := by
  unfold coreBack transitOver modSys
  simp [h, hFailed]

theorem coreBack_back {c : Nat} (ok : Bool) {s : State} (h : s.sys.rollback ≠ none) :
    coreBack c ok s = { s with sys := { transitOver s with moved := s.sys.moved.filter (· != c) } } := by
  obtain ⟨d, hd⟩ := Option.ne_none_iff_exists'.mp h
  unfold coreBack transitOver modSys
  simp [hd]

/-- The service at which a handover that is taken back ends leaves nothing moved. -/
theorem coreBack_last {c : Nat} {ok : Bool} {s : State}
    (h : s.sys.rollback = none ∧ ok = false ∧ s.sys.moved = [] ∨ s.sys.rollback ≠ none ∧ s.sys.moved.filter (· != c) = []) :
    ∃ d, coreBack c ok s = { s with sys := { transitOver s with rollback := some d, moved := [] } } := by
  rcases h with ⟨hNone, hFailed, hMoved⟩ | ⟨hSome, hMoved⟩
  · refine ⟨c, (coreBack_failed hNone hFailed).trans ?_⟩
    rw [← hMoved]
    rfl
  · obtain ⟨d, hd⟩ := Option.ne_none_iff_exists'.mp hSome
    refine ⟨d, (coreBack_back ok hSome).trans ?_⟩
    rw [← hMoved, ← hd]
    rfl

theorem nextService_forward {s : State} (h : s.sys.rollback = none) :
    nextService s = handoverOrder.find? (fun c => !s.sys.moved.contains c) := by rw [nextService, h]

theorem nextService_back {s : State} (h : s.sys.rollback ≠ none) : nextService s = s.sys.moved.getLast? := by
  obtain ⟨d, hd⟩ := Option.ne_none_iff_exists'.mp h
  rw [nextService, hd]

theorem nextService_coreBack_forward {c : Nat} {ok : Bool} {s : State} (h : s.sys.rollback = none) (hOk : ok = true) :
    nextService (coreBack c ok s) = handoverOrder.find? (fun n => !(s.sys.moved ++ [c]).contains n) := by
  rw [coreBack_forward h hOk]
  exact nextService_forward (s := { s with sys := { transitOver s with moved := s.sys.moved ++ [c] } }) h

theorem nextService_coreBack_failed {c : Nat} {ok : Bool} {s : State} (h : s.sys.rollback = none) (hFailed : ok = false) :
    nextService (coreBack c ok s) = s.sys.moved.getLast? := by
  rw [coreBack_failed h hFailed]
  exact nextService_back (s := { s with sys := { transitOver s with rollback := some c } }) (Option.some_ne_none c)

theorem nextService_coreBack_back {c : Nat} (ok : Bool) {s : State} (h : s.sys.rollback ≠ none) :
    nextService (coreBack c ok s) = (s.sys.moved.filter (· != c)).getLast? := by
  rw [coreBack_back ok h]
  exact nextService_back (s := { s with sys := { transitOver s with moved := s.sys.moved.filter (· != c) } }) h

/-- What stays of a state given another `sys` stays of the state itself. -/
theorem sameBut_of_sys {parts : List Part} {y : Sys} {s t : State} (hSys : Part.sys ∈ parts) (h : SameBut parts { s with sys := y } t) :
    SameBut parts s t :=
  SameBut.trans (modSys_keeps (fun _ => y) (.refl (· ∉ parts) s) (by simpa using hSys)).sameBut h

theorem endHandover_failed {s : State} (h : s.sys.rollback ≠ none) :
    (endHandover s).sys = { s.sys with handover := 3, rollback := none } ∧ (endHandover s).led.events = (s.led.events + 1) % 2 ^ 64 ∧
    SameBut [.led, .ctr, .sys] s (endHandover s) := by
  obtain ⟨d, hd⟩ := Option.ne_none_iff_exists'.mp h
  unfold endHandover
  rw [hd]
  dsimp only
  rw [event_sys, event_led]
  exact ⟨rfl, rfl, (event_keeps _ _ _ (modSys_keeps _ (.refl (· ∉ [Part.led, .ctr, .sys]) s) (by simp)) (by simp) (by simp)).sameBut⟩

theorem endHandover_done {s : State} (h : s.sys.rollback = none) : (endHandover s).sys = { s.sys with
      handover := 2, moved := [], active := inactiveSlot s, runningVersion := (slotImage s (inactiveSlot s)).version
      runningDigest := (slotImage s (inactiveSlot s)).digest } ∧ SameBut [.ctr, .sys] s (endHandover s) := by
  unfold endHandover
  rw [h]
  exact ⟨rfl, (count_keeps _ _ _ (modSys_keeps _ (.refl (· ∉ [Part.ctr, .sys]) s) (by simp)) (by simp)).sameBut⟩

theorem handoverEffect_of_ready {s : State} (hIdle : (s.sys.handover == 1) = false) (hImage : (slotImage s (inactiveSlot s)).state = 1)
    (hInput : s.power.input = 0) (hBank : s.power.holdup = 2) (hCore : 7 ∉ s.sys.failedCores) : handoverEffect s =
      (stOk, { s with sys := { s.sys with handover := 1, moved := [], carriers := [], rollback := none } }) := by
  refine checked_of_ok ?_ s _
  have hNot : s.sys.handover ≠ 1 := by simpa using hIdle
  simp [firstStatus, hNot, hImage, hInput, hBank, hCore]

end Sys2Proof.Machine

open Sys2Proof Sys2Proof.Machine

/-- Settles O57: a restore is followed from its request to its start beat, and a handover from its request through each kind of move. -/
theorem restoresAndHandoversRunTheirSteps : Obligations.RestoresAndHandoversRunTheirSteps := by
  unfold Obligations.RestoresAndHandoversRunTheirSteps
  refine ⟨?request, ?accepted, ?start, ?handover, ?moves⟩
  case request =>
    intro who b r s hPasses hSlot hSource hZero hStart hRoute hTraining
    have hSame := begun_sameBut who (lastOf 0x290F 0 b) s
    have hRows : ∀ r ∈ objRows, r.index = 0x290F → r.access = .wo := by decide +kernel
    have hAccess : (rowOf 0x290F 0).access = .wo := rowOf_shares (P := fun r => r.access = .wo) (index := 0x290F) (sub := 0)
      hPasses.status rfl rfl hRows (by decide) (by decide +kernel) (by decide)
    refine askDomain_of_passes hPasses (by decide) ?_
    refine (writeEffect_of_command who b _ hAccess (by decide) (by decide)).trans ?_
    exact restoreEffect_of_passes hSlot hSource hZero (by rw [show (begun who (lastOf 0x290F 0 b) s).beat = s.beat from hSame.2 .beat (by simp)]
                                                          exact hStart)
      ((routeOf_congr (hSame.2 .slots (by simp)) _).trans hRoute) hTraining
  case accepted =>
    intro slot source step start s t
    have ht : t = _ := acceptRestore_eq slot source step start s
    rw [ht]
    cases hState : chooseState (voidAttempt slot s) slot source step with
    | none =>
      refine ⟨by rw [train_restoreFailed, train_voidAttempt], fun e h => absurd h (by simp), fun _ => ⟨by rw [train_restoreFailed], ?_⟩⟩
      exact restoreFailed_events ..
    | some e =>
      obtain ⟨hRestoring, hReleased⟩ := secureOf_restoreAwaited slot start e (voidAttempt slot s)
      have hTrain : (slotOf (setTrainState slot 2 (restoreAwaited slot start e (voidAttempt slot s))) slot).train =
          { (slotOf (voidAttempt slot s) slot).train with state := 2 } := by rw [train_setTrainState, slotOf_restoreAwaited]
      dsimp only
      rw [hTrain, secureOf_setTrainState, train_voidAttempt]
      refine ⟨rfl, fun e' h => ?_, fun h => absurd h (by simp)⟩
      obtain rfl := Option.some.inj h
      exact ⟨rfl, rfl, rfl, hRestoring, hReleased⟩
  case start =>
    intro slot q s hRestoring
    refine ⟨fun hEarly => ?_, fun e hDue hTime hState hReach => ?_, fun hDue hNot => ?_⟩
    · show execRestoreStart slot s = _
      unfold execRestoreStart
      rw [hRestoring]
      exact congrArg done (if_pos hEarly)
    · have hExec : exec (.restoreStart slot) s = .next _ := execRestoreStart_of_ready hRestoring hDue hTime hState hReach
      obtain ⟨hSlots, hLed, hBeat, hCarries, hGroups, hMem⟩ := stateLanded_parts slot q e s
      obtain ⟨hOver, hColl, hKilns, hKept⟩ := restoreRun_parts slot e (stateLanded slot q e s)
      have hRecord : committedRecord (stateLanded slot q e s) slot (e.step + 1) = committedRecord s slot (e.step + 1) := by
        rw [committedRecord, hLed]
        rfl
      refine ⟨_, hExec, ?_, hOver, ?_, ?_, ?_, sameBut_of_exec (by simp) hExec⟩
      · rw [restoreRun_train, slotOf_congr hSlots, routeOf_congr hSlots, hBeat, hRecord]
      · rw [hColl, hCarries]
      · rw [hKilns, hGroups]
      · intro i p cells hPages hFrame hWf _ a hLow hHigh
        rw [hKept, hMem]
        rw [pagesPut, hPages]
        exact loadByte_putPage hFrame hWf hLow hHigh
    · have hExec : exec (.restoreStart slot) s = .next _ := execRestoreStart_of_late hRestoring hDue hNot
      obtain ⟨hState, hOver, hEvents, hMem⟩ := restoreLate_parts slot q s
      exact ⟨_, hExec, hState, hOver, hEvents, hMem, sameBut_of_exec (by simp) hExec⟩
  case handover =>
    intro who b s hPasses hImage hInput hBank hCore
    have hRows : ∀ r ∈ objRows, r.index = 0x29C0 → r.access = .wo := by decide +kernel
    exact askWrite_of_command hPasses hRows (by decide) (by decide +kernel) (by decide) (by decide) (by decide)
      (handoverEffect_of_ready (commandRuns_of_status rfl hPasses.status) hImage hInput hBank hCore)
  case moves =>
    intro ok c k rest s hRuns hHandover hBoundary order y new
    have hRun := execHandoverServiceMove_of_due ok ⟨hRuns, hHandover, hBoundary⟩
    refine ⟨fun hNone hNext => ?_, fun hTransit hSame => ?_, fun hTransit hLater => ?_⟩
    · have hFree : inTransit s = none := by rw [inTransit, hNone]; rfl
      have hFound : nextService s = some c := by
        obtain ⟨hForward, hFound⟩ | ⟨hBack, hFound⟩ := hNext
        · exact (nextService_forward hForward).trans hFound
        · exact (nextService_back hBack).trans hFound
      rw [hFree, hFound] at hRun
      exact hRun
    · rw [inTransit_of_carriers hTransit] at hRun
      exact hRun.trans (congrArg done (if_pos hSame))
    · rw [inTransit_of_carriers hTransit] at hRun
      have hBack : execHandoverServiceMove ok s = done (if (nextService (coreBack c ok s)).isSome then coreBack c ok s
          else endHandover (coreBack c ok s)) := hRun.trans (congrArg done (if_neg (by omega)))
      refine ⟨fun hForward hOk hMore => ?_, fun hForward hOk hLast => ?_, fun hForward hFailed hSome => ?_, fun hTaken hSome => ?_, fun hEnd => ?_⟩
      · have hNext : (nextService (coreBack c ok s)).isSome = true := by
          rw [nextService_coreBack_forward hForward hOk]
          exact hMore
        rw [if_pos hNext, coreBack_forward hForward hOk] at hBack
        exact hBack
      · rw [(nextService_coreBack_forward hForward hOk).trans hLast, if_neg (by simp), coreBack_forward hForward hOk] at hBack
        obtain ⟨hSys, hRest⟩ := endHandover_done (s := { s with sys := { transitOver s with moved := s.sys.moved ++ [c] } }) hForward
        exact ⟨_, hBack, hSys, sameBut_of_sys (by simp) hRest⟩
      · rw [nextService_coreBack_failed hForward hFailed, if_pos (List.getLast?_isSome.mpr hSome), coreBack_failed hForward hFailed] at hBack
        exact hBack
      · rw [nextService_coreBack_back ok hTaken, if_pos (List.getLast?_isSome.mpr hSome), coreBack_back ok hTaken] at hBack
        exact hBack
      · obtain ⟨d, hAt⟩ := coreBack_last hEnd
        have hNext : nextService (coreBack c ok s) = none := by
          rw [hAt]
          exact nextService_back (s := { s with sys := { transitOver s with rollback := some d, moved := [] } }) (Option.some_ne_none d)
        rw [hNext, if_neg (by simp), hAt] at hBack
        obtain ⟨hSys, hEvents, hRest⟩ := endHandover_failed (s := { s with sys := { transitOver s with rollback := some d, moved := [] } })
          (Option.some_ne_none d)
        exact ⟨_, hBack, hSys, hEvents, sameBut_of_sys (by simp) hRest⟩

end
